-- ==== Sys2Proof/Word.lean ====
section
/-!
DEFINITION. The word types of the Marherex architecture (00 R4 to R6): bytes, the 32-bit slot and
cell word, and the 64-bit scalar word.
-/

namespace Sys2Proof

/-- One byte of any store (R6). -/
abbrev Byte := BitVec 8

/-- One 32-bit word: an instruction slot (R27) or a vector cell (R129). -/
abbrev W32 := BitVec 32

/-- One 64-bit word: a scalar register (R87) or a special register (R90). -/
abbrev W64 := BitVec 64

end Sys2Proof
end

