-- ==== Sys2Proof/Refs.lean ====
section
/-!
DEFINITION. Names of the agents of a module and the messages that reach them from outside: core and
task references (R8, R15, R92), ports (R14, Table 1.1), cells (R332, Table 16.1), remote requests and
replies (Table 16.4), the switch block (Table 18.3) and host frames (R394). They are plain data; the
machine steps of the opcode table (its rows without an encoding) take them as operands.
-/

namespace Sys2Proof

/-- A core of the module: die 0 to 7, core 0 to 95, 96 the lodge core, 97 the control core (R92). -/
structure CoreRef where
  die : Nat
  core : Nat
  deriving DecidableEq, Repr

/-- A task slot of a core (Table 1.8): slots 0 to 3, slot 0 alone on a lodge or control core. -/
structure TaskRef where
  die : Nat
  core : Nat
  slot : Nat
  deriving DecidableEq, Repr

/-- The core a task slot belongs to. -/
def TaskRef.coreRef (t : TaskRef) : CoreRef := ⟨t.die, t.core⟩

/-- An input or output port of a router: 0 N, 1 E, 2 S, 3 W, 4 local, 5 ring, 6 and 7 rack ports 0
and 1 (Table 15.3 NEXT, Table 18.2 PORT). -/
structure PortRef where
  die : Nat
  row : Nat
  col : Nat
  port : Nat
  deriving DecidableEq, Repr

/-- The guard of a slot (R27): G names p0 to p7 or q0 to q7, N inverts the sense. -/
structure Guard where
  idx : BitVec 3
  neg : Bool
  deriving DecidableEq, Repr

/-- The guard that is always true: p0 or q0 with N = 0 (R28). -/
def Guard.always : Guard := ⟨0, false⟩

/-- A cell: payload and tag (R332, Table 16.1). `psn` and `circ` are tag bits [95] and [93]; the
link fields SEQ, KSLOT and WRAP are held with the cell on the wire (`WireCell`). -/
structure Cell where
  typ : Nat
  flow : Nat
  job : Nat
  rank : Nat
  cidx : Nat
  psn : Bool
  circ : Bool
  payload : List Byte
  deriving DecidableEq, Repr

/-- A cell as it stands on a ring or rack link: its extended sequence, key slot and WRAP mark, and
whether its beats arrived whole and, on a rack port, authenticated (R344, R345, R350). -/
structure WireCell where
  eseq : Nat
  kslot : Nat
  wrap : Bool
  beatOk : Bool
  authOk : Bool
  cell : Cell
  deriving DecidableEq, Repr

/-- A remote request's payload (Table 16.4). `kind` is the cell TYPE: 1 load, 2 store, 3 atomic. -/
structure RemoteReq where
  kind : Nat
  job : Nat
  pa : Nat
  gen : Nat
  lgSize : Nat
  aop : Nat
  wide : Bool
  uns : Bool
  isFadd : Bool
  faddHi : Bool
  isCas : Bool
  id : Nat
  time : Nat
  operand : W64
  newVal : W64
  data : List Byte
  /-- A physical access, which carries no generation (R235). Table 16.4 has no place for it. -/
  phys : Bool := false
  deriving DecidableEq, Repr

/-- A reply's payload (Table 16.4): status 0 done, 1 stale, 2 busy, 3 physical-decode, 4 check-value. -/
structure RemoteRep where
  status : Nat
  id : Nat
  time : Nat
  data : List Byte
  deriving DecidableEq, Repr

/-- The switch block of GSW and GRES (Table 18.3). -/
structure SwitchBlock where
  job : Nat
  mask : BitVec 64
  orangery : Nat
  size : Nat
  turn : Nat
  deriving DecidableEq, Repr

/-- A monitor (R388): of register block `idx` of a die when `pavilion` is false, else of the Pavilion
with router number `idx` = row × 12 + column. -/
structure MonitorRef where
  die : Nat
  pavilion : Bool
  idx : Nat
  deriving DecidableEq, Repr

/-- The agent that makes a physical write (R24, R25): its die, its AGENT code of Table 19.3, the SLOT
field of its records, its job, the logical index of the task whose command it runs (all ones where
none), and whether it counts as a lodge's own write. -/
structure Writer where
  die : Nat
  agent : Nat
  slot : Nat
  job : Nat
  lidx : W64
  lodge : Bool
  deriving DecidableEq, Repr

/-- An error of a store (R386, Table 19.4): its source, 0 for one that is corrected, and the place of the store: an
address, or for a corrected error the monitor nearest it, a router from 16 on or a register block. -/
structure ErrorSource where
  source : Nat
  place : Nat
  deriving DecidableEq, Repr

/-- A frame of the host link (R393, R394): whether it is protected, with its association number, packet number and ICV,
then its EtherType, the fields of the host header, and its cells. -/
structure HostFrame where
  secure : Bool
  an : Nat
  pn : Nat
  icv : List (BitVec 8)
  etherType : Nat
  version : Nat
  count : Nat
  seq : Nat
  cells : List Cell
  deriving DecidableEq, Repr

/-- A LOAD message (R395, R402): the job, the virtual address and length of its image in job memory, and, in section
order, the virtual addresses the loader chooses for the image's sections and the largest `.align` of each, which the image
itself does not carry (R50, R53). -/
structure LoadMsg where
  job : Nat
  va : Nat
  len : Nat
  place : List Nat
  aligns : List Nat
  deriving DecidableEq, Repr

end Sys2Proof
end

