-- ==== Sys2Proof/Syntax.lean ====
section
/-!
DEFINITION. The instruction set of spec/opcode_table.json: one constructor per row. The rows with an
encoding are slots (R27): each carries its guard and the operand fields the row names, as the encoding
holds them. The rows without an encoding are the machine steps of the other agents and of the outside
world (spec/95_what_each_step_holds.md); their operands name the agent or carry the message.
-/

namespace Sys2Proof

/-- One constructor per row of the opcode table. -/
inductive Instr where
  /-- ADD (R94): Adds two scalar registers modulo 2^64. -/
  | add (g : Guard) (d a b : BitVec 5)
  /-- SUB (R94): Subtracts one scalar register from another modulo 2^64. -/
  | sub (g : Guard) (d a b : BitVec 5)
  /-- MUL (R94): Writes the low 64 bits of a scalar product. -/
  | mul (g : Guard) (d a b : BitVec 5)
  /-- MULH (R94): Writes the high 64 bits of a signed scalar product. -/
  | mulh (g : Guard) (d a b : BitVec 5)
  /-- MULHZ (R94): Writes the high 64 bits of an unsigned scalar product. -/
  | mulhz (g : Guard) (d a b : BitVec 5)
  /-- DIV (R95): Writes a signed quotient truncated toward zero. -/
  | div (g : Guard) (d a b : BitVec 5)
  /-- DIVZ (R95): Writes an unsigned quotient. -/
  | divz (g : Guard) (d a b : BitVec 5)
  /-- REM (R95): Writes a signed remainder with the sign of the dividend. -/
  | rem (g : Guard) (d a b : BitVec 5)
  /-- REMZ (R95): Writes an unsigned remainder. -/
  | remz (g : Guard) (d a b : BitVec 5)
  /-- AND (R94): Bitwise AND of two scalar registers. -/
  | and (g : Guard) (d a b : BitVec 5)
  /-- OR (R94): Bitwise OR of two scalar registers. -/
  | or (g : Guard) (d a b : BitVec 5)
  /-- XOR (R94): Bitwise XOR of two scalar registers. -/
  | xor (g : Guard) (d a b : BitVec 5)
  /-- ANDN (R94): ANDs a scalar register with the complement of another. -/
  | andn (g : Guard) (d a b : BitVec 5)
  /-- SHL (R94): Shifts a scalar left by s_b[5:0]. -/
  | shl (g : Guard) (d a b : BitVec 5)
  /-- SHR (R94): Shifts a scalar logically right by s_b[5:0]. -/
  | shr (g : Guard) (d a b : BitVec 5)
  /-- SRA (R94): Shifts a scalar arithmetically right by s_b[5:0]. -/
  | sra (g : Guard) (d a b : BitVec 5)
  /-- ROL (R94): Rotates a scalar left by s_b[5:0]. -/
  | rol (g : Guard) (d a b : BitVec 5)
  /-- MIN (R94): Signed minimum of two scalars. -/
  | min (g : Guard) (d a b : BitVec 5)
  /-- MAX (R94): Signed maximum of two scalars. -/
  | max (g : Guard) (d a b : BitVec 5)
  /-- MINZ (R94): Unsigned minimum of two scalars. -/
  | minz (g : Guard) (d a b : BitVec 5)
  /-- MAXZ (R94): Unsigned maximum of two scalars. -/
  | maxz (g : Guard) (d a b : BitVec 5)
  /-- CLZ (R94): Counts the leading zero bits of a scalar. -/
  | clz (g : Guard) (d a : BitVec 5)
  /-- CTZ (R94): Counts the trailing zero bits of a scalar. -/
  | ctz (g : Guard) (d a : BitVec 5)
  /-- POPC (R94): Counts the one bits of a scalar. -/
  | popc (g : Guard) (d a : BitVec 5)
  /-- BFX (R96): Extracts a sign-extended bit field. -/
  | bfx (g : Guard) (d a b : BitVec 5)
  /-- BFXZ (R96): Extracts a zero-extended bit field. -/
  | bfxz (g : Guard) (d a b : BitVec 5)
  /-- BFI (R96): Inserts a bit field into the destination. -/
  | bfi (g : Guard) (d a b : BitVec 5)
  /-- SEL (R94): Selects one of two scalars by a predicate. -/
  | sel (g : Guard) (d a b : BitVec 5) (p : BitVec 3)
  /-- ADDI (R97): Adds a signed 10-bit immediate. -/
  | addi (g : Guard) (d a : BitVec 5) (imm : BitVec 10)
  /-- ANDI (R97): ANDs with a sign-extended 10-bit immediate. -/
  | andi (g : Guard) (d a : BitVec 5) (imm : BitVec 10)
  /-- ORI (R97): ORs with an unsigned 10-bit immediate. -/
  | ori (g : Guard) (d a : BitVec 5) (imm : BitVec 10)
  /-- XORI (R97): XORs with an unsigned 10-bit immediate. -/
  | xori (g : Guard) (d a : BitVec 5) (imm : BitVec 10)
  /-- SHLI (R97): Shifts left by an immediate count. -/
  | shli (g : Guard) (d a : BitVec 5) (sh : BitVec 6)
  /-- SHRI (R97): Shifts logically right by an immediate count. -/
  | shri (g : Guard) (d a : BitVec 5) (sh : BitVec 6)
  /-- SRAI (R97): Shifts arithmetically right by an immediate count. -/
  | srai (g : Guard) (d a : BitVec 5) (sh : BitVec 6)
  /-- MOVI (R97): Loads a sign-extended 15-bit immediate. -/
  | movi (g : Guard) (d : BitVec 5) (imm : BitVec 15)
  /-- MOVH (R98): Shifts the destination left 15 bits and ORs in an immediate. -/
  | movh (g : Guard) (d : BitVec 5) (imm : BitVec 15)
  /-- ADDSH (R97): Adds a scalar shifted left by an immediate. -/
  | addsh (g : Guard) (d a b sh : BitVec 5)
  /-- CMP (R99): Compares two scalars and writes a predicate and its complement. -/
  | cmp (g : Guard) (pt pf : BitVec 3) (a b : BitVec 5) (cond : BitVec 4)
  /-- CMPI (R99): Compares a scalar with a 5-bit immediate and writes two predicates. -/
  | cmpi (g : Guard) (pt pf : BitVec 3) (a imm : BitVec 5) (cond : BitVec 4)
  /-- PAND (R100): ANDs two predicates. -/
  | pand (g : Guard) (d a b : BitVec 3)
  /-- POR (R100): ORs two predicates. -/
  | por (g : Guard) (d a b : BitVec 3)
  /-- PXOR (R100): XORs two predicates. -/
  | pxor (g : Guard) (d a b : BitVec 3)
  /-- PNOT (R100): Inverts a predicate. -/
  | pnot (g : Guard) (d a : BitVec 3)
  /-- MOVS (R101): Reads a task special register into a scalar. -/
  | movsRead (g : Guard) (r : BitVec 5) (num : BitVec 12)
  /-- MOVS (R101): Writes a task special register from a scalar. -/
  | movsWrite (g : Guard) (r : BitVec 5) (num : BitVec 12)
  /-- SFADD (R103): Adds two FP32 scalars. -/
  | sfadd (g : Guard) (d a b : BitVec 5) (rz : BitVec 1)
  /-- SFMUL (R103): Multiplies two FP32 scalars. -/
  | sfmul (g : Guard) (d a b : BitVec 5) (rz : BitVec 1)
  /-- SFFMA (R103): Fused multiply-add into the FP32 destination. -/
  | sffma (g : Guard) (d a b : BitVec 5) (rz : BitVec 1)
  /-- SFMIN (R103): FP32 scalar minimum. -/
  | sfmin (g : Guard) (d a b : BitVec 5)
  /-- SFMAX (R103): FP32 scalar maximum. -/
  | sfmax (g : Guard) (d a b : BitVec 5)
  /-- SFCMP (R104): Compares two FP32 scalars into two predicates. -/
  | sfcmp (g : Guard) (pt pf : BitVec 3) (a b : BitVec 5) (cond : BitVec 4)
  /-- SFCVT (R105): Converts between scalar formats by conversion code. -/
  | sfcvt (g : Guard) (d a code : BitVec 5) (rz : BitVec 1)
  /-- PREP (R107): Writes a relative target into a target-buffer entry. -/
  | prep (g : Guard) (tb : BitVec 2) (off : BitVec 18)
  /-- PREPR (R107): Writes a target from a scalar into a target-buffer entry. -/
  | prepr (g : Guard) (tb : BitVec 2) (a : BitVec 5)
  /-- BR (R108): Transfers through a target-buffer entry after two delay bundles. -/
  | br (g : Guard) (tb : BitVec 2)
  /-- BRL (R108): Transfers through a target-buffer entry and writes a return address. -/
  | brl (g : Guard) (tb : BitVec 2) (d : BitVec 5)
  /-- LOOP (R111): Pushes a loop level with a count from a scalar. -/
  | loop (g : Guard) (a : BitVec 5) (rot : BitVec 1) (off : BitVec 14)
  /-- LOOPI (R111): Pushes a loop level with an immediate count. -/
  | loopi (g : Guard) (count : BitVec 10) (rot : BitVec 1) (off : BitVec 9)
  /-- LBRK (R116): Pops the innermost loop level and continues after its end bundle. -/
  | lbrk (g : Guard)
  /-- LPOP (R116): Pops the innermost loop level and continues in sequence. -/
  | lpop (g : Guard)
  /-- END (R120): Ends the task at the boundary after the bundle. -/
  | endTask (g : Guard)
  /-- TRAP (R121): Raises a software trap carrying a code. -/
  | trap (g : Guard) (code : BitVec 20)
  /-- SYS (R122): Halts the task and posts a system-call event to the lodge. -/
  | sys (g : Guard) (a b code : BitVec 5)
  /-- ERET (R124): Returns from the lodge core's trap handler. -/
  | eret (g : Guard)
  /-- YIELD (R123): Offers the core to another ready task at the next boundary. -/
  | yield (g : Guard)
  /-- WAIT (R274): Waits for a barrier phase to differ from an expected parity. -/
  | wait (g : Guard) (a c : BitVec 5)
  /-- ARRIVE (R273): Fences and counts one arrival at a group barrier. -/
  | arrive (g : Guard) (c : BitVec 5)
  /-- PRMPT (R285): Requests the halt of named tasks of the lodge's die. -/
  | prmpt (g : Guard) (a c : BitVec 5)
  /-- RESUME (R285): Makes halted tasks ready again. -/
  | resume (g : Guard) (a c : BitVec 5)
  /-- CTXSV (R285): Saves a halted task's context record, optionally removing it. -/
  | ctxsv (g : Guard) (a b c : BitVec 5)
  /-- CTXLD (R285): Loads a context record into a slot, leaving the task halted. -/
  | ctxld (g : Guard) (a b c : BitVec 5)
  /-- TLBINV (R236): Invalidates translations of a range across the module. -/
  | tlbinv (g : Guard) (a b c : BitVec 5)
  /-- GENBUMP (R237): Advances the generation of a run of frames. -/
  | genbump (g : Guard) (a b : BitVec 5)
  /-- L2WB (R238): Writes back dirty L2 lines of a range, optionally invalidating them. -/
  | l2wb (g : Guard) (a b c : BitVec 5)
  /-- DOMSET (R239): Changes the die's L2 interleave domain. -/
  | domset (g : Guard) (a : BitVec 5)
  /-- GSW (R380): Switches a job off the modules of a mask at a turn. -/
  | gsw (g : Guard) (a c : BitVec 5)
  /-- GRES (R378): Restores a switched job on its module from the Orangery. -/
  | gres (g : Guard) (a c : BitVec 5)
  /-- ATTEST (R403): Requests a signed measurement record or an MJOB extension. -/
  | attest (g : Guard) (a b c : BitVec 5)
  /-- KEYLD (R407): Installs or clears a job key-table entry. -/
  | keyld (g : Guard) (a b c : BitVec 5)
  /-- NPLOAD (R330): Installs or removes a die's flow entries from a Parterre image. -/
  | npload (g : Guard) (a b c : BitVec 5)
  /-- RLINV (R367): Removes cached rank lists of the active job on every engine. -/
  | rlinv (g : Guard) (a : BitVec 5)
  /-- LKEY (R356): Installs, switches or clears a Gatehouse key slot. -/
  | lkey (g : Guard) (a b c : BitVec 5)
  /-- CSRR (R125): Reads a special, core or lodge register. -/
  | csrr (g : Guard) (r : BitVec 5) (num : BitVec 12)
  /-- CSRW (R125): Writes a special or lodge register. -/
  | csrw (g : Guard) (r : BitVec 5) (num : BitVec 12)
  /-- BGSET (R119): Arms or disarms the budget warning level. -/
  | bgset (g : Guard) (a : BitVec 5)
  /-- CKPT (R126): Marks a checkpoint and opens a checkpoint region. -/
  | ckpt (g : Guard)
  /-- NOP (R127): Does nothing. -/
  | nop (g : Guard)
  /-- LD (R164): Loads one scalar value through an address generator. -/
  | ld (g : Guard) (d : BitVec 5) (ag : BitVec 3) (post : BitVec 1) (ty : BitVec 3) (off : BitVec 8)
  /-- LD.RO (R164): Loads one scalar value over the read-only path. -/
  | ldRo (g : Guard) (d : BitVec 5) (ag : BitVec 3) (post : BitVec 1) (ty : BitVec 3) (off : BitVec 8)
  /-- ST (R164): Stores one scalar value through an address generator. -/
  | st (g : Guard) (d : BitVec 5) (ag : BitVec 3) (post : BitVec 1) (ty : BitVec 3) (off : BitVec 8)
  /-- VLD (R165): Loads a vector register row by row. -/
  | vld (g : Guard) (d : BitVec 5) (ag : BitVec 3) (post : BitVec 1) (ty : BitVec 3) (off : BitVec 8)
  /-- VLD.RO (R165): Loads a vector register over the read-only path. -/
  | vldRo (g : Guard) (d : BitVec 5) (ag : BitVec 3) (post : BitVec 1) (ty : BitVec 3) (off : BitVec 8)
  /-- VST (R165): Stores a vector register row by row. -/
  | vst (g : Guard) (d : BitVec 5) (ag : BitVec 3) (post : BitVec 1) (ty : BitVec 3) (off : BitVec 8)
  /-- AGSET (R162): Writes one address-generator field and restarts its nest. -/
  | agset (g : Guard) (r : BitVec 5) (ag : BitVec 3) (field : BitVec 4)
  /-- AGSTEP (R163): Advances an address generator n steps. -/
  | agstep (g : Guard) (ag : BitVec 3) (count : BitVec 12)
  /-- PREF (R169): Starts fetching a line into the L1 region. -/
  | pref (g : Guard) (ag : BitVec 3)
  /-- CLEAN (R169): Writes a dirty L1 line to its home and keeps it. -/
  | clean (g : Guard) (ag : BitVec 3)
  /-- INVAL (R169): Writes back a dirty L1 line and drops it. -/
  | inval (g : Guard) (ag : BitVec 3)
  /-- PHASE (R172): Sets the task's scratchpad window size and opens a drain bar. -/
  | phase (g : Guard) (steps : BitVec 4)
  /-- TTDEF (R179): Defines or undefines a tile entry. -/
  | ttdef (g : Guard) (r : BitVec 5) (tt : BitVec 8)
  /-- TTWAIT (R180): Stalls until a tile entry's phase differs from a parity. -/
  | ttwait (g : Guard) (r : BitVec 5) (tt : BitVec 8)
  /-- TTFREE (R181): Returns a READY tile entry to EMPTY for refilling. -/
  | ttfree (g : Guard) (tt : BitVec 8)
  /-- TTSTAT (R182): Reads a tile entry's state into a scalar. -/
  | ttstat (g : Guard) (d : BitVec 5) (tt : BitVec 8)
  /-- FENCE (R249): Orders later accesses after earlier ones at a scope. -/
  | fence (g : Guard) (sc : BitVec 2)
  /-- FENCE.ro (R249): Fences and drops the core's read-only lines. -/
  | fenceRo (g : Guard) (sc : BitVec 2)
  /-- AADD (R254): Atomic integer add returning the old value. -/
  | aadd (g : Guard) (d : BitVec 5) (ag : BitVec 3) (sc : BitVec 2) (ix wide : BitVec 1)
  /-- AMIN (R254): Atomic minimum returning the old value. -/
  | amin (g : Guard) (d : BitVec 5) (ag : BitVec 3) (sc : BitVec 2) (ix wide z : BitVec 1)
  /-- AMAX (R254): Atomic maximum returning the old value. -/
  | amax (g : Guard) (d : BitVec 5) (ag : BitVec 3) (sc : BitVec 2) (ix wide z : BitVec 1)
  /-- AAND (R254): Atomic bitwise AND returning the old value. -/
  | aand (g : Guard) (d : BitVec 5) (ag : BitVec 3) (sc : BitVec 2) (ix wide : BitVec 1)
  /-- AOR (R254): Atomic bitwise OR returning the old value. -/
  | aor (g : Guard) (d : BitVec 5) (ag : BitVec 3) (sc : BitVec 2) (ix wide : BitVec 1)
  /-- AXOR (R254): Atomic bitwise XOR returning the old value. -/
  | axor (g : Guard) (d : BitVec 5) (ag : BitVec 3) (sc : BitVec 2) (ix wide : BitVec 1)
  /-- ASWP (R254): Atomic swap returning the old value. -/
  | aswp (g : Guard) (d : BitVec 5) (ag : BitVec 3) (sc : BitVec 2) (ix wide : BitVec 1)
  /-- AINCB (R254): Atomic increment below a bound returning the old value. -/
  | aincb (g : Guard) (d : BitVec 5) (ag : BitVec 3) (sc : BitVec 2) (ix wide z : BitVec 1)
  /-- AFADD (R256): Atomic floating-point add, ordered or free. -/
  | afadd (g : Guard) (d : BitVec 5) (ag : BitVec 3) (ty : BitVec 2) (ord : BitVec 1) (sc : BitVec 2)
  /-- ACAS (R255): Atomic compare and swap. -/
  | acas (g : Guard) (d : BitVec 5) (ag : BitVec 3) (b : BitVec 4) (sc : BitVec 2) (ix wide : BitVec 1)
  /-- AORD.join (R261): Joins an ordered participant set. -/
  | aordJoin (g : Guard) (r : BitVec 5)
  /-- AORD.close (R261): Closes the task's open ordered participant set. -/
  | aordClose (g : Guard) (r : BitVec 5)
  /-- VADD (R140): Element-wise vector add. -/
  | vadd (g : Guard) (d a b : BitVec 5) (ty : BitVec 3) (mode : BitVec 2)
  /-- VSUB (R140): Element-wise vector subtract. -/
  | vsub (g : Guard) (d a b : BitVec 5) (ty : BitVec 3) (mode : BitVec 2)
  /-- VMUL (R140): Element-wise vector multiply. -/
  | vmul (g : Guard) (d a b : BitVec 5) (ty : BitVec 3) (mode : BitVec 2)
  /-- VFMA (R140): Element-wise fused multiply-add into the destination. -/
  | vfma (g : Guard) (d a b : BitVec 5) (ty : BitVec 3) (mode : BitVec 2)
  /-- VFMS (R140): Element-wise fused multiply-subtract of the destination. -/
  | vfms (g : Guard) (d a b : BitVec 5) (ty : BitVec 3) (mode : BitVec 2)
  /-- VMIN (R139): Element-wise vector minimum. -/
  | vmin (g : Guard) (d a b : BitVec 5) (ty : BitVec 3)
  /-- VMAX (R139): Element-wise vector maximum. -/
  | vmax (g : Guard) (d a b : BitVec 5) (ty : BitVec 3)
  /-- VABS (R140): Element-wise absolute value. -/
  | vabs (g : Guard) (d a : BitVec 5) (ty : BitVec 3)
  /-- VNEG (R140): Element-wise negation. -/
  | vneg (g : Guard) (d a : BitVec 5) (ty : BitVec 3)
  /-- VNOT (R141): Bitwise NOT of every cell. -/
  | vnot (g : Guard) (d a : BitVec 5)
  /-- VADDS (R141): Saturating integer vector add. -/
  | vadds (g : Guard) (d a b : BitVec 5) (ty : BitVec 3)
  /-- VSUBS (R141): Saturating integer vector subtract. -/
  | vsubs (g : Guard) (d a b : BitVec 5) (ty : BitVec 3)
  /-- VMULH (R141): High half of the integer element product. -/
  | vmulh (g : Guard) (d a b : BitVec 5) (ty : BitVec 3)
  /-- VAND (R141): Bitwise AND of two vector registers. -/
  | vand (g : Guard) (d a b : BitVec 5)
  /-- VOR (R141): Bitwise OR of two vector registers. -/
  | vor (g : Guard) (d a b : BitVec 5)
  /-- VXOR (R141): Bitwise XOR of two vector registers. -/
  | vxor (g : Guard) (d a b : BitVec 5)
  /-- VSHL (R141): Per-lane left shift. -/
  | vshl (g : Guard) (d a b : BitVec 5) (ty : BitVec 3)
  /-- VSHR (R141): Per-lane logical right shift. -/
  | vshr (g : Guard) (d a b : BitVec 5) (ty : BitVec 3)
  /-- VSRA (R141): Per-lane arithmetic right shift. -/
  | vsra (g : Guard) (d a b : BitVec 5) (ty : BitVec 3)
  /-- VCMP (R142): Element-wise compare into a lane predicate. -/
  | vcmp (g : Guard) (ch : BitVec 1) (d : BitVec 4) (a b : BitVec 5) (ty : BitVec 3) (cl : BitVec 2)
  /-- VSEL (R143): Selects between two registers by a lane predicate. -/
  | vsel (g : Guard) (d a b : BitVec 5) (q : BitVec 4)
  /-- VMOV (R144): Copies a vector register. -/
  | vmov (g : Guard) (d a : BitVec 5)
  /-- VSPLAT (R144): Broadcasts a scalar to every lane. -/
  | vsplat (g : Guard) (d a : BitVec 5) (ty : BitVec 3)
  /-- VIOTA.row (R144): Writes each lane's row index. -/
  | viotaRow (g : Guard) (d : BitVec 5)
  /-- VIOTA.col (R144): Writes each lane's column index. -/
  | viotaCol (g : Guard) (d : BitVec 5)
  /-- VIOTA.lin (R144): Writes each lane's linear index. -/
  | viotaLin (g : Guard) (d : BitVec 5)
  /-- VBROW (R146): Broadcasts one row to every row. -/
  | vbrow (g : Guard) (d a : BitVec 5) (n : BitVec 6)
  /-- VBCOL (R146): Broadcasts one column to every column. -/
  | vbcol (g : Guard) (d a : BitVec 5) (n : BitVec 6)
  /-- VROTR (R146): Rotates every row along its columns. -/
  | vrotr (g : Guard) (d a : BitVec 5) (n : BitVec 6)
  /-- VROTC (R146): Rotates every column along its rows. -/
  | vrotc (g : Guard) (d a : BitVec 5) (n : BitVec 6)
  /-- VREDR (R147): Reduces along each row. -/
  | vredr (g : Guard) (d a : BitVec 5) (op : BitVec 3) (rz : BitVec 1) (ty : BitVec 3) (ord : BitVec 1)
  /-- VREDC (R147): Reduces along each column. -/
  | vredc (g : Guard) (d a : BitVec 5) (op : BitVec 3) (rz : BitVec 1) (ty : BitVec 3) (ord : BitVec 1)
  /-- VSCANR (R147): Inclusive prefix along each row. -/
  | vscanr (g : Guard) (d a : BitVec 5) (op : BitVec 3) (rz : BitVec 1) (ty : BitVec 3) (ord : BitVec 1)
  /-- VSCANC (R147): Inclusive prefix along each column. -/
  | vscanc (g : Guard) (d a : BitVec 5) (op : BitVec 3) (rz : BitVec 1) (ty : BitVec 3) (ord : BitVec 1)
  /-- VXP (R146): Transposes each 16x16 block in place. -/
  | vxp (g : Guard) (d a : BitVec 5)
  /-- VPERM.row (R146): Permutes lanes within each row by index. -/
  | vpermRow (g : Guard) (d a b : BitVec 5)
  /-- VPERM.col (R146): Permutes lanes within each column by index. -/
  | vpermCol (g : Guard) (d a b : BitVec 5)
  /-- VEXT (R145): Reads one cell into a scalar. -/
  | vext (g : Guard) (d a b : BitVec 5)
  /-- VINS (R145): Writes one cell from a scalar. -/
  | vins (g : Guard) (d a b : BitVec 5)
  /-- QAND (R149): ANDs two lane predicates. -/
  | qand (g : Guard) (d a b : BitVec 4)
  /-- QOR (R149): ORs two lane predicates. -/
  | qor (g : Guard) (d a b : BitVec 4)
  /-- QXOR (R149): XORs two lane predicates. -/
  | qxor (g : Guard) (d a b : BitVec 4)
  /-- QNOT (R149): Inverts a lane predicate. -/
  | qnot (g : Guard) (d a : BitVec 4)
  /-- QCNT (R149): Counts true lanes into a scalar. -/
  | qcnt (g : Guard) (d : BitVec 5) (a : BitVec 4)
  /-- FEXP2 (R156): Correctly rounded 2^x on every element. -/
  | fexp2 (g : Guard) (d a : BitVec 5) (mode : BitVec 1)
  /-- FEXP (R156): Correctly rounded e^x on every element. -/
  | fexp (g : Guard) (d a : BitVec 5) (mode : BitVec 1)
  /-- FLOG2 (R156): Correctly rounded log2 on every element. -/
  | flog2 (g : Guard) (d a : BitVec 5) (mode : BitVec 1)
  /-- FRCP (R156): Correctly rounded reciprocal. -/
  | frcp (g : Guard) (d a : BitVec 5) (mode : BitVec 1)
  /-- FRSQ (R156): Correctly rounded reciprocal square root. -/
  | frsq (g : Guard) (d a : BitVec 5) (mode : BitVec 1)
  /-- FSQRT (R156): Correctly rounded square root. -/
  | fsqrt (g : Guard) (d a : BitVec 5) (mode : BitVec 1)
  /-- FDIV (R157): Correctly rounded element-wise division. -/
  | fdiv (g : Guard) (d a b : BitVec 5) (mode : BitVec 1)
  /-- FTANH (R156): Correctly rounded tanh. -/
  | ftanh (g : Guard) (d a : BitVec 5) (mode : BitVec 1)
  /-- FSIGM (R156): Correctly rounded logistic sigmoid. -/
  | fsigm (g : Guard) (d a : BitVec 5) (mode : BitVec 1)
  /-- FSIN (R156): Correctly rounded sine. -/
  | fsin (g : Guard) (d a : BitVec 5) (mode : BitVec 1)
  /-- FCOS (R156): Correctly rounded cosine. -/
  | fcos (g : Guard) (d a : BitVec 5) (mode : BitVec 1)
  /-- CVT (R80): Converts every element between formats. -/
  | cvt (g : Guard) (d a : BitVec 5) (src dst : BitVec 4) (rm : BitVec 2)
  /-- QNT4 (R83): Quantises FP32 rows into packed FP4 blocks. -/
  | qnt4 (g : Guard) (d a b : BitVec 5) (rm : BitVec 2)
  /-- DQNT4 (R83): Expands packed FP4 rows to FP32. -/
  | dqnt4 (g : Guard) (d a b : BitVec 5)
  /-- RNGSEED (R85): Seeds the task's random-bit generator. -/
  | rngseed (g : Guard) (a b : BitVec 5)
  /-- RNGSKIP (R85): Advances the task's random-bit stream. -/
  | rngskip (g : Guard) (a : BitVec 5)
  /-- EDSC (R218): Writes one engine descriptor field. -/
  | edsc (g : Guard) (r : BitVec 5) (e : BitVec 4) (field : BitVec 6)
  /-- CPY (R219): Issues a strided copy command. -/
  | cpy (g : Guard) (tok : BitVec 6) (e : BitVec 4)
  /-- GTH (R219): Issues an indexed gather command. -/
  | gth (g : Guard) (tok : BitVec 6) (e : BitVec 4)
  /-- SCT (R219): Issues an indexed scatter command. -/
  | sct (g : Guard) (tok : BitVec 6) (e : BitVec 4)
  /-- KWAIT (R223): Stalls while a token is PENDING. -/
  | kwait (g : Guard) (tok : BitVec 6)
  /-- KTEST (R223): Writes whether a token is no longer PENDING. -/
  | ktest (g : Guard) (tok : BitVec 6) (pd : BitVec 3)
  /-- KREL (R223): Releases a token to FREE. -/
  | krel (g : Guard) (tok : BitVec 6)
  /-- MSTRM (R197): Streams activation rows through a sub-array into a tile. -/
  | mstrm (g : Guard) (tok : BitVec 6) (e : BitVec 4) (tile : BitVec 6)
  /-- MZERO (R192): Clears an accumulator tile and makes it LIVE. -/
  | mzero (g : Guard) (idx : BitVec 6)
  /-- MCFG (R190): Claims and configures, or releases, an accumulator tile. -/
  | mcfg (g : Guard) (r : BitVec 5) (idx : BitVec 6)
  /-- MSPLIT (R188): Sets the array splitting mode. -/
  | msplit (g : Guard) (idx : BitVec 6)
  /-- MSKIP (R203): Switches zero skipping on or off. -/
  | mskip (g : Guard) (idx : BitVec 6)
  /-- MCLAIM (R187): Tries to take an operand slot or sub-array. -/
  | mclaim (g : Guard) (d : BitVec 5) (idx : BitVec 6)
  /-- MREL (R187): Gives up an operand slot or sub-array. -/
  | mrel (g : Guard) (idx : BitVec 6)
  /-- MLATCH (R195): Latches a weight image into a sub-array. -/
  | mlatch (g : Guard) (r : BitVec 5) (idx : BitVec 6)
  /-- MRD (R193): Reads a 4 KiB part of an accumulator unit into a vector register. -/
  | mrd (g : Guard) (v : BitVec 5) (tile : BitVec 6) (part : BitVec 2)
  /-- MWR (R193): Writes a 4 KiB part of an accumulator unit from a vector register. -/
  | mwr (g : Guard) (v : BitVec 5) (tile : BitVec 6) (part : BitVec 2)
  /-- MOUT (R204): Converts tile rows and writes them out. -/
  | mout (g : Guard) (tok : BitVec 6) (e : BitVec 4) (tile : BitVec 6)
  /-- TMM (R291): Tile matrix product D := C + A x B. -/
  | tmm (g : Guard) (tok : BitVec 6) (e : BitVec 4) (ord rz : BitVec 1)
  /-- TEW (R292): Tile element-wise operation. -/
  | tew (g : Guard) (tok : BitVec 6) (e : BitVec 4) (rz : BitVec 1)
  /-- TRED (R292): Tile reduction along rows or columns. -/
  | tred (g : Guard) (tok : BitVec 6) (e : BitVec 4) (ord rz : BitVec 1)
  /-- TSCAN (R292): Tile inclusive scan. -/
  | tscan (g : Guard) (tok : BitVec 6) (e : BitVec 4) (ord rz : BitVec 1)
  /-- TXP (R292): Tile transpose. -/
  | txp (g : Guard) (tok : BitVec 6) (e : BitVec 4)
  /-- TCVT (R292): Tile format conversion. -/
  | tcvt (g : Guard) (tok : BitVec 6) (e : BitVec 4) (rz : BitVec 1)
  /-- TCPY (R292): Tile copy. -/
  | tcpy (g : Guard) (tok : BitVec 6) (e : BitVec 4)
  /-- TBC (R292): Tile broadcast of a row or column. -/
  | tbc (g : Guard) (tok : BitVec 6) (e : BitVec 4)
  /-- TLNCH (R306): Launches a kernel of the active job from a control or lodge core. -/
  | tlnch (g : Guard) (tok : BitVec 6) (e : BitVec 4)
  /-- TWAIT (R307): Stalls while a token is PENDING and returns its outcome. -/
  | twait (g : Guard) (tok : BitVec 6) (d : BitVec 5)
  /-- TSTAT (R307): Returns a token's state and completed unit count. -/
  | tstat (g : Guard) (tok : BitVec 6) (d : BitVec 5)
  /-- TABORT (R307): Requests the abort of a running tile instruction. -/
  | tabort (g : Guard) (tok : BitVec 6) (d : BitVec 5)
  /-- FBIND (R327): Binds or unbinds an inbound flow queue. -/
  | fbind (g : Guard) (x : BitVec 5) (q : BitVec 1)
  /-- FSEND (R328): Sends a vector register as 32 flow cells. -/
  | fsend (g : Guard) (x f : BitVec 5)
  /-- FPUT (R327): Sends one flow cell carrying a scalar. -/
  | fput (g : Guard) (x f : BitVec 5)
  /-- FDRAIN (R327): Discards an inbound queue's cells. -/
  | fdrain (g : Guard) (x : BitVec 5) (q : BitVec 1)
  /-- FSTAT (R327): Reads an inbound queue's status. -/
  | fstat (g : Guard) (x : BitVec 5) (q : BitVec 1)
  /-- FTAKE (R329): Pops the die's stray queue into a vector register. -/
  | ftake (g : Guard) (x f : BitVec 5)
  /-- MCST (R355): Sends a multicast message. -/
  | mcst (g : Guard) (tok : BitVec 6) (e : BitVec 4)
  /-- COLL (R368): Starts one rank of a collective. -/
  | coll (g : Guard) (tok : BitVec 6) (e : BitVec 4) (ord rz : BitVec 1)
  /-- ISSUE_TICK (R271): At a tick the core issues the next bundle of the current or next ready task. -/
  | issueTick (c : CoreRef)
  /-- EVENT_ENTRY (R384): The lodge core enters its handler at a boundary when the event queue holds records. -/
  | eventEntry (die : Nat)
  /-- F_UNIT_FREE (R151): The F unit's four-tick occupancy ends and it accepts a new F slot. -/
  | fUnitFree (c : CoreRef)
  /-- PHASE_DRAIN_DONE (R173): The PHASE drain finishes writing back and zeroing moved steps. -/
  | phaseDrainDone (t : TaskRef)
  /-- PHASE_BAR_CLOSE (R174): The PHASE bar closes after 1024 x m issued bundles. -/
  | phaseBarClose (t : TaskRef)
  /-- L1_FILL (R167): A requested line arrives so the squashed bundle can replay. -/
  | l1Fill (c : CoreRef) (line : Nat)
  /-- L1_WRITEBACK (R234): A dirty L1 line is written back to its home and checked against the generation. -/
  | l1Writeback (c : CoreRef) (line : Nat)
  /-- HOME_LOAD (R244): A home serves a load or read right and extends the lease. -/
  | homeLoad (c : CoreRef) (line : Nat)
  /-- HOME_STORE (R244): A home grants a write right and sets write time and lease. -/
  | homeStore (c : CoreRef) (line : Nat)
  /-- ATOMIC_EXECUTE (R258): An atomic executes at its home slice at its wheel time. -/
  | atomicExecute (t : TaskRef)
  /-- ORDERED_RELEASE (R262): A held ordered atomic executes once all joined and lower participants closed. -/
  | orderedRelease (t : TaskRef)
  /-- ATOMIC_REPLY (R254): An atomic's old value returns and releases the held next bundle. -/
  | atomicReply (t : TaskRef)
  /-- COPY_START (R215): A copy command starts once all its bindings have completed. -/
  | copyStart (c : CoreRef) (tok : Nat)
  /-- COPY_CELL_WRITE (R221): The engine writes one cell of elements and counts it as an arrival. -/
  | copyCellWrite (c : CoreRef) (tok : Nat)
  /-- COPY_COMPLETE (R220): The copy completes, its token becomes DONE and a released source entry empties. -/
  | copyComplete (c : CoreRef) (tok : Nat)
  /-- STREAM_START (R199): An MSTRM stream starts after earlier commands and its tokens. -/
  | streamStart (c : CoreRef) (tok : Nat)
  /-- STREAM_COMPLETE (R199): A stream writes its last element and produces its token. -/
  | streamComplete (c : CoreRef) (tok : Nat)
  /-- MOUT_COMPLETE (R204): MOUT has written every byte and produces its token. -/
  | moutComplete (c : CoreRef) (tok : Nat)
  /-- ARRAY_ERROR (R208): An array, operand or accumulator error halts the core and rolls back the region. `source` is the code
  of Table 19.4, 0 for an error that is corrected (R386); `place` is the physical address of an error of code 4 or 5, the
  monitor of a corrected one, and the word of one of code 6. -/
  | arrayError (t : TaskRef) (source : ErrorSource)
  /-- RERUN_DONE (R208): The second rerun ends and the counts and signatures are compared. -/
  | rerunDone (c : CoreRef)
  /-- REGION_UNPROTECTED (R206): A region passing the log size or 4096 bundles becomes unprotected. -/
  | regionUnprotected (t : TaskRef)
  /-- SLOT_RELEASE (R270): An ended task's slot frees once its commands have completed. -/
  | slotRelease (t : TaskRef)
  /-- DISPATCH_GROUP (R268): The dispatcher places the next group whole when resources allow. -/
  | dispatchGroup (launch : Nat)
  /-- CLAIM (R277): The sequencer serves an SLN claim. -/
  | claim (t : TaskRef)
  /-- STEAL_REQUEST (R278): The sequencer serves a steal request from a victim's untaken iterations. -/
  | stealRequest (t : TaskRef)
  /-- TASK_HALT (R282): A pre-empted task halts at a bundle boundary. -/
  | taskHalt (t : TaskRef)
  /-- TILE_START (R290): A tile instruction reads and checks its block once its tokens are produced. -/
  | tileStart (c : CoreRef) (tok : Nat)
  /-- UNIT_COMPLETE (R304): A unit writes its partial or its tile and is recorded in DONE. -/
  | unitComplete (c : CoreRef) (tok unit : Nat)
  /-- TILE_FOLD (R297): A level folds a split tile once all its partials are in. -/
  | tileFold (c : CoreRef) (tok tile : Nat)
  /-- CHILD_LOST (R298): A lost child's incomplete units are handed to the remaining children. -/
  | childLost (c : CoreRef) (tok child : Nat)
  /-- TILE_COMPLETE (R303): The issuing level writes the record and sets the token. -/
  | tileComplete (c : CoreRef) (tok : Nat)
  /-- LAUNCH_COMPLETE (R306): All tasks of a TLNCH launch end and its token becomes DONE. -/
  | launchComplete (launch : Nat)
  /-- MCST_START (R355): A multicast checks its header and sends head and body cells. -/
  | mcstStart (c : CoreRef) (tok : Nat)
  /-- MCST_COMPLETE (R355): The last multicast cell leaves the send buffer. -/
  | mcstComplete (c : CoreRef) (tok : Nat)
  /-- CELL_ARRIVAL (R314): A flow cell reaches a Pavilion and is matched against its entries. -/
  | cellArrival (p : PortRef)
  /-- SLOT_SEND (R336): At each slot time a port chooses and sends one cell. -/
  | slotSend (p : PortRef)
  /-- LINK_CELL_RECEIVE (R344): A receiver accepts the next ESEQ in order or asks for a replay. -/
  | linkCellReceive (p : PortRef) (w : WireCell)
  /-- LINK_ACK (R344): An acknowledgement releases cells from the retry buffer. -/
  | linkAck (p : PortRef) (eseq : Nat)
  /-- REPLAY_REQUEST (R344): The sender replays from the asked ESEQ. -/
  | replayRequest (p : PortRef) (eseq : Nat)
  /-- LINK_SIGNAL_LOSS (R344): Loss of signal or alignment fails the link direction. -/
  | linkSignalLoss (p : PortRef)
  /-- RETRAIN_TIMEOUT (R344): A link not retrained within 10 us is failed. -/
  | retrainTimeout (p : PortRef)
  /-- MODULE_LOSS (R346): A neighbour that stops loses its acknowledged cells and fabric-loss faults are posted. -/
  | moduleLoss (p : PortRef)
  /-- RING_REFUSAL (R340): A refused ring cell circulates one circuit with CIRC set. -/
  | ringRefusal (p : PortRef) (cell : Cell)
  /-- NACK (R340): A second refusal returns the cell to its sender's NACK queue. -/
  | nack (p : PortRef) (cell : Cell)
  /-- NACK_RESEND (R340): A NACKed cell is resent at the start of the next frame. -/
  | nackResend (p : PortRef)
  /-- KEY_MARKER (R349): A key marker switches the receiver to the named slot or is refused. -/
  | keyMarker (p : PortRef) (slot : Nat)
  /-- KEY_REFUSAL (R349): The sender returns to the old slot and replays under it. -/
  | keyRefusal (p : PortRef)
  /-- REMOTE_REQUEST (R342): A home Gatehouse performs a remote request in sequence order. -/
  | remoteRequest (gate : Nat) (q : RemoteReq)
  /-- REPLY (R341): A reply cell completes a remote request at the requester. -/
  | reply (gate : Nat) (r : RemoteRep)
  /-- RETRANSMIT (R265): An unanswered request is resent after 20 us. -/
  | retransmit (id : Nat)
  /-- REMOTE_TIMEOUT (R265): A request unanswered after eight resends is abandoned. -/
  | remoteTimeout (id : Nat)
  /-- REPLY_CACHE_EXPIRE (R265): A cached reply leaves after 256 us. -/
  | replyCacheExpire (gate id : Nat)
  /-- SEQUENCE_SKIP (R342): A missing sequence number is skipped after 256 us. -/
  | sequenceSkip (gate source : Nat)
  /-- COLL_ARRIVE (R358): A rank's COLL reaches its engine and is grouped; the collective may start. -/
  | collArrive (c : CoreRef) (tok : Nat)
  /-- COLL_COMPLETE (R363): A rank's writes complete and its token becomes DONE. -/
  | collComplete (job : Nat) (collid : BitVec 64) (rank : Nat)
  /-- COLL_FAULT (R369): A fault at any rank ends the collective FAULTED at every rank. -/
  | collFault (job : Nat) (collid : BitVec 64) (cause rank : Nat)
  /-- TLBINV_ACK (R236): TLBINV is acknowledged after its drain. -/
  | tlbinvAck (die : Nat)
  /-- GENBUMP_DONE (R237): GENBUMP has written back frame lines and advanced every generation copy. -/
  | genbumpDone (die : Nat)
  /-- L2WB_DONE (R238): L2WB has written back its range. -/
  | l2wbDone (die : Nat)
  /-- DOMSET_DONE (R239): DOMSET switches the mask and replays held requests. -/
  | domsetDone (die : Nat)
  /-- NPLOAD_DONE (R330): NPLOAD installs its records all or nothing and returns a status. -/
  | nploadDone (die : Nat)
  /-- ATTEST_SERVE (R404): The attestation unit serves one request in arrival order. -/
  | attestServe
  /-- GSW_COMMAND (R372): A switch command reaches a module of the mask. -/
  | gswCommand (b : SwitchBlock)
  /-- GANG_STOP (R372): The module stops the job when its .pkg mark reaches the turn. -/
  | gangStop
  /-- GANG_STOP_TIMEOUT (R372): After 10 us the mark is raised to the turn and the job stops. -/
  | gangStopTimeout
  /-- GANG_MARKER (R373): A gang marker marks its port; the sweep closes when all are marked. -/
  | gangMarker (p : PortRef) (job turn : Nat)
  /-- LATE_CELL (R377): A cell after its port's marker joins the late list or is dropped. -/
  | lateCell (p : PortRef) (cell : Cell)
  /-- KILL (R385): A write of KILL ends the named tasks and faults their tokens. -/
  | kill (die : Nat) (target : BitVec 64)
  /-- MSEL_WRITE (R388): A write of MSEL selects a quantity and clears the monitor. -/
  | mselWrite (m : MonitorRef) (v : BitVec 64)
  /-- MONITOR_SAMPLE (R388): A monitor samples a level every 64 cycles or a latency per event. -/
  | monitorSample (m : MonitorRef) (v : Nat)
  /-- GHCFG_LOCK (R339): Setting LOCK fixes MODNUM and PRESENT until reset. -/
  | ghcfgLock (die : Nat) (v : BitVec 64)
  /-- REGISTER_WRITE (R24): A write to a register with no behaviour of its own. -/
  | registerWrite (w : Writer) (addr : Nat) (v : BitVec 64)
  /-- HOST_FRAME (R394): A MACsec-protected host frame is accepted or discarded. -/
  | hostFrame (f : HostFrame)
  /-- LAUNCH (R396): Host message that dispatches one launch. -/
  | hostLaunch (m : List (BitVec 8))
  /-- LOAD (R402): Host message that loads and measures a job image. -/
  | hostLoad (m : LoadMsg)
  /-- WRITE (R395): Host message that writes sealed data to job memory. -/
  | hostWrite (job va : Nat) (data : List (BitVec 8))
  /-- READ (R395): Host message that reads job memory into a sealed reply. -/
  | hostRead (job va size : Nat)
  /-- KEY (R407): Host message carrying a key blob for KEYLD. -/
  | hostKey (job : Nat) (blob : List (BitVec 8))
  /-- HOST_ATTEST (R403): Host message that requests a signed measurement record. -/
  | hostAttest (req : List (BitVec 8))
  /-- JOBEND (R395): Host message that kills a job's tasks and clears its key. -/
  | hostJobEnd (job : Nat)
  /-- GROTTO (R414): Host message that reads the Grotto dump after a fatal stop. -/
  | hostGrotto
  /-- CONFIG (R409): Host message that writes the rack word for the next bring-up. -/
  | hostConfig (word : BitVec 64)
  /-- MODULE_RESET (R408): Module reset starts bring-up through its stages to READY. -/
  | moduleReset (straps : BitVec 6)
  /-- POWER_TRIP (R410): An input voltage out of range for 1 ms is a fatal cause. -/
  | powerTrip (die high reading : Nat)
  /-- JUNCTION_TRIP (R410): A die reaching 105 C is a fatal cause. -/
  | junctionTrip (die reading : Nat)
  /-- PACKAGE_WATCHDOG (R389): A lodge failing the package watchdog is a fatal cause. -/
  | packageWatchdog (die : Nat)
  /-- FATAL_STOP (R389): A fatal cause halts the module and lodges dump to the Grotto. -/
  | fatalStop (die cause : Nat) (info : BitVec 64)
  /-- FATAL (R412): D0 sends the FATAL message once its Grotto section is complete. -/
  | fatalMessage
  /-- LINK_TRAINED (R344): A ring or rack link direction finishes training, becomes up, and the sender replays from the ESEQ after the last one accepted. -/
  | linkTrained (p : PortRef)
  /-- POWER_LOSS (R399): The module's supply is lost, ending all volatile state while NEXTIDX in non-volatile storage survives, so an index may be skipped but never reused. -/
  | powerLoss
  deriving DecidableEq, Repr

/-- A slot of a bundle: its stop bit and its instruction (R27). -/
structure Slot where
  stop : Bool
  instr : Instr
  deriving DecidableEq, Repr

end Sys2Proof
end

