-- ==== Sys2Proof/WellFormed.lean ====
section
/-!
DEFINITION. Well-formed instructions: for a slot, the operand values that its row of Tables 2.5 to
2.12 and its owning chapter accept (R33, R37, R39, R40, R81, R84, R90, R92, R125, R135, R139, R142,
R146, R148, R155, R162, R163, R187, R188, R195, R203, R218, R274); every other encoding raises an
illegal-instruction trap. For a machine step, that the agent it names exists (R8, R14, R15). The checks
that depend on the issuing task or core (R131, R175, R213, R16) are made at issue.
-/

namespace Sys2Proof

/-- The task special registers of Table 4.1 (R39, R90). -/
abbrev isTaskReg (n : Nat) : Prop :=
  n ≤ 0x00A ∨ (0x010 ≤ n ∧ n ≤ 0x015) ∨ (0x018 ≤ n ∧ n ≤ 0x01D) ∨ (0x020 ≤ n ∧ n ≤ 0x025) ∨
    (0x028 ≤ n ∧ n ≤ 0x02D) ∨ n = 0x030 ∨ n = 0x031 ∨ n = 0x038

/-- The task special registers whose Access is RW (Table 4.1). -/
abbrev isTaskRegRW (n : Nat) : Prop :=
  n = 0x000 ∨ n = 0x001 ∨ n = 0x00A ∨ (0x010 ≤ n ∧ n ≤ 0x015) ∨ (0x018 ≤ n ∧ n ≤ 0x01D) ∨
    (0x020 ≤ n ∧ n ≤ 0x025) ∨ (0x028 ≤ n ∧ n ≤ 0x02D) ∨ n = 0x030

/-- The numbers CSRR accepts: Table 4.1, Table 4.4 and the lodge range (R125). -/
abbrev isCsrReadable (n : Nat) : Prop :=
  isTaskReg n ∨ (0x100 ≤ n ∧ n ≤ 0x102) ∨ 0x800 ≤ n

/-- The read-only lodge registers of Table 19.2: ECAUSE, EINFO, EQTAIL, RETIRED0, RETIRED1. -/
abbrev isLodgeRO (n : Nat) : Prop :=
  n = 0x804 ∨ n = 0x805 ∨ n = 0x809 ∨ n = 0x812 ∨ n = 0x813

/-- The numbers CSRW accepts: no RO register (R125). -/
abbrev isCsrWritable (n : Nat) : Prop :=
  isTaskRegRW n ∨ (0x800 ≤ n ∧ ¬ isLodgeRO n)

/-- The format codes CVT accepts (Table 2.14, R81). -/
abbrev isCvtFormat (n : Nat) : Prop := n ≤ 12 ∧ n ≠ 5

/-- The descriptor fields EDSC may name (Table 10.3, R218). -/
abbrev isDescField (n : Nat) : Prop := n ≤ 29 ∨ (32 ≤ n ∧ n ≤ 38) ∨ (40 ≤ n ∧ n ≤ 44)

/-- A core that exists: eight dies of 96 compute cores, a lodge core and a control core (R8, R16). -/
abbrev CoreRef.ok (c : CoreRef) : Prop := c.die < 8 ∧ c.core < 98

/-- A task slot that exists (Table 1.8, R16). -/
abbrev TaskRef.ok (t : TaskRef) : Prop :=
  t.die < 8 ∧ t.core < 98 ∧ t.slot < 4 ∧ (t.core < 96 ∨ t.slot = 0)

/-- A port of a router of the 10 × 12 mesh (R14). -/
abbrev PortRef.ok (p : PortRef) : Prop := p.die < 8 ∧ p.row < 10 ∧ p.col < 12 ∧ p.port < 8

/-- The check of one instruction. An end14 or end9 of 0, which R111's range leaves out and no rule traps, is accepted:
DESIGN CHOICE, notes/assumptions/103. -/
def Instr.wf (i : Instr) : Bool :=
  match i with
  | .add _ _ _ _ => true
  | .sub _ _ _ _ => true
  | .mul _ _ _ _ => true
  | .mulh _ _ _ _ => true
  | .mulhz _ _ _ _ => true
  | .div _ _ _ _ => true
  | .divz _ _ _ _ => true
  | .rem _ _ _ _ => true
  | .remz _ _ _ _ => true
  | .and _ _ _ _ => true
  | .or _ _ _ _ => true
  | .xor _ _ _ _ => true
  | .andn _ _ _ _ => true
  | .shl _ _ _ _ => true
  | .shr _ _ _ _ => true
  | .sra _ _ _ _ => true
  | .rol _ _ _ _ => true
  | .min _ _ _ _ => true
  | .max _ _ _ _ => true
  | .minz _ _ _ _ => true
  | .maxz _ _ _ _ => true
  | .clz _ _ _ => true
  | .ctz _ _ _ => true
  | .popc _ _ _ => true
  | .bfx _ _ _ _ => true
  | .bfxz _ _ _ _ => true
  | .bfi _ _ _ _ => true
  | .sel _ _ _ _ _ => true
  | .addi _ _ _ _ => true
  | .andi _ _ _ _ => true
  | .ori _ _ _ _ => true
  | .xori _ _ _ _ => true
  | .shli _ _ _ _ => true
  | .shri _ _ _ _ => true
  | .srai _ _ _ _ => true
  | .movi _ _ _ => true
  | .movh _ _ _ => true
  | .addsh _ _ _ _ _ => true
  | .cmp _ pt pf _ _ cond => decide (cond.toNat ≤ 11 ∧ (pt ≠ pf ∨ pt = 0))
  | .cmpi _ pt pf _ _ cond => decide (cond.toNat ≤ 11 ∧ (pt ≠ pf ∨ pt = 0))
  | .pand _ _ _ _ => true
  | .por _ _ _ _ => true
  | .pxor _ _ _ _ => true
  | .pnot _ _ _ => true
  | .movsRead _ _ num => decide (isTaskReg num.toNat)
  | .movsWrite _ _ num => decide (isTaskRegRW num.toNat)
  | .sfadd _ _ _ _ _ => true
  | .sfmul _ _ _ _ _ => true
  | .sffma _ _ _ _ _ => true
  | .sfmin _ _ _ _ => true
  | .sfmax _ _ _ _ => true
  | .sfcmp _ pt pf _ _ cond => decide (cond.toNat ≤ 7 ∧ (pt ≠ pf ∨ pt = 0))
  | .sfcvt _ _ _ code _ => decide (code.toNat ≤ 7)
  | .prep _ _ _ => true
  | .prepr _ _ _ => true
  | .br _ _ => true
  | .brl _ _ _ => true
  | .loop _ _ _ _ => true
  | .loopi _ _ _ _ => true
  | .lbrk _ => true
  | .lpop _ => true
  | .endTask _ => true
  | .trap _ _ => true
  | .sys _ _ _ _ => true
  | .eret _ => true
  | .yield _ => true
  | .wait _ _ c => decide (c.toNat ≤ 7)
  | .arrive _ c => decide (c.toNat ≤ 7)
  | .prmpt _ _ _ => true
  | .resume _ _ _ => true
  | .ctxsv _ _ _ _ => true
  | .ctxld _ _ _ _ => true
  | .tlbinv _ _ _ _ => true
  | .genbump _ _ _ => true
  | .l2wb _ _ _ c => decide (c.toNat ≤ 1)
  | .domset _ _ => true
  | .gsw _ _ _ => true
  | .gres _ _ _ => true
  | .attest _ _ _ _ => true
  | .keyld _ _ _ _ => true
  | .npload _ _ _ _ => true
  | .rlinv _ _ => true
  | .lkey _ _ _ _ => true
  | .csrr _ _ num => decide (isCsrReadable num.toNat)
  | .csrw _ _ num => decide (isCsrWritable num.toNat)
  | .bgset _ _ => true
  | .ckpt _ => true
  | .nop _ => true
  | .ld _ _ _ _ ty _ => decide (ty.toNat ≠ 7)
  | .ldRo _ _ _ _ ty _ => decide (ty.toNat ≠ 7)
  | .st _ _ _ _ ty _ => decide (ty.toNat % 2 = 0)
  | .vld _ d _ _ ty _ => decide (ty.toNat ≠ 7 ∧ d.toNat < 30)
  | .vldRo _ d _ _ ty _ => decide (ty.toNat ≠ 7 ∧ d.toNat < 30)
  | .vst _ _ _ _ ty _ => decide (ty.toNat ≠ 7)
  | .agset _ _ _ field => decide (field.toNat ≤ 12)
  | .agstep _ _ count => decide (count.toNat ≠ 0)
  | .pref _ _ => true
  | .clean _ _ => true
  | .inval _ _ => true
  | .phase _ steps => decide (steps.toNat ≤ 12)
  | .ttdef _ _ _ => true
  | .ttwait _ _ _ => true
  | .ttfree _ _ => true
  | .ttstat _ _ _ => true
  | .fence _ _ => true
  | .fenceRo _ _ => true
  | .aadd _ _ _ _ _ _ => true
  | .amin _ _ _ _ _ _ _ => true
  | .amax _ _ _ _ _ _ _ => true
  | .aand _ _ _ _ _ _ => true
  | .aor _ _ _ _ _ _ => true
  | .axor _ _ _ _ _ _ => true
  | .aswp _ _ _ _ _ _ => true
  | .aincb _ _ _ _ _ _ _ => true
  | .afadd _ _ _ ty _ _ => decide (ty.toNat ≠ 3)
  | .acas _ _ _ _ _ _ _ => true
  | .aordJoin _ _ => true
  | .aordClose _ _ => true
  | .vadd _ d _ _ ty mode => decide (d.toNat < 30 ∧ (mode.toNat = 0 ∨ (mode.toNat = 1 ∧ ty.toNat ≤ 2)))
  | .vsub _ d _ _ ty mode => decide (d.toNat < 30 ∧ (mode.toNat = 0 ∨ (mode.toNat = 1 ∧ ty.toNat ≤ 2)))
  | .vmul _ d _ _ ty mode => decide (d.toNat < 30 ∧ (mode.toNat = 0 ∨ (mode.toNat = 1 ∧ ty.toNat ≤ 2)))
  | .vfma _ d _ _ ty mode => decide (d.toNat < 30 ∧ (mode.toNat = 0 ∨ (mode.toNat = 1 ∧ ty.toNat ≤ 2)))
  | .vfms _ d _ _ ty mode => decide (d.toNat < 30 ∧ (mode.toNat = 0 ∨ (mode.toNat = 1 ∧ ty.toNat ≤ 2)))
  | .vmin _ d _ _ _ => decide (d.toNat < 30)
  | .vmax _ d _ _ _ => decide (d.toNat < 30)
  | .vabs _ d _ _ => decide (d.toNat < 30)
  | .vneg _ d _ _ => decide (d.toNat < 30)
  | .vnot _ d _ => decide (d.toNat < 30)
  | .vadds _ d _ _ ty => decide (d.toNat < 30 ∧ 3 ≤ ty.toNat)
  | .vsubs _ d _ _ ty => decide (d.toNat < 30 ∧ 3 ≤ ty.toNat)
  | .vmulh _ d _ _ ty => decide (d.toNat < 30 ∧ 3 ≤ ty.toNat)
  | .vand _ d _ _ => decide (d.toNat < 30)
  | .vor _ d _ _ => decide (d.toNat < 30)
  | .vxor _ d _ _ => decide (d.toNat < 30)
  | .vshl _ d _ _ ty => decide (d.toNat < 30 ∧ 3 ≤ ty.toNat)
  | .vshr _ d _ _ ty => decide (d.toNat < 30 ∧ 3 ≤ ty.toNat)
  | .vsra _ d _ _ ty => decide (d.toNat < 30 ∧ 3 ≤ ty.toNat)
  | .vcmp _ ch _ _ _ ty cl => decide ((ch.toNat = 0 ∨ cl.toNat ≤ 1 ∨ ty.toNat ≤ 2))
  | .vsel _ d _ _ _ => decide (d.toNat < 30)
  | .vmov _ d _ => decide (d.toNat < 30)
  | .vsplat _ d _ _ => decide (d.toNat < 30)
  | .viotaRow _ d => decide (d.toNat < 30)
  | .viotaCol _ d => decide (d.toNat < 30)
  | .viotaLin _ d => decide (d.toNat < 30)
  | .vbrow _ d _ n => decide (d.toNat < 30 ∧ n.toNat ≤ 15)
  | .vbcol _ d _ _ => decide (d.toNat < 30)
  | .vrotr _ d _ _ => decide (d.toNat < 30)
  | .vrotc _ d _ n => decide (d.toNat < 30 ∧ n.toNat ≤ 15)
  | .vredr _ d _ op rz ty ord => decide (d.toNat < 30 ∧ op.toNat ≤ 5 ∧ (op.toNat ≤ 2 ∨ 3 ≤ ty.toNat) ∧ ((rz.toNat = 0 ∧ ord.toNat = 0) ∨ (op.toNat = 0 ∧ ty.toNat ≤ 2)))
  | .vredc _ d _ op rz ty ord => decide (d.toNat < 30 ∧ op.toNat ≤ 5 ∧ (op.toNat ≤ 2 ∨ 3 ≤ ty.toNat) ∧ ((rz.toNat = 0 ∧ ord.toNat = 0) ∨ (op.toNat = 0 ∧ ty.toNat ≤ 2)))
  | .vscanr _ d _ op rz ty ord => decide (d.toNat < 30 ∧ op.toNat ≤ 2 ∧ ((rz.toNat = 0 ∧ ord.toNat = 0) ∨ (op.toNat = 0 ∧ ty.toNat ≤ 2)))
  | .vscanc _ d _ op rz ty ord => decide (d.toNat < 30 ∧ op.toNat ≤ 2 ∧ ((rz.toNat = 0 ∧ ord.toNat = 0) ∨ (op.toNat = 0 ∧ ty.toNat ≤ 2)))
  | .vxp _ d _ => decide (d.toNat < 30)
  | .vpermRow _ d _ _ => decide (d.toNat < 30)
  | .vpermCol _ d _ _ => decide (d.toNat < 30)
  | .vext _ _ _ _ => true
  | .vins _ d _ _ => decide (d.toNat < 30)
  | .qand _ _ _ _ => true
  | .qor _ _ _ _ => true
  | .qxor _ _ _ _ => true
  | .qnot _ _ _ => true
  | .qcnt _ _ _ => true
  | .fexp2 _ d _ _ => decide (d.toNat < 30)
  | .fexp _ d _ _ => decide (d.toNat < 30)
  | .flog2 _ d _ _ => decide (d.toNat < 30)
  | .frcp _ d _ _ => decide (d.toNat < 30)
  | .frsq _ d _ _ => decide (d.toNat < 30)
  | .fsqrt _ d _ _ => decide (d.toNat < 30)
  | .fdiv _ d _ _ _ => decide (d.toNat < 30)
  | .ftanh _ d _ _ => decide (d.toNat < 30)
  | .fsigm _ d _ _ => decide (d.toNat < 30)
  | .fsin _ d _ _ => decide (d.toNat < 30)
  | .fcos _ d _ _ => decide (d.toNat < 30)
  | .cvt _ d _ src dst rm => decide (d.toNat < 30 ∧ isCvtFormat src.toNat ∧ isCvtFormat dst.toNat ∧ rm.toNat ≠ 3)
  | .qnt4 _ d _ _ rm => decide (d.toNat < 30 ∧ rm.toNat ≠ 3)
  | .dqnt4 _ d _ _ => decide (d.toNat < 30)
  | .rngseed _ _ _ => true
  | .rngskip _ _ => true
  | .edsc _ _ _ field => decide (isDescField field.toNat)
  | .cpy _ _ _ => true
  | .gth _ _ _ => true
  | .sct _ _ _ => true
  | .kwait _ _ => true
  | .ktest _ _ _ => true
  | .krel _ _ => true
  | .mstrm _ _ _ _ => true
  | .mzero _ _ => true
  | .mcfg _ _ _ => true
  | .msplit _ idx => decide (idx.toNat ≤ 2)
  | .mskip _ idx => decide (idx.toNat ≤ 1)
  | .mclaim _ _ idx => decide (idx.toNat ≤ 19)
  | .mrel _ idx => decide (idx.toNat ≤ 19)
  | .mlatch _ _ idx => decide (idx.toNat ≤ 15)
  | .mrd _ v _ _ => decide (v.toNat < 30)
  | .mwr _ _ _ _ => true
  | .mout _ _ _ _ => true
  | .tmm _ _ _ _ _ => true
  | .tew _ _ _ _ => true
  | .tred _ _ _ _ _ => true
  | .tscan _ _ _ _ _ => true
  | .txp _ _ _ => true
  | .tcvt _ _ _ _ => true
  | .tcpy _ _ _ => true
  | .tbc _ _ _ => true
  | .tlnch _ _ _ => true
  | .twait _ _ _ => true
  | .tstat _ _ _ => true
  | .tabort _ _ _ => true
  | .fbind _ _ _ => true
  | .fsend _ _ _ => true
  | .fput _ _ _ => true
  | .fdrain _ _ _ => true
  | .fstat _ _ _ => true
  | .ftake _ _ f => decide (f.toNat < 30)
  | .mcst _ _ _ => true
  | .coll _ _ _ _ _ => true
  | .issueTick c => decide (c.ok)
  | .eventEntry die => decide (die < 8)
  | .fUnitFree c => decide (c.ok)
  | .phaseDrainDone t => decide (t.ok)
  | .phaseBarClose t => decide (t.ok)
  | .l1Fill c _ => decide (c.ok)
  | .l1Writeback c _ => decide (c.ok)
  | .homeLoad c _ => decide (c.ok)
  | .homeStore c _ => decide (c.ok)
  | .atomicExecute t => decide (t.ok)
  | .orderedRelease t => decide (t.ok)
  | .atomicReply t => decide (t.ok)
  | .copyStart c _ => decide (c.ok)
  | .copyCellWrite c _ => decide (c.ok)
  | .copyComplete c _ => decide (c.ok)
  | .streamStart c _ => decide (c.ok)
  | .streamComplete c _ => decide (c.ok)
  | .moutComplete c _ => decide (c.ok)
  | .arrayError t _ => decide (t.ok)
  | .rerunDone c => decide (c.ok)
  | .regionUnprotected t => decide (t.ok)
  | .slotRelease t => decide (t.ok)
  | .dispatchGroup _ => true
  | .claim t => decide (t.ok)
  | .stealRequest t => decide (t.ok)
  | .taskHalt t => decide (t.ok)
  | .tileStart c _ => decide (c.ok)
  | .unitComplete c _ _ => decide (c.ok)
  | .tileFold c _ _ => decide (c.ok)
  | .childLost c _ _ => decide (c.ok)
  | .tileComplete c _ => decide (c.ok)
  | .launchComplete _ => true
  | .mcstStart c _ => decide (c.ok)
  | .mcstComplete c _ => decide (c.ok)
  | .cellArrival p => decide (p.ok)
  | .slotSend p => decide (p.ok)
  | .linkCellReceive p _ => decide (p.ok)
  | .linkAck p _ => decide (p.ok)
  | .replayRequest p _ => decide (p.ok)
  | .linkSignalLoss p => decide (p.ok)
  | .retrainTimeout p => decide (p.ok)
  | .moduleLoss p => decide (p.ok)
  | .ringRefusal p _ => decide (p.ok)
  | .nack p _ => decide (p.ok)
  | .nackResend p => decide (p.ok)
  | .keyMarker p _ => decide (p.ok)
  | .keyRefusal p => decide (p.ok)
  | .remoteRequest gate _ => decide (gate < 8)
  | .reply gate _ => decide (gate < 8)
  | .retransmit _ => true
  | .remoteTimeout _ => true
  | .replyCacheExpire gate _ => decide (gate < 8)
  | .sequenceSkip gate _ => decide (gate < 8)
  | .collArrive c _ => decide (c.ok)
  | .collComplete _ _ _ => true
  | .collFault _ _ _ _ => true
  | .tlbinvAck die => decide (die < 8)
  | .genbumpDone die => decide (die < 8)
  | .l2wbDone die => decide (die < 8)
  | .domsetDone die => decide (die < 8)
  | .nploadDone die => decide (die < 8)
  | .attestServe => true
  | .gswCommand _ => true
  | .gangStop => true
  | .gangStopTimeout => true
  | .gangMarker p _ _ => decide (p.ok)
  | .lateCell p _ => decide (p.ok)
  | .kill die _ => decide (die < 8)
  | .mselWrite _ _ => true
  | .monitorSample _ _ => true
  | .ghcfgLock die _ => decide (die < 8)
  | .registerWrite _ _ _ => true
  | .hostFrame _ => true
  | .hostLaunch _ => true
  | .hostLoad _ => true
  | .hostWrite _ _ _ => true
  | .hostRead _ _ _ => true
  | .hostKey _ _ => true
  | .hostAttest _ => true
  | .hostJobEnd _ => true
  | .hostGrotto => true
  | .hostConfig _ => true
  | .moduleReset _ => true
  | .powerTrip die _ _ => decide (die < 8)
  | .junctionTrip die _ => decide (die < 8)
  | .packageWatchdog die => decide (die < 8)
  | .fatalStop die _ _ => decide (die < 8)
  | .fatalMessage => true
  | .linkTrained p => decide (p.ok)
  | .powerLoss => true

end Sys2Proof
end

