-- ==== Sys2Proof/Decode.lean ====
section
/-!
DEFINITION. The decoder and the encoder of 32-bit slots, from the slot layout of Table 2.1, the
operand layouts of Table 2.4 and the opcode tables 2.5 to 2.12 (R27, R36, R38). Decoding is total and
refuses by name what R33 traps as an illegal instruction.
-/

namespace Sys2Proof

/-- Why a word is no instruction (R33). -/
inductive Reject where
  /-- The primary opcode is marked unassigned in Tables 2.5 to 2.12. -/
  | unassignedOp (op : Nat)
  /-- The sub-op or code is unassigned, or a field marked zero is not zero. -/
  | unassignedCode (op : Nat)
  /-- A type, format, rounding or order code, a register number or an amount the instruction does
  not accept (R33, R37, R131's v30 and v31). -/
  | refusedOperand (op : Nat)
  deriving DecidableEq, Repr

/-- Bits [hi:lo] of a word (R5). -/
def bits (n hi lo : Nat) : Nat := n / 2 ^ lo % 2 ^ (hi + 1 - lo)

/-- The operand field of k bits at bit lo. -/
def fld (n lo k : Nat) : BitVec k := BitVec.ofNat k (n / 2 ^ lo)

/-- The guard of a word: G [30:28] and N [27] (Table 2.1). -/
def guardOf (n : Nat) : Guard := ⟨fld n 28 3, decide (bits n 27 27 = 1)⟩

/-- Class 000, Table 2.5: the row of a word of this class, its fixed bits checked. -/
def rowsX0 (op n : Nat) (g : Guard) : Option Instr :=
  if op = 0x00 ∧ bits n 4 0 = 0 then some (.add g (fld n 15 5) (fld n 10 5) (fld n 5 5))
  else if op = 0x01 ∧ bits n 4 0 = 0 then some (.sub g (fld n 15 5) (fld n 10 5) (fld n 5 5))
  else if op = 0x02 ∧ bits n 4 0 = 0 then some (.mul g (fld n 15 5) (fld n 10 5) (fld n 5 5))
  else if op = 0x02 ∧ bits n 4 0 = 1 then some (.mulh g (fld n 15 5) (fld n 10 5) (fld n 5 5))
  else if op = 0x02 ∧ bits n 4 0 = 2 then some (.mulhz g (fld n 15 5) (fld n 10 5) (fld n 5 5))
  else if op = 0x03 ∧ bits n 4 0 = 0 then some (.div g (fld n 15 5) (fld n 10 5) (fld n 5 5))
  else if op = 0x03 ∧ bits n 4 0 = 1 then some (.divz g (fld n 15 5) (fld n 10 5) (fld n 5 5))
  else if op = 0x03 ∧ bits n 4 0 = 2 then some (.rem g (fld n 15 5) (fld n 10 5) (fld n 5 5))
  else if op = 0x03 ∧ bits n 4 0 = 3 then some (.remz g (fld n 15 5) (fld n 10 5) (fld n 5 5))
  else if op = 0x04 ∧ bits n 4 0 = 0 then some (.and g (fld n 15 5) (fld n 10 5) (fld n 5 5))
  else if op = 0x04 ∧ bits n 4 0 = 1 then some (.or g (fld n 15 5) (fld n 10 5) (fld n 5 5))
  else if op = 0x04 ∧ bits n 4 0 = 2 then some (.xor g (fld n 15 5) (fld n 10 5) (fld n 5 5))
  else if op = 0x04 ∧ bits n 4 0 = 3 then some (.andn g (fld n 15 5) (fld n 10 5) (fld n 5 5))
  else if op = 0x05 ∧ bits n 4 0 = 0 then some (.shl g (fld n 15 5) (fld n 10 5) (fld n 5 5))
  else if op = 0x05 ∧ bits n 4 0 = 1 then some (.shr g (fld n 15 5) (fld n 10 5) (fld n 5 5))
  else if op = 0x05 ∧ bits n 4 0 = 2 then some (.sra g (fld n 15 5) (fld n 10 5) (fld n 5 5))
  else if op = 0x05 ∧ bits n 4 0 = 3 then some (.rol g (fld n 15 5) (fld n 10 5) (fld n 5 5))
  else if op = 0x06 ∧ bits n 4 0 = 0 then some (.min g (fld n 15 5) (fld n 10 5) (fld n 5 5))
  else if op = 0x06 ∧ bits n 4 0 = 1 then some (.max g (fld n 15 5) (fld n 10 5) (fld n 5 5))
  else if op = 0x06 ∧ bits n 4 0 = 2 then some (.minz g (fld n 15 5) (fld n 10 5) (fld n 5 5))
  else if op = 0x06 ∧ bits n 4 0 = 3 then some (.maxz g (fld n 15 5) (fld n 10 5) (fld n 5 5))
  else if op = 0x07 ∧ bits n 9 0 = 0 then some (.clz g (fld n 15 5) (fld n 10 5))
  else if op = 0x07 ∧ bits n 9 0 = 1 then some (.ctz g (fld n 15 5) (fld n 10 5))
  else if op = 0x07 ∧ bits n 9 0 = 2 then some (.popc g (fld n 15 5) (fld n 10 5))
  else if op = 0x08 ∧ bits n 4 0 = 0 then some (.bfx g (fld n 15 5) (fld n 10 5) (fld n 5 5))
  else if op = 0x09 ∧ bits n 4 0 = 0 then some (.bfxz g (fld n 15 5) (fld n 10 5) (fld n 5 5))
  else if op = 0x0A ∧ bits n 4 0 = 0 then some (.bfi g (fld n 15 5) (fld n 10 5) (fld n 5 5))
  else if op = 0x0B ∧ bits n 4 3 = 0 then some (.sel g (fld n 15 5) (fld n 10 5) (fld n 5 5) (fld n 0 3))
  else none

/-- Class 001, Table 2.6: the row of a word of this class, its fixed bits checked. -/
def rowsX1 (op n : Nat) (g : Guard) : Option Instr :=
  if op = 0x10 then some (.addi g (fld n 15 5) (fld n 10 5) (fld n 0 10))
  else if op = 0x11 then some (.andi g (fld n 15 5) (fld n 10 5) (fld n 0 10))
  else if op = 0x12 then some (.ori g (fld n 15 5) (fld n 10 5) (fld n 0 10))
  else if op = 0x13 then some (.xori g (fld n 15 5) (fld n 10 5) (fld n 0 10))
  else if op = 0x14 ∧ bits n 9 6 = 0 then some (.shli g (fld n 15 5) (fld n 10 5) (fld n 0 6))
  else if op = 0x14 ∧ bits n 9 6 = 4 then some (.shri g (fld n 15 5) (fld n 10 5) (fld n 0 6))
  else if op = 0x14 ∧ bits n 9 6 = 8 then some (.srai g (fld n 15 5) (fld n 10 5) (fld n 0 6))
  else if op = 0x15 then some (.movi g (fld n 15 5) (fld n 0 15))
  else if op = 0x16 then some (.movh g (fld n 15 5) (fld n 0 15))
  else if op = 0x17 then some (.addsh g (fld n 15 5) (fld n 10 5) (fld n 5 5) (fld n 0 5))
  else if op = 0x18 then some (.cmp g (fld n 17 3) (fld n 14 3) (fld n 9 5) (fld n 4 5) (fld n 0 4))
  else if op = 0x19 then some (.cmpi g (fld n 17 3) (fld n 14 3) (fld n 9 5) (fld n 4 5) (fld n 0 4))
  else if op = 0x1A ∧ bits n 10 0 = 0 then some (.pand g (fld n 17 3) (fld n 14 3) (fld n 11 3))
  else if op = 0x1A ∧ bits n 10 0 = 1 then some (.por g (fld n 17 3) (fld n 14 3) (fld n 11 3))
  else if op = 0x1A ∧ bits n 10 0 = 2 then some (.pxor g (fld n 17 3) (fld n 14 3) (fld n 11 3))
  else if op = 0x1A ∧ bits n 13 0 = 3 then some (.pnot g (fld n 17 3) (fld n 14 3))
  else if op = 0x1B ∧ bits n 14 12 = 0 then some (.movsRead g (fld n 15 5) (fld n 0 12))
  else if op = 0x1B ∧ bits n 14 12 = 4 then some (.movsWrite g (fld n 15 5) (fld n 0 12))
  else if op = 0x1C ∧ bits n 4 2 = 0 ∧ bits n 0 0 = 0 then some (.sfadd g (fld n 15 5) (fld n 10 5) (fld n 5 5) (fld n 1 1))
  else if op = 0x1C ∧ bits n 4 2 = 1 ∧ bits n 0 0 = 0 then some (.sfmul g (fld n 15 5) (fld n 10 5) (fld n 5 5) (fld n 1 1))
  else if op = 0x1C ∧ bits n 4 2 = 2 ∧ bits n 0 0 = 0 then some (.sffma g (fld n 15 5) (fld n 10 5) (fld n 5 5) (fld n 1 1))
  else if op = 0x1C ∧ bits n 4 0 = 12 then some (.sfmin g (fld n 15 5) (fld n 10 5) (fld n 5 5))
  else if op = 0x1C ∧ bits n 4 0 = 16 then some (.sfmax g (fld n 15 5) (fld n 10 5) (fld n 5 5))
  else if op = 0x1D then some (.sfcmp g (fld n 17 3) (fld n 14 3) (fld n 9 5) (fld n 4 5) (fld n 0 4))
  else if op = 0x1E ∧ bits n 4 2 = 0 ∧ bits n 0 0 = 0 then some (.sfcvt g (fld n 15 5) (fld n 10 5) (fld n 5 5) (fld n 1 1))
  else none

/-- Class 010, Tables 2.8 and 2.11: the row of a word of this class, its fixed bits checked. -/
def rowsX2 (op n : Nat) (g : Guard) : Option Instr :=
  if op = 0x20 then some (.prep g (fld n 18 2) (fld n 0 18))
  else if op = 0x21 ∧ bits n 17 13 = 0 ∧ bits n 7 0 = 0 then some (.prepr g (fld n 18 2) (fld n 8 5))
  else if op = 0x22 ∧ bits n 17 0 = 0 then some (.br g (fld n 18 2))
  else if op = 0x23 ∧ bits n 12 0 = 0 then some (.brl g (fld n 18 2) (fld n 13 5))
  else if op = 0x24 then some (.loop g (fld n 15 5) (fld n 14 1) (fld n 0 14))
  else if op = 0x25 then some (.loopi g (fld n 10 10) (fld n 9 1) (fld n 0 9))
  else if op = 0x26 ∧ bits n 19 0 = 0 then some (.lbrk g)
  else if op = 0x27 ∧ bits n 19 0 = 0 then some (.lpop g)
  else if op = 0x28 ∧ bits n 19 0 = 0 then some (.endTask g)
  else if op = 0x29 then some (.trap g (fld n 0 20))
  else if op = 0x2A ∧ bits n 19 15 = 0 then some (.sys g (fld n 10 5) (fld n 5 5) (fld n 0 5))
  else if op = 0x2A ∧ bits n 19 0 = 32768 then some (.eret g)
  else if op = 0x2A ∧ bits n 19 0 = 65536 then some (.yield g)
  else if op = 0x2A ∧ bits n 19 15 = 3 ∧ bits n 9 5 = 0 then some (.wait g (fld n 10 5) (fld n 0 5))
  else if op = 0x2A ∧ bits n 19 5 = 4096 then some (.arrive g (fld n 0 5))
  else if op = 0x2A ∧ bits n 19 15 = 5 ∧ bits n 9 5 = 0 then some (.prmpt g (fld n 10 5) (fld n 0 5))
  else if op = 0x2A ∧ bits n 19 15 = 6 ∧ bits n 9 5 = 0 then some (.resume g (fld n 10 5) (fld n 0 5))
  else if op = 0x2A ∧ bits n 19 15 = 7 then some (.ctxsv g (fld n 10 5) (fld n 5 5) (fld n 0 5))
  else if op = 0x2A ∧ bits n 19 15 = 8 then some (.ctxld g (fld n 10 5) (fld n 5 5) (fld n 0 5))
  else if op = 0x2A ∧ bits n 19 15 = 9 then some (.tlbinv g (fld n 10 5) (fld n 5 5) (fld n 0 5))
  else if op = 0x2A ∧ bits n 19 15 = 10 ∧ bits n 4 0 = 0 then some (.genbump g (fld n 10 5) (fld n 5 5))
  else if op = 0x2A ∧ bits n 19 15 = 11 then some (.l2wb g (fld n 10 5) (fld n 5 5) (fld n 0 5))
  else if op = 0x2A ∧ bits n 19 15 = 12 ∧ bits n 9 0 = 0 then some (.domset g (fld n 10 5))
  else if op = 0x2A ∧ bits n 19 15 = 13 ∧ bits n 9 5 = 0 then some (.gsw g (fld n 10 5) (fld n 0 5))
  else if op = 0x2A ∧ bits n 19 15 = 14 ∧ bits n 9 5 = 0 then some (.gres g (fld n 10 5) (fld n 0 5))
  else if op = 0x2A ∧ bits n 19 15 = 15 then some (.attest g (fld n 10 5) (fld n 5 5) (fld n 0 5))
  else if op = 0x2A ∧ bits n 19 15 = 16 then some (.keyld g (fld n 10 5) (fld n 5 5) (fld n 0 5))
  else if op = 0x2A ∧ bits n 19 15 = 17 then some (.npload g (fld n 10 5) (fld n 5 5) (fld n 0 5))
  else if op = 0x2A ∧ bits n 19 15 = 18 ∧ bits n 9 0 = 0 then some (.rlinv g (fld n 10 5))
  else if op = 0x2A ∧ bits n 19 15 = 19 then some (.lkey g (fld n 10 5) (fld n 5 5) (fld n 0 5))
  else if op = 0x2B ∧ bits n 14 12 = 0 then some (.csrr g (fld n 15 5) (fld n 0 12))
  else if op = 0x2C ∧ bits n 14 12 = 4 then some (.csrw g (fld n 15 5) (fld n 0 12))
  else if op = 0x2D ∧ bits n 19 15 = 0 ∧ bits n 9 0 = 0 then some (.bgset g (fld n 10 5))
  else if op = 0x2E ∧ bits n 19 0 = 0 then some (.ckpt g)
  else if op = 0x2F ∧ bits n 19 0 = 0 then some (.nop g)
  else none

/-- Class 011, Table 2.9: the row of a word of this class, its fixed bits checked. -/
def rowsM (op n : Nat) (g : Guard) : Option Instr :=
  if op = 0x30 then some (.ld g (fld n 15 5) (fld n 12 3) (fld n 11 1) (fld n 8 3) (fld n 0 8))
  else if op = 0x31 then some (.ldRo g (fld n 15 5) (fld n 12 3) (fld n 11 1) (fld n 8 3) (fld n 0 8))
  else if op = 0x32 then some (.st g (fld n 15 5) (fld n 12 3) (fld n 11 1) (fld n 8 3) (fld n 0 8))
  else if op = 0x33 then some (.vld g (fld n 15 5) (fld n 12 3) (fld n 11 1) (fld n 8 3) (fld n 0 8))
  else if op = 0x34 then some (.vldRo g (fld n 15 5) (fld n 12 3) (fld n 11 1) (fld n 8 3) (fld n 0 8))
  else if op = 0x35 then some (.vst g (fld n 15 5) (fld n 12 3) (fld n 11 1) (fld n 8 3) (fld n 0 8))
  else if op = 0x36 ∧ bits n 7 0 = 0 then some (.agset g (fld n 15 5) (fld n 12 3) (fld n 8 4))
  else if op = 0x37 ∧ bits n 19 15 = 0 then some (.agstep g (fld n 12 3) (fld n 0 12))
  else if op = 0x38 ∧ bits n 19 15 = 0 ∧ bits n 11 0 = 0 then some (.pref g (fld n 12 3))
  else if op = 0x38 ∧ bits n 19 15 = 1 ∧ bits n 11 0 = 0 then some (.clean g (fld n 12 3))
  else if op = 0x38 ∧ bits n 19 15 = 2 ∧ bits n 11 0 = 0 then some (.inval g (fld n 12 3))
  else if op = 0x39 ∧ bits n 19 4 = 0 then some (.phase g (fld n 0 4))
  else if op = 0x3A ∧ bits n 14 8 = 0 then some (.ttdef g (fld n 15 5) (fld n 0 8))
  else if op = 0x3A ∧ bits n 14 8 = 32 then some (.ttwait g (fld n 15 5) (fld n 0 8))
  else if op = 0x3A ∧ bits n 19 8 = 64 then some (.ttfree g (fld n 0 8))
  else if op = 0x3A ∧ bits n 14 8 = 96 then some (.ttstat g (fld n 15 5) (fld n 0 8))
  else if op = 0x3B ∧ bits n 17 0 = 0 then some (.fence g (fld n 18 2))
  else if op = 0x3B ∧ bits n 17 0 = 65536 then some (.fenceRo g (fld n 18 2))
  else if op = 0x3C ∧ bits n 11 8 = 0 ∧ bits n 3 0 = 0 then some (.aadd g (fld n 15 5) (fld n 12 3) (fld n 6 2) (fld n 5 1) (fld n 4 1))
  else if op = 0x3C ∧ bits n 11 8 = 1 ∧ bits n 2 0 = 0 then some (.amin g (fld n 15 5) (fld n 12 3) (fld n 6 2) (fld n 5 1) (fld n 4 1) (fld n 3 1))
  else if op = 0x3C ∧ bits n 11 8 = 2 ∧ bits n 2 0 = 0 then some (.amax g (fld n 15 5) (fld n 12 3) (fld n 6 2) (fld n 5 1) (fld n 4 1) (fld n 3 1))
  else if op = 0x3C ∧ bits n 11 8 = 3 ∧ bits n 3 0 = 0 then some (.aand g (fld n 15 5) (fld n 12 3) (fld n 6 2) (fld n 5 1) (fld n 4 1))
  else if op = 0x3C ∧ bits n 11 8 = 4 ∧ bits n 3 0 = 0 then some (.aor g (fld n 15 5) (fld n 12 3) (fld n 6 2) (fld n 5 1) (fld n 4 1))
  else if op = 0x3C ∧ bits n 11 8 = 5 ∧ bits n 3 0 = 0 then some (.axor g (fld n 15 5) (fld n 12 3) (fld n 6 2) (fld n 5 1) (fld n 4 1))
  else if op = 0x3C ∧ bits n 11 8 = 6 ∧ bits n 3 0 = 0 then some (.aswp g (fld n 15 5) (fld n 12 3) (fld n 6 2) (fld n 5 1) (fld n 4 1))
  else if op = 0x3C ∧ bits n 11 8 = 7 ∧ bits n 2 0 = 0 then some (.aincb g (fld n 15 5) (fld n 12 3) (fld n 6 2) (fld n 5 1) (fld n 4 1) (fld n 3 1))
  else if op = 0x3D ∧ bits n 8 8 = 0 ∧ bits n 5 0 = 0 then some (.afadd g (fld n 15 5) (fld n 12 3) (fld n 10 2) (fld n 9 1) (fld n 6 2))
  else if op = 0x3E ∧ bits n 3 0 = 0 then some (.acas g (fld n 15 5) (fld n 12 3) (fld n 8 4) (fld n 6 2) (fld n 5 1) (fld n 4 1))
  else if op = 0x3F ∧ bits n 14 0 = 0 then some (.aordJoin g (fld n 15 5))
  else if op = 0x3F ∧ bits n 14 0 = 1 then some (.aordClose g (fld n 15 5))
  else none

/-- Class 100, Table 2.10: the row of a word of this class, its fixed bits checked. -/
def rowsV0 (op n : Nat) (g : Guard) : Option Instr :=
  if op = 0x40 then some (.vadd g (fld n 15 5) (fld n 10 5) (fld n 5 5) (fld n 2 3) (fld n 0 2))
  else if op = 0x41 then some (.vsub g (fld n 15 5) (fld n 10 5) (fld n 5 5) (fld n 2 3) (fld n 0 2))
  else if op = 0x42 then some (.vmul g (fld n 15 5) (fld n 10 5) (fld n 5 5) (fld n 2 3) (fld n 0 2))
  else if op = 0x43 then some (.vfma g (fld n 15 5) (fld n 10 5) (fld n 5 5) (fld n 2 3) (fld n 0 2))
  else if op = 0x44 then some (.vfms g (fld n 15 5) (fld n 10 5) (fld n 5 5) (fld n 2 3) (fld n 0 2))
  else if op = 0x45 ∧ bits n 1 0 = 0 then some (.vmin g (fld n 15 5) (fld n 10 5) (fld n 5 5) (fld n 2 3))
  else if op = 0x46 ∧ bits n 1 0 = 0 then some (.vmax g (fld n 15 5) (fld n 10 5) (fld n 5 5) (fld n 2 3))
  else if op = 0x47 ∧ bits n 9 5 = 0 ∧ bits n 1 0 = 0 then some (.vabs g (fld n 15 5) (fld n 10 5) (fld n 2 3))
  else if op = 0x47 ∧ bits n 9 5 = 1 ∧ bits n 1 0 = 0 then some (.vneg g (fld n 15 5) (fld n 10 5) (fld n 2 3))
  else if op = 0x47 ∧ bits n 9 0 = 64 then some (.vnot g (fld n 15 5) (fld n 10 5))
  else if op = 0x48 ∧ bits n 1 0 = 0 then some (.vadds g (fld n 15 5) (fld n 10 5) (fld n 5 5) (fld n 2 3))
  else if op = 0x49 ∧ bits n 1 0 = 0 then some (.vsubs g (fld n 15 5) (fld n 10 5) (fld n 5 5) (fld n 2 3))
  else if op = 0x4A ∧ bits n 1 0 = 0 then some (.vmulh g (fld n 15 5) (fld n 10 5) (fld n 5 5) (fld n 2 3))
  else if op = 0x4B ∧ bits n 4 0 = 0 then some (.vand g (fld n 15 5) (fld n 10 5) (fld n 5 5))
  else if op = 0x4B ∧ bits n 4 0 = 1 then some (.vor g (fld n 15 5) (fld n 10 5) (fld n 5 5))
  else if op = 0x4B ∧ bits n 4 0 = 2 then some (.vxor g (fld n 15 5) (fld n 10 5) (fld n 5 5))
  else if op = 0x4C ∧ bits n 1 0 = 0 then some (.vshl g (fld n 15 5) (fld n 10 5) (fld n 5 5) (fld n 2 3))
  else if op = 0x4C ∧ bits n 1 0 = 1 then some (.vshr g (fld n 15 5) (fld n 10 5) (fld n 5 5) (fld n 2 3))
  else if op = 0x4C ∧ bits n 1 0 = 2 then some (.vsra g (fld n 15 5) (fld n 10 5) (fld n 5 5) (fld n 2 3))
  else none

/-- Class 101, Table 2.10: the row of a word of this class, its fixed bits checked. -/
def rowsV1 (op n : Nat) (g : Guard) : Option Instr :=
  if op = 0x50 then some (.vcmp g (fld n 19 1) (fld n 15 4) (fld n 10 5) (fld n 5 5) (fld n 2 3) (fld n 0 2))
  else if op = 0x51 ∧ bits n 0 0 = 0 then some (.vsel g (fld n 15 5) (fld n 10 5) (fld n 5 5) (fld n 1 4))
  else if op = 0x52 ∧ bits n 9 0 = 0 then some (.vmov g (fld n 15 5) (fld n 10 5))
  else if op = 0x53 ∧ bits n 9 5 = 0 ∧ bits n 1 0 = 0 then some (.vsplat g (fld n 15 5) (fld n 10 5) (fld n 2 3))
  else if op = 0x54 ∧ bits n 14 0 = 0 then some (.viotaRow g (fld n 15 5))
  else if op = 0x54 ∧ bits n 14 0 = 1 then some (.viotaCol g (fld n 15 5))
  else if op = 0x54 ∧ bits n 14 0 = 2 then some (.viotaLin g (fld n 15 5))
  else if op = 0x55 ∧ bits n 3 0 = 0 then some (.vbrow g (fld n 15 5) (fld n 10 5) (fld n 4 6))
  else if op = 0x55 ∧ bits n 3 0 = 1 then some (.vbcol g (fld n 15 5) (fld n 10 5) (fld n 4 6))
  else if op = 0x56 ∧ bits n 3 0 = 0 then some (.vrotr g (fld n 15 5) (fld n 10 5) (fld n 4 6))
  else if op = 0x56 ∧ bits n 3 0 = 1 then some (.vrotc g (fld n 15 5) (fld n 10 5) (fld n 4 6))
  else if op = 0x57 ∧ bits n 6 6 = 0 ∧ bits n 0 0 = 0 then some (.vredr g (fld n 15 5) (fld n 10 5) (fld n 7 3) (fld n 5 1) (fld n 2 3) (fld n 1 1))
  else if op = 0x57 ∧ bits n 6 6 = 0 ∧ bits n 0 0 = 1 then some (.vredc g (fld n 15 5) (fld n 10 5) (fld n 7 3) (fld n 5 1) (fld n 2 3) (fld n 1 1))
  else if op = 0x58 ∧ bits n 6 6 = 0 ∧ bits n 0 0 = 0 then some (.vscanr g (fld n 15 5) (fld n 10 5) (fld n 7 3) (fld n 5 1) (fld n 2 3) (fld n 1 1))
  else if op = 0x58 ∧ bits n 6 6 = 0 ∧ bits n 0 0 = 1 then some (.vscanc g (fld n 15 5) (fld n 10 5) (fld n 7 3) (fld n 5 1) (fld n 2 3) (fld n 1 1))
  else if op = 0x59 ∧ bits n 9 0 = 0 then some (.vxp g (fld n 15 5) (fld n 10 5))
  else if op = 0x5A ∧ bits n 4 0 = 0 then some (.vpermRow g (fld n 15 5) (fld n 10 5) (fld n 5 5))
  else if op = 0x5A ∧ bits n 4 0 = 1 then some (.vpermCol g (fld n 15 5) (fld n 10 5) (fld n 5 5))
  else if op = 0x5B ∧ bits n 4 0 = 0 then some (.vext g (fld n 15 5) (fld n 10 5) (fld n 5 5))
  else if op = 0x5B ∧ bits n 4 0 = 1 then some (.vins g (fld n 15 5) (fld n 10 5) (fld n 5 5))
  else if op = 0x5C ∧ bits n 19 19 = 0 ∧ bits n 14 14 = 0 ∧ bits n 9 9 = 0 ∧ bits n 4 0 = 0 then some (.qand g (fld n 15 4) (fld n 10 4) (fld n 5 4))
  else if op = 0x5C ∧ bits n 19 19 = 0 ∧ bits n 14 14 = 0 ∧ bits n 9 9 = 0 ∧ bits n 4 0 = 1 then some (.qor g (fld n 15 4) (fld n 10 4) (fld n 5 4))
  else if op = 0x5C ∧ bits n 19 19 = 0 ∧ bits n 14 14 = 0 ∧ bits n 9 9 = 0 ∧ bits n 4 0 = 2 then some (.qxor g (fld n 15 4) (fld n 10 4) (fld n 5 4))
  else if op = 0x5C ∧ bits n 19 19 = 0 ∧ bits n 14 14 = 0 ∧ bits n 9 0 = 3 then some (.qnot g (fld n 15 4) (fld n 10 4))
  else if op = 0x5C ∧ bits n 14 14 = 0 ∧ bits n 9 0 = 4 then some (.qcnt g (fld n 15 5) (fld n 10 4))
  else none

/-- Class 110, Table 2.12: the row of a word of this class, its fixed bits checked. -/
def rowsF (op n : Nat) (g : Guard) : Option Instr :=
  if op = 0x60 ∧ bits n 9 1 = 0 then some (.fexp2 g (fld n 15 5) (fld n 10 5) (fld n 0 1))
  else if op = 0x61 ∧ bits n 9 1 = 0 then some (.fexp g (fld n 15 5) (fld n 10 5) (fld n 0 1))
  else if op = 0x62 ∧ bits n 9 1 = 0 then some (.flog2 g (fld n 15 5) (fld n 10 5) (fld n 0 1))
  else if op = 0x63 ∧ bits n 9 1 = 0 then some (.frcp g (fld n 15 5) (fld n 10 5) (fld n 0 1))
  else if op = 0x64 ∧ bits n 9 1 = 0 then some (.frsq g (fld n 15 5) (fld n 10 5) (fld n 0 1))
  else if op = 0x65 ∧ bits n 9 1 = 0 then some (.fsqrt g (fld n 15 5) (fld n 10 5) (fld n 0 1))
  else if op = 0x66 ∧ bits n 4 1 = 0 then some (.fdiv g (fld n 15 5) (fld n 10 5) (fld n 5 5) (fld n 0 1))
  else if op = 0x67 ∧ bits n 9 1 = 0 then some (.ftanh g (fld n 15 5) (fld n 10 5) (fld n 0 1))
  else if op = 0x68 ∧ bits n 9 1 = 0 then some (.fsigm g (fld n 15 5) (fld n 10 5) (fld n 0 1))
  else if op = 0x69 ∧ bits n 9 1 = 0 then some (.fsin g (fld n 15 5) (fld n 10 5) (fld n 0 1))
  else if op = 0x6A ∧ bits n 9 1 = 0 then some (.fcos g (fld n 15 5) (fld n 10 5) (fld n 0 1))
  else if op = 0x6B then some (.cvt g (fld n 15 5) (fld n 10 5) (fld n 6 4) (fld n 2 4) (fld n 0 2))
  else if op = 0x6C ∧ bits n 4 2 = 0 then some (.qnt4 g (fld n 15 5) (fld n 10 5) (fld n 5 5) (fld n 0 2))
  else if op = 0x6D ∧ bits n 4 0 = 0 then some (.dqnt4 g (fld n 15 5) (fld n 10 5) (fld n 5 5))
  else if op = 0x6E ∧ bits n 19 15 = 0 ∧ bits n 4 0 = 0 then some (.rngseed g (fld n 10 5) (fld n 5 5))
  else if op = 0x6F ∧ bits n 19 15 = 0 ∧ bits n 9 0 = 0 then some (.rngskip g (fld n 10 5))
  else none

/-- Class 111, Table 2.12: the row of a word of this class, its fixed bits checked. -/
def rowsT (op n : Nat) (g : Guard) : Option Instr :=
  if op = 0x70 ∧ bits n 14 14 = 0 ∧ bits n 3 0 = 0 then some (.edsc g (fld n 15 5) (fld n 10 4) (fld n 4 6))
  else if op = 0x71 ∧ bits n 9 0 = 0 then some (.cpy g (fld n 14 6) (fld n 10 4))
  else if op = 0x71 ∧ bits n 9 0 = 1 then some (.gth g (fld n 14 6) (fld n 10 4))
  else if op = 0x71 ∧ bits n 9 0 = 2 then some (.sct g (fld n 14 6) (fld n 10 4))
  else if op = 0x72 ∧ bits n 13 0 = 0 then some (.kwait g (fld n 14 6))
  else if op = 0x72 ∧ bits n 10 0 = 1 then some (.ktest g (fld n 14 6) (fld n 11 3))
  else if op = 0x72 ∧ bits n 13 0 = 2 then some (.krel g (fld n 14 6))
  else if op = 0x73 ∧ bits n 9 6 = 0 then some (.mstrm g (fld n 14 6) (fld n 10 4) (fld n 0 6))
  else if op = 0x74 ∧ bits n 19 15 = 0 ∧ bits n 8 0 = 0 then some (.mzero g (fld n 9 6))
  else if op = 0x74 ∧ bits n 8 0 = 1 then some (.mcfg g (fld n 15 5) (fld n 9 6))
  else if op = 0x74 ∧ bits n 19 15 = 0 ∧ bits n 8 0 = 2 then some (.msplit g (fld n 9 6))
  else if op = 0x74 ∧ bits n 19 15 = 0 ∧ bits n 8 0 = 3 then some (.mskip g (fld n 9 6))
  else if op = 0x74 ∧ bits n 8 0 = 4 then some (.mclaim g (fld n 15 5) (fld n 9 6))
  else if op = 0x74 ∧ bits n 19 15 = 0 ∧ bits n 8 0 = 5 then some (.mrel g (fld n 9 6))
  else if op = 0x74 ∧ bits n 8 0 = 6 then some (.mlatch g (fld n 15 5) (fld n 9 6))
  else if op = 0x75 ∧ bits n 8 6 = 0 ∧ bits n 3 0 = 0 then some (.mrd g (fld n 15 5) (fld n 9 6) (fld n 4 2))
  else if op = 0x75 ∧ bits n 8 6 = 0 ∧ bits n 3 0 = 1 then some (.mwr g (fld n 15 5) (fld n 9 6) (fld n 4 2))
  else if op = 0x76 ∧ bits n 9 6 = 0 then some (.mout g (fld n 14 6) (fld n 10 4) (fld n 0 6))
  else if op = 0x77 ∧ bits n 9 6 = 0 ∧ bits n 3 0 = 0 then some (.tmm g (fld n 14 6) (fld n 10 4) (fld n 5 1) (fld n 4 1))
  else if op = 0x77 ∧ bits n 9 5 = 2 ∧ bits n 3 0 = 0 then some (.tew g (fld n 14 6) (fld n 10 4) (fld n 4 1))
  else if op = 0x77 ∧ bits n 9 6 = 2 ∧ bits n 3 0 = 0 then some (.tred g (fld n 14 6) (fld n 10 4) (fld n 5 1) (fld n 4 1))
  else if op = 0x77 ∧ bits n 9 6 = 3 ∧ bits n 3 0 = 0 then some (.tscan g (fld n 14 6) (fld n 10 4) (fld n 5 1) (fld n 4 1))
  else if op = 0x77 ∧ bits n 9 0 = 256 then some (.txp g (fld n 14 6) (fld n 10 4))
  else if op = 0x77 ∧ bits n 9 5 = 10 ∧ bits n 3 0 = 0 then some (.tcvt g (fld n 14 6) (fld n 10 4) (fld n 4 1))
  else if op = 0x77 ∧ bits n 9 0 = 384 then some (.tcpy g (fld n 14 6) (fld n 10 4))
  else if op = 0x77 ∧ bits n 9 0 = 448 then some (.tbc g (fld n 14 6) (fld n 10 4))
  else if op = 0x78 ∧ bits n 9 0 = 0 then some (.tlnch g (fld n 14 6) (fld n 10 4))
  else if op = 0x79 ∧ bits n 13 10 = 0 ∧ bits n 4 0 = 0 then some (.twait g (fld n 14 6) (fld n 5 5))
  else if op = 0x79 ∧ bits n 13 10 = 0 ∧ bits n 4 0 = 1 then some (.tstat g (fld n 14 6) (fld n 5 5))
  else if op = 0x79 ∧ bits n 13 10 = 0 ∧ bits n 4 0 = 2 then some (.tabort g (fld n 14 6) (fld n 5 5))
  else if op = 0x7A ∧ bits n 14 10 = 0 ∧ bits n 8 0 = 0 then some (.fbind g (fld n 15 5) (fld n 9 1))
  else if op = 0x7A ∧ bits n 9 0 = 1 then some (.fsend g (fld n 15 5) (fld n 10 5))
  else if op = 0x7A ∧ bits n 9 0 = 2 then some (.fput g (fld n 15 5) (fld n 10 5))
  else if op = 0x7A ∧ bits n 14 10 = 0 ∧ bits n 8 0 = 3 then some (.fdrain g (fld n 15 5) (fld n 9 1))
  else if op = 0x7A ∧ bits n 14 10 = 0 ∧ bits n 8 0 = 4 then some (.fstat g (fld n 15 5) (fld n 9 1))
  else if op = 0x7A ∧ bits n 9 0 = 5 then some (.ftake g (fld n 15 5) (fld n 10 5))
  else if op = 0x7B ∧ bits n 9 0 = 0 then some (.mcst g (fld n 14 6) (fld n 10 4))
  else if op = 0x7C ∧ bits n 9 6 = 0 ∧ bits n 3 0 = 0 then some (.coll g (fld n 14 6) (fld n 10 4) (fld n 5 1) (fld n 4 1))
  else none

/-- Whether a primary opcode has a row (Tables 2.5 to 2.12). -/
def opAssigned (op : Nat) : Bool :=
  decide (op ≤ 0x0B ∨ (0x10 ≤ op ∧ op ≤ 0x1E) ∨ (0x20 ≤ op ∧ op ≤ 0x4C) ∨ (0x50 ≤ op ∧ op ≤ 0x5C) ∨
    (0x60 ≤ op ∧ op ≤ 0x7C))

/-- The row of a word: its primary opcode [26:20] selects the class table by [26:24] (R27). -/
def rowOf (n : Nat) : Option Instr :=
  let op := bits n 26 20
  let g := guardOf n
  match op / 16 with
  | 0 => rowsX0 op n g
  | 1 => rowsX1 op n g
  | 2 => rowsX2 op n g
  | 3 => rowsM op n g
  | 4 => rowsV0 op n g
  | 5 => rowsV1 op n g
  | 6 => rowsF op n g
  | _ => rowsT op n g

/-- The instruction of a word, less its stop bit. -/
def decodeInstr (n : Nat) : Except Reject Instr :=
  match rowOf n with
  | some i => if i.wf then .ok i else .error (.refusedOperand (bits n 26 20))
  | none =>
    if opAssigned (bits n 26 20) then .error (.unassignedCode (bits n 26 20))
    else .error (.unassignedOp (bits n 26 20))

/-- The slot of a word (R27). -/
def decodeSlot (w : W32) : Except Reject Slot :=
  match decodeInstr w.toNat with
  | .ok i => .ok ⟨decide (bits w.toNat 31 31 = 1), i⟩
  | .error r => .error r

/-- The word a little-endian run of four bytes holds (R6, R29). -/
def wordOfBytes (b : List Byte) : W32 :=
  BitVec.ofNat 32 ((b.getD 0 0).toNat + 256 * (b.getD 1 0).toNat + 65536 * (b.getD 2 0).toNat +
    16777216 * (b.getD 3 0).toNat)

/-- The four bytes of a word, least significant first (R6). -/
def bytesOfWord (w : W32) : List Byte :=
  [BitVec.ofNat 8 w.toNat, BitVec.ofNat 8 (w.toNat / 256), BitVec.ofNat 8 (w.toNat / 65536),
    BitVec.ofNat 8 (w.toNat / 16777216)]

/-- What the decoder reads from an instruction whose bits are w: every slot is one 32-bit word (R27),
laid out in memory least significant byte first and decoded from there. -/
def decodeTableWord (_nbits w : Nat) : Option Instr :=
  match decodeSlot (wordOfBytes (bytesOfWord (BitVec.ofNat 32 w))) with
  | .ok s => some s.instr
  | .error _ => none

/-! The encoder. -/

/-- The head of a word: guard and primary opcode (Table 2.1). -/
def encHead (g : Guard) (op : Nat) : Nat :=
  g.idx.toNat * 2 ^ 28 + (if g.neg then 2 ^ 27 else 0) + op * 2 ^ 20

/-- A word from its head, its fixed operand bits and its fields, each with the bit it starts at. -/
def encWord (g : Guard) (op fixed : Nat) (fields : List (Nat × Nat)) : Option Nat :=
  some (fields.foldr (fun f acc => f.1 * 2 ^ f.2 + acc) (encHead g op + fixed))

/-- The word of an instruction, stop bit 0; a machine step has none. -/
def encode (i : Instr) : Option Nat :=
  match i with
  | .add g d a b => encWord g 0x00 0 [(d.toNat, 15), (a.toNat, 10), (b.toNat, 5)]
  | .sub g d a b => encWord g 0x01 0 [(d.toNat, 15), (a.toNat, 10), (b.toNat, 5)]
  | .mul g d a b => encWord g 0x02 0 [(d.toNat, 15), (a.toNat, 10), (b.toNat, 5)]
  | .mulh g d a b => encWord g 0x02 1 [(d.toNat, 15), (a.toNat, 10), (b.toNat, 5)]
  | .mulhz g d a b => encWord g 0x02 2 [(d.toNat, 15), (a.toNat, 10), (b.toNat, 5)]
  | .div g d a b => encWord g 0x03 0 [(d.toNat, 15), (a.toNat, 10), (b.toNat, 5)]
  | .divz g d a b => encWord g 0x03 1 [(d.toNat, 15), (a.toNat, 10), (b.toNat, 5)]
  | .rem g d a b => encWord g 0x03 2 [(d.toNat, 15), (a.toNat, 10), (b.toNat, 5)]
  | .remz g d a b => encWord g 0x03 3 [(d.toNat, 15), (a.toNat, 10), (b.toNat, 5)]
  | .and g d a b => encWord g 0x04 0 [(d.toNat, 15), (a.toNat, 10), (b.toNat, 5)]
  | .or g d a b => encWord g 0x04 1 [(d.toNat, 15), (a.toNat, 10), (b.toNat, 5)]
  | .xor g d a b => encWord g 0x04 2 [(d.toNat, 15), (a.toNat, 10), (b.toNat, 5)]
  | .andn g d a b => encWord g 0x04 3 [(d.toNat, 15), (a.toNat, 10), (b.toNat, 5)]
  | .shl g d a b => encWord g 0x05 0 [(d.toNat, 15), (a.toNat, 10), (b.toNat, 5)]
  | .shr g d a b => encWord g 0x05 1 [(d.toNat, 15), (a.toNat, 10), (b.toNat, 5)]
  | .sra g d a b => encWord g 0x05 2 [(d.toNat, 15), (a.toNat, 10), (b.toNat, 5)]
  | .rol g d a b => encWord g 0x05 3 [(d.toNat, 15), (a.toNat, 10), (b.toNat, 5)]
  | .min g d a b => encWord g 0x06 0 [(d.toNat, 15), (a.toNat, 10), (b.toNat, 5)]
  | .max g d a b => encWord g 0x06 1 [(d.toNat, 15), (a.toNat, 10), (b.toNat, 5)]
  | .minz g d a b => encWord g 0x06 2 [(d.toNat, 15), (a.toNat, 10), (b.toNat, 5)]
  | .maxz g d a b => encWord g 0x06 3 [(d.toNat, 15), (a.toNat, 10), (b.toNat, 5)]
  | .clz g d a => encWord g 0x07 0 [(d.toNat, 15), (a.toNat, 10)]
  | .ctz g d a => encWord g 0x07 1 [(d.toNat, 15), (a.toNat, 10)]
  | .popc g d a => encWord g 0x07 2 [(d.toNat, 15), (a.toNat, 10)]
  | .bfx g d a b => encWord g 0x08 0 [(d.toNat, 15), (a.toNat, 10), (b.toNat, 5)]
  | .bfxz g d a b => encWord g 0x09 0 [(d.toNat, 15), (a.toNat, 10), (b.toNat, 5)]
  | .bfi g d a b => encWord g 0x0A 0 [(d.toNat, 15), (a.toNat, 10), (b.toNat, 5)]
  | .sel g d a b p => encWord g 0x0B 0 [(d.toNat, 15), (a.toNat, 10), (b.toNat, 5), (p.toNat, 0)]
  | .addi g d a imm => encWord g 0x10 0 [(d.toNat, 15), (a.toNat, 10), (imm.toNat, 0)]
  | .andi g d a imm => encWord g 0x11 0 [(d.toNat, 15), (a.toNat, 10), (imm.toNat, 0)]
  | .ori g d a imm => encWord g 0x12 0 [(d.toNat, 15), (a.toNat, 10), (imm.toNat, 0)]
  | .xori g d a imm => encWord g 0x13 0 [(d.toNat, 15), (a.toNat, 10), (imm.toNat, 0)]
  | .shli g d a sh => encWord g 0x14 0 [(d.toNat, 15), (a.toNat, 10), (sh.toNat, 0)]
  | .shri g d a sh => encWord g 0x14 256 [(d.toNat, 15), (a.toNat, 10), (sh.toNat, 0)]
  | .srai g d a sh => encWord g 0x14 512 [(d.toNat, 15), (a.toNat, 10), (sh.toNat, 0)]
  | .movi g d imm => encWord g 0x15 0 [(d.toNat, 15), (imm.toNat, 0)]
  | .movh g d imm => encWord g 0x16 0 [(d.toNat, 15), (imm.toNat, 0)]
  | .addsh g d a b sh => encWord g 0x17 0 [(d.toNat, 15), (a.toNat, 10), (b.toNat, 5), (sh.toNat, 0)]
  | .cmp g pt pf a b cond => encWord g 0x18 0 [(pt.toNat, 17), (pf.toNat, 14), (a.toNat, 9), (b.toNat, 4), (cond.toNat, 0)]
  | .cmpi g pt pf a imm cond => encWord g 0x19 0 [(pt.toNat, 17), (pf.toNat, 14), (a.toNat, 9), (imm.toNat, 4), (cond.toNat, 0)]
  | .pand g d a b => encWord g 0x1A 0 [(d.toNat, 17), (a.toNat, 14), (b.toNat, 11)]
  | .por g d a b => encWord g 0x1A 1 [(d.toNat, 17), (a.toNat, 14), (b.toNat, 11)]
  | .pxor g d a b => encWord g 0x1A 2 [(d.toNat, 17), (a.toNat, 14), (b.toNat, 11)]
  | .pnot g d a => encWord g 0x1A 3 [(d.toNat, 17), (a.toNat, 14)]
  | .movsRead g r num => encWord g 0x1B 0 [(r.toNat, 15), (num.toNat, 0)]
  | .movsWrite g r num => encWord g 0x1B 16384 [(r.toNat, 15), (num.toNat, 0)]
  | .sfadd g d a b rz => encWord g 0x1C 0 [(d.toNat, 15), (a.toNat, 10), (b.toNat, 5), (rz.toNat, 1)]
  | .sfmul g d a b rz => encWord g 0x1C 4 [(d.toNat, 15), (a.toNat, 10), (b.toNat, 5), (rz.toNat, 1)]
  | .sffma g d a b rz => encWord g 0x1C 8 [(d.toNat, 15), (a.toNat, 10), (b.toNat, 5), (rz.toNat, 1)]
  | .sfmin g d a b => encWord g 0x1C 12 [(d.toNat, 15), (a.toNat, 10), (b.toNat, 5)]
  | .sfmax g d a b => encWord g 0x1C 16 [(d.toNat, 15), (a.toNat, 10), (b.toNat, 5)]
  | .sfcmp g pt pf a b cond => encWord g 0x1D 0 [(pt.toNat, 17), (pf.toNat, 14), (a.toNat, 9), (b.toNat, 4), (cond.toNat, 0)]
  | .sfcvt g d a code rz => encWord g 0x1E 0 [(d.toNat, 15), (a.toNat, 10), (code.toNat, 5), (rz.toNat, 1)]
  | .prep g tb off => encWord g 0x20 0 [(tb.toNat, 18), (off.toNat, 0)]
  | .prepr g tb a => encWord g 0x21 0 [(tb.toNat, 18), (a.toNat, 8)]
  | .br g tb => encWord g 0x22 0 [(tb.toNat, 18)]
  | .brl g tb d => encWord g 0x23 0 [(tb.toNat, 18), (d.toNat, 13)]
  | .loop g a rot off => encWord g 0x24 0 [(a.toNat, 15), (rot.toNat, 14), (off.toNat, 0)]
  | .loopi g count rot off => encWord g 0x25 0 [(count.toNat, 10), (rot.toNat, 9), (off.toNat, 0)]
  | .lbrk g => encWord g 0x26 0 []
  | .lpop g => encWord g 0x27 0 []
  | .endTask g => encWord g 0x28 0 []
  | .trap g code => encWord g 0x29 0 [(code.toNat, 0)]
  | .sys g a b code => encWord g 0x2A 0 [(a.toNat, 10), (b.toNat, 5), (code.toNat, 0)]
  | .eret g => encWord g 0x2A 32768 []
  | .yield g => encWord g 0x2A 65536 []
  | .wait g a c => encWord g 0x2A 98304 [(a.toNat, 10), (c.toNat, 0)]
  | .arrive g c => encWord g 0x2A 131072 [(c.toNat, 0)]
  | .prmpt g a c => encWord g 0x2A 163840 [(a.toNat, 10), (c.toNat, 0)]
  | .resume g a c => encWord g 0x2A 196608 [(a.toNat, 10), (c.toNat, 0)]
  | .ctxsv g a b c => encWord g 0x2A 229376 [(a.toNat, 10), (b.toNat, 5), (c.toNat, 0)]
  | .ctxld g a b c => encWord g 0x2A 262144 [(a.toNat, 10), (b.toNat, 5), (c.toNat, 0)]
  | .tlbinv g a b c => encWord g 0x2A 294912 [(a.toNat, 10), (b.toNat, 5), (c.toNat, 0)]
  | .genbump g a b => encWord g 0x2A 327680 [(a.toNat, 10), (b.toNat, 5)]
  | .l2wb g a b c => encWord g 0x2A 360448 [(a.toNat, 10), (b.toNat, 5), (c.toNat, 0)]
  | .domset g a => encWord g 0x2A 393216 [(a.toNat, 10)]
  | .gsw g a c => encWord g 0x2A 425984 [(a.toNat, 10), (c.toNat, 0)]
  | .gres g a c => encWord g 0x2A 458752 [(a.toNat, 10), (c.toNat, 0)]
  | .attest g a b c => encWord g 0x2A 491520 [(a.toNat, 10), (b.toNat, 5), (c.toNat, 0)]
  | .keyld g a b c => encWord g 0x2A 524288 [(a.toNat, 10), (b.toNat, 5), (c.toNat, 0)]
  | .npload g a b c => encWord g 0x2A 557056 [(a.toNat, 10), (b.toNat, 5), (c.toNat, 0)]
  | .rlinv g a => encWord g 0x2A 589824 [(a.toNat, 10)]
  | .lkey g a b c => encWord g 0x2A 622592 [(a.toNat, 10), (b.toNat, 5), (c.toNat, 0)]
  | .csrr g r num => encWord g 0x2B 0 [(r.toNat, 15), (num.toNat, 0)]
  | .csrw g r num => encWord g 0x2C 16384 [(r.toNat, 15), (num.toNat, 0)]
  | .bgset g a => encWord g 0x2D 0 [(a.toNat, 10)]
  | .ckpt g => encWord g 0x2E 0 []
  | .nop g => encWord g 0x2F 0 []
  | .ld g d ag post ty off => encWord g 0x30 0 [(d.toNat, 15), (ag.toNat, 12), (post.toNat, 11), (ty.toNat, 8), (off.toNat, 0)]
  | .ldRo g d ag post ty off => encWord g 0x31 0 [(d.toNat, 15), (ag.toNat, 12), (post.toNat, 11), (ty.toNat, 8), (off.toNat, 0)]
  | .st g d ag post ty off => encWord g 0x32 0 [(d.toNat, 15), (ag.toNat, 12), (post.toNat, 11), (ty.toNat, 8), (off.toNat, 0)]
  | .vld g d ag post ty off => encWord g 0x33 0 [(d.toNat, 15), (ag.toNat, 12), (post.toNat, 11), (ty.toNat, 8), (off.toNat, 0)]
  | .vldRo g d ag post ty off => encWord g 0x34 0 [(d.toNat, 15), (ag.toNat, 12), (post.toNat, 11), (ty.toNat, 8), (off.toNat, 0)]
  | .vst g d ag post ty off => encWord g 0x35 0 [(d.toNat, 15), (ag.toNat, 12), (post.toNat, 11), (ty.toNat, 8), (off.toNat, 0)]
  | .agset g r ag field => encWord g 0x36 0 [(r.toNat, 15), (ag.toNat, 12), (field.toNat, 8)]
  | .agstep g ag count => encWord g 0x37 0 [(ag.toNat, 12), (count.toNat, 0)]
  | .pref g ag => encWord g 0x38 0 [(ag.toNat, 12)]
  | .clean g ag => encWord g 0x38 32768 [(ag.toNat, 12)]
  | .inval g ag => encWord g 0x38 65536 [(ag.toNat, 12)]
  | .phase g steps => encWord g 0x39 0 [(steps.toNat, 0)]
  | .ttdef g r tt => encWord g 0x3A 0 [(r.toNat, 15), (tt.toNat, 0)]
  | .ttwait g r tt => encWord g 0x3A 8192 [(r.toNat, 15), (tt.toNat, 0)]
  | .ttfree g tt => encWord g 0x3A 16384 [(tt.toNat, 0)]
  | .ttstat g d tt => encWord g 0x3A 24576 [(d.toNat, 15), (tt.toNat, 0)]
  | .fence g sc => encWord g 0x3B 0 [(sc.toNat, 18)]
  | .fenceRo g sc => encWord g 0x3B 65536 [(sc.toNat, 18)]
  | .aadd g d ag sc ix wide => encWord g 0x3C 0 [(d.toNat, 15), (ag.toNat, 12), (sc.toNat, 6), (ix.toNat, 5), (wide.toNat, 4)]
  | .amin g d ag sc ix wide z => encWord g 0x3C 256 [(d.toNat, 15), (ag.toNat, 12), (sc.toNat, 6), (ix.toNat, 5), (wide.toNat, 4), (z.toNat, 3)]
  | .amax g d ag sc ix wide z => encWord g 0x3C 512 [(d.toNat, 15), (ag.toNat, 12), (sc.toNat, 6), (ix.toNat, 5), (wide.toNat, 4), (z.toNat, 3)]
  | .aand g d ag sc ix wide => encWord g 0x3C 768 [(d.toNat, 15), (ag.toNat, 12), (sc.toNat, 6), (ix.toNat, 5), (wide.toNat, 4)]
  | .aor g d ag sc ix wide => encWord g 0x3C 1024 [(d.toNat, 15), (ag.toNat, 12), (sc.toNat, 6), (ix.toNat, 5), (wide.toNat, 4)]
  | .axor g d ag sc ix wide => encWord g 0x3C 1280 [(d.toNat, 15), (ag.toNat, 12), (sc.toNat, 6), (ix.toNat, 5), (wide.toNat, 4)]
  | .aswp g d ag sc ix wide => encWord g 0x3C 1536 [(d.toNat, 15), (ag.toNat, 12), (sc.toNat, 6), (ix.toNat, 5), (wide.toNat, 4)]
  | .aincb g d ag sc ix wide z => encWord g 0x3C 1792 [(d.toNat, 15), (ag.toNat, 12), (sc.toNat, 6), (ix.toNat, 5), (wide.toNat, 4), (z.toNat, 3)]
  | .afadd g d ag ty ord sc => encWord g 0x3D 0 [(d.toNat, 15), (ag.toNat, 12), (ty.toNat, 10), (ord.toNat, 9), (sc.toNat, 6)]
  | .acas g d ag b sc ix wide => encWord g 0x3E 0 [(d.toNat, 15), (ag.toNat, 12), (b.toNat, 8), (sc.toNat, 6), (ix.toNat, 5), (wide.toNat, 4)]
  | .aordJoin g r => encWord g 0x3F 0 [(r.toNat, 15)]
  | .aordClose g r => encWord g 0x3F 1 [(r.toNat, 15)]
  | .vadd g d a b ty mode => encWord g 0x40 0 [(d.toNat, 15), (a.toNat, 10), (b.toNat, 5), (ty.toNat, 2), (mode.toNat, 0)]
  | .vsub g d a b ty mode => encWord g 0x41 0 [(d.toNat, 15), (a.toNat, 10), (b.toNat, 5), (ty.toNat, 2), (mode.toNat, 0)]
  | .vmul g d a b ty mode => encWord g 0x42 0 [(d.toNat, 15), (a.toNat, 10), (b.toNat, 5), (ty.toNat, 2), (mode.toNat, 0)]
  | .vfma g d a b ty mode => encWord g 0x43 0 [(d.toNat, 15), (a.toNat, 10), (b.toNat, 5), (ty.toNat, 2), (mode.toNat, 0)]
  | .vfms g d a b ty mode => encWord g 0x44 0 [(d.toNat, 15), (a.toNat, 10), (b.toNat, 5), (ty.toNat, 2), (mode.toNat, 0)]
  | .vmin g d a b ty => encWord g 0x45 0 [(d.toNat, 15), (a.toNat, 10), (b.toNat, 5), (ty.toNat, 2)]
  | .vmax g d a b ty => encWord g 0x46 0 [(d.toNat, 15), (a.toNat, 10), (b.toNat, 5), (ty.toNat, 2)]
  | .vabs g d a ty => encWord g 0x47 0 [(d.toNat, 15), (a.toNat, 10), (ty.toNat, 2)]
  | .vneg g d a ty => encWord g 0x47 32 [(d.toNat, 15), (a.toNat, 10), (ty.toNat, 2)]
  | .vnot g d a => encWord g 0x47 64 [(d.toNat, 15), (a.toNat, 10)]
  | .vadds g d a b ty => encWord g 0x48 0 [(d.toNat, 15), (a.toNat, 10), (b.toNat, 5), (ty.toNat, 2)]
  | .vsubs g d a b ty => encWord g 0x49 0 [(d.toNat, 15), (a.toNat, 10), (b.toNat, 5), (ty.toNat, 2)]
  | .vmulh g d a b ty => encWord g 0x4A 0 [(d.toNat, 15), (a.toNat, 10), (b.toNat, 5), (ty.toNat, 2)]
  | .vand g d a b => encWord g 0x4B 0 [(d.toNat, 15), (a.toNat, 10), (b.toNat, 5)]
  | .vor g d a b => encWord g 0x4B 1 [(d.toNat, 15), (a.toNat, 10), (b.toNat, 5)]
  | .vxor g d a b => encWord g 0x4B 2 [(d.toNat, 15), (a.toNat, 10), (b.toNat, 5)]
  | .vshl g d a b ty => encWord g 0x4C 0 [(d.toNat, 15), (a.toNat, 10), (b.toNat, 5), (ty.toNat, 2)]
  | .vshr g d a b ty => encWord g 0x4C 1 [(d.toNat, 15), (a.toNat, 10), (b.toNat, 5), (ty.toNat, 2)]
  | .vsra g d a b ty => encWord g 0x4C 2 [(d.toNat, 15), (a.toNat, 10), (b.toNat, 5), (ty.toNat, 2)]
  | .vcmp g ch d a b ty cl => encWord g 0x50 0 [(ch.toNat, 19), (d.toNat, 15), (a.toNat, 10), (b.toNat, 5), (ty.toNat, 2), (cl.toNat, 0)]
  | .vsel g d a b q => encWord g 0x51 0 [(d.toNat, 15), (a.toNat, 10), (b.toNat, 5), (q.toNat, 1)]
  | .vmov g d a => encWord g 0x52 0 [(d.toNat, 15), (a.toNat, 10)]
  | .vsplat g d a ty => encWord g 0x53 0 [(d.toNat, 15), (a.toNat, 10), (ty.toNat, 2)]
  | .viotaRow g d => encWord g 0x54 0 [(d.toNat, 15)]
  | .viotaCol g d => encWord g 0x54 1 [(d.toNat, 15)]
  | .viotaLin g d => encWord g 0x54 2 [(d.toNat, 15)]
  | .vbrow g d a n => encWord g 0x55 0 [(d.toNat, 15), (a.toNat, 10), (n.toNat, 4)]
  | .vbcol g d a n => encWord g 0x55 1 [(d.toNat, 15), (a.toNat, 10), (n.toNat, 4)]
  | .vrotr g d a n => encWord g 0x56 0 [(d.toNat, 15), (a.toNat, 10), (n.toNat, 4)]
  | .vrotc g d a n => encWord g 0x56 1 [(d.toNat, 15), (a.toNat, 10), (n.toNat, 4)]
  | .vredr g d a op rz ty ord => encWord g 0x57 0 [(d.toNat, 15), (a.toNat, 10), (op.toNat, 7), (rz.toNat, 5), (ty.toNat, 2), (ord.toNat, 1)]
  | .vredc g d a op rz ty ord => encWord g 0x57 1 [(d.toNat, 15), (a.toNat, 10), (op.toNat, 7), (rz.toNat, 5), (ty.toNat, 2), (ord.toNat, 1)]
  | .vscanr g d a op rz ty ord => encWord g 0x58 0 [(d.toNat, 15), (a.toNat, 10), (op.toNat, 7), (rz.toNat, 5), (ty.toNat, 2), (ord.toNat, 1)]
  | .vscanc g d a op rz ty ord => encWord g 0x58 1 [(d.toNat, 15), (a.toNat, 10), (op.toNat, 7), (rz.toNat, 5), (ty.toNat, 2), (ord.toNat, 1)]
  | .vxp g d a => encWord g 0x59 0 [(d.toNat, 15), (a.toNat, 10)]
  | .vpermRow g d a b => encWord g 0x5A 0 [(d.toNat, 15), (a.toNat, 10), (b.toNat, 5)]
  | .vpermCol g d a b => encWord g 0x5A 1 [(d.toNat, 15), (a.toNat, 10), (b.toNat, 5)]
  | .vext g d a b => encWord g 0x5B 0 [(d.toNat, 15), (a.toNat, 10), (b.toNat, 5)]
  | .vins g d a b => encWord g 0x5B 1 [(d.toNat, 15), (a.toNat, 10), (b.toNat, 5)]
  | .qand g d a b => encWord g 0x5C 0 [(d.toNat, 15), (a.toNat, 10), (b.toNat, 5)]
  | .qor g d a b => encWord g 0x5C 1 [(d.toNat, 15), (a.toNat, 10), (b.toNat, 5)]
  | .qxor g d a b => encWord g 0x5C 2 [(d.toNat, 15), (a.toNat, 10), (b.toNat, 5)]
  | .qnot g d a => encWord g 0x5C 3 [(d.toNat, 15), (a.toNat, 10)]
  | .qcnt g d a => encWord g 0x5C 4 [(d.toNat, 15), (a.toNat, 10)]
  | .fexp2 g d a mode => encWord g 0x60 0 [(d.toNat, 15), (a.toNat, 10), (mode.toNat, 0)]
  | .fexp g d a mode => encWord g 0x61 0 [(d.toNat, 15), (a.toNat, 10), (mode.toNat, 0)]
  | .flog2 g d a mode => encWord g 0x62 0 [(d.toNat, 15), (a.toNat, 10), (mode.toNat, 0)]
  | .frcp g d a mode => encWord g 0x63 0 [(d.toNat, 15), (a.toNat, 10), (mode.toNat, 0)]
  | .frsq g d a mode => encWord g 0x64 0 [(d.toNat, 15), (a.toNat, 10), (mode.toNat, 0)]
  | .fsqrt g d a mode => encWord g 0x65 0 [(d.toNat, 15), (a.toNat, 10), (mode.toNat, 0)]
  | .fdiv g d a b mode => encWord g 0x66 0 [(d.toNat, 15), (a.toNat, 10), (b.toNat, 5), (mode.toNat, 0)]
  | .ftanh g d a mode => encWord g 0x67 0 [(d.toNat, 15), (a.toNat, 10), (mode.toNat, 0)]
  | .fsigm g d a mode => encWord g 0x68 0 [(d.toNat, 15), (a.toNat, 10), (mode.toNat, 0)]
  | .fsin g d a mode => encWord g 0x69 0 [(d.toNat, 15), (a.toNat, 10), (mode.toNat, 0)]
  | .fcos g d a mode => encWord g 0x6A 0 [(d.toNat, 15), (a.toNat, 10), (mode.toNat, 0)]
  | .cvt g d a src dst rm => encWord g 0x6B 0 [(d.toNat, 15), (a.toNat, 10), (src.toNat, 6), (dst.toNat, 2), (rm.toNat, 0)]
  | .qnt4 g d a b rm => encWord g 0x6C 0 [(d.toNat, 15), (a.toNat, 10), (b.toNat, 5), (rm.toNat, 0)]
  | .dqnt4 g d a b => encWord g 0x6D 0 [(d.toNat, 15), (a.toNat, 10), (b.toNat, 5)]
  | .rngseed g a b => encWord g 0x6E 0 [(a.toNat, 10), (b.toNat, 5)]
  | .rngskip g a => encWord g 0x6F 0 [(a.toNat, 10)]
  | .edsc g r e field => encWord g 0x70 0 [(r.toNat, 15), (e.toNat, 10), (field.toNat, 4)]
  | .cpy g tok e => encWord g 0x71 0 [(tok.toNat, 14), (e.toNat, 10)]
  | .gth g tok e => encWord g 0x71 1 [(tok.toNat, 14), (e.toNat, 10)]
  | .sct g tok e => encWord g 0x71 2 [(tok.toNat, 14), (e.toNat, 10)]
  | .kwait g tok => encWord g 0x72 0 [(tok.toNat, 14)]
  | .ktest g tok pd => encWord g 0x72 1 [(tok.toNat, 14), (pd.toNat, 11)]
  | .krel g tok => encWord g 0x72 2 [(tok.toNat, 14)]
  | .mstrm g tok e tile => encWord g 0x73 0 [(tok.toNat, 14), (e.toNat, 10), (tile.toNat, 0)]
  | .mzero g idx => encWord g 0x74 0 [(idx.toNat, 9)]
  | .mcfg g r idx => encWord g 0x74 1 [(r.toNat, 15), (idx.toNat, 9)]
  | .msplit g idx => encWord g 0x74 2 [(idx.toNat, 9)]
  | .mskip g idx => encWord g 0x74 3 [(idx.toNat, 9)]
  | .mclaim g d idx => encWord g 0x74 4 [(d.toNat, 15), (idx.toNat, 9)]
  | .mrel g idx => encWord g 0x74 5 [(idx.toNat, 9)]
  | .mlatch g r idx => encWord g 0x74 6 [(r.toNat, 15), (idx.toNat, 9)]
  | .mrd g v tile part => encWord g 0x75 0 [(v.toNat, 15), (tile.toNat, 9), (part.toNat, 4)]
  | .mwr g v tile part => encWord g 0x75 1 [(v.toNat, 15), (tile.toNat, 9), (part.toNat, 4)]
  | .mout g tok e tile => encWord g 0x76 0 [(tok.toNat, 14), (e.toNat, 10), (tile.toNat, 0)]
  | .tmm g tok e ord rz => encWord g 0x77 0 [(tok.toNat, 14), (e.toNat, 10), (ord.toNat, 5), (rz.toNat, 4)]
  | .tew g tok e rz => encWord g 0x77 64 [(tok.toNat, 14), (e.toNat, 10), (rz.toNat, 4)]
  | .tred g tok e ord rz => encWord g 0x77 128 [(tok.toNat, 14), (e.toNat, 10), (ord.toNat, 5), (rz.toNat, 4)]
  | .tscan g tok e ord rz => encWord g 0x77 192 [(tok.toNat, 14), (e.toNat, 10), (ord.toNat, 5), (rz.toNat, 4)]
  | .txp g tok e => encWord g 0x77 256 [(tok.toNat, 14), (e.toNat, 10)]
  | .tcvt g tok e rz => encWord g 0x77 320 [(tok.toNat, 14), (e.toNat, 10), (rz.toNat, 4)]
  | .tcpy g tok e => encWord g 0x77 384 [(tok.toNat, 14), (e.toNat, 10)]
  | .tbc g tok e => encWord g 0x77 448 [(tok.toNat, 14), (e.toNat, 10)]
  | .tlnch g tok e => encWord g 0x78 0 [(tok.toNat, 14), (e.toNat, 10)]
  | .twait g tok d => encWord g 0x79 0 [(tok.toNat, 14), (d.toNat, 5)]
  | .tstat g tok d => encWord g 0x79 1 [(tok.toNat, 14), (d.toNat, 5)]
  | .tabort g tok d => encWord g 0x79 2 [(tok.toNat, 14), (d.toNat, 5)]
  | .fbind g x q => encWord g 0x7A 0 [(x.toNat, 15), (q.toNat, 9)]
  | .fsend g x f => encWord g 0x7A 1 [(x.toNat, 15), (f.toNat, 10)]
  | .fput g x f => encWord g 0x7A 2 [(x.toNat, 15), (f.toNat, 10)]
  | .fdrain g x q => encWord g 0x7A 3 [(x.toNat, 15), (q.toNat, 9)]
  | .fstat g x q => encWord g 0x7A 4 [(x.toNat, 15), (q.toNat, 9)]
  | .ftake g x f => encWord g 0x7A 5 [(x.toNat, 15), (f.toNat, 10)]
  | .mcst g tok e => encWord g 0x7B 0 [(tok.toNat, 14), (e.toNat, 10)]
  | .coll g tok e ord rz => encWord g 0x7C 0 [(tok.toNat, 14), (e.toNat, 10), (ord.toNat, 5), (rz.toNat, 4)]
  | .issueTick _ => none
  | .eventEntry _ => none
  | .fUnitFree _ => none
  | .phaseDrainDone _ => none
  | .phaseBarClose _ => none
  | .l1Fill _ _ => none
  | .l1Writeback _ _ => none
  | .homeLoad _ _ => none
  | .homeStore _ _ => none
  | .atomicExecute _ => none
  | .orderedRelease _ => none
  | .atomicReply _ => none
  | .copyStart _ _ => none
  | .copyCellWrite _ _ => none
  | .copyComplete _ _ => none
  | .streamStart _ _ => none
  | .streamComplete _ _ => none
  | .moutComplete _ _ => none
  | .arrayError _ _ => none
  | .rerunDone _ => none
  | .regionUnprotected _ => none
  | .slotRelease _ => none
  | .dispatchGroup _ => none
  | .claim _ => none
  | .stealRequest _ => none
  | .taskHalt _ => none
  | .tileStart _ _ => none
  | .unitComplete _ _ _ => none
  | .tileFold _ _ _ => none
  | .childLost _ _ _ => none
  | .tileComplete _ _ => none
  | .launchComplete _ => none
  | .mcstStart _ _ => none
  | .mcstComplete _ _ => none
  | .cellArrival _ => none
  | .slotSend _ => none
  | .linkCellReceive _ _ => none
  | .linkAck _ _ => none
  | .replayRequest _ _ => none
  | .linkSignalLoss _ => none
  | .retrainTimeout _ => none
  | .moduleLoss _ => none
  | .ringRefusal _ _ => none
  | .nack _ _ => none
  | .nackResend _ => none
  | .keyMarker _ _ => none
  | .keyRefusal _ => none
  | .remoteRequest _ _ => none
  | .reply _ _ => none
  | .retransmit _ => none
  | .remoteTimeout _ => none
  | .replyCacheExpire _ _ => none
  | .sequenceSkip _ _ => none
  | .collArrive _ _ => none
  | .collComplete _ _ _ => none
  | .collFault _ _ _ _ => none
  | .tlbinvAck _ => none
  | .genbumpDone _ => none
  | .l2wbDone _ => none
  | .domsetDone _ => none
  | .nploadDone _ => none
  | .attestServe => none
  | .gswCommand _ => none
  | .gangStop => none
  | .gangStopTimeout => none
  | .gangMarker _ _ _ => none
  | .lateCell _ _ => none
  | .kill _ _ => none
  | .mselWrite _ _ => none
  | .monitorSample _ _ => none
  | .ghcfgLock _ _ => none
  | .registerWrite _ _ _ => none
  | .hostFrame _ => none
  | .hostLaunch _ => none
  | .hostLoad _ => none
  | .hostWrite _ _ _ => none
  | .hostRead _ _ _ => none
  | .hostKey _ _ => none
  | .hostAttest _ => none
  | .hostJobEnd _ => none
  | .hostGrotto => none
  | .hostConfig _ => none
  | .moduleReset _ => none
  | .powerTrip _ _ _ => none
  | .junctionTrip _ _ => none
  | .packageWatchdog _ => none
  | .fatalStop _ _ _ => none
  | .fatalMessage => none
  | .linkTrained _ => none
  | .powerLoss => none

/-- The word of a slot (Table 2.1); zero for a machine step. -/
def encodeSlot (s : Slot) : W32 :=
  BitVec.ofNat 32 ((if s.stop then 2 ^ 31 else 0) + (encode s.instr).getD 0)

end Sys2Proof
end

