-- ==== Sys2Proof/Machine/Numbers.lean ====
section
/-!
DEFINITION. Number formats, exact values and rounding (R54 to R60, R66, R68 to R71, R74, R75). An
exact value is decoded, computed on exactly, and rounded once; flags come out of that rounding.
-/

namespace Sys2Proof.Machine

/-- Flags of FSTAT, by bit (Table 3.5). -/
abbrev Flags := BitVec 6

/-- NV, DZ, OF, UF, NX and IS of Table 3.5. -/
def flagNV : Flags := 1
/-- DZ of Table 3.5. -/
def flagDZ : Flags := 2
/-- OF of Table 3.5. -/
def flagOF : Flags := 4
/-- UF of Table 3.5. -/
def flagUF : Flags := 8
/-- NX of Table 3.5. -/
def flagNX : Flags := 16
/-- IS of Table 3.5. -/
def flagIS : Flags := 32

/-- A flag under a condition. -/
def flagIf (c : Bool) (f : Flags) : Flags := if c then f else 0

/-- A decoded value: (−1)^neg × m × 2^e when finite (R54). -/
inductive Num where
  | nan
  | inf (neg : Bool)
  | fin (neg : Bool) (m : Nat) (e : Int)
  deriving DecidableEq, Repr

/-- A floating-point element format (Table 3.1, R58): M mantissa bits, the exponent of the smallest
subnormal, the largest finite code, and the codes of infinity and of NaN where it has them. Codes are
taken without the sign; `signBit` is 0 for the unsigned format. -/
structure Fmt where
  mant : Nat
  lsb : Int
  maxCode : Nat
  infCode : Option Nat
  nanCode : Option Nat
  signBit : Nat
  deriving DecidableEq, Repr

/-- .f32 (Table 3.1). -/
def Fmt.f32 : Fmt := ⟨23, -149, 0x7F7FFFFF, some 0x7F800000, some 0x7FC00000, 0x80000000⟩
/-- .bf16 (Table 3.1). -/
def Fmt.bf16 : Fmt := ⟨7, -133, 0x7F7F, some 0x7F80, some 0x7FC0, 0x8000⟩
/-- .f16 (Table 3.1). -/
def Fmt.f16 : Fmt := ⟨10, -24, 0x7BFF, some 0x7C00, some 0x7E00, 0x8000⟩
/-- .e4m3 (Table 3.1). -/
def Fmt.e4m3 : Fmt := ⟨3, -9, 0x7E, none, some 0x7F, 0x80⟩
/-- .e5m2 (Table 3.1). -/
def Fmt.e5m2 : Fmt := ⟨2, -16, 0x7B, some 0x7C, some 0x7E, 0x80⟩
/-- .e2m1 (Table 3.3). -/
def Fmt.e2m1 : Fmt := ⟨1, -1, 0x7, none, none, 0x8⟩
/-- .e3m5, unsigned (R58). -/
def Fmt.e3m5 : Fmt := ⟨5, -7, 0xFE, none, some 0xFF, 0⟩

/-- The code of a value of the format without its sign bit. -/
def Fmt.mag (f : Fmt) (c : Nat) : Nat := if f.signBit = 0 then c % 256 else c % f.signBit

/-- Whether a code has its sign bit set. -/
def Fmt.neg (f : Fmt) (c : Nat) : Bool := if f.signBit = 0 then false else decide (c / f.signBit % 2 = 1)

/-- Decoding of a code (R54, R55, R58, R59). Every NaN encoding decodes alike. -/
def Fmt.decode (f : Fmt) (c : Nat) : Num :=
  let a := f.mag c
  if a > f.maxCode then (if f.infCode = some a then .inf (f.neg c) else .nan)
  else if a / 2 ^ f.mant = 0 then .fin (f.neg c) a f.lsb
  else .fin (f.neg c) (2 ^ f.mant + a % 2 ^ f.mant) (f.lsb + (a / 2 ^ f.mant : Nat) - 1)

/-- Rounding modes (R68); `sr` carries Mix(w, e) of its element (R70). -/
inductive RMode where
  | rne
  | rz
  | sr (mix : Nat)
  deriving DecidableEq, Repr

/-- The rounding mode of an .rz field. -/
def RMode.ofRz (b : Bool) : RMode := if b then .rz else .rne

/-- Whether a value q + (r + s)/2^k is rounded up to q + 1, with r below 2^k and s a discarded part
in (0, 1) when `st` (R68, R70). -/
def roundUp (md : RMode) (q r k : Nat) (st : Bool) : Bool :=
  match md with
  | .rne => decide (2 * r > 2 ^ k) || (decide (2 * r = 2 ^ k) && (st || decide (q % 2 = 1)))
  | .rz => false
  | .sr mix => decide (r * 2 ^ 32 / 2 ^ k + mix ≥ 2 ^ 32)

/-- m × 2^e (with a discarded part when `st`) on the grid of spacing 2^u: the multiple of 2^u chosen,
and whether it differs from the exact value. -/
def onGrid (md : RMode) (m : Nat) (e : Int) (st : Bool) (u : Int) : Nat × Bool :=
  if u ≤ e then (m * 2 ^ (e - u).toNat, st)
  else
    let k := (u - e).toNat
    let q := m / 2 ^ k
    let r := m % 2 ^ k
    (if roundUp md q r k st then q + 1 else q, st || decide (r ≠ 0))

/-- A finite magnitude m × 2^e (with a discarded part when `st`) rounded to a format: the code without
sign, and the flags (R68, R69, R71). Beyond the largest finite value Table 3.4 holds. -/
def Fmt.roundMag (f : Fmt) (md : RMode) (m : Nat) (e : Int) (st : Bool) : Nat × Flags :=
  if m = 0 then (0, flagIf st flagNX)
  else
    let top := e + (Nat.log2 m : Nat) - (f.mant : Nat)
    let u := if top < f.lsb then f.lsb else top
    let g := onGrid md m e st u
    let code := (u - f.lsb).toNat * 2 ^ f.mant + g.1
    let t := onGrid md m e st top
    let tiny := decide (top < f.lsb) && decide ((t.1 : Nat) < 2 ^ (f.mant + (f.lsb - top).toNat))
    if code > f.maxCode then
      (if md = .rz then f.maxCode else f.infCode.getD f.maxCode, flagOF ||| flagNX)
    else (code, flagIf (tiny && g.2) flagUF ||| flagIf g.2 flagNX)

/-- A decoded value rounded to a format, sign included, with its flags (R69, Table 3.4). -/
def Fmt.round (f : Fmt) (md : RMode) (x : Num) (st : Bool := false) : Nat × Flags :=
  match x with
  | .nan => ((f.nanCode.getD 0), flagIf (decide (f.signBit = 0)) flagNV)
  | .inf neg =>
    match f.infCode with
    | some i => (i + (if neg then f.signBit else 0), 0)
    | none =>
      if f.signBit = 0 then (if neg then (0xFF, flagNV) else (f.maxCode, flagOF))
      else ((f.nanCode.getD 0), flagNV)
  | .fin neg m e =>
    if f.signBit = 0 ∧ neg = true then (if m = 0 ∧ st = false then (0, 0) else (0xFF, flagNV))
    else
      let r := f.roundMag md m e st
      (r.1 + (if neg then f.signBit else 0), r.2)

/-- The smallest and largest values of an integer format of w bits (R62). -/
def intMin (signed : Bool) (w : Nat) : Int := if signed then -(2 ^ (w - 1) : Int) else 0
/-- The largest value of an integer format of w bits. -/
def intMax (signed : Bool) (w : Nat) : Int := if signed then 2 ^ (w - 1) - 1 else 2 ^ w - 1

/-- An exact integer clamped to a format (SatS and SatZ of Table 0.3), and whether it was. -/
def satInt (signed : Bool) (w : Nat) (x : Int) : Int × Bool :=
  if x < intMin signed w then (intMin signed w, true)
  else if x > intMax signed w then (intMax signed w, true)
  else (x, false)

/-- A decoded value rounded to an integer of w bits, with its flags (R69, Table 3.4). -/
def roundInt (md : RMode) (signed : Bool) (w : Nat) (x : Num) : Int × Flags :=
  match x with
  | .nan => (0, flagNV)
  | .inf neg => (if neg then intMin signed w else intMax signed w, flagNV)
  | .fin neg m e =>
    if !signed && neg && decide (m ≠ 0) then (0, flagNV)
    else
      let g := onGrid md m e false 0
      let v : Int := if neg then -(g.1 : Int) else g.1
      let s := satInt signed w v
      if s.2 then (s.1, flagNV) else (v, flagIf g.2 flagNX)

/-- An integer as a decoded value. -/
def Num.ofInt (x : Int) : Num := .fin (decide (x < 0)) x.natAbs 0

/-- Whether a value is a NaN. -/
def Num.isNan : Num → Bool
  | .nan => true
  | _ => false

/-- The negation of a value (a NaN stays a NaN). -/
def Num.negate : Num → Num
  | .nan => .nan
  | .inf n => .inf (!n)
  | .fin n m e => .fin (!n) m e

/-- The exact sum; an exact zero sum of operands of opposite sign is +0 (R68); inf − inf is NaN. -/
def Num.add : Num → Num → Num
  | .nan, _ => .nan
  | _, .nan => .nan
  | .inf a, .inf b => if a = b then .inf a else .nan
  | .inf a, _ => .inf a
  | _, .inf b => .inf b
  | .fin s m e, .fin t n f =>
    let u := if e ≤ f then e else f
    let a := m * 2 ^ (e - u).toNat
    let b := n * 2 ^ (f - u).toNat
    if s = t then .fin s (a + b) u
    else if a = b then .fin false 0 u
    else if a > b then .fin s (a - b) u else .fin t (b - a) u

/-- The exact product; zero times infinity is NaN. -/
def Num.mul : Num → Num → Num
  | .nan, _ => .nan
  | _, .nan => .nan
  | .inf a, .inf b => .inf (a != b)
  | .inf a, .fin t n _ => if n = 0 then .nan else .inf (a != t)
  | .fin s m _, .inf b => if m = 0 then .nan else .inf (s != b)
  | .fin s m e, .fin t n f => .fin (s != t) (m * n) (e + f)

/-- The magnitude of the product or quotient of two scaled integers compared: m × 2^e < n × 2^f. -/
def magLt (m : Nat) (e : Int) (n : Nat) (f : Int) : Bool :=
  let u := if e ≤ f then e else f
  decide (m * 2 ^ (e - u).toNat < n * 2 ^ (f - u).toNat)

/-- Numeric order of two values that are no NaN; −0 equals +0 (R104). -/
def Num.lt : Num → Num → Bool
  | .inf a, .inf b => a && !b
  | .inf a, .fin _ _ _ => a
  | .fin _ _ _, .inf b => !b
  | .fin s m e, .fin t n f =>
    if decide (m = 0) && decide (n = 0) then false
    else if s && !t then true
    else if !s && t then false
    else if s then magLt n f m e else magLt m e n f
  | _, _ => false

/-- Numeric equality of two values that are no NaN. -/
def Num.eqv (a b : Num) : Bool := !a.isNan && !b.isNan && !a.lt b && !b.lt a

/-- The sign of a value. -/
def Num.isNeg : Num → Bool
  | .nan => false
  | .inf n => n
  | .fin n _ _ => n

/-- The order of R66: as `lt`, with −0 below +0. -/
def Num.ltTotal (a b : Num) : Bool := a.lt b || (a.eqv b && a.isNeg && !b.isNeg)

/-- Minimum under R66. -/
def Num.min (a b : Num) : Num :=
  if a.isNan || b.isNan then .nan else if a.ltTotal b then a else b

/-- Maximum under R66. -/
def Num.max (a b : Num) : Num :=
  if a.isNan || b.isNan then .nan else if a.ltTotal b then b else a

/-- NV of an operation that makes a NaN from operands that are none (R71). -/
def nvIf (r : Num) (operandNan : Bool) : Flags := flagIf (r.isNan && !operandNan) flagNV

/-- A sum rounded to a format, with its flags. -/
def Fmt.add (f : Fmt) (md : RMode) (a b : Num) : Nat × Flags :=
  let t := a.add b
  let r := f.round md t
  (r.1, r.2 ||| nvIf t (a.isNan || b.isNan))

/-- A product rounded to a format, with its flags. -/
def Fmt.mul (f : Fmt) (md : RMode) (a b : Num) : Nat × Flags :=
  let t := a.mul b
  let r := f.round md t
  (r.1, r.2 ||| nvIf t (a.isNan || b.isNan))

/-- a × b + c with one rounding (R103). Zero times infinity sets NV whatever c is. -/
def Fmt.fma (f : Fmt) (md : RMode) (a b c : Num) : Nat × Flags :=
  let p := a.mul b
  let t := p.add c
  let r := f.round md t
  (r.1, r.2 ||| nvIf p (a.isNan || b.isNan) ||| nvIf t (a.isNan || b.isNan || c.isNan))

/-- A quotient rounded to a format: `bits` further bits of it decide the rounding, and the remainder
the discarded part. The specials of division are those of IEEE 754; a finite nonzero value over zero
sets DZ (R71). -/
def Fmt.quotient (f : Fmt) (md : RMode) (a b : Num) : Nat × Flags :=
  match a, b with
  | .nan, _ => f.round md .nan
  | _, .nan => f.round md .nan
  | .inf _, .inf _ => ((f.round md .nan).1, flagNV)
  | .inf s, .fin t _ _ => f.round md (.inf (s != t))
  | .fin s _ _, .inf t => f.round md (.fin (s != t) 0 0)
  | .fin s m e, .fin t n g =>
    if n = 0 then
      (if m = 0 then ((f.round md .nan).1, flagNV)
       else ((f.round md (.inf (s != t))).1, flagDZ))
    else
      let k := Nat.log2 n + 70 - (if m = 0 then 0 else Nat.log2 m)
      let q := m * 2 ^ k / n
      let r := m * 2 ^ k % n
      f.round md (.fin (s != t) q (e - g - (k : Nat))) (decide (r ≠ 0))

/-! ### Random bits -/

/-- Rotation left of a 32-bit word. -/
def rotl32 (x : W32) (n : Nat) : W32 := x.rotateLeft n

/-- One of the four rounds of Block (R74). -/
def blockRound (ab : Nat × Nat) (x : W32 × W32 × W32 × W32) : W32 × W32 × W32 × W32 :=
  let x0 := x.1 + rotl32 x.2.1 ab.1 + x.2.2.1
  let x1 := (rotl32 x.2.1 ab.2 ^^^ x0) + x.2.2.2
  (x0, x1, x.2.2.1 + 0xB5AD4ECE, x.2.2.2 + 0x3C6EF372)

/-- Block(key, ctr) of R74. -/
def rngBlock (key ctr : W64) : W64 :=
  let start : W32 × W32 × W32 × W32 :=
    (ctr.setWidth 32, (ctr >>> 32).setWidth 32, key.setWidth 32, (key >>> 32).setWidth 32)
  let y := blockRound (29, 3) (blockRound (7, 17) (blockRound (19, 13) (blockRound (11, 5) start)))
  y.2.1 ++ y.1

/-- Mix(w, e) of R74. -/
def rngMix (w : W32) (e : Nat) : W32 :=
  let h := w ^^^ (BitVec.ofNat 32 e * 0x2C1B3C6D)
  let h := h ^^^ (h >>> 16)
  let h := h * 0x297A2D39
  h ^^^ (h >>> 15)

/-- Word n of the stream of key K and counter C (R75). -/
def rngWord (key ctr : W64) (n : Nat) : W32 :=
  let b := rngBlock key (ctr + BitVec.ofNat 64 (n / 2))
  if n % 2 = 0 then b.setWidth 32 else (b >>> 32).setWidth 32

end Sys2Proof.Machine
end

