-- ==== Sys2Proof/Events.lean ====
section
/-!
DEFINITION. The machine steps of agents other than an issuing slot, as the model's own list of what comes next: one
constructor for each row of the opcode table without an encoding, with the operands of that row.
-/

namespace Sys2Proof

/-- A machine step that is no slot. -/
inductive Event where
  /-- ISSUE_TICK (R271): At a tick the core issues the next bundle of the current or next ready task. -/
  | issueTick (c : CoreRef)
  /-- EVENT_ENTRY (R384): The lodge core enters its handler at a boundary when the event queue holds records. -/
  | eventEntry (die : Nat)
  /-- F_UNIT_FREE (R151): The F unit's four-tick occupancy ends and it accepts a new F slot. -/
  | fUnitFree (c : CoreRef)
  /-- PHASE_DRAIN_DONE (R173): The PHASE drain finishes writing back and zeroing moved steps. -/
  | phaseDrainDone (t : TaskRef)
  /-- PHASE_BAR_CLOSE (R174): The PHASE bar closes after 1024 x m issued bundles. -/
  | phaseBarClose (t : TaskRef)
  /-- L1_FILL (R167): A requested line arrives so the squashed bundle can replay. -/
  | l1Fill (c : CoreRef) (line : Nat)
  /-- L1_WRITEBACK (R234): A dirty L1 line is written back to its home and checked against the generation. -/
  | l1Writeback (c : CoreRef) (line : Nat)
  /-- HOME_LOAD (R244): A home serves a load or read right and extends the lease. -/
  | homeLoad (c : CoreRef) (line : Nat)
  /-- HOME_STORE (R244): A home grants a write right and sets write time and lease. -/
  | homeStore (c : CoreRef) (line : Nat)
  /-- ATOMIC_EXECUTE (R258): An atomic executes at its home slice at its wheel time. -/
  | atomicExecute (t : TaskRef)
  /-- ORDERED_RELEASE (R262): A held ordered atomic executes once all joined and lower participants closed. -/
  | orderedRelease (t : TaskRef)
  /-- ATOMIC_REPLY (R254): An atomic's old value returns and releases the held next bundle. -/
  | atomicReply (t : TaskRef)
  /-- COPY_START (R215): A copy command starts once all its bindings have completed. -/
  | copyStart (c : CoreRef) (tok : Nat)
  /-- COPY_CELL_WRITE (R221): The engine writes one cell of elements and counts it as an arrival. -/
  | copyCellWrite (c : CoreRef) (tok : Nat)
  /-- COPY_COMPLETE (R220): The copy completes, its token becomes DONE and a released source entry empties. -/
  | copyComplete (c : CoreRef) (tok : Nat)
  /-- STREAM_START (R199): An MSTRM stream starts after earlier commands and its tokens. -/
  | streamStart (c : CoreRef) (tok : Nat)
  /-- STREAM_COMPLETE (R199): A stream writes its last element and produces its token. -/
  | streamComplete (c : CoreRef) (tok : Nat)
  /-- MOUT_COMPLETE (R204): MOUT has written every byte and produces its token. -/
  | moutComplete (c : CoreRef) (tok : Nat)
  /-- ARRAY_ERROR (R208): An array, operand or accumulator error halts the core and rolls back the region. `source` is the code
  of Table 19.4, 0 for an error that is corrected (R386); `place` is the physical address of an error of code 4 or 5, the
  monitor of a corrected one, and the word of one of code 6. -/
  | arrayError (t : TaskRef) (source : ErrorSource)
  /-- RERUN_DONE (R208): The second rerun ends and the counts and signatures are compared. -/
  | rerunDone (c : CoreRef)
  /-- REGION_UNPROTECTED (R206): A region passing the log size or 4096 bundles becomes unprotected. -/
  | regionUnprotected (t : TaskRef)
  /-- SLOT_RELEASE (R270): An ended task's slot frees once its commands have completed. -/
  | slotRelease (t : TaskRef)
  /-- DISPATCH_GROUP (R268): The dispatcher places the next group whole when resources allow. -/
  | dispatchGroup (launch : Nat)
  /-- CLAIM (R277): The sequencer serves an SLN claim. -/
  | claim (t : TaskRef)
  /-- STEAL_REQUEST (R278): The sequencer serves a steal request from a victim's untaken iterations. -/
  | stealRequest (t : TaskRef)
  /-- TASK_HALT (R282): A pre-empted task halts at a bundle boundary. -/
  | taskHalt (t : TaskRef)
  /-- TILE_START (R290): A tile instruction reads and checks its block once its tokens are produced. -/
  | tileStart (c : CoreRef) (tok : Nat)
  /-- UNIT_COMPLETE (R304): A unit writes its partial or its tile and is recorded in DONE. -/
  | unitComplete (c : CoreRef) (tok unit : Nat)
  /-- TILE_FOLD (R297): A level folds a split tile once all its partials are in. -/
  | tileFold (c : CoreRef) (tok tile : Nat)
  /-- CHILD_LOST (R298): A lost child's incomplete units are handed to the remaining children. -/
  | childLost (c : CoreRef) (tok child : Nat)
  /-- TILE_COMPLETE (R303): The issuing level writes the record and sets the token. -/
  | tileComplete (c : CoreRef) (tok : Nat)
  /-- LAUNCH_COMPLETE (R306): All tasks of a TLNCH launch end and its token becomes DONE. -/
  | launchComplete (launch : Nat)
  /-- MCST_START (R355): A multicast checks its header and sends head and body cells. -/
  | mcstStart (c : CoreRef) (tok : Nat)
  /-- MCST_COMPLETE (R355): The last multicast cell leaves the send buffer. -/
  | mcstComplete (c : CoreRef) (tok : Nat)
  /-- CELL_ARRIVAL (R314): A flow cell reaches a Pavilion and is matched against its entries. -/
  | cellArrival (p : PortRef)
  /-- SLOT_SEND (R336): At each slot time a port chooses and sends one cell. -/
  | slotSend (p : PortRef)
  /-- LINK_CELL_RECEIVE (R344): A receiver accepts the next ESEQ in order or asks for a replay. -/
  | linkCellReceive (p : PortRef) (w : WireCell)
  /-- LINK_ACK (R344): An acknowledgement releases cells from the retry buffer. -/
  | linkAck (p : PortRef) (eseq : Nat)
  /-- REPLAY_REQUEST (R344): The sender replays from the asked ESEQ. -/
  | replayRequest (p : PortRef) (eseq : Nat)
  /-- LINK_SIGNAL_LOSS (R344): Loss of signal or alignment fails the link direction. -/
  | linkSignalLoss (p : PortRef)
  /-- RETRAIN_TIMEOUT (R344): A link not retrained within 10 us is failed. -/
  | retrainTimeout (p : PortRef)
  /-- MODULE_LOSS (R346): A neighbour that stops loses its acknowledged cells and fabric-loss faults are posted. -/
  | moduleLoss (p : PortRef)
  /-- RING_REFUSAL (R340): A refused ring cell circulates one circuit with CIRC set. -/
  | ringRefusal (p : PortRef) (cell : Cell)
  /-- NACK (R340): A second refusal returns the cell to its sender's NACK queue. -/
  | nack (p : PortRef) (cell : Cell)
  /-- NACK_RESEND (R340): A NACKed cell is resent at the start of the next frame. -/
  | nackResend (p : PortRef)
  /-- KEY_MARKER (R349): A key marker switches the receiver to the named slot or is refused. -/
  | keyMarker (p : PortRef) (slot : Nat)
  /-- KEY_REFUSAL (R349): The sender returns to the old slot and replays under it. -/
  | keyRefusal (p : PortRef)
  /-- REMOTE_REQUEST (R342): A home Gatehouse performs a remote request in sequence order. -/
  | remoteRequest (gate : Nat) (q : RemoteReq)
  /-- REPLY (R341): A reply cell completes a remote request at the requester. -/
  | reply (gate : Nat) (r : RemoteRep)
  /-- RETRANSMIT (R265): An unanswered request is resent after 20 us. -/
  | retransmit (id : Nat)
  /-- REMOTE_TIMEOUT (R265): A request unanswered after eight resends is abandoned. -/
  | remoteTimeout (id : Nat)
  /-- REPLY_CACHE_EXPIRE (R265): A cached reply leaves after 256 us. -/
  | replyCacheExpire (gate id : Nat)
  /-- SEQUENCE_SKIP (R342): A missing sequence number is skipped after 256 us. -/
  | sequenceSkip (gate source : Nat)
  /-- COLL_ARRIVE (R358): A rank's COLL reaches its engine and is grouped; the collective may start. -/
  | collArrive (c : CoreRef) (tok : Nat)
  /-- COLL_COMPLETE (R363): A rank's writes complete and its token becomes DONE. -/
  | collComplete (job : Nat) (collid : BitVec 64) (rank : Nat)
  /-- COLL_FAULT (R369): A fault at any rank ends the collective FAULTED at every rank. -/
  | collFault (job : Nat) (collid : BitVec 64) (cause rank : Nat)
  /-- TLBINV_ACK (R236): TLBINV is acknowledged after its drain. -/
  | tlbinvAck (die : Nat)
  /-- GENBUMP_DONE (R237): GENBUMP has written back frame lines and advanced every generation copy. -/
  | genbumpDone (die : Nat)
  /-- L2WB_DONE (R238): L2WB has written back its range. -/
  | l2wbDone (die : Nat)
  /-- DOMSET_DONE (R239): DOMSET switches the mask and replays held requests. -/
  | domsetDone (die : Nat)
  /-- NPLOAD_DONE (R330): NPLOAD installs its records all or nothing and returns a status. -/
  | nploadDone (die : Nat)
  /-- ATTEST_SERVE (R404): The attestation unit serves one request in arrival order. -/
  | attestServe
  /-- GSW_COMMAND (R372): A switch command reaches a module of the mask. -/
  | gswCommand (b : SwitchBlock)
  /-- GANG_STOP (R372): The module stops the job when its .pkg mark reaches the turn. -/
  | gangStop
  /-- GANG_STOP_TIMEOUT (R372): After 10 us the mark is raised to the turn and the job stops. -/
  | gangStopTimeout
  /-- GANG_MARKER (R373): A gang marker marks its port; the sweep closes when all are marked. -/
  | gangMarker (p : PortRef) (job turn : Nat)
  /-- LATE_CELL (R377): A cell after its port's marker joins the late list or is dropped. -/
  | lateCell (p : PortRef) (cell : Cell)
  /-- KILL (R385): A write of KILL ends the named tasks and faults their tokens. -/
  | kill (die : Nat) (target : BitVec 64)
  /-- MSEL_WRITE (R388): A write of MSEL selects a quantity and clears the monitor. -/
  | mselWrite (m : MonitorRef) (v : BitVec 64)
  /-- MONITOR_SAMPLE (R388): A monitor samples a level every 64 cycles or a latency per event. -/
  | monitorSample (m : MonitorRef) (v : Nat)
  /-- GHCFG_LOCK (R339): Setting LOCK fixes MODNUM and PRESENT until reset. -/
  | ghcfgLock (die : Nat) (v : BitVec 64)
  /-- REGISTER_WRITE (R24): A write to a register with no behaviour of its own. -/
  | registerWrite (w : Writer) (addr : Nat) (v : BitVec 64)
  /-- HOST_FRAME (R394): A MACsec-protected host frame is accepted or discarded. -/
  | hostFrame (f : HostFrame)
  /-- LAUNCH (R396): Host message that dispatches one launch. -/
  | hostLaunch (m : List (BitVec 8))
  /-- LOAD (R402): Host message that loads and measures a job image. -/
  | hostLoad (m : LoadMsg)
  /-- WRITE (R395): Host message that writes sealed data to job memory. -/
  | hostWrite (job va : Nat) (data : List (BitVec 8))
  /-- READ (R395): Host message that reads job memory into a sealed reply. -/
  | hostRead (job va size : Nat)
  /-- KEY (R407): Host message carrying a key blob for KEYLD. -/
  | hostKey (job : Nat) (blob : List (BitVec 8))
  /-- HOST_ATTEST (R403): Host message that requests a signed measurement record. -/
  | hostAttest (req : List (BitVec 8))
  /-- JOBEND (R395): Host message that kills a job's tasks and clears its key. -/
  | hostJobEnd (job : Nat)
  /-- GROTTO (R414): Host message that reads the Grotto dump after a fatal stop. -/
  | hostGrotto
  /-- CONFIG (R409): Host message that writes the rack word for the next bring-up. -/
  | hostConfig (word : BitVec 64)
  /-- MODULE_RESET (R408): Module reset starts bring-up through its stages to READY. -/
  | moduleReset (straps : BitVec 6)
  /-- POWER_TRIP (R410): An input voltage out of range for 1 ms is a fatal cause. -/
  | powerTrip (die high reading : Nat)
  /-- JUNCTION_TRIP (R410): A die reaching 105 C is a fatal cause. -/
  | junctionTrip (die reading : Nat)
  /-- PACKAGE_WATCHDOG (R389): A lodge failing the package watchdog is a fatal cause. -/
  | packageWatchdog (die : Nat)
  /-- FATAL_STOP (R389): A fatal cause halts the module and lodges dump to the Grotto. -/
  | fatalStop (die cause : Nat) (info : BitVec 64)
  /-- FATAL (R412): D0 sends the FATAL message once its Grotto section is complete. -/
  | fatalMessage
  /-- LINK_TRAINED (R344): A ring or rack link direction finishes training, becomes up, and the sender replays from the ESEQ after the last one accepted. -/
  | linkTrained (p : PortRef)
  /-- POWER_LOSS (R399): The module's supply is lost, ending all volatile state while NEXTIDX in non-volatile storage survives, so an index may be skipped but never reused. -/
  | powerLoss
  deriving DecidableEq, Repr

end Sys2Proof
end

