-- ==== Sys2Proof/Machine/Tbl.lean ====
section
/-!
DEFINITION. Sparse tables: a list of (key, value) pairs with rising keys, in which a key that is not
listed holds a default. They hold the memories, the register files and the tables of the module. No
entry of a table in canonical form equals the default, so equal tables are equal lists.
-/

namespace Sys2Proof.Machine

/-- A sparse table from natural-number keys. -/
abbrev Tbl (α : Type) := List (Nat × α)

/-- The value at a key; `d` is what an unlisted key holds. -/
def Tbl.get {α : Type} (d : α) : Tbl α → Nat → α
  | [], _ => d
  | (j, v) :: t, k => if j = k then v else Tbl.get d t k

/-- The table without a key. -/
def Tbl.erase {α : Type} : Tbl α → Nat → Tbl α
  | [], _ => []
  | (j, v) :: t, k => if j = k then Tbl.erase t k else (j, v) :: Tbl.erase t k

/-- The table with a key listed, keys kept rising. -/
def Tbl.insert {α : Type} (v : α) : Tbl α → Nat → Tbl α
  | [], k => [(k, v)]
  | (j, w) :: t, k =>
    if k < j then (k, v) :: (j, w) :: t
    else if j = k then (k, v) :: t
    else (j, w) :: Tbl.insert v t k

/-- The table with a key's value set; setting the default removes the entry. -/
def Tbl.set {α : Type} [DecidableEq α] (d : α) (t : Tbl α) (k : Nat) (v : α) : Tbl α :=
  if v = d then Tbl.erase t k else Tbl.insert v t k

/-- The table with every listed value mapped by a function that keeps the default. -/
def Tbl.mapVals {α : Type} (f : α → α) (t : Tbl α) : Tbl α := t.map fun e => (e.1, f e.2)

/-- The table with every listed value mapped; values that become the default are dropped. -/
def Tbl.mapDrop {α : Type} [DecidableEq α] (d : α) (f : α → α) : Tbl α → Tbl α
  | [] => []
  | (j, v) :: t => if f v = d then Tbl.mapDrop d f t else (j, f v) :: Tbl.mapDrop d f t

/-- The canonical form: keys strictly rising, no entry equal to the default. -/
def Tbl.wf {α : Type} [DecidableEq α] (d : α) : Tbl α → Bool
  | [] => true
  | [(_, v)] => decide (v ≠ d)
  | (j, v) :: (k, w) :: t => decide (v ≠ d) && decide (j < k) && Tbl.wf d ((k, w) :: t)

/-- The byte memory of the module, keyed by module offset [41:0] (R20). An unlisted byte reads 0: all
stores are zeroed at bring-up (R408). -/
abbrev Memory := List Host.Cell

/-- One byte of memory. -/
def Memory.byte (m : Memory) (a : Nat) : Byte := Tbl.get 0 m a

/-- Memory with one byte written. -/
def Memory.setByte (m : Memory) (a : Nat) (b : Byte) : Memory := Tbl.set 0 m a b

/-- The canonical form of memory. -/
def Memory.wf (m : Memory) : Bool := Tbl.wf 0 m

/-- n bytes from an address up. -/
def Memory.bytes (m : Memory) (a n : Nat) : List Byte := (List.range n).map fun i => m.byte (a + i)

/-- The cells that list a run of bytes from an address up. -/
def byteCells (a : Nat) : List Byte → Memory
  | [] => []
  | b :: t => if b = 0 then byteCells (a + 1) t else (a, b) :: byteCells (a + 1) t

/-- Memory with a run of bytes written from an address up: the cells below it, its own, and those above. -/
def Memory.setBytes (m : Memory) (a : Nat) (b : List Byte) : Memory :=
  if b = [] then m
  else m.filter (fun e => decide (e.1 < a)) ++ (byteCells a b ++ m.filter fun e => decide (a + b.length ≤ e.1))

/-- A value put before the first of an ordered list that may follow it. -/
def putInOrder {α : Type} (le : α → α → Bool) (x : α) : List α → List α
  | [] => [x]
  | y :: t => if le x y then x :: y :: t else y :: putInOrder le x t

/-- A list in order; values that may follow each other keep their places. -/
def inOrder {α : Type} (l : List α) (le : α → α → Bool) : List α := l.foldr (putInOrder le) []

/-- The value of a little-endian run of bytes (R6). -/
def leNat : List Byte → Nat
  | [] => 0
  | b :: t => b.toNat + 256 * leNat t

/-- The n bytes of a value, least significant first (R6). -/
def leBytes : Nat → Nat → List Byte
  | 0, _ => []
  | n + 1, v => BitVec.ofNat 8 v :: leBytes n (v / 256)

end Sys2Proof.Machine
end

