-- ==== Sys2Proof/Machine/State.lean ====
section
/-!
DEFINITION. The state of one E8 module as plain data: every task, core, die and module resource the
manual names, and the work that is in flight between agents. A table's unlisted key holds the value
its accessor names, which is the reset value. The rule that names each field stands beside it.
-/

namespace Sys2Proof.Machine

/-- The 1024 cells of a vector register, cell (i, j) at position 64 i + j (R129). -/
abbrev VReg := List W32

/-- The lanes of a lane predicate, lane (i, j) at bit 64 i + j (R136). -/
abbrev Lanes := BitVec 1024

/-- A vector register that is zero in every cell (R132). -/
def VReg.zero : VReg := List.replicate 1024 0

/-- A cause code of Table 19.1 with its INFO. -/
structure Trap where
  cause : Nat
  info : W64
  deriving DecidableEq, Repr

/-! ### Task state -/

/-- The destination and value of a result in flight (R42, R44, Table 13.5 PEND). -/
inductive PVal where
  /-- A scalar register (R87). -/
  | scalar (r : Nat) (v : W64)
  /-- A scalar predicate. -/
  | pred (p : Nat) (v : Bool)
  /-- All scalar predicates: a write of PREDS (Table 4.3). -/
  | preds (v : BitVec 8)
  /-- The true lanes of a vector register, by block position (R28, R114). -/
  | vec (pos : Nat) (mask : Lanes) (v : VReg)
  /-- The true lanes of a lane predicate, by position (R149). -/
  | lanes (pos : Nat) (mask v : Lanes)
  /-- A target-buffer entry (R107). -/
  | target (n : Nat) (v : W32)
  /-- A special register written by MOVS or CSRW, by its number (R101, R115). -/
  | special (num : Nat) (v : W64)
  /-- No register: flags alone (R73). -/
  | flagsOnly
  deriving DecidableEq, Repr

/-- A result in flight: it is visible once `left` further bundles of its task have issued (R42); its
flags reach FSTAT then (R73). -/
structure Pending where
  val : PVal
  left : Nat
  flags : BitVec 6
  deriving DecidableEq, Repr

/-- A live loop level (R110). -/
structure LoopLevel where
  lc : W64
  li : W64
  lb : W32
  le : W32
  rot : Bool
  pending : Option W64
  deriving DecidableEq, Repr

/-- The shadow begin and end addresses of a level with their valid mark (R110). -/
structure Shadow where
  lb : W32
  le : W32
  valid : Bool
  deriving DecidableEq, Repr

/-- An address generator (R161). Unlisted bounds, strides and indices are zero. -/
structure AddrGen where
  base : W64
  bound : Tbl W32
  stride : Tbl W64
  idx : Tbl W32
  deriving DecidableEq, Repr

/-- Token states (R214). -/
inductive TokState where
  | free
  | pending
  | done
  | faulted
  deriving DecidableEq, Repr

/-- A dependence token: its state, the cause a FAULTED token holds (R214), and the time tc of its last
production (R250, R251). -/
structure Token where
  st : TokState
  cause : Nat
  tc : W64
  deriving DecidableEq, Repr

/-- The random-bit generator: key K, counter at seeding C, and the words P taken since (R75); its
record (Table 3.6) is computed from these. -/
structure Rng where
  key : W64
  ctr : W64
  taken : Nat
  deriving DecidableEq, Repr

/-- A cell held in an inbound queue (R324). -/
structure QCell where
  cidx : Nat
  rank : Nat
  psn : Bool
  payload : List Byte
  deriving DecidableEq, Repr

/-- An inbound flow queue (R323 to R325). -/
structure InQueue where
  bound : Bool
  flow : Nat
  nextblock : Nat
  drops : Nat
  cells : List QCell
  deriving DecidableEq, Repr

/-- An atomic that has been issued (R254 to R258, R262): its fields, the ordinal of the set it is ordered
by, its physical address, and, once executed, the value it returns with its flags. `floor` is the scope
floor at issue (R248) until it executes, and then its wheel time. -/
structure AtomicOp where
  op : Nat
  wide : Bool
  uns : Bool
  fadd : Option (BitVec 2)
  cas : Option W64
  ordered : Option Nat
  scope : Nat
  dest : Nat
  pa : Nat
  gen : Nat
  va : W64
  operand : W64
  floor : W64
  result : Option (W64 × BitVec 6)
  /-- PC and transfer state of its bundle, for a trap that is its own (R234, R381). -/
  pc : W32 := 0
  delay : Nat := 0
  target : W32 := 0
  deriving DecidableEq, Repr

/-- A completion-latency operation outstanding: the task's next bundle holds issue until it completes
(R45, Table 2.15, R284). Lodge operations carry their operands. -/
inductive Hold where
  /-- FENCE, or the fence of an ARRIVE on group barrier `bar`, with its scope floor at issue (R248, R249,
  R273). -/
  | fence (scope : Nat) (ro : Bool) (bar : Option Nat) (floor : W64)
  | atomic (a : AtomicOp)
  /-- An atomic homed on another module whose request has the given ID (R264, R265). -/
  | remote (id : Nat) (a : AtomicOp)
  /-- A claim of SLN, and the cycle in which its bundle issued (R277, R279). -/
  | claim (v issued : W64)
  /-- A steal request, and the cycle in which its bundle issued (R278, R279). -/
  | steal (issued : W64)
  /-- PRMPT: the slots of the target's core that are to halt, and the least status of the others named. -/
  | prmpt (dest : Nat) (target : W64) (pending : List Nat) (others : Nat)
  | ctxsv (dest : Nat) (target addr : W64)
  | tlbinv (base len jobs : W64)
  | genbump (frame count : W64)
  | l2wb (base len : W64) (inval : Bool)
  | domset (dom : W64)
  | npload (dest : Nat) (addr len : W64)
  | attest (dest : Nat) (req area : W64)
  | keyld (dest : Nat) (job blob : W64)
  | lkey (dest : Nat) (port : Nat)
  | gsw (dest : Nat)
  /-- An ordered atomic of a task that was saved, or whose job is switched out: it lies in the Orangery, and its old value
  goes to `dest` (R263, R371, R374); the PC and transfer state are its bundle's. -/
  | awaits (dest : Nat) (pc : W32) (delay : Nat) (target : W32)
  deriving DecidableEq, Repr

/-- What the class-010 slot of the bundle under way leaves to the bundle's boundary (R113, R120, R122 to
R124, R126, R274). A bundle holds at most one (Table 2.3). -/
inductive Ctl where
  | none
  /-- A transfer was taken (R108). -/
  | taken
  /-- LBRK popped a level with this end address (R116). -/
  | afterEnd (le : W32)
  /-- A LOOP with a count of zero passes over the body ending here (R111). -/
  | skip (le : W32)
  /-- END (R120). -/
  | leave
  /-- SYS with its code and operands (R122). -/
  | sys (code : Nat) (a b : W64)
  /-- YIELD (R123). -/
  | offer
  /-- WAIT on group barrier n for a phase other than the parity (R274). -/
  | wait (n : Nat) (parity : Bool)
  /-- CKPT (R126). -/
  | mark
  /-- ERET (R124). -/
  | back
  deriving DecidableEq, Repr

/-- How a task's slot stands (R270, R271, R274, R282). -/
inductive Status where
  /-- In the ready set. -/
  | ready
  /-- Waiting on group barrier N for a phase other than the parity (R274). -/
  | waiting (n : Nat) (parity : Bool)
  /-- Ended; the slot frees when its commands have completed (R270). -/
  | ending
  /-- A tile task of the instruction under a physical token of a core (R299). -/
  | tiling (c : CoreRef) (tok : Nat)
  deriving DecidableEq, Repr

/-- One resident task. Constant after dispatch: the launch fields. -/
structure Task where
  /-- The launch this task belongs to, and the kernel's code: where its bundle 0 lies in the module's
  memory, its length in bundle units (R106) and its `.vregs` declaration (R130). -/
  launch : Nat
  job : Nat
  codeBase : Nat
  codeLen : Nat
  vregs : Nat
  /-- Table 4.1, read-only registers from dispatch. -/
  lidx : W64
  lcoord : W64
  gidx : W64
  grank : W64
  /-- Physical barriers of gb0 up (R268). -/
  bars : List Nat
  /-- First physical vector register of the block (R130). -/
  vbase : Nat
  /-- Window: first step and size in steps (R158, R172). -/
  wbase : Nat
  wsize : Nat
  /-- The moving range, window-relative first step and length, and the bundles left of an open PHASE
  bar (R174). -/
  moveFirst : Nat
  moveLen : Nat
  barLeft : Nat
  /-- The drain of the PHASE has not finished (R173). -/
  draining : Bool
  /-- s1 to s31 (R87). -/
  sregs : Tbl W64
  /-- p0 to p7, p0 always 1 (R87, Table 4.3). -/
  preds : BitVec 8
  /-- FSTAT (R71). -/
  fstat : BitVec 6
  /-- BUDGET and the warning level BWARN (R118, R119). -/
  budget : W64
  bwarn : W64
  /-- BCNT (R91). -/
  bcnt : W64
  /-- RBASE: vector and lane-predicate rotating bases (R114, R134). -/
  rbaseV : BitVec 4
  rbaseQ : BitVec 3
  /-- Program counter and transfer state (R106, R109). -/
  pc : W32
  target : W32
  delay : Nat
  /-- tb0 to tb3 (R107). -/
  tb : Tbl W32
  /-- The loop stack, innermost level first; its length is the depth (R110). -/
  loops : List LoopLevel
  shadows : Tbl Shadow
  /-- Lane predicates by position; q0 reads all-true (R136). -/
  qregs : Tbl Lanes
  /-- Results in flight, in issue order (R42, R44). -/
  pend : List Pending
  rng : Rng
  ags : Tbl AddrGen
  /-- Engine descriptors: field f of eE at 64 E + f (R216). -/
  desc : Tbl W64
  tokens : Tbl Token
  /-- Zero skipping (R203). -/
  mskip : Bool
  /-- Logical time and the time of the latest FENCE.ro (R243, R252). -/
  time : W64
  roFloor : W64
  /-- The open ordered participant set, and the sets joined (R261). -/
  openSet : Option Nat
  joined : List Nat
  fq0 : InQueue
  fq1 : InQueue
  status : Status
  /-- Halted by a trap, SYS, pre-emption or the gang switch (R282, R382). -/
  halted : Bool
  /-- A pre-emption is pending (R282, R283). -/
  preempt : Bool
  /-- Its commands are stopped for a context save (R224). -/
  stopped : Bool
  /-- The trap the task halted for; its record may still wait for space (R382, R383). -/
  trapped : Option Trap
  /-- An uncorrectable error of the core's own stores has stopped it for good: it does not resume (Table 19.4). -/
  broken : Bool
  /-- What the bundle under way leaves to its boundary (R113); `none` between bundles. -/
  ctl : Ctl
  /-- Completion-latency operations outstanding, in issue order (R45, R284). -/
  holds : List Hold
  /-- Remote stores not yet acknowledged, by request ID (R264). -/
  remoteStores : List Nat
  deriving DecidableEq, Repr

/-! ### Core state -/

/-- Tile entry states (Table 8.1). -/
inductive TileState where
  | empty
  | filling
  | ready
  | draining
  deriving DecidableEq, Repr

/-- A tile-table entry (Table 8.1); `tc` is the largest time of its counted arrivals (R251). -/
structure TileEntry where
  base : Nat
  len : Nat
  v : Bool
  expect : Nat
  arrived : Nat
  st : TileState
  phase : Bool
  tc : W64
  deriving DecidableEq, Repr

/-- An accumulator unit: FREE when `units` is 0, else part of the tile whose first unit is `head`
(R189, Table 9.3). The flags are those of the first unit. -/
structure AccUnit where
  head : Nat
  units : Nat
  cols : Nat
  owner : Nat
  live : Bool
  flags : BitVec 6
  deriving DecidableEq, Repr

/-- The latch of a sub-array: the MLATCH operand and the weight image copied when it executed
(R195). -/
structure Latch where
  operand : W64
  image : List Byte
  deriving DecidableEq, Repr

/-- Kinds of commands that a core issues with a token (R214, R225). -/
inductive CmdKind where
  | cpy
  | gth
  | sct
  | mstrm (tile : Nat)
  | mout (tile : Nat)
  | tile (opc : Nat) (ord rz : Bool)
  | mcst
  | tlnch
  | coll (ord rz : Bool)
  deriving DecidableEq, Repr

/-- A leaf of a tile instruction's decomposition (R288, R296): the core that runs units in a task slot, or
another module of a rack-level instruction. -/
inductive Worker where
  | core (c : CoreRef) (slot : Nat)
  | module (m : Nat)
  deriving DecidableEq, Repr

/-- Units of a leaf: `count` units from `first` up (R296). -/
structure TilePart where
  first : Nat
  count : Nat
  worker : Worker
  deriving DecidableEq, Repr

/-- The fault that ends a tile instruction (R302, R303): its unit, its cause, the level it arose at and the
leaf that met it. -/
structure TileFault where
  unit : Nat
  cause : Nat
  level : Nat
  worker : Option Worker
  deriving DecidableEq, Repr

/-- A running tile instruction (R290 to R304): its block and descriptors, its units and who runs them, the
units complete, the chunk results held for a fold, the output tiles written, its flags, its fault, an abort,
and what was recovered. `leaves` are the leaves that take part, with units or without (R288). `stores` are its stores to
other modules that may still be refused: the request, the fault that a refusal is, and the units that are then not
complete. `resumed` marks a run whose progress its record tells (R304), `spoilt` one whose results a store to a staging
slice has made unspecified (R300), and `final` a run that waits for its last record's writes, with its state, fault and
time. `seed` indexes its free choices. -/
structure TileRun where
  block : List Byte
  descs : List (List Byte)
  units : Nat
  parts : List TilePart
  leaves : List Worker
  done : List Nat
  held : Tbl (List W64)
  folded : List Nat
  flags : BitVec 6
  fault : Option TileFault
  aborted : Bool
  stores : List (Nat × TileFault × List Nat)
  resumed : Bool
  spoilt : Bool
  final : Option (Nat × Option TileFault × W64)
  recov : Nat
  runit : Nat
  rcoord : W32
  seed : Nat
  deriving DecidableEq, Repr

/-- Where the bytes of an element lie (R217). -/
inductive Spot where
  /-- Near or operand memory of the issuing core, at a module offset. -/
  | inside (o : Nat)
  | hbm (o : Nat)
  | window (o : Nat)
  /-- Another module, with the generation its request carries and whether it is a physical access, which none is checked
  against (R235). -/
  | far (va : W64) (pa gen : Nat) (phys : Bool)
  deriving DecidableEq, Repr

/-- A command waiting or running (R211, R215, R216, R224): the descriptor copy taken at issue, the
tokens it is still bound to, the faulted binding if any, and its progress in cells and elements. -/
structure Cmd where
  kind : CmdKind
  slot : Nat
  lidx : W64
  job : Nat
  key : Nat
  fields : Tbl W64
  deps : List Nat
  depFault : Option Nat
  started : Bool
  cells : Nat
  elems : Nat
  /-- Leading cells that were written before a save and are passed over, their indices read again (R224). -/
  skip : Nat
  /-- Indices of the elements from `elems` on that have been read already (R220: each is read at most once). -/
  idx : List Int
  /-- The places found for addresses of the cell under way, by address and whether it is written (R236, R425). -/
  spots : List (W64 × Bool × Spot)
  /-- The bytes it has written in HBM, with their key and module offset, oldest first: they take their place in the order with its
  completion time (R250). -/
  stores : List (Nat × Nat × List Byte)
  lines : List Nat
  /-- Old values of the bytes it has written, by module offset (R220: an overlap may give either). -/
  olds : List (Nat × Byte)
  /-- Whether it writes into the core that issued it (R205). -/
  inside : Bool
  /-- Whether it was issued within a checkpoint region (R205). -/
  within : Bool
  run : Option TileRun
  deriving DecidableEq, Repr

/-- A command that a context record names, with what the record has no place for (R225, R304): the task's job and logical
index, the token, and the command as it was saved. -/
structure KeptCmd where
  job : Nat
  lidx : W64
  tok : Nat
  cmd : Cmd
  deriving DecidableEq, Repr

/-- A matrix command in its core's order of issue (R191, R195, R199): a latch of sub-array `h` from
slot `o`, or the stream or output whose token is `tok`. -/
inductive MCmd where
  | latch (slot h o : Nat) (operand : W64)
  | token (slot tok : Nat)
  deriving DecidableEq, Repr

/-- Rights of an L1 line (R167, R170, R244). -/
inductive Right where
  | read
  | write
  | ro
  deriving DecidableEq, Repr

/-- A line of the L1 region, by physical line (R167, R244): its data, its right and its times. A read-only line
carries no lease (R170): its `rts` is the time up to which its home has ordered every write behind it (R252). -/
structure L1Line where
  line : Nat
  /-- Job and virtual address it was filled for, and the key and generation of its access. -/
  job : Nat
  va : W64
  key : Nat
  gen : Nat
  right : Right
  wts : W64
  rts : W64
  dirty : Bool
  /-- Cause of the poison the line carries, 0 when clean (R334, R386). -/
  poison : Nat
  /-- The slots for whose squashed bundles it is held (R167). -/
  slots : List Nat
  data : List Byte
  deriving DecidableEq, Repr

/-- What a home answered to a request (R234, R334). -/
inductive Answer where
  | waiting
  | line (l : L1Line)
  | refused (t : Trap)
  deriving DecidableEq, Repr

/-- A line requested for a squashed bundle (R167), with the RoFloor of the task that asks (R252). -/
structure L1Req where
  line : Nat
  job : Nat
  key : Nat
  gen : Nat
  right : Right
  va : W64
  slot : Nat
  time : W64
  roFloor : W64
  answer : Answer
  deriving DecidableEq, Repr

/-- A cached translation (R232): job, virtual page, its size, and the leaf's PA, W and GEN. -/
structure TlbEntry where
  job : Nat
  page : Nat
  big : Bool
  pa : Nat
  w : Bool
  gen : Nat
  deriving DecidableEq, Repr

/-- The old contents of one item in the undo log (R206). -/
inductive LogItem where
  | vreg (phys : Nat) (old : VReg)
  | bytes (addr : Nat) (old : List Byte)
  deriving DecidableEq, Repr

/-- A checkpoint region (R205 to R208): the captured task, the captured tile entries and tokens of its
slot, the log, its charge and the bundles issued, and whether it is protected. -/
structure Region where
  saved : Task
  tiles : List TileEntry
  addr : W32
  items : List LogItem
  charge : Nat
  bundles : Nat
  guarded : Bool
  writes : List Nat
  cycles : Nat
  /-- The tokens that its commands produce. -/
  made : List Nat
  /-- A halt has closed it; an error of its commands is still its own until they complete (R205, R208). -/
  closed : Bool
  deriving DecidableEq, Repr

/-- The reruns of a region (R208): the slot, the error source, which run is under way, how many
bundles each issues, and the results of the first rerun. -/
structure Rerun where
  slot : Nat
  source : Nat
  run : Nat
  bundles : Nat
  left : Nat
  count1 : W64
  sig1 : W64
  failed : Bool
  halted : List Nat
  deriving DecidableEq, Repr

/-- One core. -/
structure Core where
  /-- Resident tasks by slot. -/
  tasks : Tbl (Option Task)
  /-- The current task (R271) and whether it has yielded (R123). -/
  current : Nat
  yielded : Bool
  /-- Ticks left of the F unit's occupancy (R151). -/
  fBusy : Nat
  /-- Physical vector registers (R130). -/
  vfile : Tbl VReg
  /-- Physical tile entries (R175). -/
  tiles : Tbl TileEntry
  /-- Splitting mode (R185), holders of operand slots and sub-arrays (R186), latches (R195). -/
  mode : Nat
  slotOwner : Tbl (Option Nat)
  subOwner : Tbl (Option Nat)
  latches : Tbl (Option Latch)
  units : Tbl AccUnit
  /-- Command buffer by physical token (R211); matrix commands in issue order (R191). -/
  cmds : Tbl (Option Cmd)
  mcmds : List MCmd
  l1 : List L1Line
  l1req : List L1Req
  tlb : List TlbEntry
  /-- Cells in the send buffer (R328). -/
  sendBuf : List Cell
  /-- Open regions by slot, the slot whose region holds the undo log, the reruns under way
  (R205 to R208). -/
  regions : Tbl (Option Region)
  rerun : Option Rerun
  /-- RETREC (R387). -/
  retrec : List Byte
  /-- High-water mark of scope .core (R248). -/
  hwm : W64
  deriving DecidableEq, Repr

/-! ### Die state -/

/-- A hardware barrier (Table 13.1); `tc` is the largest time of the ARRIVEs of the phase under way,
`doneTc` that of the latest completed phase (R251). `owner` is the launch whose group took it last, as 1 + its number. -/
structure Barrier where
  count : Nat
  arrived : Nat
  phase : Bool
  alloc : Bool
  group : Nat
  tc : W64
  doneTc : W64
  owner : Nat
  deriving DecidableEq, Repr

/-- A flow entry (Table 15.3). -/
structure FlowEntry where
  v : Bool
  action : Nat
  flow : Nat
  job : Nat
  cfirst : Nat
  ccount : Nat
  cop : Nat
  ord : Bool
  sat : Bool
  rz : Bool
  w : Nat
  count : Nat
  aslot : Nat
  holdn : Nat
  next : Nat
  fan : Nat
  rename : Bool
  outflow : Nat
  lslot : Nat
  lq : Nat
  lkind : Nat
  tt : Nat
  param : W64
  reserved : Nat
  deriving DecidableEq, Repr

/-- The round of one local index of an entry (R316 to R320): the lowest rank not yet folded, the ranks held
or folded, the poison mark (R334) and the held ranks that are poisoned, and the payloads of held ranks that
no accumulator slot holds. -/
structure Round where
  next : Nat
  ranks : List Nat
  psn : Bool
  bad : List Nat
  waiting : List (Nat × List Byte)
  deriving DecidableEq, Repr

/-- One port of a router: its input FIFO, refusal buffer and NACK queue (R317, R340), the cells that
circulate in its ring slots, its output queue, and, at a local port, the cells of blocks ahead with the slot and
queue they wait for (R324). -/
structure Port where
  fifo : List Cell
  refusal : List Cell
  circ : List Cell
  nackq : List Cell
  /-- Cells that wait to leave, each with the input port it came from (8 for the NACK queue), and the input served last
  (R336). -/
  out : List (Nat × Cell)
  turn : Nat
  ahead : List (Nat × Nat × Cell)
  deriving DecidableEq, Repr

/-- A decision of a replicating port (R353): the input, flow, job and rank it is for, the body cells still to
come, the ports that take a copy, whether this router takes one, and the later copies for a port that already
takes one, with their cells so far. -/
structure McCopy where
  inp : Nat
  flow : Nat
  job : Nat
  rank : Nat
  left : Nat
  outs : List Nat
  take : Bool
  later : List (Nat × List Cell)
  deriving DecidableEq, Repr

/-- A Pavilion (R311): entries, rounds by 4096 × slot + local index, cells held by HOLD entries by
slot, each with the port it arrived on, and its registers (Table 15.2). -/
structure Pavilion where
  entries : Tbl FlowEntry
  rounds : Tbl Round
  held : Tbl (List (Nat × Cell))
  pflags : BitVec 6
  refused : W64
  rbuf : Nat
  ports : Tbl Port
  mcast : List McCopy
  deriving DecidableEq, Repr

/-- A key slot of a rack port direction (R347). -/
structure KeySlot where
  key : List Byte
  salt : List Byte
  deriving DecidableEq, Repr

/-- A ring or rack link direction pair at one port (R335, R344 to R350, Table 16.5): link state, next
sequence numbers, retry buffer (sequence, key slot, cell), the sequence that failed last with its beat-error and
authentication failures, reservation table, keys, the switch-over with its marker's sequence, counters, and the
jobs whose cells have been sent over it (R346). -/
structure Link where
  st : Nat
  wrapped : Bool
  txEseq : Nat
  rxEseq : Nat
  retry : List (Nat × Nat × Cell)
  fails : Nat
  authFails : Nat
  failEseq : Nat
  resv : Tbl W64
  slotTime : Nat
  txAct : Nat
  rxAct : Nat
  keys : Tbl (Option KeySlot)
  liveOld : Bool
  switching : Option Nat
  markEseq : Nat
  icnt : Nat
  icntOld : Nat
  authf : W64
  replays : W64
  nacks : W64
  jobs : List Nat
  deriving DecidableEq, Repr

/-- A monitor (Table 19.5). -/
structure Monitor where
  qty : Nat
  min : W64
  max : W64
  count : W64
  ce : W64
  hist : Tbl W32
  deriving DecidableEq, Repr

/-- The reply a home Gatehouse holds for a request ID (R265). -/
structure CachedReply where
  id : Nat
  rep : RemoteRep
  deriving DecidableEq, Repr

/-- A request this module has sent to another (R264, R265). -/
structure SentReq where
  gate : Nat
  req : RemoteReq
  home : Nat
  sends : Nat
  task : TaskRef
  cmdTok : Option Nat
  reply : Option RemoteRep
  deriving DecidableEq, Repr

/-- A Gatehouse (Table 16.5, R265, R342): its registers, reply cache, the next sequence expected from
each source (by 8 × module + gate) with the requests held, and the next it sends to each home. -/
structure Gatehouse where
  ghcfg : W64
  present : W64
  floss : W64
  faults : W64
  cache : List CachedReply
  expectSeq : Tbl Nat
  heldReqs : List RemoteReq
  sendSeq : Tbl Nat
  deriving DecidableEq, Repr

/-- An event record (Table 19.3). `call` is what a system-call event carries beside its INFO, the code and s_b
(R122), for which the record has no place. -/
structure EventRec where
  cause : Nat
  kind : Nat
  die : Nat
  agent : Nat
  slot : Nat
  job : Nat
  info : W64
  lidx : W64
  pc : W32
  cycle : W32
  call : Option (Nat × W64)
  deriving DecidableEq, Repr

/-- The lodge registers (Tables 19.2 and 20.6). -/
structure LodgeRegs where
  evec : W64
  epc : W64
  etrans : W64
  epreds : W64
  ecause : W64
  einfo : W64
  emask : BitVec 2
  fvec : W64
  eqhead : Nat
  eqtail : Nat
  eqlost : W64
  troot : W64
  pkey : W64
  retired : List Nat
  deriving DecidableEq, Repr

/-- A rank of a collective that has arrived at its engine (R358): the core and physical token of its COLL, whose
command keeps its block, whether its source has left as cells of the tree (R365), whether its writes have been made, and
whether it is complete. -/
structure CollRank where
  rank : Nat
  core : CoreRef
  tok : Nat
  sent : Bool
  wrote : Bool
  done : Bool
  deriving DecidableEq, Repr

/-- A collective at one engine (R358, R360): its key, NRANKS, the block of the rank that arrived first at any engine, the
rank list once it has started, the ranks arrived here, whether it has started, the flow of its results under the tree with
those that have come back, by rank × 2^17 + cell index for a scan and by cell index else, the failure with its rank, the
ranks that have arrived here under its COLLID and the tasks that issued them with LIDX and launch, and the sources and IDX
of every rank once they have been read. -/
structure Coll where
  job : Nat
  collid : W64
  nranks : Nat
  lead : List Byte
  list : List Byte
  ranks : List CollRank
  started : Bool
  tree : Option Nat
  got : Tbl (List Byte)
  failed : Option (Nat × Nat)
  seen : List Nat
  issuers : List (TaskRef × W64 × Nat)
  src : Option (List (List Nat × List Int))
  deriving DecidableEq, Repr

/-- A cached rank list (R366). -/
structure RankList where
  job : Nat
  addr : Nat
  n : Nat
  bytes : List Byte
  deriving DecidableEq, Repr

/-- One die. -/
structure Die where
  barriers : Tbl Barrier
  /-- L2DOM: FIRST, LOGN and BUSY (R229). -/
  l2first : Nat
  l2logn : Nat
  l2busy : Bool
  /-- Last-level TLB (R232). -/
  tlb : List TlbEntry
  /-- TSTAGE (R300). -/
  tstage : BitVec 16
  /-- Stray queue with its tags, drop count and last tag (R322). -/
  stray : List Cell
  sqdrop : W64
  sqlast : W64
  lodge : LodgeRegs
  /-- Records in the event queue by slot 0 to 255, and the S records that wait for space (R383). -/
  events : Tbl (Option EventRec)
  waitingS : List EventRec
  /-- Copy engines' DONE and FAULTS registers (R212). -/
  engDone : Tbl W64
  engFaults : Tbl W64
  /-- Monitors of register blocks by b and of Pavilions by 16 + router (R388). -/
  monitors : Tbl Monitor
  pavs : Tbl Pavilion
  gate : Gatehouse
  /-- Links: 0 west ring, 1 east ring, 2 and 3 rack ports 0 and 1. -/
  links : Tbl Link
  colls : List Coll
  /-- The COLLs that have reached the engine and wait for one of its sixteen places, in their order of arrival: core and
  physical token, whose command keeps the block (R358). -/
  collWait : List (CoreRef × Nat)
  ranklists : List RankList
  hwm : W64
  /-- Times of the engines, Pavilions and the Gatehouse, by agent position offset (R243). -/
  agentTime : Tbl W64
  deriving DecidableEq, Repr

/-! ### Module state -/

/-- What the home of a line keeps beside its bytes (R244, R334, R405): write time, lease end, poison
cause (0 when clean) and the tag of the key it was last written under: 0 none since bring-up, 1 the firmware's, 2 + job
the one that the key table holds for a job, and from 2 + 4096 up the keys of State.oldKeys. -/
structure LineMeta where
  wts : W64
  rts : W64
  poison : Nat
  key : Nat
  deriving DecidableEq, Repr

/-- A kernel of a loaded image (R52). -/
structure Kernel where
  codeBase : Nat
  codeLen : Nat
  entry : W32
  group : Nat
  vregs : Nat
  barriers : Nat
  wheel : Bool
  stages : Nat
  gridX : Nat
  gridY : Nat
  gridZ : Nat
  scratch : Nat
  sets : List Nat
  promise : W64
  deriving DecidableEq, Repr

/-- A kernel of nothing. -/
def Kernel.none : Kernel := ⟨0, 0, 0, 1, 8, 0, false, 1, 1, 1, 1, 0, [], 0⟩

/-- A loaded job image (R402): its kernels, the index of its entry kernel (Table 2.19), and its Parterre section,
relocated and with the job's number in its records (R331). -/
structure Image where
  job : Nat
  kernels : List Kernel
  entry : Nat
  parterre : List Byte
  deriving DecidableEq, Repr

/-- An ordered participant set of a launch (R260 to R262): logical indices joined and closed. -/
structure OrdSet where
  size : Nat
  joined : List Nat
  closed : List Nat
  /-- The largest time at which an atomic of the set has executed (R262). -/
  time : W64
  deriving DecidableEq, Repr

/-- A slice of the tile loop sequencer (R276). -/
structure Slice where
  slb : W64
  sle : W64
  sln : W64
  deriving DecidableEq, Repr

/-- A launch (R266, R267, Table 20.3) under the model's own number `seq`: its fields, whether they have been
read (`loaded`: a TLNCH's block is read once its bindings have completed), the tasks placed and ended, the slices that
claims and steals have changed, its ordered sets, the core and physical token of the TLNCH or the frame of the host
message that asked for it, and whether one of its tasks was killed and whether its end has been reported. -/
structure Launch where
  seq : Nat
  id : W64
  job : Nat
  kernel : Kernel
  dieMask : BitVec 8
  seed : W64
  args : List W64
  budget : W64
  nest : List Nat
  perm : List Nat
  grain : Nat
  loaded : Bool
  placed : Nat
  ended : Nat
  slices : Tbl (Option Slice)
  sets : Tbl OrdSet
  tlnch : Option (CoreRef × Nat)
  fromHost : Option Nat
  killed : Bool
  finished : Bool
  deriving DecidableEq, Repr

/-- An entry of the job key table (R406). Key material is not readable; the model keeps the blob's
opened bytes. -/
structure KeyEntry where
  job : Nat
  material : List Byte
  mjob : List Byte
  deriving DecidableEq, Repr

/-- The attestation unit (R399 to R404): NEXTIDX and the rack word are non-volatile. -/
structure Attest where
  nextIdx : Nat
  rackWord : W64
  mboot : List Byte
  mfw : List Byte
  mcfg : List Byte
  held : Option Nat
  kemCount : Nat
  /-- The requests that wait, each with the cycle in which it came (R404). -/
  queue : List (W64 × TaskRef)
  deriving DecidableEq, Repr

/-- A secure association that MKA has installed (R393): its direction, association number, key and next packet number. -/
structure SecAssoc where
  rx : Bool
  an : Nat
  key : List Byte
  next : Nat
  deriving DecidableEq, Repr

/-- The Ethernet port (Table 20.1) with its secure associations (R393), the cells of accepted frames that wait for D0's
lodge, each with its frame's sequence (R394, R395), and the frames sent, oldest first, and how much of the dump of an
earlier fatal stop GROTTO messages have read, while it stands (R414). -/
structure HostPort where
  link : Nat
  sas : List SecAssoc
  rxSeq : Nat
  drops : W64
  txSeq : Nat
  inbox : List (Nat × Cell)
  replies : List HostFrame
  dump : Option Nat
  deriving DecidableEq, Repr

/-- What a swept collective has beside its KIND 8 records (R376): its die, the collective, and the logical index, token
and block of each of its ranks. -/
structure SweptColl where
  die : Nat
  coll : Coll
  tasks : List (W64 × Nat × List Byte)
  deriving DecidableEq, Repr

/-- A gang switch of the module (R371 to R378): its block, the lodge task that issued it with its s_d, whether the
module has stopped and started late, the ring and rack ports marked, the late cells held and those dropped, each with
its port, the cells that came before a marker, and what the records have no place for: the poison marks and slotless
payloads of rounds by die, router and round, and the rest of open collectives. -/
structure Gang where
  block : SwitchBlock
  issuer : Option (TaskRef × Nat)
  stopped : Bool
  late : Bool
  marked : List PortRef
  nlate : Nat
  lost : List (PortRef × Cell)
  before : List (PortRef × Cell)
  rounds : List (Nat × Nat × Nat × Round)
  colls : List SweptColl
  deriving DecidableEq, Repr

/-- The first fatal cause (R389): its die, code, INFO and CYCLE, whether the lodges have written the Grotto, and whether the host has been told (R412). -/
structure Fatal where
  die : Nat
  cause : Nat
  info : W64
  cycle : W64
  dumped : Bool
  sent : Bool
  deriving DecidableEq, Repr

/-- The module, with the task slot that issues (the model's own focus, not the spec's) and the model's
own agenda: the machine steps that come next, first first. When it is empty the focus core ticks. -/
structure State where
  powered : Bool
  module : BitVec 6
  jobid : BitVec 12
  cycle : W64
  cur : TaskRef
  agenda : List Event
  /-- The model's own counter of free values taken. -/
  freeCtr : Nat
  mem : Memory
  lines : Tbl LineMeta
  gens : Tbl (BitVec 4)
  cores : Tbl Core
  dies : Tbl Die
  images : List Image
  launches : List Launch
  pointer : Nat
  keys : List KeyEntry
  /-- The XTS keys that the table has held and holds no more, under which lines of memory may still lie (R405). -/
  oldKeys : List (List Byte)
  attest : Attest
  host : HostPort
  /-- The commands of saved tasks (R225). -/
  kept : List KeptCmd
  /-- The gang switch under way, until its sweep closes (R373), and the closed sweeps of the jobs that are switched
  out (R371). -/
  gang : Option Gang
  switched : List Gang
  sent : List SentReq
  /-- What rack ports have sent, oldest first: die, port and the bytes on the wire (R347). -/
  outbound : List (Nat × Nat × List Byte)
  hwm : W64
  fatal : Option Fatal
  deriving DecidableEq, Repr

/-! ### Reset values -/

/-- The loop level that stands where none is live. -/
def LoopLevel.none : LoopLevel := ⟨0, 0, 0, 0, false, Option.none⟩

/-- A shadow that is not valid (R110). -/
def Shadow.none : Shadow := ⟨0, 0, false⟩

/-- An address generator of zeros (R161). -/
def AddrGen.zero : AddrGen := ⟨0, [], [], []⟩

/-- A FREE token (R214). -/
def Token.free : Token := ⟨.free, 0, 0⟩

/-- An inbound queue that is unbound and empty (R323). -/
def InQueue.unbound : InQueue := ⟨false, 0, 0, 0, []⟩

/-- A task slot's contents with every register at the value it has before launch fields are set (R88,
R90, R107, R110, R119, R132, R161, R203, R216). -/
def Task.blank : Task :=
  { launch := 0, job := 0, codeBase := 0, codeLen := 0, vregs := 8, lidx := 0, lcoord := 0, gidx := 0,
    grank := 0, bars := [], vbase := 0, wbase := 0, wsize := 0, moveFirst := 0, moveLen := 0,
    barLeft := 0, draining := false, sregs := [], preds := 1, fstat := 0, budget := 0, bwarn := 0, bcnt := 0, rbaseV := 0,
    rbaseQ := 0, pc := 0, target := 0, delay := 0, tb := [], loops := [], shadows := [], qregs := [],
    pend := [], rng := ⟨0, 0, 0⟩, ags := [], desc := [], tokens := [], mskip := false, time := 0,
    roFloor := 0, openSet := none, joined := [], fq0 := InQueue.unbound, fq1 := InQueue.unbound,
    status := .ready, halted := false, preempt := false, stopped := false, trapped := none, broken := false, ctl := .none, holds := [],
    remoteStores := [] }

/-- An undefined tile entry (R176). -/
def TileEntry.undefined : TileEntry := ⟨0, 0, false, 0, 0, .empty, false, 0⟩

/-- A FREE accumulator unit (R189). -/
def AccUnit.free : AccUnit := ⟨0, 0, 0, 0, false, 0⟩

/-- A core at core reset. -/
def Core.reset : Core :=
  { tasks := [], current := 0, yielded := false, fBusy := 0, vfile := [], tiles := [], mode := 0,
    slotOwner := [], subOwner := [], latches := [], units := [], cmds := [], mcmds := [], l1 := [],
    l1req := [], tlb := [], sendBuf := [], regions := [], rerun := none, retrec := [], hwm := 0 }

/-- A barrier of Table 13.1 at reset. -/
def Barrier.reset : Barrier := ⟨0, 0, false, false, 0, 0, 0, 0⟩

/-- An empty flow entry (Table 15.3). -/
def FlowEntry.empty : FlowEntry := ⟨false, 0, 0, 0, 0, 0, 0, false, false, false, 0, 0, 0, 0, 0, 0,
  false, 0, 0, 0, 0, 0, 0, 0⟩

/-- A round that has not begun. -/
def Round.empty : Round := ⟨0, [], false, [], []⟩

/-- A port with nothing queued. -/
def Port.empty : Port := ⟨[], [], [], [], [], 0, []⟩

/-- A Pavilion at reset (Table 15.2). -/
def Pavilion.reset : Pavilion := ⟨[], [], [], 0, 0, 0, [], []⟩

/-- A link at reset: not trained (R344, Table 16.5). -/
def Link.reset : Link :=
  { st := 0, wrapped := false, txEseq := 0, rxEseq := 0, retry := [], fails := 0, authFails := 0, failEseq := 0,
    resv := [], slotTime := 0, txAct := 0, rxAct := 0, keys := [], liveOld := false, switching := none,
    markEseq := 0, icnt := 0, icntOld := 0, authf := 0, replays := 0, nacks := 0, jobs := [] }

/-- A monitor at reset (Table 19.5). -/
def Monitor.reset : Monitor := ⟨0, BitVec.allOnes 64, 0, 0, 0, []⟩

/-- A Gatehouse at reset (Table 16.5). -/
def Gatehouse.reset : Gatehouse := ⟨0, 0, 0, 0, [], [], [], []⟩

/-- The lodge registers at reset (Table 19.2, Table 20.6). -/
def LodgeRegs.reset : LodgeRegs :=
  { evec := 0, epc := 0, etrans := 0, epreds := 1, ecause := 0, einfo := 0, emask := 0, fvec := 0,
    eqhead := 0, eqtail := 0, eqlost := 0, troot := 0, pkey := 0, retired := [] }

/-- A die at module reset. -/
def Die.reset : Die :=
  { barriers := [], l2first := 0, l2logn := 4, l2busy := false, tlb := [], tstage := 0, stray := [],
    sqdrop := 0, sqlast := 0, lodge := LodgeRegs.reset, events := [], waitingS := [], engDone := [],
    engFaults := [], monitors := [], pavs := [], gate := Gatehouse.reset, links := [], colls := [], collWait := [],
    ranklists := [], hwm := 0, agentTime := [] }

/-- A line as it stands before anything has written it (R244, R334, R405). -/
def LineMeta.clean : LineMeta := ⟨0, 0, 0, 0⟩

/-- The attestation unit before its first bring-up. -/
def Attest.reset : Attest :=
  ⟨0, 0, List.replicate 32 0, List.replicate 32 0, List.replicate 32 0, none, 0, []⟩

/-- The host port at reset (Table 20.1). -/
def HostPort.reset : HostPort := ⟨0, [], 0, 0, 0, [], [], none⟩

/-- Why a step can stop. -/
inductive Fault where
  /-- `step` raises it when the supply is lost (R399) and the agenda holds no module reset: the module
  does nothing at all. Safe. -/
  | unpowered
  deriving DecidableEq, Repr

/-- Why a step is refused. -/
inductive Refusal where
  /-- An arm of `exec` whose instruction has no meaning yet. Safe. -/
  | notModelled (mnemonic : String)
  deriving DecidableEq, Repr

/-- The module right after reset (R408): every register at its reset value, every store zero, no task
resident, no job active. -/
def State.reset : State :=
  { powered := true, module := 0, jobid := 0, cycle := 0, cur := ⟨0, 0, 0⟩, agenda := [], freeCtr := 0,
    mem := [], lines := [], gens := [], cores := [], dies := [], images := [], launches := [],
    pointer := 0, keys := [], oldKeys := [], attest := Attest.reset, host := HostPort.reset, kept := [], gang := none,
    switched := [], sent := [], outbound := [], hwm := 0, fatal := none }

end Sys2Proof.Machine
end

