-- ==== Sys2Proof/Machine/Flags.lean ====
section
/-!
DEFINITION. The sticky flags of a task (FSTAT, R71 to R73): how the flags of slots reach it and how a
write of it discards the flags of earlier slots.
-/

namespace Sys2Proof.Machine

/-- Flags ORed into FSTAT (R72). -/
def Task.orFlags (t : Task) (f : Flags) : Task := { t with fstat := t.fstat ||| f }

/-- The results in flight with their flags discarded: those of the slots issued before a write of FSTAT
(R73). `n` is how many results were in flight when the writing bundle issued; a slot of the same bundle
counts as issued after it (R102). -/
def dropFlags (n : Nat) (l : List Pending) : List Pending :=
  (l.take n).map (fun p => { p with flags := 0 }) ++ l.drop n

/-- The OR of the flags of many elements (R72). -/
def orAll (l : List Flags) : Flags := l.foldl (· ||| ·) 0

end Sys2Proof.Machine
end

