-- ==== Sys2Proof/Config.lean ====
section
/-!
DEFINITION. What the manual leaves open and the model leaves free: constants without a body, so that
nothing can be proved of their values. A free value is applied to a plain counter of the state, or to
the data it depends on. Each is named in notes/assumptions.
-/

namespace Sys2Proof.Config

/-- Arithmetic-clock cycles that pass before the n-th machine step (R3, R92, R93): timing. -/
opaque elapsed : Nat → Nat

/-- The size in bundle units of what stands at an address where no bundle stands: no stop bit within
eight words, or at or beyond the kernel's length (R29, R106, R108 state none). -/
opaque badSize : Nat → Nat

/-- Whether the n-th translation that could use a cached entry uses it (R232: it may). -/
opaque useCached : Nat → Bool

/-- The n-th byte the manual leaves unspecified (R189, R220, R299, R300, R301, R302, R369). -/
opaque freeByte : Nat → Byte

/-- Whether the n-th byte that a gather or scatter reads where it has itself written reads its old value
(R220: it may). -/
opaque readsOld : Nat → Bool

/-- The n-th 64-bit value the manual leaves unspecified (R77: a generator record that R75 forbids). -/
opaque freeWord : Nat → W64

/-- The n-th free choice: which term a free floating-point summation takes next (R67, R291, R292, R361). -/
opaque freePick : Nat → Nat

/-- The 64-bit signature of a region's logged writes (R208); the manual names no function. -/
opaque signature : List Nat → W64

/-- The count of array cycles that a command adds to a run (R199 bounds it, R208 counts it). -/
opaque arrayCycles : Nat → Nat

/-- Whether the two reruns of a tile task's region agree, for the n-th error of one (R208, R299). -/
opaque rerunAgrees : Nat → Bool

/-- SHAKE256 with 256 bits of output (FIPS 202), named and not given by the manual (R400). -/
opaque shake256 : List Byte → List Byte

/-- The XMSS^MT signature under the module's identity key, of an index and a message, after its index (R397, R399). -/
opaque xmssSign : Nat → List Byte → List Byte

/-- The OID of the module's identity public key, its root and its public seed (R397). -/
opaque identityOid : List Byte

/-- The root of the identity public key (R397). -/
opaque identityRoot : List Byte

/-- The public seed of the identity public key (R397). -/
opaque identitySeed : List Byte

/-- The certificate over the identity public key (R398). -/
opaque certificate : List Byte

/-- The module's serial number and its lodge firmware version (Table 20.5). -/
opaque serial : W64

/-- The lodge firmware version (Table 20.5). -/
opaque fwVersion : W64

/-- The boot image, which the manual does not give (R398, R400, R408). -/
opaque bootImage : List Byte

/-- The lodge image of a die, which the manual does not give (R398, R400, R408). -/
opaque lodgeImage : Nat → List Byte

/-- Whether the signature that a firmware image carries verifies under the root (R398). -/
opaque imageVerifies : List Byte → Bool

/-- The n-th ML-KEM-1024 key pair the attestation unit makes: its encapsulation key (R404). -/
opaque kemPublic : Nat → List Byte

/-- ML-KEM-1024.Decaps under the n-th key pair (R407). -/
opaque kemDecaps : Nat → List Byte → List Byte

/-- AES-256-GCM open: key, IV, ciphertext, tag; none when authentication fails (R407). -/
opaque gcmOpen : List Byte → List Byte → List Byte → List Byte → Option (List Byte)

/-- AES-256-GCM sealing of READ data under a transfer key (R407). -/
opaque gcmSeal : List Byte → List Byte → List Byte

/-- AES-256-GCM of a rack port's cells: key, IV, additional data and text give the ciphertext and its 16-byte tag (R347). -/
opaque linkSeal : List Byte → List Byte → List Byte → List Byte → List Byte

/-- The payload of the TYPE 10 cell that carries a switch block to another module, and the block that such a payload
carries, which the manual does not lay out (R372). -/
opaque commandCell : List Byte → List Byte

/-- The block of a received switch command. -/
opaque commandBlock : List Byte → List Byte

/-- The ICV of a frame under a secure-association key, for its packet number and text (R393). -/
opaque macsecIcv : List Byte → Nat → List Byte → List Byte

/-- The key that MKA installs for the receiving (0) or sending (1) secure association (R393). -/
opaque macsecKey : Nat → List Byte

/-- Field n of a host message whose layout the manual does not give, from its cells' payloads: a number (R395). -/
opaque messageNum : Nat → List Byte → Nat

/-- List n of numbers of such a message (R395). -/
opaque messageList : Nat → List Byte → List Nat

/-- The data of such a message (R395). -/
opaque messageData : List Byte → List Byte

/-- Microseconds of the module clock in one cycle are fixed (R3): 2700 cycles are one microsecond. -/
def cyclesPerMicrosecond : Nat := 2700

end Sys2Proof.Config
end

