-- ==== Sys2Proof/Machine/Ops.lean ====
section
/-!
DEFINITION. The named operations over the state: reading and writing tasks, cores and dies; registers
of the issuing task; results in flight and their landing (R42 to R44); event records (R383); taking a
trap, and the return from one (R382, R384, R124); the fatal stop (R389).
-/

namespace Sys2Proof.Machine

/-! ### Places of the state -/

/-- The key of a core in the table of cores. -/
def CoreRef.key (c : CoreRef) : Nat := c.die * 128 + c.core

/-- A core of the module. -/
def State.core (s : State) (c : CoreRef) : Core := s.cores.get Core.reset (CoreRef.key c)

/-- The state with a core replaced. -/
def State.setCore (s : State) (c : CoreRef) (x : Core) : State :=
  { s with cores := Tbl.set Core.reset s.cores (CoreRef.key c) x }

/-- The state with a core changed. -/
def State.modCore (s : State) (c : CoreRef) (f : Core → Core) : State := s.setCore c (f (s.core c))

/-- The task resident in a slot, if any. -/
def State.task? (s : State) (r : TaskRef) : Option Task := (s.core r.coreRef).tasks.get none r.slot

/-- The task resident in a slot; a blank one where there is none. -/
def State.task (s : State) (r : TaskRef) : Task := (s.task? r).getD Task.blank

/-- The state with a slot's contents replaced. -/
def State.putTask (s : State) (r : TaskRef) (t : Option Task) : State :=
  s.modCore r.coreRef fun c => { c with tasks := Tbl.set none c.tasks r.slot t }

/-- The state with a resident task replaced. -/
def State.setTask (s : State) (r : TaskRef) (t : Task) : State := s.putTask r (some t)

/-- The state with a resident task changed. -/
def State.modTask (s : State) (r : TaskRef) (f : Task → Task) : State := s.setTask r (f (s.task r))

/-- A die of the module. -/
def State.die (s : State) (d : Nat) : Die := s.dies.get Die.reset d

/-- The state with a die changed. -/
def State.modDie (s : State) (d : Nat) (f : Die → Die) : State :=
  { s with dies := Tbl.set Die.reset s.dies d (f (s.die d)) }

/-- The lodge registers of a die changed. -/
def State.modLodge (s : State) (d : Nat) (f : LodgeRegs → LodgeRegs) : State :=
  s.modDie d fun x => { x with lodge := f x.lodge }

/-- The task that issues. -/
def State.me (s : State) : Task := s.task s.cur

/-- The issuing task changed. -/
def State.modMe (s : State) (f : Task → Task) : State := s.modTask s.cur f

/-- The core that issues. -/
def State.here (s : State) : Core := s.core s.cur.coreRef

/-- The issuing core changed. -/
def State.modHere (s : State) (f : Core → Core) : State := s.modCore s.cur.coreRef f

/-- Core number 96: the lodge core (R92). -/
def isLodge (core : Nat) : Bool := decide (core = 96)

/-- Core number 97: the control core (R92). -/
def isControl (core : Nat) : Bool := decide (core = 97)

/-- Cores 0 to 95: the compute cores, which have an array (R16). -/
def isCompute (core : Nat) : Bool := decide (core < 96)

/-! ### Registers of a task -/

/-- A scalar register; s0 reads zero (R87). -/
def Task.sreg (t : Task) (r : Nat) : W64 := if r = 0 then 0 else t.sregs.get 0 r

/-- A scalar register written; writes of s0 are discarded (R87). -/
def Task.setSreg (t : Task) (r : Nat) (v : W64) : Task :=
  if r = 0 then t else { t with sregs := Tbl.set 0 t.sregs r v }

/-- A scalar predicate; p0 reads true (R87). -/
def Task.pred (t : Task) (p : Nat) : Bool := decide (p = 0) || t.preds.getLsbD p

/-- PREDS with p0 as 1 (Table 4.3). -/
def predsWord (v : BitVec 8) : BitVec 8 := v ||| 1

/-- A scalar predicate written; writes of p0 are discarded (R87). -/
def Task.setPred (t : Task) (p : Nat) (b : Bool) : Task :=
  if p = 0 then t
  else { t with preds := if b then t.preds ||| ((1 : BitVec 8) <<< p) else t.preds &&& ~~~((1 : BitVec 8) <<< p) }

/-- The value of lane predicate position q; position 0 is all-true (R136). -/
def Task.lanes (t : Task) (q : Nat) : Lanes :=
  if q = 0 then BitVec.allOnes 1024 else t.qregs.get 0 q

/-- A result queued with its latency (R42). -/
def Task.push (t : Task) (lat : Nat) (v : PVal) (f : BitVec 6 := 0) : Task :=
  { t with pend := t.pend ++ [⟨v, lat, f⟩] }

/-- A result of the issuing task queued with its latency. -/
def State.push (s : State) (lat : Nat) (v : PVal) (f : BitVec 6 := 0) : State :=
  s.modMe fun t => t.push lat v f

/-! ### Event records (R383) -/

/-- Records held in a die's event queue (Table 19.2, EQTAIL). -/
def LodgeRegs.held (l : LodgeRegs) : Nat := (l.eqtail + 512 - l.eqhead) % 512

/-- The rank of a record's agent among those that post in one cycle (R383): cores by number, where the lodge core follows the
compute cores and the control core it, then register blocks, then Pavilions by router. -/
def EventRec.rank (e : EventRec) : Nat := e.agent * 128 + e.slot

/-- The place of a new record that follows n held ones and ends at a tail: past those of its own cycle whose agents rank
above its own (R383). -/
def Die.placeOf (d : Die) (e : EventRec) (tail : Nat) : Nat → Nat
  | 0 => tail
  | n + 1 =>
    match d.events.get none ((tail + 511) % 512 % 256) with
    | some x => if x.cycle = e.cycle ∧ e.rank < x.rank then d.placeOf e ((tail + 511) % 512) n else tail
    | none => tail

/-- The records from a place up to n places on moved up by one. -/
def Die.shiftUp (d : Die) (at' : Nat) : Nat → Die
  | 0 => d
  | n + 1 =>
    let d' := { d with events := Tbl.set none d.events ((at' + n + 1) % 256) (d.events.get none ((at' + n) % 256)) }
    d'.shiftUp at' n

/-- A record put in the queue: at its tail, but before the records of its own cycle whose agents rank above its own
(R383). -/
def Die.enqueue (d : Die) (e : EventRec) : Die :=
  let p := d.placeOf e d.lodge.eqtail d.lodge.held
  let d := d.shiftUp p ((d.lodge.eqtail + 512 - p) % 512)
  { d with
    events := Tbl.set none d.events (p % 256) (some e)
    lodge := { d.lodge with eqtail := (d.lodge.eqtail + 1) % 512 } }

/-- A record posted to a die's queue: when it is full an S record waits with its halted task, and any
other record is dropped and counted (R383). The X record of a fatal cause then takes the place of the youngest, so that the
dump shows it (R390): DESIGN CHOICE, notes/assumptions/129. -/
def Die.post (d : Die) (e : EventRec) : Die :=
  if e.kind = 0 then
    if d.lodge.held < 256 ∧ d.waitingS = [] then d.enqueue e else { d with waitingS := d.waitingS ++ [e] }
  else if e.kind = 3 ∧ 256 ≤ d.lodge.held then
    { d with
      events := Tbl.set none d.events ((d.lodge.eqtail + 511) % 512 % 256) (some e)
      lodge := { d.lodge with eqlost := d.lodge.eqlost + 1 } }
  else if d.lodge.held < 256 then d.enqueue e
  else { d with lodge := { d.lodge with eqlost := d.lodge.eqlost + 1 } }

/-- Waiting S records enter, in order, while there is space (R383). -/
def Die.drainWaiting (d : Die) : Nat → Die
  | 0 => d
  | n + 1 =>
    match d.waitingS with
    | [] => d
    | e :: rest => if d.lodge.held < 256 then Die.drainWaiting ({ d with waitingS := rest }.enqueue e) n else d

/-- A record posted on a die. -/
def State.post (s : State) (die : Nat) (e : EventRec) : State := s.modDie die fun d => d.post e

/-- CYCLE[31:0] as records hold it (Table 19.3). -/
def State.cycle32 (s : State) : W32 := s.cycle.setWidth 32

/-- All ones: the LIDX of a record that no task issued (Table 19.3). -/
def noLidx : W64 := BitVec.allOnes 64

/-- The FAULTS register of a copy engine (Table 10.1) or of the Gatehouse block (Table 16.5) after a fault that it posts:
the bit of the cause's class is set (R381). -/
def Die.noteFault (agent cause : Nat) (d : Die) : Die :=
  let bit := (1 : W64) <<< (cause / 32)
  if 0xA0 ≤ agent ∧ agent < 0xA4 then
    { d with engFaults := Tbl.set 0 d.engFaults (agent - 0xA0) (d.engFaults.get 0 (agent - 0xA0) ||| bit) }
  else if agent = 0xA7 then { d with gate := { d.gate with faults := d.gate.faults ||| bit } }
  else d

/-- The record of a fault of kind F posted by an agent of a die (Table 19.3), with its mark in the agent's FAULTS register
(R381). -/
def State.postFault (s : State) (die agent slot job : Nat) (cause : Nat) (info : W64)
    (lidx : W64 := noLidx) : State :=
  (s.modDie die (Die.noteFault agent cause)).post die ⟨cause, 1, die, agent, slot, job, info, lidx, 0, s.cycle32, none⟩

/-- The record of an event of kind E posted for a task. -/
def State.postEvent (s : State) (r : TaskRef) (cause : Nat) (info : W64) (call : Option (Nat × W64) := none) : State :=
  s.post r.die ⟨cause, 2, r.die, r.core, r.slot, (s.task r).job, info, (s.task r).lidx, 0, s.cycle32, call⟩

/-- The record of a fault of kind F posted for a task (R270). -/
def State.postTaskFault (s : State) (r : TaskRef) (cause : Nat) (info : W64) : State :=
  s.postFault r.die r.core r.slot (s.task r).job cause info (s.task r).lidx

/-! ### Traps -/

/-- Every task of a core halts (R389 step 1). -/
def Core.haltAll (c : Core) : Core :=
  { c with tasks := Tbl.mapVals (Option.map fun t => { t with halted := true }) c.tasks }

/-- A task restarted at an address with nothing pending. -/
def Task.restartAt (pc : W32) (t : Task) : Task :=
  { t with halted := false, status := .ready, pc := pc, delay := 0, target := 0, ctl := .none, holds := [] }

/-- The lodge core of a die restarts at FVEC (R389 step 3). -/
def Core.restartLodge (c : Core) (fvec : W64) : Core :=
  { c with tasks := Tbl.mapVals (Option.map (Task.restartAt (fvec.setWidth 32))) c.tasks }

/-- One die's part of the fatal stop: EMASK = 0b01 and ECAUSE the first cause's code (R389 step 3). -/
def State.fatalDie (cause : Nat) (s : State) (d : Nat) : State :=
  let fvec := (s.die d).lodge.fvec
  (s.modCore ⟨d, 96⟩ fun c => c.restartLodge fvec).modLodge d fun l =>
    { l with emask := 1, ecause := BitVec.ofNat 64 cause }

/-- The module stops on a fatal cause (R389, R390): all tasks halt, the lodge cores restart at FVEC
with the other exception registers as they were, and the X record is posted on the cause's die. Only
the first fatal cause does this. -/
def State.fatalStop (s : State) (die cause : Nat) (info : W64) : State :=
  if s.fatal.isSome then s
  else
    let s := { s with cores := Tbl.mapVals Core.haltAll s.cores, fatal := some ⟨die, cause, info, s.cycle, false, false⟩ }
    let s := s.post die ⟨cause, 3, die, 96, 0, 0, info, noLidx, 0, s.cycle32, none⟩
    (List.range 8).foldl (State.fatalDie cause) s

/-- The INFO of a lodge double trap (Table 19.6). -/
def doubleTrapInfo (cause kind : Nat) (pc : W32) : W64 :=
  BitVec.ofNat 64 (cause + kind * 2 ^ 8 + pc.toNat * 2 ^ 32)

/-- A lodge double trap of the bundle at an address (R384, 0xE0); on the fatal path it halts that lodge (R389 step 5). -/
def State.doubleTrap (s : State) (r : TaskRef) (pc : W32) (cause kind : Nat) : State :=
  if s.fatal.isSome then s.modTask r fun t => { t with halted := true }
  else s.fatalStop r.die 0xE0 (doubleTrapInfo cause kind pc)

/-- The transfer state as ETRANS holds it (Table 19.2). -/
def transWord (target : W32) (delay : Nat) : W64 := BitVec.ofNat 64 (target.toNat + delay % 4 * 2 ^ 32)

/-- The token number under which a walker's requests to other modules stand: no command has it. -/
def walkTok : Nat := 255

/-- The token number under which the requests of a lodge's own physical reads stand. -/
def lodgeTok : Nat := 254

/-- Loads sent to other modules forgotten: their bundle has issued or trapped, its task has ended, or the command
`tok` has ended (R167, R264). -/
def State.dropLoads (s : State) (r : TaskRef) (tok : Option Nat) : State :=
  { s with sent := s.sent.filter fun x =>
      !(decide (x.task = r) && decide (x.cmdTok = tok) && decide (x.req.kind = 1)) }

/-- The slot number of a line that no squashed bundle waits for: one asked for by PREF (R169), or for a bundle that has
issued or whose task has halted (R167, R282). -/
def prefSlot : Nat := 4

/-- A request of a slot's squashed bundle once that bundle no longer waits: it goes on (R282), and a refusal is
forgotten. -/
def L1Req.letGo (slot : Nat) (q : L1Req) : Option L1Req :=
  if q.slot ≠ slot then some q
  else match q.answer with
    | .refused _ => none
    | _ => some { q with slot := prefSlot }

/-- A line no longer held for a slot's squashed bundle. -/
def L1Line.letGo (slot : Nat) (l : L1Line) : L1Line := { l with slots := l.slots.filter fun k => !decide (k = slot) }

/-- The lines of a slot's squashed bundle let go: its bundle has issued, or its task has halted (R167). Lines under way
still arrive (R282). -/
def Core.letGo (slot : Nat) (c : Core) : Core :=
  { c with l1req := c.l1req.filterMap (L1Req.letGo slot), l1 := c.l1.map (L1Line.letGo slot) }

/-- The lodge core enters its handler (R384): the saved registers are written, EMASK[0] is set, PC is
EVEC and no transfer is pending. -/
def State.lodgeEntry (s : State) (r : TaskRef) (cause : Nat) (info : W64) : State :=
  let t := s.task r
  let s := s.modLodge r.die fun l =>
    { l with
      epc := t.pc.setWidth 64
      etrans := transWord t.target t.delay
      epreds := t.preds.setWidth 64
      ecause := BitVec.ofNat 64 cause
      einfo := info
      emask := l.emask ||| 1 }
  ((s.modCore r.coreRef (Core.letGo r.slot)).dropLoads r none).modTask r fun t =>
    { t with
      pc := (s.die r.die).lodge.evec.setWidth 32, target := 0, delay := 0, halted := false, ctl := .none }

/-- Whether a slot has a matrix command, or an engine command that writes into the core, outstanding
(R205). -/
def Core.busyInside (c : Core) (slot : Nat) : Bool :=
  (c.cmds.any fun e => match e.2 with
    | some x => decide (x.slot = slot) && x.inside
    | none => false)
    || c.mcmds.any fun m => match m with
      | .latch k _ _ _ => decide (k = slot)
      | .token k _ => decide (k = slot)

/-- A region that a halt closes: it stands, closed, while its log guards commands that still run (R205, R208). -/
def Region.shut (busy : Bool) (g : Region) : Option Region :=
  if g.guarded && busy then some { g with closed := true } else none

/-- What a halt leaves of a slot on its core: its checkpoint region closes (R205) and the lines held for
a squashed bundle are let go (R167). -/
def Core.slotHalted (c : Core) (slot : Nat) : Core :=
  match c.regions.get none slot with
  | none => c.letGo slot
  | some g => { c.letGo slot with regions := Tbl.set none c.regions slot (g.shut (c.busyInside slot)) }

/-- An answer with a read-only line given up: the request is open again. -/
def L1Req.reopened (q : L1Req) : L1Req :=
  match q.answer with
  | .line _ => if q.right = .ro then { q with answer := .waiting } else q
  | _ => q

/-- A core without its read-only lines, resident or on their way: after a FENCE.ro (R252), and where a task starts, which
reads no value older than its launch (R170). -/
def Core.dropRo (c : Core) : Core :=
  { c with l1 := c.l1.filter fun l => !decide (l.right = .ro), l1req := c.l1req.map L1Req.reopened }

/-- What the end of its task leaves of a slot on its core. -/
def Core.slotEnded (c : Core) (slot : Nat) : Core :=
  { c.letGo slot with regions := Tbl.erase c.regions slot }

/-- A synchronous trap of the next bundle of a task (R382, R384). On a lodge core it is a trap entry,
or a double trap while the handler runs; any other task halts before that bundle and its S record is
posted with the saved PC. A pending pre-emption finds it halted (R283). -/
def State.takeTrap (s : State) (r : TaskRef) (tr : Trap) : State :=
  if isLodge r.core then
    if (s.die r.die).lodge.emask.getLsbD 0 then s.doubleTrap r (s.task r).pc tr.cause 0
    else s.lodgeEntry r tr.cause tr.info
  else
    let t := s.task r
    let s := s.modTask r fun t => { t with halted := true, preempt := false, trapped := some tr, ctl := .none }
    let s := ((s.modCore r.coreRef fun c => c.slotHalted r.slot).dropLoads r none).dropLoads r (some walkTok)
    s.post r.die ⟨tr.cause, 0, r.die, r.core, r.slot, t.job, tr.info, t.lidx, t.pc, s.cycle32, none⟩

/-- ERET (R124, R384): PC, transfer state and PREDS come back from the exception registers, and EMASK[0]
clears. A delay count of 3, which only a write of ETRANS can hold, is restored as it stands: DESIGN CHOICE,
notes/assumptions/101. -/
def State.eretEntry (s : State) (r : TaskRef) : State :=
  let l := (s.die r.die).lodge
  (s.modTask r fun t =>
    { t with
      pc := l.epc.setWidth 32
      target := l.etrans.setWidth 32
      delay := (l.etrans.toNat / 2 ^ 32) % 4
      preds := predsWord (l.epreds.setWidth 8) }).modLodge r.die fun l => { l with emask := l.emask &&& 2 }

/-! ### Free values -/

/-- The next free value is taken: the model's counter advances. -/
def State.tookFree (s : State) (n : Nat := 1) : State := { s with freeCtr := s.freeCtr + n }

/-- n bytes the manual leaves unspecified, from the state's counter on. -/
def State.freeBytes (s : State) (n : Nat) : List Byte :=
  (List.range n).map fun i => Config.freeByte (s.freeCtr + i)

/-! ### The active job -/

/-- Whether a job's cells stand still in this module: it has stopped for a gang switch, or is switched out
(R371, R372). -/
def State.jobStopped (s : State) (job : Nat) : Bool :=
  (s.switched.any fun g => decide (g.block.job = job))
    || match s.gang with
      | some g => g.stopped && decide (g.block.job = job)
      | none => false

end Sys2Proof.Machine
end

