-- ==== Sys2Proof/Machine/Operands.lean ====
section
/-!
DEFINITION. Operand forms: guards (R28), scalar, predicate, lane-predicate and vector register names
(R87, R129 to R136), the queue-mapped names v30 and v31 (R135, R324), address generators (R161) and
sign-extended immediates.
-/

namespace Sys2Proof.Machine

/-! ### Guards -/

/-- Whether the scalar guard of a slot is true for a task (R28). -/
def Task.guardOn (t : Task) (g : Guard) : Bool := t.pred g.idx.toNat != g.neg

/-- The lanes on which a V slot's guard is true: q0 to q7, which never rotate (R28, R136). -/
def Task.guardLanes (t : Task) (g : Guard) : Lanes :=
  if g.neg then ~~~(t.lanes g.idx.toNat) else t.lanes g.idx.toNat

/-! ### Vector register names -/

/-- Size S of the rotating region by declaration (Table 6.1, R133: a lodge or control core's task
holds 32). -/
def Task.rotSize (t : Task) : Nat := if t.vregs = 8 then 0 else if t.vregs = 16 then 8 else 16

/-- Whether a name is backed (Table 6.1). -/
def Task.backed (t : Task) (m : Nat) : Bool := decide (m < t.vregs) && decide (m < 30)

/-- VPos of R134: the block position a name reaches. -/
def Task.vpos (t : Task) (m : Nat) : Nat :=
  if 8 ≤ m ∧ m < 8 + t.rotSize then 8 + (m - 8 + t.rbaseV.toNat) % t.rotSize else m

/-- QPos of R134. -/
def Task.qpos (t : Task) (m : Nat) : Nat := if 8 ≤ m then 8 + (m - 8 + t.rbaseQ.toNat) % 8 else m

/-- A lane predicate by name. -/
def Task.qreg (t : Task) (m : Nat) : Lanes := t.lanes (t.qpos m)

/-- A lane-predicate position written on some lanes; writes of position 0 are discarded (R136). -/
def Task.setLanes (t : Task) (q : Nat) (mask v : Lanes) : Task :=
  if q = 0 then t
  else { t with qregs := Tbl.set 0 t.qregs q ((v &&& mask) ||| (t.lanes q &&& ~~~mask)) }

/-! ### Vector registers -/

/-- A register from a function of the cell position 64 i + j. -/
def VReg.ofFn (f : Nat → W32) : VReg := (List.range 1024).map f

/-- Cell at position 64 i + j. -/
def VReg.cell (v : VReg) (e : Nat) : W32 := v.getD e 0

/-- The cells of a register at the lanes of a mask, another's elsewhere (R138). -/
def VReg.blend (mask : Lanes) (new old : VReg) : VReg :=
  VReg.ofFn fun e => if mask.getLsbD e then new.cell e else old.cell e

/-- A physical vector register (R130). -/
def Core.vreg (c : Core) (p : Nat) : VReg := c.vfile.get VReg.zero p

/-- A physical vector register written on some lanes. -/
def Core.setVreg (c : Core) (p : Nat) (mask : Lanes) (v : VReg) : Core :=
  { c with vfile := Tbl.set VReg.zero c.vfile p (VReg.blend mask v (c.vreg p)) }

/-! ### Queue-mapped names -/

/-- The words of a cell payload, little-endian (R6). -/
def wordsOf : List Byte → List W32
  | a :: b :: c :: d :: t => (d ++ c ++ b ++ a) :: wordsOf t
  | _ => []

/-- The bytes of words, little-endian (R6). -/
def bytesOf : List W32 → List Byte
  | [] => []
  | w :: t => leBytes 4 w.toNat ++ bytesOf t

/-- The cell that fills position n of the block a queue's next pop returns (R324). -/
def InQueue.at (q : InQueue) (n : Nat) : Option QCell :=
  q.cells.find? fun c => decide (c.cidx / 32 % 2048 = q.nextblock) && decide (c.cidx % 32 = n)

/-- Whether the head of a queue is complete (R324). -/
def InQueue.complete (q : InQueue) : Bool := (List.range 32).all fun n => (q.at n).isSome

/-- The first poisoned cell of the block at a queue's head (R334). -/
def InQueue.poisoned (q : InQueue) : Option QCell := (List.range 32).findSome? fun n => (q.at n).filter fun c => c.psn

/-- The head of a queue as a register: position n fills row n div 2, columns 32 (n mod 2) up (R324). -/
def InQueue.head (q : InQueue) : VReg :=
  (List.range 32).flatMap fun n =>
    match q.at n with
    | some c => wordsOf c.payload
    | none => List.replicate 32 0

/-- A queue after its head is popped (R324). -/
def InQueue.pop (q : InQueue) : InQueue :=
  { q with
    cells := q.cells.filter fun c => !decide (c.cidx / 32 % 2048 = q.nextblock)
    nextblock := (q.nextblock + 1) % 2048 }

/-- Queue 0 or 1 of a task. -/
def Task.queue (t : Task) (n : Nat) : InQueue := if n = 0 then t.fq0 else t.fq1

/-- Queue 0 or 1 of a task replaced. -/
def Task.setQueue (t : Task) (n : Nat) (q : InQueue) : Task :=
  if n = 0 then { t with fq0 := q } else { t with fq1 := q }

/-- A vector register of the issuing task by name, v30 and v31 the heads of its queues (R135). -/
def State.vreg (s : State) (m : Nat) : VReg :=
  if m = 30 then s.me.fq0.head
  else if m = 31 then s.me.fq1.head
  else s.here.vreg (s.me.vbase + s.me.vpos m)

/-- A scalar register of the issuing task. -/
def State.sreg (s : State) (r : BitVec 5) : W64 := s.me.sreg r.toNat

/-! ### Address generators -/

/-- Generator n of a task. -/
def Task.ag (t : Task) (n : Nat) : AddrGen := t.ags.get AddrGen.zero n

/-- Generator n of a task replaced. -/
def Task.setAg (t : Task) (n : Nat) (g : AddrGen) : Task := { t with ags := Tbl.set AddrGen.zero t.ags n g }

/-- Addr(g) of R161. -/
def AddrGen.addr (g : AddrGen) : W64 :=
  (List.range 6).foldl (fun a k => a + (g.idx.get 0 k).setWidth 64 * g.stride.get 0 k) g.base

/-- Step(g) of R161 from dimension k on: `n` dimensions are left. -/
def AddrGen.stepFrom (g : AddrGen) (k : Nat) : Nat → AddrGen
  | 0 => g
  | n + 1 =>
    let i := (g.idx.get 0 k).toNat + 1
    if i < max (g.bound.get 0 k).toNat 1 then { g with idx := Tbl.set 0 g.idx k (BitVec.ofNat 32 i) }
    else AddrGen.stepFrom { g with idx := Tbl.set 0 g.idx k 0 } (k + 1) n

/-- Step(g) of R161. -/
def AddrGen.step (g : AddrGen) : AddrGen := g.stepFrom 0 6

/-- g after n applications of Step. -/
def AddrGen.steps (g : AddrGen) : Nat → AddrGen
  | 0 => g
  | n + 1 => AddrGen.steps g.step n

/-- Point(g, n) of R161. -/
def AddrGen.point (g : AddrGen) (n : Nat) : W64 := (g.steps n).addr

/-- A field written by AGSET, which restarts the nest (R162): 0 base, 1 to 6 bounds, 7 to 12 strides. -/
def AddrGen.setField (g : AddrGen) (field : Nat) (v : W64) : AddrGen :=
  let g := { g with idx := [] }
  if field = 0 then { g with base := v }
  else if field ≤ 6 then { g with bound := Tbl.set 0 g.bound (field - 1) (v.setWidth 32) }
  else { g with stride := Tbl.set 0 g.stride (field - 7) v }

/-! ### Immediates -/

/-- A signed immediate as a 64-bit word. -/
def sext {w : Nat} (x : BitVec w) : W64 := x.signExtend 64

/-- An unsigned immediate as a 64-bit word. -/
def zext {w : Nat} (x : BitVec w) : W64 := x.setWidth 64

end Sys2Proof.Machine
end

