-- ==== Sys2Proof/Machine/Sem.lean ====
section
/-!
DEFINITION. What a slot does, as data of the issue step: the registers it names, its checks, what it
stalls on, what it raises and what it does (R28, R33 to R35, R45). All sources are read in the state in
which the bundle issues (R42, R138); effects are added to the state as the slots stand.
-/

namespace Sys2Proof.Machine

/-- Where an instruction is accepted (R16, R34, R329). -/
inductive Place where
  | any
  /-- A lodge core only (Table 2.11, R329). -/
  | lodge
  /-- A lodge or control core (Table 2.11, R306). -/
  | lodgeControl
  /-- A core with an array: elsewhere it is an illegal instruction (R16). -/
  | array
  deriving DecidableEq, Repr

/-- The meaning of a slot. `wait s0 s` is none when the slot adds no stall, and otherwise the state `s`
with what the stalled slot starts, such as the requests of a squashed bundle. `trap k s0` is the
execution trap of the slot at position k. `eff s0 s` is the state `s` after the slot, which read its
sources in `s0`. -/
structure SlotSem where
  guard : Guard
  /-- A V slot: its guard names lanes and it always issues (R28). -/
  lanes : Bool := false
  /-- An F slot: it needs and occupies the F unit (R151). -/
  funit : Bool := false
  place : Place := .any
  /-- A store: its access follows every load of the bundle (R166). -/
  late : Bool := false
  /-- CKPT: its bundle stands outside every region (R205). -/
  mark : Bool := false
  /-- Vector register names read and written (R131, R135). -/
  vsrc : List Nat := []
  vdst : Option Nat := none
  /-- A further check that raises an illegal-instruction trap on this core or task (R175, R213). -/
  illegal : State → Bool := fun _ => false
  wait : State → State → Option State := fun _ _ => none
  trap : Nat → State → Option Trap := fun _ _ => none
  /-- The largest write time of the L1 lines the slot loads from (R244): the bundle's time rises to it. -/
  peak : State → W64 := fun _ => 0
  eff : State → State → State

/-- A trap with a cause and no INFO. -/
def Trap.plain (cause : Nat) : Trap := ⟨cause, 0⟩

/-- The first trap of several checks. -/
def firstTrap (l : List (Option Trap)) : Option Trap := l.findSome? id

/-- A trap under a condition. -/
def trapIf (c : Bool) (t : Trap) : Option Trap := if c then some t else none

/-- Whether the slot acts: a V slot always issues, another slot when its guard is true (R28). -/
def SlotSem.acts (m : SlotSem) (s : State) : Bool := m.lanes || s.me.guardOn m.guard

/-- Whether the slot is an illegal instruction on the issuing core, in the issuing task (R16, R131). -/
def SlotSem.isIllegal (m : SlotSem) (s : State) : Bool :=
  (decide (m.place = .array) && !isCompute s.cur.core)
    || m.vsrc.any (fun v => !s.me.backed v && !decide (v = 30) && !decide (v = 31))
    || (match m.vdst with | some v => !s.me.backed v | none => false)
    || m.illegal s

/-- Whether the slot is privileged and the issuing core may not execute it (R34). -/
def SlotSem.isDenied (m : SlotSem) (s : State) : Bool :=
  s.me.guardOn m.guard &&
    (match m.place with
      | .lodge => !isLodge s.cur.core
      | .lodgeControl => isCompute s.cur.core
      | _ => false)

/-- Whether the slot takes a queue-mapped name (R135). -/
def SlotSem.takes (m : SlotSem) (s : State) (q : Nat) : Bool := m.acts s && m.vsrc.contains (30 + q)

/-- The check-value trap of a pop of a complete block that a poisoned cell has entered (R334). -/
def InQueue.popTrap (q : InQueue) : Option Trap :=
  if q.complete then q.poisoned.map fun c => ⟨0xA0, BitVec.ofNat 64 (q.flow + c.cidx * 2 ^ 20)⟩ else none

/-- The traps of a slot that takes v30 or v31: in a checkpoint region (R207), of an unbound queue (R325), and of
a poisoned block (R334). -/
def SlotSem.queueTrap (m : SlotSem) (k : Nat) (s : State) : Option Trap :=
  if (m.takes s 0 || m.takes s 1) && (s.here.regions.get none s.cur.slot).isSome then some ⟨0x24, BitVec.ofNat 64 k⟩
  else if m.takes s 0 && !s.me.fq0.bound then some ⟨0x82, 0⟩
  else if m.takes s 1 && !s.me.fq1.bound then some ⟨0x82, 1⟩
  else (if m.takes s 0 then s.me.fq0.popTrap else none).orElse fun _ => if m.takes s 1 then s.me.fq1.popTrap else none

/-- The execution trap of a slot at position k: none when it does not act (R28). -/
def SlotSem.execTrap (m : SlotSem) (k : Nat) (s : State) : Option Trap :=
  if m.acts s then (m.queueTrap k s).orElse fun _ => m.trap k s else none

/-- Whether a queue the slot takes is bound and has no complete head (R325). -/
def SlotSem.queueWait (m : SlotSem) (s : State) : Bool :=
  (m.takes s 0 && s.me.fq0.bound && !s.me.fq0.complete) || (m.takes s 1 && s.me.fq1.bound && !s.me.fq1.complete)

/-- The stall of a slot: a slot whose own check has failed adds none (R45). An F slot waits for the F
unit whatever its guard (R151). The result is `s` with what the stalled slot starts. -/
def SlotSem.stall (m : SlotSem) (k : Nat) (s0 s : State) : Option State :=
  if (m.execTrap k s0).isSome then none
  else if m.funit && decide (s0.here.fBusy ≠ 0) then some s
  else if m.acts s0 then (if m.queueWait s0 then some s else m.wait s0 s)
  else none

/-- Popping of the queues a slot takes (R135). -/
def popTaken (q0 q1 : Bool) (t : Task) : Task :=
  let t := if q0 then { t with fq0 := t.fq0.pop } else t
  if q1 then { t with fq1 := t.fq1.pop } else t

/-- The slot's part in an issued bundle. -/
def SlotSem.apply (m : SlotSem) (s0 s : State) : State :=
  let s := if m.acts s0 then m.eff s0 s else s
  if m.funit then s.modHere fun c => { c with fBusy := 4 } else s

end Sys2Proof.Machine
end

