-- ==== Sys2Proof/Machine/Registers.lean ====
section
/-!
DEFINITION. The special registers of a task (Table 4.1, Table 2.7), the core registers (Table 4.4) and
the lodge registers (Tables 19.2 and 20.6): what a read returns (R90 to R93, R115, R385) and what a
write replaces (R101, R102, R115, R118, R385).
-/

namespace Sys2Proof.Machine

/-- The Rotunda position of a task slot (Table 12.1). -/
def positionOf (r : TaskRef) : Nat :=
  if isLodge r.core then 3072 + 128 * r.die
  else if isControl r.core then 3072 + 128 * r.die + 1
  else 384 * r.die + 4 * r.core + r.slot

/-- The launch with a number. -/
def State.launch? (s : State) (n : Nat) : Option Launch := s.launches.find? fun l => decide (l.seq = n)

/-- A launch changed. -/
def State.modLaunch (s : State) (n : Nat) (f : Launch → Launch) : State :=
  { s with launches := s.launches.map fun l => if l.seq = n then f l else l }

/-- Tasks of a kernel's launch (R266). -/
def Kernel.tasks (k : Kernel) : Nat := k.gridX * k.gridY * k.gridZ * k.stages

/-- Iterations of a launch's nest; a bound of 0 acts as 1 (R276). -/
def Launch.iterations (l : Launch) : Nat := l.nest.foldl (fun n b => n * max 1 b) 1

/-- The slice that the task with a logical index receives (R276). -/
def Launch.firstSlice (l : Launch) (k : Nat) : Slice :=
  let at' := fun k => BitVec.ofNat 64 (k * l.iterations / l.kernel.tasks)
  ⟨at' k, at' (k + 1), at' k⟩

/-- The slice of a launch's task as it stands. -/
def Launch.slice (l : Launch) (k : Nat) : Slice := (l.slices.get none k).getD (l.firstSlice k)

/-- A slice that holds no iteration. -/
def Slice.none : Slice := ⟨0, 0, 0⟩

/-- The slice the sequencer holds for a task (R276). -/
def State.slice (s : State) (t : Task) : Slice :=
  match s.launch? t.launch with
  | some l => l.slice t.lidx.toNat
  | none => Slice.none

/-- The level of index n of a loop stack: its position counted from the outermost (R110). -/
def Task.level? (t : Task) (n : Nat) : Option LoopLevel :=
  if n < t.loops.length then t.loops[t.loops.length - 1 - n]? else none

/-- A level of the loop stack changed. -/
def Task.modLevel (t : Task) (n : Nat) (f : LoopLevel → LoopLevel) : Task :=
  if n < t.loops.length then { t with loops := t.loops.modify (t.loops.length - 1 - n) f } else t

/-- The shadow addresses of level n. -/
def Task.shadow (t : Task) (n : Nat) : Shadow := t.shadows.get Shadow.none n

/-- The shadow addresses of level n replaced. -/
def Task.setShadow (t : Task) (n : Nat) (x : Shadow) : Task := { t with shadows := Tbl.set Shadow.none t.shadows n x }

/-- A read of a loop register (R115). -/
def Task.readLoop (t : Task) (num : Nat) : W64 :=
  let n := num % 8
  match num / 8 with
  | 2 => ((t.level? n).map LoopLevel.lc).getD 0
  | 3 => (match t.level? n with
      | some l => l.lb.setWidth 64
      | none => if (t.shadow n).valid then (t.shadow n).lb.setWidth 64 else 0)
  | 4 => (match t.level? n with
      | some l => l.le.setWidth 64
      | none => if (t.shadow n).valid then (t.shadow n).le.setWidth 64 else 0)
  | 5 => ((t.level? n).map LoopLevel.li).getD 0
  | _ => 0

/-- A write of a loop register (R115). -/
def Task.writeLoop (t : Task) (num : Nat) (v : W64) : Task :=
  let n := num % 8
  match num / 8 with
  | 2 => t.modLevel n fun l => { l with pending := some v }
  | 3 => t.setShadow n { t.shadow n with lb := v.setWidth 32, valid := true }
  | 4 => t.setShadow n { t.shadow n with le := v.setWidth 32, valid := true }
  | 5 => t.modLevel n fun l => { l with li := v }
  | _ => t

/-- COREID (Table 4.4). -/
def State.coreId (s : State) (r : TaskRef) : W64 :=
  BitVec.ofNat 64 (r.core + r.die * 2 ^ 8 + s.module.toNat * 2 ^ 16)

/-- RETIRED0 and RETIRED1 as one 96-bit mask (Table 19.2). -/
def LodgeRegs.retiredMask (l : LodgeRegs) : Nat := l.retired.foldl (fun m c => m ||| 2 ^ c) 0

/-- A read of a lodge register (Tables 19.2 and 20.6); a number not listed reads 0 (R385). -/
def LodgeRegs.read (l : LodgeRegs) (num : Nat) : W64 :=
  match num with
  | 0x800 => l.evec
  | 0x801 => l.epc
  | 0x802 => l.etrans
  | 0x803 => l.epreds
  | 0x804 => l.ecause
  | 0x805 => l.einfo
  | 0x806 => l.emask.setWidth 64
  | 0x807 => l.fvec
  | 0x808 => BitVec.ofNat 64 l.eqhead
  | 0x809 => BitVec.ofNat 64 l.eqtail
  | 0x80A => l.eqlost
  | 0x810 => l.troot
  | 0x812 => BitVec.ofNat 64 l.retiredMask
  | 0x813 => BitVec.ofNat 64 (l.retiredMask / 2 ^ 64)
  | 0x814 => l.pkey
  | _ => 0

/-- Fields of ETRANS that are not reserved (Table 19.2). -/
def etransMask : W64 := 0x3_FFFF_FFFF

/-- Bits [47:12], the field of TROOT (Table 19.2). -/
def bits47to12 : W64 := 0xFFFF_FFFF_F000

/-- A write of a lodge register other than EQHEAD and KILL; reserved fields are written as zero, and a
number not listed is discarded (R385). -/
def LodgeRegs.write (l : LodgeRegs) (num : Nat) (v : W64) : LodgeRegs :=
  match num with
  | 0x800 => { l with evec := v }
  | 0x801 => { l with epc := v }
  | 0x802 => { l with etrans := v &&& etransMask }
  | 0x803 => { l with epreds := (v &&& 0xFF) ||| 1 }
  | 0x806 => { l with emask := v.setWidth 2 }
  | 0x807 => { l with fvec := v }
  | 0x80A => { l with eqlost := l.eqlost &&& ~~~v }
  | 0x810 => { l with troot := v &&& bits47to12 }
  | 0x814 => { l with pkey := v &&& 0xFFF }
  | _ => l

/-- A write of EQHEAD: a value in the held range moves the head and lets waiting S records in; another
is discarded (R383, R385). -/
def Die.writeEqhead (d : Die) (v : W64) : Die :=
  let h := v.toNat % 512
  if (h + 512 - d.lodge.eqhead) % 512 ≤ d.lodge.held then
    Die.drainWaiting { d with lodge := { d.lodge with eqhead := h } } d.waitingS.length
  else d

/-- A read of a special, core or lodge register by the issuing task (R90, R92, R101, R125). -/
def State.readReg (s : State) (num : Nat) : W64 :=
  let t := s.me
  if 0x010 ≤ num ∧ num < 0x030 then t.readLoop num
  else if 0x800 ≤ num then (s.die s.cur.die).lodge.read num
  else match num with
    | 0x000 => t.fstat.setWidth 64
    | 0x001 => if isLodge s.cur.core then BitVec.allOnes 64 else t.budget
    | 0x002 => t.lidx
    | 0x003 => t.lcoord
    | 0x004 => t.gidx
    | 0x005 => t.grank
    | 0x006 => t.time
    | 0x007 => BitVec.ofNat 64 (positionOf s.cur)
    | 0x008 => (s.slice t).slb
    | 0x009 => (s.slice t).sle
    | 0x00A => (s.slice t).sln
    | 0x030 => (predsWord t.preds).setWidth 64
    | 0x031 => BitVec.ofNat 64 (t.rbaseV.toNat + t.rbaseQ.toNat * 2 ^ 8)
    | 0x038 => t.bcnt
    | 0x100 => s.coreId s.cur
    | 0x101 => s.cycle
    | 0x102 => s.jobid.setWidth 64
    | _ => 0

/-- A write of a task special register taking effect (R101, R102, R115, R118): FSTAT, BUDGET (lowered
only, and discarded on a lodge core), the loop registers and PREDS. -/
def Task.writeSpecial (t : Task) (lodge : Bool) (num : Nat) (v : W64) : Task :=
  if 0x010 ≤ num ∧ num < 0x030 then t.writeLoop num v
  else match num with
    | 0x000 => { t with fstat := v.setWidth 6 }
    | 0x001 => if lodge then t else { t with budget := if v < t.budget then v else t.budget }
    | 0x030 => { t with preds := predsWord (v.setWidth 8) }
    | _ => t

/-- Whether the issuing task's bundle lies in a checkpoint region (R205). -/
def State.inRegion (s : State) : Bool := (s.here.regions.get none s.cur.slot).isSome

end Sys2Proof.Machine
end

