-- ==== Sys2Proof/Machine/Fetch.lean ====
section
/-!
DEFINITION. Fetching bundles (R29, R106): the words of a bundle from the kernel's code in the module's
memory, its size, and the bundle-format rules (R30 to R32).
-/

namespace Sys2Proof.Machine

/-- Word i from bundle unit `pc` of a task's code, little-endian (R6, R29). -/
def State.codeWord (s : State) (t : Task) (pc i : Nat) : W32 :=
  BitVec.ofNat 32 (leNat (s.mem.bytes (t.codeBase + 16 * pc + 4 * i) 4))

/-- The eight words from bundle unit `pc` (R32). -/
def State.codeWords (s : State) (t : Task) (pc : Nat) : List W32 :=
  (List.range 8).map fun i => s.codeWord t pc i

/-- The slots of a bundle: up to and with the first stop bit among the eight words (R29); none when there
is no stop bit or it stands in slot 0, 1 or 2 (R32). -/
def bundleWords : List W32 → Nat → Option (List W32)
  | [], _ => none
  | w :: t, n =>
    if w.getLsbD 31 then (if n < 3 then none else some [w])
    else (bundleWords t (n + 1)).map fun r => w :: r

/-- Units of a bundle of n slots (R29). -/
def unitsOf (n : Nat) : Nat := if n ≤ 4 then 1 else 2

/-- size(A) of R108: the units of the bundle at an address. Where no bundle stands it is free. -/
def State.sizeAt (s : State) (t : Task) (pc : Nat) : Nat :=
  if pc < t.codeLen then
    match bundleWords (s.codeWords t pc) 0 with
    | some l => unitsOf l.length
    | none => Config.badSize pc
  else Config.badSize pc

end Sys2Proof.Machine
end

