-- ==== Sys2Proof/Machine/Memory.lean ====
section
/-!
DEFINITION. The physical map (R20 to R23, R439), the homes of HBM lines (R226, R227, R234, R244, R334,
R405), page walks and translation (R230 to R233), and near memory (R158). The bytes of every store that
is plain memory stand in the state's `mem` at their module offsets.
-/

namespace Sys2Proof.Machine

/-! ### The physical map -/

/-- Size of HBM: offsets below it are HBM (Table 1.5). -/
def hbmSize : Nat := 2 ^ 40

/-- The module number of a physical address (R20). -/
def paModule (pa : Nat) : Nat := pa / 2 ^ 42 % 64

/-- The offset of a physical address within its module (R20). -/
def paOffset (pa : Nat) : Nat := pa % 2 ^ 42

/-- Base of the Grotto in HBM (R391). -/
def grottoBase : Nat := 0xFFF0000000

/-- Whether a physical address lies in a module's Grotto, to which no translated access comes (R391). -/
def inGrotto (pa : Nat) : Bool := decide (grottoBase ≤ paOffset pa) && decide (paOffset pa < hbmSize)

/-- Base of the window of die d (Table 1.5). -/
def dieBase (d : Nat) : Nat := 0x30000000000 + d * 0x1000000000

/-- Module offset of an accumulator slot (Table 15.1). -/
def accSlot (die router n : Nat) : Nat := dieBase die + 0x800000000 + router * 0x100000 + n * 128

/-- Accumulator slots of an entry (Table 15.4). -/
def FlowEntry.slots (e : FlowEntry) : Nat :=
  match e.action with
  | 1 | 4 => if e.cop = 0 ∧ e.ord = true then e.ccount * e.w else if e.cop = 3 then 2 * e.ccount else e.ccount
  | 3 => e.holdn
  | 5 => 32 * e.ccount
  | _ => 0

/-- Offset of a core's window in its die window (Table 1.6, Table 1.9). -/
def coreOffset (core : Nat) : Nat :=
  if core = 96 then 0xB10000000 else if core = 97 then 0xB20000000 else core * 0x10000000

/-- Base of a core's window. -/
def coreBase (c : CoreRef) : Nat := dieBase c.die + coreOffset c.core

/-- Base of a core's near memory, operand memory and accumulator store (Table 1.7). -/
def nearBase (c : CoreRef) : Nat := coreBase c
/-- Base of a core's operand memory. -/
def operandBase (c : CoreRef) : Nat := coreBase c + 0x4000000
/-- Base of a core's accumulator store. -/
def accBase (c : CoreRef) : Nat := coreBase c + 0x8000000

/-- A step of near memory (R158). -/
def stepBytes : Nat := 0x40000

/-- Module offset of byte `off` of a task's window (R158, R160). -/
def windowAddr (c : CoreRef) (t : Task) (off : Nat) : Nat := nearBase c + t.wbase * stepBytes + off

/-- Stack(A) of R226. -/
def stackOf (a : Nat) : Nat :=
  (List.range 7).foldl (fun x i => x ^^^ (a / 2 ^ (12 + 4 * i) % 16)) 0

/-- Local(A) of R226: the address of an HBM offset within its stack. -/
def localOf (a : Nat) : Nat := a / 2 ^ 16 % 2 ^ 24 * 4096 + a % 4096

/-- The two HBM controllers of a die (R226). -/
inductive Controller where
  | a
  | b
  deriving DecidableEq, Repr

/-- The controller that serves a stack (R226): A the even ones, B the odd ones. -/
def controllerOf (stack : Nat) : Controller := if stack % 2 = 0 then .a else .b

/-- The die of an HBM line's home (R227). -/
def homeDie (a : Nat) : Nat := stackOf a / 2

/-- The slice of an HBM line's home within its die (R227). -/
def homeSlice (d : Die) (a : Nat) : Nat :=
  let x := (a / 2 ^ 7 % 16) ^^^ (a / 2 ^ 11 % 16) ^^^ (a / 2 ^ 15 % 16) ^^^ (a / 2 ^ 19 % 16)
  d.l2first + x % 2 ^ d.l2logn

/-- Whether a request to the home of an HBM offset is held: a DOMSET of that die is under way (R239). -/
def State.homeBusy (s : State) (o : Nat) : Bool := (s.die (homeDie o)).l2busy

/-! ### Keys -/

/-- The key of the firmware, and of a job (R405), as lines are tagged with it. -/
def fwKey : Nat := 1
/-- The key of a job. -/
def jobKey (job : Nat) : Nat := 2 + job

/-- Whether the key table holds a job's entry (R405, R406); the firmware's key is always there. -/
def State.hasKey (s : State) (key : Nat) : Bool :=
  decide (key < 2) || s.keys.any fun k => decide (jobKey k.job = key)

/-- The tag of lines that lie under the n-th of the keys that the table holds no more (R405). -/
def oldKey (n : Nat) : Nat := jobKey 4096 + n

/-- The XTS key that a tag stands for: of a job's entry, or one that the table holds no more. -/
def State.xtsKey (s : State) (key : Nat) : Option (List Byte) :=
  if oldKey 0 ≤ key then s.oldKeys[key - oldKey 0]?
  else (s.keys.find? fun k => decide (jobKey k.job = key)).map fun k => k.material.take 64

/-- Whether two tags stand for one key: a line encrypted under the one is whole under the other (R405). -/
def State.sameKey (s : State) (a b : Nat) : Bool :=
  decide (a = b) || (match s.xtsKey a, s.xtsKey b with
    | some x, some y => decide (x = y)
    | _, _ => false)

/-! ### Lines and their homes -/

/-- The line of a module offset. -/
def lineOf (o : Nat) : Nat := o / 128

/-- The home's record of a line. -/
def State.lineMeta (s : State) (line : Nat) : LineMeta := s.lines.get LineMeta.clean line

/-- The home's record of a line changed. -/
def State.modLine (s : State) (line : Nat) (f : LineMeta → LineMeta) : State :=
  { s with lines := Tbl.set LineMeta.clean s.lines line (f (s.lineMeta line)) }

/-- The generation of the frame of an HBM offset (R233). -/
def State.genOf (s : State) (o : Nat) : Nat := (s.gens.get 0 (o / 2 ^ 21)).toNat

/-- A dirty copy of a line among the cores. -/
def dirtyCopy (line : Nat) : Tbl Core → Option L1Line
  | [] => none
  | (_, c) :: t =>
    match c.l1.find? fun l => decide (l.line = line) && l.dirty with
    | some l => some l
    | none => dirtyCopy line t

/-- A line as its home would serve it once its owner has given it back. -/
structure LineView where
  data : List Byte
  key : Nat
  poison : Nat
  deriving DecidableEq, Repr

/-- The current contents of a line (R244): the owner's when it holds the line dirty and its write-back
would be accepted (R234, R405), else the home's. -/
def State.view (s : State) (line : Nat) : LineView :=
  let m := s.lineMeta line
  let home : LineView := ⟨s.mem.bytes (line * 128) 128, m.key, m.poison⟩
  match dirtyCopy line s.cores with
  | some l => if l.gen = s.genOf (line * 128) ∧ s.hasKey l.key = true then ⟨l.data, l.key, l.poison⟩ else home
  | none => home

/-- The cause with which a line reads as poison under a key, 0 when it reads whole: its own poison
(R386), an absent key (R405), or a key other than the one it was written under, which fails its check
(R405, R334). A line that nothing has written since bring-up reads zero under every key (R242, R408). -/
def State.poisonUnder (s : State) (v : LineView) (key : Nat) : Nat :=
  if !s.hasKey key then 0x64
  else if v.poison ≠ 0 then v.poison
  else if v.key ≠ 0 ∧ s.sameKey v.key key = false then 0xA0
  else 0

/-- A dirty line written back to its home (R234): accepted under its generation, else discarded with a
stale-generation fault posted to the lodge of the line's core; under a key that is gone it is discarded with a
physical-decode fault (R405, R21). Its times go with it (R244). -/
def State.writeBack (s : State) (c : CoreRef) (l : L1Line) : State :=
  if l.right ≠ .write then s
  else
    let s := s.modLine l.line fun m => { m with wts := l.wts, rts := l.rts }
    if !l.dirty then s
    else if l.gen ≠ s.genOf (l.line * 128) then
      s.postFault c.die c.core 0 l.job 0x63 (BitVec.ofNat 64 (s.module.toNat * 2 ^ 42 + l.line * 128))
    else if !s.hasKey l.key then
      s.postFault c.die c.core 0 l.job 0x64 (BitVec.ofNat 64 (s.module.toNat * 2 ^ 42 + l.line * 128))
    else
      { s with mem := s.mem.setBytes (l.line * 128) l.data }.modLine l.line fun m =>
        { m with key := l.key, poison := l.poison }

/-- Every core that has been listed. -/
def State.coreRefs (s : State) : List CoreRef := s.cores.map fun e => ⟨e.1 / 128, e.1 % 128⟩

/-- Whether a core holds a line for a squashed bundle, as a copy or as an answer on its way, against a request that takes
write rights, or every right when it is exclusive (R167). -/
def Core.holdsLine (line : Nat) (exclusive : Bool) (c : Core) : Bool :=
  let taken := fun (l : L1Line) => decide (l.line = line) && (decide (l.right = .write) || (exclusive && decide (l.right = .read)))
  (c.l1.any fun l => taken l && decide (l.slots ≠ []))
    || c.l1req.any fun q => decide (q.slot ≠ prefSlot) && (match q.answer with
      | .line l => taken l
      | _ => false)

/-- Whether some core, other than the one that asks, holds a line for a squashed bundle: a request of another agent waits
until that bundle has issued or its task has halted (R167). -/
def State.lineHeld (s : State) (line : Nat) (exclusive : Bool) (asks : Option CoreRef := none) : Bool :=
  s.cores.any fun e => decide (asks ≠ some ⟨e.1 / 128, e.1 % 128⟩) && e.2.holdsLine line exclusive

/-- Whether an access of a run of HBM bytes must wait: a home is held (R239), or a line is, for a squashed bundle (R167). -/
def State.runHeld (s : State) (o n : Nat) (exclusive : Bool) : Bool :=
  (List.range ((o + n + 127) / 128 - lineOf o)).any fun i =>
    s.homeBusy ((lineOf o + i) * 128) || s.lineHeld (lineOf o + i) exclusive

/-- A copy on its way to a core, taken back by its home: the request is open again. -/
def L1Req.revoked (line : Nat) (exclusive : Bool) (q : L1Req) : L1Req :=
  match q.answer with
  | .line _ =>
    if q.line = line ∧ (q.right = .write ∨ (exclusive = true ∧ q.right = .read)) then { q with answer := .waiting } else q
  | _ => q

/-- A core gives a line back (R244, R258): a write right always, a read right when the request is
exclusive. Read-only lines stay (R170). -/
def State.giveBack (line : Nat) (exclusive : Bool) (s : State) (c : CoreRef) : State :=
  let s := if (s.core c).l1req = [] then s
    else s.modCore c fun k => { k with l1req := k.l1req.map (L1Req.revoked line exclusive) }
  match (s.core c).l1.find? fun l => decide (l.line = line) && !decide (l.right = .ro) with
  | none => s
  | some l =>
    if l.right = .write ∨ exclusive = true then
      (s.writeBack c l).modCore c fun k =>
        { k with l1 := k.l1.filter fun x => !(decide (x.line = line) && !decide (x.right = .ro)) }
    else s

/-- All other cores give a line back before its home serves a request. -/
def State.recall (s : State) (line : Nat) (exclusive : Bool) : State :=
  s.coreRefs.foldl (State.giveBack line exclusive) s

/-- The physical address of a module offset of this module (R20). -/
def State.physical (s : State) (o : Nat) : Nat := s.module.toNat * 2 ^ 42 + o

/-- The lines that n bytes from an offset touch. -/
def linesOf (o n : Nat) : List Nat := (List.range ((o + n + 127) / 128 - lineOf o)).map fun i => lineOf o + i

/-- Bytes of HBM from an offset, as their homes serve them to a reader with a key: the poison's cause and
address when a line is poisoned (R21, R334, R405). The reader's line by line view needs no recall. -/
def State.readHbm (s : State) (o n key : Nat) : Except Trap (List Byte) :=
  let lines := linesOf o n
  match lines.find? fun l => decide (s.poisonUnder (s.view l) key ≠ 0) with
  | some l => .error ⟨s.poisonUnder (s.view l) key, BitVec.ofNat 64 (s.physical (l * 128))⟩
  | none => .ok ((lines.flatMap fun l => (s.view l).data).drop (o % 128) |>.take n)

/-- A run of bytes written at a home under a key within one line (R334, R405). A part of a line that
cannot be read under the key leaves the rest of it unrelated bytes and the line poisoned. -/
def State.writeLine (s : State) (o key : Nat) (b : List Byte) : State :=
  let line := lineOf o
  let s := s.recall line true
  let m := s.lineMeta line
  if b.length = 128 then
    { s with mem := s.mem.setBytes o b }.modLine line fun m => { m with key := key, poison := 0 }
  else if m.key ≠ 0 ∧ s.sameKey m.key key = false then
    let s := { s with mem := s.mem.setBytes (line * 128) (s.freeBytes 128) }.tookFree 128
    { s with mem := s.mem.setBytes o b }.modLine line fun m => { m with key := key, poison := 0xA0 }
  else { s with mem := s.mem.setBytes o b }.modLine line fun m => { m with key := key }

/-- A run of bytes written in HBM, line by line; `fuel` bounds the number of lines. -/
def State.writeHbm (s : State) (o key : Nat) (b : List Byte) : Nat → State
  | 0 => s
  | fuel + 1 =>
    if b = [] then s
    else
      let n := 128 - o % 128
      (s.writeLine o key (b.take n)).writeHbm (o + n) key (b.drop n) fuel

/-- A run of bytes written in HBM under a key; writes under an absent key are discarded (R405). -/
def State.storeHbm (s : State) (o key : Nat) (b : List Byte) : State :=
  if s.hasKey key then s.writeHbm o key b (b.length / 128 + 2) else s

/-! ### Translation -/

/-- A page-table entry's fields (Table 11.2). -/
def pteBit (e i : Nat) : Bool := decide (e / 2 ^ i % 2 = 1)

/-- Whether an entry that points to the next table keeps Table 11.2: W, GEN and reserved bits zero, and
the 8 KiB alignment of the table. -/
def pointerOk (e : Nat) : Bool :=
  decide (e / 2 ^ 2 % 2 ^ 10 = 0) && decide (e / 2 ^ 48 = 0) && decide (e / 2 ^ 12 % 2 = 0)

/-- Whether a leaf entry keeps Table 11.2 for pages of 2^k bytes: reserved bits zero, the page aligned
and wholly within its module's HBM. -/
def leafOk (e k : Nat) : Bool :=
  decide (e / 2 ^ 3 % 2 = 0) && decide (e / 2 ^ 8 % 2 ^ 4 = 0) && decide (e / 2 ^ 48 = 0)
    && decide (e / 2 ^ 12 % 2 ^ (k - 12) = 0) && decide (e / 2 ^ 40 % 4 = 0)

/-- PA[47:12] of an entry as an address. -/
def ptePa (e : Nat) : Nat := e / 2 ^ 12 % 2 ^ 36 * 2 ^ 12

/-- A leaf entry as a translation (R232). -/
def leafEntry (job va e k : Nat) : TlbEntry :=
  ⟨job, va / 2 ^ k, decide (k = 31), ptePa e, pteBit e 2, e / 2 ^ 4 % 16⟩

/-! ### Requests to other modules (R20) -/

/-- Whether a rack port of a die has failed (Table 16.5). -/
def State.portFailed (s : State) (die l : Nat) : Bool := decide (((s.die die).links.get Link.reset l).st = 3)

/-- Whether a module can be reached by requests of a die: it is present, and a rack port is left (R20, R345). -/
def State.isPresent (s : State) (die m : Nat) : Bool :=
  (s.die die).gate.present.getLsbD m && !(s.portFailed die 2 && s.portFailed die 3)

/-- The next sequence number of a Gatehouse and home (R342). -/
def State.nextSeq (s : State) (die home : Nat) : Nat := (s.die die).gate.sendSeq.get 0 home

/-- The request ID of R265. -/
def requestId (module die seq : Nat) : Nat := module * 2 ^ 42 + die * 2 ^ 39 + seq

/-- The trap that a refused or abandoned request is to its task (R264, R265, R343, R234). -/
def replyTrap (va : W64) (q : RemoteReq) (status : Nat) : Option Trap :=
  match status with
  | 0 => none
  | 1 => some ⟨0x63, va⟩
  | 3 => some ⟨0x64, BitVec.ofNat 64 q.pa⟩
  | 4 => some ⟨0xA0, BitVec.ofNat 64 q.pa⟩
  | _ => some ⟨0x8B, BitVec.ofNat 64 q.id⟩

/-- The cause that stands for a walk that waits for an entry of another module, whose address is its INFO: the model's own
mark, which no record carries. -/
def walkCause : Nat := 0x100

/-- Whether a failed translation only waits for another module. -/
def Trap.isWalk (t : Trap) : Bool := decide (t.cause = walkCause)

/-- A walker's request for an entry, if one is on its way or answered. -/
def State.walkReply (s : State) (pa : Nat) : Option SentReq :=
  s.sent.find? fun x => decide (x.cmdTok = some walkTok) && decide (x.req.kind = 1) && decide (x.req.pa = pa)

/-- An entry of another module's table: what came back, or the mark of a walk that waits (R20, R235). -/
def State.farPte (s : State) (die pa : Nat) : Except Trap Nat :=
  if !s.isPresent die (paModule pa) then
    .error ⟨0x8A, BitVec.ofNat 64 (requestId s.module.toNat die (s.nextSeq die (paModule pa)))⟩
  else match (s.walkReply pa).bind fun x => x.reply.map fun rep => (x.req, rep) with
    | none => .error ⟨walkCause, BitVec.ofNat 64 pa⟩
    | some (q, rep) =>
      match replyTrap (BitVec.ofNat 64 pa) q rep.status with
      | some t => .error t
      | none => .ok (leNat (rep.data.take 8))

/-- One entry of a table, read as a physical access under the firmware key (R235, R405) by a walker of a die. A table that
is not in HBM is refused as R21 refuses an address. -/
def State.readPte (s : State) (die table i : Nat) : Except Trap Nat :=
  let pa := table + 8 * i
  if hbmSize ≤ paOffset pa then .error ⟨0x64, BitVec.ofNat 64 pa⟩
  else if paModule pa ≠ s.module.toNat then s.farPte die pa
  else (s.readHbm (paOffset pa) 8 fwKey).map leNat

/-- The walk of a virtual address from the root at TROOT (R230, R231): the leaf, or the cause with which
the walk fails. -/
def State.walk (s : State) (die root job va : Nat) : Except Trap TlbEntry := do
  let e ← s.readPte die root (va / 2 ^ 41 % 2 ^ 15)
  if !pteBit e 0 then .error ⟨0x60, BitVec.ofNat 64 va⟩
  else if pteBit e 1 || !pointerOk e then .error ⟨0x62, BitVec.ofNat 64 va⟩
  else
    let e ← s.readPte die (ptePa e) (va / 2 ^ 31 % 2 ^ 10)
    if !pteBit e 0 then .error ⟨0x60, BitVec.ofNat 64 va⟩
    else if pteBit e 1 then (if leafOk e 31 then .ok (leafEntry job va e 31) else .error ⟨0x62, BitVec.ofNat 64 va⟩)
    else if !pointerOk e then .error ⟨0x62, BitVec.ofNat 64 va⟩
    else
      let e ← s.readPte die (ptePa e) (va / 2 ^ 21 % 2 ^ 10)
      if !pteBit e 0 then .error ⟨0x60, BitVec.ofNat 64 va⟩
      else if pteBit e 1 && leafOk e 21 then .ok (leafEntry job va e 21)
      else .error ⟨0x62, BitVec.ofNat 64 va⟩

/-- Whether a cached translation covers an address of a job. -/
def TlbEntry.covers (e : TlbEntry) (job va : Nat) : Bool :=
  decide (e.job = job) && decide (va / 2 ^ (if e.big then 31 else 21) = e.page)

/-- The physical address an entry gives. -/
def TlbEntry.addr (e : TlbEntry) (va : Nat) : Nat := e.pa + va % 2 ^ (if e.big then 31 else 21)

/-- The entry that the n-th free choice takes from the caches of a core and its die, if it takes one: a
cached translation may be used, and need not (R232). -/
def cachedEntry (n job va : Nat) (core die : List TlbEntry) : Option TlbEntry :=
  ((core.find? fun e => e.covers job va).orElse fun _ => die.find? fun e => e.covers job va).filter fun _ => Config.useCached n

/-- Translation of a virtual address for an access of a core (R231, R232): `n` indexes the free choice
of a cached entry. A write through a leaf with W = 0 is write-protect. -/
def State.translate (s : State) (c : CoreRef) (n job va : Nat) (write : Bool) : Except Trap TlbEntry :=
  let e : Except Trap TlbEntry := match cachedEntry n job va (s.core c).tlb (s.die c.die).tlb with
    | some e => .ok e
    | none => s.walk c.die (s.die c.die).lodge.troot.toNat job va
  match e with
  | .ok e => if write && !e.w then .error ⟨0x61, BitVec.ofNat 64 va⟩ else .ok e
  | .error x => .error x

/-- A translation kept in the caches of a core and its die (R232), newest first. -/
def State.cacheTlb (s : State) (c : CoreRef) (e : TlbEntry) : State :=
  let add := fun (l : List TlbEntry) (n : Nat) => (e :: l.filter fun x => !decide (x = e)).take n
  (s.modCore c fun k => { k with tlb := add k.tlb 64 }).modDie c.die fun d => { d with tlb := add d.tlb 8192 }

end Sys2Proof.Machine
end

