-- ==== Sys2Proof/Machine/TaskOps.lean ====
section
/-!
DEFINITION. Operations on tasks that several steps share: tokens (R213 to R215), tile entries' ownership
(R175), the undo log of a region (R206), barriers (R272), ordered sets (R261), times and marks (R247,
R248, R251), halting (R282), the end of a task (R270) and KILL (R385).
-/

namespace Sys2Proof.Machine

/-! ### Tokens and commands -/

/-- Physical token of token n of a slot (R213). -/
def physToken (r : TaskRef) (n : Nat) : Nat := if isCompute r.core then 16 * r.slot + n else n

/-- Physical tile entry of entry n of a slot (R175). -/
def physTile (r : TaskRef) (n : Nat) : Nat := if isCompute r.core then 64 * r.slot + n else n

/-- Tokens a task names (R213). -/
def tokenCount (core : Nat) : Nat := if isCompute core then 16 else 64

/-- Tile entries a task names (R175). -/
def tileCount (core : Nat) : Nat := if isCompute core then 64 else 256

/-- Token n of a task. -/
def Task.token (t : Task) (n : Nat) : Token := t.tokens.get Token.free n

/-- Token n of a task replaced. -/
def Task.setToken (t : Task) (n : Nat) (k : Token) : Task := { t with tokens := Tbl.set Token.free t.tokens n k }

/-- The command under a physical token. -/
def Core.cmd (c : Core) (n : Nat) : Option Cmd := c.cmds.get none n

/-- The command under a physical token replaced. -/
def Core.setCmd (c : Core) (n : Nat) (x : Option Cmd) : Core := { c with cmds := Tbl.set none c.cmds n x }

/-- A binding of a slot's commands to a token resolved (R215): the commands bound to it are bound no more, and
remember a faulted binding. -/
def Cmd.resolve (slot tok : Nat) (faulted : Bool) (x : Cmd) : Cmd :=
  if x.slot = slot ∧ x.deps.contains tok = true then
    { x with
      deps := x.deps.filter fun d => !decide (d = tok)
      depFault := if faulted then x.depFault.orElse (fun _ => some tok) else x.depFault }
  else x

/-- A token's production ends (R214): DONE with its time, or FAULTED with its cause (0 for done). The
commands bound to it learn of it. -/
def State.endToken (s : State) (r : TaskRef) (tok cause : Nat) (tc : W64) : State :=
  let st := if cause = 0 then TokState.done else .faulted
  let s := s.modTask r fun t => t.setToken tok ⟨st, cause, tc⟩
  s.modCore r.coreRef fun c =>
    { c with cmds := Tbl.mapVals (Option.map (Cmd.resolve r.slot tok (decide (cause ≠ 0)))) c.cmds }

/-- Tile entry n of a core. -/
def Core.tile (c : Core) (n : Nat) : TileEntry := c.tiles.get TileEntry.undefined n

/-- Tile entry n of a core replaced. -/
def Core.setTile (c : Core) (n : Nat) (e : TileEntry) : Core := { c with tiles := Tbl.set TileEntry.undefined c.tiles n e }

/-- A DRAINING entry returns to EMPTY with ARRIVED 0 (Table 8.2). -/
def TileEntry.drained (e : TileEntry) : TileEntry :=
  if e.st = .draining then { e with st := .empty, arrived := 0 } else e

/-- The STT field of a copy command: valid, release and entry (Table 10.3). -/
def sttEntry (f : Tbl W64) : Option (Nat × Bool) :=
  let v := f.get 0 25
  if v.getLsbD 8 then some (v.toNat % 256, v.getLsbD 9) else none

/-- A command ends: a source entry it releases goes to EMPTY (R221), it leaves the buffer, and its token
ends (R214). -/
def State.endCmd (s : State) (c : CoreRef) (ptok cause : Nat) (tc : W64) : State :=
  match (s.core c).cmd ptok with
  | none => s
  | some x =>
    let r : TaskRef := ⟨c.die, c.core, x.slot⟩
    let s := match x.kind, sttEntry x.fields with
      | .cpy, some (e, true) | .gth, some (e, true) | .sct, some (e, true) =>
        s.modCore c fun k => k.setTile (physTile r e) (k.tile (physTile r e)).drained
      | _, _ => s
    let s := s.modCore c fun k => k.setCmd ptok none
    let n := if isCompute c.core then ptok % 16 else ptok
    s.endToken r n cause tc

/-- Whether a slot has a command waiting or running. -/
def Core.busySlot (c : Core) (slot : Nat) : Bool :=
  (c.cmds.any fun e => match e.2 with
    | some x => decide (x.slot = slot)
    | none => false)
    || c.mcmds.any fun m => match m with
      | .latch k _ _ _ => decide (k = slot)
      | .token k _ => decide (k = slot)

/-! ### Times -/

/-- The wheel time of R247: the smallest time at or above a floor that stands at a position. -/
def wheelTime (pos : Nat) (floor : W64) : W64 :=
  floor + BitVec.ofNat 64 ((pos + 4096 - floor.toNat % 4096) % 4096)

/-- The larger of two times. -/
def tmax (a b : W64) : W64 := if a < b then b else a

/-- The scope floor of an agent on a core (R248): the mark of its scope. -/
def State.scopeFloor (s : State) (c : CoreRef) (scope : Nat) : W64 :=
  match scope with
  | 0 => (s.core c).hwm
  | 1 => (s.die c.die).hwm
  | _ => s.hwm

/-- A write or atomic of a core performed at a time raises the marks of its scopes (R248). -/
def State.mark (s : State) (c : CoreRef) (t : W64) : State :=
  let s := s.modCore c fun k => { k with hwm := tmax k.hwm t }
  let s := s.modDie c.die fun d => { d with hwm := tmax d.hwm t }
  { s with hwm := tmax s.hwm t }

/-- A write of another agent of a die performed at a time (R248). -/
def State.markDie (s : State) (die : Nat) (t : W64) : State :=
  let s := s.modDie die fun d => { d with hwm := tmax d.hwm t }
  { s with hwm := tmax s.hwm t }

/-- A task's time raised by an observation (R251). -/
def Task.observe (t : Task) (tc : W64) : Task := { t with time := tmax t.time tc }

/-! ### The undo log -/

/-- Bytes an item charges to the log (R206). -/
def LogItem.charge : LogItem → Nat
  | .vreg _ _ => 4096
  | .bytes _ old => old.length

/-- Whether two items are of one place. -/
def LogItem.same : LogItem → LogItem → Bool
  | .vreg a _, .vreg b _ => decide (a = b)
  | .bytes a _, .bytes b _ => decide (a = b)
  | _, _ => false

/-- A region that has passed the log's size or its bundles becomes unprotected, and the log is freed
(R206). -/
def Region.limit (g : Region) : Region :=
  if g.charge > 65536 ∨ g.bundles ≥ 4096 then { g with guarded := false, items := [] } else g

/-- The old contents of an item logged at its first write in a protected region, and the write kept for
the signature (R206, R208). -/
def Region.log (g : Region) (x : LogItem) (w : Nat) : Region :=
  if !g.guarded then g
  else if g.items.any fun y => y.same x then { g with writes := g.writes ++ [w] }
  else { g with items := x :: g.items, charge := g.charge + x.charge, writes := g.writes ++ [w] }.limit

/-- An item logged for the region of a slot, if one is open. -/
def State.logFor (s : State) (c : CoreRef) (slot : Nat) (x : LogItem) (w : Nat) : State :=
  match (s.core c).regions.get none slot with
  | none => s
  | some g => s.modCore c fun k => { k with regions := Tbl.set none k.regions slot (some (g.log x w)) }

/-- Whether the log takes a granule at an address for a slot: of an operand slot only one that it holds (R206). -/
def Core.logs (k : Core) (c : CoreRef) (slot a : Nat) : Bool :=
  if operandBase c ≤ a ∧ a < operandBase c + 0x80000 then
    decide (k.slotOwner.get none ((a - operandBase c) / 0x8000) = some slot)
  else true

/-- The 128-byte granules that a run of bytes touches, logged (R206). -/
def State.logBytes (s : State) (c : CoreRef) (slot a : Nat) (b : List Byte) : State :=
  (List.range ((a + b.length + 127) / 128 - a / 128)).foldl
    (fun s i =>
      let g := (a / 128 + i) * 128
      if (s.core c).logs c slot g then s.logFor c slot (.bytes g (s.mem.bytes g 128)) (leNat b) else s) s

/-- Bytes written in a store of a core for a slot, logged in its region; what a command issued outside the region writes is
not the region's (R205). -/
def State.writeLocal (s : State) (c : CoreRef) (slot a : Nat) (b : List Byte) (within : Bool := true) : State :=
  let s := if within then s.logBytes c slot a b else s
  { s with mem := s.mem.setBytes a b }

/-! ### Barriers -/

/-- Barrier b of a die. -/
def Die.barrier (d : Die) (b : Nat) : Barrier := d.barriers.get Barrier.reset b

/-- Barrier b of a die replaced. -/
def Die.setBarrier (d : Die) (b : Nat) (x : Barrier) : Die := { d with barriers := Tbl.set Barrier.reset d.barriers b x }

/-- A phase completes when ARRIVED = COUNT > 0 (R272); its times stand for the observers (R251). -/
def Barrier.complete (b : Barrier) : Barrier :=
  if 0 < b.count ∧ b.arrived = b.count then
    { b with phase := !b.phase, arrived := 0, doneTc := b.tc, tc := 0 }
  else b

/-- A task that waits on barrier b for another phase than the one it has is made ready, its time raised
(R272, R251). -/
def Task.wake (b : Nat) (x : Barrier) (t : Task) : Task :=
  match t.status with
  | .waiting n p =>
    if t.bars[n]? = some b ∧ x.phase ≠ p then { t.observe x.doneTc with status := .ready } else t
  | _ => t

/-- The waiters of a barrier on its die. -/
def State.wakeAll (s : State) (die b : Nat) : State :=
  let x := (s.die die).barrier b
  (s.coreRefs.filter fun c => decide (c.die = die)).foldl
    (fun s c => s.modCore c fun k => { k with tasks := Tbl.mapVals (Option.map (Task.wake b x)) k.tasks }) s

/-- A barrier changed; a phase that is thereby complete completes, and its waiters are made ready (R272). -/
def State.modBarrier (s : State) (die b : Nat) (f : Barrier → Barrier) : State :=
  (s.modDie die fun d => d.setBarrier b (f (d.barrier b)).complete).wakeAll die b

/-- A participant leaves a group's barrier at its task's end; the last one returns it to the die (R275). -/
def Barrier.leave (b : Barrier) : Barrier :=
  let b := { b with count := b.count - 1 }
  if b.count = 0 then { b with alloc := false } else b

/-! ### Ordered sets -/

/-- A set of a launch (R260). -/
def OrdSet.none : OrdSet := ⟨0, [], [], 0⟩

/-- A task's open set is closed (R261). -/
def State.closeSet (s : State) (r : TaskRef) : State :=
  let t := s.task r
  match t.openSet with
  | none => s
  | some o =>
    let s := s.modLaunch t.launch fun l =>
      let x := l.sets.get OrdSet.none o
      { l with sets := Tbl.set OrdSet.none l.sets o { x with closed := x.closed ++ [t.lidx.toNat] } }
    s.modTask r fun t => { t with openSet := none }

/-! ### Halting and ending -/

/-- A task halts at a bundle boundary (R282): its region closes (R205) and a pending pre-emption is
acknowledged. Its loads under way go on. -/
def State.haltTask (s : State) (r : TaskRef) : State :=
  (s.modTask r fun t => { t with halted := true, preempt := false }).modCore r.coreRef fun c => c.slotHalted r.slot

/-- The entries of an ended task: V := 0 and EMPTY (Table 8.2). -/
def Core.undefineTiles (c : Core) (r : TaskRef) : Core :=
  (List.range (tileCount r.core)).foldl
    (fun c n =>
      let e := c.tile (physTile r n)
      c.setTile (physTile r n) { e with v := false, st := .empty }) c

/-- The task's registers with its vector block, predicates, loop stack, transfer and queues released (R120, R132, R270,
R323). What its last bundle has outstanding is still performed. -/
def Task.released (t : Task) : Task :=
  { t with
    status := .ending, vbase := 0, vregs := 0, preempt := false, ctl := .none, pend := [], loops := [], shadows := [], delay := 0, target := 0,
    sregs := [], preds := 1, qregs := [], fq0 := InQueue.unbound, fq1 := InQueue.unbound }

/-- The end of a task (R120, R270): an open set closes (R261), its registers are released, its tile
entries become undefined, its region closes, and it leaves its group's barriers (R275). Its slot frees
later, at SLOT_RELEASE. -/
def State.endTaskAt (s : State) (r : TaskRef) : State :=
  let t := s.task r
  let s := s.closeSet r
  let s := s.modTask r Task.released
  let s := (s.modCore r.coreRef fun c => (c.undefineTiles r).slotEnded r.slot).dropLoads r none
  let s := t.bars.foldl (fun s b => s.modBarrier r.die b Barrier.leave) s
  s.modLaunch t.launch fun l => { l with ended := l.ended + 1 }

/-- The lowest unit of a run that is not complete. -/
def TileRun.lowest (g : TileRun) : Option Nat := (List.range g.units).find? fun u => !g.done.contains u

/-- A tile instruction asked to abort (R307): the reported unit is the lowest that is not complete, at the issuing level.
With every unit complete nothing changes; one that has not started ends at its start. -/
def TileRun.abort (started : Bool) (g : TileRun) : TileRun :=
  if g.aborted ∨ (g.units ≠ 0 ∧ g.lowest = none) then g
  else if started then
    { g with aborted := true, held := [], fault := some ⟨g.lowest.getD 0, 0x47, (g.block.headD 0).toNat, none⟩ }
  else { g with aborted := true }

/-- A command stopped by KILL (R385): a tile instruction that runs is to end as TABORT ends it, every
other command is gone with its token FAULTED, tile-aborted. -/
def State.killCmd (c : CoreRef) (slot : Nat) (s : State) (ptok : Nat) : State :=
  match (s.core c).cmd ptok with
  | none => s
  | some x =>
    if x.slot ≠ slot then s
    else match x.kind, x.run with
      | .tile _ _ _, some g => s.modCore c fun k => k.setCmd ptok (some { x with run := some (g.abort x.started) })
      | _, _ => s.endCmd c ptok 0x47 0

/-- KILL of one task (R385): its commands stop, and it ends as R270 gives. -/
def State.killTask (s : State) (r : TaskRef) : State :=
  match s.task? r with
  | none => s
  | some t =>
    let s := (s.modLaunch t.launch fun l => { l with killed := true })
    let s := (List.range 64).foldl (State.killCmd r.coreRef r.slot) s
    let s := s.modCore r.coreRef fun c =>
      { c with mcmds := c.mcmds.filter fun m => match m with
          | .latch k _ _ _ => !decide (k = r.slot)
          | .token k _ => !decide (k = r.slot) }
    s.endTaskAt r

/-- The tasks a target operand names on a die (Table 13.3): core, slot, or every slot with ALL. -/
def targetTasks (die : Nat) (v : W64) : List TaskRef :=
  let core := v.toNat % 128
  if v.getLsbD 9 then (List.range 4).map fun k => ⟨die, core, k⟩ else [⟨die, core, v.toNat / 2 ^ 7 % 4⟩]

/-- A write of KILL (R385): the named tasks that are there and have not ended are ended. -/
def State.kill (s : State) (die : Nat) (target : W64) : State :=
  (targetTasks die target).foldl
    (fun s r => if (s.task? r).isSome ∧ (s.task r).status ≠ .ending then s.killTask r else s) s

end Sys2Proof.Machine
end

