-- ==== Sys2Proof/Machine/Issue.lean ====
section
/-!
DEFINITION. The issue of a bundle's slots and its boundary: traps and stalls in the order of R35 and
R45, the charge of BUDGET (R118), loop closes and the choice of the next bundle (R112, R113), the landing
of results (R42, R43), and what the bundle leaves to its boundary (R120 to R126, R274, R283).
-/

namespace Sys2Proof.Machine

/-! ### Landing -/

/-- A write of a lodge register taking effect (R385): KILL ends tasks, EQHEAD frees records. -/
def State.writeLodge (s : State) (die num : Nat) (v : W64) : State :=
  if num = 0x811 then s.kill die v
  else if num = 0x808 then s.modDie die fun d => d.writeEqhead v
  else s.modLodge die fun l => l.write num v

/-- A vector result lands in its physical register (R114, R138), its old contents logged (R206). Of two results of one
register that land together the later stands in its own lanes, and the earlier in the others: DESIGN CHOICE,
notes/assumptions/102. -/
def State.landVec (s : State) (r : TaskRef) (pos : Nat) (mask : Lanes) (v : VReg) : State :=
  let p := (s.task r).vbase + pos
  let c := s.core r.coreRef
  (s.logFor r.coreRef r.slot (.vreg p (c.vreg p)) (leNat (bytesOf v))).modCore r.coreRef fun c => c.setVreg p mask v

/-- The value of a result becomes visible. -/
def State.landVal (s : State) (r : TaskRef) (v : PVal) : State :=
  match v with
  | .scalar d x => s.modTask r fun t => t.setSreg d x
  | .pred p x => s.modTask r fun t => t.setPred p x
  | .preds x => s.modTask r fun t => { t with preds := predsWord x }
  | .vec pos mask x => s.landVec r pos mask x
  | .lanes pos mask x => s.modTask r fun t => t.setLanes pos mask x
  | .target n x => s.modTask r fun t => { t with tb := Tbl.set 0 t.tb n x }
  | .special num x =>
    if 0x800 ≤ num then s.writeLodge r.die num x
    else s.modTask r fun t => t.writeSpecial (isLodge r.core) num x
  | .flagsOnly => s

/-- A result becomes visible: its value, and its flags in FSTAT (R42, R73). -/
def State.landOne (r : TaskRef) (s : State) (p : Pending) : State :=
  (s.landVal r p.val).modTask r fun t => t.orFlags p.flags

/-- One bundle has issued: results in flight age by one, and those due become visible in the order of
their issue, so that the later-issued stands (R42, R43). -/
def State.land (s : State) (r : TaskRef) : State :=
  let aged := (s.task r).pend.map fun p => { p with left := p.left - 1 }
  let s := s.modTask r fun t => { t with pend := aged.filter fun p => decide (p.left ≠ 0) }
  (aged.filter fun p => decide (p.left = 0)).foldl (State.landOne r) s

/-! ### Loop closes and the next bundle -/

/-- The close cascade of R112 at address a over the live levels, innermost first: the levels that stay,
how many closing levels rotate, and where a level iterates. -/
def closeLoops (a : W32) : List LoopLevel → Nat → List LoopLevel × Nat × Option W32
  | [], k => ([], k, none)
  | l :: rest, k =>
    if l.le ≠ a then (l :: rest, k, none)
    else
      let c := l.pending.getD l.lc
      let k := if l.rot then k + 1 else k
      if 1 < c then ({ l with lc := c - 1, li := l.li + 1, pending := none } :: rest, k, some l.lb)
      else closeLoops a rest k

/-- The stack and rotating bases of a task after the closes at its bundle (R112, R114), and where a level
iterates. -/
def Task.closed (t : Task) : Task × Option W32 :=
  let x := closeLoops t.pc t.loops 0
  ({ t with
      loops := x.1
      rbaseV := t.rbaseV - BitVec.ofNat 4 x.2.1
      rbaseQ := t.rbaseQ - BitVec.ofNat 3 x.2.1 }, x.2.2)

/-- The address after the bundle at an address. -/
def State.after (s : State) (t : Task) (a : W32) : W32 := a + BitVec.ofNat 32 (s.sizeAt t a.toNat)

/-- The address of the next bundle (R113): `t0` is the task as its bundle issued, `t` after its slots,
`it` where a close iterates and `units` the bundle's size. -/
def State.nextPc (s : State) (t0 t : Task) (it : Option W32) (units : Nat) : W32 :=
  if t0.delay = 1 then t0.target
  else match t.ctl with
    | .afterEnd e => s.after t e
    | c =>
      match it with
      | some b => b
      | none =>
        match c with
        | .skip e => s.after t e
        | _ => t.pc + BitVec.ofNat 32 units

/-- The transfer state after a bundle (R109). -/
def delayAfter (t0 t : Task) : Nat := if t.ctl = .taken then 2 else t0.delay - 1

/-! ### Charges -/

/-- BUDGET after the charge of one bundle (R118). -/
def chargedBudget (b : W64) : W64 := if b = BitVec.allOnes 64 then b else b - 1

/-- The charge of an issued bundle (R118, R91) and the budget warning (R119). A lodge core's BUDGET is
unlimited. -/
def State.charge (s : State) (r : TaskRef) : State :=
  let t := s.task r
  let b := if isLodge r.core then t.budget else chargedBudget t.budget
  let warn := decide (b ≠ t.budget) && decide (t.bwarn ≠ 0) && decide (b = t.bwarn)
  let s := s.modTask r fun t => { t with budget := b, bcnt := t.bcnt + 1, bwarn := if warn then 0 else t.bwarn }
  if warn then s.postEvent r 0xC1 b else s

/-- Whether a task's BUDGET lets no bundle issue (R118). -/
def State.spent (s : State) (r : TaskRef) : Bool := !isLodge r.core && decide ((s.task r).budget = 0)

/-! ### Near-memory drain -/

/-- The bytes of the steps a PHASE moves (R172): base offset and length in the core's near memory. -/
def Task.movingRange (t : Task) : Nat × Nat := ((t.wbase + t.moveFirst) * stepBytes, t.moveLen * stepBytes)

/-- Whether the moving range of a PHASE is gained: it lies in the window (R172). -/
def Task.gains (t : Task) : Bool := decide (t.moveFirst + t.moveLen ≤ t.wsize)

/-- The bytes of the moving range of a task made zero. -/
def State.wipeMoving (s : State) (r : TaskRef) : State :=
  let t := s.task r
  let lo := nearBase r.coreRef + t.movingRange.1
  { s with mem := s.mem.filter fun e => !(decide (lo ≤ e.1) && decide (e.1 < lo + t.movingRange.2)) }

/-- The drain of a PHASE finishes (R173): a gained range is zeroed. A released one was discarded when it joined the L1
region. -/
def State.drain (s : State) (r : TaskRef) : State :=
  let t := s.task r
  if !t.draining then s
  else (if t.gains then s.wipeMoving r else s).modTask r fun t => { t with draining := false }

/-- The bar of a PHASE counts an issued bundle (R174); the drain has ended before the bar closes. -/
def State.countBar (s : State) (r : TaskRef) (before : Nat) : State :=
  if before = 0 then s
  else
    let s := if before = 1 then s.drain r else s
    s.modTask r fun t => { t with barLeft := before - 1 }

/-! ### Regions -/

/-- The tile entries of a slot. -/
def Core.slotTiles (c : Core) (r : TaskRef) : List TileEntry :=
  (List.range (tileCount r.core)).map fun n => c.tile (physTile r n)

/-- A checkpoint region opens after a CKPT bundle at an address (R126, R205). It is protected when no other
region of the core holds the log (R206). -/
def State.openRegion (s : State) (r : TaskRef) (addr : W32) : State :=
  let c := s.core r.coreRef
  let log := c.regions.any fun e => match e.2 with
    | some x => x.guarded && (!x.closed || c.busyInside e.1)
    | none => false
  let g : Region :=
    { saved := { s.task r with ctl := .none }, tiles := c.slotTiles r, addr := addr, items := [], charge := 0,
      bundles := 0, guarded := !log, writes := [], cycles := 0, made := [], closed := false }
  s.modCore r.coreRef fun c => { c with regions := Tbl.set none c.regions r.slot (some g) }

/-- A bundle issued within an open region is counted (R206), and one of a rerun taken off it (R208). -/
def Core.countRegion (slot : Nat) (c : Core) : Core :=
  let c := match c.regions.get none slot with
    | some g => { c with regions := Tbl.set none c.regions slot (some { g with bundles := g.bundles + 1 }.limit) }
    | none => c
  match c.rerun with
  | some x => if x.slot = slot then { c with rerun := some { x with left := x.left - 1 } } else c
  | none => c

/-! ### The boundary -/

/-- SYS of the bundle at an address, at its boundary (R122): the event carries the code and both values, s_a as its INFO, and the task halts; of a
lodge itself it is a double trap, whatever EMASK is (R384). DEDUCED: notes/assumptions/29. -/
def State.sysAt (s : State) (r : TaskRef) (pc : W32) (code : Nat) (a b : W64) : State :=
  if isLodge r.core then s.doubleTrap r pc 0xC0 2
  else (s.postEvent r 0xC0 a (some (code, b))).haltTask r

/-- WAIT at its boundary (R274): with the phase as expected the task leaves the ready set; otherwise its
time takes that of the completed phase (R251). -/
def State.waitAt (s : State) (r : TaskRef) (n : Nat) (parity : Bool) : State :=
  let b := (s.die r.die).barrier ((s.task r).bars.getD n 0)
  if b.phase = parity then s.modTask r fun t => { t with status := .waiting n parity }
  else s.modTask r fun t => t.observe b.doneTc

/-- What the bundle's class-010 slot leaves to the boundary. -/
def State.boundary (s : State) (r : TaskRef) (addr : W32) (c : Ctl) : State :=
  match c with
  | .leave => s.endTaskAt r
  | .sys code a b => s.sysAt r addr code a b
  | .offer => s.modCore r.coreRef fun k => { k with yielded := true }
  | .wait n p => s.waitAt r n p
  | .mark => s.openRegion r addr
  | .back => s.eretEntry r
  | _ => s

/-- A pending pre-emption is taken at the boundary (R283), once no region of the core runs again (R208). -/
def State.preemptAt (s : State) (r : TaskRef) : State :=
  if (s.task r).preempt && (s.core r.coreRef).rerun.isNone then s.haltTask r else s

/-- The bundle has issued: `s0` is the state in which it issued, `s` the state after its slots. -/
def State.advance (s0 s : State) (units : Nat) (q0 q1 : Bool) : State :=
  let r := s.cur
  let t0 := s0.task r
  let s := s.charge r
  let t := s.task r
  let x := t.closed
  let pc := s.nextPc t0 x.1 x.2 units
  let delay := delayAfter t0 t
  let s := s.setTask r (popTaken q0 q1
    { x.1 with pc := pc, delay := delay, target := if delay = 0 then 0 else x.1.target, ctl := .none })
  let s := s.land r
  let s := s.countBar r t0.barLeft
  let s := s.modCore r.coreRef (Core.countRegion r.slot)
  (s.boundary r t0.pc t.ctl).preemptAt r

/-! ### The slots of a bundle -/

/-- What became of a bundle at its issue point. -/
inductive Attempt where
  | issued (s : State)
  | trapped (s : State)
  | held (s : State)

/-- The state an attempt leaves. -/
def Attempt.state : Attempt → State
  | .issued s => s
  | .trapped s => s
  | .held s => s

/-- Slots of a bundle with their positions. -/
abbrev Slots := List (Nat × SlotSem)

/-- The state in which the slots of a bundle are checked and issue: the task's time has risen by 1
(R243), and a bundle with a CKPT stands outside every region (R205). -/
def State.atIssue (s : State) (l : Slots) : State :=
  let s1 := s.modMe fun t => { t with time := t.time + 1 }
  if l.any fun e => e.2.mark && e.2.acts s then s1.modHere fun c => { c with regions := Tbl.erase c.regions s.cur.slot }
  else s1

/-- The state with the issuing task's time as high as the bundle's loads raise it (R244). -/
def State.atPeak (s1 : State) (l : Slots) : State :=
  s1.modMe fun t => { t with time := (l.filter fun e => e.2.acts s1).foldl (fun a e => tmax a (e.2.peak s1)) t.time }

/-- What the stalled slots of a bundle start (R45, R167): none when no slot stalls. -/
def stallAll (l : Slots) (s1 s : State) : Option State :=
  l.foldl (fun a e => match e.2.stall e.1 (s1.atPeak l) (a.getD s) with
    | some s' => some s'
    | none => a) none

/-- The slots in the order of their memory accesses: every load, then every store (R166). -/
def Slots.inOrder (l : Slots) : Slots :=
  l.filter (fun e => !e.2.late) ++ l.filter (fun e => e.2.late)

/-- A decoded bundle at its issue point (R35, R45): illegal-instruction traps, lowest slot first, then
privileged-instruction traps, then the hold of a completion-latency operation and the stalls, then
execution traps; otherwise it issues whole. -/
def issueSems (l : Slots) (units : Nat) (s : State) : Attempt :=
  match l.find? fun e => e.2.isIllegal s with
  | some e => .trapped (s.takeTrap s.cur ⟨0x02, BitVec.ofNat 64 e.1⟩)
  | none =>
    match l.find? fun e => e.2.isDenied s with
    | some e => .trapped (s.takeTrap s.cur ⟨0x03, BitVec.ofNat 64 e.1⟩)
    | none =>
      if s.me.holds ≠ [] then .held s
      else
        let s1 := s.atIssue l
        match stallAll l s1 s with
        | some s' => .held s'
        | none =>
          match l.findSome? fun e => e.2.execTrap e.1 s1 with
          | some t => .trapped (s.takeTrap s.cur t)
          | none =>
            .issued (State.advance s1 (l.inOrder.foldl (fun s e => e.2.apply s1 s) s1) units
              (l.any fun e => e.2.takes s1 0) (l.any fun e => e.2.takes s1 1))

/-- The issue of a bundle of one slot by the issuing task: budget-exhausted first (R118). -/
def issueOne (m : SlotSem) (s : State) : State :=
  if s.spent s.cur then s.takeTrap s.cur ⟨0x08, 0⟩ else (issueSems [(0, m)] 1 s).state

/-- An instruction of the issuing task as a step: a bundle in which it stands alone beside NOPs. -/
def issueSlot (m : SlotSem) (s : State) : Host.Outcome State Fault Refusal := .next (issueOne m s)

end Sys2Proof.Machine
end

