-- ==== Sys2Proof/Machine/Remote.lean ====
section
/-!
DEFINITION. Requests that leave the module (R264, R265, R338, R341, R342): their payload and cell
(Tables 16.1 and 16.4), the port by which they leave, and the requester's record of what is outstanding.
-/

namespace Sys2Proof.Machine

/-- Router number of the Gatehouse router (9, 10) (R339, R333). -/
def gateRouter : Nat := 9 * 12 + 10

/-- Pavilion of a die by router number. -/
def Die.pav (d : Die) (router : Nat) : Pavilion := d.pavs.get Pavilion.reset router

/-- A Pavilion of a die changed. -/
def State.modPav (s : State) (die router : Nat) (f : Pavilion → Pavilion) : State :=
  s.modDie die fun d => { d with pavs := Tbl.set Pavilion.reset d.pavs router (f (d.pav router)) }

/-- A port of a router. -/
def Pavilion.port (p : Pavilion) (n : Nat) : Port := p.ports.get Port.empty n

/-- A port of a router changed. -/
def Pavilion.modPort (p : Pavilion) (n : Nat) (f : Port → Port) : Pavilion :=
  { p with ports := Tbl.set Port.empty p.ports n (f (p.port n)) }

/-- A cell put in the output queue of a port, from an input port of its router: the local one unless another is named
(R336). -/
def State.output (s : State) (die router port : Nat) (c : Cell) (inp : Nat := 4) : State :=
  s.modPav die router fun p => p.modPort port fun q => { q with out := q.out ++ [(inp, c)] }

/-- The Gatehouse of a die changed. -/
def State.modGate (s : State) (die : Nat) (f : Gatehouse → Gatehouse) : State :=
  s.modDie die fun d => { d with gate := f d.gate }

/-- The modules of a PRESENT mask in ascending order. -/
def presentList (mask : W64) : List Nat := (List.range 64).filter fun m => mask.getLsbD m

/-- Steps in ascending order of the rack ring from one module to another (R338). -/
def ringSteps (mask : W64) (a b : Nat) : Nat :=
  let l := presentList mask
  (l.idxOf b + l.length - l.idxOf a) % l.length

/-- The rack port by which a cell leaves for a module: the shorter direction, ties ascending (R338). -/
def rackPort (mask : W64) (a b : Nat) : Nat :=
  let n := (presentList mask).length
  if 2 * ringSteps mask a b ≤ n then 6 else 7

/-- The rack port by which a cell of a die leaves for a module: routing avoids a failed one (R338, R345). -/
def State.portFor (s : State) (die m : Nat) : Nat :=
  let p := rackPort (s.die die).gate.present s.module.toNat m
  if s.portFailed die (p - 4) then 13 - p else p

/-- A flag at a bit position. -/
def bitAt (b : Bool) (n : Nat) : Nat := if b then 2 ^ n else 0

/-- Zeros up to a length. -/
def padTo (n : Nat) (l : List Byte) : List Byte := l ++ List.replicate (n - l.length) 0

/-- A run of bytes cut or filled with zeros to n bytes. -/
def exactly (n : Nat) (b : List Byte) : List Byte := (padTo n b).take n

/-- Bytes of a list as a number. -/
def bytesAt (b : List Byte) (off n : Nat) : Nat := leNat ((b.drop off).take n)

/-- The payload of a request (Table 16.4). -/
def reqPayload (q : RemoteReq) : List Byte :=
  leBytes 6 q.pa
    ++ leBytes 1 (q.gen + q.lgSize * 2 ^ 4)
    ++ leBytes 1 (q.aop + bitAt q.wide 4 + bitAt q.uns 5 + bitAt q.isFadd 6 + bitAt q.faddHi 7)
    ++ leBytes 8 q.id ++ leBytes 8 q.time ++ leBytes 8 q.operand.toNat ++ leBytes 8 q.newVal.toNat
    ++ List.replicate 24 0 ++ padTo 64 q.data

/-- The payload of a reply (Table 16.4). -/
def repPayload (r : RemoteRep) : List Byte :=
  leBytes 1 r.status ++ List.replicate 7 0 ++ leBytes 8 r.id ++ leBytes 8 r.time ++ List.replicate 40 0
    ++ padTo 64 r.data

/-- ROUTE of a cell for a Gatehouse of a module (R333, R338). -/
def gateRoute (module die : Nat) : Nat := module + die * 2 ^ 6 + gateRouter * 2 ^ 9

/-- A routed cell (Table 16.1): ROUTE[19:0] in FLOW and ROUTE[35:20] in RANK. -/
def routedCell (typ route job : Nat) (payload : List Byte) : Cell :=
  { typ := typ, flow := route % 2 ^ 20, job := job, rank := route / 2 ^ 20 % 2 ^ 16, cidx := 0, psn := false,
    circ := false, payload := payload }

/-- The cell of a request (R338, R341). -/
def reqCell (q : RemoteReq) (home die : Nat) : Cell := routedCell q.kind (gateRoute home die) q.job (reqPayload q)

/-- A request sent once more out of its Gatehouse (R265). -/
def State.transmit (s : State) (die home : Nat) (q : RemoteReq) : State :=
  s.output die gateRouter (s.portFor die home) (reqCell q home die)

/-- A new request of a task or of a command of its core: it takes the next sequence number and leaves by
its die's Gatehouse (R338, R341, R342). The request's `id` is filled here. -/
def State.sendReq (s : State) (r : TaskRef) (tok : Option Nat) (home : Nat) (q : RemoteReq) : State × Nat :=
  let seq := s.nextSeq r.die home
  let q := { q with id := requestId s.module.toNat r.die seq }
  let s := s.modGate r.die fun g => { g with sendSeq := Tbl.set 0 g.sendSeq home ((seq + 1) % 2 ^ 32) }
  let s := { s with sent := s.sent ++ [(⟨r.die, q, home, 1, r, tok, none⟩ : SentReq)] }
  (s.transmit r.die home q, q.id)

/-- The reply status that stands for a request abandoned after its eighth resend (R265): the model's own
mark, which no cell carries. -/
def repAbandoned : Nat := 5

/-- A load request of log2 size n (R341). -/
def loadReq (job pa gen n time : Nat) : RemoteReq :=
  { kind := 1, job := job, pa := pa, gen := gen, lgSize := n, aop := 0, wide := false, uns := false, isFadd := false,
    faddHi := false, isCas := false, id := 0, time := time, operand := 0, newVal := 0, data := [] }

/-- A store request of some bytes, a power of two in number up to 64 (R341). -/
def storeReq (job pa gen time : Nat) (data : List Byte) : RemoteReq :=
  { kind := 2, job := job, pa := pa, gen := gen, lgSize := Nat.log2 data.length, aop := 0, wide := false, uns := false,
    isFadd := false, faddHi := false, isCas := false, id := 0, time := time, operand := 0, newVal := 0, data := data }

/-- The request for a page-table entry of another module that a failed walk names, sent for a task unless it is on its way
(R20, R235), under the firmware key (R405). -/
def State.askWalk (s : State) (r : TaskRef) (t : Trap) : State :=
  let pa := t.info.toNat
  if (s.walkReply pa).isSome then s
  else (s.sendReq r (some walkTok) (paModule pa) { loadReq 0 pa 0 3 (s.task r).time.toNat with phys := true }).1

/-- A load that a task or a command has sent for an address, if it is still held. -/
def State.sentLoad (s : State) (r : TaskRef) (tok : Option Nat) (pa n : Nat) : Option SentReq :=
  s.sent.find? fun x =>
    decide (x.task = r) && decide (x.cmdTok = tok) && decide (x.req.kind = 1) && decide (x.req.pa = pa)
      && decide (x.req.lgSize = n)

end Sys2Proof.Machine
end

