-- ==== Sys2Proof/Machine/Access.lean ====
section
/-!
DEFINITION. Task accesses to memory (R160, R164 to R170, R230 to R234, R242 to R245, R264): their checks,
the lines and requests they wait for, the bytes they read and write, and their logical times.
-/

namespace Sys2Proof.Machine

/-- One access of a slot: an effective address and its size in bytes. -/
structure Row where
  ea : W64
  size : Nat

/-- Where a contiguous part of an access lies. -/
inductive Piece where
  /-- Near memory of the core, at a module offset. -/
  | near (addr n : Nat)
  /-- HBM of this module, with the leaf's generation. -/
  | home (o n gen : Nat)
  /-- HBM of another module, of at most 64 bytes (R341). -/
  | far (va : W64) (pa n gen : Nat)
  deriving DecidableEq, Repr

/-- A row's parts, with the translation they came from. -/
structure Plan where
  parts : List Piece
  entry : Option TlbEntry

/-- Whether an effective address names the scratchpad (R160). -/
def isScratch (ea : W64) : Bool := ea.getLsbD 63

/-- Bytes of a task's window. -/
def Task.windowBytes (t : Task) : Nat := t.wsize * stepBytes

/-- Whether a run of window bytes touches the moving range of an open bar (R174). -/
def Task.moving (t : Task) (off n : Nat) : Bool :=
  decide (0 < t.barLeft) && decide (off < (t.moveFirst + t.moveLen) * stepBytes) && decide (t.moveFirst * stepBytes < off + n)

/-- Checks 1 to 3 of R160 for one row. -/
def Task.rowTrap (t : Task) (r : Row) : Option Trap :=
  let off := r.ea.toNat % 2 ^ 22
  if isScratch r.ea && (decide (r.ea.toNat / 2 ^ 22 % 2 ^ 41 ≠ 0) || decide (t.windowBytes < off + r.size)) then
    some ⟨0x20, r.ea⟩
  else if !isScratch r.ea && decide (r.ea.toNat / 2 ^ 56 ≠ 0) then some ⟨0x20, r.ea⟩
  else if r.ea.toNat % r.size ≠ 0 then some ⟨0x21, r.ea⟩
  else if isScratch r.ea && t.moving off r.size then some ⟨0x22, r.ea⟩
  else none

/-- The parts of a run of remote bytes, of at most 64 each (R341). -/
def farParts (va pa gen : Nat) (n : Nat) : List Piece :=
  (List.range ((n + 63) / 64)).map fun i =>
    .far (BitVec.ofNat 64 (va + 64 * i)) (pa + 64 * i) (min 64 (n - 64 * i)) gen

/-- Check 4 of R160 and the place of a row that has passed the others: `n` indexes the free choice of a
cached translation (R232). The Grotto is refused (R391), and a module that is not present is
remote-unreachable (R20). -/
def State.planRow (s : State) (n : Nat) (write : Bool) (r : Row) : Except Trap Plan :=
  let t := s.me
  if isScratch r.ea then .ok ⟨[.near (windowAddr s.cur.coreRef t (r.ea.toNat % 2 ^ 22)) r.size], none⟩
  else
    match s.translate s.cur.coreRef n t.job r.ea.toNat write with
    | .error e => .error e
    | .ok e =>
      let pa := e.addr r.ea.toNat
      if inGrotto pa then .error ⟨0x64, BitVec.ofNat 64 pa⟩
      else if paModule pa = s.module.toNat then .ok ⟨[.home (paOffset pa) r.size e.gen], some e⟩
      else if s.isPresent s.cur.die (paModule pa) then .ok ⟨farParts r.ea.toNat pa e.gen r.size, some e⟩
      else .error ⟨0x8A, BitVec.ofNat 64
        (requestId s.module.toNat s.cur.die (s.nextSeq s.cur.die (paModule pa)))⟩

/-- All rows of an access, checked row by row (R160, R165). -/
def State.planRows (s : State) (write : Bool) : Nat → List Row → Except Trap (List Plan)
  | _, [] => .ok []
  | n, r :: rest =>
    match s.me.rowTrap r with
    | some e => .error e
    | none =>
      match s.planRow n write r with
      | .error e => .error e
      | .ok p =>
        match s.planRows write (n + 1) rest with
        | .error e => .error e
        | .ok l => .ok (p :: l)

/-- The plan of an access in a state. -/
def State.plan (s : State) (write : Bool) (rows : List Row) : Except Trap (List Plan) :=
  s.planRows write s.freeCtr rows

/-- Parts of a plan; none of one that traps. -/
def partsOf : Except Trap (List Plan) → List Piece
  | .ok l => l.flatMap Plan.parts
  | .error _ => []

/-! ### L1 lines -/

/-- Whether a copy serves an access at a time (R167, R244): the right it needs, the key and generation
of the access, for a read right a lease that has not ended, and for a read-only load a home that no write can pass below
the task's RoFloor (R252). -/
def L1Line.serves (l : L1Line) (line : Nat) (right : Right) (key gen : Nat) (time roFloor : W64) : Bool :=
  decide (l.line = line) && decide (l.key = key) && decide (l.gen = gen) &&
    (match right with
      | .ro => decide (l.right = .ro) && decide (roFloor ≤ l.rts)
      | .write => decide (l.right = .write)
      | .read => decide (l.right = .write) || (decide (l.right = .read) && decide (time ≤ l.rts)))

/-- The copy that serves the issuing task's access to a line, if one does. -/
def State.serving (s : State) (line : Nat) (right : Right) (gen : Nat) (time : W64) : Option L1Line :=
  s.here.l1.find? fun l => l.serves line right (jobKey s.me.job) gen time s.me.roFloor

/-- The right that a kind of access needs. -/
def rightOf (write ro : Bool) : Right := if write then .write else if ro then .ro else .read

/-- Whether a copy carries a line, as plain copy or as read-only copy. -/
def L1Line.holds (l : L1Line) (line : Nat) (right : Right) : Bool :=
  decide (l.line = line) && (decide (l.right = .ro) == decide (right = .ro))

/-- Lines of HBM that a part touches, with the generation of its access. -/
def Piece.lines : Piece → List (Nat × Nat)
  | .home o n gen => (linesOf o n).map fun l => (l, gen)
  | _ => []

/-- The request of a squashed bundle that was refused for a line (R234, R334). -/
def State.refusedLine (s : State) (line : Nat) : Option Trap :=
  s.here.l1req.findSome? fun q =>
    if q.line = line ∧ q.slot = s.cur.slot then
      (match q.answer with
        | .refused t => some t
        | _ => none)
    else none

/-- The poison that a line brings to a load (R334, R386). -/
def State.poisonedLine (s : State) (right : Right) (x : Nat × Nat) : Option Trap :=
  if right = .write then none
  else match s.here.l1.find? fun l => l.holds x.1 right with
    | some l => if l.poison ≠ 0 ∧ l.gen = x.2 ∧ l.key = jobKey s.me.job then some ⟨l.poison, BitVec.ofNat 64 (s.physical (x.1 * 128))⟩ else none
    | none => none

/-- The trap of a part whose line or reply was refused. -/
def State.partTrap (s : State) (right : Right) (p : Piece) : Option Trap :=
  match p with
  | .near _ _ => none
  | .home _ _ _ =>
    p.lines.findSome? fun x => (s.refusedLine x.1).orElse fun _ => s.poisonedLine right x
  | .far va pa n _ =>
    if right = .write then none
    else match s.sentLoad s.cur none pa (Nat.log2 n) with
      | some x => (match x.reply with
        | some rep => replyTrap va x.req rep.status
        | none => none)
      | none => none

/-- The trap of an access: the checks of R160, then what its lines and replies brought. -/
def State.accessTrap (s : State) (write ro : Bool) (rows : List Row) : Option Trap :=
  match s.plan write rows with
  | .error e => if e.isWalk then none else some e
  | .ok l => (partsOf (.ok l)).findSome? (s.partTrap (rightOf write ro))

/-! ### Waiting -/

/-- A line asked for, once for each slot and right (R167). -/
def Core.request (c : Core) (q : L1Req) : Core :=
  if c.l1req.any fun x => decide (x.line = q.line) && decide (x.slot = q.slot) && decide (x.right = q.right)
  then c
  else { c with l1req := c.l1req ++ [q] }

/-- The lines of a part that are missing. -/
def State.missing (s0 : State) (right : Right) (p : Piece) : List (Nat × Nat) :=
  p.lines.filter fun x => (s0.serving x.1 right x.2 s0.me.time).isNone

/-- A missing line requested for the issuing task's bundle. -/
def State.ask (s0 : State) (right : Right) (s : State) (x : Nat × Nat) : State :=
  s.modHere fun c => c.request
    { line := x.1, job := s0.me.job, key := jobKey s0.me.job, gen := x.2, right := right, va := 0,
      slot := s0.cur.slot, time := s0.me.time, roFloor := s0.me.roFloor, answer := .waiting }

/-- Whether a remote load of the issuing task has its reply. -/
def State.replied (s : State) (pa n : Nat) : Bool :=
  match s.sentLoad s.cur none pa (Nat.log2 n) with
  | some x => x.reply.isSome
  | none => false

/-- What one part of a load or store adds to the stall: the state with its requests sent, or none when the
part can be served (R167, R264). A remote store never waits. -/
def State.waitPart (s0 : State) (right : Right) (a : Bool × State) (p : Piece) : Bool × State :=
  match p with
  | .near _ _ => a
  | .home _ _ _ =>
    let l := s0.missing right p
    if l = [] then a else (true, l.foldl (s0.ask right) a.2)
  | .far _ pa n gen =>
    if right = .write ∨ s0.replied pa n = true then a
    else if (s0.sentLoad s0.cur none pa (Nat.log2 n)).isSome then (true, a.2)
    else
      (true, (a.2.sendReq s0.cur none (paModule pa)
        (loadReq s0.me.job pa gen (Nat.log2 n) s0.me.time.toNat)).1)

/-- The translations of a plan kept in the caches, and the free choices taken (R232). -/
def State.keepPlans (s : State) (l : List Plan) : State :=
  (((s.dropLoads s.cur (some walkTok)) |> fun s => (l.filterMap Plan.entry).foldl (fun s e => s.cacheTlb s.cur.coreRef e) s).tookFree l.length)

/-- The virtual address of a line within the rows of an access, for its record. -/
def Core.nameLines (slot : Nat) (va : W64) (c : Core) : Core :=
  { c with l1req := c.l1req.map fun q => if q.slot = slot ∧ q.va = 0 then { q with va := va } else q }

/-- The stall of an access (R45, R167): none when every line and reply it needs is there. -/
def State.accessWait (s0 s : State) (write ro : Bool) (rows : List Row) : Option State :=
  match s0.plan write rows with
  | .error e => if e.isWalk then some ((s.askWalk s0.cur e).tookFree) else none
  | .ok l =>
    let x := (l.zip rows).foldl (fun (a : Bool × State) e =>
      let b := e.1.parts.foldl (s0.waitPart (rightOf write ro)) a
      (b.1, b.2.modHere fun c => c.nameLines s0.cur.slot e.2.ea)) (false, s)
    if x.1 then some (x.2.keepPlans l) else none

/-! ### Times -/

/-- The largest write time of the lines an access loads from (R244, R245: it takes one point of the
order; R252 for read-only lines). -/
def State.accessPeak (s : State) (ro : Bool) (rows : List Row) : W64 :=
  ((partsOf (s.plan false rows)).flatMap Piece.lines).foldl
    (fun a x => match s.here.l1.find? fun l => l.holds x.1 (rightOf false ro) with
      | some l => tmax a l.wts
      | none => a) 0

/-- A load at a time extends the lease of a line held with the write right (R244). -/
def L1Line.leased (lines : List Nat) (time : W64) (l : L1Line) : L1Line :=
  if lines.contains l.line ∧ l.right = .write then { l with rts := tmax l.rts (time + 4096) } else l

/-- The time and the caches after a load of the issuing task (R244, R232). -/
def State.afterLoad (s0 s : State) (ro : Bool) (rows : List Row) : State :=
  match s0.plan false rows with
  | .error _ => s
  | .ok l =>
    let lines := ((l.flatMap Plan.parts).flatMap Piece.lines).map Prod.fst
    let time := tmax s.me.time (s0.accessPeak ro rows)
    let s := (s.modMe fun t => { t with time := time }).modHere fun c =>
      let k := c.letGo s0.cur.slot
      { k with l1 := if ro then k.l1 else k.l1.map (L1Line.leased lines time) }
    (s.dropLoads s0.cur none).keepPlans l

/-! ### Reading and writing -/

/-- Bytes of a copy from an HBM offset within its line. -/
def L1Line.slice (l : L1Line) (o n : Nat) : List Byte := (l.data.drop (o % 128)).take n

/-- Bytes of HBM as the copies of the core hold them. -/
def State.readLines (s : State) (right : Right) (o n : Nat) : List Byte :=
  (((linesOf o n).flatMap fun x =>
    match s.here.l1.find? fun l => l.holds x right with
    | some l => l.data
    | none => List.replicate 128 0).drop (o % 128)).take n

/-- The bytes of one part of a load. -/
def State.readPart (s : State) (ro : Bool) (p : Piece) : List Byte :=
  match p with
  | .near a n => s.mem.bytes a n
  | .home o n _ => s.readLines (rightOf false ro) o n
  | .far _ pa n _ =>
    match s.sentLoad s.cur none pa (Nat.log2 n) with
    | some x => (match x.reply with
      | some rep => rep.data.take n
      | none => [])
    | none => []

/-- The bytes of each row of a load. -/
def State.readRows (s : State) (ro : Bool) (rows : List Row) : List (List Byte) :=
  match s.plan false rows with
  | .error _ => []
  | .ok l => l.map fun p => p.parts.flatMap (s.readPart ro)

/-- The time of a store to some lines (R244). -/
def State.storeTime (s : State) (lines : List Nat) : W64 :=
  lines.foldl
    (fun a x => match s.here.l1.find? fun l => l.holds x .write with
      | some l => tmax a (tmax (l.wts + 1) (l.rts + 1))
      | none => a) s.me.time

/-- Bytes put into a run at a position. -/
def splice (old : List Byte) (i : Nat) (b : List Byte) : List Byte := old.take i ++ b ++ old.drop (i + b.length)

/-- A copy after a store of bytes at an HBM offset, which may reach beyond its line (R244). A line wholly
written is poisoned no longer (R334). -/
def L1Line.stored (o : Nat) (b : List Byte) (time : W64) (l : L1Line) : L1Line :=
  let lo := l.line * 128
  if l.right ≠ .write ∨ lo + 128 ≤ o ∨ o + b.length ≤ lo then l
  else
    let b1 := b.drop (lo - o)
    let i := o - lo
    let d := b1.take (128 - i)
    { l with
      data := splice l.data i d
      wts := time
      rts := time
      dirty := true
      poison := if d.length = 128 then 0 else l.poison }

/-- One part of a store (R164, R165, R264). -/
def State.writePart (s0 : State) (time : W64) (s : State) (p : Piece) (b : List Byte) : State :=
  match p with
  | .near a _ => s.writeLocal s0.cur.coreRef s0.cur.slot a b
  | .home o _ _ => s.modHere fun c => { c with l1 := c.l1.map (L1Line.stored o b time) }
  | .far _ pa _ gen =>
    let x := s.sendReq s0.cur none (paModule pa) (storeReq s0.me.job pa gen s.me.time.toNat b)
    x.1.modMe fun t => { t with remoteStores := t.remoteStores ++ [x.2] }

/-- The length of a part. -/
def Piece.len : Piece → Nat
  | .near _ n => n
  | .home _ n _ => n
  | .far _ _ n _ => n

/-- The parts of one row of a store, in address order. -/
def State.writeParts (s0 : State) (time : W64) : List Piece → List Byte → State → State
  | [], _, s => s
  | p :: rest, b, s => State.writeParts s0 time rest (b.drop p.len) (s0.writePart time s p (b.take p.len))

/-- A store of the issuing task: its rows in order, at one time for its lines in this module (R165, R244,
R245, R248). -/
def State.storeRows (s0 s : State) (rows : List Row) (data : List (List Byte)) : State :=
  match s0.plan true rows with
  | .error _ => s
  | .ok l =>
    let lines := ((l.flatMap Plan.parts).flatMap Piece.lines).map Prod.fst
    let time := s.storeTime lines
    let s := s.modMe fun t => { t with time := time }
    let s := (l.zip data).foldl (fun s e => State.writeParts s0 time e.1.parts e.2 s) s
    let s := if lines = [] then s else s.mark s0.cur.coreRef time
    (s.modHere (Core.letGo s0.cur.slot)).keepPlans l

end Sys2Proof.Machine
end

