-- ==== Sys2Proof/Machine/Scalar.lean ====
section
/-!
DEFINITION. The scalar instructions of classes 000 and 001 (R94 to R105): integer registers,
immediates, compares, predicate logic, MOVS and scalar floating point.
-/

namespace Sys2Proof.Machine

/-! ### Integer functions -/

/-- The signed quotient with the cases of R63 and R95. -/
def divS (a b : W64) : W64 := if b = 0 then BitVec.allOnes 64 else a.sdiv b

/-- The unsigned quotient with the case of R63. -/
def divU (a b : W64) : W64 := if b = 0 then BitVec.allOnes 64 else a / b

/-- The signed remainder, of the dividend's sign (R63, R95). -/
def remS (a b : W64) : W64 := if b = 0 then a else a.srem b

/-- The unsigned remainder (R63, R95). -/
def remU (a b : W64) : W64 := if b = 0 then a else a % b

/-- Bits [127:64] of the signed product (Table 4.5). -/
def mulHighS (a b : W64) : W64 := BitVec.ofInt 64 (a.toInt * b.toInt / 2 ^ 64)

/-- Bits [127:64] of the unsigned product (Table 4.5). -/
def mulHighU (a b : W64) : W64 := BitVec.ofNat 64 (a.toNat * b.toNat / 2 ^ 64)

/-- Zero bits above the highest one bit; the width for zero (Table 4.5). -/
def clzNat (w n : Nat) : Nat := if n = 0 then w else w - 1 - Nat.log2 n

/-- One bits among the low k bits. -/
def popNat (n : Nat) : Nat → Nat
  | 0 => 0
  | k + 1 => n % 2 + popNat (n / 2) k

/-- Zero bits below the lowest one bit among k bits; k for zero (Table 4.5). -/
def ctzNat (n : Nat) : Nat → Nat
  | 0 => 0
  | k + 1 => if n % 2 = 1 then 0 else 1 + ctzNat (n / 2) k

/-- The field cut by BFX, BFXZ and BFI: position and length n, past bit 63 cut (R96). -/
def bfPos (b : W64) : Nat := b.toNat % 64
/-- The length n of the field of R96. -/
def bfLen (b : W64) : Nat := min (bfPos b + b.toNat / 2 ^ 8 % 64) 64 - bfPos b
/-- The field's value f of R96. -/
def bfField (a b : W64) : Nat := a.toNat / 2 ^ bfPos b % 2 ^ bfLen b

/-- BFX (R96). -/
def bfxS (a b : W64) : W64 :=
  let n := bfLen b
  let f := bfField a b
  if 0 < n ∧ f / 2 ^ (n - 1) = 1 then BitVec.ofInt 64 ((f : Int) - 2 ^ n) else BitVec.ofNat 64 f

/-- BFXZ (R96). -/
def bfxU (a b : W64) : W64 := BitVec.ofNat 64 (bfField a b)

/-- BFI (R96). -/
def bfiW (d a b : W64) : W64 :=
  let mask := BitVec.ofNat 64 (2 ^ bfLen b - 1)
  (d &&& ~~~(mask <<< bfPos b)) ||| ((a &&& mask) <<< bfPos b)

/-- The shift amount of a register shift: bits [5:0] (R94). -/
def shAmt (b : W64) : Nat := b.toNat % 64

/-- Signed order on 64-bit words. -/
def minS (a b : W64) : W64 := if a.slt b then a else b
/-- Signed maximum. -/
def maxS (a b : W64) : W64 := if a.slt b then b else a
/-- Unsigned minimum. -/
def minU (a b : W64) : W64 := if a < b then a else b
/-- Unsigned maximum. -/
def maxU (a b : W64) : W64 := if a < b then b else a

/-- The integer conditions of Table 2.13. -/
def condInt (cond : Nat) (a b : W64) : Bool :=
  match cond with
  | 0 => decide (a = b)
  | 1 => decide (a ≠ b)
  | 2 => a.slt b
  | 3 => a.sle b
  | 4 => b.slt a
  | 5 => b.sle a
  | 6 => decide (a < b)
  | 7 => decide (a ≤ b)
  | 8 => decide (b < a)
  | 9 => decide (b ≤ a)
  | 10 => decide (a &&& b ≠ 0)
  | _ => decide (a &&& b = 0)

/-- The floating-point conditions of Table 2.13, NaN unordered (R104). -/
def condFloat (cond : Nat) (a b : Num) : Bool :=
  let un := a.isNan || b.isNan
  match cond with
  | 0 => a.eqv b
  | 1 => !a.eqv b
  | 2 => a.lt b
  | 3 => a.lt b || a.eqv b
  | 4 => b.lt a
  | 5 => b.lt a || a.eqv b
  | 6 => un
  | _ => !un

/-! ### Shapes of meaning -/

/-- An X slot that writes one scalar with a latency (R89, R94). -/
def semScalar (g : Guard) (lat : Nat) (d : BitVec 5) (v : State → W64) : SlotSem :=
  { guard := g, eff := fun s0 s => s.push lat (.scalar d.toNat (v s0)) }

/-- An X slot that writes one scalar and raises flags (R103, R105). -/
def semScalarF (g : Guard) (lat : Nat) (d : BitVec 5) (v : State → Nat × Flags) : SlotSem :=
  { guard := g
    eff := fun s0 s => s.push lat (.scalar d.toNat (BitVec.ofNat 64 (v s0).1)) (v s0).2 }

/-- A compare: its condition to pt and the complement to pf, latency 1 (R37, R89). -/
def semCompare (g : Guard) (pt pf : BitVec 3) (c : State → Bool) : SlotSem :=
  { guard := g
    eff := fun s0 s => (s.push 1 (.pred pt.toNat (c s0))).push 1 (.pred pf.toNat (!c s0)) }

/-- Predicate logic, latency 1 (R100). -/
def semPred (g : Guard) (d : BitVec 3) (v : State → Bool) : SlotSem :=
  { guard := g, eff := fun s0 s => s.push 1 (.pred d.toNat (v s0)) }

/-- A read of a special register, latency 1 (R101, R125). -/
def semReadReg (g : Guard) (r : BitVec 5) (num : Nat) : SlotSem :=
  { guard := g
    place := if 0x800 ≤ num then .lodge else .any
    eff := fun s0 s => s.push 1 (.scalar r.toNat (s0.readReg num)) }

/-- The effect of a write of a special register (R101, R102, R277, R278): SLN is a claim or a steal
request, FSTAT discards the flags of earlier slots (R73), every other write takes effect for the next
bundle. -/
def writeRegEff (num : Nat) (v : W64) (s0 s : State) : State :=
  if num = 0x00A then
    s.modMe fun t => { t with holds := t.holds ++ [if v = BitVec.allOnes 64 then .steal s0.cycle else .claim v s0.cycle] }
  else if num = 0x000 then
    s.modMe fun t => ({ t with pend := dropFlags s0.me.pend.length t.pend }).push 1 (.special 0 v)
  else s.push 1 (.special num v)

/-- A write of a special register. A claim or steal request in a checkpoint region traps (R278). -/
def semWriteReg (g : Guard) (r : BitVec 5) (num : Nat) : SlotSem :=
  { guard := g
    place := if 0x800 ≤ num then .lodge else .any
    trap := fun k s0 => if decide (num = 0x00A) && s0.inRegion then some ⟨0x24, BitVec.ofNat 64 k⟩ else none
    eff := fun s0 s => writeRegEff num (s0.sreg r) s0 s }

/-- The FP32 value in bits [31:0] of a scalar (R103). -/
def f32Of (x : W64) : Num := Fmt.f32.decode (x.toNat % 2 ^ 32)

/-- The rounding mode of a one-bit .rz field. -/
def rzMode (rz : BitVec 1) : RMode := RMode.ofRz (decide (rz = 1))

/-- The value and flags of SFCVT by conversion code (Table 4.8). -/
def sfcvtVal (code : Nat) (md : RMode) (x : W64) : Nat × Flags :=
  match code with
  | 0 => let r := roundInt md true 64 (f32Of x); ((BitVec.ofInt 64 r.1).toNat, r.2)
  | 1 => let r := roundInt md false 64 (f32Of x); ((BitVec.ofInt 64 r.1).toNat, r.2)
  | 2 => Fmt.f32.round md (Num.ofInt x.toInt)
  | 3 => Fmt.f32.round md (Num.ofInt x.toNat)
  | 4 => Fmt.bf16.round md (f32Of x)
  | 5 => Fmt.f16.round md (f32Of x)
  | 6 => Fmt.f32.round md (Fmt.bf16.decode (x.toNat % 2 ^ 16))
  | _ => Fmt.f32.round md (Fmt.f16.decode (x.toNat % 2 ^ 16))

/-! ### The instructions -/

/-- ADD: the sum modulo 2^64 (R94). -/
def semAdd (g : Guard) (d a b : BitVec 5) : SlotSem :=
  semScalar g 1 d fun s => s.sreg a + s.sreg b

/-- ADD as a step: the issuing task issues the slot. -/
def execAdd (g : Guard) (d a b : BitVec 5) (s : State) : Host.Outcome State Fault Refusal :=
  issueSlot (semAdd g d a b) s

/-- SUB: the difference modulo 2^64 (R94). -/
def semSub (g : Guard) (d a b : BitVec 5) : SlotSem :=
  semScalar g 1 d fun s => s.sreg a - s.sreg b

/-- SUB as a step: the issuing task issues the slot. -/
def execSub (g : Guard) (d a b : BitVec 5) (s : State) : Host.Outcome State Fault Refusal :=
  issueSlot (semSub g d a b) s

/-- MUL: the low 64 bits of the product, latency 2 (R94). -/
def semMul (g : Guard) (d a b : BitVec 5) : SlotSem :=
  semScalar g 2 d fun s => s.sreg a * s.sreg b

/-- MUL as a step: the issuing task issues the slot. -/
def execMul (g : Guard) (d a b : BitVec 5) (s : State) : Host.Outcome State Fault Refusal :=
  issueSlot (semMul g d a b) s

/-- MULH: the high 64 bits of the signed product (R94). -/
def semMulh (g : Guard) (d a b : BitVec 5) : SlotSem :=
  semScalar g 2 d fun s => mulHighS (s.sreg a) (s.sreg b)

/-- MULH as a step: the issuing task issues the slot. -/
def execMulh (g : Guard) (d a b : BitVec 5) (s : State) : Host.Outcome State Fault Refusal :=
  issueSlot (semMulh g d a b) s

/-- MULHZ: the high 64 bits of the unsigned product (R94). -/
def semMulhz (g : Guard) (d a b : BitVec 5) : SlotSem :=
  semScalar g 2 d fun s => mulHighU (s.sreg a) (s.sreg b)

/-- MULHZ as a step: the issuing task issues the slot. -/
def execMulhz (g : Guard) (d a b : BitVec 5) (s : State) : Host.Outcome State Fault Refusal :=
  issueSlot (semMulhz g d a b) s

/-- DIV: the signed quotient, latency 8 (R95, R63). -/
def semDiv (g : Guard) (d a b : BitVec 5) : SlotSem :=
  semScalar g 8 d fun s => divS (s.sreg a) (s.sreg b)

/-- DIV as a step: the issuing task issues the slot. -/
def execDiv (g : Guard) (d a b : BitVec 5) (s : State) : Host.Outcome State Fault Refusal :=
  issueSlot (semDiv g d a b) s

/-- DIVZ: the unsigned quotient (R95, R63). -/
def semDivz (g : Guard) (d a b : BitVec 5) : SlotSem :=
  semScalar g 8 d fun s => divU (s.sreg a) (s.sreg b)

/-- DIVZ as a step: the issuing task issues the slot. -/
def execDivz (g : Guard) (d a b : BitVec 5) (s : State) : Host.Outcome State Fault Refusal :=
  issueSlot (semDivz g d a b) s

/-- REM: the signed remainder (R95, R63). -/
def semRem (g : Guard) (d a b : BitVec 5) : SlotSem :=
  semScalar g 8 d fun s => remS (s.sreg a) (s.sreg b)

/-- REM as a step: the issuing task issues the slot. -/
def execRem (g : Guard) (d a b : BitVec 5) (s : State) : Host.Outcome State Fault Refusal :=
  issueSlot (semRem g d a b) s

/-- REMZ: the unsigned remainder (R95, R63). -/
def semRemz (g : Guard) (d a b : BitVec 5) : SlotSem :=
  semScalar g 8 d fun s => remU (s.sreg a) (s.sreg b)

/-- REMZ as a step: the issuing task issues the slot. -/
def execRemz (g : Guard) (d a b : BitVec 5) (s : State) : Host.Outcome State Fault Refusal :=
  issueSlot (semRemz g d a b) s

/-- AND (R94). -/
def semAnd (g : Guard) (d a b : BitVec 5) : SlotSem :=
  semScalar g 1 d fun s => s.sreg a &&& s.sreg b

/-- AND as a step: the issuing task issues the slot. -/
def execAnd (g : Guard) (d a b : BitVec 5) (s : State) : Host.Outcome State Fault Refusal :=
  issueSlot (semAnd g d a b) s

/-- OR (R94). -/
def semOr (g : Guard) (d a b : BitVec 5) : SlotSem :=
  semScalar g 1 d fun s => s.sreg a ||| s.sreg b

/-- OR as a step: the issuing task issues the slot. -/
def execOr (g : Guard) (d a b : BitVec 5) (s : State) : Host.Outcome State Fault Refusal :=
  issueSlot (semOr g d a b) s

/-- XOR (R94). -/
def semXor (g : Guard) (d a b : BitVec 5) : SlotSem :=
  semScalar g 1 d fun s => s.sreg a ^^^ s.sreg b

/-- XOR as a step: the issuing task issues the slot. -/
def execXor (g : Guard) (d a b : BitVec 5) (s : State) : Host.Outcome State Fault Refusal :=
  issueSlot (semXor g d a b) s

/-- ANDN: s_a AND NOT s_b (R94). -/
def semAndn (g : Guard) (d a b : BitVec 5) : SlotSem :=
  semScalar g 1 d fun s => s.sreg a &&& ~~~(s.sreg b)

/-- ANDN as a step: the issuing task issues the slot. -/
def execAndn (g : Guard) (d a b : BitVec 5) (s : State) : Host.Outcome State Fault Refusal :=
  issueSlot (semAndn g d a b) s

/-- SHL by s_b[5:0] (R94). -/
def semShl (g : Guard) (d a b : BitVec 5) : SlotSem :=
  semScalar g 1 d fun s => s.sreg a <<< shAmt (s.sreg b)

/-- SHL as a step: the issuing task issues the slot. -/
def execShl (g : Guard) (d a b : BitVec 5) (s : State) : Host.Outcome State Fault Refusal :=
  issueSlot (semShl g d a b) s

/-- SHR: logical right shift by s_b[5:0] (R94). -/
def semShr (g : Guard) (d a b : BitVec 5) : SlotSem :=
  semScalar g 1 d fun s => s.sreg a >>> shAmt (s.sreg b)

/-- SHR as a step: the issuing task issues the slot. -/
def execShr (g : Guard) (d a b : BitVec 5) (s : State) : Host.Outcome State Fault Refusal :=
  issueSlot (semShr g d a b) s

/-- SRA: arithmetic right shift by s_b[5:0] (R94). -/
def semSra (g : Guard) (d a b : BitVec 5) : SlotSem :=
  semScalar g 1 d fun s => (s.sreg a).sshiftRight (shAmt (s.sreg b))

/-- SRA as a step: the issuing task issues the slot. -/
def execSra (g : Guard) (d a b : BitVec 5) (s : State) : Host.Outcome State Fault Refusal :=
  issueSlot (semSra g d a b) s

/-- ROL: rotate left by s_b[5:0] (R94). -/
def semRol (g : Guard) (d a b : BitVec 5) : SlotSem :=
  semScalar g 1 d fun s => (s.sreg a).rotateLeft (shAmt (s.sreg b))

/-- ROL as a step: the issuing task issues the slot. -/
def execRol (g : Guard) (d a b : BitVec 5) (s : State) : Host.Outcome State Fault Refusal :=
  issueSlot (semRol g d a b) s

/-- MIN: signed minimum (R94). -/
def semMin (g : Guard) (d a b : BitVec 5) : SlotSem :=
  semScalar g 1 d fun s => minS (s.sreg a) (s.sreg b)

/-- MIN as a step: the issuing task issues the slot. -/
def execMin (g : Guard) (d a b : BitVec 5) (s : State) : Host.Outcome State Fault Refusal :=
  issueSlot (semMin g d a b) s

/-- MAX: signed maximum (R94). -/
def semMax (g : Guard) (d a b : BitVec 5) : SlotSem :=
  semScalar g 1 d fun s => maxS (s.sreg a) (s.sreg b)

/-- MAX as a step: the issuing task issues the slot. -/
def execMax (g : Guard) (d a b : BitVec 5) (s : State) : Host.Outcome State Fault Refusal :=
  issueSlot (semMax g d a b) s

/-- MINZ: unsigned minimum (R94). -/
def semMinz (g : Guard) (d a b : BitVec 5) : SlotSem :=
  semScalar g 1 d fun s => minU (s.sreg a) (s.sreg b)

/-- MINZ as a step: the issuing task issues the slot. -/
def execMinz (g : Guard) (d a b : BitVec 5) (s : State) : Host.Outcome State Fault Refusal :=
  issueSlot (semMinz g d a b) s

/-- MAXZ: unsigned maximum (R94). -/
def semMaxz (g : Guard) (d a b : BitVec 5) : SlotSem :=
  semScalar g 1 d fun s => maxU (s.sreg a) (s.sreg b)

/-- MAXZ as a step: the issuing task issues the slot. -/
def execMaxz (g : Guard) (d a b : BitVec 5) (s : State) : Host.Outcome State Fault Refusal :=
  issueSlot (semMaxz g d a b) s

/-- BFX: the sign-extended field (R96). -/
def semBfx (g : Guard) (d a b : BitVec 5) : SlotSem :=
  semScalar g 1 d fun s => bfxS (s.sreg a) (s.sreg b)

/-- BFX as a step: the issuing task issues the slot. -/
def execBfx (g : Guard) (d a b : BitVec 5) (s : State) : Host.Outcome State Fault Refusal :=
  issueSlot (semBfx g d a b) s

/-- BFXZ: the zero-extended field (R96). -/
def semBfxz (g : Guard) (d a b : BitVec 5) : SlotSem :=
  semScalar g 1 d fun s => bfxU (s.sreg a) (s.sreg b)

/-- BFXZ as a step: the issuing task issues the slot. -/
def execBfxz (g : Guard) (d a b : BitVec 5) (s : State) : Host.Outcome State Fault Refusal :=
  issueSlot (semBfxz g d a b) s

/-- BFI: the field inserted into s_d (R96). -/
def semBfi (g : Guard) (d a b : BitVec 5) : SlotSem :=
  semScalar g 1 d fun s => bfiW (s.sreg d) (s.sreg a) (s.sreg b)

/-- BFI as a step: the issuing task issues the slot. -/
def execBfi (g : Guard) (d a b : BitVec 5) (s : State) : Host.Outcome State Fault Refusal :=
  issueSlot (semBfi g d a b) s

/-- CLZ: leading zero bits, 64 for zero (R94). -/
def semClz (g : Guard) (d a : BitVec 5) : SlotSem :=
  semScalar g 1 d fun s => BitVec.ofNat 64 (clzNat 64 (s.sreg a).toNat)

/-- CLZ as a step: the issuing task issues the slot. -/
def execClz (g : Guard) (d a : BitVec 5) (s : State) : Host.Outcome State Fault Refusal :=
  issueSlot (semClz g d a) s

/-- CTZ: trailing zero bits, 64 for zero (R94). -/
def semCtz (g : Guard) (d a : BitVec 5) : SlotSem :=
  semScalar g 1 d fun s => BitVec.ofNat 64 (ctzNat (s.sreg a).toNat 64)

/-- CTZ as a step: the issuing task issues the slot. -/
def execCtz (g : Guard) (d a : BitVec 5) (s : State) : Host.Outcome State Fault Refusal :=
  issueSlot (semCtz g d a) s

/-- POPC: one bits (R94). -/
def semPopc (g : Guard) (d a : BitVec 5) : SlotSem :=
  semScalar g 1 d fun s => BitVec.ofNat 64 (popNat (s.sreg a).toNat 64)

/-- POPC as a step: the issuing task issues the slot. -/
def execPopc (g : Guard) (d a : BitVec 5) (s : State) : Host.Outcome State Fault Refusal :=
  issueSlot (semPopc g d a) s

/-- SEL: s_a where pn is true, else s_b; pn is read at issue (R94). -/
def semSel (g : Guard) (d a b : BitVec 5) (p : BitVec 3) : SlotSem :=
  semScalar g 1 d fun s => if s.me.pred p.toNat then s.sreg a else s.sreg b

/-- SEL as a step: the issuing task issues the slot. -/
def execSel (g : Guard) (d a b : BitVec 5) (p : BitVec 3) (s : State) : Host.Outcome State Fault Refusal :=
  issueSlot (semSel g d a b p) s

/-- ADDI: a signed 10-bit immediate (R97). -/
def semAddi (g : Guard) (d a : BitVec 5) (imm : BitVec 10) : SlotSem :=
  semScalar g 1 d fun s => s.sreg a + sext imm

/-- ADDI as a step: the issuing task issues the slot. -/
def execAddi (g : Guard) (d a : BitVec 5) (imm : BitVec 10) (s : State) : Host.Outcome State Fault Refusal :=
  issueSlot (semAddi g d a imm) s

/-- ANDI: a sign-extended immediate (R97). -/
def semAndi (g : Guard) (d a : BitVec 5) (imm : BitVec 10) : SlotSem :=
  semScalar g 1 d fun s => s.sreg a &&& sext imm

/-- ANDI as a step: the issuing task issues the slot. -/
def execAndi (g : Guard) (d a : BitVec 5) (imm : BitVec 10) (s : State) : Host.Outcome State Fault Refusal :=
  issueSlot (semAndi g d a imm) s

/-- ORI: an unsigned immediate (R97). -/
def semOri (g : Guard) (d a : BitVec 5) (imm : BitVec 10) : SlotSem :=
  semScalar g 1 d fun s => s.sreg a ||| zext imm

/-- ORI as a step: the issuing task issues the slot. -/
def execOri (g : Guard) (d a : BitVec 5) (imm : BitVec 10) (s : State) : Host.Outcome State Fault Refusal :=
  issueSlot (semOri g d a imm) s

/-- XORI: an unsigned immediate (R97). -/
def semXori (g : Guard) (d a : BitVec 5) (imm : BitVec 10) : SlotSem :=
  semScalar g 1 d fun s => s.sreg a ^^^ zext imm

/-- XORI as a step: the issuing task issues the slot. -/
def execXori (g : Guard) (d a : BitVec 5) (imm : BitVec 10) (s : State) : Host.Outcome State Fault Refusal :=
  issueSlot (semXori g d a imm) s

/-- SHLI (R97). -/
def semShli (g : Guard) (d a : BitVec 5) (sh : BitVec 6) : SlotSem :=
  semScalar g 1 d fun s => s.sreg a <<< sh.toNat

/-- SHLI as a step: the issuing task issues the slot. -/
def execShli (g : Guard) (d a : BitVec 5) (sh : BitVec 6) (s : State) : Host.Outcome State Fault Refusal :=
  issueSlot (semShli g d a sh) s

/-- SHRI (R97). -/
def semShri (g : Guard) (d a : BitVec 5) (sh : BitVec 6) : SlotSem :=
  semScalar g 1 d fun s => s.sreg a >>> sh.toNat

/-- SHRI as a step: the issuing task issues the slot. -/
def execShri (g : Guard) (d a : BitVec 5) (sh : BitVec 6) (s : State) : Host.Outcome State Fault Refusal :=
  issueSlot (semShri g d a sh) s

/-- SRAI (R97). -/
def semSrai (g : Guard) (d a : BitVec 5) (sh : BitVec 6) : SlotSem :=
  semScalar g 1 d fun s => (s.sreg a).sshiftRight sh.toNat

/-- SRAI as a step: the issuing task issues the slot. -/
def execSrai (g : Guard) (d a : BitVec 5) (sh : BitVec 6) (s : State) : Host.Outcome State Fault Refusal :=
  issueSlot (semSrai g d a sh) s

/-- MOVI: a sign-extended 15-bit immediate (R97). -/
def semMovi (g : Guard) (d : BitVec 5) (imm : BitVec 15) : SlotSem :=
  semScalar g 1 d fun _ => sext imm

/-- MOVI as a step: the issuing task issues the slot. -/
def execMovi (g : Guard) (d : BitVec 5) (imm : BitVec 15) (s : State) : Host.Outcome State Fault Refusal :=
  issueSlot (semMovi g d imm) s

/-- MOVH: s_d as it stands at issue, shifted left 15, with the immediate (R97, R98). -/
def semMovh (g : Guard) (d : BitVec 5) (imm : BitVec 15) : SlotSem :=
  semScalar g 1 d fun s => (s.sreg d <<< 15) ||| zext imm

/-- MOVH as a step: the issuing task issues the slot. -/
def execMovh (g : Guard) (d : BitVec 5) (imm : BitVec 15) (s : State) : Host.Outcome State Fault Refusal :=
  issueSlot (semMovh g d imm) s

/-- ADDSH: s_a plus s_b shifted left by the immediate (R97). -/
def semAddsh (g : Guard) (d a b sh : BitVec 5) : SlotSem :=
  semScalar g 1 d fun s => s.sreg a + (s.sreg b <<< sh.toNat)

/-- ADDSH as a step: the issuing task issues the slot. -/
def execAddsh (g : Guard) (d a b sh : BitVec 5) (s : State) : Host.Outcome State Fault Refusal :=
  issueSlot (semAddsh g d a b sh) s

/-- CMP: the integer condition (R99, R37). -/
def semCmp (g : Guard) (pt pf : BitVec 3) (a b : BitVec 5) (cond : BitVec 4) : SlotSem :=
  semCompare g pt pf fun s => condInt cond.toNat (s.sreg a) (s.sreg b)

/-- CMP as a step: the issuing task issues the slot. -/
def execCmp (g : Guard) (pt pf : BitVec 3) (a b : BitVec 5) (cond : BitVec 4) (s : State) : Host.Outcome State Fault Refusal :=
  issueSlot (semCmp g pt pf a b cond) s

/-- CMPI: against a sign-extended 5-bit immediate (R99). -/
def semCmpi (g : Guard) (pt pf : BitVec 3) (a imm : BitVec 5) (cond : BitVec 4) : SlotSem :=
  semCompare g pt pf fun s => condInt cond.toNat (s.sreg a) (sext imm)

/-- CMPI as a step: the issuing task issues the slot. -/
def execCmpi (g : Guard) (pt pf : BitVec 3) (a imm : BitVec 5) (cond : BitVec 4) (s : State) : Host.Outcome State Fault Refusal :=
  issueSlot (semCmpi g pt pf a imm cond) s

/-- PAND (R100). -/
def semPand (g : Guard) (d a b : BitVec 3) : SlotSem :=
  semPred g d fun s => s.me.pred a.toNat && s.me.pred b.toNat

/-- PAND as a step: the issuing task issues the slot. -/
def execPand (g : Guard) (d a b : BitVec 3) (s : State) : Host.Outcome State Fault Refusal :=
  issueSlot (semPand g d a b) s

/-- POR (R100). -/
def semPor (g : Guard) (d a b : BitVec 3) : SlotSem :=
  semPred g d fun s => s.me.pred a.toNat || s.me.pred b.toNat

/-- POR as a step: the issuing task issues the slot. -/
def execPor (g : Guard) (d a b : BitVec 3) (s : State) : Host.Outcome State Fault Refusal :=
  issueSlot (semPor g d a b) s

/-- PXOR (R100). -/
def semPxor (g : Guard) (d a b : BitVec 3) : SlotSem :=
  semPred g d fun s => s.me.pred a.toNat != s.me.pred b.toNat

/-- PXOR as a step: the issuing task issues the slot. -/
def execPxor (g : Guard) (d a b : BitVec 3) (s : State) : Host.Outcome State Fault Refusal :=
  issueSlot (semPxor g d a b) s

/-- PNOT (R100). -/
def semPnot (g : Guard) (d a : BitVec 3) : SlotSem :=
  semPred g d fun s => !s.me.pred a.toNat

/-- PNOT as a step: the issuing task issues the slot. -/
def execPnot (g : Guard) (d a : BitVec 3) (s : State) : Host.Outcome State Fault Refusal :=
  issueSlot (semPnot g d a) s

/-- MOVS sd, NAME: reads a task special register (R101). -/
def semMovsRead (g : Guard) (r : BitVec 5) (num : BitVec 12) : SlotSem :=
  semReadReg g r num.toNat

/-- MOVSREAD as a step: the issuing task issues the slot. -/
def execMovsRead (g : Guard) (r : BitVec 5) (num : BitVec 12) (s : State) : Host.Outcome State Fault Refusal :=
  issueSlot (semMovsRead g r num) s

/-- MOVS NAME, sa: writes a task special register (R101, R102). -/
def semMovsWrite (g : Guard) (r : BitVec 5) (num : BitVec 12) : SlotSem :=
  semWriteReg g r num.toNat

/-- MOVSWRITE as a step: the issuing task issues the slot. -/
def execMovsWrite (g : Guard) (r : BitVec 5) (num : BitVec 12) (s : State) : Host.Outcome State Fault Refusal :=
  issueSlot (semMovsWrite g r num) s

/-- SFADD, latency 2 (R103). -/
def semSfadd (g : Guard) (d a b : BitVec 5) (rz : BitVec 1) : SlotSem :=
  semScalarF g 2 d fun s => Fmt.f32.add (rzMode rz) (f32Of (s.sreg a)) (f32Of (s.sreg b))

/-- SFADD as a step: the issuing task issues the slot. -/
def execSfadd (g : Guard) (d a b : BitVec 5) (rz : BitVec 1) (s : State) : Host.Outcome State Fault Refusal :=
  issueSlot (semSfadd g d a b rz) s

/-- SFMUL (R103). -/
def semSfmul (g : Guard) (d a b : BitVec 5) (rz : BitVec 1) : SlotSem :=
  semScalarF g 2 d fun s => Fmt.f32.mul (rzMode rz) (f32Of (s.sreg a)) (f32Of (s.sreg b))

/-- SFMUL as a step: the issuing task issues the slot. -/
def execSfmul (g : Guard) (d a b : BitVec 5) (rz : BitVec 1) (s : State) : Host.Outcome State Fault Refusal :=
  issueSlot (semSfmul g d a b rz) s

/-- SFFMA: exact product and sum, one rounding (R103). -/
def semSffma (g : Guard) (d a b : BitVec 5) (rz : BitVec 1) : SlotSem :=
  semScalarF g 2 d fun s => Fmt.f32.fma (rzMode rz) (f32Of (s.sreg a)) (f32Of (s.sreg b)) (f32Of (s.sreg d))

/-- SFFMA as a step: the issuing task issues the slot. -/
def execSffma (g : Guard) (d a b : BitVec 5) (rz : BitVec 1) (s : State) : Host.Outcome State Fault Refusal :=
  issueSlot (semSffma g d a b rz) s

/-- SFMIN: minimum under R66, no flags (R103). -/
def semSfmin (g : Guard) (d a b : BitVec 5) : SlotSem :=
  semScalarF g 2 d fun s => ((Fmt.f32.round .rne ((f32Of (s.sreg a)).min (f32Of (s.sreg b)))).1, 0)

/-- SFMIN as a step: the issuing task issues the slot. -/
def execSfmin (g : Guard) (d a b : BitVec 5) (s : State) : Host.Outcome State Fault Refusal :=
  issueSlot (semSfmin g d a b) s

/-- SFMAX: maximum under R66, no flags (R103). -/
def semSfmax (g : Guard) (d a b : BitVec 5) : SlotSem :=
  semScalarF g 2 d fun s => ((Fmt.f32.round .rne ((f32Of (s.sreg a)).max (f32Of (s.sreg b)))).1, 0)

/-- SFMAX as a step: the issuing task issues the slot. -/
def execSfmax (g : Guard) (d a b : BitVec 5) (s : State) : Host.Outcome State Fault Refusal :=
  issueSlot (semSfmax g d a b) s

/-- SFCMP: the floating-point condition, no flags (R104). -/
def semSfcmp (g : Guard) (pt pf : BitVec 3) (a b : BitVec 5) (cond : BitVec 4) : SlotSem :=
  semCompare g pt pf fun s => condFloat cond.toNat (f32Of (s.sreg a)) (f32Of (s.sreg b))

/-- SFCMP as a step: the issuing task issues the slot. -/
def execSfcmp (g : Guard) (pt pf : BitVec 3) (a b : BitVec 5) (cond : BitVec 4) (s : State) : Host.Outcome State Fault Refusal :=
  issueSlot (semSfcmp g pt pf a b cond) s

/-- SFCVT by conversion code (R105). -/
def semSfcvt (g : Guard) (d a code : BitVec 5) (rz : BitVec 1) : SlotSem :=
  semScalarF g 2 d fun s => sfcvtVal code.toNat (rzMode rz) (s.sreg a)

/-- SFCVT as a step: the issuing task issues the slot. -/
def execSfcvt (g : Guard) (d a code : BitVec 5) (rz : BitVec 1) (s : State) : Host.Outcome State Fault Refusal :=
  issueSlot (semSfcvt g d a code rz) s

end Sys2Proof.Machine
end

