-- ==== Sys2Proof/Machine/Control.lean ====
section
/-!
DEFINITION. The control instructions of class 010 (R106 to R127, R273, R274): targets and transfers,
the loop stack, END, TRAP, SYS, ERET, YIELD, WAIT and ARRIVE, CSRR and CSRW, BGSET, CKPT and NOP. What
acts at the bundle's boundary is left in the task's `ctl` and done when the bundle has issued.
-/

namespace Sys2Proof.Machine

/-- The boundary action of the bundle under way. -/
def State.leave (s : State) (c : Ctl) : State := s.modMe fun t => { t with ctl := c }

/-- Entry tbN of a task (R107). -/
def Task.tbGet (t : Task) (n : Nat) : W32 := t.tb.get 0 n

/-- PREP: tb[N] := address of this bundle + SignExt(off18), latency 1 (R107). -/
def semPrep (g : Guard) (tb : BitVec 2) (off : BitVec 18) : SlotSem :=
  { guard := g, eff := fun s0 s => s.push 1 (.target tb.toNat (s0.me.pc + off.signExtend 32)) }

/-- PREPR: tb[N] := s_a[31:0], latency 1 (R107). -/
def semPrepr (g : Guard) (tb : BitVec 2) (a : BitVec 5) : SlotSem :=
  { guard := g, eff := fun s0 s => s.push 1 (.target tb.toNat ((s0.sreg a).setWidth 32)) }

/-- A taken transfer: the target is pending with two delay bundles to issue (R108, R109). -/
def State.transfer (s0 s : State) (tb : BitVec 2) : State :=
  s.modMe fun t => { t with target := s0.me.tbGet tb.toNat, delay := 2, ctl := .taken }

/-- BR (R108). -/
def semBr (g : Guard) (tb : BitVec 2) : SlotSem :=
  { guard := g, eff := fun s0 s => s0.transfer s tb }

/-- The return address of a BRL at A: the third bundle after it in address order (R108). -/
def State.returnAddr (s : State) : Nat :=
  let t := s.me
  let a0 := t.pc.toNat
  let a1 := a0 + s.sizeAt t a0
  let a2 := a1 + s.sizeAt t a1
  a2 + s.sizeAt t a2

/-- BRL: as BR, and s_d receives the return address, latency 1 (R108). -/
def semBrl (g : Guard) (tb : BitVec 2) (d : BitVec 5) : SlotSem :=
  { guard := g
    eff := fun s0 s =>
      (s0.transfer s tb).push 1 (.scalar d.toNat ((BitVec.ofNat 32 s0.returnAddr).setWidth 64)) }

/-- The begin and end addresses a LOOP at this bundle would give its level (R111). -/
def State.loopEnds (s : State) (span : Nat) : W32 × W32 :=
  let t := s.me
  let sh := t.shadow t.loops.length
  if t.loops.length < 6 ∧ sh.valid = true then (sh.lb, sh.le)
  else (BitVec.ofNat 32 (t.pc.toNat + s.sizeAt t t.pc.toNat), BitVec.ofNat 32 (t.pc.toNat + span))

/-- The traps of LOOP and LOOPI (R111): loop-range with e − b, then loop-stack overflow for a count that
is not zero. The INFO e − b is taken modulo 2^64: DESIGN CHOICE, notes/assumptions/99. -/
def loopTrap (s : State) (n : W64) (span : Nat) : Option Trap :=
  let x := s.loopEnds span
  if x.2 < x.1 then some ⟨0x05, x.2.setWidth 64 - x.1.setWidth 64⟩
  else if n ≠ 0 ∧ s.me.loops.length = 6 then some (.plain 0x06)
  else none

/-- The push of LOOP and LOOPI, or the passing over of the body for a count of zero (R111). A shadow
that was used is no longer valid. -/
def loopEff (n : W64) (rot : Bool) (span : Nat) (s0 s : State) : State :=
  let x := s0.loopEnds span
  s.modMe fun t =>
    let depth := t.loops.length
    let t := if depth < 6 ∧ (t.shadow depth).valid = true then
        t.setShadow depth { t.shadow depth with valid := false } else t
    if n = 0 then { t with ctl := .skip x.2 }
    else { t with loops := ⟨n, 0, x.1, x.2, rot, none⟩ :: t.loops }

/-- LOOP: the count is s_a (R111). -/
def semLoop (g : Guard) (a : BitVec 5) (rot : BitVec 1) (off : BitVec 14) : SlotSem :=
  { guard := g
    trap := fun _ s0 => loopTrap s0 (s0.sreg a) off.toNat
    eff := fun s0 s => loopEff (s0.sreg a) (decide (rot = 1)) off.toNat s0 s }

/-- LOOPI: the count is count10 (R111). -/
def semLoopi (g : Guard) (count : BitVec 10) (rot : BitVec 1) (off : BitVec 9) : SlotSem :=
  { guard := g
    trap := fun _ s0 => loopTrap s0 (zext count) off.toNat
    eff := fun s0 s => loopEff (zext count) (decide (rot = 1)) off.toNat s0 s }

/-- Loop-stack underflow at a depth of 0 (R116). -/
def popTrap (s : State) : Option Trap := if s.me.loops = [] then some (.plain 0x07) else none

/-- LBRK: pops the innermost level; the next bundle follows its end bundle (R116). -/
def semLbrk (g : Guard) : SlotSem :=
  { guard := g
    trap := fun _ s0 => popTrap s0
    eff := fun _ s => s.modMe fun t =>
      { t with loops := t.loops.tail, ctl := .afterEnd (t.loops.headD LoopLevel.none).le } }

/-- LPOP: pops the innermost level and continues in sequence (R116). -/
def semLpop (g : Guard) : SlotSem :=
  { guard := g
    trap := fun _ s0 => popTrap s0
    eff := fun _ s => s.modMe fun t => { t with loops := t.loops.tail } }

/-- END: the task ends at the boundary after the bundle (R120). An END that closes a protected region
stalls while a command that writes into the core runs (R205). -/
def semEndTask (g : Guard) : SlotSem :=
  { guard := g
    wait := fun s0 s =>
      match s0.here.regions.get none s0.cur.slot with
      | some x => if x.guarded && s0.here.busyInside s0.cur.slot then some s else none
      | none => none
    eff := fun _ s => s.leave .leave }

/-- TRAP: a software trap that carries the code (R121). -/
def semTrap (g : Guard) (code : BitVec 20) : SlotSem :=
  { guard := g, trap := fun _ _ => some ⟨0x09, code.setWidth 64⟩, eff := fun _ s => s }

/-- SYS: the task halts at the boundary and the system-call event is posted (R122). -/
def semSys (g : Guard) (a b code : BitVec 5) : SlotSem :=
  { guard := g, eff := fun s0 s => s.leave (.sys code.toNat (s0.sreg a) (s0.sreg b)) }

/-- ERET: at the boundary the exception registers are restored; a lodge core only (R124). -/
def semEret (g : Guard) : SlotSem := { guard := g, place := .lodge, eff := fun _ s => s.leave .back }

/-- YIELD: at the boundary another ready task is preferred (R123). -/
def semYield (g : Guard) : SlotSem := { guard := g, eff := fun _ s => s.leave .offer }

/-- The barrier-range trap of a group barrier the group does not have (R274). -/
def barTrap (s : State) (n : Nat) : Option Trap :=
  if s.me.bars.length ≤ n then some ⟨0x0B, BitVec.ofNat 64 n⟩ else none

/-- WAIT: the parity expected is s_a[0] at issue (R274). -/
def semWait (g : Guard) (a c : BitVec 5) : SlotSem :=
  { guard := g
    trap := fun _ s0 => barTrap s0 c.toNat
    eff := fun s0 s => s.leave (.wait c.toNat ((s0.sreg a).getLsbD 0)) }

/-- A hold put on the issuing task's next bundle (R45). -/
def State.holdOn (s : State) (h : Hold) : State := s.modMe fun t => { t with holds := t.holds ++ [h] }

/-- The checkpoint-region trap of a slot at position k (R207). -/
def regionTrap (k : Nat) (s : State) : Option Trap :=
  if s.inRegion then some ⟨0x24, BitVec.ofNat 64 k⟩ else none

/-- ARRIVE: acts as FENCE.pkg, and the arrival is counted when the fence completes (R273). -/
def semArrive (g : Guard) (c : BitVec 5) : SlotSem :=
  { guard := g
    trap := fun k s0 => (barTrap s0 c.toNat).orElse fun _ => regionTrap k s0
    eff := fun s0 s => s.holdOn (.fence 2 false (some c.toNat) (s0.scopeFloor s0.cur.coreRef 2)) }

/-- CSRR: reads a special, core or lodge register (R125). -/
def semCsrr (g : Guard) (r : BitVec 5) (num : BitVec 12) : SlotSem := semReadReg g r num.toNat

/-- CSRW: writes a special or lodge register (R125). -/
def semCsrw (g : Guard) (r : BitVec 5) (num : BitVec 12) : SlotSem := semWriteReg g r num.toNat

/-- BGSET: arms the warning level, or posts the event at once when the level is already reached (R119).
It has no effect on a lodge core. The level it sets stands when its own bundle is charged, so an older level that this charge
reaches posts nothing: DESIGN CHOICE, notes/assumptions/100. -/
def semBgset (g : Guard) (a : BitVec 5) : SlotSem :=
  { guard := g
    eff := fun s0 s =>
      let v := s0.sreg a
      let b := chargedBudget s0.me.budget
      if isLodge s0.cur.core then s
      else if v ≠ 0 ∧ b ≤ v then (s.modMe fun t => { t with bwarn := 0 }).postEvent s.cur 0xC1 b
      else s.modMe fun t => { t with bwarn := v } }

/-- CKPT: the control state after this bundle is captured and a region opens (R126, R205). It stalls while
a matrix command of the task, or an engine command that writes into the core, runs. -/
def semCkpt (g : Guard) : SlotSem :=
  { guard := g
    mark := true
    wait := fun s0 s => if s0.here.busyInside s0.cur.slot then some s else none
    eff := fun _ s => s.leave .mark }

/-- NOP does nothing (R127). -/
def semNop (g : Guard) : SlotSem := { guard := g, eff := fun _ s => s }

/-! ### The instructions as steps -/

/-- prep as a step: the issuing task issues the slot. -/
def execPrep (g : Guard) (tb : BitVec 2) (off : BitVec 18) (s : State) : Host.Outcome State Fault Refusal :=
  issueSlot (semPrep g tb off) s

/-- prepr as a step: the issuing task issues the slot. -/
def execPrepr (g : Guard) (tb : BitVec 2) (a : BitVec 5) (s : State) : Host.Outcome State Fault Refusal :=
  issueSlot (semPrepr g tb a) s

/-- br as a step: the issuing task issues the slot. -/
def execBr (g : Guard) (tb : BitVec 2) (s : State) : Host.Outcome State Fault Refusal :=
  issueSlot (semBr g tb) s

/-- brl as a step: the issuing task issues the slot. -/
def execBrl (g : Guard) (tb : BitVec 2) (d : BitVec 5) (s : State) : Host.Outcome State Fault Refusal :=
  issueSlot (semBrl g tb d) s

/-- loop as a step: the issuing task issues the slot. -/
def execLoop (g : Guard) (a : BitVec 5) (rot : BitVec 1) (off : BitVec 14) (s : State) : Host.Outcome State Fault Refusal :=
  issueSlot (semLoop g a rot off) s

/-- loopi as a step: the issuing task issues the slot. -/
def execLoopi (g : Guard) (count : BitVec 10) (rot : BitVec 1) (off : BitVec 9) (s : State) : Host.Outcome State Fault Refusal :=
  issueSlot (semLoopi g count rot off) s

/-- lbrk as a step: the issuing task issues the slot. -/
def execLbrk (g : Guard) (s : State) : Host.Outcome State Fault Refusal :=
  issueSlot (semLbrk g) s

/-- lpop as a step: the issuing task issues the slot. -/
def execLpop (g : Guard) (s : State) : Host.Outcome State Fault Refusal :=
  issueSlot (semLpop g) s

/-- endTask as a step: the issuing task issues the slot. -/
def execEndTask (g : Guard) (s : State) : Host.Outcome State Fault Refusal :=
  issueSlot (semEndTask g) s

/-- trap as a step: the issuing task issues the slot. -/
def execTrap (g : Guard) (code : BitVec 20) (s : State) : Host.Outcome State Fault Refusal :=
  issueSlot (semTrap g code) s

/-- sys as a step: the issuing task issues the slot. -/
def execSys (g : Guard) (a b code : BitVec 5) (s : State) : Host.Outcome State Fault Refusal :=
  issueSlot (semSys g a b code) s

/-- eret as a step: the issuing task issues the slot. -/
def execEret (g : Guard) (s : State) : Host.Outcome State Fault Refusal :=
  issueSlot (semEret g) s

/-- yield as a step: the issuing task issues the slot. -/
def execYield (g : Guard) (s : State) : Host.Outcome State Fault Refusal :=
  issueSlot (semYield g) s

/-- wait as a step: the issuing task issues the slot. -/
def execWait (g : Guard) (a c : BitVec 5) (s : State) : Host.Outcome State Fault Refusal :=
  issueSlot (semWait g a c) s

/-- arrive as a step: the issuing task issues the slot. -/
def execArrive (g : Guard) (c : BitVec 5) (s : State) : Host.Outcome State Fault Refusal :=
  issueSlot (semArrive g c) s

/-- csrr as a step: the issuing task issues the slot. -/
def execCsrr (g : Guard) (r : BitVec 5) (num : BitVec 12) (s : State) : Host.Outcome State Fault Refusal :=
  issueSlot (semCsrr g r num) s

/-- csrw as a step: the issuing task issues the slot. -/
def execCsrw (g : Guard) (r : BitVec 5) (num : BitVec 12) (s : State) : Host.Outcome State Fault Refusal :=
  issueSlot (semCsrw g r num) s

/-- bgset as a step: the issuing task issues the slot. -/
def execBgset (g : Guard) (a : BitVec 5) (s : State) : Host.Outcome State Fault Refusal :=
  issueSlot (semBgset g a) s

/-- ckpt as a step: the issuing task issues the slot. -/
def execCkpt (g : Guard) (s : State) : Host.Outcome State Fault Refusal :=
  issueSlot (semCkpt g) s

/-- nop as a step: the issuing task issues the slot. -/
def execNop (g : Guard) (s : State) : Host.Outcome State Fault Refusal :=
  issueSlot (semNop g) s

end Sys2Proof.Machine
end

