-- ==== Sys2Proof/Machine/NearMem.lean ====
section
/-!
DEFINITION. The near-memory instructions (R160 to R183): loads and stores, address generators, the hints
PREF, CLEAN and INVAL, PHASE, and the tile table.
-/

namespace Sys2Proof.Machine

/-! ### Loads and stores (R164, R165) -/

/-- The address of a scalar access: Point(g, 0) + SignExt(k) × size (R164). -/
def scalarRows (ag : BitVec 3) (off : BitVec 8) (size : Nat) (s : State) : List Row :=
  [⟨(s.me.ag ag.toNat).addr + sext off * BitVec.ofNat 64 size, size⟩]

/-- Element width in bytes of a vector access by type code (R165). -/
def cellBytes (ty : Nat) : Nat := if ty = 0 then 4 else if ty ≤ 4 then 2 else 1

/-- The points of a generator and of the n − 1 that follow it (R161). -/
def AddrGen.points (g : AddrGen) : Nat → List W64
  | 0 => []
  | n + 1 => g.addr :: g.step.points n

/-- The sixteen rows of a vector access (R165). -/
def vectorRows (ag : BitVec 3) (off : BitVec 8) (ty : Nat) (s : State) : List Row :=
  ((s.me.ag ag.toNat).points 16).map fun a =>
    ⟨a + sext off * BitVec.ofNat 64 (64 * cellBytes ty), 64 * cellBytes ty⟩

/-- The generator stepped n times when P is set (R164, R165). -/
def State.stepAg (s0 s : State) (ag : BitVec 3) (post : BitVec 1) (n : Nat) : State :=
  if post = 1 then s.modMe fun t => t.setAg ag.toNat ((s0.me.ag ag.toNat).steps n) else s

/-- Size of a scalar access in bytes by type code (Table 2.9). -/
def scalarBytes (ty : Nat) : Nat := 2 ^ (ty / 2)

/-- A loaded value extended by its type (Table 2.9): odd codes are signed. -/
def extendLoad (ty : Nat) (b : List Byte) : W64 :=
  let w := 8 * scalarBytes ty
  let n := leNat b
  if ty % 2 = 1 ∧ 2 ^ (w - 1) ≤ n then BitVec.ofInt 64 ((n : Int) - 2 ^ w) else BitVec.ofNat 64 n

/-- A load slot over its rows: what it waits for, its traps and its times; `put` delivers the bytes. -/
def semLoad (g : Guard) (ro : Bool) (rows : State → List Row) (vdst : Option Nat)
    (put : State → List (List Byte) → State → State) : SlotSem :=
  { guard := g
    vdst := vdst
    wait := fun s0 s => s0.accessWait s false ro (rows s0)
    trap := fun _ s0 => s0.accessTrap false ro (rows s0)
    peak := fun s0 => s0.accessPeak ro (rows s0)
    eff := fun s0 s => put s0 (s0.readRows ro (rows s0)) (s0.afterLoad s ro (rows s0)) }

/-- LD and LD.RO (R164), latency 3. -/
def semScalarLoad (g : Guard) (ro : Bool) (d : BitVec 5) (ag : BitVec 3) (post : BitVec 1) (ty : BitVec 3)
    (off : BitVec 8) : SlotSem :=
  semLoad g ro (scalarRows ag off (scalarBytes ty.toNat)) none fun s0 b s =>
    s0.stepAg (s.push 3 (.scalar d.toNat (extendLoad ty.toNat (b.headD [])))) ag post 1

/-- A cell of w bytes loaded and placed by R57: codes 3 and 5 sign-extend (R165). -/
def loadCell (ty : Nat) (b : List Byte) : W32 :=
  let w := 8 * cellBytes ty
  let n := leNat b
  if (ty = 3 ∨ ty = 5) ∧ 2 ^ (w - 1) ≤ n then BitVec.ofInt 32 ((n : Int) - 2 ^ w) else BitVec.ofNat 32 n

/-- A row of bytes cut into cells. -/
def cellsOf (ty : Nat) (b : List Byte) : List W32 :=
  (List.range 64).map fun j => loadCell ty ((b.drop (j * cellBytes ty)).take (cellBytes ty))

/-- VLD and VLD.RO (R165), latency 3. -/
def semVectorLoad (g : Guard) (ro : Bool) (d : BitVec 5) (ag : BitVec 3) (post : BitVec 1) (ty : BitVec 3)
    (off : BitVec 8) : SlotSem :=
  semLoad g ro (vectorRows ag off ty.toNat) (some d.toNat) fun s0 b s =>
    s0.stepAg (s.push 3 (.vec (s0.me.vpos d.toNat) (BitVec.allOnes 1024) (b.flatMap (cellsOf ty.toNat)))) ag post 16

/-- The checkpoint-region trap of a store to a virtual address (R207). -/
def storeRegionTrap (k : Nat) (rows : List Row) (s : State) : Option Trap :=
  if rows.any fun r => !isScratch r.ea then regionTrap k s else none

/-- A store slot over its rows (R164 to R166): `data` gives the bytes of each row. The checkpoint-region trap (R207) is
tested before the four checks of R160: DESIGN CHOICE, notes/assumptions/104. -/
def semStore (g : Guard) (rows : State → List Row) (src : List Nat) (data : State → List (List Byte))
    (ag : BitVec 3) (post : BitVec 1) (n : Nat) : SlotSem :=
  { guard := g
    late := true
    vsrc := src
    wait := fun s0 s => s0.accessWait s true false (rows s0)
    trap := fun k s0 => (storeRegionTrap k (rows s0) s0).orElse fun _ => s0.accessTrap true false (rows s0)
    eff := fun s0 s => s0.stepAg (s0.storeRows s (rows s0) (data s0)) ag post n }

/-- LD (R164). -/
def semLd (g : Guard) (d : BitVec 5) (ag : BitVec 3) (post : BitVec 1) (ty : BitVec 3) (off : BitVec 8) : SlotSem :=
  semScalarLoad g false d ag post ty off

/-- LD.RO (R164, R170). -/
def semLdRo (g : Guard) (d : BitVec 5) (ag : BitVec 3) (post : BitVec 1) (ty : BitVec 3) (off : BitVec 8) : SlotSem :=
  semScalarLoad g true d ag post ty off

/-- ST: the low bytes of s_d (R164). -/
def semSt (g : Guard) (d : BitVec 5) (ag : BitVec 3) (post : BitVec 1) (ty : BitVec 3) (off : BitVec 8) : SlotSem :=
  semStore g (scalarRows ag off (scalarBytes ty.toNat)) []
    (fun s => [leBytes (scalarBytes ty.toNat) (s.sreg d).toNat]) ag post 1

/-- VLD (R165). -/
def semVld (g : Guard) (d : BitVec 5) (ag : BitVec 3) (post : BitVec 1) (ty : BitVec 3) (off : BitVec 8) : SlotSem :=
  semVectorLoad g false d ag post ty off

/-- VLD.RO (R165, R170). -/
def semVldRo (g : Guard) (d : BitVec 5) (ag : BitVec 3) (post : BitVec 1) (ty : BitVec 3) (off : BitVec 8) : SlotSem :=
  semVectorLoad g true d ag post ty off

/-- Row i of a register as bytes of w-byte elements: the low bits of each cell (R165). -/
def rowBytes (w : Nat) (v : VReg) (i : Nat) : List Byte :=
  ((v.drop (64 * i)).take 64).flatMap fun c => leBytes w c.toNat

/-- VST (R165). -/
def semVst (g : Guard) (d : BitVec 5) (ag : BitVec 3) (post : BitVec 1) (ty : BitVec 3) (off : BitVec 8) : SlotSem :=
  semStore g (vectorRows ag off ty.toNat) [d.toNat]
    (fun s => (List.range 16).map (rowBytes (cellBytes ty.toNat) (s.vreg d.toNat))) ag post 16

/-! ### Address generators (R162, R163) -/

/-- AGSET (R162). -/
def semAgset (g : Guard) (r : BitVec 5) (ag : BitVec 3) (field : BitVec 4) : SlotSem :=
  { guard := g
    eff := fun s0 s => s.modMe fun t => t.setAg ag.toNat ((t.ag ag.toNat).setField field.toNat (s0.sreg r)) }

/-- AGSTEP (R163). -/
def semAgstep (g : Guard) (ag : BitVec 3) (count : BitVec 12) : SlotSem :=
  { guard := g
    eff := fun s0 s => s.modMe fun t => t.setAg ag.toNat ((s0.me.ag ag.toNat).steps count.toNat) }

/-! ### Hints (R169) -/

/-- The line of this module that holds Addr(aN), with its leaf's generation, if the address is virtual and
can be translated (R169). -/
def State.hintLine (s : State) (ag : BitVec 3) : Option (Nat × Nat) :=
  let ea := (s.me.ag ag.toNat).addr
  if ea.toNat / 2 ^ 56 ≠ 0 then none
  else match s.translate s.cur.coreRef s.freeCtr s.me.job ea.toNat false with
    | .error _ => none
    | .ok e =>
      let pa := e.addr ea.toNat
      if paModule pa = s.module.toNat then some (lineOf (paOffset pa), e.gen) else none

/-- PREF: the line is asked for with a read right (R169). -/
def semPref (g : Guard) (ag : BitVec 3) : SlotSem :=
  { guard := g
    eff := fun s0 s =>
      match s0.hintLine ag with
      | none => s.tookFree
      | some x => (s.tookFree).modHere fun c => c.request
          { line := x.1, job := s0.me.job, key := jobKey s0.me.job, gen := x.2, right := .read,
            va := (s0.me.ag ag.toNat).addr, slot := prefSlot, time := s0.me.time, roFloor := s0.me.roFloor,
            answer := .waiting } }

/-- A core's dirty copy of a line written to its home and kept (R169). -/
def State.cleanLine (s : State) (c : CoreRef) (line : Nat) : State :=
  match (s.core c).l1.find? fun l => l.holds line .write with
  | none => s
  | some l => (s.writeBack c l).modCore c fun k =>
      { k with l1 := k.l1.map fun x => if x.line = line ∧ x.right = .write then { x with dirty := false } else x }

/-- CLEAN (R169). -/
def semClean (g : Guard) (ag : BitVec 3) : SlotSem :=
  { guard := g
    eff := fun s0 s => match s0.hintLine ag with
      | none => s.tookFree
      | some x => s.tookFree.cleanLine s0.cur.coreRef x.1 }

/-- A line and its read-only copy dropped from a core, written back first when it is dirty (R169, R170). -/
def State.dropLine (s : State) (c : CoreRef) (line : Nat) : State :=
  (s.giveBack line true c).modCore c fun k => { k with l1 := k.l1.filter fun l => !decide (l.line = line) }

/-- Whether a core holds a line, as either kind of copy, for a squashed bundle (R167). -/
def Core.keepsLine (c : Core) (line : Nat) : Bool := c.l1.any fun l => decide (l.line = line) && decide (l.slots ≠ [])

/-- INVAL (R169). A line held for a squashed bundle of another task stays (R167): the drop changes no value. -/
def semInval (g : Guard) (ag : BitVec 3) : SlotSem :=
  { guard := g
    eff := fun s0 s => match s0.hintLine ag with
      | none => s.tookFree
      | some x =>
        if (s0.core s0.cur.coreRef).keepsLine x.1 then s.tookFree.cleanLine s0.cur.coreRef x.1
        else s.tookFree.dropLine s0.cur.coreRef x.1 }

/-! ### PHASE (R172) -/

/-- Whether step m of a core's near memory lies in the window of another task. -/
def State.stepTaken (s : State) (m : Nat) : Bool :=
  s.here.tasks.any fun e => decide (e.1 ≠ s.cur.slot) && match e.2 with
    | some t => decide (t.wbase ≤ m) && decide (m < t.wbase + t.wsize)
    | none => false

/-- Whether a defined tile entry of the issuing task reaches past a byte of its window. -/
def State.tilePast (s : State) (byte : Nat) : Bool :=
  (s.here.slotTiles s.cur).any fun e => e.v && decide (byte < (e.base + e.len) * 128)

/-- The traps of PHASE (R172). -/
def phaseTrap (n k : Nat) (s : State) : Option Trap :=
  let t := s.me
  if 0 < t.barLeft then some ⟨0x22, BitVec.ofNat 64 n⟩
  else if t.wsize < n ∧ (12 < t.wbase + n ∨ (List.range (n - t.wsize)).any (fun i => s.stepTaken (t.wbase + t.wsize + i)) = true) then
    some ⟨0x23, BitVec.ofNat 64 n⟩
  else if n < t.wsize ∧ s.tilePast (n * stepBytes) = true then some ⟨0x23, BitVec.ofNat 64 n⟩
  else regionTrap k s

/-- The window after a PHASE (R172). Of two PHASE slots of one bundle the second stands, with its moving range: DESIGN
CHOICE, notes/assumptions/106. -/
def Task.phased (n : Nat) (t : Task) : Task :=
  let m := max n t.wsize - min n t.wsize
  if m = 0 then t
  else { t with moveFirst := min n t.wsize, moveLen := m, wsize := n, barLeft := 1024 * m, draining := true }

/-- A PHASE takes effect (R172): released steps are discarded from the window with their contents (R173). -/
def State.phase (s : State) (n : Nat) : State :=
  let s1 := s.modMe (Task.phased n)
  if n < s.me.wsize then s1.wipeMoving s.cur else s1

/-- PHASE (R172). -/
def semPhase (g : Guard) (steps : BitVec 4) : SlotSem :=
  { guard := g
    trap := phaseTrap steps.toNat
    eff := fun _ s => s.phase steps.toNat }

/-! ### The tile table (R175 to R183) -/

/-- Entry ttN of the issuing task. -/
def State.myTile (s : State) (tt : BitVec 8) : TileEntry := s.here.tile (physTile s.cur tt.toNat)

/-- Entry ttN of the issuing task replaced. -/
def State.putTile (s : State) (tt : BitVec 8) (f : TileEntry → TileEntry) : State :=
  s.modHere fun c => c.setTile (physTile s.cur tt.toNat) (f (c.tile (physTile s.cur tt.toNat)))

/-- A slot on a tile entry: an entry the task does not have is an illegal instruction (R175, R183). -/
def semTile (m : SlotSem) (tt : BitVec 8) : SlotSem :=
  { m with illegal := fun s => decide (tileCount s.cur.core ≤ tt.toNat) }

/-- The fields of TTDEF's operand (R179). -/
def defBase (v : W64) : Nat := v.toNat % 2 ^ 15
/-- LEN of TTDEF's operand. -/
def defLen (v : W64) : Nat := v.toNat / 2 ^ 16 % 2 ^ 15
/-- EXPECT of TTDEF's operand. -/
def defExpect (v : W64) : Nat := v.toNat / 2 ^ 32 % 2 ^ 22

/-- Whether TTDEF's operand breaks the limits of R179 for a window. -/
def defBad (v : W64) (window : Nat) : Bool :=
  v.getLsbD 15 || v.getLsbD 31 || decide (v.toNat / 2 ^ 54 ≠ 0) || decide (defExpect v = 0)
    || decide (defLen v * 128 < defExpect v) || decide (window < (defBase v + defLen v) * 128)

/-- The traps of TTDEF (R179). -/
def ttdefTrap (tt : BitVec 8) (v : W64) (s : State) : Option Trap :=
  let e := s.myTile tt
  if e.st = .filling ∨ e.st = .draining then some ⟨0x25, zext tt⟩
  else if defLen v = 0 then none
  else if defBad v s.me.windowBytes then some ⟨0x26, zext tt⟩
  else if s.me.moving (defBase v * 128) (defLen v * 128) then some ⟨0x22, BitVec.ofNat 64 (2 ^ 63 + defBase v * 128)⟩
  else none

/-- A tile entry (re)defined, or undefined by a length of 0 (R179). -/
def TileEntry.define (v : W64) (e : TileEntry) : TileEntry :=
  if defLen v = 0 then { e with v := false, st := .empty, arrived := 0 }
  else { e with base := defBase v, len := defLen v, expect := defExpect v, v := true, st := .empty, arrived := 0, tc := 0 }

/-- TTDEF (R179). -/
def semTtdef (g : Guard) (r : BitVec 5) (tt : BitVec 8) : SlotSem :=
  semTile
    { guard := g
      trap := fun _ s0 => ttdefTrap tt (s0.sreg r) s0
      eff := fun s0 s => s.putTile tt (TileEntry.define (s0.sreg r)) } tt

/-- The tile-range trap of an entry that is not defined (R180, R181). -/
def undefTrap (tt : BitVec 8) (s : State) : Option Trap :=
  if (s.myTile tt).v then none else some ⟨0x26, zext tt⟩

/-- TTWAIT: stalls while PHASE = s_a[0]; a task that goes on is ordered after the counted arrivals (R180,
R251). -/
def semTtwait (g : Guard) (r : BitVec 5) (tt : BitVec 8) : SlotSem :=
  semTile
    { guard := g
      trap := fun _ s0 => undefTrap tt s0
      wait := fun s0 s => if (s0.myTile tt).phase = (s0.sreg r).getLsbD 0 then some s else none
      eff := fun s0 s => s.modMe fun t => t.observe (s0.myTile tt).tc } tt

/-- TTFREE on an entry (Table 8.2). -/
def TileEntry.freed (e : TileEntry) : TileEntry :=
  if e.st = .ready then { e with st := .empty, arrived := 0, tc := 0 } else e

/-- TTFREE (R181): FILLING and DRAINING stall. -/
def semTtfree (g : Guard) (tt : BitVec 8) : SlotSem :=
  semTile
    { guard := g
      trap := fun _ s0 => undefTrap tt s0
      wait := fun s0 s => if (s0.myTile tt).st = .filling ∨ (s0.myTile tt).st = .draining then some s else none
      eff := fun _ s => s.putTile tt TileEntry.freed } tt

/-- The codes of the tile states (Table 8.1). -/
def TileState.code : TileState → Nat
  | .empty => 0
  | .filling => 1
  | .ready => 2
  | .draining => 3

/-- The word TTSTAT writes (R182). -/
def TileEntry.status (e : TileEntry) : W64 :=
  BitVec.ofNat 64 (e.arrived % 2 ^ 22 + e.expect % 2 ^ 22 * 2 ^ 22 + e.st.code * 2 ^ 44 + bitAt e.phase 46 + bitAt e.v 47)

/-- TTSTAT, latency 1 (R182). -/
def semTtstat (g : Guard) (d : BitVec 5) (tt : BitVec 8) : SlotSem :=
  semTile { guard := g, eff := fun s0 s => s.push 1 (.scalar d.toNat (s0.myTile tt).status) } tt

/-! ### The instructions as steps -/

/-- ld as a step: the issuing task issues the slot. -/
def execLd (g : Guard) (d : BitVec 5) (ag : BitVec 3) (post : BitVec 1) (ty : BitVec 3) (off : BitVec 8) (s : State) : Host.Outcome State Fault Refusal :=
  issueSlot (semLd g d ag post ty off) s

/-- ldRo as a step: the issuing task issues the slot. -/
def execLdRo (g : Guard) (d : BitVec 5) (ag : BitVec 3) (post : BitVec 1) (ty : BitVec 3) (off : BitVec 8) (s : State) : Host.Outcome State Fault Refusal :=
  issueSlot (semLdRo g d ag post ty off) s

/-- st as a step: the issuing task issues the slot. -/
def execSt (g : Guard) (d : BitVec 5) (ag : BitVec 3) (post : BitVec 1) (ty : BitVec 3) (off : BitVec 8) (s : State) : Host.Outcome State Fault Refusal :=
  issueSlot (semSt g d ag post ty off) s

/-- vld as a step: the issuing task issues the slot. -/
def execVld (g : Guard) (d : BitVec 5) (ag : BitVec 3) (post : BitVec 1) (ty : BitVec 3) (off : BitVec 8) (s : State) : Host.Outcome State Fault Refusal :=
  issueSlot (semVld g d ag post ty off) s

/-- vldRo as a step: the issuing task issues the slot. -/
def execVldRo (g : Guard) (d : BitVec 5) (ag : BitVec 3) (post : BitVec 1) (ty : BitVec 3) (off : BitVec 8) (s : State) : Host.Outcome State Fault Refusal :=
  issueSlot (semVldRo g d ag post ty off) s

/-- vst as a step: the issuing task issues the slot. -/
def execVst (g : Guard) (d : BitVec 5) (ag : BitVec 3) (post : BitVec 1) (ty : BitVec 3) (off : BitVec 8) (s : State) : Host.Outcome State Fault Refusal :=
  issueSlot (semVst g d ag post ty off) s

/-- agset as a step: the issuing task issues the slot. -/
def execAgset (g : Guard) (r : BitVec 5) (ag : BitVec 3) (field : BitVec 4) (s : State) : Host.Outcome State Fault Refusal :=
  issueSlot (semAgset g r ag field) s

/-- agstep as a step: the issuing task issues the slot. -/
def execAgstep (g : Guard) (ag : BitVec 3) (count : BitVec 12) (s : State) : Host.Outcome State Fault Refusal :=
  issueSlot (semAgstep g ag count) s

/-- pref as a step: the issuing task issues the slot. -/
def execPref (g : Guard) (ag : BitVec 3) (s : State) : Host.Outcome State Fault Refusal :=
  issueSlot (semPref g ag) s

/-- clean as a step: the issuing task issues the slot. -/
def execClean (g : Guard) (ag : BitVec 3) (s : State) : Host.Outcome State Fault Refusal :=
  issueSlot (semClean g ag) s

/-- inval as a step: the issuing task issues the slot. -/
def execInval (g : Guard) (ag : BitVec 3) (s : State) : Host.Outcome State Fault Refusal :=
  issueSlot (semInval g ag) s

/-- phase as a step: the issuing task issues the slot. -/
def execPhase (g : Guard) (steps : BitVec 4) (s : State) : Host.Outcome State Fault Refusal :=
  issueSlot (semPhase g steps) s

/-- ttdef as a step: the issuing task issues the slot. -/
def execTtdef (g : Guard) (r : BitVec 5) (tt : BitVec 8) (s : State) : Host.Outcome State Fault Refusal :=
  issueSlot (semTtdef g r tt) s

/-- ttwait as a step: the issuing task issues the slot. -/
def execTtwait (g : Guard) (r : BitVec 5) (tt : BitVec 8) (s : State) : Host.Outcome State Fault Refusal :=
  issueSlot (semTtwait g r tt) s

/-- ttfree as a step: the issuing task issues the slot. -/
def execTtfree (g : Guard) (tt : BitVec 8) (s : State) : Host.Outcome State Fault Refusal :=
  issueSlot (semTtfree g tt) s

/-- ttstat as a step: the issuing task issues the slot. -/
def execTtstat (g : Guard) (d : BitVec 5) (tt : BitVec 8) (s : State) : Host.Outcome State Fault Refusal :=
  issueSlot (semTtstat g d tt) s

end Sys2Proof.Machine
end

