-- ==== Sys2Proof/Machine/Keys.lean ====
section
/-!
DEFINITION. Measurements and the job key table (R400, R401, R405 to R407).
-/

namespace Sys2Proof.Machine

/-- A measurement extended by data (R400). -/
def extended (m d : List Byte) : List Byte := exactly 32 (Config.shake256 (m ++ Config.shake256 d))

/-- The key-table entry of a job (R406). -/
def State.keyEntry? (s : State) (job : Nat) : Option KeyEntry := s.keys.find? fun k => decide (k.job = job)

/-- The measurement of a job, or zeros where it has no entry. -/
def State.jobMeasure (s : State) (job : Nat) : List Byte := ((s.keyEntry? job).map KeyEntry.mjob).getD (List.replicate 32 0)

/-- The measurement of a job's entry extended by data (R401). -/
def State.extendJob (s : State) (job : Nat) (d : List Byte) : State :=
  { s with keys := s.keys.map fun k => if k.job = job then { k with mjob := extended k.mjob d } else k }

/-- The entry of a job removed (R407): its lines lie under a key that no access has until it is installed again (R405).
The write-back of the job's L2 lines changes no value. -/
def State.removeKey (s : State) (job : Nat) : State :=
  match s.keyEntry? job with
  | none => s
  | some k =>
    let x := k.material.take 64
    { s with
      keys := s.keys.filter fun k => !decide (k.job = job)
      oldKeys := if s.oldKeys.contains x then s.oldKeys else s.oldKeys ++ [x]
      lines := s.lines.mapDrop LineMeta.clean fun m =>
        if m.key = jobKey job then { m with key := oldKey (s.oldKeys.idxOf x) } else m }

/-! ### The measurement of the configuration (R400, R339) -/

/-- GHCFG and PRESENT of the eight Gatehouses, die by die, then RETIRED0 and RETIRED1 of D0. -/
def State.configBytes (s : State) : List Byte :=
  ((List.range 8).flatMap fun d => leBytes 8 (s.die d).gate.ghcfg.toNat ++ leBytes 8 (s.die d).gate.present.toNat)
    ++ leBytes 16 (s.die 0).lodge.retiredMask

/-- Whether LOCK is set in all eight Gatehouses. -/
def State.allLocked (s : State) : Bool := (List.range 8).all fun d => (s.die d).gate.ghcfg.getLsbD 6

/-- A write of GHCFG that may set the last LOCK: MCFG is then extended, once (R400). -/
def State.noteLock (s s' : State) : State :=
  if s'.allLocked && !s.allLocked then
    { s' with attest := { s'.attest with mcfg := extended s'.attest.mcfg s'.configBytes } }
  else s'

end Sys2Proof.Machine
end

