-- ==== Sys2Proof/Machine/Windows.lean ====
section
/-!
DEFINITION. The on-chip windows of a die (R21 to R25, Tables 1.6, 1.7 and 1.9): which bytes of them stand
where, the registers they hold (Tables 9.3, 10.1, 11.1, 13.1, 14.6, 15.2, 15.5, 16.5, 19.5, 20.1), and what
a physical write of an agent does there.
-/

namespace Sys2Proof.Machine

/-! ### Names of window registers -/

/-- A 64-bit register of a window. -/
inductive Reg where
  /-- Status of accumulator unit n (Table 9.3). -/
  | unit (c : CoreRef) (n : Nat)
  /-- Register k of a Pavilion: 0 PVID, 1 PFLAGS, 2 REFUSED, 3 RBUF (Table 15.2). -/
  | pav (die router k : Nat)
  /-- Register k of a copy engine: 0 ENGID, 1 QUEUED, 2 DONE, 3 FAULTS (Table 10.1). -/
  | engine (die e k : Nat)
  | l2dom (die : Nat)
  /-- Word k of a monitor (Table 19.5): 0 MSEL, 1 MMIN, 2 MMAX, 3 MCNT, 4 MCE, 8 to 15 MHIST. -/
  | monitor (m : MonitorRef) (k : Nat)
  /-- Register k of a Gatehouse: 0 GHCFG, 1 PRESENT, 2 GHSTAT, 3 RCFILL, 4 FLOSS, 5 FAULTS (Table 16.5). -/
  | gate (die k : Nat)
  /-- Register k of a port's link: 0 KSTAT, 1 ICNT, 2 AUTHF, 3 REPLAY, 4 NACKS (Table 16.5). -/
  | link (die l k : Nat)
  | resv (die l n : Nat)
  /-- Register k of the Ethernet port: 0 PSTAT, 1 RXSEQ, 2 DROPS, 3 TXSEQ (Table 20.1). -/
  | ether (k : Nat)
  | barrier (die b : Nat)
  | tstage (die : Nat)
  /-- Register k of the stray queue: 0 SQCNT, 1 SQDROP, 2 SQLAST (Table 15.5). -/
  | stray (die k : Nat)
  /-- Reserved, reads zero. -/
  | reserved
  deriving DecidableEq, Repr

/-- Where a byte of a window stands. -/
inductive Loc where
  /-- Plain memory. -/
  | plain
  /-- Byte i of a physical vector register. -/
  | vreg (c : CoreRef) (p i : Nat)
  /-- Byte i of a physical tile entry. -/
  | tile (c : CoreRef) (n i : Nat)
  /-- Byte i of read-only contents. -/
  | fixed (b : List Byte) (i : Nat)
  /-- Byte i of an entry slot of a Pavilion, which no window write may change (R311). -/
  | entry (die router n i : Nat)
  /-- Byte i of a register. -/
  | reg (r : Reg) (i : Nat)
  | unbacked

/-! ### Tile entries as bits (Table 8.1) -/

/-- The bits of a tile entry. -/
def TileEntry.bits (e : TileEntry) : Nat :=
  e.base % 2 ^ 15 + e.len % 2 ^ 15 * 2 ^ 16 + bitAt e.v 31 + e.expect % 2 ^ 22 * 2 ^ 32 + e.arrived % 2 ^ 22 * 2 ^ 64
    + (match e.st with
      | .empty => 0
      | .filling => 1
      | .ready => 2
      | .draining => 3) * 2 ^ 96
    + bitAt e.phase 98

/-- A tile state by its code. -/
def tileStateOf (n : Nat) : TileState :=
  match n with
  | 0 => .empty
  | 1 => .filling
  | 2 => .ready
  | _ => .draining

/-- A tile entry from its bits; its time is kept. -/
def TileEntry.ofBits (tc : W64) (n : Nat) : TileEntry :=
  { base := n % 2 ^ 15, len := n / 2 ^ 16 % 2 ^ 15, v := decide (n / 2 ^ 31 % 2 = 1), expect := n / 2 ^ 32 % 2 ^ 22,
    arrived := n / 2 ^ 64 % 2 ^ 22, st := tileStateOf (n / 2 ^ 96 % 4), phase := decide (n / 2 ^ 98 % 2 = 1), tc := tc }

/-! ### Places -/

/-- Whether a slice is in its die's interleave domain (R227). -/
def Die.inDomain (d : Die) (slice : Nat) : Bool :=
  decide (d.l2first ≤ slice) && decide (slice < d.l2first + 2 ^ d.l2logn)

/-- The cluster of a compute core, and its index within it (R15). -/
def clusterOf (core : Nat) : Nat := core / 12 / 2 * 3 + core % 12 / 4
/-- The index of a compute core within its cluster (R15). -/
def clusterIndex (core : Nat) : Nat := 4 * (core / 12 % 2) + core % 4

/-- The router of a compute core (R15). -/
def routerOf (core : Nat) : Nat := (core / 12 + 1) * 12 + core % 12

/-- The copy engine that serves a core (R211). -/
def engineOf (core : Nat) : Nat := if isLodge core then 0 else if isControl core then 1 else clusterOf core % 4

/-- The bytes of an event record (Table 19.3). -/
def EventRec.bytes (e : EventRec) : List Byte :=
  leBytes 1 e.cause ++ leBytes 1 e.kind ++ leBytes 1 e.die ++ leBytes 1 e.agent ++ leBytes 1 e.slot ++ leBytes 1 0
    ++ leBytes 2 (e.job % 2 ^ 12) ++ leBytes 8 e.info.toNat ++ leBytes 8 e.lidx.toNat ++ leBytes 4 e.pc.toNat
    ++ leBytes 4 e.cycle.toNat

/-- The bytes of a record slot of an event queue; zero where none has been written. -/
def recordBytes : Option EventRec → List Byte
  | some e => e.bytes
  | none => List.replicate 32 0

/-- The 256 bits of a flow entry (Table 15.3). -/
def FlowEntry.bits (e : FlowEntry) : Nat :=
  bitAt e.v 0 + e.action % 2 ^ 3 * 2 ^ 1 + e.flow % 2 ^ 20 * 2 ^ 4 + e.job % 2 ^ 12 * 2 ^ 24 + e.cfirst % 2 ^ 16 * 2 ^ 36
    + e.ccount % 2 ^ 12 * 2 ^ 52 + e.cop % 2 ^ 3 * 2 ^ 64 + bitAt e.ord 67 + bitAt e.sat 68 + bitAt e.rz 69
    + e.w % 2 ^ 6 * 2 ^ 70 + e.reserved % 2 ^ 4 * 2 ^ 76 + e.count % 2 ^ 16 * 2 ^ 80 + e.aslot % 2 ^ 11 * 2 ^ 96
    + e.holdn % 2 ^ 10 * 2 ^ 107 + e.reserved / 2 ^ 4 % 2 ^ 11 * 2 ^ 117 + e.next % 2 ^ 3 * 2 ^ 128
    + e.fan % 2 ^ 6 * 2 ^ 131 + bitAt e.rename 137 + e.outflow % 2 ^ 20 * 2 ^ 138 + e.reserved / 2 ^ 15 % 2 ^ 2 * 2 ^ 158
    + e.lslot % 2 ^ 2 * 2 ^ 160 + e.lq % 2 * 2 ^ 162 + e.lkind % 2 ^ 2 * 2 ^ 163 + e.tt % 2 ^ 8 * 2 ^ 165
    + e.reserved / 2 ^ 17 % 2 ^ 19 * 2 ^ 173 + e.param.toNat * 2 ^ 192

/-- Bit i of a number. -/
def bitOf (n i : Nat) : Bool := decide (n / 2 ^ i % 2 = 1)

/-- A flow entry from its 256 bits (Table 15.3); `reserved` keeps the reserved fields side by side. -/
def FlowEntry.ofBits (n : Nat) : FlowEntry :=
  { v := bitOf n 0, action := n / 2 ^ 1 % 2 ^ 3, flow := n / 2 ^ 4 % 2 ^ 20, job := n / 2 ^ 24 % 2 ^ 12,
    cfirst := n / 2 ^ 36 % 2 ^ 16, ccount := n / 2 ^ 52 % 2 ^ 12, cop := n / 2 ^ 64 % 2 ^ 3, ord := bitOf n 67,
    sat := bitOf n 68, rz := bitOf n 69, w := n / 2 ^ 70 % 2 ^ 6, count := n / 2 ^ 80 % 2 ^ 16,
    aslot := n / 2 ^ 96 % 2 ^ 11, holdn := n / 2 ^ 107 % 2 ^ 10, next := n / 2 ^ 128 % 2 ^ 3, fan := n / 2 ^ 131 % 2 ^ 6,
    rename := bitOf n 137, outflow := n / 2 ^ 138 % 2 ^ 20, lslot := n / 2 ^ 160 % 2 ^ 2, lq := n / 2 ^ 162 % 2,
    lkind := n / 2 ^ 163 % 2 ^ 2, tt := n / 2 ^ 165 % 2 ^ 8, param := BitVec.ofNat 64 (n / 2 ^ 192),
    reserved := n / 2 ^ 76 % 2 ^ 4 + n / 2 ^ 117 % 2 ^ 11 * 2 ^ 4 + n / 2 ^ 158 % 2 ^ 2 * 2 ^ 15 + n / 2 ^ 173 % 2 ^ 19 * 2 ^ 17 }

/-- Entry slot n of a Pavilion. -/
def Pavilion.entry (p : Pavilion) (n : Nat) : FlowEntry := p.entries.get FlowEntry.empty n

/-- Place of an offset within a core's window (Table 1.7, R194, R387). -/
def State.locateCore (s : State) (c : CoreRef) (o : Nat) : Loc :=
  if o < 0x300000 then .plain
  else if 0x4000000 ≤ o ∧ o < 0x4080000 then (if isCompute c.core then .plain else .unbacked)
  else if 0x8000000 ≤ o ∧ o < 0x8100000 then (if isCompute c.core then .plain else .unbacked)
  else if 0xC000000 ≤ o ∧ o < 0xC040000 then .vreg c ((o - 0xC000000) / 0x1000) (o % 0x1000)
  else if 0xE000000 ≤ o ∧ o < 0xE002000 then .tile c ((o - 0xE000000) / 32) (o % 32)
  else if 0xF001000 ≤ o ∧ o < 0xF001200 ∧ isCompute c.core = true then .reg (.unit c ((o - 0xF001000) / 8)) (o % 8)
  else if 0xF002000 ≤ o ∧ o < 0xF002040 then .fixed (padTo 64 (s.core c).retrec) (o % 64)
  else .unbacked

/-- Place of an offset within a monitor (Table 19.5). -/
def locateMonitor (m : MonitorRef) (o : Nat) : Loc :=
  if o < 0x28 ∨ (0x40 ≤ o ∧ o < 0x80) then .reg (.monitor m (o / 8)) (o % 8) else .unbacked

/-- Place of an offset within the port block of a link; key registers only on a rack port (R354). -/
def locatePort (die l o : Nat) : Loc :=
  if 0x200 ≤ o ∧ o < 0x400 then .reg (.resv die l ((o - 0x200) / 8)) (o % 8)
  else if o < 0x28 ∧ (2 ≤ l ∨ 0x18 ≤ o) then .reg (.link die l (o / 8)) (o % 8)
  else .unbacked

/-- Place of an offset within register block b of a die (Table 1.6). -/
def locateBlock (die b o : Nat) : Loc :=
  if (b ≤ 3 ∨ (5 ≤ b ∧ b ≤ 7)) ∧ 0xC00 ≤ o then locateMonitor ⟨die, false, b⟩ (o - 0xC00)
  else if b ≤ 3 then
    (if o < 0x20 then .reg (.engine die b (o / 8)) (o % 8) else if o < 0x100 then .reg .reserved (o % 8) else .unbacked)
  else if b = 5 then (if 0x40 ≤ o ∧ o < 0x48 then .reg (.l2dom die) (o % 8) else .unbacked)
  else if b = 7 then
    (if o < 0x30 then .reg (.gate die (o / 8)) (o % 8)
     else if 0x100 ≤ o ∧ o < 0x500 then locatePort die 2 (o - 0x100)
     else if 0x500 ≤ o ∧ o < 0x900 then locatePort die 3 (o - 0x500)
     else .unbacked)
  else if b = 8 ∨ b = 9 then (if 0x100 ≤ o ∧ o < 0x500 then locatePort die (b - 8) (o - 0x100) else .unbacked)
  else if b = 10 ∧ die = 0 then (if o < 0x20 then .reg (.ether (o / 8)) (o % 8) else .unbacked)
  else .unbacked

/-- Place of an offset within a Pavilion's window (Table 15.1). -/
def locatePav (die router o : Nat) : Loc :=
  if o < 0x40000 then .plain
  else if o < 0x44000 then .entry die router ((o - 0x40000) / 32) (o % 32)
  else if 0x80000 ≤ o ∧ o < 0x80020 then .reg (.pav die router ((o - 0x80000) / 8)) (o % 8)
  else if 0x80020 ≤ o ∧ o < 0x80040 then .reg .reserved (o % 8)
  else .unbacked

/-- Place of an offset within lodge space, below the core windows (Table 1.9). -/
def State.locateLodge (s : State) (die o : Nat) : Loc :=
  if 0x100000 ≤ o ∧ o < 0x100800 then .reg (.barrier die ((o - 0x100000) / 8)) (o % 8)
  else if 0x200000 ≤ o ∧ o < 0x200008 then .reg (.tstage die) (o % 8)
  else if 0x300000 ≤ o ∧ o < 0x300018 then .reg (.stray die ((o - 0x300000) / 8)) (o % 8)
  else if 0x400000 ≤ o ∧ o < 0x402000 then .fixed (recordBytes ((s.die die).events.get none ((o - 0x400000) / 32))) (o % 32)
  else if 0x500000 ≤ o ∧ o < 0x507800 then locateMonitor ⟨die, true, (o - 0x500000) / 256⟩ (o % 256)
  else .unbacked

/-- Place of a byte of a die window, by its offset in the window (Table 1.6, Table 1.9). -/
def State.locateDie (s : State) (die o : Nat) : Loc :=
  if o < 0x600000000 then s.locateCore ⟨die, o / 0x10000000⟩ (o % 0x10000000)
  else if o < 0x800000000 then .unbacked
  else if o < 0x900000000 then
    (if (o - 0x800000000) / 0x100000 < 120 then locatePav die ((o - 0x800000000) / 0x100000) (o % 0x100000) else .unbacked)
  else if o < 0xA00000000 then
    (if (o - 0x900000000) / 0x4000000 < 16 ∧ (s.die die).inDomain ((o - 0x900000000) / 0x4000000) = false then .plain
     else .unbacked)
  else if o < 0xB00000000 then
    (if (o - 0xA00000000) / 0x10000 ≤ 10 then locateBlock die ((o - 0xA00000000) / 0x10000) (o % 0x10000) else .unbacked)
  else if o < 0xB10000000 then s.locateLodge die (o - 0xB00000000)
  else if o < 0xB20000000 then s.locateCore ⟨die, 96⟩ (o % 0x10000000)
  else if o < 0xB30000000 then s.locateCore ⟨die, 97⟩ (o % 0x10000000)
  else if 0xB40000000 ≤ o ∧ o < 0xB44000000 then .plain
  else .unbacked

/-- Base of the die windows (Table 1.5). -/
def windowBase : Nat := 0x30000000000

/-- Place of a byte at a module offset above HBM (Table 1.5). -/
def State.locate (s : State) (o : Nat) : Loc :=
  if windowBase ≤ o ∧ o < windowBase + 8 * 0x1000000000 then
    s.locateDie ((o - windowBase) / 0x1000000000) ((o - windowBase) % 0x1000000000)
  else .unbacked

/-! ### Reading -/

/-- An accumulator unit. -/
def Core.accUnit (c : Core) (n : Nat) : AccUnit := c.units.get AccUnit.free n

/-- Whether a command of a slot names a tile of its core, so that the tile is busy (R191). -/
def Core.tileBusy (c : Core) (head : Nat) : Bool :=
  c.cmds.any fun e => match e.2 with
    | some x => (match x.kind with
      | .mstrm t => decide (t = head)
      | .mout t => decide (t = head)
      | _ => false)
    | none => false

/-- The status word of an accumulator unit (Table 9.3). -/
def Core.unitStatus (c : Core) (n : Nat) : W64 :=
  let u := c.accUnit n
  if u.units = 0 then 0
  else
    let f := if u.head = n then u.flags.toNat else 0
    BitVec.ofNat 64 (f % 2 ^ 5 + (if u.live then 2 else 1) * 2 ^ 6 + bitAt (c.tileBusy u.head) 8 + u.head * 2 ^ 9
      + u.units * 2 ^ 15 + u.cols * 2 ^ 20 + u.owner * 2 ^ 22)

/-- Commands of a die's cores that wait for or run on a copy engine (R211, Table 10.1). -/
def State.engineQueued (s : State) (die e : Nat) : Nat :=
  ((s.coreRefs.filter fun c => decide (c.die = die) && decide (engineOf c.core = e)).map fun c =>
    ((s.core c).cmds.filter fun x => match x.2 with
      | some x => decide (x.kind = .cpy) || decide (x.kind = .gth) || decide (x.kind = .sct)
      | none => false).length).sum

/-- A barrier as its state word (Table 13.1). -/
def Barrier.word (b : Barrier) : W64 :=
  BitVec.ofNat 64 (b.count % 64 + b.arrived % 64 * 2 ^ 6 + bitAt b.phase 12 + bitAt b.alloc 13 + b.group % 2 ^ 32 * 2 ^ 32)

/-- A link of a die: 0 west ring, 1 east ring, 2 and 3 rack ports. -/
def Die.link (d : Die) (l : Nat) : Link := d.links.get Link.reset l

/-- A link of a die changed. -/
def State.modLink (s : State) (die l : Nat) (f : Link → Link) : State :=
  s.modDie die fun d => { d with links := Tbl.set Link.reset d.links l (f (d.link l)) }

/-- Whether a slot of a link's transmit or receive direction holds a key (keys 0 and 1 transmit, 2 and 3
receive). -/
def Link.hasKey (l : Link) (k : Nat) : Bool := (l.keys.get none k).isSome

/-- KSTAT (Table 16.5). -/
def Link.kstat (l : Link) : W64 :=
  BitVec.ofNat 64 (l.txAct % 2 + l.rxAct % 2 * 2 + bitAt (l.hasKey 0) 2 + bitAt (l.hasKey 1) 3 + bitAt (l.hasKey 2) 4
    + bitAt (l.hasKey 3) 5 + bitAt l.liveOld 6 + bitAt l.switching.isSome 7)

/-- A monitor of the module. -/
def State.monitor (s : State) (m : MonitorRef) : Monitor :=
  (s.die m.die).monitors.get Monitor.reset (if m.pavilion then 16 + m.idx else m.idx)

/-- A monitor of the module changed. -/
def State.modMonitor (s : State) (m : MonitorRef) (f : Monitor → Monitor) : State :=
  let k := if m.pavilion then 16 + m.idx else m.idx
  s.modDie m.die fun d => { d with monitors := Tbl.set Monitor.reset d.monitors k (f (d.monitors.get Monitor.reset k)) }

/-- A word of a monitor (Table 19.5). -/
def Monitor.word (m : Monitor) (k : Nat) : W64 :=
  match k with
  | 0 => BitVec.ofNat 64 m.qty
  | 1 => m.min
  | 2 => m.max
  | 3 => m.count
  | 4 => m.ce
  | _ => m.hist.get 0 (2 * (k - 8) + 1) ++ m.hist.get 0 (2 * (k - 8))

/-- Whether a secure association is live in each direction (Table 20.1). -/
def HostPort.isSecure (h : HostPort) : Bool := (h.sas.any fun a => a.rx) && h.sas.any fun a => !a.rx

/-- The value of a window register. -/
def State.readWord (s : State) (r : Reg) : W64 :=
  match r with
  | .unit c n => (s.core c).unitStatus n
  | .pav die router k =>
    let p := (s.die die).pav router
    (match k with
      | 0 => BitVec.ofNat 64 (router % 12 + router / 12 * 16)
      | 1 => p.pflags.setWidth 64
      | 2 => p.refused
      | _ => BitVec.ofNat 64 p.rbuf)
  | .engine die e k =>
    (match k with
      | 0 => BitVec.ofNat 64 (e + die * 4)
      | 1 => BitVec.ofNat 64 (s.engineQueued die e)
      | 2 => (s.die die).engDone.get 0 e
      | _ => (s.die die).engFaults.get 0 e)
  | .l2dom die =>
    BitVec.ofNat 64 ((s.die die).l2first + (s.die die).l2logn * 16 + bitAt (s.die die).l2busy 7)
  | .monitor m k => (s.monitor m).word k
  | .gate die k =>
    let g := (s.die die).gate
    (match k with
      | 0 => g.ghcfg
      | 1 => g.present
      | 2 => BitVec.ofNat 64 (((s.die die).link 2).st % 4 + ((s.die die).link 3).st % 4 * 4
          + bitAt (((s.die die).link 2).wrapped || ((s.die die).link 3).wrapped) 4)
      | 3 => BitVec.ofNat 64 g.cache.length
      | 4 => g.floss
      | _ => g.faults)
  | .link die l k =>
    let x := (s.die die).link l
    (match k with
      | 0 => x.kstat
      | 1 => BitVec.ofNat 64 x.icnt
      | 2 => x.authf
      | 3 => x.replays
      | _ => x.nacks)
  | .resv die l n => ((s.die die).link l).resv.get 0 n
  | .ether k =>
    (match k with
      | 0 => BitVec.ofNat 64 (s.host.link % 4 + bitAt s.host.isSecure 2)
      | 1 => BitVec.ofNat 64 s.host.rxSeq
      | 2 => s.host.drops
      | _ => BitVec.ofNat 64 s.host.txSeq)
  | .barrier die b => ((s.die die).barrier b).word
  | .tstage die => (s.die die).tstage.setWidth 64
  | .stray die k =>
    (match k with
      | 0 => BitVec.ofNat 64 (s.die die).stray.length
      | 1 => (s.die die).sqdrop
      | _ => (s.die die).sqlast)
  | .reserved => 0

/-- A byte at a module offset above HBM, if one is there. -/
def State.windowByte (s : State) (o : Nat) : Option Byte :=
  match s.locate o with
  | .plain => some (s.mem.byte o)
  | .vreg c p i => some (BitVec.ofNat 8 ((((s.core c).vreg p).cell (i / 4)).toNat / 2 ^ (8 * (i % 4))))
  | .tile c n i => some (BitVec.ofNat 8 (((s.core c).tile n).bits / 2 ^ (8 * i)))
  | .fixed b i => some (b.getD i 0)
  | .entry die router n i => some (BitVec.ofNat 8 ((((s.die die).pav router).entry n).bits / 2 ^ (8 * i)))
  | .reg r i => some (BitVec.ofNat 8 ((s.readWord r).toNat / 2 ^ (8 * i)))
  | .unbacked => none

/-- n bytes from a module offset above HBM; none when one of them is unbacked (R21). -/
def State.readWindow (s : State) (o : Nat) : Nat → Option (List Byte)
  | 0 => some []
  | n + 1 =>
    match s.windowByte o with
    | none => none
    | some b => (s.readWindow (o + 1) n).map fun l => b :: l

/-- A physical read by an agent of R24, with the key of its HBM accesses: bytes, or the refusal (R20, R21,
R405). -/
def State.physRead (s : State) (o n key : Nat) : Except Trap (List Byte) :=
  if o + n ≤ hbmSize then s.readHbm o n key
  else match s.readWindow o n with
    | some b => .ok b
    | none => .error ⟨0x64, BitVec.ofNat 64 (s.physical o)⟩

/-! ### Writing -/

/-- A word with some of its bits replaced. -/
def mergeWord (old mask v : W64) : W64 := (old &&& ~~~mask) ||| (v &&& mask)

/-- A word with the ones written cleared (W1C). -/
def clearOnes (old mask v : W64) : W64 := old &&& ~~~(mask &&& v)

/-- A write of MSEL: the quantity is selected and the samples are cleared (R388). -/
def Monitor.select (v : W64) (m : Monitor) : Monitor :=
  { m with qty := v.toNat % 16, min := BitVec.allOnes 64, max := 0, count := 0, hist := [] }

/-- A barrier from its state word; its times are kept (Table 13.1). -/
def Barrier.ofWord (v : W64) (b : Barrier) : Barrier :=
  { b with count := v.toNat % 64, arrived := v.toNat / 2 ^ 6 % 64, phase := v.getLsbD 12, alloc := v.getLsbD 13,
           group := v.toNat / 2 ^ 32 }

/-- A Gatehouse register written: GHCFG and PRESENT only until LOCK is set (R339); FLOSS and FAULTS are
cleared by ones; the others are read only (Table 16.5). -/
def Gatehouse.write (k : Nat) (mask v : W64) (g : Gatehouse) : Gatehouse :=
  match k with
  | 0 => if g.ghcfg.getLsbD 6 then g else { g with ghcfg := mergeWord g.ghcfg mask v &&& 0x7F }
  | 1 => if g.ghcfg.getLsbD 6 then g else { g with present := mergeWord g.present mask v }
  | 4 => { g with floss := clearOnes g.floss mask v }
  | 5 => { g with faults := clearOnes g.faults mask v }
  | _ => g

/-- A port register written (Table 16.5). -/
def Link.write (k : Nat) (mask v : W64) (l : Link) : Link :=
  match k with
  | 2 => { l with authf := clearOnes l.authf mask v }
  | 3 => { l with replays := clearOnes l.replays mask v }
  | 4 => { l with nacks := clearOnes l.nacks mask v }
  | _ => l

/-- A Gatehouse's module number follows GHCFG of D0 (R13). -/
def State.followModule (s : State) : State := { s with module := (s.die 0).gate.ghcfg.setWidth 6 }

/-- Whether a writer may write a register; another's write is refused (R272, R300, R354, R388). -/
def Reg.allows (w : Writer) (r : Reg) : Bool :=
  match r with
  | .barrier _ _ => w.lodge
  | .tstage _ => w.lodge
  | .monitor _ _ => w.lodge
  | .gate die k => w.lodge && (if k < 2 then decide (w.die = 0) else decide (w.die = die))
  | .link die _ _ => w.lodge && decide (w.die = die)
  | .resv die _ _ => w.lodge && decide (w.die = die)
  | _ => true

/-- An accumulator unit replaced. -/
def Core.setUnit (c : Core) (n : Nat) (u : AccUnit) : Core := { c with units := Tbl.set AccUnit.free c.units n u }

/-- A tile's flags cleared by ones written to its first unit's status (Table 9.3). -/
def AccUnit.cleared (n : Nat) (v : BitVec 6) (u : AccUnit) : AccUnit :=
  if u.head = n then { u with flags := u.flags &&& ~~~(v &&& 0b011101) } else u

/-- The bits `mask` of a window register written with those of v. -/
def State.writeWord (s : State) (r : Reg) (mask v : W64) : State :=
  match r with
  | .unit c n =>
    s.modCore c fun k => k.setUnit n ((k.accUnit n).cleared n ((mask &&& v).setWidth 6))
  | .pav die router k =>
    if k = 1 then s.modPav die router fun p => { p with pflags := p.pflags &&& ~~~((mask &&& v).setWidth 6) } else s
  | .engine die e k =>
    if k = 3 then s.modDie die fun d => { d with engFaults := Tbl.set 0 d.engFaults e (clearOnes (d.engFaults.get 0 e) mask v) }
    else s
  | .l2dom _ => s
  | .monitor m k =>
    if k = 0 then s.modMonitor m (Monitor.select (mergeWord ((s.monitor m).word 0) mask v))
    else if k = 4 then s.modMonitor m fun x => { x with ce := clearOnes x.ce mask v }
    else s
  | .gate die k => s.noteLock (s.modGate die (Gatehouse.write k mask v)).followModule
  | .link die l k => s.modLink die l (Link.write k mask v)
  | .resv die l n =>
    s.modLink die l fun x => { x with resv := Tbl.set 0 x.resv n (mergeWord (x.resv.get 0 n) mask v &&& 0x1FFFFFFFF) }
  | .ether k => if k = 2 then { s with host := { s.host with drops := clearOnes s.host.drops mask v } } else s
  | .barrier die b => s.modBarrier die b (fun x => Barrier.ofWord (mergeWord x.word mask v) x)
  | .tstage die => s.modDie die fun d => { d with tstage := (mergeWord (d.tstage.setWidth 64) mask v).setWidth 16 }
  | .stray die k => if k = 1 then s.modDie die fun d => { d with sqdrop := clearOnes d.sqdrop mask v } else s
  | .reserved => s

/-- Whether a physical vector register belongs to a resident task that is not halted (R25). -/
def Core.ownsVreg (c : Core) (p : Nat) : Bool :=
  c.tasks.any fun e => match e.2 with
    | some t => !t.halted && !decide (t.status = .ending) && decide (t.vbase ≤ p) && decide (p < t.vbase + t.vregs)
    | none => false

/-- Whether a physical tile entry belongs to a resident task that is not halted (R25, R175). -/
def State.ownsTile (s : State) (c : CoreRef) (n : Nat) : Bool :=
  match s.task? ⟨c.die, c.core, if isCompute c.core then n / 64 else 0⟩ with
  | some t => !t.halted
  | none => false

/-- Whether a module offset lies in the direct window of a die's L2 slices (Table 1.6). -/
def inSlices (d o : Nat) : Bool :=
  decide (dieBase d + 0x900000000 ≤ o) && decide (o < dieBase d + 0xA00000000)

/-- Whether a module offset lies in a staging slice of a die: one that TSTAGE names outside the interleave domain (R300). -/
def State.inStaging (s : State) (d o : Nat) : Bool :=
  let k := (o - (dieBase d + 0x900000000)) / 0x4000000
  inSlices d o && (s.die d).tstage.getLsbD k && !(s.die d).inDomain k

/-- A run whose results are unspecified from now on where it runs on a die (R300). -/
def TileRun.spoilOn (d : Nat) (g : TileRun) : TileRun :=
  if g.parts.any fun p => match p.worker with
    | .core k _ => decide (k.die = d)
    | .module _ => false
  then { g with spoilt := true } else g

/-- A store through the direct window of a slice, which spoils the tile instructions that run on its die where it is a
staging slice (R300). -/
def State.storeSlice (s : State) (o : Nat) : State :=
  match (List.range 8).find? fun d => s.inStaging d o with
  | none => s
  | some d =>
    let spoil := fun (x : Cmd) => { x with run := x.run.map (TileRun.spoilOn d) }
    { s with cores := s.cores.map fun e => (e.1, { e.2 with cmds := e.2.cmds.map fun y => (y.1, y.2.map spoil) }) }

/-- The window-conflict fault of a discarded write (R25). -/
def State.conflict (s : State) (w : Writer) (o : Nat) : State :=
  s.postFault w.die w.agent w.slot w.job 0x2B (BitVec.ofNat 64 (s.physical o)) w.lidx

/-- A run of bytes within one register or entry, or a run of plain memory, written; `none` when the write is
refused (R21). -/
def State.writeAt (s : State) (w : Writer) (o : Nat) (b : List Byte) : Option State :=
  match s.locate o with
  | .plain => some ({ s with mem := s.mem.setBytes o b }.storeSlice o)
  | .vreg c p i =>
    if (s.core c).ownsVreg p then some (s.conflict w o)
    else
      let old := bytesOf ((s.core c).vreg p)
      some (s.modCore c fun k =>
        { k with vfile := Tbl.set VReg.zero k.vfile p (wordsOf (old.take i ++ b ++ old.drop (i + b.length))) })
  | .tile c n i =>
    if s.ownsTile c n then some (s.conflict w o)
    else
      let e := (s.core c).tile n
      let old := leBytes 32 e.bits
      some (s.modCore c fun k =>
        k.setTile n (TileEntry.ofBits e.tc (leNat (old.take i ++ b ++ old.drop (i + b.length)))))
  | .fixed _ _ => some s
  | .entry _ _ _ _ => none
  | .reg r i =>
    if r.allows w then
      let mask := BitVec.ofNat 64 ((2 ^ (8 * b.length) - 1) * 2 ^ (8 * i))
      some (s.writeWord r mask (BitVec.ofNat 64 (leNat b * 2 ^ (8 * i))))
    else none
  | .unbacked => none

/-- Bytes up to the next boundary at which a run of a window may change its kind: 8 for registers, 32 for
tile entries, else 128. -/
def State.runLength (s : State) (o : Nat) : Nat :=
  match s.locate o with
  | .reg _ i => 8 - i
  | .tile _ _ i => 32 - i
  | _ => 128 - o % 128

/-- Whether any byte of a run may not be written (R21). -/
def State.refusesWrite (s : State) (w : Writer) (o : Nat) (b : List Byte) : Bool :=
  (List.range b.length).any fun i =>
    match s.locate (o + i) with
    | .unbacked => true
    | .entry _ _ _ _ => true
    | .reg r _ => !r.allows w
    | _ => false

/-- A run of bytes written over a window, run by run; `fuel` bounds the runs. -/
def State.writeRuns (s : State) (w : Writer) (o : Nat) (b : List Byte) : Nat → State
  | 0 => s
  | fuel + 1 =>
    if b = [] then s
    else
      let n := s.runLength o
      ((s.writeAt w o (b.take n)).getD s).writeRuns w (o + n) (b.drop n) fuel

/-- A physical write by an agent of R24: the state after it, and the refusal if it was refused (R20, R21,
R24, R25, R405). A refused write is discarded whole. -/
def State.physWrite (s : State) (w : Writer) (key o : Nat) (b : List Byte) : State × Option Trap :=
  if o + b.length ≤ hbmSize then
    (if s.hasKey key then (s.storeHbm o key b, none) else (s, some ⟨0x64, BitVec.ofNat 64 (s.physical o)⟩))
  else if s.refusesWrite w o b then (s, some ⟨0x64, BitVec.ofNat 64 (s.physical o)⟩)
  else (s.writeRuns w o b b.length, none)

end Sys2Proof.Machine
end

