-- ==== Sys2Proof/Machine/Commands.lean ====
section
/-!
DEFINITION. Commands that carry a token (R213 to R218, R223): descriptors, bindings, the issue of a
command, what every producing instruction checks, arrivals in tile entries (R177), and EDSC, KWAIT,
KTEST and KREL.
-/

namespace Sys2Proof.Machine

/-! ### Descriptors and tokens -/

/-- The fields of descriptor e of a task: field f at key f (R216). -/
def Task.descriptor (t : Task) (e : Nat) : Tbl W64 :=
  (t.desc.filter fun x => decide (x.1 / 64 = e)).map fun x => (x.1 % 64, x.2)

/-- A field of a descriptor copy. -/
def fieldOf (f : Tbl W64) (code : Nat) : Nat := (f.get 0 code).toNat

/-- The TTE field: the entry, if it is valid (Table 10.3). -/
def tteEntry (f : Tbl W64) : Option Nat := if bitOf (fieldOf f 24) 8 then some (fieldOf f 24 % 256) else none

/-- The tokens that KIN0 to KIN2 name (Table 10.3). -/
def kinTokens (f : Tbl W64) : List Nat :=
  [21, 22, 23].filterMap fun c => if bitOf (fieldOf f c) 6 then some (fieldOf f c % 64) else none

/-- The first of KIN0 to KIN2 that breaks Table 10.3 or R213. -/
def kinBad (core : Nat) (f : Tbl W64) : Option Nat :=
  [21, 22, 23].find? fun c =>
    decide (128 ≤ fieldOf f c) || (bitOf (fieldOf f c) 6 && decide (tokenCount core ≤ fieldOf f c % 64))

/-- The token-busy trap of a producing command (R214). -/
def tokenTrap (tok : Nat) (s : State) : Option Trap :=
  match (s.me.token tok).st with
  | .pending | .faulted => some ⟨0x41, BitVec.ofNat 64 tok⟩
  | _ => none

/-- The engine-descriptor trap of a field (Table 19.1). -/
def fieldTrap (code : Option Nat) : Option Trap := code.map fun c => ⟨0x40, BitVec.ofNat 64 c⟩

/-- A slot that produces a token: a token the task does not have is an illegal instruction (R213). -/
def semToken (m : SlotSem) (tok : BitVec 6) : SlotSem :=
  { m with illegal := fun s => m.illegal s || decide (tokenCount s.cur.core ≤ tok.toNat) }

/-- The command buffer's physical token of the issuing task (R211, R213). -/
def State.myPhys (s : State) (tok : Nat) : Nat := physToken s.cur tok

/-- A token produced in the region of a slot, if one is open (R208). -/
def Core.madeToken (c : Core) (slot tok : Nat) : Core :=
  match c.regions.get none slot with
  | none => c
  | some g => { c with regions := Tbl.set none c.regions slot (some { g with made := tok :: g.made }) }

/-- A command issued: its descriptor copy and its bindings as the tokens stand at issue (R215, R216); its
token becomes PENDING (R214). -/
def State.issueCmd (s0 s : State) (kind : CmdKind) (tok : Nat) (fields : Tbl W64) (deps : List Nat) (inside : Bool)
    (run : Option TileRun) : State :=
  let t := s0.me
  let st := fun k => (t.token k).st
  let x : Cmd :=
    { kind := kind, slot := s0.cur.slot, lidx := t.lidx, job := t.job,
      key := if isLodge s0.cur.core then
          (let p := (s0.die s0.cur.die).lodge.pkey.toNat
           if p = 0 then fwKey else jobKey p)
        else jobKey t.job,
      fields := fields, deps := (deps.filter fun k => decide (st k = .pending)).dedup,
      depFault := deps.find? fun k => decide (st k = .faulted),
      started := false, cells := 0, elems := 0, skip := 0, idx := [], spots := [], stores := [], lines := [], olds := [],
      inside := inside, within := s0.inRegion, run := run }
  (s.modMe fun t => t.setToken tok ⟨.pending, 0, 0⟩).modHere fun c =>
    (c.madeToken s0.cur.slot tok).setCmd (s0.myPhys tok) (some x)

/-! ### Arrivals (R177) -/

/-- Whether an arrival of n bytes overruns an entry. -/
def TileEntry.overruns (e : TileEntry) (n : Nat) : Bool :=
  decide (e.st = .ready) || decide (e.st = .draining) || decide (e.expect < e.arrived + n)

/-- An entry after a counted arrival of n bytes at a time (Table 8.2, R251). -/
def TileEntry.counted (n : Nat) (tc : W64) (e : TileEntry) : TileEntry :=
  let a := e.arrived + n
  let e := { e with arrived := a, tc := tmax e.tc tc }
  if a = e.expect then { e with st := .ready, phase := !e.phase } else { e with st := .filling }

/-- Whether a part of an arrival falls outside an entry's range. -/
def TileEntry.misses (e : TileEntry) (p : Nat × List Byte) : Bool :=
  decide (p.1 < e.base * 128) || decide ((e.base + e.len) * 128 < p.1 + p.2.length)

/-- An arrival: one write that names an entry of a task, by its parts at window offsets. It is written and
counted, or discarded with its fault (R177). One that both misses the range and overruns is posted as missing it: DESIGN
CHOICE, notes/assumptions/105. -/
def State.arrive (s : State) (r : TaskRef) (entry : Nat) (parts : List (Nat × List Byte)) (tc : W64) (within : Bool := true) :
    State :=
  let p := physTile r entry
  let e := (s.core r.coreRef).tile p
  let n := (parts.map fun x => x.2.length).sum
  let info := BitVec.ofNat 64 entry
  if !e.v || parts.any e.misses then s.postTaskFault r 0x26 info
  else if e.overruns n then s.postTaskFault r 0x27 info
  else
    (parts.foldl (fun s x => s.writeLocal r.coreRef r.slot (windowAddr r.coreRef (s.task r) x.1) x.2 within) s).modCore
      r.coreRef fun c => c.setTile p (TileEntry.counted n tc (c.tile p))

/-- Whether a run of a core's near memory touches the range of a drain that has not finished (R173). -/
def State.drainHolds (s : State) (c : CoreRef) (o n : Nat) : Bool :=
  (s.core c).tasks.any fun e => match e.2 with
    | some t =>
      t.draining && decide (o < nearBase c + t.movingRange.1 + t.movingRange.2) && decide (nearBase c + t.movingRange.1 < o + n)
    | none => false

/-! ### EDSC, KWAIT, KTEST, KREL -/

/-- EDSC (R218). -/
def semEdsc (g : Guard) (r : BitVec 5) (e : BitVec 4) (field : BitVec 6) : SlotSem :=
  { guard := g
    eff := fun s0 s => s.modMe fun t =>
      { t with desc := Tbl.set 0 t.desc (64 * e.toNat + field.toNat) (s0.sreg r) } }

/-- KWAIT: stalls while PENDING, traps on FAULTED, and orders the task after the production (R223, R251). -/
def semKwait (g : Guard) (tok : BitVec 6) : SlotSem :=
  semToken
    { guard := g
      trap := fun _ s0 => trapIf (decide ((s0.me.token tok.toNat).st = .faulted)) ⟨0x42, zext tok⟩
      wait := fun s0 s => if (s0.me.token tok.toNat).st = .pending then some s else none
      eff := fun s0 s => s.modMe fun t => t.observe (s0.me.token tok.toNat).tc } tok

/-- KTEST: p_d := the token is not PENDING, latency 1 (R223, R251). -/
def semKtest (g : Guard) (tok : BitVec 6) (pd : BitVec 3) : SlotSem :=
  semToken
    { guard := g
      eff := fun s0 s =>
        let k := s0.me.token tok.toNat
        let ok := decide (k.st ≠ .pending)
        (if ok then s.modMe fun t => t.observe k.tc else s).push 1 (.pred pd.toNat ok) } tok

/-- KREL: stalls while PENDING, and releases the token (R223). -/
def semKrel (g : Guard) (tok : BitVec 6) : SlotSem :=
  semToken
    { guard := g
      wait := fun s0 s => if (s0.me.token tok.toNat).st = .pending then some s else none
      eff := fun _ s => s.modMe fun t => t.setToken tok.toNat Token.free } tok

/-! ### The instructions as steps -/

/-- edsc as a step: the issuing task issues the slot. -/
def execEdsc (g : Guard) (r : BitVec 5) (e : BitVec 4) (field : BitVec 6) (s : State) : Host.Outcome State Fault Refusal :=
  issueSlot (semEdsc g r e field) s

/-- kwait as a step: the issuing task issues the slot. -/
def execKwait (g : Guard) (tok : BitVec 6) (s : State) : Host.Outcome State Fault Refusal :=
  issueSlot (semKwait g tok) s

/-- ktest as a step: the issuing task issues the slot. -/
def execKtest (g : Guard) (tok : BitVec 6) (pd : BitVec 3) (s : State) : Host.Outcome State Fault Refusal :=
  issueSlot (semKtest g tok pd) s

/-- krel as a step: the issuing task issues the slot. -/
def execKrel (g : Guard) (tok : BitVec 6) (s : State) : Host.Outcome State Fault Refusal :=
  issueSlot (semKrel g tok) s

end Sys2Proof.Machine
end

