-- ==== Sys2Proof/Machine/EngineMem.lean ====
section
/-!
DEFINITION. Accesses of engines by the addresses of R217: where an element lies, reading and writing it
(R24, R158, R230 to R235, R264, R341, R405), the times of engines (R243, R244, R250), and the record of an
engine's fault (Table 19.3).
-/

namespace Sys2Proof.Machine

/-! ### Addresses (R217) -/

/-- The space of an engine address, bits [63:62]. -/
def addrForm (a : W64) : Nat := a.toNat / 2 ^ 62

/-- Bits [61:0] of an engine address. -/
def addrOff (a : W64) : Nat := a.toNat % 2 ^ 62

/-- Bits of the offset of a space. -/
def formWidth (form : Nat) : Nat :=
  match form with
  | 0 => 56
  | 1 => 48
  | 2 => 22
  | _ => 19

/-- Whether an address keeps the form of R217 for a core. -/
def addrOk (core : Nat) (a : W64) : Bool :=
  decide (addrOff a < 2 ^ formWidth (addrForm a)) && (decide (addrForm a ≠ 1) || isLodge core)

/-- Bytes of operand memory (Table 1.7). -/
def operandBytes : Nat := 0x80000

/-! ### Agents -/

/-- An engine at work for a command: the issuing task and its physical token, its position in its die's
share of the Rotunda (Table 12.1), its identity as a writer, its job, and the key of its form-01 accesses; and, of a copy,
the places found for its cell under way (R236) and the bytes it has written (R250). `within` says whether its writes belong
to the region of its slot (R205). -/
structure Agent where
  task : TaskRef
  tok : Nat
  pos : Nat
  writer : Writer
  job : Nat
  key : Nat
  spots : List (W64 × Bool × Spot) := []
  stores : List (Nat × List Byte) := []
  within : Bool := true
  deriving DecidableEq, Repr

/-- Time of an agent of a die by its position offset (R243). -/
def State.agentTime (s : State) (die pos : Nat) : W64 := (s.die die).agentTime.get 0 pos

/-- An agent's time raised. -/
def State.raiseAgent (s : State) (die pos : Nat) (t : W64) : State :=
  s.modDie die fun d => { d with agentTime := Tbl.set 0 d.agentTime pos (tmax (d.agentTime.get 0 pos) t) }

/-- Rotunda position of an agent of a die (Table 12.1). -/
def agentPosition (die pos : Nat) : Nat := 3072 + 128 * die + pos

/-- Position offset of copy engine e, of the collective engine, of the Gatehouse and of a router's
Pavilion (Table 12.1). -/
def enginePos (e : Nat) : Nat := 2 + e
/-- Position offset of the collective engine. -/
def collPos : Nat := 6
/-- Position offset of the Gatehouse. -/
def gatePos : Nat := 7
/-- Position offset of a Pavilion. -/
def pavPos (router : Nat) : Nat := 8 + router

/-! ### Where an element lies -/

/-- What an engine's failed access comes to: a walk that waits for another module asks for its entry (R20). -/
def State.spotFails (s : State) (g : Agent) (t : Trap) : State := if t.isWalk then s.askWalk g.task t else s

/-- A physical address on another module, if its module is present (R20). -/
def State.farSpot (s : State) (die : Nat) (va : W64) (pa gen : Nat) (phys : Bool) : Except Trap Spot :=
  if s.isPresent die (paModule pa) then .ok (.far va pa gen phys)
  else .error ⟨0x8A, BitVec.ofNat 64 (requestId s.module.toNat die (s.nextSeq die (paModule pa)))⟩

/-- The place of a translated element (R230 to R234, R391). -/
def State.virtualSpot (s : State) (g : Agent) (a : W64) (write : Bool) : Except Trap Spot :=
  match s.translate g.task.coreRef s.freeCtr g.job a.toNat write with
  | .error e => .error e
  | .ok e =>
    let pa := e.addr a.toNat
    if inGrotto pa then .error ⟨0x64, BitVec.ofNat 64 pa⟩
    else if paModule pa ≠ s.module.toNat then s.farSpot g.task.die a pa e.gen false
    else if e.gen ≠ s.genOf (paOffset pa) then .error ⟨0x63, a⟩
    else .ok (.hbm (paOffset pa))

/-- The place of an element of n bytes at an engine address (R217, R220): a malformed address gives the
engine-descriptor cause, a misaligned one alignment, one outside the window or operand memory near-address,
each with the address as INFO. -/
def State.findSpot (s : State) (g : Agent) (a : W64) (n : Nat) (write : Bool) : Except Trap Spot :=
  let off := addrOff a
  if !addrOk g.task.core a then .error ⟨0x40, a⟩
  else if off % n ≠ 0 then .error ⟨0x21, a⟩
  else match addrForm a with
    | 0 => s.virtualSpot g a write
    | 1 =>
      if paModule off ≠ s.module.toNat then s.farSpot g.task.die a off 0 true
      else if paOffset off + n ≤ hbmSize then .ok (.hbm (paOffset off))
      else .ok (.window (paOffset off))
    | 2 =>
      let t := s.task g.task
      if off + n ≤ t.windowBytes then .ok (.inside (windowAddr g.task.coreRef t off)) else .error ⟨0x20, a⟩
    | _ =>
      if isCompute g.task.core && decide (off + n ≤ operandBytes) then .ok (.inside (operandBase g.task.coreRef + off))
      else .error ⟨0x20, a⟩

/-- The place of an element: the one already found for it, which stands (R236), or the one it has now. -/
def State.spot (s : State) (g : Agent) (a : W64) (n : Nat) (write : Bool) : Except Trap Spot :=
  match g.spots.find? fun x => decide (x.1 = a) && decide (x.2.1 = write) with
  | some x => .ok x.2.2
  | none => s.findSpot g a n write

/-- The places found with one more: a virtual address that has been translated. -/
def State.noteSpot (s : State) (g : Agent) (a : W64) (n : Nat) (write : Bool) : List (W64 × Bool × Spot) :=
  if addrForm a ≠ 0 ∨ (g.spots.any fun x => decide (x.1 = a) && decide (x.2.1 = write)) = true then g.spots
  else match s.findSpot g a n write with
    | .ok p => g.spots ++ [(a, write, p)]
    | .error _ => g.spots

/-- The key of an engine's access by its space (R405). -/
def Agent.keyOf (g : Agent) (a : W64) : Nat := if addrForm a = 1 then g.key else jobKey g.job

/-- The core whose near memory holds a module offset of a window, if one does. -/
def nearCore (o : Nat) : Option CoreRef :=
  if o < windowBase then none
  else
    let d := (o - windowBase) / 0x1000000000
    let x := (o - windowBase) % 0x1000000000
    if x % 0x10000000 < 0x300000 then
      (if x < 0x600000000 then some ⟨d, x / 0x10000000⟩
       else if x / 0x10000000 = 0xB1 then some ⟨d, 96⟩
       else if x / 0x10000000 = 0xB2 then some ⟨d, 97⟩
       else none)
    else none

/-- What a read of an element came to: its bytes or its failure, or that it must wait. -/
inductive Got where
  | bytes (b : List Byte)
  | failed (t : Trap)
  | waits
  deriving DecidableEq, Repr

/-- Whether a window offset lies in an L2 slice of a die whose DOMSET is under way (R239). -/
def State.sliceHeld (s : State) (o : Nat) : Bool :=
  match s.locate o with
  | .plain => (List.range 8).any fun d => (s.die d).l2busy && inSlices d o
  | _ => false

/-- Whether an access of n bytes is held: by the drain of a PHASE (R173), by a DOMSET (R239), or by a line of a squashed
bundle (R167). -/
def State.spotHeld (s : State) (p : Spot) (n : Nat) (write : Bool) : Bool :=
  let held := fun o => match nearCore o with
    | some c => s.drainHolds c o n
    | none => false
  match p with
  | .inside o => held o
  | .window o => held o || s.sliceHeld o
  | .hbm o => s.runHeld o n write
  | .far _ _ _ _ => false

/-- Bytes from an offset as later writes leave them. -/
def overlay (o : Nat) (b : List Byte) (l : List (Nat × List Byte)) : List Byte :=
  l.foldl
    (fun b x =>
      if x.1 + x.2.length ≤ o ∨ o + b.length ≤ x.1 then b
      else (b.zip (List.range b.length)).map fun y =>
        if x.1 ≤ o + y.2 ∧ o + y.2 < x.1 + x.2.length then x.2.getD (o + y.2 - x.1) 0 else y.1) b

/-- What a read came to, with later writes over it. -/
def Got.over (o : Nat) (l : List (Nat × List Byte)) (g : Got) : Got :=
  match g with
  | .bytes b => .bytes (overlay o b l)
  | _ => g

/-! ### Reading -/

/-- A load of HBM bytes at their homes by an agent of a die (R244): owners give the lines back, the agent's
time rises to their write times and their leases are extended. -/
def State.homeLoad (s : State) (die pos o n key : Nat) : State × Except Trap (List Byte) :=
  let lines := linesOf o n
  let s := lines.foldl (fun s l => s.recall l false) s
  let t := lines.foldl (fun t l => tmax t (s.lineMeta l).wts) (s.agentTime die pos)
  let b := s.readHbm o n key
  ((lines.foldl (fun s l => s.modLine l fun m => { m with rts := tmax m.rts (t + 4096) }) s).raiseAgent die pos t, b)

/-- An engine's load of one part of at most 64 bytes from another module (R264, R341): its reply, or the
request sent. -/
def State.farPart (s : State) (g : Agent) (va : W64) (pa gen : Nat) (phys : Bool) (n : Nat) : State × Got :=
  match s.sentLoad g.task (some g.tok) pa (Nat.log2 n) with
  | some x => (s, match x.reply with
    | none => .waits
    | some rep => (match replyTrap va x.req rep.status with
      | some t => .failed t
      | none => .bytes (rep.data.take n)))
  | none =>
    ((s.sendReq g.task (some g.tok) (paModule pa)
      { loadReq g.job pa gen (Nat.log2 n) (s.agentTime g.task.die g.pos).toNat with phys := phys }).1, .waits)

/-- Two parts read one after the other. -/
def Got.join (a b : Got) : Got :=
  match a, b with
  | .failed t, _ => .failed t
  | .waits, _ => .waits
  | .bytes x, .bytes y => .bytes (x ++ y)
  | .bytes _, z => z

/-- An engine's load from another module, in parts of 64 bytes (R341). -/
def State.farLoad (s : State) (g : Agent) (va : W64) (pa gen : Nat) (phys : Bool) (n : Nat) : State × Got :=
  if n ≤ 64 then s.farPart g va pa gen phys n
  else
    let x := s.farPart g va pa gen phys 64
    let y := x.1.farPart g (va + 64) (pa + 64) gen phys (n - 64)
    (y.1, x.2.join y.2)

/-- The result of a read as Got. -/
def gotOf (x : Except Trap (List Byte)) : Got :=
  match x with
  | .ok b => .bytes b
  | .error t => .failed t

/-- An engine's read of the n bytes of an element. -/
def State.engineRead (s : State) (g : Agent) (a : W64) (n : Nat) : State × Got :=
  let p := s.spot g a n false
  let s := if addrForm a = 0 then s.tookFree else s
  match p with
  | .error t => (s.spotFails g t, if t.isWalk then .waits else .failed t)
  | .ok p =>
    if s.spotHeld p n false then (s, .waits)
    else match p with
      | .inside o => (s, .bytes (s.mem.bytes o n))
      | .hbm o =>
        let x := s.homeLoad g.task.die g.pos o n (g.keyOf a)
        (x.1, (gotOf x.2).over o g.stores)
      | .window o => (s, gotOf (s.physRead o n (g.keyOf a)))
      | .far va pa gen phys => s.farLoad g va pa gen phys n

/-! ### Writing -/

/-- An engine's store of bytes to another module, in parts of at most 64 (R264, R341). -/
def State.farStore (s : State) (g : Agent) (pa gen : Nat) (phys : Bool) (b : List Byte) : State :=
  let t := (s.agentTime g.task.die g.pos).toNat
  let send := fun (s : State) (pa : Nat) (b : List Byte) =>
    (s.sendReq g.task (some g.tok) (paModule pa) { storeReq g.job pa gen t b with phys := phys }).1
  let x := send s pa (b.take 64)
  if b.length ≤ 64 then x else send x (pa + 64) (b.drop 64)

/-- What a write of an element came to: the HBM lines it wrote, its failure, or that it must wait. -/
inductive Put where
  | wrote (lines : List Nat)
  | failed (t : Trap)
  | waits
  deriving DecidableEq, Repr

/-- An engine's write of the bytes of an element. -/
def State.engineWrite (s : State) (g : Agent) (a : W64) (b : List Byte) : State × Put :=
  let p := s.spot g a b.length true
  let s := if addrForm a = 0 then s.tookFree else s
  match p with
  | .error t => (s.spotFails g t, if t.isWalk then .waits else .failed t)
  | .ok p =>
    if s.spotHeld p b.length true then (s, .waits)
    else match p with
      | .inside o => (s.writeLocal g.task.coreRef g.task.slot o b g.within, .wrote [])
      | .far _ pa gen phys => (s.farStore g pa gen phys b, .wrote [])
      | .hbm o =>
        let x := s.physWrite g.writer (g.keyOf a) o b
        (x.1, match x.2 with
          | some t => .failed t
          | none => .wrote (linesOf o b.length))
      | .window o =>
        let x := s.physWrite g.writer (g.keyOf a) o b
        (x.1, match x.2 with
          | some t => .failed t
          | none => .wrote [])

/-! ### Times and ends -/

/-- The time of a command's global writes (R250): a wheel time of its agent's position, later than every
lease on the lines it wrote. The lines take it. -/
def State.stamp (s : State) (die pos : Nat) (lines : List Nat) : State × W64 :=
  let floor := lines.foldl (fun t l => tmax t (tmax ((s.lineMeta l).wts + 1) ((s.lineMeta l).rts + 1)))
    (tmax (s.agentTime die pos + 1) s.hwm)
  let tc := wheelTime (agentPosition die pos) floor
  let s := lines.foldl (fun s l => s.modLine l fun m => { m with wts := tc, rts := tc }) s
  let s := if lines = [] then s else s.markDie die tc
  (s.raiseAgent die pos tc, tc)

/-- Requests of a command to other modules that have no answer yet, and the first that was refused (R264). -/
def State.farPending (s : State) (r : TaskRef) (tok : Nat) : Bool :=
  s.sent.any fun x => decide (x.task = r) && decide (x.cmdTok = some tok) && decide (x.reply = none)

/-- The refusal of a store that a command sent to another module. -/
def State.farRefused (s : State) (r : TaskRef) (tok : Nat) : Option Trap :=
  s.sent.findSome? fun x =>
    if x.task = r ∧ x.cmdTok = some tok ∧ x.req.kind = 2 then
      (match x.reply with
        | some rep => replyTrap (BitVec.ofNat 64 x.req.pa) x.req rep.status
        | none => none)
    else none

/-- The requests of a command forgotten, with those of walks of its task. -/
def State.dropFar (s : State) (r : TaskRef) (tok : Nat) : State :=
  { s with sent := s.sent.filter fun x =>
      !(decide (x.task = r) && (decide (x.cmdTok = some tok) || decide (x.cmdTok = some walkTok))) }

/-- LIDX of an engine's record: the task's once it has ended (R270), else all ones. -/
def State.engineLidx (s : State) (r : TaskRef) (x : Cmd) : W64 :=
  if (s.task r).status = .ending then x.lidx else noLidx

/-- The record of a command's access that is refused under R21, posted for its agent. -/
def State.noteRefused (s : State) (g : Agent) (x : Cmd) (t : Trap) : State :=
  if t.cause = 0x64 then
    s.postFault g.writer.die g.writer.agent g.writer.slot g.job 0x64 t.info (s.engineLidx g.task x)
  else s

end Sys2Proof.Machine
end

