-- ==== Sys2Proof/Machine/Fabric.lean ====
section
/-!
DEFINITION. Cells at the routers of a die: tags, neighbours and routes (R14, R332, R333, R337 to R339), emission
(R315), the stray queue (R322), inbound queues (R324, R325), and the records that Pavilions and ports post.
-/

namespace Sys2Proof.Machine

/-! ### Tags -/

/-- CRC-32C of a run of bytes (R334): reflected, all ones at the start, inverted at the end. -/
def crcBits : Nat → Nat → Nat
  | 0, c => c
  | n + 1, c => crcBits n (if c % 2 = 1 then c / 2 ^^^ 0x82F63B78 else c / 2)

/-- CRC-32C over bytes from a running value. -/
def crcRun (c : Nat) (b : List Byte) : Nat := b.foldl (fun c x => crcBits 8 (c ^^^ x.toNat)) c

/-- CHECK of some bytes (R334). -/
def crc32c (b : List Byte) : Nat := crcRun 0xFFFFFFFF b ^^^ 0xFFFFFFFF

/-- The 16 tag bytes of a cell (Table 16.1) with a link sequence, key slot and WRAP mark. -/
def cellTag (c : Cell) (seq kslot : Nat) (wrap : Bool) : List Byte :=
  leBytes 16 (c.flow % 2 ^ 20 + c.job % 2 ^ 12 * 2 ^ 20 + c.rank % 2 ^ 16 * 2 ^ 32 + c.cidx % 2 ^ 16 * 2 ^ 48
    + seq % 2 ^ 24 * 2 ^ 64 + kslot % 2 * 2 ^ 88 + c.typ % 16 * 2 ^ 89 + bitAt c.circ 93 + bitAt wrap 94 + bitAt c.psn 95
    + crc32c c.payload * 2 ^ 96)

/-- The slot of a cell that is on no link: payload and tag, SEQ, KSLOT and WRAP zero (R332). -/
def slotBytes (c : Cell) : List Byte := padTo 128 c.payload ++ cellTag c 0 0 false

/-- A cell from the 144 bytes of its slot. -/
def cellOfBytes (b : List Byte) : Cell :=
  let t := leNat ((b.drop 128).take 16)
  { typ := t / 2 ^ 89 % 16, flow := t % 2 ^ 20, job := t / 2 ^ 20 % 2 ^ 12, rank := t / 2 ^ 32 % 2 ^ 16,
    cidx := t / 2 ^ 48 % 2 ^ 16, psn := bitOf t 95, circ := bitOf t 93, payload := b.take 128 }

/-- Whether a flow ID is reserved (R309). -/
def reservedFlow (f : Nat) : Bool := decide (0xFFF00 ≤ f)

/-! ### Routers -/

/-- Router number of a row and column. -/
def routerAt (row col : Nat) : Nat := row * 12 + col

/-- Router number of a port's router. -/
def portRouter (p : PortRef) : Nat := routerAt p.row p.col

/-- A port of a router. -/
def portAt (die router port : Nat) : PortRef := ⟨die, router / 12, router % 12, port⟩

/-- The router of the west and of the east package-ring port (R12). -/
def westRouter : Nat := routerAt 0 11
/-- The router of the east package-ring port. -/
def eastRouter : Nat := routerAt 9 11
/-- The router of the lodge and control cores (Table 15.3). -/
def lodgeRouter : Nat := routerAt 0 10

/-- Whether a port of a router has a neighbour (R14, R339). -/
def hasPort (router p : Nat) : Bool :=
  let row := router / 12
  let col := router % 12
  match p with
  | 0 => decide (0 < row)
  | 1 => decide (col < 11)
  | 2 => decide (row < 9)
  | 3 => decide (0 < col)
  | 4 => true
  | 5 => decide (router = westRouter) || decide (router = eastRouter) || decide (router = gateRouter)
  | 6 | 7 => decide (router = gateRouter)
  | _ => false

/-- The router across a mesh port. -/
def meshNext (router p : Nat) : Nat :=
  match p with
  | 0 => router - 12
  | 1 => router + 1
  | 2 => router + 12
  | _ => router - 1

/-- The input port of the neighbour that a mesh port sends to. -/
def facing (p : Nat) : Nat := (p + 2) % 4

/-- The mesh port toward another router: along the column first, then along the row (R337). -/
def meshPort (a b : Nat) : Nat :=
  if b / 12 < a / 12 then 0 else if a / 12 < b / 12 then 2 else if a % 12 < b % 12 then 1 else 3

/-- Hops in ascending order from one die to another. -/
def dieSteps (a b : Nat) : Nat := (b + 8 - a) % 8

/-- The link of a ring or rack port: 0 west ring, 1 east ring, 2 and 3 rack ports (R12, R339). -/
def linkOf (p : PortRef) : Option Nat :=
  if p.port = 5 ∧ portRouter p = westRouter then some 0
  else if p.port = 5 ∧ portRouter p = eastRouter then some 1
  else if p.port = 6 ∧ portRouter p = gateRouter then some 2
  else if p.port = 7 ∧ portRouter p = gateRouter then some 3
  else none

/-- The port at the other end of a package-ring link of a die; none for a rack port, whose other end is on
another module. -/
def ringPeer (die l : Nat) : Option PortRef :=
  match l with
  | 0 => some (portAt ((die + 7) % 8) eastRouter 5)
  | 1 => some (portAt ((die + 1) % 8) westRouter 5)
  | _ => none

/-- Register block and port of a link, as records name them (Table 19.1): blocks 8 and 9 are the west and east
ring ports, block 7 the Gatehouse. -/
def linkInfo (l : Nat) : W64 :=
  BitVec.ofNat 64 (match l with
    | 0 => 8
    | 1 => 9
    | 2 => 7
    | _ => 7 + 2 ^ 8)

/-- The register block of a link. -/
def linkBlock (l : Nat) : Nat := (linkInfo l).toNat % 2 ^ 8

/-! ### Queues of a port -/

/-- A port of a router changed. -/
def State.modPort (s : State) (die router port : Nat) (f : Port → Port) : State :=
  s.modPav die router fun p => p.modPort port f

/-- A cell at the back of a port's input FIFO. -/
def State.input (s : State) (die router port : Nat) (c : Cell) : State :=
  s.modPort die router port fun q => { q with fifo := q.fifo ++ [c] }

/-- A cell emitted into a port (R315, R339): local cells enter the local input port, mesh cells the neighbour's,
others wait at their ring or rack port; NEXT = ring at the Gatehouse router goes out in the direction of travel,
ascending where there is none. -/
def State.emit (s : State) (die router inp port : Nat) (c : Cell) : State :=
  if port = 4 then s.input die router 4 c
  else if port < 4 then s.input die (meshNext router port) (facing port) c
  else if port = 5 ∧ router = gateRouter then s.output die router (if inp = 6 then 7 else 6) c inp
  else s.output die router port c inp

/-! ### Records -/

/-- Flow and cell index, with the rank above them, as INFO holds them (Table 19.1). -/
def cellInfo (rank : Bool) (c : Cell) : W64 :=
  BitVec.ofNat 64 (c.flow % 2 ^ 20 + c.cidx % 2 ^ 16 * 2 ^ 20 + (if rank then c.rank % 2 ^ 16 * 2 ^ 36 else 0))

/-- A fault that a Pavilion posts for a cell's job (Table 19.3). -/
def State.postCell (s : State) (die router cause : Nat) (rank : Bool) (c : Cell) : State :=
  s.postFault die 0xC0 router c.job cause (cellInfo rank c)

/-! ### Stray cells -/

/-- A stray cell: queued or dropped and counted, with its fault (R322). -/
def State.stray (s : State) (die router : Nat) (c : Cell) : State :=
  let s := s.modDie die fun d =>
    if d.stray.length < 64 then { d with stray := d.stray ++ [c] }
    else { d with sqdrop := d.sqdrop + 1, sqlast := BitVec.ofNat 64 (leNat ((cellTag c 0 0 false).take 8)) }
  s.postCell die router 0x84 true c

/-! ### Inbound queues (R323 to R325) -/

/-- Block number of a cell of a queue (R324). -/
def blockOf (cidx : Nat) : Nat := cidx / 32 % 2048

/-- How far a block lies ahead of the next one, modulo 2048. -/
def InQueue.distance (q : InQueue) (cidx : Nat) : Nat := (blockOf cidx + 2048 - q.nextblock) % 2048

/-- The task slot that LSLOT names at a router (Table 15.3, R15). -/
def localTask (die router lslot : Nat) : TaskRef :=
  if router = lodgeRouter then ⟨die, 96 + lslot, 0⟩ else ⟨die, router - 12, lslot⟩

/-- What became of a cell at a queue. -/
inductive Entering where
  | entered (s : State)
  | ahead
  | stray

/-- A cell for queue q of a task (R324, R325). -/
def State.enterQueue (s : State) (r : TaskRef) (q : Nat) (job : Nat) (c : Cell) : Entering :=
  match s.task? r with
  | none => .stray
  | some t =>
    let x := t.queue q
    if t.job ≠ job ∨ t.status = .ending ∨ x.bound = false ∨ x.flow ≠ c.flow then .stray
    else if 1024 ≤ x.distance c.cidx then
      .entered (s.modTask r fun t => t.setQueue q { x with drops := x.drops + 1 })
    else if 4 ≤ x.distance c.cidx then .ahead
    else if x.cells.any fun y => decide (y.cidx = c.cidx % 2 ^ 16) then
      .entered (s.postFault r.die r.core r.slot c.job 0x86 (cellInfo true c) t.lidx)
    else
      .entered (s.modTask r fun t => t.setQueue q { x with cells := x.cells ++ [⟨c.cidx, c.rank, c.psn, c.payload⟩] })

/-- A cell delivered to a queue from a router: a cell of a block ahead waits at the local port (R324). -/
def State.toQueue (s : State) (die router lslot q job : Nat) (c : Cell) : State :=
  match s.enterQueue (localTask die router lslot) q job c with
  | .entered s => s
  | .ahead => s.modPort die router 4 fun p => { p with ahead := p.ahead ++ [(lslot, q, c)] }
  | .stray => s.stray die router c

/-- Whether a waiting cell waits no longer: its queue takes it, or would not have it. -/
def State.aheadReady (s : State) (die router : Nat) (x : Nat × Nat × Cell) : Bool :=
  match s.enterQueue (localTask die router x.1) x.2.1 x.2.2.job x.2.2 with
  | .ahead => false
  | _ => true

/-! ### Send buffers (R328) -/

/-- The router whose local port a core feeds (R15). -/
def coreRouter (core : Nat) : Nat := if isCompute core then routerOf core else lodgeRouter

/-- The cores that feed the local port of a router. -/
def coresAt (router : Nat) : List Nat :=
  if router = lodgeRouter then [96, 97] else if 12 ≤ router ∧ router < 108 then [router - 12] else []

/-- Cells that a core's send buffer holds. -/
def sendLimit : Nat := 64

/-- The oldest cell of a core's send buffer enters its router's local input port. -/
def State.sendOne (s : State) (c : CoreRef) : State :=
  match (s.core c).sendBuf with
  | [] => s
  | x :: rest => (s.modCore c fun k => { k with sendBuf := rest }).input c.die (coreRouter c.core) 4 x

/-- The task number that stands for a Pavilion, which has no core. -/
def pavCore : Nat := 127

end Sys2Proof.Machine
end

