-- ==== Sys2Proof/Machine/Late.lean ====
section
/-!
DEFINITION. Records of the Orangery (R375, Tables 18.1 and 18.2) and the late list (R377): what becomes of a cell of a
stopped job at a ring or rack port (R373).
-/

namespace Sys2Proof.Machine

/-- A record's location (Table 18.2). -/
structure RecLoc where
  kind : Nat
  die : Nat := 0
  row : Nat := 0
  col : Nat := 0
  port : Nat := 0
  source : Nat := 0
  index : Nat := 0
  aux : Nat := 0
  deriving DecidableEq, Repr

/-- The 160 bytes of a record: location and contents (R375). -/
def recordOf (l : RecLoc) (contents : List Byte) : List Byte :=
  leBytes 1 l.kind ++ leBytes 1 l.die ++ leBytes 1 l.row ++ leBytes 1 l.col ++ leBytes 1 l.port ++ leBytes 1 l.source
    ++ leBytes 2 l.index ++ leBytes 4 l.aux ++ leBytes 4 0 ++ (padTo 144 contents).take 144

/-- The location of a record from its bytes. -/
def recLoc (b : List Byte) : RecLoc :=
  let f := fun off n => leNat ((b.drop off).take n)
  { kind := f 0 1, die := f 1 1, row := f 2 1, col := f 3 1, port := f 4 1, source := f 5 1, index := f 6 2, aux := f 8 4 }

/-- Port number of a ring or rack port as records hold it. -/
def portLoc (p : PortRef) (source aux : Nat) : RecLoc :=
  { kind := 0, die := p.die, row := p.row, col := p.col, port := p.port, source := source, aux := aux }

/-- Body cells still due to a decision of a port for cells like one (Table 18.2, AUX). -/
def State.bodyDue (s : State) (p : PortRef) (c : Cell) : Nat :=
  match ((s.die p.die).pav (portRouter p)).mcast.find? fun d =>
      decide (d.inp = p.port) && decide (d.flow = c.flow) && decide (d.job = c.job) && decide (d.rank = c.rank) with
  | some d => if c.typ = 9 then d.left else 0
  | none => 0

/-- Late cells that the Orangery holds at most (R377). -/
def lateLimit : Nat := 4096

/-- The gang switch of a job here: the one under way, or a closed one (R371, R372). -/
def State.gangOf (s : State) (job : Nat) : Option Gang :=
  (match s.gang with
    | some g => if g.block.job = job then some g else none
    | none => none).orElse fun _ => s.switched.find? fun g => decide (g.block.job = job)

/-- Whether the module is switched for a job (R371). -/
def State.isSwitched (s : State) (job : Nat) : Bool := s.switched.any fun g => decide (g.block.job = job)

/-- The gang switch of a job changed. -/
def State.modGang (s : State) (job : Nat) (f : Gang → Gang) : State :=
  let h := fun (g : Gang) => if g.block.job = job then f g else g
  { s with gang := s.gang.map h, switched := s.switched.map h }

/-- A late cell appended to the late list, with NLATE, or dropped and counted in LATEDROP (R377). -/
def State.lateCell (s : State) (g : Gang) (p : PortRef) (c : Cell) : State :=
  let base := g.block.orangery
  let key := jobKey g.block.job
  if g.nlate < lateLimit then
    let s := s.storeHbm (base + 0x1000 + 160 * g.nlate) key (recordOf (portLoc p 6 (s.bodyDue p c)) (slotBytes c))
    let s := s.storeHbm (base + 32) key (leBytes 4 (g.nlate + 1))
    s.modGang g.block.job fun g => { g with nlate := g.nlate + 1 }
  else
    let s := s.storeHbm (base + 40) key (leBytes 8 (g.lost.length + 1))
    s.modGang g.block.job fun g => { g with lost := g.lost ++ [(p, c)] }

/-- A cell of TYPE 0, 8 or 9 that arrives at a ring or rack port: late after the port's marker, kept for the sweep
before it once the module has stopped the job (R373, R377), else in the port's FIFO. -/
def State.admitCell (s : State) (p : PortRef) (c : Cell) : State :=
  match s.gangOf c.job with
  | some g =>
    if g.marked.contains p then s.lateCell g p c
    else if !g.stopped then s.input p.die (portRouter p) p.port c
    else s.modGang c.job fun g => { g with before := g.before ++ [(p, c)] }
  | none => s.input p.die (portRouter p) p.port c

end Sys2Proof.Machine
end

