-- ==== Sys2Proof/Machine/Links.lean ====
section
/-!
DEFINITION. Ring and rack links (R335 to R350): what a port sends, acceptance in ESEQ order, acknowledgement and
replay, failure and wrap, refusal and circulation, keys and their switch-over, and the loss of a neighbour.
-/

namespace Sys2Proof.Machine

/-! ### Steps that follow -/

/-- A machine step of another agent put after those that already come next. -/
def State.andThen (s : State) (i : Event) : State := { s with agenda := s.agenda ++ [i] }

/-! ### States of links -/

/-- Link states of GHSTAT (Table 16.5). -/
def linkUp : Nat := 2
/-- A failed link. -/
def linkFailed : Nat := 3

/-- Whether a link is a rack port. -/
def isRack (l : Nat) : Bool := decide (2 ≤ l)

/-- Whether rack traffic of a die may pass: LOCK is set and both ports have come up (R339). -/
def State.rackOpen (s : State) (die : Nat) : Bool :=
  (s.die die).gate.ghcfg.getLsbD 6 && decide (linkUp ≤ ((s.die die).link 2).st) && decide (linkUp ≤ ((s.die die).link 3).st)

/-- Whether a cell that would cross a failed link can go the other way round (R345). -/
def State.wrapOpen (s : State) (die l : Nat) : Bool :=
  if isRack l then decide (((s.die die).link (5 - l)).st = linkUp)
  else
    (List.range 8).all fun d => decide (d = (if l = 1 then die else (die + 7) % 8)) || decide (((s.die d).link 1).st ≠ linkFailed)

/-- New cells sent under one key at most (R348). -/
def icntLimit : Nat := 2 ^ 32 - 2 ^ 20

/-- Cells of a ring's retry buffer and of a NACK queue (Table 16.3, R340). -/
def retryLimit : Nat := 4096
/-- Cells of a NACK queue. -/
def nackLimit : Nat := 64

/-- Whether a sequence number is at or before another (R344: ESEQ wraps at 32 bits). -/
def eseqLe (a b : Nat) : Bool := decide ((b + 2 ^ 32 - a) % 2 ^ 32 < 2 ^ 31)

/-- Whether the transmit key of a rack port may protect a new cell (R348). While a switch-over is under way the cells under
either key count together, so that a refusal cannot take the old one past its limit, and an exhausted port waits for the
switch-over to complete. -/
def Link.keyLeft (k : Link) : Bool :=
  k.hasKey k.txAct && decide (k.icnt < icntLimit) && (k.switching.isNone || decide (k.icntOld + k.icnt < icntLimit))

/-- Whether a port may send a new cell (R339, R340, R344, R347, R348). -/
def State.maySend (s : State) (p : PortRef) (l : Nat) : Bool :=
  let k := (s.die p.die).link l
  decide (linkUp ≤ k.st) && decide (k.retry.length < retryLimit)
    && decide ((((s.die p.die).pav (portRouter p)).port p.port).nackq.length < nackLimit)
    && (!isRack l || (s.rackOpen p.die && k.keyLeft))

/-! ### Sending -/

/-- An event of a rack port's key posted to its lodge (R348). -/
def State.postKey (s : State) (die l cause : Nat) : State :=
  s.post die ⟨cause, 2, die, 0xA0 + linkBlock l, 0, 0, linkInfo l, noLidx, 0, s.cycle32, none⟩

/-- The events of a key whose count of new cells has gone up from one value to another (R348). -/
def State.countKey (s : State) (die l before : Nat) : State :=
  let n := ((s.die die).link l).icnt
  if before < 2 ^ 31 ∧ 2 ^ 31 ≤ n then s.postKey die l 0xC2
  else if before < icntLimit ∧ icntLimit ≤ n then s.postKey die l 0xC3
  else s

/-- The 96-bit IV of a cell that a rack port sends (R347): ESEQ, link ID and salt from the lowest byte up. -/
def linkIv (module die port eseq : Nat) (salt : List Byte) : List Byte :=
  leBytes 4 eseq ++ leBytes 4 (module % 64 + die % 8 * 2 ^ 6 + port % 2 * 2 ^ 9) ++ (padTo 4 salt).take 4

/-- The bytes of a cell on a rack link (R335, R347): the slot with all but tag bytes 8 to 11 sealed under its key slot, and
the authentication tag. The text sealed is the payload and then the tag's bytes, in slot order. -/
def State.wireBytes (s : State) (die l : Nat) (w : WireCell) : List Byte :=
  let tag := cellTag w.cell w.eseq w.kslot w.wrap
  let clear := (tag.drop 8).take 4
  let body := padTo 128 w.cell.payload
  let k := (((s.die die).link l).keys.get none (w.kslot % 2)).getD ⟨[], []⟩
  let x := Config.linkSeal k.key (linkIv s.module.toNat die (l - 2) w.eseq k.salt) clear (body ++ tag.take 8 ++ tag.drop 12)
  let n := body.length
  x.take (n + 8) ++ clear ++ (x.drop (n + 8)).take 4 ++ exactly 16 (x.drop (n + 12))

/-- A cell put on the wire of a link: it reaches the other end of a package-ring hop next; from a rack port it leaves
the module, by the other port of its Gatehouse where it travels a wrap path (R345). -/
def State.onWire (s : State) (die l : Nat) (w : WireCell) : State :=
  match ringPeer die l with
  | some q => s.andThen (.linkCellReceive q w)
  | none =>
    let l := if w.wrap then 5 - l else l
    { s with outbound := s.outbound ++ [(die, l - 2, s.wireBytes die l w)] }

/-- The link after a new cell has left under its sequence number (R344, R346, R348). -/
def Link.sent (rack : Bool) (c : Cell) (k : Link) : Link :=
  { k with
    txEseq := (k.txEseq + 1) % 2 ^ 32
    retry := k.retry ++ [(k.txEseq, k.txAct, c)]
    icnt := if rack then k.icnt + 1 else k.icnt
    jobs := if k.jobs.contains c.job then k.jobs else k.jobs ++ [c.job] }

/-- A new cell sent over a link; over a failed one it travels the wrap path (R344 to R346, R348). -/
def State.sendCell (s : State) (die l : Nat) (c : Cell) : State :=
  let k := (s.die die).link l
  let w : WireCell := ⟨k.txEseq, k.txAct, decide (k.st = linkFailed), true, true, c⟩
  let s := (s.modLink die l (Link.sent (isRack l) c)).onWire die l w
  s.countKey die l k.icnt

/-- Whether a waiting cell is of the reserved flow of a frame slot (R336). -/
def State.reserved (s : State) (die l n : Nat) (c : Cell) : Bool :=
  let v := (((s.die die).link l).resv.get 0 n).toNat
  bitOf v 32 && decide (v / 2 ^ 20 % 2 ^ 12 = s.jobid.toNat) && decide (c.job = s.jobid.toNat)
    && decide (c.flow = v % 2 ^ 20)

/-- A list without its first member that satisfies a test, and that member. -/
def takeFirst {α : Type} (f : α → Bool) : List α → Option (α × List α)
  | [] => none
  | x :: rest => if f x then some (x, rest) else (takeFirst f rest).map fun y => (y.1, x :: y.2)

/-- The input port whose turn it is among cells that wait (R336): the first after the one served last. -/
def nextInput (turn : Nat) (out : List (Nat × Cell)) : Option Nat :=
  ((List.range 9).map fun i => (turn + 1 + i) % 9).find? fun n => out.any fun x => decide (x.1 = n)

/-- The cell that a port chooses at a slot time, with those that are left (R336): one that circulates, a gang marker once
no cell of its job waits before it (R373), one of the reserved flow, else the oldest of the input port whose turn it is. -/
def State.choose (s : State) (p : PortRef) (l : Nat) : Option ((Nat × Cell) × List (Nat × Cell)) :=
  let k := (s.die p.die).link l
  let q := ((s.die p.die).pav (portRouter p)).port p.port
  let marker := fun (x : Nat × Cell) => decide (x.2.typ = 6)
  let due := fun (x : Nat × Cell) => marker x && !(q.out.any fun y => !marker y && decide (y.2.job = x.2.job))
  (takeFirst (fun x => x.2.circ) q.out).orElse fun _ => (takeFirst due q.out).orElse fun _ =>
    (takeFirst (fun x => s.reserved p.die l (k.slotTime % 64) x.2) q.out).orElse fun _ =>
      match nextInput q.turn (q.out.filter fun x => !marker x) with
      | some n => takeFirst (fun x => !marker x && decide (x.1 = n)) q.out
      | none => none

/-- The module at the other end of a rack port; a package-ring hop stays in this one (R338). -/
def State.neighbour (s : State) (die l : Nat) : Nat :=
  let m := s.module.toNat
  if !isRack l then m
  else
    let x := presentList (s.die die).gate.present
    let step := if l = 2 then 1 else x.length - 1
    x.getD ((x.idxOf m + step) % x.length) m

/-- A fabric-loss fault posted for a job (R345, R346). -/
def State.postLoss (s : State) (die l job : Nat) : State :=
  s.postFault die (0xA0 + linkBlock l) 0 job 0x89 (BitVec.ofNat 64 (s.neighbour die l))

/-- Whether a cell belongs to a flow (Table 16.2). -/
def flowTyped (c : Cell) : Bool := decide (c.typ = 0) || decide (c.typ = 8) || decide (c.typ = 9)

/-- One slot time of a ring or rack port (R335, R336). A cell that no way is left for is lost, with a fabric-loss fault
where it is a flow cell (R345). -/
def State.slotTick (s : State) (p : PortRef) (l : Nat) : State :=
  let x := if s.maySend p l then s.choose p l else none
  let s := s.modLink p.die l fun k => { k with slotTime := (k.slotTime + 1) % 64 }
  match x with
  | none => s
  | some (c, rest) =>
    let s := s.modPort p.die (portRouter p) p.port fun q => { q with out := rest, turn := c.1 }
    if ((s.die p.die).link l).st = linkFailed ∧ s.wrapOpen p.die l = false then
      (if flowTyped c.2 then s.postLoss p.die l c.2.job else s)
    else s.sendCell p.die l c.2

/-- SLOT_SEND (R336, R328): a ring or rack port sends one cell; the local port takes one from the send buffers of its
cores, but none of a stopped job (R372), and none once a fatal cause has stopped the module (R389). Mesh ports pass cells on as they are emitted. -/
def execSlotSend (p : PortRef) (s : State) : Host.Outcome State Fault Refusal :=
  .next (match linkOf p with
    | some l => s.slotTick p l
    | none =>
      if p.port = 4 ∧ s.fatal.isNone = true then
        (match (coresAt (portRouter p)).find? fun c =>
            (match (s.core ⟨p.die, c⟩).sendBuf with
              | [] => false
              | x :: _ => !s.jobStopped x.job) with
          | some c => s.sendOne ⟨p.die, c⟩
          | none => s)
      else s)

/-! ### Failure (R344, R345) -/

/-- A link control cell of a rack port, whose payload the manual does not lay out: byte 0 is 0 for an
acknowledgement, 1 for a replay request, 2 for a key refusal; its SEQ is the one it speaks of. -/
def controlCell (what : Nat) : Cell := ⟨12, 0, 0, 0, 0, false, false, leBytes 1 what⟩

/-- A link control message to the other end of a link: the step `i` there, or a cell out of a rack port. -/
def State.control (s : State) (die l what eseq : Nat) (i : PortRef → Event) : State :=
  match ringPeer die l with
  | some q => s.andThen (i q)
  | none =>
    let k := (s.die die).link l
    s.onWire die l ⟨eseq, k.txAct, decide (k.st = linkFailed), true, true, controlCell what⟩

/-- One end of a link fails: its state, its link fault, and every unacknowledged cell on the wrap path (R344, R345). -/
def State.failEnd (s : State) (die l : Nat) : State :=
  let k := (s.die die).link l
  if k.st = linkFailed then s
  else
    let s := s.modLink die l fun k => { k with st := linkFailed, wrapped := true }
    let s := s.postFault die (0xA0 + linkBlock l) 0 0 0x88 (linkInfo l)
    if s.wrapOpen die l then k.retry.foldl (fun s x => s.onWire die l ⟨x.1, x.2.1, true, true, true, x.2.2⟩) s
    else (((k.retry.map fun x => x.2.2).filter flowTyped).map Cell.job).dedup.foldl (fun s j => s.postLoss die l j) s

/-- A link fails: both of its ends that lie in this module (R345). -/
def State.failLink (s : State) (die l : Nat) : State :=
  let s := s.failEnd die l
  match l with
  | 0 => s.failEnd ((die + 7) % 8) 1
  | 1 => s.failEnd ((die + 1) % 8) 0
  | _ => s

/-- LINK_SIGNAL_LOSS (R344). -/
def execLinkSignalLoss (p : PortRef) (s : State) : Host.Outcome State Fault Refusal :=
  .next (match linkOf p with
    | some l => s.failLink p.die l
    | none => s)

/-- RETRAIN_TIMEOUT (R344): a link that is not up is failed. -/
def execRetrainTimeout (p : PortRef) (s : State) : Host.Outcome State Fault Refusal :=
  .next (match linkOf p with
    | some l => if ((s.die p.die).link l).st = linkUp then s else s.failLink p.die l
    | none => s)

/-! ### Receiving (R344, R350) -/

/-- A request from its payload (Table 16.4) and cell type. -/
def reqOfCell (c : Cell) : RemoteReq :=
  let f := fun off n => leNat ((c.payload.drop off).take n)
  let g := f 6 1
  let a := f 7 1
  { kind := c.typ, job := c.job, pa := f 0 6, gen := g % 16, lgSize := g / 16 % 8, aop := a % 16, wide := bitOf a 4,
    uns := bitOf a 5, isFadd := bitOf a 6, faddHi := bitOf a 7, isCas := decide (c.typ = 3 ∧ a % 16 = 8),
    id := f 8 8, time := f 16 8, operand := BitVec.ofNat 64 (f 24 8), newVal := BitVec.ofNat 64 (f 32 8),
    data := (c.payload.drop 64).take (2 ^ (g / 16 % 8)) }

/-- A reply from its payload (Table 16.4). -/
def repOfCell (c : Cell) : RemoteRep :=
  let f := fun off n => leNat ((c.payload.drop off).take n)
  { status := f 0 1, id := f 8 8, time := f 16 8, data := c.payload.drop 64 }

/-- ROUTE of a routed cell (Table 16.1). -/
def routeOf (c : Cell) : Nat := c.flow + c.rank * 2 ^ 20

/-- A NACK received: the cell goes to the NACK queue of the port that sent it (R340), or is late after a gang marker
(R377). -/
def State.takeNack (s : State) (p : PortRef) (c : Cell) : State :=
  let s := match linkOf p with
    | some l => s.modLink p.die l fun k => { k with nacks := k.nacks + 1 }
    | none => s
  if s.jobStopped c.job && (match s.gangOf c.job with
      | some g => g.marked.contains p
      | none => false) then s.admitCell p { c with circ := false }
  else s.modPort p.die (portRouter p) p.port fun q => { q with nackq := q.nackq ++ [{ c with circ := false }] }

/-- A cell passed on at a ring or rack port, out of the other port of its ring: the other rack port of the Gatehouse, or
the ring port at the far edge of the die (R337, R338, R340). -/
def State.passOn (s : State) (p : PortRef) (c : Cell) : State :=
  if p.port = 5 then s.output p.die (if portRouter p = westRouter then eastRouter else westRouter) 5 c 5
  else s.output p.die gateRouter (13 - p.port) c p.port

/-- The switch block of a command cell (R372, Table 18.3). -/
def commandOf (c : Cell) : SwitchBlock :=
  let b := Config.commandBlock c.payload
  { job := bytesAt b 0 2, mask := BitVec.ofNat 64 (bytesAt b 8 8), orangery := bytesAt b 16 8, size := bytesAt b 24 8,
    turn := bytesAt b 32 8 }

/-- An accepted cell at its port, by its type (R333, R338, R340): flow and multicast cells to the input FIFO, unless they
circulate; routed cells to their agent when they have reached their module, else on along the ring; a type 13 to 15
cell is discarded and counted. -/
def State.dispatchCell (s : State) (p : PortRef) (c : Cell) : State :=
  let routed := fun (here : State) => if routeOf c % 64 = s.module.toNat then here else s.passOn p c
  match c.typ with
  | 0 | 8 | 9 => if c.circ then s.passOn p c else s.admitCell p c
  | 1 | 2 | 3 => routed (s.andThen (.remoteRequest p.die (reqOfCell c)))
  | 4 => routed (s.andThen (.reply p.die (repOfCell c)))
  | 5 => routed (s.andThen (.nack p (cellOfBytes c.payload)))
  | 6 => s.andThen (.gangMarker p (leNat (c.payload.take 2)) (leNat ((c.payload.drop 8).take 8)))
  | 7 => s.andThen (.keyMarker p (leNat (c.payload.take 1)))
  | 10 => routed (s.andThen (.gswCommand (commandOf c)))
  | 11 => routed s
  | 13 | 14 | 15 => s.modGate p.die fun g => { g with faults := g.faults ||| (1 <<< (0x87 / 32)) }
  | _ => s

/-- Whether a cell is a key marker that names a slot without a key, which is answered with a refusal (R349). -/
def Link.refusesMarker (c : Cell) (k : Link) : Bool := decide (c.typ = 7) && !k.hasKey (2 + leNat (c.payload.take 1) % 2)

/-- The next cell of a link accepted (R344): it is acknowledged, but for a key marker that is refused, and goes on with
WRAP clear. -/
def State.acceptCell (s : State) (p : PortRef) (l : Nat) (w : WireCell) : State :=
  let refused := ((s.die p.die).link l).refusesMarker w.cell
  let s := s.modLink p.die l fun k => { k with rxEseq := (w.eseq + 1) % 2 ^ 32, fails := 0, authFails := 0 }
  (if refused then s else s.control p.die l 0 w.eseq fun q => .linkAck q w.eseq).dispatchCell p w.cell

/-- Whether a cell fails authentication at a rack port (R350). -/
def Link.badAuth (rack : Bool) (w : WireCell) (k : Link) : Bool := rack && (!w.authOk || !k.hasKey (2 + w.kslot % 2))

/-- The link after the cell it expects next has failed: failures of one ESEQ are counted together (R344, R350). -/
def Link.failed (auth : Bool) (k : Link) : Link :=
  let k := if k.failEseq = k.rxEseq then k else { k with failEseq := k.rxEseq, fails := 0, authFails := 0 }
  if auth then { k with authFails := k.authFails + 1, authf := k.authf + 1 } else { k with fails := k.fails + 1 }

/-- A cell that failed discarded: a replay from the ESEQ expected next is asked for, or the link fails (R344). -/
def State.rejectCell (s : State) (p : PortRef) (l : Nat) (auth : Bool) : State :=
  let s := s.modLink p.die l (Link.failed auth)
  let k := (s.die p.die).link l
  if 2 ≤ k.authFails ∨ 17 ≤ k.fails then s.failLink p.die l
  else s.control p.die l 1 k.rxEseq fun q => .replayRequest q k.rxEseq

/-- A WRAP cell at the far end of a failed link (R345): presented as if on the failed port, or discarded where that had
accepted it. -/
def State.wrapEnd (s : State) (p : PortRef) (l : Nat) (w : WireCell) : State :=
  if eseqLe ((s.die p.die).link l).rxEseq w.eseq then s.acceptCell p l w else s

/-- A WRAP cell at a rack port (R345, R347): one whose beats or authentication failed is discarded; at the far end of the
failed link it is presented at the failed port, else it passes on. -/
def State.wrapRack (s : State) (p : PortRef) (l : Nat) (w : WireCell) : State :=
  let far : PortRef := { p with port := 13 - p.port }
  if !s.rackOpen p.die || !w.beatOk then s
  else if ((s.die p.die).link l).badAuth true w then s.modLink p.die l fun k => { k with authf := k.authf + 1 }
  else if ((s.die p.die).link (5 - l)).st = linkFailed then s.wrapEnd far (5 - l) w
  else { s with outbound := s.outbound ++ [(p.die, 3 - l, s.wireBytes p.die (5 - l) w)] }

/-- LINK_CELL_RECEIVE (R344, R345, R350): the cell expected next is accepted or fails; every other one is discarded. -/
def execLinkCellReceive (p : PortRef) (w : WireCell) (s : State) : Host.Outcome State Fault Refusal :=
  .next (match linkOf p with
    | none => s
    | some l =>
      let k := (s.die p.die).link l
      if s.fatal.isSome then s
      else if w.wrap then (if isRack l then s.wrapRack p l w else s.wrapEnd p l w)
      else if k.st ≠ linkUp ∨ (isRack l = true ∧ s.rackOpen p.die = false) ∨ w.eseq ≠ k.rxEseq then s
      else if !w.beatOk then s.rejectCell p l false
      else if k.badAuth (isRack l) w then s.rejectCell p l true
      else s.acceptCell p l w)

/-! ### Acknowledgement and replay -/

/-- A lodge's LKEY switch of a port ends with a status (R356). -/
def State.endSwitch (s : State) (die l status : Nat) : State :=
  let r := (⟨die, 96, 0⟩ : TaskRef)
  match (s.task r).holds with
  | .lkey d port :: rest =>
    if port + 2 = l then
      let v := BitVec.ofNat 64 status
      let s := s.modTask r fun t => { t with holds := rest }
      if (s.task r).halted then s.modTask r fun t => t.push 0 (.scalar d v) else s.modTask r fun t => t.setSreg d v
    else s
  | _ => s

/-- A link after its cells up to a sequence number are acknowledged (R344, R349): the old key slot is live until
every cell under it is. -/
def Link.acked (eseq : Nat) (k : Link) : Link :=
  let retry := k.retry.filter fun x => !eseqLe x.1 eseq
  { k with retry := retry, liveOld := k.liveOld && retry.any fun x => decide (x.2.1 ≠ k.txAct) }

/-- LINK_ACK (R344): acknowledged cells leave the retry buffer; a switch-over completes with its marker's
acknowledgement (R356). -/
def execLinkAck (p : PortRef) (eseq : Nat) (s : State) : Host.Outcome State Fault Refusal :=
  .next (match linkOf p with
    | none => s
    | some l =>
      let k := (s.die p.die).link l
      let s := s.modLink p.die l (Link.acked eseq)
      if k.switching.isSome ∧ eseqLe k.markEseq eseq = true then
        (s.modLink p.die l fun k => { k with switching := none }).endSwitch p.die l 0
      else s)

/-- Cells of a retry buffer sent again with their sequence numbers and key slots (R344, R347). -/
def State.resend (s : State) (die l : Nat) (cells : List (Nat × Nat × Cell)) : State :=
  cells.foldl (fun s x => s.onWire die l ⟨x.1, x.2.1, decide (((s.die die).link l).st = linkFailed), true, true, x.2.2⟩) s

/-- REPLAY_REQUEST (R344): the sender replays from the asked ESEQ onward. -/
def execReplayRequest (p : PortRef) (eseq : Nat) (s : State) : Host.Outcome State Fault Refusal :=
  .next (match linkOf p with
    | none => s
    | some l =>
      let s := s.modLink p.die l fun k => { k with replays := k.replays + 1 }
      s.resend p.die l (((s.die p.die).link l).retry.filter fun x => eseqLe eseq x.1))

/-- The sequence number that the far end of a link expects next, where that end lies in this module. -/
def State.expected (s : State) (die l : Nat) : Nat :=
  match ringPeer die l with
  | some q => ((s.die q.die).link (1 - l)).rxEseq
  | none => 0

/-- LINK_TRAINED (R344): the direction is up, and its sender replays from the ESEQ after the last one accepted. -/
def execLinkTrained (p : PortRef) (s : State) : Host.Outcome State Fault Refusal :=
  .next (match linkOf p with
    | none => s
    | some l =>
      let s := s.modLink p.die l fun k => { k with st := linkUp, wrapped := false, fails := 0, authFails := 0 }
      let n := s.expected p.die l
      s.resend p.die l (((s.die p.die).link l).retry.filter fun x => eseqLe n x.1))

/-! ### Refusal and circulation (R340) -/

/-- RING_REFUSAL (R340): a refused cell circulates once with CIRC set. -/
def State.circulate (s : State) (p : PortRef) (c : Cell) : State :=
  s.modPort p.die (portRouter p) p.port fun q => { q with circ := q.circ ++ [{ c with circ := true }] }

/-- The NACK of a cell (R340, Table 16.1): routed to the Gatehouse of the module that put it on the rack ring. It carries
the whole cell, for which Table 16.1 has no room beside a payload of 128 bytes: its contents are the cell's slot. -/
def nackCell (module die : Nat) (c : Cell) : Cell := routedCell 5 (gateRoute module die) c.job (slotBytes c)

/-- A cell refused a second time goes back whole to the port that put it on the ring (R340). -/
def State.sendNack (s : State) (p : PortRef) (c : Cell) : State :=
  match linkOf p with
  | none => s
  | some l =>
    match ringPeer p.die l with
    | some q => s.andThen (.nack q c)
    | none => s.output p.die gateRouter p.port (nackCell (s.neighbour p.die l) p.die c) p.port

/-- RING_REFUSAL as a step: the first refusal circulates, the second sends a NACK (R340). -/
def execRingRefusal (p : PortRef) (cell : Cell) (s : State) : Host.Outcome State Fault Refusal :=
  .next (if cell.circ then s.sendNack p { cell with circ := false } else s.circulate p cell)

/-- NACK (R340). -/
def execNack (p : PortRef) (cell : Cell) (s : State) : Host.Outcome State Fault Refusal := .next (s.takeNack p cell)

/-- Whether a port stands at the start of a frame (R335). -/
def State.frameStart (s : State) (p : PortRef) : Bool :=
  match linkOf p with
  | some l => decide (((s.die p.die).link l).slotTime % 64 = 0)
  | none => true

/-- NACK_RESEND (R340): at the start of a frame the oldest NACKed cell waits again for its port. -/
def execNackResend (p : PortRef) (s : State) : Host.Outcome State Fault Refusal :=
  .next (if !s.frameStart p then s
    else match takeFirst (fun c => !s.jobStopped c.job) (((s.die p.die).pav (portRouter p)).port p.port).nackq with
    | none => s
    | some (c, rest) => s.modPort p.die (portRouter p) p.port fun q => { q with nackq := rest, out := q.out ++ [(8, c)] })

/-! ### Loss of a neighbour (R346) -/

/-- Whether a collective waits on cells of the fabric (R346): it has started under the tree or with a rank on another module,
and not ended. -/
def Coll.waitsOnFlow (m job : Nat) (x : Coll) : Bool :=
  decide (x.job = job) && x.started && x.failed.isNone && (x.ranks.any fun r => !r.done)
    && (x.tree.isSome || (List.range x.nranks).any fun i => decide (bytesAt x.list (8 * i) 8 % 64 ≠ m))

/-- The collectives of a job that wait on cells, each to end FAULTED at every rank (R346, R369). -/
def State.losses (s : State) (job : Nat) : List Event :=
  (List.range 8).flatMap fun d => ((s.die d).colls.filter (Coll.waitsOnFlow s.module.toNat job)).flatMap fun x =>
    (x.ranks.take 1).map fun r => .collFault job x.collid 0x89 r.rank

/-- MODULE_LOSS (R346): the loss is counted and every job whose cells had been sent over the link has its fault; a
collective that waits on them ends. How many cells were lost the manual does not say. -/
def execModuleLoss (p : PortRef) (s : State) : Host.Outcome State Fault Refusal :=
  .next (match linkOf p with
    | none => s
    | some l =>
      let jobs := ((s.die p.die).link l).jobs
      let s := (s.modGate p.die fun g => { g with floss := g.floss + Config.freeWord s.freeCtr }).tookFree
      let s := jobs.foldl (fun s j => { s.postLoss p.die l j with agenda := s.agenda ++ s.losses j }) s
      s.modLink p.die l fun k => { k with jobs := [] })

/-! ### Keys (R347 to R350, R356) -/

/-- KEY_MARKER (R349): the receiver takes the named slot as its active one, or refuses the marker. -/
def execKeyMarker (p : PortRef) (slot : Nat) (s : State) : Host.Outcome State Fault Refusal :=
  .next (match linkOf p with
    | none => s
    | some l =>
      if ((s.die p.die).link l).hasKey (2 + slot % 2) then s.modLink p.die l fun k => { k with rxAct := slot % 2 }
      else s.control p.die l 2 0 fun q => .keyRefusal q)

/-- A link back at its old transmit slot (R349): the cells after the marker go under it, and count as its new
cells. -/
def Link.refused (k : Link) : Link :=
  let old := 1 - k.txAct % 2
  let after := k.retry.filter fun x => !eseqLe x.1 k.markEseq
  { k with
    txAct := old, liveOld := false, switching := none, icnt := k.icntOld + after.length
    retry := k.retry.map fun x => if eseqLe x.1 k.markEseq then x else (x.1, old, x.2.2) }

/-- KEY_REFUSAL (R349): the sender returns to the old slot and replays the cells after the marker under it. -/
def execKeyRefusal (p : PortRef) (s : State) : Host.Outcome State Fault Refusal :=
  .next (match linkOf p with
    | none => s
    | some l =>
      let k := (s.die p.die).link l
      if k.switching = none then s
      else
        let s := (s.modLink p.die l Link.refused).countKey p.die l k.icntOld
        let s := s.resend p.die l (((s.die p.die).link l).retry.filter fun x => !eseqLe x.1 k.markEseq)
        s.endSwitch p.die l 3)

/-- Fields of LKEY's operand (R356): port, direction, slot, operation. -/
def keyPort (v : W64) : Nat := v.toNat % 2
/-- Direction: 0 transmit, 1 receive. -/
def keyDir (v : W64) : Nat := v.toNat / 2 % 2
/-- Slot. -/
def keySlot (v : W64) : Nat := v.toNat / 4 % 2
/-- Operation: 0 install, 1 switch, 2 clear. -/
def keyOp (v : W64) : Nat := v.toNat / 8

/-- Whether a key slot may not be installed over or cleared: it is active with a key, or live (R349). -/
def Link.inUse (dir slot : Nat) (k : Link) : Bool :=
  if dir = 0 then (decide (k.txAct = slot) && k.hasKey slot) || (decide (k.txAct ≠ slot) && k.liveOld)
  else decide (k.rxAct = slot) && k.hasKey (2 + slot)

/-- A key slot's contents replaced. -/
def Link.setKey (dir slot : Nat) (x : Option KeySlot) (k : Link) : Link :=
  { k with keys := Tbl.set none k.keys (2 * dir + slot) x }

/-- The switch of R349 begun: the marker goes under the old slot, every later cell under the new one. -/
def State.beginSwitch (s : State) (die l slot : Nat) : State :=
  let c : Cell := ⟨7, 0, 0, 0, 0, false, false, padTo 128 (leBytes 1 slot)⟩
  let k := (s.die die).link l
  let s := s.onWire die l ⟨k.txEseq, k.txAct, decide (k.st = linkFailed), true, true, c⟩
  s.modLink die l fun k =>
    { k with
      markEseq := k.txEseq, txEseq := (k.txEseq + 1) % 2 ^ 32, retry := k.retry ++ [(k.txEseq, k.txAct, c)],
      icntOld := k.icnt, icnt := 0, switching := some slot, liveOld := decide (k.txAct ≠ slot), txAct := slot }

/-- The status of LKEY, without a switch that is carried out (R356): 4 first, for a port that is down or failed, and for a
switch while the Gatehouse may send no rack traffic (R339). -/
def Link.keyStatus (isOpen : Bool) (op dir slot : Nat) (k : Link) : Nat :=
  if k.st ≠ linkUp ∨ (op = 1 ∧ isOpen = false) then 4
  else if op = 1 then (if !k.hasKey slot || k.switching.isSome then 2 else 0)
  else if k.inUse dir slot then 1
  else 0

end Sys2Proof.Machine
end

