-- ==== Sys2Proof/Machine/Multicast.lean ====
section
/-!
DEFINITION. Multicast headers and their replication (R351 to R353): level records as bytes, the routes of a head,
and a replicating port's decision applied to its body cells.
-/

namespace Sys2Proof.Machine

/-! ### Level records (R352) -/

/-- Bytes of a mask by level: rack, package, die. -/
def mcMaskBytes (level : Nat) : Nat := if level = 0 then 8 else if level = 1 then 1 else 15

/-- Members a mask may name. -/
def mcMembers (level : Nat) : Nat := if level = 0 then 64 else if level = 1 then 8 else 120

/-- A level record read from bytes: its level, flags, members, and each member's subtree. -/
structure McRecord where
  level : Nat
  flags : Nat
  members : List Nat
  lengths : List Nat
  subs : List (List Byte)
  deriving DecidableEq, Repr

/-- Bytes cut into runs of some lengths. -/
def cutRuns : List Nat → List Byte → List (List Byte)
  | [], _ => []
  | n :: t, b => b.take n :: cutRuns t (b.drop n)

/-- The outermost record of a run of record bytes. -/
def mcRecord (b : List Byte) : McRecord :=
  let level := leNat (b.take 1)
  let flags := leNat ((b.drop 1).take 1)
  let k := mcMaskBytes level
  let mask := leNat ((b.drop 2).take k)
  let members := (List.range (mcMembers level)).filter fun i => bitOf mask i
  if 2 ≤ level then ⟨level, flags, members, [], []⟩
  else
    let n := if bitOf flags 0 then 1 else members.length
    let lens := ((b.drop (2 + k)).take n).map BitVec.toNat
    ⟨level, flags, members, lens, cutRuns lens (b.drop (2 + k + n))⟩

/-- The subtree that member i of a record uses. -/
def McRecord.sub (r : McRecord) (i : Nat) : List Byte :=
  if bitOf r.flags 0 then r.subs.getD 0 [] else r.subs.getD (r.members.idxOf i) []

/-- A record for some of its members, as bytes. -/
def McRecord.only (r : McRecord) (l : List Nat) : List Byte :=
  let head := leBytes 1 r.level ++ leBytes 1 r.flags ++ leBytes (mcMaskBytes r.level) (l.foldl (fun m i => m ||| 2 ^ i) 0)
  if 2 ≤ r.level then head
  else
    let subs := if bitOf r.flags 0 then r.subs else l.map r.sub
    head ++ subs.flatMap (fun x => leBytes 1 x.length) ++ subs.flatMap id

/-- Bytes that a record takes. -/
def McRecord.size (r : McRecord) : Nat :=
  2 + mcMaskBytes r.level + (if 2 ≤ r.level then 0 else r.lengths.length + r.lengths.sum)

/-- Whether a record keeps R352 and its subtrees run inward; `fuel` bounds the levels. The bytes are all of
it. -/
def mcWellFormed (above : Option Nat) : Nat → List Byte → Bool
  | 0, _ => false
  | fuel + 1, b =>
    let r := mcRecord b
    decide (r.level ≤ 2) && decide (r.flags ≤ 1) && !decide (r.members = [])
      && decide (leNat ((b.drop 2).take (mcMaskBytes r.level)) < 2 ^ mcMembers r.level)
      && (match above with
        | some a => decide (a + 1 = r.level)
        | none => true)
      && decide (r.size = b.length)
      && (decide (r.level = 2) || r.subs.all (mcWellFormed (some r.level) fuel))

/-! ### Heads -/

/-- NBODY of a head payload (R351). -/
def mcBody (p : List Byte) : Nat := leNat (p.take 2)

/-- The record bytes of a head payload. -/
def mcRecords (p : List Byte) : List Byte := (p.take (leNat ((p.drop 2).take 1))).drop 3

/-- A head payload with other records. -/
def mcHeader (nbody : Nat) (recs : List Byte) : List Byte :=
  padTo 128 (leBytes 2 nbody ++ leBytes 1 (3 + recs.length) ++ recs)

/-! ### Routes (R353) -/

/-- What a router makes of record bytes: the copies it sends out, each by port and records, and whether it takes
one for itself. -/
abbrev McSplit := List (Nat × List Byte) × Bool

/-- A die record at a router: one copy for each next hop of the routes to the routers it names. -/
def splitDie (router : Nat) (r : McRecord) : McSplit :=
  let others := r.members.filter fun x => !decide (x = router)
  (((List.range 4).filterMap fun p =>
      let l := others.filter fun x => decide (meshPort router x = p)
      if l = [] then none else some (p, r.only l)),
    r.members.contains router)

/-- The port at a router toward the ring port of one direction: the ring port itself, or a mesh port. -/
def towardRing (router : Nat) (ascending : Bool) : Nat :=
  let goal := if ascending then eastRouter else westRouter
  if router = goal then 5 else meshPort router goal

/-- A package record at a router of a die (R353). -/
def splitPackage (die router : Nat) (r : McRecord) : McSplit :=
  let own := if r.members.contains die then splitDie router (mcRecord (r.sub die)) else ([], false)
  let others := r.members.filter fun x => !decide (x = die)
  let way := fun (up : Bool) =>
    let l := others.filter fun x => decide (dieSteps die x ≤ 4) == up
    if l = [] then [] else [(towardRing router up, r.only l)]
  (own.1 ++ way true ++ way false, own.2)

/-- Record bytes at a router: a rack record is split at the Gatehouse router, to which its head goes first
(R353). `present` lists the modules of the ring. -/
def mcSplit (module die router : Nat) (present : List Nat) (b : List Byte) : McSplit :=
  let r := mcRecord b
  match r.level with
  | 0 =>
    if router ≠ gateRouter then ([(meshPort router gateRouter, b)], false)
    else
      let own := if r.members.contains module then splitPackage die router (mcRecord (r.sub module)) else ([], false)
      let others := r.members.filter fun x => !decide (x = module)
      let steps := fun x => (present.idxOf x + present.length - present.idxOf module) % present.length
      let way := fun (up : Bool) =>
        let l := others.filter fun x => decide (2 * steps x ≤ present.length) == up
        if l = [] then [] else [((if up then 6 else 7), r.only l)]
      (own.1 ++ way true ++ way false, own.2)
  | 1 => splitPackage die router r
  | _ => splitDie router r

/-! ### Decisions -/

/-- A cell sent out of a port by multicast: a mesh port, the ring port of its router, or a rack port. -/
def State.mcOut (s : State) (die router inp port : Nat) (c : Cell) : State :=
  if port < 4 then s.input die (meshNext router port) (facing port) c else s.output die router port c inp

/-- The first copies of a split, one for each port, and the later ones. -/
def firstCopies : List (Nat × List Byte) → List Nat → List (Nat × List Byte) × List (Nat × List Byte)
  | [], _ => ([], [])
  | (p, b) :: rest, used =>
    let x := firstCopies rest (p :: used)
    if used.contains p then (x.1, (p, b) :: x.2) else ((p, b) :: x.1, x.2)

/-- A head at a router: its copies leave and the port's decision is kept for the body cells (R353). A second copy
for one port follows when the first has passed whole. -/
def State.mcHead (s : State) (die router inp : Nat) (c : Cell) : State :=
  let n := mcBody c.payload
  let x := mcSplit s.module.toNat die router (presentList (s.die die).gate.present) (mcRecords c.payload)
  let y := firstCopies x.1 []
  let head := fun (b : List Byte) => { c with payload := mcHeader n b }
  let s := y.1.foldl (fun s e => s.mcOut die router inp e.1 (head e.2)) s
  s.modPav die router fun p =>
    { p with mcast := p.mcast ++ [{ inp := inp, flow := c.flow, job := c.job, rank := c.rank, left := n, outs := y.1.map Prod.fst,
                                    take := x.2, later := y.2.map fun e => (e.1, [head e.2]) }] }

/-- Whether a decision is for a body cell of an input. -/
def McCopy.isFor (inp : Nat) (c : Cell) (d : McCopy) : Bool :=
  decide (d.inp = inp) && decide (d.flow = c.flow) && decide (d.job = c.job) && decide (d.rank = c.rank)

/-- The first decision for a body cell changed, or dropped when its last body cell has passed. -/
def stepDecision (inp : Nat) (c : Cell) : List McCopy → List McCopy
  | [] => []
  | d :: rest =>
    if d.isFor inp c then
      (if d.left ≤ 1 then rest
       else { d with left := d.left - 1, later := d.later.map fun e => (e.1, e.2 ++ [c]) } :: rest)
    else d :: stepDecision inp c rest

/-- A body cell at a router (R353): copies leave as its decision says; whether this router takes the cell. A body
cell without a decision is discarded. -/
def State.mcBodyCell (s : State) (die router inp : Nat) (c : Cell) : State × Bool :=
  match ((s.die die).pav router).mcast.find? fun d => d.isFor inp c with
  | none => (s, false)
  | some d =>
    let s := d.outs.foldl (fun s p => s.mcOut die router inp p c) s
    let s := if d.left ≤ 1 then d.later.foldl (fun s e => (e.2 ++ [c]).foldl (fun s x => s.mcOut die router inp e.1 x) s) s else s
    (s.modPav die router fun p => { p with mcast := stepDecision inp c p.mcast }, d.take)

end Sys2Proof.Machine
end

