-- ==== Sys2Proof/Machine/Pavilion.lean ====
section
/-!
DEFINITION. What a Pavilion does with a flow cell (R311 to R321): matching, the folds of COMBINE and SCAN, HOLD,
TRANSPOSE, FORWARD, DUPLICATE and DELIVER, and the cells of the refusal buffers offered again (R317).
-/

namespace Sys2Proof.Machine

/-! ### Entries (R314, Table 15.4) -/

/-- First accumulator slot of a local index of an entry. -/
def FlowEntry.slotOf (e : FlowEntry) (l : Nat) : Nat :=
  e.aslot + (if e.action = 5 then 32 * l else if e.cop = 0 ∧ e.ord = true then l * e.w else if e.cop = 3 then 2 * l else l)

/-- Whether an entry matches a cell (R314). -/
def FlowEntry.hits (c : Cell) (e : FlowEntry) : Bool :=
  e.v && decide (e.flow = c.flow) && decide (e.job = c.job) && decide (e.cfirst ≤ c.cidx)
    && decide (c.cidx < e.cfirst + e.ccount)

/-- The entry that a cell matches, with its slot (R314). -/
def Pavilion.matching (p : Pavilion) (c : Cell) : Option (Nat × FlowEntry) := p.entries.find? fun x => x.2.hits c

/-- A cell as an entry emits it: renamed or not (R315). -/
def FlowEntry.named (e : FlowEntry) (c : Cell) : Cell := if e.rename then { c with flow := e.outflow } else c

/-- Key of the round of a local index of an entry slot. -/
def roundKey (n l : Nat) : Nat := 4096 * n + l

/-- A round of a Pavilion. -/
def Pavilion.round (p : Pavilion) (n l : Nat) : Round := p.rounds.get Round.empty (roundKey n l)

/-- A round of a Pavilion replaced. -/
def Pavilion.setRound (p : Pavilion) (n l : Nat) (r : Round) : Pavilion :=
  { p with rounds := Tbl.set Round.empty p.rounds (roundKey n l) r }

/-! ### The accumulator store -/

/-- n slots of the store as bytes. -/
def State.readAcc (s : State) (die router slot n : Nat) : List Byte := s.mem.bytes (accSlot die router slot) (128 * n)

/-- Bytes put in the store. -/
def State.writeAcc (s : State) (die router slot : Nat) (b : List Byte) : State :=
  { s with mem := s.mem.setBytes (accSlot die router slot) b }

/-! ### Folds (R316) -/

/-- A term as the first of a fold: re-encoded (R316, R55). -/
def FlowEntry.first (x : W32) : W32 := BitVec.ofNat 32 (Fmt.f32.round .rne (Fmt.f32.decode x.toNat)).1

/-- One element of a floating fold (R316, R66, R67). -/
def FlowEntry.fold (e : FlowEntry) (a t : W32) : W32 × Flags :=
  let x := Fmt.f32.decode a.toNat
  let y := Fmt.f32.decode t.toNat
  match e.cop with
  | 0 =>
    let r := Fmt.f32.add (.ofRz e.rz) x y
    (BitVec.ofNat 32 r.1, r.2)
  | 1 => (BitVec.ofNat 32 (Fmt.f32.round .rne (x.max y)).1, 0)
  | _ => (BitVec.ofNat 32 (Fmt.f32.round .rne (x.min y)).1, 0)

/-- The 64-bit sums of an iadd accumulator from its 256 bytes. -/
def sumsOf (b : List Byte) : List Int := (List.range 32).map fun i => (BitVec.ofNat 64 (leNat ((b.drop (8 * i)).take 8))).toInt

/-- The bytes of 64-bit sums. -/
def sumBytes (l : List Int) : List Byte := l.flatMap fun x => leBytes 8 (BitVec.ofInt 64 x).toNat

/-- The accumulator of a local index after a term: its bytes and the flags of the fold. -/
def FlowEntry.accumulate (e : FlowEntry) (first : Bool) (acc term : List Byte) : List Byte × Flags :=
  let t := wordsOf term
  if e.cop = 3 then
    let s := if first then List.replicate 32 0 else sumsOf acc
    (sumBytes (List.zipWith (fun (a : Int) (x : W32) => a + x.toInt) s t), 0)
  else if first then (bytesOf (t.map FlowEntry.first), 0)
  else
    let r := List.zipWith e.fold (wordsOf acc) t
    (bytesOf (r.map Prod.fst), orAll (r.map Prod.snd))

/-- The payload that an accumulator gives when it is emitted, and its flags (R316, R318). -/
def FlowEntry.result (e : FlowEntry) (acc : List Byte) : List Byte × Flags :=
  if e.cop = 3 then
    let r := (sumsOf acc).map fun x =>
      if e.sat then
        let y := satInt true 32 x
        ((BitVec.ofInt 32 y.1 : W32), flagIf y.2 flagIS)
      else ((BitVec.ofInt 32 x : W32), (0 : Flags))
    (bytesOf (r.map Prod.fst), orAll (r.map Prod.snd))
  else (acc, 0)

/-- Accumulator slots of one local index. -/
def FlowEntry.accSlots (e : FlowEntry) : Nat := if e.cop = 3 then 2 else 1

/-- Flags of a fold in PFLAGS (Table 15.2). -/
def State.raisePav (s : State) (die router : Nat) (f : Flags) : State :=
  if f = 0 then s else s.modPav die router fun p => { p with pflags := p.pflags ||| f }

/-- A term folded into the accumulator of a local index; the payload of a poisoned cell is never folded
(R334). -/
def State.foldTerm (s : State) (die router : Nat) (e : FlowEntry) (l : Nat) (first psn : Bool) (term : List Byte) : State :=
  if psn then s
  else
    let x := e.accumulate first (s.readAcc die router (e.slotOf l) e.accSlots) term
    (s.writeAcc die router (e.slotOf l) x.1).raisePav die router x.2

/-- The folded cell of a local index emitted (R316, R318). A poisoned fold emits a PSN cell, whose payload is
no value of the fold (R334). -/
def State.emitFold (s : State) (die router : Nat) (e : FlowEntry) (l rank cidx : Nat) (psn : Bool) : State :=
  let cell := fun (b : List Byte) =>
    e.named { typ := 0, flow := e.flow, job := e.job, rank := rank, cidx := cidx, psn := psn, circ := false, payload := b }
  if psn then (s.emit die router 4 e.next (cell (s.freeBytes 128))).tookFree 128
  else
    let x := e.result (s.readAcc die router (e.slotOf l) e.accSlots)
    (s.raisePav die router x.2).emit die router 4 e.next (cell x.1)

/-! ### What an offer comes to -/

/-- What an entry made of a cell: it was taken, with whether a round's next rank advanced or its round ended; it
was refused; it matches nothing; or it waits for a drain of near memory. -/
inductive Offer where
  | taken (s : State) (advanced : Bool)
  | refused
  | stray
  | waits

/-- ORANK of an entry (Table 15.3). -/
def FlowEntry.orank (e : FlowEntry) : Nat := e.param.toNat % 2 ^ 16

/-- Where an ordered fold keeps the payload of a held rank: fadd has W − 1 slots beside the running fold, the other
operations none (Table 15.4). -/
def FlowEntry.heldSlot (e : FlowEntry) (l rank : Nat) : Option Nat :=
  if e.cop = 0 then some (e.slotOf l + 1 + rank % (e.w - 1)) else none

/-- A held rank kept. -/
def State.keepRank (s : State) (die router n : Nat) (e : FlowEntry) (l : Nat) (c : Cell) : State :=
  let s := match e.heldSlot l c.rank with
    | some a => s.writeAcc die router a (padTo 128 c.payload)
    | none => s
  s.modPav die router fun p =>
    let r := p.round n l
    p.setRound n l
      { r with
        ranks := r.ranks ++ [c.rank], bad := if c.psn then r.bad ++ [c.rank] else r.bad,
        waiting := if e.cop = 0 then r.waiting else r.waiting ++ [(c.rank, c.payload)] }

/-- The payload of a held rank. -/
def State.heldPayload (s : State) (die router n : Nat) (e : FlowEntry) (l rank : Nat) : List Byte :=
  match e.heldSlot l rank with
  | some a => s.readAcc die router a 1
  | none => ((((s.die die).pav router).round n l).waiting.find? fun x => decide (x.1 = rank)).elim [] Prod.snd

/-- Rank next of an ordered round folded (R317): SCAN emits its prefix, COMBINE its result at the round's end,
after which the round is empty. -/
def State.foldNext (s : State) (die router n : Nat) (e : FlowEntry) (l cidx : Nat) (psn : Bool) (term : List Byte) : State :=
  let r := ((s.die die).pav router).round n l
  let psn' := r.psn || psn
  let s := s.foldTerm die router e l (decide (r.next = 0)) psn term
  let s :=
    if e.action = 4 then s.emitFold die router e l r.next cidx psn'
    else if r.next + 1 = e.count then s.emitFold die router e l e.orank cidx psn'
    else s
  s.modPav die router fun p => p.setRound n l
    (if r.next + 1 = e.count then Round.empty
     else
       { next := r.next + 1, ranks := r.ranks.filter fun x => !decide (x = r.next), psn := psn',
         bad := r.bad.filter fun x => !decide (x = r.next), waiting := r.waiting.filter fun x => !decide (x.1 = r.next) })

/-- Held ranks that have become next folded; `fuel` bounds them (R317). -/
def State.foldHeld (die router n : Nat) (e : FlowEntry) (l cidx : Nat) : Nat → State → State
  | 0, s => s
  | fuel + 1, s =>
    let r := ((s.die die).pav router).round n l
    if r.ranks.contains r.next then
      State.foldHeld die router n e l cidx fuel
        (s.foldNext die router n e l cidx (r.bad.contains r.next) (s.heldPayload die router n e l r.next))
    else s

/-- A contribution to an ordered round (R317). -/
def State.ordered (s : State) (die router n : Nat) (e : FlowEntry) (l : Nat) (c : Cell) : Offer :=
  let r := ((s.die die).pav router).round n l
  if c.rank < r.next ∨ r.next + e.w ≤ c.rank ∨ r.ranks.contains c.rank = true then .refused
  else if c.rank = r.next then
    .taken (State.foldHeld die router n e l c.cidx e.w (s.foldNext die router n e l c.cidx c.psn (padTo 128 c.payload))) true
  else .taken (s.keepRank die router n e l c) false

/-- A contribution to a round that takes its ranks in any order (R316, R317). -/
def State.unordered (s : State) (die router n : Nat) (e : FlowEntry) (l : Nat) (c : Cell) : Offer :=
  let r := ((s.die die).pav router).round n l
  if r.ranks.contains c.rank then .refused
  else
    let psn := r.psn || c.psn
    let s := s.foldTerm die router e l (decide (r.ranks = [])) c.psn (padTo 128 c.payload)
    if r.ranks.length + 1 = e.count then
      .taken ((s.emitFold die router e l e.orank c.cidx psn).modPav die router fun p => p.setRound n l Round.empty) true
    else .taken (s.modPav die router fun p => p.setRound n l { r with ranks := r.ranks ++ [c.rank], psn := psn }) false

/-- COMBINE and SCAN (R316 to R318): a rank of COUNT or more is discarded with a rank-range fault. -/
def State.combine (s : State) (die router n : Nat) (e : FlowEntry) (l : Nat) (c : Cell) : Offer :=
  if e.count ≤ c.rank then .taken (s.postCell die router 0x85 true c) false
  else if e.action = 4 ∨ (e.cop = 0 ∧ e.ord = true) then s.ordered die router n e l c
  else s.unordered die router n e l c

/-! ### HOLD and TRANSPOSE -/

/-- Ascending (cell index, rank) (R319). -/
def cellBefore (a b : Cell) : Bool := decide (a.cidx < b.cidx) || (decide (a.cidx = b.cidx) && decide (a.rank ≤ b.rank))

/-- HOLD (R319). -/
def State.holdCell (s : State) (die router inp n : Nat) (e : FlowEntry) (c : Cell) : Offer :=
  let old := ((s.die die).pav router).held.get [] n
  if old.any fun x => decide (x.2.cidx = c.cidx) && decide (x.2.rank = c.rank) then
    .taken (s.postCell die router 0x86 true c) false
  else
    let s := s.writeAcc die router (e.aslot + old.length) (padTo 128 c.payload)
    let new := old ++ [(inp, { c with payload := [] })]
    if new.length < e.holdn then
      .taken (s.modPav die router fun p => { p with held := Tbl.set [] p.held n new }) false
    else
      let all := (List.range new.length).zip new |>.map fun x =>
        (x.2.1, { x.2.2 with payload := s.readAcc die router (e.aslot + x.1) 1 })
      let s := s.modPav die router fun p => { p with held := Tbl.set [] p.held n [] }
      .taken ((inOrder all fun a b => cellBefore a.2 b.2).foldl (fun s x => s.emit die router x.1 e.next (e.named x.2)) s) true

/-- Element r of cell j of a transposed block: element j of rank r's cell, zero from rank COUNT on (R320). -/
def State.transposed (s : State) (die router : Nat) (e : FlowEntry) (l j : Nat) : List Byte :=
  (List.range 32).flatMap fun r =>
    if r < e.count then s.mem.bytes (accSlot die router (e.slotOf l + r) + 4 * j) 4 else List.replicate 4 0

/-- TRANSPOSE (R320). -/
def State.transpose (s : State) (die router n : Nat) (e : FlowEntry) (l : Nat) (c : Cell) : Offer :=
  let r := ((s.die die).pav router).round n l
  if e.count ≤ c.rank then .taken (s.postCell die router 0x85 true c) false
  else if r.ranks.contains c.rank then .refused
  else
    let psn := r.psn || c.psn
    let s := s.writeAcc die router (e.slotOf l + c.rank) (padTo 128 c.payload)
    if r.ranks.length + 1 < e.count then
      .taken (s.modPav die router fun p => p.setRound n l { r with ranks := r.ranks ++ [c.rank], psn := psn }) false
    else
      let out := (List.range 32).map fun j =>
        e.named { typ := 0, flow := e.flow, job := e.job, rank := j, cidx := c.cidx, psn := psn, circ := false,
                  payload := s.transposed die router e l j }
      let s := s.modPav die router fun p => p.setRound n l Round.empty
      .taken (out.foldl (fun s x => s.emit die router 4 e.next x) s) true

/-! ### DELIVER (R321) -/

/-- A Pavilion as an agent for a cell: it translates by the die's last-level TLB (R321, R243), and its requests carry the
router and the cell's flow and index for a fault record. -/
def pavAgent (die router job : Nat) (c : Cell) : Agent :=
  { task := ⟨die, pavCore, 0⟩, tok := router + 2 ^ 7 * (cellInfo false c).toNat, pos := pavPos router, job := job, key := jobKey job,
    writer := { die := die, agent := 0xC0, slot := router, job := job, lidx := noLidx, lodge := false } }

/-- Whether a slot holds a task of a job that has not ended. -/
def State.hasTask (s : State) (r : TaskRef) (job : Nat) : Bool :=
  match s.task? r with
  | some t => decide (t.job = job) && !decide (t.status = .ending)
  | none => false

/-- Window offset of a scratchpad delivery of a local index. -/
def FlowEntry.windowOffset (e : FlowEntry) (l : Nat) : Nat := e.param.toNat % 2 ^ 22 + 128 * l

/-- A cell delivered to its scratchpad (R321, R177, R334). -/
def State.deliverNear (s : State) (die router : Nat) (e : FlowEntry) (l : Nat) (c : Cell) : State :=
  let r := localTask die router e.lslot
  if c.psn then s.postCell die router 0xA0 false c
  else if s.hasTask r e.job then
    s.arrive r e.tt [(e.windowOffset l, padTo 128 c.payload)] (s.agentTime die (pavPos router))
  else s.postFault die 0xC0 router e.job 0x26 (BitVec.ofNat 64 e.tt)

/-- A cell delivered to its global address (R321, R250, R334). -/
def State.deliverGlobal (s : State) (die router : Nat) (e : FlowEntry) (l : Nat) (c : Cell) : State :=
  if c.psn then s.postCell die router 0xA0 false c
  else
    let x := s.engineWrite (pavAgent die router e.job c) (BitVec.ofNat 64 (e.param.toNat + 128 * l)) (padTo 128 c.payload)
    match x.2 with
    | .wrote lines => (x.1.stamp die (pavPos router) lines).1
    | _ => x.1.postCell die router 0x83 false c

/-- A cell delivered as an entry's local fields say (R321). -/
def State.deliverCell (s : State) (die router : Nat) (e : FlowEntry) (l : Nat) (c : Cell) : State :=
  match e.lkind with
  | 0 => s.toQueue die router e.lslot e.lq e.job c
  | 1 => s.deliverNear die router e l c
  | _ => s.deliverGlobal die router e l c

/-- Whether a delivery must wait for the drain of a PHASE (R173). -/
def State.deliveryHeld (s : State) (die router : Nat) (e : FlowEntry) (l : Nat) : Bool :=
  let r := localTask die router e.lslot
  decide (e.lkind = 1) && s.drainHolds r.coreRef (windowAddr r.coreRef (s.task r) (e.windowOffset l)) 128

/-- DUPLICATE (R315): a copy out of every port of FAN, the local one delivered. -/
def State.duplicate (s : State) (die router inp : Nat) (e : FlowEntry) (l : Nat) (c : Cell) : State :=
  (List.range 6).foldl
    (fun s p =>
      if !bitOf e.fan p then s
      else if p = 4 then s.deliverCell die router e l (e.named c)
      else s.emit die router inp p (e.named c)) s

/-! ### An offer -/

/-- A flow cell offered to the Pavilion of a router (R314 to R321). -/
def State.offer (s : State) (die router inp : Nat) (c : Cell) : Offer :=
  match ((s.die die).pav router).matching c with
  | none => .stray
  | some (n, e) =>
    let l := c.cidx - e.cfirst
    match e.action with
    | 0 => .taken (s.emit die router inp e.next (e.named c)) false
    | 1 => s.combine die router n e l c
    | 2 =>
      if bitOf e.fan 4 && s.deliveryHeld die router e l then .waits else .taken (s.duplicate die router inp e l c) false
    | 3 => s.holdCell die router inp n e c
    | 4 => s.combine die router n e l c
    | 5 => s.transpose die router n e l c
    | _ => if s.deliveryHeld die router e l then .waits else .taken (s.deliverCell die router e l c) false

/-- A refusal counted (Table 15.2). -/
def State.countRefusal (s : State) (die router : Nat) : State :=
  s.modPav die router fun p => { p with refused := p.refused + 1 }

/-- Whether two cells of a router belong to one round. -/
def Pavilion.sameRound (p : Pavilion) (a b : Cell) : Bool :=
  match p.matching a, p.matching b with
  | some x, some y => decide (x.1 = y.1) && decide (a.cidx = b.cidx)
  | _, _ => false

/-- The refused cells of one port that belong to a cell's round offered again, in order; whether one of them was
taken and moved the round on. -/
def State.retryPort (die router : Nat) (of : Cell) : Nat → List Cell → State → State × List Cell × Bool
  | _, [], s => (s, [], false)
  | port, c :: rest, s =>
    if ((s.die die).pav router).sameRound of c then
      match s.offer die router port c with
      | .taken s' a =>
        let x := State.retryPort die router of port rest s'
        (x.1, x.2.1, a || x.2.2)
      | .refused =>
        let x := State.retryPort die router of port rest (s.countRefusal die router)
        (x.1, c :: x.2.1, x.2.2)
      | _ =>
        let x := State.retryPort die router of port rest s
        (x.1, c :: x.2.1, x.2.2)
    else
      let x := State.retryPort die router of port rest s
      (x.1, c :: x.2.1, x.2.2)

/-- One round of offers over the mesh and local ports of a router (R317). -/
def State.retryPorts (s : State) (die router : Nat) (of : Cell) : State × Bool :=
  (List.range 5).foldl
    (fun a port =>
      let x := State.retryPort die router of port ((((a.1.die die).pav router).port port).refusal) a.1
      (x.1.modPort die router port fun q => { q with refusal := x.2.1 }, a.2 || x.2.2)) (s, false)

/-- Refused cells of a round offered again each time the round moves on (R317); `fuel` bounds the offers. -/
def State.retryAll (die router : Nat) (of : Cell) : Nat → State → State
  | 0, s => s
  | fuel + 1, s =>
    let x := s.retryPorts die router of
    if x.2 then State.retryAll die router of fuel x.1 else x.1

/-- Cells in the refusal buffers of a router. -/
def Pavilion.refusals (p : Pavilion) : Nat := ((List.range 5).map fun n => (p.port n).refusal.length).sum

/-- What follows the taking of a cell. -/
def State.afterTaken (s : State) (die router : Nat) (c : Cell) (advanced : Bool) : State :=
  if advanced then State.retryAll die router c (((s.die die).pav router).refusals + 1) s else s

end Sys2Proof.Machine
end

