-- ==== Sys2Proof/Machine/Matrix.lean ====
section
/-!
DEFINITION. Operand slots, sub-arrays, accumulator tiles and the systolic array (R185 to R204): claims,
configuration, latches, streams and their exact segment sums, and MOUT.
-/

namespace Sys2Proof.Machine

/-! ### Holding (R185 to R188) -/

/-- Sub-arrays of a splitting mode (Table 9.1). -/
def subCount (mode : Nat) : Nat := if mode = 0 then 1 else if mode = 1 then 2 else 4

/-- Depth D of each sub-array of a mode (Table 9.1). -/
def subDepth (mode : Nat) : Nat := 64 / subCount mode

/-- Whether the issuing task holds operand slot n. -/
def State.holdsSlot (s : State) (n : Nat) : Bool := decide (s.here.slotOwner.get none n = some s.cur.slot)

/-- Whether the issuing task holds sub-array h of the present mode. -/
def State.holdsSub (s : State) (h : Nat) : Bool :=
  decide (h < subCount s.here.mode) && decide (s.here.subOwner.get none h = some s.cur.slot)

/-- The matrix-resource and matrix-config traps of an idx field (Table 19.1). -/
def resourceTrap (idx : Nat) : Trap := ⟨0x29, BitVec.ofNat 64 idx⟩
/-- The matrix-config trap of an idx field. -/
def configTrap (idx : Nat) : Trap := ⟨0x2A, BitVec.ofNat 64 idx⟩

/-- Whether a holder field is free or of a slot. -/
def mayHold (owner : Option Nat) (slot : Nat) : Bool := decide (owner = none) || decide (owner = some slot)

/-- MCLAIM of a slot or sub-array for the issuing task: the core after it, and whether it succeeded (R187). -/
def Core.claim (c : Core) (slot idx : Nat) : Core × Bool :=
  if idx < 16 then
    (if mayHold (c.slotOwner.get none idx) slot then ({ c with slotOwner := Tbl.set none c.slotOwner idx (some slot) }, true)
     else (c, false))
  else if idx - 16 < subCount c.mode ∧ mayHold (c.subOwner.get none (idx - 16)) slot = true then
    ({ c with subOwner := Tbl.set none c.subOwner (idx - 16) (some slot) }, true)
  else (c, false)

/-- A slot on the array: a core without one takes it as an illegal instruction (R16). -/
def semArray (m : SlotSem) : SlotSem := { m with place := .array }

/-- The resources of a core that a running core-level tile instruction of a slot uses (R299): operand slot n as n,
sub-array m0 as 16, accumulator unit n as 32 + n. -/
def Core.tileNames (c : Core) (slot : Nat) : List Nat :=
  c.cmds.flatMap fun e => match e.2 with
    | some x =>
      (match x.run with
        | some g =>
          if x.slot = slot ∧ x.started = true ∧ g.block.headD 0 = 4 then
            let a := (g.block.getD 64 0).toNat
            let o := (g.block.getD 65 0).toNat
            [o, o + 1, o + 2, o + 3, 16, 32 + a, 33 + a]
          else []
        | none => [])
    | none => []

/-- A slot on the array that names some resources: it stalls while a tile instruction of its task uses one
(R299). -/
def semNaming (names : State → List Nat) (m : SlotSem) : SlotSem :=
  semArray { m with
    wait := fun s0 s =>
      if (s0.here.tileNames s0.cur.slot).any (names s0).contains then some s else m.wait s0 s }

/-- The units of the tile that a unit belongs to, as resources. -/
def Core.tileUnits (c : Core) (n : Nat) : List Nat :=
  let u := c.units.get AccUnit.free n
  if u.units = 0 then [32 + n] else (List.range u.units).map fun i => 32 + u.head + i

/-- MCLAIM, latency 1 (R187). -/
def semMclaim (g : Guard) (d : BitVec 5) (idx : BitVec 6) : SlotSem :=
  semArray
    { guard := g
      eff := fun _ s =>
        let x := s.here.claim s.cur.slot idx.toNat
        (s.modHere fun _ => x.1).push 1 (.scalar d.toNat (if x.2 then 1 else 0)) }

/-- Operand slots that the activation rows of a stream touch (R197, R198). -/
def rowSlots (aoff astride rows size : Nat) : List Nat :=
  (List.range rows).flatMap fun m =>
    let lo := (aoff + m * astride) / 0x8000
    let hi := (aoff + m * astride + size - 1) / 0x8000
    (List.range (hi + 1 - lo)).map fun i => lo + i

/-- Bytes of D values in a format (R195, R197): e2m1 rows are packed with their block scales. -/
def rowSize (fmt d : Nat) : Nat :=
  match fmt with
  | 0 => 4 * d
  | 1 | 2 => 2 * d
  | 5 => d / 2 + d / 8
  | _ => d

/-- Bytes of an element of an output format (R204). -/
def fmtBytes (fmt : Nat) : Nat := if fmt = 0 then 4 else if fmt ≤ 2 then 2 else 1

/-- Columns of a tile by its COLS code (Table 9.2). -/
def colCount (code : Nat) : Nat := if code = 0 then 64 else if code = 1 then 32 else 16

/-- Operand slots that MOUT writes (R204). -/
def outSlots (f : Tbl W64) (cols : Nat) : List Nat :=
  if fieldOf f 40 = 1 then rowSlots (fieldOf f 41) (fieldOf f 42) (fieldOf f 36) (cols * fmtBytes (fieldOf f 43)) else []

/-- Whether a command that waits or runs uses operand slot n (`o`) or sub-array n. -/
def Cmd.uses (c : Core) (o : Bool) (n : Nat) (x : Cmd) : Bool :=
  match x.kind with
  | .mstrm _ =>
    if o then
      (rowSlots (fieldOf x.fields 33) (fieldOf x.fields 34) (fieldOf x.fields 36)
        (rowSize (fieldOf x.fields 35) (subDepth c.mode))).contains n
    else decide (fieldOf x.fields 32 = n)
  | .mout t => o && (outSlots x.fields (colCount (c.accUnit t).cols)).contains n
  | _ => false

/-- Whether a matrix command of a slot still uses operand slot n or sub-array n (R187). -/
def Core.inUse (c : Core) (slot : Nat) (o : Bool) (n : Nat) : Bool :=
  (c.cmds.any fun e => match e.2 with
    | some x => decide (x.slot = slot) && x.uses c o n
    | none => false)
    || c.mcmds.any fun m => match m with
      | .latch k h sl _ => decide (k = slot) && (if o then decide (sl = n) else decide (h = n))
      | .token _ _ => false

/-- Rows of bytes logged for a slot's region, each as one item (R206): accumulator rows of 4C bytes, or granules. -/
def State.logRows (s : State) (c : CoreRef) (slot a row n : Nat) (w : Nat) : State :=
  (List.range n).foldl (fun s i => s.logFor c slot (.bytes (a + row * i) (s.mem.bytes (a + row * i) row)) w) s

/-- Base of operand slot n of a core. -/
def slotBase (c : CoreRef) (n : Nat) : Nat := operandBase c + n * 0x8000

/-- An operand slot given up: it is zeroed (R186). -/
def State.giveSlot (s : State) (c : CoreRef) (n : Nat) : State :=
  let lo := slotBase c n
  ({ s with mem := s.mem.filter fun e => !(decide (lo ≤ e.1) && decide (e.1 < lo + 0x8000)) }).modCore c fun k =>
    { k with slotOwner := Tbl.set none k.slotOwner n none }

/-- A sub-array given up: its weights are invalid (R186). -/
def Core.giveSub (c : Core) (h : Nat) : Core :=
  { c with subOwner := Tbl.set none c.subOwner h none, latches := Tbl.set none c.latches h none }

/-- MREL (R187). -/
def semMrel (g : Guard) (idx : BitVec 6) : SlotSem :=
  let o := decide (idx.toNat < 16)
  let n := if o then idx.toNat else idx.toNat - 16
  semNaming (fun _ => [idx.toNat])
    { guard := g
      trap := fun _ s0 => trapIf (!(if o then s0.holdsSlot n else s0.holdsSub n)) (resourceTrap idx.toNat)
      wait := fun s0 s => if s0.here.inUse s0.cur.slot o n then some s else none
      eff := fun _ s =>
        if o then (s.logRows s.cur.coreRef s.cur.slot (slotBase s.cur.coreRef n) 128 256 0).giveSlot s.cur.coreRef n else s.modHere fun c => c.giveSub n }

/-- Whether a slot has a matrix command outstanding. -/
def Core.matrixBusy (c : Core) (slot : Nat) : Bool :=
  c.mcmds.any fun m => match m with
    | .latch k _ _ _ => decide (k = slot)
    | .token k _ => decide (k = slot)

/-- The sub-arrays after MSPLIT to a mode by the task that holds them all (R188). -/
def Core.split (c : Core) (slot mode : Nat) : Core :=
  { c with
    mode := mode
    subOwner := (List.range (subCount mode)).map fun h => (h, some slot)
    latches := [] }

/-- MSPLIT (R188). -/
def semMsplit (g : Guard) (idx : BitVec 6) : SlotSem :=
  semNaming (fun _ => [16])
    { guard := g
      trap := fun _ s0 =>
        trapIf (!(List.range (subCount s0.here.mode)).all fun h => s0.holdsSub h) (resourceTrap idx.toNat)
      wait := fun s0 s => if s0.here.matrixBusy s0.cur.slot then some s else none
      eff := fun _ s => s.modHere fun c => c.split s.cur.slot idx.toNat }

/-- MSKIP (R203). -/
def semMskip (g : Guard) (idx : BitVec 6) : SlotSem :=
  semArray { guard := g, eff := fun _ s => s.modMe fun t => { t with mskip := decide (idx = 1) } }

/-! ### Accumulator tiles (R189 to R193) -/

/-- Rows of a tile (R189). -/
def AccUnit.rows (u : AccUnit) : Nat := 4096 * u.units / colCount u.cols

/-- Whether unit n belongs to a tile of a task slot. -/
def Core.ownsUnit (c : Core) (slot n : Nat) : Bool :=
  decide (0 < (c.accUnit n).units) && decide ((c.accUnit n).owner = slot)

/-- Whether cN is the first unit of a tile of a task slot. -/
def Core.ownsTile (c : Core) (slot n : Nat) : Bool := c.ownsUnit slot n && decide ((c.accUnit n).head = n)

/-- The units of a tile by its first unit made FREE. -/
def Core.freeTile (c : Core) (head : Nat) : Core :=
  { c with units := c.units.filter fun e => !decide (e.2.head = head) }

/-- Byte address of an accumulator unit. -/
def unitAddr (c : CoreRef) (n : Nat) : Nat := accBase c + 0x4000 * n

/-- The bytes of u units from unit n made zero, logged (R190, R192). -/
def State.zeroUnits (s : State) (c : CoreRef) (slot n u cols : Nat) : State :=
  let lo := unitAddr c n
  let s := s.logRows c slot lo (4 * cols) (4096 * u / cols) 0
  { s with mem := s.mem.filter fun e => !(decide (lo ≤ e.1) && decide (e.1 < lo + 0x4000 * u)) }

/-- Fields of MCFG's operand (Table 9.2). -/
def cfgUnits (v : W64) : Nat := v.toNat % 32
/-- COLS of MCFG's operand. -/
def cfgCols (v : W64) : Nat := v.toNat / 2 ^ 8 % 4

/-- Whether MCFG's operand is refused for unit n. -/
def cfgBad (v : W64) (n : Nat) : Bool :=
  decide (cfgCols v = 3) || decide (v.toNat / 2 ^ 12 ≠ 0) || decide (v.toNat / 2 ^ 5 % 8 ≠ 0) || decide (v.toNat / 2 ^ 10 % 4 ≠ 0)
    || decide (16 < cfgUnits v) || decide (64 < n + cfgUnits v)

/-- Units n to n + u − 1. -/
def unitRun (n u : Nat) : List Nat := (List.range u).map fun i => n + i

/-- The traps of MCFG (R190). -/
def mcfgTrap (v : W64) (n : Nat) (s : State) : Option Trap :=
  let u := cfgUnits v
  if cfgBad v n then some (configTrap n)
  else if u = 0 then trapIf (!s.here.ownsTile s.cur.slot n) (resourceTrap n)
  else if 1024 < 4096 * u / colCount (cfgCols v) then some (configTrap n)
  else trapIf ((unitRun n u).any fun k => decide (0 < (s.here.accUnit k).units) && !decide ((s.here.accUnit k).owner = s.cur.slot))
    (resourceTrap n)

/-- Whether MCFG stalls: a tile it releases or touches is busy (R190, R191). -/
def mcfgBusy (v : W64) (n : Nat) (c : Core) : Bool :=
  if cfgUnits v = 0 then c.tileBusy n
  else (unitRun n (cfgUnits v)).any fun k => decide (0 < (c.accUnit k).units) && c.tileBusy (c.accUnit k).head

/-- The units of a core after MCFG. -/
def Core.configure (c : Core) (slot n u cols : Nat) : Core :=
  let c := (unitRun n u).foldl (fun c k => if 0 < (c.accUnit k).units then c.freeTile (c.accUnit k).head else c) c
  (unitRun n u).foldl (fun c k => c.setUnit k ⟨n, u, cols, slot, false, 0⟩) c

/-- MCFG (R190). -/
def semMcfg (g : Guard) (r : BitVec 5) (idx : BitVec 6) : SlotSem :=
  semNaming (fun s0 => (List.range (max 1 ((s0.sreg r).toNat % 32))).flatMap fun i => s0.here.tileUnits (idx.toNat + i))
    { guard := g
      trap := fun _ s0 => mcfgTrap (s0.sreg r) idx.toNat s0
      wait := fun s0 s => if mcfgBusy (s0.sreg r) idx.toNat s0.here then some s else none
      eff := fun s0 s =>
        let v := s0.sreg r
        if cfgUnits v = 0 then s.modHere fun c => c.freeTile idx.toNat
        else
          (s.zeroUnits s.cur.coreRef s.cur.slot idx.toNat (cfgUnits v) (colCount (cfgCols v))).modHere fun c =>
            c.configure s.cur.slot idx.toNat (cfgUnits v) (cfgCols v) }

/-- The units of a tile changed. -/
def Core.modTile (c : Core) (head : Nat) (f : AccUnit → AccUnit) : Core :=
  { c with units := Tbl.mapDrop AccUnit.free (fun u => if u.head = head ∧ 0 < u.units then f u else u) c.units }

/-- MZERO (R192). -/
def semMzero (g : Guard) (idx : BitVec 6) : SlotSem :=
  semNaming (fun s0 => s0.here.tileUnits idx.toNat)
    { guard := g
      trap := fun _ s0 => trapIf (!s0.here.ownsTile s0.cur.slot idx.toNat) (resourceTrap idx.toNat)
      wait := fun s0 s => if s0.here.tileBusy idx.toNat then some s else none
      eff := fun _ s =>
        let u := s.here.accUnit idx.toNat
        (s.zeroUnits s.cur.coreRef s.cur.slot idx.toNat u.units (colCount u.cols)).modHere fun c =>
          c.modTile idx.toNat fun u => { u with live := true, flags := 0 } }

/-- The stall of MRD and MWR: the tile of the unit is busy (R191). -/
def unitWait (n : Nat) (s0 s : State) : Option State :=
  if s0.here.tileBusy (s0.here.accUnit n).head then some s else none

/-- MRD, latency 4 (R193). -/
def semMrd (g : Guard) (v : BitVec 5) (tile : BitVec 6) (part : BitVec 2) : SlotSem :=
  semNaming (fun _ => [32 + tile.toNat])
    { guard := g
      vdst := some v.toNat
      trap := fun _ s0 => firstTrap
        [trapIf (!s0.here.ownsUnit s0.cur.slot tile.toNat) (resourceTrap tile.toNat),
         trapIf (!(s0.here.accUnit tile.toNat).live) ⟨0x28, zext tile⟩]
      wait := unitWait tile.toNat
      eff := fun s0 s =>
        s.push 4 (.vec (s0.me.vpos v.toNat) (BitVec.allOnes 1024)
          (wordsOf (s0.mem.bytes (unitAddr s0.cur.coreRef tile.toNat + 0x1000 * part.toNat) 0x1000))) }

/-- MWR (R193). -/
def semMwr (g : Guard) (v : BitVec 5) (tile : BitVec 6) (part : BitVec 2) : SlotSem :=
  semNaming (fun _ => [32 + tile.toNat])
    { guard := g
      vsrc := [v.toNat]
      trap := fun _ s0 => trapIf (!s0.here.ownsUnit s0.cur.slot tile.toNat) (resourceTrap tile.toNat)
      wait := unitWait tile.toNat
      eff := fun s0 s =>
        let a := unitAddr s0.cur.coreRef tile.toNat + 0x1000 * part.toNat
        let b := bytesOf (s0.vreg v.toNat)
        let cols := colCount (s0.here.accUnit tile.toNat).cols
        let s := s.logRows s.cur.coreRef s.cur.slot a (4 * cols) (0x1000 / (4 * cols)) (leNat b)
        ({ s with mem := s.mem.setBytes a b }).modHere fun c =>
          c.modTile (c.accUnit tile.toNat).head fun u => { u with live := true } }

/-! ### Latches (R195, R196) -/

/-- Fields of MLATCH's operand. -/
def latchSub (v : W64) : Nat := v.toNat % 4
/-- The weight format of an MLATCH operand. -/
def latchFmt (v : W64) : Nat := v.toNat / 2 ^ 4 % 16
/-- The image offset in bytes of an MLATCH operand. -/
def latchOff (v : W64) : Nat := v.toNat / 2 ^ 8 % 2 ^ 7 * 256

/-- Bytes of a weight image for a depth (Table 9.4). -/
def imageSize (fmt d : Nat) : Nat := if fmt = 5 then 40 * d + 128 else rowSize fmt (64 * d)

/-- The traps of MLATCH (R195). -/
def mlatchTrap (v : W64) (o : Nat) (s : State) : Option Trap :=
  firstTrap
    [trapIf (!(s.holdsSlot o && s.holdsSub (latchSub v))) (resourceTrap o),
     trapIf (decide (v.toNat / 2 ^ 15 ≠ 0) || decide (v.toNat / 4 % 4 ≠ 0) || decide (5 < latchFmt v)
       || decide (0x8000 < latchOff v + imageSize (latchFmt v) (subDepth s.here.mode))) (configTrap o)]

/-- Whether a matrix command uses sub-array h. -/
def Core.onSub (c : Core) (h : Nat) (m : MCmd) : Bool :=
  match m with
  | .latch _ k _ _ => decide (k = h)
  | .token slot tok =>
    match c.cmd (16 * slot + tok) with
    | some x => (match x.kind with
      | .mstrm _ => decide (fieldOf x.fields 32 = h)
      | _ => false)
    | none => false

/-- Latches that have no earlier command of their sub-array execute: the weights are copied (R195). `done`
holds the commands passed over. -/
def State.runLatches (c : CoreRef) : List MCmd → List MCmd → State → State
  | done, [], s => s.modCore c fun k => { k with mcmds := done }
  | done, m :: rest, s =>
    match m with
    | .latch _ h o v =>
      let k := s.core c
      if done.any (k.onSub h) then State.runLatches c (done ++ [m]) rest s
      else
        let img := s.mem.bytes (operandBase c + o * 0x8000 + latchOff v) (imageSize (latchFmt v) (subDepth k.mode))
        State.runLatches c done rest (s.modCore c fun k => { k with latches := Tbl.set none k.latches h (some ⟨v, img⟩) })
    | .token _ _ => State.runLatches c (done ++ [m]) rest s

/-- A core's latches that can execute do (R195). -/
def State.latchAll (s : State) (c : CoreRef) : State := State.runLatches c [] (s.core c).mcmds s

/-- MLATCH (R195). -/
def semMlatch (g : Guard) (r : BitVec 5) (idx : BitVec 6) : SlotSem :=
  semNaming (fun s0 => [idx.toNat, 16 + (s0.sreg r).toNat % 4])
    { guard := g
      trap := fun _ s0 => mlatchTrap (s0.sreg r) idx.toNat s0
      eff := fun s0 s =>
        let v := s0.sreg r
        (s.modHere fun c => { c with mcmds := c.mcmds ++ [.latch s.cur.slot (latchSub v) idx.toNat v] }).latchAll
          s.cur.coreRef }

/-- The number format of a weight or activation code 0 to 4 (Table 2.14). -/
def arrayFmt (code : Nat) : Fmt :=
  match code with
  | 0 => .f32
  | 1 => .bf16
  | 2 => .f16
  | 3 => .e4m3
  | _ => .e5m2

/-- n bytes of an image from an offset as a number. -/
def codeAt (img : List Byte) (off n : Nat) : Nat := leNat ((img.drop off).take n)

/-- An FP4 code of an image: bits [4(n mod 2)+3 : 4(n mod 2)] of a byte. -/
def nibbleAt (img : List Byte) (off n : Nat) : Nat := codeAt img off 1 / 2 ^ (4 * (n % 2)) % 16

/-- Weight (k, n) of an image in a format for depth d, exact (R196, Table 9.4). -/
def weightAt (img : List Byte) (fmt d k n : Nat) : Num :=
  if fmt = 5 then
    ((Fmt.e2m1.decode (nibbleAt img (32 * k + n / 2) n)).mul (Fmt.e3m5.decode (codeAt img (32 * d + 64 * (k / 8) + n) 1))).mul
      (Fmt.bf16.decode (codeAt img (40 * d + 2 * n) 2))
  else (arrayFmt fmt).decode (codeAt img ((64 * k + n) * fmtBytes fmt) (fmtBytes fmt))

/-- Whether weight (k, n) is invalid (R196): its block scale is 0xFF, or its code is a zero under an infinite
band scale. -/
def weightInvalid (img : List Byte) (fmt d k n : Nat) : Bool :=
  decide (fmt = 5) &&
    (decide (codeAt img (32 * d + 64 * (k / 8) + n) 1 = 0xFF) ||
      (decide (nibbleAt img (32 * k + n / 2) n % 8 = 0) &&
        match Fmt.bf16.decode (codeAt img (40 * d + 2 * n) 2) with
        | .inf _ => true
        | _ => false))

/-! ### Streams (R197 to R201) -/

/-- Value k of an activation row in a format for depth d (R197). -/
def activationAt (row : List Byte) (fmt d k : Nat) : Num :=
  if fmt = 5 then
    (Fmt.e2m1.decode (nibbleAt row (k / 2) k)).mul (Fmt.e3m5.decode (codeAt row (d / 2 + k / 8) 1))
  else (arrayFmt fmt).decode (codeAt row (k * fmtBytes fmt) (fmtBytes fmt))

/-- floor(log2 |x|) of a finite nonzero value. -/
def Num.top : Num → Option Int
  | .fin _ m e => if m = 0 then none else some (e + (Nat.log2 m : Nat))
  | _ => none

/-- A value truncated toward zero to a multiple of 2^u, in units of 2^u, and whether that changed it. -/
def Num.truncTo (u : Int) : Num → Int × Bool
  | .fin neg m e =>
    let k := if u ≤ e then m * 2 ^ (e - u).toNat else m / 2 ^ (u - e).toNat
    let lost := !decide (u ≤ e) && decide (m % 2 ^ (u - e).toNat ≠ 0)
    (if neg then -(k : Int) else k, lost)
  | _ => (0, false)

/-- Whether a value is a zero. -/
def Num.isZero : Num → Bool
  | .fin _ m _ => decide (m = 0)
  | _ => false

/-- SegSum of R201: the sum P and the products' exact values with one rounding. -/
def segSum (md : RMode) (p : Num) (t : List Num) : Num × Flags :=
  let x := p :: t
  if x.any Num.isNan then (.nan, 0)
  else if x.contains (.inf false) && x.contains (.inf true) then (.nan, flagNV)
  else if x.contains (.inf false) then (.inf false, 0)
  else if x.contains (.inf true) then (.inf true, 0)
  else if x.all Num.isZero then (.fin (x.all Num.isNeg) 0 0, 0)
  else
    let top : Option Int := (x.filterMap Num.top).foldl (fun a b => match a with
      | none => some b
      | some a => some (if a < b then b else a)) none
    let u : Int := top.getD 0 - 76
    let terms := x.map (Num.truncTo u)
    let sum : Int := (terms.map Prod.fst).foldl (· + ·) 0
    let lost := flagIf (terms.any Prod.snd) flagNX
    if sum = 0 then (.fin false 0 0, lost)
    else
      let r := Fmt.f32.round md (.fin (decide (sum < 0)) sum.natAbs u)
      (Fmt.f32.decode r.1, r.2 ||| lost)

/-- The products of one segment, and NV where a zero meets an infinity (R201). -/
def products (a w : List Num) : List Num × Flags :=
  let l := List.zipWith (fun x y => (x.mul y, nvIf (x.mul y) (x.isNan || y.isNan))) a w
  (l.map Prod.fst, orAll (l.map Prod.snd))

/-- The chain of segment sums of one element (Table 9.6). -/
def segChain (md : RMode) (p : Num) : Nat → List Num → List Num → Num × Flags
  | 0, _, _ => (p, 0)
  | n + 1, a, w =>
    let t := products (a.take 16) (w.take 16)
    let r := segSum md p t.1
    let q := segChain md r.1 n (a.drop 16) (w.drop 16)
    (q.1, t.2 ||| r.2 ||| q.2)

/-- One row of a stream (R200): the tile's C elements after it and their flags. -/
def streamRow (md : RMode) (d cols wfmt : Nat) (img : List Byte) (acc : List W32) (act : List Num) : List (W32 × Flags) :=
  (List.range cols).map fun n =>
    let w := (List.range d).map fun k => weightAt img wfmt d k n
    let r := segChain md (Fmt.f32.decode (acc.getD n 0).toNat) (d / 16) act w
    (BitVec.ofNat 32 (Fmt.f32.round .rne r.1).1, r.2)

/-- The latch that a stream issued now for sub-array h will use: the latest MLATCH (R195). -/
def Core.latchFor (c : Core) (h : Nat) : Option W64 :=
  match (c.mcmds.filterMap fun m => match m with
    | .latch _ k _ v => if k = h then some v else none
    | _ => none).getLast? with
  | some v => some v
  | none => (c.latches.get none h).map Latch.operand

/-- Four times the cycles per row of a format (R199). -/
def cycles4 (fmt : Nat) : Nat := if fmt = 0 then 16 else if fmt ≤ 2 then 4 else if fmt = 5 then 1 else 2

/-- Whether the activation fields of a stream keep Table 9.5. -/
def actOk (f : Tbl W64) (d : Nat) : Bool :=
  decide (fieldOf f 33 ≤ 0x7FFFF) && decide (fieldOf f 35 ≤ 5) && decide (8 ≤ fieldOf f 34) && decide (fieldOf f 34 ≤ 32768)
    && decide (fieldOf f 34 % 8 = 0) && decide (rowSize (fieldOf f 35) d ≤ fieldOf f 34)
    && decide (1 ≤ fieldOf f 36) && decide (fieldOf f 36 ≤ 1024)

/-- The checks of MSTRM (R198), after those of its tokens (R213, R214). -/
def mstrmTrap (tok n : Nat) (f : Tbl W64) (s : State) : Option Trap :=
  let c := s.here
  let d := subDepth c.mode
  let u := c.accUnit n
  let h := fieldOf f 32
  let latch := c.latchFor h
  firstTrap
    [tokenTrap tok s,
     trapIf (!s.holdsSub h) (resourceTrap n),
     trapIf (actOk f d && !(rowSlots (fieldOf f 33) (fieldOf f 34) (fieldOf f 36) (rowSize (fieldOf f 35) d)).all s.holdsSlot)
       (resourceTrap n),
     trapIf (!c.ownsTile s.cur.slot n) (resourceTrap n),
     fieldTrap (kinBad s.cur.core f),
     trapIf latch.isNone (configTrap n),
     trapIf (!actOk f d || decide (1023 < fieldOf f 37) || decide (1 < fieldOf f 38)
       || decide (u.rows < fieldOf f 37 + fieldOf f 36)
       || decide (4096 < fieldOf f 36 * max (cycles4 (fieldOf f 35)) (cycles4 (latchFmt (latch.getD 0))))) (configTrap n),
     trapIf (!u.live) ⟨0x28, BitVec.ofNat 64 n⟩]

/-- A command of the array joins its core's order (R191, R199). -/
def State.joinOrder (s : State) (tok : Nat) : State :=
  s.modHere fun c => { c with mcmds := c.mcmds ++ [.token s.cur.slot tok] }

/-- MSTRM (R197). -/
def semMstrm (g : Guard) (tok : BitVec 6) (e : BitVec 4) (tile : BitVec 6) : SlotSem :=
  semNaming (fun s0 =>
    let f := s0.me.descriptor e.toNat
    (16 + fieldOf f 32) :: s0.here.tileUnits tile.toNat
      ++ rowSlots (fieldOf f 33) (fieldOf f 34) (min 1024 (fieldOf f 36)) (rowSize (fieldOf f 35) (subDepth s0.here.mode))) (semToken
    { guard := g
      trap := fun _ s0 => mstrmTrap tok.toNat tile.toNat (s0.me.descriptor e.toNat) s0
      eff := fun s0 s =>
        let f := s0.me.descriptor e.toNat
        (s0.issueCmd s (.mstrm tile.toNat) tok.toNat f (kinTokens f) true none).joinOrder tok.toNat } tok)

/-! ### MOUT (R204) -/

/-- Whether a TTE field breaks Table 10.3 or R175. -/
def tteBad (core : Nat) (f : Tbl W64) : Bool :=
  decide (512 ≤ fieldOf f 24) || (bitOf (fieldOf f 24) 8 && decide (tileCount core ≤ fieldOf f 24 % 256))

/-- Whether the fields of MOUT keep Table 9.8 for a tile. -/
def moutOk (f : Tbl W64) (u : AccUnit) : Bool :=
  decide (fieldOf f 40 ≤ 1) && decide (fieldOf f 43 ≤ 4) && decide (fieldOf f 41 < (if fieldOf f 40 = 0 then 2 ^ 22 else 2 ^ 19))
    && decide (fieldOf f 41 % fmtBytes (fieldOf f 43) = 0) && decide (fieldOf f 42 % 8 = 0)
    && decide (colCount u.cols * fmtBytes (fieldOf f 43) ≤ fieldOf f 42) && decide (fieldOf f 38 ≤ 1)
    && decide (1 ≤ fieldOf f 36) && decide (fieldOf f 44 + fieldOf f 36 ≤ u.rows)
    && (decide (fieldOf f 40 = 0) || (tteEntry f).isNone)

/-- The end of the bytes that MOUT writes. -/
def moutEnd (f : Tbl W64) (u : AccUnit) : Nat :=
  fieldOf f 41 + (fieldOf f 36 - 1) * fieldOf f 42 + colCount u.cols * fmtBytes (fieldOf f 43)

/-- The checks of MOUT (R204), after that of its token. -/
def moutTrap (tok n : Nat) (f : Tbl W64) (s : State) : Option Trap :=
  let c := s.here
  let u := c.accUnit n
  firstTrap
    [tokenTrap tok s,
     trapIf (!c.ownsTile s.cur.slot n) (resourceTrap n),
     fieldTrap (kinBad s.cur.core f),
     trapIf (tteBad s.cur.core f) ⟨0x40, 24⟩,
     trapIf (!moutOk f u) (configTrap n),
     trapIf (decide (fieldOf f 40 = 0) && decide (s.me.windowBytes < moutEnd f u))
       ⟨0x20, BitVec.ofNat 64 (2 ^ 63 + fieldOf f 41)⟩,
     trapIf (decide (fieldOf f 40 = 1) && !(outSlots f (colCount u.cols)).all s.holdsSlot) (resourceTrap n),
     (match tteEntry f with
      | some e => trapIf (!(c.tile (physTile s.cur e)).v) ⟨0x26, BitVec.ofNat 64 e⟩
      | none => none),
     trapIf (!u.live) ⟨0x28, BitVec.ofNat 64 n⟩]

/-- MOUT (R204). -/
def semMout (g : Guard) (tok : BitVec 6) (e : BitVec 4) (tile : BitVec 6) : SlotSem :=
  semNaming (fun s0 =>
    s0.here.tileUnits tile.toNat
      ++ outSlots (s0.me.descriptor e.toNat) (colCount (s0.here.accUnit tile.toNat).cols)) (semToken
    { guard := g
      trap := fun _ s0 => moutTrap tok.toNat tile.toNat (s0.me.descriptor e.toNat) s0
      eff := fun s0 s =>
        let f := s0.me.descriptor e.toNat
        (s0.issueCmd s (.mout tile.toNat) tok.toNat f (kinTokens f) true none).joinOrder tok.toNat } tok)

/-! ### The instructions as steps -/

/-- mstrm as a step: the issuing task issues the slot. -/
def execMstrm (g : Guard) (tok : BitVec 6) (e : BitVec 4) (tile : BitVec 6) (s : State) : Host.Outcome State Fault Refusal :=
  issueSlot (semMstrm g tok e tile) s

/-- mzero as a step: the issuing task issues the slot. -/
def execMzero (g : Guard) (idx : BitVec 6) (s : State) : Host.Outcome State Fault Refusal :=
  issueSlot (semMzero g idx) s

/-- mcfg as a step: the issuing task issues the slot. -/
def execMcfg (g : Guard) (r : BitVec 5) (idx : BitVec 6) (s : State) : Host.Outcome State Fault Refusal :=
  issueSlot (semMcfg g r idx) s

/-- msplit as a step: the issuing task issues the slot. -/
def execMsplit (g : Guard) (idx : BitVec 6) (s : State) : Host.Outcome State Fault Refusal :=
  issueSlot (semMsplit g idx) s

/-- mskip as a step: the issuing task issues the slot. -/
def execMskip (g : Guard) (idx : BitVec 6) (s : State) : Host.Outcome State Fault Refusal :=
  issueSlot (semMskip g idx) s

/-- mclaim as a step: the issuing task issues the slot. -/
def execMclaim (g : Guard) (d : BitVec 5) (idx : BitVec 6) (s : State) : Host.Outcome State Fault Refusal :=
  issueSlot (semMclaim g d idx) s

/-- mrel as a step: the issuing task issues the slot. -/
def execMrel (g : Guard) (idx : BitVec 6) (s : State) : Host.Outcome State Fault Refusal :=
  issueSlot (semMrel g idx) s

/-- mlatch as a step: the issuing task issues the slot. -/
def execMlatch (g : Guard) (r : BitVec 5) (idx : BitVec 6) (s : State) : Host.Outcome State Fault Refusal :=
  issueSlot (semMlatch g r idx) s

/-- mrd as a step: the issuing task issues the slot. -/
def execMrd (g : Guard) (v : BitVec 5) (tile : BitVec 6) (part : BitVec 2) (s : State) : Host.Outcome State Fault Refusal :=
  issueSlot (semMrd g v tile part) s

/-- mwr as a step: the issuing task issues the slot. -/
def execMwr (g : Guard) (v : BitVec 5) (tile : BitVec 6) (part : BitVec 2) (s : State) : Host.Outcome State Fault Refusal :=
  issueSlot (semMwr g v tile part) s

/-- mout as a step: the issuing task issues the slot. -/
def execMout (g : Guard) (tok : BitVec 6) (e : BitVec 4) (tile : BitVec 6) (s : State) : Host.Outcome State Fault Refusal :=
  issueSlot (semMout g tok e tile) s

/-! ### Execution of matrix commands -/

/-- Whether two matrix commands of a core share a sub-array or a tile (R191, R195, R199). -/
def Core.conflicts (c : Core) (x : Cmd) (m : MCmd) : Bool :=
  let tileOf := fun (k : CmdKind) => match k with
    | .mstrm t => some t
    | .mout t => some t
    | _ => none
  (match x.kind with
    | .mstrm _ => c.onSub (fieldOf x.fields 32) m
    | _ => false)
  || (match m with
    | .token slot tok => (match c.cmd (16 * slot + tok) with
      | some y => decide (tileOf y.kind = tileOf x.kind)
      | none => false)
    | .latch _ _ _ _ => false)

/-- The matrix commands issued before one. -/
def beforeCmd (m : MCmd) : List MCmd → List MCmd
  | [] => []
  | x :: t => if x = m then [] else x :: beforeCmd m t

/-- Whether a matrix command may start: its bindings have completed and the earlier commands of its orders
have finished (R191, R199). -/
def Core.mayStart (c : Core) (slot tok : Nat) (x : Cmd) : Bool :=
  decide (x.deps = []) && !(beforeCmd (.token slot tok) c.mcmds).any (c.conflicts x)

/-- A matrix command leaves its core's order; latches behind it execute. -/
def State.leaveOrder (s : State) (c : CoreRef) (slot tok : Nat) : State :=
  (s.modCore c fun k => { k with mcmds := k.mcmds.filter fun m => !decide (m = .token slot tok) }).latchAll c

/-- A matrix command ends with a cause, 0 when it is done (R199, R215). -/
def State.endMatrix (s : State) (c : CoreRef) (ptok slot cause : Nat) : State :=
  (s.leaveOrder c slot (ptok % 16)).endCmd c ptok cause ((s.task ⟨c.die, c.core, slot⟩).time)

/-- Row m of a stream's activations, decoded. -/
def State.streamAct (s : State) (c : CoreRef) (f : Tbl W64) (d m : Nat) : List Num :=
  let row := s.mem.bytes (operandBase c + fieldOf f 33 + m * fieldOf f 34) (rowSize (fieldOf f 35) d)
  (List.range d).map fun k => activationAt row (fieldOf f 35) d k

/-- One row of a stream performed (R200): the state with the tile's row written, and the flags. -/
def State.streamOne (c : CoreRef) (slot : Nat) (within : Bool) (n : Nat) (f : Tbl W64) (l : Latch) (d cols : Nat) (a : State × Flags) (m : Nat) :
    State × Flags :=
  let addr := unitAddr c n + 4 * cols * (fieldOf f 37 + m)
  let r := streamRow (.ofRz (decide (fieldOf f 38 = 1))) d cols (latchFmt l.operand) l.image
    (wordsOf (a.1.mem.bytes addr (4 * cols))) (a.1.streamAct c f d m)
  let b := bytesOf (r.map Prod.fst)
  let s := if within then a.1.logFor c slot (.bytes addr (a.1.mem.bytes addr (4 * cols))) (leNat b) else a.1
  ({ s with mem := s.mem.setBytes addr b }, a.2 ||| orAll (r.map Prod.snd))

/-- The flags of a tile's first unit raised (R194). -/
def Core.raiseFlags (c : Core) (n : Nat) (f : Flags) : Core :=
  c.setUnit n { c.accUnit n with flags := (c.accUnit n).flags ||| f }

/-- The array cycles of a stream counted in its region (R208). -/
def State.countCycles (s : State) (c : CoreRef) (slot : Nat) : State :=
  match (s.core c).regions.get none slot with
  | none => s
  | some g =>
    (s.modCore c fun k =>
      { k with regions := Tbl.set none k.regions slot (some { g with cycles := g.cycles + Config.arrayCycles s.freeCtr }) }).tookFree

/-- All rows of a stream performed, and NV for the invalid weights of its latch (R196, R200, R201). -/
def State.stream (s : State) (c : CoreRef) (x : Cmd) (n : Nat) : State :=
  let k := s.core c
  let d := subDepth k.mode
  let cols := colCount (k.accUnit n).cols
  match k.latches.get none (fieldOf x.fields 32) with
  | none => s
  | some l =>
    let bad := (List.range d).any fun i => (List.range cols).any fun j => weightInvalid l.image (latchFmt l.operand) d i j
    let r := (List.range (fieldOf x.fields 36)).foldl (State.streamOne c x.slot x.within n x.fields l d cols) (s, flagIf bad flagNV)
    let s := r.1.modCore c fun k => k.raiseFlags n r.2
    if x.within then s.countCycles c x.slot else s

/-- STREAM_START: the stream starts once its orders and bindings allow (R199); a faulted binding ends it
without running (R215). -/
def execStreamStart (c : CoreRef) (tok : Nat) (s : State) : Host.Outcome State Fault Refusal :=
  .next (match (s.core c).cmd tok with
    | some x =>
      (match x.kind with
        | .mstrm _ =>
          if x.started || !(s.core c).mayStart x.slot (tok % 16) x then s
          else if x.depFault.isSome then s.endMatrix c tok x.slot 0x43
          else s.modCore c fun k => k.setCmd tok (some { x with started := true })
        | _ => s)
    | none => s)

/-- STREAM_COMPLETE: the last element is written and the token produced (R199, R200). -/
def execStreamComplete (c : CoreRef) (tok : Nat) (s : State) : Host.Outcome State Fault Refusal :=
  .next (match (s.core c).cmd tok with
    | some x =>
      (match x.kind with
        | .mstrm n => if x.started then (s.stream c x n).endMatrix c tok x.slot 0 else s
        | _ => s)
    | none => s)

/-- One element of MOUT: a stored FP32 element converted (R204), .f32 copying the bits. -/
def outElem (fmt : Nat) (rz : Bool) (w : W32) : List Byte × Flags :=
  if fmt = 0 then (leBytes 4 w.toNat, 0)
  else
    let r := (arrayFmt fmt).round (.ofRz rz) (Fmt.f32.decode w.toNat)
    (leBytes (fmtBytes fmt) r.1, r.2)

/-- A run of bytes cut at multiples of 128 of its address. -/
def granules (a : Nat) (b : List Byte) : Nat → List (Nat × List Byte)
  | 0 => []
  | n + 1 =>
    if b = [] then []
    else
      let k := 128 - a % 128
      (a, b.take k) :: granules (a + k) (b.drop k) n

/-- One cell of MOUT written: into operand memory, into the window, or as an arrival (R204, R177). -/
def State.outCell (r : TaskRef) (within : Bool) (f : Tbl W64) (s : State) (x : Nat × List Byte) : State :=
  if fieldOf f 40 = 1 then s.writeLocal r.coreRef r.slot (operandBase r.coreRef + x.1) x.2 within
  else match tteEntry f with
    | some e => s.arrive r e [x] 0 within
    | none => s.writeLocal r.coreRef r.slot (windowAddr r.coreRef (s.task r) x.1) x.2 within

/-- One row of MOUT (R204). -/
def State.outRow (r : TaskRef) (within : Bool) (n cols : Nat) (f : Tbl W64) (a : State × Flags) (m : Nat) : State × Flags :=
  let row := wordsOf (a.1.mem.bytes (unitAddr r.coreRef n + 4 * cols * (fieldOf f 44 + m)) (4 * cols))
  let l := row.map (outElem (fieldOf f 43) (decide (fieldOf f 38 = 1)))
  let cells := granules (fieldOf f 41 + m * fieldOf f 42) (l.flatMap Prod.fst) 4
  (cells.foldl (State.outCell r within f) a.1, a.2 ||| orAll (l.map Prod.snd))

/-- Whether the drain of a PHASE holds the writes of a MOUT (R173). -/
def State.outHeld (s : State) (r : TaskRef) (n : Nat) (f : Tbl W64) : Bool :=
  decide (fieldOf f 40 = 0) && s.drainHolds r.coreRef (windowAddr r.coreRef (s.task r) (fieldOf f 41))
    (moutEnd f ((s.core r.coreRef).accUnit n) - fieldOf f 41)

/-- MOUT_COMPLETE: MOUT runs in its tile's order and ends (R204). -/
def execMoutComplete (c : CoreRef) (tok : Nat) (s : State) : Host.Outcome State Fault Refusal :=
  .next (match (s.core c).cmd tok with
    | some x =>
      (match x.kind with
        | .mout n =>
          let r : TaskRef := ⟨c.die, c.core, x.slot⟩
          if !(s.core c).mayStart x.slot (tok % 16) x then s
          else if x.depFault.isSome then s.endMatrix c tok x.slot 0x43
          else if s.outHeld r n x.fields then s
          else
            let a := (List.range (fieldOf x.fields 36)).foldl
              (State.outRow r x.within n (colCount ((s.core c).accUnit n).cols) x.fields) (s, 0)
            (a.1.modCore c fun k => k.raiseFlags n a.2).endMatrix c tok x.slot 0
        | _ => s)
    | none => s)

end Sys2Proof.Machine
end

