-- ==== Sys2Proof/Machine/Place.lean ====
section
/-!
DEFINITION. Where a task can stand on a core (R130, R158, R268, R299), which cores take part (R209, R269), and
what a slot holds until it is free (R132, R159, R186, R189, R270).
-/

namespace Sys2Proof.Machine

/-! ### What is free -/

/-- Whether a core is retired (R209). -/
def State.isRetired (s : State) (c : CoreRef) : Bool := (s.die c.die).lodge.retired.contains c.core

/-- Task slots of a core (Table 1.8). -/
def slotsOf (core : Nat) : List Nat := if isCompute core then [0, 1, 2, 3] else [0]

/-- The lowest free slot of a core (R268). -/
def State.freeSlot (s : State) (c : CoreRef) : Option Nat :=
  (slotsOf c.core).find? fun k => (s.task? ⟨c.die, c.core, k⟩).isNone

/-- Whether a span meets none of some spans, of which an empty one meets nothing. -/
def spanFree (used : List (Nat × Nat)) (lo n : Nat) : Bool :=
  used.all fun u => decide (u.2 = 0) || decide (lo + n ≤ u.1) || decide (u.1 + u.2 ≤ lo)

/-- The tasks of a core. -/
def Core.residents (c : Core) : List Task := c.tasks.filterMap Prod.snd

/-- The lowest base at which a block of n vector registers fits (R130). -/
def Core.freeBlock (c : Core) (n : Nat) : Option Nat :=
  ((List.range 8).map fun k => 8 * k).find? fun b =>
    decide (b + n ≤ 64) && spanFree (c.residents.map fun t => (t.vbase, t.vregs)) b n

/-- The lowest step at which a window of n steps fits (R158). -/
def Core.freeWindow (c : Core) (n : Nat) : Option Nat :=
  if n = 0 then some 0
  else (List.range 12).find? fun b => decide (b + n ≤ 12) && spanFree (c.residents.map fun t => (t.wbase, t.wsize)) b n

/-- The compute cores of a cluster in the order of their index (R15). -/
def clusterCores (die cluster : Nat) : List CoreRef :=
  (inOrder ((List.range 96).filter fun k => decide (clusterOf k = cluster))
    fun a b => decide (clusterIndex a ≤ clusterIndex b)).map fun k => ⟨die, k⟩

/-! ### Slots -/

/-- The bytes of a window made zero (R159). -/
def State.zeroWindow (s : State) (c : CoreRef) (base n : Nat) : State :=
  let lo := nearBase c + base * stepBytes
  { s with mem := s.mem.filter fun e => !(decide (lo ≤ e.1) && decide (e.1 < lo + n * stepBytes)) }

/-- The operand slots and sub-arrays of a task slot given up (R186). -/
def State.giveAll (s : State) (r : TaskRef) : State :=
  let c := r.coreRef
  let s := (List.range 16).foldl
    (fun s n => if (s.core c).slotOwner.get none n = some r.slot then s.giveSlot c n else s) s
  (List.range 4).foldl
    (fun s h => if (s.core c).subOwner.get none h = some r.slot then s.modCore c fun k => k.giveSub h else s) s

/-- The accumulator units of a task slot freed (R189). -/
def Core.freeUnits (c : Core) (slot : Nat) : Core :=
  { c with units := c.units.filter fun e => !decide (e.2.owner = slot) }

/-- The vector registers of a block made zero (R132). -/
def Core.zeroBlock (c : Core) (base n : Nat) : Core :=
  { c with vfile := c.vfile.filter fun e => !(decide (base ≤ e.1) && decide (e.1 < base + n)) }

/-- A slot freed with all it holds: window, tile entries, matrix resources, vector block (R186, R189, R270). -/
def State.freeSlotOf (s : State) (r : TaskRef) : State :=
  match s.task? r with
  | none => s
  | some t =>
    let s := (s.zeroWindow r.coreRef t.wbase t.wsize).giveAll r
    let s := s.modCore r.coreRef fun c => ((c.undefineTiles r).freeUnits r.slot).zeroBlock t.vbase t.vregs
    s.putTask r none

end Sys2Proof.Machine
end

