-- ==== Sys2Proof/Machine/Vector.lean ====
section
/-!
DEFINITION. The vector instructions of classes 100 and 101 (R137 to R149): element-wise arithmetic,
compares and selects, moves, broadcasts and permutes, reductions and scans, and lane predicates.
-/

namespace Sys2Proof.Machine

/-! ### Element types (R40, R57) -/

/-- The floating-point format of a vector type code; .f32 for codes 0 and above 2. -/
def vfmt (ty : Nat) : Fmt := if ty = 1 then .bf16 else if ty = 2 then .f16 else .f32

/-- Whether a vector type code is floating. -/
def isFloat (ty : Nat) : Bool := decide (ty < 3)

/-- Width of a vector type code in bits. -/
def vwidth (ty : Nat) : Nat :=
  match ty with
  | 0 | 3 | 4 => 32
  | 7 => 8
  | _ => 16

/-- Whether an integer type code is signed. -/
def vsigned (ty : Nat) : Bool := decide (ty = 3) || decide (ty = 5) || decide (ty = 7)

/-- The integer value of a cell under a type code: its low bits (R57, R141). -/
def readInt (ty : Nat) (c : W32) : Int :=
  let m := c.toNat % 2 ^ vwidth ty
  if vsigned ty ∧ 2 ^ (vwidth ty - 1) ≤ m then (m : Int) - 2 ^ vwidth ty else m

/-- An integer wrapped to a type code's width and placed in a cell (R57, R62): .s8 and .s16
sign-extended, the others with zeros above. -/
def placeInt (ty : Nat) (x : Int) : W32 :=
  let m := (x % 2 ^ vwidth ty).toNat
  if vsigned ty ∧ 2 ^ (vwidth ty - 1) ≤ m then BitVec.ofInt 32 ((m : Int) - 2 ^ vwidth ty) else BitVec.ofNat 32 m

/-- The floating value of a cell under a type code (R57). -/
def readFloat (ty : Nat) (c : W32) : Num := (vfmt ty).decode (c.toNat % 2 ^ vwidth ty)

/-- A code and its flags as a cell. -/
def cellOf (x : Nat × Flags) : W32 × Flags := (BitVec.ofNat 32 x.1, x.2)

/-- A value re-encoded with no flag: a NaN becomes canonical, any other keeps its bits (R55). -/
def reencode (ty : Nat) (x : Num) : Nat := ((vfmt ty).round .rne x).1

/-! ### Shapes -/

/-- One result per lane: a cell and the flags its lane raises. -/
abbrev Cells := List (W32 × Flags)

/-- The flags of the lanes that are written (R72, R138). -/
def maskFlags (m : Lanes) (l : Cells) : Flags :=
  orAll ((List.range 1024).zipWith (fun e x => if m.getLsbD e then x.2 else 0) l)

/-- A V slot that writes a vector register on its guard-true lanes (R28, R138). -/
def semVec (g : Guard) (lat : Nat) (d : BitVec 5) (src : List Nat) (f : State → Cells) : SlotSem :=
  { guard := g
    lanes := true
    vsrc := src
    vdst := some d.toNat
    eff := fun s0 s =>
      let m := s0.me.guardLanes g
      let l := f s0
      s.push lat (.vec (s0.me.vpos d.toNat) m (l.map Prod.fst)) (maskFlags m l) }

/-- Cells with no flags. -/
def quiet (v : VReg) : Cells := v.map fun c => (c, 0)

/-- An operation on each cell of one register. -/
def map1 (f : W32 → W32 × Flags) (a : VReg) : Cells := a.map f

/-- An operation on each pair of cells of two registers. -/
def map2 (f : W32 → W32 → W32 × Flags) (a b : VReg) : Cells := List.zipWith f a b

/-- An operation on each triple of cells of three registers. -/
def map3 (f : W32 → W32 → W32 → W32 × Flags) (a b c : VReg) : Cells :=
  List.zipWith (fun p z => f p.1 p.2 z) (List.zip a b) c

/-- Lanes from their truth values in lane order. -/
def lanesOf (l : List Bool) : Lanes := BitVec.ofNat 1024 (l.foldr (fun b n => (if b then 1 else 0) + 2 * n) 0)

/-- A slot that writes a lane predicate on its guard-true lanes (R142, R149). -/
def semLanes (g : Guard) (lat : Nat) (d : BitVec 4) (src : List Nat) (f : State → Lanes) : SlotSem :=
  { guard := g
    lanes := true
    vsrc := src
    eff := fun s0 s => s.push lat (.lanes (s0.me.qpos d.toNat) (s0.me.guardLanes g) (f s0)) }

/-! ### Element-wise arithmetic (R140, R141) -/

/-- The two-operand operations of the arithmetic group. -/
inductive VOp where
  | add | sub | mul | min | max | adds | subs | mulh
  deriving DecidableEq, Repr

/-- The floating form of a two-operand operation (R140, R66). -/
def floatOp (op : VOp) (ty : Nat) (md : RMode) (x y : Num) : Nat × Flags :=
  match op with
  | .add => (vfmt ty).add md x y
  | .sub => (vfmt ty).add md x y.negate
  | .mul => (vfmt ty).mul md x y
  | .min => (reencode ty (x.min y), 0)
  | .max => (reencode ty (x.max y), 0)
  | _ => (0, 0)

/-- The exact integer result of a two-operand operation (R141), and whether it saturates to the type. -/
def intOp (op : VOp) (ty : Nat) (x y : Int) : Int × Bool :=
  match op with
  | .add => (x + y, false)
  | .sub => (x - y, false)
  | .mul => (x * y, false)
  | .min => (if x < y then x else y, false)
  | .max => (if x < y then y else x, false)
  | .adds => satInt (vsigned ty) (vwidth ty) (x + y)
  | .subs => satInt (vsigned ty) (vwidth ty) (x - y)
  | .mulh => (x * y / 2 ^ vwidth ty, false)

/-- A two-operand operation on cells. -/
def arithCell (op : VOp) (ty : Nat) (md : RMode) (a b : W32) : W32 × Flags :=
  if isFloat ty then cellOf (floatOp op ty md (readFloat ty a) (readFloat ty b))
  else
    let r := intOp op ty (readInt ty a) (readInt ty b)
    (placeInt ty r.1, flagIf r.2 flagIS)

/-- VFMA and VFMS on cells: x × y + z or x × y − z, one rounding (R140, R141). -/
def fmaCell (neg : Bool) (ty : Nat) (md : RMode) (a b c : W32) : W32 × Flags :=
  if isFloat ty then
    let z := readFloat ty c
    cellOf ((vfmt ty).fma md (readFloat ty a) (readFloat ty b) (if neg then z.negate else z))
  else
    let z := readInt ty c
    (placeInt ty (readInt ty a * readInt ty b + (if neg then -z else z)), 0)

/-- VABS on a cell (R140, R141). -/
def absCell (ty : Nat) (a : W32) : W32 × Flags :=
  if isFloat ty then
    let x := readFloat ty a
    (BitVec.ofNat 32 (reencode ty (if x.isNeg then x.negate else x)), 0)
  else (placeInt ty (readInt ty a).natAbs, 0)

/-- VNEG on a cell (R140, R141). -/
def negCell (ty : Nat) (a : W32) : W32 × Flags :=
  if isFloat ty then (BitVec.ofNat 32 (reencode ty (readFloat ty a).negate), 0)
  else (placeInt ty (-readInt ty a), 0)

/-- VSHL, VSHR and VSRA on cells, by the low log2(w) bits of the second operand (R141). -/
def shiftCell (kind ty : Nat) (a b : W32) : W32 × Flags :=
  let w := vwidth ty
  let n := b.toNat % w
  let u := a.toNat % 2 ^ w
  if kind = 0 then (placeInt ty (u * 2 ^ n : Nat), 0)
  else if kind = 1 then (placeInt ty (u / 2 ^ n : Nat), 0)
  else
    let x : Int := if 2 ^ (w - 1) ≤ u then (u : Int) - 2 ^ w else u
    (placeInt ty (x / 2 ^ n), 0)

/-- The vector conditions of Table 2.13, signedness by type (R142). -/
def condCell (cond ty : Nat) (a b : W32) : Bool :=
  if isFloat ty then condFloat cond (readFloat ty a) (readFloat ty b)
  else
    let x := readInt ty a
    let y := readInt ty b
    match cond with
    | 0 => decide (x = y)
    | 1 => decide (x ≠ y)
    | 2 => decide (x < y)
    | 3 => decide (x ≤ y)
    | 4 => decide (y < x)
    | _ => decide (y ≤ x)

/-- VSPLAT: the low bits of a scalar at the type's width, placed per R57 (R144). -/
def splatCell (ty : Nat) (x : W64) : W32 :=
  if isFloat ty then BitVec.ofNat 32 (x.toNat % 2 ^ vwidth ty)
  else placeInt ty (x.toNat % 2 ^ vwidth ty : Nat)

/-! ### Reductions and scans (R147, R148) -/

/-- The reductions' operations by code: 0 add, 1 max, 2 min, 3 and, 4 or, 5 xor. -/
def bitFold (op : Nat) (a b : Nat) : Nat := if op = 3 then a &&& b else if op = 4 then a ||| b else a ^^^ b

/-- One addition of a floating fold on codes. -/
def foldStep (ty : Nat) (md : RMode) (acc : Nat × Flags) (c : W32) : Nat × Flags :=
  let r := (vfmt ty).add md ((vfmt ty).decode acc.1) (readFloat ty c)
  (r.1, acc.2 ||| r.2)

/-- The ordered fold of R67: the first term re-encoded, then each addition rounded. -/
def foldOrdered (ty : Nat) (md : RMode) : List W32 → Nat × Flags
  | [] => (0, 0)
  | t :: ts => ts.foldl (foldStep ty md) (reencode ty (readFloat ty t), 0)

/-- One level of the pairwise tree of Table 6.4. -/
def pairLevel (ty : Nat) (md : RMode) : List (Nat × Flags) → List (Nat × Flags)
  | a :: b :: t =>
    let r := (vfmt ty).add md ((vfmt ty).decode a.1) ((vfmt ty).decode b.1)
    (r.1, a.2 ||| b.2 ||| r.2) :: pairLevel ty md t
  | l => l

/-- The pairwise tree of Table 6.4 over n levels. -/
def foldTree (ty : Nat) (md : RMode) (l : List (Nat × Flags)) : Nat → Nat × Flags
  | 0 => l.headD (0, 0)
  | n + 1 => foldTree ty md (pairLevel ty md l) n

/-- Maximum or minimum of a list of values (R66). -/
def foldMinMax (op : Nat) (l : List Num) : Num :=
  match l with
  | [] => .nan
  | t :: ts => ts.foldl (fun a x => if op = 1 then a.max x else a.min x) t

/-- Reduce of Table 6.4; `tree` selects the .f order of a floating add reduction. -/
def reduceCells (op ty : Nat) (md : RMode) (tree : Bool) (l : List W32) : W32 × Flags :=
  if isFloat ty then
    if op = 0 then
      cellOf (if tree then foldTree ty md (l.map fun c => (reencode ty (readFloat ty c), 0)) (Nat.log2 l.length)
        else foldOrdered ty md l)
    else (BitVec.ofNat 32 (reencode ty (foldMinMax op (l.map (readFloat ty)))), 0)
  else if op = 0 then
    let r := satInt (vsigned ty) (vwidth ty) ((l.map (readInt ty)).foldl (· + ·) 0)
    (placeInt ty r.1, flagIf r.2 flagIS)
  else if op < 3 then
    match l.map (readInt ty) with
    | [] => (0, 0)
    | t :: ts => (placeInt ty (ts.foldl (fun a x => (intOp (if op = 1 then .max else .min) ty a x).1) t), 0)
  else
    match l.map fun c => c.toNat % 2 ^ vwidth ty with
    | [] => (0, 0)
    | t :: ts => (placeInt ty (ts.foldl (bitFold op) t : Nat), 0)

/-- The rows of a register. -/
def rowsOf (v : VReg) : List (List W32) := (List.range 16).map fun i => (v.drop (64 * i)).take 64

/-- The columns of a register. -/
def colsOf (v : VReg) : List (List W32) := (List.range 64).map fun j => (List.range 16).map fun i => v.cell (64 * i + j)

/-- Cells of a register from its columns. -/
def ofCols (l : List Cells) : Cells :=
  (List.range 16).flatMap fun i => l.map fun c => c.getD i (0, 0)

/-- VREDR and VREDC: every element of a line receives its reduction (R147). -/
def reduceLines (op ty : Nat) (md : RMode) (tree : Bool) (l : List (List W32)) : List Cells :=
  l.map fun r => List.replicate r.length (reduceCells op ty md tree r)

/-- VSCANR and VSCANC: each element receives the reduction of its prefix (R147). -/
def scanLines (op ty : Nat) (md : RMode) (l : List (List W32)) : List Cells :=
  l.map fun r => (List.range r.length).map fun j => reduceCells op ty md false (r.take (j + 1))

/-! ### The instructions -/

/-- VADD, latency 2 (R140, R141). -/
def semVadd (g : Guard) (d a b : BitVec 5) (ty : BitVec 3) (mode : BitVec 2) : SlotSem :=
  semVec g 2 d [a.toNat, b.toNat] fun s =>
    map2 (arithCell .add ty.toNat (RMode.ofRz (decide (mode = 1)))) (s.vreg a.toNat) (s.vreg b.toNat)

/-- VADD as a step: the issuing task issues the slot. -/
def execVadd (g : Guard) (d a b : BitVec 5) (ty : BitVec 3) (mode : BitVec 2) (s : State) : Host.Outcome State Fault Refusal :=
  issueSlot (semVadd g d a b ty mode) s

/-- VSUB, latency 2 (R140, R141). -/
def semVsub (g : Guard) (d a b : BitVec 5) (ty : BitVec 3) (mode : BitVec 2) : SlotSem :=
  semVec g 2 d [a.toNat, b.toNat] fun s =>
    map2 (arithCell .sub ty.toNat (RMode.ofRz (decide (mode = 1)))) (s.vreg a.toNat) (s.vreg b.toNat)

/-- VSUB as a step: the issuing task issues the slot. -/
def execVsub (g : Guard) (d a b : BitVec 5) (ty : BitVec 3) (mode : BitVec 2) (s : State) : Host.Outcome State Fault Refusal :=
  issueSlot (semVsub g d a b ty mode) s

/-- VMUL, latency 2 (R140, R141). -/
def semVmul (g : Guard) (d a b : BitVec 5) (ty : BitVec 3) (mode : BitVec 2) : SlotSem :=
  semVec g 2 d [a.toNat, b.toNat] fun s =>
    map2 (arithCell .mul ty.toNat (RMode.ofRz (decide (mode = 1)))) (s.vreg a.toNat) (s.vreg b.toNat)

/-- VMUL as a step: the issuing task issues the slot. -/
def execVmul (g : Guard) (d a b : BitVec 5) (ty : BitVec 3) (mode : BitVec 2) (s : State) : Host.Outcome State Fault Refusal :=
  issueSlot (semVmul g d a b ty mode) s

/-- VFMA (R140, R141). -/
def semVfma (g : Guard) (d a b : BitVec 5) (ty : BitVec 3) (mode : BitVec 2) : SlotSem :=
  semVec g 2 d [a.toNat, b.toNat] fun s =>
    map3 (fmaCell false ty.toNat (RMode.ofRz (decide (mode = 1)))) (s.vreg a.toNat) (s.vreg b.toNat) (s.vreg d.toNat)

/-- VFMA as a step: the issuing task issues the slot. -/
def execVfma (g : Guard) (d a b : BitVec 5) (ty : BitVec 3) (mode : BitVec 2) (s : State) : Host.Outcome State Fault Refusal :=
  issueSlot (semVfma g d a b ty mode) s

/-- VFMS (R140, R141). -/
def semVfms (g : Guard) (d a b : BitVec 5) (ty : BitVec 3) (mode : BitVec 2) : SlotSem :=
  semVec g 2 d [a.toNat, b.toNat] fun s =>
    map3 (fmaCell true ty.toNat (RMode.ofRz (decide (mode = 1)))) (s.vreg a.toNat) (s.vreg b.toNat) (s.vreg d.toNat)

/-- VFMS as a step: the issuing task issues the slot. -/
def execVfms (g : Guard) (d a b : BitVec 5) (ty : BitVec 3) (mode : BitVec 2) (s : State) : Host.Outcome State Fault Refusal :=
  issueSlot (semVfms g d a b ty mode) s

/-- VMIN (R140, R141, R65, R66). -/
def semVmin (g : Guard) (d a b : BitVec 5) (ty : BitVec 3) : SlotSem :=
  semVec g 2 d [a.toNat, b.toNat] fun s =>
    map2 (arithCell .min ty.toNat .rne) (s.vreg a.toNat) (s.vreg b.toNat)

/-- VMIN as a step: the issuing task issues the slot. -/
def execVmin (g : Guard) (d a b : BitVec 5) (ty : BitVec 3) (s : State) : Host.Outcome State Fault Refusal :=
  issueSlot (semVmin g d a b ty) s

/-- VMAX (R140, R141, R65, R66). -/
def semVmax (g : Guard) (d a b : BitVec 5) (ty : BitVec 3) : SlotSem :=
  semVec g 2 d [a.toNat, b.toNat] fun s =>
    map2 (arithCell .max ty.toNat .rne) (s.vreg a.toNat) (s.vreg b.toNat)

/-- VMAX as a step: the issuing task issues the slot. -/
def execVmax (g : Guard) (d a b : BitVec 5) (ty : BitVec 3) (s : State) : Host.Outcome State Fault Refusal :=
  issueSlot (semVmax g d a b ty) s

/-- VADDS (R140, R141, R65, R66). -/
def semVadds (g : Guard) (d a b : BitVec 5) (ty : BitVec 3) : SlotSem :=
  semVec g 2 d [a.toNat, b.toNat] fun s =>
    map2 (arithCell .adds ty.toNat .rne) (s.vreg a.toNat) (s.vreg b.toNat)

/-- VADDS as a step: the issuing task issues the slot. -/
def execVadds (g : Guard) (d a b : BitVec 5) (ty : BitVec 3) (s : State) : Host.Outcome State Fault Refusal :=
  issueSlot (semVadds g d a b ty) s

/-- VSUBS (R140, R141, R65, R66). -/
def semVsubs (g : Guard) (d a b : BitVec 5) (ty : BitVec 3) : SlotSem :=
  semVec g 2 d [a.toNat, b.toNat] fun s =>
    map2 (arithCell .subs ty.toNat .rne) (s.vreg a.toNat) (s.vreg b.toNat)

/-- VSUBS as a step: the issuing task issues the slot. -/
def execVsubs (g : Guard) (d a b : BitVec 5) (ty : BitVec 3) (s : State) : Host.Outcome State Fault Refusal :=
  issueSlot (semVsubs g d a b ty) s

/-- VMULH (R140, R141, R65, R66). -/
def semVmulh (g : Guard) (d a b : BitVec 5) (ty : BitVec 3) : SlotSem :=
  semVec g 2 d [a.toNat, b.toNat] fun s =>
    map2 (arithCell .mulh ty.toNat .rne) (s.vreg a.toNat) (s.vreg b.toNat)

/-- VMULH as a step: the issuing task issues the slot. -/
def execVmulh (g : Guard) (d a b : BitVec 5) (ty : BitVec 3) (s : State) : Host.Outcome State Fault Refusal :=
  issueSlot (semVmulh g d a b ty) s

/-- VABS (R140, R141). -/
def semVabs (g : Guard) (d a : BitVec 5) (ty : BitVec 3) : SlotSem :=
  semVec g 2 d [a.toNat] fun s => map1 (absCell ty.toNat) (s.vreg a.toNat)

/-- VABS as a step: the issuing task issues the slot. -/
def execVabs (g : Guard) (d a : BitVec 5) (ty : BitVec 3) (s : State) : Host.Outcome State Fault Refusal :=
  issueSlot (semVabs g d a ty) s

/-- VNEG (R140, R141). -/
def semVneg (g : Guard) (d a : BitVec 5) (ty : BitVec 3) : SlotSem :=
  semVec g 2 d [a.toNat] fun s => map1 (negCell ty.toNat) (s.vreg a.toNat)

/-- VNEG as a step: the issuing task issues the slot. -/
def execVneg (g : Guard) (d a : BitVec 5) (ty : BitVec 3) (s : State) : Host.Outcome State Fault Refusal :=
  issueSlot (semVneg g d a ty) s

/-- VNOT: all 32 bits of each cell (R141). -/
def semVnot (g : Guard) (d a : BitVec 5) : SlotSem :=
  semVec g 2 d [a.toNat] fun s => quiet ((s.vreg a.toNat).map fun c => ~~~c)

/-- VNOT as a step: the issuing task issues the slot. -/
def execVnot (g : Guard) (d a : BitVec 5) (s : State) : Host.Outcome State Fault Refusal :=
  issueSlot (semVnot g d a) s

/-- VAND: all 32 bits of each cell (R141). -/
def semVand (g : Guard) (d a b : BitVec 5) : SlotSem :=
  semVec g 2 d [a.toNat, b.toNat] fun s =>
    map2 (fun x y => (x &&& y, 0)) (s.vreg a.toNat) (s.vreg b.toNat)

/-- VAND as a step: the issuing task issues the slot. -/
def execVand (g : Guard) (d a b : BitVec 5) (s : State) : Host.Outcome State Fault Refusal :=
  issueSlot (semVand g d a b) s

/-- VOR: all 32 bits of each cell (R141). -/
def semVor (g : Guard) (d a b : BitVec 5) : SlotSem :=
  semVec g 2 d [a.toNat, b.toNat] fun s =>
    map2 (fun x y => (x ||| y, 0)) (s.vreg a.toNat) (s.vreg b.toNat)

/-- VOR as a step: the issuing task issues the slot. -/
def execVor (g : Guard) (d a b : BitVec 5) (s : State) : Host.Outcome State Fault Refusal :=
  issueSlot (semVor g d a b) s

/-- VXOR: all 32 bits of each cell (R141). -/
def semVxor (g : Guard) (d a b : BitVec 5) : SlotSem :=
  semVec g 2 d [a.toNat, b.toNat] fun s =>
    map2 (fun x y => (x ^^^ y, 0)) (s.vreg a.toNat) (s.vreg b.toNat)

/-- VXOR as a step: the issuing task issues the slot. -/
def execVxor (g : Guard) (d a b : BitVec 5) (s : State) : Host.Outcome State Fault Refusal :=
  issueSlot (semVxor g d a b) s

/-- VSHL: a shift per lane (R141). -/
def semVshl (g : Guard) (d a b : BitVec 5) (ty : BitVec 3) : SlotSem :=
  semVec g 2 d [a.toNat, b.toNat] fun s =>
    map2 (shiftCell 0 ty.toNat) (s.vreg a.toNat) (s.vreg b.toNat)

/-- VSHL as a step: the issuing task issues the slot. -/
def execVshl (g : Guard) (d a b : BitVec 5) (ty : BitVec 3) (s : State) : Host.Outcome State Fault Refusal :=
  issueSlot (semVshl g d a b ty) s

/-- VSHR: a shift per lane (R141). -/
def semVshr (g : Guard) (d a b : BitVec 5) (ty : BitVec 3) : SlotSem :=
  semVec g 2 d [a.toNat, b.toNat] fun s =>
    map2 (shiftCell 1 ty.toNat) (s.vreg a.toNat) (s.vreg b.toNat)

/-- VSHR as a step: the issuing task issues the slot. -/
def execVshr (g : Guard) (d a b : BitVec 5) (ty : BitVec 3) (s : State) : Host.Outcome State Fault Refusal :=
  issueSlot (semVshr g d a b ty) s

/-- VSRA: a shift per lane (R141). -/
def semVsra (g : Guard) (d a b : BitVec 5) (ty : BitVec 3) : SlotSem :=
  semVec g 2 d [a.toNat, b.toNat] fun s =>
    map2 (shiftCell 2 ty.toNat) (s.vreg a.toNat) (s.vreg b.toNat)

/-- VSRA as a step: the issuing task issues the slot. -/
def execVsra (g : Guard) (d a b : BitVec 5) (ty : BitVec 3) (s : State) : Host.Outcome State Fault Refusal :=
  issueSlot (semVsra g d a b ty) s

/-- VCMP: cond is ([19], mode) of the vector set, latency 2 (R142). -/
def semVcmp (g : Guard) (ch : BitVec 1) (d : BitVec 4) (a b : BitVec 5) (ty : BitVec 3) (cl : BitVec 2) : SlotSem :=
  semLanes g 2 d [a.toNat, b.toNat] fun s =>
    lanesOf (List.zipWith (condCell (4 * ch.toNat + cl.toNat) ty.toNat) (s.vreg a.toNat) (s.vreg b.toNat))

/-- VCMP as a step: the issuing task issues the slot. -/
def execVcmp (g : Guard) (ch : BitVec 1) (d : BitVec 4) (a b : BitVec 5) (ty : BitVec 3) (cl : BitVec 2) (s : State) : Host.Outcome State Fault Refusal :=
  issueSlot (semVcmp g ch d a b ty cl) s

/-- VSEL: va where q is true, else vb (R143). -/
def semVsel (g : Guard) (d a b : BitVec 5) (q : BitVec 4) : SlotSem :=
  semVec g 2 d [a.toNat, b.toNat] fun s =>
    quiet (VReg.blend (s.me.qreg q.toNat) (s.vreg a.toNat) (s.vreg b.toNat))

/-- VSEL as a step: the issuing task issues the slot. -/
def execVsel (g : Guard) (d a b : BitVec 5) (q : BitVec 4) (s : State) : Host.Outcome State Fault Refusal :=
  issueSlot (semVsel g d a b q) s

/-- VMOV (R144). -/
def semVmov (g : Guard) (d a : BitVec 5) : SlotSem :=
  semVec g 2 d [a.toNat] fun s => quiet (s.vreg a.toNat)

/-- VMOV as a step: the issuing task issues the slot. -/
def execVmov (g : Guard) (d a : BitVec 5) (s : State) : Host.Outcome State Fault Refusal :=
  issueSlot (semVmov g d a) s

/-- VSPLAT: the low bits of s_a in every lane (R144). -/
def semVsplat (g : Guard) (d a : BitVec 5) (ty : BitVec 3) : SlotSem :=
  semVec g 2 d [] fun s => List.replicate 1024 (splatCell ty.toNat (s.sreg a), 0)

/-- VSPLAT as a step: the issuing task issues the slot. -/
def execVsplat (g : Guard) (d a : BitVec 5) (ty : BitVec 3) (s : State) : Host.Outcome State Fault Refusal :=
  issueSlot (semVsplat g d a ty) s

/-- VIOTA.row: the row index (R144). -/
def semViotaRow (g : Guard) (d : BitVec 5) : SlotSem :=
  semVec g 2 d [] fun _ => quiet (VReg.ofFn fun e => BitVec.ofNat 32 (e / 64))

/-- VIOTAROW as a step: the issuing task issues the slot. -/
def execViotaRow (g : Guard) (d : BitVec 5) (s : State) : Host.Outcome State Fault Refusal :=
  issueSlot (semViotaRow g d) s

/-- VIOTA.col: the column index (R144). -/
def semViotaCol (g : Guard) (d : BitVec 5) : SlotSem :=
  semVec g 2 d [] fun _ => quiet (VReg.ofFn fun e => BitVec.ofNat 32 (e % 64))

/-- VIOTACOL as a step: the issuing task issues the slot. -/
def execViotaCol (g : Guard) (d : BitVec 5) (s : State) : Host.Outcome State Fault Refusal :=
  issueSlot (semViotaCol g d) s

/-- VIOTA.lin: 64i + j (R144). -/
def semViotaLin (g : Guard) (d : BitVec 5) : SlotSem :=
  semVec g 2 d [] fun _ => quiet (VReg.ofFn fun e => BitVec.ofNat 32 (e))

/-- VIOTALIN as a step: the issuing task issues the slot. -/
def execViotaLin (g : Guard) (d : BitVec 5) (s : State) : Host.Outcome State Fault Refusal :=
  issueSlot (semViotaLin g d) s

/-- VBROW: row n to every row, column-axis (R146). -/
def semVbrow (g : Guard) (d a : BitVec 5) (n : BitVec 6) : SlotSem :=
  semVec g 4 d [a.toNat] fun s =>
    quiet (VReg.ofFn fun e => (s.vreg a.toNat).cell (64 * n.toNat + e % 64))

/-- VBROW as a step: the issuing task issues the slot. -/
def execVbrow (g : Guard) (d a : BitVec 5) (n : BitVec 6) (s : State) : Host.Outcome State Fault Refusal :=
  issueSlot (semVbrow g d a n) s

/-- VBCOL: column n to every column (R146). -/
def semVbcol (g : Guard) (d a : BitVec 5) (n : BitVec 6) : SlotSem :=
  semVec g 2 d [a.toNat] fun s =>
    quiet (VReg.ofFn fun e => (s.vreg a.toNat).cell (64 * (e / 64) + n.toNat))

/-- VBCOL as a step: the issuing task issues the slot. -/
def execVbcol (g : Guard) (d a : BitVec 5) (n : BitVec 6) (s : State) : Host.Outcome State Fault Refusal :=
  issueSlot (semVbcol g d a n) s

/-- VROTR: every row rotated along its columns (R146). -/
def semVrotr (g : Guard) (d a : BitVec 5) (n : BitVec 6) : SlotSem :=
  semVec g 2 d [a.toNat] fun s =>
    quiet (VReg.ofFn fun e => (s.vreg a.toNat).cell (64 * (e / 64) + (e % 64 + 64 - n.toNat) % 64))

/-- VROTR as a step: the issuing task issues the slot. -/
def execVrotr (g : Guard) (d a : BitVec 5) (n : BitVec 6) (s : State) : Host.Outcome State Fault Refusal :=
  issueSlot (semVrotr g d a n) s

/-- VROTC: every column rotated along its rows (R146). -/
def semVrotc (g : Guard) (d a : BitVec 5) (n : BitVec 6) : SlotSem :=
  semVec g 4 d [a.toNat] fun s =>
    quiet (VReg.ofFn fun e => (s.vreg a.toNat).cell (64 * ((e / 64 + 16 - n.toNat) % 16) + e % 64))

/-- VROTC as a step: the issuing task issues the slot. -/
def execVrotc (g : Guard) (d a : BitVec 5) (n : BitVec 6) (s : State) : Host.Outcome State Fault Refusal :=
  issueSlot (semVrotc g d a n) s

/-- VREDR: reduction along each row (R147, R148). -/
def semVredr (g : Guard) (d a : BitVec 5) (op : BitVec 3) (rz : BitVec 1) (ty : BitVec 3) (ord : BitVec 1) : SlotSem :=
  semVec g 2 d [a.toNat] fun s =>
    (reduceLines op.toNat ty.toNat (rzMode rz) (decide (ord = 0)) (rowsOf (s.vreg a.toNat))).flatten

/-- VREDR as a step: the issuing task issues the slot. -/
def execVredr (g : Guard) (d a : BitVec 5) (op : BitVec 3) (rz : BitVec 1) (ty : BitVec 3) (ord : BitVec 1) (s : State) : Host.Outcome State Fault Refusal :=
  issueSlot (semVredr g d a op rz ty ord) s

/-- VREDC: reduction along each column (R147, R148). -/
def semVredc (g : Guard) (d a : BitVec 5) (op : BitVec 3) (rz : BitVec 1) (ty : BitVec 3) (ord : BitVec 1) : SlotSem :=
  semVec g 4 d [a.toNat] fun s =>
    ofCols (reduceLines op.toNat ty.toNat (rzMode rz) (decide (ord = 0)) (colsOf (s.vreg a.toNat)))

/-- VREDC as a step: the issuing task issues the slot. -/
def execVredc (g : Guard) (d a : BitVec 5) (op : BitVec 3) (rz : BitVec 1) (ty : BitVec 3) (ord : BitVec 1) (s : State) : Host.Outcome State Fault Refusal :=
  issueSlot (semVredc g d a op rz ty ord) s

/-- VSCANR: inclusive prefixes along each row; a .f scan is as .o (R147, R148). -/
def semVscanr (g : Guard) (d a : BitVec 5) (op : BitVec 3) (rz : BitVec 1) (ty : BitVec 3) (_ord : BitVec 1) : SlotSem :=
  semVec g 2 d [a.toNat] fun s =>
    (scanLines op.toNat ty.toNat (rzMode rz) (rowsOf (s.vreg a.toNat))).flatten

/-- VSCANR as a step: the issuing task issues the slot. -/
def execVscanr (g : Guard) (d a : BitVec 5) (op : BitVec 3) (rz : BitVec 1) (ty : BitVec 3) (ord : BitVec 1) (s : State) : Host.Outcome State Fault Refusal :=
  issueSlot (semVscanr g d a op rz ty ord) s

/-- VSCANC: inclusive prefixes along each column (R147, R148). -/
def semVscanc (g : Guard) (d a : BitVec 5) (op : BitVec 3) (rz : BitVec 1) (ty : BitVec 3) (_ord : BitVec 1) : SlotSem :=
  semVec g 4 d [a.toNat] fun s =>
    ofCols (scanLines op.toNat ty.toNat (rzMode rz) (colsOf (s.vreg a.toNat)))

/-- VSCANC as a step: the issuing task issues the slot. -/
def execVscanc (g : Guard) (d a : BitVec 5) (op : BitVec 3) (rz : BitVec 1) (ty : BitVec 3) (ord : BitVec 1) (s : State) : Host.Outcome State Fault Refusal :=
  issueSlot (semVscanc g d a op rz ty ord) s

/-- VXP: each 16 by 16 block transposed in place (R146). -/
def semVxp (g : Guard) (d a : BitVec 5) : SlotSem :=
  semVec g 4 d [a.toNat] fun s =>
    quiet (VReg.ofFn fun e => (s.vreg a.toNat).cell (64 * (e % 16) + 16 * (e % 64 / 16) + e / 64))

/-- VXP as a step: the issuing task issues the slot. -/
def execVxp (g : Guard) (d a : BitVec 5) (s : State) : Host.Outcome State Fault Refusal :=
  issueSlot (semVxp g d a) s

/-- VPERM.row (R146). -/
def semVpermRow (g : Guard) (d a b : BitVec 5) : SlotSem :=
  semVec g 2 d [a.toNat, b.toNat] fun s =>
    quiet (VReg.ofFn fun e =>
      let x := ((s.vreg b.toNat).cell e).toNat
      if x < 64 then (s.vreg a.toNat).cell (64 * (e / 64) + x) else 0)

/-- VPERMROW as a step: the issuing task issues the slot. -/
def execVpermRow (g : Guard) (d a b : BitVec 5) (s : State) : Host.Outcome State Fault Refusal :=
  issueSlot (semVpermRow g d a b) s

/-- VPERM.col (R146). -/
def semVpermCol (g : Guard) (d a b : BitVec 5) : SlotSem :=
  semVec g 4 d [a.toNat, b.toNat] fun s =>
    quiet (VReg.ofFn fun e =>
      let x := ((s.vreg b.toNat).cell e).toNat
      if x < 16 then (s.vreg a.toNat).cell (64 * x + e % 64) else 0)

/-- VPERMCOL as a step: the issuing task issues the slot. -/
def execVpermCol (g : Guard) (d a b : BitVec 5) (s : State) : Host.Outcome State Fault Refusal :=
  issueSlot (semVpermCol g d a b) s

/-- VEXT: the cell at lane s_b[9:0], where the guard is true there (R145). -/
def semVext (g : Guard) (d a b : BitVec 5) : SlotSem :=
  { guard := g
    lanes := true
    vsrc := [a.toNat]
    eff := fun s0 s =>
      let e := (s0.sreg b).toNat % 1024
      if (s0.me.guardLanes g).getLsbD e then
        s.push 2 (.scalar d.toNat (((s0.vreg a.toNat).cell e).setWidth 64))
      else s }

/-- VEXT as a step: the issuing task issues the slot. -/
def execVext (g : Guard) (d a b : BitVec 5) (s : State) : Host.Outcome State Fault Refusal :=
  issueSlot (semVext g d a b) s

/-- VINS: lane s_b[9:0] of vd alone receives s_a[31:0], where the guard is true there (R145). -/
def semVins (g : Guard) (d a b : BitVec 5) : SlotSem :=
  { guard := g
    lanes := true
    vdst := some d.toNat
    eff := fun s0 s =>
      let e := (s0.sreg b).toNat % 1024
      if (s0.me.guardLanes g).getLsbD e then
        s.push 2 (.vec (s0.me.vpos d.toNat) (1#1024 <<< e) (List.replicate 1024 ((s0.sreg a).setWidth 32)))
      else s }

/-- VINS as a step: the issuing task issues the slot. -/
def execVins (g : Guard) (d a b : BitVec 5) (s : State) : Host.Outcome State Fault Refusal :=
  issueSlot (semVins g d a b) s

/-- QAND, latency 1 (R149). -/
def semQand (g : Guard) (d a b : BitVec 4) : SlotSem :=
  semLanes g 1 d [] fun s => s.me.qreg a.toNat &&& s.me.qreg b.toNat

/-- QAND as a step: the issuing task issues the slot. -/
def execQand (g : Guard) (d a b : BitVec 4) (s : State) : Host.Outcome State Fault Refusal :=
  issueSlot (semQand g d a b) s

/-- QOR, latency 1 (R149). -/
def semQor (g : Guard) (d a b : BitVec 4) : SlotSem :=
  semLanes g 1 d [] fun s => s.me.qreg a.toNat ||| s.me.qreg b.toNat

/-- QOR as a step: the issuing task issues the slot. -/
def execQor (g : Guard) (d a b : BitVec 4) (s : State) : Host.Outcome State Fault Refusal :=
  issueSlot (semQor g d a b) s

/-- QXOR, latency 1 (R149). -/
def semQxor (g : Guard) (d a b : BitVec 4) : SlotSem :=
  semLanes g 1 d [] fun s => s.me.qreg a.toNat ^^^ s.me.qreg b.toNat

/-- QXOR as a step: the issuing task issues the slot. -/
def execQxor (g : Guard) (d a b : BitVec 4) (s : State) : Host.Outcome State Fault Refusal :=
  issueSlot (semQxor g d a b) s

/-- QNOT (R149). -/
def semQnot (g : Guard) (d a : BitVec 4) : SlotSem :=
  semLanes g 1 d [] fun s => ~~~(s.me.qreg a.toNat)

/-- QNOT as a step: the issuing task issues the slot. -/
def execQnot (g : Guard) (d a : BitVec 4) (s : State) : Host.Outcome State Fault Refusal :=
  issueSlot (semQnot g d a) s

/-- QCNT: the lanes where qa and the guard are both true (R149). -/
def semQcnt (g : Guard) (d : BitVec 5) (a : BitVec 4) : SlotSem :=
  { guard := g
    lanes := true
    eff := fun s0 s =>
      s.push 1 (.scalar d.toNat (BitVec.ofNat 64
        (popNat (s0.me.qreg a.toNat &&& s0.me.guardLanes g).toNat 1024))) }

/-- QCNT as a step: the issuing task issues the slot. -/
def execQcnt (g : Guard) (d : BitVec 5) (a : BitVec 4) (s : State) : Host.Outcome State Fault Refusal :=
  issueSlot (semQcnt g d a) s

end Sys2Proof.Machine
end

