-- ==== Sys2Proof/Machine/Special.lean ====
section
/-!
DEFINITION. The F slot (R79 to R85, R151 to R157): the correctly rounded special functions, conversion,
FP4 quantisation and the generator's instructions. A function's exact value is enclosed between two
neighbouring multiples of a power of two far finer than the destination's grid, and rounded once.
-/

namespace Sys2Proof.Machine

/-! ### Fixed-point series -/

/-- Fraction bits of the exponential and logarithm. -/
def fracE : Nat := 300

/-- Fraction bits of the trigonometric functions: enough to reduce 2^128 by multiples of π/2. -/
def fracT : Nat := 640

/-- ln 2, truncated to `fracE` fraction bits. -/
def ln2Fix : Nat := 0xb17217f7d1cf79abc9e3b39803f2f6af40f343267298b62d8a0d175b8baafa2be7b876206de

/-- π/2, truncated to `fracT` fraction bits. -/
def halfPiFix : Nat := 0x1921fb54442d18469898cc51701b839a252049c1114cf98e804177d4c76273644a29410f31c6809bbdf2a33679a748636605614dbe4be286e9fc26adadaa3848bc90b6aecc4bcfd8de89885d34c6fdad6

/-- The sum of a term and the terms that follow it, each the last one times x over the next factor: the
exponential series at x/2^F from term k on. -/
def expTerms (fr x : Nat) (term k : Nat) : Nat → Nat
  | 0 => 0
  | n + 1 => term + expTerms fr x (term * x / 2 ^ fr / k) (k + 1) n

/-- e^(x/2^F) for 0 ≤ x < 2^F, to `fracE` fraction bits. -/
def expFix (x : Nat) : Nat := expTerms fracE x (2 ^ fracE) 1 80

/-- The odd or even part of the circular series at x/2^F: term − term·x²/(k(k+1)) + …, k rising by 2. -/
def circTerms (fr xx : Nat) (term : Int) (k : Nat) : Nat → Int
  | 0 => 0
  | n + 1 => term + circTerms fr xx (-(term * xx / 2 ^ fr / (k * (k + 1) : Nat))) (k + 2) n

/-- sin (x/2^F) for 0 ≤ x ≤ (π/2) 2^F. -/
def sinFix (x : Nat) : Int := circTerms fracT (x * x / 2 ^ fracT) x 2 70

/-- cos (x/2^F) for 0 ≤ x ≤ (π/2) 2^F. -/
def cosFix (x : Nat) : Int := circTerms fracT (x * x / 2 ^ fracT) (2 ^ fracT : Nat) 1 70

/-- z + z³/3 + z⁵/5 + … for z/2^F below 1/3: `p` is the power of z reached and k its exponent. -/
def atanhTerms (zz p k : Nat) : Nat → Nat
  | 0 => 0
  | n + 1 => p / k + atanhTerms zz (p * zz / 2 ^ fracE) (k + 2) n

/-- ln (m/2^L) for 2^L ≤ m < 2^(L+1), to `fracE` fraction bits. -/
def lnFix (m l : Nat) : Nat :=
  let z := (m - 2 ^ l) * 2 ^ fracE / (m + 2 ^ l)
  2 * atanhTerms (z * z / 2 ^ fracE) z 1 100

/-- Integer square root below 2^k, from bit k − 1 down. -/
def isqrtFrom (n acc : Nat) : Nat → Nat
  | 0 => acc
  | k + 1 => isqrtFrom n (if (acc + 2 ^ k) * (acc + 2 ^ k) ≤ n then acc + 2 ^ k else acc) k

/-- The integer square root. -/
def isqrt (n : Nat) : Nat := isqrtFrom n 0 (Nat.log2 n / 2 + 1)

/-! ### Exact results as enclosures -/

/-- An exact result: m × 2^e in magnitude when `st` is false, else strictly between m × 2^e and
(m + 1) × 2^e. -/
structure Encl where
  neg : Bool
  m : Nat
  e : Int
  st : Bool

/-- An exact value. -/
def Encl.exact (neg : Bool) (m : Nat) (e : Int) : Encl := ⟨neg, m, e, false⟩

/-- A value just above a magnitude. -/
def Encl.above (neg : Bool) (m : Nat) (e : Int) : Encl := ⟨neg, m * 2 ^ 60, e - 60, true⟩

/-- A value just below a magnitude that is not zero. -/
def Encl.below (neg : Bool) (m : Nat) (e : Int) : Encl := ⟨neg, m * 2 ^ 60 - 1, e - 60, true⟩

/-- An irrational value known to some low bits: m × 2^e with its last `drop` bits cut. -/
def Encl.cut (neg : Bool) (m : Nat) (e : Int) (drop : Nat) : Encl := ⟨neg, m / 2 ^ drop, e + drop, true⟩

/-- Rounding of an enclosure (R156): one rounding of the exact value to .f32. -/
def Encl.round (md : RMode) (x : Encl) : Nat × Flags := Fmt.f32.round md (.fin x.neg x.m x.e) x.st

/-- Whether a magnitude is below 2^−30. -/
def tinyArg (m : Nat) (e : Int) : Bool := decide (e + (Nat.log2 m : Nat) < -30)

/-- (−1)^neg × m × 2^e times 2^fr, truncated toward zero, for |value| below 2^130. -/
def toFix (fr : Nat) (neg : Bool) (m : Nat) (e : Int) : Int :=
  let v : Nat := if 0 ≤ e + fr then m * 2 ^ (e + fr).toNat else m / 2 ^ (-(e + fr)).toNat
  if neg then -(v : Int) else v

/-- Whether m × 2^e ≥ n. -/
def atLeast (m : Nat) (e : Int) (n : Nat) : Bool := !magLt m e n 0

/-- e^X for a fixed-point X of magnitude below 2^10: mantissa at `fracE` fraction bits and exponent. -/
def expOf (x : Int) : Nat × Int := (expFix (x % ln2Fix).toNat, x / ln2Fix)

/-- e^x of a finite nonzero value. -/
def enclExp (neg : Bool) (m : Nat) (e : Int) : Encl :=
  if tinyArg m e then (if neg then .below false 1 0 else .above false 1 0)
  else if atLeast m e 1000 then (if neg then .above false 1 (-2000) else .above false 1 2000)
  else
    let r := expOf (toFix fracE neg m e)
    .cut false r.1 (r.2 - fracE) 100

/-- 2^x of a finite nonzero value: exact for an integer, else e^(ln 2 × its fraction) scaled. -/
def enclExp2 (neg : Bool) (m : Nat) (e : Int) : Encl :=
  if tinyArg m e then (if neg then .below false 1 0 else .above false 1 0)
  else if atLeast m e 1000 then .exact false 1 (if neg then -2000 else 2000)
  else
    let x := toFix fracE neg m e
    let n := x / 2 ^ fracE
    let f := (x % 2 ^ fracE).toNat
    if f = 0 then .exact false 1 n
    else .cut false (expFix (f * ln2Fix / 2 ^ fracE)) (n - fracE) 100

/-- log2 of a positive finite value m × 2^e. -/
def enclLog2 (m : Nat) (e : Int) : Encl :=
  let l := Nat.log2 m
  let k := e + (l : Nat)
  if m = 2 ^ l then .exact (decide (k < 0)) k.natAbs 0
  else
    let v : Int := k * 2 ^ fracE + (lnFix m l * 2 ^ fracE / ln2Fix : Nat)
    .cut (decide (v < 0)) v.natAbs (-(fracE : Nat)) 100

/-- √(m × 2^e), of a value that is not zero. -/
def enclSqrt (m : Nat) (e : Int) : Encl :=
  let j : Nat := if e % 2 = 0 then 80 else 81
  let n := m * 2 ^ j
  let s := isqrt n
  ⟨false, s, (e - j) / 2, decide (s * s ≠ n)⟩

/-- 1 / √(m × 2^e), of a value that is not zero. -/
def enclRsqrt (m : Nat) (e : Int) : Encl :=
  let j : Nat := if e % 2 = 0 then 200 else 201
  let s := isqrt (2 ^ j / m)
  ⟨false, s, -((e + j) / 2), decide (s * s * m ≠ 2 ^ j)⟩

/-- tanh of a finite nonzero value: (1 − u)/(1 + u) with u = e^(−2|x|). -/
def enclTanh (neg : Bool) (m : Nat) (e : Int) : Encl :=
  if tinyArg m e then .below neg m e
  else if atLeast m e 100 then .below neg 1 0
  else
    let r := expOf (toFix fracE true m (e + 1))
    let u := r.1 / 2 ^ (-r.2).toNat
    .cut neg ((2 ^ fracE - u) * 2 ^ fracE / (2 ^ fracE + u)) (-(fracE : Nat)) 100

/-- 1 / (1 + e^(−x)) of a finite nonzero value: for a negative one as e^x / (1 + e^x). -/
def enclSigm (neg : Bool) (m : Nat) (e : Int) : Encl :=
  if tinyArg m e then (if neg then .below false 1 (-1) else .above false 1 (-1))
  else if neg then
    if atLeast m e 1000 then .above false 1 (-2000)
    else
      let r := expOf (toFix fracE true m e)
      let k := (-r.2).toNat
      .cut false (r.1 * 2 ^ (fracE + k) / (2 ^ (fracE + k) + r.1)) (-(fracE + k : Nat)) 100
  else if atLeast m e 100 then .below false 1 0
  else
    let r := expOf (toFix fracE true m e)
    let u := r.1 / 2 ^ (-r.2).toNat
    .cut false (2 ^ fracE * 2 ^ fracE / (2 ^ fracE + u)) (-(fracE : Nat)) 100

/-- The quadrant of a magnitude and the rest within it, in units of 2^−fracT. -/
def reducePi (m : Nat) (e : Int) : Nat × Nat :=
  let x := (toFix fracT false m e).toNat
  (x / halfPiFix % 4, x % halfPiFix)

/-- A signed fixed-point value as an enclosure. -/
def enclFix (v : Int) : Encl := .cut (decide (v < 0)) v.natAbs (-(fracT : Nat)) 300

/-- sin of a finite nonzero value. -/
def enclSin (neg : Bool) (m : Nat) (e : Int) : Encl :=
  if tinyArg m e then .below neg m e
  else
    let r := reducePi m e
    let v := match r.1 with
      | 0 => sinFix r.2
      | 1 => cosFix r.2
      | 2 => -sinFix r.2
      | _ => -cosFix r.2
    enclFix (if neg then -v else v)

/-- cos of a finite nonzero value. -/
def enclCos (m : Nat) (e : Int) : Encl :=
  if tinyArg m e then .below false 1 0
  else
    let r := reducePi m e
    enclFix (match r.1 with
      | 0 => cosFix r.2
      | 1 => -sinFix r.2
      | 2 => -cosFix r.2
      | _ => sinFix r.2)

/-! ### The single-operand functions (Table 7.2, Table 7.3) -/

/-- The canonical NaN of .f32 with a flag (R55). -/
def nan32 (f : Flags) : Nat × Flags := (0x7FC00000, f)

/-- Codes of .f32 that Table 7.3 names: infinities and zeros by sign. -/
def inf32 (neg : Bool) : Nat := if neg then 0xFF800000 else 0x7F800000
/-- A zero of .f32 by sign. -/
def zero32 (neg : Bool) : Nat := if neg then 0x80000000 else 0

/-- 1.0 and 0.5 of .f32 with a sign. -/
def one32 (neg : Bool) : Nat := if neg then 0xBF800000 else 0x3F800000

/-- FEXP2 (R156). -/
def fnExp2 (md : RMode) : Num → Nat × Flags
  | .nan => nan32 0
  | .inf neg => (if neg then 0 else inf32 false, 0)
  | .fin neg m e => if m = 0 then (one32 false, 0) else (enclExp2 neg m e).round md

/-- FEXP (R156). -/
def fnExp (md : RMode) : Num → Nat × Flags
  | .nan => nan32 0
  | .inf neg => (if neg then 0 else inf32 false, 0)
  | .fin neg m e => if m = 0 then (one32 false, 0) else (enclExp neg m e).round md

/-- FLOG2 (R156). -/
def fnLog2 (md : RMode) : Num → Nat × Flags
  | .nan => nan32 0
  | .inf neg => if neg then nan32 flagNV else (inf32 false, 0)
  | .fin neg m e =>
    if m = 0 then (inf32 true, flagDZ) else if neg then nan32 flagNV else (enclLog2 m e).round md

/-- FRCP (R156): division of 1. -/
def fnRcp (md : RMode) (x : Num) : Nat × Flags := Fmt.f32.quotient md (.fin false 1 0) x

/-- FRSQ (R156). -/
def fnRsq (md : RMode) : Num → Nat × Flags
  | .nan => nan32 0
  | .inf neg => if neg then nan32 flagNV else (0, 0)
  | .fin neg m e =>
    if m = 0 then (inf32 neg, flagDZ) else if neg then nan32 flagNV else (enclRsqrt m e).round md

/-- FSQRT (R156). -/
def fnSqrt (md : RMode) : Num → Nat × Flags
  | .nan => nan32 0
  | .inf neg => if neg then nan32 flagNV else (inf32 false, 0)
  | .fin neg m e =>
    if m = 0 then (zero32 neg, 0) else if neg then nan32 flagNV else (enclSqrt m e).round md

/-- FTANH (R156). -/
def fnTanh (md : RMode) : Num → Nat × Flags
  | .nan => nan32 0
  | .inf neg => (one32 neg, 0)
  | .fin neg m e => if m = 0 then (zero32 neg, 0) else (enclTanh neg m e).round md

/-- FSIGM (R156). -/
def fnSigm (md : RMode) : Num → Nat × Flags
  | .nan => nan32 0
  | .inf neg => (if neg then 0 else one32 false, 0)
  | .fin neg m e => if m = 0 then (0x3F000000, 0) else (enclSigm neg m e).round md

/-- FSIN (R156). -/
def fnSin (md : RMode) : Num → Nat × Flags
  | .nan => nan32 0
  | .inf _ => nan32 flagNV
  | .fin neg m e => if m = 0 then (zero32 neg, 0) else (enclSin neg m e).round md

/-- FCOS (R156). -/
def fnCos (md : RMode) : Num → Nat × Flags
  | .nan => nan32 0
  | .inf _ => nan32 flagNV
  | .fin _ m e => if m = 0 then (one32 false, 0) else (enclCos m e).round md

/-! ### The shape of an F slot -/

/-- An F slot that writes every lane of a vector register under a scalar guard (R153, R154). -/
def semF (g : Guard) (lat : Nat) (d : BitVec 5) (src : List Nat) (f : State → Cells) : SlotSem :=
  { guard := g
    funit := true
    vsrc := src
    vdst := some d.toNat
    eff := fun s0 s =>
      let l := f s0
      s.push lat (.vec (s0.me.vpos d.toNat) (BitVec.allOnes 1024) (l.map Prod.fst)) (orAll (l.map Prod.snd)) }

/-- A single-operand special function (R154). -/
def semFn (g : Guard) (d a : BitVec 5) (mode : BitVec 1) (fn : RMode → Num → Nat × Flags) : SlotSem :=
  semF g 8 d [a.toNat] fun s => map1 (fun c => cellOf (fn (.ofRz (decide (mode = 1))) (readFloat 0 c))) (s.vreg a.toNat)

/-- FEXP2 (R156), latency 8 (R153). -/
def semFexp2 (g : Guard) (d a : BitVec 5) (mode : BitVec 1) : SlotSem := semFn g d a mode fnExp2

/-- FEXP (R156), latency 8 (R153). -/
def semFexp (g : Guard) (d a : BitVec 5) (mode : BitVec 1) : SlotSem := semFn g d a mode fnExp

/-- FLOG2 (R156), latency 8 (R153). -/
def semFlog2 (g : Guard) (d a : BitVec 5) (mode : BitVec 1) : SlotSem := semFn g d a mode fnLog2

/-- FRCP (R156), latency 8 (R153). -/
def semFrcp (g : Guard) (d a : BitVec 5) (mode : BitVec 1) : SlotSem := semFn g d a mode fnRcp

/-- FRSQ (R156), latency 8 (R153). -/
def semFrsq (g : Guard) (d a : BitVec 5) (mode : BitVec 1) : SlotSem := semFn g d a mode fnRsq

/-- FSQRT (R156), latency 8 (R153). -/
def semFsqrt (g : Guard) (d a : BitVec 5) (mode : BitVec 1) : SlotSem := semFn g d a mode fnSqrt

/-- FTANH (R156), latency 8 (R153). -/
def semFtanh (g : Guard) (d a : BitVec 5) (mode : BitVec 1) : SlotSem := semFn g d a mode fnTanh

/-- FSIGM (R156), latency 8 (R153). -/
def semFsigm (g : Guard) (d a : BitVec 5) (mode : BitVec 1) : SlotSem := semFn g d a mode fnSigm

/-- FSIN (R156), latency 8 (R153). -/
def semFsin (g : Guard) (d a : BitVec 5) (mode : BitVec 1) : SlotSem := semFn g d a mode fnSin

/-- FCOS (R156), latency 8 (R153). -/
def semFcos (g : Guard) (d a : BitVec 5) (mode : BitVec 1) : SlotSem := semFn g d a mode fnCos

/-- FDIV (R157), latency 10 (R153). -/
def semFdiv (g : Guard) (d a b : BitVec 5) (mode : BitVec 1) : SlotSem :=
  semF g 10 d [a.toNat, b.toNat] fun s =>
    map2 (fun x y => cellOf (Fmt.f32.quotient (.ofRz (decide (mode = 1))) (readFloat 0 x) (readFloat 0 y)))
      (s.vreg a.toNat) (s.vreg b.toNat)

/-! ### Conversion (R79, R80) -/

/-- The format of a CVT format code (Table 2.14): floating-point, or an integer's sign and width. -/
def cvtFloat (code : Nat) : Option (Fmt × Nat) :=
  match code with
  | 0 => some (.f32, 32)
  | 1 => some (.bf16, 16)
  | 2 => some (.f16, 16)
  | 3 => some (.e4m3, 8)
  | 4 => some (.e5m2, 8)
  | 12 => some (.e3m5, 8)
  | _ => none

/-- Sign and width of an integer format code. -/
def cvtInt (code : Nat) : Bool × Nat :=
  match code with
  | 6 => (true, 32)
  | 7 => (false, 32)
  | 8 => (true, 16)
  | 9 => (false, 16)
  | 10 => (true, 8)
  | _ => (false, 8)

/-- The integer in a cell under a sign and width. -/
def cellInt (sw : Bool × Nat) (c : W32) : Int :=
  let m := c.toNat % 2 ^ sw.2
  if sw.1 ∧ 2 ^ (sw.2 - 1) ≤ m then (m : Int) - 2 ^ sw.2 else m

/-- An integer within a format placed in a cell (R57): `.s8` and `.s16` sign-extended. -/
def intCell (x : Int) : W32 := BitVec.ofInt 32 x

/-- CVT of one cell (R80). -/
def cvtCell (src dst : Nat) (md : RMode) (c : W32) : W32 × Flags :=
  match cvtFloat src, cvtFloat dst with
  | some f, some d =>
    let x := f.1.decode (c.toNat % 2 ^ f.2)
    let r := d.1.round md x
    (BitVec.ofNat 32 r.1, r.2 ||| flagIf (decide (src = 12) && x.isNan) flagNV)
  | some f, none =>
    let r := roundInt md (cvtInt dst).1 (cvtInt dst).2 (f.1.decode (c.toNat % 2 ^ f.2))
    (intCell r.1, r.2)
  | none, some d => cellOf (d.1.round md (Num.ofInt (cellInt (cvtInt src) c)))
  | none, none =>
    let r := satInt (cvtInt dst).1 (cvtInt dst).2 (cellInt (cvtInt src) c)
    (intCell r.1, flagIf r.2 flagIS)

/-- Rounding of element e under a rounding code, with w the word taken (R70). -/
def rmMode (rm : Nat) (w : W32) (e : Nat) : RMode :=
  if rm = 1 then .rz else if rm = 2 then .sr (rngMix w e).toNat else .rne

/-- The word at the head of the task's random-bit queue (R75). -/
def Task.rngHead (t : Task) : W32 := rngWord t.rng.key t.rng.ctr t.rng.taken

/-- The generator advanced by n words (R75, R85). -/
def Task.rngTake (n : Nat) (t : Task) : Task := { t with rng := { t.rng with taken := t.rng.taken + n } }

/-- An F slot that takes one random word when its rounding is .sr (R78). -/
def semTake (m : SlotSem) (sr : Bool) : SlotSem :=
  { m with eff := fun s0 s => if sr then (m.eff s0 s).modMe (Task.rngTake 1) else m.eff s0 s }

/-- A function of each cell and its element number. -/
def mapE (f : Nat → W32 → W32 × Flags) (a : VReg) : Cells := List.zipWith f (List.range 1024) a

/-- CVT (R80), latency 8. -/
def semCvt (g : Guard) (d a : BitVec 5) (src dst : BitVec 4) (rm : BitVec 2) : SlotSem :=
  semTake (semF g 8 d [a.toNat] fun s =>
    let w := s.me.rngHead
    mapE (fun e c => cvtCell src.toNat dst.toNat (rmMode rm.toNat w e) c) (s.vreg a.toNat)) (decide (rm = 2))

/-! ### FP4 blocks (R60, R61, R82, R83) -/

/-- Whether a band scale is finite, positive and nonzero. -/
def bandOk : Num → Bool
  | .fin neg m _ => !neg && decide (m ≠ 0)
  | _ => false

/-- Whether a value is finite. -/
def Num.isFin : Num → Bool
  | .fin _ _ _ => true
  | _ => false

/-- |x|. -/
def Num.abs (x : Num) : Num := if x.isNeg then x.negate else x

/-- The smallest block scale from 0x00 to 0xFE with 6 × value × B ≥ M, else 0xFE. -/
def blockScale (b m : Num) : Nat :=
  ((List.range 255).find? fun k => !(((Num.fin false 6 0).mul (Fmt.e3m5.decode k)).mul b).lt m).getD 0xFE

/-- One block of QNT4 (R83): its scale, its eight codes and the flags. `md` rounds element n. -/
def quantBlock (b : Num) (x : List Num) (md : Nat → RMode) : Nat × List Nat × Flags :=
  if !bandOk b || x.any (fun v => !v.isFin) then (0xFF, List.replicate 8 0, flagNV)
  else
    let scale := blockScale b (x.foldl (fun a v => if a.lt v.abs then v.abs else a) (.fin false 0 0))
    let code := fun n v =>
      if scale = 0 then ((if v.isNeg then 8 else 0 : Nat), (0 : Flags))
      else
        let r := Fmt.e2m1.quotient (md n) v ((Fmt.e3m5.decode scale).mul b)
        (r.1, r.2 &&& flagNX)
    let l := List.zipWith code (List.range 8) x
    (scale, l.map Prod.fst, orAll (l.map Prod.snd))

/-- Codes of one block as a cell: code n at bits [4n+3:4n] (R61). -/
def packCodes (l : List Nat) : Nat := l.foldr (fun c a => c + 16 * a) 0

/-- Bytes of a cell, low byte first. -/
def packBytes (l : List Nat) : Nat := l.foldr (fun c a => c + 256 * a) 0

/-- Row i of QNT4: 64 cells and their flags. -/
def quantRow (i : Nat) (b : Num) (x : List Num) (md : Nat → RMode) : Cells :=
  let blocks := (List.range 8).map fun k => quantBlock b ((x.drop (8 * k)).take 8) fun n => md (64 * i + 8 * k + n)
  let scales := blocks.map fun q => q.1
  (blocks.map fun q => (BitVec.ofNat 32 (packCodes q.2.1), q.2.2))
    ++ [(BitVec.ofNat 32 (packBytes (scales.take 4)), 0), (BitVec.ofNat 32 (packBytes (scales.drop 4)), 0)]
    ++ List.replicate 54 (0, 0)

/-- The band scale of row i: bits [15:0] of vb[i][0] as .bf16 (R82). -/
def bandOf (b : VReg) (i : Nat) : Num := Fmt.bf16.decode ((b.cell (64 * i)).toNat % 2 ^ 16)

/-- QNT4 (R83), latency 8. -/
def semQnt4 (g : Guard) (d a b : BitVec 5) (rm : BitVec 2) : SlotSem :=
  semTake (semF g 8 d [a.toNat, b.toNat] fun s =>
    let w := s.me.rngHead
    let va := s.vreg a.toNat
    let vb := s.vreg b.toNat
    (List.range 16).flatMap fun i =>
      quantRow i (bandOf vb i) (((va.drop (64 * i)).take 64).map (readFloat 0)) (rmMode rm.toNat w)) (decide (rm = 2))

/-- Element j of a packed row of cells times its scales, exact (R60). -/
def fp4Value (row : List W32) (band : Num) (j : Nat) : Num :=
  let code := (row.getD (j / 8) 0).toNat / 2 ^ (4 * (j % 8)) % 16
  let scale := (row.getD (8 + j / 32) 0).toNat / 2 ^ (8 * (j / 8 % 4)) % 256
  ((Fmt.e2m1.decode code).mul (Fmt.e3m5.decode scale)).mul band

/-- Whether element j of a packed row stands in a block whose scale is 0xFF. -/
def fp4Invalid (row : List W32) (j : Nat) : Bool :=
  decide ((row.getD (8 + j / 32) 0).toNat / 2 ^ (8 * (j / 8 % 4)) % 256 = 0xFF)

/-- DQNT4 of one element (R83): NV for an invalid block, and for a NaN made of an infinite band scale
and a zero. -/
def dequant (row : List W32) (band : Num) (j : Nat) : W32 × Flags :=
  let x := fp4Value row band j
  let r := Fmt.f32.round .rne x
  (BitVec.ofNat 32 r.1, r.2 ||| flagIf (fp4Invalid row j || (x.isNan && !band.isNan)) flagNV)

/-- DQNT4 (R83), latency 8. -/
def semDqnt4 (g : Guard) (d a b : BitVec 5) : SlotSem :=
  semF g 8 d [a.toNat, b.toNat] fun s =>
    let va := s.vreg a.toNat
    let vb := s.vreg b.toNat
    (List.range 16).flatMap fun i => (List.range 64).map (dequant ((va.drop (64 * i)).take 64) (bandOf vb i))

/-! ### The generator (R85) -/

/-- RNGSEED: K := s_a, C := s_b, no word taken (R85). -/
def semRngseed (g : Guard) (a b : BitVec 5) : SlotSem :=
  { guard := g, funit := true, eff := fun s0 s => s.modMe fun t => { t with rng := ⟨s0.sreg a, s0.sreg b, 0⟩ } }

/-- RNGSKIP: as if s_a words had been taken (R85). -/
def semRngskip (g : Guard) (a : BitVec 5) : SlotSem :=
  { guard := g, funit := true, eff := fun s0 s => s.modMe (Task.rngTake (s0.sreg a).toNat) }

/-! ### The instructions as steps -/

/-- fexp2 as a step: the issuing task issues the slot. -/
def execFexp2 (g : Guard) (d a : BitVec 5) (mode : BitVec 1) (s : State) : Host.Outcome State Fault Refusal :=
  issueSlot (semFexp2 g d a mode) s

/-- fexp as a step: the issuing task issues the slot. -/
def execFexp (g : Guard) (d a : BitVec 5) (mode : BitVec 1) (s : State) : Host.Outcome State Fault Refusal :=
  issueSlot (semFexp g d a mode) s

/-- flog2 as a step: the issuing task issues the slot. -/
def execFlog2 (g : Guard) (d a : BitVec 5) (mode : BitVec 1) (s : State) : Host.Outcome State Fault Refusal :=
  issueSlot (semFlog2 g d a mode) s

/-- frcp as a step: the issuing task issues the slot. -/
def execFrcp (g : Guard) (d a : BitVec 5) (mode : BitVec 1) (s : State) : Host.Outcome State Fault Refusal :=
  issueSlot (semFrcp g d a mode) s

/-- frsq as a step: the issuing task issues the slot. -/
def execFrsq (g : Guard) (d a : BitVec 5) (mode : BitVec 1) (s : State) : Host.Outcome State Fault Refusal :=
  issueSlot (semFrsq g d a mode) s

/-- fsqrt as a step: the issuing task issues the slot. -/
def execFsqrt (g : Guard) (d a : BitVec 5) (mode : BitVec 1) (s : State) : Host.Outcome State Fault Refusal :=
  issueSlot (semFsqrt g d a mode) s

/-- fdiv as a step: the issuing task issues the slot. -/
def execFdiv (g : Guard) (d a b : BitVec 5) (mode : BitVec 1) (s : State) : Host.Outcome State Fault Refusal :=
  issueSlot (semFdiv g d a b mode) s

/-- ftanh as a step: the issuing task issues the slot. -/
def execFtanh (g : Guard) (d a : BitVec 5) (mode : BitVec 1) (s : State) : Host.Outcome State Fault Refusal :=
  issueSlot (semFtanh g d a mode) s

/-- fsigm as a step: the issuing task issues the slot. -/
def execFsigm (g : Guard) (d a : BitVec 5) (mode : BitVec 1) (s : State) : Host.Outcome State Fault Refusal :=
  issueSlot (semFsigm g d a mode) s

/-- fsin as a step: the issuing task issues the slot. -/
def execFsin (g : Guard) (d a : BitVec 5) (mode : BitVec 1) (s : State) : Host.Outcome State Fault Refusal :=
  issueSlot (semFsin g d a mode) s

/-- fcos as a step: the issuing task issues the slot. -/
def execFcos (g : Guard) (d a : BitVec 5) (mode : BitVec 1) (s : State) : Host.Outcome State Fault Refusal :=
  issueSlot (semFcos g d a mode) s

/-- cvt as a step: the issuing task issues the slot. -/
def execCvt (g : Guard) (d a : BitVec 5) (src dst : BitVec 4) (rm : BitVec 2) (s : State) : Host.Outcome State Fault Refusal :=
  issueSlot (semCvt g d a src dst rm) s

/-- qnt4 as a step: the issuing task issues the slot. -/
def execQnt4 (g : Guard) (d a b : BitVec 5) (rm : BitVec 2) (s : State) : Host.Outcome State Fault Refusal :=
  issueSlot (semQnt4 g d a b rm) s

/-- dqnt4 as a step: the issuing task issues the slot. -/
def execDqnt4 (g : Guard) (d a b : BitVec 5) (s : State) : Host.Outcome State Fault Refusal :=
  issueSlot (semDqnt4 g d a b) s

/-- rngseed as a step: the issuing task issues the slot. -/
def execRngseed (g : Guard) (a b : BitVec 5) (s : State) : Host.Outcome State Fault Refusal :=
  issueSlot (semRngseed g a b) s

/-- rngskip as a step: the issuing task issues the slot. -/
def execRngskip (g : Guard) (a : BitVec 5) (s : State) : Host.Outcome State Fault Refusal :=
  issueSlot (semRngskip g a) s

end Sys2Proof.Machine
end

