-- ==== Sys2Proof/Machine/TileNum.lean ====
section
/-!
DEFINITION. The values of tile instructions (R64, R66, R67, R80, R291 to R293): elements by format code, the
chunk results of units, and their folds. Chunk results are 64-bit words: .f32 codes of a floating fold, and
exact sums of an integer one.
-/

namespace Sys2Proof.Machine

/-! ### Elements -/

/-- Bytes of an element of a format code (Table 2.14). -/
def codeBytes (fmt : Nat) : Nat :=
  if fmt = 0 ∨ fmt = 6 ∨ fmt = 7 then 4 else if fmt = 1 ∨ fmt = 2 ∨ fmt = 8 ∨ fmt = 9 then 2 else 1

/-- Whether a format code is floating. -/
def codeFloat (fmt : Nat) : Bool := decide (fmt ≤ 4)

/-- A floating code decoded. -/
def floatCode (fmt : Nat) (v : Nat) : Num := (arrayFmt fmt).decode v

/-- An integer code's value. -/
def intCode (fmt : Nat) (v : Nat) : Int := cellInt (cvtInt fmt) (BitVec.ofNat 32 v)

/-- An exact integer as an element, wrapped or saturated (R64). -/
def intElem (fmt : Nat) (sat : Bool) (x : Int) : Nat × Flags :=
  let w := (cvtInt fmt).2
  let r := if sat then satInt (cvtInt fmt).1 w x else (x, false)
  ((BitVec.ofInt w r.1).toNat, flagIf r.2 flagIS)

/-! ### Sums -/

/-- A summation in an order and grouping that the n-th free choices pick (R67): two terms are taken and their
sum put back, until one is left. -/
def freeSum (add : Nat × Flags → Nat × Flags → Nat × Flags) (n : Nat) : Nat → List (Nat × Flags) → Nat × Flags
  | 0, l => l.headD (0, 0)
  | fuel + 1, l =>
    match l with
    | [] => (0, 0)
    | [x] => x
    | l =>
      let i := Config.freePick n % l.length
      let x := l.getD i (0, 0)
      let rest := l.eraseIdx i
      let j := Config.freePick (n + 1) % rest.length
      freeSum add (n + 2) fuel (rest.eraseIdx j ++ [add x (rest.getD j (0, 0))])

/-- A sum of two .f32 codes rounded, with its flags. -/
def addF32 (md : RMode) (x y : Nat × Flags) : Nat × Flags :=
  let r := Fmt.f32.add md (Fmt.f32.decode x.1) (Fmt.f32.decode y.1)
  (r.1, x.2 ||| y.2 ||| r.2)

/-- An ordered or free sum of .f32 codes; the first term of a fold of one is itself. -/
def sumF32 (md : RMode) (ord : Bool) (n : Nat) (l : List (Nat × Flags)) : Nat × Flags :=
  if ord then (match l with
    | [] => (0, 0)
    | x :: t => t.foldl (addF32 md) x)
  else freeSum (addF32 md) n l.length l

/-- A value rounded to .f32 as a code (R148: a fold's first term re-encoded). -/
def toF32 (md : RMode) (x : Num) : Nat × Flags := Fmt.f32.round md x

/-- Signed 64-bit reading of a chunk result. -/
def exactOf (v : W64) : Int := v.toInt

/-! ### TMM (R291) -/

/-- The chunk result of one element: the unified-mode chain over 64-deep blocks from a start value. -/
def chunkTmm (md : RMode) (start : Num) : Nat → List Num → List Num → Num × Flags
  | 0, _, _ => (start, 0)
  | n + 1, a, b =>
    let r := segChain md start 4 (a.take 64) (b.take 64)
    let q := chunkTmm md r.1 n (a.drop 64) (b.drop 64)
    (q.1, r.2 ||| q.2)

/-- The fold of C and the chunk results of one element (R291); `used` is the chunk formed with C as its start,
if any. -/
def foldTmm (md : RMode) (ord : Bool) (n : Nat) (used : Bool) (c : Nat) (p : List Nat) : Nat × Flags :=
  let terms := p.map fun x => (x, (0 : Flags))
  sumF32 md ord n (if used then terms else (c, 0) :: terms)

/-! ### Element-wise operations (Table 14.4) -/

/-- TEW of one element: `op` of AUX, formats of A, B, C and D. -/
def tewElem (op : Nat) (md : RMode) (fa fb fc fd : Nat) (a b c : Nat) : Nat × Flags :=
  if codeFloat fd then
    let x := floatCode fa a
    let y := floatCode fb b
    let f := arrayFmt fd
    match op with
    | 0 => f.add md x y
    | 1 => f.add md x y.negate
    | 2 => f.mul md x y
    | 3 => f.round md (x.min y)
    | 4 => f.round md (x.max y)
    | _ => f.fma md x y (floatCode fc c)
  else
    let x := intCode fa a
    let y := intCode fb b
    intElem fd false (match op with
      | 0 => x + y
      | 1 => x - y
      | 2 => x * y
      | 3 => if x < y then x else y
      | 4 => if x < y then y else x
      | _ => x * y + intCode fc c)

/-- An element in the low bits of a cell, as CVT reads it (R80). -/
def tcvtElem (src dst : Nat) (md : RMode) (v : Nat) : Nat × Flags :=
  let r := cvtCell src dst md (BitVec.ofNat 32 v)
  (r.1.toNat % 2 ^ (8 * codeBytes dst), r.2)

/-! ### TRED and TSCAN (R292, R64) -/

/-- The chunk fold of a line's elements: `op` 0 add, 1 max, 2 min. -/
def chunkFold (op fa : Nat) (md : RMode) (ord : Bool) (n : Nat) (l : List Nat) : W64 × Flags :=
  if codeFloat fa then
    let x := l.map (floatCode fa)
    let r : Nat × Flags :=
      if op = 0 then sumF32 md ord n (x.map (toF32 md))
      else toF32 md (foldMinMax op x)
    (BitVec.ofNat 64 r.1, r.2)
  else
    let x := l.map (intCode fa)
    let v : Int := match x with
      | [] => 0
      | t :: ts =>
        if op = 0 then ts.foldl (· + ·) t
        else if op = 1 then ts.foldl (fun a y => if a < y then y else a) t
        else ts.foldl (fun a y => if y < a then y else a) t
    (BitVec.ofInt 64 v, 0)

/-- Chunk results folded in ascending order, or freely (R292). -/
def foldChunks (op fa : Nat) (md : RMode) (ord : Bool) (n : Nat) (l : List W64) : W64 × Flags :=
  if codeFloat fa then
    (if op = 0 then
      let r := sumF32 md ord n (l.map fun v => (v.toNat, (0 : Flags)))
      (BitVec.ofNat 64 r.1, r.2)
     else
      let r := toF32 md (foldMinMax op (l.map fun v => Fmt.f32.decode v.toNat))
      (BitVec.ofNat 64 r.1, r.2))
  else
    match l.map exactOf with
    | [] => (0, 0)
    | t :: ts =>
      (BitVec.ofInt 64
        (if op = 0 then ts.foldl (· + ·) t
         else if op = 1 then ts.foldl (fun a y => if a < y then y else a) t
         else ts.foldl (fun a y => if y < a then y else a) t), 0)

/-- A folded chunk result as an element of D. -/
def foldElem (fd : Nat) (sat : Bool) (v : W64) : Nat × Flags :=
  if codeFloat fd then (v.toNat, 0) else intElem fd sat (exactOf v)

/-- The outputs of a scan over one chunk of a line: each prefix fold, with the carry S of the chunks before it
(Table 14.4). -/
def scanChunk (op fa fd : Nat) (md : RMode) (ord sat : Bool) (n : Nat) (carry : Option W64) (l : List Nat) :
    List (Nat × Flags) :=
  (List.range l.length).map fun j =>
    let p := chunkFold op fa md ord n (l.take (j + 1))
    let r := match carry with
      | none => p
      | some c =>
        let x := foldChunks op fa md true n [c, p.1]
        (x.1, p.2 ||| x.2)
    let e := foldElem fd sat r.1
    (e.1, r.2 ||| e.2)

end Sys2Proof.Machine
end

