-- ==== Sys2Proof/Machine/TileRuns.lean ====
section
/-!
DEFINITION. A tile instruction's block, descriptors and checks (R287 to R290, Tables 14.1 to 14.4), its units and
their distribution (R294 to R298), and reads and writes of elements.
-/

namespace Sys2Proof.Machine

/-! ### Descriptors (R289) -/

/-- A tile descriptor (Table 14.2). -/
structure TileDesc where
  base : W64
  rows : Nat
  cols : Nat
  rstr : Int
  cstr : Nat
  fmt : Nat
  rest : Nat
  deriving DecidableEq, Repr

/-- A descriptor from its 32 bytes; CSTR 0 stands for the element width. -/
def tileDesc (b : List Byte) : TileDesc :=
  let fmt := bytesAt b 28 1
  let c := bytesAt b 24 4
  { base := BitVec.ofNat 64 (bytesAt b 0 8), rows := bytesAt b 8 4, cols := bytesAt b 12 4,
    rstr := (BitVec.ofNat 64 (bytesAt b 16 8)).toInt, cstr := if c = 0 then codeBytes fmt else c, fmt := fmt,
    rest := bytesAt b 29 3 }

/-- Address of element (i, j). -/
def TileDesc.addr (d : TileDesc) (i j : Nat) : W64 := d.base + BitVec.ofInt 64 ((i : Int) * d.rstr + (j * d.cstr : Nat))

/-- Bytes of an element. -/
def TileDesc.width (d : TileDesc) : Nat := codeBytes d.fmt

/-- Whether a descriptor keeps Table 14.2 for a core and a level. -/
def TileDesc.ok (d : TileDesc) (core level : Nat) : Bool :=
  let w := d.width
  decide (1 ≤ d.rows) && decide (d.rows ≤ 2 ^ 20) && decide (1 ≤ d.cols) && decide (d.cols ≤ 2 ^ 20) && decide (d.fmt ≤ 12)
    && decide (d.fmt ≠ 5) && decide (d.rest = 0) && addrOk core d.base && (decide (addrForm d.base ≤ 1) || decide (level = 4))
    && decide (addrOff d.base % w = 0) && (decide (d.rows ≤ 1) || decide (d.rstr % (w : Int) = 0))
    && (decide (d.cols ≤ 1) || decide (d.cstr % w = 0))

/-- Whether two descriptors name the same elements exactly (R301). -/
def TileDesc.same (x y : TileDesc) : Bool :=
  decide (x.base = y.base) && decide (x.rows = y.rows) && decide (x.cols = y.cols) && decide (x.rstr = y.rstr)
    && decide (x.cstr = y.cstr) && decide (x.width = y.width)

/-- Whether n bytes from an address meet an element of a descriptor. -/
def TileDesc.touches (d : TileDesc) (a : W64) (n : Nat) : Bool :=
  decide (addrForm d.base = addrForm a) && (List.range d.rows).any fun i =>
    let lo : Int := (addrOff d.base : Int) + (i : Int) * d.rstr
    let x : Int := (addrOff a : Int) - lo
    -- the first element that ends after the address begins before the address ends
    let j : Int := if x < (d.width : Int) then 0 else (x - (d.width : Int)) / (d.cstr : Int) + 1
    decide (j < (d.cols : Int)) && decide (j * (d.cstr : Int) < x + (n : Int))

/-! ### The block (R290) -/

/-- LEVEL of a block. -/
def TileRun.level (g : TileRun) : Nat := bytesAt g.block 0 1
/-- OPC of a block. -/
def TileRun.opc (g : TileRun) : Nat := bytesAt g.block 1 1
/-- FLAGS[0]: the ordered fold. -/
def TileRun.ord (g : TileRun) : Bool := bitOf (bytesAt g.block 2 1) 0
/-- FLAGS[1]: the rounding. -/
def TileRun.mode (g : TileRun) : RMode := .ofRz (bitOf (bytesAt g.block 2 1) 1)
/-- AUX of a block. -/
def TileRun.aux (g : TileRun) : Nat := bytesAt g.block 3 1
/-- KCH of a block. -/
def TileRun.kch (g : TileRun) : Nat := bytesAt g.block 4 4
/-- MASK of a block. -/
def TileRun.mask (g : TileRun) : Nat := bytesAt g.block 8 8
/-- An address of a block at a byte offset. -/
def TileRun.field (g : TileRun) (off : Nat) : W64 := BitVec.ofNat 64 (bytesAt g.block off 8)
/-- WORK. -/
def TileRun.work (g : TileRun) : W64 := g.field 48
/-- RECORD. -/
def TileRun.record (g : TileRun) : W64 := g.field 56
/-- ACC. -/
def TileRun.acc (g : TileRun) : Nat := bytesAt g.block 64 1
/-- OSL. -/
def TileRun.osl (g : TileRun) : Nat := bytesAt g.block 65 1

/-- Descriptor k of a run: 0 A, 1 B, 2 C, 3 D. -/
def TileRun.desc (g : TileRun) (k : Nat) : TileDesc := tileDesc (g.descs.getD k [])
/-- Whether descriptor k is named. -/
def TileRun.named (g : TileRun) (k : Nat) : Bool := decide (g.field (16 + 8 * k) ≠ 0)

/-- Whether the operation reduces lines: TRED or TSCAN. -/
def TileRun.reduces (g : TileRun) : Bool := decide (g.opc = 2) || decide (g.opc = 3)
/-- Whether the lines of TRED and TSCAN are columns. -/
def TileRun.byCols (g : TileRun) : Bool := bitOf g.aux 2
/-- Lines of TRED and TSCAN, and elements of a line. -/
def TileRun.lines (g : TileRun) : Nat := if g.byCols then (g.desc 0).cols else (g.desc 0).rows
/-- Elements of a line. -/
def TileRun.lineLen (g : TileRun) : Nat := if g.byCols then (g.desc 0).rows else (g.desc 0).cols

/-- The quotient rounded up. -/
def ceilDiv (a b : Nat) : Nat := if b = 0 then 0 else (a + b - 1) / b

/-- Q: chunks of a tile (R294). -/
def TileRun.chunks (g : TileRun) : Nat :=
  if g.opc = 0 then ceilDiv (g.desc 0).cols g.kch else if g.reduces then ceilDiv g.lineLen g.kch else 1

/-- Tiles of D in a row of tiles. -/
def TileRun.tileCols (g : TileRun) : Nat := ceilDiv (g.desc 3).cols 64

/-- Nt: output tiles (R294). -/
def TileRun.tiles (g : TileRun) : Nat :=
  if g.reduces then ceilDiv g.lines 64 else ceilDiv (g.desc 3).rows 64 * g.tileCols

/-- Whether AUX, KCH, the formats and the shapes keep R291 and Table 14.4. -/
def TileRun.shapeOk (g : TileRun) : Bool :=
  let a := g.desc 0
  let b := g.desc 1
  let c := g.desc 2
  let d := g.desc 3
  let shape := fun (x y : TileDesc) => decide (x.rows = y.rows) && decide (x.cols = y.cols)
  let needs := fun k => g.named k
  let kch := decide (64 ≤ g.kch) && decide (g.kch ≤ 65536) && decide (g.kch % 64 = 0)
  let plain := decide (g.kch = 0)
  needs 0 && needs 3 && match g.opc with
  | 0 => needs 1 && decide (g.aux = 0) && kch && decide (a.rows = d.rows) && decide (a.cols = b.rows) && decide (b.cols = d.cols)
      && decide (a.fmt ≤ 4) && decide (b.fmt ≤ 4) && decide (d.fmt = 0) && (!needs 2 || (shape c d && decide (c.fmt = 0)))
  | 1 =>
    let fma := decide (g.aux = 5)
    needs 1 && (!fma || needs 2) && decide (g.aux ≤ 5) && plain && shape a d && shape b d && (!fma || shape c d)
      && ((decide (a.fmt ≤ 2) && decide (b.fmt ≤ 2) && decide (d.fmt ≤ 2) && (!fma || decide (c.fmt ≤ 2)))
        || ((decide (a.fmt = 6) || decide (a.fmt = 7)) && decide (b.fmt = a.fmt) && decide (d.fmt = a.fmt)
          && (!fma || decide (c.fmt = a.fmt))))
  | 2 | 3 =>
    kch && decide (g.aux < 16) && decide (g.aux % 4 ≤ 2)
      && ((decide (a.fmt ≤ 2) && decide (d.fmt = 0) && !bitOf g.aux 3) || (decide (6 ≤ a.fmt) && decide (a.fmt ≤ 11) && decide (d.fmt = a.fmt)))
      && (if g.opc = 3 then shape a d
          else if g.byCols then decide (d.rows = 1) && decide (d.cols = a.cols)
          else decide (d.cols = 1) && decide (d.rows = a.rows))
  | 4 => decide (g.aux = 0) && plain && decide (d.rows = a.cols) && decide (d.cols = a.rows) && decide (a.fmt = d.fmt)
  | 5 => decide (g.aux = 0) && plain && shape a d
  | 6 => decide (g.aux = 0) && plain && shape a d && decide (a.fmt = d.fmt)
  | 7 => decide (g.aux ≤ 1) && plain && decide (a.fmt = d.fmt)
      && (if g.aux = 0 then decide (a.rows = 1) && decide (a.cols = d.cols) else decide (a.cols = 1) && decide (a.rows = d.rows))
  | _ => false

/-- Children that a level may name: modules, dies or clusters. -/
def maskWidth (level : Nat) : Nat := if level = 0 then 64 else if level = 1 then 8 else 12

/-- Whether the bytes of a block keep Table 14.3 for an encoding. -/
def TileRun.blockOk (g : TileRun) (opc : Nat) (ord rz : Bool) : Bool :=
  decide (g.opc = opc) && decide (bytesAt g.block 2 1 = bitAt ord 0 + bitAt rz 1) && decide (bytesAt g.block 66 62 = 0)
    && (if g.level = 4 then decide (g.mask = 0)
        else decide (g.mask ≠ 0) && decide (g.mask < 2 ^ maskWidth g.level) && decide (g.acc = 0) && decide (g.osl = 0))

/-! ### Agents -/

/-- The key of a task's times among its die's agents (R243): the model's own. -/
def taskPos (r : TaskRef) : Nat :=
  if isLodge r.core then 0 else if isControl r.core then 1 else 200 + 4 * r.core + r.slot

/-- The agent of an access that a core makes for a tile instruction under a physical token. -/
def Cmd.tileAgent (x : Cmd) (r : TaskRef) (ptok : Nat) : Agent :=
  { task := r, tok := ptok, pos := taskPos r, writer := ⟨r.die, r.core, r.slot, x.job, x.lidx, isLodge r.core⟩, job := x.job,
    key := x.key, within := x.within }

/-- The agent of the issuing level. -/
def Cmd.issuer (x : Cmd) (c : CoreRef) (ptok : Nat) : Agent := x.tileAgent ⟨c.die, c.core, x.slot⟩ ptok

/-- The agent of a leaf. -/
def Cmd.leaf (x : Cmd) (c : CoreRef) (ptok : Nat) (w : Worker) : Agent :=
  match w with
  | .core k slot => x.tileAgent ⟨k.die, k.core, slot⟩ ptok
  | .module _ => x.issuer c ptok

/-! ### Reads and writes -/

/-- Elements of w bytes read at addresses, in order; `none` in the failure when one must wait. -/
def State.readElems (g : Agent) (w : Nat) : List W64 → State → State × Except (Option Trap) (List Nat)
  | [], s => (s, .ok [])
  | a :: rest, s =>
    let x := s.engineRead g a w
    match x.2 with
    | .waits => (x.1, .error none)
    | .failed t => (x.1, .error (some t))
    | .bytes b =>
      let y := State.readElems g w rest x.1
      (y.1, y.2.map fun l => leNat b :: l)

/-- Size of the pieces in which a run of bytes at an address is read or written. -/
def pieceSize (a : W64) : Nat := if addrOff a % 8 = 0 then 8 else 1

/-- A run of n bytes read, n a multiple of 8. -/
def State.readRun (s : State) (g : Agent) (a : W64) (n : Nat) : State × Except (Option Trap) (List Byte) :=
  let p := pieceSize a
  let x := State.readElems g p ((List.range (n / p)).map fun i => a + BitVec.ofNat 64 (p * i)) s
  (x.1, x.2.map fun l => l.flatMap (leBytes p))

/-- Writes performed in order: the HBM lines written, and the first failure; `waits` when one must wait. -/
structure Wrote where
  lines : List Nat
  failed : Option Trap
  waits : Bool

/-- Writes of an agent performed in order, up to the first that fails. -/
def State.writeEach (g : Agent) : List (W64 × List Byte) → State → List Nat → State × Wrote
  | [], s, lines => (s, ⟨lines, none, false⟩)
  | (a, b) :: rest, s, lines =>
    let x := s.engineWrite g a b
    match x.2 with
    | .waits => (x.1, ⟨lines, none, true⟩)
    | .failed t => (x.1, ⟨lines, some t, false⟩)
    | .wrote l => State.writeEach g rest x.1 (lines ++ l)

/-- Writes of an agent, once none of them must wait: until then only what they wait for is asked (R243). -/
def State.writeList (g : Agent) (l : List (W64 × List Byte)) (s : State) (lines : List Nat) : State × Wrote :=
  match l.find? fun x => decide ((s.engineWrite g x.1 x.2).2 = .waits) with
  | some x => ((s.engineWrite g x.1 x.2).1, ⟨[], none, true⟩)
  | none => State.writeEach g l s lines

/-- A run of bytes in pieces. -/
def pieces (a : W64) (b : List Byte) : List (W64 × List Byte) :=
  let p := if b.length % 8 = 0 then pieceSize a else 1
  (List.range (b.length / p)).map fun i => (a + BitVec.ofNat 64 (p * i), (b.drop (p * i)).take p)

/-- Whether a run of n bytes lies wholly in memory that an agent may write (R290, R297). -/
def State.writable (s : State) (g : Agent) (a : W64) (n : Nat) : Bool :=
  let off := addrOff a
  addrOk g.task.core a && match addrForm a with
  | 0 =>
    decide (off + n ≤ 2 ^ 56) && ((List.range (ceilDiv (off % mib2size + n) mib2size)).all fun i =>
      let p := BitVec.ofNat 64 (off / mib2size * mib2size + i * mib2size)
      match s.virtualSpot g p true with
      | .ok _ => true
      | .error _ => false)
  | 1 =>
    if paModule off ≠ s.module.toNat then s.isPresent g.task.die (paModule off)
    else decide (paOffset off + n ≤ hbmSize)
      || (decide (hbmSize ≤ paOffset off) && !s.refusesWrite g.writer (paOffset off) (List.replicate n 0))
  | 2 => decide (off + n ≤ (s.task g.task).windowBytes)
  | _ => isCompute g.task.core && decide (off + n ≤ operandBytes)
where
  /-- Bytes of a page. -/
  mib2size : Nat := 2 ^ 21

/-! ### Distribution (R288, R296, R298) -/

/-- The place of a worker at a depth: 0 module, 1 die, 2 cluster, 3 core. -/
def Worker.key (m0 d : Nat) (w : Worker) : Nat :=
  match w with
  | .core c _ => if d = 0 then m0 else if d = 1 then c.die else if d = 2 then clusterOf c.core else clusterIndex c.core
  | .module m => if d = 0 then m else 0

/-- The first n positions of some ranges of units, and the rest. -/
def takeUnits : Nat → List (Nat × Nat) → List (Nat × Nat) × List (Nat × Nat)
  | _, [] => ([], [])
  | n, (f, k) :: t =>
    if n = 0 then ([], (f, k) :: t)
    else if n < k then ([(f, n)], (f + n, k - n) :: t)
    else
      let r := takeUnits (n - k) t
      ((f, k) :: r.1, r.2)

/-- Positions lo up to and without hi of some ranges. -/
def sliceUnits (l : List (Nat × Nat)) (lo hi : Nat) : List (Nat × Nat) := (takeUnits (hi - lo) (takeUnits lo l).2).1

/-- Units distributed over the workers of a level, level by level (R296): `fuel` levels are left from depth d. -/
def distribute (m0 : Nat) : Nat → Nat → List (Nat × Nat) → List Worker → List TilePart
  | 0, _, l, ws => match ws with
    | [] => []
    | w :: _ => l.map fun x => ⟨x.1, x.2, w⟩
  | fuel + 1, d, l, ws =>
    let keys := (ws.map (Worker.key m0 d)).dedup
    let n := (l.map Prod.snd).sum
    (keys.zip (List.range keys.length)).flatMap fun k =>
      let part := sliceUnits l (k.2 * n / keys.length) ((k.2 + 1) * n / keys.length)
      if part = [] then [] else distribute m0 fuel (d + 1) part (ws.filter fun w => decide (w.key m0 d = k.1))

/-- The leaf that runs a unit. -/
def TileRun.worker (g : TileRun) (u : Nat) : Option Worker :=
  (g.parts.find? fun p => decide (p.first ≤ u) && decide (u < p.first + p.count)).map TilePart.worker

/-- The leaves of a run that have had units. -/
def TileRun.workers (g : TileRun) : List Worker := (g.parts.map TilePart.worker).dedup

/-- Where a tile task would stand on a core (R299): slot, vector base, first operand slot, first unit. -/
def State.acceptsTile (s : State) (c : CoreRef) : Option (Nat × Nat × Nat × Nat) :=
  let k := s.core c
  if s.isRetired c || !isCompute c.core || decide (k.mode ≠ 0) || k.subOwner.any fun e => e.2.isSome then none
  else
    match s.freeSlot c, k.freeBlock 8,
      ((List.range 13).find? fun n => (List.range 4).all fun i => (k.slotOwner.get none (n + i)).isNone),
      ((List.range 63).find? fun n => decide ((k.accUnit n).units = 0) && decide ((k.accUnit (n + 1)).units = 0)) with
    | some a, some b, some o, some u => some (a, b, o, u)
    | _, _, _, _ => none

/-- The cores of a die's clusters that accept a tile task. -/
def State.acceptors (s : State) (die : Nat) (clusters : List Nat) : List Worker :=
  clusters.flatMap fun k => (clusterCores die k).filterMap fun c => (s.acceptsTile c).map fun x => .core c x.1

/-- The leaves that take part at a level (R287, R288). -/
def State.candidates (s : State) (c : CoreRef) (slot level mask : Nat) : List Worker :=
  let dies := fun (l : List Nat) => l.flatMap fun d => s.acceptors d (List.range 12)
  match level with
  | 0 => ((List.range 64).filter (bitOf mask)).flatMap fun m =>
      if m = s.module.toNat then dies (List.range 8) else if s.isPresent c.die m then [.module m] else []
  | 1 => dies ((List.range 8).filter (bitOf mask))
  | 2 => s.acceptors c.die ((List.range 12).filter (bitOf mask))
  | _ => [.core c slot]

/-- Units of a run that its leaves have not completed, as ranges. -/
def rangesOf (l : List Nat) : List (Nat × Nat) :=
  l.foldr (fun u a => match a with
    | (f, n) :: t => if u + 1 = f then (u, n + 1) :: t else (u, 1) :: a
    | [] => [(u, 1)]) []

/-- The ranges of a range of units without some units. -/
def withoutUnits (done : List Nat) (f n : Nat) : List (Nat × Nat) :=
  rangesOf (((List.range n).map fun i => f + i).filter fun u => !done.contains u)

/-- The complete units of some parts, with the leaves that completed them. -/
def TileRun.doneParts (g : TileRun) (l : List TilePart) : List TilePart :=
  l.flatMap fun p =>
    (rangesOf (((List.range p.count).map fun i => p.first + i).filter g.done.contains)).map fun y => ⟨y.1, y.2, p.worker⟩

/-- A tile task set on a core (R299). -/
def State.placeTile (s : State) (c : CoreRef) (slot : Nat) (x : Cmd) (home : CoreRef) (ptok : Nat) (time : W64) : State :=
  match s.acceptsTile c with
  | none => s
  | some (_, vb, o, u) =>
    let t : Task :=
      { Task.blank with
        launch := 2 ^ 64, job := x.job, lidx := noLidx, vbase := vb, status := .tiling home ptok, time := time }
    (s.setTask ⟨c.die, c.core, slot⟩ t).modCore c fun k =>
      let k := { k with
        slotOwner := (List.range 4).foldl (fun m i => Tbl.set none m (o + i) (some slot)) k.slotOwner
        subOwner := Tbl.set none k.subOwner 0 (some slot) }
      (k.setUnit u ⟨u, 1, 0, slot, false, 0⟩).setUnit (u + 1) ⟨u + 1, 1, 0, slot, false, 0⟩

/-- The tile tasks of a run's leaves set on their cores; a core-level instruction uses its task's own
resources. -/
def State.placeAll (s : State) (x : Cmd) (home : CoreRef) (ptok : Nat) (ws : List Worker) (time : W64) : State :=
  ws.foldl (fun s w => match w with
    | .core c slot => if c = home then s else s.placeTile c slot x home ptok time
    | .module _ => s) s

end Sys2Proof.Machine
end

