-- ==== Sys2Proof/Machine/Arrivals.lean ====
section
/-!
DEFINITION. CELL_ARRIVAL: which cell an input port of a router offers next, and what becomes of it (R314, R317, R322,
R324, R340, R353, R372).
-/

namespace Sys2Proof.Machine

/-- Cells that a mesh or local port's refusal buffer holds (R317). -/
def refusalLimit : Nat := 16

/-- A refused cell of a mesh or local port in its refusal buffer, with RBUF (R317, Table 15.2). -/
def State.refuse (s : State) (p : PortRef) (c : Cell) : State :=
  let s := (s.countRefusal p.die (portRouter p)).modPort p.die (portRouter p) p.port fun q => { q with refusal := q.refusal ++ [c] }
  s.modPav p.die (portRouter p) fun v => { v with rbuf := max v.rbuf (v.port p.port).refusal.length }

/-- A TYPE 0 cell offered from a port: the state after it, or none where the cell stays where it is. A ring port's
refused cell circulates, and after a second refusal goes back to its sender; a mesh or local port stops while a
refused cell finds its buffer full. -/
def State.offerFrom (s : State) (p : PortRef) (again : Bool) (c : Cell) : Option State :=
  match s.offer p.die (portRouter p) p.port c with
  | .taken s' a => some (s'.afterTaken p.die (portRouter p) c a)
  | .stray => some (s.stray p.die (portRouter p) c)
  | .waits => none
  | .refused =>
    if 5 ≤ p.port then
      let s := s.countRefusal p.die (portRouter p)
      some (if again then s.sendNack p c else s.circulate p c)
    else if (((s.die p.die).pav (portRouter p)).port p.port).refusal.length < refusalLimit then some (s.refuse p c)
    else none

/-- Whether a collective at the engine of a router's die takes a cell: it has started under the tree, serves a rank there,
and the cell is a result of its flow (R365). -/
def Coll.takes (router : Nat) (c : Cell) (x : Coll) : Bool :=
  decide (router = lodgeRouter) && decide (c.typ = 0) && x.started && x.failed.isNone && decide (x.tree = some c.flow)
    && decide (x.job = c.job) && decide (x.ranks ≠ [])

/-- A collective with a result cell; a poisoned one is kept as no bytes at all. -/
def Coll.keep (c : Cell) (x : Coll) : Coll :=
  let k := if bytesAt x.lead 0 1 = 4 then c.rank * 2 ^ 17 + c.cidx else c.cidx
  { x with got := Tbl.insert (if c.psn then [] else c.payload) x.got k }

/-- A result of a tree taken by the collective engine of its die, if one waits for it (R365). -/
def State.collTakes (s : State) (die router : Nat) (c : Cell) : Option State :=
  if (s.die die).colls.any (Coll.takes router c) then
    some (s.modDie die fun d => { d with colls := d.colls.map fun x => if x.takes router c then x.keep c else x })
  else none

/-- A cell at the head of an input FIFO acted on, by its type; the state given has it taken out. -/
def State.actOn (s : State) (p : PortRef) (c : Cell) : Option State :=
  match c.typ with
  | 8 => some (s.mcHead p.die (portRouter p) p.port c)
  | 9 =>
    let x := s.mcBodyCell p.die (portRouter p) p.port c
    some (if x.2 then x.1.modPort p.die (portRouter p) p.port fun q => { q with fifo := { c with typ := 0 } :: q.fifo } else x.1)
  | _ => (s.collTakes p.die (portRouter p) c).orElse fun _ => s.offerFrom p false c

/-- Whether a refused cell would be refused again. -/
def State.stillRefused (s : State) (p : PortRef) (c : Cell) : Bool :=
  match s.offer p.die (portRouter p) p.port c with
  | .refused | .waits => true
  | _ => false

/-- The waiting cell of a local port that its queue takes now, delivered (R324). -/
def State.tryAhead (s : State) (p : PortRef) : Option State :=
  if p.port ≠ 4 then none
  else
    (takeFirst (fun x => !s.jobStopped x.2.2.job && s.aheadReady p.die (portRouter p) x)
        (((s.die p.die).pav (portRouter p)).port 4).ahead).map fun x =>
      (s.modPort p.die (portRouter p) 4 fun q => { q with ahead := x.2 }).toQueue p.die (portRouter p) x.1.1 x.1.2.1 x.1.2.2.job
        x.1.2.2

/-- A refused cell that its round takes now, offered again (R317). -/
def State.tryRefused (s : State) (p : PortRef) : Option State :=
  match takeFirst (fun c => !s.jobStopped c.job && !s.stillRefused p c) (((s.die p.die).pav (portRouter p)).port p.port).refusal with
  | none => none
  | some (c, rest) => (s.modPort p.die (portRouter p) p.port fun q => { q with refusal := rest }).offerFrom p false c

/-- The oldest cell of the input FIFO that is of no stopped job, acted on. -/
def State.tryFifo (s : State) (p : PortRef) : Option State :=
  match takeFirst (fun c => !s.jobStopped c.job) (((s.die p.die).pav (portRouter p)).port p.port).fifo with
  | none => none
  | some (c, rest) => (s.modPort p.die (portRouter p) p.port fun q => { q with fifo := rest }).actOn p c

/-- The oldest circulating cell back at its port, offered with CIRC clear (R340). -/
def State.tryCirc (s : State) (p : PortRef) : Option State :=
  match takeFirst (fun c => !s.jobStopped c.job) (((s.die p.die).pav (portRouter p)).port p.port).circ with
  | none => none
  | some (c, rest) =>
    (s.modPort p.die (portRouter p) p.port fun q => { q with circ := rest }).offerFrom p true { c with circ := false }

/-- What an input port does next, if it can do anything. -/
def State.arriveAt (s : State) (p : PortRef) : Option State :=
  (s.tryAhead p).orElse fun _ => (s.tryRefused p).orElse fun _ => (s.tryFifo p).orElse fun _ => s.tryCirc p

/-- CELL_ARRIVAL (R314). -/
def execCellArrival (p : PortRef) (s : State) : Host.Outcome State Fault Refusal := .next ((s.arriveAt p).getD s)

end Sys2Proof.Machine
end

