-- ==== Sys2Proof/Machine/Atomics.lean ====
section
/-!
DEFINITION. Fences, atomics and ordered sets (R247 to R263): their checks and issue, their execution at the
home, the release of ordered atomics and the return of the old value.
-/

namespace Sys2Proof.Machine

/-! ### Fences (R249) -/

/-- FENCE and FENCE.ro: the next bundle holds until the fence completes (R249). -/
def fenceSem (g : Guard) (sc : BitVec 2) (ro : Bool) : SlotSem :=
  { guard := g
    trap := regionTrap
    eff := fun s0 s => s.holdOn (.fence sc.toNat ro none (s0.scopeFloor s0.cur.coreRef sc.toNat)) }

/-- FENCE. -/
def semFence (g : Guard) (sc : BitVec 2) : SlotSem := fenceSem g sc false

/-- FENCE.ro. -/
def semFenceRo (g : Guard) (sc : BitVec 2) : SlotSem := fenceSem g sc true

/-- Whether a fence of a scope has nothing left to wait for (R249). -/
def Task.fenceReady (t : Task) (scope : Nat) : Bool := decide (scope ≠ 3) || decide (t.remoteStores = [])

/-- The wheel time that a fence of a task takes (R247). -/
def State.fenceTime (s : State) (r : TaskRef) (floor : W64) : W64 :=
  wheelTime (positionOf r) (tmax ((s.task r).time + 1) floor)

/-- A fence completes (R249): the task takes its wheel time; the .ro form drops the core's read-only lines;
the fence of an ARRIVE counts the arrival (R273). -/
def State.fenceDone (s : State) (r : TaskRef) (ro : Bool) (bar : Option Nat) (floor : W64) : State :=
  let t := s.fenceTime r floor
  let s := s.modTask r fun x => { x with time := t, roFloor := if ro then t else x.roFloor }
  let s := if ro then s.modCore r.coreRef Core.dropRo else s
  match bar with
  | none => s
  | some n => s.modBarrier r.die ((s.task r).bars.getD n 0) fun b => { b with arrived := b.arrived + 1, tc := tmax b.tc t }

/-- The first of a task's outstanding operations taken off. -/
def State.dropHold (s : State) (r : TaskRef) : State := s.modTask r fun t => { t with holds := t.holds.drop 1 }

/-! ### What an atomic does (Table 12.3, R255, R256) -/

/-- Bytes of an atomic. -/
def AtomicOp.width (a : AtomicOp) : Nat :=
  match a.fadd with
  | some ty => if ty = 0 then 4 else 2
  | none => if a.wide then 8 else 4

/-- The format of an AFADD type. -/
def faddFmt (ty : BitVec 2) : Fmt := if ty = 0 then .f32 else if ty = 1 then .bf16 else .f16

/-- A value of w bits read as the type of an atomic. -/
def AtomicOp.intOf (a : AtomicOp) (v : Nat) : Int :=
  if a.uns then (v : Int) else (BitVec.ofNat (8 * a.width) v).toInt

/-- The new memory value of an integer atomic (Table 12.3). -/
def AtomicOp.intNew (a : AtomicOp) (old v : Nat) : Nat :=
  match a.op with
  | 0 => old + v
  | 1 => if a.intOf old ≤ a.intOf v then old else v
  | 2 => if a.intOf v ≤ a.intOf old then old else v
  | 3 => old &&& v
  | 4 => old ||| v
  | 5 => old ^^^ v
  | 6 => v
  | _ => if a.intOf old < a.intOf v then old + 1 else old

/-- The new memory value of an atomic and its flags, from the old value (R254 to R256). -/
def AtomicOp.next (a : AtomicOp) (old : Nat) : Nat × Flags :=
  let v := a.operand.toNat % 2 ^ (8 * a.width)
  match a.fadd, a.cas with
  | some ty, _ => (faddFmt ty).add .rne ((faddFmt ty).decode old) ((faddFmt ty).decode v)
  | none, some x => (if old = v then x.toNat else old, 0)
  | none, none => (a.intNew old v, 0)

/-- The value s_d receives: AMIN, AMAX and AINCB extend by their type, the others by zeros (R254). -/
def AtomicOp.returned (a : AtomicOp) (old : Nat) : W64 :=
  if a.fadd.isNone ∧ a.cas.isNone ∧ (a.op = 1 ∨ a.op = 2 ∨ a.op = 7) then BitVec.ofInt 64 (a.intOf old)
  else BitVec.ofNat 64 old

/-! ### Checks and issue (R257) -/

/-- The place of an atomic's line: the translation with W required, or its trap (R231, R234, R257). -/
def State.atomicPlace (s : State) (a : AtomicOp) (ea : W64) : Except Trap TlbEntry :=
  match s.translate s.cur.coreRef s.freeCtr s.me.job ea.toNat true with
  | .error e => .error e
  | .ok e =>
    let pa := e.addr ea.toNat
    if inGrotto pa then .error ⟨0x64, BitVec.ofNat 64 pa⟩
    else if paModule pa = s.module.toNat then
      (let o := paOffset pa
       let c := s.poisonUnder (s.view (lineOf o)) (jobKey s.me.job)
       if e.gen ≠ s.genOf o then .error ⟨0x63, ea⟩
       else if c ≠ 0 then .error ⟨c, BitVec.ofNat 64 (s.physical (lineOf o * 128))⟩
       else .ok e)
    else if a.scope ≠ 3 ∨ a.ordered.isSome then .error ⟨0x65, ea⟩
    else if s.isPresent s.cur.die (paModule pa) then .ok e
    else .error ⟨0x8A, BitVec.ofNat 64 (requestId s.module.toNat s.cur.die (s.nextSeq s.cur.die (paModule pa)))⟩

/-- The checks of Table 12.4, in order, of an atomic at a slot position. -/
def atomicTrap (k : Nat) (ordered : Bool) (a : AtomicOp) (ea : W64) (s : State) : Option Trap :=
  firstTrap
    [regionTrap k s,
     trapIf (decide (ea.toNat / 2 ^ 56 ≠ 0)) ⟨0x20, ea⟩,
     trapIf (decide (ea.toNat % a.width ≠ 0)) ⟨0x21, ea⟩,
     trapIf (ordered && s.me.openSet.isNone) ⟨0x66, ea⟩,
     (match s.atomicPlace a ea with
       | .error e => if e.isWalk then none else some e
       | .ok _ => none)]

/-- An atomic slot (R254 to R258): `op` gives its fields from the state in which it issues; `ordered` is .ix
or .o. -/
def semAtomic (g : Guard) (ag : BitVec 3) (ordered : Bool) (op : State → AtomicOp) : SlotSem :=
  let full := fun (s0 : State) =>
    { op s0 with
      ordered := if ordered then s0.me.openSet else none
      floor := s0.scopeFloor s0.cur.coreRef (op s0).scope
      pc := s0.me.pc
      delay := s0.me.delay
      target := s0.me.target
      va := (s0.me.ag ag.toNat).addr }
  { guard := g
    trap := fun k s0 => atomicTrap k ordered (full s0) (s0.me.ag ag.toNat).addr s0
    wait := fun s0 s => match s0.atomicPlace (full s0) (full s0).va with
      | .error e => if e.isWalk then some ((s.askWalk s0.cur e).tookFree) else none
      | .ok _ => none
    eff := fun s0 s =>
      let a := full s0
      match s0.atomicPlace a a.va with
      | .error _ => s
      | .ok e => (((s.dropLoads s0.cur (some walkTok)).cacheTlb s0.cur.coreRef e).tookFree).holdOn (.atomic { a with pa := e.addr a.va.toNat, gen := e.gen }) }

/-- The fields of an integer atomic (Table 12.2). -/
def intAtomic (op : Nat) (d : BitVec 5) (sc : BitVec 2) (wide z : BitVec 1) (s : State) : AtomicOp :=
  { op := op, wide := decide (wide = 1), uns := decide (z = 1), fadd := none, cas := none, ordered := none,
    scope := sc.toNat, dest := d.toNat, pa := 0, gen := 0, va := 0, operand := s.sreg d, floor := 0, result := none }

/-- AADD. -/
def semAadd (g : Guard) (d : BitVec 5) (ag : BitVec 3) (sc : BitVec 2) (ix wide : BitVec 1) : SlotSem :=
  semAtomic g ag (decide (ix = 1)) (intAtomic 0 d sc wide 0)

/-- AMIN. -/
def semAmin (g : Guard) (d : BitVec 5) (ag : BitVec 3) (sc : BitVec 2) (ix wide z : BitVec 1) : SlotSem :=
  semAtomic g ag (decide (ix = 1)) (intAtomic 1 d sc wide z)

/-- AMAX. -/
def semAmax (g : Guard) (d : BitVec 5) (ag : BitVec 3) (sc : BitVec 2) (ix wide z : BitVec 1) : SlotSem :=
  semAtomic g ag (decide (ix = 1)) (intAtomic 2 d sc wide z)

/-- AAND. -/
def semAand (g : Guard) (d : BitVec 5) (ag : BitVec 3) (sc : BitVec 2) (ix wide : BitVec 1) : SlotSem :=
  semAtomic g ag (decide (ix = 1)) (intAtomic 3 d sc wide 0)

/-- AOR. -/
def semAor (g : Guard) (d : BitVec 5) (ag : BitVec 3) (sc : BitVec 2) (ix wide : BitVec 1) : SlotSem :=
  semAtomic g ag (decide (ix = 1)) (intAtomic 4 d sc wide 0)

/-- AXOR. -/
def semAxor (g : Guard) (d : BitVec 5) (ag : BitVec 3) (sc : BitVec 2) (ix wide : BitVec 1) : SlotSem :=
  semAtomic g ag (decide (ix = 1)) (intAtomic 5 d sc wide 0)

/-- ASWP. -/
def semAswp (g : Guard) (d : BitVec 5) (ag : BitVec 3) (sc : BitVec 2) (ix wide : BitVec 1) : SlotSem :=
  semAtomic g ag (decide (ix = 1)) (intAtomic 6 d sc wide 0)

/-- AINCB. -/
def semAincb (g : Guard) (d : BitVec 5) (ag : BitVec 3) (sc : BitVec 2) (ix wide z : BitVec 1) : SlotSem :=
  semAtomic g ag (decide (ix = 1)) (intAtomic 7 d sc wide z)

/-- AFADD (R256): .o is ordered like .ix (R257, R262). -/
def semAfadd (g : Guard) (d : BitVec 5) (ag : BitVec 3) (ty : BitVec 2) (ord : BitVec 1) (sc : BitVec 2) : SlotSem :=
  semAtomic g ag (decide (ord = 1)) fun s => { intAtomic 0 d sc 0 0 s with fadd := some ty }

/-- ACAS (R255). -/
def semAcas (g : Guard) (d : BitVec 5) (ag : BitVec 3) (b : BitVec 4) (sc : BitVec 2) (ix wide : BitVec 1) : SlotSem :=
  semAtomic g ag (decide (ix = 1)) fun s => { intAtomic 0 d sc wide 0 s with cas := some (s.sreg (b.setWidth 5)) }

/-! ### Ordered sets (R261) -/

/-- The size of a set that the issuing task's kernel declares. -/
def State.setSize (s : State) (o : Nat) : Option Nat :=
  match s.launch? s.me.launch with
  | some l => l.kernel.sets[o]?
  | none => none

/-- How many tasks have joined a set of the issuing task's launch. -/
def State.setJoined (s : State) (o : Nat) : List Nat :=
  match s.launch? s.me.launch with
  | some l => (l.sets.get OrdSet.none o).joined
  | none => []

/-- The ordered-set trap of an ordinal. -/
def setTrap (v : W64) : Trap := ⟨0x66, BitVec.ofNat 64 (v.toNat % 16)⟩

/-- Whether a join is refused. -/
def joinBad (v : W64) (s : State) : Bool :=
  let o := v.toNat
  decide (16 ≤ o) || s.me.openSet.isSome || s.me.joined.contains o ||
    (match s.setSize o with
      | none => true
      | some n => decide (n ≤ (s.setJoined o).length))

/-- AORD.join (R261). -/
def semAordJoin (g : Guard) (r : BitVec 5) : SlotSem :=
  { guard := g
    trap := fun k s0 => firstTrap [regionTrap k s0, trapIf (joinBad (s0.sreg r) s0) (setTrap (s0.sreg r))]
    eff := fun s0 s =>
      let o := (s0.sreg r).toNat
      let n := (s0.setSize o).getD 0
      (s.modMe fun t => { t with openSet := some o, joined := t.joined ++ [o] }).modLaunch s0.me.launch fun l =>
        let x := l.sets.get OrdSet.none o
        { l with sets := Tbl.set OrdSet.none l.sets o { x with size := n, joined := x.joined ++ [s0.me.lidx.toNat] } } }

/-- AORD.close (R261). -/
def semAordClose (g : Guard) (r : BitVec 5) : SlotSem :=
  { guard := g
    trap := fun k s0 => firstTrap
      [regionTrap k s0, trapIf (decide (s0.me.openSet ≠ some (s0.sreg r).toNat)) (setTrap (s0.sreg r))]
    eff := fun _ s => s.closeSet s.cur }

/-- The resident tasks of the module. -/
def State.residents (s : State) : List TaskRef :=
  s.coreRefs.flatMap fun c => (s.core c).tasks.filterMap fun e => e.2.map fun _ => (⟨c.die, c.core, e.1⟩ : TaskRef)

/-- Whether a task has an ordered atomic of a set that has not executed. -/
def Task.hasOrdered (o : Nat) (t : Task) : Bool :=
  t.holds.any fun h => match h with
    | .atomic a => decide (a.ordered = some o) && a.result.isNone
    | _ => false

/-- Whether the ordered atomics of a set may execute for a participant (R262): n tasks have joined, and every
lower participant has closed and has none left. -/
def State.mayRelease (s : State) (t : Task) (o : Nat) : Bool :=
  match s.launch? t.launch with
  | none => false
  | some l =>
    let x := l.sets.get OrdSet.none o
    decide (x.size ≤ x.joined.length) && (x.joined.all fun p => decide (t.lidx.toNat ≤ p) || x.closed.contains p)
      && !(s.residents.any fun r =>
        decide ((s.task r).launch = t.launch) && decide ((s.task r).lidx.toNat < t.lidx.toNat) && (s.task r).hasOrdered o)

/-! ### Execution (R258) -/

/-- The time after which the ordered atomics of a set execute: the largest of those that have (R262). -/
def State.setTime (s : State) (r : TaskRef) (a : AtomicOp) : W64 :=
  match a.ordered, s.launch? (s.task r).launch with
  | some o, some l => (l.sets.get OrdSet.none o).time
  | _, _ => 0

/-- A set with the time of an atomic of it that has executed (R262). -/
def State.noteSet (s : State) (r : TaskRef) (a : AtomicOp) (ta : W64) : State :=
  match a.ordered with
  | none => s
  | some o => s.modLaunch (s.task r).launch fun l =>
    let x := l.sets.get OrdSet.none o
    { l with sets := Tbl.set OrdSet.none l.sets o { x with time := tmax x.time ta } }

/-- The time an atomic takes on a line (R247): first its fence's, then the line's; one of an ordered set comes after those
of the set that have executed (R262). -/
def State.atomicTime (s : State) (r : TaskRef) (a : AtomicOp) (line : Nat) : W64 :=
  let m := s.lineMeta line
  wheelTime (positionOf r)
    (tmax (tmax (tmax (s.fenceTime r a.floor + 1) a.floor) (s.setTime r a)) (tmax (m.wts + 1) (m.rts + 1)))

/-- An atomic performed on bytes of this module's HBM at a time under a key: every copy is given back, the
value changes, and the line takes the time (R258, R247). The value read comes back. -/
def State.atomicAt (s : State) (a : AtomicOp) (o key : Nat) (ta : W64) : State × Nat :=
  let s := s.recall (lineOf o) true
  let old := leNat (s.mem.bytes o a.width)
  let s := s.storeHbm o key (leBytes a.width (a.next old).1)
  (s.modLine (lineOf o) fun m => { m with wts := ta, rts := ta }, old)

/-- The request of an atomic to its home on another module (Table 16.4); ACAS, to which the table gives no code, takes
the unassigned code 8. -/
def AtomicOp.request (a : AtomicOp) (job : Nat) (floor : W64) : RemoteReq :=
  { kind := 3, job := job, pa := a.pa, gen := a.gen, lgSize := Nat.log2 a.width, aop := if a.cas.isSome then 8 else a.op, wide := a.wide, uns := a.uns,
    isFadd := a.fadd.isSome, faddHi := decide (a.fadd = some 1), isCas := a.cas.isSome, id := 0, time := floor.toNat,
    operand := a.operand, newVal := a.cas.getD 0, data := [] }

/-- The first outstanding operation of a task replaced. -/
def State.setHold (s : State) (r : TaskRef) (h : Hold) : State :=
  s.modTask r fun t => { t with holds := h :: t.holds.drop 1 }

/-- The trap that an atomic is to its task once its bundle has issued: the task stands again at that bundle, whose PC the
trap saves (R234, R381). -/
def State.atomicTraps (s : State) (r : TaskRef) (a : AtomicOp) (t : Trap) : State :=
  ((s.dropHold r).modTask r fun t => { t with pc := a.pc, delay := a.delay, target := a.target }).takeTrap r t

/-- An atomic at the head of its task's operations executes at its home, where its generation is checked (R234), or its
request leaves for another module. It waits while its home is held (R239) or its line is, for a squashed bundle (R167). -/
def State.executeAtomic (s : State) (r : TaskRef) (a : AtomicOp) : State :=
  let job := (s.task r).job
  if paModule a.pa = s.module.toNat then
    let o := paOffset a.pa
    if a.gen ≠ s.genOf o then (if (s.task r).halted then s else s.atomicTraps r a ⟨0x63, a.va⟩)
    else if s.runHeld o a.width true then s
    else
    let line := lineOf o
    let ta := (s.recall line true).atomicTime r a line
    let x := s.atomicAt a o (jobKey job) ta
    ((x.1.mark r.coreRef ta).noteSet r a ta).setHold r (.atomic { a with floor := ta, result := some (a.returned x.2, (a.next x.2).2) })
  else
    let t := s.fenceTime r a.floor
    let s := s.modTask r fun x => { x with time := t }
    let x := s.sendReq r none (paModule a.pa) (a.request job (t + 1))
    x.1.setHold r (.remote x.2 a)

/-- The atomic at the head of a task's operations that has not executed and whose fence is complete. -/
def Task.waitingAtomic (t : Task) : Option AtomicOp :=
  match t.holds with
  | .atomic a :: _ => if a.result.isNone ∧ t.fenceReady a.scope = true then some a else none
  | _ => none

/-- ATOMIC_EXECUTE: an atomic that no set orders executes at its wheel time (R258). -/
def execAtomicExecute (t : TaskRef) (s : State) : Host.Outcome State Fault Refusal :=
  .next (match (s.task t).waitingAtomic with
    | some a => if a.ordered.isSome then s else s.executeAtomic t a
    | none => s)

/-- ORDERED_RELEASE: a held ordered atomic executes once its set lets it (R262). -/
def execOrderedRelease (t : TaskRef) (s : State) : Host.Outcome State Fault Refusal :=
  .next (match (s.task t).waitingAtomic with
    | some a =>
      (match a.ordered with
        | some o =>
          if s.mayRelease (s.task t) o && !s.jobStopped (s.task t).job then s.executeAtomic t a else s
        | none => s)
    | none => s)

/-- The old value of an atomic delivered to its task (R254, R256, R247): at once, or, while the task is
halted, as a pending result for its resumption (R263, R284). -/
def State.deliver (s : State) (r : TaskRef) (d : Nat) (v : W64) (f : Flags) (ta : W64) : State :=
  let s := (s.modTask r fun t => t.observe ta).dropHold r
  if (s.task r).halted then s.modTask r fun t => t.push 0 (.scalar d v) f
  else s.modTask r fun t => (t.setSreg d v).orFlags f

/-- The old value that a remote atomic's reply carries. -/
def RemoteRep.old (a : AtomicOp) (rep : RemoteRep) : Nat := leNat (rep.data.take a.width)

/-- A request forgotten. -/
def State.dropSent (s : State) (id : Nat) : State := { s with sent := s.sent.filter fun x => !decide (x.req.id = id) }

/-- The reply of a remote atomic taken by its task: its value, or its trap (R264, R265). -/
def State.takeRemote (s : State) (r : TaskRef) (id : Nat) (a : AtomicOp) : State :=
  match s.sent.find? fun x => decide (x.req.id = id) with
  | none => s
  | some x =>
    match x.reply with
    | none => s
    | some rep =>
      match replyTrap a.va x.req rep.status with
      | none =>
        let old := RemoteRep.old a rep
        (s.dropSent id).deliver r a.dest (a.returned old) (a.next old).2 (BitVec.ofNat 64 rep.time)
      | some tr => if (s.task r).halted then s else (s.dropSent id).atomicTraps r a tr

/-- ATOMIC_REPLY: the old value returns to s_d, the task's time becomes that of the atomic, and the next
bundle is released (R254, R247). -/
def execAtomicReply (t : TaskRef) (s : State) : Host.Outcome State Fault Refusal :=
  .next (match (s.task t).holds with
    | .atomic a :: _ =>
      (match a.result with
        | some x => s.deliver t a.dest x.1 x.2 a.floor
        | none => s)
    | .remote id a :: _ => s.takeRemote t id a
    | _ => s)

/-! ### The instructions as steps -/

/-- fence as a step: the issuing task issues the slot. -/
def execFence (g : Guard) (sc : BitVec 2) (s : State) : Host.Outcome State Fault Refusal :=
  issueSlot (semFence g sc) s

/-- fenceRo as a step: the issuing task issues the slot. -/
def execFenceRo (g : Guard) (sc : BitVec 2) (s : State) : Host.Outcome State Fault Refusal :=
  issueSlot (semFenceRo g sc) s

/-- aadd as a step: the issuing task issues the slot. -/
def execAadd (g : Guard) (d : BitVec 5) (ag : BitVec 3) (sc : BitVec 2) (ix wide : BitVec 1) (s : State) : Host.Outcome State Fault Refusal :=
  issueSlot (semAadd g d ag sc ix wide) s

/-- amin as a step: the issuing task issues the slot. -/
def execAmin (g : Guard) (d : BitVec 5) (ag : BitVec 3) (sc : BitVec 2) (ix wide z : BitVec 1) (s : State) : Host.Outcome State Fault Refusal :=
  issueSlot (semAmin g d ag sc ix wide z) s

/-- amax as a step: the issuing task issues the slot. -/
def execAmax (g : Guard) (d : BitVec 5) (ag : BitVec 3) (sc : BitVec 2) (ix wide z : BitVec 1) (s : State) : Host.Outcome State Fault Refusal :=
  issueSlot (semAmax g d ag sc ix wide z) s

/-- aand as a step: the issuing task issues the slot. -/
def execAand (g : Guard) (d : BitVec 5) (ag : BitVec 3) (sc : BitVec 2) (ix wide : BitVec 1) (s : State) : Host.Outcome State Fault Refusal :=
  issueSlot (semAand g d ag sc ix wide) s

/-- aor as a step: the issuing task issues the slot. -/
def execAor (g : Guard) (d : BitVec 5) (ag : BitVec 3) (sc : BitVec 2) (ix wide : BitVec 1) (s : State) : Host.Outcome State Fault Refusal :=
  issueSlot (semAor g d ag sc ix wide) s

/-- axor as a step: the issuing task issues the slot. -/
def execAxor (g : Guard) (d : BitVec 5) (ag : BitVec 3) (sc : BitVec 2) (ix wide : BitVec 1) (s : State) : Host.Outcome State Fault Refusal :=
  issueSlot (semAxor g d ag sc ix wide) s

/-- aswp as a step: the issuing task issues the slot. -/
def execAswp (g : Guard) (d : BitVec 5) (ag : BitVec 3) (sc : BitVec 2) (ix wide : BitVec 1) (s : State) : Host.Outcome State Fault Refusal :=
  issueSlot (semAswp g d ag sc ix wide) s

/-- aincb as a step: the issuing task issues the slot. -/
def execAincb (g : Guard) (d : BitVec 5) (ag : BitVec 3) (sc : BitVec 2) (ix wide z : BitVec 1) (s : State) : Host.Outcome State Fault Refusal :=
  issueSlot (semAincb g d ag sc ix wide z) s

/-- afadd as a step: the issuing task issues the slot. -/
def execAfadd (g : Guard) (d : BitVec 5) (ag : BitVec 3) (ty : BitVec 2) (ord : BitVec 1) (sc : BitVec 2) (s : State) : Host.Outcome State Fault Refusal :=
  issueSlot (semAfadd g d ag ty ord sc) s

/-- acas as a step: the issuing task issues the slot. -/
def execAcas (g : Guard) (d : BitVec 5) (ag : BitVec 3) (b : BitVec 4) (sc : BitVec 2) (ix wide : BitVec 1) (s : State) : Host.Outcome State Fault Refusal :=
  issueSlot (semAcas g d ag b sc ix wide) s

/-- aordJoin as a step: the issuing task issues the slot. -/
def execAordJoin (g : Guard) (r : BitVec 5) (s : State) : Host.Outcome State Fault Refusal :=
  issueSlot (semAordJoin g r) s

/-- aordClose as a step: the issuing task issues the slot. -/
def execAordClose (g : Guard) (r : BitVec 5) (s : State) : Host.Outcome State Fault Refusal :=
  issueSlot (semAordClose g r) s

end Sys2Proof.Machine
end

