-- ==== Sys2Proof/Machine/Home.lean ====
section
/-!
DEFINITION. Remote requests at their home Gatehouse (R234, R244, R264, R265, R341 to R343), and replies, resends and
timeouts at the requester (R265, R341, R426).
-/

namespace Sys2Proof.Machine

/-! ### What a request does at its home -/

/-- A reply without data. -/
def plainReply (q : RemoteReq) (status : Nat) : RemoteRep := { status := status, id := q.id, time := 0, data := [] }

/-- The key of a request: that of the job in its cell tag (R405); a physical request of job 0, which is a walk or a lodge's
access under the firmware key, is the firmware's. -/
def reqKey (q : RemoteReq) : Nat := if q.phys = true ∧ q.job = 0 then fwKey else jobKey q.job

/-- Bytes of a request. -/
def reqSize (q : RemoteReq) : Nat := 2 ^ q.lgSize

/-- The checks of a request at its home, in order (R343, R234, R334, R405): 3 outside HBM, 1 for another generation, and
for a load or an atomic the poison of its line. -/
def State.reqStatus (s : State) (q : RemoteReq) : Nat :=
  let o := paOffset q.pa
  if paModule q.pa ≠ s.module.toNat ∨ hbmSize < o + reqSize q then 3
  else if !q.phys && decide (q.gen ≠ s.genOf o) then 1
  else if s.hasKey (reqKey q) = false then 3
  else if q.kind ≠ 2 ∧ s.poisonUnder (s.view (lineOf o)) (reqKey q) ≠ 0 then 4
  else 0

/-- The atomic of a request (R258, Table 16.4). -/
def atomicOfReq (q : RemoteReq) : AtomicOp :=
  { op := q.aop, wide := q.wide, uns := q.uns,
    fadd := if q.isFadd then some (if q.lgSize = 2 then 0 else if q.faddHi then 1 else 2) else none,
    cas := if q.isCas then some q.newVal else none, ordered := none, scope := 3, dest := 0, pa := q.pa, gen := q.gen, va := 0,
    operand := q.operand, floor := BitVec.ofNat 64 q.time, result := none }

/-- A load performed at the home by a Gatehouse: its data and the line's write time (R244, Table 16.4). -/
def State.reqLoad (s : State) (gate : Nat) (q : RemoteReq) : State × RemoteRep :=
  let o := paOffset q.pa
  let s := s.raiseAgent gate gatePos (BitVec.ofNat 64 q.time)
  let x := s.homeLoad gate gatePos o (reqSize q) (reqKey q)
  let data := match x.2 with
    | .ok b => b
    | .error _ => []
  (x.1, { status := 0, id := q.id, time := (x.1.lineMeta (lineOf o)).wts.toNat, data := data })

/-- A store performed at the home by a Gatehouse, an ordered access at its position (R264, R244). -/
def State.reqStore (s : State) (gate : Nat) (q : RemoteReq) : State × RemoteRep :=
  let o := paOffset q.pa
  let s := s.raiseAgent gate gatePos (BitVec.ofNat 64 q.time)
  let s := s.storeHbm o (reqKey q) (q.data.take (reqSize q))
  let m := s.lineMeta (lineOf o)
  let t := tmax (s.agentTime gate gatePos) (tmax (m.wts + 1) (m.rts + 1))
  let s := ((s.modLine (lineOf o) fun m => { m with wts := t, rts := t }).raiseAgent gate gatePos t).markDie gate t
  (s, { status := 0, id := q.id, time := t.toNat, data := [] })

/-- An atomic performed at the home at a wheel time of the Gatehouse's position (R247, R258, R264). -/
def State.reqAtomic (s : State) (gate : Nat) (q : RemoteReq) : State × RemoteRep :=
  let o := paOffset q.pa
  let s := s.recall (lineOf o) true
  let m := s.lineMeta (lineOf o)
  let floor := tmax (tmax (BitVec.ofNat 64 q.time) (s.agentTime gate gatePos + 1)) (tmax s.hwm (tmax (m.wts + 1) (m.rts + 1)))
  let ta := wheelTime (agentPosition gate gatePos) floor
  let x := s.atomicAt (atomicOfReq q) o (reqKey q) ta
  ((x.1.raiseAgent gate gatePos ta).markDie gate ta,
    { status := 0, id := q.id, time := ta.toNat, data := padTo 8 (leBytes (atomicOfReq q).width x.2) })

/-- A request performed or refused at its home (R343). -/
def State.performReq (s : State) (gate : Nat) (q : RemoteReq) : State × RemoteRep :=
  let st := s.reqStatus q
  if st ≠ 0 then (s, plainReply q st)
  else match q.kind with
    | 1 => s.reqLoad gate q
    | 2 => s.reqStore gate q
    | _ => s.reqAtomic gate q

/-! ### The order of a pair (R342) -/

/-- Source module, source Gatehouse and sequence of a request ID (R265). -/
def idModule (id : Nat) : Nat := id / 2 ^ 42 % 64
/-- Source Gatehouse. -/
def idGate (id : Nat) : Nat := id / 2 ^ 39 % 8
/-- Sequence. -/
def idSeq (id : Nat) : Nat := id % 2 ^ 32
/-- Key of the pair of a request at a home Gatehouse. -/
def pairKey (id : Nat) : Nat := 8 * idModule id + idGate id

/-- Replies that a Gatehouse caches (R265). -/
def cacheLimit : Nat := 16384

/-- A reply sent back the way its request came (R338, R341). -/
def State.sendReply (s : State) (gate : Nat) (job : Nat) (r : RemoteRep) : State :=
  let m := idModule r.id
  let c := routedCell 4 (gateRoute m (idGate r.id)) job (repPayload r)
  s.output gate gateRouter (s.portFor gate m) { c with psn := decide (r.status = 4) }

/-- The check-value fault of a reply whose data are poison, where its cell takes PSN first (R334, R343). -/
def State.postPsn (s : State) (gate : Nat) (q : RemoteReq) (r : RemoteRep) : State :=
  if r.status = 4 then s.postFault gate 0xA7 0 q.job 0xA0 (BitVec.ofNat 64 (s.physical (lineOf (paOffset q.pa) * 128))) else s

/-- Whether two dies of this module can reach each other: all hops of the package ring between them hold, one way or the
other (R337, R345). -/
def State.diesJoined (s : State) (a b : Nat) : Bool :=
  let hop := fun (d : Nat) => !s.portFailed d 1 && !s.portFailed ((d + 1) % 8) 0
  let way := fun (x y : Nat) => (List.range (dieSteps x y)).all fun i => hop ((x + i) % 8)
  way a b || way b a

/-- Whether a request whose turn it is must wait: its home is held (R239), or its line is, for a squashed bundle (R167). -/
def State.reqHeld (s : State) (q : RemoteReq) : Bool :=
  let o := paOffset q.pa
  decide (s.reqStatus q = 0) && s.runHeld o (reqSize q) (decide (q.kind ≠ 1))

/-- The next expected sequence of a pair. -/
def Gatehouse.expected (g : Gatehouse) (id : Nat) : Nat := g.expectSeq.get 0 (pairKey id)

/-- A request whose turn it is: performed, cached and answered, or refused busy with the cache full (R265, R342). The
flag says whether the pair's sequence has passed it. -/
def State.serveReq (s : State) (gate : Nat) (q : RemoteReq) : State × Bool :=
  if cacheLimit ≤ (s.die gate).gate.cache.length then (s.sendReply gate q.job (plainReply q 2), false)
  else
    let x := s.performReq gate q
    let s := x.1.modGate gate fun g =>
      { g with cache := g.cache ++ [⟨q.id, x.2⟩], expectSeq := Tbl.set 0 g.expectSeq (pairKey q.id) ((idSeq q.id + 1) % 2 ^ 32) }
    ((s.postPsn gate q x.2).sendReply gate q.job x.2, true)

/-- A request out of those that a Gatehouse holds. -/
def State.dropHeld (s : State) (gate : Nat) (q : RemoteReq) : State :=
  s.modGate gate fun g => { g with heldReqs := g.heldReqs.filter fun x => !decide (x.id = q.id) }

/-- A request among those that a Gatehouse holds, once. -/
def State.holdReq (s : State) (gate : Nat) (q : RemoteReq) : State :=
  s.modGate gate fun g => if g.heldReqs.any fun x => decide (x.id = q.id) then g else { g with heldReqs := g.heldReqs ++ [q] }

/-- Held requests of a pair whose turn has come, until one must wait or is refused busy, where the flag is false; `fuel`
bounds them (R342). -/
def State.pumpReqs (gate key : Nat) : Nat → State → State × Bool
  | 0, s => (s, true)
  | fuel + 1, s =>
    let g := (s.die gate).gate
    match g.heldReqs.find? fun q => decide (pairKey q.id = key) && decide (idSeq q.id = g.expectSeq.get 0 key) with
    | none => (s, true)
    | some q =>
      if s.reqHeld q then (s, false)
      else
        let x := (s.dropHeld gate q).serveReq gate q
        if x.2 then State.pumpReqs gate key fuel x.1 else x

/-- REMOTE_REQUEST (R342, R265): a cached ID is answered again; the request whose turn it is, is served with those held
behind it, or held while its home is; one ahead is held; one behind is discarded. One whose home die the package ring no
longer reaches is lost, and its requester gives it up (R345, R265). -/
def State.remoteRequest (s : State) (gate : Nat) (q : RemoteReq) : State :=
  let g := (s.die gate).gate
  match g.cache.find? fun c => decide (c.id = q.id) with
  | some c => s.sendReply gate q.job c.rep
  | none =>
    let d := (idSeq q.id + 2 ^ 32 - g.expected q.id) % 2 ^ 32
    if 2 ^ 31 ≤ d ∨ s.diesJoined gate (homeDie (paOffset q.pa)) = false then s
    else if d ≠ 0 ∨ s.reqHeld q = true then s.holdReq gate q
    else
      let x := (s.dropHeld gate q).serveReq gate q
      if x.2 then (State.pumpReqs gate (pairKey q.id) g.heldReqs.length x.1).1 else x.1

/-- REMOTE_REQUEST as a step. -/
def execRemoteRequest (gate : Nat) (q : RemoteReq) (s : State) : Host.Outcome State Fault Refusal :=
  .next (s.remoteRequest gate q)

/-- REPLY_CACHE_EXPIRE (R265). -/
def execReplyCacheExpire (gate id : Nat) (s : State) : Host.Outcome State Fault Refusal :=
  .next (s.modGate gate fun g => { g with cache := g.cache.filter fun c => !decide (c.id = id) })

/-- The held request of a pair that stands next after the missing ones. -/
def Gatehouse.nextHeld (g : Gatehouse) (key : Nat) : Option Nat :=
  let e := g.expectSeq.get 0 key
  ((g.heldReqs.filter fun q => decide (pairKey q.id = key)).map fun q => idSeq q.id).foldl
    (fun a x => match a with
      | none => some x
      | some y => if (x + 2 ^ 32 - e) % 2 ^ 32 < (y + 2 ^ 32 - e) % 2 ^ 32 then some x else some y) none

/-- Missing numbers of a pair skipped until nothing is held, or a request that waits or is refused busy stops the pair;
`fuel` bounds them. -/
def State.skipSeqs (gate key : Nat) : Nat → State → State
  | 0, s => s
  | fuel + 1, s =>
    match (s.die gate).gate.nextHeld key with
    | none => s
    | some n =>
      let held := (s.die gate).gate.heldReqs.length
      let s := s.modGate gate fun g => { g with expectSeq := Tbl.set 0 g.expectSeq key n }
      let x := State.pumpReqs gate key held s
      if x.2 then State.skipSeqs gate key fuel x.1 else x.1

/-- SEQUENCE_SKIP (R342): numbers that are missing are skipped, and every held request of the pair proceeds. The
operand is the pair's key, 8 × module + Gatehouse. -/
def execSequenceSkip (gate source : Nat) (s : State) : Host.Outcome State Fault Refusal :=
  .next (State.skipSeqs gate source (s.die gate).gate.heldReqs.length s)

/-! ### The requester -/

/-- The flow-deliver fault of a Pavilion whose cell another module refused, by what its requests carry (R321). -/
def State.undelivered (s : State) (die tok job : Nat) : State :=
  s.postFault die 0xC0 (tok % 2 ^ 7) job 0x83 (BitVec.ofNat 64 (tok / 2 ^ 7))

/-- A posted store acknowledged (R249, R264, R426): it is outstanding no longer, and a refusal is posted by the
Gatehouse, or of a Pavilion's delivery by the Pavilion, once for its cell (R321). -/
def State.ackStore (s : State) (x : SentReq) (status : Nat) : State :=
  let s := s.dropSent x.req.id
  let s := if (s.task? x.task).isSome then
      s.modTask x.task fun t => { t with remoteStores := t.remoteStores.filter fun i => !decide (i = x.req.id) }
    else s
  match replyTrap (BitVec.ofNat 64 x.req.pa) x.req status with
  | none => s
  | some t =>
    if x.task.core = pavCore ∧ t.cause ≠ 0x8B then
      (if x.req.pa % 128 = 0 then s.undelivered x.task.die (x.cmdTok.getD 0) x.req.job else s)
    else s.postFault x.gate 0xA7 0 x.req.job t.cause t.info

/-- Whether a store is of a task itself or of a Pavilion, which wait for no answer. -/
def SentReq.posted (x : SentReq) : Bool := decide (x.req.kind = 2) && (x.cmdTok.isNone || decide (x.task.core = pavCore))

/-- An answer to a request: a store that nothing waits for is acknowledged, every other answer waits for its bundle or
command (R264, R341). -/
def State.answerReq (s : State) (x : SentReq) (rep : RemoteRep) : State :=
  if x.posted then s.ackStore x rep.status
  else { s with sent := s.sent.map fun y => if y.req.id = x.req.id then { y with reply := some rep } else y }

/-- An unanswered request of a Gatehouse. -/
def State.openReq (s : State) (id : Nat) : Option SentReq :=
  s.sent.find? fun x => decide (x.req.id = id) && x.reply.isNone

/-- REPLY (R341): a busy reply counts as no answer (R265). -/
def execReply (gate : Nat) (r : RemoteRep) (s : State) : Host.Outcome State Fault Refusal :=
  .next (match s.openReq r.id with
    | some x => if x.gate = gate ∧ r.status ≠ 2 then s.answerReq x r else s
    | none => s)

/-- Sends of a request: the first and eight more (R265). -/
def sendsLimit : Nat := 9

/-- RETRANSMIT (R265). -/
def execRetransmit (id : Nat) (s : State) : Host.Outcome State Fault Refusal :=
  .next (match s.openReq id with
    | some x =>
      if x.sends < sendsLimit then
        let sent := s.sent.map fun y => if y.req.id = id then { y with sends := y.sends + 1 } else y
        { s with sent := sent }.transmit x.gate x.home x.req
      else s
    | none => s)

/-- REMOTE_TIMEOUT (R265): a request unanswered after its eighth resend is abandoned. -/
def execRemoteTimeout (id : Nat) (s : State) : Host.Outcome State Fault Refusal :=
  .next (match s.openReq id with
    | some x => if x.sends < sendsLimit then s else s.answerReq x { status := repAbandoned, id := id, time := 0, data := [] }
    | none => s)

end Sys2Proof.Machine
end

