-- ==== Sys2Proof/Machine/System.lean ====
section
/-!
DEFINITION. The lodge's operations on tasks and on the memory system: PRMPT, RESUME and TASK_HALT (R282 to
R285), TLBINV, GENBUMP, L2WB and DOMSET with their completions (R236 to R239).
-/

namespace Sys2Proof.Machine

/-! ### Operands and statuses -/

/-- The lodge task of a die. -/
def lodgeTask (die : Nat) : TaskRef := ⟨die, 96, 0⟩

/-- The system-operand trap of a slot at position k (Table 19.1). -/
def sysTrap (bad : Bool) (k : Nat) : Option Trap := trapIf bad ⟨0x0A, BitVec.ofNat 64 k⟩

/-- Whether a value is a target operand (Table 13.3); `all` and `remove` say which of the two bits the
instruction takes. -/
def targetOk (all remove : Bool) (v : W64) : Bool :=
  let n := v.toNat
  let core := n % 128
  decide (n < 2 ^ 11) && (all || !v.getLsbD 9) && (remove || !v.getLsbD 10)
    && (isCompute core || (isControl core && decide (n / 2 ^ 7 % 4 = 0)))

/-- The first of a task's outstanding operations. -/
def State.headHold (s : State) (r : TaskRef) : Option Hold := (s.task r).holds.head?

/-- A completion-latency operation of a task ends with a value for s_d: at once, or at resumption while the task
is halted (R284). -/
def State.settle (s : State) (r : TaskRef) (d : Nat) (v : W64) : State :=
  let s := s.dropHold r
  if (s.task r).halted then s.modTask r fun t => t.push 0 (.scalar d v) else s.modTask r fun t => t.setSreg d v

/-- The status of PRMPT for a named slot that does not halt through it (Table 13.4); none for one that is to
halt. -/
def State.prmptCode (s : State) (r : TaskRef) : Option Nat :=
  match s.task? r with
  | none => some 3
  | some t => if t.status = .ending then some 1 else if t.halted then some 2 else none

/-- The least of some statuses; 3 where there is none. -/
def leastStatus (l : List Nat) : Nat := l.foldl min 3

/-! ### PRMPT, RESUME, TASK_HALT -/

/-- PRMPT: the named tasks are to halt; its status comes when they have (R282, R285). -/
def semPrmpt (g : Guard) (a c : BitVec 5) : SlotSem :=
  { guard := g
    place := .lodge
    trap := fun k s0 => sysTrap (!targetOk true false (s0.sreg a)) k
    eff := fun s0 s =>
      let l := targetTasks s0.cur.die (s0.sreg a)
      let p := l.filter fun r => (s0.prmptCode r).isNone
      let s := p.foldl (fun s r => s.modTask r fun t => { t with preempt := true }) s
      s.holdOn (.prmpt c.toNat (s0.sreg a) (p.map TaskRef.slot) (leastStatus (l.filterMap s0.prmptCode))) }

/-- Whether a slot that PRMPT named has halted or ended. -/
def State.prmptDone (s : State) (r : TaskRef) : Bool :=
  match s.task? r with
  | none => true
  | some t => t.halted || decide (t.status = .ending)

/-- What became of a slot that PRMPT named: its task has ended, was found halted by its own trap, or has halted (R283,
R285). -/
def State.prmptEnd (s : State) (r : TaskRef) : Nat :=
  match s.task? r with
  | none => 1
  | some t => if t.status = .ending then 1 else if t.trapped.isSome then 2 else 0

/-- The status of a PRMPT whose pending tasks have all halted or ended: the least of the named slots'. -/
def State.prmptStatus (s : State) (l : List TaskRef) (others : Nat) : Nat := leastStatus (others :: l.map s.prmptEnd)

/-- A PRMPT of a lodge whose tasks have all halted or ended completes. -/
def State.servePrmpt (s : State) (r : TaskRef) (d : Nat) (target : W64) (pending : List Nat) (others : Nat) : State :=
  let l := pending.map fun k => (⟨r.die, target.toNat % 128, k⟩ : TaskRef)
  if l.all s.prmptDone then s.settle r d (BitVec.ofNat 64 (s.prmptStatus l others)) else s

/-- A halted task made ready again, or waiting as its wait state says; results that arrived while it was halted
are delivered (R284, R285). Its stopped commands go on, and it runs outside any region (R206). After a fatal stop nothing resumes (R389). -/
def State.resumeTask (s : State) (r : TaskRef) : State :=
  if s.fatal.isSome then s else
  let due := (s.task r).pend.filter fun p => decide (p.left = 0)
  let s := s.modTask r fun t =>
    { t with halted := false, stopped := false, trapped := none, pend := t.pend.filter fun p => !decide (p.left = 0) }
  due.foldl (State.landOne r) (s.modCore r.coreRef fun c => { c with regions := Tbl.erase c.regions r.slot })

/-- The status of RESUME for a named slot; free for a task that an uncorrectable error has stopped, which stays halted
(Table 19.4): DESIGN CHOICE, notes/assumptions/128. -/
def State.resumeCode (s : State) (r : TaskRef) : Nat :=
  match s.task? r with
  | none => 3
  | some t => if t.status = .ending then 1 else if t.broken then Config.freePick s.freeCtr % 4 else if t.halted then 0 else 2

/-- RESUME (R285). -/
def semResume (g : Guard) (a c : BitVec 5) : SlotSem :=
  { guard := g
    place := .lodge
    trap := fun k s0 => sysTrap (!targetOk true false (s0.sreg a)) k
    eff := fun s0 s =>
      let l := targetTasks s0.cur.die (s0.sreg a)
      let s := (l.filter fun r => decide (s0.resumeCode r = 0) && !(s0.task r).broken).foldl State.resumeTask s
      (if l.any fun r => (s0.task r).broken then s.tookFree else s).push 1
        (.scalar c.toNat (BitVec.ofNat 64 (leastStatus (l.map s0.resumeCode)))) }

/-- TASK_HALT: a task with a pending pre-emption halts; between its bundles it stands at a boundary (R282). -/
def execTaskHalt (t : TaskRef) (s : State) : Host.Outcome State Fault Refusal :=
  .next (s.preemptAt t)

/-- Outstanding operations at the head of a task's list that have nothing left to wait for complete: fences and
pre-emptions; `fuel` bounds them. -/
def State.serveHolds (r : TaskRef) : Nat → State → State
  | 0, s => s
  | fuel + 1, s =>
    match s.headHold r with
    | some (.fence scope ro bar floor) =>
      if (s.task r).fenceReady scope then State.serveHolds r fuel ((s.fenceDone r ro bar floor).dropHold r) else s
    | some (.prmpt d target pending others) =>
      let s' := s.servePrmpt r d target pending others
      if (s'.task r).holds.length < (s.task r).holds.length then State.serveHolds r fuel s' else s
    | _ => s

/-! ### TLBINV (R236) -/

/-- Bytes of a page of 2 MiB. -/
def mib2 : Nat := 2 ^ 21

/-- TLBINV. -/
def semTlbinv (g : Guard) (a b c : BitVec 5) : SlotSem :=
  { guard := g
    place := .lodge
    trap := fun k s0 =>
      let x := (s0.sreg a).toNat
      sysTrap (decide (x % mib2 ≠ 0) || decide (2 ^ 56 ≤ x) || decide ((s0.sreg b).toNat % mib2 ≠ 0)
        || decide (2 ^ 13 ≤ (s0.sreg c).toNat)) k
    eff := fun s0 s => s.holdOn (.tlbinv (s0.sreg a) (s0.sreg b) (s0.sreg c)) }

/-- A range of translations: the job, or every job, and the virtual bytes from `lo` up to and without `hi`. -/
structure VaRange where
  job : Option Nat
  lo : Nat
  hi : Nat
  deriving DecidableEq, Repr

/-- The range that TLBINV's operands name. -/
def vaRange (base len jobs : W64) : VaRange :=
  { job := if jobs.getLsbD 12 then none else some (jobs.toNat % 2 ^ 12)
    lo := if len = 0 then 0 else base.toNat
    hi := if len = 0 then 2 ^ 56 else base.toNat + len.toNat }

/-- Whether a range takes in a job. -/
def VaRange.ofJob (x : VaRange) (job : Nat) : Bool := match x.job with
  | none => true
  | some j => decide (j = job)

/-- Whether a range meets n bytes of a job from an address. -/
def VaRange.meets (x : VaRange) (job va n : Nat) : Bool :=
  x.ofJob job && decide (va < x.hi) && decide (x.lo < va + n)

/-- Whether a range meets a cached translation. -/
def VaRange.hits (x : VaRange) (e : TlbEntry) : Bool :=
  let k := if e.big then 31 else 21
  x.meets e.job (e.page * 2 ^ k) (2 ^ k)

/-- A core loses its translations and its L1 lines of a range; dirty lines are written back (R236). -/
def State.invalidateCore (x : VaRange) (s : State) (c : CoreRef) : State :=
  let old := (s.core c).l1.filter fun l => x.meets l.job (l.va.toNat / 128 * 128) 128
  let s := old.foldl (fun s l => s.writeBack c l) s
  s.modCore c fun k =>
    { k with
      tlb := k.tlb.filter fun e => !x.hits e
      l1 := k.l1.filter fun l => !x.meets l.job (l.va.toNat / 128 * 128) 128
      l1req := k.l1req.filter fun q => !x.meets q.job (q.va.toNat / 128 * 128) 128 }

/-- Every cache of the module loses the translations of a range, every core its lines (R236). -/
def State.invalidate (s : State) (x : VaRange) : State :=
  let s := s.coreRefs.foldl (State.invalidateCore x) s
  (List.range 8).foldl (fun s d => s.modDie d fun k => { k with tlb := k.tlb.filter fun e => !x.hits e }) s

/-- Whether an outstanding operation is an access of a range that has not completed. -/
def Hold.within (x : VaRange) (job : Nat) (h : Hold) : Bool :=
  match h with
  | .atomic a => a.result.isNone && x.meets job a.va.toNat a.width
  | .remote _ a => x.meets job a.va.toNat a.width
  | _ => false

/-- Whether a copy of a job that a range takes in has places found for its cell under way in the range, or bytes that its
homes have not taken yet: those it may have translated there (R236, R425). -/
def Cmd.translated (x : VaRange) (c : Cmd) : Bool :=
  (c.spots.any fun y => x.meets c.job y.1.toNat 1)
    || (x.ofJob c.job && decide (c.stores ≠ []) && decide ((c.fields.get 0 1).toNat / 2 ^ 62 = 0))

/-- Whether an access that may have been translated in a range is outstanding: an atomic of the range, an element of a
copy, or a request to another module of a job the range takes in (R236). -/
def State.outstanding (s : State) (x : VaRange) : Bool :=
  (s.residents.any fun r => (s.task r).holds.any fun h => h.within x (s.task r).job)
    || (s.sent.any fun q => x.ofJob q.req.job && q.reply.isNone)
    || s.cores.any fun e => e.2.cmds.any fun c => c.2.any (Cmd.translated x)

/-- TLBINV_ACK: the range is invalidated, and acknowledged once no access translated through it is outstanding
(R236). -/
def execTlbinvAck (die : Nat) (s : State) : Host.Outcome State Fault Refusal :=
  .next (match s.headHold (lodgeTask die) with
    | some (.tlbinv base len jobs) =>
      let x := vaRange base len jobs
      let s := s.invalidate x
      if s.outstanding x then s else s.dropHold (lodgeTask die)
    | _ => s)

/-! ### GENBUMP (R237) -/

/-- GENBUMP. -/
def semGenbump (g : Guard) (a b : BitVec 5) : SlotSem :=
  { guard := g
    place := .lodge
    trap := fun k s0 =>
      let x := (s0.sreg a).toNat
      let n := (s0.sreg b).toNat
      sysTrap (decide (x % mib2 ≠ 0) || decide (n = 0) || decide (2 ^ 19 < n) || decide (hbmSize < x + n * mib2)) k
    eff := fun s0 s => s.holdOn (.genbump (s0.sreg a) (s0.sreg b)) }

/-- The generations of n frames from frame f on advanced (R233, R237). -/
def bumpFrames (f : Nat) : Nat → Tbl (BitVec 4) → Tbl (BitVec 4)
  | 0, t => t
  | n + 1, t => Tbl.set 0 (bumpFrames f n t) (f + n) ((bumpFrames f n t).get 0 (f + n) + 1)

/-- GENBUMP_DONE: every frame's generation advances by 1 modulo 16 (R237). Its L2 lines are written back, which
changes no value (R238). -/
def execGenbumpDone (die : Nat) (s : State) : Host.Outcome State Fault Refusal :=
  .next (match s.headHold (lodgeTask die) with
    | some (.genbump frame count) =>
      { s with gens := bumpFrames (frame.toNat / mib2) count.toNat s.gens }.dropHold (lodgeTask die)
    | _ => s)

/-! ### L2WB (R238) -/

/-- L2WB: m is 0 or 1. -/
def semL2wb (g : Guard) (a b c : BitVec 5) : SlotSem :=
  { guard := g
    place := .lodge
    illegal := fun _ => decide (2 ≤ c.toNat)
    trap := fun k s0 =>
      let x := (s0.sreg a).toNat
      let n := (s0.sreg b).toNat
      sysTrap (decide (x % 128 ≠ 0) || decide (n % 128 ≠ 0) || decide (hbmSize < x + n)) k
    eff := fun s0 s => s.holdOn (.l2wb (s0.sreg a) (s0.sreg b) (decide (c = 1))) }

/-- L2WB_DONE: no value that an agent sees changes (R238). -/
def execL2wbDone (die : Nat) (s : State) : Host.Outcome State Fault Refusal :=
  .next (match s.headHold (lodgeTask die) with
    | some (.l2wb _ _ _) => s.dropHold (lodgeTask die)
    | _ => s)

/-! ### DOMSET (R239) -/

/-- DOMSET: BUSY is set while it runs. -/
def semDomset (g : Guard) (a : BitVec 5) : SlotSem :=
  { guard := g
    place := .lodge
    trap := fun k s0 =>
      let v := (s0.sreg a).toNat
      let logn := v / 16
      sysTrap (decide (128 ≤ v) || decide (4 < logn) || decide (v % 16 % 2 ^ logn ≠ 0)) k
    eff := fun s0 s => (s.modDie s0.cur.die fun d => { d with l2busy := true }).holdOn (.domset (s0.sreg a)) }

/-- Base of the direct window of slice k of a die (Table 1.6). -/
def sliceBase (die k : Nat) : Nat := dieBase die + 0x900000000 + k * 0x4000000

/-- Memory with a range of addresses zero. -/
def Memory.clear (m : Memory) (lo n : Nat) : Memory := m.filter fun e => !(decide (lo ≤ e.1) && decide (e.1 < lo + n))

/-- The direct contents of the slices that leave or join a die's domain are zero. -/
def State.clearSlices (s : State) (die : Nat) (old new : Die) : State :=
  let clear := fun (m : Memory) (k : Nat) =>
    if old.inDomain k = new.inDomain k then m else m.clear (sliceBase die k) 0x4000000
  { s with mem := (List.range 16).foldl clear s.mem }

/-- DOMSET_DONE: the die takes the domain; slices that leave it read zero, and BUSY clears (R229, R239). -/
def execDomsetDone (die : Nat) (s : State) : Host.Outcome State Fault Refusal :=
  .next (match s.headHold (lodgeTask die) with
    | some (.domset v) =>
      let old := s.die die
      let new := { old with l2first := v.toNat % 16, l2logn := v.toNat / 16 % 8, l2busy := false }
      ((s.clearSlices die old new).modDie die fun _ => new).dropHold (lodgeTask die)
    | _ => s)

/-! ### The instructions as steps -/

/-- prmpt as a step: the issuing task issues the slot. -/
def execPrmpt (g : Guard) (a c : BitVec 5) (s : State) : Host.Outcome State Fault Refusal :=
  issueSlot (semPrmpt g a c) s

/-- resume as a step: the issuing task issues the slot. -/
def execResume (g : Guard) (a c : BitVec 5) (s : State) : Host.Outcome State Fault Refusal :=
  issueSlot (semResume g a c) s

/-- tlbinv as a step: the issuing task issues the slot. -/
def execTlbinv (g : Guard) (a b c : BitVec 5) (s : State) : Host.Outcome State Fault Refusal :=
  issueSlot (semTlbinv g a b c) s

/-- genbump as a step: the issuing task issues the slot. -/
def execGenbump (g : Guard) (a b : BitVec 5) (s : State) : Host.Outcome State Fault Refusal :=
  issueSlot (semGenbump g a b) s

/-- l2wb as a step: the issuing task issues the slot. -/
def execL2wb (g : Guard) (a b c : BitVec 5) (s : State) : Host.Outcome State Fault Refusal :=
  issueSlot (semL2wb g a b c) s

/-- domset as a step: the issuing task issues the slot. -/
def execDomset (g : Guard) (a : BitVec 5) (s : State) : Host.Outcome State Fault Refusal :=
  issueSlot (semDomset g a) s

end Sys2Proof.Machine
end

