-- ==== Sys2Proof/Machine/Flows.lean ====
section
/-!
DEFINITION. The flow instructions FBIND, FSEND, FPUT, FDRAIN, FSTAT and FTAKE (R327 to R329), NPLOAD with its
completion (R330), and LKEY (R356).
-/

namespace Sys2Proof.Machine

/-! ### FBIND, FDRAIN, FSTAT -/

/-- Queue Q of the issuing task. -/
def State.myQueue (s : State) (q : BitVec 1) : InQueue := s.me.queue q.toNat

/-- Queue Q of the issuing task replaced. -/
def State.putQueue (s : State) (q : BitVec 1) (x : InQueue) : State := s.modMe fun t => t.setQueue q.toNat x

/-- FBIND (R327). -/
def semFbind (g : Guard) (x : BitVec 5) (q : BitVec 1) : SlotSem :=
  { guard := g
    trap := fun _ s0 =>
      let v := (s0.sreg x).toNat
      firstTrap
        [trapIf (decide (2 ^ 32 ≤ v) || (!bitOf v 31 && reservedFlow (v % 2 ^ 20))) ⟨0x80, s0.sreg x⟩,
         trapIf (decide ((s0.myQueue q).cells ≠ [])) ⟨0x81, zext q⟩]
    eff := fun s0 s =>
      let v := (s0.sreg x).toNat
      let y := s.myQueue q
      s.putQueue q (if bitOf v 31 then { y with bound := false }
        else { y with bound := true, flow := v % 2 ^ 20, nextblock := v / 2 ^ 20 % 2048 }) }

/-- Cells of the block d blocks after a queue's next one. -/
def InQueue.blockCells (q : InQueue) (d : Nat) : Nat := (q.cells.filter fun c => decide (q.distance c.cidx = d)).length

/-- Complete blocks of a queue. -/
def InQueue.completeBlocks (q : InQueue) : Nat := ((List.range 4).filter fun d => decide (q.blockCells d = 32)).length

/-- A queue with its cells discarded: the next block is one past the highest held (R327). -/
def InQueue.drained (q : InQueue) : InQueue :=
  if q.cells = [] then q
  else { q with cells := [], nextblock := (q.nextblock + (q.cells.map fun c => q.distance c.cidx).foldl max 0 + 1) % 2048 }

/-- FDRAIN, latency 1 (R327). -/
def semFdrain (g : Guard) (x : BitVec 5) (q : BitVec 1) : SlotSem :=
  { guard := g
    eff := fun s0 s =>
      (s.putQueue q (s.myQueue q).drained).push 1 (.scalar x.toNat (BitVec.ofNat 64 (s0.myQueue q).completeBlocks)) }

/-- The word FSTAT writes (R327). -/
def InQueue.status (q : InQueue) : W64 :=
  BitVec.ofNat 64 (q.completeBlocks + q.blockCells 0 * 2 ^ 3 + bitAt q.bound 9 + q.flow % 2 ^ 20 * 2 ^ 10
    + q.nextblock % 2 ^ 11 * 2 ^ 30 + min q.drops (2 ^ 23 - 1) * 2 ^ 41)

/-- FSTAT, latency 1 (R327). -/
def semFstat (g : Guard) (x : BitVec 5) (q : BitVec 1) : SlotSem :=
  { guard := g
    eff := fun s0 s => s.push 1 (.scalar x.toNat (s0.myQueue q).status) }

/-! ### FSEND, FPUT -/

/-- The traps of a send at a slot position: in a region (R207), and for its operand (R327). -/
def sendTrap (k : Nat) (v : W64) (s : State) : Option Trap :=
  firstTrap [regionTrap k s, trapIf (decide (2 ^ 52 ≤ v.toNat) || reservedFlow (v.toNat % 2 ^ 20)) ⟨0x80, v⟩]

/-- Cell n of a send with operand v (R327, R328). -/
def sendCellOf (job : Nat) (v : W64) (n : Nat) (payload : List Byte) : Cell :=
  { typ := 0, flow := v.toNat % 2 ^ 20, job := job, rank := v.toNat / 2 ^ 20 % 2 ^ 16,
    cidx := (v.toNat / 2 ^ 36 % 2 ^ 16 + n) % 2 ^ 16, psn := false, circ := false, payload := payload }

/-- A send of n cells stalls while the core's send buffer has no room for them (R328). -/
def sendWait (n : Nat) (s0 s : State) : Option State := if sendLimit < s0.here.sendBuf.length + n then some s else none

/-- FSEND: vf as 32 cells in ascending order (R328). -/
def semFsend (g : Guard) (x f : BitVec 5) : SlotSem :=
  { guard := g
    vsrc := [f.toNat]
    trap := fun k s0 => sendTrap k (s0.sreg x) s0
    wait := sendWait 32
    eff := fun s0 s =>
      let v := s0.vreg f.toNat
      let cells := (List.range 32).map fun n =>
        sendCellOf s0.jobid.toNat (s0.sreg x) n (bytesOf ((List.range 32).map fun i => v.cell (32 * n + i)))
      s.modHere fun c => { c with sendBuf := c.sendBuf ++ cells } }

/-- FPUT: one cell that carries s_f (R327). -/
def semFput (g : Guard) (x f : BitVec 5) : SlotSem :=
  { guard := g
    trap := fun k s0 => sendTrap k (s0.sreg x) s0
    wait := sendWait 1
    eff := fun s0 s =>
      let c := sendCellOf s0.jobid.toNat (s0.sreg x) 0 (padTo 128 (leBytes 8 (s0.sreg f).toNat))
      s.modHere fun k => { k with sendBuf := k.sendBuf ++ [c] } }

/-! ### FTAKE (R329) -/

/-- A stray cell as a register: row 0 the payload, row 1 the tag. -/
def strayVreg (c : Cell) : VReg :=
  let p := wordsOf (padTo 128 c.payload)
  let t := wordsOf (cellTag c 0 0 false)
  VReg.ofFn fun e => if e < 32 then p.getD e 0 else if 64 ≤ e ∧ e < 68 then t.getD (e - 64) 0 else 0

/-- FTAKE, latency 2. -/
def semFtake (g : Guard) (x f : BitVec 5) : SlotSem :=
  { guard := g
    place := .lodge
    vdst := some f.toNat
    trap := regionTrap
    eff := fun s0 s =>
      match (s0.die s0.cur.die).stray with
      | [] => s.push 2 (.scalar x.toNat 0)
      | c :: _ =>
        ((s.modDie s0.cur.die fun d => { d with stray := d.stray.drop 1 }).push 2 (.scalar x.toNat 1)).push 2
          (.vec (s0.me.vpos f.toNat) (BitVec.allOnes 1024) (strayVreg c)) }

/-! ### A lodge's physical reads (R253) -/

/-- Key of a lodge's form-01 accesses (R405, Table 20.6). -/
def State.lodgeKey (s : State) (die : Nat) : Nat :=
  let p := (s.die die).lodge.pkey.toNat
  if p = 0 then fwKey else jobKey p

/-- The lodge of a die as the agent of its form-01 accesses. -/
def State.lodgeAgent (s : State) (die : Nat) : Agent :=
  let p := (s.die die).lodge.pkey.toNat
  { task := lodgeTask die, tok := lodgeTok, pos := 0, writer := ⟨die, 96, 0, p, noLidx, true⟩, job := p, key := s.lodgeKey die }

/-- The time of a lodge's position raised to its task's, before an ordered access (R253). -/
def State.lodgeTime (s : State) (die : Nat) : State := s.raiseAgent die 0 (s.task (lodgeTask die)).time

/-- The lodge task's time raised to its position's, after an ordered access (R253). -/
def State.lodgeSees (s : State) (die : Nat) : State :=
  if (s.task? (lodgeTask die)).isSome then s.modTask (lodgeTask die) fun t => t.observe (s.agentTime die 0) else s

/-- The bytes of 64-byte units of another module, read by an agent from an aligned address (R341). -/
def State.farUnits (s : State) (g : Agent) (pa : Nat) : Nat → State × Got
  | 0 => (s, .bytes [])
  | k + 1 =>
    let x := s.farPart g (BitVec.ofNat 64 pa) pa 0 true 64
    let y := x.1.farUnits g (pa + 64) k
    (y.1, x.2.join y.2)

/-- The fault of a module that is not present (R20). -/
def State.unreachable (s : State) (die m : Nat) : Trap :=
  ⟨0x8A, BitVec.ofNat 64 (requestId s.module.toNat die (s.nextSeq die m))⟩

/-- What a read came to, cut to n bytes from an offset. -/
def Got.cut (o n : Nat) (g : Got) : Got :=
  match g with
  | .bytes b => .bytes ((b.drop o).take n)
  | _ => g

/-- Bytes at a form-01 address read by the lodge of a die: HBM of this module at its homes as an ordered access (R253),
a window (R24), another module through the Gatehouse (R20); a refusal names the address (R21). -/
def State.lodgeRead (s : State) (die : Nat) (a : W64) (n : Nat) : State × Got :=
  let pa := addrOff a
  let o := paOffset pa
  let g := s.lodgeAgent die
  if paModule pa ≠ s.module.toNat then
    (if s.isPresent die (paModule pa) then
      let x := (s.lodgeTime die).farUnits g (pa / 64 * 64) ((pa % 64 + n + 63) / 64)
      (x.1, x.2.cut (pa % 64) n)
    else (s, .failed (s.unreachable die (paModule pa))))
  else if o + n ≤ hbmSize then
    (if s.runHeld o n false then (s, .waits)
    else
      let x := (s.lodgeTime die).homeLoad die 0 o n g.key
      (x.1.lodgeSees die, gotOf x.2))
  else if s.sliceHeld o then (s, .waits)
  else (s, gotOf (s.physRead o n g.key))

/-- The store time of R244 for the lines an agent of a die writes, taken line by line; the lines take theirs. -/
def State.storeTimes (s : State) (die pos : Nat) (lines : List Nat) : State :=
  lines.foldl
    (fun s l =>
      let m := s.lineMeta l
      let t := tmax (s.agentTime die pos) (tmax (m.wts + 1) (m.rts + 1))
      (s.modLine l fun m => { m with wts := t, rts := t }).raiseAgent die pos t) s

/-- Posted stores of a lodge to another module, in aligned units of at most 64 bytes (R264, R341); `fuel` bounds them. -/
def State.farPosts (s : State) (die job pa : Nat) (b : List Byte) : Nat → State
  | 0 => s
  | fuel + 1 =>
    if b = [] then s
    else
      let n := if 64 ≤ b.length then 64 else 2 ^ Nat.log2 b.length
      let r := lodgeTask die
      let x := s.sendReq r none (paModule pa)
        { storeReq job pa 0 (s.agentTime die 0).toNat (b.take n) with phys := true }
      let s := if (x.1.task? r).isSome then x.1.modTask r fun t => { t with remoteStores := t.remoteStores ++ [x.2] } else x.1
      s.farPosts die job (pa + n) (b.drop n) fuel

/-- Bytes written by the lodge of a die at a form-01 address, 64-byte aligned, under the key of a job or of the firmware for
job 0: HBM of this module as an ordered access at its position (R253, R244, R248), a window (R24), another module through
the Gatehouse (R20). -/
def State.lodgeStore (s : State) (die job : Nat) (a : W64) (b : List Byte) : State × Put :=
  let pa := addrOff a
  let o := paOffset pa
  let key := if job = 0 then fwKey else jobKey job
  if paModule pa ≠ s.module.toNat then
    (if s.isPresent die (paModule pa) then ((s.lodgeTime die).farPosts die job pa b b.length, .wrote [])
    else (s, .failed (s.unreachable die (paModule pa))))
  else if o + b.length ≤ hbmSize then
    (if s.runHeld o b.length true then (s, .waits)
    else if !s.hasKey key then (s, .failed ⟨0x64, BitVec.ofNat 64 pa⟩)
    else
      let lines := linesOf o b.length
      let s := (((s.lodgeTime die).storeHbm o key b).storeTimes die 0 lines).lodgeSees die
      (s.mark ⟨die, 96⟩ (s.agentTime die 0), .wrote lines))
  else if s.sliceHeld o then (s, .waits)
  else
    let x := s.physWrite (s.lodgeAgent die).writer key o b
    (x.1, match x.2 with
      | some t => .failed t
      | none => .wrote [])

/-- The requests that a lodge's operation sent for its reads, forgotten: it has completed or trapped. -/
def State.lodgeRest (s : State) (die : Nat) : State := s.dropFar (lodgeTask die) lodgeTok

/-- The record of a refused access of an operation of a lodge (R20, R21). -/
def State.postUnread (s : State) (die : Nat) (t : Trap) : State :=
  s.postFault die 96 0 (s.task (lodgeTask die)).job t.cause t.info

/-- Whether a value is a form-01 address (R217). -/
def isForm01 (v : W64) : Bool := decide (addrForm v = 1) && decide (addrOff v < 2 ^ formWidth 1)

/-! ### NPLOAD (R330) -/

/-- NPLOAD. -/
def semNpload (g : Guard) (a b c : BitVec 5) : SlotSem :=
  { guard := g
    place := .lodge
    trap := fun k s0 => sysTrap (!isForm01 (s0.sreg a) || decide (2 ^ 44 ≤ (s0.sreg b).toNat)) k
    eff := fun s0 s => s.holdOn (.npload c.toNat (s0.sreg a) (s0.sreg b)) }

/-- Whether a local delivery's fields keep Tables 15.3 and 15.4 at a router. -/
def FlowEntry.localOk (e : FlowEntry) (router : Nat) : Bool :=
  let p := e.param.toNat
  let core := decide (12 ≤ router) && decide (router < 108)
  match e.lkind with
  | 0 => (core || (decide (router = lodgeRouter) && decide (e.lslot < 2))) && decide (e.tt = 0) && decide (p = 0)
  | 1 =>
    ((core && decide (e.tt < 64)) || (decide (router = lodgeRouter) && decide (e.lslot < 2))) && decide (e.lq = 0)
      && decide (p < 2 ^ 22)
  | 2 => decide (e.lslot = 0) && decide (e.lq = 0) && decide (e.tt = 0) && decide (p < 2 ^ 56) && decide (p % 128 = 0)
  | _ => false

/-- Whether the fields of a valid entry keep Tables 15.3 and 15.4 and R315 at a router, for a job. -/
def FlowEntry.fieldsOk (e : FlowEntry) (job router : Nat) : Bool :=
  let fold := decide (e.action = 1) || decide (e.action = 4)
  let loc := decide (e.action = 6) || (decide (e.action = 2) && bitOf e.fan 4)
  let next := decide (e.action ≠ 2) && decide (e.action ≠ 6)
  decide (e.action ≠ 7) && decide (e.reserved = 0) && decide (e.job = job) && decide (0 < e.ccount)
    && (next || decide (e.next = 0))
    && (decide (e.action ≠ 6) || (!e.rename && decide (e.outflow = 0)))
    && (decide (e.action = 2) || decide (e.fan = 0))
    && (fold || (decide (e.cop = 0) && !e.ord && !e.sat && !e.rz && decide (e.w = 0)))
    && (fold || decide (e.action = 5) || decide (e.count = 0))
    && (fold || decide (e.action = 5) || decide (e.action = 3) || decide (e.aslot = 0))
    && (decide (e.action = 3) || decide (e.holdn = 0))
    && (if loc then e.localOk router
        else decide (e.lslot = 0) && decide (e.lq = 0) && decide (e.lkind = 0) && decide (e.tt = 0)
          && (if fold then decide (e.param.toNat < 2 ^ 16) else decide (e.param = 0)))
    && (!fold || (decide (e.cop ≤ 3) && decide (0 < e.w) && decide (0 < e.count)
        && (e.ord || (decide (e.action = 1) && decide (e.cop = 0))) && (!e.sat || decide (e.cop = 3))
        && (!e.rz || decide (e.cop = 0))))
    && (decide (e.action ≠ 3) || decide (0 < e.holdn))
    && (decide (e.action ≠ 5) || (decide (0 < e.count) && decide (e.count ≤ 32)))
    && (!next || (decide (e.next ≤ 5) && (decide (e.next ≠ 4) || (e.rename && decide (e.outflow ≠ e.flow)))))

/-- Whether every port an entry sends to has a neighbour, and no flow it names is reserved (Table 15.6). -/
def FlowEntry.portsOk (e : FlowEntry) (router : Nat) : Bool :=
  (if e.action = 2 then (List.range 6).all fun p => !bitOf e.fan p || hasPort router p
   else decide (e.action = 6) || hasPort router e.next)
    && !reservedFlow e.flow && !(e.rename && reservedFlow e.outflow)

/-- Whether an entry slot has a round, hold or transpose in progress. -/
def Pavilion.inProgress (p : Pavilion) (n : Nat) : Bool :=
  (p.rounds.any fun x => decide (x.1 / 4096 = n)) || decide (p.held.get [] n ≠ [])

/-- Whether two runs overlap. -/
def runsMeet (a n b m : Nat) : Bool := decide (a < b + m) && decide (b < a + n) && decide (0 < n) && decide (0 < m)

/-- The status of a record for an entry slot of a Pavilion (Table 15.6), the first code that applies. -/
def Pavilion.recordStatus (p : Pavilion) (router job n : Nat) (e : FlowEntry) : Nat :=
  let old := p.entry n
  let others := p.entries.filter fun x => x.2.v && !decide (x.1 = n)
  if e.v then
    if !e.fieldsOk job router then 1
    else if !e.portsOk router then 2
    else if old.v ∧ old.job ≠ job then 3
    else if 2048 < e.aslot + e.slots ∨ (others.any fun x => runsMeet e.aslot e.slots x.2.aslot x.2.slots) = true then 4
    else if others.any fun x => decide (x.2.flow = e.flow) && decide (x.2.job = e.job)
        && runsMeet e.cfirst e.ccount x.2.cfirst x.2.ccount then 5
    else if old.v && p.inProgress n then 6
    else 0
  else if e ≠ { FlowEntry.empty with job := job } then 1
  else if old.v ∧ old.job ≠ job then 3
  else if old.v && p.inProgress n then 6
  else 0

/-- An entry put into its slot, its footprint zeroed; or the slot emptied (R330). -/
def State.installEntry (s : State) (die router n : Nat) (e : FlowEntry) : State :=
  if e.v then
    let s := s.modPav die router fun p => { p with entries := Tbl.set FlowEntry.empty p.entries n e }
    { s with mem := s.mem.clear (accSlot die router e.aslot) (128 * e.slots) }
  else s.modPav die router fun p => { p with entries := Tbl.erase p.entries n }

/-- Whether a record's header is within its ranges (Table 15.6, status 7). -/
def recordHeadOk (b : List Byte) : Bool :=
  let f := fun off n => leNat ((b.drop off).take n)
  decide (b.length = 40) && decide (f 0 1 < 8) && decide (f 1 1 < 10) && decide (f 2 1 < 12) && decide (f 3 1 = 0)
    && decide (f 4 2 < 512) && decide (f 6 2 = 0)

/-- A record judged and, where it is of the die, installed; or its status. -/
def State.installRecord (s : State) (die job : Nat) (b : List Byte) : Except Nat State :=
  let f := fun off n => leNat ((b.drop off).take n)
  if !recordHeadOk b then .error 7
  else if f 0 1 ≠ die then .ok s
  else
    let router := routerAt (f 1 1) (f 2 1)
    let e := FlowEntry.ofBits (leNat (b.drop 8))
    let st := ((s.die die).pav router).recordStatus router job (f 4 2) e
    if st ≠ 0 then .error st else .ok (s.installEntry die router (f 4 2) e)

/-- Whether bytes at a form-01 address lie wholly in memory of this module (R330). -/
def State.ownImage (s : State) (a : W64) : Bool := decide (paModule (addrOff a) = s.module.toNat)

/-- The records of an image read one after another, from the i-th: the state that took the reads' times, and the records up
to one that cannot be read, with what its read came to. -/
def State.readRecords (die : Nat) (a : W64) : Nat → Nat → State → State × List (List Byte) × Option Got
  | 0, _, s => (s, [], none)
  | fuel + 1, i, s =>
    let b := a + BitVec.ofNat 64 (40 * i)
    if s.ownImage b = false then (s, [], some (.failed ⟨0, 0⟩))
    else
      let x := s.lodgeRead die b 40
      match x.2 with
      | .bytes r =>
        let y := State.readRecords die a fuel (i + 1) x.1
        (y.1, r :: y.2.1, y.2.2)
      | g => (x.1, [], some g)

/-- Records judged one after another and installed; or the status of the first refused and its index. -/
def State.installAll (die job : Nat) : List (List Byte) → Nat → State → Except (Nat × Nat) State
  | [], _, s => .ok s
  | b :: l, i, s =>
    match s.installRecord die job b with
    | .error st => .error (st, i)
    | .ok s' => State.installAll die job l (i + 1) s'

/-- Every entry of a job on a die removed (R330). -/
def Pavilion.dropJob (job : Nat) (p : Pavilion) : Pavilion :=
  let gone := (p.entries.filter fun x => decide (x.2.job = job)).map Prod.fst
  { p with
    entries := p.entries.filter fun x => !gone.contains x.1
    rounds := p.rounds.filter fun x => !gone.contains (x.1 / 4096)
    held := p.held.filter fun x => !gone.contains x.1 }

/-- NPLOAD of an image at its completion (R330): the reads stand, the records are installed all or none. The result is the
state, the status and the index of the record it names; none while a read waits. -/
def State.installImage (s : State) (die job len : Nat) (a : W64) : Option (State × Nat × Nat) :=
  let x := State.readRecords die a (len / 40) 0 s
  if x.2.2 = some .waits then none
  else match State.installAll die job x.2.1 0 x.1 with
    | .error e => some (x.1, e.1, e.2)
    | .ok s' =>
      match x.2.2 with
      | some (.failed t) => some (if t.cause = 0x64 then x.1.postUnread die t else x.1, 7, x.2.1.length)
      | _ => if len % 40 ≠ 0 then some (x.1, 7, len / 40) else some (s'.extendJob job x.2.1.flatten, 0, 0)

/-- NPLOAD at its completion: the state, the status and the index of the record it names; a job whose image is installed
extends its measurement by it (R401). None while a read waits. -/
def State.nploadRun (s : State) (die : Nat) (a b : W64) : Option (State × Nat × Nat) :=
  let len := b.toNat % 2 ^ 32
  let job := b.toNat / 2 ^ 32 % 2 ^ 12
  if len = 0 then
    some ((s.modDie die fun d => { d with pavs := d.pavs.mapDrop Pavilion.reset (Pavilion.dropJob job) }).extendJob job [], 0, 0)
  else s.installImage die job len a

/-- NPLOAD_DONE (R330). -/
def execNploadDone (die : Nat) (s : State) : Host.Outcome State Fault Refusal :=
  .next (match s.headHold (lodgeTask die) with
    | some (.npload d a b) =>
      (match s.nploadRun die a b with
        | some x => x.1.settle (lodgeTask die) d (BitVec.ofNat 64 (x.2.1 + x.2.2 * 2 ^ 8))
        | none => s)
    | _ => s)

/-! ### LKEY (R356) -/

/-- The key record that LKEY installs, and the state that its read leaves (R253). -/
def State.keyRecord (s : State) (a : W64) : State × Got := s.lodgeRead s.cur.die a 64

/-- The trap of a lodge's read at issue (R21, R20). -/
def Got.trap (g : Got) : Option Trap :=
  match g with
  | .failed t => some t
  | _ => none

/-- The traps of LKEY: its operands, and for an install a record that cannot be read. -/
def lkeyTrap (k : Nat) (a b : W64) (s : State) : Option Trap :=
  let op := keyOp a
  firstTrap
    [sysTrap (decide (32 ≤ a.toNat) || decide (op = 3) || (decide (op = 1) && decide (keyDir a = 1))
        || (decide (op = 0) && (!isForm01 b || decide (addrOff b % 64 ≠ 0)))) k,
     if op = 0 then (s.keyRecord b).2.trap else none]

/-- LKEY: an install or a clear completes at once, a switch when its marker is acknowledged. -/
def semLkey (g : Guard) (a b c : BitVec 5) : SlotSem :=
  { guard := g
    place := .lodge
    trap := fun k s0 => lkeyTrap k (s0.sreg a) (s0.sreg b) s0
    wait := fun s0 s =>
      if keyOp (s0.sreg a) = 0 ∧ (s0.keyRecord (s0.sreg b)).2 = .waits then some (s.keyRecord (s0.sreg b)).1 else none
    eff := fun s0 s =>
      let v := s0.sreg a
      let die := s0.cur.die
      let l := 2 + keyPort v
      let st := ((s0.die die).link l).keyStatus (s0.rackOpen die) (keyOp v) (keyDir v) (keySlot v)
      let s := if keyOp v = 0 then (s.keyRecord (s0.sreg b)).1.lodgeRest die else s
      if st = 0 ∧ keyOp v = 1 then (s.beginSwitch die l (keySlot v)).holdOn (.lkey c.toNat (keyPort v))
      else
        let done := s.push 1 (.scalar c.toNat (BitVec.ofNat 64 st))
        if st ≠ 0 then done
        else if keyOp v = 0 then
          (match (s0.keyRecord (s0.sreg b)).2 with
            | .bytes r => done.modLink die l (Link.setKey (keyDir v) (keySlot v) (some ⟨r.take 32, (r.drop 32).take 4⟩))
            | _ => done)
        else done.modLink die l (Link.setKey (keyDir v) (keySlot v) none) }

/-! ### The instructions as steps -/

/-- fbind as a step: the issuing task issues the slot. -/
def execFbind (g : Guard) (x : BitVec 5) (q : BitVec 1) (s : State) : Host.Outcome State Fault Refusal :=
  issueSlot (semFbind g x q) s

/-- fsend as a step: the issuing task issues the slot. -/
def execFsend (g : Guard) (x f : BitVec 5) (s : State) : Host.Outcome State Fault Refusal :=
  issueSlot (semFsend g x f) s

/-- fput as a step: the issuing task issues the slot. -/
def execFput (g : Guard) (x f : BitVec 5) (s : State) : Host.Outcome State Fault Refusal :=
  issueSlot (semFput g x f) s

/-- fdrain as a step: the issuing task issues the slot. -/
def execFdrain (g : Guard) (x : BitVec 5) (q : BitVec 1) (s : State) : Host.Outcome State Fault Refusal :=
  issueSlot (semFdrain g x q) s

/-- fstat as a step: the issuing task issues the slot. -/
def execFstat (g : Guard) (x : BitVec 5) (q : BitVec 1) (s : State) : Host.Outcome State Fault Refusal :=
  issueSlot (semFstat g x q) s

/-- ftake as a step: the issuing task issues the slot. -/
def execFtake (g : Guard) (x f : BitVec 5) (s : State) : Host.Outcome State Fault Refusal :=
  issueSlot (semFtake g x f) s

/-- npload as a step: the issuing task issues the slot. -/
def execNpload (g : Guard) (a b c : BitVec 5) (s : State) : Host.Outcome State Fault Refusal :=
  issueSlot (semNpload g a b c) s

/-- lkey as a step: the issuing task issues the slot. -/
def execLkey (g : Guard) (a b c : BitVec 5) (s : State) : Host.Outcome State Fault Refusal :=
  issueSlot (semLkey g a b c) s

end Sys2Proof.Machine
end

