-- ==== Sys2Proof/Machine/Tiles.lean ====
section
/-!
DEFINITION. The tile instructions (R287 to R308): their issue, TILE_START, UNIT_COMPLETE, TILE_FOLD, CHILD_LOST and
TILE_COMPLETE, the record area, and TWAIT, TSTAT and TABORT.
-/

namespace Sys2Proof.Machine

/-! ### Issue (R305) -/

/-- The checks of Table 14.8, in order. -/
def tileTrap (tok slot : Nat) (f : Tbl W64) (s : State) : Option Trap :=
  firstTrap
    [tokenTrap tok s,
     trapIf (!addrOk s.cur.core (f.get 0 0) || decide (addrOff (f.get 0 0) % 64 ≠ 0)) ⟨0x40, 0⟩,
     fieldTrap (kinBad s.cur.core f),
     regionTrap slot s]

/-- A tile instruction with an operation code. -/
def semTileOp (opc : Nat) (g : Guard) (tok : BitVec 6) (e : BitVec 4) (ord rz : Bool) : SlotSem :=
  semToken
    { guard := g
      trap := fun slot s0 => tileTrap tok.toNat slot (s0.me.descriptor e.toNat) s0
      eff := fun s0 s =>
        let f := s0.me.descriptor e.toNat
        s0.issueCmd s (.tile opc ord rz) tok.toNat f (kinTokens f) false none } tok

/-- TMM. -/
def semTmm (g : Guard) (tok : BitVec 6) (e : BitVec 4) (ord rz : BitVec 1) : SlotSem :=
  semTileOp 0 g tok e (decide (ord = 1)) (decide (rz = 1))

/-- TEW. -/
def semTew (g : Guard) (tok : BitVec 6) (e : BitVec 4) (rz : BitVec 1) : SlotSem := semTileOp 1 g tok e false (decide (rz = 1))

/-- TRED. -/
def semTred (g : Guard) (tok : BitVec 6) (e : BitVec 4) (ord rz : BitVec 1) : SlotSem :=
  semTileOp 2 g tok e (decide (ord = 1)) (decide (rz = 1))

/-- TSCAN. -/
def semTscan (g : Guard) (tok : BitVec 6) (e : BitVec 4) (ord rz : BitVec 1) : SlotSem :=
  semTileOp 3 g tok e (decide (ord = 1)) (decide (rz = 1))

/-- TXP. -/
def semTxp (g : Guard) (tok : BitVec 6) (e : BitVec 4) : SlotSem := semTileOp 4 g tok e false false

/-- TCVT. -/
def semTcvt (g : Guard) (tok : BitVec 6) (e : BitVec 4) (rz : BitVec 1) : SlotSem := semTileOp 5 g tok e false (decide (rz = 1))

/-- TCPY. -/
def semTcpy (g : Guard) (tok : BitVec 6) (e : BitVec 4) : SlotSem := semTileOp 6 g tok e false false

/-- TBC. -/
def semTbc (g : Guard) (tok : BitVec 6) (e : BitVec 4) : SlotSem := semTileOp 7 g tok e false false

/-! ### The record area (R303, Table 14.7) -/

/-- MODULE, DIE, CLUSTER, CORE and LANE of a fault that arose at a level: those of the part of that level that holds a leaf
of the fault's units, or the issuing core. What lies below the level is 0xFF. -/
def placeBytes (m0 : Nat) (c : CoreRef) (level : Nat) (w : Option Worker) : List Nat :=
  match w.getD (.core c 0) with
  | .module m => [m, 0xFF, 0xFF, 0xFF, 0xFF]
  | .core k _ =>
    let down := fun n v => if n ≤ level then v else 0xFF
    [down 1 m0, down 2 k.die, down 3 (clusterOf k.core), down 4 (clusterIndex k.core), 0xFF]

/-- The 64-byte head of a record. -/
def recordHead (m0 : Nat) (c : CoreRef) (g : TileRun) (state : Nat) (t : Option TileFault) (tc : W64) (ranges : Nat) : List Byte :=
  let f := t.getD ⟨0, 0, g.level, none⟩
  let place := if t.isSome then placeBytes m0 c f.level f.worker else [0xFF, 0xFF, 0xFF, 0xFF, 0xFF]
  leBytes 1 state ++ leBytes 1 f.cause ++ leBytes 1 f.level ++ leBytes 1 g.flags.toNat ++ place.flatMap (leBytes 1)
    ++ leBytes 3 0 ++ leBytes 4 f.unit ++ leBytes 4 g.recov ++ leBytes 4 g.runit ++ leBytes 4 g.rcoord.toNat ++ leBytes 4 0
    ++ leBytes 8 tc.toNat ++ leBytes 8 ranges ++ List.replicate 16 0

/-- The ranges of DONE, at most 1016. -/
def TileRun.ranges (g : TileRun) : List (Nat × Nat) := (rangesOf (inOrder g.done fun a b => decide (a ≤ b))).take 1016

/-- The bytes of a record: its head and its ranges. -/
def recordImage (m0 : Nat) (c : CoreRef) (g : TileRun) (state : Nat) (t : Option TileFault) (tc : W64) : List Byte :=
  let l := g.ranges
  recordHead m0 c g state t tc l.length ++ l.flatMap fun x => leBytes 4 x.1 ++ leBytes 4 x.2

/-- Where the record of module child k lies (R303). -/
def TileRun.recordAt (g : TileRun) (k : Nat) : W64 := g.record + BitVec.ofNat 64 (0x2000 * k)

/-- The P children of a run's rack level that take part (R288, R303). -/
def TileRun.modules (m0 : Nat) (g : TileRun) : List Nat := (g.leaves.map (Worker.key m0 0)).dedup

/-- The record of one module child: its own units. -/
def TileRun.child (m0 : Nat) (g : TileRun) (m : Nat) : TileRun :=
  { g with done := g.done.filter fun u => match g.worker u with
      | some w => decide (w.key m0 0 = m)
      | none => false }

/-- The records that a run writes, with their addresses. -/
def TileRun.records (m0 : Nat) (c : CoreRef) (g : TileRun) (state : Nat) (t : Option TileFault) (tc : W64) :
    List (W64 × List Byte) :=
  let own := pieces g.record (recordImage m0 c g state t tc)
  if g.level ≠ 0 then own
  else own ++ ((g.modules m0).zip (List.range (g.modules m0).length)).flatMap fun x =>
    pieces (g.recordAt (x.2 + 1)) (recordImage m0 c (g.child m0 x.1) state t tc)

/-- The record area's bytes (R303), P being 0 before the run's children are known. -/
def TileRun.recordSize (m0 : Nat) (g : TileRun) : Nat := if g.level = 0 then 0x2000 * (1 + (g.modules m0).length) else 0x2000

/-! ### A run -/

/-- A tile instruction under a physical token. -/
def State.tileAt (s : State) (c : CoreRef) (ptok : Nat) : Option Cmd :=
  match (s.core c).cmd ptok with
  | some x => (match x.kind with
    | .tile _ _ _ => some x
    | _ => none)
  | none => none

/-- The run of a command replaced. -/
def State.setRun (s : State) (c : CoreRef) (ptok : Nat) (x : Cmd) (g : TileRun) : State :=
  s.modCore c fun k => k.setCmd ptok (some { x with run := some g })

/-- A run that has only its block. -/
def TileRun.fresh (block : List Byte) : TileRun :=
  { block := block, descs := [], units := 0, parts := [], leaves := [], done := [], held := [], folded := [], flags := 0,
    fault := none, aborted := false, stores := [], resumed := false, spoilt := false, final := none, recov := 0, runit := 0,
    rcoord := 0, seed := 0 }

/-- A run that goes on after a halt (R304): its block and descriptors, which are read once (R289, R290), and what is complete
stand, and its other units are distributed afresh. -/
def TileRun.again (g : TileRun) : TileRun :=
  { g with parts := g.doneParts g.parts, leaves := [], held := [], fault := none, stores := [], final := none }

/-- The task of a command. -/
def Cmd.taskRef (x : Cmd) (c : CoreRef) : TaskRef := ⟨c.die, c.core, x.slot⟩

/-- The cores whose tasks a run's writes come from (R248). -/
def TileRun.cores (c : CoreRef) (g : TileRun) : List CoreRef :=
  c :: g.workers.filterMap fun w => match w with
    | .core k _ => some k
    | .module _ => none

/-- The time of a tile instruction's writes (R301): a wheel time of the issuer's position. The lines take it, and the marks
of the writing cores (R248). -/
def State.tileTime (s : State) (r : TaskRef) (cores : List CoreRef) (lines : List Nat) : State × W64 :=
  let floor := lines.foldl (fun t l => tmax t (tmax ((s.lineMeta l).wts + 1) ((s.lineMeta l).rts + 1)))
    (tmax (tmax ((s.task r).time + 1) (s.agentTime r.die (taskPos r) + 1)) s.hwm)
  let tc := wheelTime (positionOf r) floor
  let s := lines.foldl (fun s l => s.modLine l fun m => { m with wts := tc, rts := tc }) s
  (if lines = [] then s else cores.dedup.foldl (fun s k => s.mark k tc) s, tc)

/-- A run's last record written, with the lines of the run's writes and its own at one time (R301, R303). -/
def State.lastRecord (s : State) (c : CoreRef) (ptok : Nat) (x : Cmd) (g : TileRun) (lines : List Nat) (state : Nat)
    (t : Option TileFault) : State × W64 × Wrote :=
  let a := x.issuer c ptok
  let m := s.module.toNat
  let dry := State.writeList a (g.records m c state t 0) s []
  if dry.2.waits then (dry.1, 0, dry.2)
  else
    let y := s.tileTime (x.taskRef c) (g.cores c) (lines ++ dry.2.lines).dedup
    let w := State.writeList a (g.records m c state t y.2) y.1 []
    (w.1, y.2, w.2)

/-- The start of a tile instruction fails: its record is written where the record area is good, and the token
holds the cause (R290). -/
def State.failWith (s : State) (c : CoreRef) (ptok : Nat) (x : Cmd) (g : TileRun) (f : TileFault) : State :=
  if g.record.toNat % 8 = 0 ∧ s.writable (x.issuer c ptok) g.record (g.recordSize s.module.toNat) = true then
    let w := s.lastRecord c ptok x g [] 2 (some f)
    if w.2.2.waits then w.1 else w.1.endCmd c ptok f.cause w.2.1
  else
    let y := s.tileTime (x.taskRef c) [] []
    y.1.endCmd c ptok f.cause y.2

/-- The start of a tile instruction fails at its issuing level. -/
def State.failStart (s : State) (c : CoreRef) (ptok : Nat) (x : Cmd) (g : TileRun) (cause : Nat) : State :=
  s.failWith c ptok x g ⟨0, cause, g.level, none⟩

/-- The record's running part written: FLAGS, the recovered events and DONE (R304). -/
def State.noteDone (s : State) (c : CoreRef) (ptok : Nat) (x : Cmd) (g : TileRun) : State × Wrote :=
  State.writeList (x.issuer c ptok) (g.records s.module.toNat c 0 none 0) s []

/-- Whether a core may name a level (Table 14.1). -/
def mayName (core level : Nat) : Bool := if isCompute core then decide (level = 4) else decide (level ≤ 2)

/-- Whether the issuing task holds what a core-level instruction uses (R299). -/
def State.holdsTile (s : State) (r : TaskRef) (g : TileRun) : Bool :=
  let k := s.core r.coreRef
  decide (k.mode = 0) && decide (k.subOwner.get none 0 = some r.slot)
    && ((List.range 4).all fun i => decide (k.slotOwner.get none (g.osl + i) = some r.slot))
    && ((List.range 2).all fun i =>
      let u := k.accUnit (g.acc + i)
      decide (u.head = g.acc + i) && decide (u.units = 1) && decide (u.cols = 0) && decide (u.owner = r.slot))

/-- The cause with which a run may not start, from its block and descriptors (R287, R290, R295, R297, R299). -/
def State.startCause (s : State) (c : CoreRef) (ptok : Nat) (x : Cmd) (g : TileRun) (opc : Nat) (ord rz : Bool) : Option Nat :=
  let a := x.issuer c ptok
  let named := (List.range 4).filter g.named
  if g.level = 3 ∨ 5 ≤ g.level then some 0x46
  else if !mayName c.core g.level then some 0x45
  else if !g.blockOk opc ord rz || !(named.all fun k => (g.desc k).ok c.core g.level) || !g.shapeOk
      || decide (2 ^ 31 < g.tiles * g.chunks) then some 0x46
  else if g.record.toNat % 8 ≠ 0 ∨ s.writable a g.record (g.recordSize s.module.toNat) = false then some 0x46
  else if 1 < g.chunks ∧ g.level < 4 ∧ (g.work = 0 ∨ s.writable a g.work (g.tiles * g.chunks * 0x4000) = false) then some 0x46
  else if g.level = 4 ∧ s.holdsTile (x.taskRef c) g = false then some 0x29
  else none

/-- The descriptors that a block names read: 32 bytes at each address (R289). -/
def State.readDescs (g : TileRun) (a : Agent) : List Nat → State → State × Except (Option Trap) (List (List Byte))
  | [], s => (s, .ok [])
  | k :: rest, s =>
    if g.named k then
      let x := s.readRun a (g.field (16 + 8 * k)) 32
      match x.2 with
      | .error e => (x.1, .error e)
      | .ok b =>
        let y := State.readDescs g a rest x.1
        (y.1, y.2.map fun l => b :: l)
    else
      let y := State.readDescs g a rest s
      (y.1, y.2.map fun l => [] :: l)

/-- Whether the descriptor addresses of a block are 8-byte aligned (R289). -/
def TileRun.descsAligned (g : TileRun) : Bool := (List.range 4).all fun k => decide ((g.field (16 + 8 * k)).toNat % 8 = 0)

/-! ### Units (R291 to R297) -/

/-- The rows or columns of a 64-wide tile of n. -/
def span64 (k n : Nat) : List Nat := ((List.range 64).map fun i => 64 * k + i).filter fun i => decide (i < n)

/-- The rows of D that tile t covers. -/
def TileRun.rowsOf (g : TileRun) (t : Nat) : List Nat := span64 (t / g.tileCols) (g.desc 3).rows
/-- The columns of D that tile t covers. -/
def TileRun.colsOf (g : TileRun) (t : Nat) : List Nat := span64 (t % g.tileCols) (g.desc 3).cols
/-- The lines that band t covers. -/
def TileRun.bandOf (g : TileRun) (t : Nat) : List Nat := span64 t g.lines
/-- The positions of chunk q in a line of n. -/
def TileRun.chunkOf (g : TileRun) (q n : Nat) : List Nat :=
  ((List.range g.kch).map fun i => q * g.kch + i).filter fun i => decide (i < n)

/-- Pairs of two lists in row-major order. -/
def pairsOf (l m : List Nat) : List (Nat × Nat) := l.flatMap fun i => m.map fun j => (i, j)

/-- Elements of a descriptor read by an agent. -/
def State.readTile (s : State) (a : Agent) (d : TileDesc) (l : List (Nat × Nat)) : State × Except (Option Trap) (List Nat) :=
  State.readElems a d.width (l.map fun x => d.addr x.1 x.2) s

/-- Two reads one after the other. -/
def thenRead {α β : Type} (x : State × Except (Option Trap) α) (f : State → α → State × Except (Option Trap) β) :
    State × Except (Option Trap) β :=
  match x.2 with
  | .error e => (x.1, .error e)
  | .ok v => f x.1 v

/-- The chunk that is formed with C as its start (R291), under O = 0. -/
def TileRun.seeded (g : TileRun) (t : Nat) : Option Nat :=
  if g.ord then none
  else
    let k := Config.freePick (g.seed + t) % (g.chunks + 1)
    if k < g.chunks then some k else none

/-- C of a tile; +0 where CDESC is zero. -/
def State.readC (s : State) (a : Agent) (g : TileRun) (l : List (Nat × Nat)) : State × Except (Option Trap) (List Nat) :=
  if g.named 2 then s.readTile a (g.desc 2) l else (s, .ok (l.map fun _ => 0))

/-- A run of a list from position i, filled with +0 up to a multiple of 64. -/
def padded (l : List Num) : List Num := l ++ List.replicate ((64 - l.length % 64) % 64) (.fin false 0 0)

/-- A chunk result of TMM: one .f32 code per element of the tile. -/
def State.unitTmm (s : State) (a : Agent) (g : TileRun) (t q : Nat) : State × Except (Option Trap) (List W64 × Flags) :=
  let rs := g.rowsOf t
  let cs := g.colsOf t
  let ks := g.chunkOf q (g.desc 0).cols
  thenRead (s.readTile a (g.desc 0) (pairsOf rs ks)) fun s av =>
    thenRead (s.readTile a (g.desc 1) (pairsOf ks cs)) fun s bv =>
      thenRead (if g.seeded t = some q then s.readC a g (pairsOf rs cs) else (s, .ok [])) fun s cv =>
        let n := ks.length
        let row := fun i => padded (((av.drop (i * n)).take n).map (floatCode (g.desc 0).fmt))
        let col := fun j => padded ((List.range n).map fun k => floatCode (g.desc 1).fmt (bv.getD (k * cs.length + j) 0))
        let r := (pairsOf (List.range rs.length) (List.range cs.length)).map fun x =>
          let start := if g.seeded t = some q then floatCode 0 (cv.getD (x.1 * cs.length + x.2) 0) else .fin false 0 0
          chunkTmm g.mode start (ceilDiv n 64) (row x.1) (col x.2)
        (s, .ok (r.map fun x => BitVec.ofNat 64 (Fmt.f32.round .rne x.1).1, orAll (r.map Prod.snd)))

/-- A line's elements of TRED and TSCAN. -/
def TileRun.linePos (g : TileRun) (i : Nat) (ps : List Nat) : List (Nat × Nat) :=
  ps.map fun p => if g.byCols then (p, i) else (i, p)

/-- A chunk result of TRED or TSCAN: one fold per line of the band. -/
def State.unitRed (s : State) (a : Agent) (g : TileRun) (t q : Nat) : State × Except (Option Trap) (List W64 × Flags) :=
  let ls := g.bandOf t
  let ps := g.chunkOf q g.lineLen
  thenRead (s.readTile a (g.desc 0) (ls.flatMap fun i => g.linePos i ps)) fun s v =>
    let n := ps.length
    let r := (List.range ls.length).map fun i =>
      chunkFold (g.aux % 4) (g.desc 0).fmt g.mode (g.ord || decide (g.aux % 4 ≠ 0)) (s.freeCtr + 2 * n * i) ((v.drop (i * n)).take n)
    (s.tookFree (2 * n * ls.length), .ok (r.map Prod.fst, orAll (r.map Prod.snd)))

/-- The tile of an operation whose elements stand alone: TEW, TXP, TCVT, TCPY and TBC. -/
def State.unitMap (s : State) (a : Agent) (g : TileRun) (t : Nat) : State × Except (Option Trap) (List W64 × Flags) :=
  let l := pairsOf (g.rowsOf t) (g.colsOf t)
  let from' := if g.opc = 4 then l.map fun x => (x.2, x.1)
    else if g.opc = 7 then l.map fun x => if g.aux = 0 then (0, x.2) else (x.1, 0)
    else l
  thenRead (s.readTile a (g.desc 0) from') fun s av =>
    thenRead (if g.opc = 1 then s.readTile a (g.desc 1) l else (s, .ok [])) fun s bv =>
      thenRead (if g.opc = 1 ∧ g.aux = 5 then s.readTile a (g.desc 2) l else (s, .ok [])) fun s cv =>
        let r : List (Nat × Flags) := (List.range l.length).map fun i =>
          let v := av.getD i 0
          if g.opc = 1 then
            tewElem g.aux g.mode (g.desc 0).fmt (g.desc 1).fmt (g.desc 2).fmt (g.desc 3).fmt v (bv.getD i 0) (cv.getD i 0)
          else if g.opc = 5 then tcvtElem (g.desc 0).fmt (g.desc 3).fmt g.mode v
          else (v, 0)
        (s, .ok (r.map fun x => BitVec.ofNat 64 x.1, orAll (r.map Prod.snd)))

/-- The chunk result of a unit (R291, R292). -/
def State.unitResult (s : State) (a : Agent) (g : TileRun) (u : Nat) : State × Except (Option Trap) (List W64 × Flags) :=
  let t := u / g.chunks
  let q := u % g.chunks
  if g.opc = 0 then s.unitTmm a g t q else if g.reduces then s.unitRed a g t q else s.unitMap a g t

/-- The units of a tile. -/
def TileRun.unitsOf (g : TileRun) (t : Nat) : List Nat := (List.range g.chunks).map fun q => t * g.chunks + q

/-- Whether a tile is whole in one leaf (R296). -/
def TileRun.whole (g : TileRun) (t : Nat) : Bool :=
  let us := g.unitsOf t
  match us.map g.worker with
  | some w :: rest => rest.all (fun x => decide (x = some w)) && us.all fun u => !g.done.contains u
  | _ => false

/-- Whether a unit's chunk result stands, held by its leaf or in WORK. -/
def TileRun.ran (g : TileRun) (u : Nat) : Bool := g.done.contains u || g.held.any fun e => decide (e.1 = u)

/-- Where the chunk result of a unit is written (R297): 16 KiB each. -/
def TileRun.workAt (g : TileRun) (u : Nat) : W64 := g.work + BitVec.ofNat 64 (0x4000 * u)

/-- Bytes of a value of a chunk result in WORK: .f32 codes of TMM, else 64 bits. -/
def TileRun.workWidth (g : TileRun) : Nat := if g.opc = 0 then 4 else 8

/-- A fault joined to a run: the lowest unit is kept (R302). -/
def TileRun.fail (g : TileRun) (f : TileFault) : TileRun :=
  { g with fault := match g.fault with
      | some x => if x.unit ≤ f.unit then some x else some f
      | none => some f }

/-- The cause of a unit's fault (Table 19.1): an address that breaks R217's form is a descriptor's fault. -/
def tileCause (t : Trap) : Nat := if t.cause = 0x40 then 0x46 else t.cause

/-- Whether a leaf works: its tile task is there and not halted, and its core not retired (R298, R299). -/
def State.leafUp (s : State) (c : CoreRef) (ptok : Nat) (w : Worker) : Bool :=
  match w with
  | .core k slot =>
    let t := s.task ⟨k.die, k.core, slot⟩
    if k = c then !t.stopped else decide (t.status = .tiling c ptok) && !t.halted && !t.stopped && !s.isRetired k
  | .module m => s.isPresent c.die m

/-- Whether unit u may complete now: its leaf runs its units in ascending order, one at a time, and none above a
faulted one (R296, R302). -/
def State.unitReady (s : State) (c : CoreRef) (ptok : Nat) (x : Cmd) (g : TileRun) (u : Nat) : Bool :=
  x.started && !g.aborted && decide (u < g.units) && !g.ran u
    && (match g.fault with
      | some f => decide (u < f.unit)
      | none => true)
    && (match g.worker u with
      | none => false
      | some w =>
        s.leafUp c ptok w && g.parts.all fun p =>
          decide (p.worker ≠ w) || ((List.range p.count).all fun i => decide (u ≤ p.first + i) || g.ran (p.first + i)))

/-- Requests of a leaf's reads forgotten once its unit is done. -/
def State.forgetReads (s : State) (a : Agent) : State := s.dropLoads a.task (some a.tok)

/-- Stores to other modules sent between two states. -/
def sentSince (before after : State) : List Nat :=
  (after.sent.filter fun x => decide (x.req.kind = 2) && !(before.sent.any fun y => decide (y.req.id = x.req.id))).map fun x =>
    x.req.id

/-- The operands that D may equal exactly (R301). -/
def TileRun.mayAlias (g : TileRun) (k : Nat) : Bool :=
  (decide (g.opc = 0) && decide (k = 2)) || (decide (g.opc = 1) && decide (k ≤ 2))
    || ((decide (g.opc = 5) || decide (g.opc = 6)) && decide (k = 0))

/-- Whether an element of D overlaps an operand in another way, so that what it holds is unspecified (R301). -/
def TileRun.unspecified (g : TileRun) (a : W64) : Bool :=
  [0, 1, 2].any fun k =>
    g.named k && !(g.mayAlias k && (g.desc k).same (g.desc 3)) && (g.desc k).touches a (g.desc 3).width

/-- The writes of some elements of D; an unspecified element is free. -/
def State.tileWrites (s : State) (g : TileRun) (l : List ((Nat × Nat) × Nat)) : List (W64 × List Byte) :=
  let d := g.desc 3
  (l.zip (List.range l.length)).map fun x =>
    let a := d.addr x.1.1.1 x.1.1.2
    (a, if g.unspecified a then (List.range d.width).map fun i => Config.freeByte (s.freeCtr + 8 * x.2 + i)
        else leBytes d.width x.1.2)

/-- The prefixes of a chunk of TSCAN, which are written to D first (R297). Those of a later chunk are rounded again with
their carry, and their flags count there. -/
def State.scanFirst (s : State) (a : Agent) (g : TileRun) (u : Nat) :
    State × Except (Option Trap) (List ((Nat × Nat) × Nat) × Flags) :=
  let ls := g.bandOf (u / g.chunks)
  let ps := g.chunkOf (u % g.chunks) g.lineLen
  let op := g.aux % 4
  thenRead (s.readTile a (g.desc 0) (ls.flatMap fun i => g.linePos i ps)) fun s v =>
    let n := ps.length
    let r := (ls.zip (List.range ls.length)).flatMap fun x =>
      (g.linePos x.1 ps).zip (scanChunk op (g.desc 0).fmt (g.desc 3).fmt g.mode (g.ord || decide (op ≠ 0)) (bitOf g.aux 3)
        (s.freeCtr + 2 * n * n * x.2) none ((v.drop (x.2 * n)).take n))
    (s.tookFree (2 * n * n * ls.length),
      .ok (r.map fun y => (y.1, y.2.1), if u % g.chunks = 0 then orAll (r.map fun y => y.2.2) else 0))

/-- What a unit forms: its chunk result, and the prefixes that TSCAN writes to D. -/
def State.unitForms (s : State) (a : Agent) (g : TileRun) (u : Nat) :
    State × Except (Option Trap) (List W64 × List ((Nat × Nat) × Nat) × Flags) :=
  thenRead (s.unitResult a g u) fun s v =>
    if g.opc = 3 then thenRead (s.scanFirst a g u) fun s p => (s, .ok (v.1, p.1, v.2 ||| p.2))
    else (s, .ok (v.1, [], v.2))

/-- UNIT_COMPLETE: a unit's chunk result is formed, after TSCAN's prefixes of it; of a split tile it is written to WORK and
the unit is complete (R297, R304). -/
def execUnitComplete (c : CoreRef) (tok unit : Nat) (s : State) : Host.Outcome State Fault Refusal :=
  .next (match s.tileAt c tok with
    | none => s
    | some x =>
      (match x.run with
        | none => s
        | some g =>
          if !s.unitReady c tok x g unit then s
          else
            let w := g.worker unit
            let a := x.leaf c tok (w.getD (.module 0))
            let bad : TileFault := ⟨unit, 0, 4, w⟩
            let r := s.unitForms a g unit
            (match r.2 with
              | .error none => r.1
              | .error (some t) => (r.1.forgetReads a).setRun c tok x (g.fail { bad with cause := tileCause t })
              | .ok v =>
                let s' := (r.1.forgetReads a).tookFree (8 * v.2.1.length)
                let whole := g.whole (unit / g.chunks)
                let part := if whole then [] else pieces (g.workAt unit) (v.1.flatMap fun n => leBytes g.workWidth n.toNat)
                let y := State.writeList a (r.1.tileWrites g v.2.1 ++ part) s' []
                let g' := { g with
                  flags := g.flags ||| v.2.2
                  stores := g.stores ++ (sentSince s' y.1).map fun id => (id, bad, [unit]) }
                let x' := { x with lines := (x.lines ++ y.2.lines).dedup }
                if y.2.waits then y.1
                else match y.2.failed with
                  | some t => y.1.setRun c tok x' (g'.fail { bad with cause := tileCause t })
                  | none =>
                    if whole then y.1.setRun c tok x' { g' with held := Tbl.insert v.1 g'.held unit }
                    else
                      let g' := { g' with done := unit :: g'.done }
                      (y.1.noteDone c tok x' g').1.setRun c tok x' g')))

/-! ### Folds (R297) -/

/-- The chunk results of a tile, in ascending q: held by the leaf, or read from WORK. -/
def State.chunkResults (s : State) (a : Agent) (g : TileRun) (t n : Nat) : State × Except (Option Trap) (List (List W64)) :=
  if g.whole t then (s, .ok ((g.unitsOf t).map fun u => g.held.get [] u))
  else
    let w := g.workWidth
    let addrs := (g.unitsOf t).flatMap fun u => (List.range (ceilDiv (n * w) 8)).map fun i => g.workAt u + BitVec.ofNat 64 (8 * i)
    let x := State.readElems a 8 addrs s
    (x.1, x.2.map fun l =>
      let m := ceilDiv (n * w) 8
      (List.range g.chunks).map fun q =>
        let b := ((l.drop (q * m)).take m).flatMap (leBytes 8)
        (List.range n).map fun i => BitVec.ofNat 64 (bytesAt b (w * i) w))

/-- The elements of D that TSCAN's second round writes over a tile, by the units whose carry they take (R297, Table 14.4):
those of every chunk but the first. -/
def State.foldScan (s : State) (a : Agent) (g : TileRun) (t : Nat) (p : List (List W64)) :
    State × Except (Option Trap) (List (Nat × List ((Nat × Nat) × Nat)) × Flags) :=
  let op := g.aux % 4
  let ord := g.ord || decide (op ≠ 0)
  let fa := (g.desc 0).fmt
  let band := g.bandOf t
  let n := band.length
  let k := 2 * g.chunks
  thenRead (s.readTile a (g.desc 0) (band.flatMap fun i => g.linePos i (List.range g.lineLen))) fun s v =>
    let chunk := fun (q : Nat) => (band.zip (List.range n)).flatMap fun x =>
      let line := (v.drop (x.2 * g.lineLen)).take g.lineLen
      let carry := foldChunks op fa g.mode ord (s.freeCtr + k * x.2) ((p.take q).map fun l => l.getD x.2 0)
      let out := scanChunk op fa (g.desc 3).fmt g.mode ord (bitOf g.aux 3)
        (s.freeCtr + k * n + 2 * g.lineLen * g.lineLen * x.2) (some carry.1) ((line.drop (q * g.kch)).take g.kch)
      ((g.linePos x.1 (g.chunkOf q g.lineLen)).zip out).map fun y => ((y.1, y.2.1), y.2.2 ||| carry.2)
    let r := (List.range g.chunks).tail.map fun q => (t * g.chunks + q, chunk q)
    (s.tookFree (k * n + 2 * g.lineLen * g.lineLen * n),
      .ok (r.map fun y => (y.1, y.2.map Prod.fst), orAll (r.flatMap fun y => y.2.map Prod.snd)))

/-- The elements of D of a tile with their places, folded (R291, R292), by the units they are counted to. -/
def State.foldTile (s : State) (a : Agent) (g : TileRun) (t : Nat) :
    State × Except (Option Trap) (List (Nat × List ((Nat × Nat) × Nat)) × Flags) :=
  let places := if g.reduces then [] else pairsOf (g.rowsOf t) (g.colsOf t)
  let n := if g.reduces then (g.bandOf t).length else places.length
  let u := t * g.chunks
  thenRead (s.chunkResults a g t n) fun s p =>
    if g.opc = 0 then
      thenRead (if (g.seeded t).isSome then (s, .ok []) else s.readC a g places) fun s cv =>
        let k := 2 * (g.chunks + 1)
        let r := (List.range n).map fun i =>
          foldTmm g.mode g.ord (s.freeCtr + k * i) (g.seeded t).isSome (cv.getD i 0) (p.map fun l => (l.getD i 0).toNat)
        (s.tookFree (k * n), .ok ([(u, places.zip (r.map Prod.fst))], orAll (r.map Prod.snd)))
    else if g.opc = 3 then s.foldScan a g t p
    else if g.opc = 2 then
      let op := g.aux % 4
      let k := 2 * g.chunks
      let r := ((g.bandOf t).zip (List.range n)).map fun x =>
        let v := foldChunks op (g.desc 0).fmt g.mode (g.ord || decide (op ≠ 0)) (s.freeCtr + k * x.2) (p.map fun l => l.getD x.2 0)
        let e := foldElem (g.desc 3).fmt (bitOf g.aux 3) v.1
        ((if g.byCols then (0, x.1) else (x.1, 0), e.1), v.2 ||| e.2)
      (s.tookFree (k * n), .ok ([(u, r.map Prod.fst)], orAll (r.map Prod.snd)))
    else
      (s, .ok ([(u, places.zip ((p.headD []).map BitVec.toNat))], 0))

/-- The level that folds a tile, and the leaf that holds it when it is whole: core 4, cluster 3, die 2, package 1,
rack 0 (R297). -/
def TileRun.foldLevel (m0 : Nat) (g : TileRun) (t : Nat) : Nat :=
  let ws := ((g.unitsOf t).filterMap g.worker).dedup
  let one := fun d => decide ((ws.map (Worker.key m0 d)).dedup.length ≤ 1)
  if ws.length ≤ 1 then 4 else if one 0 && one 1 && one 2 then 3 else if one 0 && one 1 then 2 else if one 0 then 1 else 0

/-- Whether a tile's fold may run: its chunk results stand, it is not written, and no unit of it is at or above a
fault (R297, R302). -/
def State.foldReady (s : State) (c : CoreRef) (ptok : Nat) (x : Cmd) (g : TileRun) (t : Nat) : Bool :=
  x.started && decide (t < g.tiles) && !g.folded.contains t && (g.unitsOf t).all g.ran
    && (match g.fault with
      | some f => decide ((t + 1) * g.chunks ≤ f.unit)
      | none => true)
    && (!g.whole t || (match g.worker (t * g.chunks) with
      | some w => s.leafUp c ptok w
      | none => false))

/-- What the writes of a fold came to: the HBM lines written, the stores sent to other modules, the unit and cause of
the first failure, and whether it must wait. -/
structure FoldWrote where
  lines : List Nat
  stores : List (Nat × Nat)
  failed : Option (Nat × Trap)
  waits : Bool

/-- The writes of a fold, unit by unit, each by an agent. -/
def State.foldWrites (g : TileRun) (agent : Nat → Agent) :
    List (Nat × List ((Nat × Nat) × Nat)) → State → FoldWrote → State × FoldWrote
  | [], s, w => (s, w)
  | (u, l) :: rest, s, w =>
    let y := State.writeList (agent u) (s.tileWrites g l) (s.tookFree (8 * l.length)) []
    let w := { w with
      lines := w.lines ++ y.2.lines, stores := w.stores ++ (sentSince s y.1).map fun id => (id, u)
      failed := y.2.failed.map fun t => (u, t), waits := y.2.waits }
    if w.waits || w.failed.isSome then (y.1, w) else State.foldWrites g agent rest y.1 w

/-- The agent of a unit: its leaf, or the issuing level. -/
def Cmd.unitAgent (x : Cmd) (c : CoreRef) (ptok : Nat) (g : TileRun) (u : Nat) : Agent :=
  match g.worker u with
  | some w => x.leaf c ptok w
  | none => x.issuer c ptok

/-- TILE_FOLD: a tile is folded and D written (R291, R297). A fault belongs to the part of the fold's level that holds the
tile, or of TSCAN's second round to the unit whose carry is added. -/
def execTileFold (c : CoreRef) (tok tile : Nat) (s : State) : Host.Outcome State Fault Refusal :=
  .next (match s.tileAt c tok with
    | none => s
    | some x =>
      (match x.run with
        | none => s
        | some g =>
          if !s.foldReady c tok x g tile then s
          else
            let first := tile * g.chunks
            let a := if g.whole tile then x.unitAgent c tok g first else x.issuer c tok
            let bad := fun (u : Nat) => (⟨u, 0, if g.opc = 3 then 4 else g.foldLevel s.module.toNat tile, g.worker u⟩ : TileFault)
            let r := s.foldTile a g tile
            (match r.2 with
              | .error none => r.1
              | .error (some t) => (r.1.forgetReads a).setRun c tok x
                  (g.fail ⟨first, tileCause t, g.foldLevel s.module.toNat tile, g.worker first⟩)
              | .ok v =>
                let y := State.foldWrites g (fun u => if g.opc = 3 then x.unitAgent c tok g u else a) v.1 (r.1.forgetReads a)
                  ⟨[], [], none, false⟩
                let us := g.unitsOf tile
                let own := us.filter fun u => !g.done.contains u
                let g' := { g with
                  flags := g.flags ||| v.2
                  stores := g.stores ++ y.2.stores.map fun (e : Nat × Nat) => (e.1, bad e.2, own) }
                let x' := { x with lines := (x.lines ++ y.2.lines).dedup }
                if y.2.waits then y.1
                else match y.2.failed with
                  | some e => y.1.setRun c tok x' (g'.fail { bad e.1 with cause := tileCause e.2 })
                  | none =>
                    let g' := { g' with
                      folded := tile :: g.folded, done := own ++ g.done
                      held := g.held.filter fun e => !us.contains e.1 }
                    (y.1.noteDone c tok x' g').1.setRun c tok x' g')))

/-! ### Endings (R302, R303) -/

/-- How a run ends: its state (1 done, 2 faulted, 3 aborted) and fault, or none while work is left (R302, R307). -/
def TileRun.ending (g : TileRun) : Option (Nat × Option TileFault) :=
  let below := fun (f : TileFault) => (List.range g.tiles).all fun t => decide (f.unit < (t + 1) * g.chunks) || g.folded.contains t
  match g.fault with
  | some f =>
    if g.aborted then (if below f then some (3, some f) else none)
    else if ((List.range f.unit).all g.ran) && below f then some (2, some f) else none
  | none => if g.folded.length = g.tiles then some (1, none) else none

/-- The agents that may have requests to other modules outstanding for a run. -/
def Cmd.agents (x : Cmd) (c : CoreRef) (ptok : Nat) (g : TileRun) : List Agent :=
  x.issuer c ptok :: g.workers.map (x.leaf c ptok)

/-- The weights latched in a sub-array after a tile instruction has used it: whether it holds any, and which, is
unspecified (R299). -/
def State.latchAfter (s : State) (l : Option Latch) : Option Latch :=
  if bitOf (Config.freePick s.freeCtr) 0 then none
  else l.map fun l => { l with image := s.freeBytes l.image.length }

/-- The tile tasks of a run released; a core-level instruction leaves its resources unspecified (R299). -/
def State.releaseTiles (s : State) (c : CoreRef) (ptok : Nat) (x : Cmd) (g : TileRun) : State :=
  let s := g.workers.foldl (fun s w => match w with
    | .core k slot =>
      if k = c then s
      else if (s.task ⟨k.die, k.core, slot⟩).status = .tiling c ptok then s.freeSlotOf ⟨k.die, k.core, slot⟩ else s
    | .module _ => s) s
  if g.level = 4 ∧ x.started = true then
    let n := 4 * 0x8000
    let s := { s with mem := s.mem.setBytes (operandBase c + g.osl * 0x8000) (s.freeBytes n) }.tookFree n
    let m := 2 * 0x4000
    let s := { s with mem := s.mem.setBytes (unitAddr c g.acc) (s.freeBytes m) }.tookFree m
    let l := s.latchAfter ((s.core c).latches.get none 0)
    (s.tookFree 0x8000).modCore c fun k => { k with latches := Tbl.set none k.latches 0 l }
  else s

/-- The tiles of D that a faulted or aborted run leaves unspecified: those not written whole, or with a unit at or above the
reported one (R302). With no fault reported they are all of them (R300). -/
def TileRun.spoils (g : TileRun) (t : Option TileFault) : List Nat :=
  (List.range g.tiles).filter fun k => match t with
    | some f => g.spoilt || !g.folded.contains k || decide (f.unit < (k + 1) * g.chunks)
    | none => true

/-- Tiles of D filled with what the manual leaves unspecified. -/
def State.spoil (s : State) (a : Agent) (g : TileRun) (tiles : List Nat) : State × List Nat :=
  let d := g.desc 3
  let places := tiles.flatMap fun t =>
    if g.opc = 2 then (g.bandOf t).map fun i => if g.byCols then (0, i) else (i, 0)
    else if g.opc = 3 then (g.bandOf t).flatMap fun i => g.linePos i (List.range g.lineLen)
    else pairsOf (g.rowsOf t) (g.colsOf t)
  places.foldl
    (fun (x : State × List Nat) p =>
      let y := x.1.engineWrite a (d.addr p.1 p.2) (x.1.freeBytes d.width)
      match y.2 with
      | .wrote l => (y.1.tookFree d.width, x.2 ++ l)
      | _ => x) (s, [])

/-- A run ends once its last record is written: its resources and requests are given up. A record that could not be written
makes the instruction FAULTED with that cause, which is posted to the lodge of the issuing core's die (R303). -/
def State.finishRun (s : State) (c : CoreRef) (ptok : Nat) (x : Cmd) (g : TileRun) (t : Option TileFault) (tc : W64)
    (failed : Option Trap) : State :=
  let s := (x.agents c ptok g).foldl (fun s a => s.dropFar a.task ptok) (s.releaseTiles c ptok x g)
  match failed with
  | some e => (s.postFault c.die c.core x.slot x.job e.cause e.info (s.engineLidx (x.taskRef c) x)).endCmd c ptok e.cause tc
  | none => s.endCmd c ptok ((t.map TileFault.cause).getD 0) tc

/-- A run ends with its record (R303), and waits for the answers to the record's stores to another module. Its results are
unspecified where its staging slices were stored to (R300). -/
def State.endRun (s : State) (c : CoreRef) (ptok : Nat) (x : Cmd) (g : TileRun) (state : Nat) (t : Option TileFault) : State :=
  let a := x.issuer c ptok
  let sp := if state = 1 ∧ g.spoilt = false then (s, []) else s.spoil a g (g.spoils t)
  let s := (x.agents c ptok g).foldl (fun s a => s.dropFar a.task ptok) sp.1.tookFree
  let g := if g.spoilt then { g with flags := BitVec.ofNat 6 (Config.freePick sp.1.freeCtr) } else g
  let w := s.lastRecord c ptok x g (x.lines ++ sp.2).dedup state t
  if w.2.2.waits then w.1
  else if w.2.2.failed.isNone && w.1.farPending a.task ptok then w.1.setRun c ptok x { g with final := some (state, t, w.2.1) }
  else w.1.finishRun c ptok x g t w.2.1 w.2.2.failed

/-! ### TILE_START -/

/-- What a resumed run had done, from its record area (R304): the tiles whose units are all complete are folded, since a
save waits for the folds that its complete units allow. -/
def State.resumeRun (s : State) (a : Agent) (g : TileRun) : State × Except (Option Trap) TileRun :=
  let x := s.readRun a g.record 0x2000
  (x.1, x.2.map fun b =>
    let n := min 1016 (bytesAt b 40 8)
    let done := (List.range n).flatMap fun i =>
      (List.range (bytesAt b (68 + 8 * i) 4)).map fun j => bytesAt b (64 + 8 * i) 4 + j
    { g with
      done := done, flags := BitVec.ofNat 6 (bytesAt b 3 1), recov := bytesAt b 16 4, runit := bytesAt b 20 4,
      rcoord := BitVec.ofNat 32 (bytesAt b 24 4)
      folded := (List.range g.tiles).filter fun t => (List.range g.chunks).all fun q => done.contains (t * g.chunks + q) })

/-- The first module child of a run whose active job is not the issuer's, which refuses the instruction (R308); what another
module runs is not held here, so that its answer is free. -/
def State.refuser (s : State) (ws : List Worker) : Option Nat :=
  ws.findSome? fun w => match w with
    | .module m => if Config.freePick (s.freeCtr + m) % 2 = 1 then some m else none
    | .core _ _ => none

/-- The decomposition of a run: its units that are not complete go to the leaves that take part now (R288, R296,
R298, R304), unless it is to be aborted (R307). Without a leaf it waits. A rack-level run's record area must hold its children's (R303), none of which may
refuse it (R308). -/
def State.decompose (s : State) (c : CoreRef) (ptok : Nat) (x : Cmd) (g : TileRun) : State :=
  let m0 := s.module.toNat
  let ws := if g.aborted then [] else s.candidates c x.slot g.level g.mask
  if g.aborted then s.endRun c ptok x g 3 (some ⟨g.lowest.getD 0, 0x47, g.level, none⟩)
  else if ws = [] then s.setRun c ptok x g
  else
    let depth := if g.level = 4 then 3 else g.level
    let new := distribute m0 (4 - depth) depth (withoutUnits g.done 0 g.units) ws
    let g := { g with parts := g.doneParts g.parts ++ new, leaves := ws }
    match s.refuser ws with
    | some m => (s.tookFree 64).failWith c ptok x g ⟨0, 0x48, 0, some (.module m)⟩
    | none =>
      let s := s.tookFree 64
      if g.level = 0 ∧ s.writable (x.issuer c ptok) g.record (g.recordSize m0) = false then s.failStart c ptok x g 0x46
      else
        let y := s.noteDone c ptok x g
        let s := y.1.placeAll x c ptok (new.map TilePart.worker).dedup (s.task (x.taskRef c)).time
        s.modCore c fun k => k.setCmd ptok (some { x with started := true, run := some g })

/-- A run whose block and descriptors have been read is checked, and its units distributed. A resumed one takes its progress
from its record. -/
def State.checkRun (s : State) (c : CoreRef) (ptok : Nat) (x : Cmd) (g : TileRun) (opc : Nat) (ord rz : Bool) : State :=
  match s.startCause c ptok x g opc ord rz with
  | some cause => s.failStart c ptok x g cause
  | none =>
    let s := s.raiseAgent c.die (taskPos (x.taskRef c)) (s.task (x.taskRef c)).time
    let ready := { g with units := g.tiles * g.chunks, seed := s.freeCtr }
    if g.resumed then
      let y := s.resumeRun (x.issuer c ptok) ready
      match y.2 with
      | .error none => y.1.setRun c ptok x g
      | .error (some t) => y.1.failStart c ptok x g t.cause
      | .ok g => (y.1.tookFree g.tiles).decompose c ptok x g
    else
      let y := s.noteDone c ptok x ready
      if y.2.waits then y.1.setRun c ptok x g else (y.1.tookFree ready.tiles).decompose c ptok x ready

/-- A run whose block has been read starts: its level is judged first (R287), and its descriptors are read once (R289). -/
def State.startRun (s : State) (c : CoreRef) (ptok : Nat) (x : Cmd) (g : TileRun) (opc : Nat) (ord rz : Bool) : State :=
  if g.level = 3 ∨ 5 ≤ g.level then s.failStart c ptok x g 0x46
  else if !mayName c.core g.level then s.failStart c ptok x g 0x45
  else if !g.descsAligned then s.failStart c ptok x g 0x46
  else if g.descs ≠ [] then s.checkRun c ptok x g opc ord rz
  else
    let r := State.readDescs g (x.issuer c ptok) [0, 1, 2, 3] s
    match r.2 with
    | .error none => r.1.setRun c ptok x g
    | .error (some _) => r.1.failStart c ptok x g 0x46
    | .ok d => r.1.checkRun c ptok x { g with descs := d } opc ord rz

/-- TILE_START: the instruction starts once its bindings have completed (R215, R290, R301), and reads its block once. A
faulted binding ends it without running. A run that waits for a leaf, or goes on after a halt, is distributed when one
accepts. -/
def execTileStart (c : CoreRef) (tok : Nat) (s : State) : Host.Outcome State Fault Refusal :=
  .next (match s.tileAt c tok with
    | none => s
    | some x =>
      let t := s.task (x.taskRef c)
      if x.started || t.stopped || s.jobStopped x.job || !x.deps.isEmpty then s
      else if x.depFault.isSome then s.endCmd c tok 0x43 t.time
      else
        (match x.kind with
          | .tile opc ord rz =>
            let g := x.run.getD (TileRun.fresh [])
            if g.final.isSome then s
            else if g.units ≠ 0 then s.decompose c tok x g
            else if g.block ≠ [] then s.startRun c tok x g opc ord rz
            else
              let y := s.readRun (x.issuer c tok) (x.fields.get 0 0) 128
              (match y.2 with
                | .error none => y.1
                | .error (some _) => y.1.endCmd c tok 0x46 t.time
                | .ok b => y.1.startRun c tok x { g with block := b } opc ord rz)
          | _ => s))

/-! ### Lost children (R298) -/

/-- Whether a leaf is lost: its core is retired, its tile task is gone, or its module cannot be reached. -/
def State.leafLost (s : State) (c : CoreRef) (ptok : Nat) (w : Worker) : Bool :=
  match w with
  | .core k slot =>
    decide (k ≠ c) && (s.isRetired k || (match s.task? ⟨k.die, k.core, slot⟩ with
      | some t => decide (t.status ≠ .tiling c ptok)
      | none => true))
  | .module m => !s.isPresent c.die m

/-- The leaves that stand nearest to a lost one: those of its cluster, else its die, else its module, else all. -/
def nearest (m0 : Nat) (w : Worker) (ws : List Worker) : List Worker :=
  let at' := fun n => ws.filter fun v => (List.range n).all fun d => decide (v.key m0 d = w.key m0 d)
  if at' 3 ≠ [] then at' 3 else if at' 2 ≠ [] then at' 2 else if at' 1 ≠ [] then at' 1 else ws

/-- A leaf as it may be given units: one that has its tile task, or one without units so far that accepts a tile task now,
in the slot it offers. -/
def State.liveLeaf (s : State) (c : CoreRef) (ptok : Nat) (g : TileRun) (w : Worker) : Option Worker :=
  if g.workers.contains w then (if s.leafLost c ptok w then none else some w)
  else match w with
    | .core k _ => (s.acceptsTile k).map fun y => .core k y.1
    | .module _ => if s.leafLost c ptok w then none else some w

/-- CHILD_LOST: the units of a lost leaf that are not complete go to the remaining leaves that took part, as one range in
ascending order; with none left the issuing level decomposes afresh (R298). -/
def execChildLost (c : CoreRef) (tok child : Nat) (s : State) : Host.Outcome State Fault Refusal :=
  .next (match s.tileAt c tok with
    | none => s
    | some x =>
      (match x.run with
        | none => s
        | some g =>
          (match g.workers[child]? with
            | none => s
            | some w =>
              let mine := g.parts.filter fun p => decide (p.worker = w)
              let units := mine.flatMap fun p => withoutUnits g.done p.first p.count
              if !x.started || g.aborted || decide (units = []) || !s.leafLost c tok w then s
              else
                let rest := g.leaves.filter fun v => !decide (v = w)
                let live := rest.filterMap (s.liveLeaf c tok g)
                let g := { g with held := g.held.filter fun e => !decide (g.worker e.1 = some w) }
                if live = [] then s.decompose c tok x { g with held := [] }
                else
                  let new := distribute s.module.toNat 4 0 units (nearest s.module.toNat w live)
                  let parts := (g.parts.filter fun p => !decide (p.worker = w)) ++ g.doneParts mine ++ new
                  let s := s.placeAll x c tok (new.map TilePart.worker).dedup (s.task (x.taskRef c)).time
                  s.setRun c tok x { g with parts := parts, leaves := live })))

/-! ### TILE_COMPLETE -/

/-- The refusal of a store sent to another module under a request. -/
def State.refusedStore (s : State) (id : Nat) : Option Trap :=
  (s.sent.find? fun x => decide (x.req.id = id)).bind fun x =>
    x.reply.bind fun rep => replyTrap (BitVec.ofNat 64 x.req.pa) x.req rep.status

/-- A run with its refused stores counted (R302): each is a fault of its unit, and what it was to write is not complete. -/
def State.judged (s : State) (g : TileRun) : TileRun :=
  g.stores.foldl
    (fun g e => match s.refusedStore e.1 with
      | none => g
      | some t =>
        let g := { g with
          done := g.done.filter fun u => !e.2.2.contains u
          folded := g.folded.filter fun k => !decide (k = e.2.1.unit / g.chunks) }
        if g.aborted then g else g.fail { e.2.1 with cause := tileCause t }) g

/-- TILE_COMPLETE: the instruction ends when its work has (R301 to R303) and every store to another module is answered; a
store that was refused is a fault of its unit. -/
def execTileComplete (c : CoreRef) (tok : Nat) (s : State) : Host.Outcome State Fault Refusal :=
  .next (match s.tileAt c tok with
    | none => s
    | some x =>
      (match x.run with
        | none => s
        | some g =>
          if (s.task (x.taskRef c)).stopped || ((x.agents c tok g).any fun a => s.farPending a.task tok) then s
          else
            let own := (x.issuer c tok).task
            (match g.final with
              | some f => s.finishRun c tok x g f.2.1 f.2.2 (s.farRefused own tok)
              | none =>
                if !x.started then s
                else match (s.judged g).ending with
                  | none => s
                  | some e => s.endRun c tok x (s.judged g) e.1 e.2)))

/-! ### TWAIT, TSTAT, TABORT (R307) -/

/-- TWAIT's value: 0, or the cause of a FAULTED token. -/
def twaitValue (k : Token) : W64 :=
  if k.st = .faulted then BitVec.ofNat 64 (k.cause * 2 ^ 8 + if k.cause = 0x47 then 3 else 2) else 0

/-- TWAIT: stalls while kT is PENDING; no trap (R307, R251). -/
def semTwait (g : Guard) (tok : BitVec 6) (d : BitVec 5) : SlotSem :=
  semToken
    { guard := g
      wait := fun s0 s => if (s0.me.token tok.toNat).st = .pending then some s else none
      eff := fun s0 s =>
        let k := s0.me.token tok.toNat
        (s.modMe fun t => t.observe k.tc).push 1 (.scalar d.toNat (twaitValue k)) } tok

/-- The code of a token's state (Table 10.2). -/
def tokCode (k : TokState) : Nat :=
  match k with
  | .free => 0
  | .pending => 1
  | .done => 2
  | .faulted => 3

/-- Complete units of a running tile instruction. -/
def Core.unitsDone (c : Core) (ptok : Nat) : Nat :=
  match c.cmd ptok with
  | some x => (match x.kind, x.run with
    | .tile _ _ _, some g => g.done.length
    | _, _ => 0)
  | none => 0

/-- TSTAT (R307). -/
def semTstat (g : Guard) (tok : BitVec 6) (d : BitVec 5) : SlotSem :=
  semToken
    { guard := g
      eff := fun s0 s =>
        s.push 1 (.scalar d.toNat (BitVec.ofNat 64
          (tokCode (s0.me.token tok.toNat).st + s0.here.unitsDone (s0.myPhys tok.toNat) * 2 ^ 32))) } tok

/-- A tile instruction asked to abort (R307). -/
def Cmd.abort (x : Cmd) : Cmd :=
  { x with run := some ((x.run.getD (TileRun.fresh [])).abort x.started) }

/-- TABORT (R307). -/
def semTabort (g : Guard) (tok : BitVec 6) (d : BitVec 5) : SlotSem :=
  semToken
    { guard := g
      eff := fun s0 s =>
        let p := s0.myPhys tok.toNat
        match s0.tileAt s0.cur.coreRef p with
        | some x => (s.modHere fun c => c.setCmd p (some x.abort)).push 1 (.scalar d.toNat 0)
        | none => s.push 1 (.scalar d.toNat 1) } tok

/-! ### The instructions as steps -/

/-- tmm as a step: the issuing task issues the slot. -/
def execTmm (g : Guard) (tok : BitVec 6) (e : BitVec 4) (ord rz : BitVec 1) (s : State) : Host.Outcome State Fault Refusal :=
  issueSlot (semTmm g tok e ord rz) s

/-- tew as a step: the issuing task issues the slot. -/
def execTew (g : Guard) (tok : BitVec 6) (e : BitVec 4) (rz : BitVec 1) (s : State) : Host.Outcome State Fault Refusal :=
  issueSlot (semTew g tok e rz) s

/-- tred as a step: the issuing task issues the slot. -/
def execTred (g : Guard) (tok : BitVec 6) (e : BitVec 4) (ord rz : BitVec 1) (s : State) : Host.Outcome State Fault Refusal :=
  issueSlot (semTred g tok e ord rz) s

/-- tscan as a step: the issuing task issues the slot. -/
def execTscan (g : Guard) (tok : BitVec 6) (e : BitVec 4) (ord rz : BitVec 1) (s : State) : Host.Outcome State Fault Refusal :=
  issueSlot (semTscan g tok e ord rz) s

/-- txp as a step: the issuing task issues the slot. -/
def execTxp (g : Guard) (tok : BitVec 6) (e : BitVec 4) (s : State) : Host.Outcome State Fault Refusal :=
  issueSlot (semTxp g tok e) s

/-- tcvt as a step: the issuing task issues the slot. -/
def execTcvt (g : Guard) (tok : BitVec 6) (e : BitVec 4) (rz : BitVec 1) (s : State) : Host.Outcome State Fault Refusal :=
  issueSlot (semTcvt g tok e rz) s

/-- tcpy as a step: the issuing task issues the slot. -/
def execTcpy (g : Guard) (tok : BitVec 6) (e : BitVec 4) (s : State) : Host.Outcome State Fault Refusal :=
  issueSlot (semTcpy g tok e) s

/-- tbc as a step: the issuing task issues the slot. -/
def execTbc (g : Guard) (tok : BitVec 6) (e : BitVec 4) (s : State) : Host.Outcome State Fault Refusal :=
  issueSlot (semTbc g tok e) s

/-- twait as a step: the issuing task issues the slot. -/
def execTwait (g : Guard) (tok : BitVec 6) (d : BitVec 5) (s : State) : Host.Outcome State Fault Refusal :=
  issueSlot (semTwait g tok d) s

/-- tstat as a step: the issuing task issues the slot. -/
def execTstat (g : Guard) (tok : BitVec 6) (d : BitVec 5) (s : State) : Host.Outcome State Fault Refusal :=
  issueSlot (semTstat g tok d) s

/-- tabort as a step: the issuing task issues the slot. -/
def execTabort (g : Guard) (tok : BitVec 6) (d : BitVec 5) (s : State) : Host.Outcome State Fault Refusal :=
  issueSlot (semTabort g tok d) s

end Sys2Proof.Machine
end

