-- ==== Sys2Proof/Machine/Launches.lean ====
section
/-!
DEFINITION. Launches (R266 to R270, R306, R396): the launch message, admission, the placement of groups, the tile loop
sequencer's service (R276 to R279), the release of slots and the end of a launch; TLNCH.
-/

namespace Sys2Proof.Machine

/-! ### The launch message (Table 20.3) -/

/-- The permutation of a PERM field, first dimension fastest. -/
def permOf (v : Nat) : List Nat := (List.range 6).map fun n => v / 8 ^ n % 8

/-- Whether a PERM field is a permutation of 0 to 5. -/
def permOk (v : Nat) : Bool := decide (v < 2 ^ 18) && (List.range 6).all fun d => (permOf v).contains d

/-- Whether a launch message keeps its layout (R396). -/
def launchOk (b : List Byte) : Bool :=
  decide (bytesAt b 2 2 < 2 ^ 12) && permOk (bytesAt b 104 3) && decide (bytesAt b 107 1 = 0) && decide (bytesAt b 120 8 = 0)

/-- The kernel of a job's loaded image with an index. -/
def State.kernelOf (s : State) (job n : Nat) : Option Kernel :=
  match s.images.find? fun i => decide (i.job = job) with
  | some i => i.kernels[n]?
  | none => none

/-- The launch that a message asks for. -/
def launchOf (seq : Nat) (k : Kernel) (b : List Byte) (tlnch : Option (CoreRef × Nat)) (host : Option Nat) : Launch :=
  { seq := seq, id := BitVec.ofNat 64 (bytesAt b 112 8), job := bytesAt b 2 2, kernel := k,
    dieMask := BitVec.ofNat 8 (bytesAt b 1 1), seed := BitVec.ofNat 64 (bytesAt b 8 8),
    args := (List.range 7).map fun i => BitVec.ofNat 64 (bytesAt b (16 + 8 * i) 8),
    budget := BitVec.ofNat 64 (bytesAt b 72 8),
    nest := (List.range 6).map fun i => bytesAt b (80 + 4 * i) 4,
    perm := permOf (bytesAt b 104 3), grain := bytesAt b 108 4, loaded := true, placed := 0, ended := 0, slices := [],
    sets := [], tlnch := tlnch, fromHost := host, killed := false, finished := false }

/-! ### Capacity (R268, R269) -/

/-- Tasks of group i of a launch. -/
def Kernel.groupSize (k : Kernel) (i : Nat) : Nat := min k.group (k.tasks - i * k.group)

/-- Steps of a task's window (R158): `.scratch` rounded up to 256 KiB. -/
def Kernel.steps (k : Kernel) : Nat := (k.scratch + 255) / 256

/-- Tasks of a kernel that an empty core takes. -/
def Kernel.perCore (k : Kernel) : Nat :=
  min (min 4 (64 / k.vregs)) (if k.steps = 0 then 4 else 12 / k.steps)

/-- Dies of a launch's mask. -/
def Launch.dies (l : Launch) : List Nat := (List.range 8).filter fun d => l.dieMask.getLsbD d

/-- Whether some cluster of the mask's dies could hold a group with every slot free. -/
def State.holdable (s : State) (l : Launch) : Bool :=
  l.dies.any fun d => (List.range 12).any fun k =>
    decide (l.kernel.groupSize 0 ≤ l.kernel.perCore * ((clusterCores d k).filter fun c => !s.isRetired c).length)

/-- The dispatch-capacity fault of a refused launch, posted on the lowest die of its mask. -/
def State.refuseCapacity (s : State) (l : Launch) : State :=
  s.postFault (l.dies.headD 0) 96 0 l.job 0x0D 0

/-! ### Placement (R268) -/

/-- The task with a logical index as it stands when it is dispatched (R76, R88, R118, R119, R130, R158, R243, R266). -/
def Launch.task (l : Launch) (n : Nat) (bars : List Nat) (vbase wbase : Nat) (time : W64) : Task :=
  let k := l.kernel
  let x := n % k.gridX
  let y := n / k.gridX % k.gridY
  let z := n / (k.gridX * k.gridY) % k.gridZ
  let st := n / (k.gridX * k.gridY * k.gridZ)
  { Task.blank with
    launch := l.seq, job := l.job, codeBase := k.codeBase, codeLen := k.codeLen, vregs := k.vregs,
    lidx := BitVec.ofNat 64 n, lcoord := BitVec.ofNat 64 (x + y * 2 ^ 16 + z * 2 ^ 32 + st * 2 ^ 48),
    gidx := BitVec.ofNat 64 (n / k.group), grank := BitVec.ofNat 64 (n % k.group), bars := bars, vbase := vbase,
    wbase := wbase, wsize := k.steps,
    sregs := (List.range 7).foldl (fun t i => Tbl.set 0 t (i + 1) (l.args.getD i 0)) [],
    budget := l.budget, pc := k.entry, rng := ⟨rngBlock l.seed (BitVec.ofNat 64 n), 0, 0⟩, time := time }

/-- A task placed on a core, if the core can take it: its window and vector block are zero (R132, R159). -/
def State.takeOn (s : State) (l : Launch) (n : Nat) (bars : List Nat) (c : CoreRef) : Option State :=
  if s.isRetired c then none
  else
    match s.freeSlot c, (s.core c).freeBlock l.kernel.vregs, (s.core c).freeWindow l.kernel.steps with
    | some slot, some vb, some wb =>
      let s := s.zeroWindow c wb l.kernel.steps
      let s := s.modCore c fun k => ((k.dropRo).zeroBlock vb l.kernel.vregs).undefineTiles ⟨c.die, c.core, slot⟩
      some (s.setTask ⟨c.die, c.core, slot⟩ (l.task n bars vb wb s.hwm))
    | _, _, _ => none

/-- The first index from j on, round robin over a cluster's eight, whose core takes the task. -/
def State.takeFrom (s : State) (l : Launch) (n : Nat) (bars : List Nat) (cores : List CoreRef) (j : Nat) :
    Option (State × Nat) :=
  (List.range 8).findSome? fun i =>
    match cores[(j + i) % 8]? with
    | some c => (s.takeOn l n bars c).map fun x => (x, j + i)
    | none => none

/-- The tasks of a group placed one after the other, each on the next core that can take it. -/
def State.takeGroup (l : Launch) (bars : List Nat) (cores : List CoreRef) : List Nat → Nat → State → Option (State × Nat)
  | [], j, s => some (s, j)
  | n :: rest, j, s =>
    match s.takeFrom l n bars cores j with
    | some (s, i) => State.takeGroup l bars cores rest (i + 1) s
    | none => none

/-- The n lowest free barriers of a die. -/
def State.freeBars (s : State) (die n : Nat) : Option (List Nat) :=
  let l := ((List.range 256).filter fun b => !((s.die die).barrier b).alloc).take n
  if l.length = n then some l else none

/-- A group's barriers at its placement (R272). -/
def State.takeBars (s : State) (die : Nat) (bars : List Nat) (count group owner : Nat) : State :=
  bars.foldl (fun s b => s.modDie die fun d => d.setBarrier b ⟨count, 0, false, true, group, 0, 0, owner⟩) s

/-- Group i of a launch placed on a cluster from index j on; the index after the last core used. -/
def State.placeOn (s : State) (l : Launch) (i die cluster j : Nat) : Option (State × Nat) :=
  match s.freeBars die l.kernel.barriers with
  | none => none
  | some bars =>
    let n := l.kernel.groupSize i
    State.takeGroup l bars (clusterCores die cluster) ((List.range n).map fun k => i * l.kernel.group + k) j
      (s.takeBars die bars n i (l.seq + 1))

/-- Clusters that the dispatcher tries, from its pointer on, each with the index it begins at. -/
def State.tryOrder (s : State) (l : Launch) : List (Nat × Nat) :=
  let p := s.pointer / 8
  let all := l.dies.flatMap fun d => (List.range 12).map fun k => 12 * d + k
  ((all.filter fun q => decide (p ≤ q)) ++ all.filter fun q => decide (q < p)).map fun q =>
    (q, if q = p then s.pointer % 8 else 0)

/-- Group i of a launch placed on the first cluster that takes it whole, the pointer moved past it. -/
def State.placeGroup (s : State) (l : Launch) (i : Nat) : Option State :=
  (s.tryOrder l).findSome? fun q =>
    (s.placeOn l i (q.1 / 12) (q.1 % 12) q.2).map fun x =>
      { x.1 with pointer := (8 * q.1 + (if x.2 = 0 then 0 else (x.2 - 1) % 8) + 1) % 768 }

/-! ### Admission and dispatch -/

/-- A launch forgotten: it was refused. -/
def State.dropLaunch (s : State) (seq : Nat) : State := s.modLaunch seq fun l => { l with finished := true }

/-- A TLNCH whose bindings have completed reads its block, and its launch is admitted or refused (R306, R396,
R268). -/
def State.loadLaunch (s : State) (seq : Nat) : State :=
  match s.launch? seq with
  | none => s
  | some l =>
    match l.loaded || l.finished, l.tlnch with
    | false, some (c, ptok) =>
      match (s.core c).cmd ptok with
      | none => s.dropLaunch seq
      | some x =>
        let t := (s.task (x.taskRef c)).time
        let refuse := fun (s : State) (cause : Nat) => (s.endCmd c ptok cause t).dropLaunch seq
        if x.deps ≠ [] ∨ (s.task (x.taskRef c)).stopped = true then s
        else if x.depFault.isSome then refuse s 0x43
        else
          let y := s.readRun (x.issuer c ptok) (x.fields.get 0 0) 128
          let s := y.1
          match y.2 with
          | .error none => s
          | .error (some e) => refuse s e.cause
          | .ok b =>
            match s.kernelOf (bytesAt b 2 2) (bytesAt b 4 4) with
            | some k =>
              let l := launchOf seq k b (some (c, ptok)) none
              if !launchOk b || decide (l.job ≠ s.jobid.toNat) then
                refuse s.tookFree (1 + Config.freePick s.freeCtr % 255)
              else if !s.holdable l then refuse (s.refuseCapacity l) 0x0D
              else (s.modLaunch seq fun _ => l).modCore c fun k => k.setCmd ptok (some { x with started := true })
            | none => refuse s.tookFree (1 + Config.freePick s.freeCtr % 255)
    | _, _ => s

/-- Whether a launch has a group to place that the module may place now (R371). -/
def State.mayDispatch (s : State) (l : Launch) : Bool :=
  l.loaded && !l.finished && decide (l.placed < l.kernel.tasks) && !s.jobStopped l.job && decide (l.job = s.jobid.toNat)
    && s.fatal.isNone

/-- DISPATCH_GROUP: the dispatcher places the next group of a launch whole, if a cluster takes it (R268). -/
def execDispatchGroup (launch : Nat) (s : State) : Host.Outcome State Fault Refusal :=
  .next (
    let s := s.loadLaunch launch
    match s.launch? launch with
    | none => s
    | some l =>
      if !s.mayDispatch l then s
      else
        let i := l.placed / l.kernel.group
        match s.placeGroup l i with
        | some s' => s'.modLaunch launch fun l => { l with placed := l.placed + l.kernel.groupSize i }
        | none => s)

/-! ### The tile loop sequencer (R276 to R279) -/

/-- A slice of a launch replaced. -/
def Launch.setSlice (l : Launch) (k : Nat) (x : Slice) : Launch := { l with slices := Tbl.set none l.slices k (some x) }

/-- A claim served (R277): SLN := min(max(v, SLN), SLE). -/
def Slice.claimed (v : W64) (x : Slice) : Slice :=
  let m := tmax v x.sln
  { x with sln := if m < x.sle then m else x.sle }

/-- The cycle in which a request to the sequencer was made. -/
def Hold.loopCycle (h : Hold) : Option W64 :=
  match h with
  | .claim _ n => some n
  | .steal n => some n
  | _ => none

/-- Whether a request to the sequencer precedes another: by cycle, then by logical time, then by Rotunda position (R279).
The cycle is that of its issue, since the spec gives the way to the sequencer no length: DESIGN CHOICE,
notes/assumptions/126. -/
def State.loopBefore (s : State) (q r : TaskRef) (m n : W64) : Bool :=
  let a := [m.toNat, (s.task q).time.toNat, positionOf q]
  let b := [n.toNat, (s.task r).time.toNat, positionOf r]
  a.lex b

/-- Whether the request of a task is the sequencer's next of its launch (R279). -/
def State.loopTurn (s : State) (r : TaskRef) : Bool :=
  match (s.headHold r).bind Hold.loopCycle with
  | none => false
  | some n => s.residents.all fun q =>
    decide (q = r) || decide ((s.task q).launch ≠ (s.task r).launch)
      || (match (s.headHold q).bind Hold.loopCycle with
        | none => true
        | some m => !s.loopBefore q r m n)

/-- CLAIM: the sequencer serves the claim of a task (R277). -/
def execClaim (t : TaskRef) (s : State) : Host.Outcome State Fault Refusal :=
  .next (if !s.loopTurn t then s else match s.headHold t with
    | some (.claim v _) =>
      let k := (s.task t).lidx.toNat
      (s.modLaunch (s.task t).launch fun l => l.setSlice k ((l.slice k).claimed v)).dropHold t
    | _ => s)

/-- Untaken iterations of a slice (R277). -/
def Slice.untaken (x : Slice) : Nat := x.sle.toNat - x.sln.toNat

/-- The victim of a steal: the other task with the most untaken iterations, of the lowest index (R278). -/
def Launch.victim (l : Launch) (h : Nat) : Option (Nat × Nat) :=
  (List.range l.kernel.tasks).foldl
    (fun a k => if k = h then a
      else match a with
        | some (_, u) => if u < (l.slice k).untaken then some (k, (l.slice k).untaken) else a
        | none => some (k, (l.slice k).untaken)) none

/-- A launch after the steal request of task h (R278). -/
def Launch.stolen (l : Launch) (h : Nat) : Launch :=
  if l.grain = 0 then l
  else
    let x := l.slice h
    let nothing := l.setSlice h ⟨x.sle, x.sle, x.sle⟩
    match l.victim h with
    | none => nothing
    | some (v, u) =>
      if u < 2 * l.grain then nothing
      else
        let y := l.slice v
        let m := y.sle - BitVec.ofNat 64 (u / (2 * l.grain) * l.grain)
        (l.setSlice h ⟨m, y.sle, m⟩).setSlice v { y with sle := m }

/-- STEAL_REQUEST: the sequencer serves the steal request of a task (R278). -/
def execStealRequest (t : TaskRef) (s : State) : Host.Outcome State Fault Refusal :=
  .next (if !s.loopTurn t then s else match s.headHold t with
    | some (.steal _) =>
      (s.modLaunch (s.task t).launch fun l => l.stolen (s.task t).lidx.toNat).dropHold t
    | _ => s)

/-! ### Ends (R270, R306, Table 20.2) -/

/-- Whether an ended task's slot may free: nothing of it is outstanding (R270). -/
def State.slotDone (s : State) (t : TaskRef) : Bool :=
  match s.task? t with
  | some x => decide (x.status = .ending) && decide (x.holds = []) && !(s.core t.coreRef).busySlot t.slot
  | none => false

/-- SLOT_RELEASE: the slot of an ended task frees once its commands have completed (R270). -/
def execSlotRelease (t : TaskRef) (s : State) : Host.Outcome State Fault Refusal :=
  .next (if s.slotDone t then s.freeSlotOf t else s)

/-- The EtherType of a host frame (R394). -/
def hostEtherType : Nat := 0x88B5

/-- ROUTE of a host message: this module's D0, router (0, 10), agent 0 (R394, R333). -/
def State.hostRoute (s : State) : Nat := s.module.toNat + 10 * 2 ^ 9

/-- The text of a frame that its ICV covers: EtherType, host header, and the slots of its cells (R394, R332). -/
def frameText (f : HostFrame) : List Byte :=
  (leBytes 2 f.etherType).reverse ++ leBytes 2 f.version ++ leBytes 2 f.count ++ leBytes 4 f.seq ++ f.cells.flatMap slotBytes

/-- The secure association of a direction, the newest of two. -/
def HostPort.assoc (rx : Bool) (h : HostPort) : Option SecAssoc := h.sas.reverse.find? fun a => decide (a.rx = rx)

/-- The frame that carries a cell to the host, protected under the sending association (R393, R394). -/
def HostPort.frameOf (h : HostPort) (c : Cell) : HostFrame :=
  let a := h.assoc false
  let f : HostFrame :=
    { secure := a.isSome, an := (a.map SecAssoc.an).getD 0, pn := (a.map SecAssoc.next).getD 0, icv := [], etherType := hostEtherType,
      version := 1, count := 1, seq := (h.txSeq + 1) % 2 ^ 32, cells := [c] }
  { f with icv := Config.macsecIcv ((a.map SecAssoc.key).getD []) f.pn (frameText f) }

/-- The port with the next packet number of an association taken. -/
def HostPort.counted (rx : Bool) (an n : Nat) (h : HostPort) : HostPort :=
  { h with sas := h.sas.map fun a => if a.rx = rx ∧ a.an = an then { a with next := n + 1 } else a }

/-- The port with a cell sent in a frame of its own. -/
def HostPort.sendCell (c : Cell) (h : HostPort) : HostPort :=
  let f := h.frameOf c
  { h.counted false f.an f.pn with replies := h.replies ++ [f], txSeq := f.seq }

/-- A host reply (R395): KIND + 0x80, status, the frame sequence, and contents from byte 8 on, in one TYPE 10 cell. -/
def State.reply (s : State) (kind status seq : Nat) (contents : List Byte) : State :=
  let b := leBytes 1 (kind + 0x80) ++ leBytes 1 status ++ [0, 0] ++ leBytes 4 seq ++ contents
  { s with host := s.host.sendCell (routedCell 10 s.hostRoute 0 (padTo 128 b)) }

/-- Whether every task of a launch has ended and every command of its tasks has completed. -/
def State.launchOver (s : State) (l : Launch) : Bool :=
  l.loaded && !l.finished && decide (l.placed = l.kernel.tasks) && decide (l.ended = l.kernel.tasks)
    && s.residents.all fun r => decide ((s.task r).launch ≠ l.seq)

/-- LAUNCH_COMPLETE: the TLNCH's token ends, FAULTED where a task was killed (R306), and the host is told (Table
20.2). -/
def execLaunchComplete (launch : Nat) (s : State) : Host.Outcome State Fault Refusal :=
  .next (match s.launch? launch with
    | none => s
    | some l =>
      if !s.launchOver l then s
      else
        let s := s.dropLaunch launch
        let s := match l.fromHost with
          | some seq => s.reply 0x11 0 seq (leBytes 8 l.id.toNat)
          | none => s
        match l.tlnch with
        | some (c, ptok) => s.endCmd c ptok (if l.killed then 0x47 else 0) s.hwm
        | none => s)

/-! ### TLNCH (R306) -/

/-- TLNCH: accepted on a control or lodge core; the launch is admitted once its bindings have completed. -/
def semTlnch (g : Guard) (tok : BitVec 6) (e : BitVec 4) : SlotSem :=
  semToken
    { guard := g
      place := .lodgeControl
      trap := fun slot s0 => tileTrap tok.toNat slot (s0.me.descriptor e.toNat) s0
      eff := fun s0 s =>
        let f := s0.me.descriptor e.toNat
        let n := s.launches.length
        let l := { launchOf n Kernel.none [] (some (s0.cur.coreRef, s0.myPhys tok.toNat)) none with loaded := false }
        let s := s0.issueCmd s .tlnch tok.toNat f (kinTokens f) false none
        { s with launches := s.launches ++ [l] }.loadLaunch n } tok

/-! ### The instructions as steps -/

/-- tlnch as a step: the issuing task issues the slot. -/
def execTlnch (g : Guard) (tok : BitVec 6) (e : BitVec 4) (s : State) : Host.Outcome State Fault Refusal :=
  issueSlot (semTlnch g tok e) s

end Sys2Proof.Machine
end

