-- ==== Sys2Proof/Machine/Attest.lean ====
section
/-!
DEFINITION. The attestation unit (R397 to R407): ATTEST and KEYLD, and ATTEST_SERVE, which serves the requests of the
lodges in the order of their arrival.
-/

namespace Sys2Proof.Machine

/-! ### Records (Tables 20.4 and 20.5) -/

/-- Bytes of the signed header, and of the whole output area (R403, R404). -/
def recordArea : Nat := 0x6000

/-- Whether a request keeps Table 20.4. -/
def requestOk (b : List Byte) : Bool :=
  let sign := decide (bytesAt b 0 1 = 0)
  decide (bytesAt b 0 1 ≤ 1) && decide (bytesAt b 1 1 ≤ 1) && decide (bytesAt b 2 2 < 2 ^ 12) && decide (bytesAt b 4 4 = 0)
    && decide (bytesAt b 24 8 = 0)
    && (sign || (isForm01 (BitVec.ofNat 64 (bytesAt b 8 8)) && decide (0 < bytesAt b 16 8) && decide (bytesAt b 16 8 ≤ 2 ^ 32)))

/-- A measurement record's header (Table 20.5) for a request under an index. -/
def State.recordHeader (s : State) (b : List Byte) (idx : Nat) : List Byte :=
  let job := bytesAt b 2 2
  leBytes 4 0x31545441 ++ leBytes 2 1 ++ leBytes 2 (s.module.toNat) ++ leBytes 8 Config.serial.toNat
    ++ leBytes 8 Config.fwVersion.toNat ++ leBytes 8 (idx % 2 ^ 40) ++ exactly 32 (b.drop 32)
    ++ exactly 32 s.attest.mboot ++ exactly 32 s.attest.mfw
    ++ (if job = 0 then List.replicate 32 0 else s.jobMeasure job) ++ leBytes 2 job ++ List.replicate 6 0
    ++ (match s.attest.held with
      | some k => exactly 32 (Config.shake256 (Config.kemPublic k))
      | none => List.replicate 32 0)
    ++ exactly 32 s.attest.mcfg ++ List.replicate 24 0

/-- The identity public key: the OID, the root and the public seed (R397). -/
def identityKey : List Byte := exactly 4 Config.identityOid ++ exactly 32 Config.identityRoot ++ exactly 32 Config.identitySeed

/-- A signature of a message under an index: the index, the randomiser and the four layers (R397). The index stands in the
order of R6: DESIGN CHOICE, notes/assumptions/127. -/
def signatureOf (idx : Nat) (m : List Byte) : List Byte := leBytes 5 idx ++ exactly 9888 (Config.xmssSign idx m)

/-- What the unit writes of a record, each part at its offset in the output area: the header, the signature, the
encapsulation key, and the identity key with its certificate (R404, R398). -/
def State.measureRecord (s : State) (b : List Byte) (idx : Nat) (fresh : Bool) : List (Nat × List Byte) :=
  let h := s.recordHeader b idx
  let kem := match fresh, s.attest.held with
    | true, some k => exactly 1568 (Config.kemPublic k)
    | _, _ => List.replicate 1568 0
  [(0, h), (0x100, signatureOf idx h), (0x2800, kem), (0x3000, identityKey ++ exactly 9893 Config.certificate)]

/-- A fresh key-establishment key made, replacing any held one (R404). -/
def Attest.freshKey (a : Attest) : Attest := { a with held := some a.kemCount, kemCount := a.kemCount + 1 }

/-- A request for a signature served: the state, the status and the parts of the record where one was made (R399, R404). -/
def State.signRequest (s : State) (b : List Byte) : State × Nat × List (Nat × List Byte) :=
  let job := bytesAt b 2 2
  if requestOk b = false ∨ (job ≠ 0 ∧ (s.keyEntry? job).isNone) then (s, 2, [])
  else if s.attest.nextIdx = 2 ^ 40 then (s, 1, [])
  else
    let fresh := decide (bytesAt b 1 1 = 1)
    let idx := s.attest.nextIdx
    let a := if fresh then s.attest.freshKey else s.attest
    let s := { s with attest := { a with nextIdx := idx + 1 } }
    (s, 0, s.measureRecord b idx fresh)

/-! ### ATTEST (R403, R404) -/

/-- A request put in the unit's queue: in order of arrival, and in ascending die order within a cycle (R404). A request
arrives in the cycle of its issue: DESIGN CHOICE, notes/assumptions/126. -/
def Attest.enqueue (now : W64) (r : TaskRef) (a : Attest) : Attest :=
  let later := fun (x : W64 × TaskRef) => decide (x.1 = now) && decide (r.die < x.2.die)
  { a with queue := a.queue.takeWhile (fun x => !later x) ++ (now, r) :: a.queue.dropWhile fun x => !later x }

/-- The request of an ATTEST as its lodge reads it at issue, which gives its op (R403). -/
def State.attestRecord (s : State) (a : W64) : State × Got := s.lodgeRead s.cur.die a 64

/-- Whether the operands of ATTEST keep R403; the op is that of the request as it stands at issue. -/
def attestTrap (k : Nat) (a b : W64) (s : State) : Option Trap :=
  match sysTrap (!isForm01 a || decide (addrOff a % 64 ≠ 0)) k with
  | some t => some t
  | none =>
    match (s.attestRecord a).2 with
    | .failed t => some t
    | .waits => none
    | .bytes r => sysTrap (decide (bytesAt r 0 1 = 0) && (!isForm01 b || decide (addrOff b % 4096 ≠ 0))) k

/-- ATTEST: the request goes to the unit and waits its turn. -/
def semAttest (g : Guard) (a b c : BitVec 5) : SlotSem :=
  { guard := g
    place := .lodge
    trap := fun k s0 => attestTrap k (s0.sreg a) (s0.sreg b) s0
    wait := fun s0 s => if (s0.attestRecord (s0.sreg a)).2 = .waits then some (s.attestRecord (s0.sreg a)).1 else none
    eff := fun s0 s =>
      let s := (s.attestRecord (s0.sreg a)).1.lodgeRest s0.cur.die
      { s.holdOn (.attest c.toNat (s0.sreg a) (s0.sreg b)) with attest := s.attest.enqueue s0.cycle s0.cur } }

/-- The parts of a record written to an output area under the firmware key; the first refusal ends them (R404, R253). -/
def State.writeArea (s : State) (die : Nat) (a : W64) : List (Nat × List Byte) → State × Option Trap
  | [] => (s, none)
  | (o, b) :: l =>
    let x := s.lodgeStore die 0 (a + BitVec.ofNat 64 o) b
    match x.2 with
    | .failed t => (x.1, some t)
    | _ => x.1.writeArea die a l

/-- Whether the output area is held, by a DOMSET or by a line of a squashed bundle (R239, R167). -/
def State.areaHeld (s : State) (a : W64) : Bool :=
  let o := paOffset (addrOff a)
  decide (paModule (addrOff a) = s.module.toNat) && (s.runHeld o recordArea true || s.sliceHeld o)

/-- The extension of a job's measurement that a request asks for: the status; none while its read waits (R404). -/
def State.serveExtend (s : State) (die : Nat) (b : List Byte) : State × Option Nat :=
  let y := s.lodgeRead die (BitVec.ofNat 64 (bytesAt b 8 8)) (bytesAt b 16 8)
  match y.2 with
  | .failed t => (y.1.postUnread die t, some 2)
  | .waits => (y.1, none)
  | .bytes d => (y.1.extendJob (bytesAt b 2 2) d, some 0)

/-- An ATTEST request of a lodge served (R404): the status; none while an access of it waits. -/
def State.serveAttest (s : State) (die : Nat) (req area : W64) : State × Option Nat :=
  let x := s.lodgeRead die req 64
  match x.2 with
  | .failed t => (x.1.postUnread die t, some 2)
  | .waits => (x.1, none)
  | .bytes b =>
    let s := x.1
    let job := bytesAt b 2 2
    if requestOk b = false ∨ (job ≠ 0 ∧ (s.keyEntry? job).isNone) then (s, some 2)
    else if bytesAt b 0 1 = 1 then s.serveExtend die b
    else if isForm01 area = false ∨ addrOff area % 4096 ≠ 0 then (s, some 2)
    else if s.areaHeld area then (s, none)
    else
      let y := s.signRequest b
      if y.2.1 ≠ 0 then (s, some y.2.1)
      else
        let z := y.1.writeArea die area y.2.2
        (match z.2 with
          | none => (z.1, some 0)
          | some t => (z.1.postUnread die t, some 2))

/-! ### KEYLD (R407) -/

/-- Job of a KEYLD operand. -/
def keyJob (v : W64) : Nat := v.toNat % 2 ^ 12
/-- Op of a KEYLD operand: 0 install, 1 clear. -/
def keyldOp (v : W64) : Nat := v.toNat / 2 ^ 12

/-- KEYLD: the request goes to the unit and waits its turn. -/
def semKeyld (g : Guard) (a b c : BitVec 5) : SlotSem :=
  { guard := g
    place := .lodge
    trap := fun k s0 =>
      let v := s0.sreg a
      sysTrap (decide (1 < keyldOp v)
        || (decide (keyldOp v = 0) && (!isForm01 (s0.sreg b) || decide (addrOff (s0.sreg b) % 64 ≠ 0)))) k
    eff := fun s0 s =>
      { s.holdOn (.keyld c.toNat (s0.sreg a) (s0.sreg b)) with attest := s.attest.enqueue s0.cycle s0.cur } }

/-- The key material of a blob for a job under the held key, if it opens (R407, Table 20.7). -/
def openBlob (held job : Nat) (b : List Byte) : Option (List Byte) :=
  let part := fun i n => (b.drop i).take n
  let ss := Config.kemDecaps held (part 0 1568)
  let kw := Config.shake256 (ss ++ leBytes 2 job)
  match Config.gcmOpen kw (part 1568 12) (part 1580 96) (part 1676 16) with
  | none => none
  | some m => if bytesAt b 1692 356 = 0 then some (exactly 96 m) else none

/-- A blob installed for a job: the state and the status (R407). -/
def State.installKey (s : State) (job : Nat) (b : List Byte) : State × Nat :=
  match s.attest.held with
  | none => (s, 1)
  | some k =>
    match openBlob k job b with
    | none => (s, 2)
    | some m =>
      if (s.keyEntry? job).isSome then (s, 4)
      else if 64 ≤ s.keys.length then (s, 3)
      else
        ({ s with
           keys := s.keys ++ [⟨job, m, exactly 32 (Config.shake256 b)⟩]
           attest := { s.attest with held := none } }, 0)

/-- An entry cleared: the state and the status (R407). -/
def State.clearKey (s : State) (job : Nat) : State × Nat :=
  if job = s.jobid.toNat ∨ s.isSwitched job = true then (s, 5) else (s.removeKey job, 0)

/-- A KEYLD request of a lodge served (R407): the status; none while its read waits. -/
def State.serveKeyld (s : State) (die : Nat) (v blob : W64) : State × Option Nat :=
  if keyldOp v = 1 then ((s.clearKey (keyJob v)).1, some (s.clearKey (keyJob v)).2)
  else if s.attest.held.isNone then (s, some 1)
  else
    let x := s.lodgeRead die blob 2048
    match x.2 with
    | .failed t => (x.1.postUnread die t, some 2)
    | .waits => (x.1, none)
    | .bytes b => ((x.1.installKey (keyJob v) b).1, some (x.1.installKey (keyJob v) b).2)

/-! ### The unit -/

/-- The first request of the unit off its queue. -/
def State.unitNext (s : State) : State := { s with attest := { s.attest with queue := s.attest.queue.drop 1 } }

/-- A request of the unit at its end: its lodge task's operation completes with a status, or waits at the head. -/
def State.unitEnds (r : TaskRef) (d : Nat) (x : State × Option Nat) : State :=
  match x.2 with
  | some st => (x.1.unitNext.lodgeRest r.die).settle r d (BitVec.ofNat 64 st)
  | none => x.1

/-- The next request of the unit served: its lodge task's operation completes (R404, R407). -/
def State.serveUnit (s : State) : State :=
  match s.attest.queue with
  | [] => s
  | (_, r) :: _ =>
    match s.headHold r with
    | some (.attest d req area) => State.unitEnds r d (s.serveAttest r.die req area)
    | some (.keyld d v blob) => State.unitEnds r d (s.serveKeyld r.die v blob)
    | _ => s.unitNext

/-- ATTEST_SERVE (R404): one request is served in arrival order, once the cycle in which it came is over. -/
def execAttestServe (s : State) : Host.Outcome State Fault Refusal :=
  .next (match s.attest.queue with
    | [] => s
    | (n, _) :: _ => if n = s.cycle then s else s.serveUnit)

/-! ### The instructions as steps -/

/-- attest as a step: the issuing task issues the slot. -/
def execAttest (g : Guard) (a b c : BitVec 5) (s : State) : Host.Outcome State Fault Refusal :=
  issueSlot (semAttest g a b c) s

/-- keyld as a step: the issuing task issues the slot. -/
def execKeyld (g : Guard) (a b c : BitVec 5) (s : State) : Host.Outcome State Fault Refusal :=
  issueSlot (semKeyld g a b c) s

end Sys2Proof.Machine
end

