-- ==== Sys2Proof/Machine/Checkpoint.lean ====
section
/-!
DEFINITION. Errors of the array and its stores (R205 to R209, R299, R386, R387): rollback, the two reruns, recovery
and retirement: the steps ARRAY_ERROR, RERUN_DONE and REGION_UNPROTECTED.
-/

namespace Sys2Proof.Machine

/-! ### Records -/

/-- RETREC (R387). -/
def retrecBytes (source outcome slot : Nat) (lidx : W64) (addr : W32) (c1 c2 s1 s2 cycle : W64) : List Byte :=
  leBytes 1 source ++ leBytes 1 outcome ++ leBytes 1 slot ++ leBytes 5 0 ++ leBytes 8 lidx.toNat ++ leBytes 4 addr.toNat
    ++ leBytes 4 0 ++ leBytes 8 c1.toNat ++ leBytes 8 c2.toNat ++ leBytes 8 s1.toNat ++ leBytes 8 s2.toNat
    ++ leBytes 8 cycle.toNat

/-- The tasks of a core that have not ended, by slot. -/
def Core.livingSlots (c : Core) : List Nat :=
  c.tasks.filterMap fun e => match e.2 with
    | some t => if t.status = .ending then none else some e.1
    | none => none

/-- A core retired (R209): it takes no further dispatch, and each of its tasks halts with a core-retired fault. -/
def State.retire (s : State) (c : CoreRef) (source : Nat) : State :=
  let s := s.modLodge c.die fun l => if l.retired.contains c.core then l else { l with retired := l.retired ++ [c.core] }
  let s := (s.core c).livingSlots.foldl
    (fun s k =>
      let r : TaskRef := ⟨c.die, c.core, k⟩
      (s.postTaskFault r 0xA3 (BitVec.ofNat 64 source)).modTask r fun t => { t with halted := true }) s
  s.modCore c fun k => { k with rerun := none, regions := [] }

/-! ### Rollback (R208) -/

/-- A token after a rollback: as it was at the CKPT, but one whose production began before the region stands as that
production has left it. `now` is the token before the rollback, `runs` whether its command is still in the buffer, and
`made` whether the region produced it. -/
def Token.rolledBack (saved now : Token) (runs made : Bool) : Token :=
  if saved.st ≠ .pending then saved
  else if runs then now
  else if made ∨ now.st = .free then ⟨.done, 0, now.tc⟩
  else now

/-- A task with its captured state back (R126, R206). -/
def Task.rolledBack (now saved : Task) : Task :=
  { now with
    sregs := saved.sregs, preds := saved.preds, fstat := saved.fstat, budget := saved.budget, bwarn := saved.bwarn,
    bcnt := saved.bcnt, rbaseV := saved.rbaseV, rbaseQ := saved.rbaseQ, pc := saved.pc, target := saved.target,
    delay := saved.delay, tb := saved.tb, loops := saved.loops, shadows := saved.shadows, qregs := saved.qregs,
    pend := saved.pend, rng := saved.rng, ags := saved.ags, mskip := saved.mskip, status := saved.status,
    halted := false, ctl := .none }

/-- An item of the log restored. -/
def State.restoreLogged (c : CoreRef) (s : State) (x : LogItem) : State :=
  match x with
  | .vreg p old => s.modCore c fun k => { k with vfile := Tbl.set VReg.zero k.vfile p old }
  | .bytes a old => { s with mem := s.mem.setBytes a old }

/-- The tile entries of a slot restored. -/
def Core.restoreTiles (c : Core) (r : TaskRef) (l : List TileEntry) : Core :=
  ((List.range l.length).zip l).foldl (fun c e => c.setTile (physTile r e.1) e.2) c

/-- A task rolled back to its CKPT; its region starts again with an empty log (R208). -/
def State.rollBack (s : State) (r : TaskRef) (g : Region) : State :=
  let now := s.task r
  let tokens := (List.range (tokenCount r.core)).foldl
    (fun m n => Tbl.set Token.free m n
      ((g.saved.token n).rolledBack (now.token n) ((s.core r.coreRef).cmd (physToken r n)).isSome (g.made.contains n))) []
  let s := g.items.foldl (State.restoreLogged r.coreRef) s
  let s := s.setTask r { now.rolledBack g.saved with tokens := tokens }
  s.modCore r.coreRef fun c =>
    { c.restoreTiles r g.tiles with
      regions := Tbl.set none c.regions r.slot
        (some { g with items := [], charge := 0, bundles := 0, writes := [], cycles := 0, made := [], closed := false }) }

/-! ### The reruns (R208) -/

/-- The count of a run: its bundles and the array cycles of its streams. -/
def Region.count (g : Region) : W64 := BitVec.ofNat 64 (g.bundles + g.cycles)

/-- A task halted again that was halted before the error. -/
def State.haltAgain (s : State) (r : TaskRef) (x : Rerun) : State :=
  if x.halted.contains r.slot then
    (s.modTask r fun t => { t with halted := true }).modCore r.coreRef fun c => { c with regions := Tbl.erase c.regions r.slot }
  else s

/-- The end of the second rerun: agreement recovers, anything else retires the core (R208, R209). -/
def State.judgeReruns (s : State) (r : TaskRef) (g : Region) (x : Rerun) : State :=
  let c := r.coreRef
  let sig := Config.signature g.writes
  let ok := !x.failed && decide (x.count1 = g.count) && decide (x.sig1 = sig)
  let s := s.modCore c fun k =>
    { k with
      rerun := none
      retrec := retrecBytes x.source (if ok then 1 else 2) r.slot (s.task r).lidx g.addr x.count1 g.count x.sig1 sig s.cycle }
  if ok then (s.postEvent r 0xA4 (BitVec.ofNat 64 x.source)).haltAgain r x else s.retire c x.source

/-- A core retired because a rerun was lost (R208): RETREC is rewritten, with the counts and signatures of the runs that were
made, and free values for one that was not (R387). -/
def State.retireLost (s : State) (r : TaskRef) (addr : W32) (count sig : W64) (x : Rerun) : State :=
  let n := s.freeCtr
  let rec' := if x.run = 1 then
      retrecBytes x.source 2 r.slot (s.task r).lidx addr count (Config.freeWord n) sig (Config.freeWord (n + 1)) s.cycle
    else retrecBytes x.source 2 r.slot (s.task r).lidx addr x.count1 count x.sig1 sig s.cycle
  ((s.tookFree 2).modCore r.coreRef fun k => { k with retrec := rec' }).retire r.coreRef x.source

/-- What stands next in the recovery of a core: the first rollback once the region's commands have finished, the second
after the first rerun, or the judgement (R208). A region that was lost in a rerun is a disagreement. -/
def State.recover (s : State) (c : CoreRef) : State :=
  match (s.core c).rerun with
  | none => s
  | some x =>
    let r : TaskRef := ⟨c.die, c.core, x.slot⟩
    if s.fatal.isSome ∨ (s.core c).busyInside x.slot = true then s
    else
      match (s.core c).regions.get none x.slot with
      | none => s.retireLost r 0 0 0 x
      | some g =>
        if x.run = 0 then
          (s.rollBack r g).modCore c fun k => { k with rerun := some { x with run := 1, left := x.bundles } }
        else if g.closed then s.retireLost r g.addr g.count (Config.signature g.writes) x
        else if x.left ≠ 0 then s
        else if x.run = 1 then
          let y : Rerun := { x with run := 2, left := x.bundles, count1 := g.count, sig1 := Config.signature g.writes }
          (s.rollBack r g).modCore c fun k => { k with rerun := some y }
        else s.judgeReruns r g x

/-- The recovery of a core as far as it can go without a bundle. -/
def State.recoverAll (s : State) (c : CoreRef) : State := ((s.recover c).recover c).recover c

/-! ### The steps -/

/-- The two reruns of a tile task's step (R299): RETREC with their counts of array cycles and their signatures, and whether they
agree. A tile task has no logical index and no CKPT bundle (R431). -/
def State.tileReruns (s : State) (r : TaskRef) (source : Nat) : State × Bool :=
  let n := s.freeCtr
  let c1 := BitVec.ofNat 64 (Config.arrayCycles n)
  let c2 := BitVec.ofNat 64 (Config.arrayCycles (n + 1))
  let s1 := Config.freeWord n
  let s2 := Config.freeWord (n + 1)
  let ok := Config.rerunAgrees n && decide (c1 = c2) && decide (s1 = s2)
  ((s.tookFree 2).modCore r.coreRef fun k =>
    { k with retrec := retrecBytes source (if ok then 1 else 2) r.slot noLidx 0 c1 c2 s1 s2 s.cycle }, ok)

/-- An error in a unit of a tile task (R299): its core reruns the step, which is recovered and counted in the record, or
retires the core. -/
def State.tileError (s : State) (r : TaskRef) (source : Nat) (c : CoreRef) (ptok : Nat) : State :=
  let y := s.tileReruns r source
  if !y.2 then y.1.retire r.coreRef source
  else
    let s := y.1.postEvent r 0xA4 (BitVec.ofNat 64 source)
    match s.tileAt c ptok with
    | none => s
    | some x =>
      match x.run with
      | none => s
      | some g =>
        let w := Worker.core r.coreRef r.slot
        match (List.range g.units).find? fun u => decide (g.worker u = some w) && !g.ran u with
        | none => s
        | some u =>
          let coord := BitVec.ofNat 32
            (s.module.toNat + r.die * 2 ^ 8 + clusterOf r.core * 2 ^ 16 + clusterIndex r.core * 2 ^ 24)
          let first := decide (g.recov = 0) || decide (u < g.runit)
          s.setRun c ptok x
            { g with
              recov := g.recov + 1
              runit := if first then u else g.runit
              rcoord := if first then coord else g.rcoord }

/-- Whether a slot has a command at work in the core that was issued within its region, or outside it (R205). -/
def Core.runsInside (c : Core) (slot : Nat) (within : Bool) : Bool :=
  c.cmds.any fun e => match e.2 with
    | some x => decide (x.slot = slot) && x.inside && decide (x.within = within)
    | none => false

/-- The region that an error of a task's command or MRD belongs to: one that is open, or that a halt closed while its
commands still run (R205, R208). With a command of the CKPT bundle itself still at work the error may be that command's: it
is when no other runs, and free when both do. -/
def State.regionOf (s : State) (r : TaskRef) : Option Region :=
  let c := s.core r.coreRef
  match c.regions.get none r.slot with
  | some g =>
    if g.closed && !c.busyInside r.slot then none
    else if c.runsInside r.slot false && (!c.runsInside r.slot true || decide (Config.freePick s.freeCtr % 2 = 1)) then none
    else some g
  | none => none

/-- An error outside a protected region (R209): an unrecoverable-matrix fault for the task, which halts. -/
def State.beyondRepair (s : State) (r : TaskRef) (source : Nat) : State :=
  let s := s.postTaskFault r 0xA2 (BitVec.ofNat 64 source)
  if (s.task r).status = .ending then s else s.haltTask r

/-- An error of the operand memory, the array or the accumulators, met by a task's command or MRD (R208, R209): in a
protected region the core halts and the task is rolled back, once the region's commands have finished; within a rerun
every error makes the reruns disagree; elsewhere the task halts with an unrecoverable-matrix fault. -/
def State.arrayError (s : State) (r : TaskRef) (source : Nat) : State :=
  match s.task? r with
  | none => s
  | some x =>
    let spoilt := (s.core r.coreRef).rerun.any fun y => decide (y.run ≠ 0)
    let s := if spoilt then
        s.modCore r.coreRef fun k => { k with rerun := k.rerun.map fun y => { y with failed := true } }
      else s
    match x.status with
    | .tiling h ptok => s.tileError r source h ptok
    | _ =>
      match (s.core r.coreRef).rerun, s.regionOf r with
      | some y, g => if y.slot = r.slot ∧ (spoilt = true ∨ g.isSome = true) then s else s.tookFree.beyondRepair r source
      | none, some g =>
        if g.guarded then
          (s.tookFree.modCore r.coreRef fun k =>
            { k with rerun := some ⟨r.slot, source, 0, g.bundles, 0, 0, 0, false, if x.halted then [r.slot] else []⟩ }).recoverAll
            r.coreRef
        else s.tookFree.beyondRepair r source
      | none, none => s.tookFree.beyondRepair r source

/-! ### Errors of the other stores (R386, Table 19.4) -/

/-- The monitor nearest a store that corrected an error: of a Pavilion by its router from 16 on, else of a register
block. -/
def nearMonitor (die place : Nat) : MonitorRef :=
  if 16 ≤ place then ⟨die, true, place - 16⟩ else ⟨die, false, place⟩

/-- An error of a core's registers, near memory or tables met by a bundle: it traps, and its task does not resume
(Table 19.4). A lodge's own state is another matter. -/
def State.storeError (s : State) (r : TaskRef) (place : Nat) : State :=
  match s.task? r with
  | none => s
  | some t =>
    if t.status = .ending ∨ t.halted = true then s
    else (s.takeTrap r ⟨0xA1, BitVec.ofNat 64 place⟩).modTask r fun t => { t with broken := true }

/-- A line of HBM or L2, or rounds of a Pavilion's store, poisoned (Table 19.4): each consumer takes the poison. -/
def State.poison (s : State) (place : Nat) : State :=
  let o := paOffset place
  if paModule place ≠ s.module.toNat then s
  else if o < hbmSize then s.modLine (lineOf o) fun m => { m with poison := 0xA1 }
  else
    let hit := fun (d router : Nat) (e : FlowEntry) =>
      decide (accSlot d router e.aslot ≤ o) && decide (o < accSlot d router e.aslot + 128 * e.slots)
    (List.range 8).foldl
      (fun s d => s.modDie d fun k =>
        let spoilt := fun (x : Nat × Pavilion) => x.2.rounds.map fun y =>
          if hit d x.1 (x.2.entry (y.1 / 4096)) then (y.1, { y.2 with psn := true }) else y
        { k with pavs := k.pavs.map fun x => (x.1, { x.2 with rounds := spoilt x }) }) s

/-- RERUN_DONE (R208): what a core's recovery waited for has come: its region's commands have finished, or a rerun has
issued its bundles. -/
def execRerunDone (c : CoreRef) (s : State) : Host.Outcome State Fault Refusal := .next (s.recoverAll c)

/-- REGION_UNPROTECTED (R206): a region past the log's size or its bundles becomes unprotected. -/
def execRegionUnprotected (t : TaskRef) (s : State) : Host.Outcome State Fault Refusal :=
  .next (match (s.core t.coreRef).regions.get none t.slot with
    | some g => s.modCore t.coreRef fun c => { c with regions := Tbl.set none c.regions t.slot (some g.limit) }
    | none => s)

end Sys2Proof.Machine
end

