-- ==== Sys2Proof/Machine/Mcst.lean ====
section
/-!
DEFINITION. MCST (R355): its issue, MCST_START with the checks of the block and header, and the cells that enter the
core's send buffer until MCST_COMPLETE.
-/

namespace Sys2Proof.Machine

/-- MCST: the checks of Table 14.8, then kT is PENDING. -/
def semMcst (g : Guard) (tok : BitVec 6) (e : BitVec 4) : SlotSem :=
  semToken
    { guard := g
      trap := fun slot s0 => tileTrap tok.toNat slot (s0.me.descriptor e.toNat) s0
      eff := fun s0 s =>
        let f := s0.me.descriptor e.toNat
        s0.issueCmd s .mcst tok.toNat f (kinTokens f) false none } tok

/-- Whether a record names another module or one that is not present; rack records stand outermost. -/
def mcModulesOk (module : Nat) (present : W64) (b : List Byte) : Bool :=
  let r := mcRecord b
  decide (r.level ≠ 0) || r.members.all fun m => present.getLsbD m || (decide (m = module) && present.getLsbD module)

/-- The checks of MCST's block of 192 bytes (R355). -/
def State.mcBlockOk (s : State) (c : CoreRef) (b : List Byte) : Bool :=
  let body := BitVec.ofNat 64 (bytesAt b 0 8)
  let p := b.drop 64
  let h := bytesAt p 2 1
  let recs := mcRecords p
  addrOk c.core body && decide (addrOff body % 128 = 0) && decide (bytesAt b 8 4 < 2 ^ 20) && !reservedFlow (bytesAt b 8 4)
    && decide (bytesAt b 16 48 = 0) && decide (1 ≤ mcBody p) && decide (mcBody p ≤ 4095) && decide (h ≤ 128) && decide (3 < h)
    && decide (leNat (p.drop h) = 0) && mcWellFormed none 3 recs
    && mcModulesOk s.module.toNat (s.die c.die).gate.present recs

/-- Words of the block kept with a command, from field 64 up. -/
def keepBlock (f : Tbl W64) (b : List Byte) : Tbl W64 :=
  (List.range (b.length / 8)).foldl (fun f i => Tbl.set 0 f (64 + i) (BitVec.ofNat 64 (bytesAt b (8 * i) 8))) f

/-- The block kept with a command. -/
def Cmd.block (x : Cmd) : List Byte := (List.range 24).flatMap fun i => leBytes 8 (x.fields.get 0 (64 + i)).toNat

/-- Cell n of a multicast: the head, then its body cells. -/
def Cmd.mcCell (x : Cmd) (job n : Nat) (payload : List Byte) : Cell :=
  let b := x.block
  { typ := if n = 0 then 8 else 9, flow := bytesAt b 8 4, job := job, rank := bytesAt b 12 2,
    cidx := (bytesAt b 14 2 + n) % 2 ^ 16, psn := false, circ := false, payload := payload }

/-- The multicast command under a physical token of a core. -/
def State.mcstAt (s : State) (c : CoreRef) (ptok : Nat) : Option Cmd :=
  match (s.core c).cmd ptok with
  | some x => if x.kind = .mcst then some x else none
  | none => none

/-- A cell of a command put in its core's send buffer and counted. -/
def State.pushCell (s : State) (c : CoreRef) (ptok : Nat) (x : Cmd) (cell : Cell) : State :=
  s.modCore c fun k => { (k.setCmd ptok (some { x with cells := x.cells + 1 })) with sendBuf := k.sendBuf ++ [cell] }

/-- Cells of a started multicast fed to the send buffer while it has room; `fuel` bounds them. A body that cannot be read
ends the command with that cause. -/
def State.feedMcst (c : CoreRef) (ptok : Nat) : Nat → State → State
  | 0, s => s
  | fuel + 1, s =>
    match s.mcstAt c ptok with
    | none => s
    | some x =>
      if s.fatal.isSome ∨ sendLimit ≤ (s.core c).sendBuf.length ∨ mcBody (x.block.drop 64) < x.cells then s
      else if x.cells = 0 then State.feedMcst c ptok fuel (s.pushCell c ptok x (x.mcCell s.jobid.toNat 0 (x.block.drop 64)))
      else
        let a := BitVec.ofNat 64 (bytesAt x.block 0 8) + BitVec.ofNat 64 (128 * (x.cells - 1))
        let y := s.readRun (x.issuer c ptok) a 128
        match y.2 with
        | .error none => y.1
        | .error (some t) => (y.1.noteRefused (x.issuer c ptok) x t).endCmd c ptok t.cause (y.1.task (x.taskRef c)).time
        | .ok b => State.feedMcst c ptok fuel (y.1.pushCell c ptok x (x.mcCell s.jobid.toNat x.cells b))

/-- MCST_START (R355): the block is read and checked, and the head and first body cells leave. -/
def execMcstStart (c : CoreRef) (tok : Nat) (s : State) : Host.Outcome State Fault Refusal :=
  .next (match s.mcstAt c tok with
    | none => s
    | some x =>
      let t := (s.task (x.taskRef c)).time
      if x.started ∨ x.deps ≠ [] ∨ (s.task (x.taskRef c)).stopped = true ∨ s.jobStopped x.job = true then s
      else if x.depFault.isSome then s.endCmd c tok 0x43 t
      else
        let y := s.readRun (x.issuer c tok) (x.fields.get 0 0) 192
        match y.2 with
        | .error none => y.1
        | .error (some e) => (y.1.noteRefused (x.issuer c tok) x e).endCmd c tok e.cause t
        | .ok b =>
          if y.1.mcBlockOk c b then
            State.feedMcst c tok 64
              (y.1.modCore c fun k => k.setCmd tok (some { x with started := true, fields := keepBlock x.fields b }))
          else y.1.endCmd c tok 0x4B t)

/-- MCST_COMPLETE (R355): the rest of a multicast enters the send buffer as it empties; kT is DONE when the last cell has
left it. -/
def execMcstComplete (c : CoreRef) (tok : Nat) (s : State) : Host.Outcome State Fault Refusal :=
  .next (match s.mcstAt c tok with
    | none => s
    | some x =>
      if !x.started || s.jobStopped x.job then s
      else
        let s := State.feedMcst c tok 64 s
        match s.mcstAt c tok with
        | none => s
        | some x =>
          if mcBody (x.block.drop 64) < x.cells ∧ ((s.core c).sendBuf.all fun y => decide (y.typ ≠ 8) && decide (y.typ ≠ 9)) = true then
            s.endCmd c tok 0 (s.task (x.taskRef c)).time
          else s)

/-! ### The instructions as steps -/

/-- mcst as a step: the issuing task issues the slot. -/
def execMcst (g : Guard) (tok : BitVec 6) (e : BitVec 4) (s : State) : Host.Outcome State Fault Refusal :=
  issueSlot (semMcst g tok e) s

end Sys2Proof.Machine
end

