-- ==== Sys2Proof/Machine/Collectives.lean ====
section
/-!
DEFINITION. Collective engines (R357 to R370): COLL, the arrival of its ranks, their results and ends, the tree, the
rank-list cache and RLINV.
-/

namespace Sys2Proof.Machine

/-! ### The parameter block (Table 17.1) -/

/-- A field of a block as a number. -/
def collField (b : List Byte) (off n : Nat) : Nat := bytesAt b off n
/-- An address of a block. -/
def collAddr (b : List Byte) (off : Nat) : W64 := BitVec.ofNat 64 (bytesAt b off 8)
/-- OP. -/
def collOp (b : List Byte) : Nat := bytesAt b 0 1
/-- TYPE. -/
def collType (b : List Byte) : Nat := bytesAt b 1 1
/-- FLAGS. -/
def collFlags (b : List Byte) : Nat := bytesAt b 3 1
/-- NRANKS. -/
def collN (b : List Byte) : Nat := bytesAt b 4 2
/-- MYRANK. -/
def collRankOf (b : List Byte) : Nat := bytesAt b 6 2
/-- COUNT. -/
def collCount (b : List Byte) : Nat := bytesAt b 40 8
/-- CAP. -/
def collCap (b : List Byte) : Nat := bytesAt b 12 4
/-- RB. -/
def collRb (b : List Byte) : Nat := bytesAt b 100 4
/-- COLLID. -/
def collId (b : List Byte) : W64 := collAddr b 80
/-- TFLOW. -/
def collFlow (b : List Byte) : Nat := bytesAt b 96 4
/-- Whether the operation folds: OP 0, 1 or 4. -/
def collFolds (b : List Byte) : Bool := [0, 1, 4].contains (collOp b)
/-- Whether the fold is a floating-point sum. -/
def collFadd (b : List Byte) : Bool := collFolds b && decide (collType b = 0) && decide (bytesAt b 2 1 = 0)
/-- Whether overflow records go to RESID. -/
def collReroutes (b : List Byte) : Bool := decide (collOp b = 6) && bitOf (collFlags b) 5
/-- Bytes of an element, or of a word of a record. -/
def collWidth (b : List Byte) : Nat := if collOp b = 6 then 4 else codeBytes (collType b)

/-- Elements, or record words, of SBUF (Table 17.2). -/
def collSource (b : List Byte) : Nat :=
  match collOp b with
  | 1 | 5 => collN b * collCount b
  | 6 => collCount b * (collRb b / 4)
  | _ => collCount b

/-- Elements, or record words, of DBUF (Table 17.2). -/
def collDest (b : List Byte) : Nat :=
  match collOp b with
  | 2 | 5 => collN b * collCount b
  | 6 => collCap b * (collRb b / 4)
  | _ => collCount b

/-- The algorithm used, 1 ring, 2 tree, 3 direct (R364). -/
def collAlg (b : List Byte) : Nat :=
  let a := collFlags b / 8 % 4
  if a ≠ 0 then a
  else if collFlow b ≠ 0 ∧ [0, 1, 3, 4].contains (collOp b) = true then 2
  else if collOp b ≤ 4 then 1
  else 3

/-- Cells of a rank's source under the tree, of 32 elements each (R365). -/
def collCells (b : List Byte) : Nat := ceilDiv (collSource b) 32

/-- Whether an address of a block is one the core may name: form 00, or 01 on a lodge core (R359). -/
def collAddrOk (core : Nat) (a : W64) : Bool := addrOk core a && decide (addrForm a ≤ 1)

/-- Whether a block keeps Table 17.1 and the encoding's bits, and its buffers their alignment (R360). -/
def collOk (core : Nat) (ord rz : Bool) (b : List Byte) : Bool :=
  let op := collOp b
  let f := collFlags b
  let six := decide (op = 6)
  let size := if six then collRb b else collWidth b
  let place := fun (off al : Nat) => collAddrOk core (collAddr b off) && decide (addrOff (collAddr b off) % al = 0)
  let zero := fun (off n : Nat) => decide (bytesAt b off n = 0)
  decide (op ≤ 6)
    && (if collFolds b then decide (collType b = 0) || decide (collType b = 6)
        else if six then zero 1 1 else decide (collType b ≤ 12) && decide (collType b ≠ 5))
    && (if collFolds b then decide (bytesAt b 2 1 ≤ 2) else zero 2 1)
    && (bitOf f 0 == ord) && (bitOf f 1 == rz) && (!bitOf f 1 || collFadd b)
    && (!bitOf f 2 || (collFolds b && decide (collType b = 6) && zero 2 1)) && (!bitOf f 5 || six) && decide (f < 64)
    && decide (1 ≤ collN b) && decide (collN b ≤ 4096) && decide (collRankOf b < collN b)
    && (if op = 3 then decide (bytesAt b 8 2 < collN b) else zero 8 2) && zero 10 2 && (six || zero 12 4)
    && place 16 8 && place 24 size && place 32 size && place 48 size && place 88 64
    && decide (1 ≤ collCount b) && decide (collCount b ≤ 2 ^ 32)
    && (if six then place 56 4 && place 72 8 else zero 56 8 && zero 72 8)
    && (if collReroutes b then place 64 size else zero 64 8)
    && decide (collFlow b < 2 ^ 20) && !reservedFlow (collFlow b)
    && (if six then decide (4 ≤ collRb b) && decide (collRb b ≤ 65536) && decide (collRb b % 4 = 0) else zero 100 4)
    && zero 104 24
    && (decide (f / 8 % 4 ≠ 2) || (decide (collFlow b ≠ 0) && [0, 1, 3, 4].contains op))
    && (decide (collAlg b ≠ 2) || decide (collCells b ≤ 65536))

/-- The fields that every rank of a collective must share (R360). -/
def collShared (b : List Byte) : List Byte :=
  b.take 6 ++ (b.drop 8).take 16 ++ (b.drop 40).take 8 ++ (b.drop 80).take 8 ++ (b.drop 96).take 32

/-! ### Engines -/

/-- A collective of a die with a key. -/
def State.collOn (s : State) (die job : Nat) (id : W64) : Option Coll :=
  (s.die die).colls.find? fun x => decide (x.job = job) && decide (x.collid = id)

/-- A collective of a die changed. -/
def State.modColl (s : State) (die job : Nat) (id : W64) (f : Coll → Coll) : State :=
  s.modDie die fun d => { d with colls := d.colls.map fun x => if x.job = job ∧ x.collid = id then f x else x }

/-- A collective changed at every engine of the module. -/
def State.modColls (s : State) (job : Nat) (id : W64) (f : Coll → Coll) : State :=
  (List.range 8).foldl (fun s d => s.modColl d job id f) s

/-- A collective gone from every engine of the module. -/
def State.dropColl (s : State) (job : Nat) (id : W64) : State :=
  (List.range 8).foldl
    (fun s d => s.modDie d fun k => { k with colls := k.colls.filter fun x => !(decide (x.job = job) && decide (x.collid = id)) }) s

/-- A collective at the first engine that holds it. -/
def State.anyColl (s : State) (job : Nat) (id : W64) : Option Coll := (List.range 8).findSome? fun d => s.collOn d job id

/-- The ranks of a collective that have arrived in the module, each with its die. -/
def State.collRanks (s : State) (job : Nat) (id : W64) : List (Nat × CollRank) :=
  (List.range 8).flatMap fun d => match s.collOn d job id with
    | some x => x.ranks.map fun r => (d, r)
    | none => []

/-- The COLL under a physical token of a core. -/
def State.collCmd (s : State) (c : CoreRef) (ptok : Nat) : Option Cmd :=
  match (s.core c).cmd ptok with
  | some x => match x.kind with
    | .coll _ _ => some x
    | _ => none
  | none => none

/-- The block that a COLL's command keeps. -/
def Cmd.collBlock (x : Cmd) : List Byte := x.block.take 128

/-- The command of a rank, while it stands for that rank. -/
def State.rankCmd (s : State) (job : Nat) (id : W64) (r : CollRank) : Option Cmd :=
  match s.collCmd r.core r.tok with
  | some x =>
    if x.started = true ∧ x.job = job ∧ collId x.collBlock = id ∧ collRankOf x.collBlock = r.rank then some x else none
  | none => none

/-- The agent that serves a rank: the engine of its die (R357, R363). -/
def Cmd.collAgent (x : Cmd) (c : CoreRef) (tok : Nat) : Agent :=
  { task := x.taskRef c, tok := tok, pos := collPos, writer := ⟨c.die, 0xA0 + 4, 0, x.job, x.lidx, false⟩, job := x.job,
    key := x.key }

/-- The mark under which the loads of a rank's source from other modules are kept. -/
def sourceTok (tok : Nat) : Nat := 4096 + tok

/-! ### Rank lists (R366, R367) -/

/-- Entry i of a rank list: module and die. -/
def listEntry (l : List Byte) (i : Nat) : Nat := bytesAt l (8 * i) 8

/-- A rank list by its key, from the engine's cache or from memory, where it is then kept. -/
def State.rankList (s : State) (die : Nat) (a : Agent) (addr : W64) (n : Nat) : State × Except (Option Trap) (List Byte) :=
  match (s.die die).ranklists.find? fun x => decide (x.job = a.job) && decide (x.addr = addr.toNat) && decide (x.n = n) with
  | some x => (s, .ok x.bytes)
  | none =>
    let y := State.readElems a 8 ((List.range n).map fun i => addr + BitVec.ofNat 64 (8 * i)) s
    match y.2 with
    | .error e => (y.1, .error e)
    | .ok l =>
      let b := l.flatMap (leBytes 8)
      (y.1.modDie die fun d => { d with ranklists := (⟨a.job, addr.toNat, n, b⟩ :: d.ranklists).take 64 }, .ok b)

/-- RLINV: on lodge and control cores, the active job's cached lists at an address, or all of them, go from every
engine. -/
def semRlinv (g : Guard) (a : BitVec 5) : SlotSem :=
  { guard := g
    place := .lodgeControl
    trap := fun k s0 =>
      let v := s0.sreg a
      sysTrap (decide (v ≠ BitVec.allOnes 64) && decide (2 ^ 56 ≤ v.toNat)) k
    eff := fun s0 s =>
      let v := s0.sreg a
      let gone := fun (x : RankList) =>
        decide (x.job = s0.jobid.toNat) && (decide (v = BitVec.allOnes 64) || decide (x.addr = v.toNat))
      (List.range 8).foldl (fun s d => s.modDie d fun k => { k with ranklists := k.ranklists.filter fun x => !gone x }) s }

/-! ### COLL (R368) -/

/-- COLL: the checks of Table 14.8, then kT is PENDING. -/
def semColl (g : Guard) (tok : BitVec 6) (e : BitVec 4) (ord rz : BitVec 1) : SlotSem :=
  semToken
    { guard := g
      trap := fun slot s0 => tileTrap tok.toNat slot (s0.me.descriptor e.toNat) s0
      eff := fun s0 s =>
        let f := s0.me.descriptor e.toNat
        s0.issueCmd s (.coll (decide (ord = 1)) (decide (rz = 1))) tok.toNat f (kinTokens f) false none } tok

/-! ### Ends (R363, R369, Table 17.4) -/

/-- A rank record. -/
def collRecord (state cause alg flags rank admitted : Nat) (tc : W64) : List Byte :=
  leBytes 1 state ++ leBytes 1 cause ++ leBytes 1 alg ++ leBytes 1 flags ++ leBytes 2 rank ++ leBytes 2 0 ++ leBytes 8 admitted
    ++ leBytes 8 tc.toNat ++ List.replicate 40 0

/-- The record of a rank written, with the one time of the rank's writes (R363). -/
def State.writeRecord (s : State) (die : Nat) (a : Agent) (b : List Byte) (lines : List Nat) (rec : W64 → List Byte) :
    State × W64 :=
  let x := State.writeList a (pieces (collAddr b 88) (rec 0)) s lines
  let y := x.1.stamp die collPos x.2.lines.dedup
  let z := State.writeList a (pieces (collAddr b 88) (rec y.2)) y.1 []
  (z.2.lines.dedup.foldl (fun s l => s.modLine l fun m => { m with wts := y.2, rts := y.2 }) z.1, y.2)

/-- The footprints of a rank: address and bytes of DBUF, RESID and DROPS (R369). -/
def collFoot (b : List Byte) : List (W64 × Nat) :=
  [(collAddr b 32, collDest b * collWidth b)]
    ++ (if collReroutes b then [(collAddr b 64, collCount b * collRb b)] else [])
    ++ (if collOp b = 6 then [(collAddr b 72, 8)] else [])

/-- A rank ends FAULTED: its footprints hold unspecified contents, its record names the cause and the rank where it
arose, and its token ends. -/
def State.failRank (cause rank : Nat) (job : Nat) (id : W64) (s : State) (e : Nat × CollRank) : State :=
  match s.rankCmd job id e.2 with
  | none => s
  | some x =>
    let b := x.collBlock
    let a := x.collAgent e.2.core e.2.tok
    let y := (collFoot b).foldl
      (fun (y : State × List Nat) f =>
        let z := State.writeList a (pieces f.1 (y.1.freeBytes f.2)) y.1 y.2
        (z.1.tookFree f.2, z.2.lines)) (s, [])
    let w := y.1.writeRecord e.1 a b y.2 (collRecord 2 cause (collAlg b) 0 rank 0)
    ((w.1.dropFar a.task e.2.tok).dropFar a.task (sourceTok e.2.tok)).endCmd e.2.core e.2.tok cause w.2

/-- A collective fails: it ends FAULTED at every rank that has arrived, and at each that arrives later (R360, R369). -/
def State.failColl (s : State) (job : Nat) (id : W64) (cause rank : Nat) : State :=
  let s := (s.collRanks job id).foldl (State.failRank cause rank job id) s
  s.modColls job id fun x => { x with failed := some (cause, rank), ranks := [] }

/-- A collective fails by an access of a rank, whose engine posts one that was refused (R21, R369). -/
def State.failAccess (s : State) (job : Nat) (id : W64) (r : CollRank) (t : Trap) : State :=
  let s := match s.rankCmd job id r with
    | some x => s.noteRefused (x.collAgent r.core r.tok) x t
    | none => s
  s.failColl job id t.cause r.rank

/-- Whether the task that issued a rank has not ended. -/
def State.issuerLives (s : State) (e : TaskRef × W64 × Nat) : Bool :=
  match s.task? e.1 with
  | some t => decide (t.status ≠ .ending) && decide (t.lidx = e.2.1) && decide (t.launch = e.2.2)
  | none => false

/-- Collectives of a key at the engines of the module. -/
def State.collsOf (s : State) (job : Nat) (id : W64) : List Coll := (List.range 8).filterMap fun d => s.collOn d job id

/-- A failed collective forgotten once all its ranks have arrived, or the tasks that issued them have ended (R360). -/
def State.settleFailed (s : State) (job : Nat) (id : W64) : State :=
  let l := s.collsOf job id
  match l.head? with
  | some x =>
    if x.failed.isSome && (decide (x.nranks ≤ (l.flatMap Coll.seen).dedup.length) || !((l.flatMap Coll.issuers).any s.issuerLives))
    then s.dropColl job id
    else s
  | none => s

/-- Ranks of a collective that has not started whose tasks the lodge has killed are forgotten, and the collective with the
last of them (R358); a failed one goes with its tasks. -/
def State.pruneColl (s : State) (job : Nat) (id : W64) : State :=
  let s' := s.modColls job id fun x =>
    if x.started then x else { x with ranks := x.ranks.filter fun r => (s.rankCmd job id r).isSome }
  if (s'.collRanks job id) = [] ∧ ((s'.anyColl job id).any fun x => !x.started && x.failed.isNone) = true then s'.dropColl job id
  else s'.settleFailed job id

/-- The collectives of a die's engine pruned. -/
def State.pruneColls (s : State) (die : Nat) : State :=
  (s.die die).colls.foldl (fun s x => s.pruneColl x.job x.collid) s

/-- COLL_FAULT: a fault at a rank ends its collective at every rank (R369). One whose ranks have begun to end has met none. -/
def execCollFault (job : Nat) (collid : BitVec 64) (cause rank : Nat) (s : State) : Host.Outcome State Fault Refusal :=
  .next (match s.anyColl job collid with
    | some x =>
      if x.failed.isNone && decide (cause % 256 ≠ 0) && !((s.collRanks job collid).any fun e => e.2.done) then
        (s.failColl job collid (cause % 256) rank).settleFailed job collid
      else s
    | none => s)

/-! ### The start (R358, R360, R363, R366) -/

/-- The rank lists of the engines that serve some ranks of a collective, each from its cache or from memory; a failure with
the rank of its engine. -/
def State.engineLists (job : Nat) (id : W64) :
    List (Nat × CollRank) → State → State × Except (Option (Trap × CollRank)) (List (Nat × CollRank × List Byte))
  | [], s => (s, .ok [])
  | (die, r) :: rest, s =>
    match s.rankCmd job id r with
    | none => (s, .error (some (⟨0x47, 0⟩, r)))
    | some x =>
      let b := x.collBlock
      let y := s.rankList die (x.collAgent r.core (sourceTok r.tok)) (collAddr b 16) (collN b)
      match y.2 with
      | .error none => (y.1, .error none)
      | .error (some t) => (y.1, .error (some (t, r)))
      | .ok l =>
        let z := State.engineLists job id rest y.1
        (z.1, z.2.map fun m => (die, r, l) :: m)

/-- A rank that its entry of the rank list does not name ends alone (R360). -/
def State.dropRank (s : State) (job : Nat) (id : W64) (e : Nat × CollRank × List Byte) : State :=
  let r := e.2.1
  let s := s.modColl e.1 job id fun x =>
    { x with ranks := x.ranks.filter fun y => !decide (y.rank = r.rank), seen := x.seen.filter fun k => !decide (k = r.rank) }
  s.endCmd r.core r.tok 0x49 (s.agentTime e.1 collPos)

/-- A collective starts once it is full (R358): its rank lists are read then (R366), each rank's entry must name its engine,
and the lists must agree (R360). A rank on another module may have arrived there or not, or differ in a field: what is issued
there is not held here. -/
def State.startColl (s : State) (job : Nat) (id : W64) : State :=
  match s.anyColl job id with
  | none => s
  | some x =>
    let rs := s.collRanks job id
    let missing := (List.range x.nranks).filter fun i => !(rs.any fun e => decide (e.2.rank = i))
    if x.started || x.failed.isSome || rs.isEmpty then s
    else
      let z := State.engineLists job id rs s
      match z.2 with
      | .error none => z.1
      | .error (some (t, r)) => if missing = [] then (z.1.failAccess job id r t).settleFailed job id else s
      | .ok ls =>
        let lead := (((ls.find? fun e => decide (e.2.1.rank = collRankOf x.lead)).orElse fun _ => ls.head?).map fun e => e.2.2).getD []
        let m := s.module.toNat
        if missing.any fun i => decide (listEntry lead i % 64 = m) then s
        else
          let pick := if missing = [] then 1 else Config.freePick s.freeCtr % 3
          let s := z.1.tookFree
          let wrong := ls.filter fun e => decide (listEntry e.2.2 e.2.1.rank ≠ m + 64 * e.1)
          if pick = 0 then s
          else if wrong ≠ [] then wrong.foldl (fun s e => s.dropRank job id e) s
          else match ls.find? fun e => decide (e.2.2 ≠ lead) with
            | some e => (s.failColl job id 0x4A e.2.1.rank).settleFailed job id
            | none =>
              if pick = 2 then (s.failColl job id 0x4A (missing.headD 0)).settleFailed job id
              else
                let tree := if collAlg x.lead = 2 then some ((collFlow x.lead + 1) % 2 ^ 20) else none
                s.modColls job id fun y => { y with started := true, list := lead, tree := tree }

/-! ### Arrival (R358 to R360) -/

/-- A COLL that has passed its checks joins its collective at its engine, under the key of the rank that arrived first at
any engine. One that differs from it in a shared field, or has its rank, fails it (R360). -/
def State.joinColl (s : State) (c : CoreRef) (ptok : Nat) (x : Cmd) : State :=
  let b := x.collBlock
  let job := x.job
  let id := collId b
  let t := s.task (x.taskRef c)
  let r : CollRank := ⟨collRankOf b, c, ptok, false, false, false⟩
  let first := s.anyColl job id
  let taken := (s.collsOf job id).any fun y => y.seen.contains r.rank
  let s := s.modCore c fun k => k.setCmd ptok (some { x with started := true })
  let s := s.modDie c.die fun d => { d with collWait := d.collWait.filter fun e => !decide (e = (c, ptok)) }
  let s := if (s.collOn c.die job id).isSome then s
    else
      let y : Coll := match first with
        | some f => { f with ranks := [], got := [], seen := [], issuers := [] }
        | none =>
          { job := job, collid := id, nranks := collN b, lead := b, list := [], ranks := [], started := false, tree := none,
            got := [], failed := none, seen := [], issuers := [], src := none }
      s.modDie c.die fun d => { d with colls := d.colls ++ [y] }
  let s := s.modColl c.die job id fun y =>
    { y with
      ranks := y.ranks ++ [r], seen := if y.seen.contains r.rank then y.seen else y.seen ++ [r.rank]
      issuers := y.issuers ++ [(x.taskRef c, t.lidx, t.launch)] }
  match s.collOn c.die job id with
  | none => s
  | some y =>
    match y.failed with
    | some f => ((State.failRank f.1 f.2 job id s (c.die, r)).modColl c.die job id fun y => { y with ranks := [] }).settleFailed job id
    | none =>
      if taken || decide (collShared b ≠ collShared y.lead) then (s.failColl job id 0x4A r.rank).settleFailed job id
      else s.startColl job id

/-- COLLs that have reached a die's engine and wait there before a given one: of no stopped job, and still issued. -/
def State.waitsBefore (s : State) (die : Nat) (e : CoreRef × Nat) : Bool :=
  ((s.die die).collWait.takeWhile fun y => !decide (y = e)).any fun y => match s.collCmd y.1 y.2 with
    | some x => !x.started && decide (x.cells = 1) && !s.jobStopped x.job
    | none => false

/-- A COLL at its engine: it joins its collective, or where that is not open here and the engine holds sixteen, or others
wait, it waits its turn (R358). -/
def State.enterColl (s : State) (c : CoreRef) (ptok : Nat) (x : Cmd) : State :=
  let s := s.pruneColls c.die
  let queued := (s.die c.die).collWait.contains (c, ptok)
  let s := if queued then s else s.modDie c.die fun d => { d with collWait := d.collWait ++ [(c, ptok)] }
  let s := s.modCore c fun k => k.setCmd ptok (some x)
  if (s.collOn c.die x.job (collId x.collBlock)).isSome then s.joinColl c ptok x
  else if s.waitsBefore c.die (c, ptok) || decide (16 ≤ ((s.die c.die).colls.filter fun k => k.failed.isNone).length) then s
  else s.joinColl c ptok x

/-- COLL_ARRIVE: a COLL whose bindings have completed reaches its engine, which reads its block once (R359); a block that
breaks its limits ends it (R360). -/
def execCollArrive (c : CoreRef) (tok : Nat) (s : State) : Host.Outcome State Fault Refusal :=
  .next (match s.collCmd c tok with
    | none => s
    | some x =>
      let t := (s.task (x.taskRef c)).time
      let a := x.collAgent c tok
      let (ord, rz) := match x.kind with
        | .coll o z => (o, z)
        | _ => (false, false)
      if x.started ∨ x.deps ≠ [] ∨ s.jobStopped x.job = true then s
      else if x.cells = 1 then s.enterColl c tok x
      else if x.depFault.isSome then s.endCmd c tok 0x43 t
      else if 2 ≤ addrForm (x.fields.get 0 0) then s.endCmd c tok 0x49 t
      else
        let y := s.readRun a (x.fields.get 0 0) 128
        match y.2 with
        | .error none => y.1
        | .error (some e) => (y.1.noteRefused a x e).endCmd c tok e.cause t
        | .ok b =>
          if !collOk c.core ord rz b then y.1.endCmd c tok 0x49 t
          else y.1.enterColl c tok { x with cells := 1, fields := keepBlock x.fields b })

/-! ### Sources -/

/-- Elements read at an address: w bytes each. -/
def State.readArray (s : State) (a : Agent) (base : W64) (w n : Nat) : State × Except (Option Trap) (List Nat) :=
  State.readElems a w ((List.range n).map fun i => base + BitVec.ofNat 64 (w * i)) s

/-- What a rank gives to its collective: its source elements or record words, and its IDX (R361, R362). The ranks that a
broadcast ignores give nothing. -/
def State.rankSource (s : State) (job : Nat) (id : W64) (r : CollRank) : State × Except (Option Trap) (List Nat × List Int) :=
  match s.rankCmd job id r with
  | none => (s, .error (some ⟨0x47, 0⟩))
  | some x =>
    let b := x.collBlock
    let a := x.collAgent r.core (sourceTok r.tok)
    if collOp b = 3 ∧ bytesAt b 8 2 ≠ r.rank then (s, .ok ([], []))
    else thenRead (s.readArray a (collAddr b 24) (collWidth b) (collSource b)) fun s l =>
      if collOp b = 6 then
        thenRead (s.readArray a (collAddr b 56) 4 (collCount b)) fun s i =>
          (s, .ok (l, i.map fun v => (BitVec.ofNat 32 v).toInt))
      else (s, .ok (l, []))

/-- What a rank of another module gives, which is not held here: free elements, and free places for IDX. -/
def State.farSource (s : State) (b : List Byte) : State × List Nat × List Int :=
  let n := collSource b
  let m := if collOp b = 6 then collCount b else 0
  let word := fun (i : Nat) => Config.freeWord (s.freeCtr + i)
  (s.tookFree (n + m), (List.range n).map fun i => (word i).toNat % 2 ^ (8 * collWidth b),
    (List.range m).map fun i => ((word (n + i)).setWidth 32).toInt)

/-- The sources of the ranks from a number on, in order; a failure with the rank where it arose. -/
def State.rankSources (y : Coll) : List Nat → State → State × Except (Option (Trap × CollRank)) (List (List Nat × List Int))
  | [], s => (s, .ok [])
  | i :: rest, s =>
    match (s.collRanks y.job y.collid).find? fun e => decide (e.2.rank = i) with
    | none =>
      let x := s.farSource y.lead
      let z := State.rankSources y rest x.1
      (z.1, z.2.map fun l => x.2 :: l)
    | some e =>
      let x := s.rankSource y.job y.collid e.2
      match x.2 with
      | .error none => (x.1, .error none)
      | .error (some t) => (x.1, .error (some (t, e.2)))
      | .ok v =>
        let z := State.rankSources y rest x.1
        (z.1, z.2.map fun l => v :: l)

/-- The sources of a started collective read (R363): every rank's result is that of the values read then. -/
def State.takeSources (s : State) (y : Coll) : State :=
  let z := State.rankSources y (List.range y.nranks) s
  match z.2 with
  | .error none => z.1
  | .error (some (t, r)) => z.1.failAccess y.job y.collid r t
  | .ok l => z.1.modColls y.job y.collid fun x => { x with src := some l }

/-! ### Results (R361, R362) -/

/-- Fold(x_0 … x_k) of the codes of an element, with its flags; `n` indexes the free choices of an unordered sum. -/
def collFold (b : List Byte) (n : Nat) (l : List Nat) : Nat × Flags :=
  let r := chunkFold (bytesAt b 2 1) (collType b) (.ofRz (bitOf (collFlags b) 1)) (bitOf (collFlags b) 0) n l
  let e := foldElem (collType b) (bitOf (collFlags b) 2) r.1
  (e.1, r.2 ||| e.2)

/-- What one rank of a collective writes: the elements of D with their places, the flags, and for OP 6 its overflow
records, their count and the admitted count. -/
structure RankResult where
  elems : List Nat
  flags : Flags
  overflow : List (List Nat)
  admitted : Nat

/-- D of a folding operation from the terms of each element. -/
def foldAll (b : List Byte) (n : Nat) (terms : List (List Nat)) : RankResult :=
  let r := ((List.range terms.length).zip terms).map fun e => collFold b (n + 2 * e.1 * (collN b + 1)) e.2
  ⟨r.map Prod.fst, orAll (r.map Prod.snd), [], 0⟩

/-- Records of RB bytes from their words. -/
def recordsOf (w : Nat) (l : List Nat) : List (List Nat) := (List.range (l.length / w)).map fun k => (l.drop (k * w)).take w

/-- Capacity all-to-all at rank i (R362): the candidates of a destination sorted by source rank and record, the first
CAP of them admitted, the rest overflow of their source. -/
def capacity (b : List Byte) (i : Nat) (src : List (List Nat × List Int)) : RankResult :=
  let w := collRb b / 4
  let recs := ((List.range src.length).zip src).flatMap fun e =>
    ((List.range (collCount b)).zip ((recordsOf w e.2.1).zip e.2.2)).map fun k => (e.1, k.1, k.2.1, k.2.2)
  let admitted := fun (j : Nat) => (recs.filter fun x => decide (x.2.2.2 = (j : Int))).take (collCap b)
  let mine := recs.filter fun x => decide (x.1 = i) && decide (0 ≤ x.2.2.2)
  let rest := mine.filter fun x =>
    decide ((collN b : Int) ≤ x.2.2.2) || !((admitted x.2.2.2.toNat).any fun y => decide (y.1 = x.1) && decide (y.2.1 = x.2.1))
  let d := admitted i
  ⟨d.flatMap fun x => x.2.2.1, 0, rest.map fun x => x.2.2.1, d.length⟩

/-- The result of rank i from the sources of every rank (Table 17.2). -/
def collResult (b : List Byte) (i n : Nat) (src : List (List Nat × List Int)) : RankResult :=
  let c := collCount b
  let s := src.map Prod.fst
  let column := fun (l : List (List Nat)) (e : Nat) => l.map fun x => x.getD e 0
  match collOp b with
  | 0 => foldAll b n ((List.range c).map (column s))
  | 1 => foldAll b n ((List.range c).map fun e => column s (i * c + e))
  | 2 => ⟨s.flatten, 0, [], 0⟩
  | 3 => ⟨s.getD (bytesAt b 8 2) [], 0, [], 0⟩
  | 4 => foldAll b n ((List.range c).map (column (s.take (i + 1))))
  | 5 => ⟨s.flatMap fun x => (x.drop (i * c)).take c, 0, [], 0⟩
  | _ => capacity b i src

/-- Whether n bytes at an address meet a buffer. -/
def meetsBuffer (a : W64) (n : Nat) (f : W64 × Nat) : Bool :=
  decide (addrForm a = addrForm f.1) && decide (addrOff a < addrOff f.1 + f.2) && decide (addrOff f.1 < addrOff a + n)

/-- The buffers of a rank that DBUF may not overlap: SBUF, but where a broadcast ignores it, WORK and RESID (R363). -/
def collBuffers (b : List Byte) : List (W64 × Nat) :=
  (if collOp b = 3 ∧ bytesAt b 8 2 ≠ collRankOf b then [] else [(collAddr b 24, collSource b * collWidth b)])
    ++ [(collAddr b 48, collDest b * collWidth b)]
    ++ (if collReroutes b then [(collAddr b 64, collCount b * collRb b)] else [])

/-- The bytes of D from its elements; one that overlaps another buffer is unspecified (R363). -/
def State.destBytes (s : State) (b : List Byte) (l : List Nat) : List Byte :=
  let w := collWidth b
  (l.zip (List.range l.length)).flatMap fun e =>
    if (collBuffers b).any (meetsBuffer (collAddr b 32 + BitVec.ofNat 64 (w * e.2)) w) then
      (List.range w).map fun i => Config.freeByte (s.freeCtr + w * e.2 + i)
    else leBytes w e.1

/-- The writes of a rank to DBUF, RESID and DROPS. -/
def State.rankWrites (s : State) (b : List Byte) (r : RankResult) : List (W64 × List Byte) :=
  pieces (collAddr b 32) (s.destBytes b r.elems)
    ++ (if collReroutes b then pieces (collAddr b 64) (r.overflow.flatten.flatMap (leBytes 4)) else [])
    ++ (if collOp b = 6 then pieces (collAddr b 72) (leBytes 8 r.overflow.length) else [])

/-- The work buffer of a rank left with unspecified contents (Table 17.1), as far as it can be written. -/
def State.spoilWork (s : State) (a : Agent) (b : List Byte) : State × List Nat :=
  let n := collDest b * collWidth b
  let y := State.writeList a (pieces (collAddr b 48) (s.freeBytes n)) s []
  if y.2.waits then (s, []) else (y.1.tookFree n, y.2.lines)

/-! ### The tree (R365) -/

/-- The identity that fills a last cell: +0, −inf, +inf, or 0 for .s32. -/
def collIdentity (b : List Byte) : Nat :=
  if collType b ≠ 0 then 0
  else match bytesAt b 2 1 with
    | 1 => 0xFF800000
    | 2 => 0x7F800000
    | _ => 0

/-- The cells of a rank's source. -/
def treeCells (b : List Byte) (job : Nat) (l : List Nat) : List Cell :=
  (List.range (collCells b)).map fun k =>
    let e := (l.drop (32 * k)).take 32
    let e := e ++ List.replicate (32 - e.length) (collIdentity b)
    { typ := 0, flow := collFlow b, job := job, rank := collRankOf b, cidx := k, psn := false, circ := false,
      payload := padTo 128 (e.flatMap (leBytes (collWidth b))) }

/-- The result of rank i from the cells that have come back; none while some are missing, and an error where one is
poisoned. -/
def treeResult (b : List Byte) (i : Nat) (got : Tbl (List Byte)) : Option (Except Unit RankResult) :=
  let off := if collOp b = 4 then i * 2 ^ 17 else 0
  let cells := (List.range (collCells b)).map fun k => got.find? fun e => decide (e.1 = off + k)
  if cells.any Option.isNone then none
  else
    let l := cells.filterMap id
    if l.any fun e => decide (e.2 = []) then some (.error ())
    else
      let w := collWidth b
      let elems := l.flatMap fun e => (List.range 32).map fun k => bytesAt e.2 (w * k) w
      let first := if collOp b = 1 then i * collCount b else 0
      some (.ok ⟨(elems.drop first).take (collCount b), 0, [], 0⟩)

/-- A rank's source sent as cells from router (0, 10) of its die. -/
def State.sendTree (s : State) (die job : Nat) (b : List Byte) (l : List Nat) : State :=
  (treeCells b job l).foldl (fun s c => s.input die lodgeRouter 4 c) s

/-! ### COLL_COMPLETE (R363, R368) -/

/-- A rank of a collective changed. -/
def State.modRank (s : State) (die job : Nat) (id : W64) (rank : Nat) (f : CollRank → CollRank) : State :=
  s.modColl die job id fun x => { x with ranks := x.ranks.map fun r => if r.rank = rank then f r else r }

/-- A rank's writes made, with its record (R363). A write that fails, the record's among them, ends the collective (R369). -/
def State.putRank (s : State) (die job : Nat) (id : W64) (x : Cmd) (r : CollRank) (res : RankResult) : State :=
  let b := x.collBlock
  let a := x.collAgent r.core r.tok
  let l := s.rankWrites b res
  let head := collRecord 1 0 (collAlg b) res.flags.toNat 0xFFFF res.admitted
  let try' := State.writeList a (l ++ pieces (collAddr b 88) (head 0)) s []
  if try'.2.waits then try'.1
  else match try'.2.failed with
    | some t => s.failAccess job id r t
    | none =>
      let w := s.spoilWork a b
      let y := State.writeList a l (w.1.tookFree (collDest b * collWidth b)) w.2
      (y.1.writeRecord die a b y.2.lines head).1.modRank die job id r.rank fun r => { r with wrote := true }

/-- The agent of a rank's stores. -/
def CollRank.agentTask (r : CollRank) : TaskRef :=
  ⟨r.core.die, r.core.core, if isCompute r.core.core then r.tok / 16 else 0⟩

/-- The first rank with a store that another module refused. -/
def State.rankRefused (s : State) (job : Nat) (id : W64) : Option (Trap × CollRank) :=
  (s.collRanks job id).findSome? fun e => (s.farRefused e.2.agentTask e.2.tok).map fun t => (t, e.2)

/-- A rank ends once every rank here has made its writes and no store to another module is unanswered, so that a fault at any
rank ends them all (R369); the collective is gone with its last rank. -/
def State.endRank (s : State) (die job : Nat) (id : W64) (r : CollRank) : State :=
  let rs := s.collRanks job id
  if rs.any fun e => !e.2.wrote || (!e.2.done && s.farPending e.2.agentTask e.2.tok) then s
  else match s.rankRefused job id with
    | some (t, k) => s.failAccess job id k t
    | none =>
      let s := ((s.dropFar r.agentTask r.tok).endCmd r.core r.tok 0 (s.agentTime die collPos)).modRank die job id r.rank fun r =>
        { r with done := true }
      if (s.collRanks job id).all fun e => e.2.done then
        (rs.foldl (fun s e => s.dropFar e.2.agentTask (sourceTok e.2.tok)) s).dropColl job id
      else s

/-- FLAGS of a rank under the tree: those of its fold, as under every algorithm (R361); of an unordered floating-point sum,
whose roundings the Pavilions make in an order of their own, they are free: DESIGN
CHOICE, notes/assumptions/98. -/
def State.treeFlags (s : State) (b : List Byte) (res : RankResult) : Flags :=
  if collFadd b && !bitOf (collFlags b) 0 then (Config.freeByte s.freeCtr).setWidth 6 else res.flags

/-- What a rank of a started collective writes from the sources read: under the tree once its result cells are back. -/
def State.rankResult (s : State) (y : Coll) (b : List Byte) (i : Nat) (src : List (List Nat × List Int)) : Option (Except Unit RankResult) :=
  let plain := collResult b i s.freeCtr src
  if y.tree.isNone then some (.ok plain)
  else (treeResult b i y.got).map fun e => e.map fun r => { r with flags := s.treeFlags b plain }

/-- What a rank whose sources are read does next: it sends its cells under the tree, none once a fatal cause has stopped the module (R389), and makes its writes. -/
def State.runRank (s : State) (die : Nat) (y : Coll) (x : Cmd) (r : CollRank) (src : List (List Nat × List Int)) : State :=
  let job := y.job
  let id := y.collid
  let b := x.collBlock
  if y.tree.isSome && !r.sent && s.fatal.isSome then s
  else if y.tree.isSome && !r.sent then
    let s := s.modRank die job id r.rank fun r => { r with sent := true }
    let l := (src.getD r.rank ([], [])).1
    if l = [] then s else s.sendTree die job b l
  else match s.rankResult y b r.rank src with
    | none => s
    | some (.error _) => s.failColl job id 0xA0 r.rank
    | some (.ok res) => (s.tookFree (2 * (collDest b + 1) * (y.nranks + 1))).putRank die job id x r res

/-- COLL_COMPLETE: what a rank does next (R358, R361 to R365, R368): a collective that has not started does once it is full;
then the sources are read, the rank makes its writes, and when those of every rank are complete its token is DONE. -/
def execCollComplete (job : Nat) (collid : BitVec 64) (rank : Nat) (s : State) : Host.Outcome State Fault Refusal :=
  .next (match (s.collRanks job collid).find? fun e => decide (e.2.rank = rank) with
    | none => s
    | some (die, r) =>
      match s.collOn die job collid with
      | none => s
      | some y =>
        if r.done || s.jobStopped job then s
        else if !y.started then (s.pruneColl job collid).startColl job collid
        else match s.rankCmd job collid r with
          | none => s.failColl job collid 0x47 rank
          | some x =>
            if r.wrote then s.endRank die job collid r
            else match y.src with
              | none => s.takeSources y
              | some src => s.runRank die y x r src)

/-! ### The instructions as steps -/

/-- rlinv as a step: the issuing task issues the slot. -/
def execRlinv (g : Guard) (a : BitVec 5) (s : State) : Host.Outcome State Fault Refusal := issueSlot (semRlinv g a) s

/-- coll as a step: the issuing task issues the slot. -/
def execColl (g : Guard) (tok : BitVec 6) (e : BitVec 4) (ord rz : BitVec 1) (s : State) : Host.Outcome State Fault Refusal :=
  issueSlot (semColl g tok e ord rz) s

end Sys2Proof.Machine
end

