-- ==== Sys2Proof/Machine/Engines.lean ====
section
/-!
DEFINITION. The copy engines (R211 to R222): the checks and issue of CPY, GTH and SCT (Table 10.4), their
elements and cells (R220, R221), and the steps COPY_START, COPY_CELL_WRITE and COPY_COMPLETE.
-/

namespace Sys2Proof.Machine

/-! ### Fields (Table 10.3) -/

/-- The three copy commands. -/
inductive CopyKind where
  | cpy
  | gth
  | sct
  deriving DecidableEq, Repr

/-- A copy command as a command's kind. -/
def CopyKind.cmd (k : CopyKind) : CmdKind :=
  match k with
  | .cpy => .cpy
  | .gth => .gth
  | .sct => .sct

/-- The copy command of a command's kind. -/
def CmdKind.copy? (k : CmdKind) : Option CopyKind :=
  match k with
  | .cpy => some .cpy
  | .gth => some .gth
  | .sct => some .sct
  | _ => none

/-- C0 to C5 (R220). -/
def copyCounts (f : Tbl W64) : List Nat := (List.range 6).map fun k => max 1 (fieldOf f (3 + k))

/-- Whether a field's value breaks Table 10.3, R213 or R175 for a copy command of a core. -/
def copyFieldBad (core : Nat) (indexed : Bool) (f : Tbl W64) (c : Nat) : Bool :=
  let v := fieldOf f c
  if c ≤ 1 then !addrOk core (f.get 0 c)
  else if c = 2 then !([1, 2, 4, 8, 16, 32, 64, 128].contains v)
  else if c ≤ 8 then decide (2 ^ 32 ≤ v)
  else if c ≤ 20 then false
  else if c ≤ 23 then decide (128 ≤ v) || (bitOf v 6 && decide (tokenCount core ≤ v % 64))
  else if c = 24 then decide (512 ≤ v) || (bitOf v 8 && decide (tileCount core ≤ v % 256))
  else if c = 25 then decide (1024 ≤ v) || (bitOf v 8 && decide (tileCount core ≤ v % 256))
  else if !indexed then false
  else if c = 26 then !addrOk core (f.get 0 c)
  else if c = 27 then !(decide (v = 4) || decide (v = 8))
  else if c = 28 then decide (2 ^ 32 ≤ v)
  else false

/-- The lowest field that breaks its limits. -/
def copyBad (core : Nat) (k : CopyKind) (f : Tbl W64) : Option Nat :=
  (List.range 30).find? (copyFieldBad core (decide (k ≠ .cpy)) f)

/-! ### Footprints (R219) -/

/-- An interval of bytes of a space: from `lo` up to and without `hi`. -/
structure Foot where
  form : Nat
  lo : Int
  hi : Int

/-- The footprint of a nest of counts and signed strides from a base, of n-byte elements. -/
def footprint (base : W64) (n : Nat) (steps : List (Nat × Int)) : Foot :=
  let d := steps.map fun x => ((x.1 : Int) - 1) * x.2
  { form := addrForm base
    lo := (addrOff base : Int) + (d.filter fun x => decide (x < 0)).foldl (· + ·) 0
    hi := (addrOff base : Int) + (d.filter fun x => decide (0 < x)).foldl (· + ·) 0 + n }

/-- Strides from a field code on, with the counts. -/
def copySteps (f : Tbl W64) (code : Nat) : List (Nat × Int) :=
  (List.range 6).map fun k => ((copyCounts f).getD k 1, (f.get 0 (code + k)).toInt)

/-- Footprint of a copy's source side. -/
def srcFoot (f : Tbl W64) : Foot := footprint (f.get 0 0) (fieldOf f 2) (copySteps f 9)
/-- Footprint of a copy's destination side. -/
def dstFoot (f : Tbl W64) : Foot := footprint (f.get 0 1) (fieldOf f 2) (copySteps f 15)
/-- Footprint of the index list: one index per element of the outer dimensions (R220). -/
def idxFoot (f : Tbl W64) : Foot :=
  footprint (f.get 0 26) (fieldOf f 27) [(((copyCounts f).drop 1).foldl (· * ·) 1, (fieldOf f 27 : Int))]

/-- The sides of a copy whose addresses are not indexed (R219). -/
def copySides (k : CopyKind) (f : Tbl W64) : List Foot :=
  match k with
  | .cpy => [srcFoot f, dstFoot f]
  | .gth => [dstFoot f, idxFoot f]
  | .sct => [srcFoot f, idxFoot f]

/-- Whether a footprint leaves the window or the core's operand memory. -/
def Foot.outside (core window : Nat) (x : Foot) : Bool :=
  if x.form = 2 then decide (x.lo < 0) || decide ((window : Int) < x.hi)
  else if x.form = 3 then !isCompute core || decide (x.lo < 0) || decide ((operandBytes : Int) < x.hi)
  else false

/-- The lowest byte of a footprint as an engine address. -/
def Foot.addr (x : Foot) : W64 := BitVec.ofInt 64 ((x.form : Int) * 2 ^ 62 + x.lo)

/-- Whether two footprints overlap in one space. -/
def Foot.overlaps (x y : Foot) : Bool := decide (x.form = y.form) && decide (x.lo < y.hi) && decide (y.lo < x.hi)

/-! ### Issue (Table 10.4) -/

/-- Whether a copy writes into its own core (R205, R207). -/
def copyInside (f : Tbl W64) : Bool := decide (2 ≤ addrForm (f.get 0 1))

/-- The tile-range trap of a named entry that is not defined. -/
def entryTrap (s : State) (e : Option Nat) : Option Trap :=
  match e with
  | some e => trapIf (!(s.here.tile (physTile s.cur e)).v) ⟨0x26, BitVec.ofNat 64 e⟩
  | none => none

/-- The checks of Table 10.4, in order. -/
def copyTrap (k : CopyKind) (tok slot : Nat) (f : Tbl W64) (s : State) : Option Trap :=
  firstTrap
    [tokenTrap tok s,
     fieldTrap (copyBad s.cur.core k f),
     trapIf (decide (k = .cpy) && (srcFoot f).overlaps (dstFoot f)) ⟨0x40, 1⟩,
     ((copySides k f).find? (Foot.outside s.cur.core s.me.windowBytes)).map fun x => ⟨0x20, x.addr⟩,
     if copyInside f then none else regionTrap slot s,
     entryTrap s ((sttEntry f).map Prod.fst),
     entryTrap s (tteEntry f)]

/-- The source entry that a copy names. -/
def State.sourceTile (s : State) (f : Tbl W64) : Option TileEntry :=
  (sttEntry f).map fun x => s.here.tile (physTile s.cur x.1)

/-- The source entry after the issue of a copy that names it (Table 8.2), and the issuing task's time (R251). -/
def State.takeSource (s : State) (f : Tbl W64) : State :=
  match sttEntry f with
  | none => s
  | some x =>
    let p := physTile s.cur x.1
    let s := s.modMe fun t => t.observe (s.here.tile p).tc
    if x.2 then s.modHere fun c => c.setTile p { c.tile p with st := .draining } else s

/-- A copy command (R219). -/
def semCopy (k : CopyKind) (g : Guard) (tok : BitVec 6) (e : BitVec 4) : SlotSem :=
  semToken
    { guard := g
      trap := fun slot s0 => copyTrap k tok.toNat slot (s0.me.descriptor e.toNat) s0
      wait := fun s0 s => match s0.sourceTile (s0.me.descriptor e.toNat) with
        | some x => if x.st = .ready then none else some s
        | none => none
      eff := fun s0 s =>
        let f := s0.me.descriptor e.toNat
        s0.issueCmd (s.takeSource f) k.cmd tok.toNat f (kinTokens f) (copyInside f) none } tok

/-- CPY. -/
def semCpy (g : Guard) (tok : BitVec 6) (e : BitVec 4) : SlotSem := semCopy .cpy g tok e

/-- GTH. -/
def semGth (g : Guard) (tok : BitVec 6) (e : BitVec 4) : SlotSem := semCopy .gth g tok e

/-- SCT. -/
def semSct (g : Guard) (tok : BitVec 6) (e : BitVec 4) : SlotSem := semCopy .sct g tok e

/-! ### Elements (R220) -/

/-- The engine that works for a command under a physical token. -/
def Cmd.agent (x : Cmd) (c : CoreRef) (ptok : Nat) : Agent :=
  { task := ⟨c.die, c.core, x.slot⟩, tok := ptok, pos := enginePos (engineOf c.core),
    writer := ⟨c.die, 0xA0 + engineOf c.core, 0, x.job, x.lidx, isLodge c.core⟩, job := x.job, key := x.key,
    spots := x.spots, stores := x.stores.map Prod.snd, within := x.within }

/-- Digits i0 to i5 of element number e. -/
def digits : List Nat → Nat → List Nat
  | [], _ => []
  | c :: t, e => e % c :: digits t (e / c)

/-- Elements of a copy command. -/
def elementTotal (f : Tbl W64) : Nat := (copyCounts f).foldl (· * ·) 1

/-- The sum of digits times the strides from a field code on, for dimensions from k. -/
def strideSum (f : Tbl W64) (code : Nat) (i : List Nat) (ks : List Nat) : W64 :=
  ks.foldl (fun a k => a + BitVec.ofNat 64 (i.getD k 0) * f.get 0 (code + k)) 0

/-- What an element does: copy from an address, write zeros, or nothing. -/
inductive ElemAct where
  | copy (src : W64)
  | zero
  | drop
  deriving DecidableEq, Repr

/-- The element with digits i and index x (0 for CPY): its action and its destination (R220). -/
def element (k : CopyKind) (f : Tbl W64) (i : List Nat) (x : Int) : ElemAct × W64 :=
  let outer := [1, 2, 3, 4, 5]
  let jump := BitVec.ofInt 64 (x * fieldOf f 28)
  let src := f.get 0 0 + strideSum f 9 i [0]
  let dst := f.get 0 1 + strideSum f 15 i [0]
  let bad := decide (x < 0) || (decide (fieldOf f 29 ≠ 0) && decide ((fieldOf f 29 : Int) ≤ x))
  match k with
  | .cpy => (.copy (src + strideSum f 9 i outer), dst + strideSum f 15 i outer)
  | .gth => (if bad then .zero else .copy (src + jump), dst + strideSum f 15 i outer)
  | .sct => (if bad then .drop else .copy (src + strideSum f 9 i outer), dst + jump)

/-- The fault with which an element's failure ends a copy (R220, R234): stale-generation, poison and the
outcomes of remote requests keep their cause, everything else is a copy fault at the element's address. -/
def copyFault (a : W64) (t : Trap) : Trap :=
  if [0x63, 0x8A, 0x8B, 0xA0, 0xA1].contains t.cause then t else ⟨0x44, a⟩

/-! ### Cells (R221) -/

/-- A cell under way: its writes so far with their places, the number of the next element, the granule in which it
lies, the places found and the indices read, and how it ended. -/
structure CellRun where
  writes : List (W64 × List Byte)
  puts : List (Nat × List Byte)
  next : Nat
  granule : Option Nat
  spots : List (W64 × Bool × Spot)
  idx : List Int
  failed : Option Trap
  waits : Bool

/-- The physical address of a place. -/
def State.spotPa (s : State) (p : Spot) : Nat :=
  match p with
  | .inside o | .hbm o | .window o => s.physical o
  | .far _ pa _ _ => pa

/-- The module offset of an element of this module. -/
def State.offsetOf (s : State) (g : Agent) (a : W64) (n : Nat) : Option Nat :=
  match s.spot g a n false with
  | .ok (.inside o) => some o
  | .ok (.hbm o) => some o
  | .ok (.window o) => some o
  | _ => none

/-- What a read came to, with the writes of its own cell over it, which come before it in the nest. -/
def State.seenIn (s : State) (g : Agent) (a : W64) (n : Nat) (puts : List (Nat × List Byte)) (x : Got) : Got :=
  match s.spot g a n false with
  | .ok p => x.over (s.spotPa p) puts
  | .error _ => x

/-- The address of the index of element number e. -/
def indexAddr (f : Tbl W64) (e : Nat) : W64 := f.get 0 26 + BitVec.ofNat 64 (e / (copyCounts f).headD 1 * fieldOf f 27)

/-- The index of a cell's next element: one read already, or read from the list, as what came before in the nest left it
(R220). -/
def State.readIndex (s : State) (g : Agent) (k : CopyKind) (x : Cmd) (c : CellRun) : State × Except (Option Trap) Int :=
  if k = .cpy then (s, .ok 0)
  else match c.idx[c.next - x.elems]? with
    | some v => (s, .ok v)
    | none =>
      let a := indexAddr x.fields c.next
      let w := fieldOf x.fields 27
      let y := s.engineRead g a w
      (y.1, match s.seenIn g a w c.puts y.2 with
        | .bytes b => .ok (BitVec.ofNat (8 * w) (leNat b)).toInt
        | .failed t => .error (some t)
        | .waits => .error none)

/-- The bytes of a gather's or scatter's source that the command has itself written, or is to write with this cell, each as
it was or as it is (R220). -/
def State.eitherByte (s : State) (olds : List (Nat × Byte)) (o : Nat) (now new : List Byte) : List Byte :=
  ((now.zip new).zip (List.range now.length)).map fun y =>
    match olds.find? fun z => decide (z.1 = o + y.2) with
    | some z => if Config.readsOld (s.freeCtr + y.2) then z.2 else y.1.2
    | none => if y.1.1 ≠ y.1.2 ∧ Config.readsOld (s.freeCtr + y.2) = true then y.1.1 else y.1.2

/-- The bytes an element writes (R220). -/
def State.elementData (s : State) (g : Agent) (k : CopyKind) (x : Cmd) (puts : List (Nat × List Byte)) (act : ElemAct) :
    State × Got :=
  let n := fieldOf x.fields 2
  match act with
  | .copy src =>
    let r := s.engineRead g src n
    let seen := s.seenIn g src n puts r.2
    if k = .cpy then (r.1, seen)
    else match r.2, s.offsetOf g src n with
      | .bytes b, some o => (r.1.tookFree n, .bytes (s.eitherByte x.olds o b (overlay (s.physical o) b puts)))
      | _, _ => (r.1, seen)
  | _ => (s, .bytes (List.replicate n 0))

/-- The elements of one cell read, in the order of the nest, from element `c.next` on; `fuel` bounds them. A cell that a
loaded context has already written is passed over: only its indices are read (`dry`). -/
def State.gatherCell (g : Agent) (k : CopyKind) (x : Cmd) (dry : Bool) : Nat → State × CellRun → State × CellRun
  | 0, a => a
  | fuel + 1, (s, c) =>
    let f := x.fields
    let g := { g with spots := c.spots }
    let g := if k = .cpy then g else { g with spots := s.noteSpot g (indexAddr f c.next) (fieldOf f 27) false }
    let i := s.readIndex g k x c
    match i.2 with
    | .error none => (i.1, { c with waits := true, spots := g.spots })
    | .error (some t) => (i.1, { c with failed := some (copyFault (f.get 0 26) t), spots := g.spots })
    | .ok v =>
      let c := { c with idx := if c.idx.length = c.next - x.elems then c.idx ++ [v] else c.idx, spots := g.spots }
      let e := element k f (digits (copyCounts f) c.next) v
      if e.1 = .drop then State.gatherCell g k x dry fuel (i.1, { c with next := c.next + 1 })
      else
        let gr := e.2.toNat / 128
        let n := fieldOf f 2
        if c.granule.isSome ∧ c.granule ≠ some gr then (i.1, c)
        else if dry then State.gatherCell g k x dry fuel (i.1, { c with next := c.next + 1, granule := some gr })
        else
          let g := match e.1 with
            | .copy src => { g with spots := i.1.noteSpot g src n false }
            | _ => g
          let g := { g with spots := i.1.noteSpot g e.2 n true }
          let c := { c with spots := g.spots }
          let d := i.1.elementData g k x c.puts e.1
          match d.2 with
          | .waits => (d.1, { c with waits := true })
          | .failed t =>
            (d.1, { c with failed := some (copyFault (match e.1 with
              | .copy src => src
              | _ => e.2) t) })
          | .bytes b =>
            let put := match d.1.spot g e.2 n true with
              | .ok p => [(d.1.spotPa p, b)]
              | .error _ => []
            State.gatherCell g k x dry fuel
              (d.1, { c with writes := c.writes ++ [(e.2, b)], puts := c.puts ++ put, next := c.next + 1, granule := some gr })

/-- The next cell of a copy command, read. -/
def State.nextCell (s : State) (g : Agent) (k : CopyKind) (x : Cmd) : State × CellRun :=
  State.gatherCell g k x (decide (0 < x.skip)) (elementTotal x.fields - x.elems)
    (s, ⟨[], [], x.elems, none, x.spots, x.idx, none, false⟩)

/-- The old bytes under a write remembered by a gather or scatter (R220). -/
def State.rememberOld (s : State) (g : Agent) (k : CopyKind) (a : W64) (n : Nat) (olds : List (Nat × Byte)) :
    List (Nat × Byte) :=
  if k = .cpy then olds
  else match s.offsetOf g a n with
    | none => olds
    | some o =>
      let now := match s.physRead o n (g.keyOf a) with
        | .ok b => b
        | .error _ => []
      olds ++ (((List.range n).zip now).map fun x => (o + x.1, x.2)).filter fun x => !(olds.any fun y => decide (y.1 = x.1))

/-! ### Writing a cell -/

/-- A write of an element of a copy: at once, but for HBM, where the homes take the bytes at the command's one time, when
it ends (R250). An absent key refuses it as the home would (R405). -/
def State.copyWrite (s : State) (g : Agent) (a : W64) (b : List Byte) : State × Put × List (Nat × Nat × List Byte) :=
  match s.spot g a b.length true with
  | .ok (.hbm o) =>
    let s := if addrForm a = 0 then s.tookFree else s
    if s.hasKey (g.keyOf a) then (s, .wrote (linesOf o b.length), [(g.keyOf a, o, b)])
    else (s, .failed ⟨0x64, BitVec.ofNat 64 (s.physical o)⟩, [])
  | _ =>
    let y := s.engineWrite g a b
    (y.1, y.2, [])

/-- What the writes of a cell came to: the command with the lines and bytes it is to write in HBM and the old bytes under
its writes, the failure that ended them, and whether one must wait, so that nothing is kept. -/
structure CellPut where
  cmd : Cmd
  failed : Option Trap
  waits : Bool

/-- The elements of a cell written one by one, up to the first that fails. -/
def State.writeCell (g : Agent) (k : CopyKind) : List (W64 × List Byte) → State → Cmd → State × CellPut
  | [], s, x => (s, ⟨x, none, false⟩)
  | (a, b) :: rest, s, x =>
    let olds := s.rememberOld g k a b.length x.olds
    let y := s.copyWrite g a b
    match y.2.1 with
    | .waits => (s, ⟨x, none, true⟩)
    | .failed t => (y.1, ⟨x, some (copyFault a t), false⟩)
    | .wrote l => State.writeCell g k rest y.1 { x with lines := x.lines ++ l, olds := olds, stores := x.stores ++ y.2.2 }

/-- The writes of a cell that fall in the window, up to the first that fails, as parts of an arrival. -/
def State.cellParts (s : State) (g : Agent) : List (W64 × List Byte) → List (Nat × List Byte) × Option Trap
  | [] => ([], none)
  | (a, b) :: rest =>
    match s.spot g a b.length true with
    | .error t => ([], some (copyFault a t))
    | .ok _ =>
      let r := s.cellParts g rest
      ((addrOff a, b) :: r.1, r.2)

/-- Whether a write of a cell is held: by a drain that has not finished (R173) or a DOMSET under way (R239). What goes to
HBM waits when the command ends. -/
def State.cellHeld (s : State) (g : Agent) (l : List (W64 × List Byte)) : Bool :=
  l.any fun x => match s.spot g x.1 x.2.length true with
    | .ok (.hbm _) => false
    | .ok p => s.spotHeld p x.2.length true
    | .error _ => false

/-- The cell written: as one arrival when the command names an entry (R221, R177), else element by element.
A named entry's range lies in the window, so an arrival elsewhere falls outside it. -/
def State.putCell (s : State) (g : Agent) (k : CopyKind) (x : Cmd) (c : CellRun) : State × CellPut :=
  if s.cellHeld g c.writes then (s, ⟨x, none, true⟩)
  else match tteEntry x.fields with
    | none => State.writeCell g k c.writes s x
    | some e =>
      if addrForm (x.fields.get 0 1) ≠ 2 then (s.postTaskFault g.task 0x26 (BitVec.ofNat 64 e), ⟨x, none, false⟩)
      else
        let p := s.cellParts g c.writes
        let olds := (c.writes.take p.1.length).foldl (fun o w => s.rememberOld g k w.1 w.2.length o) x.olds
        (if p.1 = [] then s else s.arrive g.task e p.1 (s.agentTime g.task.die g.pos) g.within,
          ⟨{ x with olds := olds }, p.2, false⟩)

/-- Whether what a copy is to write in HBM must wait for its home or for a line that a squashed bundle holds (R239, R167). -/
def State.storesHeld (s : State) (x : Cmd) : Bool := x.stores.any fun y => s.runHeld y.2.1 y.2.2.length true

/-- The bytes that a copy has written in HBM taken by their homes at the command's one time (R250). -/
def State.landStores (s : State) (g : Agent) (x : Cmd) : State × W64 :=
  (x.stores.foldl (fun s y => s.storeHbm y.2.1 y.1 y.2.2) s).stamp g.task.die g.pos x.lines

/-! ### The steps -/

/-- A copy command ends with a fault (R220): the record is posted by its engine, whose FAULTS register takes
the cause's class (Table 10.1), and the token becomes FAULTED. What it wrote takes its time. -/
def State.failCopy (s : State) (g : Agent) (c : CoreRef) (ptok : Nat) (x : Cmd) (t : Trap) : State :=
  let y := s.landStores g x
  let s := y.1.postFault c.die (0xA0 + engineOf c.core) 0 x.job t.cause t.info (s.engineLidx g.task x)
  (s.dropFar g.task ptok).endCmd c ptok t.cause y.2

/-- A copy command completes (R220, Table 10.1). -/
def State.finishCopy (s : State) (g : Agent) (c : CoreRef) (ptok : Nat) (x : Cmd) : State :=
  let y := s.landStores g x
  let e := engineOf c.core
  let s := y.1.modDie c.die fun d => { d with engDone := Tbl.set 0 d.engDone e (d.engDone.get 0 e + 1) }
  (s.dropFar g.task ptok).endCmd c ptok 0 y.2

/-- A running copy command under a physical token. -/
def State.copyAt (s : State) (c : CoreRef) (ptok : Nat) : Option (Cmd × CopyKind) :=
  match (s.core c).cmd ptok with
  | some x => x.kind.copy?.map fun k => (x, k)
  | none => none

/-- COPY_START (R215): a command whose bindings have all completed starts; a faulted binding ends it without
running and without a record. The engine observes the issuing task's accesses (R222). -/
def execCopyStart (c : CoreRef) (tok : Nat) (s : State) : Host.Outcome State Fault Refusal :=
  .next (match s.copyAt c tok with
    | none => s
    | some (x, _) =>
      let g := x.agent c tok
      if x.started ∨ x.deps ≠ [] ∨ (s.task g.task).stopped = true then s
      else if x.depFault.isSome then s.endCmd c tok 0x43 (s.agentTime c.die g.pos)
      else
        (s.modCore c fun k => k.setCmd tok (some { x with started := true })).raiseAgent c.die g.pos
          (s.task g.task).time)

/-- A command whose cell must wait: the places found for it (R236) and the indices read (R220) stand. -/
def State.keepCell (s : State) (c : CoreRef) (tok : Nat) (x : Cmd) (r : CellRun) : State :=
  s.modCore c fun k => k.setCmd tok (some { x with idx := r.idx, spots := r.spots })

/-- A command after the cell that has been read and put: counted when it wrote something, or one fewer to pass over. -/
def Cmd.advanced (x : Cmd) (r : CellRun) (fromElem : Nat) : Cmd :=
  { x with
    cells := if r.writes = [] then x.cells else x.cells + 1
    skip := x.skip - 1, elems := r.next, idx := r.idx.drop (r.next - fromElem), spots := [], lines := x.lines.dedup }

/-- COPY_CELL_WRITE (R221): the next cell of a started command is read, written and counted; an element that
fails ends the command, and those before it stay written (R220). -/
def execCopyCellWrite (c : CoreRef) (tok : Nat) (s : State) : Host.Outcome State Fault Refusal :=
  .next (match s.copyAt c tok with
    | none => s
    | some (x, k) =>
      let g := x.agent c tok
      if !x.started || decide (elementTotal x.fields ≤ x.elems) || (s.task g.task).stopped then s
      else
        let r := s.nextCell g k x
        if r.2.waits then r.1.keepCell c tok x r.2
        else
          let g' := { g with spots := r.2.spots }
          let w := r.1.putCell g' k x r.2
          let t := w.2.failed.orElse fun _ => r.2.failed
          let x' := w.2.cmd.advanced r.2 x.elems
          if w.2.waits || (t.isSome && w.1.storesHeld x') then r.1.keepCell c tok x r.2
          else
            let s' := (((w.1.dropLoads g.task (some tok)).dropLoads g.task (some walkTok)).modCore c fun k => k.setCmd tok (some x'))
            (match t with
              | some t => s'.failCopy g c tok x' t
              | none => s'))

/-- COPY_COMPLETE (R220): every element is written and counted, and every home has acknowledged what was
stored on it. -/
def execCopyComplete (c : CoreRef) (tok : Nat) (s : State) : Host.Outcome State Fault Refusal :=
  .next (match s.copyAt c tok with
    | none => s
    | some (x, _) =>
      let g := x.agent c tok
      if !x.started || decide (x.elems < elementTotal x.fields) || s.farPending g.task tok || s.storesHeld x then s
      else match s.farRefused g.task tok with
        | some t => s.failCopy g c tok x t
        | none => s.finishCopy g c tok x)

/-! ### The instructions as steps -/

/-- cpy as a step: the issuing task issues the slot. -/
def execCpy (g : Guard) (tok : BitVec 6) (e : BitVec 4) (s : State) : Host.Outcome State Fault Refusal :=
  issueSlot (semCpy g tok e) s

/-- gth as a step: the issuing task issues the slot. -/
def execGth (g : Guard) (tok : BitVec 6) (e : BitVec 4) (s : State) : Host.Outcome State Fault Refusal :=
  issueSlot (semGth g tok e) s

/-- sct as a step: the issuing task issues the slot. -/
def execSct (g : Guard) (tok : BitVec 6) (e : BitVec 4) (s : State) : Host.Outcome State Fault Refusal :=
  issueSlot (semSct g tok e) s

end Sys2Proof.Machine
end

