-- ==== Sys2Proof/Machine/Gang.lean ====
section
/-!
DEFINITION. The gang switch (R371 to R380, R434 to R437): GSW, its stop, markers and sweep into the Orangery, late
cells, and GRES.
-/

namespace Sys2Proof.Machine

/-! ### The switch block (Table 18.3) -/

/-- The fields of a block. -/
def switchBlock (b : List Byte) : SwitchBlock :=
  { job := bytesAt b 0 2, mask := BitVec.ofNat 64 (bytesAt b 8 8), orangery := bytesAt b 16 8, size := bytesAt b 24 8,
    turn := bytesAt b 32 8 }

/-- Whether a block is valid on a module. -/
def switchOk (module : Nat) (b : List Byte) : Bool :=
  let k := switchBlock b
  decide (0 < k.job) && decide (k.job < 2 ^ 12) && decide (bytesAt b 2 6 = 0) && k.mask.getLsbD module
    && decide (k.orangery % mib2 = 0) && decide (2 ^ 29 ≤ k.size) && decide (k.orangery + k.size ≤ hbmSize)
    && decide (bytesAt b 40 24 = 0)

/-- The bytes of a block. -/
def switchBytes (b : SwitchBlock) : List Byte :=
  leBytes 2 b.job ++ List.replicate 6 0 ++ leBytes 8 b.mask.toNat ++ leBytes 8 b.orangery ++ leBytes 8 b.size ++ leBytes 8 b.turn
    ++ List.replicate 24 0

/-- The read of the block that the lodge names, with the state it leaves: a form-01 access of the lodge (R253); while a
switch runs there is none, since the status is 5 whatever the block holds (Table 18.4). -/
def State.readBlock (s : State) (a : W64) : State × Got :=
  if s.gang.isSome then (s, .bytes []) else s.lodgeRead s.cur.die a 64

/-- The block read, where it is valid on this module. -/
def State.blockRead (s : State) (a : W64) : Option SwitchBlock :=
  match (s.readBlock a).2 with
  | .bytes b => if switchOk s.module.toNat b then some (switchBlock b) else none
  | _ => none

/-- The traps of GSW and GRES: the operand's (R380), and that of a refused read of the block (R20, R21). -/
def switchTrap (k : Nat) (a : W64) (s : State) : Option Trap :=
  firstTrap [sysTrap (!isForm01 a || decide (addrOff a % 64 ≠ 0)) k, (s.readBlock a).2.trap]

/-- GSW and GRES wait for the bytes of their block. -/
def switchWait (a : W64) (s0 s : State) : Option State :=
  if (s0.readBlock a).2 = .waits then some (s.readBlock a).1 else none

/-! ### Ports of a sweep (R373) -/

/-- The ring and rack ports of the module, in die order and then port order. -/
def markedPorts : List PortRef :=
  (List.range 8).flatMap fun d => [portAt d westRouter 5, portAt d eastRouter 5, portAt d gateRouter 6, portAt d gateRouter 7]

/-- Whether a port counts as marked at the stop: a rack port whose neighbour module is not in the mask, or is this
one (R373). -/
def State.markedAtStop (s : State) (mask : W64) (p : PortRef) : Bool :=
  match linkOf p with
  | some l =>
    let m := s.neighbour p.die l
    isRack l && (decide (m = s.module.toNat) || !mask.getLsbD m)
  | none => true

/-- A gang marker (R373). -/
def markerCell (job turn : Nat) : Cell :=
  ⟨6, 0, job, 0, 0, false, false, padTo 128 (leBytes 2 job ++ List.replicate 6 0 ++ leBytes 8 turn)⟩

/-! ### The header (Table 18.1) -/

/-- Bytes 0 to 48 of the header. -/
def headerBytes (module : Nat) (k : SwitchBlock) (nrec nlate check lost state : Nat) : List Byte :=
  leBytes 4 0x314E524F ++ leBytes 2 1 ++ leBytes 2 module ++ leBytes 2 k.job ++ List.replicate 6 0 ++ leBytes 8 k.turn
    ++ leBytes 8 nrec ++ leBytes 4 nlate ++ leBytes 4 check ++ leBytes 8 lost ++ leBytes 1 state

/-- Bytes written into a module's Orangery under its job's key (R375). -/
def State.toOrangery (s : State) (k : SwitchBlock) (off : Nat) (b : List Byte) : State :=
  s.storeHbm (k.orangery + off) (jobKey k.job) b

/-- Bytes of an Orangery; an unreadable one gives none. -/
def State.fromOrangery (s : State) (k : SwitchBlock) (off n : Nat) : Option (List Byte) :=
  match s.readHbm (k.orangery + off) n (jobKey k.job) with
  | .ok b => some b
  | .error _ => none

/-! ### The stop (R372) -/

/-- Tasks and tile tasks of a job that have not ended. -/
def State.jobTasks (s : State) (job : Nat) : List TaskRef :=
  s.residents.filter fun r => decide ((s.task r).job = job) && decide ((s.task r).status ≠ .ending) && !isLodge r.core

/-- The module stops a job: its tasks halt as by PRMPT, its markers leave, and the ports that nothing will mark are
marked, beside those whose markers came before (R372, R373). -/
def State.stopJob (s : State) (g : Gang) : State :=
  let job := g.block.job
  let marks := g.marked ++ markedPorts.filter fun p => s.markedAtStop g.block.mask p && !g.marked.contains p
  let s := { s with gang := some { g with stopped := true, marked := marks } }
  let s := (s.jobTasks job).foldl
    (fun s r => if (s.task r).halted then s else (s.modTask r fun t => { t with preempt := true }).preemptAt r) s
  let s := markedPorts.foldl (fun s p => s.output p.die (portRouter p) p.port (markerCell job g.block.turn)) s
  s.toOrangery g.block 0 (padTo 4096 (headerBytes s.module.toNat g.block 0 g.nlate 0 g.lost.length 0))

/-- A switch command at this module (R372): it stops at once, with a late start, where the mark has passed the turn
already. -/
def State.startGang (s : State) (b : SwitchBlock) (issuer : Option (TaskRef × Nat)) : State :=
  let late := decide (4096 * b.turn < s.hwm.toNat)
  let g : Gang := ⟨b, issuer, false, late, [], 0, [], [], [], []⟩
  if late then s.stopJob g else { s with gang := some g }

/-- GANG_STOP_TIMEOUT: the mark is raised to the turn, and the job stops (R372). -/
def execGangStopTimeout (s : State) : Host.Outcome State Fault Refusal :=
  .next (match s.gang with
    | some g =>
      if g.stopped then s else { s with hwm := tmax s.hwm (BitVec.ofNat 64 (4096 * g.block.turn)) }.stopJob g
    | none => s)

/-- GSW_COMMAND: a switch command reaches a module of the mask; one whose job is not active here, or that comes while
another switch runs, is not begun (Table 18.4). -/
def execGswCommand (b : SwitchBlock) (s : State) : Host.Outcome State Fault Refusal :=
  .next (
    if s.gang.isSome ∨ b.job = 0 ∨ b.job ≠ s.jobid.toNat ∨ b.mask.getLsbD s.module.toNat = false ∨ b.orangery % mib2 ≠ 0
        ∨ b.size < 2 ^ 29 ∨ hbmSize < b.orangery + b.size ∨ 2 ^ 64 ≤ b.turn then s
    else s.startGang b none)

/-! ### Records of the sweep (R374 to R376) -/

/-- A sweep as it goes: the state and the records so far. -/
abbrev Swept := State × List (List Byte)

/-- A record added. -/
def Swept.add (x : Swept) (l : RecLoc) (b : List Byte) : Swept := (x.1, x.2 ++ [recordOf l b])

/-- Cells recorded from one source of a port. -/
def Swept.cells (p : PortRef) (source : Nat) (l : List Cell) (x : Swept) : Swept :=
  l.foldl (fun (x : Swept) c => x.add (portLoc p source (x.1.bodyDue p c)) (slotBytes c)) x

/-- Port cells of a job at one port, source by source. -/
def sweepPort (job : Nat) (x : Swept) (p : PortRef) : Swept :=
  let q := ((x.1.die p.die).pav (portRouter p)).port p.port
  let mine := fun (c : Cell) => decide (c.job = job)
  let cores := (if p.port = 4 then coresAt (portRouter p) else []).map fun n => (⟨p.die, n⟩ : CoreRef)
  let send := cores.flatMap fun c => (x.1.core c).sendBuf.filter mine
  let before := match x.1.gang with
    | some g => (g.before.filter fun e => decide (e.1 = p)).map Prod.snd
    | none => []
  let y := [(0, q.fifo.filter mine), (1, q.refusal.filter mine), (2, send), (3, q.circ.filter mine),
    (4, q.nackq.filter mine), (5, before)].foldl (fun x e => Swept.cells p e.1 e.2 x) x
  let s := y.1.modPort p.die (portRouter p) p.port fun q =>
    { q with
      fifo := q.fifo.filter fun c => !mine c
      refusal := q.refusal.filter fun c => !mine c
      circ := q.circ.filter fun c => !mine c
      nackq := q.nackq.filter fun c => !mine c }
  (cores.foldl (fun s c => s.modCore c fun k => { k with sendBuf := k.sendBuf.filter fun c => !mine c }) s, y.2)

/-- Input ports of a router in the order of R374; rack ports 0 and 1 at the Gatehouse router (R436). -/
def sweptPorts (router : Nat) : List Nat := [0, 1, 2, 3, 4] ++ (if router = gateRouter then [6, 7] else [5])

/-- Every die and router of the module in ascending order. -/
def allRouters : List (Nat × Nat) := (List.range 8).flatMap fun d => (List.range 120).map fun r => (d, r)

/-- Step 1 of R374. -/
def sweepPorts (job : Nat) (x : Swept) : Swept :=
  allRouters.foldl
    (fun (x : Swept) e =>
      if ((x.1.die e.1).pavs.any fun y => decide (y.1 = e.2)) || decide (10 ≤ e.2) then
        (sweptPorts e.2).foldl (fun x n => sweepPort job x (portAt e.1 e.2 n)) x
      else x) x

/-- Whether the round of an entry takes its ranks in any order (R376). -/
def FlowEntry.anyOrder (e : FlowEntry) : Bool := decide (e.action = 1) && !(decide (e.cop = 0) && e.ord)

/-- NEXT and the rank mask of one local index (R376). -/
def roundState (p : Pavilion) (n : Nat) (e : FlowEntry) (l : Nat) : Nat × Nat :=
  let r := p.round n l
  let mask := fun (base : Nat) => r.ranks.foldl (fun m k => if base ≤ k ∧ k - base < 64 then m ||| 2 ^ (k - base) else m) 0
  if e.action = 3 then (((p.held.get [] n).filter fun x => decide (x.2.cidx = e.cfirst + l)).length, 0)
  else if e.action = 5 then (r.ranks.length, mask 0)
  else if e.anyOrder then (r.ranks.length, 0)
  else (r.next, mask r.next)

/-- Whether an entry has round state: COMBINE, HOLD, SCAN, TRANSPOSE. -/
def FlowEntry.hasRounds (e : FlowEntry) : Bool := [1, 3, 4, 5].contains e.action

/-- The KIND 3, KIND 4 and KIND 9 records of an entry slot (R376). -/
def entryRecords (die router : Nat) (p : Pavilion) (n : Nat) (e : FlowEntry) : List (List Byte) :=
  let loc := fun (kind index aux : Nat) => ({ kind := kind, die := die, row := router / 12, col := router % 12, index := index, aux := aux } : RecLoc)
  let groups := (List.range (ceilDiv e.ccount 8)).map fun k =>
    recordOf (loc 4 n (8 * k)) ((List.range 8).flatMap fun i =>
      let x := if 8 * k + i < e.ccount then roundState p n e (8 * k + i) else (0, 0)
      leBytes 2 x.1 ++ leBytes 8 x.2 ++ List.replicate 6 0)
  let folded := (List.range e.ccount).flatMap fun l =>
    let ranks := (p.round n l).ranks
    ((List.range 64).filter fun b => ranks.any fun r => decide (r / 1024 = b)).map fun b =>
      recordOf (loc 9 b l)
        (leBytes 128 (ranks.foldl (fun m r => if r / 1024 = b then m ||| 2 ^ (r % 1024) else m) 0))
  [recordOf (loc 3 n 0) (leBytes 32 e.bits)] ++ (if e.hasRounds then groups else [])
    ++ (if e.anyOrder then folded else [])

/-- Step 2 of R374 at one Pavilion: held cells, footprints and entries are recorded; then the cells, the footprints and
the rounds are gone, and the rest of the rounds is kept. -/
def sweepPavilion (job : Nat) (x : Swept) (d : Nat × Nat) : Swept :=
  let p := (x.1.die d.1).pav d.2
  let mine := p.entries.filter fun e => e.2.v && decide (e.2.job = job)
  if mine = [] then x
  else
    let loc := fun (kind index port : Nat) => ({ kind := kind, die := d.1, row := d.2 / 12, col := d.2 % 12, port := port, index := index } : RecLoc)
    let acc := fun (a : Nat) => x.1.readAcc d.1 d.2 a 1
    let held := inOrder (mine.flatMap fun e => (List.range 512).zip (p.held.get [] e.1) |>.map fun h => (e.2.aslot + h.1, h.2))
      fun a b => decide (a.1 ≤ b.1)
    let foot := inOrder (mine.flatMap fun e => (List.range e.2.slots).map fun i => e.2.aslot + i) fun a b => decide (a ≤ b)
    let recs := (held.map fun h => recordOf (loc 1 h.1 h.2.1) (slotBytes { h.2.2 with payload := acc h.1 }))
      ++ (foot.map fun a => recordOf (loc 2 a 0) (acc a))
      ++ mine.flatMap fun e => entryRecords d.1 d.2 p e.1 e.2
    let own := fun (n : Nat) => mine.any fun e => decide (e.1 = n)
    let rounds := (p.rounds.filter fun r => own (r.1 / 4096)).map fun r => (d.1, d.2, r.1, r.2)
    let s := x.1.modPav d.1 d.2 fun p =>
      { p with rounds := p.rounds.filter fun r => !own (r.1 / 4096), held := p.held.filter fun h => !own h.1 }
    let s := { s with mem := foot.foldl (fun m a => m.clear (accSlot d.1 d.2 a) 128) s.mem }
    (s.modGang job fun g => { g with rounds := g.rounds ++ rounds }, x.2 ++ recs)

/-- Step 2 of R374. -/
def sweepPavilions (job : Nat) (x : Swept) : Swept := allRouters.foldl (sweepPavilion job) x

/-- Step 3 of R374: unacknowledged cells of failed links (KIND 5). -/
def sweepRetries (job : Nat) (x : Swept) : Swept :=
  markedPorts.foldl
    (fun (x : Swept) p =>
      match linkOf p with
      | none => x
      | some l =>
        let k := (x.1.die p.die).link l
        if k.st ≠ linkFailed then x
        else
          let mine := fun (e : Nat × Nat × Cell) => decide (e.2.2.job = job) && [0, 8, 9].contains e.2.2.typ
          let y := (k.retry.filter mine).foldl
            (fun (x : Swept) e => x.add { portLoc p 0 0 with kind := 5 } (slotBytes e.2.2)) x
          (y.1.modLink p.die l fun k => { k with retry := k.retry.filter fun e => !mine e }, y.2)) x

/-- Tasks of a job in ascending logical index. -/
def State.tasksByIndex (s : State) (job : Nat) : List TaskRef :=
  inOrder (s.jobTasks job) fun a b => decide ((s.task a).lidx.toNat ≤ (s.task b).lidx.toNat)

/-- The cells that wait at a local port for a queue of a task (R324). -/
def State.aheadOf (s : State) (r : TaskRef) (q : Nat) : List Cell :=
  let router := coreRouter r.core
  ((((s.die r.die).pav router).port 4).ahead.filter fun x =>
    decide (localTask r.die router x.1 = r) && decide (x.2.1 = q)).map fun x => x.2.2

/-- Step 4 of R374: one queue's cells, with those that wait for it, in ascending cell index (KIND 6). -/
def sweepQueue (job : Nat) (r : TaskRef) (x : Swept) (q : Nat) : Swept :=
  let t := x.1.task r
  let y := t.queue q
  let own := y.cells.map fun c => (⟨0, y.flow, job, c.rank, c.cidx, c.psn, false, c.payload⟩ : Cell)
  let all := inOrder (own ++ x.1.aheadOf r q) fun a b => decide (a.cidx ≤ b.cidx)
  let z := all.foldl
    (fun (x : Swept) c => x.add { kind := 6, die := r.die, index := q, aux := t.lidx.toNat % 2 ^ 32 } (slotBytes c)) x
  let router := coreRouter r.core
  let s := z.1.modTask r fun t => t.setQueue q { y with cells := [] }
  (s.modPort r.die router 4 fun p =>
    { p with ahead := p.ahead.filter fun x => !(decide (localTask r.die router x.1 = r) && decide (x.2.1 = q)) }, z.2)

/-- Step 4 of R374. -/
def sweepQueues (job : Nat) (x : Swept) : Swept :=
  (x.1.tasksByIndex job).foldl (fun x r => [0, 1].foldl (sweepQueue job r) x) x

/-- The held ordered atomic of a task, with its home die and slice (R262). -/
def State.heldOrdered (s : State) (r : TaskRef) : Option (Nat × Nat × AtomicOp) :=
  match (s.task r).waitingAtomic with
  | some a =>
    if a.ordered.isSome ∧ paModule a.pa = s.module.toNat then
      let o := paOffset a.pa
      some (homeDie o, homeSlice (s.die (homeDie o)) o, a)
    else none
  | none => none

/-- The payload of a request (Table 16.4). -/
def requestBytes (q : RemoteReq) : List Byte :=
  leBytes 6 q.pa ++ leBytes 1 (q.gen % 16 + q.lgSize % 8 * 16)
    ++ leBytes 1 (q.aop % 16 + bitAt q.wide 4 + bitAt q.uns 5 + bitAt q.isFadd 6 + bitAt q.faddHi 7)
    ++ leBytes 8 q.id ++ leBytes 8 q.time ++ leBytes 8 q.operand.toNat ++ leBytes 8 q.newVal.toNat ++ List.replicate 24 0
    ++ padTo 64 q.data

/-- Step 5 of R374: held ordered atomics by home, then by logical index (KIND 7). -/
def sweepAtomics (job : Nat) (x : Swept) : Swept :=
  let all := inOrder ((x.1.tasksByIndex job).filterMap fun r => (x.1.heldOrdered r).map fun h => (r, h))
    fun a b => decide (16 * a.2.1 + a.2.2.1 ≤ 16 * b.2.1 + b.2.2.1)
  all.foldl
    (fun (x : Swept) e =>
      let a := e.2.2.2
      let y := x.add { kind := 7, die := e.2.1, row := e.2.2.1, aux := (x.1.task e.1).lidx.toNat % 2 ^ 32 }
        (requestBytes (a.request job a.floor))
      (y.1.setHold e.1 (.awaits a.dest a.pc a.delay a.target), y.2)) x

/-- Pieces that a rank has complete: all of them once its writes have been made (R376). -/
def piecesDone (x : Coll) (r : CollRank) : Nat := if r.wrote then collCells x.lead else 0

/-- The bytes of a collective at an engine: block, arrived ranks, and a count for each rank served here (R376). -/
def collState (x : Coll) : List Byte :=
  (padTo 128 x.lead).take 128 ++ leBytes 512 (x.ranks.foldl (fun m r => m ||| 2 ^ (r.rank % 4096)) 0)
    ++ (inOrder x.ranks fun a b => decide (a.rank ≤ b.rank)).flatMap fun r => leBytes 8 (piecesDone x r)

/-- Step 6 of R374: open collectives by engine, then by COLLID, in chunks of 144 bytes (KIND 8). -/
def sweepColls (job : Nat) (x : Swept) : Swept :=
  (List.range 8).foldl
    (fun (x : Swept) d =>
      let mine := inOrder ((x.1.die d).colls.filter fun c => decide (c.job = job))
        fun a b => decide (a.collid.toNat ≤ b.collid.toNat)
      let y := mine.foldl
        (fun (x : Swept) c =>
          let b := collState c
          (List.range (ceilDiv b.length 144)).foldl
            (fun (x : Swept) k => x.add { kind := 8, die := d, index := k } ((b.drop (144 * k)).take 144)) x) x
      let kept := mine.map fun c =>
        (⟨d, c, c.ranks.map fun r =>
          let k := x.1.collCmd r.core r.tok
          ((k.map Cmd.lidx).getD 0, if isCompute r.core.core then r.tok % 16 else r.tok, (k.map Cmd.collBlock).getD [])⟩ : SweptColl)
      let s := y.1.modDie d fun k => { k with colls := k.colls.filter fun c => !decide (c.job = job) }
      (s.modGang job fun g => { g with colls := g.colls ++ kept }, y.2)) x

/-- The whole sweep of a job, step by step (R374). -/
def State.sweep (s : State) (job : Nat) : Swept :=
  sweepColls job (sweepAtomics job (sweepQueues job (sweepRetries job (sweepPavilions job (sweepPorts job (s, []))))))

/-! ### The close (R373) -/

/-- The GSW of a job's switch completes: its status goes to its issuer, if that one still waits (R380). -/
def State.endGsw (s : State) (g : Gang) (code : Nat) : State :=
  let s' := s.modGang g.block.job fun g => { g with issuer := none }
  match g.issuer with
  | some (r, d) =>
    (match s.headHold r with
      | some (.gsw _) => s'.settle r d (BitVec.ofNat 64 code)
      | _ => s')
  | none => s'

/-- GSW completes when every module of the mask has closed or has failed (R380). What it hears of the others is no
part of this module's state: among the codes that this module's own part allows, and not to complete yet, the value is
free. -/
def State.pollGsw (s : State) (g : Gang) (codes : List Nat) : State :=
  let n := Config.freePick s.freeCtr % (codes.length + 1)
  match codes[n]? with
  | some c => (s.endGsw g c).tookFree
  | none => s.tookFree

/-- Codes of a GSW whose own module has closed its sweep (Table 18.4). -/
def Gang.codes (g : Gang) : List Nat := if g.late then [3, 4] else [0, 3, 4]

/-- The sweep closes once every port is marked and every task of the job stands halted: the Orangery holds it, JOBID
reads 0, and a GSW of this module alone completes (R371, R373 to R375, R380). -/
def State.tryClose (s : State) : State :=
  match s.gang with
  | none => s
  | some g =>
    let job := g.block.job
    if !g.stopped || !(markedPorts.all fun p => g.marked.contains p) || !((s.jobTasks job).all fun r => (s.task r).halted) then s
    else
      let x := s.sweep job
      let recs := x.2.flatten
      let s := x.1.toOrangery g.block 0x100000 recs
      match s.gang with
      | none => s
      | some h =>
        let s := s.toOrangery g.block 0
          (headerBytes s.module.toNat g.block x.2.length h.nlate (crc32c recs) h.lost.length 1)
        let h := { h with before := [] }
        let s := { s with gang := none, switched := s.switched ++ [h], jobid := 0 }
        if g.block.mask = (1 : W64) <<< s.module.toNat then s.endGsw h (if g.late then 3 else 0) else s

/-- GANG_STOP: the module stops the job once its .pkg mark has reached the turn; a job whose last task has halted since its
ports were marked is swept; a GSW may hear that the other modules have closed, or that one has failed, this one
included (R372, R373, R380). -/
def execGangStop (s : State) : Host.Outcome State Fault Refusal :=
  .next (match s.gang with
    | some g =>
      if g.stopped then
        (let t := s.tryClose
         if t.gang.isSome ∧ g.issuer.isSome = true then t.pollGsw g [4] else t)
      else if 4096 * g.block.turn ≤ s.hwm.toNat then s.stopJob g else s
    | none =>
      match s.switched.find? fun g => g.issuer.isSome with
      | some g => s.pollGsw g g.codes
      | none => s)

/-- GANG_MARKER: a marker marks its port, be it before this module's stop (R377); one of a job that no switch here names is
discarded (R373, R434). -/
def execGangMarker (p : PortRef) (job turn : Nat) (s : State) : Host.Outcome State Fault Refusal :=
  .next (match s.gang with
    | some g =>
      if g.block.job = job ∧ g.block.turn = turn ∧ markedPorts.contains p = true then
        (let t := { s with gang := some { g with marked := if g.marked.contains p then g.marked else g.marked ++ [p] } }
         if g.stopped then t.tryClose else t)
      else s
    | none => s)

/-- LATE_CELL: a cell of a stopped job after its port's marker (R377). -/
def execLateCell (p : PortRef) (cell : Cell) (s : State) : Host.Outcome State Fault Refusal :=
  .next (match s.gangOf cell.job with
    | some g => if g.marked.contains p then s.lateCell g p cell else s
    | none => s)

/-! ### GSW (R380) -/

/-- GSW's status at issue (Table 18.4); none where it begins. -/
def State.gswCode (s : State) (b : Option SwitchBlock) : Option Nat :=
  if s.gang.isSome then some 5
  else match b with
    | none => some 2
    | some k => if k.job ≠ s.jobid.toNat then some 1 else none

/-- The command that goes to the D0 lodge of each other module of the mask, as TYPE 10 cells routed to D0's lodge router;
the manual does not lay out their payload (R372, R333). -/
def State.sendCommand (s : State) (b : SwitchBlock) : State :=
  (presentList (s.die 0).gate.present).foldl
    (fun s m =>
      if b.mask.getLsbD m ∧ m ≠ s.module.toNat then
        s.output 0 gateRouter (s.portFor 0 m)
          (routedCell 10 (m + lodgeRouter * 2 ^ 9) b.job (exactly 128 (Config.commandCell (switchBytes b))))
      else s) s

/-- GSW. -/
def semGsw (g : Guard) (a c : BitVec 5) : SlotSem :=
  { guard := g
    place := .lodge
    trap := fun k s0 => switchTrap k (s0.sreg a) s0
    wait := fun s0 s => switchWait (s0.sreg a) s0 s
    eff := fun s0 s =>
      let b := s0.blockRead (s0.sreg a)
      let t := (s.readBlock (s0.sreg a)).1.lodgeRest s0.cur.die
      match b, s0.gswCode b with
      | some k, none => ((t.holdOn (.gsw c.toNat)).startGang k (some (s0.cur, c.toNat))).sendCommand k
      | _, code => t.push 1 (.scalar c.toNat (BitVec.ofNat 64 (code.getD 2))) }

/-! ### GRES (R378, R379) -/

/-- A record read back: its location and contents. -/
def unrecord (b : List Byte) : RecLoc × List Byte := (recLoc b, (b.drop 16).take 144)

/-- The sweep records of an Orangery and the header's NLATE and LATEDROP, where the header is valid for a job on this
module and CHECK holds. -/
def State.orangery (s : State) (k : SwitchBlock) : Option (List (RecLoc × List Byte) × Nat × Nat) :=
  match s.fromOrangery k 0 4096 with
  | none => none
  | some h =>
    let nrec := bytesAt h 24 8
    let nlate := bytesAt h 32 4
    if bytesAt h 0 4 = 0x314E524F ∧ bytesAt h 4 2 = 1 ∧ bytesAt h 6 2 = s.module.toNat ∧ bytesAt h 8 2 = k.job
        ∧ bytesAt h 10 6 = 0 ∧ nlate ≤ lateLimit ∧ bytesAt h 48 1 = 1 ∧ 0x100000 + 160 * nrec ≤ k.size then
      (match s.fromOrangery k 0x100000 (160 * nrec) with
        | some b =>
          if crc32c b = bytesAt h 36 4 then
            some ((List.range nrec).map fun i => unrecord ((b.drop (160 * i)).take 160), nlate, bytesAt h 40 8)
          else none
        | none => none)
    else none

/-- The task of a job that holds a logical index now. -/
def State.taskOf (s : State) (job lidx : Nat) : Option TaskRef :=
  (s.jobTasks job).find? fun r => decide ((s.task r).lidx.toNat % 2 ^ 32 = lidx)

/-- Router of a record. -/
def RecLoc.router (l : RecLoc) : Nat := routerAt l.row l.col

/-- Port of a record. -/
def RecLoc.at (l : RecLoc) : PortRef := ⟨l.die, l.row, l.col, l.port⟩

/-- GRES's status before anything is restored (Table 18.4); none where it restores. -/
def State.gresCode (s : State) (k : SwitchBlock) (recs : List (RecLoc × List Byte)) : Option Nat :=
  if recs.any fun r => decide (r.1.kind = 6) && (s.taskOf k.job r.1.aux).isNone then some 2
  else if recs.any fun r => decide (r.1.kind = 3) && (
      let e := ((s.die r.1.die).pav r.1.router).entry r.1.index
      e.v && decide (e.job ≠ k.job)) then some 3
  else none

/-- The rest of a round that the records have no place for. -/
def Gang.round (g : Option Gang) (die router key : Nat) : Round :=
  match g with
  | some g =>
    ((g.rounds.find? fun x => decide (x.1 = die) && decide (x.2.1 = router) && decide (x.2.2.1 = key)).map fun x => x.2.2.2).getD
      Round.empty
  | none => Round.empty

/-- One local index of an entry slot restored from its 16 bytes of a KIND 4 record (R376); ranks that an any-order fold
has taken come from KIND 9 records, and HOLD takes its cells again in stage 2. -/
def restoreRound (old : Round) (n l : Nat) (b : List Byte) (p : Pavilion) : Pavilion :=
  let e := p.entry n
  let next := bytesAt b 0 2
  let base := if e.action = 5 then 0 else next
  let ranks := (List.range 64).filterMap fun i => if bitOf (bytesAt b 2 8) i then some (base + i) else none
  if e.action = 3 ∨ e.ccount ≤ l then p
  else
    p.setRound n l
      { next := if e.action = 5 ∨ e.anyOrder = true then 0 else next, ranks := if e.anyOrder then [] else ranks,
        psn := old.psn, bad := old.bad, waiting := old.waiting }

/-- Stage 1 for one record: an entry back in its slot, a slot of the store, round state; `n` is the entry slot of the
records that follow their entry's (R376, R378). -/
def restoreEntry (g : Option Gang) (x : State × Nat) (r : RecLoc × List Byte) : State × Nat :=
  let die := r.1.die
  let router := r.1.router
  let n := x.2
  let s := x.1
  match r.1.kind with
  | 2 => (s.writeAcc die router r.1.index (r.2.take 128), n)
  | 3 =>
    let e := { FlowEntry.ofBits (leNat (r.2.take 32)) with reserved := 0 }
    (s.modPav die router fun p => { p with entries := Tbl.set FlowEntry.empty p.entries r.1.index e }, r.1.index)
  | 4 =>
    ((List.range 8).foldl
      (fun s i =>
        let l := r.1.aux + i
        s.modPav die router (restoreRound (Gang.round g die router (roundKey n l)) n l ((r.2.drop (16 * i)).take 16))) s, n)
  | 9 =>
    let ranks := (List.range 1024).filterMap fun i => if bitOf (leNat (r.2.take 128)) i then some (1024 * r.1.index + i) else none
    (s.modPav die router fun p =>
      let y := p.round n r.1.aux
      p.setRound n r.1.aux { y with ranks := y.ranks ++ ranks }, n)
  | _ => (s, n)

/-- A cell put behind the cells of its job that stand first, and ahead of every other (R378). -/
def putAhead {α : Type} (mine : α → Bool) (x : α) (l : List α) : List α := l.takeWhile mine ++ x :: l.dropWhile mine

/-- A cell re-injected at a port and source (R378, R437): offered at once, or put back where it stood, ahead of the cells
of other jobs, when it cannot be taken yet or a cell of its job stands there before it. -/
def State.reinject (s : State) (p : PortRef) (source : Nat) (c : Cell) : State :=
  let mine := fun (x : Cell) => decide (x.job = c.job)
  let q := ((s.die p.die).pav (portRouter p)).port p.port
  let fifo := s.modPort p.die (portRouter p) p.port fun q => { q with fifo := putAhead mine c q.fifo }
  match source with
  | 1 =>
    if s.stillRefused p c then s.modPort p.die (portRouter p) p.port fun q => { q with refusal := putAhead mine c q.refusal }
    else (s.offerFrom p false c).getD fifo
  | 2 =>
    (match coresAt (portRouter p) with
      | n :: _ => s.modCore ⟨p.die, n⟩ fun k => { k with sendBuf := putAhead mine c k.sendBuf }
      | [] => fifo)
  | 3 =>
    (s.offerFrom p true { c with circ := false }).getD
      (s.modPort p.die (portRouter p) p.port fun q => { q with circ := putAhead mine { c with circ := false } q.circ })
  | 4 => s.modPort p.die (portRouter p) p.port fun q => { q with nackq := putAhead mine c q.nackq }
  | _ =>
    if (q.fifo.head?.map mine).getD false then fifo else (s.actOn p c).getD fifo

/-- A queue cell back in the queue of the task that holds its logical index; one of a block ahead waits at the local port
again (R378). -/
def State.requeue (s : State) (job : Nat) (l : RecLoc) (c : Cell) : State :=
  match s.taskOf job l.aux with
  | none => s
  | some r =>
    let y := (s.task r).queue (l.index % 2)
    if y.distance c.cidx < 4 then
      s.modTask r fun t => t.setQueue (l.index % 2) { y with cells := y.cells ++ [⟨c.cidx, c.rank, c.psn, c.payload⟩] }
    else
      s.modPort r.die (coreRouter r.core) 4 fun p =>
        { p with ahead := p.ahead ++ [(if isCompute r.core then r.slot else r.core - 96, l.index % 2, c)] }

/-- A held ordered atomic back at its home: the operation that its task waits for (R376, R378). -/
def State.rehold (s : State) (job : Nat) (l : RecLoc) (b : List Byte) : State :=
  match s.taskOf job l.aux with
  | none => s
  | some r =>
    match s.headHold r with
    | some (.awaits d pc delay target) =>
      let q := reqOfCell ⟨3, 0, job, 0, 0, false, false, b⟩
      s.setHold r (.atomic { atomicOfReq q with
        ordered := (s.task r).openSet, scope := 0, dest := d, va := BitVec.ofNat 64 q.pa, pc := pc, delay := delay,
        target := target })
    | _ => s

/-- Stage 2 for one record. -/
def restoreItem (job : Nat) (s : State) (r : RecLoc × List Byte) : State :=
  let c := cellOfBytes r.2
  match r.1.kind with
  | 0 => s.reinject r.1.at r.1.source c
  | 1 => s.reinject r.1.at 0 c
  | 5 => s.modPort r.1.die r.1.router r.1.port fun q =>
    { q with out := putAhead (fun x => decide (x.2.job = job)) (4, c) q.out }
  | 6 => s.requeue job r.1 c
  | 7 => s.rehold job r.1 r.2
  | _ => s

/-- The rank of a swept collective at the task that holds its logical index now, where that one has it still. -/
def State.rerank (s : State) (job : Nat) (x : CollRank × W64 × Nat × List Byte) : CollRank :=
  match s.taskOf job (x.2.1.toNat % 2 ^ 32) with
  | some r => { x.1 with core := r.coreRef, tok := physToken r x.2.2.1 }
  | none => x.1

/-- Open collectives back at their engines, their blocks and counts as recorded (R376, R378). A collective's records
follow one another, from chunk 0 on; `rest` are those not yet read. -/
def restoreColls (job : Nat) : List SweptColl → List (RecLoc × List Byte) → State → State
  | [], _, s => s
  | k :: more, rest, s =>
    let n := ceilDiv (collState k.coll).length 144
    let b := (rest.take n).flatMap Prod.snd
    let order := inOrder (k.coll.ranks.zip k.tasks) fun a b => decide (a.1.rank ≤ b.1.rank)
    let ranks := (List.range order.length).zip order |>.filterMap fun e =>
      if bitOf (leNat ((b.drop 128).take 512)) (e.2.1.rank % 4096) then
        some { s.rerank job e.2 with wrote := decide (bytesAt b (640 + 8 * e.1) 8 ≠ 0) }
      else none
    restoreColls job more (rest.drop n)
      (s.modDie k.die fun d => { d with colls := d.colls ++ [{ k.coll with lead := b.take 128, ranks := ranks }] })

/-- Stage 3: the late cells at their ports of arrival, in the order of the list (R378). -/
def restoreLate (k : SwitchBlock) (s : State) (n : Nat) : State :=
  match s.fromOrangery k (0x1000 + 160 * n) 160 with
  | some b =>
    let r := unrecord b
    s.reinject r.1.at 0 (cellOfBytes r.2)
  | none => s

/-- A late cell that was dropped: each collective whose cells include it ends FAULTED, any other flow has its fault
(R378). -/
def State.loseLate (s : State) (job : Nat) (e : PortRef × Cell) : State :=
  let hit := (List.range 8).flatMap fun d => ((s.die d).colls.filter fun x =>
    decide (x.job = job) && (decide (x.tree = some e.2.flow) || decide (collFlow x.lead = e.2.flow ∧ collFlow x.lead ≠ 0))).map
      fun x => x.collid
  if hit = [] then s.postFault e.1.die 0xA7 0 job 0x8C (cellInfo false e.2)
  else hit.dedup.foldl (fun s id => s.failColl job id 0x8C e.2.rank) s

/-- The four stages of GRES (R378). -/
def State.restoreJob (s : State) (k : SwitchBlock) (recs : List (RecLoc × List Byte)) (nlate : Nat) : State :=
  let g := s.switched.find? fun g => decide (g.block.job = k.job)
  let s := (recs.foldl (restoreEntry g) (s, 0)).1
  let s := recs.foldl (restoreItem k.job) s
  let s := restoreColls k.job ((g.map Gang.colls).getD []) (recs.filter fun r => decide (r.1.kind = 8)) s
  let s := (List.range nlate).foldl (restoreLate k) s
  let s := { s with jobid := BitVec.ofNat 12 k.job, switched := s.switched.filter fun g => !decide (g.block.job = k.job) }
  let s := ((g.map Gang.lost).getD []).foldl (fun s e => s.loseLate k.job e) s
  s.toOrangery k 48 (leBytes 1 2)

/-- The word GRES writes (Table 18.4). -/
def gresWord (code nlate lost : Nat) : W64 := BitVec.ofNat 64 (code + nlate * 2 ^ 8 + min lost (2 ^ 32 - 1) * 2 ^ 32)

/-- GRES's outcome for a block that names no running switch: the state and the word it writes (Table 18.4). -/
def State.gresRun (s : State) (b : Option SwitchBlock) : State × W64 :=
  match b with
  | none => (s, 2)
  | some k =>
    if s.jobid ≠ 0 then (s, 1)
    else match s.orangery k with
      | none => (s, 2)
      | some z =>
        match s.gresCode k z.1 with
        | some code => (s, gresWord code z.2.1 z.2.2)
        | none => (s.restoreJob k z.1 z.2.1, gresWord (if z.2.2 = 0 then 0 else 4) z.2.1 z.2.2)

/-- GRES: the checks of Table 18.4, then the four stages. -/
def semGres (g : Guard) (a c : BitVec 5) : SlotSem :=
  { guard := g
    place := .lodge
    trap := fun k s0 => switchTrap k (s0.sreg a) s0
    wait := fun s0 s => switchWait (s0.sreg a) s0 s
    eff := fun s0 s =>
      let t := (s.readBlock (s0.sreg a)).1.lodgeRest s0.cur.die
      let x := if s0.gang.isSome then (t, 5) else t.gresRun (s0.blockRead (s0.sreg a))
      x.1.push 1 (.scalar c.toNat x.2) }

/-! ### The instructions as steps -/

/-- gsw as a step: the issuing task issues the slot. -/
def execGsw (g : Guard) (a c : BitVec 5) (s : State) : Host.Outcome State Fault Refusal :=
  issueSlot (semGsw g a c) s

/-- gres as a step: the issuing task issues the slot. -/
def execGres (g : Guard) (a c : BitVec 5) (s : State) : Host.Outcome State Fault Refusal :=
  issueSlot (semGres g a c) s

end Sys2Proof.Machine
end

