-- ==== Sys2Proof/Machine/Context.lean ====
section
/-!
DEFINITION. Task contexts (R285, R286): the record of Table 13.5 with its parts (R128, R77, R150, R184, R210, R225), CTXSV
and CTXLD.
-/

namespace Sys2Proof.Machine

/-! ### Control (Table 5.2) and the generator (Table 3.6) -/

/-- The 48 bytes of loop level n. -/
def Task.levelBytes (t : Task) (n : Nat) : List Byte :=
  let l := (t.level? n).getD LoopLevel.none
  let h := t.shadow n
  leBytes 8 l.lc.toNat ++ leBytes 8 l.li.toNat ++ leBytes 8 (l.pending.getD 0).toNat ++ leBytes 4 l.lb.toNat
    ++ leBytes 4 l.le.toNat ++ leBytes 4 h.lb.toNat ++ leBytes 4 h.le.toNat
    ++ leBytes 8 (bitAt l.rot 0 + bitAt l.pending.isSome 1 + bitAt h.valid 2)

/-- The control record of a task. -/
def Task.controlBytes (t : Task) : List Byte :=
  leBytes 4 t.pc.toNat ++ leBytes 4 t.target.toNat ++ leBytes 1 t.delay ++ leBytes 1 t.loops.length
    ++ leBytes 2 (t.rbaseV.toNat + t.rbaseQ.toNat * 2 ^ 8) ++ leBytes 4 0
    ++ ((List.range 4).flatMap fun i => leBytes 4 (t.tb.get 0 i).toNat) ++ leBytes 8 t.budget.toNat ++ leBytes 8 t.bwarn.toNat
    ++ leBytes 16 0 ++ (List.range 6).flatMap t.levelBytes

/-- Whether a control record may be loaded (R128). -/
def controlOk (b : List Byte) : Bool :=
  let depth := bytesAt b 9 1
  decide (bytesAt b 8 1 ≤ 2) && decide (depth ≤ 6) && decide (bytesAt b 10 2 &&& 0xF8F0 = 0) && decide (bytesAt b 12 4 = 0)
    && decide (bytesAt b 48 16 = 0)
    && (List.range 6).all fun n =>
      let l := (b.drop (64 + 48 * n)).take 48
      decide (bytesAt l 40 8 < 8) && (decide (depth ≤ n) || decide (bytesAt l 24 4 ≤ bytesAt l 28 4))

/-- A task with the state of a control record. -/
def Task.setControl (b : List Byte) (t : Task) : Task :=
  let word := fun (off n : Nat) => BitVec.ofNat 64 (bytesAt b off n)
  let level := fun (n : Nat) =>
    let o := 64 + 48 * n
    (⟨word o 8, word (o + 8) 8, (word (o + 24) 4).setWidth 32, (word (o + 28) 4).setWidth 32, bitOf (bytesAt b (o + 40) 1) 0,
      if bitOf (bytesAt b (o + 40) 1) 1 then some (word (o + 16) 8) else none⟩ : LoopLevel)
  let shadow := fun (n : Nat) =>
    let o := 64 + 48 * n
    (⟨(word (o + 32) 4).setWidth 32, (word (o + 36) 4).setWidth 32, bitOf (bytesAt b (o + 40) 1) 2⟩ : Shadow)
  { t with
    pc := (word 0 4).setWidth 32, target := (word 4 4).setWidth 32, delay := bytesAt b 8 1,
    rbaseV := BitVec.ofNat 4 (bytesAt b 10 2), rbaseQ := BitVec.ofNat 3 (bytesAt b 10 2 / 2 ^ 8),
    tb := (List.range 4).foldl (fun x i => Tbl.set 0 x i ((word (16 + 4 * i) 4).setWidth 32)) [],
    budget := word 32 8, bwarn := word 40 8,
    loops := (List.range (bytesAt b 9 1)).foldl (fun l n => level n :: l) [],
    shadows := (List.range 6).foldl (fun x n => Tbl.set Shadow.none x n (shadow n)) [] }

/-- The eight words of a generator's queue (R75); the one after the last valid word is zero. -/
def Rng.queue (g : Rng) : List W32 :=
  (List.range 8).map fun i => if i = 7 ∧ g.taken % 2 = 1 then 0 else rngWord g.key g.ctr (g.taken + i)

/-- The generator record. -/
def Rng.bytes (g : Rng) : List Byte :=
  leBytes 8 g.key.toNat ++ leBytes 8 (g.ctr + 4 + BitVec.ofNat 64 (g.taken / 2)).toNat
    ++ (g.queue.flatMap fun w => leBytes 4 w.toNat) ++ leBytes 1 (8 - g.taken % 2) ++ leBytes 15 0

/-- A generator from its record; none where its content is undefined (R77). -/
def Rng.ofBytes (b : List Byte) : Option Rng :=
  let g : Rng := ⟨BitVec.ofNat 64 (bytesAt b 0 8), BitVec.ofNat 64 (bytesAt b 8 8) - 4, 8 - bytesAt b 48 1⟩
  if (bytesAt b 48 1 = 7 ∨ bytesAt b 48 1 = 8) ∧ (b.drop 16).take 32 = g.queue.flatMap fun w => leBytes 4 w.toNat then some g
  else none

/-! ### The vector part (Table 6.6) -/

/-- The vector record of a task on its core. -/
def Core.vectorBytes (c : Core) (t : Task) : List Byte :=
  ((List.range t.vregs).flatMap fun k => bytesOf (c.vfile.get VReg.zero (t.vbase + k)))
    ++ (List.range 16).flatMap fun m => leBytes 128 (t.lanes m).toNat

/-- A core with the registers of a vector record in a block of n from a base. -/
def Core.setVectors (b : List Byte) (base n : Nat) (c : Core) : Core :=
  { c with
    vfile := (List.range n).foldl
      (fun f k => Tbl.set VReg.zero f (base + k) (wordsOf ((b.drop (4096 * k)).take 4096))) c.vfile }

/-- The lane predicates of a vector record; q0 is ignored. -/
def recordLanes (b : List Byte) (n : Nat) : Tbl Lanes :=
  (List.range 15).foldl (fun q m => Tbl.set 0 q (m + 1) (BitVec.ofNat 1024 (bytesAt b (4096 * n + 128 * (m + 1)) 128))) []

/-! ### The near-memory part (Table 8.4) -/

/-- A generator's 128 bytes. -/
def AddrGen.bytes (g : AddrGen) : List Byte :=
  leBytes 8 g.base.toNat ++ ((List.range 6).flatMap fun i => leBytes 4 (g.bound.get 0 i).toNat)
    ++ ((List.range 6).flatMap fun i => leBytes 8 (g.stride.get 0 i).toNat)
    ++ ((List.range 6).flatMap fun i => leBytes 4 (g.idx.get 0 i).toNat) ++ leBytes 24 0

/-- A generator from its bytes. -/
def AddrGen.ofBytes (b : List Byte) : AddrGen :=
  { base := BitVec.ofNat 64 (bytesAt b 0 8)
    bound := (List.range 6).foldl (fun t i => Tbl.set 0 t i (BitVec.ofNat 32 (bytesAt b (8 + 4 * i) 4))) []
    stride := (List.range 6).foldl (fun t i => Tbl.set 0 t i (BitVec.ofNat 64 (bytesAt b (32 + 8 * i) 8))) []
    idx := (List.range 6).foldl (fun t i => Tbl.set 0 t i (BitVec.ofNat 32 (bytesAt b (80 + 4 * i) 4))) [] }

/-- A number rounded up to a multiple of 4096. -/
def pageUp (n : Nat) : Nat := (n + 4095) / 4096 * 4096

/-- Bytes of the near-memory part before its window. -/
def nearHead (core : Nat) : Nat := pageUp (1088 + 32 * tileCount core)

/-- The near-memory record of a task. -/
def State.nearBytes (s : State) (r : TaskRef) : List Byte :=
  let t := s.task r
  let c := s.core r.coreRef
  let head := leBytes 1 t.wsize ++ leBytes 1 (t.moveFirst % 16 + t.moveLen % 16 * 16) ++ leBytes 2 t.barLeft ++ leBytes 60 0
    ++ ((List.range 8).flatMap fun i => (t.ags.get AddrGen.zero i).bytes)
    ++ ((List.range (tileCount r.core)).flatMap fun n => leBytes 32 (c.tile (physTile r n)).bits)
  padTo (nearHead r.core) head ++ s.mem.bytes (windowAddr r.coreRef t 0) (t.wsize * stepBytes)

/-- Whether a tile entry of a record keeps R179 for a window and the bytes that move under an open bar; an entry with more
arrived than it expects breaks it too: DESIGN CHOICE, notes/assumptions/107. -/
def entryOk (window lo n : Nat) (e : TileEntry) : Bool :=
  !e.v || (decide (0 < e.len) && decide (0 < e.expect) && decide (e.expect ≤ e.len * 128)
    && decide ((e.base + e.len) * 128 ≤ window) && decide (e.arrived ≤ e.expect)
    && (decide (n = 0) || decide ((e.base + e.len) * 128 ≤ lo) || decide (lo + n ≤ e.base * 128)))

/-- Whether a near-memory record may be loaded on a core (R184). The window's reach, which bounds the moving range, is taken
as the twelve steps of the largest window: DESIGN CHOICE, notes/assumptions/107. -/
def nearOk (core : Nat) (b : List Byte) : Bool :=
  let w := bytesAt b 0 1
  let first := bytesAt b 1 1 % 16
  let moving := if bytesAt b 2 2 = 0 then 0 else bytesAt b 1 1 / 16
  decide (w ≤ 12) && decide (first + bytesAt b 1 1 / 16 ≤ 12) && decide (bytesAt b 2 2 ≤ 12288)
    && decide (bytesAt b 4 60 = 0) && ((List.range 8).all fun g => decide (bytesAt b (64 + 128 * g + 104) 24 = 0))
    && (List.range (tileCount core)).all fun n =>
      let v := bytesAt b (1088 + 32 * n) 32
      decide ((TileEntry.ofBits 0 v).bits = v)
        && entryOk (w * stepBytes) (first * stepBytes) (moving * stepBytes) (TileEntry.ofBits 0 v)

/-! ### The matrix part (Table 9.11) -/

/-- Sub-arrays, operand slots and tiles, by first unit, that a task slot holds. -/
def Core.subsOf (c : Core) (slot : Nat) : List Nat := (List.range 4).filter fun h => decide (c.subOwner.get none h = some slot)
/-- Operand slots that a task slot holds. -/
def Core.slotsHeld (c : Core) (slot : Nat) : List Nat := (List.range 16).filter fun n => decide (c.slotOwner.get none n = some slot)
/-- First units of the tiles of a task slot. -/
def Core.tilesOf (c : Core) (slot : Nat) : List Nat := (List.range 64).filter fun n => c.ownsTile slot n

/-- The units of a tile by its first unit. -/
def Core.unitsFrom (c : Core) (n : Nat) : List Nat := (List.range (c.accUnit n).units).map fun i => n + i

/-- The matrix record of a task. -/
def State.matrixBytes (s : State) (r : TaskRef) : List Byte :=
  let c := s.core r.coreRef
  let subs := c.subsOf r.slot
  let bits := fun (l : List Nat) => l.foldl (fun m n => m + 2 ^ n) 0
  let valid := subs.filter fun h => (c.latches.get none h).isSome
  let latch := fun (h : Nat) => ((c.latches.get none h).map fun x => x.operand.toNat).getD 0
  leBytes 2 (bits (c.slotsHeld r.slot)) ++ leBytes 1 (bits subs + bitAt (s.task r).mskip 4) ++ leBytes 1 c.mode
    ++ ((List.range 4).flatMap fun h => leBytes 1 (if valid.contains h then 1 else 0))
    ++ ((List.range 4).flatMap fun h => leBytes 4 (if valid.contains h then latch h else 0)) ++ leBytes 40 0
    ++ ((List.range 64).flatMap fun n => leBytes 8 (if c.ownsTile r.slot n then (c.unitStatus n).toNat else 0))
    ++ (valid.flatMap fun h => (padTo 0x4000 ((c.latches.get none h).map Latch.image |>.getD [])).take 0x4000)
    ++ ((c.slotsHeld r.slot).flatMap fun n => s.mem.bytes (operandBase r.coreRef + n * 0x8000) 0x8000)
    ++ ((c.tilesOf r.slot).flatMap c.unitsFrom).flatMap fun n => s.mem.bytes (unitAddr r.coreRef n) 0x4000

/-- Numbers of the bits set below n. -/
def bitList (v n : Nat) : List Nat := (List.range n).filter fun i => bitOf v i

/-- The tiles of a matrix record: first unit, units, status word. -/
def recordTiles (b : List Byte) : List (Nat × Nat × Nat) :=
  (List.range 64).filterMap fun n =>
    let w := bytesAt b (64 + 8 * n) 8
    if w = 0 then none else some (n, w / 2 ^ 15 % 32, w)

/-- Whether a matrix record may be loaded on a core: what it names is free, and MODE is the core's (R210). -/
def Core.matrixOk (core : Nat) (b : List Byte) (c : Core) : Bool :=
  let subs := bitList (bytesAt b 2 1) 4
  decide (bytesAt b 2 1 < 32) && decide (bytesAt b 3 1 = c.mode) && decide (bytesAt b 24 40 = 0)
    && (isCompute core || (decide (bytesAt b 0 3 &&& 0xFFFFF = 0) && decide (recordTiles b = [])))
    && ((bitList (bytesAt b 0 2) 16).all fun n => decide (c.slotOwner.get none n = none))
    && (subs.all fun h => decide (h < subCount c.mode) && decide (c.subOwner.get none h = none))
    && ((List.range 4).all fun h => decide (bytesAt b (4 + h) 1 = 0) || (decide (bytesAt b (4 + h) 1 = 1) && subs.contains h))
    && (recordTiles b).all fun x =>
      decide (0 < x.2.1) && decide (x.1 + x.2.1 ≤ 64) && decide (x.2.2 / 2 ^ 9 % 64 = x.1)
        && (List.range x.2.1).all fun i => decide ((c.accUnit (x.1 + i)).units = 0)

/-- A core with the matrix resources of a record, for a task slot. -/
def Core.takeMatrix (slot : Nat) (b : List Byte) (c : Core) : Core :=
  let subs := bitList (bytesAt b 2 1) 4
  let valid := subs.filter fun h => decide (bytesAt b (4 + h) 1 = 1)
  let c := (bitList (bytesAt b 0 2) 16).foldl (fun c n => { c with slotOwner := Tbl.set none c.slotOwner n (some slot) }) c
  let c := subs.foldl (fun c h => { c with subOwner := Tbl.set none c.subOwner h (some slot) }) c
  let c := ((List.range valid.length).zip valid).foldl
    (fun c x =>
      let v := BitVec.ofNat 64 (bytesAt b (8 + 4 * x.2) 4)
      let img := (b.drop (576 + 0x4000 * x.1)).take (imageSize (latchFmt v) (subDepth c.mode))
      { c with latches := Tbl.set none c.latches x.2 (some ⟨v, img⟩) }) c
  (recordTiles b).foldl
    (fun c x =>
      (List.range x.2.1).foldl
        (fun c i =>
          c.setUnit (x.1 + i)
            ⟨x.1, x.2.1, x.2.2 / 2 ^ 20 % 4, slot, decide (x.2.2 / 2 ^ 6 % 4 = 2), if i = 0 then BitVec.ofNat 6 (x.2.2 % 2 ^ 5) else 0⟩) c) c

/-- The bytes of a matrix record's slots and units put in their places. -/
def State.matrixData (s : State) (c : CoreRef) (b : List Byte) : State :=
  let subs := bitList (bytesAt b 2 1) 4
  let o1 := 576 + 0x4000 * (subs.filter fun h => decide (bytesAt b (4 + h) 1 = 1)).length
  let slots := bitList (bytesAt b 0 2) 16
  let o2 := o1 + 0x8000 * slots.length
  let units := (recordTiles b).flatMap fun x => (List.range x.2.1).map fun i => x.1 + i
  let put := fun (s : State) (a o n : Nat) => { s with mem := s.mem.setBytes a ((b.drop o).take n) }
  let s := ((List.range slots.length).zip slots).foldl (fun s x => put s (operandBase c + x.2 * 0x8000) (o1 + 0x8000 * x.1) 0x8000) s
  ((List.range units.length).zip units).foldl (fun s x => put s (unitAddr c x.2) (o2 + 0x4000 * x.1) 0x4000) s

/-! ### The engine part (Table 10.6) -/

/-- KIND of a saved command. -/
def CmdKind.code : CmdKind → Nat
  | .cpy => 0
  | .gth => 1
  | .sct => 2
  | .tile opc _ _ => 3 + opc
  | .mcst => 11
  | .tlnch => 12
  | .coll _ _ => 13
  | .mstrm _ => 14
  | .mout _ => 14

/-- The descriptor copy of a command as its 512 bytes. -/
def fieldBytes (f : Tbl W64) : List Byte := (List.range 64).flatMap fun i => leBytes 8 (f.get 0 i).toNat

/-- COLLID of a COLL: its block's, read from memory where the command has not reached its engine yet; it is unspecified where
that cannot be read (R225). -/
def State.collIdOf (s : State) (c : CoreRef) (ptok : Nat) (x : Cmd) : Nat :=
  if x.started || decide (x.cells = 1) then (collId x.collBlock).toNat
  else match (s.readRun (x.collAgent c ptok) (x.fields.get 0 0) 128).2 with
    | .ok b => (collId b).toNat
    | .error _ => leNat (s.freeBytes 8)

/-- What the first bytes of SNAP hold in place of the descriptor copy's: a running tile instruction's block (R304), a
launch's identifier, a collective's block address and COLLID (R225). -/
def State.snapHead (s : State) (c : CoreRef) (ptok : Nat) (x : Cmd) : List Byte :=
  match x.kind, x.run with
  | .tile _ _ _, some g => (padTo 128 g.block).take 128
  | .tlnch, _ =>
    leBytes 8 (if x.started then
        ((s.launches.find? fun l => decide (l.tlnch = some (c, ptok)) && !l.finished).map fun l => l.id.toNat).getD 0
      else 0)
  | .coll _ _, _ => leBytes 8 (x.fields.get 0 0).toNat ++ leBytes 8 (s.collIdOf c ptok x)
  | _, _ => []

/-- SNAP of a command (R225). -/
def State.snap (s : State) (c : CoreRef) (ptok : Nat) (x : Cmd) : List Byte :=
  let h := s.snapHead c ptok x
  h ++ (fieldBytes x.fields).drop h.length

/-- PROGRESS of a command (Table 10.6). -/
def Cmd.progress (x : Cmd) : Nat :=
  match x.kind with
  | .cpy | .gth | .sct => x.cells
  | _ => 0

/-- The commands of a slot that a save records, with their tokens (R225). -/
def Core.savedCmds (c : Core) (slot : Nat) : List (Nat × Cmd) :=
  c.cmds.filterMap fun e => match e.2 with
    | some x => if x.slot = slot ∧ x.kind.code < 14 then some (e.1, x) else none
    | none => none

/-- The engine record of a task. -/
def State.engineBytes (s : State) (r : TaskRef) : List Byte :=
  let t := s.task r
  let cmds := (s.core r.coreRef).savedCmds r.slot
  let one := fun (e : Nat × Cmd) =>
    leBytes 1 e.2.kind.code ++ leBytes 1 (if isCompute r.core then e.1 % 16 else e.1) ++ leBytes 6 0
      ++ leBytes 8 e.2.progress ++ leBytes 48 0 ++ (padTo 512 (s.snap r.coreRef e.1 e.2)).take 512
  (padTo 64 ((List.range (tokenCount r.core)).flatMap fun n => leBytes 1 (tokCode (t.token n).st)))
    ++ ((List.range 1024).flatMap fun i => leBytes 8 (t.desc.get 0 i).toNat) ++ leBytes 1 cmds.length ++ leBytes 63 0
    ++ cmds.flatMap one

/-- The elements in the first p cells of a CPY or GTH: their granules follow from the descriptor alone (R221). `last` is
the granule of the element before, `p` the cells left. -/
def leadingElems (k : CopyKind) (f : Tbl W64) : Nat → Nat → Option Nat → Nat → Option Nat
  | 0, e, _, p => if p = 0 ∨ p = 1 then some e else none
  | fuel + 1, e, last, p =>
    let gr := (element k f (digits (copyCounts f) e) 0).2.toNat / 128
    if last = some gr then leadingElems k f fuel (e + 1) last p
    else if last.isNone then (if p = 0 then some 0 else leadingElems k f fuel (e + 1) (some gr) p)
    else if p ≤ 1 then some e
    else leadingElems k f fuel (e + 1) (some gr) (p - 1)

/-- The elements that a saved CPY or GTH has done; none where its progress is beyond its cells (R225). -/
def doneElems (kind : Nat) (f : Tbl W64) (p : Nat) : Option Nat :=
  if p = 0 then some 0 else leadingElems (if kind = 0 then .cpy else .gth) f (elementTotal f) 0 none p

/-- Command record n of an engine record: KIND, TOK, PROGRESS, SNAP. -/
def cmdRecord (b : List Byte) (n : Nat) : Nat × Nat × Nat × List Byte :=
  let o := 8320 + 576 * n
  (bytesAt b o 1, bytesAt b (o + 1) 1, bytesAt b (o + 8) 8, (b.drop (o + 64)).take 512)

/-- The fields of a SNAP. -/
def snapFields (b : List Byte) : Tbl W64 :=
  (List.range 64).foldl (fun f i => Tbl.set 0 f i (BitVec.ofNat 64 (bytesAt b (8 * i) 8))) []

/-- Whether an engine record may be loaded (R225). -/
def engineOk (core : Nat) (b : List Byte) : Bool :=
  let n := bytesAt b 8256 1
  decide (n ≤ 64) && decide (bytesAt b 8257 63 = 0)
    && ((List.range 64).all fun k => decide (bytesAt b k 1 ≤ if k < tokenCount core then 3 else 0))
    && (List.range n).all fun i =>
      let x := cmdRecord b i
      decide (x.1 ≤ 13) && decide (x.2.1 < tokenCount core) && decide (bytesAt b x.2.1 1 = 1)
        && decide (bytesAt b (8320 + 576 * i + 2) 6 = 0) && decide (bytesAt b (8320 + 576 * i + 16) 48 = 0)
        && (if x.1 < 2 then (doneElems x.1 (snapFields x.2.2.2) x.2.2.1).isSome else x.1 = 2 || decide (x.2.2.1 = 0))

/-- The kind of a saved command, with the O and RZ bits that the record does not hold. -/
def cmdKind (code : Nat) (o z : Bool) : CmdKind :=
  match code with
  | 0 => .cpy
  | 1 => .gth
  | 2 => .sct
  | 11 => .mcst
  | 12 => .tlnch
  | 13 => .coll o z
  | n => .tile (n - 3) o z

/-- Bytes at the start of a SNAP that are no part of the descriptor copy (R225, R304). -/
def snapOwn (code : Nat) : Nat :=
  if 3 ≤ code ∧ code ≤ 10 then 128 else if code = 12 then 8 else if code = 13 then 16 else 0

/-- Whether a command kept at a save is the one that a command record of a task tells of. -/
def KeptCmd.tells (t : Task) (x : Nat × Nat × Nat × List Byte) (k : KeptCmd) : Bool :=
  decide (k.job = t.job) && decide (k.lidx = t.lidx) && decide (k.tok = x.2.1) && decide (k.cmd.kind.code = x.1)
    && decide (k.cmd.progress = x.2.2.1)
    && decide ((fieldBytes k.cmd.fields).drop (snapOwn x.1) = x.2.2.2.drop (snapOwn x.1))

/-- The descriptor copy of a loaded command: SNAP's, and for the bytes that hold something else the kept command's; none of
these is read again but for what SNAP holds there. -/
def loadedFields (x : Nat × Nat × Nat × List Byte) (k : Option Cmd) : Tbl W64 :=
  let f := snapFields x.2.2.2
  let old := (k.map Cmd.fields).getD []
  let copied := match x.1, k with
    | 13, _ => 1
    | _, some y => if y.run.isNone ∧ x.1 ≠ 12 then 128 else 0
    | _, none => 0
  (List.range (snapOwn x.1 / 8)).foldl (fun f i => if i < copied then f else Tbl.set 0 f i (old.get 0 i)) f

/-- A command as a record requeues it for a task: its bindings are those of the saved token states (R224, R225). A copy goes
on with the cell after its progress; a scatter whose place in its nest only its indices tell passes over that many cells. -/
def State.loadedCmd (s : State) (t : Task) (slot : Nat) (x : Nat × Nat × Nat × List Byte) : Cmd :=
  let k := (s.kept.find? (KeptCmd.tells t x)).map KeptCmd.cmd
  let f := loadedFields x k
  let st := fun k => (t.token k).st
  let new : Cmd :=
    { kind := cmdKind x.1 (bitOf (Config.freePick s.freeCtr) 0) (bitOf (Config.freePick s.freeCtr) 1), slot := slot,
      lidx := t.lidx, job := t.job, key := jobKey t.job, fields := f, deps := [], depFault := none, started := false,
      cells := x.2.2.1, elems := if x.1 < 2 then (doneElems x.1 f x.2.2.1).getD 0 else 0,
      skip := if x.1 = 2 then x.2.2.1 else 0, idx := [], spots := [], stores := [], lines := [], olds := [],
      inside := decide (x.1 < 3) && copyInside f, within := false,
      run := if snapOwn x.1 = 128 then some { TileRun.fresh [] with resumed := true } else none }
  let y := k.getD new
  { y with
    slot := slot, fields := f, started := false, run := y.run.map fun g => { g with block := x.2.2.2.take 128 }
    deps := (kinTokens f).filter (fun k => decide (st k = .pending)) |>.dedup
    depFault := (kinTokens f).find? fun k => decide (st k = .faulted) }

/-- Whether a scatter has at least p cells from element e on, as its indices now stand; what cannot be read is left for its
run (R225). -/
def State.hasCells (g : Agent) (x : Cmd) : Nat → Nat → State → Bool
  | 0, _, _ => true
  | p + 1, e, s =>
    if elementTotal x.fields ≤ e then false
    else
      let r := State.gatherCell g .sct { x with elems := e } true (elementTotal x.fields - e)
        (s, ⟨[], [], e, none, [], [], none, false⟩)
      r.2.failed.isSome || r.2.waits || (r.2.granule.isSome && State.hasCells g x p r.2.next r.1)

/-- Whether the progress of every scatter of an engine record lies within its cells (R225). -/
def State.scattersOk (s : State) (r : TaskRef) (t : Task) (b : List Byte) : Bool :=
  (List.range (bytesAt b 8256 1)).all fun i =>
    let x := cmdRecord b i
    decide (x.1 ≠ 2) || (let y := s.loadedCmd t r.slot x
      decide (x.2.2.1 ≤ elementTotal y.fields)
        && State.hasCells (y.agent r.coreRef (physToken r x.2.1)) y x.2.2.1 0 s)

/-! ### The pending part -/

/-- Results in flight in the order in which they become visible. -/
def Task.landingOrder (t : Task) : List Pending := inOrder t.pend fun a b => decide (a.left ≤ b.left)

/-- The entries of some pending results, each with the whole register that it leaves (R44, R150): `vf` and `qf` hold
the registers as the earlier ones leave them. -/
def pendEntries (c : Core) (t : Task) : List Pending → Tbl VReg → Tbl Lanes → List (List Byte)
  | [], _, _ => []
  | p :: rest, vf, qf =>
    let head := fun (kind reg : Nat) => leBytes 1 kind ++ leBytes 1 reg ++ leBytes 1 p.left ++ leBytes 1 p.flags.toNat ++ leBytes 12 0
    let num := fun (kind reg : Nat) (v : W64) => head kind reg ++ leBytes 8 v.toNat
    let go := fun (l : List (List Byte)) => l ++ pendEntries c t rest vf qf
    match p.val with
    | .scalar r v => go [num 0 r v]
    | .pred r v => go [num 1 r (if v then 1 else 0)]
    | .preds v => go ((List.range 7).map fun i => num 1 (i + 1) (if v.getLsbD (i + 1) then 1 else 0))
    | .vec pos m v =>
      let old := (vf.find? fun e => decide (e.1 = pos)).elim (c.vfile.get VReg.zero (t.vbase + pos)) Prod.snd
      let new := VReg.ofFn fun e => if m.getLsbD e then v.cell e else old.cell e
      (head 2 pos ++ bytesOf new) :: pendEntries c t rest (Tbl.insert new vf pos) qf
    | .lanes pos m v =>
      let old := (qf.find? fun e => decide (e.1 = pos)).elim (t.lanes pos) Prod.snd
      let new := (old &&& ~~~m) ||| (v &&& m)
      (head 3 pos ++ leBytes 128 new.toNat) :: pendEntries c t rest vf (Tbl.insert new qf pos)
    | .target _ _ => go []
    | .special _ _ => go []
    | .flagsOnly => go [num 0 0 0]

/-- The register that an outstanding operation's value goes to. -/
def Hold.awaited : Hold → Option Nat
  | .atomic a => some a.dest
  | .remote _ a => some a.dest
  | .awaits d _ _ _ => some d
  | _ => none

/-- All pending entries of a task: its results in flight, then its held ordered atomics (R263, R284). -/
def State.pendList (s : State) (r : TaskRef) : List (List Byte) :=
  let t := s.task r
  pendEntries (s.core r.coreRef) t t.landingOrder [] []
    ++ (t.holds.filterMap Hold.awaited).map fun d => leBytes 1 4 ++ leBytes 1 d ++ leBytes 14 0 ++ leBytes 8 0

/-- Bytes of the value of an entry by its kind. -/
def pendSize (kind : Nat) : Nat := match kind with
  | 2 => 4096
  | 3 => 128
  | _ => 8

/-- The entries of a pending part cut from its bytes; none where one is not well formed for a declaration of n
registers. -/
def cutPending (n : Nat) : Nat → List Byte → Option (List (Nat × Nat × Nat × Nat × List Byte))
  | 0, _ => some []
  | k + 1, b =>
    let kind := bytesAt b 0 1
    let reg := bytesAt b 1 1
    let size := pendSize kind
    let ok := decide (kind ≤ 4) && decide (bytesAt b 3 1 < 64) && decide (bytesAt b 4 12 = 0) && decide (16 + size ≤ b.length)
      && decide (reg < match kind with
        | 1 => 8
        | 2 => n
        | 3 => 16
        | _ => 32)
    if ok then
      (cutPending n k (b.drop (16 + size))).map fun l => (kind, reg, bytesAt b 2 1, bytesAt b 3 1, (b.drop 16).take size) :: l
    else none

/-- The pending results of some entries. -/
def pendOf (l : List (Nat × Nat × Nat × Nat × List Byte)) : List Pending :=
  l.filterMap fun e =>
    let val := match e.1 with
      | 0 => some (PVal.scalar e.2.1 (BitVec.ofNat 64 (leNat e.2.2.2.2)))
      | 1 => some (.pred e.2.1 (decide (leNat e.2.2.2.2 ≠ 0)))
      | 2 => some (.vec e.2.1 (BitVec.allOnes 1024) (wordsOf e.2.2.2.2))
      | 3 => some (.lanes e.2.1 (BitVec.allOnes 1024) (BitVec.ofNat 1024 (leNat e.2.2.2.2)))
      | _ => none
    val.map fun v => ⟨v, e.2.2.1, BitVec.ofNat 6 e.2.2.2.1⟩

/-- The registers of a record's operations that complete later. -/
def awaitedOf (l : List (Nat × Nat × Nat × Nat × List Byte)) : List Nat :=
  l.filterMap fun e => if e.1 = 4 then some e.2.1 else none

/-! ### The whole record (Table 13.5) -/

/-- QUEUES of an inbound queue. -/
def InQueue.word (q : InQueue) : Nat :=
  q.flow % 2 ^ 20 + q.nextblock % 2 ^ 11 * 2 ^ 20 + bitAt q.bound 31 + min q.drops (2 ^ 32 - 1) * 2 ^ 32

/-- A queue from its word, without cells. -/
def InQueue.ofWord (n : Nat) : InQueue := ⟨bitOf n 31, n % 2 ^ 20, n / 2 ^ 20 % 2 ^ 11, n / 2 ^ 32 % 2 ^ 32, []⟩

/-- WAITS of a task. -/
def Status.word : Status → Nat
  | .waiting n p => 1 + n % 8 * 2 + bitAt p 4
  | _ => 0

/-- The header, before its parts. -/
def State.headerOf (s : State) (r : TaskRef) (size : Nat) (offs : List Nat) (npend : Nat) : List Byte :=
  let t := s.task r
  let x := s.slice t
  let id := ((s.launch? t.launch).map fun l => l.id.toNat).getD 0
  leBytes 4 0x31585443 ++ leBytes 2 1 ++ leBytes 2 t.vregs ++ leBytes 8 size ++ leBytes 8 t.job ++ leBytes 8 t.lidx.toNat
    ++ leBytes 8 t.lcoord.toNat ++ leBytes 8 (t.gidx.toNat % 2 ^ 32 + t.grank.toNat % 2 ^ 5 * 2 ^ 32) ++ leBytes 8 t.time.toNat
    ++ leBytes 8 id ++ leBytes 8 x.slb.toNat ++ leBytes 8 x.sle.toNat ++ leBytes 8 x.sln.toNat
    ++ ((List.range 8).flatMap fun b => leBytes 1 (t.bars.getD b 0xFF)) ++ leBytes 8 t.status.word
    ++ leBytes 8 (match t.openSet with
      | some o => o % 16 + 16
      | none => 0)
    ++ (offs.flatMap fun o => leBytes 8 o) ++ leBytes 8 npend ++ leBytes 8 t.fq0.word ++ leBytes 8 t.fq1.word
    ++ ((List.range 64).flatMap fun n => leBytes 1 (if (t.token n).st = .faulted then (t.token n).cause else 0))
    ++ leBytes 16 0
    ++ ((List.range 32).flatMap fun i => leBytes 8 (t.sreg i).toNat) ++ leBytes 8 t.preds.toNat ++ leBytes 8 t.fstat.toNat
    ++ leBytes 8 t.bcnt.toNat ++ leBytes 40 0 ++ t.controlBytes ++ leBytes 32 0 ++ t.rng.bytes

/-- The record of a task. -/
def State.contextBytes (s : State) (r : TaskRef) : List Byte :=
  let pend := s.pendList r
  let parts := [(s.core r.coreRef).vectorBytes (s.task r), s.nearBytes r, s.matrixBytes r, s.engineBytes r, pend.flatten]
  let offs := parts.foldl (fun (x : List Nat × Nat) p => (x.1 ++ [x.2], x.2 + pageUp p.length)) ([], 4096)
  let body := parts.flatMap fun p => padTo (pageUp p.length) p
  padTo 4096 (s.headerOf r offs.2 offs.1 pend.length) ++ body

/-! ### CTXSV (R285) -/

/-- Whether an outstanding operation is a held ordered atomic. -/
def Hold.isHeld : Hold → Bool
  | .atomic a => a.ordered.isSome && a.result.isNone
  | .awaits _ _ _ _ => true
  | _ => false

/-- CTXSV's status at issue when it saves nothing (Table 13.4, R263, R326, R370, R371). A tile task is no task of a
launch. -/
def State.ctxsvCode (s : State) (r : TaskRef) (remove : Bool) : Option Nat :=
  match s.task? r with
  | none => some 3
  | some t =>
    let coll := (s.core r.coreRef).cmds.any fun e => match e.2 with
      | some x => decide (x.slot = r.slot) && decide (x.kind.code = 13)
      | none => false
    let tile := match t.status with
      | .tiling _ _ => true
      | _ => false
    if t.status = .ending then some 1
    else if !t.halted || tile then some 2
    else if remove && !s.isSwitched t.job then
      (if t.fq0.bound || t.fq1.bound || coll then some 2 else if t.holds.any Hold.isHeld then some 4 else none)
    else none

/-- The address of a context record: form 01, 4096-aligned, in this module's HBM. -/
def State.contextOk (s : State) (b : W64) : Bool :=
  isForm01 b && decide (addrOff b % 4096 = 0) && decide (paModule (addrOff b) = s.module.toNat)
    && decide (paOffset (addrOff b) + 4096 ≤ hbmSize)

/-- The target of a context instruction. -/
def contextTarget (die : Nat) (v : W64) : TaskRef := ⟨die, v.toNat % 128, v.toNat / 2 ^ 7 % 4⟩

/-- CTXSV: the target's commands stop, and the save waits for what is under way. -/
def semCtxsv (g : Guard) (a b c : BitVec 5) : SlotSem :=
  { guard := g
    place := .lodge
    trap := fun k s0 => sysTrap (!targetOk false true (s0.sreg a) || !s0.contextOk (s0.sreg b)) k
    eff := fun s0 s =>
      let v := s0.sreg a
      let r := contextTarget s0.cur.die v
      match s.ctxsvCode r (v.getLsbD 10) with
      | some code => s.push 1 (.scalar c.toNat (BitVec.ofNat 64 code))
      | none => (s.modTask r fun t => { t with stopped := true }).holdOn (.ctxsv c.toNat v (s0.sreg b)) }

/-- Whether nothing that a save waits for is under way: streams, started multicasts, requests of commands, and
every reply but those of held ordered atomics. -/
def State.ctxsvReady (s : State) (r : TaskRef) : Bool :=
  let c := s.core r.coreRef
  let t := s.task r
  !c.matrixBusy r.slot && decide (t.remoteStores = []) && (t.holds.all Hold.isHeld)
    && c.cmds.all fun e => match e.2 with
      | some x =>
        decide (x.slot ≠ r.slot) || (match x.kind with
          | .mstrm _ | .mout _ => false
          | .mcst => !x.started
          | .cpy | .gth | .sct => !s.farPending r e.1 && !s.storesHeld x
          | .tile _ _ _ =>
            (match x.run with
              | some g => ((x.agents r.coreRef e.1 g).all fun a => !s.farPending a.task e.1)
                && !((List.range g.tiles).any (s.foldReady r.coreRef e.1 x g))
              | none => true)
          | _ => true)
      | none => true

/-- A save's commands: the writes of a copy take their time, and one whose store elsewhere was refused ends with it; a
running tile instruction abandons its units (R224, R264, R304). -/
def State.settleCmd (r : TaskRef) (s : State) (e : Nat × Cmd) : State :=
  match e.2.kind with
  | .cpy | .gth | .sct =>
    let a := e.2.agent r.coreRef e.1
    (match s.farRefused r e.1 with
      | some t => s.failCopy a r.coreRef e.1 e.2 t
      | none =>
        let s := (s.landStores a e.2).1.dropFar r e.1
        s.modCore r.coreRef fun k => k.setCmd e.1 (some { e.2 with lines := [], stores := [], spots := [] }))
  | .tile _ _ _ =>
    (match e.2.run with
      | some g =>
        let g' := (s.judged g).again
        let s := (e.2.agents r.coreRef e.1 g).foldl (fun s a => s.dropFar a.task e.1) (s.releaseTiles r.coreRef e.1 e.2 g)
        if e.2.started then s.modCore r.coreRef fun k => k.setCmd e.1 (some { e.2 with started := false, run := some g' }) else s
      | none => s)
  | _ => s

/-- The commands of a saved task kept beside its record, for what the record has no place for. -/
def State.keepCmds (s : State) (r : TaskRef) : State :=
  let t := s.task r
  { s with
    kept := (s.kept.filter fun k => !(decide (k.job = t.job) && decide (k.lidx = t.lidx)))
      ++ ((s.core r.coreRef).savedCmds r.slot).map fun e => ⟨t.job, t.lidx, if isCompute r.core then e.1 % 16 else e.1, e.2⟩ }

/-- Launches whose TLNCH of a slot has not been dispatched are forgotten: the command is requeued with its record (R225). -/
def State.dropUndispatched (s : State) (r : TaskRef) : State :=
  ((s.core r.coreRef).savedCmds r.slot).foldl
    (fun s e => match s.launches.find? fun l => decide (l.tlnch = some (r.coreRef, e.1)) && !l.loaded && !l.finished with
      | some l => s.dropLaunch l.seq
      | none => s) s

/-- A saved task taken out: its saved commands do not run, and its slot frees; it stays a participant of its barriers and its
set, and its slice stays with the sequencer, where it may be stolen from (R285, R279). -/
def State.removeTask (s : State) (r : TaskRef) : State :=
  let cmds := (s.core r.coreRef).savedCmds r.slot
  let s := cmds.foldl (fun s e => s.modCore r.coreRef fun k => k.setCmd e.1 none) (s.dropUndispatched r)
  let s := { s with launches := s.launches.map fun (l : Launch) =>
    if (cmds.any fun e => decide (l.tlnch = some (r.coreRef, e.1))) && !l.finished then { l with tlnch := none } else l }
  let s := s.modCore r.coreRef fun c => c.slotEnded r.slot
  s.freeSlotOf r

/-- The save performed: the record is written as ordered accesses of the lodge's position (R285, R253), and the status comes. A
record that does not fit below the end of HBM, or that its key refuses, is not written. None while a line of the record is
held. -/
def State.saveContext (s : State) (die d : Nat) (target addr : W64) : Option State :=
  let r := contextTarget die target
  let me := lodgeTask die
  if (s.task? r).isNone then some (s.settle me d 3)
  else
    let s := if (s.task r).draining then s.drain r else s
    let s := ((s.core r.coreRef).savedCmds r.slot).foldl (State.settleCmd r) s
    let b := s.contextBytes r
    let s := s.tookFree 8
    if hbmSize < paOffset (addrOff addr) + b.length then
      some ((s.postUnread die ⟨0x64, BitVec.ofNat 64 (addrOff addr)⟩).settle me d 5)
    else
      let x := s.lodgeStore die (s.die die).lodge.pkey.toNat addr b
      match x.2 with
      | .waits => none
      | .failed t => some ((x.1.postUnread die t).settle me d 5)
      | .wrote _ =>
        let s := x.1.keepCmds r
        some ((if target.getLsbD 10 then s.removeTask r else s).settle me d 0)

/-- Completion-latency operations of a task that have nothing left to wait for, CTXSV among them, complete. -/
def State.serveAll (r : TaskRef) : Nat → State → State
  | 0, s => s
  | fuel + 1, s =>
    let s := State.serveHolds r ((s.task r).holds.length) s
    match s.headHold r with
    | some (.ctxsv d target addr) =>
      let x := contextTarget r.die target
      if (s.task? x).isNone || s.ctxsvReady x then
        (match s.saveContext r.die d target addr with
          | some s' => State.serveAll r fuel s'
          | none => s)
      else s
    | _ => s

/-! ### CTXLD (R285) -/

/-- A header's field. -/
def ctxField (h : List Byte) (off n : Nat) : Nat := bytesAt h off n

/-- Whether the header of a record keeps Table 13.5, and the record is there whole. -/
def headerOk (b : List Byte) : Bool :=
  let h := b.take 4096
  let n := bytesAt h 6 2
  let size := bytesAt h 8 8
  decide (bytesAt h 0 4 = 0x31585443) && decide (bytesAt h 4 2 = 1) && decide (8 ≤ n) && decide (n ≤ 32) && decide (n % 8 = 0)
    && decide (4096 ≤ size) && decide (size ≤ b.length) && decide (bytesAt h 16 8 < 2 ^ 12) && decide (bytesAt h 40 8 < 2 ^ 37) && decide (bytesAt h 96 8 < 32)
    && decide (bytesAt h 104 8 < 32) && ((List.range 5).all fun i =>
      let o := bytesAt h (112 + 8 * i) 8
      decide (o % 4096 = 0) && decide (4096 ≤ o) && decide (o ≤ size))
    && decide (bytesAt h 152 8 ≤ 128) && decide (bytesAt h 240 16 = 0) && decide (bytesAt h 512 8 < 256)
    && decide (bytesAt h 520 8 < 64)

/-- The barriers that a record names. -/
def recordBars (h : List Byte) : List Nat := ((h.drop 88).take 8).map BitVec.toNat |>.filter fun b => decide (b ≠ 0xFF)

/-- The launch of a record: the newest of its job with its identifier that has not ended. -/
def State.recordLaunch (s : State) (h : List Byte) : Option Launch :=
  s.launches.reverse.find? fun l =>
    decide (l.job = bytesAt h 16 8) && decide (l.id.toNat = bytesAt h 56 8) && l.loaded && !l.finished

/-- Whether a record's job may be loaded: it is the active one, or one that is switched out, whose tasks must be back
before GRES (R285, R379). -/
def State.mayLoad (s : State) (job : Nat) : Bool := decide (job = s.jobid.toNat) || (decide (s.jobid = 0) && s.isSwitched job)

/-- The bytes of a record's vector, near-memory, matrix and engine parts on a core, as the parts themselves declare
them (R150, R184, R210, R225). -/
def partSize (core n i : Nat) (b : List Byte) : Nat :=
  match i with
  | 0 => 4096 * n + 2048
  | 1 => nearHead core + bytesAt b 0 1 * stepBytes
  | 2 =>
    let latched := (bitList (bytesAt b 2 1) 4).filter fun h => decide (bytesAt b (4 + h) 1 = 1)
    576 + 0x4000 * latched.length + 0x8000 * (bitList (bytesAt b 0 2) 16).length
      + 0x4000 * ((recordTiles b).map fun x => x.2.1).foldl (· + ·) 0
  | _ => 8320 + 576 * bytesAt b 8256 1

/-- Vector registers of the block of a record's task: those of its declaration, or the whole block on a core that holds one
task, whose names are always backed (R133). -/
def blockRegs (core n : Nat) : Nat := if isCompute core then n else 32

/-- A token from its state byte and cause; its times were no later than the task's. -/
def tokenOf (st cause : Nat) : Token :=
  match st with
  | 1 => ⟨.pending, 0, 0⟩
  | 2 => ⟨.done, 0, 0⟩
  | 3 => ⟨.faulted, cause, 0⟩
  | _ => Token.free

/-- The job, logical index and tokens of a record's task. -/
def recordTokens (core : Nat) (b : List Byte) : Task :=
  let h := b.take 4096
  let eng := b.drop (bytesAt h 136 8)
  { Task.blank with
    job := bytesAt h 16 8, lidx := BitVec.ofNat 64 (bytesAt h 24 8)
    tokens := (List.range (tokenCount core)).foldl
      (fun t n => Tbl.set Token.free t n (tokenOf (bytesAt eng n 1) (bytesAt h (176 + n) 1))) [] }

/-- The failing part of a record for a core, the first in the order of the context-format fault's INFO, or none. The
core is as it stands with the target slot free. -/
def State.badPart (s : State) (c : CoreRef) (b : List Byte) : Option Nat :=
  let h := b.take 4096
  let part := fun (i : Nat) => b.drop (bytesAt h (112 + 8 * i) 8)
  let k := s.core c
  let n := bytesAt h 6 2
  let cut := fun (i : Nat) => decide ((part i).length < partSize c.core n i (part i))
  if !headerOk b || !s.mayLoad (bytesAt h 16 8)
      || !((recordBars h).all fun x =>
        let y := (s.die c.die).barrier x
        y.alloc && decide (y.group = bytesAt h 40 4) && decide (some y.owner = (s.recordLaunch h).map fun l => l.seq + 1)) then some 0
  else if !controlOk ((h.drop 576).take 352) then some 1
  else if cut 0 || (k.freeBlock (blockRegs c.core n)).isNone then some 2
  else if cut 1 || !nearOk c.core (part 1) || (k.freeWindow (bytesAt (part 1) 0 1)).isNone then some 3
  else if cut 2 || !k.matrixOk c.core (part 2) then some 4
  else if cut 3 || !engineOk c.core (part 3) || !s.scattersOk ⟨c.die, c.core, 0⟩ (recordTokens c.core b) (part 3) then some 5
  else if (cutPending n (bytesAt h 152 8) (part 4)).isNone then some 6
  else none

/-- The task of a record, for a place on its core. -/
def State.recordTask (s : State) (c : CoreRef) (l : Launch) (b : List Byte) (vbase wbase : Nat) (old : Option Task) : Task :=
  let h := b.take 4096
  let part := fun (i : Nat) => b.drop (bytesAt h (112 + 8 * i) 8)
  let word := fun (off : Nat) => BitVec.ofNat 64 (bytesAt h off 8)
  let near := part 1
  let eng := part 3
  let pend := (cutPending (bytesAt h 6 2) (bytesAt h 152 8) (part 4)).getD []
  let time := tmax (word 48) s.hwm
  let waits := bytesAt h 96 8
  let set := bytesAt h 104 8
  let t := (recordTokens c.core b).setControl ((h.drop 576).take 352)
  { t with
    launch := l.seq, codeBase := l.kernel.codeBase, codeLen := l.kernel.codeLen, vregs := blockRegs c.core (bytesAt h 6 2),
    lcoord := word 32, gidx := BitVec.ofNat 64 (bytesAt h 40 4), grank := BitVec.ofNat 64 (bytesAt h 44 4),
    bars := recordBars h, vbase := vbase, wbase := wbase, wsize := bytesAt near 0 1, moveFirst := bytesAt near 1 1 % 16,
    moveLen := bytesAt near 1 1 / 16, barLeft := bytesAt near 2 2,
    sregs := (List.range 31).foldl (fun t i => Tbl.set 0 t (i + 1) (word (256 + 8 * (i + 1)))) [],
    preds := predsWord (BitVec.ofNat 8 (bytesAt h 512 8)), fstat := BitVec.ofNat 6 (bytesAt h 520 8), bcnt := word 528,
    qregs := recordLanes (part 0) (bytesAt h 6 2), pend := pendOf pend,
    rng := (Rng.ofBytes ((h.drop 960).take 64)).getD ⟨Config.freeWord s.freeCtr, Config.freeWord (s.freeCtr + 1), 0⟩,
    ags := (List.range 8).foldl (fun t i => Tbl.set AddrGen.zero t i (AddrGen.ofBytes ((near.drop (64 + 128 * i)).take 128))) [],
    desc := (List.range 1024).foldl (fun t i => Tbl.set 0 t i (BitVec.ofNat 64 (bytesAt eng (64 + 8 * i) 8))) [],
    mskip := bitOf (bytesAt (part 2) 2 1) 4, time := time, roFloor := time,
    openSet := if bitOf set 4 then some (set % 16) else none,
    joined := (l.sets.filter fun x => x.2.joined.contains (word 24).toNat).map Prod.fst,
    fq0 := InQueue.ofWord (bytesAt h 160 8), fq1 := InQueue.ofWord (bytesAt h 168 8),
    status := if bitOf waits 0 then .waiting (waits / 2 % 8) (bitOf waits 4) else .ready,
    halted := true, stopped := true,
    holds := (awaitedOf pend).map fun d =>
      (((old.map Task.holds).getD []).find? fun x => x.isHeld && decide (x.awaited = some d)).getD
        (.awaits d t.pc t.delay t.target) }

/-- A saved command back in the buffer. A TLNCH is bound again to its launch, a COLL to its rank; one that has completed
meanwhile sets its token to its outcome, which the task's old token holds where the task stayed (R225). -/
def State.loadCmd (r : TaskRef) (old : Option Task) (s : State) (x : Nat × Nat × Nat × List Byte) : State :=
  let y := s.loadedCmd (s.task r) r.slot x
  let ptok := physToken r x.2.1
  let put := fun (s : State) (y : Cmd) => s.modCore r.coreRef fun k => k.setCmd ptok (some y)
  match y.kind with
  | .tlnch =>
    let id := bytesAt x.2.2.2 0 8
    if id = 0 then
      let n := s.launches.length
      let l := { launchOf n Kernel.none [] (some (r.coreRef, ptok)) none with loaded := false }
      { put s y with launches := s.launches ++ [l] }
    else
      (match s.launches.reverse.find? fun l => decide (l.job = y.job) && decide (l.id.toNat = id) && l.loaded && l.fromHost.isNone with
        | some l =>
          if l.finished then s.endToken r x.2.1 (if l.killed then 0x47 else 0) s.hwm
          else (put s { y with started := true }).modLaunch l.seq fun l => { l with tlnch := some (r.coreRef, ptok) }
        | none => s.endToken r x.2.1 0x47 s.hwm)
  | .coll _ _ =>
    let began := (s.kept.find? (KeptCmd.tells (s.task r) x)).any fun k => k.cmd.started
    let ended := old.bind fun t =>
      match (t.token x.2.1).st with
      | .done | .faulted => some (t.token x.2.1).cause
      | _ => none
    if ((s.core r.coreRef).cmd ptok).isSome then s
    else match ended with
      | some cause => s.endToken r x.2.1 cause s.hwm
      | none => put s { y with started := began }
  | _ => put s y

/-- The launch of a record's task: its own, or where the module knows none, one that stands for it, of the entry kernel of
the job's image, all its tasks placed (R429). -/
def State.launchFor (s : State) (h : List Byte) : State × Launch :=
  match s.recordLaunch h with
  | some l => (s, l)
  | none =>
    let job := bytesAt h 16 8
    let k := ((s.images.find? fun i => decide (i.job = job)).bind fun i => i.kernels[i.entry]?).getD Kernel.none
    let l := { launchOf s.launches.length k [] none none with
      id := BitVec.ofNat 64 (bytesAt h 56 8), job := job, placed := k.tasks }
    ({ s with launches := s.launches ++ [l] }, l)

/-- A record loaded into a free slot. The sequencer's own slice of a known launch stands (R279). -/
def State.loadInto (s : State) (r : TaskRef) (b : List Byte) (old : Option Task) : State :=
  let c := r.coreRef
  let h := b.take 4096
  let known := (s.recordLaunch h).isSome
  let x := s.launchFor h
  let s := x.1
  let l := x.2
  let part := fun (i : Nat) => b.drop (bytesAt h (112 + 8 * i) 8)
  let near := part 1
  let n := bytesAt h 6 2
  let k := s.core c
  let vb := (k.freeBlock (blockRegs c.core n)).getD 0
  let wb := (k.freeWindow (bytesAt near 0 1)).getD 0
  let t := s.recordTask c l b vb wb old
  let s := (s.setTask r t).tookFree 2
  let s := s.modCore c fun k =>
    (List.range (tileCount r.core)).foldl
      (fun k i => k.setTile (physTile r i) (TileEntry.ofBits 0 (bytesAt near (1088 + 32 * i) 32)))
      ((((k.dropRo).zeroBlock vb (blockRegs c.core n)).setVectors (part 0) vb n).takeMatrix r.slot (part 2))
  let s := { s with mem := s.mem.setBytes (windowAddr c t 0) ((near.drop (nearHead r.core)).take (t.wsize * stepBytes)) }
  let s := s.matrixData c (part 2)
  let word := fun (o : Nat) => BitVec.ofNat 64 (bytesAt h o 8)
  let s := if known then s else s.modLaunch l.seq fun l => l.setSlice t.lidx.toNat ⟨word 64, word 72, word 80⟩
  let s := ((List.range (bytesAt (part 3) 8256 1)).map (cmdRecord (part 3))).foldl (State.loadCmd r old) s
  match t.status with
  | .waiting g _ =>
    (match t.bars[g]? with
      | some x => s.modTask r (Task.wake x ((s.die r.die).barrier x))
      | none => s)
  | _ => s

/-- Whether CTXLD loads over a resident task: it is halted, and of the record's job and logical index. -/
def Task.sameAs (h : List Byte) (t : Task) : Bool :=
  t.halted && decide (t.job = bytesAt h 16 8) && decide (t.lidx = BitVec.ofNat 64 (bytesAt h 24 8))

/-- The slot of a halted task emptied for its own record: its cells stay in its queues (R286). The commands of the old
contents go, but a rank that has arrived runs on. -/
def State.clearFor (s : State) (r : TaskRef) : State :=
  let s := s.dropUndispatched r
  let ranks := ((s.core r.coreRef).savedCmds r.slot).filter fun e => decide (e.2.kind.code = 13) && e.2.started
  let s := s.modCore r.coreRef fun c =>
    let cmds := c.cmds.filter fun e => match e.2 with
        | some x => decide (x.slot ≠ r.slot)
        | none => false
    { c with
      cmds := cmds
      mcmds := c.mcmds.filter fun m => match m with
        | .latch k _ _ _ => !decide (k = r.slot)
        | .token k _ => !decide (k = r.slot) }
  let s := (s.modCore r.coreRef fun c => c.slotEnded r.slot).freeSlotOf r
  ranks.foldl (fun s e => s.modCore r.coreRef fun k => k.setCmd e.1 (some e.2)) s

/-- The cells of an old queue under a new one of the same flow. -/
def InQueue.keepCells (old new : InQueue) : InQueue :=
  if new.bound ∧ old.bound ∧ new.flow = old.flow then { new with cells := old.cells } else new

/-- The bytes of a record at an address, read by the lodge of a die: its header, then all that the header's SIZE gives. -/
def State.contextRead (s : State) (die : Nat) (addr : W64) : State × Got :=
  let x := s.lodgeRead die addr 4096
  match x.2 with
  | .bytes h =>
    let n := bytesAt h 8 8
    if n ≤ 4096 ∨ hbmSize < paOffset (addrOff addr) + n then x else x.1.lodgeRead die addr n
  | _ => x

/-- A record refused: the fault names the failing part (R285). -/
def State.badContext (s : State) (die part : Nat) (h : List Byte) : State × Nat :=
  (s.postFault die 96 0 (bytesAt h 16 8 % 2 ^ 12) 0x0C (BitVec.ofNat 64 part), 5)

/-- CTXLD of a record's bytes performed: the state and the status (Table 13.4). -/
def State.loadContext (s : State) (r : TaskRef) (b : List Byte) : State × Nat :=
  let h := b.take 4096
  match s.task? r with
  | some t =>
    if t.status = .ending then (s, 1)
    else if !t.halted then (s, 2)
    else if !t.sameAs h then (s, 3)
    else
      let e := s.clearFor r
      (match e.badPart r.coreRef b with
        | none =>
          ((e.loadInto r b (some t)).modTask r fun n => { n with fq0 := t.fq0.keepCells n.fq0, fq1 := t.fq1.keepCells n.fq1 }, 0)
        | some n => s.badContext r.die n h)
  | none =>
    match s.badPart r.coreRef b with
    | none => (s.loadInto r b none, 0)
    | some n => s.badContext r.die n h

/-- CTXLD of what the read of its record came to; a refused read leaves the task unloaded, with its own record (R21). -/
def State.loadRead (s : State) (r : TaskRef) (g : Got) : State × Nat :=
  match g with
  | .bytes b => s.loadContext r b
  | .failed t => (if t.cause = 0x64 then s.postUnread r.die t else s).badContext r.die 0 []
  | .waits => (s, 5)

/-- CTXLD. -/
def semCtxld (g : Guard) (a b c : BitVec 5) : SlotSem :=
  { guard := g
    place := .lodge
    trap := fun k s0 => sysTrap (!targetOk false false (s0.sreg a) || !s0.contextOk (s0.sreg b)) k
    wait := fun s0 s =>
      if (s0.contextRead s0.cur.die (s0.sreg b)).2 = .waits then some (s.contextRead s0.cur.die (s0.sreg b)).1 else none
    eff := fun s0 s =>
      let die := s0.cur.die
      let x := ((s.contextRead die (s0.sreg b)).1.lodgeRest die).loadRead (contextTarget die (s0.sreg a))
        (s0.contextRead die (s0.sreg b)).2
      x.1.push 1 (.scalar c.toNat (BitVec.ofNat 64 x.2)) }

/-! ### The instructions as steps -/

/-- ctxsv as a step: the issuing task issues the slot. -/
def execCtxsv (g : Guard) (a b c : BitVec 5) (s : State) : Host.Outcome State Fault Refusal :=
  issueSlot (semCtxsv g a b c) s

/-- ctxld as a step: the issuing task issues the slot. -/
def execCtxld (g : Guard) (a b c : BitVec 5) (s : State) : Host.Outcome State Fault Refusal :=
  issueSlot (semCtxld g a b c) s

end Sys2Proof.Machine
end

