-- ==== Sys2Proof/Machine/Bundle.lean ====
section
/-!
DEFINITION. The bundle-format rules (R16, R30 to R32): classes, limits, canonical order, destinations and the
delay-bundle rule, and the first slot that offends against them.
-/

namespace Sys2Proof.Machine

/-! ### Destinations (R32) -/

/-- An architectural destination (R32). -/
inductive Dest where
  | sreg (n : Nat)
  | pred (n : Nat)
  | vreg (n : Nat)
  | lane (n : Nat)
  | gen (n : Nat)
  | desc (n : Nat)
  | target (n : Nat)
  deriving DecidableEq, Repr

/-- A write of PREDS names p1 to p7 (R102). -/
def predsDests (num : BitVec 12) : List Dest := if num = 0x030 then (List.range 7).map fun i => .pred (i + 1) else []

/-- A load or store that steps its generator writes it (R161, R164). -/
def stepDest (ag : BitVec 3) (post : BitVec 1) : List Dest := if post = 1 then [.gen ag.toNat] else []

/-- The destinations a slot names. -/
def destsOf (i : Instr) : List Dest :=
  match i with
  | .add _ d _ _ => [.sreg d.toNat]
  | .sub _ d _ _ => [.sreg d.toNat]
  | .mul _ d _ _ => [.sreg d.toNat]
  | .mulh _ d _ _ => [.sreg d.toNat]
  | .mulhz _ d _ _ => [.sreg d.toNat]
  | .div _ d _ _ => [.sreg d.toNat]
  | .divz _ d _ _ => [.sreg d.toNat]
  | .rem _ d _ _ => [.sreg d.toNat]
  | .remz _ d _ _ => [.sreg d.toNat]
  | .and _ d _ _ => [.sreg d.toNat]
  | .or _ d _ _ => [.sreg d.toNat]
  | .xor _ d _ _ => [.sreg d.toNat]
  | .andn _ d _ _ => [.sreg d.toNat]
  | .shl _ d _ _ => [.sreg d.toNat]
  | .shr _ d _ _ => [.sreg d.toNat]
  | .sra _ d _ _ => [.sreg d.toNat]
  | .rol _ d _ _ => [.sreg d.toNat]
  | .min _ d _ _ => [.sreg d.toNat]
  | .max _ d _ _ => [.sreg d.toNat]
  | .minz _ d _ _ => [.sreg d.toNat]
  | .maxz _ d _ _ => [.sreg d.toNat]
  | .clz _ d _ => [.sreg d.toNat]
  | .ctz _ d _ => [.sreg d.toNat]
  | .popc _ d _ => [.sreg d.toNat]
  | .bfx _ d _ _ => [.sreg d.toNat]
  | .bfxz _ d _ _ => [.sreg d.toNat]
  | .bfi _ d _ _ => [.sreg d.toNat]
  | .sel _ d _ _ _ => [.sreg d.toNat]
  | .addi _ d _ _ => [.sreg d.toNat]
  | .andi _ d _ _ => [.sreg d.toNat]
  | .ori _ d _ _ => [.sreg d.toNat]
  | .xori _ d _ _ => [.sreg d.toNat]
  | .shli _ d _ _ => [.sreg d.toNat]
  | .shri _ d _ _ => [.sreg d.toNat]
  | .srai _ d _ _ => [.sreg d.toNat]
  | .movi _ d _ => [.sreg d.toNat]
  | .movh _ d _ => [.sreg d.toNat]
  | .addsh _ d _ _ _ => [.sreg d.toNat]
  | .cmp _ pt pf _ _ _ => [.pred pt.toNat, .pred pf.toNat]
  | .cmpi _ pt pf _ _ _ => [.pred pt.toNat, .pred pf.toNat]
  | .pand _ d _ _ => [.pred d.toNat]
  | .por _ d _ _ => [.pred d.toNat]
  | .pxor _ d _ _ => [.pred d.toNat]
  | .pnot _ d _ => [.pred d.toNat]
  | .movsRead _ r _ => [.sreg r.toNat]
  | .movsWrite _ _ num => predsDests num
  | .sfadd _ d _ _ _ => [.sreg d.toNat]
  | .sfmul _ d _ _ _ => [.sreg d.toNat]
  | .sffma _ d _ _ _ => [.sreg d.toNat]
  | .sfmin _ d _ _ => [.sreg d.toNat]
  | .sfmax _ d _ _ => [.sreg d.toNat]
  | .sfcmp _ pt pf _ _ _ => [.pred pt.toNat, .pred pf.toNat]
  | .sfcvt _ d _ _ _ => [.sreg d.toNat]
  | .prep _ tb _ => [.target tb.toNat]
  | .prepr _ tb _ => [.target tb.toNat]
  | .br _ _ => []
  | .brl _ _ d => [.sreg d.toNat]
  | .loop _ _ _ _ => []
  | .loopi _ _ _ _ => []
  | .lbrk _ => []
  | .lpop _ => []
  | .endTask _ => []
  | .trap _ _ => []
  | .sys _ _ _ _ => []
  | .eret _ => []
  | .yield _ => []
  | .wait _ _ _ => []
  | .arrive _ _ => []
  | .prmpt _ _ c => [.sreg c.toNat]
  | .resume _ _ c => [.sreg c.toNat]
  | .ctxsv _ _ _ c => [.sreg c.toNat]
  | .ctxld _ _ _ c => [.sreg c.toNat]
  | .tlbinv _ _ _ _ => []
  | .genbump _ _ _ => []
  | .l2wb _ _ _ _ => []
  | .domset _ _ => []
  | .gsw _ _ c => [.sreg c.toNat]
  | .gres _ _ c => [.sreg c.toNat]
  | .attest _ _ _ c => [.sreg c.toNat]
  | .keyld _ _ _ c => [.sreg c.toNat]
  | .npload _ _ _ c => [.sreg c.toNat]
  | .rlinv _ _ => []
  | .lkey _ _ _ c => [.sreg c.toNat]
  | .csrr _ r _ => [.sreg r.toNat]
  | .csrw _ _ num => predsDests num
  | .bgset _ _ => []
  | .ckpt _ => []
  | .nop _ => []
  | .ld _ d ag post _ _ => .sreg d.toNat :: stepDest ag post
  | .ldRo _ d ag post _ _ => .sreg d.toNat :: stepDest ag post
  | .st _ _ ag post _ _ => stepDest ag post
  | .vld _ d ag post _ _ => .vreg d.toNat :: stepDest ag post
  | .vldRo _ d ag post _ _ => .vreg d.toNat :: stepDest ag post
  | .vst _ _ ag post _ _ => stepDest ag post
  | .agset _ _ ag _ => [.gen ag.toNat]
  | .agstep _ ag _ => [.gen ag.toNat]
  | .pref _ _ => []
  | .clean _ _ => []
  | .inval _ _ => []
  | .phase _ _ => []
  | .ttdef _ _ _ => []
  | .ttwait _ _ _ => []
  | .ttfree _ _ => []
  | .ttstat _ d _ => [.sreg d.toNat]
  | .fence _ _ => []
  | .fenceRo _ _ => []
  | .aadd _ d _ _ _ _ => [.sreg d.toNat]
  | .amin _ d _ _ _ _ _ => [.sreg d.toNat]
  | .amax _ d _ _ _ _ _ => [.sreg d.toNat]
  | .aand _ d _ _ _ _ => [.sreg d.toNat]
  | .aor _ d _ _ _ _ => [.sreg d.toNat]
  | .axor _ d _ _ _ _ => [.sreg d.toNat]
  | .aswp _ d _ _ _ _ => [.sreg d.toNat]
  | .aincb _ d _ _ _ _ _ => [.sreg d.toNat]
  | .afadd _ d _ _ _ _ => [.sreg d.toNat]
  | .acas _ d _ _ _ _ _ => [.sreg d.toNat]
  | .aordJoin _ _ => []
  | .aordClose _ _ => []
  | .vadd _ d _ _ _ _ => [.vreg d.toNat]
  | .vsub _ d _ _ _ _ => [.vreg d.toNat]
  | .vmul _ d _ _ _ _ => [.vreg d.toNat]
  | .vfma _ d _ _ _ _ => [.vreg d.toNat]
  | .vfms _ d _ _ _ _ => [.vreg d.toNat]
  | .vmin _ d _ _ _ => [.vreg d.toNat]
  | .vmax _ d _ _ _ => [.vreg d.toNat]
  | .vabs _ d _ _ => [.vreg d.toNat]
  | .vneg _ d _ _ => [.vreg d.toNat]
  | .vnot _ d _ => [.vreg d.toNat]
  | .vadds _ d _ _ _ => [.vreg d.toNat]
  | .vsubs _ d _ _ _ => [.vreg d.toNat]
  | .vmulh _ d _ _ _ => [.vreg d.toNat]
  | .vand _ d _ _ => [.vreg d.toNat]
  | .vor _ d _ _ => [.vreg d.toNat]
  | .vxor _ d _ _ => [.vreg d.toNat]
  | .vshl _ d _ _ _ => [.vreg d.toNat]
  | .vshr _ d _ _ _ => [.vreg d.toNat]
  | .vsra _ d _ _ _ => [.vreg d.toNat]
  | .vcmp _ _ d _ _ _ _ => [.lane d.toNat]
  | .vsel _ d _ _ _ => [.vreg d.toNat]
  | .vmov _ d _ => [.vreg d.toNat]
  | .vsplat _ d _ _ => [.vreg d.toNat]
  | .viotaRow _ d => [.vreg d.toNat]
  | .viotaCol _ d => [.vreg d.toNat]
  | .viotaLin _ d => [.vreg d.toNat]
  | .vbrow _ d _ _ => [.vreg d.toNat]
  | .vbcol _ d _ _ => [.vreg d.toNat]
  | .vrotr _ d _ _ => [.vreg d.toNat]
  | .vrotc _ d _ _ => [.vreg d.toNat]
  | .vredr _ d _ _ _ _ _ => [.vreg d.toNat]
  | .vredc _ d _ _ _ _ _ => [.vreg d.toNat]
  | .vscanr _ d _ _ _ _ _ => [.vreg d.toNat]
  | .vscanc _ d _ _ _ _ _ => [.vreg d.toNat]
  | .vxp _ d _ => [.vreg d.toNat]
  | .vpermRow _ d _ _ => [.vreg d.toNat]
  | .vpermCol _ d _ _ => [.vreg d.toNat]
  | .vext _ d _ _ => [.sreg d.toNat]
  | .vins _ d _ _ => [.vreg d.toNat]
  | .qand _ d _ _ => [.lane d.toNat]
  | .qor _ d _ _ => [.lane d.toNat]
  | .qxor _ d _ _ => [.lane d.toNat]
  | .qnot _ d _ => [.lane d.toNat]
  | .qcnt _ d _ => [.sreg d.toNat]
  | .fexp2 _ d _ _ => [.vreg d.toNat]
  | .fexp _ d _ _ => [.vreg d.toNat]
  | .flog2 _ d _ _ => [.vreg d.toNat]
  | .frcp _ d _ _ => [.vreg d.toNat]
  | .frsq _ d _ _ => [.vreg d.toNat]
  | .fsqrt _ d _ _ => [.vreg d.toNat]
  | .fdiv _ d _ _ _ => [.vreg d.toNat]
  | .ftanh _ d _ _ => [.vreg d.toNat]
  | .fsigm _ d _ _ => [.vreg d.toNat]
  | .fsin _ d _ _ => [.vreg d.toNat]
  | .fcos _ d _ _ => [.vreg d.toNat]
  | .cvt _ d _ _ _ _ => [.vreg d.toNat]
  | .qnt4 _ d _ _ _ => [.vreg d.toNat]
  | .dqnt4 _ d _ _ => [.vreg d.toNat]
  | .rngseed _ _ _ => []
  | .rngskip _ _ => []
  | .edsc _ _ e _ => [.desc e.toNat]
  | .cpy _ _ _ => []
  | .gth _ _ _ => []
  | .sct _ _ _ => []
  | .kwait _ _ => []
  | .ktest _ _ pd => [.pred pd.toNat]
  | .krel _ _ => []
  | .mstrm _ _ _ _ => []
  | .mzero _ _ => []
  | .mcfg _ _ _ => []
  | .msplit _ _ => []
  | .mskip _ _ => []
  | .mclaim _ d _ => [.sreg d.toNat]
  | .mrel _ _ => []
  | .mlatch _ _ _ => []
  | .mrd _ v _ _ => [.vreg v.toNat]
  | .mwr _ _ _ _ => []
  | .mout _ _ _ _ => []
  | .tmm _ _ _ _ _ => []
  | .tew _ _ _ _ => []
  | .tred _ _ _ _ _ => []
  | .tscan _ _ _ _ _ => []
  | .txp _ _ _ => []
  | .tcvt _ _ _ _ => []
  | .tcpy _ _ _ => []
  | .tbc _ _ _ => []
  | .tlnch _ _ _ => []
  | .twait _ _ d => [.sreg d.toNat]
  | .tstat _ _ d => [.sreg d.toNat]
  | .tabort _ _ d => [.sreg d.toNat]
  | .fbind _ _ _ => []
  | .fsend _ _ _ => []
  | .fput _ _ _ => []
  | .fdrain _ x _ => [.sreg x.toNat]
  | .fstat _ x _ => [.sreg x.toNat]
  | .ftake _ x f => [.sreg x.toNat, .vreg f.toNat]
  | .mcst _ _ _ => []
  | .coll _ _ _ _ _ => []
  | .issueTick _ => []
  | .eventEntry _ => []
  | .fUnitFree _ => []
  | .phaseDrainDone _ => []
  | .phaseBarClose _ => []
  | .l1Fill _ _ => []
  | .l1Writeback _ _ => []
  | .homeLoad _ _ => []
  | .homeStore _ _ => []
  | .atomicExecute _ => []
  | .orderedRelease _ => []
  | .atomicReply _ => []
  | .copyStart _ _ => []
  | .copyCellWrite _ _ => []
  | .copyComplete _ _ => []
  | .streamStart _ _ => []
  | .streamComplete _ _ => []
  | .moutComplete _ _ => []
  | .arrayError _ _ => []
  | .rerunDone _ => []
  | .regionUnprotected _ => []
  | .slotRelease _ => []
  | .dispatchGroup _ => []
  | .claim _ => []
  | .stealRequest _ => []
  | .taskHalt _ => []
  | .tileStart _ _ => []
  | .unitComplete _ _ _ => []
  | .tileFold _ _ _ => []
  | .childLost _ _ _ => []
  | .tileComplete _ _ => []
  | .launchComplete _ => []
  | .mcstStart _ _ => []
  | .mcstComplete _ _ => []
  | .cellArrival _ => []
  | .slotSend _ => []
  | .linkCellReceive _ _ => []
  | .linkAck _ _ => []
  | .replayRequest _ _ => []
  | .linkSignalLoss _ => []
  | .retrainTimeout _ => []
  | .moduleLoss _ => []
  | .ringRefusal _ _ => []
  | .nack _ _ => []
  | .nackResend _ => []
  | .keyMarker _ _ => []
  | .keyRefusal _ => []
  | .remoteRequest _ _ => []
  | .reply _ _ => []
  | .retransmit _ => []
  | .remoteTimeout _ => []
  | .replyCacheExpire _ _ => []
  | .sequenceSkip _ _ => []
  | .collArrive _ _ => []
  | .collComplete _ _ _ => []
  | .collFault _ _ _ _ => []
  | .tlbinvAck _ => []
  | .genbumpDone _ => []
  | .l2wbDone _ => []
  | .domsetDone _ => []
  | .nploadDone _ => []
  | .attestServe => []
  | .gswCommand _ => []
  | .gangStop => []
  | .gangStopTimeout => []
  | .gangMarker _ _ _ => []
  | .lateCell _ _ => []
  | .kill _ _ => []
  | .mselWrite _ _ => []
  | .monitorSample _ _ => []
  | .ghcfgLock _ _ => []
  | .registerWrite _ _ _ => []
  | .hostFrame _ => []
  | .hostLaunch _ => []
  | .hostLoad _ => []
  | .hostWrite _ _ _ => []
  | .hostRead _ _ _ => []
  | .hostKey _ _ => []
  | .hostAttest _ => []
  | .hostJobEnd _ => []
  | .hostGrotto => []
  | .hostConfig _ => []
  | .moduleReset _ => []
  | .powerTrip _ _ _ => []
  | .junctionTrip _ _ => []
  | .packageWatchdog _ => []
  | .fatalStop _ _ _ => []
  | .fatalMessage => []
  | .linkTrained _ => []
  | .powerLoss => []

/-- Destinations that R32 does not exempt: all but s0 and p0. -/
def Dest.counts (d : Dest) : Bool := !decide (d = .sreg 0) && !decide (d = .pred 0)

/-! ### Classes (Table 2.2) -/

/-- OP of a slot word. -/
def opOf (w : W32) : Nat := w.toNat / 2 ^ 20 % 128

/-- Class of a slot word: bits [26:24]. -/
def classOf (w : W32) : Nat := opOf w / 16

/-- NOP (R30). -/
def isNop (w : W32) : Bool := decide (w.toNat % 2 ^ 27 = 0x2F00000)

/-- Place of a class in the canonical order X, M and T, V, F (R31). -/
def classRank (c : Nat) : Nat := if c ≤ 2 then 0 else if c = 3 ∨ c = 7 then 1 else if c ≤ 5 then 2 else 3

/-- What has stood in a bundle so far: slots of each kind (Table 2.3), the highest rank, the destinations. -/
structure Tally where
  x : Nat
  m : Nat
  t : Nat
  v : Nat
  f : Nat
  c : Nat
  rank : Nat
  dests : List Dest

/-- Nothing so far. -/
def Tally.zero : Tally := ⟨0, 0, 0, 0, 0, 0, 0, []⟩

/-- GSW or GRES with a nonzero b field (R380). -/
def namesSwitchB (w : W32) : Bool :=
  let n := w.toNat
  decide (bits n 26 20 = 0x2A) && (decide (bits n 19 15 = 13) || decide (bits n 19 15 = 14)) && decide (bits n 9 5 ≠ 0)

/-- The destinations of a slot word that count. A GSW or GRES with a nonzero b field is that instruction (R380) and
names its s_d. A word that is no instruction names none: DESIGN CHOICE, notes/assumptions/97. -/
def wordDests (w : W32) : List Dest :=
  match decodeSlot w with
  | .ok s => (destsOf s.instr).filter Dest.counts
  | .error _ => if namesSwitchB w then [Dest.sreg (bits w.toNat 4 0)].filter Dest.counts else []

/-- The tally with one more slot. -/
def Tally.add (a : Tally) (w : W32) : Tally :=
  let k := classOf w
  let one := fun (b : Bool) => if b then 1 else 0
  { x := a.x + one (decide (k ≤ 2)), m := a.m + one (decide (k = 3) || decide (k = 7)), t := a.t + one (decide (k = 7)),
    v := a.v + one (decide (k = 4) || decide (k = 5)), f := a.f + one (decide (k = 6)), c := a.c + one (decide (k = 2)),
    rank := classRank k, dests := a.dests ++ wordDests w }

/-- Whether a tally breaks Table 2.3; `vmax` is the limit of V slots (R16). -/
def Tally.over (vmax : Nat) (a : Tally) : Bool :=
  decide (2 < a.x) || decide (2 < a.m) || decide (1 < a.t) || decide (vmax < a.v) || decide (1 < a.f) || decide (1 < a.c)

/-- Whether a slot offends after a tally (R30 to R32). `delay` says that the bundle is a delay bundle. -/
def offends (vmax : Nat) (delay : Bool) (a : Tally) (w : W32) : Bool :=
  (a.add w).over vmax || decide (classRank (classOf w) < a.rank) || (wordDests w).any a.dests.contains
    || !(wordDests w).Nodup || (delay && decide (classOf w = 2))

/-- The index of the first offending slot of a bundle's words. -/
def firstOffender (vmax : Nat) (delay : Bool) : Tally → Nat → List W32 → Option Nat
  | _, _, [] => none
  | a, n, w :: rest =>
    if isNop w then firstOffender vmax delay a (n + 1) rest
    else if offends vmax delay a w then some n
    else firstOffender vmax delay (a.add w) (n + 1) rest

/-- The first stop bit of eight words, or the last word where none has it: the offending slot when no bundle
stands there (R32). -/
def stopIndex (l : List W32) : Nat := min (l.findIdx fun w => w.getLsbD 31) 7

end Sys2Proof.Machine
end

