-- ==== Sys2Proof/Machine/Loader.lean ====
section
/-!
DEFINITION. Job images (R50 to R53): the layout of an image, the checks with which the loader refuses one, its
relocations, its placement in job memory, its kernels, and the promise word of each (R280).
-/

namespace Sys2Proof.Machine

/-! ### The image (R52, Tables 2.19 to 2.21) -/

/-- A section of an image: its table entry. -/
structure ImgSection where
  typ : Nat
  flags : Nat
  off : Nat
  size : Nat
  link : Nat
  info : Nat
  deriving DecidableEq, Repr

/-- Section table entry i of an image (Table 2.20). -/
def imgSection (b : List Byte) (i : Nat) : ImgSection :=
  let o := 64 + 32 * i
  ⟨bytesAt b o 4, bytesAt b (o + 4) 4, bytesAt b (o + 8) 8, bytesAt b (o + 16) 8, bytesAt b (o + 24) 4, bytesAt b (o + 28) 4⟩

/-- The sections of an image. -/
def imgSections (b : List Byte) : List ImgSection := (List.range (bytesAt b 8 4)).map (imgSection b)

/-- The bytes of a section. -/
def ImgSection.bytes (x : ImgSection) (b : List Byte) : List Byte := (b.drop x.off).take x.size

/-- Whether a header keeps Table 2.19. -/
def imgHeaderOk (b : List Byte) : Bool :=
  decide (64 ≤ b.length) && decide (bytesAt b 0 4 = 0x38455642) && decide (bytesAt b 4 2 = 1) && decide (bytesAt b 6 2 = 0)
    && decide (bytesAt b 12 4 = 64) && decide (bytesAt b 24 40 = 0) && decide (64 + 32 * bytesAt b 8 4 ≤ b.length)

/-- Whether a section is of a known type, without flags, within the image past the table, at a multiple of 64 (R52,
R53). -/
def ImgSection.ok (n len : Nat) (x : ImgSection) : Bool :=
  decide (1 ≤ x.typ) && decide (x.typ ≤ 9) && decide (x.flags = 0) && decide (x.off % 64 = 0) && decide (64 + 32 * n ≤ x.off)
    && decide (x.off + x.size ≤ len)

/-- Whether no two sections overlap. -/
def sectionsApart : List ImgSection → Bool
  | [] => true
  | x :: rest => (rest.all fun y => !runsMeet x.off x.size y.off y.size) && sectionsApart rest

/-- Bytes of the first section of a type; none where there is none. -/
def sectionOf (b : List Byte) (typ : Nat) : List Byte :=
  match (imgSections b).find? fun x => decide (x.typ = typ) with
  | some x => x.bytes b
  | none => []

/-- Entry count of the first section of a type. -/
def entriesOf (b : List Byte) (typ : Nat) : Nat :=
  match (imgSections b).find? fun x => decide (x.typ = typ) with
  | some x => x.info
  | none => 0

/-- Whether a kernel record keeps its fields' ranges and its reserved bytes are zero (R52). -/
def kernelOk (codeUnits tableBytes : Nat) (r : List Byte) : Bool :=
  let v := bytesAt r 17 1
  decide (1 ≤ bytesAt r 16 1) && decide (bytesAt r 16 1 ≤ 32) && decide (v = 8 ∨ v = 16 ∨ v = 24 ∨ v = 32)
    && decide (bytesAt r 18 1 ≤ 8) && decide (bytesAt r 19 1 ≤ 1) && decide (1 ≤ bytesAt r 20 2) && decide (bytesAt r 22 2 = 0)
    && decide (1 ≤ bytesAt r 24 2) && decide (1 ≤ bytesAt r 26 2) && decide (1 ≤ bytesAt r 28 2) && decide (bytesAt r 30 2 = 0)
    && decide (bytesAt r 36 1 ≤ 16) && decide (bytesAt r 37 3 = 0) && decide (bytesAt r 48 16 = 0)
    && decide (bytesAt r 4 4 + bytesAt r 8 4 ≤ codeUnits)
    && (if bytesAt r 36 1 = 0 then decide (bytesAt r 40 8 = 0)
        else decide (bytesAt r 40 8 + 2 * bytesAt r 36 1 ≤ tableBytes))

/-- The sizes of a kernel's ordered sets. -/
def kernelSets (table r : List Byte) : List Nat :=
  (List.range (bytesAt r 36 1)).map fun i => bytesAt table (bytesAt r 40 8 + 2 * i) 2

/-- The kernel records of an image. -/
def kernelRecords (b : List Byte) : List (List Byte) :=
  (List.range (entriesOf b 5)).map fun i => ((sectionOf b 5).drop (64 * i)).take 64

/-- A symbol (Table 2.21). -/
structure ImgSymbol where
  name : Nat
  kind : Nat
  bind : Nat
  sect : Nat
  value : Nat
  kernel : Nat
  spare : Nat
  deriving DecidableEq, Repr

/-- Symbol i of an image. -/
def imgSymbol (b : List Byte) (i : Nat) : ImgSymbol :=
  let r := (sectionOf b 6).drop (24 * i)
  ⟨bytesAt r 0 4, bytesAt r 4 1, bytesAt r 5 1, bytesAt r 6 2, bytesAt r 8 8, bytesAt r 16 4, bytesAt r 20 4⟩

/-- The symbols of an image. -/
def imgSymbols (b : List Byte) : List ImgSymbol := (List.range (entriesOf b 6)).map (imgSymbol b)

/-- Whether a symbol's fields are of Table 2.21. -/
def ImgSymbol.ok (x : ImgSymbol) : Bool := decide (x.kind ≤ 6) && decide (x.bind ≤ 1) && decide (x.spare = 0)

/-- The characters of a name in the string section. -/
def nameAt (b : List Byte) (o : Nat) : List Byte := ((sectionOf b 8).drop o).takeWhile fun c => decide (c ≠ 0)

/-- The symbol that an external one stands for: one of the same name that the whole image sees. -/
def resolveExternal (b : List Byte) (x : ImgSymbol) : Option ImgSymbol :=
  if x.kind ≠ 6 then some x
  else (imgSymbols b).find? fun y => decide (y.kind ≠ 6) && decide (y.bind = 1) && decide (nameAt b y.name = nameAt b x.name)

/-- Whether an image may be loaded as far as its own bytes tell (R52, R53). -/
def imageOk (b : List Byte) : Bool :=
  let secs := imgSections b
  let n := secs.length
  let table := sectionOf b 5
  imgHeaderOk b && secs.all (ImgSection.ok n b.length) && sectionsApart secs
    && decide (64 * entriesOf b 5 ≤ table.length) && decide (24 * entriesOf b 6 ≤ (sectionOf b 6).length)
    && decide (24 * entriesOf b 7 ≤ (sectionOf b 7).length)
    && ((kernelRecords b).all fun r => kernelOk ((sectionOf b 1).length / 16) table.length r
        && (kernelSets table r).all fun n => decide (1 ≤ n) && decide (n ≤ 4096))
    && ((imgSymbols b).all fun x => x.ok && (resolveExternal b x).isSome)
    && decide (entriesOf b 6 = 0 ∨ ((sectionOf b 6).take 24).all (fun c => decide (c = 0)) = true)

/-! ### Bundles of a kernel's code -/

/-- Words of code from a byte offset. -/
def imageWords (code : List Byte) (o : Nat) : List W32 := (List.range 8).map fun i => BitVec.ofNat 32 (bytesAt code (o + 4 * i) 4)

/-- The bundles of `len` units from unit `u`, each with its unit within the kernel and its words; a unit where no
bundle stands is passed over. -/
def bundlesFrom (code : List Byte) (start : Nat) : Nat → Nat → Nat → List (Nat × List W32)
  | 0, _, _ => []
  | fuel + 1, u, len =>
    if len ≤ u then []
    else match bundleWords (imageWords code (16 * (start + u))) 0 with
      | some l => (u, l) :: bundlesFrom code start fuel (u + unitsOf l.length) len
      | none => bundlesFrom code start fuel (u + 1) len

/-- The bundles of a kernel record's code. -/
def kernelBundles (code r : List Byte) : List (Nat × List W32) :=
  bundlesFrom code (bytesAt r 4 4) (bytesAt r 8 4) 0 (bytesAt r 8 4)

/-- The unit, within its kernel, of the bundle that holds the word at a byte offset of the code section. -/
def unitOfWord (b : List Byte) (o : Nat) : Option Nat :=
  (kernelRecords b).findSome? fun r =>
    let start := 16 * bytesAt r 4 4
    if o < start ∨ start + 16 * bytesAt r 8 4 ≤ o then none
    else ((kernelBundles (sectionOf b 1) r).find? fun x =>
      decide (start + 16 * x.1 ≤ o) && decide (o < start + 16 * x.1 + 4 * x.2.length)).map Prod.fst

/-! ### Relocation (R51, R53, Table 2.18) -/

/-- A relocation record. -/
structure ImgReloc where
  off : Nat
  sym : Nat
  typ : Nat
  sect : Nat
  addend : Int
  deriving DecidableEq, Repr

/-- Relocation i of an image. -/
def imgReloc (b : List Byte) (i : Nat) : ImgReloc :=
  let r := (sectionOf b 7).drop (24 * i)
  ⟨bytesAt r 0 8, bytesAt r 8 4, bytesAt r 12 2, bytesAt r 14 2, (BitVec.ofNat 64 (bytesAt r 16 8)).toInt⟩

/-- The virtual address of a symbol in the placed image (R53). -/
def symbolAddr (b : List Byte) (place : List Nat) (x : ImgSymbol) : Option Int :=
  match x.kind with
  | 0 =>
    match (kernelRecords b)[x.kernel]? with
    | some r => some (place.getD x.sect 0 + 16 * (bytesAt r 4 4 + x.value) : Nat)
    | none => none
  | 1 | 2 | 5 => some (place.getD x.sect 0 + x.value : Nat)
  | _ => none

/-- A field of a patched section: its first bit, its width and its new value. -/
structure Patch where
  bit : Nat
  width : Nat
  value : Nat
  deriving DecidableEq, Repr

/-- A patch of a field whose value must lie in a range. -/
def patchIn (bit width : Nat) (lo hi v : Int) : Option Patch :=
  if lo ≤ v ∧ v ≤ hi then some ⟨bit, width, (v % (2 ^ width : Nat)).toNat⟩ else none

/-- The first bit of the flow field that a FLOW20 relocation patches: of a data word, or of the FLOW or OUTFLOW field
of a Parterre record's entry (Table 15.3). -/
def flowBit (typ off : Nat) : Option Nat :=
  if typ ≠ 4 then some (8 * off)
  else if off % 40 = 8 then some (8 * off + 4)
  else if off % 40 = 25 then some (8 * off + 2)
  else none

/-- The patch of a relocation against its symbol; none makes the loader refuse the image. -/
def relocPatch (b : List Byte) (place : List Nat) (r : ImgReloc) (x : ImgSymbol) : Option Patch :=
  let bit := 8 * r.off
  let units : Option Int := if x.kind = 0 then some (x.value + r.addend) else none
  let span : Option Int := match units, unitOfWord b r.off with
    | some t, some u => some (t - u)
    | _, _ => none
  let addr := (symbolAddr b place x).map fun a => a + r.addend
  match r.typ with
  | 1 => span.bind fun v => patchIn bit 18 (-131072) 131071 v
  | 2 => span.bind fun v => patchIn bit 14 1 16383 v
  | 3 => span.bind fun v => patchIn bit 9 1 511 v
  | 4 | 5 | 6 | 7 => addr.bind fun v =>
    if 0 ≤ v ∧ v < (2 ^ 64 : Nat) then some ⟨bit, 15, v.toNat / 2 ^ (15 * (r.typ - 4)) % 2 ^ 15⟩ else none
  | 8 => addr.bind fun v => patchIn bit 64 0 (2 ^ 64 - 1) v
  | 9 => addr.bind fun v => patchIn bit 32 0 (2 ^ 32 - 1) v
  | 10 =>
    if x.kind ≠ 3 then none
    else match (imgSections b)[r.sect]? with
      | some y => (flowBit y.typ r.off).bind fun p => patchIn p 20 0 (2 ^ 20 - 1) (x.value + r.addend)
      | none => none
  | 11 => units.bind fun v => patchIn bit 32 0 (2 ^ 32 - 1) v
  | _ => none

/-- Bytes with a field of bits replaced. -/
def Patch.apply (p : Patch) (b : List Byte) : Option (List Byte) :=
  let i := p.bit / 8
  let n := (p.bit % 8 + p.width + 7) / 8
  if b.length < i + n then none
  else
    let old := bytesAt b i n
    let lo := p.bit % 8
    let new := old - old / 2 ^ lo % 2 ^ p.width * 2 ^ lo + p.value * 2 ^ lo
    some (b.take i ++ leBytes n new ++ b.drop (i + n))

/-- The sections of an image after its relocations; none where one of them cannot be resolved. -/
def relocate (b : List Byte) (place : List Nat) : Nat → List (List Byte) → Option (List (List Byte))
  | 0, secs => some secs
  | n + 1, secs =>
    match relocate b place n secs with
    | none => none
    | some secs =>
      let r := imgReloc b n
      match (imgSymbols b)[r.sym]? with
      | none => none
      | some x =>
        match (resolveExternal b x).bind (relocPatch b place r), secs[r.sect]? with
        | some p, some old => (p.apply old).map fun new => secs.set r.sect new
        | _, _ => none

/-! ### The promise word (R280, Table 13.2) -/

/-- The instructions of a kernel's bundles, with their unit, in address order. -/
def kernelInstrs (l : List (Nat × List W32)) : List (Nat × W32 × Instr) :=
  l.flatMap fun x => x.2.filterMap fun w => match decodeSlot w with
    | .ok y => some (x.1, w, y.instr)
    | .error _ => none

/-- A .f slot (Table 13.2, ORDERFREE). -/
def isOrderFree (i : Instr) : Bool :=
  match i with
  | .vredr _ _ _ op _ ty o | .vredc _ _ _ op _ ty o | .vscanr _ _ _ op _ ty o | .vscanc _ _ _ op _ ty o =>
    decide (op = 0) && decide (ty.toNat ≤ 2) && decide (o = 0)
  | .afadd _ _ _ _ o _ => decide (o = 0)
  | .tmm _ _ _ o _ | .tred _ _ _ o _ | .tscan _ _ _ o _ | .coll _ _ _ o _ => decide (o = 0)
  | _ => false

/-- Whether a Parterre section holds a fadd COMBINE entry with ORD = 0. -/
def parterreOrderFree (b : List Byte) : Bool :=
  let p := sectionOf b 4
  (List.range (p.length / 40)).any fun i =>
    let e := FlowEntry.ofBits (bytesAt p (40 * i + 8) 32)
    e.v && decide (e.action = 1) && decide (e.cop = 0) && !e.ord

/-- A read of a register of R93. -/
def readsPlace (i : Instr) : Bool :=
  match i with
  | .movsRead _ _ n | .csrr _ _ n => decide (n = 0x101 ∨ n = 0x100 ∨ n = 0x007 ∨ n = 0x006)
  | _ => false

/-- The number of the special register that a slot writes. -/
def writtenReg (i : Instr) : Option Nat :=
  match i with
  | .movsWrite _ _ n | .csrw _ _ n => some n.toNat
  | _ => none

/-- A conversion with stochastic rounding. -/
def isStochastic (i : Instr) : Bool :=
  match i with
  | .cvt _ _ _ _ _ rm | .qnt4 _ _ _ _ rm => decide (rm = 2)
  | _ => false

/-- The transfer targets that a slot at a unit names, given the size of its bundle and of the bundle at a unit. -/
def targetsOf (u units : Nat) (sizeAt : Int → Nat) (i : Instr) : List Int :=
  match i with
  | .prep _ _ off => [u + off.toInt]
  | .loop _ _ _ off => [u + units, u + off.toNat + sizeAt (u + off.toNat)]
  | .loopi _ _ _ off => [u + units, u + off.toNat + sizeAt (u + off.toNat)]
  | _ => []

/-- Whether a slot names targets that cannot be known at load. -/
def hidesTargets (i : Instr) : Bool :=
  match i, writtenReg i with
  | .prepr _ _ _, _ => true
  | _, some n => decide (n / 8 = 3) || decide (n / 8 = 4)
  | _, none => false

/-- Whether every possible steal request of a run of slots is followed, as its first F slot, by an RNGSEED that no
transfer target parts from it. -/
def stealsSeeded (targets : List Int) : List (Nat × W32 × Instr) → Bool
  | [] => true
  | x :: rest =>
    (decide (writtenReg x.2.2 ≠ some 0x00A)
      || (match rest.find? fun y => decide (classOf y.2.1 = 6) with
        | some y => (match y.2.2 with
          | .rngseed _ _ _ => targets.all fun t => !(decide ((x.1 : Int) < t) && decide (t ≤ y.1))
          | _ => false)
        | none => false))
      && stealsSeeded targets rest

/-- The PLACEMENT mark of a kernel's bundles. -/
def isPlacement (l : List (Nat × List W32)) : Bool :=
  let is := kernelInstrs l
  let sizeOf := fun u => match l.find? fun (x : Nat × List W32) => decide ((x.1 : Int) = u) with
    | some x => unitsOf x.2.length
    | none => 1
  let targets := is.flatMap fun x => targetsOf x.1 (sizeOf x.1) sizeOf x.2.2
  (is.any fun x => readsPlace x.2.2)
    || ((is.any fun x => isStochastic x.2.2) && (is.any fun x => decide (writtenReg x.2.2 = some 0x00A))
      && ((is.any fun x => hidesTargets x.2.2) || !stealsSeeded targets is))

/-- A read-only load (R171). -/
def isReadOnly (i : Instr) : Bool :=
  match i with
  | .ldRo _ _ _ _ _ _ | .vldRo _ _ _ _ _ _ => true
  | _ => false

/-- An atomic whose arrival order shows (R259). -/
def isArrival (i : Instr) : Bool :=
  match i with
  | .afadd _ _ _ _ o _ => decide (o = 0)
  | .acas _ _ _ _ _ ix _ | .aswp _ _ _ _ ix _ | .aincb _ _ _ _ ix _ _ => decide (ix = 0)
  | .aadd _ d _ _ ix _ | .aand _ d _ _ ix _ | .aor _ d _ _ ix _ | .axor _ d _ _ ix _ => decide (ix = 0) && decide (d ≠ 0)
  | .amin _ d _ _ ix _ _ | .amax _ d _ _ ix _ _ => decide (ix = 0) && decide (d ≠ 0)
  | _ => false

/-- A slot whose result shows timing (R42). -/
def isTiming (i : Instr) : Bool :=
  match i with
  | .ktest _ _ _ | .ttstat _ _ _ | .tstat _ _ _ | .fstat _ _ _ | .mclaim _ _ _ => true
  | _ => false

/-- The promise word of a kernel of an image: its relocated code and its record (R280). -/
def promiseWord (b code r : List Byte) : W64 :=
  let l := kernelBundles code r
  let is := kernelInstrs l
  BitVec.ofNat 64
    (bitAt ((is.any fun x => isOrderFree x.2.2) || parterreOrderFree b) 0 + bitAt (isPlacement l) 1
      + bitAt (is.any fun x => isReadOnly x.2.2) 2 + bitAt (is.any fun x => isArrival x.2.2) 3
      + bitAt (is.any fun x => isTiming x.2.2) 4)

/-! ### Job memory as the loader sees it -/

/-- The module offset of a byte of a job's memory, by D0's tables: none where it has no translation, a stale one, or
lies in the Grotto or on another module. -/
def State.jobSpot (s : State) (job va : Nat) : Option (TlbEntry × Nat) :=
  match s.walk 0 (s.die 0).lodge.troot.toNat job va with
  | .error _ => none
  | .ok e =>
    let pa := e.addr va
    if inGrotto pa ∨ paModule pa ≠ s.module.toNat ∨ e.gen ≠ s.genOf (paOffset pa) then none else some (e, paOffset pa)

/-- Runs of at most 128 bytes within lines that n bytes from an address fall into. -/
def lineRuns (va n : Nat) : List (Nat × Nat) :=
  (linesOf va n).map fun l =>
    let lo := max va (128 * l)
    (lo, min (va + n) (128 * (l + 1)) - lo)

/-- Bytes of a job's memory under its key. -/
def State.readJob (s : State) (job va n : Nat) : Option (List Byte) :=
  (lineRuns va n).foldl
    (fun a x => a.bind fun b => match s.jobSpot job x.1 with
      | none => none
      | some y => (match s.readHbm y.2 x.2 (jobKey job) with
        | .ok c => some (b ++ c)
        | .error _ => none)) (some [])

/-- Whether every byte of a range of a job's memory has a place, with a W mark that `f` accepts. -/
def State.mapped (s : State) (job va n : Nat) (f : Bool → Bool) : Bool :=
  (lineRuns va n).all fun x => match s.jobSpot job x.1 with
    | some y => f y.1.w
    | none => false

/-- Bytes written in a job's memory under its key. -/
def State.writeJob (s : State) (job va : Nat) (b : List Byte) : State :=
  (lineRuns va b.length).foldl
    (fun s x => match s.jobSpot job x.1 with
      | none => s
      | some y => s.storeHbm y.2 (jobKey job) ((b.drop (x.1 - va)).take x.2)) s

/-! ### Loading -/

/-- Whether a section is placed in job memory (R53). -/
def isPlaced (typ : Nat) : Bool := decide (typ = 1) || decide (typ = 2) || decide (typ = 3) || decide (typ = 9)

/-- Whether a section's place is one that the loader may choose: aligned to the larger of 4 KiB and the section's largest
`.align`, within the virtual space and mapped, data writable, const and tiles read-only, and code without a break in its
physical bytes (R53). -/
def State.placeOk (s : State) (job : Nat) (x : ImgSection) (va align : Nat) : Bool :=
  !isPlaced x.typ || decide (x.size = 0)
    || (decide (va % max 4096 align = 0) && decide (va + x.size ≤ 2 ^ 56)
      && s.mapped job va x.size (fun w => if x.typ = 2 then w else if x.typ = 1 then true else !w)
      && (decide (x.typ ≠ 1) || (match s.jobSpot job va with
        | some y => (lineRuns va x.size).all fun z => match s.jobSpot job z.1 with
          | some q => decide (q.2 = y.2 + (z.1 - va))
          | none => false
        | none => false)))

/-- The placed sections of an image written into job memory. -/
def State.placeSections (s : State) (job : Nat) (l : List (ImgSection × Nat × List Byte)) : State :=
  l.foldl (fun s x => if isPlaced x.1.typ then s.writeJob job x.2.1 x.2.2 else s) s

/-- A kernel from its record, with the physical place of the code section. -/
def kernelFrom (b code : List Byte) (base : Nat) (r : List Byte) : Kernel :=
  { codeBase := base + 16 * bytesAt r 4 4, codeLen := bytesAt r 8 4, entry := BitVec.ofNat 32 (bytesAt r 12 4),
    group := bytesAt r 16 1, vregs := bytesAt r 17 1, barriers := bytesAt r 18 1, wheel := decide (bytesAt r 19 1 = 1),
    stages := bytesAt r 20 2, gridX := bytesAt r 24 2, gridY := bytesAt r 26 2, gridZ := bytesAt r 28 2,
    scratch := bytesAt r 32 4, sets := kernelSets (sectionOf b 5) r, promise := promiseWord b code r }

/-- The Parterre section with the job's number in each record's entry, in order (R331). -/
def jobRecords (job : Nat) (b : List Byte) : List Byte :=
  (List.range (b.length / 40)).flatMap fun i =>
    let r := (b.drop (40 * i)).take 40
    r.take 8 ++ leBytes 32 ({ FlowEntry.ofBits (leNat (r.drop 8)) with job := job }).bits

/-- The index of the first section of a type. -/
def sectionIndex (b : List Byte) (typ : Nat) : Nat := (imgSections b).findIdx fun x => decide (x.typ = typ)

/-- A job image loaded (R52, R53, R402): placed, relocated and measured; none where the loader refuses it. -/
def State.loadImage (s : State) (m : LoadMsg) : Option (State × List Kernel) :=
  match s.readJob m.job m.va m.len with
  | none => none
  | some b =>
    if imageOk b = false then none
    else
      let secs := imgSections b
      let places := (List.range secs.length).map fun i => m.place.getD i 0
      if !((secs.zip (places.zip ((List.range secs.length).map fun i => m.aligns.getD i 0))).all fun x =>
          s.placeOk m.job x.1 x.2.1 x.2.2) then none
      else match relocate b places (entriesOf b 7) (secs.map fun x => x.bytes b) with
        | none => none
        | some data =>
          let s := s.placeSections m.job ((secs.zip (places.zip data)))
          let s := s.extendJob m.job b
          let ci := sectionIndex b 1
          let base := match s.jobSpot m.job (places.getD ci 0) with
            | some y => y.2
            | none => 0
          let ks := (kernelRecords b).map (kernelFrom b (data.getD ci []) base)
          let img : Image := ⟨m.job, ks, bytesAt b 20 4, jobRecords m.job (data.getD (sectionIndex b 4) [])⟩
          some ({ s with images := img :: s.images.filter fun i => !decide (i.job = m.job) }, ks)

end Sys2Proof.Machine
end

