-- ==== Sys2Proof/Machine/Host.lean ====
section
/-!
DEFINITION. The host port and D0's service of host messages (R392 to R396, R402, R407, R414), bring-up (R408, R409),
module reset and the loss of power (R399, R413).
-/

namespace Sys2Proof.Machine

/-! ### Frames (R393, R394) -/

/-- The receiving association under which a frame that reaches the port is protected, whole, and in packet-number order: a
replay window of 0 takes no number below the next (R393). -/
def State.opens (s : State) (f : HostFrame) : Bool :=
  f.secure && s.host.sas.any fun a =>
    a.rx && decide (a.an = f.an) && decide (a.next ≤ f.pn) && decide (f.icv = Config.macsecIcv a.key f.pn (frameText f))

/-- Whether a frame that reaches the port is accepted (R393, R394); a stopped module admits no cells (R389). -/
def State.frameOk (s : State) (f : HostFrame) : Bool :=
  s.fatal.isNone && s.opens f && decide (f.etherType = hostEtherType) && decide (f.version = 1) && decide (f.count = f.cells.length)
    && decide (1 ≤ f.count) && decide (f.count ≤ 8) && decide (f.seq = (s.host.rxSeq + 1) % 2 ^ 32)
    && f.cells.all fun c => decide (c.typ = 10) && decide (routeOf c = s.hostRoute)

/-- The port after a frame whose protection held: its packet number is used up. -/
def State.portAfter (s : State) (f : HostFrame) : HostPort := if s.opens f then s.host.counted true f.an f.pn else s.host

/-- HOST_FRAME (R394): an accepted frame's cells wait for D0's lodge; any other frame is discarded whole and counted. -/
def execHostFrame (f : HostFrame) (s : State) : Host.Outcome State Fault Refusal :=
  .next (
    let h := s.portAfter f
    if s.frameOk f then
      { s with host := { h with rxSeq := f.seq, inbox := h.inbox ++ f.cells.map fun c => (f.seq, c) } }
    else { s with host := { h with drops := h.drops + 1 } })

/-! ### Messages and replies (R395) -/

/-- The frame sequence of the message that D0's lodge consumes next. -/
def State.messageSeq (s : State) : Nat :=
  match s.host.inbox with
  | (n, _) :: _ => n
  | [] => s.host.rxSeq

/-- A message of some cells taken from the head of what waits. -/
def State.consumed (s : State) (cells : Nat) : State := { s with host := { s.host with inbox := s.host.inbox.drop cells } }

/-- Contents in pieces of n bytes; `fuel` bounds them. -/
def chunks (n : Nat) : Nat → List Byte → List (List Byte)
  | 0, _ => []
  | fuel + 1, b => if b = [] then [] else b.take n :: chunks n fuel (b.drop n)

/-- Contents sent as as many reply cells as they need, of 120 bytes each. -/
def State.replyCells (s : State) (kind seq : Nat) (b : List Byte) : State :=
  (chunks 120 b.length b).foldl (fun s c => s.reply kind 0 seq c) s

/-- The payloads of the first n cells that wait. -/
def HostPort.payloads (h : HostPort) (n : Nat) : List Byte := (h.inbox.take n).flatMap fun x => padTo 128 x.2.payload

/-- KIND of the message at the head of those that wait. -/
def HostPort.headKind (h : HostPort) : Option Nat := h.inbox.head?.map fun x => bytesAt x.2.payload 0 1

/-- A message served, if it is the one at the head and all its cells have come: they are consumed, and a stopped module
answers none (R389, R395, R412). One that an access of D0's lodge holds up stays. -/
def State.serveOr (s : State) (mine : Bool) (cells : Nat) (f : Nat → State → Option State) : Host.Outcome State Fault Refusal :=
  .next (
    if s.fatal.isSome || !mine || decide (s.host.inbox.length < cells) then s
    else (f s.messageSeq (s.consumed cells)).getD s)

/-- A message of a KIND served (R395). -/
def State.serve (s : State) (kind cells : Nat) (f : Nat → State → State) : Host.Outcome State Fault Refusal :=
  s.serveOr (decide (s.host.headKind = some kind)) cells fun n s => some (f n s)

/-- A message answered with a status and no contents. -/
def State.respond (s : State) (kind seq status : Nat) : State := s.reply kind status seq []

/-- The dump of an earlier fatal stop is gone: the Grotto is zeroed (R414). -/
def State.endDump (s : State) : State :=
  if s.host.dump.isNone then s
  else { s with mem := s.mem.clear grottoBase (hbmSize - grottoBase), host := { s.host with dump := none } }

/-- The job of a message that needs it admitted and, if a job is active, active: status 3 otherwise. -/
def State.jobAdmitted (s : State) (job : Nat) : Bool :=
  (s.keyEntry? job).isSome && (decide (s.jobid.toNat = job) || decide (s.jobid = 0))

/-! ### LAUNCH (R396) -/

/-- A launch message judged: its launch, or its status (Table 20.10). -/
def State.launchJudge (s : State) (seq : Nat) (m : List Byte) : Except Nat Launch :=
  if bytesAt m 0 1 ≠ 1 ∨ m.length ≠ 128 ∨ launchOk m = false then .error 1
  else if bytesAt m 2 2 ≠ s.jobid.toNat ∨ s.jobid = 0 then .error 3
  else match s.kernelOf (bytesAt m 2 2) (bytesAt m 4 4) with
    | none => .error 2
    | some k => .ok (launchOf s.launches.length k m none (some seq))

/-- Whether a message of no KIND from 2 to 9 stands at the head: a launch, or one of an unknown KIND. -/
def HostPort.headIs (h : HostPort) (m : List Byte) : Bool :=
  match h.inbox with
  | (_, c) :: _ => decide (m = padTo 128 c.payload) && !(decide (2 ≤ bytesAt m 0 1) && decide (bytesAt m 0 1 ≤ 9))
  | [] => false

/-- LAUNCH (R396, R266, R268). -/
def execHostLaunch (m : List (BitVec 8)) (s : State) : Host.Outcome State Fault Refusal :=
  s.serveOr (s.host.headIs m) 1 fun seq s =>
    let kind := bytesAt m 0 1
    let s := if kind = 1 then s.endDump else s
    some (match s.launchJudge seq m with
      | .error st => s.respond kind seq st
      | .ok l =>
        if !s.holdable l then (s.refuseCapacity l).respond kind seq 2
        else { s with launches := s.launches ++ [l] }.reply kind 0 seq (leBytes 8 l.id.toNat))

/-! ### LOAD, WRITE, READ -/

/-- LOAD (R402, R52): one reply for each kernel, with its promise word. -/
def execHostLoad (m : LoadMsg) (s : State) : Host.Outcome State Fault Refusal :=
  s.serve 2 1 fun seq s =>
    if 2 ^ 12 ≤ m.job ∨ m.job = 0 ∨ 2 ^ 56 < m.va + m.len then s.respond 2 seq 1
    else if !s.jobAdmitted m.job then s.respond 2 seq 3
    else match s.loadImage m with
      | none => s.respond 2 seq 2
      | some (s, ks) =>
        let s := if s.jobid = 0 then { s with jobid := BitVec.ofNat 12 m.job } else s
        if ks = [] then s.respond 2 seq 0 else ks.foldl (fun s k => s.reply 2 0 seq (leBytes 8 k.promise.toNat)) s

/-- The transfer key of a job's entry (R406, R407). -/
def State.transferKey (s : State) (job : Nat) : List Byte :=
  ((s.keyEntry? job).map fun k => k.material.drop 64).getD []

/-- WRITE (R395, R407): sealed data is opened under the job's transfer key and written to job memory. -/
def execHostWrite (job va : Nat) (data : List (BitVec 8)) (s : State) : Host.Outcome State Fault Refusal :=
  s.serve 3 1 fun seq s =>
    if 2 ^ 12 ≤ job ∨ 2 ^ 56 ≤ va ∨ 96 < data.length then s.respond 3 seq 1
    else if !s.jobAdmitted job then s.respond 3 seq 3
    else match Config.gcmOpen (s.transferKey job) [] data [] with
      | none => s.respond 3 seq 2
      | some b =>
        if s.mapped job va b.length (fun w => w) then (s.writeJob job va b).respond 3 seq 0 else s.respond 3 seq 2

/-- READ (R395, R407): job memory is read, sealed, and returned at bytes 32 to 127. -/
def execHostRead (job va size : Nat) (s : State) : Host.Outcome State Fault Refusal :=
  s.serve 4 1 fun seq s =>
    if 2 ^ 12 ≤ job ∨ 2 ^ 56 ≤ va ∨ 96 < size then s.respond 4 seq 1
    else if !s.jobAdmitted job then s.respond 4 seq 3
    else match s.readJob job va size with
      | none => s.respond 4 seq 2
      | some b => s.reply 4 0 seq (List.replicate 24 0 ++ exactly 96 (Config.gcmSeal (s.transferKey job) b))

/-! ### KEY, ATTEST, JOBEND -/

/-- Every request that waits for the attestation unit served: they reached it first (R404). None while one waits. -/
def State.serveUnitAll (s : State) : Option State :=
  let t := (List.range s.attest.queue.length).foldl (fun s _ => s.serveUnit) s
  if t.attest.queue = [] then some t else none

/-- KEY (R407): D0's lodge issues KEYLD with the blob of the message's eight cells. -/
def execHostKey (job : Nat) (blob : List (BitVec 8)) (s : State) : Host.Outcome State Fault Refusal :=
  s.serveOr (decide (s.host.headKind = some 5)) 8 fun seq s =>
    let s := s.endDump
    if 2 ^ 12 ≤ job then some (s.respond 5 seq 1)
    else s.serveUnitAll.map fun s =>
      let x := s.installKey job (padTo 2048 blob)
      x.1.reply 5 (if x.2 = 0 then 0 else 2) seq (leBytes 8 x.2)

/-- The extension that an ATTEST message asks for (R404); none while its read waits. -/
def State.extendAsked (s : State) (seq : Nat) (req : List Byte) : Option State :=
  let job := bytesAt req 2 2
  if job ≠ 0 ∧ (s.keyEntry? job).isNone then some (s.respond 6 seq 3)
  else
    let x := s.serveExtend 0 req
    x.2.map fun st => (x.1.lodgeRest 0).respond 6 seq st

/-- The cells of a record: its parts where the unit writes them; what it does not write is the output area's (R404). -/
def State.areaBytes (s : State) (parts : List (Nat × List Byte)) : List Byte := overlay 0 (s.freeBytes recordArea) parts

/-- HOST_ATTEST (R403, R404): D0's lodge issues ATTEST with the request of the message, and the record is returned in
cells. -/
def execHostAttest (req : List (BitVec 8)) (s : State) : Host.Outcome State Fault Refusal :=
  s.serveOr (decide (s.host.headKind = some 6)) 1 fun seq s =>
    if req.length ≠ 64 ∨ requestOk req = false then some (s.respond 6 seq 1)
    else s.serveUnitAll.bind fun s =>
      if bytesAt req 0 1 = 1 then s.extendAsked seq req
      else
        let x := s.signRequest req
        if x.2.1 ≠ 0 then some (x.1.reply 6 (if x.2.1 = 2 then 3 else 2) seq (leBytes 8 x.2.1))
        else some ((x.1.tookFree recordArea).replyCells 6 seq (x.1.areaBytes x.2.2))

/-- A job's tasks killed, wherever they are (R385). -/
def State.killJob (s : State) (job : Nat) : State :=
  s.residents.foldl
    (fun s r =>
      if (s.task r).job = job ∧ isLodge r.core = false ∧ (s.task r).status ≠ .ending then s.killTask r else s) s

/-- JOBEND (R395): the job's tasks are killed, its launches end, its translations and images go, no job is active, and its
key is cleared. -/
def execHostJobEnd (job : Nat) (s : State) : Host.Outcome State Fault Refusal :=
  s.serve 7 1 fun seq s =>
    if 2 ^ 12 ≤ job then s.respond 7 seq 1
    else if (s.keyEntry? job).isNone then s.respond 7 seq 3
    else if s.isSwitched job || s.jobStopped job then s.respond 7 seq 4
    else
      let s := s.killJob job
      let s := s.invalidate ⟨some job, 0, 2 ^ 56⟩
      let over' := fun (l : Launch) => if l.job = job then { l with finished := true } else l
      let s := { s with
        launches := s.launches.map over'
        images := s.images.filter fun i => !decide (i.job = job)
        kept := s.kept.filter fun k => !decide (k.job = job)
        jobid := if s.jobid.toNat = job then 0 else s.jobid }
      (s.removeKey job).respond 7 seq 0

/-! ### GROTTO and CONFIG -/

/-- GROTTO (R414): after the reset that follows a fatal stop the dump is returned in order, 120 bytes to a cell. -/
def execHostGrotto (s : State) : Host.Outcome State Fault Refusal :=
  s.serve 8 1 fun seq s =>
    match s.host.dump with
    | none => s.respond 8 seq 4
    | some n =>
      let m := min 120 (hbmSize - grottoBase - n)
      if m = 0 then s.respond 8 seq 4
      else
        { s with host := { s.host with dump := some (n + m) } }.reply 8 0 seq (s.mem.bytes (grottoBase + n) m)

/-- CONFIG (R409): the rack word is stored for the next bring-up; refused while a job is active. -/
def execHostConfig (word : BitVec 64) (s : State) : Host.Outcome State Fault Refusal :=
  s.serve 9 1 fun seq s =>
    if s.jobid ≠ 0 then s.respond 9 seq 4
    else { s with attest := { s.attest with rackWord := word } }.reply 9 0 seq (leBytes 8 word.toNat)

/-! ### Reset and bring-up (R408, R409, R413, R414) -/

/-- PRESENT as bring-up writes it: the rack word with the module's own bit (R409). -/
def presentWord (word : W64) (m : Nat) : W64 := word ||| ((1 : W64) <<< m)

/-- The Gatehouse of a die after stage 4 (R339, R408). -/
def gateUp (word : W64) (m : Nat) : Gatehouse :=
  { Gatehouse.reset with ghcfg := BitVec.ofNat 64 (m % 64 + 64), present := presentWord word m }

/-- A die after bring-up: its Gatehouse is configured, its package-ring links are trained, and its rack links train where
the rack has other modules (R344, R409). -/
def dieUp (word : W64) (m : Nat) : Die :=
  let up := { Link.reset with st := 2 }
  let rack := if (presentList (presentWord word m)).length ≤ 1 then Link.reset else { Link.reset with st := 1 }
  { Die.reset with gate := gateUp word m, links := [(0, up), (1, up), (2, rack), (3, rack)] }

/-- The lodge images that are started: those before the first whose signature fails (R398). -/
def lodgeImages : List (List Byte) := ((List.range 8).map Config.lodgeImage).takeWhile Config.imageVerifies

/-- Whether bring-up passes its stages 2 and 3: the boot image and every lodge image verify (R398, R408). -/
def imagesVerify : Bool := Config.imageVerifies Config.bootImage && decide (lodgeImages.length = 8)

/-- MBOOT and MFW after stages 2 and 3: the boot image, and each lodge image in die order (R400). -/
def Attest.measured (a : Attest) : Attest :=
  let zero := List.replicate 32 (0 : Byte)
  if Config.imageVerifies Config.bootImage then
    { a with mboot := extended zero Config.bootImage, mfw := lodgeImages.foldl extended zero }
  else a

/-- Module offset and bytes of a die's firmware area (Table 1.9). -/
def firmwareBase (d : Nat) : Nat := dieBase d + 0xB40000000
/-- Bytes of the area. -/
def firmwareArea : Nat := 0x4000000

/-- The task of a die's lodge firmware as stage 3 leaves it: at bundle 0 of its image, of no launch. -/
def firmwareTask (d : Nat) : Task :=
  { Task.blank with
    launch := 2 ^ 64, codeBase := firmwareBase d, codeLen := min (Config.lodgeImage d).length firmwareArea / 16, vregs := 32 }

/-- The lodge firmware of a die loaded into its area, and its task (R408). -/
def State.loadFirmware (s : State) (d : Nat) : State :=
  { s with mem := s.mem.setBytes (firmwareBase d) ((Config.lodgeImage d).take firmwareArea) }.setTask (lodgeTask d) (firmwareTask d)

/-- READY (R408): MBOOT, MFW and the identity public key. -/
def State.sendReady (s : State) : State :=
  s.replyCells 0x10 0 (exactly 32 s.attest.mboot ++ exactly 32 s.attest.mfw ++ identityKey)

/-- The host port after stage 5: trained, with an association in each direction (R393, R408). -/
def hostUp (dump : Option Nat) : HostPort :=
  { HostPort.reset with
    link := 2, dump := dump, sas := [⟨true, 0, Config.macsecKey 0, 1⟩, ⟨false, 0, Config.macsecKey 1, 1⟩] }

/-- What module reset leaves before bring-up: of what the module held, the Grotto, NEXTIDX and the rack word (R399, R409,
R413). -/
def State.zeroed (s : State) : State :=
  let a := { Attest.reset with nextIdx := s.attest.nextIdx, rackWord := s.attest.rackWord, kemCount := s.attest.kemCount }
  { State.reset with
    agenda := s.agenda
    freeCtr := s.freeCtr
    mem := s.mem.filter fun e => decide (grottoBase ≤ e.1) && decide (e.1 < hbmSize)
    lines := s.lines.filter fun e => decide (grottoBase / 128 ≤ e.1) && decide (e.1 < hbmSize / 128)
    attest := a.measured
    host := { HostPort.reset with dump := if s.fatal.isSome then some 0 else s.host.dump } }

/-- MODULE_RESET (R408): the module comes up through its stages to READY; an image that fails stops it (R398). -/
def execModuleReset (straps : BitVec 6) (s : State) : Host.Outcome State Fault Refusal :=
  .next (
    let z := s.zeroed
    if !imagesVerify then z
    else
      let z := (List.range 8).foldl State.loadFirmware z
      let up := { z with module := straps, dies := (List.range 8).map fun d => (d, dieUp z.attest.rackWord straps.toNat) }
      let up := { up with
        attest := { up.attest with mcfg := extended up.attest.mcfg up.configBytes }, host := hostUp z.host.dump }
      up.sendReady)

/-- POWER_LOSS (R399): all volatile state ends; NEXTIDX and the rack word survive. -/
def execPowerLoss (s : State) : Host.Outcome State Fault Refusal :=
  .next
    { State.reset with
      powered := false
      agenda := s.agenda
      freeCtr := s.freeCtr
      attest := { Attest.reset with nextIdx := s.attest.nextIdx, rackWord := s.attest.rackWord, kemCount := s.attest.kemCount } }

end Sys2Proof.Machine
end

