-- ==== Sys2Proof/Machine/Faults.lean ====
section
/-!
DEFINITION. Register writes and monitors as steps (R24, R339, R385, R388), the fatal causes of agents (R389, R390,
R410) and the Grotto (R391, R412).
-/

namespace Sys2Proof.Machine

/-! ### Register writes -/

/-- KILL (R385): the named tasks of a die end. -/
def execKill (die : Nat) (target : BitVec 64) (s : State) : Host.Outcome State Fault Refusal := .next (s.kill die target)

/-- MSEL_WRITE (R388): a quantity is selected and the samples are cleared. -/
def execMselWrite (m : MonitorRef) (v : BitVec 64) (s : State) : Host.Outcome State Fault Refusal :=
  .next (s.modMonitor m (Monitor.select v))

/-- GHCFG_LOCK (R339): a write of GHCFG, which LOCK makes the last. -/
def execGhcfgLock (die : Nat) (v : BitVec 64) (s : State) : Host.Outcome State Fault Refusal :=
  .next (s.noteLock (s.modGate die (Gatehouse.write 0 (BitVec.allOnes 64) v)).followModule)

/-- REGISTER_WRITE (R24): a physical write of a word by an agent; a refusal is posted for it (R21). -/
def execRegisterWrite (w : Writer) (addr : Nat) (v : BitVec 64) (s : State) : Host.Outcome State Fault Refusal :=
  .next (
    let x := s.physWrite w (if w.lodge then s.lodgeKey w.die else jobKey w.job) addr (leBytes 8 v.toNat)
    match x.2 with
    | some t => x.1.postFault w.die w.agent w.slot w.job t.cause t.info w.lidx
    | none => x.1)

/-! ### Monitors (R388, Table 19.5) -/

/-- Whether the agent of a monitor has a quantity; one it lacks acts as off. -/
def samplesQty (m : MonitorRef) (q : Nat) : Bool :=
  if m.pavilion then decide (q = 1 ∨ q = 2)
  else if m.idx ≤ 3 then decide (q = 5)
  else if m.idx = 7 then decide (q = 6 ∨ q = 7)
  else decide (q = 3 ∨ q = 4)

/-- The bin of a sample. -/
def sampleBin (v : Nat) : Nat := if v = 0 then 0 else min 15 (Nat.log2 v + 1)

/-- A monitor with a sample taken. -/
def Monitor.sample (v : Nat) (m : Monitor) : Monitor :=
  let x := BitVec.ofNat 64 v
  let b := m.hist.get 0 (sampleBin v)
  { m with
    min := if x < m.min then x else m.min
    max := if m.max < x then x else m.max
    count := m.count + 1
    hist := Tbl.set 0 m.hist (sampleBin v) (if b = BitVec.allOnes 32 then b else b + 1) }

/-- The sample that a monitor takes: a level that the state holds, the input FIFO cells of a Pavilion or the live replies of a
Gatehouse; else the latency or depth `v` of the event. -/
def State.levelOf (s : State) (m : MonitorRef) (v : Nat) : Nat :=
  match (s.monitor m).qty with
  | 2 => (((s.die m.die).pav m.idx).ports.map fun e => e.2.fifo.length).sum
  | 7 => (s.die m.die).gate.cache.length
  | _ => v

/-- MONITOR_SAMPLE (R388): a level or latency of the selected quantity is sampled. -/
def execMonitorSample (m : MonitorRef) (v : Nat) (s : State) : Host.Outcome State Fault Refusal :=
  .next (if samplesQty m (s.monitor m).qty then s.modMonitor m (Monitor.sample (s.levelOf m v)) else s)

/-! ### The Grotto (R391) -/

/-- A slot's halt PC, LIDX and state as the dump holds them. -/
def slotDump (t : Option Task) : List Byte :=
  match t with
  | none => List.replicate 24 0
  | some t =>
    leBytes 8 t.pc.toNat ++ leBytes 8 t.lidx.toNat
      ++ leBytes 8 (match t.status with
        | .ready => 1
        | .waiting _ _ => 2
        | .ending => 3
        | .tiling _ _ => 4)

/-- A core's part of the dump: RETREC, then its slots. -/
def coreDump (c : Core) : List Byte :=
  padTo 256 (padTo 64 c.retrec ++ (List.range 4).flatMap fun k => slotDump (Tbl.get Option.none c.tasks k))

/-- n bytes of a window as the dump holds them: zero where nothing is. -/
def State.windowDump (s : State) (o n : Nat) : List Byte := (List.range n).map fun i => (s.windowByte (o + i)).getD 0

/-- A die's section of the dump, without what follows its last field. -/
def State.dieDump (s : State) (d : Nat) : List Byte :=
  let k := s.die d
  padTo 0x1000 (leBytes 8 1 ++ (List.range 11).flatMap fun i => leBytes 8 (k.lodge.read (0x800 + i)).toNat)
    ++ (List.range 256).flatMap (fun i => recordBytes (k.events.get none ((k.lodge.eqhead + i) % 256)))
    ++ padTo 0x1000 (k.stray.flatMap fun c => cellTag c 0 0 false)
    ++ padTo 0x7000 ((List.range 98).flatMap fun c => coreDump (s.core ⟨d, c⟩))
    ++ (List.range 11).flatMap (fun b => s.windowDump (dieBase d + 0xA00000000 + b * 0x10000) 0x1000)
    ++ s.windowDump (dieBase d + 0xB00500000) (120 * 256)

/-- The header of the dump. -/
def State.grottoHeader (s : State) (f : Fatal) : List Byte :=
  leBytes 4 0x31545247 ++ leBytes 2 1 ++ leBytes 2 s.module.toNat ++ leBytes 1 f.cause ++ leBytes 1 f.die
    ++ List.replicate 6 0 ++ leBytes 8 f.cycle.toNat ++ leBytes 8 1

/-- Place of a die's section. -/
def grottoSection (d : Nat) : Nat := grottoBase + 0x1000000 + d * 0x1E00000

/-- Whether a die's lodge has not been halted by a trap on the fatal path (R389 step 5). -/
def State.lodgeRuns (s : State) (d : Nat) : Bool := !(s.task (lodgeTask d)).halted

/-- The firmware writes the header and the section of each die whose lodge runs; the rest of the Grotto is zero (R389,
R391). -/
def State.dumpGrotto (s : State) (f : Fatal) : State :=
  let z := { s with mem := s.mem.clear grottoBase (hbmSize - grottoBase), fatal := some { f with dumped := true } }
  let z := z.storeHbm grottoBase fwKey (s.grottoHeader f)
  (List.range 8).foldl
    (fun z d => if s.lodgeRuns d then z.storeHbm (grottoSection d) fwKey (s.dieDump d) else z) z

/-- The dump, once for a fatal stop. -/
def State.dumpOnce (s : State) : State :=
  match s.fatal with
  | some f => if f.dumped then s else s.dumpGrotto f
  | none => s

/-! ### Fatal causes -/

/-- Whether a cause is of kind X (Table 19.1). -/
def isFatalCause (c : Nat) : Bool := decide (0xE0 ≤ c) && decide (c ≤ 0xE3)

/-- A fatal cause at a running module stops it (R389); once it is stopped the step is its lodges' writing of the dump. -/
def State.stopOrDump (s : State) (die cause : Nat) (info : W64) : State :=
  if s.fatal.isSome then s.dumpOnce else s.fatalStop die cause info

/-- FATAL_STOP (R389): the first fatal cause stops the module; the lodges then dump, but for one that has trapped on the
fatal path before. -/
def execFatalStop (die cause : Nat) (info : BitVec 64) (s : State) : Host.Outcome State Fault Refusal :=
  .next (if isFatalCause cause then s.stopOrDump die cause info else s)

/-- ARRAY_ERROR (R208, R209, R386): an error of a store, by its source (Table 19.4); one that is corrected has source 0 and
is counted in a monitor. -/
def execArrayError (t : TaskRef) (e : ErrorSource) (s : State) : Host.Outcome State Fault Refusal :=
  .next (match e.source with
    | 0 => s.modMonitor (nearMonitor t.die e.place) fun m => { m with ce := m.ce + 1 }
    | 4 => if isLodge t.core then s.stopOrDump t.die 0xE1 (BitVec.ofNat 64 (e.place % 2 ^ 48)) else s.storeError t e.place
    | 5 => s.poison e.place
    | 6 => s.stopOrDump t.die 0xE1 (BitVec.ofNat 64 (e.place % 2 ^ 48))
    | _ => s.arrayError t e.source)

/-- INFO of a trip (Table 19.6). -/
def tripInfo (what die reading : Nat) : W64 := BitVec.ofNat 64 (what + die % 2 ^ 8 * 2 ^ 8 + reading % 2 ^ 16 * 2 ^ 16)

/-- POWER_TRIP (R410): `high` is 0 for an undervoltage, else an overvoltage. -/
def execPowerTrip (die high reading : Nat) (s : State) : Host.Outcome State Fault Refusal :=
  .next (s.stopOrDump die 0xE2 (tripInfo (if high = 0 then 1 else 2) die reading))

/-- JUNCTION_TRIP (R410). -/
def execJunctionTrip (die reading : Nat) (s : State) : Host.Outcome State Fault Refusal :=
  .next (s.stopOrDump die 0xE2 (tripInfo 0 die reading))

/-- PACKAGE_WATCHDOG (R389): a lodge has failed to answer. -/
def execPackageWatchdog (die : Nat) (s : State) : Host.Outcome State Fault Refusal :=
  .next (s.stopOrDump die 0xE3 (BitVec.ofNat 64 (die % 2 ^ 8)))

/-- FATAL (R412): D0 sends the Grotto header, once, when its own section is complete. -/
def execFatalMessage (s : State) : Host.Outcome State Fault Refusal :=
  .next (match s.fatal with
    | none => s
    | some f =>
      if f.dumped && !f.sent && decide (s.mem.byte (grottoSection 0) = 1) then
        { s.reply 0x0F 0 0 (s.mem.bytes grottoBase 32) with fatal := some { f with sent := true } }
      else s)

end Sys2Proof.Machine
end

