-- ==== Sys2Proof/Machine/Lines.lean ====
section
/-!
DEFINITION. The L1 region and the homes (R167 to R170, R234, R244, R334, R405): the steps HOME_LOAD,
HOME_STORE, L1_FILL and L1_WRITEBACK.
-/

namespace Sys2Proof.Machine

/-- A core's request for a line with a right that its home has not answered. -/
def L1Req.open (q : L1Req) (line : Nat) (write : Bool) : Bool :=
  decide (q.line = line) && decide (q.answer = .waiting) && (decide (q.right = .write) == write)

/-- The first open request of a list replaced by an answered one. -/
def answerFirst (line : Nat) (write : Bool) (a : Answer) : List L1Req → List L1Req
  | [] => []
  | q :: t => if q.open line write then { q with answer := a } :: t else q :: answerFirst line write a t

/-- The answer of a home stored with the request. -/
def State.answer (s : State) (c : CoreRef) (line : Nat) (write : Bool) (a : Answer) : State :=
  s.modCore c fun k => { k with l1req := answerFirst line write a k.l1req }

/-- Why a home refuses a request (R234, R405): a stale generation, an absent key, or, for a load, poison
(R334). -/
def State.refusal (s : State) (q : L1Req) : Option Trap :=
  let o := q.line * 128
  let v := s.view q.line
  let p := s.poisonUnder v q.key
  let pa := BitVec.ofNat 64 (s.physical o)
  if q.gen ≠ s.genOf o then some ⟨0x63, q.va⟩
  else if !s.hasKey q.key then some ⟨0x64, pa⟩
  else if p ≠ 0 ∧ q.right ≠ .write then some ⟨p, pa⟩
  else none

/-- The copy that a home hands out once the others have given the line back (R244), held for the squashed bundle that asked
(R167). A line that fails its check under the key of a store is unrelated bytes and poison (R405). -/
def State.copyFor (s : State) (q : L1Req) (rts : W64) : L1Line :=
  let m := s.lineMeta q.line
  let other := decide (m.key ≠ 0) && decide (m.key ≠ q.key)
  { line := q.line, job := q.job, va := q.va, key := q.key, gen := q.gen, right := q.right, wts := m.wts, rts := rts,
    dirty := false, poison := if m.poison ≠ 0 then m.poison else if other then 0xA0 else 0,
    slots := if q.slot = prefSlot then [] else [q.slot],
    data := if other then s.freeBytes 128 else s.mem.bytes (q.line * 128) 128 }

/-- The lease end after a load at a time (R244). -/
def leaseEnd (m : LineMeta) (t : W64) : W64 := tmax m.rts (tmax t m.wts + 4096)

/-- Where the home of a line leaves its lease end at a load: a read right carries a lease (R244); a read-only line carries
none (R170), but no later write may fall below the RoFloor of its task (R252). -/
def grantEnd (q : L1Req) (m : LineMeta) : W64 := if q.right = .ro then tmax m.rts q.roFloor else leaseEnd m q.time

/-- HOME_LOAD: the home serves a load or read right: an owner gives its write right back, and the lease is
extended (R244). A line held for a squashed bundle of another core is waited for (R167). -/
def execHomeLoad (c : CoreRef) (line : Nat) (s : State) : Host.Outcome State Fault Refusal :=
  .next (match (s.core c).l1req.find? fun q => q.open line false with
    | none => s
    | some q =>
      match s.refusal q with
      | some t => s.answer c line false (.refused t)
      | none =>
        if s.homeBusy (line * 128) || s.lineHeld line false (some c) then s
        else
          let s := s.recall line false
          let e := grantEnd q (s.lineMeta line)
          (s.modLine line fun m => { m with rts := e }).answer c line false (.line (s.copyFor q e)))

/-- HOME_STORE: the home grants the write right once every other copy has been given back (R244), which a squashed bundle
of another core delays (R167). -/
def execHomeStore (c : CoreRef) (line : Nat) (s : State) : Host.Outcome State Fault Refusal :=
  .next (match (s.core c).l1req.find? fun q => q.open line true with
    | none => s
    | some q =>
      match s.refusal q with
      | some t => s.answer c line true (.refused t)
      | none =>
        if s.homeBusy (line * 128) || s.lineHeld line true (some c) then s
        else
          let s := s.recall line true
          (s.tookFree 128).answer c line true (.line (s.copyFor q (s.lineMeta line).rts)))

/-- A core with an arrived copy in place of its own of the same kind (R167, R170), held for whom either was. -/
def Core.install (c : Core) (l : L1Line) : Core :=
  let old := c.l1.filter fun x => x.holds l.line l.right
  { c with l1 := { l with slots := l.slots ++ old.flatMap L1Line.slots } :: c.l1.filter fun x => !x.holds l.line l.right }

/-- A line of a core's requests that a home has handed out, held while the bundle that asked still waits (R167). -/
def L1Req.granted (line : Nat) (q : L1Req) : Option L1Line :=
  match q.answer with
  | .line l => if l.line = line then some { l with slots := if q.slot = prefSlot then [] else [q.slot] } else none
  | _ => none

/-- Whether a request is spent when its line arrives: it was granted, or it was a refused hint (R169). -/
def L1Req.spent (line : Nat) (q : L1Req) : Bool :=
  decide (q.line = line) && (match q.answer with
    | .line _ => true
    | .refused _ => decide (q.slot = prefSlot)
    | .waiting => false)

/-- L1_FILL: the lines that homes have handed out for a core's requests arrive, so that the squashed bundle
can replay (R167). -/
def execL1Fill (c : CoreRef) (line : Nat) (s : State) : Host.Outcome State Fault Refusal :=
  .next (s.modCore c fun k =>
    let got := k.l1req.filterMap (L1Req.granted line)
    got.foldl Core.install { k with l1req := k.l1req.filter fun q => !q.spent line })

/-- L1_WRITEBACK: a line leaves the L1 region, written back to its home and checked against the generation
when it is dirty (R234, R244). A line held for a squashed bundle stays (R167). -/
def execL1Writeback (c : CoreRef) (line : Nat) (s : State) : Host.Outcome State Fault Refusal :=
  .next (if (s.core c).keepsLine line then s else s.dropLine c line)

end Sys2Proof.Machine
end

