-- ==== Sys2Proof/Machine/Slots.lean ====
section
/-!
DEFINITION. The meaning of every slot encoding as data of the issue step (R27); a step of another agent is no
slot.
-/

namespace Sys2Proof.Machine

/-- What a slot does; none for the steps of the opcode table that have no encoding. -/
def slotSem (i : Instr) : Option SlotSem :=
  match i with
  | .add g d a b => some (semAdd g d a b)
  | .sub g d a b => some (semSub g d a b)
  | .mul g d a b => some (semMul g d a b)
  | .mulh g d a b => some (semMulh g d a b)
  | .mulhz g d a b => some (semMulhz g d a b)
  | .div g d a b => some (semDiv g d a b)
  | .divz g d a b => some (semDivz g d a b)
  | .rem g d a b => some (semRem g d a b)
  | .remz g d a b => some (semRemz g d a b)
  | .and g d a b => some (semAnd g d a b)
  | .or g d a b => some (semOr g d a b)
  | .xor g d a b => some (semXor g d a b)
  | .andn g d a b => some (semAndn g d a b)
  | .shl g d a b => some (semShl g d a b)
  | .shr g d a b => some (semShr g d a b)
  | .sra g d a b => some (semSra g d a b)
  | .rol g d a b => some (semRol g d a b)
  | .min g d a b => some (semMin g d a b)
  | .max g d a b => some (semMax g d a b)
  | .minz g d a b => some (semMinz g d a b)
  | .maxz g d a b => some (semMaxz g d a b)
  | .clz g d a => some (semClz g d a)
  | .ctz g d a => some (semCtz g d a)
  | .popc g d a => some (semPopc g d a)
  | .bfx g d a b => some (semBfx g d a b)
  | .bfxz g d a b => some (semBfxz g d a b)
  | .bfi g d a b => some (semBfi g d a b)
  | .sel g d a b p => some (semSel g d a b p)
  | .addi g d a imm => some (semAddi g d a imm)
  | .andi g d a imm => some (semAndi g d a imm)
  | .ori g d a imm => some (semOri g d a imm)
  | .xori g d a imm => some (semXori g d a imm)
  | .shli g d a sh => some (semShli g d a sh)
  | .shri g d a sh => some (semShri g d a sh)
  | .srai g d a sh => some (semSrai g d a sh)
  | .movi g d imm => some (semMovi g d imm)
  | .movh g d imm => some (semMovh g d imm)
  | .addsh g d a b sh => some (semAddsh g d a b sh)
  | .cmp g pt pf a b cond => some (semCmp g pt pf a b cond)
  | .cmpi g pt pf a imm cond => some (semCmpi g pt pf a imm cond)
  | .pand g d a b => some (semPand g d a b)
  | .por g d a b => some (semPor g d a b)
  | .pxor g d a b => some (semPxor g d a b)
  | .pnot g d a => some (semPnot g d a)
  | .movsRead g r num => some (semMovsRead g r num)
  | .movsWrite g r num => some (semMovsWrite g r num)
  | .sfadd g d a b rz => some (semSfadd g d a b rz)
  | .sfmul g d a b rz => some (semSfmul g d a b rz)
  | .sffma g d a b rz => some (semSffma g d a b rz)
  | .sfmin g d a b => some (semSfmin g d a b)
  | .sfmax g d a b => some (semSfmax g d a b)
  | .sfcmp g pt pf a b cond => some (semSfcmp g pt pf a b cond)
  | .sfcvt g d a code rz => some (semSfcvt g d a code rz)
  | .prep g tb off => some (semPrep g tb off)
  | .prepr g tb a => some (semPrepr g tb a)
  | .br g tb => some (semBr g tb)
  | .brl g tb d => some (semBrl g tb d)
  | .loop g a rot off => some (semLoop g a rot off)
  | .loopi g count rot off => some (semLoopi g count rot off)
  | .lbrk g => some (semLbrk g)
  | .lpop g => some (semLpop g)
  | .endTask g => some (semEndTask g)
  | .trap g code => some (semTrap g code)
  | .sys g a b code => some (semSys g a b code)
  | .eret g => some (semEret g)
  | .yield g => some (semYield g)
  | .wait g a c => some (semWait g a c)
  | .arrive g c => some (semArrive g c)
  | .prmpt g a c => some (semPrmpt g a c)
  | .resume g a c => some (semResume g a c)
  | .ctxsv g a b c => some (semCtxsv g a b c)
  | .ctxld g a b c => some (semCtxld g a b c)
  | .tlbinv g a b c => some (semTlbinv g a b c)
  | .genbump g a b => some (semGenbump g a b)
  | .l2wb g a b c => some (semL2wb g a b c)
  | .domset g a => some (semDomset g a)
  | .gsw g a c => some (semGsw g a c)
  | .gres g a c => some (semGres g a c)
  | .attest g a b c => some (semAttest g a b c)
  | .keyld g a b c => some (semKeyld g a b c)
  | .npload g a b c => some (semNpload g a b c)
  | .rlinv g a => some (semRlinv g a)
  | .lkey g a b c => some (semLkey g a b c)
  | .csrr g r num => some (semCsrr g r num)
  | .csrw g r num => some (semCsrw g r num)
  | .bgset g a => some (semBgset g a)
  | .ckpt g => some (semCkpt g)
  | .nop g => some (semNop g)
  | .ld g d ag post ty off => some (semLd g d ag post ty off)
  | .ldRo g d ag post ty off => some (semLdRo g d ag post ty off)
  | .st g d ag post ty off => some (semSt g d ag post ty off)
  | .vld g d ag post ty off => some (semVld g d ag post ty off)
  | .vldRo g d ag post ty off => some (semVldRo g d ag post ty off)
  | .vst g d ag post ty off => some (semVst g d ag post ty off)
  | .agset g r ag field => some (semAgset g r ag field)
  | .agstep g ag count => some (semAgstep g ag count)
  | .pref g ag => some (semPref g ag)
  | .clean g ag => some (semClean g ag)
  | .inval g ag => some (semInval g ag)
  | .phase g steps => some (semPhase g steps)
  | .ttdef g r tt => some (semTtdef g r tt)
  | .ttwait g r tt => some (semTtwait g r tt)
  | .ttfree g tt => some (semTtfree g tt)
  | .ttstat g d tt => some (semTtstat g d tt)
  | .fence g sc => some (semFence g sc)
  | .fenceRo g sc => some (semFenceRo g sc)
  | .aadd g d ag sc ix wide => some (semAadd g d ag sc ix wide)
  | .amin g d ag sc ix wide z => some (semAmin g d ag sc ix wide z)
  | .amax g d ag sc ix wide z => some (semAmax g d ag sc ix wide z)
  | .aand g d ag sc ix wide => some (semAand g d ag sc ix wide)
  | .aor g d ag sc ix wide => some (semAor g d ag sc ix wide)
  | .axor g d ag sc ix wide => some (semAxor g d ag sc ix wide)
  | .aswp g d ag sc ix wide => some (semAswp g d ag sc ix wide)
  | .aincb g d ag sc ix wide z => some (semAincb g d ag sc ix wide z)
  | .afadd g d ag ty ord sc => some (semAfadd g d ag ty ord sc)
  | .acas g d ag b sc ix wide => some (semAcas g d ag b sc ix wide)
  | .aordJoin g r => some (semAordJoin g r)
  | .aordClose g r => some (semAordClose g r)
  | .vadd g d a b ty mode => some (semVadd g d a b ty mode)
  | .vsub g d a b ty mode => some (semVsub g d a b ty mode)
  | .vmul g d a b ty mode => some (semVmul g d a b ty mode)
  | .vfma g d a b ty mode => some (semVfma g d a b ty mode)
  | .vfms g d a b ty mode => some (semVfms g d a b ty mode)
  | .vmin g d a b ty => some (semVmin g d a b ty)
  | .vmax g d a b ty => some (semVmax g d a b ty)
  | .vabs g d a ty => some (semVabs g d a ty)
  | .vneg g d a ty => some (semVneg g d a ty)
  | .vnot g d a => some (semVnot g d a)
  | .vadds g d a b ty => some (semVadds g d a b ty)
  | .vsubs g d a b ty => some (semVsubs g d a b ty)
  | .vmulh g d a b ty => some (semVmulh g d a b ty)
  | .vand g d a b => some (semVand g d a b)
  | .vor g d a b => some (semVor g d a b)
  | .vxor g d a b => some (semVxor g d a b)
  | .vshl g d a b ty => some (semVshl g d a b ty)
  | .vshr g d a b ty => some (semVshr g d a b ty)
  | .vsra g d a b ty => some (semVsra g d a b ty)
  | .vcmp g ch d a b ty cl => some (semVcmp g ch d a b ty cl)
  | .vsel g d a b q => some (semVsel g d a b q)
  | .vmov g d a => some (semVmov g d a)
  | .vsplat g d a ty => some (semVsplat g d a ty)
  | .viotaRow g d => some (semViotaRow g d)
  | .viotaCol g d => some (semViotaCol g d)
  | .viotaLin g d => some (semViotaLin g d)
  | .vbrow g d a n => some (semVbrow g d a n)
  | .vbcol g d a n => some (semVbcol g d a n)
  | .vrotr g d a n => some (semVrotr g d a n)
  | .vrotc g d a n => some (semVrotc g d a n)
  | .vredr g d a op rz ty ord => some (semVredr g d a op rz ty ord)
  | .vredc g d a op rz ty ord => some (semVredc g d a op rz ty ord)
  | .vscanr g d a op rz ty ord => some (semVscanr g d a op rz ty ord)
  | .vscanc g d a op rz ty ord => some (semVscanc g d a op rz ty ord)
  | .vxp g d a => some (semVxp g d a)
  | .vpermRow g d a b => some (semVpermRow g d a b)
  | .vpermCol g d a b => some (semVpermCol g d a b)
  | .vext g d a b => some (semVext g d a b)
  | .vins g d a b => some (semVins g d a b)
  | .qand g d a b => some (semQand g d a b)
  | .qor g d a b => some (semQor g d a b)
  | .qxor g d a b => some (semQxor g d a b)
  | .qnot g d a => some (semQnot g d a)
  | .qcnt g d a => some (semQcnt g d a)
  | .fexp2 g d a mode => some (semFexp2 g d a mode)
  | .fexp g d a mode => some (semFexp g d a mode)
  | .flog2 g d a mode => some (semFlog2 g d a mode)
  | .frcp g d a mode => some (semFrcp g d a mode)
  | .frsq g d a mode => some (semFrsq g d a mode)
  | .fsqrt g d a mode => some (semFsqrt g d a mode)
  | .fdiv g d a b mode => some (semFdiv g d a b mode)
  | .ftanh g d a mode => some (semFtanh g d a mode)
  | .fsigm g d a mode => some (semFsigm g d a mode)
  | .fsin g d a mode => some (semFsin g d a mode)
  | .fcos g d a mode => some (semFcos g d a mode)
  | .cvt g d a src dst rm => some (semCvt g d a src dst rm)
  | .qnt4 g d a b rm => some (semQnt4 g d a b rm)
  | .dqnt4 g d a b => some (semDqnt4 g d a b)
  | .rngseed g a b => some (semRngseed g a b)
  | .rngskip g a => some (semRngskip g a)
  | .edsc g r e field => some (semEdsc g r e field)
  | .cpy g tok e => some (semCpy g tok e)
  | .gth g tok e => some (semGth g tok e)
  | .sct g tok e => some (semSct g tok e)
  | .kwait g tok => some (semKwait g tok)
  | .ktest g tok pd => some (semKtest g tok pd)
  | .krel g tok => some (semKrel g tok)
  | .mstrm g tok e tile => some (semMstrm g tok e tile)
  | .mzero g idx => some (semMzero g idx)
  | .mcfg g r idx => some (semMcfg g r idx)
  | .msplit g idx => some (semMsplit g idx)
  | .mskip g idx => some (semMskip g idx)
  | .mclaim g d idx => some (semMclaim g d idx)
  | .mrel g idx => some (semMrel g idx)
  | .mlatch g r idx => some (semMlatch g r idx)
  | .mrd g v tile part => some (semMrd g v tile part)
  | .mwr g v tile part => some (semMwr g v tile part)
  | .mout g tok e tile => some (semMout g tok e tile)
  | .tmm g tok e ord rz => some (semTmm g tok e ord rz)
  | .tew g tok e rz => some (semTew g tok e rz)
  | .tred g tok e ord rz => some (semTred g tok e ord rz)
  | .tscan g tok e ord rz => some (semTscan g tok e ord rz)
  | .txp g tok e => some (semTxp g tok e)
  | .tcvt g tok e rz => some (semTcvt g tok e rz)
  | .tcpy g tok e => some (semTcpy g tok e)
  | .tbc g tok e => some (semTbc g tok e)
  | .tlnch g tok e => some (semTlnch g tok e)
  | .twait g tok d => some (semTwait g tok d)
  | .tstat g tok d => some (semTstat g tok d)
  | .tabort g tok d => some (semTabort g tok d)
  | .fbind g x q => some (semFbind g x q)
  | .fsend g x f => some (semFsend g x f)
  | .fput g x f => some (semFput g x f)
  | .fdrain g x q => some (semFdrain g x q)
  | .fstat g x q => some (semFstat g x q)
  | .ftake g x f => some (semFtake g x f)
  | .mcst g tok e => some (semMcst g tok e)
  | .coll g tok e ord rz => some (semColl g tok e ord rz)
  | .issueTick _ => none
  | .eventEntry _ => none
  | .fUnitFree _ => none
  | .phaseDrainDone _ => none
  | .phaseBarClose _ => none
  | .l1Fill _ _ => none
  | .l1Writeback _ _ => none
  | .homeLoad _ _ => none
  | .homeStore _ _ => none
  | .atomicExecute _ => none
  | .orderedRelease _ => none
  | .atomicReply _ => none
  | .copyStart _ _ => none
  | .copyCellWrite _ _ => none
  | .copyComplete _ _ => none
  | .streamStart _ _ => none
  | .streamComplete _ _ => none
  | .moutComplete _ _ => none
  | .arrayError _ _ => none
  | .rerunDone _ => none
  | .regionUnprotected _ => none
  | .slotRelease _ => none
  | .dispatchGroup _ => none
  | .claim _ => none
  | .stealRequest _ => none
  | .taskHalt _ => none
  | .tileStart _ _ => none
  | .unitComplete _ _ _ => none
  | .tileFold _ _ _ => none
  | .childLost _ _ _ => none
  | .tileComplete _ _ => none
  | .launchComplete _ => none
  | .mcstStart _ _ => none
  | .mcstComplete _ _ => none
  | .cellArrival _ => none
  | .slotSend _ => none
  | .linkCellReceive _ _ => none
  | .linkAck _ _ => none
  | .replayRequest _ _ => none
  | .linkSignalLoss _ => none
  | .retrainTimeout _ => none
  | .moduleLoss _ => none
  | .ringRefusal _ _ => none
  | .nack _ _ => none
  | .nackResend _ => none
  | .keyMarker _ _ => none
  | .keyRefusal _ => none
  | .remoteRequest _ _ => none
  | .reply _ _ => none
  | .retransmit _ => none
  | .remoteTimeout _ => none
  | .replyCacheExpire _ _ => none
  | .sequenceSkip _ _ => none
  | .collArrive _ _ => none
  | .collComplete _ _ _ => none
  | .collFault _ _ _ _ => none
  | .tlbinvAck _ => none
  | .genbumpDone _ => none
  | .l2wbDone _ => none
  | .domsetDone _ => none
  | .nploadDone _ => none
  | .attestServe => none
  | .gswCommand _ => none
  | .gangStop => none
  | .gangStopTimeout => none
  | .gangMarker _ _ _ => none
  | .lateCell _ _ => none
  | .kill _ _ => none
  | .mselWrite _ _ => none
  | .monitorSample _ _ => none
  | .ghcfgLock _ _ => none
  | .registerWrite _ _ _ => none
  | .hostFrame _ => none
  | .hostLaunch _ => none
  | .hostLoad _ => none
  | .hostWrite _ _ _ => none
  | .hostRead _ _ _ => none
  | .hostKey _ _ => none
  | .hostAttest _ => none
  | .hostJobEnd _ => none
  | .hostGrotto => none
  | .hostConfig _ => none
  | .moduleReset _ => none
  | .powerTrip _ _ _ => none
  | .junctionTrip _ _ => none
  | .packageWatchdog _ => none
  | .fatalStop _ _ _ => none
  | .fatalMessage => none
  | .linkTrained _ => none
  | .powerLoss => none

end Sys2Proof.Machine
end

