-- ==== Sys2Proof/Machine/Tick.lean ====
section
/-!
DEFINITION. The issue tick of a core (R271, R123, R151, R384, R208): which task's bundle issues, and the steps
ISSUE_TICK, EVENT_ENTRY, F_UNIT_FREE, PHASE_DRAIN_DONE and PHASE_BAR_CLOSE.
-/

namespace Sys2Proof.Machine

/-! ### One bundle -/

/-- A slot that decodes to no instruction, or to none with an encoding: an illegal instruction (R33). -/
def SlotSem.bad : SlotSem := { guard := Guard.always, illegal := fun _ => true, eff := fun _ s => s }

/-- The system-operand trap of a GSW or GRES with a nonzero b field (R380), where any other such field is an illegal
instruction (R33). -/
def SlotSem.switchB (w : W32) : SlotSem :=
  { guard := guardOf w.toNat, place := .lodge, trap := fun k _ => sysTrap true k, eff := fun _ s => s }

/-- The meaning of a slot word. -/
def wordSem (w : W32) : SlotSem :=
  match decodeSlot w with
  | .ok x => (slotSem x.instr).getD SlotSem.bad
  | .error _ => if namesSwitchB w then SlotSem.switchB w else SlotSem.bad

/-- V slots a core may hold in one bundle (R16, Table 2.3). -/
def vLimit (core : Nat) : Nat := if isCompute core then 3 else 1

/-- The bundle-format trap of a slot (R32). -/
def formatTrap (s : State) (i : Nat) : Attempt := .trapped (s.takeTrap s.cur ⟨0x01, BitVec.ofNat 64 i⟩)

/-- The issue point of the issuing task's next bundle, in the order of R35. -/
def issueBundle (s : State) : Attempt :=
  let t := s.me
  if s.spent s.cur then .trapped (s.takeTrap s.cur ⟨0x08, 0⟩)
  else if t.codeLen ≤ t.pc.toNat then .trapped (s.takeTrap s.cur ⟨0x04, t.pc.setWidth 64⟩)
  else
    let words := s.codeWords t t.pc.toNat
    match bundleWords words 0 with
    | none => formatTrap s (stopIndex words)
    | some ws =>
      match firstOffender (vLimit s.cur.core) (decide (t.delay ≠ 0)) Tally.zero 0 ws with
      | some i => formatTrap s i
      | none => issueSems ((List.range ws.length).zip (ws.map wordSem)) (unitsOf ws.length) s

/-! ### The choice of a task -/

/-- Whether a task is in its core's ready set (R271). -/
def Task.isReady (t : Task) : Bool := !t.halted && decide (t.status = .ready)

/-- Slots of a core in cyclic order from one on (R271). -/
def cyclicSlots (core from' : Nat) : List Nat :=
  if isCompute core then (List.range 4).map fun i => (from' + i) % 4 else [0]

/-- The slots of a core that may issue now, in the order of R271: the current task first, or last after a
YIELD; while a region runs again, its task alone (R208). -/
def Core.candidates (core : Nat) (c : Core) : List Nat :=
  let ready := fun n => match c.tasks.get none n with
    | some t => t.isReady
    | none => false
  let l := match c.rerun with
    | some x => if x.run = 0 ∨ x.left = 0 then [] else [x.slot]
    | none =>
      let l := cyclicSlots core c.current
      if c.yielded then l.drop 1 ++ l.take 1 else l
  l.filter ready

/-- A slot of a core taken as the issuing task: the current task, with no YIELD pending. -/
def State.focus (s : State) (c : CoreRef) (slot : Nat) : State :=
  { s with cur := ⟨c.die, c.core, slot⟩ }.modCore c fun k => { k with current := slot, yielded := false }

/-- The state after a task of a core has not issued: the core's current task and a pending YIELD stand as they were. -/
def State.unfocus (s0 : State) (c : CoreRef) (s : State) : State :=
  { s with cur := s0.cur }.modCore c fun k => { k with current := (s0.core c).current, yielded := (s0.core c).yielded }

/-- The candidates tried in order until one's bundle issues. One that traps has taken its trap; one that
stalls has sent what it waits for (R45, R167). -/
def State.tryIssue (c : CoreRef) : List Nat → State → Attempt
  | [], s => .held s
  | n :: rest, s =>
    match issueBundle (s.focus c n) with
    | .issued s' => .issued s'
    | a => State.tryIssue c rest (s.unfocus c a.state)

/-- The tick of a core over its candidates: the one whose bundle issues is current from then on (R271). -/
def State.tickOver (s : State) (c : CoreRef) (l : List Nat) : State := (State.tryIssue c l s).state

/-- A tick of the F unit (R151). -/
def Core.fTick (c : Core) : Core := { c with fBusy := c.fBusy - 1 }

/-- Operations of a core's tasks that have nothing left to wait for complete (R249, R285). -/
def State.serveCore (s : State) (c : CoreRef) : State :=
  (cyclicSlots c.core 0).foldl
    (fun s n =>
      let r : TaskRef := ⟨c.die, c.core, n⟩
      State.serveAll r (s.task r).holds.length s) s

/-- What precedes the issue of a tick. -/
def State.beforeIssue (s : State) (c : CoreRef) : State := (s.modCore c Core.fTick).serveCore c

/-- Whether a lodge core takes an event entry at its next boundary (R384). -/
def State.eventDue (s : State) (die : Nat) : Bool :=
  let l := (s.die die).lodge
  let r : TaskRef := ⟨die, 96, 0⟩
  decide (l.eqtail ≠ l.eqhead) && decide (l.emask = 2) && (s.task? r).isSome && decide ((s.task r).status ≠ .ending)

/-- ISSUE_TICK (R271): one tick of a core. A lodge core with an event due enters its handler instead. -/
def execIssueTick (c : CoreRef) (s : State) : Host.Outcome State Fault Refusal :=
  .next (
    let s := s.beforeIssue c
    if isLodge c.core && s.eventDue c.die then s.lodgeEntry ⟨c.die, 96, 0⟩ 0 0
    else s.tickOver c ((s.core c).candidates c.core))

/-- EVENT_ENTRY (R384): the lodge core enters its handler with ECAUSE 0. -/
def execEventEntry (die : Nat) (s : State) : Host.Outcome State Fault Refusal :=
  .next (if s.eventDue die then s.lodgeEntry ⟨die, 96, 0⟩ 0 0 else s)

/-- F_UNIT_FREE (R151): the occupancy of the F unit ends with its last tick. -/
def execFUnitFree (c : CoreRef) (s : State) : Host.Outcome State Fault Refusal :=
  .next (s.modCore c fun k => if k.fBusy ≤ 1 then { k with fBusy := 0 } else k)

/-- PHASE_DRAIN_DONE (R173): the drain ends; a gained range is zero. -/
def execPhaseDrainDone (t : TaskRef) (s : State) : Host.Outcome State Fault Refusal := .next (s.drain t)

/-- PHASE_BAR_CLOSE (R174): a bar whose bundles have all issued is closed. -/
def execPhaseBarClose (t : TaskRef) (s : State) : Host.Outcome State Fault Refusal :=
  .next (if (s.task t).barLeft = 0 ∧ (s.task t).moveLen ≠ 0 then (s.drain t).modTask t fun x => { x with moveLen := 0, moveFirst := 0 } else s)

end Sys2Proof.Machine
end

