-- ==== Sys2Proof/Machine/Dispatch.lean ====
section
/-!
DEFINITION. One arm per instruction: the direct call of its meaning.
-/

namespace Sys2Proof.Machine

/-- The meaning of every row of the opcode table. -/
def exec (i : Instr) (s : State) : Host.Outcome State Fault Refusal :=
  match i with
  | .add g d a b => Sys2Proof.Machine.execAdd g d a b s
  | .sub g d a b => Sys2Proof.Machine.execSub g d a b s
  | .mul g d a b => Sys2Proof.Machine.execMul g d a b s
  | .mulh g d a b => Sys2Proof.Machine.execMulh g d a b s
  | .mulhz g d a b => Sys2Proof.Machine.execMulhz g d a b s
  | .div g d a b => Sys2Proof.Machine.execDiv g d a b s
  | .divz g d a b => Sys2Proof.Machine.execDivz g d a b s
  | .rem g d a b => Sys2Proof.Machine.execRem g d a b s
  | .remz g d a b => Sys2Proof.Machine.execRemz g d a b s
  | .and g d a b => Sys2Proof.Machine.execAnd g d a b s
  | .or g d a b => Sys2Proof.Machine.execOr g d a b s
  | .xor g d a b => Sys2Proof.Machine.execXor g d a b s
  | .andn g d a b => Sys2Proof.Machine.execAndn g d a b s
  | .shl g d a b => Sys2Proof.Machine.execShl g d a b s
  | .shr g d a b => Sys2Proof.Machine.execShr g d a b s
  | .sra g d a b => Sys2Proof.Machine.execSra g d a b s
  | .rol g d a b => Sys2Proof.Machine.execRol g d a b s
  | .min g d a b => Sys2Proof.Machine.execMin g d a b s
  | .max g d a b => Sys2Proof.Machine.execMax g d a b s
  | .minz g d a b => Sys2Proof.Machine.execMinz g d a b s
  | .maxz g d a b => Sys2Proof.Machine.execMaxz g d a b s
  | .clz g d a => Sys2Proof.Machine.execClz g d a s
  | .ctz g d a => Sys2Proof.Machine.execCtz g d a s
  | .popc g d a => Sys2Proof.Machine.execPopc g d a s
  | .bfx g d a b => Sys2Proof.Machine.execBfx g d a b s
  | .bfxz g d a b => Sys2Proof.Machine.execBfxz g d a b s
  | .bfi g d a b => Sys2Proof.Machine.execBfi g d a b s
  | .sel g d a b p => Sys2Proof.Machine.execSel g d a b p s
  | .addi g d a imm => Sys2Proof.Machine.execAddi g d a imm s
  | .andi g d a imm => Sys2Proof.Machine.execAndi g d a imm s
  | .ori g d a imm => Sys2Proof.Machine.execOri g d a imm s
  | .xori g d a imm => Sys2Proof.Machine.execXori g d a imm s
  | .shli g d a sh => Sys2Proof.Machine.execShli g d a sh s
  | .shri g d a sh => Sys2Proof.Machine.execShri g d a sh s
  | .srai g d a sh => Sys2Proof.Machine.execSrai g d a sh s
  | .movi g d imm => Sys2Proof.Machine.execMovi g d imm s
  | .movh g d imm => Sys2Proof.Machine.execMovh g d imm s
  | .addsh g d a b sh => Sys2Proof.Machine.execAddsh g d a b sh s
  | .cmp g pt pf a b cond => Sys2Proof.Machine.execCmp g pt pf a b cond s
  | .cmpi g pt pf a imm cond => Sys2Proof.Machine.execCmpi g pt pf a imm cond s
  | .pand g d a b => Sys2Proof.Machine.execPand g d a b s
  | .por g d a b => Sys2Proof.Machine.execPor g d a b s
  | .pxor g d a b => Sys2Proof.Machine.execPxor g d a b s
  | .pnot g d a => Sys2Proof.Machine.execPnot g d a s
  | .movsRead g r num => Sys2Proof.Machine.execMovsRead g r num s
  | .movsWrite g r num => Sys2Proof.Machine.execMovsWrite g r num s
  | .sfadd g d a b rz => Sys2Proof.Machine.execSfadd g d a b rz s
  | .sfmul g d a b rz => Sys2Proof.Machine.execSfmul g d a b rz s
  | .sffma g d a b rz => Sys2Proof.Machine.execSffma g d a b rz s
  | .sfmin g d a b => Sys2Proof.Machine.execSfmin g d a b s
  | .sfmax g d a b => Sys2Proof.Machine.execSfmax g d a b s
  | .sfcmp g pt pf a b cond => Sys2Proof.Machine.execSfcmp g pt pf a b cond s
  | .sfcvt g d a code rz => Sys2Proof.Machine.execSfcvt g d a code rz s
  | .prep g tb off => Sys2Proof.Machine.execPrep g tb off s
  | .prepr g tb a => Sys2Proof.Machine.execPrepr g tb a s
  | .br g tb => Sys2Proof.Machine.execBr g tb s
  | .brl g tb d => Sys2Proof.Machine.execBrl g tb d s
  | .loop g a rot off => Sys2Proof.Machine.execLoop g a rot off s
  | .loopi g count rot off => Sys2Proof.Machine.execLoopi g count rot off s
  | .lbrk g => Sys2Proof.Machine.execLbrk g s
  | .lpop g => Sys2Proof.Machine.execLpop g s
  | .endTask g => Sys2Proof.Machine.execEndTask g s
  | .trap g code => Sys2Proof.Machine.execTrap g code s
  | .sys g a b code => Sys2Proof.Machine.execSys g a b code s
  | .eret g => Sys2Proof.Machine.execEret g s
  | .yield g => Sys2Proof.Machine.execYield g s
  | .wait g a c => Sys2Proof.Machine.execWait g a c s
  | .arrive g c => Sys2Proof.Machine.execArrive g c s
  | .prmpt g a c => Sys2Proof.Machine.execPrmpt g a c s
  | .resume g a c => Sys2Proof.Machine.execResume g a c s
  | .ctxsv g a b c => Sys2Proof.Machine.execCtxsv g a b c s
  | .ctxld g a b c => Sys2Proof.Machine.execCtxld g a b c s
  | .tlbinv g a b c => Sys2Proof.Machine.execTlbinv g a b c s
  | .genbump g a b => Sys2Proof.Machine.execGenbump g a b s
  | .l2wb g a b c => Sys2Proof.Machine.execL2wb g a b c s
  | .domset g a => Sys2Proof.Machine.execDomset g a s
  | .gsw g a c => Sys2Proof.Machine.execGsw g a c s
  | .gres g a c => Sys2Proof.Machine.execGres g a c s
  | .attest g a b c => Sys2Proof.Machine.execAttest g a b c s
  | .keyld g a b c => Sys2Proof.Machine.execKeyld g a b c s
  | .npload g a b c => Sys2Proof.Machine.execNpload g a b c s
  | .rlinv g a => Sys2Proof.Machine.execRlinv g a s
  | .lkey g a b c => Sys2Proof.Machine.execLkey g a b c s
  | .csrr g r num => Sys2Proof.Machine.execCsrr g r num s
  | .csrw g r num => Sys2Proof.Machine.execCsrw g r num s
  | .bgset g a => Sys2Proof.Machine.execBgset g a s
  | .ckpt g => Sys2Proof.Machine.execCkpt g s
  | .nop g => Sys2Proof.Machine.execNop g s
  | .ld g d ag post ty off => Sys2Proof.Machine.execLd g d ag post ty off s
  | .ldRo g d ag post ty off => Sys2Proof.Machine.execLdRo g d ag post ty off s
  | .st g d ag post ty off => Sys2Proof.Machine.execSt g d ag post ty off s
  | .vld g d ag post ty off => Sys2Proof.Machine.execVld g d ag post ty off s
  | .vldRo g d ag post ty off => Sys2Proof.Machine.execVldRo g d ag post ty off s
  | .vst g d ag post ty off => Sys2Proof.Machine.execVst g d ag post ty off s
  | .agset g r ag field => Sys2Proof.Machine.execAgset g r ag field s
  | .agstep g ag count => Sys2Proof.Machine.execAgstep g ag count s
  | .pref g ag => Sys2Proof.Machine.execPref g ag s
  | .clean g ag => Sys2Proof.Machine.execClean g ag s
  | .inval g ag => Sys2Proof.Machine.execInval g ag s
  | .phase g steps => Sys2Proof.Machine.execPhase g steps s
  | .ttdef g r tt => Sys2Proof.Machine.execTtdef g r tt s
  | .ttwait g r tt => Sys2Proof.Machine.execTtwait g r tt s
  | .ttfree g tt => Sys2Proof.Machine.execTtfree g tt s
  | .ttstat g d tt => Sys2Proof.Machine.execTtstat g d tt s
  | .fence g sc => Sys2Proof.Machine.execFence g sc s
  | .fenceRo g sc => Sys2Proof.Machine.execFenceRo g sc s
  | .aadd g d ag sc ix wide => Sys2Proof.Machine.execAadd g d ag sc ix wide s
  | .amin g d ag sc ix wide z => Sys2Proof.Machine.execAmin g d ag sc ix wide z s
  | .amax g d ag sc ix wide z => Sys2Proof.Machine.execAmax g d ag sc ix wide z s
  | .aand g d ag sc ix wide => Sys2Proof.Machine.execAand g d ag sc ix wide s
  | .aor g d ag sc ix wide => Sys2Proof.Machine.execAor g d ag sc ix wide s
  | .axor g d ag sc ix wide => Sys2Proof.Machine.execAxor g d ag sc ix wide s
  | .aswp g d ag sc ix wide => Sys2Proof.Machine.execAswp g d ag sc ix wide s
  | .aincb g d ag sc ix wide z => Sys2Proof.Machine.execAincb g d ag sc ix wide z s
  | .afadd g d ag ty ord sc => Sys2Proof.Machine.execAfadd g d ag ty ord sc s
  | .acas g d ag b sc ix wide => Sys2Proof.Machine.execAcas g d ag b sc ix wide s
  | .aordJoin g r => Sys2Proof.Machine.execAordJoin g r s
  | .aordClose g r => Sys2Proof.Machine.execAordClose g r s
  | .vadd g d a b ty mode => Sys2Proof.Machine.execVadd g d a b ty mode s
  | .vsub g d a b ty mode => Sys2Proof.Machine.execVsub g d a b ty mode s
  | .vmul g d a b ty mode => Sys2Proof.Machine.execVmul g d a b ty mode s
  | .vfma g d a b ty mode => Sys2Proof.Machine.execVfma g d a b ty mode s
  | .vfms g d a b ty mode => Sys2Proof.Machine.execVfms g d a b ty mode s
  | .vmin g d a b ty => Sys2Proof.Machine.execVmin g d a b ty s
  | .vmax g d a b ty => Sys2Proof.Machine.execVmax g d a b ty s
  | .vabs g d a ty => Sys2Proof.Machine.execVabs g d a ty s
  | .vneg g d a ty => Sys2Proof.Machine.execVneg g d a ty s
  | .vnot g d a => Sys2Proof.Machine.execVnot g d a s
  | .vadds g d a b ty => Sys2Proof.Machine.execVadds g d a b ty s
  | .vsubs g d a b ty => Sys2Proof.Machine.execVsubs g d a b ty s
  | .vmulh g d a b ty => Sys2Proof.Machine.execVmulh g d a b ty s
  | .vand g d a b => Sys2Proof.Machine.execVand g d a b s
  | .vor g d a b => Sys2Proof.Machine.execVor g d a b s
  | .vxor g d a b => Sys2Proof.Machine.execVxor g d a b s
  | .vshl g d a b ty => Sys2Proof.Machine.execVshl g d a b ty s
  | .vshr g d a b ty => Sys2Proof.Machine.execVshr g d a b ty s
  | .vsra g d a b ty => Sys2Proof.Machine.execVsra g d a b ty s
  | .vcmp g ch d a b ty cl => Sys2Proof.Machine.execVcmp g ch d a b ty cl s
  | .vsel g d a b q => Sys2Proof.Machine.execVsel g d a b q s
  | .vmov g d a => Sys2Proof.Machine.execVmov g d a s
  | .vsplat g d a ty => Sys2Proof.Machine.execVsplat g d a ty s
  | .viotaRow g d => Sys2Proof.Machine.execViotaRow g d s
  | .viotaCol g d => Sys2Proof.Machine.execViotaCol g d s
  | .viotaLin g d => Sys2Proof.Machine.execViotaLin g d s
  | .vbrow g d a n => Sys2Proof.Machine.execVbrow g d a n s
  | .vbcol g d a n => Sys2Proof.Machine.execVbcol g d a n s
  | .vrotr g d a n => Sys2Proof.Machine.execVrotr g d a n s
  | .vrotc g d a n => Sys2Proof.Machine.execVrotc g d a n s
  | .vredr g d a op rz ty ord => Sys2Proof.Machine.execVredr g d a op rz ty ord s
  | .vredc g d a op rz ty ord => Sys2Proof.Machine.execVredc g d a op rz ty ord s
  | .vscanr g d a op rz ty ord => Sys2Proof.Machine.execVscanr g d a op rz ty ord s
  | .vscanc g d a op rz ty ord => Sys2Proof.Machine.execVscanc g d a op rz ty ord s
  | .vxp g d a => Sys2Proof.Machine.execVxp g d a s
  | .vpermRow g d a b => Sys2Proof.Machine.execVpermRow g d a b s
  | .vpermCol g d a b => Sys2Proof.Machine.execVpermCol g d a b s
  | .vext g d a b => Sys2Proof.Machine.execVext g d a b s
  | .vins g d a b => Sys2Proof.Machine.execVins g d a b s
  | .qand g d a b => Sys2Proof.Machine.execQand g d a b s
  | .qor g d a b => Sys2Proof.Machine.execQor g d a b s
  | .qxor g d a b => Sys2Proof.Machine.execQxor g d a b s
  | .qnot g d a => Sys2Proof.Machine.execQnot g d a s
  | .qcnt g d a => Sys2Proof.Machine.execQcnt g d a s
  | .fexp2 g d a mode => Sys2Proof.Machine.execFexp2 g d a mode s
  | .fexp g d a mode => Sys2Proof.Machine.execFexp g d a mode s
  | .flog2 g d a mode => Sys2Proof.Machine.execFlog2 g d a mode s
  | .frcp g d a mode => Sys2Proof.Machine.execFrcp g d a mode s
  | .frsq g d a mode => Sys2Proof.Machine.execFrsq g d a mode s
  | .fsqrt g d a mode => Sys2Proof.Machine.execFsqrt g d a mode s
  | .fdiv g d a b mode => Sys2Proof.Machine.execFdiv g d a b mode s
  | .ftanh g d a mode => Sys2Proof.Machine.execFtanh g d a mode s
  | .fsigm g d a mode => Sys2Proof.Machine.execFsigm g d a mode s
  | .fsin g d a mode => Sys2Proof.Machine.execFsin g d a mode s
  | .fcos g d a mode => Sys2Proof.Machine.execFcos g d a mode s
  | .cvt g d a src dst rm => Sys2Proof.Machine.execCvt g d a src dst rm s
  | .qnt4 g d a b rm => Sys2Proof.Machine.execQnt4 g d a b rm s
  | .dqnt4 g d a b => Sys2Proof.Machine.execDqnt4 g d a b s
  | .rngseed g a b => Sys2Proof.Machine.execRngseed g a b s
  | .rngskip g a => Sys2Proof.Machine.execRngskip g a s
  | .edsc g r e field => Sys2Proof.Machine.execEdsc g r e field s
  | .cpy g tok e => Sys2Proof.Machine.execCpy g tok e s
  | .gth g tok e => Sys2Proof.Machine.execGth g tok e s
  | .sct g tok e => Sys2Proof.Machine.execSct g tok e s
  | .kwait g tok => Sys2Proof.Machine.execKwait g tok s
  | .ktest g tok pd => Sys2Proof.Machine.execKtest g tok pd s
  | .krel g tok => Sys2Proof.Machine.execKrel g tok s
  | .mstrm g tok e tile => Sys2Proof.Machine.execMstrm g tok e tile s
  | .mzero g idx => Sys2Proof.Machine.execMzero g idx s
  | .mcfg g r idx => Sys2Proof.Machine.execMcfg g r idx s
  | .msplit g idx => Sys2Proof.Machine.execMsplit g idx s
  | .mskip g idx => Sys2Proof.Machine.execMskip g idx s
  | .mclaim g d idx => Sys2Proof.Machine.execMclaim g d idx s
  | .mrel g idx => Sys2Proof.Machine.execMrel g idx s
  | .mlatch g r idx => Sys2Proof.Machine.execMlatch g r idx s
  | .mrd g v tile part => Sys2Proof.Machine.execMrd g v tile part s
  | .mwr g v tile part => Sys2Proof.Machine.execMwr g v tile part s
  | .mout g tok e tile => Sys2Proof.Machine.execMout g tok e tile s
  | .tmm g tok e ord rz => Sys2Proof.Machine.execTmm g tok e ord rz s
  | .tew g tok e rz => Sys2Proof.Machine.execTew g tok e rz s
  | .tred g tok e ord rz => Sys2Proof.Machine.execTred g tok e ord rz s
  | .tscan g tok e ord rz => Sys2Proof.Machine.execTscan g tok e ord rz s
  | .txp g tok e => Sys2Proof.Machine.execTxp g tok e s
  | .tcvt g tok e rz => Sys2Proof.Machine.execTcvt g tok e rz s
  | .tcpy g tok e => Sys2Proof.Machine.execTcpy g tok e s
  | .tbc g tok e => Sys2Proof.Machine.execTbc g tok e s
  | .tlnch g tok e => Sys2Proof.Machine.execTlnch g tok e s
  | .twait g tok d => Sys2Proof.Machine.execTwait g tok d s
  | .tstat g tok d => Sys2Proof.Machine.execTstat g tok d s
  | .tabort g tok d => Sys2Proof.Machine.execTabort g tok d s
  | .fbind g x q => Sys2Proof.Machine.execFbind g x q s
  | .fsend g x f => Sys2Proof.Machine.execFsend g x f s
  | .fput g x f => Sys2Proof.Machine.execFput g x f s
  | .fdrain g x q => Sys2Proof.Machine.execFdrain g x q s
  | .fstat g x q => Sys2Proof.Machine.execFstat g x q s
  | .ftake g x f => Sys2Proof.Machine.execFtake g x f s
  | .mcst g tok e => Sys2Proof.Machine.execMcst g tok e s
  | .coll g tok e ord rz => Sys2Proof.Machine.execColl g tok e ord rz s
  | .issueTick c => Sys2Proof.Machine.execIssueTick c s
  | .eventEntry die => Sys2Proof.Machine.execEventEntry die s
  | .fUnitFree c => Sys2Proof.Machine.execFUnitFree c s
  | .phaseDrainDone t => Sys2Proof.Machine.execPhaseDrainDone t s
  | .phaseBarClose t => Sys2Proof.Machine.execPhaseBarClose t s
  | .l1Fill c line => Sys2Proof.Machine.execL1Fill c line s
  | .l1Writeback c line => Sys2Proof.Machine.execL1Writeback c line s
  | .homeLoad c line => Sys2Proof.Machine.execHomeLoad c line s
  | .homeStore c line => Sys2Proof.Machine.execHomeStore c line s
  | .atomicExecute t => Sys2Proof.Machine.execAtomicExecute t s
  | .orderedRelease t => Sys2Proof.Machine.execOrderedRelease t s
  | .atomicReply t => Sys2Proof.Machine.execAtomicReply t s
  | .copyStart c tok => Sys2Proof.Machine.execCopyStart c tok s
  | .copyCellWrite c tok => Sys2Proof.Machine.execCopyCellWrite c tok s
  | .copyComplete c tok => Sys2Proof.Machine.execCopyComplete c tok s
  | .streamStart c tok => Sys2Proof.Machine.execStreamStart c tok s
  | .streamComplete c tok => Sys2Proof.Machine.execStreamComplete c tok s
  | .moutComplete c tok => Sys2Proof.Machine.execMoutComplete c tok s
  | .arrayError t source => Sys2Proof.Machine.execArrayError t source s
  | .rerunDone c => Sys2Proof.Machine.execRerunDone c s
  | .regionUnprotected t => Sys2Proof.Machine.execRegionUnprotected t s
  | .slotRelease t => Sys2Proof.Machine.execSlotRelease t s
  | .dispatchGroup launch => Sys2Proof.Machine.execDispatchGroup launch s
  | .claim t => Sys2Proof.Machine.execClaim t s
  | .stealRequest t => Sys2Proof.Machine.execStealRequest t s
  | .taskHalt t => Sys2Proof.Machine.execTaskHalt t s
  | .tileStart c tok => Sys2Proof.Machine.execTileStart c tok s
  | .unitComplete c tok unit => Sys2Proof.Machine.execUnitComplete c tok unit s
  | .tileFold c tok tile => Sys2Proof.Machine.execTileFold c tok tile s
  | .childLost c tok child => Sys2Proof.Machine.execChildLost c tok child s
  | .tileComplete c tok => Sys2Proof.Machine.execTileComplete c tok s
  | .launchComplete launch => Sys2Proof.Machine.execLaunchComplete launch s
  | .mcstStart c tok => Sys2Proof.Machine.execMcstStart c tok s
  | .mcstComplete c tok => Sys2Proof.Machine.execMcstComplete c tok s
  | .cellArrival p => Sys2Proof.Machine.execCellArrival p s
  | .slotSend p => Sys2Proof.Machine.execSlotSend p s
  | .linkCellReceive p w => Sys2Proof.Machine.execLinkCellReceive p w s
  | .linkAck p eseq => Sys2Proof.Machine.execLinkAck p eseq s
  | .replayRequest p eseq => Sys2Proof.Machine.execReplayRequest p eseq s
  | .linkSignalLoss p => Sys2Proof.Machine.execLinkSignalLoss p s
  | .retrainTimeout p => Sys2Proof.Machine.execRetrainTimeout p s
  | .moduleLoss p => Sys2Proof.Machine.execModuleLoss p s
  | .ringRefusal p cell => Sys2Proof.Machine.execRingRefusal p cell s
  | .nack p cell => Sys2Proof.Machine.execNack p cell s
  | .nackResend p => Sys2Proof.Machine.execNackResend p s
  | .keyMarker p slot => Sys2Proof.Machine.execKeyMarker p slot s
  | .keyRefusal p => Sys2Proof.Machine.execKeyRefusal p s
  | .remoteRequest gate q => Sys2Proof.Machine.execRemoteRequest gate q s
  | .reply gate r => Sys2Proof.Machine.execReply gate r s
  | .retransmit id => Sys2Proof.Machine.execRetransmit id s
  | .remoteTimeout id => Sys2Proof.Machine.execRemoteTimeout id s
  | .replyCacheExpire gate id => Sys2Proof.Machine.execReplyCacheExpire gate id s
  | .sequenceSkip gate source => Sys2Proof.Machine.execSequenceSkip gate source s
  | .collArrive c tok => Sys2Proof.Machine.execCollArrive c tok s
  | .collComplete job collid rank => Sys2Proof.Machine.execCollComplete job collid rank s
  | .collFault job collid cause rank => Sys2Proof.Machine.execCollFault job collid cause rank s
  | .tlbinvAck die => Sys2Proof.Machine.execTlbinvAck die s
  | .genbumpDone die => Sys2Proof.Machine.execGenbumpDone die s
  | .l2wbDone die => Sys2Proof.Machine.execL2wbDone die s
  | .domsetDone die => Sys2Proof.Machine.execDomsetDone die s
  | .nploadDone die => Sys2Proof.Machine.execNploadDone die s
  | .attestServe => Sys2Proof.Machine.execAttestServe s
  | .gswCommand b => Sys2Proof.Machine.execGswCommand b s
  | .gangStop => Sys2Proof.Machine.execGangStop s
  | .gangStopTimeout => Sys2Proof.Machine.execGangStopTimeout s
  | .gangMarker p job turn => Sys2Proof.Machine.execGangMarker p job turn s
  | .lateCell p cell => Sys2Proof.Machine.execLateCell p cell s
  | .kill die target => Sys2Proof.Machine.execKill die target s
  | .mselWrite m v => Sys2Proof.Machine.execMselWrite m v s
  | .monitorSample m v => Sys2Proof.Machine.execMonitorSample m v s
  | .ghcfgLock die v => Sys2Proof.Machine.execGhcfgLock die v s
  | .registerWrite w addr v => Sys2Proof.Machine.execRegisterWrite w addr v s
  | .hostFrame f => Sys2Proof.Machine.execHostFrame f s
  | .hostLaunch m => Sys2Proof.Machine.execHostLaunch m s
  | .hostLoad m => Sys2Proof.Machine.execHostLoad m s
  | .hostWrite job va data => Sys2Proof.Machine.execHostWrite job va data s
  | .hostRead job va size => Sys2Proof.Machine.execHostRead job va size s
  | .hostKey job blob => Sys2Proof.Machine.execHostKey job blob s
  | .hostAttest req => Sys2Proof.Machine.execHostAttest req s
  | .hostJobEnd job => Sys2Proof.Machine.execHostJobEnd job s
  | .hostGrotto => Sys2Proof.Machine.execHostGrotto s
  | .hostConfig word => Sys2Proof.Machine.execHostConfig word s
  | .moduleReset straps => Sys2Proof.Machine.execModuleReset straps s
  | .powerTrip die high reading => Sys2Proof.Machine.execPowerTrip die high reading s
  | .junctionTrip die reading => Sys2Proof.Machine.execJunctionTrip die reading s
  | .packageWatchdog die => Sys2Proof.Machine.execPackageWatchdog die s
  | .fatalStop die cause info => Sys2Proof.Machine.execFatalStop die cause info s
  | .fatalMessage => Sys2Proof.Machine.execFatalMessage s
  | .linkTrained p => Sys2Proof.Machine.execLinkTrained p s
  | .powerLoss => Sys2Proof.Machine.execPowerLoss s

end Sys2Proof.Machine
end

