-- ==== Sys2Proof/Machine/Work.lean ====
section
/-!
DEFINITION. The steps of the agents beside the issuing core: each step of Sys2Proof.Event is the meaning of its row, and
`State.work` lists those that have something to do, as the model's own schedule (the manual gives no order among
agents: the agenda of a state may hold any list).
-/

namespace Sys2Proof.Machine

/-- A step of an agent, run. -/
def runEvent (e : Event) (s : State) : Host.Outcome State Fault Refusal :=
  match e with
  | .issueTick c => execIssueTick c s
  | .eventEntry die => execEventEntry die s
  | .fUnitFree c => execFUnitFree c s
  | .phaseDrainDone t => execPhaseDrainDone t s
  | .phaseBarClose t => execPhaseBarClose t s
  | .l1Fill c line => execL1Fill c line s
  | .l1Writeback c line => execL1Writeback c line s
  | .homeLoad c line => execHomeLoad c line s
  | .homeStore c line => execHomeStore c line s
  | .atomicExecute t => execAtomicExecute t s
  | .orderedRelease t => execOrderedRelease t s
  | .atomicReply t => execAtomicReply t s
  | .copyStart c tok => execCopyStart c tok s
  | .copyCellWrite c tok => execCopyCellWrite c tok s
  | .copyComplete c tok => execCopyComplete c tok s
  | .streamStart c tok => execStreamStart c tok s
  | .streamComplete c tok => execStreamComplete c tok s
  | .moutComplete c tok => execMoutComplete c tok s
  | .arrayError t source => execArrayError t source s
  | .rerunDone c => execRerunDone c s
  | .regionUnprotected t => execRegionUnprotected t s
  | .slotRelease t => execSlotRelease t s
  | .dispatchGroup launch => execDispatchGroup launch s
  | .claim t => execClaim t s
  | .stealRequest t => execStealRequest t s
  | .taskHalt t => execTaskHalt t s
  | .tileStart c tok => execTileStart c tok s
  | .unitComplete c tok unit => execUnitComplete c tok unit s
  | .tileFold c tok tile => execTileFold c tok tile s
  | .childLost c tok child => execChildLost c tok child s
  | .tileComplete c tok => execTileComplete c tok s
  | .launchComplete launch => execLaunchComplete launch s
  | .mcstStart c tok => execMcstStart c tok s
  | .mcstComplete c tok => execMcstComplete c tok s
  | .cellArrival p => execCellArrival p s
  | .slotSend p => execSlotSend p s
  | .linkCellReceive p w => execLinkCellReceive p w s
  | .linkAck p eseq => execLinkAck p eseq s
  | .replayRequest p eseq => execReplayRequest p eseq s
  | .linkSignalLoss p => execLinkSignalLoss p s
  | .retrainTimeout p => execRetrainTimeout p s
  | .moduleLoss p => execModuleLoss p s
  | .ringRefusal p cell => execRingRefusal p cell s
  | .nack p cell => execNack p cell s
  | .nackResend p => execNackResend p s
  | .keyMarker p slot => execKeyMarker p slot s
  | .keyRefusal p => execKeyRefusal p s
  | .remoteRequest gate q => execRemoteRequest gate q s
  | .reply gate r => execReply gate r s
  | .retransmit id => execRetransmit id s
  | .remoteTimeout id => execRemoteTimeout id s
  | .replyCacheExpire gate id => execReplyCacheExpire gate id s
  | .sequenceSkip gate source => execSequenceSkip gate source s
  | .collArrive c tok => execCollArrive c tok s
  | .collComplete job collid rank => execCollComplete job collid rank s
  | .collFault job collid cause rank => execCollFault job collid cause rank s
  | .tlbinvAck die => execTlbinvAck die s
  | .genbumpDone die => execGenbumpDone die s
  | .l2wbDone die => execL2wbDone die s
  | .domsetDone die => execDomsetDone die s
  | .nploadDone die => execNploadDone die s
  | .attestServe => execAttestServe s
  | .gswCommand b => execGswCommand b s
  | .gangStop => execGangStop s
  | .gangStopTimeout => execGangStopTimeout s
  | .gangMarker p job turn => execGangMarker p job turn s
  | .lateCell p cell => execLateCell p cell s
  | .kill die target => execKill die target s
  | .mselWrite m v => execMselWrite m v s
  | .monitorSample m v => execMonitorSample m v s
  | .ghcfgLock die v => execGhcfgLock die v s
  | .registerWrite w addr v => execRegisterWrite w addr v s
  | .hostFrame f => execHostFrame f s
  | .hostLaunch m => execHostLaunch m s
  | .hostLoad m => execHostLoad m s
  | .hostWrite job va data => execHostWrite job va data s
  | .hostRead job va size => execHostRead job va size s
  | .hostKey job blob => execHostKey job blob s
  | .hostAttest req => execHostAttest req s
  | .hostJobEnd job => execHostJobEnd job s
  | .hostGrotto => execHostGrotto s
  | .hostConfig word => execHostConfig word s
  | .moduleReset straps => execModuleReset straps s
  | .powerTrip die high reading => execPowerTrip die high reading s
  | .junctionTrip die reading => execJunctionTrip die reading s
  | .packageWatchdog die => execPackageWatchdog die s
  | .fatalStop die cause info => execFatalStop die cause info s
  | .fatalMessage => execFatalMessage s
  | .linkTrained p => execLinkTrained p s
  | .powerLoss => execPowerLoss s

/-! ### What has something to do -/

/-- Steps of a request for a line (R167, R244). -/
def L1Req.work (c : CoreRef) (q : L1Req) : List Event :=
  match q.answer with
  | .waiting => [if q.right = .write then .homeStore c q.line else .homeLoad c q.line]
  | _ => [.l1Fill c q.line]

/-- Steps of a command of a core. -/
def Cmd.work (c : CoreRef) (tok : Nat) (x : Cmd) : List Event :=
  match x.kind with
  | .cpy | .gth | .sct => if x.started then [.copyCellWrite c tok, .copyComplete c tok] else [.copyStart c tok]
  | .mstrm _ => if x.started then [.streamComplete c tok] else [.streamStart c tok]
  | .mout _ => [.moutComplete c tok]
  | .tile _ _ _ =>
    if x.started then
      (match x.run with
        | some g =>
          (List.range g.workers.length).map (Event.childLost c tok)
            ++ (List.range g.units).map (Event.unitComplete c tok)
            ++ (List.range (g.units / g.chunks)).map (Event.tileFold c tok) ++ [.tileComplete c tok]
        | none => [])
    else [.tileStart c tok, .tileComplete c tok]
  | .mcst => if x.started then [.mcstComplete c tok] else [.mcstStart c tok]
  | .tlnch => []
  | .coll _ _ => [.collArrive c tok]

/-- Steps of the first outstanding operation of a task. -/
def Hold.work (r : TaskRef) (h : Hold) : List Event :=
  match h with
  | .atomic a =>
    if a.result.isSome then [.atomicReply r] else if a.ordered.isSome then [.orderedRelease r] else [.atomicExecute r]
  | .remote _ _ => [.atomicReply r]
  | .claim _ _ => [.claim r]
  | .steal _ => [.stealRequest r]
  | .tlbinv _ _ _ => [.tlbinvAck r.die]
  | .genbump _ _ => [.genbumpDone r.die]
  | .l2wb _ _ _ => [.l2wbDone r.die]
  | .domset _ => [.domsetDone r.die]
  | .npload _ _ _ => [.nploadDone r.die]
  | .fence _ _ _ _ | .prmpt _ _ _ _ | .ctxsv _ _ _ | .attest _ _ _ | .keyld _ _ _ | .lkey _ _ | .gsw _ | .awaits _ _ _ _ => []

/-- Steps of a resident task. -/
def Task.work (r : TaskRef) (t : Task) : List Event :=
  (if t.preempt then [.taskHalt r] else []) ++ (if t.draining then [.phaseDrainDone r] else [])
    ++ (if t.status = .ending then [.slotRelease r] else [])
    ++ (match t.holds with
      | h :: _ => h.work r
      | [] => [])

/-- Steps of a core, its tick last. -/
def Core.work (cur c : CoreRef) (k : Core) : List Event :=
  k.l1req.flatMap (L1Req.work c)
    ++ k.cmds.flatMap (fun e => match e.2 with
      | some x => x.work c e.1
      | none => [])
    ++ (if k.rerun.isSome then [.rerunDone c] else [])
    ++ k.tasks.flatMap (fun e => match e.2 with
      | some t => t.work ⟨c.die, c.core, e.1⟩
      | none => [])
    ++ (if k.sendBuf = [] then [] else [.slotSend (portAt c.die (if isCompute c.core then routerOf c.core else lodgeRouter) 4)])
    ++ (if c = cur ∨ (k.tasks = [] ∧ k.fBusy = 0) then [] else [.issueTick c])

/-- Steps of a port of a router. -/
def Port.work (p : PortRef) (q : Port) : List Event :=
  (if q.fifo = [] ∧ q.refusal = [] ∧ q.circ = [] ∧ q.ahead = [] then [] else [.cellArrival p])
    ++ (if q.nackq = [] then [] else [.nackResend p]) ++ (if q.out = [] ∧ q.nackq = [] then [] else [.slotSend p])

/-- Steps of a die: its ports and its collectives. -/
def Die.work (d : Nat) (k : Die) : List Event :=
  k.pavs.flatMap (fun e => e.2.ports.flatMap fun q => q.2.work (portAt d e.1 q.1))
    ++ k.colls.flatMap fun x => x.ranks.map fun r => .collComplete x.job x.collid r.rank

/-- Steps of a launch (R268, R306). -/
def Launch.work (l : Launch) : List Event :=
  if l.finished then [] else [.dispatchGroup l.seq, .launchComplete l.seq]

/-- The step of the message at the head of those that wait. The manual lays out no message but LAUNCH: the fields of the
others are what D0's lodge reads in them. -/
def HostPort.work (h : HostPort) : List Event :=
  match h.inbox with
  | [] => []
  | (_, c) :: _ =>
    let p := padTo 128 c.payload
    let num := fun n => Config.messageNum n p
    match bytesAt c.payload 0 1 with
    | 2 => [.hostLoad ⟨num 0, num 1, num 2, Config.messageList 0 p, Config.messageList 1 p⟩]
    | 3 => [.hostWrite (num 0) (num 1) (Config.messageData p)]
    | 4 => [.hostRead (num 0) (num 1) (num 2)]
    | 5 => [.hostKey (num 0) (Config.messageData (h.payloads 8))]
    | 6 => [.hostAttest (Config.messageData p)]
    | 7 => [.hostJobEnd (num 0)]
    | 8 => [.hostGrotto]
    | 9 => [.hostConfig (BitVec.ofNat 64 (num 0))]
    | _ => [.hostLaunch p]

/-- Steps of a fatal stop: the dump and its message, once (R389, R412). -/
def fatalWork (f : Option Fatal) : List Event :=
  match f with
  | some f => if !f.dumped then [.fatalStop f.die f.cause f.info] else if f.sent then [] else [.fatalMessage]
  | none => []

/-- The steps that have something to do. -/
def State.work (s : State) : List Event :=
  fatalWork s.fatal
    ++ s.cores.flatMap (fun e => e.2.work s.cur.coreRef ⟨e.1 / 128, e.1 % 128⟩) ++ s.dies.flatMap (fun e => e.2.work e.1)
      ++ s.launches.flatMap Launch.work ++ (if s.attest.queue = [] then [] else [.attestServe])
      ++ (if s.gang.isSome || s.switched.any (fun g => g.issuer.isSome) then [.gangStop] else []) ++ s.host.work

end Sys2Proof.Machine
end

