-- ==== Sys2Proof/Machine/Step.lean ====
section
/-!
DEFINITION. One step of the module: the next step of its agenda, or a tick of the focus core (R271), after which the
agenda is the work of the other agents. And the placing of an instruction where the next step fetches it.
-/

namespace Sys2Proof.Machine

/-- A module reset: the one step that a module without power takes. -/
def isReset (e : Event) : Bool :=
  match e with
  | .moduleReset _ => true
  | _ => false

/-- The state after a tick of the focus core: cycles have passed (R3, R92), and the other agents have their turn. -/
def State.afterTick (s : State) : State :=
  { s.tookFree with cycle := s.cycle + BitVec.ofNat 64 (Config.elapsed s.freeCtr), agenda := s.agenda ++ s.work }

/-- One step. -/
def step (s : State) : Host.Outcome State Fault Refusal :=
  match s.agenda with
  | e :: rest =>
    if s.powered || isReset e then runEvent e { s with agenda := rest } else .next { s with agenda := rest }
  | [] =>
    if s.powered then
      (match execIssueTick s.cur.coreRef s with
        | .next s' => .next s'.afterTick
        | .fault f => .fault f
        | .refused r => .refused r)
    else .fault .unpowered

/-! ### Placing an instruction -/

/-- NOP with its stop bit clear (Table 2.8). -/
def nopWord : W32 := 0x02F00000

/-- The bundle in which a word stands alone beside NOPs: first, or last where it carries the stop bit (R29, R30). -/
def aloneBundle (w : W32) : List W32 :=
  if w.getLsbD 31 then [nopWord, nopWord, nopWord, w] else [w, nopWord, nopWord, nopWord ||| 0x80000000]

/-- The task slot that may issue a word: the lodge core's where only a lodge accepts it (R34), else the first slot of the
first compute core. -/
def slotFor (w : W32) : TaskRef :=
  match (wordSem w).place with
  | .lodge | .lodgeControl => ⟨0, 96, 0⟩
  | _ => ⟨0, 0, 0⟩

/-- Where the placed bundle's code lies. -/
def placedBase : Nat := 0x1000

/-- The task that runs the placed bundle: a whole vector block and a budget that does not run out. -/
def placedTask : Task := { Task.blank with codeBase := placedBase, codeLen := 1, vregs := 32, budget := BitVec.allOnes 64 }

/-- A core made ready to run the task in its slot 0 next. -/
def Core.readyFor (c : Core) : Core := { c with current := 0, yielded := false, rerun := none }

/-- A lodge whose next boundary takes no event (R384). -/
def LodgeRegs.deaf (l : LodgeRegs) : LodgeRegs := { l with emask := l.emask &&& 1 }

/-- The state with an instruction stored where the next step fetches it, in a bundle of its own (R29), and a task to run
it. -/
def State.withFetchWord (s : State) (_nbits w : Nat) : State :=
  let x := BitVec.ofNat 32 w
  let r := slotFor x
  let s := { s with
    powered := true, agenda := [], cur := r
    mem := s.mem.setBytes placedBase ((aloneBundle x).flatMap fun (y : W32) => leBytes 4 y.toNat) }
  let s := (s.setTask r placedTask).modCore r.coreRef Core.readyFor
  if s.eventDue r.die then s.modLodge r.die LodgeRegs.deaf else s

end Sys2Proof.Machine
end

