-- ==== Sys2Proof/Safety.lean ====
section
/-!
DEFINITION. What the claims are stated with: when a task may issue, what a bundle does beside its slots' results, what a
step leaves alone, and the form of a state that every step keeps.
-/

namespace Sys2Proof

open Machine

/-! ### The form every step keeps -/

/-- The memory is in canonical form (the model's own data convention for R20's byte memory). -/
def Safe (s : State) : Prop := Memory.wf s.mem = true

/-! ### Machine steps -/

/-- The machine step that a row of the opcode table which no bundle issues stands for. -/
def eventOf (i : Instr) : Option Event :=
  match i with
  | .add _ _ _ _ => none
  | .sub _ _ _ _ => none
  | .mul _ _ _ _ => none
  | .mulh _ _ _ _ => none
  | .mulhz _ _ _ _ => none
  | .div _ _ _ _ => none
  | .divz _ _ _ _ => none
  | .rem _ _ _ _ => none
  | .remz _ _ _ _ => none
  | .and _ _ _ _ => none
  | .or _ _ _ _ => none
  | .xor _ _ _ _ => none
  | .andn _ _ _ _ => none
  | .shl _ _ _ _ => none
  | .shr _ _ _ _ => none
  | .sra _ _ _ _ => none
  | .rol _ _ _ _ => none
  | .min _ _ _ _ => none
  | .max _ _ _ _ => none
  | .minz _ _ _ _ => none
  | .maxz _ _ _ _ => none
  | .clz _ _ _ => none
  | .ctz _ _ _ => none
  | .popc _ _ _ => none
  | .bfx _ _ _ _ => none
  | .bfxz _ _ _ _ => none
  | .bfi _ _ _ _ => none
  | .sel _ _ _ _ _ => none
  | .addi _ _ _ _ => none
  | .andi _ _ _ _ => none
  | .ori _ _ _ _ => none
  | .xori _ _ _ _ => none
  | .shli _ _ _ _ => none
  | .shri _ _ _ _ => none
  | .srai _ _ _ _ => none
  | .movi _ _ _ => none
  | .movh _ _ _ => none
  | .addsh _ _ _ _ _ => none
  | .cmp _ _ _ _ _ _ => none
  | .cmpi _ _ _ _ _ _ => none
  | .pand _ _ _ _ => none
  | .por _ _ _ _ => none
  | .pxor _ _ _ _ => none
  | .pnot _ _ _ => none
  | .movsRead _ _ _ => none
  | .movsWrite _ _ _ => none
  | .sfadd _ _ _ _ _ => none
  | .sfmul _ _ _ _ _ => none
  | .sffma _ _ _ _ _ => none
  | .sfmin _ _ _ _ => none
  | .sfmax _ _ _ _ => none
  | .sfcmp _ _ _ _ _ _ => none
  | .sfcvt _ _ _ _ _ => none
  | .prep _ _ _ => none
  | .prepr _ _ _ => none
  | .br _ _ => none
  | .brl _ _ _ => none
  | .loop _ _ _ _ => none
  | .loopi _ _ _ _ => none
  | .lbrk _ => none
  | .lpop _ => none
  | .endTask _ => none
  | .trap _ _ => none
  | .sys _ _ _ _ => none
  | .eret _ => none
  | .yield _ => none
  | .wait _ _ _ => none
  | .arrive _ _ => none
  | .prmpt _ _ _ => none
  | .resume _ _ _ => none
  | .ctxsv _ _ _ _ => none
  | .ctxld _ _ _ _ => none
  | .tlbinv _ _ _ _ => none
  | .genbump _ _ _ => none
  | .l2wb _ _ _ _ => none
  | .domset _ _ => none
  | .gsw _ _ _ => none
  | .gres _ _ _ => none
  | .attest _ _ _ _ => none
  | .keyld _ _ _ _ => none
  | .npload _ _ _ _ => none
  | .rlinv _ _ => none
  | .lkey _ _ _ _ => none
  | .csrr _ _ _ => none
  | .csrw _ _ _ => none
  | .bgset _ _ => none
  | .ckpt _ => none
  | .nop _ => none
  | .ld _ _ _ _ _ _ => none
  | .ldRo _ _ _ _ _ _ => none
  | .st _ _ _ _ _ _ => none
  | .vld _ _ _ _ _ _ => none
  | .vldRo _ _ _ _ _ _ => none
  | .vst _ _ _ _ _ _ => none
  | .agset _ _ _ _ => none
  | .agstep _ _ _ => none
  | .pref _ _ => none
  | .clean _ _ => none
  | .inval _ _ => none
  | .phase _ _ => none
  | .ttdef _ _ _ => none
  | .ttwait _ _ _ => none
  | .ttfree _ _ => none
  | .ttstat _ _ _ => none
  | .fence _ _ => none
  | .fenceRo _ _ => none
  | .aadd _ _ _ _ _ _ => none
  | .amin _ _ _ _ _ _ _ => none
  | .amax _ _ _ _ _ _ _ => none
  | .aand _ _ _ _ _ _ => none
  | .aor _ _ _ _ _ _ => none
  | .axor _ _ _ _ _ _ => none
  | .aswp _ _ _ _ _ _ => none
  | .aincb _ _ _ _ _ _ _ => none
  | .afadd _ _ _ _ _ _ => none
  | .acas _ _ _ _ _ _ _ => none
  | .aordJoin _ _ => none
  | .aordClose _ _ => none
  | .vadd _ _ _ _ _ _ => none
  | .vsub _ _ _ _ _ _ => none
  | .vmul _ _ _ _ _ _ => none
  | .vfma _ _ _ _ _ _ => none
  | .vfms _ _ _ _ _ _ => none
  | .vmin _ _ _ _ _ => none
  | .vmax _ _ _ _ _ => none
  | .vabs _ _ _ _ => none
  | .vneg _ _ _ _ => none
  | .vnot _ _ _ => none
  | .vadds _ _ _ _ _ => none
  | .vsubs _ _ _ _ _ => none
  | .vmulh _ _ _ _ _ => none
  | .vand _ _ _ _ => none
  | .vor _ _ _ _ => none
  | .vxor _ _ _ _ => none
  | .vshl _ _ _ _ _ => none
  | .vshr _ _ _ _ _ => none
  | .vsra _ _ _ _ _ => none
  | .vcmp _ _ _ _ _ _ _ => none
  | .vsel _ _ _ _ _ => none
  | .vmov _ _ _ => none
  | .vsplat _ _ _ _ => none
  | .viotaRow _ _ => none
  | .viotaCol _ _ => none
  | .viotaLin _ _ => none
  | .vbrow _ _ _ _ => none
  | .vbcol _ _ _ _ => none
  | .vrotr _ _ _ _ => none
  | .vrotc _ _ _ _ => none
  | .vredr _ _ _ _ _ _ _ => none
  | .vredc _ _ _ _ _ _ _ => none
  | .vscanr _ _ _ _ _ _ _ => none
  | .vscanc _ _ _ _ _ _ _ => none
  | .vxp _ _ _ => none
  | .vpermRow _ _ _ _ => none
  | .vpermCol _ _ _ _ => none
  | .vext _ _ _ _ => none
  | .vins _ _ _ _ => none
  | .qand _ _ _ _ => none
  | .qor _ _ _ _ => none
  | .qxor _ _ _ _ => none
  | .qnot _ _ _ => none
  | .qcnt _ _ _ => none
  | .fexp2 _ _ _ _ => none
  | .fexp _ _ _ _ => none
  | .flog2 _ _ _ _ => none
  | .frcp _ _ _ _ => none
  | .frsq _ _ _ _ => none
  | .fsqrt _ _ _ _ => none
  | .fdiv _ _ _ _ _ => none
  | .ftanh _ _ _ _ => none
  | .fsigm _ _ _ _ => none
  | .fsin _ _ _ _ => none
  | .fcos _ _ _ _ => none
  | .cvt _ _ _ _ _ _ => none
  | .qnt4 _ _ _ _ _ => none
  | .dqnt4 _ _ _ _ => none
  | .rngseed _ _ _ => none
  | .rngskip _ _ => none
  | .edsc _ _ _ _ => none
  | .cpy _ _ _ => none
  | .gth _ _ _ => none
  | .sct _ _ _ => none
  | .kwait _ _ => none
  | .ktest _ _ _ => none
  | .krel _ _ => none
  | .mstrm _ _ _ _ => none
  | .mzero _ _ => none
  | .mcfg _ _ _ => none
  | .msplit _ _ => none
  | .mskip _ _ => none
  | .mclaim _ _ _ => none
  | .mrel _ _ => none
  | .mlatch _ _ _ => none
  | .mrd _ _ _ _ => none
  | .mwr _ _ _ _ => none
  | .mout _ _ _ _ => none
  | .tmm _ _ _ _ _ => none
  | .tew _ _ _ _ => none
  | .tred _ _ _ _ _ => none
  | .tscan _ _ _ _ _ => none
  | .txp _ _ _ => none
  | .tcvt _ _ _ _ => none
  | .tcpy _ _ _ => none
  | .tbc _ _ _ => none
  | .tlnch _ _ _ => none
  | .twait _ _ _ => none
  | .tstat _ _ _ => none
  | .tabort _ _ _ => none
  | .fbind _ _ _ => none
  | .fsend _ _ _ => none
  | .fput _ _ _ => none
  | .fdrain _ _ _ => none
  | .fstat _ _ _ => none
  | .ftake _ _ _ => none
  | .mcst _ _ _ => none
  | .coll _ _ _ _ _ => none
  | .issueTick c => some (.issueTick c)
  | .eventEntry die => some (.eventEntry die)
  | .fUnitFree c => some (.fUnitFree c)
  | .phaseDrainDone t => some (.phaseDrainDone t)
  | .phaseBarClose t => some (.phaseBarClose t)
  | .l1Fill c line => some (.l1Fill c line)
  | .l1Writeback c line => some (.l1Writeback c line)
  | .homeLoad c line => some (.homeLoad c line)
  | .homeStore c line => some (.homeStore c line)
  | .atomicExecute t => some (.atomicExecute t)
  | .orderedRelease t => some (.orderedRelease t)
  | .atomicReply t => some (.atomicReply t)
  | .copyStart c tok => some (.copyStart c tok)
  | .copyCellWrite c tok => some (.copyCellWrite c tok)
  | .copyComplete c tok => some (.copyComplete c tok)
  | .streamStart c tok => some (.streamStart c tok)
  | .streamComplete c tok => some (.streamComplete c tok)
  | .moutComplete c tok => some (.moutComplete c tok)
  | .arrayError t source => some (.arrayError t source)
  | .rerunDone c => some (.rerunDone c)
  | .regionUnprotected t => some (.regionUnprotected t)
  | .slotRelease t => some (.slotRelease t)
  | .dispatchGroup launch => some (.dispatchGroup launch)
  | .claim t => some (.claim t)
  | .stealRequest t => some (.stealRequest t)
  | .taskHalt t => some (.taskHalt t)
  | .tileStart c tok => some (.tileStart c tok)
  | .unitComplete c tok unit => some (.unitComplete c tok unit)
  | .tileFold c tok tile => some (.tileFold c tok tile)
  | .childLost c tok child => some (.childLost c tok child)
  | .tileComplete c tok => some (.tileComplete c tok)
  | .launchComplete launch => some (.launchComplete launch)
  | .mcstStart c tok => some (.mcstStart c tok)
  | .mcstComplete c tok => some (.mcstComplete c tok)
  | .cellArrival p => some (.cellArrival p)
  | .slotSend p => some (.slotSend p)
  | .linkCellReceive p w => some (.linkCellReceive p w)
  | .linkAck p eseq => some (.linkAck p eseq)
  | .replayRequest p eseq => some (.replayRequest p eseq)
  | .linkSignalLoss p => some (.linkSignalLoss p)
  | .retrainTimeout p => some (.retrainTimeout p)
  | .moduleLoss p => some (.moduleLoss p)
  | .ringRefusal p cell => some (.ringRefusal p cell)
  | .nack p cell => some (.nack p cell)
  | .nackResend p => some (.nackResend p)
  | .keyMarker p slot => some (.keyMarker p slot)
  | .keyRefusal p => some (.keyRefusal p)
  | .remoteRequest gate q => some (.remoteRequest gate q)
  | .reply gate r => some (.reply gate r)
  | .retransmit id => some (.retransmit id)
  | .remoteTimeout id => some (.remoteTimeout id)
  | .replyCacheExpire gate id => some (.replyCacheExpire gate id)
  | .sequenceSkip gate source => some (.sequenceSkip gate source)
  | .collArrive c tok => some (.collArrive c tok)
  | .collComplete job collid rank => some (.collComplete job collid rank)
  | .collFault job collid cause rank => some (.collFault job collid cause rank)
  | .tlbinvAck die => some (.tlbinvAck die)
  | .genbumpDone die => some (.genbumpDone die)
  | .l2wbDone die => some (.l2wbDone die)
  | .domsetDone die => some (.domsetDone die)
  | .nploadDone die => some (.nploadDone die)
  | .attestServe => some (.attestServe)
  | .gswCommand b => some (.gswCommand b)
  | .gangStop => some (.gangStop)
  | .gangStopTimeout => some (.gangStopTimeout)
  | .gangMarker p job turn => some (.gangMarker p job turn)
  | .lateCell p cell => some (.lateCell p cell)
  | .kill die target => some (.kill die target)
  | .mselWrite m v => some (.mselWrite m v)
  | .monitorSample m v => some (.monitorSample m v)
  | .ghcfgLock die v => some (.ghcfgLock die v)
  | .registerWrite w addr v => some (.registerWrite w addr v)
  | .hostFrame f => some (.hostFrame f)
  | .hostLaunch m => some (.hostLaunch m)
  | .hostLoad m => some (.hostLoad m)
  | .hostWrite job va data => some (.hostWrite job va data)
  | .hostRead job va size => some (.hostRead job va size)
  | .hostKey job blob => some (.hostKey job blob)
  | .hostAttest req => some (.hostAttest req)
  | .hostJobEnd job => some (.hostJobEnd job)
  | .hostGrotto => some (.hostGrotto)
  | .hostConfig word => some (.hostConfig word)
  | .moduleReset straps => some (.moduleReset straps)
  | .powerTrip die high reading => some (.powerTrip die high reading)
  | .junctionTrip die reading => some (.junctionTrip die reading)
  | .packageWatchdog die => some (.packageWatchdog die)
  | .fatalStop die cause info => some (.fatalStop die cause info)
  | .fatalMessage => some (.fatalMessage)
  | .linkTrained p => some (.linkTrained p)
  | .powerLoss => some (.powerLoss)

/-! ### Issuing -/

/-- The issuing task's BUDGET is not spent (R118) and no completion-latency operation of it is outstanding (R45). -/
structure MayIssue (s : State) : Prop where
  budget : s.spent s.cur = false
  holds : s.me.holds = []

/-- Nothing but the bundle itself happens at the bundle's boundary, a transfer apart: no earlier result becomes visible
with it (R42), no loop ends with it (R112), no budget warning is set (R119), no PHASE bar is open (R174) and no
pre-emption is pending (R283). -/
structure Calm (s : State) : Prop where
  due : ∀ p ∈ s.me.pend, 2 ≤ p.left
  ctl : s.me.ctl = .none
  loops : ∀ l ∈ s.me.loops.head?, l.le ≠ s.me.pc
  warn : s.me.bwarn = 0
  bar : s.me.barLeft = 0
  preempt : s.me.preempt = false

/-- A calm boundary with no transfer pending (R109). -/
structure Quiet (s : State) : Prop extends Calm s where
  delay : s.me.delay = 0

/-- The state in which the slots of a bundle are checked and issue: the task's time has risen by 1 (R243). -/
def opened (s : State) : State := s.modMe fun t => { t with time := t.time + 1 }

/-- What a bundle of one unit does to its task beside its slots' results, at a quiet boundary: LTIME rises by 1 (R243),
BUDGET is charged (R118), BCNT counts it (R91), the next bundle follows (R113), and results in flight age by one (R42). -/
def afterBundle (lodge : Bool) (t : Task) : Task :=
  { t with
    time := t.time + 1
    budget := if lodge then t.budget else chargedBudget t.budget
    bcnt := t.bcnt + 1
    pc := t.pc + 1
    target := 0
    pend := t.pend.map fun p => { p with left := p.left - 1 } }

/-- A result that becomes visible in its task's own registers (R42, R73). Vector registers are the core's, and lodge
registers the die's: no result of latency 1 goes to them here. -/
def landIn (lodge : Bool) (t : Task) (p : Pending) : Task :=
  (match p.val with
    | .scalar d v => t.setSreg d v
    | .pred n v => t.setPred n v
    | .preds v => { t with preds := predsWord v }
    | .lanes q mask v => t.setLanes q mask v
    | .target n v => { t with tb := Tbl.set 0 t.tb n v }
    | .special num v => t.writeSpecial lodge num v
    | .vec _ _ _ | .flagsOnly => t).orFlags p.flags

/-- The results of a bundle, each with its latency in `left` (R42): those of latency 1 are visible to the next bundle, in
the order of their slots (R43); the others are in flight behind the earlier ones. -/
def delivered (lodge : Bool) (l : List Pending) (t : Task) : Task :=
  (l.filter fun p => decide (p.left = 1)).foldl (landIn lodge)
    { t with pend := t.pend ++ (l.filter fun p => !decide (p.left = 1)).map fun p => { p with left := p.left - 1 } }

/-! ### What a step leaves alone -/

/-- What a step may change: of the issuing task's core what `mc` blanks, of the module what `ms` blanks, and the issuing
task; every other task of the core and every other core stand as they were. -/
structure Frame (mc : Core → Core) (ms : State → State) (s t : State) : Prop where
  slots : ∀ k, k ≠ s.cur.slot → t.task? ⟨s.cur.die, s.cur.core, k⟩ = s.task? ⟨s.cur.die, s.cur.core, k⟩
  others : ∀ c, CoreRef.key c ≠ CoreRef.key s.cur.coreRef → t.core c = s.core c
  core : mc (t.core s.cur.coreRef) = mc (s.core s.cur.coreRef)
  rest : ms t = ms s

/-- A core without its tasks and what counts the bundles of the task under way: its open regions and reruns and the F
unit's occupancy. -/
def coreBeside (c : Core) : Core := { c with tasks := [], regions := [], rerun := none, fBusy := 0 }

/-- The module without its cores. -/
def moduleBeside (s : State) : State := { s with cores := [] }

/-- Beside the issuing task, the state of its core's open regions and reruns, and the F unit's occupancy, nothing
changes: every other task, every other core, the core's vector registers, tile entries, array, commands, lines and
translations, every die, and the rest of the module with every byte of its memory. -/
abbrev OnlyTask (s t : State) : Prop := Frame coreBeside moduleBeside s t

/-- The instruction completes: the next state has its change `f` of the issuing task and its results, the queues it takes
popped (R135), and nothing else changed. -/
def Does (i : Instr) (s : State) (q0 q1 : Bool) (f : Task → Task) (l : List Pending) : Prop :=
  ∃ t, exec i s = .next t ∧ OnlyTask s t
    ∧ t.task s.cur = delivered (isLodge s.cur.core) l (popTaken q0 q1 (f (afterBundle (isLodge s.cur.core) s.me)))

/-- The instruction completes: the next state has its results, and nothing else changed. -/
abbrev Gives (i : Instr) (s : State) (l : List Pending) : Prop := Does i s false false id l

/-- The instruction completes: the next state changes the module only where `mc` and `ms` blank it and in the issuing task,
the task has its change `f` and its results, and `post` holds of the next state. -/
def Completes (i : Instr) (s : State) (mc : Core → Core) (ms : State → State) (f : Task → Task) (l : List Pending)
    (post : State → Prop) : Prop :=
  ∃ t, exec i s = .next t ∧ Frame mc ms s t
    ∧ t.task s.cur = delivered (isLodge s.cur.core) l (f (afterBundle (isLodge s.cur.core) s.me)) ∧ post t

/-- A slot with a scalar guard acts in a bundle with a quiet boundary: its task may issue and its guard is true (R28). -/
structure Runs (g : Guard) (s : State) : Prop where
  may : MayIssue s
  quiet : Quiet s
  guard : s.me.guardOn g = true

/-- One scalar result with no flag. -/
def scalarResult (lat : Nat) (d : BitVec 5) (v : W64) : List Pending := [⟨.scalar d.toNat v, lat, 0⟩]

/-- A queue whose head a slot may take: bound, complete and not poisoned (R325, R334). -/
structure Poppable (q : InQueue) : Prop where
  bound : q.bound = true
  complete : q.complete = true
  clean : q.poisoned = none

/-- A V slot's operands are there, in a task that may issue at a quiet boundary: its sources and its destination are
backed (R131), and a queue it takes can be popped outside a checkpoint region (R135, R207). -/
structure VecRuns (src : List Nat) (dst : Option Nat) (s : State) : Prop where
  may : MayIssue s
  quiet : Quiet s
  sources : ∀ v ∈ src, s.me.backed v = true ∨ v = 30 ∨ v = 31
  dest : ∀ v ∈ dst, s.me.backed v = true
  queue0 : 30 ∈ src → Poppable s.me.fq0 ∧ s.inRegion = false
  queue1 : 31 ∈ src → Poppable s.me.fq1 ∧ s.inRegion = false

/-- A vector result completes on the lanes where the guard is true, with the flags of those lanes (R28, R72, R138); the
queues among its sources are popped (R135) and nothing else changes. -/
def VecGives (i : Instr) (s : State) (g : Guard) (lat : Nat) (d : BitVec 5) (src : List (BitVec 5)) (cells : Cells) : Prop :=
  VecRuns (src.map BitVec.toNat) (some d.toNat) s →
    Does i s (src.contains 30) (src.contains 31) id
      [⟨.vec (s.me.vpos d.toNat) (s.me.guardLanes g) (cells.map Prod.fst), lat, maskFlags (s.me.guardLanes g) cells⟩]

/-- As `Does`, and the F unit of the core is occupied for four ticks (R151). -/
def FDoes (i : Instr) (s : State) (q0 q1 : Bool) (f : Task → Task) (l : List Pending) : Prop :=
  ∃ t, exec i s = .next t ∧ OnlyTask s t ∧ (t.core s.cur.coreRef).fBusy = 4
    ∧ t.task s.cur = delivered (isLodge s.cur.core) l (popTaken q0 q1 (f (afterBundle (isLodge s.cur.core) s.me)))

/-- An F slot with a true guard and a free F unit completes with its cells in every lane and their flags, `f` its change
of the task's random-bit generator (R78, R151). -/
def FGives (i : Instr) (s : State) (g : Guard) (lat : Nat) (d : BitVec 5) (src : List (BitVec 5)) (f : Task → Task)
    (cells : Cells) : Prop :=
  VecRuns (src.map BitVec.toNat) (some d.toNat) s → s.me.guardOn g = true → s.here.fBusy = 0 →
    FDoes i s (src.contains 30) (src.contains 31) f
      [⟨.vec (s.me.vpos d.toNat) (BitVec.allOnes 1024) (cells.map Prod.fst), lat, orAll (cells.map Prod.snd)⟩]

/-- Every task but the one of a slot stands. -/
def OthersStand (s t : State) (r : TaskRef) : Prop :=
  ∀ q : TaskRef, (CoreRef.key q.coreRef ≠ CoreRef.key r.coreRef ∨ q.slot ≠ r.slot) → t.task? q = s.task? q

/-- Every task stands, and every byte of memory. -/
def TasksAndMemoryStand (s t : State) : Prop := (∀ q, t.task? q = s.task? q) ∧ t.mem = s.mem

/-! ### Memory accesses -/

/-- A row of an access that lies in the task's window at an address that its size divides (R160). -/
structure InWindow (t : Task) (r : Row) : Prop where
  scratch : isScratch r.ea = true
  zeros : r.ea.toNat / 2 ^ 22 % 2 ^ 41 = 0
  inside : r.ea.toNat % 2 ^ 22 + r.size ≤ t.windowBytes
  aligned : r.ea.toNat % r.size = 0

/-- The time of a load: one bundle later, and not before the writes it sees (R243, R244). -/
def loadTime (ro : Bool) (rows : List Row) (s : State) : W64 := tmax (opened s).me.time ((opened s).accessPeak ro rows)

/-- A load whose checks pass and whose lines and replies are all there (R160, R167). -/
structure LoadReady (ro : Bool) (rows : List Row) (s : State) : Prop where
  checks : (opened s).accessTrap false ro rows = none
  there : ((opened s).modMe fun t => { t with time := loadTime ro rows s }).accessTrap false ro rows = none
    ∧ ((opened s).modMe fun t => { t with time := loadTime ro rows s }).accessWait s false ro rows = none

/-- A store whose checks pass, in no checkpoint region where it goes to a virtual address (R207), and whose lines are all
there (R160, R167). -/
structure StoreReady (rows : List Row) (s : State) : Prop where
  region : storeRegionTrap 0 rows (opened s) = none
  checks : (opened s).accessTrap true false rows = none
  there : (opened s).accessWait s true false rows = none

/-- The core without what the accesses of its tasks change beside tasks: lines, requests for lines, translations and its
time mark. -/
def coreBesideLines (c : Core) : Core := { coreBeside c with l1 := [], l1req := [], tlb := [], hwm := 0 }

/-- The module without what the accesses of a task change in it: the free-value counter, its outstanding requests, its time
mark, and the dies' translations, marks and Gatehouses. -/
def moduleBesideLines (s : State) : State := { moduleBeside s with freeCtr := 0, sent := [], hwm := 0, dies := [] }

/-- A die without its translations, its time mark and its sequence numbers and output ports. -/
def dieBesideLines (d : Die) : Die := { d with tlb := [], hwm := 0, gate := { d.gate with sendSeq := [] }, pavs := [] }

/-- A slot ready to issue as the only one of its bundle: no illegal-instruction or privileged-instruction trap (R33, R34),
no stall (R45) and no execution trap (R35). -/
structure Ready (m : SlotSem) (s : State) : Prop where
  may : MayIssue s
  legal : m.isIllegal s = false
  allowed : m.isDenied s = false
  flows : stallAll [(0, m)] (s.atIssue [(0, m)]) s = none
  calm : m.execTrap 0 (s.atIssue [(0, m)]) = none

/-- The state after a bundle of one slot that is ready has issued. -/
def issued (m : SlotSem) (s : State) : State :=
  State.advance (s.atIssue [(0, m)]) (m.apply (s.atIssue [(0, m)]) (s.atIssue [(0, m)])) 1
    (m.takes (s.atIssue [(0, m)]) 0) (m.takes (s.atIssue [(0, m)]) 1)

/-- An instruction that a bundle can issue acts in a bundle of its own: the boundary is quiet, its guard is true, and its
slot is ready, which is to say that no check of the manual traps and nothing makes it wait. -/
structure Acts (i : Instr) (s : State) : Prop where
  quiet : Quiet s
  slot : ∃ m, slotSem i = some m ∧ m.lanes = false ∧ s.me.guardOn m.guard = true ∧ Ready m s

/-! ### Commands -/

/-- The task that issued a command of a core. -/
def issuerOf (c : CoreRef) (x : Cmd) : TaskRef := ⟨c.die, c.core, x.slot⟩

/-- A command under a physical token of a core ends with a cause, 0 when it is done, and the time tc: it leaves the buffer,
its token is DONE or FAULTED with the cause (R214), the commands of its task bound to the token learn of it (R215), and
every other task stands. -/
structure Ended (s t : State) (c : CoreRef) (tok : Nat) (x : Cmd) (cause : Nat) (tc : W64) : Prop where
  token : t.task (issuerOf c x) = (s.task (issuerOf c x)).setToken (if isCompute c.core then tok % 16 else tok)
    ⟨if cause = 0 then .done else .faulted, cause, tc⟩
  others : OthersStand s t (issuerOf c x)
  commands : (t.core c).cmds = Tbl.mapVals
    (Option.map (Cmd.resolve x.slot (if isCompute c.core then tok % 16 else tok) (decide (cause ≠ 0))))
    (Tbl.set none (s.core c).cmds tok none)

/-- A command of a core goes on as another, and every other command of the core and every task stand. -/
structure GoesOn (s t : State) (c : CoreRef) (tok : Nat) (x : Cmd) : Prop where
  command : (t.core c).cmd tok = some x
  others : ∀ n, n ≠ tok → (t.core c).cmd n = (s.core c).cmd n
  tasks : ∀ r, t.task? r = s.task? r

end Sys2Proof
end

