-- ==== Sys2Proof/Certificates/Slice0/Obligations.lean ====
section
/-!
DEFINITION. The statements about the model, in the order of OBLIGATIONS.json. Each docstring says what is stated; the
rules of spec/ it formalises are those that OBLIGATIONS.json cites.
-/

open Sys2Proof Sys2Proof.Machine

/-- For every slot whose instruction is well-formed and has an encoding, with every operand, guard and stop bit at every
value its field admits, decoding the word the encoder writes gives exactly that slot; and the instructions with an
encoding are those that have a meaning as a slot of a bundle. -/
def Obligations.DecodeEncode : Prop :=
  (∀ x : Slot, x.instr.wf = true → (encode x.instr).isSome = true → decodeSlot (encodeSlot x) = .ok x)
    ∧ ∀ i : Instr, (encode i).isSome = (slotSem i).isSome

/-- For every 32-bit word that the decoder accepts as a slot, the slot is well-formed and encoding it gives the same word:
no two words mean one slot, and no bit of an accepted word is ignored. -/
def Obligations.EncodeDecode : Prop :=
  ∀ (w : W32) (x : Slot), decodeSlot w = .ok x → x.instr.wf = true ∧ encodeSlot x = w

/-- Words of every class, written bit by bit from Tables 2.1 to 2.12, decode to their instructions with guard, stop bit
and every operand: ADD, ADDI, CMP, MOVS, BRL, NPLOAD, CSRW, LD, AFADD, VADD, VREDC, CVT, MRD, TMM, FPUT and COLL; and
an unassigned primary opcode, an unassigned code and a refused operand are each refused by name. -/
def Obligations.DecodeWords : Prop :=
  decodeSlot 0x8001C7C0 = .ok ⟨true, .add ⟨0, false⟩ 3 17 30⟩
    ∧ decodeSlot 0x01025601 = .ok ⟨false, .addi ⟨0, false⟩ 4 21 0x201⟩
    ∧ decodeSlot 0x018567CB = .ok ⟨false, .cmp ⟨0, false⟩ 2 5 19 28 11⟩
    ∧ decodeSlot 0x01B60038 = .ok ⟨false, .movsRead ⟨0, false⟩ 12 0x038⟩
    ∧ decodeSlot 0x0237C000 = .ok ⟨false, .brl ⟨0, false⟩ 1 30⟩
    ∧ decodeSlot 0x3AA8A554 = .ok ⟨false, .npload ⟨3, true⟩ 9 10 20⟩
    ∧ decodeSlot 0x02C34811 = .ok ⟨false, .csrw ⟨0, false⟩ 6 0x811⟩
    ∧ decodeSlot 0x0305EEFD = .ok ⟨false, .ld ⟨0, false⟩ 11 6 1 6 0xFD⟩
    ∧ decodeSlot 0x03D22AC0 = .ok ⟨false, .afadd ⟨0, false⟩ 4 2 2 1 3⟩
    ∧ decodeSlot 0x040EFBE9 = .ok ⟨false, .vadd ⟨0, false⟩ 29 30 31 2 1⟩
    ∧ decodeSlot 0x3D71902B = .ok ⟨false, .vredc ⟨3, true⟩ 3 4 0 1 2 1⟩
    ∧ decodeSlot 0x3EB19326 = .ok ⟨false, .cvt ⟨3, true⟩ 3 4 12 9 2⟩
    ∧ decodeSlot 0x3F5EC230 = .ok ⟨false, .mrd ⟨3, true⟩ 29 33 3⟩
    ∧ decodeSlot 0x07786830 = .ok ⟨false, .tmm ⟨0, false⟩ 33 10 1 1⟩
    ∧ decodeSlot 0x87AAF802 = .ok ⟨true, .fput ⟨0, false⟩ 21 30⟩
    ∧ decodeSlot 0xBFC86830 = .ok ⟨true, .coll ⟨3, true⟩ 33 10 1 1⟩
    ∧ decodeSlot 0x00C00000 = .error (.unassignedOp 0x0C) ∧ decodeSlot 0x00200003 = .error (.unassignedCode 0x02)
    ∧ decodeSlot 0x0180000C = .error (.refusedOperand 0x18)

/-- In a powered module with an empty agenda, let the focus core be ticked: its F unit ages and operations with nothing
left to wait for complete. If then its one candidate is the current task, that task's BUDGET is not spent, its PC lies
in its code, the bundle there is a word w with a clear stop bit followed by three NOPs, w decodes to an instruction
that has a meaning as a slot, and the bundle keeps the format rules, then the step is exec of that instruction in the
state where that task is the issuing one, followed by the passing of time (the model's own afterTick: CYCLE moves on
and the other agents' work is put on the agenda). Where the bundle does not issue, held or trapped, the core's current
task and a pending YIELD are as they were before. -/
def Obligations.StepRunsDecoded : Prop :=
  ∀ (s : State) (w : W32) (i : Instr) (m : SlotSem), s.powered = true → s.agenda = [] →
    decodeSlot w = .ok ⟨false, i⟩ → slotSem i = some m →
    ∀ s1, s1 = s.beforeIssue s.cur.coreRef → (isLodge s.cur.core && s1.eventDue s.cur.die) = false →
    ∀ n, (s1.core s.cur.coreRef).candidates s.cur.core = [n] →
    ∀ s2, s2 = s1.focus s.cur.coreRef n → s2.spent s2.cur = false → s2.me.pc.toNat < s2.me.codeLen →
    (s2.codeWords s2.me s2.me.pc.toNat).take 4 = [w, nopWord, nopWord, nopWord ||| 0x80000000] →
    firstOffender (vLimit s2.cur.core) (decide (s2.me.delay ≠ 0)) Tally.zero 0
      [w, nopWord, nopWord, nopWord ||| 0x80000000] = none →
    match issueSems [(0, m)] 1 s2 with
    | .issued t => exec i s2 = .next t ∧ step s = .next t.afterTick
    | a => exec i s2 = .next a.state ∧ step s = .next (s1.unfocus s.cur.coreRef a.state).afterTick

/-- In a powered module whose agenda (the model's own list of the agents' machine steps to come) begins with a machine
step, one step is exec of that row of the opcode table in the state with the rest of the agenda: every machine step of
the table is reached this way. When the supply is lost, a step with an empty agenda is the fault unpowered, a machine
step other than a module reset is dropped with no effect, and a module reset runs. -/
def Obligations.StepRunsAgenda : Prop :=
  (∀ (s : State) (i : Instr) (e : Event) (rest : List Event), s.powered = true → eventOf i = some e →
      s.agenda = e :: rest → step s = exec i { s with agenda := rest })
    ∧ (∀ e : Event, ∃ i, eventOf i = some e)
    ∧ ∀ s : State, s.powered = false →
      (s.agenda = [] → step s = .fault .unpowered)
      ∧ (∀ e rest, s.agenda = e :: rest → isReset e = false → step s = .next { s with agenda := rest })
      ∧ ∀ p rest, s.agenda = .moduleReset p :: rest → step s = exec (.moduleReset p) { s with agenda := rest }

/-- For every state whose memory is in canonical form (addresses strictly rising, no entry equal to what an unlisted byte
reads as), the memory after a step that answers a next state is in canonical form: equal memories stay equal data,
whatever instruction or machine step ran. The form is the model's own data convention. -/
def Obligations.MemoryCanonical : Prop :=
  ∀ s t : State, Safe s → step s = .next t → Safe t

/-- After module reset the memory is in canonical form (the invariant of MemoryCanonical), no job is active, no slot of
any core holds a task, every byte of memory reads zero, every vector register is zero, every accumulator unit is FREE,
every tile entry is undefined, every die has EMASK 0, an empty event queue, EQLOST 0 and L2DOM (0, 4, not busy), and
no link is trained. -/
def Obligations.ResetState : Prop :=
  Safe State.reset ∧ State.reset.jobid = 0 ∧ (∀ r : TaskRef, State.reset.task? r = none) ∧ (∀ a, State.reset.mem.byte a = 0)
    ∧ (∀ c p, (State.reset.core c).vreg p = VReg.zero)
    ∧ (∀ c n, (State.reset.core c).tile n = TileEntry.undefined)
    ∧ (∀ c n, (State.reset.core c).units.get AccUnit.free n = AccUnit.free)
    ∧ (∀ d, (State.reset.die d).lodge.emask = 0 ∧ (State.reset.die d).lodge.eqhead = 0 ∧ (State.reset.die d).lodge.eqtail = 0
      ∧ (State.reset.die d).lodge.eqlost = 0 ∧ (State.reset.die d).l2first = 0 ∧ (State.reset.die d).l2logn = 4
      ∧ (State.reset.die d).l2busy = false)
    ∧ ∀ d n, ((State.reset.die d).links.get Link.reset n).st = 0

/-- For every instruction of a slot whose guard is a scalar predicate (all but the V slots) and that does not occupy the F
unit, in a state where its guard is false and its encoding is accepted on the core, exec is exec of NOP: it changes no
state of its own, raises no execution trap and waits for nothing. -/
def Obligations.GuardFalse : Prop :=
  ∀ (i : Instr) (m : SlotSem) (s : State), slotSem i = some m → m.lanes = false → m.funit = false →
    s.me.guardOn m.guard = false → m.isIllegal s = false → exec i s = exec (.nop ⟨0, false⟩) s

/-- For every instruction of a slot: on a core other than a lodge core, with BUDGET 0 the step is the budget-exhausted
trap (cause 0x08) of the task and nothing of the instruction happens, a BUDGET of all ones is not charged and any
other is charged 1; and where the slot is accepted and allowed on its core, in a task whose BUDGET is not spent and
that has a completion-latency operation outstanding, the step leaves the state exactly as it was. -/
def Obligations.BudgetAndHoldsStopTheBundle : Prop :=
  (∀ (i : Instr) (m : SlotSem) (s : State), slotSem i = some m → isLodge s.cur.core = false → s.me.budget = 0 →
      exec i s = .next (s.takeTrap s.cur ⟨0x08, 0⟩))
    ∧ chargedBudget (BitVec.allOnes 64) = BitVec.allOnes 64 ∧ (∀ b, b ≠ BitVec.allOnes 64 → chargedBudget b = b - 1)
    ∧ ∀ (i : Instr) (m : SlotSem) (s : State), slotSem i = some m → s.spent s.cur = false → s.me.holds ≠ [] →
      m.isIllegal s = false → m.isDenied s = false → exec i s = .next s

/-- ERET and the lodge operations on a core that is not a lodge core, and TLNCH and RLINV on a compute core, with a true
guard, in a task whose BUDGET is not spent, take the privileged-instruction trap (cause 0x03) of slot 0 and have no
other effect. ERET, PRMPT, RESUME, CTXSV, CTXLD, TLBINV, GENBUMP, L2WB, DOMSET, GSW, GRES, ATTEST, KEYLD, NPLOAD, LKEY
and FTAKE are of a lodge core, TLNCH and RLINV of a lodge or control core, CSRR and CSRW of a number from 0x800 up of
a lodge core, and the matrix instructions of a core with an array (elsewhere they are illegal instructions). -/
def Obligations.PrivilegedOutsideTheLodge : Prop :=
  (∀ (i : Instr) (m : SlotSem) (s : State), slotSem i = some m → s.spent s.cur = false →
    s.me.guardOn m.guard = true → m.isIllegal s = false →
    (m.place = .lodge ∧ isLodge s.cur.core = false ∨ m.place = .lodgeControl ∧ isCompute s.cur.core = true) →
    exec i s = .next (s.takeTrap s.cur ⟨0x03, 0⟩))
    ∧ (∀ g a b c, [semEret g, semPrmpt g a c, semResume g a c, semCtxsv g a b c, semCtxld g a b c, semTlbinv g a b c,
      semGenbump g a b, semL2wb g a b c, semDomset g a, semGsw g a c, semGres g a c, semAttest g a b c,
      semKeyld g a b c, semNpload g a b c, semLkey g a b c, semFtake g a b].map SlotSem.place
        = List.replicate 16 Place.lodge)
    ∧ (∀ g k e a, (semTlnch g k e).place = .lodgeControl ∧ (semRlinv g a).place = .lodgeControl)
    ∧ (∀ g r (n : BitVec 12), 0x800 ≤ n.toNat → (semCsrr g r n).place = .lodge ∧ (semCsrw g r n).place = .lodge)
    ∧ ∀ g r k e t d v p, [semMstrm g k e t, semMzero g t, semMcfg g r t, semMsplit g t, semMskip g t,
      semMclaim g d t, semMrel g t, semMlatch g r t, semMrd g v t p, semMwr g v t p, semMout g k e t].map SlotSem.place
        = List.replicate 11 Place.array

/-- For every instruction of a slot, in a state where its task may issue and the slot is accepted, allowed, not stalled
and traps for nothing, exec answers the next state in which the slot has acted in the opened bundle and the bundle's
boundary has followed. The statements of each family say what the effect is. -/
def Obligations.IssueCompletes : Prop :=
  ∀ (i : Instr) (m : SlotSem) (s : State), slotSem i = some m → Ready m s → exec i s = .next (issued m s)

/-- When a bundle of a task on a core other than a lodge core traps, the task is halted with the trap as its cause, with
its registers, PC, transfer state, loop stack and results in flight as they were, BUDGET uncharged and no pre-emption
pending; its die posts one record of kind S with the cause, INFO, the task's job and LIDX, and the PC of the bundle
that did not issue; no byte of memory and no other task changes. -/
def Obligations.TrapHaltsTask : Prop :=
  ∀ (s : State) (r : TaskRef) (tr : Trap), isLodge r.core = false →
    (s.takeTrap r tr).task r = { s.task r with halted := true, preempt := false, trapped := some tr, ctl := .none }
    ∧ (s.takeTrap r tr).die r.die = (s.die r.die).post
        ⟨tr.cause, 0, r.die, r.core, r.slot, (s.task r).job, tr.info, (s.task r).lidx, (s.task r).pc, s.cycle32, none⟩
    ∧ (∀ q : TaskRef, CoreRef.key q.coreRef = CoreRef.key r.coreRef → q.slot ≠ r.slot → (s.takeTrap r tr).task? q = s.task? q)
    ∧ (∀ c, CoreRef.key c ≠ CoreRef.key r.coreRef → (s.takeTrap r tr).core c = s.core c)
    ∧ (∀ d, d ≠ r.die → (s.takeTrap r tr).die d = s.die d)
    ∧ (s.takeTrap r tr).mem = s.mem ∧ (s.takeTrap r tr).launches = s.launches ∧ (s.takeTrap r tr).cur = s.cur

/-- A record posted to a die enters the queue when fewer than 256 records are held (and, for kind S, none waits): the tail
moves on by one, and the record stands last unless the youngest record is of its own cycle and of an agent that ranks
above its own. When the queue is full an S record waits and nothing is lost, a record of kind F or E is dropped and
EQLOST is incremented, and the X record of a fatal cause, which EQLOST counts too, takes the place of the youngest
(the model's choice, notes/assumptions/129). -/
def Obligations.RecordsWaitOrDrop : Prop :=
  ∀ (d : Die) (e : EventRec),
    (e.kind = 0 → d.lodge.held < 256 → d.waitingS = [] → d.post e = d.enqueue e)
    ∧ (e.kind ≠ 0 → d.lodge.held < 256 → d.post e = d.enqueue e)
    ∧ (e.kind = 0 → 256 ≤ d.lodge.held → d.post e = { d with waitingS := d.waitingS ++ [e] })
    ∧ (e.kind ≠ 0 → e.kind ≠ 3 → 256 ≤ d.lodge.held →
      d.post e = { d with lodge := { d.lodge with eqlost := d.lodge.eqlost + 1 } })
    ∧ (e.kind = 3 → 256 ≤ d.lodge.held →
      (d.post e).events = Tbl.set none d.events ((d.lodge.eqtail + 511) % 512 % 256) (some e)
      ∧ (d.post e).lodge = { d.lodge with eqlost := d.lodge.eqlost + 1 })
    ∧ (d.enqueue e).lodge = { d.lodge with eqtail := (d.lodge.eqtail + 1) % 512 }
    ∧ (d.enqueue e).events.get none (d.placeOf e d.lodge.eqtail d.lodge.held % 256) = some e
    ∧ ((∀ x, d.events.get none ((d.lodge.eqtail + 511) % 512 % 256) = some x → x.cycle = e.cycle → x.rank ≤ e.rank) →
      d.placeOf e d.lodge.eqtail d.lodge.held = d.lodge.eqtail)

/-- When a bundle of a die's lodge core traps with EMASK[0] clear, EPC is the PC of the trapping bundle, ETRANS the
transfer state, EPREDS the predicates, ECAUSE the cause and EINFO the INFO, EMASK[0] is set with EMASK[1] as it was,
and the task goes on at EVEC with no transfer pending and with its registers, loop stack and BUDGET as they were; no
byte of memory changes. With EMASK[0] set the module stops on the fatal cause 0xE0 of that die, whose INFO holds the
second trap's cause, kind 0 and the PC of the bundle; after a fatal stop such a trap only halts that lodge. -/
def Obligations.LodgeTraps : Prop :=
  (∀ (s : State) (r : TaskRef) (tr : Trap), isLodge r.core = true → (s.die r.die).lodge.emask.getLsbD 0 = false →
    (s.takeTrap r tr).task r =
        { s.task r with
          pc := (s.die r.die).lodge.evec.setWidth 32, target := 0, delay := 0, halted := false, ctl := .none }
    ∧ ((s.takeTrap r tr).die r.die).lodge =
        { (s.die r.die).lodge with
          epc := (s.task r).pc.setWidth 64
          etrans := transWord (s.task r).target (s.task r).delay
          epreds := (s.task r).preds.setWidth 64
          ecause := BitVec.ofNat 64 tr.cause
          einfo := tr.info
          emask := (s.die r.die).lodge.emask ||| 1 }
    ∧ (s.takeTrap r tr).mem = s.mem)
    ∧ ∀ (s : State) (r : TaskRef) (tr : Trap), isLodge r.core = true → (s.die r.die).lodge.emask.getLsbD 0 = true →
    (s.fatal = none →
      s.takeTrap r tr = s.fatalStop r.die 0xE0 (BitVec.ofNat 64 (tr.cause + (s.task r).pc.toNat * 2 ^ 32)))
    ∧ (s.fatal.isSome = true → s.takeTrap r tr = s.modTask r fun t => { t with halted := true })

/-- On the first fatal cause every task of a compute or control core halts, every die has EMASK 0b01, ECAUSE the cause's
code and its other exception registers as they were, a lodge core's task restarts at FVEC with no transfer pending,
and the first cause is kept with its die, code and INFO; a later fatal cause changes nothing; no byte of memory
changes. -/
def Obligations.FatalStopsTheModule : Prop :=
  ∀ (s : State) (die cause : Nat) (info : W64),
    (s.fatal.isSome = true → s.fatalStop die cause info = s)
    ∧ (s.fatal = none →
      (s.fatalStop die cause info).fatal = some ⟨die, cause, info, s.cycle, false, false⟩
      ∧ (s.fatalStop die cause info).mem = s.mem
      ∧ (∀ d, d < 8 → ((s.fatalStop die cause info).die d).lodge.emask = 1
        ∧ ((s.fatalStop die cause info).die d).lodge.ecause = BitVec.ofNat 64 cause
        ∧ ((s.fatalStop die cause info).die d).lodge.epc = (s.die d).lodge.epc
        ∧ ((s.fatalStop die cause info).die d).lodge.einfo = (s.die d).lodge.einfo
        ∧ ((s.fatalStop die cause info).die d).lodge.etrans = (s.die d).lodge.etrans
        ∧ ((s.fatalStop die cause info).die d).lodge.epreds = (s.die d).lodge.epreds)
      ∧ (∀ (d : Nat) (t : Task), d < 8 → s.task? ⟨d, 96, 0⟩ = some t →
        ((s.fatalStop die cause info).task ⟨d, 96, 0⟩).pc = (s.die d).lodge.fvec.setWidth 32
        ∧ ((s.fatalStop die cause info).task ⟨d, 96, 0⟩).halted = false
        ∧ ((s.fatalStop die cause info).task ⟨d, 96, 0⟩).delay = 0)
      ∧ ∀ (r : TaskRef) (t : Task), r.die < 8 → r.core < 128 → r.core ≠ 96 → s.task? r = some t →
        (s.fatalStop die cause info).task? r = some { t with halted := true })

/-- When a bundle at address a has issued: a stack whose innermost level does not end at a is left as it is; a level that
ends at a with a count (its pending write if any) above 1 iterates at its begin address with the count one less and LI
one more, one more rotation if it rotates, the outer levels untouched; a level whose count is 0 or 1 is popped,
rotating if it rotates, and the next level is tried. -/
def Obligations.LoopCloses : Prop :=
  (∀ a k, closeLoops a [] k = ([], k, none))
    ∧ ∀ (a : W32) (x : LoopLevel) (rest : List LoopLevel) (k : Nat),
      (x.le ≠ a → closeLoops a (x :: rest) k = (x :: rest, k, none))
      ∧ (x.le = a → 1 < x.pending.getD x.lc →
        closeLoops a (x :: rest) k =
          ({ x with lc := x.pending.getD x.lc - 1, li := x.li + 1, pending := none } :: rest,
            if x.rot then k + 1 else k, some x.lb))
      ∧ (x.le = a → x.pending.getD x.lc ≤ 1 →
        closeLoops a (x :: rest) k = closeLoops a rest (if x.rot then k + 1 else k))

/-- ADD to BFI of class 000, CLZ, CTZ, POPC and SEL, in a task that may issue, with a true guard and a quiet boundary,
answer the next state in which s_d receives the value of Table 4.5 after the latency of Table 2.15 (1; 2 for the
products; 8 for the divisions; a division by zero gives all ones, a remainder by zero the dividend), a write of s0 is
discarded, and beside PC, BUDGET, BCNT, LTIME and the ageing of earlier results nothing else changes: no flag,
predicate, special register, other task or byte of memory. -/
def Obligations.ScalarArithmetic : Prop :=
  ∀ (g : Guard) (d a b : BitVec 5) (p : BitVec 3) (s : State), Runs g s →
    Gives (.add g d a b) s (scalarResult 1 d (s.sreg a + s.sreg b))
    ∧ Gives (.sub g d a b) s (scalarResult 1 d (s.sreg a - s.sreg b))
    ∧ Gives (.mul g d a b) s (scalarResult 2 d (s.sreg a * s.sreg b))
    ∧ Gives (.mulh g d a b) s (scalarResult 2 d (BitVec.ofInt 64 ((s.sreg a).toInt * (s.sreg b).toInt / 2 ^ 64)))
    ∧ Gives (.mulhz g d a b) s (scalarResult 2 d (BitVec.ofNat 64 ((s.sreg a).toNat * (s.sreg b).toNat / 2 ^ 64)))
    ∧ Gives (.div g d a b) s (scalarResult 8 d (if s.sreg b = 0 then BitVec.allOnes 64 else (s.sreg a).sdiv (s.sreg b)))
    ∧ Gives (.divz g d a b) s (scalarResult 8 d (if s.sreg b = 0 then BitVec.allOnes 64 else s.sreg a / s.sreg b))
    ∧ Gives (.rem g d a b) s (scalarResult 8 d (if s.sreg b = 0 then s.sreg a else (s.sreg a).srem (s.sreg b)))
    ∧ Gives (.remz g d a b) s (scalarResult 8 d (if s.sreg b = 0 then s.sreg a else s.sreg a % s.sreg b))
    ∧ Gives (.and g d a b) s (scalarResult 1 d (s.sreg a &&& s.sreg b))
    ∧ Gives (.or g d a b) s (scalarResult 1 d (s.sreg a ||| s.sreg b))
    ∧ Gives (.xor g d a b) s (scalarResult 1 d (s.sreg a ^^^ s.sreg b))
    ∧ Gives (.andn g d a b) s (scalarResult 1 d (s.sreg a &&& ~~~(s.sreg b)))
    ∧ Gives (.shl g d a b) s (scalarResult 1 d (s.sreg a <<< ((s.sreg b).toNat % 64)))
    ∧ Gives (.shr g d a b) s (scalarResult 1 d (s.sreg a >>> ((s.sreg b).toNat % 64)))
    ∧ Gives (.sra g d a b) s (scalarResult 1 d ((s.sreg a).sshiftRight ((s.sreg b).toNat % 64)))
    ∧ Gives (.rol g d a b) s (scalarResult 1 d ((s.sreg a).rotateLeft ((s.sreg b).toNat % 64)))
    ∧ Gives (.min g d a b) s (scalarResult 1 d (if (s.sreg a).slt (s.sreg b) then s.sreg a else s.sreg b))
    ∧ Gives (.max g d a b) s (scalarResult 1 d (if (s.sreg a).slt (s.sreg b) then s.sreg b else s.sreg a))
    ∧ Gives (.minz g d a b) s (scalarResult 1 d (if s.sreg a < s.sreg b then s.sreg a else s.sreg b))
    ∧ Gives (.maxz g d a b) s (scalarResult 1 d (if s.sreg a < s.sreg b then s.sreg b else s.sreg a))
    ∧ Gives (.bfx g d a b) s (scalarResult 1 d (bfxS (s.sreg a) (s.sreg b)))
    ∧ Gives (.bfxz g d a b) s (scalarResult 1 d (bfxU (s.sreg a) (s.sreg b)))
    ∧ Gives (.bfi g d a b) s (scalarResult 1 d (bfiW (s.sreg d) (s.sreg a) (s.sreg b)))
    ∧ Gives (.clz g d a) s (scalarResult 1 d (BitVec.ofNat 64 (clzNat 64 (s.sreg a).toNat)))
    ∧ Gives (.ctz g d a) s (scalarResult 1 d (BitVec.ofNat 64 (ctzNat (s.sreg a).toNat 64)))
    ∧ Gives (.popc g d a) s (scalarResult 1 d (BitVec.ofNat 64 (popNat (s.sreg a).toNat 64)))
    ∧ Gives (.sel g d a b p) s (scalarResult 1 d (if s.me.pred p.toNat then s.sreg a else s.sreg b))

/-- ADDI, ANDI (sign-extended immediates), ORI, XORI (zero-extended), SHLI, SHRI, SRAI, MOVI, MOVH (s_d as it stands at
issue, shifted left 15, with the immediate), ADDSH, and PAND, POR, PXOR, PNOT, in a task that may issue, with a true
guard and a quiet boundary, answer the next state in which s_d or pd receives the value after one bundle (writes of s0
and p0 are discarded), and nothing else changes. -/
def Obligations.ScalarImmediatesAndPredicates : Prop :=
  ∀ (g : Guard) (d a b sh5 : BitVec 5) (imm : BitVec 10) (i15 : BitVec 15) (sh : BitVec 6) (e x y : BitVec 3) (s : State), Runs g s →
    Gives (.addi g d a imm) s (scalarResult 1 d (s.sreg a + imm.signExtend 64))
    ∧ Gives (.andi g d a imm) s (scalarResult 1 d (s.sreg a &&& imm.signExtend 64))
    ∧ Gives (.ori g d a imm) s (scalarResult 1 d (s.sreg a ||| imm.setWidth 64))
    ∧ Gives (.xori g d a imm) s (scalarResult 1 d (s.sreg a ^^^ imm.setWidth 64))
    ∧ Gives (.shli g d a sh) s (scalarResult 1 d (s.sreg a <<< sh.toNat))
    ∧ Gives (.shri g d a sh) s (scalarResult 1 d (s.sreg a >>> sh.toNat))
    ∧ Gives (.srai g d a sh) s (scalarResult 1 d ((s.sreg a).sshiftRight sh.toNat))
    ∧ Gives (.movi g d i15) s (scalarResult 1 d (i15.signExtend 64))
    ∧ Gives (.movh g d i15) s (scalarResult 1 d ((s.sreg d <<< 15) ||| i15.setWidth 64))
    ∧ Gives (.addsh g d a b sh5) s (scalarResult 1 d (s.sreg a + (s.sreg b <<< sh5.toNat)))
    ∧ Gives (.pand g e x y) s [⟨.pred e.toNat (s.me.pred x.toNat && s.me.pred y.toNat), 1, 0⟩]
    ∧ Gives (.por g e x y) s [⟨.pred e.toNat (s.me.pred x.toNat || s.me.pred y.toNat), 1, 0⟩]
    ∧ Gives (.pxor g e x y) s [⟨.pred e.toNat (s.me.pred x.toNat != s.me.pred y.toNat), 1, 0⟩]
    ∧ Gives (.pnot g e x) s [⟨.pred e.toNat (!s.me.pred x.toNat), 1, 0⟩]

/-- CMP, CMPI and SFCMP, in a task that may issue, with a true guard and a quiet boundary, answer the next state in which
pt receives the condition of Table 2.13 and pf its complement with latency 1 and nothing else changes; a write of p0
is discarded; and a word of layout CP or CPI whose pt and pf are equal and not p0 decodes to no slot, so that its slot
is the illegal-instruction slot. -/
def Obligations.CompareWritesBothPredicates : Prop :=
  (∀ (g : Guard) (pt pf : BitVec 3) (a b : BitVec 5) (cond : BitVec 4) (s : State), Runs g s →
      Gives (.cmp g pt pf a b cond) s [⟨.pred pt.toNat (condInt cond.toNat (s.sreg a) (s.sreg b)), 1, 0⟩,
        ⟨.pred pf.toNat (!condInt cond.toNat (s.sreg a) (s.sreg b)), 1, 0⟩]
      ∧ Gives (.cmpi g pt pf a b cond) s [⟨.pred pt.toNat (condInt cond.toNat (s.sreg a) (b.signExtend 64)), 1, 0⟩,
        ⟨.pred pf.toNat (!condInt cond.toNat (s.sreg a) (b.signExtend 64)), 1, 0⟩]
      ∧ Gives (.sfcmp g pt pf a b cond) s [⟨.pred pt.toNat (condFloat cond.toNat (f32Of (s.sreg a)) (f32Of (s.sreg b))), 1, 0⟩,
        ⟨.pred pf.toNat (!condFloat cond.toNat (f32Of (s.sreg a)) (f32Of (s.sreg b))), 1, 0⟩])
    ∧ (∀ (t : Task) (b : Bool), t.setPred 0 b = t)
    ∧ (∀ (t : Task) (n : Nat) (b : Bool), 0 < n → n < 8 → (t.setPred n b).pred n = b)
    ∧ ∀ w : W32, (bits w.toNat 26 20 = 0x18 ∨ bits w.toNat 26 20 = 0x19 ∨ bits w.toNat 26 20 = 0x1D) →
      bits w.toNat 19 17 = bits w.toNat 16 14 → bits w.toNat 19 17 ≠ 0 →
      (∃ r, decodeSlot w = .error r) ∧ ∀ s, (wordSem w).isIllegal s = true

/-- SFADD, SFMUL, SFFMA (exact product and sum, one rounding, accumulating into s_d), SFMIN, SFMAX (no flags) and SFCVT,
in a task that may issue, with a true guard and a quiet boundary, answer the next state in which s_d receives the FP32
result in bits [31:0] (zero above, where the result is FP32) with latency 2, its flags reach FSTAT with it, and
nothing else changes. -/
def Obligations.ScalarFloat : Prop :=
  ∀ (g : Guard) (d a b : BitVec 5) (rz : BitVec 1) (s : State), Runs g s →
    let x := f32Of (s.sreg a)
    let y := f32Of (s.sreg b)
    let z := f32Of (s.sreg d)
    let gives := fun (i : Instr) (v : Nat × Flags) => Gives i s [⟨.scalar d.toNat (BitVec.ofNat 64 v.1), 2, v.2⟩]
    gives (.sfadd g d a b rz) (Fmt.f32.add (rzMode rz) x y)
    ∧ gives (.sfmul g d a b rz) (Fmt.f32.mul (rzMode rz) x y)
    ∧ gives (.sffma g d a b rz) (Fmt.f32.fma (rzMode rz) x y z)
    ∧ gives (.sfmin g d a b) ((Fmt.f32.round .rne (x.min y)).1, 0)
    ∧ gives (.sfmax g d a b) ((Fmt.f32.round .rne (x.max y)).1, 0)
    ∧ ∀ code : BitVec 5, gives (.sfcvt g d a code rz) (sfcvtVal code.toNat (rzMode rz) (s.sreg a))

/-- MOVS and CSRR of a number, in a task that may issue, with a true guard and a quiet boundary, give s_d the value the
register reads as in the opened bundle (a lodge register on a lodge core alone). MOVS and CSRW to a number other than
FSTAT, SLN and the lodge registers take effect for the next bundle; to FSTAT they also discard the flags of results in
flight; to SLN they put a claim of the value, or a steal request for all ones, on the task, and in a checkpoint region
trap with cause 0x24 instead; CSRW to a lodge register, on a lodge core, writes that register of the die: EQHEAD moves
the head of the queue where the value lies in the held range, KILL ends the named tasks after the bundle, and a
read-only or unlisted one discards the value. Nothing else changes. A write of FSTAT sets its six flags; of BUDGET can
only lower it, and is discarded on a lodge core; of PREDS sets p1 to p7 with p0 staying 1; of a read-only or unlisted
number changes nothing. -/
def Obligations.SpecialRegisterMoves : Prop :=
  (∀ (g : Guard) (r : BitVec 5) (num : BitVec 12) (s : State), Runs g s →
    (num.toNat < 0x800 ∨ isLodge s.cur.core = true →
      Gives (.movsRead g r num) s (scalarResult 1 r ((opened s).readReg num.toNat))
      ∧ Gives (.csrr g r num) s (scalarResult 1 r ((opened s).readReg num.toNat)))
    ∧ (num.toNat < 0x800 → num ≠ 0x000 → num ≠ 0x00A →
      Gives (.movsWrite g r num) s [⟨.special num.toNat (s.sreg r), 1, 0⟩]
      ∧ Gives (.csrw g r num) s [⟨.special num.toNat (s.sreg r), 1, 0⟩])
    ∧ (let drop := fun (t : Task) => { t with pend := t.pend.map fun p => { p with flags := 0 } }
      Does (.movsWrite g r 0x000) s false false drop [⟨.special 0 (s.sreg r), 1, 0⟩]
      ∧ Does (.csrw g r 0x000) s false false drop [⟨.special 0 (s.sreg r), 1, 0⟩])
    ∧ (let hold := fun (t : Task) =>
        { t with holds := t.holds ++ [if s.sreg r = BitVec.allOnes 64 then .steal s.cycle else .claim (s.sreg r) s.cycle] }
      (s.inRegion = false → Does (.movsWrite g r 0x00A) s false false hold [] ∧ Does (.csrw g r 0x00A) s false false hold [])
      ∧ (s.inRegion = true → exec (.movsWrite g r 0x00A) s = .next (s.takeTrap s.cur ⟨0x24, 0⟩)
        ∧ exec (.csrw g r 0x00A) s = .next (s.takeTrap s.cur ⟨0x24, 0⟩)))
    ∧ (isLodge s.cur.core = true →
      let writes := fun (n : BitVec 12) (d : Die) =>
        ∃ t, exec (.csrw g r n) s = .next t ∧ Frame coreBeside (fun x => { moduleBeside x with dies := [] }) s t
          ∧ t.task s.cur = afterBundle true s.me ∧ t.die s.cur.die = d ∧ ∀ k, k ≠ s.cur.die → t.die k = s.die k
      (0x800 ≤ num.toNat → num ≠ 0x808 → num ≠ 0x811 →
        writes num { s.die s.cur.die with lodge := (s.die s.cur.die).lodge.write num.toNat (s.sreg r) })
      ∧ writes 0x808 ((s.die s.cur.die).writeEqhead (s.sreg r))
      ∧ ∃ u t, exec (.csrw g r 0x811) s = .next t ∧ OnlyTask s u ∧ u.task s.cur = afterBundle true s.me
        ∧ OnlyTask (u.kill s.cur.die (s.sreg r)) t ∧ t.task s.cur = (u.kill s.cur.die (s.sreg r)).task s.cur))
    ∧ ∀ (t : Task) (v : W64),
    (∀ lodge, t.writeSpecial lodge 0x000 v = { t with fstat := v.setWidth 6 })
    ∧ (v.toNat < t.budget.toNat → t.writeSpecial false 0x001 v = { t with budget := v })
    ∧ (t.budget.toNat ≤ v.toNat → t.writeSpecial false 0x001 v = t)
    ∧ t.writeSpecial true 0x001 v = t
    ∧ (∀ lodge, (t.writeSpecial lodge 0x030 v).preds = (v.setWidth 8 ||| 1)
      ∧ (t.writeSpecial lodge 0x030 v).pred 0 = true)
    ∧ ∀ lodge n, (2 ≤ n ∧ n < 0x010 ∨ n = 0x031 ∨ 0x031 < n) → t.writeSpecial lodge n v = t

/-- In a task that may issue, with a true guard and a quiet boundary: PREP gives tbN the address of its own bundle plus
the signed offset and PREPR the low 32 bits of s_a, each with latency 1; BR makes the target of tbN pending with two
delay bundles to issue, and BRL does the same and gives s_d the address of the third bundle after it; nothing else
changes. A NOP in the first delay bundle leaves one delay bundle to issue at the next bundle; a NOP in the second
makes PC the target with no transfer pending. -/
def Obligations.Transfers : Prop :=
  (∀ (g : Guard) (tb : BitVec 2) (off : BitVec 18) (a d : BitVec 5) (s : State), Runs g s →
      Gives (.prep g tb off) s [⟨.target tb.toNat (s.me.pc + off.signExtend 32), 1, 0⟩]
      ∧ Gives (.prepr g tb a) s [⟨.target tb.toNat ((s.sreg a).setWidth 32), 1, 0⟩]
      ∧ Does (.br g tb) s false false (fun t => { t with target := s.me.tb.get 0 tb.toNat, delay := 2 }) []
      ∧ Does (.brl g tb d) s false false (fun t => { t with target := s.me.tb.get 0 tb.toNat, delay := 2 })
        (scalarResult 1 d ((BitVec.ofNat 32 s.returnAddr).setWidth 64)))
    ∧ ∀ (g : Guard) (s : State), MayIssue s → Calm s →
      (s.me.delay = 2 → Does (.nop g) s false false (fun t => { t with target := s.me.target, delay := 1 }) [])
      ∧ (s.me.delay = 1 → Does (.nop g) s false false (fun t => { t with pc := s.me.target, delay := 0 }) [])

/-- With (b, e) the begin and end of the body (the shadow of the level where it is valid, else the next bundle and the
bundle the offset names), in a task that may issue, with a true guard and a quiet boundary: LOOP and LOOPI with a
count that is not 0, below depth 6, with b at most e, push the level (count, index 0, b, e, rotate) and use up the
shadow; with a count of 0 they go to the bundle after e; with e below b they trap loop-range (0x05, INFO e minus b),
and at depth 6 with a count that is not 0, loop-stack overflow (0x06). LPOP pops the innermost level and goes on in
sequence; LBRK pops it and goes to the bundle after its end; at depth 0 both trap loop-stack underflow (0x07). Nothing
else changes. -/
def Obligations.Loops : Prop :=
  ∀ (g : Guard) (s : State), Runs g s →
    (∀ (i : Instr) (n : W64) (rot : Bool) (span : Nat),
      ((∃ a r off, i = .loop g a r off ∧ n = s.sreg a ∧ rot = decide (r = 1) ∧ span = off.toNat)
        ∨ ∃ c r off, i = .loopi g c r off ∧ n = c.setWidth 64 ∧ rot = decide (r = 1) ∧ span = off.toNat) →
      let b := (s.loopEnds span).1
      let e := (s.loopEnds span).2
      let used := fun (t : Task) =>
        if s.me.loops.length < 6 ∧ (s.me.shadow s.me.loops.length).valid = true then
          t.setShadow s.me.loops.length { s.me.shadow s.me.loops.length with valid := false } else t
      (e < b → exec i s = .next (s.takeTrap s.cur ⟨0x05, e.setWidth 64 - b.setWidth 64⟩))
      ∧ (b ≤ e → n ≠ 0 → s.me.loops.length = 6 → exec i s = .next (s.takeTrap s.cur ⟨0x06, 0⟩))
      ∧ (b ≤ e → n ≠ 0 → s.me.loops.length < 6 → e ≠ s.me.pc →
        Does i s false false (fun t => { used t with loops := ⟨n, 0, b, e, rot, none⟩ :: t.loops }) [])
      ∧ (b ≤ e → n = 0 → Does i s false false (fun t => { used t with pc := s.after s.me e }) []))
    ∧ (s.me.loops = [] → exec (.lpop g) s = .next (s.takeTrap s.cur ⟨0x07, 0⟩)
      ∧ exec (.lbrk g) s = .next (s.takeTrap s.cur ⟨0x07, 0⟩))
    ∧ ∀ x rest, s.me.loops = x :: rest → (∀ l ∈ rest.head?, l.le ≠ s.me.pc) →
      Does (.lpop g) s false false (fun t => { t with loops := rest }) []
      ∧ Does (.lbrk g) s false false (fun t => { t with loops := rest, pc := s.after s.me x.le }) []

/-- A word whose OP is 0x2F decodes exactly when its operand bits [19:0] are zero, and then to NOP with the guard its
guard field names; and NOP under any guard, true or false, in a task that may issue at a quiet boundary, completes
with no result and nothing changed beside the bundle itself. -/
def Obligations.NopDoesNothing : Prop :=
  (∀ w : W32, bits w.toNat 26 20 = 0x2F →
      (bits w.toNat 19 0 = 0 → decodeSlot w = .ok ⟨decide (bits w.toNat 31 31 = 1), .nop (guardOf w.toNat)⟩)
      ∧ (bits w.toNat 19 0 ≠ 0 → ∃ r, decodeSlot w = .error r))
    ∧ ∀ (g : Guard) (s : State), MayIssue s → Quiet s → Gives (.nop g) s []

/-- END with a true guard, in a task that may issue at a quiet boundary, outside any protected checkpoint region or with
no command that writes into the core under way, answers the next state in which the task is ending: its registers,
vector block, predicates, loop stack, transfer, queues and results in flight are released and its ordered set is
closed; its tile entries are undefined and every other entry of the core stands; each barrier of its group loses a
participant, and a phase that is thereby complete completes; its launch counts one more ended task; its loads from
other modules are forgotten and lines held for it let go. A task that waits on such a barrier may become ready at a
raised time; every other task stands, and no byte of memory and nothing else of the module changes. -/
def Obligations.EndEndsTheTask : Prop :=
  ∀ (g : Guard) (s : State), Runs g s →
    (∀ x, s.here.regions.get none s.cur.slot = some x → x.guarded = false ∨ s.here.busyInside s.cur.slot = false) →
    ∃ t, exec (.endTask g) s = .next t
      ∧ t.task s.cur = { (afterBundle (isLodge s.cur.core) s.me).released with openSet := none }
      ∧ (∀ n, n < tileCount s.cur.core → (t.core s.cur.coreRef).tile (physTile s.cur n)
          = { s.here.tile (physTile s.cur n) with v := false, st := .empty })
      ∧ (∀ m, (∀ n, n < tileCount s.cur.core → m ≠ physTile s.cur n) → (t.core s.cur.coreRef).tile m = s.here.tile m)
      ∧ (t.core s.cur.coreRef).l1 = (s.here.letGo s.cur.slot).l1 ∧ (t.core s.cur.coreRef).l1req = (s.here.letGo s.cur.slot).l1req
      ∧ (t.core s.cur.coreRef).regions.get none s.cur.slot = none
      ∧ t.die s.cur.die = s.me.bars.foldl (fun d b => d.setBarrier b (d.barrier b).leave.complete) (s.die s.cur.die)
      ∧ (∀ d, d ≠ s.cur.die → t.die d = s.die d)
      ∧ t.launches = s.launches.map (fun l => if l.seq = s.me.launch then { l with
          ended := l.ended + 1
          sets := match s.me.openSet with
            | none => l.sets
            | some o => l.sets.set OrdSet.none o { l.sets.get OrdSet.none o with
                closed := (l.sets.get OrdSet.none o).closed ++ [s.me.lidx.toNat] } } else l)
      ∧ t.sent = (s.dropLoads s.cur none).sent
      ∧ (∀ q : TaskRef, CoreRef.key q.coreRef ≠ CoreRef.key s.cur.coreRef ∨ q.slot ≠ s.cur.slot →
        (s.task? q = none → t.task? q = none)
        ∧ ∀ x, s.task? q = some x → t.task? q = some x
          ∨ ∃ n p b v, x.status = .waiting n p ∧ x.bars[n]? = some b ∧ b ∈ s.me.bars
            ∧ t.task? q = some { x.observe v with status := .ready })
      ∧ (∀ c, CoreRef.key c ≠ CoreRef.key s.cur.coreRef → { t.core c with tasks := [] } = { s.core c with tasks := [] })
      ∧ (let beside := fun (c : Core) => { coreBeside c with tiles := [], l1 := [], l1req := [] };
        beside (t.core s.cur.coreRef) = beside s.here)
      ∧ { t with cores := [], dies := [], launches := [], sent := [] } = { s with cores := [], dies := [], launches := [], sent := [] }

/-- TRAP with a true guard, in a task that may issue, takes the trap of cause 0x09 with its 20-bit code as INFO, before
anything of its bundle takes effect; with a false guard it does nothing. SYS with a true guard, on a core other than a
lodge core, in a task that may issue at a quiet boundary, answers the next state in which the task has issued its
bundle and is halted, its die has one more record of kind E (cause 0xC0, INFO s_a, the code and s_b, the task's job
and LIDX), and beside the open region and held lines of its slot nothing else changes: no byte of memory, no other
task, core or die. On a lodge core, whatever EMASK is, it is a double trap with the PC of its bundle after the bundle
has issued. -/
def Obligations.TrapAndSysCallTheLodge : Prop :=
  (∀ (g : Guard) (code : BitVec 20) (s : State), MayIssue s →
    (s.me.guardOn g = true → exec (.trap g code) s = .next (s.takeTrap s.cur ⟨0x09, code.setWidth 64⟩))
    ∧ (s.me.guardOn g = false → exec (.trap g code) s = exec (.nop ⟨0, false⟩) s))
    ∧ ∀ (g : Guard) (a b code : BitVec 5) (s : State), Runs g s →
    (isLodge s.cur.core = false →
      ∃ t, exec (.sys g a b code) s = .next t
        ∧ Frame (fun c => { coreBeside c with l1 := [], l1req := [] }) (fun x => { moduleBeside x with dies := [] }) s t
        ∧ t.task s.cur = { afterBundle false s.me with halted := true }
        ∧ t.die s.cur.die = (s.die s.cur.die).post
          ⟨0xC0, 2, s.cur.die, s.cur.core, s.cur.slot, s.me.job, s.sreg a, s.me.lidx, 0, s.cycle32, some (code.toNat, s.sreg b)⟩
        ∧ ∀ d, d ≠ s.cur.die → t.die d = s.die d)
    ∧ (isLodge s.cur.core = true →
      ∃ u, OnlyTask s u ∧ u.task s.cur = afterBundle true s.me
        ∧ exec (.sys g a b code) s = .next (u.doubleTrap s.cur s.me.pc 0xC0 2))

/-- ERET with a true guard on a lodge core, in a task that may issue at a quiet boundary, answers the next state in which
PC, the pending target and delay count and the predicates come back from EPC, ETRANS and EPREDS, EMASK[0] is clear
with EMASK[1] and every other exception register as they were, the rest of the task is as after any bundle, and
nothing else changes: no other task, core or die and no byte of memory. -/
def Obligations.EretReturns : Prop :=
  ∀ (g : Guard) (s : State), Runs g s → isLodge s.cur.core = true →
    let l := (s.die s.cur.die).lodge
    ∃ t, exec (.eret g) s = .next t ∧ Frame coreBeside (fun x => { moduleBeside x with dies := [] }) s t
      ∧ t.task s.cur = { afterBundle true s.me with
          pc := l.epc.setWidth 32, target := l.etrans.setWidth 32, delay := l.etrans.toNat / 2 ^ 32 % 4
          preds := l.epreds.setWidth 8 ||| 1 }
      ∧ t.die s.cur.die = { s.die s.cur.die with lodge := { l with emask := l.emask &&& 2 } }
      ∧ ∀ d, d ≠ s.cur.die → t.die d = s.die d

/-- With a true guard, in a task that may issue at a quiet boundary: YIELD leaves the task as after any bundle and marks
its core to prefer another ready task; WAIT on a group barrier the task has leaves the ready set while the barrier's
phase is the parity in s_a[0], and otherwise goes on with its time at least that of the completed phase; ARRIVE
outside a checkpoint region holds the next bundle with a package-scope fence that counts the arrival, and inside one
traps with cause 0x24; a barrier the group does not have traps barrier-range (0x0B) with its number. Nothing else
changes: no other task, core or die and no byte of memory. -/
def Obligations.YieldWaitArrive : Prop :=
  ∀ (g : Guard) (a c : BitVec 5) (s : State), Runs g s →
    (∃ t, exec (.yield g) s = .next t ∧ Frame (fun c => { coreBeside c with yielded := false }) moduleBeside s t
      ∧ t.task s.cur = afterBundle (isLodge s.cur.core) s.me ∧ (t.core s.cur.coreRef).yielded = true)
    ∧ (s.me.bars.length ≤ c.toNat → exec (.wait g a c) s = .next (s.takeTrap s.cur ⟨0x0B, BitVec.ofNat 64 c.toNat⟩)
      ∧ exec (.arrive g c) s = .next (s.takeTrap s.cur ⟨0x0B, BitVec.ofNat 64 c.toNat⟩))
    ∧ (c.toNat < s.me.bars.length →
      (let b := (s.die s.cur.die).barrier (s.me.bars.getD c.toNat 0);
        Does (.wait g a c) s false false (fun t =>
          if b.phase = (s.sreg a).getLsbD 0 then { t with status := .waiting c.toNat ((s.sreg a).getLsbD 0) }
          else t.observe b.doneTc) [])
      ∧ (s.inRegion = false → Does (.arrive g c) s false false (fun t =>
          { t with holds := t.holds ++ [.fence 2 false (some c.toNat) ((opened s).scopeFloor s.cur.coreRef 2)] }) [])
      ∧ (s.inRegion = true → exec (.arrive g c) s = .next (s.takeTrap s.cur ⟨0x24, 0⟩)))

/-- BGSET with a true guard, in a task that may issue at a quiet boundary: on a lodge core nothing happens; with s_a zero,
or below BUDGET as it stands after the charge of this bundle, the warning level becomes s_a and nothing else changes;
with s_a nonzero and at or above that BUDGET, the warning level becomes 0 and one record of kind E (cause 0xC1, INFO
that BUDGET) is posted on the task's die, and nothing else changes. -/
def Obligations.BudgetWarning : Prop :=
  ∀ (g : Guard) (a : BitVec 5) (s : State), Runs g s →
    let b := chargedBudget s.me.budget
    (isLodge s.cur.core = true → Gives (.bgset g a) s [])
    ∧ (isLodge s.cur.core = false → s.sreg a ≠ 0 → b ≤ s.sreg a →
      ∃ t, exec (.bgset g a) s = .next t ∧ Frame coreBeside (fun x => { moduleBeside x with dies := [] }) s t
        ∧ t.task s.cur = afterBundle false s.me
        ∧ t.die s.cur.die = (s.die s.cur.die).post
            ⟨0xC1, 2, s.cur.die, s.cur.core, s.cur.slot, s.me.job, b, s.me.lidx, 0, s.cycle32, none⟩
        ∧ ∀ d, d ≠ s.cur.die → t.die d = s.die d)
    ∧ (isLodge s.cur.core = false → (s.sreg a = 0 ∨ s.sreg a < b) →
      ∃ t, exec (.bgset g a) s = .next t ∧ OnlyTask s t
        ∧ t.task s.cur = { afterBundle false s.me with bwarn := s.sreg a })

/-- CKPT with a true guard on a core where no command of the task writes into the core, in a task that may issue at a
quiet boundary, answers the next state in which the slot has an open region: its captured task is the task after the
bundle, with the tile entries of the slot, its address the CKPT's, its log, charge, bundle and cycle counts empty,
protected when the core has no other region; the regions of the other slots stand, the task itself goes on as after
any bundle, and nothing else changes. -/
def Obligations.CheckpointOpensARegion : Prop :=
  ∀ (g : Guard) (s : State), Runs g s → s.here.busyInside s.cur.slot = false →
    ∃ t x, exec (.ckpt g) s = .next t ∧ OnlyTask s t ∧ t.task s.cur = afterBundle (isLodge s.cur.core) s.me
      ∧ (t.core s.cur.coreRef).regions.get none s.cur.slot = some x
      ∧ x = { saved := afterBundle (isLodge s.cur.core) s.me, tiles := s.here.slotTiles s.cur, addr := s.me.pc, items := [],
              charge := 0, bundles := 0, guarded := x.guarded, writes := [], cycles := 0, made := [], closed := false }
      ∧ (s.here.regions = [] → x.guarded = true)
      ∧ ∀ k, k ≠ s.cur.slot → (t.core s.cur.coreRef).regions.get none k = s.here.regions.get none k

/-- VADD to VSRA of class 100, in a task that may issue at a quiet boundary, with backed destination and with sources that
are backed or are queue heads that can be popped, answer the next state in which vd receives, with latency 2 and on
the lanes where the guard is true alone, each lane's result of its type and rounding; FSTAT receives the OR of those
lanes' flags with it; a queue named as a source is popped once; nothing else changes. -/
def Obligations.VectorArithmetic : Prop :=
  ∀ (g : Guard) (d a b : BitVec 5) (ty : BitVec 3) (mode : BitVec 2) (s : State),
    VecGives (.vadd g d a b ty mode) s g 2 d [a, b] (map2 (arithCell .add ty.toNat (RMode.ofRz (decide (mode = 1)))) (s.vreg a.toNat) (s.vreg b.toNat))
    ∧ VecGives (.vsub g d a b ty mode) s g 2 d [a, b] (map2 (arithCell .sub ty.toNat (RMode.ofRz (decide (mode = 1)))) (s.vreg a.toNat) (s.vreg b.toNat))
    ∧ VecGives (.vmul g d a b ty mode) s g 2 d [a, b] (map2 (arithCell .mul ty.toNat (RMode.ofRz (decide (mode = 1)))) (s.vreg a.toNat) (s.vreg b.toNat))
    ∧ VecGives (.vfma g d a b ty mode) s g 2 d [a, b] (map3 (fmaCell false ty.toNat (RMode.ofRz (decide (mode = 1)))) (s.vreg a.toNat) (s.vreg b.toNat) (s.vreg d.toNat))
    ∧ VecGives (.vfms g d a b ty mode) s g 2 d [a, b] (map3 (fmaCell true ty.toNat (RMode.ofRz (decide (mode = 1)))) (s.vreg a.toNat) (s.vreg b.toNat) (s.vreg d.toNat))
    ∧ VecGives (.vmin g d a b ty) s g 2 d [a, b] (map2 (arithCell .min ty.toNat .rne) (s.vreg a.toNat) (s.vreg b.toNat))
    ∧ VecGives (.vmax g d a b ty) s g 2 d [a, b] (map2 (arithCell .max ty.toNat .rne) (s.vreg a.toNat) (s.vreg b.toNat))
    ∧ VecGives (.vadds g d a b ty) s g 2 d [a, b] (map2 (arithCell .adds ty.toNat .rne) (s.vreg a.toNat) (s.vreg b.toNat))
    ∧ VecGives (.vsubs g d a b ty) s g 2 d [a, b] (map2 (arithCell .subs ty.toNat .rne) (s.vreg a.toNat) (s.vreg b.toNat))
    ∧ VecGives (.vmulh g d a b ty) s g 2 d [a, b] (map2 (arithCell .mulh ty.toNat .rne) (s.vreg a.toNat) (s.vreg b.toNat))
    ∧ VecGives (.vabs g d a ty) s g 2 d [a] (map1 (absCell ty.toNat) (s.vreg a.toNat))
    ∧ VecGives (.vneg g d a ty) s g 2 d [a] (map1 (negCell ty.toNat) (s.vreg a.toNat))
    ∧ VecGives (.vnot g d a) s g 2 d [a] ((s.vreg a.toNat).map fun c => (~~~c, 0))
    ∧ VecGives (.vand g d a b) s g 2 d [a, b] (map2 (fun x y => (x &&& y, 0)) (s.vreg a.toNat) (s.vreg b.toNat))
    ∧ VecGives (.vor g d a b) s g 2 d [a, b] (map2 (fun x y => (x ||| y, 0)) (s.vreg a.toNat) (s.vreg b.toNat))
    ∧ VecGives (.vxor g d a b) s g 2 d [a, b] (map2 (fun x y => (x ^^^ y, 0)) (s.vreg a.toNat) (s.vreg b.toNat))
    ∧ VecGives (.vshl g d a b ty) s g 2 d [a, b] (map2 (shiftCell 0 ty.toNat) (s.vreg a.toNat) (s.vreg b.toNat))
    ∧ VecGives (.vshr g d a b ty) s g 2 d [a, b] (map2 (shiftCell 1 ty.toNat) (s.vreg a.toNat) (s.vreg b.toNat))
    ∧ VecGives (.vsra g d a b ty) s g 2 d [a, b] (map2 (shiftCell 2 ty.toNat) (s.vreg a.toNat) (s.vreg b.toNat))

/-- VSEL, VMOV, VSPLAT, VIOTA, VBROW, VBCOL, VROTR, VROTC, VXP and VPERM, in a task that may issue at a quiet boundary
with its registers there, answer the next state in which vd receives, on the guard-true lanes, with latency 2 (4 along
the column axis), the cell the manual gives for each lane 64 i + j, with no flag, and nothing else changes; an index
out of range gives 0. -/
def Obligations.VectorMoves : Prop :=
  ∀ (g : Guard) (d a b : BitVec 5) (ty : BitVec 3) (q : BitVec 4) (n : BitVec 6) (s : State),
    VecGives (.vsel g d a b q) s g 2 d [a, b] (quiet (VReg.blend (s.me.qreg q.toNat) (s.vreg a.toNat) (s.vreg b.toNat)))
    ∧ VecGives (.vmov g d a) s g 2 d [a] (quiet (s.vreg a.toNat))
    ∧ VecGives (.vsplat g d a ty) s g 2 d [] (List.replicate 1024 (splatCell ty.toNat (s.sreg a), 0))
    ∧ VecGives (.viotaRow g d) s g 2 d [] (quiet (VReg.ofFn fun e => BitVec.ofNat 32 (e / 64)))
    ∧ VecGives (.viotaCol g d) s g 2 d [] (quiet (VReg.ofFn fun e => BitVec.ofNat 32 (e % 64)))
    ∧ VecGives (.viotaLin g d) s g 2 d [] (quiet (VReg.ofFn fun e => BitVec.ofNat 32 e))
    ∧ VecGives (.vbrow g d a n) s g 4 d [a] (quiet (VReg.ofFn fun e => (s.vreg a.toNat).cell (64 * n.toNat + e % 64)))
    ∧ VecGives (.vbcol g d a n) s g 2 d [a] (quiet (VReg.ofFn fun e => (s.vreg a.toNat).cell (64 * (e / 64) + n.toNat)))
    ∧ VecGives (.vrotr g d a n) s g 2 d [a] (quiet (VReg.ofFn fun e => (s.vreg a.toNat).cell (64 * (e / 64) + (e % 64 + 64 - n.toNat) % 64)))
    ∧ VecGives (.vrotc g d a n) s g 4 d [a] (quiet (VReg.ofFn fun e => (s.vreg a.toNat).cell (64 * ((e / 64 + 16 - n.toNat) % 16) + e % 64)))
    ∧ VecGives (.vxp g d a) s g 4 d [a] (quiet (VReg.ofFn fun e => (s.vreg a.toNat).cell (64 * (e % 16) + 16 * (e % 64 / 16) + e / 64)))
    ∧ VecGives (.vpermRow g d a b) s g 2 d [a, b] (quiet (VReg.ofFn fun e => if ((s.vreg b.toNat).cell e).toNat < 64 then (s.vreg a.toNat).cell (64 * (e / 64) + ((s.vreg b.toNat).cell e).toNat) else 0))
    ∧ VecGives (.vpermCol g d a b) s g 4 d [a, b] (quiet (VReg.ofFn fun e => if ((s.vreg b.toNat).cell e).toNat < 16 then (s.vreg a.toNat).cell (64 * ((s.vreg b.toNat).cell e).toNat + e % 64) else 0))

/-- VREDR, VREDC, VSCANR and VSCANC, in a task that may issue at a quiet boundary with its registers there, answer the
next state in which every element of a row (or column) receives the reduction of the line, or of its prefix, with
latency 2 along rows and 4 along columns; a floating addition is folded in ascending order for .o and in the pairwise
tree for .f of a reduction; an integer sum saturates and raises IS; nothing else changes. An ordered fold of one term
is that term, and a longer one adds its last term to the fold of the rest. -/
def Obligations.VectorReductions : Prop :=
  (∀ (g : Guard) (d a : BitVec 5) (op : BitVec 3) (rz : BitVec 1) (ty : BitVec 3) (ord : BitVec 1) (s : State),
      VecGives (.vredr g d a op rz ty ord) s g 2 d [a] ((reduceLines op.toNat ty.toNat (rzMode rz) (decide (ord = 0)) (rowsOf (s.vreg a.toNat))).flatten)
      ∧ VecGives (.vredc g d a op rz ty ord) s g 4 d [a] (ofCols (reduceLines op.toNat ty.toNat (rzMode rz) (decide (ord = 0)) (colsOf (s.vreg a.toNat))))
      ∧ VecGives (.vscanr g d a op rz ty ord) s g 2 d [a] ((scanLines op.toNat ty.toNat (rzMode rz) (rowsOf (s.vreg a.toNat))).flatten)
      ∧ VecGives (.vscanc g d a op rz ty ord) s g 4 d [a] (ofCols (scanLines op.toNat ty.toNat (rzMode rz) (colsOf (s.vreg a.toNat)))))
    ∧ (∀ ty md t, foldOrdered ty md [t] = (reencode ty (readFloat ty t), 0))
    ∧ ∀ ty md ts t, ts ≠ [] → foldOrdered ty md (ts ++ [t]) = foldStep ty md (foldOrdered ty md ts) t

/-- In a task that may issue at a quiet boundary with its registers there: VCMP gives q_d each lane's condition with
latency 2; QAND, QOR, QXOR and QNOT give it their function with latency 1, on the guard-true lanes, a write of q0
being discarded; QCNT gives s_d the number of lanes where q_a and the guard are true; VEXT gives s_d the cell at lane
s_b[9:0] and VINS gives that lane of vd the low 32 bits of s_a, each with latency 2 and only where the guard is true
there. Nothing else changes. -/
def Obligations.LanePredicatesAndElements : Prop :=
  ∀ (g : Guard) (s : State),
    (∀ (ch : BitVec 1) (d : BitVec 4) (a b : BitVec 5) (ty : BitVec 3) (cl : BitVec 2), VecRuns [a.toNat, b.toNat] none s →
      Does (.vcmp g ch d a b ty cl) s ([a, b].contains 30) ([a, b].contains 31) id
        [⟨.lanes (s.me.qpos d.toNat) (s.me.guardLanes g) (lanesOf
          (List.zipWith (condCell (4 * ch.toNat + cl.toNat) ty.toNat) (s.vreg a.toNat) (s.vreg b.toNat))), 2, 0⟩])
    ∧ (VecRuns [] none s → ∀ (d a b : BitVec 4) (x : BitVec 5),
      Gives (.qand g d a b) s [⟨.lanes (s.me.qpos d.toNat) (s.me.guardLanes g) (s.me.qreg a.toNat &&& s.me.qreg b.toNat), 1, 0⟩]
      ∧ Gives (.qor g d a b) s [⟨.lanes (s.me.qpos d.toNat) (s.me.guardLanes g) (s.me.qreg a.toNat ||| s.me.qreg b.toNat), 1, 0⟩]
      ∧ Gives (.qxor g d a b) s [⟨.lanes (s.me.qpos d.toNat) (s.me.guardLanes g) (s.me.qreg a.toNat ^^^ s.me.qreg b.toNat), 1, 0⟩]
      ∧ Gives (.qnot g d a) s [⟨.lanes (s.me.qpos d.toNat) (s.me.guardLanes g) (~~~(s.me.qreg a.toNat)), 1, 0⟩]
      ∧ Gives (.qcnt g x a) s (scalarResult 1 x (BitVec.ofNat 64 (popNat (s.me.qreg a.toNat &&& s.me.guardLanes g).toNat 1024))))
    ∧ (∀ d a b : BitVec 5, VecRuns [a.toNat] none s →
      Does (.vext g d a b) s ([a].contains 30) ([a].contains 31) id
        (if (s.me.guardLanes g).getLsbD ((s.sreg b).toNat % 1024) then
          scalarResult 2 d (((s.vreg a.toNat).cell ((s.sreg b).toNat % 1024)).setWidth 64) else []))
    ∧ ∀ d a b : BitVec 5, VecRuns [] (some d.toNat) s →
      Gives (.vins g d a b) s (if (s.me.guardLanes g).getLsbD ((s.sreg b).toNat % 1024) then
        [⟨.vec (s.me.vpos d.toNat) (1#1024 <<< ((s.sreg b).toNat % 1024)) (List.replicate 1024 ((s.sreg a).setWidth 32)), 2, 0⟩]
        else [])

/-- FEXP2, FEXP, FLOG2, FRCP, FRSQ, FSQRT, FTANH, FSIGM, FSIN, FCOS (latency 8) and FDIV (latency 10), with a true guard,
in a task that may issue at a quiet boundary with its registers there and the F unit free, answer the next state in
which vd receives the function of each cell rounded by the mode, FSTAT the OR of the lanes' flags with it, the F unit
is occupied, and nothing else changes. While the F unit is occupied any F slot that is accepted and whose own checks
pass waits, leaving the state as it was, whatever its guard; with a false guard and the unit free any F slot that is
accepted occupies the unit and writes nothing. -/
def Obligations.SpecialFunctions : Prop :=
  ∀ (g : Guard) (d a b : BitVec 5) (mode : BitVec 1) (s : State),
    FGives (.fexp2 g d a mode) s g 8 d [a] (id) (map1 (fun c => cellOf (fnExp2 (RMode.ofRz (decide (mode = 1))) (readFloat 0 c))) (s.vreg a.toNat))
    ∧ FGives (.fexp g d a mode) s g 8 d [a] (id) (map1 (fun c => cellOf (fnExp (RMode.ofRz (decide (mode = 1))) (readFloat 0 c))) (s.vreg a.toNat))
    ∧ FGives (.flog2 g d a mode) s g 8 d [a] (id) (map1 (fun c => cellOf (fnLog2 (RMode.ofRz (decide (mode = 1))) (readFloat 0 c))) (s.vreg a.toNat))
    ∧ FGives (.frcp g d a mode) s g 8 d [a] (id) (map1 (fun c => cellOf (fnRcp (RMode.ofRz (decide (mode = 1))) (readFloat 0 c))) (s.vreg a.toNat))
    ∧ FGives (.frsq g d a mode) s g 8 d [a] (id) (map1 (fun c => cellOf (fnRsq (RMode.ofRz (decide (mode = 1))) (readFloat 0 c))) (s.vreg a.toNat))
    ∧ FGives (.fsqrt g d a mode) s g 8 d [a] (id) (map1 (fun c => cellOf (fnSqrt (RMode.ofRz (decide (mode = 1))) (readFloat 0 c))) (s.vreg a.toNat))
    ∧ FGives (.ftanh g d a mode) s g 8 d [a] (id) (map1 (fun c => cellOf (fnTanh (RMode.ofRz (decide (mode = 1))) (readFloat 0 c))) (s.vreg a.toNat))
    ∧ FGives (.fsigm g d a mode) s g 8 d [a] (id) (map1 (fun c => cellOf (fnSigm (RMode.ofRz (decide (mode = 1))) (readFloat 0 c))) (s.vreg a.toNat))
    ∧ FGives (.fsin g d a mode) s g 8 d [a] (id) (map1 (fun c => cellOf (fnSin (RMode.ofRz (decide (mode = 1))) (readFloat 0 c))) (s.vreg a.toNat))
    ∧ FGives (.fcos g d a mode) s g 8 d [a] (id) (map1 (fun c => cellOf (fnCos (RMode.ofRz (decide (mode = 1))) (readFloat 0 c))) (s.vreg a.toNat))
    ∧ FGives (.fdiv g d a b mode) s g 10 d [a, b] (id) (map2 (fun x y => cellOf (Fmt.f32.quotient (RMode.ofRz (decide (mode = 1))) (readFloat 0 x) (readFloat 0 y))) (s.vreg a.toNat) (s.vreg b.toNat))
    ∧ (∀ (i : Instr) (m : SlotSem), slotSem i = some m → m.funit = true → MayIssue s → m.isIllegal s = false →
      m.execTrap 0 ((s.atIssue [(0, m)]).atPeak [(0, m)]) = none → s.here.fBusy ≠ 0 → exec i s = .next s)
    ∧ (∀ (i : Instr) (m : SlotSem), slotSem i = some m → m.funit = true → MayIssue s → Quiet s → m.isIllegal s = false →
      s.me.guardOn m.guard = false → s.here.fBusy = 0 → FDoes i s false false id [])

/-- With a true guard, in a task that may issue at a quiet boundary with its registers there and the F unit free: CVT
gives each lane its cell converted between the two formats, QNT4 each row its packed codes and block scales and DQNT4
its values back, with latency 8; with stochastic rounding CVT and QNT4 take one word of the task's random-bit queue
and every lane rounds by its mix of it; RNGSEED sets key and counter and takes no word, RNGSKIP advances the generator
by s_a words. Nothing else changes. -/
def Obligations.ConversionsAndGenerator : Prop :=
  ∀ (g : Guard) (d a b : BitVec 5) (src dst : BitVec 4) (rm : BitVec 2) (s : State),
    let take := if rm = 2 then Task.rngTake 1 else id
    let w := s.me.rngHead
    FGives (.cvt g d a src dst rm) s g 8 d [a] take
      (mapE (fun e c => cvtCell src.toNat dst.toNat (rmMode rm.toNat w e) c) (s.vreg a.toNat))
    ∧ FGives (.qnt4 g d a b rm) s g 8 d [a, b] take
      ((List.range 16).flatMap fun i => quantRow i (bandOf (s.vreg b.toNat) i)
        ((((s.vreg a.toNat).drop (64 * i)).take 64).map (readFloat 0)) (rmMode rm.toNat w))
    ∧ FGives (.dqnt4 g d a b) s g 8 d [a, b] id
      ((List.range 16).flatMap fun i =>
        (List.range 64).map (dequant (((s.vreg a.toNat).drop (64 * i)).take 64) (bandOf (s.vreg b.toNat) i)))
    ∧ (Runs g s → s.here.fBusy = 0 →
      FDoes (.rngseed g a b) s false false (fun t => { t with rng := ⟨s.sreg a, s.sreg b, 0⟩ }) []
      ∧ FDoes (.rngskip g a) s false false (fun t => { t with rng := { t.rng with taken := t.rng.taken + (s.sreg a).toNat } }) [])

/-- With a true guard, in a task that may issue at a quiet boundary, with the destination backed and the checks passed and
every line and reply there: LD and LD.RO read at Addr(aN) plus the signed offset times the size, VLD and VLD.RO read
the sixteen rows of the points that follow, and complete with latency 3, with the value extended by the type or the
cells in every lane, the generator stepped once or 16 times when P is set, and the task's time at the point the access
takes; no byte of memory and no other task changes, and lines keep their data. Rows in the task's window at aligned
addresses always pass and are there, and give the window's bytes of memory. -/
def Obligations.LoadsReachTheWindowAndTheLines : Prop :=
  ∀ (g : Guard) (d : BitVec 5) (ag : BitVec 3) (post : BitVec 1) (ty : BitVec 3) (off : BitVec 8) (s : State), Runs g s →
    let here := s.me.ag ag.toNat
    let size := scalarBytes ty.toNat
    let rs : List Row := [⟨here.addr + sext off * BitVec.ofNat 64 size, size⟩]
    let w := 64 * cellBytes ty.toNat
    let rv : List Row := (here.points 16).map fun a => ⟨a + sext off * BitVec.ofNat 64 w, w⟩
    let move := fun (ro : Bool) (rows : List Row) (n : Nat) (t : Task) =>
      let t := { t with time := loadTime ro rows s }
      if post = 1 then t.setAg ag.toNat (here.steps n) else t
    let done := fun (ro : Bool) (i : Instr) (rows : List Row) (n : Nat) (l : List Pending) =>
      Completes i s coreBesideLines moduleBesideLines (move ro rows n) l fun t =>
        (t.core s.cur.coreRef).l1.map L1Line.data = s.here.l1.map L1Line.data
        ∧ ∀ die, dieBesideLines (t.die die) = dieBesideLines (s.die die)
    (∀ ro, LoadReady ro rs s →
      done ro (if ro then .ldRo g d ag post ty off else .ld g d ag post ty off) rs 1
        [⟨.scalar d.toNat (extendLoad ty.toNat (((opened s).readRows ro rs).headD [])), 3, 0⟩])
    ∧ (∀ ro, LoadReady ro rv s → s.me.backed d.toNat = true →
      done ro (if ro then .vldRo g d ag post ty off else .vld g d ag post ty off) rv 16
        [⟨.vec (s.me.vpos d.toNat) (BitVec.allOnes 1024) (((opened s).readRows ro rv).flatMap (cellsOf ty.toNat)), 3, 0⟩])
    ∧ ∀ ro rows, (∀ r ∈ rows, InWindow s.me r) → LoadReady ro rows s
      ∧ (opened s).readRows ro rows =
        rows.map fun r => s.mem.bytes (windowAddr s.cur.coreRef s.me (r.ea.toNat % 2 ^ 22)) r.size

/-- With a true guard, in a task that may issue at a quiet boundary, with the checks passed and every line there: ST
stores the low bytes of s_d at Addr(aN) plus the signed offset times the size and VST the sixteen rows of vd at the
points that follow; the generator is stepped once or 16 times when P is set. The task's time becomes that of the store
(R244). Every byte of memory outside the window bytes of the rows reads as before, and every other task and core
stands. Rows in the task's window at aligned addresses always pass, and then the memory is the old one with the rows'
bytes set in order, and nothing else of the module changes beside lines let go and answered walk requests; a store to
one line of this module's HBM that the core holds with the write right leaves memory as it was and changes the bytes
of that copy. -/
def Obligations.StoresWriteTheirBytesAlone : Prop :=
  ∀ (g : Guard) (d : BitVec 5) (ag : BitVec 3) (post : BitVec 1) (ty : BitVec 3) (off : BitVec 8) (s : State), Runs g s →
    let here := s.me.ag ag.toNat
    let size := scalarBytes ty.toNat
    let w := 64 * cellBytes ty.toNat
    let at22 := fun (r : Row) => windowAddr s.cur.coreRef s.me (r.ea.toNat % 2 ^ 22)
    let step := fun (n : Nat) (t : Task) => if post = 1 then t.setAg ag.toNat (here.steps n) else t
    ∀ i rows (data : List (List Byte)) n vec,
      ((vec = false ∧ i = .st g d ag post ty off ∧ rows = [(⟨here.addr + sext off * BitVec.ofNat 64 size, size⟩ : Row)]
          ∧ data = [leBytes size (s.sreg d).toNat] ∧ n = 1)
        ∨ (vec = true ∧ i = .vst g d ag post ty off ∧ VecRuns [d.toNat] none s
          ∧ rows = (here.points 16).map (fun a => (⟨a + sext off * BitVec.ofNat 64 w, w⟩ : Row))
          ∧ data = (List.range 16).map (rowBytes (cellBytes ty.toNat) (s.vreg d.toNat)) ∧ n = 16)) →
      (StoreReady rows s →
        ∃ t, exec i s = .next t ∧ Frame coreBesideLines (fun x => { moduleBesideLines x with mem := [] }) s t
          ∧ (∀ a, (∀ r ∈ rows, isScratch r.ea = true → ¬(at22 r ≤ a ∧ a < at22 r + r.size)) → t.mem.byte a = s.mem.byte a)
          ∧ (∀ die, dieBesideLines (t.die die) = dieBesideLines (s.die die))
          ∧ ∃ far, t.task s.cur = delivered (isLodge s.cur.core) []
              (popTaken (vec && decide (d = 30)) (vec && decide (d = 31)) (step n { afterBundle (isLodge s.cur.core) s.me with
                time := (opened s).storeTime (((partsOf ((opened s).plan true rows)).flatMap Piece.lines).map Prod.fst)
                remoteStores := s.me.remoteStores ++ far })))
      ∧ ((∀ r ∈ rows, InWindow s.me r) → StoreReady rows s
        ∧ ∃ t, exec i s = .next t
          ∧ t.mem = (rows.zip data).foldl (fun m e => m.setBytes (at22 e.1) e.2) s.mem
          ∧ (∀ a, (∀ r ∈ rows, ¬(at22 r ≤ a ∧ a < at22 r + r.size)) → t.mem.byte a = s.mem.byte a)
          ∧ Frame (fun c => { coreBeside c with l1req := [], l1 := c.l1.map fun l => { l with slots := [] } })
              (fun x => { moduleBeside x with mem := [], freeCtr := 0, sent := [] }) s t
          ∧ t.sent = (s.dropLoads s.cur (some walkTok)).sent
          ∧ t.task s.cur = delivered (isLodge s.cur.core) []
              (popTaken (vec && decide (d = 30)) (vec && decide (d = 31))
                (step n (afterBundle (isLodge s.cur.core) s.me))))
      ∧ ∀ e o, n = 1 → StoreReady rows s → (opened s).plan true rows = .ok [⟨[.home o size e], none⟩] ∨
          (∃ x, (opened s).plan true rows = .ok [⟨[.home o size e], some x⟩]) →
        ∃ t, exec i s = .next t ∧ t.mem = s.mem
          ∧ (t.core s.cur.coreRef).l1
            = (s.here.l1.map (L1Line.stored o (data.headD []) ((opened s).storeTime (linesOf o size)))).map
              (L1Line.letGo s.cur.slot)

/-- With a true guard, in a task that may issue at a quiet boundary: AGSET gives the named field of aN the value s_a,
AGSTEP steps aN its count of times; PREF asks once for the line of Addr(aN) with a read right and stores nothing;
CLEAN writes a dirty copy of it back and keeps it clean; INVAL drops every copy of it, written back first, or acts as
CLEAN where a squashed bundle holds the line; the hints change no byte outside the line, and nothing at all beside the
free-value counter where the address has no line of this module. PHASE outside a region sets the window's size and
opens a bar of 1024 bundles for each step moved, when the steps it gains are free and no tile is defined in those it
gives up; steps given up read as zero; a size as it is changes nothing; a size that the task cannot have traps 0x23
with the size, one in a region then 0x24, and one while a bar is open 0x22. Nothing else changes. -/
def Obligations.GeneratorsHintsAndPhase : Prop :=
  ∀ (g : Guard) (a : BitVec 5) (ag : BitVec 3) (field : BitVec 4) (count : BitVec 12) (n : BitVec 4) (s : State),
    (Runs g s →
      Does (.agset g a ag field) s false false
        (fun t => t.setAg ag.toNat ((s.me.ag ag.toNat).setField field.toNat (s.sreg a))) []
      ∧ Does (.agstep g ag count) s false false (fun t => t.setAg ag.toNat ((s.me.ag ag.toNat).steps count.toNat)) []
      ∧ (let anyCore := fun (c : Core) => { coreBeside c with l1 := [], l1req := [] };
        let anyLine := fun (x : State) => { moduleBeside x with freeCtr := 0, mem := [], lines := [], dies := [] };
        ((opened s).hintLine ag = none → ∀ i ∈ [Instr.pref g ag, .clean g ag, .inval g ag],
          Completes i s coreBeside (fun x => { moduleBeside x with freeCtr := 0 }) id [] fun _ => True)
        ∧ ∀ line gen, (opened s).hintLine ag = some (line, gen) →
          Completes (.pref g ag) s (fun c => { coreBeside c with l1req := [] }) (fun x => { moduleBeside x with freeCtr := 0 }) id []
            (fun t => ∃ q : L1Req, q.line = line ∧ q.right = .read ∧ q.slot = prefSlot
              ∧ (q ∈ s.here.l1req ∧ (t.core s.cur.coreRef).l1req = s.here.l1req
                ∨ (t.core s.cur.coreRef).l1req = s.here.l1req ++ [q]))
          ∧ Completes (.clean g ag) s anyCore anyLine id [] (fun t =>
            (∀ b, (b / 128 ≠ line) → (∀ l ∈ s.here.l1, l.data.length = 128) → t.mem.byte b = s.mem.byte b)
            ∧ ((t.core s.cur.coreRef).l1.map fun l => { l with dirty := false }) = (s.here.l1.map fun l => { l with dirty := false })
            ∧ (∀ l ∈ (t.core s.cur.coreRef).l1, l.line = line → l.right = .write → l.dirty = false)
            ∧ ∀ l, (s.here.l1.find? fun l => l.holds line .write) = some l → l.right = .write → l.dirty = true →
                l.gen = s.genOf (line * 128) → s.hasKey l.key = true → l.data.length = 128 →
                t.mem.bytes (line * 128) 128 = l.data)
          ∧ (s.here.keepsLine line = true → exec (.inval g ag) s = exec (.clean g ag) s)
          ∧ (s.here.keepsLine line = false → Completes (.inval g ag) s anyCore anyLine id [] (fun t =>
            (∀ b, (b / 128 ≠ line) → (∀ l ∈ s.here.l1, l.data.length = 128) → t.mem.byte b = s.mem.byte b)
            ∧ (t.core s.cur.coreRef).l1 = s.here.l1.filter (fun l => !decide (l.line = line))
            ∧ ∀ l, (s.here.l1.find? fun l => decide (l.line = line) && !decide (l.right = .ro)) = some l → l.right = .write →
                l.dirty = true → l.gen = s.genOf (line * 128) → s.hasKey l.key = true → l.data.length = 128 →
                t.mem.bytes (line * 128) 128 = l.data))))
    ∧ (Runs g s →
      let fits := (n.toNat ≤ s.me.wsize ∨ (s.me.wbase + n.toNat ≤ 12
          ∧ ∀ m, s.me.wbase + s.me.wsize ≤ m → m < s.me.wbase + n.toNat → s.stepTaken m = false))
        ∧ (s.me.wsize ≤ n.toNat ∨ s.tilePast (n.toNat * stepBytes) = false)
      let moved := fun (t : Task) => { t with
          wsize := n.toNat, moveFirst := min n.toNat s.me.wsize
          moveLen := max n.toNat s.me.wsize - min n.toNat s.me.wsize
          barLeft := 1024 * (max n.toNat s.me.wsize - min n.toNat s.me.wsize), draining := true }
      let lo := nearBase s.cur.coreRef + (s.me.wbase + n.toNat) * stepBytes
      (fits → s.inRegion = false →
        (n.toNat = s.me.wsize → Gives (.phase g n) s [])
        ∧ (s.me.wsize < n.toNat → Does (.phase g n) s false false moved [])
        ∧ (n.toNat < s.me.wsize → Completes (.phase g n) s coreBeside (fun x => { moduleBeside x with mem := [] }) moved [] fun t =>
          ∀ a, t.mem.byte a = if lo ≤ a ∧ a < lo + (s.me.wsize - n.toNat) * stepBytes then 0 else s.mem.byte a))
      ∧ (fits → s.inRegion = true → exec (.phase g n) s = .next (s.takeTrap s.cur ⟨0x24, 0⟩))
      ∧ (¬ fits → exec (.phase g n) s = .next (s.takeTrap s.cur ⟨0x23, n.setWidth 64⟩)))
    ∧ (MayIssue s → s.me.guardOn g = true → 0 < s.me.barLeft →
      exec (.phase g n) s = .next (s.takeTrap s.cur ⟨0x22, n.setWidth 64⟩))

/-- With a true guard, in a task that may issue at a quiet boundary, of an entry the task has: TTDEF with a length in its
window and a legal EXPECT, of an entry that is neither FILLING nor DRAINING, defines it EMPTY with nothing arrived,
and with length 0 undefines it; TTWAIT of a defined entry goes on with the task's time at least that of the arrivals
once PHASE differs from s_a[0], and until then leaves the state as it was; TTFREE of a defined entry empties a READY
one and leaves the state as it was while it fills or drains; TTSTAT gives s_d ARRIVED, EXPECT, STATE, PHASE and V with
latency 1. Other entries, memory and everything else stand. An undefined entry and a TTDEF beyond its limits trap
tile-range (0x26), a TTDEF of an entry that fills or drains tile-state (0x25), and a number the core does not have is
an illegal instruction. -/
def Obligations.TileTable : Prop :=
  ∀ (g : Guard) (a : BitVec 5) (tt : BitVec 8) (s : State), Runs g s →
    let e := s.myTile tt
    let v := (s.sreg a).toNat
    let base := v % 2 ^ 15
    let len := v / 2 ^ 16 % 2 ^ 15
    let expect := v / 2 ^ 32 % 2 ^ 22
    let sets := fun (i : Instr) (f : TileEntry → TileEntry) =>
      Completes i s (fun c => { coreBeside c with tiles := [] }) moduleBeside id [] fun t =>
        ∀ n, (t.core s.cur.coreRef).tile n = if n = physTile s.cur tt.toNat then f e else s.here.tile n
    (tileCount s.cur.core ≤ tt.toNat →
      ∀ i ∈ [Instr.ttdef g a tt, .ttwait g a tt, .ttfree g tt, .ttstat g a tt],
        exec i s = .next (s.takeTrap s.cur ⟨0x02, 0⟩))
    ∧ (tt.toNat < tileCount s.cur.core →
      ((e.st = .empty ∨ e.st = .ready) → len = 0 →
        sets (.ttdef g a tt) fun e => { e with v := false, st := .empty, arrived := 0 })
      ∧ ((e.st = .empty ∨ e.st = .ready) → len ≠ 0 → v / 2 ^ 54 = 0 → v / 2 ^ 15 % 2 = 0 → v / 2 ^ 31 % 2 = 0 →
        1 ≤ expect → expect ≤ len * 128 → (base + len) * 128 ≤ s.me.windowBytes →
        sets (.ttdef g a tt) fun e =>
          { e with base := base, len := len, expect := expect, v := true, st := .empty, arrived := 0, tc := 0 })
      ∧ ((e.st = .empty ∨ e.st = .ready) → len ≠ 0 →
        ¬(v / 2 ^ 54 = 0 ∧ v / 2 ^ 15 % 2 = 0 ∧ v / 2 ^ 31 % 2 = 0 ∧ 1 ≤ expect ∧ expect ≤ len * 128
          ∧ (base + len) * 128 ≤ s.me.windowBytes) →
        exec (.ttdef g a tt) s = .next (s.takeTrap s.cur ⟨0x26, tt.setWidth 64⟩))
      ∧ ((e.st = .filling ∨ e.st = .draining) → exec (.ttdef g a tt) s = .next (s.takeTrap s.cur ⟨0x25, tt.setWidth 64⟩))
      ∧ (e.v = false → ∀ i ∈ [Instr.ttwait g a tt, .ttfree g tt], exec i s = .next (s.takeTrap s.cur ⟨0x26, tt.setWidth 64⟩))
      ∧ (e.v = true → e.phase = (s.sreg a).getLsbD 0 → exec (.ttwait g a tt) s = .next s)
      ∧ (e.v = true → e.phase ≠ (s.sreg a).getLsbD 0 → Does (.ttwait g a tt) s false false (fun t => t.observe e.tc) [])
      ∧ (e.v = true → (e.st = .filling ∨ e.st = .draining) → exec (.ttfree g tt) s = .next s)
      ∧ (e.v = true → (e.st = .empty ∨ e.st = .ready) → sets (.ttfree g tt) fun e =>
          if e.st = .ready then { e with st := .empty, arrived := 0, tc := 0 } else e)
      ∧ Gives (.ttstat g a tt) s (scalarResult 1 a (BitVec.ofNat 64 (e.arrived % 2 ^ 22 + e.expect % 2 ^ 22 * 2 ^ 22
          + (match e.st with | .empty => 0 | .filling => 1 | .ready => 2 | .draining => 3) * 2 ^ 44
          + bitAt e.phase 46 + bitAt e.v 47))))

/-- With a true guard, in a task that may issue at a quiet boundary outside a checkpoint region: FENCE and FENCE.ro hold
the next bundle with a fence of their scope that carries the mark of the scope; an atomic whose address is virtual and
aligned to its width, with an open set where it is ordered, and whose place is a writable line of this module (or a
module that is present, for an unordered system-scope atomic) with its generation and no poison, holds the next bundle
with itself: operation, width, type, operand s_d, scope, destination, physical address, generation and mark. No byte
of memory changes at issue, and nothing beside the translation caches, the free-value counter and answered walk
requests. In a checkpoint region each of them traps checkpoint-region (0x24); an atomic on the scratchpad traps
address-range (0x20), a misaligned one alignment (0x21) and an ordered one with no open set ordered-set (0x66), each
with its address, in that order; one whose place is refused traps as the place does, and one whose walk waits for
another module asks for the entry and stays. -/
def Obligations.FencesAndAtomicsHoldTheTask : Prop :=
  ∀ (g : Guard) (d : BitVec 5) (ag : BitVec 3) (b : BitVec 4) (ty sc : BitVec 2) (ix wide z : BitVec 1) (s : State), Runs g s →
    let va := (s.me.ag ag.toNat).addr
    let floor := (opened s).scopeFloor s.cur.coreRef sc.toNat
    let held := fun (op : Nat) (uns : Bool) (width : Nat) (fadd : Option (BitVec 2)) (cas : Option W64) =>
      (width, ({ op := op, wide := decide (width = 8), uns := uns, fadd := fadd, cas := cas
                 ordered := if ix = 1 then s.me.openSet else none
                 scope := sc.toNat, dest := d.toNat, pa := 0, gen := 0, va := va, operand := s.sreg d, floor := floor
                 result := none, pc := s.me.pc, delay := s.me.delay, target := s.me.target } : AtomicOp))
    let atomics := fun (i : Instr) (ord : BitVec 1) (x : Nat × AtomicOp) =>
      (x = held 0 false (if wide = 1 then 8 else 4) none none ∧ ord = ix ∧ i = .aadd g d ag sc ix wide)
      ∨ (x = held 3 false (if wide = 1 then 8 else 4) none none ∧ ord = ix ∧ i = .aand g d ag sc ix wide)
      ∨ (x = held 4 false (if wide = 1 then 8 else 4) none none ∧ ord = ix ∧ i = .aor g d ag sc ix wide)
      ∨ (x = held 5 false (if wide = 1 then 8 else 4) none none ∧ ord = ix ∧ i = .axor g d ag sc ix wide)
      ∨ (x = held 6 false (if wide = 1 then 8 else 4) none none ∧ ord = ix ∧ i = .aswp g d ag sc ix wide)
      ∨ (x = held 1 (decide (z = 1)) (if wide = 1 then 8 else 4) none none ∧ ord = ix ∧ i = .amin g d ag sc ix wide z)
      ∨ (x = held 2 (decide (z = 1)) (if wide = 1 then 8 else 4) none none ∧ ord = ix ∧ i = .amax g d ag sc ix wide z)
      ∨ (x = held 7 (decide (z = 1)) (if wide = 1 then 8 else 4) none none ∧ ord = ix ∧ i = .aincb g d ag sc ix wide z)
      ∨ (x = held 0 false (if wide = 1 then 8 else 4) none (some (s.sreg (b.setWidth 5))) ∧ ord = ix ∧ i = .acas g d ag b sc ix wide)
      ∨ (x = held 0 false (if ty = 0 then 4 else 2) (some ty) none ∧ ord = ix ∧ i = .afadd g d ag ty ix sc)
    (s.inRegion = false →
      Does (.fence g sc) s false false (fun t => { t with holds := t.holds ++ [.fence sc.toNat false none floor] }) []
      ∧ Does (.fenceRo g sc) s false false (fun t => { t with holds := t.holds ++ [.fence sc.toNat true none floor] }) [])
    ∧ (s.inRegion = true → ∀ i, (i = .fence g sc ∨ i = .fenceRo g sc ∨ i = .aordJoin g d ∨ i = .aordClose g d
        ∨ ∃ ord x, atomics i ord x) → exec i s = .next (s.takeTrap s.cur ⟨0x24, 0⟩))
    ∧ ∀ i ord x, atomics i ord x → s.inRegion = false →
      (2 ^ 56 ≤ va.toNat → exec i s = .next (s.takeTrap s.cur ⟨0x20, va⟩))
      ∧ (va.toNat < 2 ^ 56 → va.toNat % x.1 ≠ 0 → exec i s = .next (s.takeTrap s.cur ⟨0x21, va⟩))
      ∧ (va.toNat < 2 ^ 56 → va.toNat % x.1 = 0 → ord = 1 → s.me.openSet = none →
        exec i s = .next (s.takeTrap s.cur ⟨0x66, va⟩))
      ∧ (va.toNat < 2 ^ 56 → va.toNat % x.1 = 0 → (ord = 1 → s.me.openSet ≠ none) →
        (∀ e, (opened s).atomicPlace x.2 va = .ok e →
          Completes i s (fun c => { coreBeside c with tlb := [] })
            (fun m => { moduleBeside m with freeCtr := 0, dies := [], sent := [] })
            (fun t => { t with holds := t.holds ++ [.atomic { x.2 with pa := e.addr va.toNat, gen := e.gen }] }) []
            fun t => (∀ die, { t.die die with tlb := [] } = { s.die die with tlb := [] })
              ∧ t.sent = (s.dropLoads s.cur (some walkTok)).sent)
        ∧ ∀ tr, (opened s).atomicPlace x.2 va = .error tr →
          (tr.isWalk = false → exec i s = .next (s.takeTrap s.cur tr))
          ∧ (tr.isWalk = true → exec i s = .next (s.askWalk s.cur tr).tookFree))

/-- With a true guard, in a task that may issue at a quiet boundary outside a checkpoint region: AORD.join of a set 0 to
15 of the kernel that is not full, by a task with no open set that has not joined it, makes it the task's open set and
adds the task's LIDX to its participants; AORD.close of the open set closes it for the task. The launch's other sets
and everything else stand. A join or close that the manual forbids traps 0x66 with the ordinal. -/
def Obligations.OrderedSets : Prop :=
  ∀ (g : Guard) (a : BitVec 5) (s : State), Runs g s → s.inRegion = false →
    let o := (s.sreg a).toNat
    let lands := fun (i : Instr) (f : Task → Task) (h : OrdSet → OrdSet) =>
      Completes i s coreBeside (fun x => { moduleBeside x with launches := [] }) f [] fun t =>
        t.launches = s.launches.map fun l =>
          if l.seq = s.me.launch then { l with sets := Tbl.set OrdSet.none l.sets o (h (l.sets.get OrdSet.none o)) } else l
    (∀ n l, s.launch? s.me.launch = some l → l.kernel.sets[o]? = some n → o < 16 → s.me.openSet = none → o ∉ s.me.joined →
      (l.sets.get OrdSet.none o).joined.length < n →
      lands (.aordJoin g a) (fun t => { t with openSet := some o, joined := t.joined ++ [o] })
        fun x => { x with size := n, joined := x.joined ++ [s.me.lidx.toNat] })
    ∧ (s.me.openSet = some o →
      lands (.aordClose g a) (fun t => { t with openSet := none }) fun x => { x with closed := x.closed ++ [s.me.lidx.toNat] })
    ∧ ((16 ≤ o ∨ s.me.openSet ≠ none ∨ o ∈ s.me.joined ∨ ∀ l n, s.launch? s.me.launch = some l → l.kernel.sets[o]? = some n →
        n ≤ (l.sets.get OrdSet.none o).joined.length) →
      exec (.aordJoin g a) s = .next (s.takeTrap s.cur ⟨0x66, BitVec.ofNat 64 (o % 16)⟩))
    ∧ (s.me.openSet ≠ some o → exec (.aordClose g a) s = .next (s.takeTrap s.cur ⟨0x66, BitVec.ofNat 64 (o % 16)⟩))

/-- CPY, GTH, SCT, MSTRM, MOUT, the tile instructions, MCST and COLL, whose checks pass and which nothing makes wait,
under a true guard at a quiet boundary, answer the next state in which token kT of the task is PENDING and the command
buffer holds, at the token's place, the command with the task's slot, LIDX, job and key, its copy of the descriptor,
its bindings to the tokens of KIN0 to KIN2 that are PENDING and to the first that is FAULTED, not started, with
nothing done, and whether it stands in a checkpoint region. MSTRM and MOUT join the order of the array; a copy that
takes a source entry observes its time and, with REL, makes it DRAINING. No byte of memory, no other command, entry or
task changes. -/
def Obligations.CommandsTakeTheirToken : Prop :=
  ∀ (g : Guard) (tok : BitVec 6) (e : BitVec 4) (tile : BitVec 6) (ord rz : BitVec 1) (s : State),
    let f := s.me.descriptor e.toNat
    let o := decide (ord = 1)
    let z := decide (rz = 1)
    let state := fun n => (s.me.token n).st
    let done := fun (i : Instr) (k : CmdKind) (inside array : Bool) (source : Option (Nat × Bool)) => Acts i s →
      Completes i s (fun c => { coreBeside c with cmds := [], mcmds := [], tiles := [] }) moduleBeside
        (fun t => (match source with
          | some x => t.observe (s.here.tile (physTile s.cur x.1)).tc
          | none => t).setToken tok.toNat ⟨.pending, 0, 0⟩) [] fun t =>
        let c := t.core s.cur.coreRef
        (∀ n, c.cmd n = if n = physToken s.cur tok.toNat then some
            { kind := k, slot := s.cur.slot, lidx := s.me.lidx, job := s.me.job, fields := f
              key := if isLodge s.cur.core ∧ (s.die s.cur.die).lodge.pkey = 0 then fwKey
                else if isLodge s.cur.core then jobKey (s.die s.cur.die).lodge.pkey.toNat else jobKey s.me.job
              deps := ((kinTokens f).filter fun n => decide (state n = .pending)).dedup
              depFault := (kinTokens f).find? fun n => decide (state n = .faulted)
              started := false, cells := 0, elems := 0, skip := 0, idx := [], spots := [], stores := [], lines := [], olds := []
              run := none, inside := inside, within := s.inRegion }
          else s.here.cmd n)
        ∧ c.mcmds = s.here.mcmds ++ (if array then [.token s.cur.slot tok.toNat] else [])
        ∧ ∀ n, c.tile n = match source with
          | some (x, true) => if n = physTile s.cur x then { s.here.tile n with st := .draining } else s.here.tile n
          | _ => s.here.tile n
    let copies := fun (i : Instr) (k : CmdKind) => done i k (decide (2 ≤ addrForm (f.get 0 1))) false (sttEntry f)
    copies (.cpy g tok e) .cpy ∧ copies (.gth g tok e) .gth ∧ copies (.sct g tok e) .sct
    ∧ done (.mstrm g tok e tile) (.mstrm tile.toNat) true true none
    ∧ done (.mout g tok e tile) (.mout tile.toNat) true true none
    ∧ done (.tmm g tok e ord rz) (.tile 0 o z) false false none ∧ done (.tew g tok e rz) (.tile 1 false z) false false none
    ∧ done (.tred g tok e ord rz) (.tile 2 o z) false false none ∧ done (.tscan g tok e ord rz) (.tile 3 o z) false false none
    ∧ done (.txp g tok e) (.tile 4 false false) false false none ∧ done (.tcvt g tok e rz) (.tile 5 false z) false false none
    ∧ done (.tcpy g tok e) (.tile 6 false false) false false none ∧ done (.tbc g tok e) (.tile 7 false false) false false none
    ∧ done (.mcst g tok e) .mcst false false none ∧ done (.coll g tok e ord rz) (.coll o z) false false none

/-- TLNCH, whose checks pass and which nothing makes wait, under a true guard at a quiet boundary, answers a next state
with one more launch, whose TLNCH is the command of this core and token; every other launch stands. While a token of
KIN0 to KIN2 is PENDING at issue the command stays in the buffer bound to it, its token is PENDING, the launch is not
loaded, and no other command, no byte of memory and nothing else of the module changes. -/
def Obligations.TlnchMakesALaunch : Prop :=
  ∀ (g : Guard) (tok : BitVec 6) (e : BitVec 4) (s : State), Acts (.tlnch g tok e) s →
    (∀ l ∈ s.launches, l.seq < s.launches.length) →
    let f := s.me.descriptor e.toNat
    let p := physToken s.cur tok.toNat
    ∃ t l, exec (.tlnch g tok e) s = .next t ∧ t.launches = s.launches ++ [l] ∧ l.seq = s.launches.length
      ∧ l.tlnch = some (s.cur.coreRef, p) ∧ l.placed = 0 ∧ l.ended = 0
      ∧ ((∃ n ∈ kinTokens f, (s.me.token n).st = .pending) →
        Frame (fun c => { coreBeside c with cmds := [] }) (fun x => { moduleBeside x with launches := [] }) s t
        ∧ l.loaded = false ∧ l.finished = false
        ∧ t.task s.cur = (afterBundle (isLodge s.cur.core) s.me).setToken tok.toNat ⟨.pending, 0, 0⟩
        ∧ (∀ n, n ≠ p → (t.core s.cur.coreRef).cmd n = s.here.cmd n)
        ∧ ∃ x, (t.core s.cur.coreRef).cmd p = some x ∧ x.kind = .tlnch ∧ x.fields = f ∧ x.started = false
          ∧ ∀ n, n ∈ x.deps ↔ n ∈ kinTokens f ∧ (s.me.token n).st = .pending)

/-- With a true guard, in a task that may issue at a quiet boundary, of a token kT the task has: EDSC sets the field of
the descriptor; KWAIT of a FREE or DONE token goes on with the task's time at least the production's, and of a FAULTED
one traps token-faulted (0x42) with T; TWAIT goes on with 0 in s_d, or for a FAULTED token its cause and 2, or 3 for
an abort; KREL frees a token; all three leave the state as it was while kT is PENDING. KTEST gives p_d whether kT is
not PENDING, TSTAT gives s_d its state and the complete units of a tile instruction; TABORT marks a waiting or running
tile instruction and gives 0, and gives 1 where there is none. Nothing else changes. A token the core does not have is
an illegal instruction. -/
def Obligations.TokensAreWaitedTestedAndReleased : Prop :=
  ∀ (g : Guard) (tok : BitVec 6) (e : BitVec 4) (field : BitVec 6) (d : BitVec 5) (pd : BitVec 3) (s : State), Runs g s →
    let k := s.me.token tok.toNat
    Does (.edsc g d e field) s false false (fun t =>
      { t with desc := Tbl.set 0 t.desc (64 * e.toNat + field.toNat) (s.sreg d) }) []
    ∧ (tokenCount s.cur.core ≤ tok.toNat →
      ∀ i ∈ [Instr.kwait g tok, .ktest g tok pd, .krel g tok, .twait g tok d, .tstat g tok d, .tabort g tok d],
        exec i s = .next (s.takeTrap s.cur ⟨0x02, 0⟩))
    ∧ (tok.toNat < tokenCount s.cur.core →
      (k.st = .pending → ∀ i ∈ [Instr.kwait g tok, .krel g tok, .twait g tok d], exec i s = .next s)
      ∧ (k.st = .faulted → exec (.kwait g tok) s = .next (s.takeTrap s.cur ⟨0x42, tok.setWidth 64⟩))
      ∧ (k.st = .free ∨ k.st = .done → Does (.kwait g tok) s false false (fun t => t.observe k.tc) [])
      ∧ (k.st ≠ .pending → Does (.krel g tok) s false false (fun t => t.setToken tok.toNat Token.free) []
        ∧ Does (.twait g tok d) s false false (fun t => t.observe k.tc) (scalarResult 1 d
          (if k.st = .faulted then BitVec.ofNat 64 (k.cause * 256 + (if k.cause = 0x47 then 3 else 2)) else 0)))
      ∧ Does (.ktest g tok pd) s false false (fun t => if k.st ≠ .pending then t.observe k.tc else t)
        [⟨.pred pd.toNat (decide (k.st ≠ .pending)), 1, 0⟩]
      ∧ Gives (.tstat g tok d) s (scalarResult 1 d (BitVec.ofNat 64
        ((match k.st with | .free => 0 | .pending => 1 | .done => 2 | .faulted => 3)
          + s.here.unitsDone (physToken s.cur tok.toNat) * 2 ^ 32)))
      ∧ (s.tileAt s.cur.coreRef (physToken s.cur tok.toNat) = none → Gives (.tabort g tok d) s (scalarResult 1 d 1))
      ∧ ∀ x, s.tileAt s.cur.coreRef (physToken s.cur tok.toNat) = some x →
        Completes (.tabort g tok d) s (fun c => { coreBeside c with cmds := [] }) moduleBeside id (scalarResult 1 d 0) fun t =>
          ∀ n, (t.core s.cur.coreRef).cmd n = if n = physToken s.cur tok.toNat then some x.abort else s.here.cmd n)

/-- In a task that may issue at a quiet boundary, under a true guard: MCLAIM of an operand slot or of a sub-array of the
mode that is free or the task's own makes the task its holder and gives 1, and otherwise gives 0 and changes nothing;
MSKIP sets the task's skip bit. With their checks passed and nothing to wait for: MREL frees a held operand slot and
zeroes its 32 KiB of memory and no other byte, or frees a held sub-array and its weights; MSPLIT sets the mode, the
task holding every sub-array with no weights; MLATCH, with no command of the array before it, latches the image that
stands in the operand slot. Nothing else changes. On a core without an array each of them, and every other array
instruction, is an illegal instruction. -/
def Obligations.ArrayResources : Prop :=
  ∀ (g : Guard) (a : BitVec 5) (tok : BitVec 6) (e : BitVec 4) (idx : BitVec 6) (part : BitVec 2) (s : State),
    let n := idx.toNat
    let me := some s.cur.slot
    (Runs g s → isCompute s.cur.core = false →
      ∀ i ∈ [Instr.mclaim g a idx, .mrel g idx, .msplit g idx, .mskip g idx, .mlatch g a idx, .mzero g idx, .mcfg g a idx,
          .mrd g a idx part, .mwr g a idx part, .mstrm g tok e idx, .mout g tok e idx],
        exec i s = .next (s.takeTrap s.cur ⟨0x02, 0⟩))
    ∧ (Runs g s → isCompute s.cur.core = true →
      (let slotFree := n < 16 ∧ (s.here.slotOwner.get none n = none ∨ s.here.slotOwner.get none n = me);
        let subFree := 16 ≤ n ∧ n - 16 < subCount s.here.mode
          ∧ (s.here.subOwner.get none (n - 16) = none ∨ s.here.subOwner.get none (n - 16) = me);
        Completes (.mclaim g a idx) s (fun c => { coreBeside c with slotOwner := [], subOwner := [] }) moduleBeside id
          (scalarResult 1 a (if slotFree ∨ subFree then 1 else 0)) fun t =>
          (∀ k, (t.core s.cur.coreRef).slotOwner.get none k = if slotFree ∧ k = n then me else s.here.slotOwner.get none k)
          ∧ ∀ k, (t.core s.cur.coreRef).subOwner.get none k = if subFree ∧ k = n - 16 then me else s.here.subOwner.get none k)
      ∧ Does (.mskip g idx) s false false (fun t => { t with mskip := decide (n = 1) }) [])
    ∧ (Acts (.mrel g idx) s → n < 16 →
      Completes (.mrel g idx) s (fun c => { coreBeside c with slotOwner := [] }) (fun x => { moduleBeside x with mem := [] }) id []
        fun t => (∀ k, (t.core s.cur.coreRef).slotOwner.get none k = if k = n then none else s.here.slotOwner.get none k)
          ∧ ∀ b, t.mem.byte b = if operandBase s.cur.coreRef + n * 0x8000 ≤ b ∧ b < operandBase s.cur.coreRef + (n + 1) * 0x8000
              then 0 else s.mem.byte b)
    ∧ (Acts (.mrel g idx) s → 16 ≤ n →
      Completes (.mrel g idx) s (fun c => { coreBeside c with subOwner := [], latches := [] }) moduleBeside id [] fun t =>
        ∀ k, (t.core s.cur.coreRef).subOwner.get none k = (if k = n - 16 then none else s.here.subOwner.get none k)
          ∧ (t.core s.cur.coreRef).latches.get none k = if k = n - 16 then none else s.here.latches.get none k)
    ∧ (Acts (.msplit g idx) s →
      Completes (.msplit g idx) s (fun c => { coreBeside c with mode := 0, subOwner := [], latches := [] }) moduleBeside id []
        fun t => (t.core s.cur.coreRef).mode = n ∧ (t.core s.cur.coreRef).latches = []
          ∧ ∀ k, (t.core s.cur.coreRef).subOwner.get none k = if k < subCount n then me else none)
    ∧ (Acts (.mlatch g a idx) s →
      Completes (.mlatch g a idx) s (fun c => { coreBeside c with mcmds := [], latches := [] }) moduleBeside id [] fun t =>
        let v := (s.sreg a).toNat
        let fmt := v / 2 ^ 4 % 16
        let c := t.core s.cur.coreRef
        s.here.mcmds = [] → c.mcmds = [] ∧ ∀ h, c.latches.get none h = if h = v % 4 then
            some ⟨s.sreg a, s.mem.bytes (operandBase s.cur.coreRef + n * 0x8000 + v / 2 ^ 8 % 2 ^ 7 * 256)
              (imageSize fmt (subDepth s.here.mode))⟩
          else s.here.latches.get none h)

/-- With their checks passed and nothing to wait for, under a true guard at a quiet boundary: MCFG with U units makes
units n to n + U - 1 the units of a tile of the task with its columns, not LIVE, with no flags and zero bytes, and
with U zero frees the tile; MZERO makes the bytes of a tile zero and its units LIVE with no flags; MRD gives vd the 4
KiB of the unit's part with latency 4; MWR writes them from vs and makes the tile LIVE. Every byte of memory outside
the units named, every other core resource and everything else stands. A unit that is not the task's traps
matrix-resource (0x29) with its number. -/
def Obligations.AccumulatorTiles : Prop :=
  ∀ (g : Guard) (a : BitVec 5) (idx : BitVec 6) (part : BitVec 2) (s : State),
    let n := idx.toNat
    let v := (s.sreg a).toNat
    let u := v % 32
    let lo := unitAddr s.cur.coreRef n
    let alter := fun (i : Instr) (f : Task → Task) (l : List Pending) (size : Nat) (post : State → Prop) =>
      Completes i s (fun c => { coreBeside c with units := [] }) (fun x => { moduleBeside x with mem := [] }) f l fun t =>
        (∀ b, ¬(lo ≤ b ∧ b < lo + size) → t.mem.byte b = s.mem.byte b) ∧ post t
    (Acts (.mcfg g a idx) s → u ≠ 0 → alter (.mcfg g a idx) id [] (0x4000 * u) fun t =>
        (∀ b, lo ≤ b → b < lo + 0x4000 * u → t.mem.byte b = 0)
        ∧ (∀ k, n ≤ k → k < n + u → (t.core s.cur.coreRef).accUnit k = ⟨n, u, v / 2 ^ 8 % 4, s.cur.slot, false, 0⟩)
        ∧ (t.core s.cur.coreRef).units = (s.here.configure s.cur.slot n u (v / 2 ^ 8 % 4)).units)
    ∧ (Acts (.mcfg g a idx) s → u = 0 → alter (.mcfg g a idx) id [] 0 fun t =>
        (t.core s.cur.coreRef).units = s.here.units.filter fun x => !decide (x.2.head = n))
    ∧ (Acts (.mzero g idx) s → alter (.mzero g idx) id [] (0x4000 * (s.here.accUnit n).units) fun t =>
        (∀ b, lo ≤ b → b < lo + 0x4000 * (s.here.accUnit n).units → t.mem.byte b = 0)
        ∧ (t.core s.cur.coreRef).units = (s.here.modTile n fun u => { u with live := true, flags := 0 }).units)
    ∧ (Acts (.mrd g a idx part) s → Does (.mrd g a idx part) s false false id
        [⟨.vec (s.me.vpos a.toNat) (BitVec.allOnes 1024) (wordsOf (s.mem.bytes (lo + 0x1000 * part.toNat) 0x1000)), 4, 0⟩])
    ∧ (Acts (.mwr g a idx part) s → (s.vreg a.toNat).length = 1024 →
        alter (.mwr g a idx part) (popTaken (decide (a = 30)) (decide (a = 31))) [] 0x4000 fun t =>
        t.mem = s.mem.setBytes (lo + 0x1000 * part.toNat) (bytesOf (s.vreg a.toNat))
        ∧ (t.core s.cur.coreRef).units = (s.here.modTile (s.here.accUnit n).head fun u => { u with live := true }).units)
    ∧ (Runs g s → isCompute s.cur.core = true → s.here.cmds = [] → s.here.mcmds = [] → (s.here.accUnit n).owner ≠ s.cur.slot →
        s.me.backed a.toNat = true → a ≠ 30 → a ≠ 31 →
        ∀ i ∈ [Instr.mzero g idx, .mrd g a idx part, .mwr g a idx part], exec i s = .next (s.takeTrap s.cur ⟨0x29, idx.setWidth 64⟩))

/-- With a true guard, in a task that may issue at a quiet boundary: FBIND of an empty queue binds it to the flow and
block of s_x, or unbinds it, and of a queue with cells traps 0x81, an operand beyond its fields or of a reserved flow
0x80; FDRAIN empties a queue past the highest block it holds and gives the complete blocks it had, and FSTAT gives its
status, with latency 1. With their checks passed and room in the send buffer FPUT puts one cell with s_f, and FSEND
the 32 cells of vf in ascending order, behind the buffer's cells, each with the flow, rank and its number of s_x and
the active job. FTAKE on a lodge gives 0 where no stray cell is held, and else takes the oldest: 1, the payload in row
0 and its tag in row 1. No byte of memory and nothing else changes. -/
def Obligations.FlowInstructions : Prop :=
  ∀ (g : Guard) (x f : BitVec 5) (q : BitVec 1) (s : State),
    let v := (s.sreg x).toNat
    let y := s.me.queue q.toNat
    let cell := fun (n : Nat) (payload : List Byte) =>
      ({ typ := 0, flow := v % 2 ^ 20, job := s.jobid.toNat, rank := v / 2 ^ 20 % 2 ^ 16, cidx := (v / 2 ^ 36 % 2 ^ 16 + n) % 2 ^ 16
         psn := false, circ := false, payload := payload } : Cell)
    let sends := fun (i : Instr) (h : Task → Task) (cells : List Cell) =>
      Completes i s (fun c => { coreBeside c with sendBuf := [] }) moduleBeside h [] fun t =>
        (t.core s.cur.coreRef).sendBuf = s.here.sendBuf ++ cells
    (Runs g s →
      (v < 2 ^ 32 → (v / 2 ^ 31 = 1 ∨ reservedFlow (v % 2 ^ 20) = false) → y.cells = [] →
        Does (.fbind g x q) s false false (fun t => t.setQueue q.toNat
          (if v / 2 ^ 31 = 1 then { y with bound := false }
            else { y with bound := true, flow := v % 2 ^ 20, nextblock := v / 2 ^ 20 % 2048 })) [])
      ∧ (v < 2 ^ 32 → (v / 2 ^ 31 = 1 ∨ reservedFlow (v % 2 ^ 20) = false) → y.cells ≠ [] →
        exec (.fbind g x q) s = .next (s.takeTrap s.cur ⟨0x81, q.setWidth 64⟩))
      ∧ ((2 ^ 32 ≤ v ∨ (v / 2 ^ 31 % 2 = 0 ∧ reservedFlow (v % 2 ^ 20) = true)) →
        exec (.fbind g x q) s = .next (s.takeTrap s.cur ⟨0x80, s.sreg x⟩))
      ∧ Does (.fdrain g x q) s false false (fun t => t.setQueue q.toNat y.drained)
        (scalarResult 1 x (BitVec.ofNat 64 y.completeBlocks))
      ∧ Gives (.fstat g x q) s (scalarResult 1 x y.status))
    ∧ (Acts (.fput g x f) s → sends (.fput g x f) id [cell 0 (padTo 128 (leBytes 8 (s.sreg f).toNat))])
    ∧ (Acts (.fsend g x f) s → sends (.fsend g x f) (popTaken (decide (f = 30)) (decide (f = 31)))
        ((List.range 32).map fun n => cell n (bytesOf ((List.range 32).map fun k => (s.vreg f.toNat).cell (32 * n + k)))))
    ∧ (Acts (.ftake g x f) s →
      ((s.die s.cur.die).stray = [] → Gives (.ftake g x f) s (scalarResult 2 x 0))
      ∧ ∀ c rest, (s.die s.cur.die).stray = c :: rest →
        Completes (.ftake g x f) s coreBeside (fun m => { moduleBeside m with dies := [] }) id
          (scalarResult 2 x 1 ++ [⟨.vec (s.me.vpos f.toNat) (BitVec.allOnes 1024) (strayVreg c), 2, 0⟩]) fun t =>
          ∀ d, t.die d = if d = s.cur.die then { s.die d with stray := rest } else s.die d)

/-- On a lodge core, under a true guard at a quiet boundary: TLBINV with page-aligned operands below 2^56 and a job word
below 2^13, GENBUMP of 1 to 2^19 frames of HBM, L2WB of lines of HBM, DOMSET of an aligned domain, NPLOAD of a form-01
address and, with their checks passed, ATTEST and KEYLD complete their issue: the next bundle is held with the request
and its operands; DOMSET sets BUSY, ATTEST, once its request has been read as an ordered access of the lodge, and
KEYLD join the unit's queue; nothing else changes. PRMPT of a target marks every named task that runs, no other, and
holds the next bundle with those it waits for. Operands outside these ranges trap system-operand (0x0A) with slot 0,
and an L2WB form above 1 is an illegal instruction. -/
def Obligations.LodgeRequestsAreHeld : Prop :=
  ∀ (g : Guard) (a b c : BitVec 5) (s : State), Runs g s → isLodge s.cur.core = true →
    let x := (s.sreg a).toNat
    let n := (s.sreg b).toNat
    let j := (s.sreg c).toNat
    let held := fun (h : Hold) (t : Task) => { t with holds := t.holds ++ [h] }
    let bad := fun (i : Instr) => exec i s = .next (s.takeTrap s.cur ⟨0x0A, 0⟩)
    (x % 2 ^ 21 = 0 → x < 2 ^ 56 → n % 2 ^ 21 = 0 → j < 2 ^ 13 →
      Does (.tlbinv g a b c) s false false (held (.tlbinv (s.sreg a) (s.sreg b) (s.sreg c))) [])
    ∧ ((x % 2 ^ 21 ≠ 0 ∨ 2 ^ 56 ≤ x ∨ n % 2 ^ 21 ≠ 0 ∨ 2 ^ 13 ≤ j) → bad (.tlbinv g a b c))
    ∧ (x % 2 ^ 21 = 0 → 1 ≤ n → n ≤ 2 ^ 19 → x + n * 2 ^ 21 ≤ 2 ^ 40 →
      Does (.genbump g a b) s false false (held (.genbump (s.sreg a) (s.sreg b))) [])
    ∧ ((x % 2 ^ 21 ≠ 0 ∨ n = 0 ∨ 2 ^ 19 < n ∨ 2 ^ 40 < x + n * 2 ^ 21) → bad (.genbump g a b))
    ∧ (c.toNat < 2 → x % 128 = 0 → n % 128 = 0 → x + n ≤ 2 ^ 40 →
      Does (.l2wb g a b c) s false false (held (.l2wb (s.sreg a) (s.sreg b) (decide (c = 1)))) [])
    ∧ (c.toNat < 2 → (x % 128 ≠ 0 ∨ n % 128 ≠ 0 ∨ 2 ^ 40 < x + n) → bad (.l2wb g a b c))
    ∧ (x / 16 ≤ 4 → x % 16 % 2 ^ (x / 16) = 0 →
      Completes (.domset g a) s coreBeside (fun m => { moduleBeside m with dies := [] }) (held (.domset (s.sreg a))) [] fun t =>
        ∀ d, t.die d = if d = s.cur.die then { s.die d with l2busy := true } else s.die d)
    ∧ ((5 ≤ x / 16 ∨ x % 16 % 2 ^ (x / 16) ≠ 0) → bad (.domset g a))
    ∧ (2 ≤ c.toNat → exec (.l2wb g a b c) s = .next (s.takeTrap s.cur ⟨0x02, 0⟩))
    ∧ ((x / 2 ^ 62 ≠ 1 ∨ 2 ^ 48 ≤ x % 2 ^ 62 ∨ 2 ^ 44 ≤ n) → bad (.npload g a b c))
    ∧ (x / 2 ^ 62 = 1 → x % 2 ^ 62 < 2 ^ 48 → n < 2 ^ 44 →
      Does (.npload g a b c) s false false (held (.npload c.toNat (s.sreg a) (s.sreg b))) [])
    ∧ (Acts (.attest g a b c) s → let u := ((opened s).attestRecord (s.sreg a)).1.lodgeRest s.cur.die
      ∃ t, exec (.attest g a b c) s = .next t
        ∧ Frame coreBeside (fun m => { moduleBeside m with attest := { m.attest with queue := [] } }) u t
        ∧ t.attest.queue = (s.attest.enqueue s.cycle s.cur).queue
        ∧ t.task s.cur = held (.attest c.toNat (s.sreg a) (s.sreg b)) { afterBundle true s.me with time := (u.task s.cur).time })
    ∧ (Acts (.keyld g a b c) s → Completes (.keyld g a b c) s coreBeside
        (fun m => { moduleBeside m with attest := { m.attest with queue := [] } })
        (held (.keyld c.toNat (s.sreg a) (s.sreg b))) [] fun t => t.attest.queue = (s.attest.enqueue s.cycle s.cur).queue)
    ∧ (targetOk true false (s.sreg a) = false → bad (.prmpt g a c) ∧ bad (.resume g a c))
    ∧ (targetOk true false (s.sreg a) = true →
      let l := targetTasks s.cur.die (s.sreg a)
      let runs := fun (r : TaskRef) => decide (s.prmptCode r = none)
      ∃ t, exec (.prmpt g a c) s = .next t
        ∧ t.task s.cur = held (.prmpt c.toNat (s.sreg a) ((l.filter runs).map TaskRef.slot) (leastStatus (l.filterMap s.prmptCode)))
            (afterBundle true s.me)
        ∧ (∀ r ∈ l, t.task? r = if runs r then (s.task? r).map fun k => { k with preempt := true } else s.task? r)
        ∧ (∀ q : TaskRef, (CoreRef.key q.coreRef ≠ CoreRef.key s.cur.coreRef ∨ q.slot ≠ s.cur.slot) →
            (∀ r ∈ l, CoreRef.key q.coreRef ≠ CoreRef.key r.coreRef ∨ q.slot ≠ r.slot) → t.task? q = s.task? q)
        ∧ (∀ k, coreBeside (t.core k) = coreBeside (s.core k)) ∧ moduleBeside t = moduleBeside s)

/-- On a lodge core (RLINV also on a control core), under a true guard at a quiet boundary: RESUME of a target makes every
named halted task that has not ended, and that no uncorrectable error has stopped, ready again as it stands with the
results that came meanwhile, and its region is gone; it gives the least status, and after a fatal stop resumes
nothing; RLINV of an address below 2^56 or of all ones drops the active job's cached lists at it, or all of them, on
every die, and traps on another operand; LKEY with its checks passed gives its status with latency 1 for an install or
a clear, and with status 0 sets or clears that key slot alone, while a switch that may begin puts its marker on the
wire, holds the lodge and makes the slot active for every later cell. Beside the ordered read of an install's record
nothing else changes. -/
def Obligations.LodgeOperationsAtOnce : Prop :=
  ∀ (g : Guard) (a b c : BitVec 5) (s : State), Runs g s →
    let x := (s.sreg a).toNat
    (isLodge s.cur.core = true → targetOk true false (s.sreg a) = true →
      let l := targetTasks s.cur.die (s.sreg a)
      (∀ r ∈ l, ∀ p ∈ (s.task r).pend, p.left = 0 → ∃ d v, p.val = .scalar d v) →
      ∃ t, exec (.resume g a c) s = .next t
        ∧ t.task s.cur = delivered true (scalarResult 1 c (BitVec.ofNat 64 (leastStatus (l.map s.resumeCode)))) (afterBundle true s.me)
        ∧ (∀ r ∈ l, t.task? r = if s.resumeCode r = 0 ∧ (s.task r).broken = false ∧ s.fatal = none then
            (s.task? r).map fun k => (k.pend.filter fun p => decide (p.left = 0)).foldl (landIn false)
              { k with halted := false, stopped := false, trapped := none, pend := k.pend.filter fun p => !decide (p.left = 0) }
          else s.task? r)
        ∧ (∀ q : TaskRef, (CoreRef.key q.coreRef ≠ CoreRef.key s.cur.coreRef ∨ q.slot ≠ s.cur.slot) →
            (∀ r ∈ l, CoreRef.key q.coreRef ≠ CoreRef.key r.coreRef ∨ q.slot ≠ r.slot) → t.task? q = s.task? q)
        ∧ (∀ k, coreBeside (t.core k) = coreBeside (s.core k))
        ∧ { moduleBeside t with freeCtr := 0 } = { moduleBeside s with freeCtr := 0 })
    ∧ (isCompute s.cur.core = false → x < 2 ^ 56 ∨ s.sreg a = BitVec.allOnes 64 →
      Completes (.rlinv g a) s coreBeside (fun m => { moduleBeside m with dies := [] }) id [] fun t =>
        ∀ d, t.die d = if d < 8 then { s.die d with ranklists := (s.die d).ranklists.filter fun k =>
            !(decide (k.job = s.jobid.toNat) && (decide (s.sreg a = BitVec.allOnes 64) || decide (k.addr = x))) } else s.die d)
    ∧ (isCompute s.cur.core = false → 2 ^ 56 ≤ x → s.sreg a ≠ BitVec.allOnes 64 →
      exec (.rlinv g a) s = .next (s.takeTrap s.cur ⟨0x0A, 0⟩))
    ∧ (Acts (.lkey g a b c) s →
      let op := x / 8
      let dir := x / 2 % 2
      let slot := x / 4 % 2
      let port := 2 + x % 2
      let die := s.cur.die
      let old := (s.die die).link port
      let st := old.keyStatus (s.rackOpen die) op dir slot
      let u := if op = 0 then ((opened s).keyRecord (s.sreg b)).1.lodgeRest die else opened s
      let mark : Cell := ⟨7, 0, 0, 0, 0, false, false, padTo 128 (leBytes 1 slot)⟩
      let gives := fun (n : Nat) (t : State) =>
        t.task s.cur = { delivered true (scalarResult 1 c (BitVec.ofNat 64 n)) (afterBundle true s.me) with time := (u.task s.cur).time }
      let others := fun (t : State) => (∀ d, d ≠ die → t.die d = u.die d) ∧ { t.die die with links := [] } = { u.die die with links := [] }
        ∧ ∀ k, k ≠ port → (t.die die).link k = (u.die die).link k
      (st ≠ 0 → ∃ t, exec (.lkey g a b c) s = .next t ∧ Frame coreBeside moduleBeside u t ∧ gives st t)
      ∧ (st = 0 → op = 1 → ∃ t, exec (.lkey g a b c) s = .next t
        ∧ Frame coreBeside (fun m => { moduleBeside m with dies := [], outbound := [] }) u t ∧ others t
        ∧ t.task s.cur = { afterBundle true s.me with holds := s.me.holds ++ [.lkey c.toNat (x % 2)] }
        ∧ (∃ y, t.outbound = s.outbound ++ [y])
        ∧ (t.die die).link port = { old with
            markEseq := old.txEseq, txEseq := (old.txEseq + 1) % 2 ^ 32, retry := old.retry ++ [(old.txEseq, old.txAct, mark)]
            icntOld := old.icnt, icnt := 0, switching := some slot, liveOld := decide (old.txAct ≠ slot), txAct := slot })
      ∧ (st = 0 → op ≠ 1 → ∃ t, exec (.lkey g a b c) s = .next t
        ∧ Frame coreBeside (fun m => { moduleBeside m with dies := [] }) u t ∧ gives 0 t ∧ others t
        ∧ ∀ key, (op = 2 ∧ key = none) ∨ (op = 0 ∧ ∃ r, ((opened s).keyRecord (s.sreg b)).2 = .bytes r
            ∧ key = some ⟨r.take 32, (r.drop 32).take 4⟩) →
          (t.die die).link port = { (u.die die).link port with
            keys := Tbl.set none ((u.die die).link port).keys (2 * dir + slot) key }))

/-- On a lodge core, with their checks passed, under a true guard at a quiet boundary: CTXSV of a target that cannot be
saved gives its status with latency 1 and changes nothing else, and of one that can stops the target's commands and
holds the lodge; CTXLD reads its record as an ordered access and gives its status with latency 1: with 0 the target
slot holds a halted task, and otherwise the tasks of every core stand; GSW and GRES read their block so; GSW gives its
status where it is not begun, and otherwise the switch of its block runs and holds the lodge; GRES gives 5 while a
switch runs, 2 for a bad block or Orangery, 1 while a job is active, with the counts of the Orangery the status that
refuses the restore, and otherwise restores, after which the block's job is active. Where nothing is begun or restored
every task stands, and nothing changes beside the read. -/
def Obligations.ContextsAndGangSwitches : Prop :=
  ∀ (g : Guard) (a b c : BitVec 5) (s : State), isLodge s.cur.core = true → s.cur.slot = 0 →
    let o := opened s
    let die := s.cur.die
    let r := contextTarget die (s.sreg a)
    let tasks := fun (t : State) => ∀ q : TaskRef, CoreRef.key q.coreRef ≠ CoreRef.key s.cur.coreRef → t.task? q = s.task? q
    let gives := fun (i : Instr) (u : State) (n : W64) (post : State → Prop) => ∃ t, exec i s = .next t
      ∧ Frame coreBeside moduleBeside u t ∧ post t
      ∧ t.task s.cur = { delivered true (scalarResult 1 c n) (afterBundle true s.me) with time := (u.task s.cur).time }
    (Acts (.ctxsv g a b c) s →
      (∀ n, s.ctxsvCode r ((s.sreg a).getLsbD 10) = some n → Gives (.ctxsv g a b c) s (scalarResult 1 c (BitVec.ofNat 64 n)))
      ∧ (s.ctxsvCode r ((s.sreg a).getLsbD 10) = none → ∃ t, exec (.ctxsv g a b c) s = .next t
        ∧ t.task s.cur = { afterBundle true s.me with holds := s.me.holds ++ [.ctxsv c.toNat (s.sreg a) (s.sreg b)] }
        ∧ t.task? r = (s.task? r).map (fun k => { k with stopped := true })
        ∧ (∀ q : TaskRef, (CoreRef.key q.coreRef ≠ CoreRef.key s.cur.coreRef ∨ q.slot ≠ s.cur.slot) →
            (CoreRef.key q.coreRef ≠ CoreRef.key r.coreRef ∨ q.slot ≠ r.slot) → t.task? q = s.task? q)
        ∧ (∀ k, coreBeside (t.core k) = coreBeside (s.core k)) ∧ moduleBeside t = moduleBeside s))
    ∧ (Acts (.ctxld g a b c) s →
      let y := o.contextRead die (s.sreg b)
      let x := (y.1.lodgeRest die).loadRead r y.2
      (x.2 = 0 → gives (.ctxld g a b c) x.1 0 fun t => (t.task? r).isSome = true ∧ (t.task r).halted = true)
      ∧ (x.2 ≠ 0 → gives (.ctxld g a b c) x.1 (BitVec.ofNat 64 x.2) tasks))
    ∧ (Acts (.gsw g a c) s →
      let u := (o.readBlock (s.sreg a)).1.lodgeRest die
      (s.gang.isSome = true → gives (.gsw g a c) u 5 tasks)
      ∧ (s.gang = none → o.blockRead (s.sreg a) = none → gives (.gsw g a c) u 2 tasks)
      ∧ ∀ k, s.gang = none → o.blockRead (s.sreg a) = some k →
        (k.job ≠ s.jobid.toNat → gives (.gsw g a c) u 1 tasks)
        ∧ (k.job = s.jobid.toNat → ∃ t, exec (.gsw g a c) s = .next t
          ∧ (∃ y, t.gang = some y ∧ y.block = k ∧ y.issuer = some (s.cur, c.toNat))
          ∧ t.task s.cur = { afterBundle true s.me with holds := s.me.holds ++ [.gsw c.toNat], time := (u.task s.cur).time }
          ∧ (u.hwm.toNat ≤ 4096 * k.turn → t.mem = u.mem ∧ tasks t)))
    ∧ (Acts (.gres g a c) s →
      let u := (o.readBlock (s.sreg a)).1.lodgeRest die
      (s.gang.isSome = true → gives (.gres g a c) u 5 tasks)
      ∧ (s.gang = none → o.blockRead (s.sreg a) = none → gives (.gres g a c) u 2 tasks)
      ∧ ∀ k, s.gang = none → o.blockRead (s.sreg a) = some k →
        (s.jobid ≠ 0 → gives (.gres g a c) u 1 tasks)
        ∧ (s.jobid = 0 → u.orangery k = none → gives (.gres g a c) u 2 tasks)
        ∧ (s.jobid = 0 → ∀ z n, u.orangery k = some z → u.gresCode k z.1 = some n →
          gives (.gres g a c) u (gresWord n z.2.1 z.2.2) tasks)
        ∧ (s.jobid = 0 → ∀ z, u.orangery k = some z → u.gresCode k z.1 = none →
          ∃ t, exec (.gres g a c) s = .next t ∧ t.jobid = BitVec.ofNat 12 k.job ∧ t.gang = none))

/-- ISSUE_TICK, after the F unit has aged and operations with nothing left to wait for have completed, enters the handler
of a lodge core with an event due, and otherwise issues the bundle of the one candidate, whose task is current from
then on where it issues and not where it is held or trapped, and does nothing where there is none. EVENT_ENTRY saves
PC, transfer state and PREDS, sets EMASK[0], ECAUSE and EINFO 0 and goes to EVEC. F_UNIT_FREE ends the last tick.
PHASE_DRAIN_DONE zeroes a gained moving range and no other byte; PHASE_BAR_CLOSE clears it of a bar that has closed.
SLOT_RELEASE frees the slot of an ended task with nothing outstanding, TASK_HALT halts a task with a pending
pre-emption. L1_FILL brings in the lines that homes have handed out; L1_WRITEBACK drops a line that no squashed bundle
holds. HOME_LOAD and HOME_STORE answer the first open request with its refusal, or with the line's bytes once every
other copy that must is given back, and wait while the home or the line is held. Each leaves the state as it was where
nothing is due. -/
def Obligations.CoreStepsAndLines : Prop :=
  (∀ (c : CoreRef) (s : State), let s1 := s.beforeIssue c
      ((isLodge c.core && s1.eventDue c.die) = true →
        exec (.issueTick c) s = .next (s1.lodgeEntry ⟨c.die, 96, 0⟩ 0 0))
      ∧ ((isLodge c.core && s1.eventDue c.die) = false →
        (∀ n, (s1.core c).candidates c.core = [n] → match issueBundle (s1.focus c n) with
          | .issued t => exec (.issueTick c) s = .next t
          | a => exec (.issueTick c) s = .next (s1.unfocus c a.state))
        ∧ ((s1.core c).candidates c.core = [] → exec (.issueTick c) s = .next s1)))
    ∧ (∀ (d : Nat) (s : State), let r : TaskRef := ⟨d, 96, 0⟩
      (s.eventDue d = false → exec (.eventEntry d) s = .next s)
      ∧ (s.eventDue d = true → ∃ t, exec (.eventEntry d) s = .next t ∧ t.mem = s.mem ∧ OthersStand s t r
        ∧ t.task r = { s.task r with pc := (s.die d).lodge.evec.setWidth 32, target := 0, delay := 0, halted := false, ctl := .none }
        ∧ t.die d = { s.die d with lodge := { (s.die d).lodge with
            epc := (s.task r).pc.setWidth 64, etrans := transWord (s.task r).target (s.task r).delay
            epreds := (s.task r).preds.setWidth 64, ecause := 0, einfo := 0, emask := 3 } }
        ∧ ∀ k, k ≠ d → t.die k = s.die k))
    ∧ (∀ (c : CoreRef) (s : State), ∃ t, exec (.fUnitFree c) s = .next t ∧ TasksAndMemoryStand s t
      ∧ t.core c = { s.core c with fBusy := if (s.core c).fBusy ≤ 1 then 0 else (s.core c).fBusy })
    ∧ (∀ (r : TaskRef) (s : State), let k := s.task r
      let lo := nearBase r.coreRef + (k.wbase + k.moveFirst) * stepBytes
      (k.draining = false → exec (.phaseDrainDone r) s = .next s)
      ∧ (k.draining = true → ∃ t, exec (.phaseDrainDone r) s = .next t ∧ t.task r = { k with draining := false } ∧ OthersStand s t r
        ∧ ∀ b, t.mem.byte b = if k.moveFirst + k.moveLen ≤ k.wsize ∧ lo ≤ b ∧ b < lo + k.moveLen * stepBytes then 0 else s.mem.byte b)
      ∧ (0 < k.barLeft ∨ k.moveLen = 0 → exec (.phaseBarClose r) s = .next s)
      ∧ (k.barLeft = 0 → k.moveLen ≠ 0 → ∃ t, exec (.phaseBarClose r) s = .next t
        ∧ t.task r = { k with draining := false, moveLen := 0, moveFirst := 0 } ∧ OthersStand s t r)
      ∧ (s.slotDone r = false → exec (.slotRelease r) s = .next s)
      ∧ (s.slotDone r = true → ∃ t, exec (.slotRelease r) s = .next t ∧ t.task? r = none ∧ OthersStand s t r
        ∧ t.launches = s.launches ∧ t.dies = s.dies)
      ∧ (k.preempt = false → exec (.taskHalt r) s = .next s)
      ∧ (k.preempt = true → (s.core r.coreRef).rerun = none → ∃ t, exec (.taskHalt r) s = .next t
        ∧ t.task r = { k with halted := true, preempt := false } ∧ OthersStand s t r ∧ t.mem = s.mem))
    ∧ ∀ (c : CoreRef) (line : Nat) (s : State),
      (∃ t, exec (.l1Fill c line) s = .next t ∧ TasksAndMemoryStand s t
        ∧ (t.core c).l1req = (s.core c).l1req.filter (fun q => !q.spent line)
        ∧ ((s.core c).l1req.filterMap (L1Req.granted line) = [] → (t.core c).l1 = (s.core c).l1)
        ∧ ∀ q l, (s.core c).l1req.filterMap (L1Req.granted line) = q ++ [l] →
          ∃ x, (t.core c).l1.head? = some x ∧ { x with slots := l.slots } = l)
      ∧ ((s.core c).keepsLine line = true → exec (.l1Writeback c line) s = .next s)
      ∧ ((s.core c).keepsLine line = false → ∃ t, exec (.l1Writeback c line) s = .next t ∧ (∀ q, t.task? q = s.task? q)
        ∧ (t.core c).l1 = (s.core c).l1.filter (fun l => !decide (l.line = line))
        ∧ ((∀ l ∈ (s.core c).l1, l.line = line → l.dirty = false) → t.mem = s.mem))
      ∧ ((s.core c).l1req.find? (fun q => q.open line false) = none → exec (.homeLoad c line) s = .next s)
      ∧ ((s.core c).l1req.find? (fun q => q.open line true) = none → exec (.homeStore c line) s = .next s)
      ∧ ∀ q write, (s.core c).l1req.find? (fun q => q.open line write) = some q →
        let i : Instr := if write then .homeStore c line else .homeLoad c line
        (∀ e, s.refusal q = some e → ∃ t, exec i s = .next t ∧ TasksAndMemoryStand s t
          ∧ (t.core c).l1req = answerFirst line write (.refused e) (s.core c).l1req)
        ∧ (s.refusal q = none → (s.homeBusy (line * 128) || s.lineHeld line write (some c)) = true → exec i s = .next s)
        ∧ (s.refusal q = none → (s.homeBusy (line * 128) || s.lineHeld line write (some c)) = false → let s1 := s.recall line write
          ∃ t l, exec i s = .next t ∧ t.mem = s1.mem ∧ (∀ q, t.task? q = s.task? q)
            ∧ (t.core c).l1req = answerFirst line write (.line l) (s1.core c).l1req
            ∧ l.line = line ∧ l.right = q.right ∧ l.key = q.key ∧ l.gen = q.gen ∧ l.dirty = false ∧ l.wts = (s1.lineMeta line).wts
            ∧ ((s1.lineMeta line).key = 0 ∨ (s1.lineMeta line).key = q.key → l.data = s1.mem.bytes (line * 128) 128)
            ∧ (write = true → ∀ k, ∀ x ∈ (t.core k).l1, x.line = line → x.right = .ro))

/-- ATOMIC_EXECUTE of an unordered atomic at the head of a task's operations, and ORDERED_RELEASE of an ordered one that
its set lets go, give every copy of its line back, replace its bytes by the new value of Table 12.3 and no others, and
keep the old value for the task; one of a stale generation traps at its own bundle, one whose line is held waits, and
one of another module sends its request. ATOMIC_REPLY gives the old value to s_d with its flags, or to a halted task
as a pending result; a refused remote atomic traps. CLAIM raises SLN within the slice; STEAL_REQUEST moves whole
grains from the victim's end, or empties the slice; each is served in its turn (the choice of notes/assumptions/126).
ARRAY_ERROR of an array source in a protected region rolls the task back for the first rerun, within a rerun makes it
disagree, elsewhere halts the task with an unrecoverable-matrix fault; in a core's registers it traps, a corrected one
is counted, one of HBM or a Pavilion poisons, one of the lodge's state is fatal. RERUN_DONE starts the second rerun,
then recovers on agreement or retires the core; REGION_UNPROTECTED frees a log past its limits. Each leaves the state
as it was where nothing is due. -/
def Obligations.AtomicsLoopsAndCheckpoints : Prop :=
  (∀ (r : TaskRef) (s : State),
      ((s.task r).waitingAtomic = none → exec (.atomicExecute r) s = .next s ∧ exec (.orderedRelease r) s = .next s)
      ∧ ∀ a, (s.task r).waitingAtomic = some a →
        let go := (a.ordered = none) ∨ ∃ o, a.ordered = some o ∧ s.mayRelease (s.task r) o = true ∧ s.jobStopped (s.task r).job = false
        let i : Instr := if a.ordered.isSome then .orderedRelease r else .atomicExecute r
        let here := paModule a.pa = s.module.toNat
        (a.ordered.isSome = true → exec (.atomicExecute r) s = .next s)
        ∧ (a.ordered = none → exec (.orderedRelease r) s = .next s)
        ∧ (¬go → exec i s = .next s)
        ∧ (go → here → a.gen ≠ s.genOf (paOffset a.pa) → exec i s = .next (if (s.task r).halted then s else
            ((s.dropHold r).modTask r fun t => { t with pc := a.pc, delay := a.delay, target := a.target }).takeTrap r ⟨0x63, a.va⟩))
        ∧ (go → here → a.gen = s.genOf (paOffset a.pa) → s.runHeld (paOffset a.pa) a.width true = true → exec i s = .next s)
        ∧ (go → here → a.gen = s.genOf (paOffset a.pa) → s.runHeld (paOffset a.pa) a.width true = false →
          paOffset a.pa % 128 + a.width ≤ 128 →
          let s1 := s.recall (lineOf (paOffset a.pa)) true
          let key := (s1.lineMeta (lineOf (paOffset a.pa))).key
          let old := leNat (s1.mem.bytes (paOffset a.pa) a.width)
          s.hasKey (jobKey (s.task r).job) = true → (key = 0 ∨ key = jobKey (s.task r).job) →
          ∃ t ta, exec i s = .next t
            ∧ (t.task r).holds = .atomic { a with floor := ta, result := some (a.returned old, (a.next old).2) } :: (s.task r).holds.drop 1
            ∧ ta = s1.atomicTime r a (lineOf (paOffset a.pa)) ∧ OthersStand s t r
            ∧ t.mem.bytes (paOffset a.pa) a.width = leBytes a.width (a.next old).1
            ∧ ∀ b, (b < paOffset a.pa ∨ paOffset a.pa + a.width ≤ b) → t.mem.byte b = s1.mem.byte b)
        ∧ (go → ¬here → let p := a.request (s.task r).job (s.fenceTime r a.floor + 1)
          let id := requestId s.module.toNat r.die (s.nextSeq r.die (paModule a.pa))
          ∃ t, exec i s = .next t ∧ (t.task r).holds = .remote id a :: (s.task r).holds.drop 1
            ∧ t.sent = s.sent ++ [⟨r.die, { p with id := id }, paModule a.pa, 1, r, none, none⟩]
            ∧ OthersStand s t r ∧ t.mem = s.mem))
    ∧ (∀ (a : AtomicOp) (old : Nat), let v := a.operand.toNat % 2 ^ (8 * a.width)
      (∀ x, a.fadd = none → a.cas = some x → a.next old = (if old = v then x.toNat else old, 0))
      ∧ (a.fadd = none → a.cas = none →
        (a.op = 0 → a.next old = (old + v, 0)) ∧ (a.op = 1 → a.uns = true → a.next old = (min old v, 0))
        ∧ (a.op = 2 → a.uns = true → a.next old = (max old v, 0)) ∧ (a.op = 3 → a.next old = (old &&& v, 0))
        ∧ (a.op = 4 → a.next old = (old ||| v, 0)) ∧ (a.op = 5 → a.next old = (old ^^^ v, 0)) ∧ (a.op = 6 → a.next old = (v, 0))
        ∧ (a.op = 7 → a.uns = true → a.next old = (if old < v then old + 1 else old, 0))))
    ∧ (∀ (r : TaskRef) (s : State) (rest : List Hold),
      let takes := fun (d : Nat) (v : W64) (f : Flags) (ta : W64) => ∃ t, exec (.atomicReply r) s = .next t ∧ OthersStand s t r
        ∧ t.mem = s.mem ∧ (let k := { ((s.task r).observe ta) with holds := rest };
          t.task r = if k.halted then k.push 0 (.scalar d v) f else (k.setSreg d v).orFlags f)
      (∀ a, (s.task r).holds = .atomic a :: rest →
        (a.result = none → exec (.atomicReply r) s = .next s) ∧ ∀ v f, a.result = some (v, f) → takes a.dest v f a.floor)
      ∧ ∀ id a, (s.task r).holds = .remote id a :: rest →
        ((s.sent.find? fun x => decide (x.req.id = id)).bind SentReq.reply = none → exec (.atomicReply r) s = .next s)
        ∧ ∀ x rep, (s.sent.find? fun x => decide (x.req.id = id)) = some x → x.reply = some rep →
          (replyTrap a.va x.req rep.status = none →
            takes a.dest (a.returned (RemoteRep.old a rep)) (a.next (RemoteRep.old a rep)).2 (BitVec.ofNat 64 rep.time))
          ∧ ∀ tr, replyTrap a.va x.req rep.status = some tr → exec (.atomicReply r) s = .next (if (s.task r).halted then s else
            (((s.dropSent id).dropHold r).modTask r fun t => { t with pc := a.pc, delay := a.delay, target := a.target }).takeTrap r tr))
    ∧ (∀ (r : TaskRef) (s : State) (v n : W64) (rest : List Hold), let h := (s.task r).lidx.toNat
      let serves := fun (i : Instr) (g : Launch → Launch) => ∃ t, exec i s = .next t ∧ OthersStand s t r ∧ t.mem = s.mem
        ∧ t.task r = { s.task r with holds := rest }
        ∧ t.launches = s.launches.map fun l => if l.seq = (s.task r).launch then g l else l
      (s.loopTurn r = true → (s.task r).holds = .claim v n :: rest → serves (.claim r) fun l =>
        let x := l.slice h
        l.setSlice h { x with sln := if tmax v x.sln < x.sle then tmax v x.sln else x.sle })
      ∧ (s.loopTurn r = true → (s.task r).holds = .steal n :: rest → serves (.stealRequest r) fun l => l.stolen h)
      ∧ (s.loopTurn r = false → exec (.claim r) s = .next s ∧ exec (.stealRequest r) s = .next s)
      ∧ ((s.task r).holds = [] → exec (.claim r) s = .next s ∧ exec (.stealRequest r) s = .next s
        ∧ exec (.atomicReply r) s = .next s))
    ∧ (∀ (l : Launch) (h v u : Nat), l.grain ≠ 0 → l.victim h = some (v, u) → v ≠ h →
      (u < 2 * l.grain → (l.stolen h).slice h = ⟨(l.slice h).sle, (l.slice h).sle, (l.slice h).sle⟩ ∧ (l.stolen h).slice v = l.slice v)
      ∧ (2 * l.grain ≤ u → let m := (l.slice v).sle - BitVec.ofNat 64 (u / (2 * l.grain) * l.grain)
        (l.stolen h).slice h = ⟨m, (l.slice v).sle, m⟩ ∧ (l.stolen h).slice v = { l.slice v with sle := m }))
    ∧ (∀ (r : TaskRef) (source place : Nat) (s : State), let c := s.core r.coreRef
      let i : Instr := .arrayError r ⟨source, place⟩
      (source = 0 → exec i s = .next (s.modMonitor (nearMonitor r.die place) fun m => { m with ce := m.ce + 1 }))
      ∧ (source = 4 → isLodge r.core = false → (s.task? r).isSome = true → (s.task r).status ≠ .ending → (s.task r).halted = false →
        exec i s = .next ((s.takeTrap r ⟨0xA1, BitVec.ofNat 64 place⟩).modTask r fun t => { t with broken := true }))
      ∧ (source = 5 → exec i s = .next (s.poison place))
      ∧ (source = 6 ∨ (source = 4 ∧ isLodge r.core = true) →
        exec i s = .next (s.stopOrDump r.die 0xE1 (BitVec.ofNat 64 (place % 2 ^ 48))))
      ∧ (source ∉ [0, 4, 5, 6] →
        (s.task? r = none → exec i s = .next s)
        ∧ (∀ h tok, (s.task? r).isSome = true → (s.task r).status = .tiling h tok → c.rerun = none →
          exec i s = .next (s.tileError r source h tok))
        ∧ ((s.task? r).isSome = true → (s.task r).status = .ready →
          (∀ y, c.rerun = some y → y.slot = r.slot → y.run ≠ 0 → ∃ t, exec i s = .next t ∧ TasksAndMemoryStand s t
            ∧ (t.core r.coreRef).rerun = some { y with failed := true })
          ∧ ((c.rerun = none ∧ ∀ g ∈ s.regionOf r, g.guarded = false) ∨ (∃ y, c.rerun = some y ∧ y.slot ≠ r.slot) →
            ∃ t, exec i s = .next t ∧ OthersStand s t r ∧ t.mem = s.mem ∧ (t.task r).halted = true
              ∧ t.die r.die = ((s.die r.die).noteFault r.core 0xA2).post
                ⟨0xA2, 1, r.die, r.core, r.slot, (s.task r).job, BitVec.ofNat 64 source, (s.task r).lidx, 0, s.cycle32, none⟩)
          ∧ ∀ g, c.rerun = none → s.regionOf r = some g → g.guarded = true → c.busyInside r.slot = false → s.fatal = none →
            g.closed = false → g.bundles ≠ 0 → ∃ t x, exec i s = .next t ∧ OthersStand s t r
              ∧ (t.core r.coreRef).rerun = some x ∧ x.slot = r.slot ∧ x.source = source ∧ x.run = 1 ∧ x.left = g.bundles
              ∧ (t.task r).pc = g.saved.pc ∧ (t.task r).sregs = g.saved.sregs ∧ (t.task r).preds = g.saved.preds
              ∧ (t.task r).loops = g.saved.loops ∧ (t.task r).budget = g.saved.budget ∧ (t.task r).halted = false
              ∧ (g.items = [] → t.mem = s.mem))))
    ∧ (∀ (c : CoreRef) (s : State), ((s.core c).rerun = none → exec (.rerunDone c) s = .next s)
      ∧ (s.fatal.isSome = true → exec (.rerunDone c) s = .next s)
      ∧ ∀ x g, (s.core c).rerun = some x → x.left = 0 → (s.core c).busyInside x.slot = false → s.fatal = none →
        (s.core c).regions.get none x.slot = some g → g.closed = false →
        (x.run = 1 → x.bundles ≠ 0 → ∃ t, exec (.rerunDone c) s = .next t ∧ OthersStand s t ⟨c.die, c.core, x.slot⟩
          ∧ (t.core c).rerun = some { x with run := 2, left := x.bundles, count1 := g.count, sig1 := Config.signature g.writes }
          ∧ (t.task ⟨c.die, c.core, x.slot⟩).pc = g.saved.pc)
        ∧ (x.run = 2 → ∃ t, exec (.rerunDone c) s = .next t ∧ (t.core c).rerun = none
          ∧ ((x.failed = true ∨ x.count1 ≠ g.count ∨ x.sig1 ≠ Config.signature g.writes) → c.core ∈ (t.die c.die).lodge.retired)
          ∧ (x.failed = false → x.count1 = g.count → x.sig1 = Config.signature g.writes →
            t.mem = s.mem ∧ OthersStand s t ⟨c.die, c.core, x.slot⟩ ∧ (t.core c).retrec.take 3 = [BitVec.ofNat 8 x.source, 1, BitVec.ofNat 8 x.slot])))
    ∧ ∀ (r : TaskRef) (s : State), ∃ t, exec (.regionUnprotected r) s = .next t ∧ TasksAndMemoryStand s t
      ∧ ∀ g, (s.core r.coreRef).regions.get none r.slot = some g →
        (t.core r.coreRef).regions.get none r.slot
          = some (if g.charge > 65536 ∨ g.bundles ≥ 4096 then { g with guarded := false, items := [] } else g)

/-- COPY_START of a copy whose bindings have completed marks it started, and of one with a faulted binding ends it with
0x43; COPY_CELL_WRITE of the last element of a CPY within the window copies its bytes there and no others;
COPY_COMPLETE ends it with its token DONE when every element is written, what goes to HBM being taken by its homes
then. STREAM_START does the same in the order of the array; STREAM_COMPLETE of one row adds the products of the
latched weights to the row of the tile, raises its flags and ends; MOUT_COMPLETE of one row to operand memory writes
the converted row and ends. MCST_START reads and checks the block and puts the head and its body cells in the send
buffer, and ends with 0x4B where the block is refused; MCST_COMPLETE ends when the last cell has left. Where no such
command is due the state stays as it was. -/
def Obligations.CopiesStreamsAndMulticastsRun : Prop :=
  ∀ (c : CoreRef) (tok : Nat) (s : State),
    ((s.core c).cmd tok = none → ∀ i ∈ [Instr.copyStart c tok, .copyCellWrite c tok, .copyComplete c tok, .streamStart c tok,
      .streamComplete c tok, .moutComplete c tok, .mcstStart c tok, .mcstComplete c tok], exec i s = .next s)
    ∧ ∀ x, (s.core c).cmd tok = some x →
      let r := issuerOf c x
      let f := x.fields
      let begun := { x with started := true }
      (∀ k g, x.kind.copy? = some k → g = x.agent c tok →
        (x.started = true ∨ x.deps ≠ [] ∨ (s.task r).stopped = true → exec (.copyStart c tok) s = .next s)
        ∧ (x.started = false → x.deps = [] → (s.task r).stopped = false →
          (x.depFault.isSome = true → ∃ t, exec (.copyStart c tok) s = .next t
            ∧ Ended s t c tok x 0x43 (s.agentTime c.die g.pos) ∧ t.mem = s.mem)
          ∧ (x.depFault = none → ∃ t, exec (.copyStart c tok) s = .next t ∧ GoesOn s t c tok begun ∧ t.mem = s.mem
            ∧ t.agentTime c.die g.pos = tmax (s.agentTime c.die g.pos) (s.task r).time))
        ∧ (x.started = false ∨ x.elems < elementTotal f → exec (.copyComplete c tok) s = .next s)
        ∧ (x.started = true → s.storesHeld x = true → exec (.copyComplete c tok) s = .next s)
        ∧ (x.started = true → elementTotal f ≤ x.elems → (∀ q ∈ s.sent, q.task = r → q.cmdTok ≠ some tok) → s.storesHeld x = false →
          ∃ t, exec (.copyComplete c tok) s = .next t ∧ Ended s t c tok x 0 (s.landStores g x).2
            ∧ t.mem = (x.stores.foldl (fun s y => s.storeHbm y.2.1 y.1 y.2.2) s).mem
            ∧ (t.die c.die).engDone.get 0 (engineOf c.core) = (s.die c.die).engDone.get 0 (engineOf c.core) + 1)
        ∧ ∀ a b n, element .cpy f (digits (copyCounts f) x.elems) 0 = (.copy a, b) → n = fieldOf f 2 → k = .cpy →
          x.started = true → (s.task r).stopped = false → x.elems + 1 = elementTotal f → tteEntry f = none → x.skip = 0 → x.idx = [] → x.spots = [] →
          addrForm a = 2 → addrForm b = 2 → 0 < n → addrOff a % n = 0 → addrOff b % n = 0 →
          addrOff a + n ≤ (s.task r).windowBytes → addrOff b + n ≤ (s.task r).windowBytes → (s.task r).windowBytes ≤ 2 ^ 22 →
          (∀ p m w, s.spotHeld p m w = false) →
          let o := windowAddr c (s.task r) (addrOff b)
          ∃ t, exec (.copyCellWrite c tok) s = .next t
            ∧ GoesOn s t c tok { x with elems := x.elems + 1, cells := x.cells + 1, lines := x.lines.dedup }
            ∧ t.mem.bytes o n = s.mem.bytes (windowAddr c (s.task r) (addrOff a)) n
            ∧ ∀ m, m < o ∨ o + n ≤ m → t.mem.byte m = s.mem.byte m)
      ∧ (∀ n, x.kind = .mstrm n → let k := s.core c
        let cols := colCount (k.accUnit n).cols
        let d := subDepth k.mode
        let o := unitAddr c n + 4 * cols * fieldOf f 37
        (x.started = true ∨ k.mayStart x.slot (tok % 16) x = false → exec (.streamStart c tok) s = .next s)
        ∧ (x.started = false → k.mayStart x.slot (tok % 16) x = true →
          (x.depFault.isSome = true → ∃ t, exec (.streamStart c tok) s = .next t ∧ Ended s t c tok x 0x43 (s.task r).time
            ∧ t.mem = s.mem)
          ∧ (x.depFault = none → ∃ t, exec (.streamStart c tok) s = .next t ∧ GoesOn s t c tok begun ∧ t.mem = s.mem))
        ∧ (x.started = false → exec (.streamComplete c tok) s = .next s)
        ∧ (x.started = true → ∃ t, exec (.streamComplete c tok) s = .next t ∧ Ended s t c tok x 0 (s.task r).time
          ∧ (∀ b, b < o ∨ o + 4 * cols * fieldOf f 36 ≤ b → t.mem.byte b = s.mem.byte b)
          ∧ ∀ l, k.latches.get none (fieldOf f 32) = some l → fieldOf f 36 = 1 →
            let row := streamRow (.ofRz (decide (fieldOf f 38 = 1))) d cols (latchFmt l.operand) l.image
              (wordsOf (s.mem.bytes o (4 * cols)))
              ((List.range d).map fun i => activationAt
                (s.mem.bytes (operandBase c + fieldOf f 33) (rowSize (fieldOf f 35) d)) (fieldOf f 35) d i)
            t.mem.bytes o (4 * cols) = bytesOf (row.map Prod.fst)
              ∧ ((t.core c).accUnit n).flags = (k.accUnit n).flags
                ||| flagIf ((List.range d).any fun i => (List.range cols).any fun j =>
                  weightInvalid l.image (latchFmt l.operand) d i j) flagNV ||| orAll (row.map Prod.snd)))
      ∧ (∀ n, x.kind = .mout n → let k := s.core c
        let cols := colCount (k.accUnit n).cols
        let l := (wordsOf (s.mem.bytes (unitAddr c n + 4 * cols * fieldOf f 44) (4 * cols))).map
          (outElem (fieldOf f 43) (decide (fieldOf f 38 = 1)))
        let o := operandBase c + fieldOf f 41
        (k.mayStart x.slot (tok % 16) x = false → exec (.moutComplete c tok) s = .next s)
        ∧ (k.mayStart x.slot (tok % 16) x = true → x.depFault.isSome = true → ∃ t, exec (.moutComplete c tok) s = .next t
          ∧ Ended s t c tok x 0x43 (s.task r).time ∧ t.mem = s.mem)
        ∧ (k.mayStart x.slot (tok % 16) x = true → x.depFault = none → fieldOf f 40 = 1 → fieldOf f 36 = 1 →
          ∃ t, exec (.moutComplete c tok) s = .next t ∧ Ended s t c tok x 0 (s.task r).time
            ∧ t.mem.bytes o (cols * fmtBytes (fieldOf f 43)) = l.flatMap Prod.fst
            ∧ (∀ b, b < o ∨ o + cols * fmtBytes (fieldOf f 43) ≤ b → t.mem.byte b = s.mem.byte b)
            ∧ ((t.core c).accUnit n).flags = (k.accUnit n).flags ||| orAll (l.map Prod.snd)))
      ∧ (x.kind = .mcst → let a := f.get 0 0
        let b := s.mem.bytes (windowAddr c (s.task r) (addrOff a)) 192
        let body := BitVec.ofNat 64 (bytesAt b 0 8)
        (x.started = true ∨ x.deps ≠ [] ∨ (s.task r).stopped = true ∨ s.jobStopped x.job = true → exec (.mcstStart c tok) s = .next s)
        ∧ (x.started = false → x.deps = [] → (s.task r).stopped = false → s.jobStopped x.job = false →
          (x.depFault.isSome = true → ∃ t, exec (.mcstStart c tok) s = .next t ∧ Ended s t c tok x 0x43 (s.task r).time
            ∧ t.mem = s.mem)
          ∧ (x.depFault = none → addrForm a = 2 → addrOff a % 128 = 0 → addrOff a + 192 ≤ (s.task r).windowBytes →
            (s.task r).windowBytes ≤ 2 ^ 22 → (∀ p m w, s.spotHeld p m w = false) → s.fatal = none →
            (s.mcBlockOk c b = false → ∃ t, exec (.mcstStart c tok) s = .next t ∧ Ended s t c tok x 0x4B (s.task r).time
              ∧ t.mem = s.mem)
            ∧ (s.mcBlockOk c b = true → addrForm body = 2 → addrOff body + 128 ≤ (s.task r).windowBytes →
              mcBody (b.drop 64) = 1 → (s.core c).sendBuf.length + 2 ≤ 64 → x.cells = 0 →
              let cell := fun (typ cidx : Nat) (p : List Byte) => ({
                typ := typ, flow := bytesAt b 8 4, job := s.jobid.toNat, rank := bytesAt b 12 2, cidx := cidx % 2 ^ 16,
                psn := false, circ := false, payload := p } : Cell)
              ∃ t y, exec (.mcstStart c tok) s = .next t ∧ GoesOn s t c tok y ∧ y.started = true ∧ y.cells = 2 ∧ y.kind = .mcst
                ∧ t.mem = s.mem ∧ (t.core c).sendBuf = (s.core c).sendBuf
                  ++ [cell 8 (bytesAt b 14 2) (b.drop 64),
                    cell 9 (bytesAt b 14 2 + 1) (s.mem.bytes (windowAddr c (s.task r) (addrOff body)) 128)])))
        ∧ (x.started = false → exec (.mcstComplete c tok) s = .next s)
        ∧ (x.started = true → s.jobStopped x.job = false → mcBody (x.block.drop 64) < x.cells →
          ((∃ q ∈ (s.core c).sendBuf, q.typ = 8 ∨ q.typ = 9) → exec (.mcstComplete c tok) s = .next s)
          ∧ ((∀ q ∈ (s.core c).sendBuf, q.typ ≠ 8 ∧ q.typ ≠ 9) → ∃ t, exec (.mcstComplete c tok) s = .next t
            ∧ Ended s t c tok x 0 (s.task r).time ∧ t.mem = s.mem)))

/-- DISPATCH_GROUP places the next task of a launch of single-task groups on the first core in order that can take it,
with its window zeroed and the registers of dispatch, and counts it. LAUNCH_COMPLETE of a launch whose tasks have all
ended finishes it, replies to the host and ends the TLNCH, with 0x47 where a task was killed. TILE_START of a
core-level instruction with a good block gives all its units to its own core, and of a bad one ends it with the cause;
UNIT_COMPLETE keeps a unit's chunk result and flags or writes it to WORK, or notes the fault of the lowest unit;
TILE_FOLD of a tile whose units stand writes D and completes them; CHILD_LOST moves the incomplete units of a lost
leaf to the nearest that are left; TILE_COMPLETE ends the instruction, DONE or with its fault, and frees the tile
tasks. Where nothing is due the state stays as it was. -/
def Obligations.LaunchesAndTileInstructionsRun : Prop :=
  (∀ (n : Nat) (s : State), s.launch? n = none →
      exec (.dispatchGroup n) s = .next s ∧ exec (.launchComplete n) s = .next s)
    ∧ (∀ (n : Nat) (s : State) (l : Launch), s.launch? n = some l → l.loaded = true →
      (s.mayDispatch l = false → exec (.dispatchGroup n) s = .next s)
      ∧ (s.launchOver l = false → exec (.launchComplete n) s = .next s)
      ∧ (∀ q j rest c slot vb wb, s.mayDispatch l = true → l.kernel.group = 1 → l.kernel.barriers = 0 →
        (∀ y ∈ s.launches, y.seq = n → y = l) →
        s.tryOrder l = (q, j) :: rest → (clusterCores (q / 12) (q % 12))[j % 8]? = some c → s.isRetired c = false →
        s.freeSlot c = some slot → (s.core c).freeBlock l.kernel.vregs = some vb → (s.core c).freeWindow l.kernel.steps = some wb →
        let r : TaskRef := ⟨c.die, c.core, slot⟩
        let lo := nearBase c + wb * stepBytes
        ∃ t k, exec (.dispatchGroup n) s = .next t ∧ t.task? r = some k ∧ OthersStand s t r
          ∧ k = l.task l.placed [] vb wb s.hwm ∧ k.pc = l.kernel.entry ∧ k.budget = l.budget ∧ k.lidx = BitVec.ofNat 64 l.placed
          ∧ k.job = l.job ∧ k.time = s.hwm ∧ (∀ i, i < 7 → k.sregs.get 0 (i + 1) = l.args.getD i 0)
          ∧ (∀ b, t.mem.byte b = if lo ≤ b ∧ b < lo + l.kernel.steps * stepBytes then 0 else s.mem.byte b)
          ∧ t.launches = s.launches.map (fun y => if y.seq = n then { y with placed := y.placed + 1 } else y)
          ∧ t.pointer = (8 * q + j % 8 + 1) % 768)
      ∧ (s.launchOver l = true →
        let past := s.launches.map fun y => if y.seq = n then { y with finished := true } else y
        (l.tlnch = none → l.fromHost = none → ∃ t, exec (.launchComplete n) s = .next t ∧ t = { s with launches := past })
        ∧ (∀ seq, l.tlnch = none → l.fromHost = some seq → ∃ t, exec (.launchComplete n) s = .next t ∧ t.launches = past
          ∧ TasksAndMemoryStand s t ∧ t.host = s.host.sendCell
            (routedCell 10 s.hostRoute 0 (padTo 128 ([0x91, 0, 0, 0] ++ leBytes 4 seq ++ leBytes 8 l.id.toNat))))
        ∧ ∀ c tok x, l.tlnch = some (c, tok) → (s.core c).cmd tok = some x → ∃ t, exec (.launchComplete n) s = .next t
          ∧ t.launches = past ∧ t.mem = s.mem ∧ Ended s t c tok x (if l.killed then 0x47 else 0) s.hwm))
    ∧ (∀ (c : CoreRef) (tok unit : Nat) (s : State), s.tileAt c tok = none →
      ∀ i ∈ [Instr.tileStart c tok, .unitComplete c tok unit, .tileFold c tok unit, .childLost c tok unit, .tileComplete c tok],
        exec i s = .next s)
    ∧ (∀ (c : CoreRef) (tok : Nat) (s : State) (x : Cmd) (opc : Nat) (ord rz : Bool),
      (s.core c).cmd tok = some x → x.kind = .tile opc ord rz →
      let r := issuerOf c x
      let a := x.issuer c tok
      (x.started = true ∨ x.deps ≠ [] ∨ (s.task r).stopped = true ∨ s.jobStopped x.job = true → exec (.tileStart c tok) s = .next s)
      ∧ (x.started = false → x.deps = [] → (s.task r).stopped = false → s.jobStopped x.job = false →
        (x.depFault.isSome = true → ∃ t, exec (.tileStart c tok) s = .next t ∧ Ended s t c tok x 0x43 (s.task r).time ∧ t.mem = s.mem)
        ∧ ∀ b d, x.run = none → x.depFault = none → s.readRun a (x.fields.get 0 0) 128 = (s, .ok b) → b ≠ [] → let g0 := TileRun.fresh b
          State.readDescs g0 a [0, 1, 2, 3] s = (s, .ok d) → g0.descsAligned = true → addrForm g0.record = 2 → g0.level = 4 → isCompute c.core = true →
          (∀ p m w, s.spotHeld p m w = false) →
          let g := { g0 with descs := d }
          (∀ cause, s.startCause c tok x g opc ord rz = some cause → ∃ t tc, exec (.tileStart c tok) s = .next t
            ∧ (t.core c).cmd tok = none ∧ (t.task r).token (tok % 16) = ⟨if cause = 0 then .done else .faulted, cause, tc⟩)
          ∧ (s.startCause c tok x g opc ord rz = none → ∃ t y h, exec (.tileStart c tok) s = .next t
            ∧ (t.core c).cmd tok = some y ∧ y.started = true ∧ y.kind = x.kind ∧ y.fields = x.fields ∧ y.run = some h
            ∧ h.block = b ∧ h.descs = d ∧ h.units = g.tiles * g.chunks ∧ h.done = [] ∧ h.folded = [] ∧ h.fault = none
            ∧ h.leaves = [.core c x.slot] ∧ ∀ u, u < h.units → h.worker u = some (.core c x.slot))))
    ∧ ∀ (c : CoreRef) (tok : Nat) (s : State) (x : Cmd) (g : TileRun), s.tileAt c tok = some x → x.run = some g →
      let r := issuerOf c x
      let goes := fun (i : Instr) (s0 : State) (h : TileRun) => ∃ t, exec i s = .next t
        ∧ (∃ y, (t.core c).cmd tok = some y ∧ y.run = some h ∧ y.started = x.started ∧ y.kind = x.kind) ∧ t.mem = s0.mem
      (∀ u, let i : Instr := .unitComplete c tok u
        let a := x.unitAgent c tok g u
        (s.unitReady c tok x g u = false → exec i s = .next s)
        ∧ (s.unitReady c tok x g u = true →
          (∀ s1 e, s.unitForms a g u = (s1, .error (some e)) → goes i s1 (g.fail ⟨u, tileCause e, 4, g.worker u⟩))
          ∧ (∀ s1 v f, s.unitForms a g u = (s1, .ok (v, [], f)) → g.whole (u / g.chunks) = true →
            goes i s1 { g with flags := g.flags ||| f, held := Tbl.insert v g.held u })
          ∧ ∀ s1 v l f s2 lines, s.unitForms a g u = (s1, .ok (v, l, f)) → g.whole (u / g.chunks) = false →
            State.writeList a (s1.tileWrites g l ++ pieces (g.workAt u) (v.flatMap fun n => leBytes g.workWidth n.toNat))
              ((s1.forgetReads a).tookFree (8 * l.length)) [] = (s2, ⟨lines, none, false⟩) →
            ∃ t y h, exec i s = .next t ∧ (t.core c).cmd tok = some y ∧ y.run = some h ∧ h.flags = g.flags ||| f
              ∧ h.done = u :: g.done ∧ h.held = g.held ∧ t.mem = (s2.noteDone c tok y h).1.mem))
      ∧ (∀ n, let i : Instr := .tileFold c tok n
        (s.foldReady c tok x g n = false → exec i s = .next s)
        ∧ (s.foldReady c tok x g n = true → ∀ s1 l f s2 fw,
          let a := if g.whole n then x.unitAgent c tok g (n * g.chunks) else x.issuer c tok
          s.foldTile a g n = (s1, .ok (l, f)) →
          State.foldWrites g (fun u => if g.opc = 3 then x.unitAgent c tok g u else a) l (s1.forgetReads a) ⟨[], [], none, false⟩
            = (s2, fw) → fw.waits = false → fw.failed = none →
          ∃ t y h, exec i s = .next t ∧ (t.core c).cmd tok = some y ∧ y.run = some h ∧ h.flags = g.flags ||| f
            ∧ h.folded = n :: g.folded ∧ (∀ u, u ∈ h.done ↔ u ∈ g.done ∨ u ∈ g.unitsOf n)
            ∧ t.mem = (s2.noteDone c tok y h).1.mem))
      ∧ (∀ n, let i : Instr := .childLost c tok n
        (g.workers[n]? = none → exec i s = .next s)
        ∧ ∀ w, g.workers[n]? = some w →
          let mine := g.parts.filter fun p => decide (p.worker = w)
          let units := mine.flatMap fun p => withoutUnits g.done p.first p.count
          (x.started = false ∨ g.aborted = true ∨ units = [] ∨ s.leafLost c tok w = false → exec i s = .next s)
          ∧ (x.started = true → g.aborted = false → units ≠ [] → s.leafLost c tok w = true →
            let live := (g.leaves.filter fun v => !decide (v = w)).filterMap (s.liveLeaf c tok g)
            let new := distribute s.module.toNat 4 0 units (nearest s.module.toNat w live)
            live ≠ [] → ∃ t, exec i s = .next t ∧ t.mem = s.mem ∧ (t.core c).cmd tok = some { x with run := some { g with
              parts := (g.parts.filter fun p => !decide (p.worker = w)) ++ g.doneParts mine ++ new
              leaves := live
              held := g.held.filter fun e => !decide (g.worker e.1 = some w) } }))
      ∧ ((s.task r).stopped = true ∨ (g.final = none ∧ (x.started = false ∨ (s.judged g).ending = none)) →
        exec (.tileComplete c tok) s = .next s)
      ∧ (g.final = none → g.ending = some (1, none) → x.started = true → (s.task r).stopped = false → g.stores = [] → g.spoilt = false →
        (∀ q ∈ s.sent, q.cmdTok ≠ some tok) →
        let s0 := (x.agents c tok g).foldl (fun s a => s.dropFar a.task tok) s.tookFree
        ∀ s1 tc lines, s0.lastRecord c tok x g x.lines.dedup 1 none = (s1, tc, ⟨lines, none, false⟩) → s1.farPending r tok = false →
        ∃ t, exec (.tileComplete c tok) s = .next t ∧ (t.core c).cmd tok = none
          ∧ (t.task r).token (if isCompute c.core then tok % 16 else tok) = ⟨.done, 0, tc⟩
          ∧ ∀ k slot, Worker.core k slot ∈ g.workers → CoreRef.key k ≠ CoreRef.key c →
            (s.task ⟨k.die, k.core, slot⟩).status = .tiling c tok → t.task? ⟨k.die, k.core, slot⟩ = none)

/-- CELL_ARRIVAL at a mesh port acts on the oldest cell: a stray one is queued or dropped, FORWARD emits it, DELIVER puts
it in its task's queue, and an unordered COMBINE folds its payload and marks its rank. SLOT_SEND moves the first cell
of a core's send buffer to the local port, and of a ring or rack port over the link under the next ESEQ.
LINK_CELL_RECEIVE accepts the ESEQ expected next and acknowledges it, asks for a replay after a beat error, and drops
every other. LINK_ACK empties the retry buffer up to the ESEQ; REPLAY_REQUEST sends the rest again; signal loss and a
training that ends late fail both ends; LINK_TRAINED brings a link up and replays what its far end has not accepted.
RING_REFUSAL circulates a cell once and then sends a NACK; NACK and NACK_RESEND queue it and let it wait again for its
port at the start of a frame. MODULE_LOSS adds the unstated count to FLOSS. KEY_MARKER takes the named slot;
KEY_REFUSAL goes back to the old one. -/
def Obligations.LinksAndArrivals : Prop :=
  (∀ (p : PortRef) (w : WireCell) (n : Nat) (s : State), linkOf p = none →
      ∀ i ∈ [Instr.linkCellReceive p w, .linkAck p n, .replayRequest p n, .linkSignalLoss p, .retrainTimeout p, .moduleLoss p,
        .keyMarker p n, .keyRefusal p, .linkTrained p], exec i s = .next s)
    ∧ (∀ (p : PortRef) (s : State) (c : Cell) (rest : List Cell), let v := (s.die p.die).pav (portRouter p)
      (v.port p.port).fifo = c :: rest → (v.port p.port).refusal = [] → p.port < 4 → s.collTakes p.die (portRouter p) c = none → c.typ = 0 →
      s.jobStopped c.job = false →
      let s1 := s.modPort p.die (portRouter p) p.port fun q => { q with fifo := rest }
      (v.matching c = none → ∃ t, exec (.cellArrival p) s = .next t ∧ TasksAndMemoryStand s t
        ∧ (((t.die p.die).pav (portRouter p)).port p.port).fifo = rest
        ∧ (t.die p.die).stray = (if (s.die p.die).stray.length < 64 then (s.die p.die).stray ++ [c] else (s.die p.die).stray)
        ∧ (64 ≤ (s.die p.die).stray.length → (t.die p.die).sqdrop = (s.die p.die).sqdrop + 1))
      ∧ ∀ n e, v.matching c = some (n, e) →
        (e.action = 0 → exec (.cellArrival p) s = .next (s1.emit p.die (portRouter p) p.port e.next
          (if e.rename then { c with flow := e.outflow } else c)))
        ∧ (∀ k, e.action = 6 → e.lkind = 0 → let r := localTask p.die (portRouter p) e.lslot
          let x := k.queue e.lq
          s.task? r = some k → k.job = e.job → k.status ≠ .ending → x.bound = true → x.flow = c.flow → x.distance c.cidx < 4 →
          (∀ y ∈ x.cells, y.cidx ≠ c.cidx % 2 ^ 16) → ∃ t, exec (.cellArrival p) s = .next t ∧ OthersStand s t r ∧ t.mem = s.mem
            ∧ t.task r = k.setQueue e.lq { x with cells := x.cells ++ [⟨c.cidx, c.rank, c.psn, c.payload⟩] })
        ∧ (e.action = 1 → e.ord = false → let l := c.cidx - e.cfirst
          let r := v.round n l
          c.rank < e.count → c.rank ∉ r.ranks → r.ranks.length + 1 < e.count → c.psn = false →
          let o := accSlot p.die (portRouter p) (e.slotOf l)
          let x := e.accumulate (decide (r.ranks = [])) (s.readAcc p.die (portRouter p) (e.slotOf l) e.accSlots) (padTo 128 c.payload)
          ∃ t, exec (.cellArrival p) s = .next t ∧ (∀ q, t.task? q = s.task? q)
            ∧ ((t.die p.die).pav (portRouter p)).round n l = { r with ranks := r.ranks ++ [c.rank] }
            ∧ t.mem.bytes o x.1.length = x.1 ∧ ∀ b, b < o ∨ o + x.1.length ≤ b → t.mem.byte b = s.mem.byte b))
    ∧ (∀ (p : PortRef) (s : State), let q := ((s.die p.die).pav (portRouter p)).port p.port
      (q.ahead = [] → q.refusal = [] → q.fifo = [] → q.circ = [] → exec (.cellArrival p) s = .next s)
      ∧ (linkOf p = none → p.port ≠ 4 → exec (.slotSend p) s = .next s)
      ∧ (∀ c x rest, p.port = 4 → s.fatal = none → (coresAt (portRouter p)).head? = some c → (s.core ⟨p.die, c⟩).sendBuf = x :: rest →
        s.jobStopped x.job = false → coreRouter c = portRouter p →
        ∃ t, exec (.slotSend p) s = .next t ∧ TasksAndMemoryStand s t ∧ (t.core ⟨p.die, c⟩).sendBuf = rest
          ∧ (((t.die p.die).pav (portRouter p)).port 4).fifo = q.fifo ++ [x]))
    ∧ ∀ (p : PortRef) (l : Nat) (s : State), linkOf p = some l →
      let k := (s.die p.die).link l
      let q := ((s.die p.die).pav (portRouter p)).port p.port
      let tick := { k with slotTime := (k.slotTime + 1) % 64 }
      (s.maySend p l = false ∨ q.out = [] → exec (.slotSend p) s = .next (s.modLink p.die l fun _ => tick))
      ∧ (∀ n c rest, s.maySend p l = true → k.st = 2 → q.out = (n, c) :: rest → n < 9 →
        (∀ x ∈ q.out, x.1 = n ∧ x.2.typ ≠ 6 ∧ x.2.circ = false ∧ s.reserved p.die l (k.slotTime % 64) x.2 = false) →
        let w : WireCell := ⟨k.txEseq, k.txAct, false, true, true, c⟩
        ∃ t, exec (.slotSend p) s = .next t
          ∧ TasksAndMemoryStand s t ∧ (((t.die p.die).pav (portRouter p)).port p.port).out = rest
          ∧ (∀ y, ringPeer p.die l = some y → t.agenda = s.agenda ++ [.linkCellReceive y w])
          ∧ (ringPeer p.die l = none → t.outbound = s.outbound ++ [(p.die, l - 2, s.wireBytes p.die l w)])
          ∧ ((t.die p.die).link l).txEseq = (k.txEseq + 1) % 2 ^ 32
          ∧ ((t.die p.die).link l).retry = k.retry ++ [(k.txEseq, k.txAct, c)])
      ∧ (∀ w, let i : Instr := .linkCellReceive p w
        (s.fatal.isSome = true → exec i s = .next s)
        ∧ (w.wrap = true → isRack l = false → eseqLe k.rxEseq w.eseq = false → exec i s = .next s)
        ∧ (w.wrap = false → (k.st ≠ 2 ∨ w.eseq ≠ k.rxEseq ∨ (isRack l = true ∧ s.rackOpen p.die = false)) → exec i s = .next s)
        ∧ (s.fatal = none → w.wrap = false → k.st = 2 → w.eseq = k.rxEseq → (isRack l = true → s.rackOpen p.die = true) →
          (∀ y, ringPeer p.die l = some y → w.beatOk = false → k.failEseq = k.rxEseq → k.fails < 16 → k.authFails < 2 → ∃ t, exec i s = .next t
            ∧ TasksAndMemoryStand s t ∧ (t.die p.die).link l = { k with fails := k.fails + 1 }
            ∧ t.agenda = s.agenda ++ [.replayRequest y k.rxEseq])
          ∧ (w.beatOk = true → k.badAuth (isRack l) w = false → w.cell.typ = 0 → w.cell.circ = false → s.gangOf w.cell.job = none →
            ∃ t, exec i s = .next t
            ∧ TasksAndMemoryStand s t ∧ (t.die p.die).link l = { k with rxEseq := (w.eseq + 1) % 2 ^ 32, fails := 0, authFails := 0 }
            ∧ (∀ y, ringPeer p.die l = some y → t.agenda = s.agenda ++ [.linkAck y w.eseq])
            ∧ (((t.die p.die).pav (portRouter p)).port p.port).fifo = q.fifo ++ [w.cell])))
      ∧ (∀ n, ∃ t, exec (.linkAck p n) s = .next t ∧ t.mem = s.mem
        ∧ ((t.die p.die).link l).retry = k.retry.filter (fun x => !eseqLe x.1 n)
        ∧ ((t.die p.die).link l).switching = (if k.switching.isSome ∧ eseqLe k.markEseq n = true then none else k.switching))
      ∧ (∀ n y, ringPeer p.die l = some y → ∃ t, exec (.replayRequest p n) s = .next t ∧ TasksAndMemoryStand s t
        ∧ (t.die p.die).link l = { k with replays := k.replays + 1 }
        ∧ t.agenda = s.agenda ++ (k.retry.filter fun x => eseqLe n x.1).map fun x =>
          .linkCellReceive y ⟨x.1, x.2.1, decide (k.st = 3), true, true, x.2.2⟩)
      ∧ (let fails := fun (i : Instr) => ∃ t, exec i s = .next t ∧ TasksAndMemoryStand s t ∧ ((t.die p.die).link l).st = 3
          ∧ ∀ y m, ringPeer p.die l = some y → linkOf y = some m → ((t.die y.die).link m).st = 3
        fails (.linkSignalLoss p) ∧ (k.st ≠ 2 → fails (.retrainTimeout p)))
      ∧ (k.st = 2 → exec (.retrainTimeout p) s = .next s)
      ∧ (∃ t, exec (.linkTrained p) s = .next t ∧ TasksAndMemoryStand s t
        ∧ (t.die p.die).link l = { k with st := 2, wrapped := false, fails := 0, authFails := 0 }
        ∧ ∀ y, ringPeer p.die l = some y → t.agenda = s.agenda
          ++ (k.retry.filter fun x => eseqLe ((s.die y.die).link (1 - l)).rxEseq x.1).map fun x =>
            .linkCellReceive y ⟨x.1, x.2.1, false, true, true, x.2.2⟩)
      ∧ (∀ c, (c.circ = false → ∃ t, exec (.ringRefusal p c) s = .next t ∧ TasksAndMemoryStand s t
          ∧ (((t.die p.die).pav (portRouter p)).port p.port).circ = q.circ ++ [{ c with circ := true }])
        ∧ (∀ y, c.circ = true → ringPeer p.die l = some y →
          exec (.ringRefusal p c) s = .next { s with agenda := s.agenda ++ [.nack y { c with circ := false }] })
        ∧ (s.jobStopped c.job = false → ∃ t, exec (.nack p c) s = .next t ∧ TasksAndMemoryStand s t
          ∧ (t.die p.die).link l = { k with nacks := k.nacks + 1 }
          ∧ (((t.die p.die).pav (portRouter p)).port p.port).nackq = q.nackq ++ [{ c with circ := false }])
        ∧ ∀ rest, q.nackq = c :: rest → s.jobStopped c.job = false → k.slotTime % 64 = 0 → ∃ t, exec (.nackResend p) s = .next t
          ∧ TasksAndMemoryStand s t ∧ (t.die p.die).link l = k
          ∧ ((t.die p.die).pav (portRouter p)).port p.port = { q with nackq := rest, out := q.out ++ [(8, c)] })
      ∧ (q.nackq = [] ∨ k.slotTime % 64 ≠ 0 → exec (.nackResend p) s = .next s)
      ∧ (∃ t, exec (.moduleLoss p) s = .next t ∧ TasksAndMemoryStand s t ∧ (t.die p.die).link l = { k with jobs := [] }
        ∧ (t.die p.die).gate.floss = (s.die p.die).gate.floss + Config.freeWord s.freeCtr)
      ∧ (∀ n, (k.hasKey (2 + n % 2) = true → ∃ t, exec (.keyMarker p n) s = .next t ∧ TasksAndMemoryStand s t
          ∧ (t.die p.die).link l = { k with rxAct := n % 2 })
        ∧ (k.hasKey (2 + n % 2) = false → ∃ t, exec (.keyMarker p n) s = .next t ∧ TasksAndMemoryStand s t ∧ t.dies = s.dies))
      ∧ (k.switching = none → exec (.keyRefusal p) s = .next s)
      ∧ (k.switching ≠ none → ∃ t, exec (.keyRefusal p) s = .next t ∧ t.mem = s.mem ∧ ((t.die p.die).link l).txAct = 1 - k.txAct % 2
        ∧ ((t.die p.die).link l).switching = none ∧ ((t.die p.die).link l).liveOld = false)

/-- REMOTE_REQUEST with a cached ID is answered again; behind its turn it is dropped, ahead of it held; in its turn a
refused one and a load are cached, answered and counted, the load with the line's bytes. SEQUENCE_SKIP passes missing
numbers and serves what is held; REPLY_CACHE_EXPIRE forgets a reply. REPLY gives an open request its answer, a busy
one none, and retires a posted store; RETRANSMIT sends it up to eight times more, and REMOTE_TIMEOUT then gives it up.
COLL_ARRIVE refuses a faulted binding or a bad block, and else joins its collective, which starts once it is full and
its lists agree; COLL_COMPLETE starts it, reads the sources, writes a rank's result and, when the writes of every rank
are made and answered, ends its token; COLL_FAULT fails a collective at every engine. Where nothing is due the state
stays as it was. -/
def Obligations.RemoteRequestsAndCollectives : Prop :=
  (∀ (d : Nat) (q : RemoteReq) (s : State), let g := (s.die d).gate
      let i : Instr := .remoteRequest d q
      let o := paOffset q.pa
      let ahead := (idSeq q.id + 2 ^ 32 - g.expectSeq.get 0 (pairKey q.id)) % 2 ^ 32
      let p := s.portFor d (idModule q.id)
      let answers := fun (t : State) (rep : RemoteRep) => (((t.die d).pav gateRouter).port p).out
        = (((s.die d).pav gateRouter).port p).out ++
          [(4, { routedCell 4 (gateRoute (idModule rep.id) (idGate rep.id)) q.job (repPayload rep) with psn := decide (rep.status = 4) })]
      let serves := fun (rep : RemoteRep) => ∃ t, exec i s = .next t ∧ TasksAndMemoryStand s t ∧ answers t rep
        ∧ (t.die d).gate.cache = g.cache ++ [⟨q.id, rep⟩] ∧ (t.die d).gate.heldReqs = []
        ∧ (t.die d).gate.expectSeq.get 0 (pairKey q.id) = (idSeq q.id + 1) % 2 ^ 32
      (∀ c, g.cache.find? (fun c => decide (c.id = q.id)) = some c → idModule c.rep.id = idModule q.id → ∃ t, exec i s = .next t
        ∧ TasksAndMemoryStand s t ∧ answers t c.rep ∧ (t.die d).gate = g)
      ∧ ((∀ c ∈ g.cache, c.id ≠ q.id) →
        (2 ^ 31 ≤ ahead ∨ s.diesJoined d (homeDie o) = false → exec i s = .next s)
        ∧ (s.diesJoined d (homeDie o) = true → 0 < ahead ∨ s.reqHeld q = true → ahead < 2 ^ 31 → (∀ x ∈ g.heldReqs, x.id ≠ q.id) → ∃ t, exec i s = .next t ∧ TasksAndMemoryStand s t
          ∧ (t.die d).gate = { g with heldReqs := g.heldReqs ++ [q] })
        ∧ (s.diesJoined d (homeDie o) = true → ahead = 0 → s.reqHeld q = false → g.heldReqs = [] → g.cache.length < 16384 →
          (s.reqStatus q ≠ 0 → serves ⟨s.reqStatus q, q.id, 0, []⟩)
          ∧ (s.reqStatus q = 0 → q.kind = 1 → o % 128 + 2 ^ q.lgSize ≤ 128 → dirtyCopy (lineOf o) s.cores = none →
            ∃ time, serves ⟨0, q.id, time, s.mem.bytes o (2 ^ q.lgSize)⟩))))
    ∧ (∀ (d id k : Nat) (s : State), let g := (s.die d).gate
      (∃ t, exec (.replyCacheExpire d id) s = .next t ∧ TasksAndMemoryStand s t
        ∧ (t.die d).gate = { g with cache := g.cache.filter fun c => !decide (c.id = id) })
      ∧ (g.heldReqs = [] → exec (.sequenceSkip d k) s = .next s)
      ∧ ∀ q, g.heldReqs = [q] → pairKey q.id = k → g.cache.length < 16384 → s.reqHeld q = false → ∃ t rep, exec (.sequenceSkip d k) s = .next t
        ∧ (t.die d).gate.heldReqs = [] ∧ (t.die d).gate.cache = g.cache ++ [⟨q.id, rep⟩]
        ∧ (t.die d).gate.expectSeq.get 0 k = (idSeq q.id + 1) % 2 ^ 32)
    ∧ (∀ (d : Nat) (r : RemoteRep) (s : State),
      (s.openReq r.id = none → exec (.reply d r) s = .next s ∧ exec (.retransmit r.id) s = .next s
        ∧ exec (.remoteTimeout r.id) s = .next s)
      ∧ ∀ x, s.openReq r.id = some x →
        let waits := fun (rep : RemoteRep) => { s with
          sent := s.sent.map fun y => if y.req.id = r.id then { y with reply := some rep } else y }
        let p := s.portFor x.gate x.home
        (r.status = 2 ∨ x.gate ≠ d → exec (.reply d r) s = .next s)
        ∧ (r.status ≠ 2 → x.gate = d → x.posted = false → exec (.reply d r) s = .next (waits r))
        ∧ (r.status = 0 → x.gate = d → x.posted = true → ∃ t, exec (.reply d r) s = .next t ∧ t.mem = s.mem
          ∧ t.sent = s.sent.filter (fun y => !decide (y.req.id = r.id)) ∧ OthersStand s t x.task
          ∧ ∀ k, s.task? x.task = some k → t.task? x.task
            = some { k with remoteStores := k.remoteStores.filter fun i => !decide (i = r.id) })
        ∧ (x.sends < 9 → exec (.remoteTimeout r.id) s = .next s ∧ ∃ t, exec (.retransmit r.id) s = .next t
          ∧ TasksAndMemoryStand s t
          ∧ t.sent = s.sent.map (fun y => if y.req.id = r.id then { y with sends := y.sends + 1 } else y)
          ∧ (((t.die x.gate).pav gateRouter).port p).out
            = (((s.die x.gate).pav gateRouter).port p).out ++ [(4, reqCell x.req x.home x.gate)])
        ∧ (9 ≤ x.sends → exec (.retransmit r.id) s = .next s
          ∧ (x.posted = false → exec (.remoteTimeout r.id) s = .next (waits ⟨5, r.id, 0, []⟩))))
    ∧ (∀ (c : CoreRef) (tok : Nat) (s : State), (s.collCmd c tok = none → exec (.collArrive c tok) s = .next s)
      ∧ ∀ x ord rz, (s.core c).cmd tok = some x → x.kind = .coll ord rz →
        let u := (s.task (issuerOf c x)).time
        let a := x.collAgent c tok
        let p := x.fields.get 0 0
        let ends := fun (s1 : State) cause => ∃ t, exec (.collArrive c tok) s = .next t ∧ Ended s1 t c tok x cause u ∧ t.mem = s1.mem
        (x.started = true ∨ x.deps ≠ [] ∨ s.jobStopped x.job = true → exec (.collArrive c tok) s = .next s)
        ∧ (x.started = false → x.deps = [] → s.jobStopped x.job = false →
          (x.cells = 1 → exec (.collArrive c tok) s = .next (s.enterColl c tok x))
          ∧ (x.cells ≠ 1 → (x.depFault.isSome = true → ends s 0x43)
            ∧ (x.depFault = none → 2 ≤ addrForm p → ends s 0x49)
            ∧ ∀ s1 b, x.depFault = none → addrForm p < 2 → s.readRun a p 128 = (s1, .ok b) → (s1.core c).cmd tok = some x →
              (collOk c.core ord rz b = false → ends s1 0x49)
              ∧ (collOk c.core ord rz b = true → (s1.die c.die).colls = [] → (s1.die c.die).collWait = [] →
                (∀ d, d < 8 → s1.collOn d x.job (collId b) = none) →
                ∃ s2 y z, exec (.collArrive c tok) s = .next (s2.startColl x.job (collId b)) ∧ TasksAndMemoryStand s1 s2
                  ∧ (s2.die c.die).colls = [y] ∧ y.job = x.job ∧ y.collid = collId b ∧ y.nranks = collN b
                  ∧ y.ranks = [⟨collRankOf b, c, tok, false, false, false⟩] ∧ y.started = false ∧ y.failed = none
                  ∧ (s2.core c).cmd tok = some z ∧ z.started = true ∧ z.kind = x.kind))))
    ∧ (∀ (job : Nat) (id : W64) (s : State) (y : Coll), s.anyColl job id = some y →
      (y.started = true ∨ y.failed.isSome = true → s.startColl job id = s)
      ∧ ∀ s1 ls e, y.started = false → y.failed = none → (∀ n, n < y.nranks → ∃ k ∈ s.collRanks job id, k.2.rank = n) → 0 < y.nranks →
        State.engineLists job id (s.collRanks job id) s = (s1, .ok ls) → e ∈ ls →
        (∀ k ∈ ls, k.2.2 = e.2.2 ∧ listEntry k.2.2 k.2.1.rank = s.module.toNat + 64 * k.1) →
        s.startColl job id = s1.tookFree.modColls job id fun y' =>
          { y' with
            started := true, list := e.2.2
            tree := if collAlg y.lead = 2 then some ((collFlow y.lead + 1) % 2 ^ 20) else none })
    ∧ ∀ (job rank cause : Nat) (id : W64) (s : State),
      let l := s.collRanks job id
      let i : Instr := .collComplete job id rank
      (l.find? (fun e => decide (e.2.rank = rank)) = none → exec i s = .next s)
      ∧ (∀ d r y, l.find? (fun e => decide (e.2.rank = rank)) = some (d, r) → s.collOn d job id = some y →
        (r.done = true ∨ s.jobStopped job = true → exec i s = .next s)
        ∧ (r.done = false → s.jobStopped job = false → y.started = false →
          exec i s = .next ((s.pruneColl job id).startColl job id))
        ∧ ∀ x, y.started = true → r.done = false → s.jobStopped job = false → s.rankCmd job id r = some x →
          (r.wrote = true → (∃ e ∈ l, e.2.wrote = false) → exec i s = .next s)
          ∧ (r.wrote = true → (∀ e ∈ l, e.2.wrote = true) → s.sent = [] → ∃ t, exec i s = .next t
            ∧ Ended s t r.core r.tok x 0 (s.agentTime d collPos) ∧ t.mem = s.mem)
          ∧ (∀ s1 src, r.wrote = false → y.src = none → State.rankSources y (List.range y.nranks) s = (s1, .ok src) →
            exec i s = .next (s1.modColls job id fun x => { x with src := some src }))
          ∧ ∀ src, r.wrote = false → y.src = some src → y.tree = none →
            exec i s = .next ((s.tookFree (2 * (collDest x.collBlock + 1) * (y.nranks + 1))).putRank d
              job id x r (collResult x.collBlock r.rank s.freeCtr src)))
      ∧ ((s.anyColl job id = none ∨ cause % 256 = 0) → exec (.collFault job id cause rank) s = .next s)
      ∧ ∀ y, s.anyColl job id = some y →
        (y.failed ≠ none ∨ (∃ e ∈ l, e.2.done = true) → exec (.collFault job id cause rank) s = .next s)
        ∧ (y.failed = none → cause % 256 ≠ 0 → (∀ e ∈ l, e.2.done = false) → ∃ t, exec (.collFault job id cause rank) s = .next t
          ∧ (∀ d z, d < 8 → t.collOn d job id = some z → z.failed = some (cause % 256, rank) ∧ z.ranks = [])
          ∧ t.cores = (l.foldl (State.failRank (cause % 256) rank job id) s).cores)

/-- TLBINV_ACK drops every translation of the range, and lets the lodge go once no access of it is outstanding;
GENBUMP_DONE raises the generations of the frames and no others; L2WB_DONE changes no byte; DOMSET_DONE takes the
domain, clears BUSY and zeroes the slices that leave or join it; NPLOAD_DONE and ATTEST_SERVE give the lodge their
status. GSW_COMMAND begins a switch; GANG_STOP at its turn, or GANG_STOP_TIMEOUT, stops the job's tasks; GANG_MARKER
marks its port; the switch closes when every port is marked and every task halted; LATE_CELL counts a late cell. KILL
ends the named tasks alone, but that their barriers may wake waiting ones; MSEL_WRITE and MONITOR_SAMPLE keep a
monitor; GHCFG_LOCK writes GHCFG until LOCK; REGISTER_WRITE writes or posts its refusal. -/
def Obligations.LodgeCompletionsAndGangSteps : Prop :=
  (∀ (d : Nat) (s : State), let r := lodgeTask d
      let k := s.task r
      (k.holds = [] → ∀ i ∈ [Instr.tlbinvAck d, .genbumpDone d, .l2wbDone d, .domsetDone d, .nploadDone d], exec i s = .next s)
      ∧ ∀ rest, let gone := { k with holds := rest }
        (∀ a b c, k.holds = .tlbinv a b c :: rest → let x := vaRange a b c
          ∃ t, exec (.tlbinvAck d) s = .next t ∧ OthersStand s t r ∧ t.task r = (if (s.invalidate x).outstanding x then k else gone)
            ∧ (∀ c, (t.core c).tlb = (s.core c).tlb.filter (fun e => !x.hits e)
              ∧ ∀ l ∈ (t.core c).l1, x.meets l.job (l.va.toNat / 128 * 128) 128 = false)
            ∧ (∀ n, n < 8 → (t.die n).tlb = (s.die n).tlb.filter fun e => !x.hits e)
            ∧ ((∀ c, ∀ l ∈ (s.core c).l1, l.dirty = false) → t.mem = s.mem))
        ∧ (∀ a b, k.holds = .genbump a b :: rest → let f := a.toNat / 2 ^ 21
          ∃ t, exec (.genbumpDone d) s = .next t ∧ t.task r = gone ∧ OthersStand s t r ∧ t.mem = s.mem
            ∧ ∀ n, t.gens.get 0 n = if f ≤ n ∧ n < f + b.toNat then s.gens.get 0 n + 1 else s.gens.get 0 n)
        ∧ (∀ a b v, k.holds = .l2wb a b v :: rest → ∃ t, exec (.l2wbDone d) s = .next t ∧ t.task r = gone ∧ OthersStand s t r
          ∧ t.mem = s.mem)
        ∧ (∀ v, k.holds = .domset v :: rest → let old := s.die d
          let new := { old with l2first := v.toNat % 16, l2logn := v.toNat / 16 % 8, l2busy := false }
          ∃ t, exec (.domsetDone d) s = .next t ∧ t.task r = gone ∧ OthersStand s t r ∧ t.die d = new
            ∧ (∀ n b, n < 16 → old.inDomain n ≠ new.inDomain n → sliceBase d n ≤ b → b < sliceBase d n + 0x4000000 → t.mem.byte b = 0)
            ∧ ∀ b, (∀ n, n < 16 → old.inDomain n ≠ new.inDomain n → b < sliceBase d n ∨ sliceBase d n + 0x4000000 ≤ b) →
              t.mem.byte b = s.mem.byte b)
        ∧ (∀ g a b, k.holds = .npload g a b :: rest →
          (s.nploadRun d a b = none → exec (.nploadDone d) s = .next s)
          ∧ (∀ s1 st n, s.nploadRun d a b = some (s1, st, n) →
            exec (.nploadDone d) s = .next (s1.settle r g (BitVec.ofNat 64 (st + n * 2 ^ 8))))
          ∧ (b.toNat % 2 ^ 32 = 0 → Tbl.wf Pavilion.reset (s.die d).pavs = true → ∃ t, exec (.nploadDone d) s = .next t
            ∧ OthersStand s t r ∧ t.mem = s.mem
            ∧ t.task r = (if k.halted then gone.push 0 (.scalar g 0) else gone.setSreg g 0)
            ∧ ∀ n, (t.die d).pav n = ((s.die d).pav n).dropJob (b.toNat / 2 ^ 32 % 2 ^ 12))))
    ∧ (∀ s : State, (s.attest.queue = [] → exec .attestServe s = .next s)
      ∧ ∀ n r rest, s.attest.queue = (n, r) :: rest →
        let ends := fun (g : Nat) (x : State × Option Nat) => exec .attestServe s = .next (match x.2 with
          | some st => (x.1.unitNext.lodgeRest r.die).settle r g
            (BitVec.ofNat 64 st)
          | none => x.1)
        (n = s.cycle → exec .attestServe s = .next s)
        ∧ (n ≠ s.cycle → (∀ l g a b, (s.task r).holds = .attest g a b :: l → ends g (s.serveAttest r.die a b))
          ∧ ∀ l g v b, (s.task r).holds = .keyld g v b :: l → ends g (s.serveKeyld r.die v b)
            ∧ (v.toNat / 2 ^ 12 = 1 → v.toNat % 2 ^ 12 ≠ s.jobid.toNat → s.isSwitched (v.toNat % 2 ^ 12) = false → ∃ t,
              exec .attestServe s = .next t ∧ OthersStand s t r ∧ t.mem = s.mem ∧ t.attest.queue = rest
              ∧ t.keys = s.keys.filter fun x => !decide (x.job = v.toNat % 2 ^ 12))))
    ∧ (∀ (s : State) (b : SwitchBlock),
      ((s.gang ≠ none ∨ b.job = 0 ∨ b.job ≠ s.jobid.toNat ∨ b.mask.getLsbD s.module.toNat = false) → exec (.gswCommand b) s = .next s)
      ∧ (s.gang = none → b.job ≠ 0 → b.job = s.jobid.toNat → b.mask.getLsbD s.module.toNat = true → b.orangery % 2 ^ 21 = 0 →
        2 ^ 29 ≤ b.size → b.orangery + b.size ≤ hbmSize → b.turn < 2 ^ 64 → s.hwm.toNat ≤ 4096 * b.turn →
        exec (.gswCommand b) s = .next { s with gang := some ⟨b, none, false, false, [], 0, [], [], [], []⟩ }))
    ∧ (∀ s : State, (s.gang = none → ((∀ g ∈ s.switched, g.issuer = none) → exec .gangStop s = .next s) ∧ exec .gangStopTimeout s = .next s)
      ∧ ∀ g, s.gang = some g →
        let stops := fun (i : Instr) => ∃ t h, exec i s = .next t ∧ t.gang = some h ∧ h.stopped = true ∧ h.block = g.block
          ∧ ∀ r ∈ s.jobTasks g.block.job, (t.task r).halted = true ∨ (t.task r).preempt = true
        (g.stopped = false → (s.hwm.toNat < 4096 * g.block.turn → exec .gangStop s = .next s)
          ∧ (4096 * g.block.turn ≤ s.hwm.toNat → stops .gangStop) ∧ stops .gangStopTimeout)
        ∧ (g.stopped = true → exec .gangStopTimeout s = .next s
          ∧ ((∀ p ∈ markedPorts, p ∈ g.marked) → (∀ r ∈ s.jobTasks g.block.job, (s.task r).halted = true) → ∃ t,
            exec .gangStop s = .next t ∧ t.gang = none ∧ t.jobid = 0 ∧ t.isSwitched g.block.job = true))
        ∧ ∀ p job turn, let i : Instr := .gangMarker p job turn
          ((g.block.job ≠ job ∨ g.block.turn ≠ turn ∨ p ∉ markedPorts) → exec i s = .next s)
          ∧ (g.block.job = job → g.block.turn = turn → p ∈ markedPorts →
            (g.stopped = false ∨ (∃ q ∈ markedPorts, q ≠ p ∧ q ∉ g.marked)) → exec i s = .next { s with
              gang := some { g with marked := if g.marked.contains p then g.marked else g.marked ++ [p] } }))
    ∧ (∀ (s : State) (p : PortRef) (c : Cell), (s.gangOf c.job = none → exec (.lateCell p c) s = .next s)
      ∧ ∀ g, s.gangOf c.job = some g → (g.marked.contains p = false → exec (.lateCell p c) s = .next s)
        ∧ (g.marked.contains p = true → ∃ t h, exec (.lateCell p c) s = .next t ∧ (∀ q, t.task? q = s.task? q)
          ∧ t.gangOf c.job = some h ∧ h = (if g.nlate < 4096 then { g with nlate := g.nlate + 1 } else { g with lost := g.lost ++ [(p, c)] })))
    ∧ (∀ (s : State) (d : Nat) (v : W64), let l := targetTasks d v
      (∃ t, exec (.kill d v) s = .next t ∧ t.mem = s.mem ∧ (∀ r ∈ l, (s.task? r).isSome = true → (t.task r).status = .ending)
        ∧ ∀ q : TaskRef, (∀ r ∈ l, CoreRef.key q.coreRef ≠ CoreRef.key r.coreRef ∨ q.slot ≠ r.slot) →
          (∀ n p, (s.task q).status ≠ .waiting n p) → t.task? q = s.task? q)
      ∧ ∃ t, exec (.ghcfgLock d v) s = .next t ∧ TasksAndMemoryStand s t
        ∧ (t.die d).gate = (if (s.die d).gate.ghcfg.getLsbD 6 then (s.die d).gate else { (s.die d).gate with ghcfg := v &&& 0x7F })
        ∧ t.module = (t.die 0).gate.ghcfg.setWidth 6)
    ∧ (∀ (s : State) (m : MonitorRef) (v : W64) (n : Nat), let k := s.monitor m
      (∃ t, exec (.mselWrite m v) s = .next t ∧ TasksAndMemoryStand s t
        ∧ t.monitor m = { k with qty := v.toNat % 16, min := BitVec.allOnes 64, max := 0, count := 0, hist := [] })
      ∧ (samplesQty m k.qty = false → exec (.monitorSample m n) s = .next s)
      ∧ (samplesQty m k.qty = true → let x := BitVec.ofNat 64 (s.levelOf m n)
        ∃ t, exec (.monitorSample m n) s = .next t ∧ TasksAndMemoryStand s t ∧ (t.monitor m).count = k.count + 1
          ∧ (t.monitor m).min = (if x < k.min then x else k.min) ∧ (t.monitor m).max = (if k.max < x then x else k.max)
          ∧ (t.monitor m).qty = k.qty))
    ∧ ∀ (s : State) (w : Writer) (a : Nat) (v : W64), let key := if w.lodge then s.lodgeKey w.die else jobKey w.job
      (∀ s1 e, s.physWrite w key a (leBytes 8 v.toNat) = (s1, some e) →
        exec (.registerWrite w a v) s = .next (s1.postFault w.die w.agent w.slot w.job e.cause e.info w.lidx))
      ∧ (∀ s1, s.physWrite w key a (leBytes 8 v.toNat) = (s1, none) → exec (.registerWrite w a v) s = .next s1)
      ∧ (a % 128 + 8 ≤ 128 → a + 8 ≤ hbmSize → s.hasKey key = true → ∃ t, exec (.registerWrite w a v) s = .next t
        ∧ t.mem.bytes a 8 = leBytes 8 v.toNat ∧ ∀ q, t.task? q = s.task? q)

/-- HOST_FRAME queues the cells of a frame it accepts and counts every other. A message acts only when it stands at the
head with all its cells and no fatal stop has come. It takes its cells, and answers with KIND + 0x80, its status and
the frame's sequence in a TYPE 10 cell: LAUNCH admits a launch, or refuses a bad layout, another job, an absent kernel
or no capacity; LOAD answers once per kernel with its promise word; WRITE writes the opened data and READ returns the
sealed data of job memory; KEY installs a key; ATTEST spends one index for a record; JOBEND ends the job's tasks,
images, key and activity; GROTTO returns the dump in order; CONFIG stores the rack word while no job is active. A
request that breaks its limits has the status of its fault and changes nothing else. The layouts of messages other
than LAUNCH are the model's choice. -/
def Obligations.HostMessagesAreServed : Prop :=
  (∀ (f : HostFrame) (s : State), let h := s.portAfter f
      let taken : HostPort := { h with rxSeq := f.seq, inbox := h.inbox ++ f.cells.map fun c => (f.seq, c) }
      (s.frameOk f = true → exec (.hostFrame f) s = .next { s with host := taken })
      ∧ (s.frameOk f = false → exec (.hostFrame f) s = .next { s with host := { h with drops := h.drops + 1 } }))
    ∧ (∀ (s : State) (m blob req data : List (BitVec 8)) (l : LoadMsg) (job va size : Nat) (w : W64),
      let messages : List (Instr × Nat × Nat) := [(.hostLoad l, 2, 1), (.hostWrite job va data, 3, 1), (.hostRead job va size, 4, 1),
        (.hostKey job blob, 5, 8), (.hostAttest req, 6, 1), (.hostJobEnd job, 7, 1), (.hostGrotto, 8, 1), (.hostConfig w, 9, 1)]
      (∀ x ∈ messages, (s.fatal.isSome = true ∨ s.host.headKind ≠ some x.2.1 ∨ s.host.inbox.length < x.2.2) →
        exec x.1 s = .next s)
      ∧ ((s.fatal.isSome = true ∨ s.host.headIs m = false) → exec (.hostLaunch m) s = .next s))
    ∧ ∀ s : State, s.fatal = none → s.host.dump = none →
      let cell := fun (kind status : Nat) (b : List Byte) => routedCell 10 s.hostRoute 0 (padTo 128
        (leBytes 1 (kind + 0x80) ++ leBytes 1 status ++ [0, 0] ++ leBytes 4 s.messageSeq ++ b))
      let left := fun (n : Nat) => { s.host with inbox := s.host.inbox.drop n }
      let said := fun (t : State) (n kind status : Nat) (b : List Byte) => t.host = HostPort.sendCell (cell kind status b) (left n)
      let answers := fun (i : Instr) (n kind status : Nat) (b : List Byte) => ∃ t, exec i s = .next t ∧ TasksAndMemoryStand s t
        ∧ said t n kind status b
      let heads := fun (kind cells : Nat) => s.host.headKind = some kind ∧ cells ≤ s.host.inbox.length
      let s1 := s.consumed 1
      (∀ m, s.host.headIs m = true → let kind := bytesAt m 0 1
        let job := bytesAt m 2 2
        (kind ≠ 1 ∨ m.length ≠ 128 ∨ launchOk m = false → answers (.hostLaunch m) 1 kind 1 [])
        ∧ (kind = 1 → m.length = 128 → launchOk m = true →
          (job ≠ s.jobid.toNat ∨ s.jobid = 0 → answers (.hostLaunch m) 1 1 3 [])
          ∧ (job = s.jobid.toNat → s.jobid ≠ 0 → (s.kernelOf job (bytesAt m 4 4) = none → answers (.hostLaunch m) 1 1 2 [])
            ∧ ∀ k, s.kernelOf job (bytesAt m 4 4) = some k →
              let y := launchOf s.launches.length k m none (some s.messageSeq)
              (s.holdable y = false → answers (.hostLaunch m) 1 1 2 [])
              ∧ (s.holdable y = true → ∃ t, exec (.hostLaunch m) s = .next t ∧ TasksAndMemoryStand s t
                ∧ t.launches = s.launches ++ [y] ∧ said t 1 1 0 (leBytes 8 y.id.toNat)))))
      ∧ (∀ l : LoadMsg, heads 2 1 → (2 ^ 12 ≤ l.job ∨ l.job = 0 ∨ 2 ^ 56 < l.va + l.len → answers (.hostLoad l) 1 2 1 [])
        ∧ (l.job < 2 ^ 12 → l.job ≠ 0 → l.va + l.len ≤ 2 ^ 56 → (s.jobAdmitted l.job = false → answers (.hostLoad l) 1 2 3 [])
          ∧ (s.jobAdmitted l.job = true → (s1.loadImage l = none → answers (.hostLoad l) 1 2 2 [])
            ∧ ∀ s2 k ks, s1.loadImage l = some (s2, k :: ks) → ∃ t, exec (.hostLoad l) s = .next t ∧ t.mem = s2.mem
              ∧ t.images = s2.images ∧ t.jobid = (if s2.jobid = 0 then BitVec.ofNat 12 l.job else s2.jobid)
              ∧ t.host = (k :: ks).foldl (fun h x => HostPort.sendCell (routedCell 10 s2.hostRoute 0 (padTo 128
                (leBytes 1 0x82 ++ leBytes 1 0 ++ [0, 0] ++ leBytes 4 s.messageSeq ++ leBytes 8 x.promise.toNat))) h) s2.host)))
      ∧ (∀ job va data, heads 3 1 → let i : Instr := .hostWrite job va data
        (2 ^ 12 ≤ job ∨ 2 ^ 56 ≤ va ∨ 96 < data.length → answers i 1 3 1 [])
        ∧ (job < 2 ^ 12 → va < 2 ^ 56 → data.length ≤ 96 → (s.jobAdmitted job = false → answers i 1 3 3 [])
          ∧ (s.jobAdmitted job = true → (Config.gcmOpen (s.transferKey job) [] data [] = none → answers i 1 3 2 [])
            ∧ ∀ b, Config.gcmOpen (s.transferKey job) [] data [] = some b →
              (s.mapped job va b.length (fun w => w) = false → answers i 1 3 2 [])
              ∧ (s.mapped job va b.length (fun w => w) = true →
                ∃ t, exec i s = .next t ∧ t.mem = (s1.writeJob job va b).mem ∧ said t 1 3 0 []))))
      ∧ (∀ job va size, heads 4 1 → let i : Instr := .hostRead job va size
        (2 ^ 12 ≤ job ∨ 2 ^ 56 ≤ va ∨ 96 < size → answers i 1 4 1 [])
        ∧ (job < 2 ^ 12 → va < 2 ^ 56 → size ≤ 96 → (s.jobAdmitted job = false → answers i 1 4 3 [])
          ∧ (s.jobAdmitted job = true → (s.readJob job va size = none → answers i 1 4 2 [])
            ∧ ∀ b, s.readJob job va size = some b → answers i 1 4 0
              (List.replicate 24 0 ++ exactly 96 (Config.gcmSeal (s.transferKey job) b)))))
      ∧ (∀ job blob, heads 5 8 → let i : Instr := .hostKey job blob
        (2 ^ 12 ≤ job → answers i 8 5 1 [])
        ∧ (job < 2 ^ 12 → s.attest.queue = [] → (s.attest.held = none → answers i 8 5 2 (leBytes 8 1))
          ∧ ∀ k m, s.attest.held = some k → openBlob k job (padTo 2048 blob) = some m → s.keyEntry? job = none →
            s.keys.length < 64 → ∃ t, exec i s = .next t ∧ TasksAndMemoryStand s t ∧ said t 8 5 0 (leBytes 8 0)
              ∧ t.attest.held = none
              ∧ t.keys = s.keys ++ [⟨job, m, exactly 32 (Config.shake256 (padTo 2048 blob))⟩]))
      ∧ (∀ req, heads 6 1 → let i : Instr := .hostAttest req
        (req.length ≠ 64 ∨ requestOk req = false → answers i 1 6 1 [])
        ∧ (req.length = 64 → requestOk req = true → bytesAt req 0 1 ≠ 1 → bytesAt req 2 2 = 0 → s.attest.queue = [] →
          (s.attest.nextIdx = 2 ^ 40 → answers i 1 6 2 (leBytes 8 1))
          ∧ (s.attest.nextIdx ≠ 2 ^ 40 → let x := s1.signRequest req
            ∃ t, exec i s = .next t ∧ TasksAndMemoryStand s t ∧ t.attest.nextIdx = s.attest.nextIdx + 1
            ∧ t.host = ((x.1.tookFree recordArea).replyCells 6 s.messageSeq (x.1.areaBytes x.2.2)).host)))
      ∧ (∀ job, heads 7 1 → let i : Instr := .hostJobEnd job
        (2 ^ 12 ≤ job → answers i 1 7 1 [])
        ∧ (job < 2 ^ 12 → (s.keyEntry? job = none → answers i 1 7 3 [])
          ∧ (s.keyEntry? job ≠ none → (s.isSwitched job = true ∨ s.jobStopped job = true → answers i 1 7 4 [])
            ∧ (s.isSwitched job = false → s.jobStopped job = false → ∃ t, exec i s = .next t ∧ said t 1 7 0 []
              ∧ t.jobid = (if s.jobid.toNat = job then 0 else s.jobid) ∧ t.keys = s.keys.filter (fun k => !decide (k.job = job))
              ∧ (∀ x ∈ t.images, x.job ≠ job) ∧ ∀ r k, r.die < 8 → r.core < 98 → isLodge r.core = false →
                s.task? r = some k → k.job = job → (t.task r).status = .ending))))
      ∧ (heads 8 1 → answers .hostGrotto 1 8 4 [] ∧ ∀ n, n < hbmSize - grottoBase →
        let s2 := { s with host := { s.host with dump := some n } }
        let m := min 120 (hbmSize - grottoBase - n)
        ∃ t, exec .hostGrotto s2 = .next t ∧ TasksAndMemoryStand s2 t
          ∧ t.host = HostPort.sendCell (cell 8 0 (s.mem.bytes (grottoBase + n) m)) { left 1 with dump := some (n + m) })
      ∧ ∀ w : W64, heads 9 1 → (s.jobid ≠ 0 → answers (.hostConfig w) 1 9 4 [])
        ∧ (s.jobid = 0 → ∃ t, exec (.hostConfig w) s = .next t ∧ TasksAndMemoryStand s t ∧ said t 1 9 0 (leBytes 8 w.toNat)
          ∧ t.attest.rackWord = w)

/-- FATAL_STOP of an X cause, POWER_TRIP, JUNCTION_TRIP and PACKAGE_WATCHDOG on a running module stop it: the first cause
is kept, every task of a compute or control core halts, every die has EMASK 0b01 and ECAUSE the code, and the lodge
cores restart at FVEC. The next such step is the dump: the Grotto has its header and the sections of the dies whose
lodge runs, with no byte below the Grotto changed. After that they change nothing, and no other cause of FATAL_STOP
does. That the dump is a step of its own is the model's choice (notes/assumptions/84). FATAL sends the header, once,
when the section of D0 is complete. MODULE_RESET keeps of memory the Grotto alone, keeps NEXTIDX and the rack word,
and, if every image verifies, loads the lodge firmware, sets GHCFG and PRESENT with LOCK on every die, trains the
package-ring links, opens the host port and sends READY; else the module stays without. POWER_LOSS keeps NEXTIDX and
the rack word and nothing else of the machine. -/
def Obligations.FatalCausesResetAndPower : Prop :=
  (∀ (s : State) (d cause high reading : Nat) (info : W64),
      let causes : List (Instr × Nat × W64) :=
        [(.powerTrip d high reading, 0xE2, BitVec.ofNat 64 ((if high = 0 then 1 else 2) + d % 2 ^ 8 * 2 ^ 8 + reading % 2 ^ 16 * 2 ^ 16)),
          (.junctionTrip d reading, 0xE2, BitVec.ofNat 64 (d % 2 ^ 8 * 2 ^ 8 + reading % 2 ^ 16 * 2 ^ 16)),
          (.packageWatchdog d, 0xE3, BitVec.ofNat 64 (d % 2 ^ 8))]
          ++ (if 0xE0 ≤ cause ∧ cause ≤ 0xE3 then [(.fatalStop d cause info, cause, info)] else [])
      ((cause < 0xE0 ∨ 0xE3 < cause) → exec (.fatalStop d cause info) s = .next s)
      ∧ ∀ x ∈ causes,
        (s.fatal = none → ∃ t, exec x.1 s = .next t ∧ t.fatal = some ⟨d, x.2.1, x.2.2, s.cycle, false, false⟩ ∧ t.mem = s.mem
          ∧ (∀ n, n < 8 → (t.die n).lodge.emask = 1 ∧ (t.die n).lodge.ecause = BitVec.ofNat 64 x.2.1
            ∧ ∀ k, s.task? (lodgeTask n) = some k →
              t.task? (lodgeTask n) = some (k.restartAt ((s.die n).lodge.fvec.setWidth 32)))
          ∧ ∀ r k, r.die < 8 → r.core < 128 → r.core ≠ 96 → s.task? r = some k → t.task? r = some { k with halted := true })
        ∧ ∀ f, s.fatal = some f → (f.dumped = true → exec x.1 s = .next s)
          ∧ (f.dumped = false → ∃ t, exec x.1 s = .next t ∧ t.fatal = some { f with dumped := true }
            ∧ (∀ r, t.task? r = s.task? r) ∧ t.mem.bytes grottoBase 32 = s.grottoHeader f
            ∧ (∀ n, n < 8 → s.lodgeRuns n = true → t.mem.byte (grottoSection n) = 1)
            ∧ ∀ b, b < grottoBase → t.mem.byte b = s.mem.byte b))
    ∧ (∀ s : State, (s.fatal = none → exec .fatalMessage s = .next s)
      ∧ ∀ f, s.fatal = some f →
        ((f.dumped = false ∨ f.sent = true ∨ s.mem.byte (grottoSection 0) ≠ 1) → exec .fatalMessage s = .next s)
        ∧ (f.dumped = true → f.sent = false → s.mem.byte (grottoSection 0) = 1 → exec .fatalMessage s = .next { s with
          fatal := some { f with sent := true }
          host := HostPort.sendCell (routedCell 10 s.hostRoute 0 (padTo 128
            ([0x8F, 0, 0, 0, 0, 0, 0, 0] ++ s.mem.bytes grottoBase 32))) s.host }))
    ∧ (∀ (s : State) (straps : BitVec 6), ∃ t, exec (.moduleReset straps) s = .next t ∧ t.powered = true
      ∧ t.fatal = none ∧ t.jobid = 0 ∧ t.keys = [] ∧ t.launches = [] ∧ t.gens = State.reset.gens
      ∧ t.attest.nextIdx = s.attest.nextIdx ∧ t.attest.rackWord = s.attest.rackWord ∧ t.attest.held = none
      ∧ (∀ b, grottoBase ≤ b → b < hbmSize → t.mem.byte b = s.mem.byte b)
      ∧ (∀ b, (b < grottoBase ∨ hbmSize ≤ b) → (∀ d, d < 8 → b < firmwareBase d ∨ firmwareBase d + firmwareArea ≤ b) →
        t.mem.byte b = 0)
      ∧ t.host.inbox = [] ∧ t.host.dump = (if s.fatal.isSome then some 0 else s.host.dump)
      ∧ (imagesVerify = false → t.cores = State.reset.cores ∧ t.dies = State.reset.dies ∧ t.host.replies = [])
      ∧ (imagesVerify = true → t.module = straps
        ∧ (∀ d, d < 8 → t.task (lodgeTask d) = firmwareTask d
          ∧ (t.die d).gate.ghcfg = BitVec.ofNat 64 (straps.toNat + 64)
          ∧ (t.die d).gate.present = (s.attest.rackWord ||| ((1 : W64) <<< straps.toNat))
          ∧ ((t.die d).link 0).st = 2 ∧ ((t.die d).link 1).st = 2 ∧ (t.die d).lodge = Die.reset.lodge)
        ∧ (∀ r : TaskRef, r.die < 8 → r.core < 128 → (r.core ≠ 96 ∨ r.slot ≠ 0) → t.task? r = none)
        ∧ t.host.isSecure = true ∧ t.host.link = 2 ∧ t.host.replies ≠ []
        ∧ ∀ f ∈ t.host.replies, ∀ c ∈ f.cells, c.typ = 10 ∧ c.payload.take 4 = [0x90, 0, 0, 0]))
    ∧ ∀ s : State, ∃ t, exec .powerLoss s = .next t ∧ t.powered = false ∧ t.cores = State.reset.cores ∧ t.dies = State.reset.dies
      ∧ t.mem = [] ∧ t.keys = [] ∧ t.launches = [] ∧ t.jobid = 0 ∧ t.host = State.reset.host ∧ t.fatal = none
      ∧ t.attest.nextIdx = s.attest.nextIdx ∧ t.attest.rackWord = s.attest.rackWord ∧ t.attest.held = none
end

