-- ==== Sys2Proof/Laws/Dispatch.lean ====
section
/-!
SUPPORT. The links between an instruction and its meaning: a slot's instruction issues its slot, and a machine step's row
is the meaning of its event.
-/

namespace Sys2Proof

open Machine

/-- An instruction of a slot, run, is the issue of its slot. -/
theorem exec_slot {i : Instr} {m : SlotSem} (h : slotSem i = some m) (s : State) : exec i s = issueSlot m s := by
  cases i <;> first | (cases h; rfl) | cases h

/-- A machine step's row, run, is the meaning of its event. -/
theorem exec_event {i : Instr} {e : Event} (h : eventOf i = some e) (s : State) : exec i s = runEvent e s := by
  cases i <;> first | (cases h; rfl) | cases h

end Sys2Proof
end

