-- ==== Sys2Proof/Laws/Tbl.lean ====
section
/-!
SUPPORT. Laws of sparse tables: reading after writing, and the canonical form kept by every operation.
-/

namespace Sys2Proof.Machine

variable {α : Type}

theorem Tbl.get_erase_same (d : α) (t : Tbl α) (k : Nat) : Tbl.get d (Tbl.erase t k) k = d := by
  induction t with
  | nil => rfl
  | cons e t ih =>
    obtain ⟨j, v⟩ := e
    by_cases h : j = k <;> simp [Tbl.erase, Tbl.get, h, ih]

theorem Tbl.get_erase_other (d : α) (t : Tbl α) {k j : Nat} (h : j ≠ k) : Tbl.get d (Tbl.erase t k) j = Tbl.get d t j := by
  induction t with
  | nil => rfl
  | cons e t ih =>
    obtain ⟨i, v⟩ := e
    by_cases hi : i = k
    · subst hi; simp [Tbl.erase, Tbl.get, ih, Ne.symm h]
    · by_cases hj : i = j
      · subst hj; simp [Tbl.erase, Tbl.get, hi]
      · simp [Tbl.erase, Tbl.get, hi, hj, ih]

theorem Tbl.get_insert_same (d v : α) (t : Tbl α) (k : Nat) : Tbl.get d (Tbl.insert v t k) k = v := by
  induction t with
  | nil => simp [Tbl.insert, Tbl.get]
  | cons e t ih =>
    obtain ⟨j, w⟩ := e
    by_cases h1 : k < j
    · simp [Tbl.insert, Tbl.get, h1]
    · by_cases h2 : j = k <;> simp [Tbl.insert, Tbl.get, h1, h2, ih]

theorem Tbl.get_insert_other (d v : α) (t : Tbl α) {k j : Nat} (h : j ≠ k) :
    Tbl.get d (Tbl.insert v t k) j = Tbl.get d t j := by
  induction t with
  | nil => simp [Tbl.insert, Tbl.get, Ne.symm h]
  | cons e t ih =>
    obtain ⟨i, w⟩ := e
    by_cases h1 : k < i
    · simp [Tbl.insert, Tbl.get, h1, Ne.symm h]
    · by_cases h2 : i = k
      · subst h2; simp [Tbl.insert, Tbl.get, Ne.symm h]
      · by_cases hj : i = j
        · subst hj; simp [Tbl.insert, Tbl.get, h1, h2]
        · simp [Tbl.insert, Tbl.get, h1, h2, hj, ih]

variable [DecidableEq α]

/-- A read of the key just written gives the value. -/
@[simp] theorem Tbl.get_set_same (d v : α) (t : Tbl α) (k : Nat) : Tbl.get d (Tbl.set d t k v) k = v := by
  unfold Tbl.set
  split
  · next h => rw [Tbl.get_erase_same, h]
  · exact Tbl.get_insert_same ..

/-- A write leaves every other key alone. -/
theorem Tbl.get_set_other (d v : α) (t : Tbl α) {k j : Nat} (h : j ≠ k) : Tbl.get d (Tbl.set d t k v) j = Tbl.get d t j := by
  unfold Tbl.set
  split
  · exact Tbl.get_erase_other _ _ h
  · exact Tbl.get_insert_other _ _ _ h

omit [DecidableEq α] in
/-- Mapping a function that keeps the default. -/
@[simp] theorem Tbl.get_mapVals {d : α} {f : α → α} (h : f d = d) (t : Tbl α) (k : Nat) :
    Tbl.get d (Tbl.mapVals f t) k = f (Tbl.get d t k) := by
  induction t with
  | nil => simp [Tbl.mapVals, Tbl.get, h]
  | cons e t ih =>
    simp only [Tbl.mapVals, List.map_cons, Tbl.get] at ih ⊢
    split <;> simp_all

/-- The canonical form as one fact about the list: keys rise, and no value is the default. -/
theorem Tbl.wf_iff (d : α) (t : Tbl α) :
    Tbl.wf d t = true ↔ (t.Pairwise fun a b => a.1 < b.1) ∧ ∀ e ∈ t, e.2 ≠ d := by
  induction t with
  | nil => simp [Tbl.wf]
  | cons e t ih =>
    obtain ⟨j, v⟩ := e
    cases t with
    | nil => simp [Tbl.wf]
    | cons f t =>
      obtain ⟨k, w⟩ := f
      simp only [Tbl.wf, Bool.and_eq_true, decide_eq_true_eq, ih, List.pairwise_cons, List.mem_cons, forall_eq_or_imp]
      constructor
      · rintro ⟨⟨hv, hjk⟩, ⟨hk, hp⟩, hw, hr⟩
        exact ⟨⟨⟨hjk, fun a ha => lt_trans hjk (hk a ha)⟩, hk, hp⟩, hv, hw, hr⟩
      · rintro ⟨⟨⟨hjk, _⟩, hk, hp⟩, hv, hw, hr⟩
        exact ⟨⟨hv, hjk⟩, ⟨hk, hp⟩, hw, hr⟩

omit [DecidableEq α] in
theorem Tbl.mem_erase {t : Tbl α} {k : Nat} {e : Nat × α} : e ∈ Tbl.erase t k → e ∈ t ∧ e.1 ≠ k := by
  induction t with
  | nil => simp [Tbl.erase]
  | cons f t ih =>
    obtain ⟨j, v⟩ := f
    by_cases h : j = k
    · simp only [Tbl.erase, h, ite_true]
      exact fun he => ⟨List.mem_cons_of_mem _ (ih he).1, (ih he).2⟩
    · simp only [Tbl.erase, h, ite_false, List.mem_cons]
      rintro (rfl | he)
      · exact ⟨.inl rfl, h⟩
      · exact ⟨.inr (ih he).1, (ih he).2⟩

theorem Tbl.wf_erase (d : α) {t : Tbl α} (k : Nat) (h : Tbl.wf d t = true) : Tbl.wf d (Tbl.erase t k) = true := by
  rw [Tbl.wf_iff] at h ⊢
  refine ⟨?_, fun e he => h.2 e (Tbl.mem_erase he).1⟩
  have hp := h.1
  clear h
  induction t with
  | nil => simp [Tbl.erase]
  | cons f t ih =>
    obtain ⟨j, v⟩ := f
    rw [List.pairwise_cons] at hp
    by_cases h : j = k
    · simpa [Tbl.erase, h] using ih hp.2
    · simp only [Tbl.erase, h, ite_false, List.pairwise_cons]
      exact ⟨fun a ha => hp.1 a (Tbl.mem_erase ha).1, ih hp.2⟩

omit [DecidableEq α] in
theorem Tbl.mem_insert {v : α} {t : Tbl α} {k : Nat} {e : Nat × α} : e ∈ Tbl.insert v t k → e = (k, v) ∨ e ∈ t := by
  induction t with
  | nil => simp [Tbl.insert]
  | cons f t ih =>
    obtain ⟨j, w⟩ := f
    by_cases h1 : k < j
    · rw [Tbl.insert, if_pos h1, List.mem_cons]; exact id
    · by_cases h2 : j = k
      · rw [Tbl.insert, if_neg h1, if_pos h2, List.mem_cons, List.mem_cons]
        rintro (h | h)
        · exact .inl h
        · exact .inr (.inr h)
      · rw [Tbl.insert, if_neg h1, if_neg h2, List.mem_cons, List.mem_cons]
        rintro (rfl | h)
        · exact .inr (.inl rfl)
        · rcases ih h with h | h
          · exact .inl h
          · exact .inr (.inr h)

theorem Tbl.wf_insert (d : α) {v : α} {t : Tbl α} (k : Nat) (hv : v ≠ d) (h : Tbl.wf d t = true) :
    Tbl.wf d (Tbl.insert v t k) = true := by
  rw [Tbl.wf_iff] at h ⊢
  refine ⟨?_, fun e he => ?_⟩
  · have hp := h.1
    clear h
    induction t with
    | nil => simp [Tbl.insert]
    | cons f t ih =>
      obtain ⟨j, w⟩ := f
      have hq := List.pairwise_cons.1 hp
      by_cases h1 : k < j
      · rw [Tbl.insert, if_pos h1, List.pairwise_cons, List.pairwise_cons]
        simp only [List.mem_cons, forall_eq_or_imp]
        exact ⟨⟨h1, fun a ha => lt_trans h1 (hq.1 a ha)⟩, hq.1, hq.2⟩
      · by_cases h2 : j = k
        · subst h2
          rw [Tbl.insert, if_neg h1, if_pos rfl, List.pairwise_cons]
          exact ⟨hq.1, hq.2⟩
        · rw [Tbl.insert, if_neg h1, if_neg h2, List.pairwise_cons]
          refine ⟨fun a ha => ?_, ih hq.2⟩
          rcases Tbl.mem_insert ha with rfl | ha
          · simp only; omega
          · exact hq.1 a ha
  · rcases Tbl.mem_insert he with rfl | he
    · exact hv
    · exact h.2 e he

/-- A write keeps the canonical form. -/
theorem Tbl.wf_set (d v : α) {t : Tbl α} (k : Nat) (h : Tbl.wf d t = true) : Tbl.wf d (Tbl.set d t k v) = true := by
  unfold Tbl.set
  split
  · exact Tbl.wf_erase d k h
  · next hv => exact Tbl.wf_insert d k hv h

/-- Dropping entries keeps the canonical form. -/
theorem Tbl.wf_filter (d : α) {t : Tbl α} (p : Nat × α → Bool) (h : Tbl.wf d t = true) : Tbl.wf d (t.filter p) = true := by
  rw [Tbl.wf_iff] at h ⊢
  exact ⟨h.1.filter p, fun e he => h.2 e (List.mem_filter.1 he).1⟩

end Sys2Proof.Machine
end

