-- ==== Sys2Proof/Laws/Memory.lean ====
section
/-!
SUPPORT. Laws of the byte memory: reading after writing, and the canonical form kept by every operation on it.
-/

namespace Sys2Proof.Machine

@[simp] theorem Memory.byte_setByte_same (m : Memory) (a : Nat) (b : Byte) : (m.setByte a b).byte a = b :=
  Tbl.get_set_same ..

theorem Memory.byte_setByte_other (m : Memory) {a i : Nat} (b : Byte) (h : i ≠ a) : (m.setByte a b).byte i = m.byte i :=
  Tbl.get_set_other _ _ _ h

/-- A lookup in two lists, of which the first does not list the key. -/
theorem Tbl.get_append {α : Type} (d : α) (t u : Tbl α) (k : Nat) (h : ∀ e ∈ t, e.1 ≠ k) : Tbl.get d (t ++ u) k = Tbl.get d u k := by
  induction t with
  | nil => rfl
  | cons e t ih =>
    simp only [List.mem_cons, forall_eq_or_imp] at h
    obtain ⟨j, v⟩ := e
    rw [List.cons_append, Tbl.get, if_neg (show ¬j = k from h.1), ih h.2]

/-- A lookup in two lists, of which the second does not list the key. -/
theorem Tbl.get_append_left {α : Type} (d : α) (t u : Tbl α) (k : Nat) (h : ∀ e ∈ u, e.1 ≠ k) : Tbl.get d (t ++ u) k = Tbl.get d t k := by
  induction t with
  | nil =>
    rw [List.nil_append]
    induction u with
    | nil => rfl
    | cons e u ih =>
      simp only [List.mem_cons, forall_eq_or_imp] at h
      obtain ⟨j, v⟩ := e
      simpa [Tbl.get, show ¬j = k from h.1] using ih h.2
  | cons e t ih =>
    obtain ⟨j, v⟩ := e
    rw [List.cons_append, Tbl.get, Tbl.get, ih]

/-- A lookup in a list without the keys that a test leaves out. -/
theorem Tbl.get_filter {α : Type} (d : α) (p : Nat → Bool) (t : Tbl α) (k : Nat) (h : p k = true) :
    Tbl.get d (t.filter fun e => p e.1) k = Tbl.get d t k := by
  induction t with
  | nil => rfl
  | cons e t ih =>
    obtain ⟨j, v⟩ := e
    by_cases hj : j = k
    · subst hj; simp [h, Tbl.get]
    · by_cases hp : p j = true <;> simp [hp, Tbl.get, hj, ih]

/-- The cells of a run of bytes lie in it and are not zero, in rising order. -/
theorem byteCells_mem (b : List Byte) (a : Nat) : ∀ e ∈ byteCells a b, a ≤ e.1 ∧ e.1 < a + b.length ∧ e.2 ≠ 0 := by
  induction b generalizing a with
  | nil => simp [byteCells]
  | cons x t ih =>
    intro e he
    simp only [byteCells, List.length_cons] at he ⊢
    split at he
    · obtain ⟨h1, h2, h3⟩ := ih (a + 1) e he
      exact ⟨by omega, by omega, h3⟩
    · rcases List.mem_cons.1 he with rfl | he
      · exact ⟨by simp, by simp, ‹_›⟩
      · obtain ⟨h1, h2, h3⟩ := ih (a + 1) e he
        exact ⟨by omega, by omega, h3⟩

theorem byteCells_pairwise (b : List Byte) (a : Nat) : (byteCells a b).Pairwise fun e f => e.1 < f.1 := by
  induction b generalizing a with
  | nil => simp [byteCells]
  | cons x t ih =>
    simp only [byteCells]
    split
    · exact ih _
    · exact List.pairwise_cons.2 ⟨fun e he => by have := byteCells_mem t (a + 1) e he; simp only; omega, ih _⟩

/-- They read as the bytes. -/
theorem byteCells_get (b : List Byte) (a i : Nat) (h : i < b.length) : Tbl.get 0 (byteCells a b) (a + i) = b.getD i 0 := by
  induction b generalizing a i with
  | nil => simp at h
  | cons x t ih =>
    simp only [byteCells]
    cases i with
    | zero =>
      split
      · have := Tbl.get_append_left (0 : Byte) [] (byteCells (a + 1) t) a
          (fun e he => by have := byteCells_mem t (a + 1) e he; omega)
        simpa [Tbl.get, ‹x = 0›] using this
      · simp [Tbl.get]
    | succ i =>
      have := ih (a + 1) i (by simpa using h)
      rw [show a + 1 + i = a + (i + 1) by omega] at this
      split
      · simpa using this
      · simpa [Tbl.get, show a ≠ a + (i + 1) by omega] using this

/-- A run of bytes written leaves every byte outside it alone. -/
theorem Memory.byte_setBytes_out (b : List Byte) (m : Memory) (a i : Nat) (h : i < a ∨ a + b.length ≤ i) :
    (m.setBytes a b).byte i = m.byte i := by
  unfold Memory.setBytes Memory.byte
  split
  · rfl
  · have hb : 0 < b.length := List.length_pos_of_ne_nil ‹_›
    rcases h with h | h
    · rw [Tbl.get_append_left]
      · exact Tbl.get_filter 0 (fun n => decide (n < a)) m i (by simpa using h)
      · intro e he
        rcases List.mem_append.1 he with he | he
        · have := byteCells_mem b a e he; omega
        · have := (List.mem_filter.1 he).2; simp only [decide_eq_true_eq] at this; omega
    · rw [Tbl.get_append, Tbl.get_append]
      · exact Tbl.get_filter 0 (fun n => decide (a + b.length ≤ n)) m i (by simpa using h)
      · intro e he; have := byteCells_mem b a e he; omega
      · intro e he; have := (List.mem_filter.1 he).2; simp only [decide_eq_true_eq] at this; omega

/-- A run of bytes written reads back. -/
theorem Memory.byte_setBytes_in (b : List Byte) (m : Memory) (a i : Nat) (h : i < b.length) :
    (m.setBytes a b).byte (a + i) = b.getD i 0 := by
  unfold Memory.setBytes Memory.byte
  split
  · simp_all
  · rw [Tbl.get_append, Tbl.get_append_left]
    · exact byteCells_get b a i h
    · intro e he; have := (List.mem_filter.1 he).2; simp only [decide_eq_true_eq] at this; omega
    · intro e he; have := (List.mem_filter.1 he).2; simp only [decide_eq_true_eq] at this; omega

theorem Memory.wf_setByte {m : Memory} (a : Nat) (b : Byte) (h : m.wf = true) : (m.setByte a b).wf = true :=
  Tbl.wf_set 0 b a h

/-- A run of bytes written keeps the canonical form. -/
theorem Memory.wf_setBytes (b : List Byte) {m : Memory} (a : Nat) (h : m.wf = true) : (m.setBytes a b).wf = true := by
  unfold Memory.setBytes Memory.wf at *
  split
  · exact h
  · rw [Tbl.wf_iff] at h ⊢
    refine ⟨List.pairwise_append.2 ⟨h.1.filter _, List.pairwise_append.2 ⟨byteCells_pairwise b a, h.1.filter _, ?_⟩, ?_⟩, ?_⟩
    · intro e he f hf
      have h1 := byteCells_mem b a e he
      have h2 := (List.mem_filter.1 hf).2
      simp only [decide_eq_true_eq] at h2
      omega
    · intro e he f hf
      have h1 := (List.mem_filter.1 he).2
      simp only [decide_eq_true_eq] at h1
      rcases List.mem_append.1 hf with hf | hf
      · have := byteCells_mem b a f hf; omega
      · have := (List.mem_filter.1 hf).2; simp only [decide_eq_true_eq] at this; omega
    · intro e he
      rcases List.mem_append.1 he with he | he
      · exact h.2 e (List.mem_filter.1 he).1
      · rcases List.mem_append.1 he with he | he
        · exact (byteCells_mem b a e he).2.2
        · exact h.2 e (List.mem_filter.1 he).1

theorem Memory.wf_filter {m : Memory} (p : Nat × Byte → Bool) (h : m.wf = true) : Memory.wf (m.filter p) = true :=
  Tbl.wf_filter 0 p h

/-- A cleared range keeps the canonical form. -/
theorem Memory.wf_clear {m : Memory} (lo n : Nat) (h : m.wf = true) : (m.clear lo n).wf = true := Memory.wf_filter _ h

theorem Memory.wf_reset : State.reset.mem.wf = true := rfl

end Sys2Proof.Machine
end

