-- ==== Sys2Proof/Laws/State.lean ====
section
/-!
SUPPORT. What each update of the state leaves: one lemma for each field and update, true by computation, and the reads
of the place just written.
-/

namespace Sys2Proof.Machine

/-! ### Fields that an update leaves -/

@[simp] theorem State.powered_setCore (s : State) (c : CoreRef) (x : Core) : (s.setCore c x).powered = s.powered := rfl

@[simp] theorem State.module_setCore (s : State) (c : CoreRef) (x : Core) : (s.setCore c x).module = s.module := rfl

@[simp] theorem State.jobid_setCore (s : State) (c : CoreRef) (x : Core) : (s.setCore c x).jobid = s.jobid := rfl

@[simp] theorem State.cycle_setCore (s : State) (c : CoreRef) (x : Core) : (s.setCore c x).cycle = s.cycle := rfl

@[simp] theorem State.cur_setCore (s : State) (c : CoreRef) (x : Core) : (s.setCore c x).cur = s.cur := rfl

@[simp] theorem State.agenda_setCore (s : State) (c : CoreRef) (x : Core) : (s.setCore c x).agenda = s.agenda := rfl

@[simp] theorem State.freeCtr_setCore (s : State) (c : CoreRef) (x : Core) : (s.setCore c x).freeCtr = s.freeCtr := rfl

@[simp] theorem State.mem_setCore (s : State) (c : CoreRef) (x : Core) : (s.setCore c x).mem = s.mem := rfl

@[simp] theorem State.lines_setCore (s : State) (c : CoreRef) (x : Core) : (s.setCore c x).lines = s.lines := rfl

@[simp] theorem State.gens_setCore (s : State) (c : CoreRef) (x : Core) : (s.setCore c x).gens = s.gens := rfl

@[simp] theorem State.dies_setCore (s : State) (c : CoreRef) (x : Core) : (s.setCore c x).dies = s.dies := rfl

@[simp] theorem State.images_setCore (s : State) (c : CoreRef) (x : Core) : (s.setCore c x).images = s.images := rfl

@[simp] theorem State.launches_setCore (s : State) (c : CoreRef) (x : Core) : (s.setCore c x).launches = s.launches := rfl

@[simp] theorem State.pointer_setCore (s : State) (c : CoreRef) (x : Core) : (s.setCore c x).pointer = s.pointer := rfl

@[simp] theorem State.keys_setCore (s : State) (c : CoreRef) (x : Core) : (s.setCore c x).keys = s.keys := rfl

@[simp] theorem State.oldKeys_setCore (s : State) (c : CoreRef) (x : Core) : (s.setCore c x).oldKeys = s.oldKeys := rfl

@[simp] theorem State.kept_setCore (s : State) (c : CoreRef) (x : Core) : (s.setCore c x).kept = s.kept := rfl

@[simp] theorem State.attest_setCore (s : State) (c : CoreRef) (x : Core) : (s.setCore c x).attest = s.attest := rfl

@[simp] theorem State.host_setCore (s : State) (c : CoreRef) (x : Core) : (s.setCore c x).host = s.host := rfl

@[simp] theorem State.gang_setCore (s : State) (c : CoreRef) (x : Core) : (s.setCore c x).gang = s.gang := rfl

@[simp] theorem State.switched_setCore (s : State) (c : CoreRef) (x : Core) : (s.setCore c x).switched = s.switched := rfl

@[simp] theorem State.sent_setCore (s : State) (c : CoreRef) (x : Core) : (s.setCore c x).sent = s.sent := rfl

@[simp] theorem State.outbound_setCore (s : State) (c : CoreRef) (x : Core) : (s.setCore c x).outbound = s.outbound := rfl

@[simp] theorem State.hwm_setCore (s : State) (c : CoreRef) (x : Core) : (s.setCore c x).hwm = s.hwm := rfl

@[simp] theorem State.fatal_setCore (s : State) (c : CoreRef) (x : Core) : (s.setCore c x).fatal = s.fatal := rfl

@[simp] theorem State.die_setCore (s : State) (c : CoreRef) (x : Core) (k : Nat) : (s.setCore c x).die k = s.die k := rfl

@[simp] theorem State.powered_modCore (s : State) (c : CoreRef) (f : Core → Core) : (s.modCore c f).powered = s.powered := rfl

@[simp] theorem State.module_modCore (s : State) (c : CoreRef) (f : Core → Core) : (s.modCore c f).module = s.module := rfl

@[simp] theorem State.jobid_modCore (s : State) (c : CoreRef) (f : Core → Core) : (s.modCore c f).jobid = s.jobid := rfl

@[simp] theorem State.cycle_modCore (s : State) (c : CoreRef) (f : Core → Core) : (s.modCore c f).cycle = s.cycle := rfl

@[simp] theorem State.cur_modCore (s : State) (c : CoreRef) (f : Core → Core) : (s.modCore c f).cur = s.cur := rfl

@[simp] theorem State.agenda_modCore (s : State) (c : CoreRef) (f : Core → Core) : (s.modCore c f).agenda = s.agenda := rfl

@[simp] theorem State.freeCtr_modCore (s : State) (c : CoreRef) (f : Core → Core) : (s.modCore c f).freeCtr = s.freeCtr := rfl

@[simp] theorem State.mem_modCore (s : State) (c : CoreRef) (f : Core → Core) : (s.modCore c f).mem = s.mem := rfl

@[simp] theorem State.lines_modCore (s : State) (c : CoreRef) (f : Core → Core) : (s.modCore c f).lines = s.lines := rfl

@[simp] theorem State.gens_modCore (s : State) (c : CoreRef) (f : Core → Core) : (s.modCore c f).gens = s.gens := rfl

@[simp] theorem State.dies_modCore (s : State) (c : CoreRef) (f : Core → Core) : (s.modCore c f).dies = s.dies := rfl

@[simp] theorem State.images_modCore (s : State) (c : CoreRef) (f : Core → Core) : (s.modCore c f).images = s.images := rfl

@[simp] theorem State.launches_modCore (s : State) (c : CoreRef) (f : Core → Core) : (s.modCore c f).launches = s.launches := rfl

@[simp] theorem State.pointer_modCore (s : State) (c : CoreRef) (f : Core → Core) : (s.modCore c f).pointer = s.pointer := rfl

@[simp] theorem State.keys_modCore (s : State) (c : CoreRef) (f : Core → Core) : (s.modCore c f).keys = s.keys := rfl

@[simp] theorem State.oldKeys_modCore (s : State) (c : CoreRef) (f : Core → Core) : (s.modCore c f).oldKeys = s.oldKeys := rfl

@[simp] theorem State.kept_modCore (s : State) (c : CoreRef) (f : Core → Core) : (s.modCore c f).kept = s.kept := rfl

@[simp] theorem State.attest_modCore (s : State) (c : CoreRef) (f : Core → Core) : (s.modCore c f).attest = s.attest := rfl

@[simp] theorem State.host_modCore (s : State) (c : CoreRef) (f : Core → Core) : (s.modCore c f).host = s.host := rfl

@[simp] theorem State.gang_modCore (s : State) (c : CoreRef) (f : Core → Core) : (s.modCore c f).gang = s.gang := rfl

@[simp] theorem State.switched_modCore (s : State) (c : CoreRef) (f : Core → Core) : (s.modCore c f).switched = s.switched := rfl

@[simp] theorem State.sent_modCore (s : State) (c : CoreRef) (f : Core → Core) : (s.modCore c f).sent = s.sent := rfl

@[simp] theorem State.outbound_modCore (s : State) (c : CoreRef) (f : Core → Core) : (s.modCore c f).outbound = s.outbound := rfl

@[simp] theorem State.hwm_modCore (s : State) (c : CoreRef) (f : Core → Core) : (s.modCore c f).hwm = s.hwm := rfl

@[simp] theorem State.fatal_modCore (s : State) (c : CoreRef) (f : Core → Core) : (s.modCore c f).fatal = s.fatal := rfl

@[simp] theorem State.die_modCore (s : State) (c : CoreRef) (f : Core → Core) (k : Nat) : (s.modCore c f).die k = s.die k := rfl

@[simp] theorem State.powered_putTask (s : State) (r : TaskRef) (t : Option Task) : (s.putTask r t).powered = s.powered := rfl

@[simp] theorem State.module_putTask (s : State) (r : TaskRef) (t : Option Task) : (s.putTask r t).module = s.module := rfl

@[simp] theorem State.jobid_putTask (s : State) (r : TaskRef) (t : Option Task) : (s.putTask r t).jobid = s.jobid := rfl

@[simp] theorem State.cycle_putTask (s : State) (r : TaskRef) (t : Option Task) : (s.putTask r t).cycle = s.cycle := rfl

@[simp] theorem State.cur_putTask (s : State) (r : TaskRef) (t : Option Task) : (s.putTask r t).cur = s.cur := rfl

@[simp] theorem State.agenda_putTask (s : State) (r : TaskRef) (t : Option Task) : (s.putTask r t).agenda = s.agenda := rfl

@[simp] theorem State.freeCtr_putTask (s : State) (r : TaskRef) (t : Option Task) : (s.putTask r t).freeCtr = s.freeCtr := rfl

@[simp] theorem State.mem_putTask (s : State) (r : TaskRef) (t : Option Task) : (s.putTask r t).mem = s.mem := rfl

@[simp] theorem State.lines_putTask (s : State) (r : TaskRef) (t : Option Task) : (s.putTask r t).lines = s.lines := rfl

@[simp] theorem State.gens_putTask (s : State) (r : TaskRef) (t : Option Task) : (s.putTask r t).gens = s.gens := rfl

@[simp] theorem State.dies_putTask (s : State) (r : TaskRef) (t : Option Task) : (s.putTask r t).dies = s.dies := rfl

@[simp] theorem State.images_putTask (s : State) (r : TaskRef) (t : Option Task) : (s.putTask r t).images = s.images := rfl

@[simp] theorem State.launches_putTask (s : State) (r : TaskRef) (t : Option Task) : (s.putTask r t).launches = s.launches := rfl

@[simp] theorem State.pointer_putTask (s : State) (r : TaskRef) (t : Option Task) : (s.putTask r t).pointer = s.pointer := rfl

@[simp] theorem State.keys_putTask (s : State) (r : TaskRef) (t : Option Task) : (s.putTask r t).keys = s.keys := rfl

@[simp] theorem State.oldKeys_putTask (s : State) (r : TaskRef) (t : Option Task) : (s.putTask r t).oldKeys = s.oldKeys := rfl

@[simp] theorem State.kept_putTask (s : State) (r : TaskRef) (t : Option Task) : (s.putTask r t).kept = s.kept := rfl

@[simp] theorem State.attest_putTask (s : State) (r : TaskRef) (t : Option Task) : (s.putTask r t).attest = s.attest := rfl

@[simp] theorem State.host_putTask (s : State) (r : TaskRef) (t : Option Task) : (s.putTask r t).host = s.host := rfl

@[simp] theorem State.gang_putTask (s : State) (r : TaskRef) (t : Option Task) : (s.putTask r t).gang = s.gang := rfl

@[simp] theorem State.switched_putTask (s : State) (r : TaskRef) (t : Option Task) : (s.putTask r t).switched = s.switched := rfl

@[simp] theorem State.sent_putTask (s : State) (r : TaskRef) (t : Option Task) : (s.putTask r t).sent = s.sent := rfl

@[simp] theorem State.outbound_putTask (s : State) (r : TaskRef) (t : Option Task) : (s.putTask r t).outbound = s.outbound := rfl

@[simp] theorem State.hwm_putTask (s : State) (r : TaskRef) (t : Option Task) : (s.putTask r t).hwm = s.hwm := rfl

@[simp] theorem State.fatal_putTask (s : State) (r : TaskRef) (t : Option Task) : (s.putTask r t).fatal = s.fatal := rfl

@[simp] theorem State.die_putTask (s : State) (r : TaskRef) (t : Option Task) (k : Nat) : (s.putTask r t).die k = s.die k := rfl

@[simp] theorem State.powered_setTask (s : State) (r : TaskRef) (t : Task) : (s.setTask r t).powered = s.powered := rfl

@[simp] theorem State.module_setTask (s : State) (r : TaskRef) (t : Task) : (s.setTask r t).module = s.module := rfl

@[simp] theorem State.jobid_setTask (s : State) (r : TaskRef) (t : Task) : (s.setTask r t).jobid = s.jobid := rfl

@[simp] theorem State.cycle_setTask (s : State) (r : TaskRef) (t : Task) : (s.setTask r t).cycle = s.cycle := rfl

@[simp] theorem State.cur_setTask (s : State) (r : TaskRef) (t : Task) : (s.setTask r t).cur = s.cur := rfl

@[simp] theorem State.agenda_setTask (s : State) (r : TaskRef) (t : Task) : (s.setTask r t).agenda = s.agenda := rfl

@[simp] theorem State.freeCtr_setTask (s : State) (r : TaskRef) (t : Task) : (s.setTask r t).freeCtr = s.freeCtr := rfl

@[simp] theorem State.mem_setTask (s : State) (r : TaskRef) (t : Task) : (s.setTask r t).mem = s.mem := rfl

@[simp] theorem State.lines_setTask (s : State) (r : TaskRef) (t : Task) : (s.setTask r t).lines = s.lines := rfl

@[simp] theorem State.gens_setTask (s : State) (r : TaskRef) (t : Task) : (s.setTask r t).gens = s.gens := rfl

@[simp] theorem State.dies_setTask (s : State) (r : TaskRef) (t : Task) : (s.setTask r t).dies = s.dies := rfl

@[simp] theorem State.images_setTask (s : State) (r : TaskRef) (t : Task) : (s.setTask r t).images = s.images := rfl

@[simp] theorem State.launches_setTask (s : State) (r : TaskRef) (t : Task) : (s.setTask r t).launches = s.launches := rfl

@[simp] theorem State.pointer_setTask (s : State) (r : TaskRef) (t : Task) : (s.setTask r t).pointer = s.pointer := rfl

@[simp] theorem State.keys_setTask (s : State) (r : TaskRef) (t : Task) : (s.setTask r t).keys = s.keys := rfl

@[simp] theorem State.oldKeys_setTask (s : State) (r : TaskRef) (t : Task) : (s.setTask r t).oldKeys = s.oldKeys := rfl

@[simp] theorem State.kept_setTask (s : State) (r : TaskRef) (t : Task) : (s.setTask r t).kept = s.kept := rfl

@[simp] theorem State.attest_setTask (s : State) (r : TaskRef) (t : Task) : (s.setTask r t).attest = s.attest := rfl

@[simp] theorem State.host_setTask (s : State) (r : TaskRef) (t : Task) : (s.setTask r t).host = s.host := rfl

@[simp] theorem State.gang_setTask (s : State) (r : TaskRef) (t : Task) : (s.setTask r t).gang = s.gang := rfl

@[simp] theorem State.switched_setTask (s : State) (r : TaskRef) (t : Task) : (s.setTask r t).switched = s.switched := rfl

@[simp] theorem State.sent_setTask (s : State) (r : TaskRef) (t : Task) : (s.setTask r t).sent = s.sent := rfl

@[simp] theorem State.outbound_setTask (s : State) (r : TaskRef) (t : Task) : (s.setTask r t).outbound = s.outbound := rfl

@[simp] theorem State.hwm_setTask (s : State) (r : TaskRef) (t : Task) : (s.setTask r t).hwm = s.hwm := rfl

@[simp] theorem State.fatal_setTask (s : State) (r : TaskRef) (t : Task) : (s.setTask r t).fatal = s.fatal := rfl

@[simp] theorem State.die_setTask (s : State) (r : TaskRef) (t : Task) (k : Nat) : (s.setTask r t).die k = s.die k := rfl

@[simp] theorem State.powered_modTask (s : State) (r : TaskRef) (f : Task → Task) : (s.modTask r f).powered = s.powered := rfl

@[simp] theorem State.module_modTask (s : State) (r : TaskRef) (f : Task → Task) : (s.modTask r f).module = s.module := rfl

@[simp] theorem State.jobid_modTask (s : State) (r : TaskRef) (f : Task → Task) : (s.modTask r f).jobid = s.jobid := rfl

@[simp] theorem State.cycle_modTask (s : State) (r : TaskRef) (f : Task → Task) : (s.modTask r f).cycle = s.cycle := rfl

@[simp] theorem State.cur_modTask (s : State) (r : TaskRef) (f : Task → Task) : (s.modTask r f).cur = s.cur := rfl

@[simp] theorem State.agenda_modTask (s : State) (r : TaskRef) (f : Task → Task) : (s.modTask r f).agenda = s.agenda := rfl

@[simp] theorem State.freeCtr_modTask (s : State) (r : TaskRef) (f : Task → Task) : (s.modTask r f).freeCtr = s.freeCtr := rfl

@[simp] theorem State.mem_modTask (s : State) (r : TaskRef) (f : Task → Task) : (s.modTask r f).mem = s.mem := rfl

@[simp] theorem State.lines_modTask (s : State) (r : TaskRef) (f : Task → Task) : (s.modTask r f).lines = s.lines := rfl

@[simp] theorem State.gens_modTask (s : State) (r : TaskRef) (f : Task → Task) : (s.modTask r f).gens = s.gens := rfl

@[simp] theorem State.dies_modTask (s : State) (r : TaskRef) (f : Task → Task) : (s.modTask r f).dies = s.dies := rfl

@[simp] theorem State.images_modTask (s : State) (r : TaskRef) (f : Task → Task) : (s.modTask r f).images = s.images := rfl

@[simp] theorem State.launches_modTask (s : State) (r : TaskRef) (f : Task → Task) : (s.modTask r f).launches = s.launches := rfl

@[simp] theorem State.pointer_modTask (s : State) (r : TaskRef) (f : Task → Task) : (s.modTask r f).pointer = s.pointer := rfl

@[simp] theorem State.keys_modTask (s : State) (r : TaskRef) (f : Task → Task) : (s.modTask r f).keys = s.keys := rfl

@[simp] theorem State.oldKeys_modTask (s : State) (r : TaskRef) (f : Task → Task) : (s.modTask r f).oldKeys = s.oldKeys := rfl

@[simp] theorem State.kept_modTask (s : State) (r : TaskRef) (f : Task → Task) : (s.modTask r f).kept = s.kept := rfl

@[simp] theorem State.attest_modTask (s : State) (r : TaskRef) (f : Task → Task) : (s.modTask r f).attest = s.attest := rfl

@[simp] theorem State.host_modTask (s : State) (r : TaskRef) (f : Task → Task) : (s.modTask r f).host = s.host := rfl

@[simp] theorem State.gang_modTask (s : State) (r : TaskRef) (f : Task → Task) : (s.modTask r f).gang = s.gang := rfl

@[simp] theorem State.switched_modTask (s : State) (r : TaskRef) (f : Task → Task) : (s.modTask r f).switched = s.switched := rfl

@[simp] theorem State.sent_modTask (s : State) (r : TaskRef) (f : Task → Task) : (s.modTask r f).sent = s.sent := rfl

@[simp] theorem State.outbound_modTask (s : State) (r : TaskRef) (f : Task → Task) : (s.modTask r f).outbound = s.outbound := rfl

@[simp] theorem State.hwm_modTask (s : State) (r : TaskRef) (f : Task → Task) : (s.modTask r f).hwm = s.hwm := rfl

@[simp] theorem State.fatal_modTask (s : State) (r : TaskRef) (f : Task → Task) : (s.modTask r f).fatal = s.fatal := rfl

@[simp] theorem State.die_modTask (s : State) (r : TaskRef) (f : Task → Task) (k : Nat) : (s.modTask r f).die k = s.die k := rfl

@[simp] theorem State.powered_modMe (s : State) (f : Task → Task) : (s.modMe f).powered = s.powered := rfl

@[simp] theorem State.module_modMe (s : State) (f : Task → Task) : (s.modMe f).module = s.module := rfl

@[simp] theorem State.jobid_modMe (s : State) (f : Task → Task) : (s.modMe f).jobid = s.jobid := rfl

@[simp] theorem State.cycle_modMe (s : State) (f : Task → Task) : (s.modMe f).cycle = s.cycle := rfl

@[simp] theorem State.cur_modMe (s : State) (f : Task → Task) : (s.modMe f).cur = s.cur := rfl

@[simp] theorem State.agenda_modMe (s : State) (f : Task → Task) : (s.modMe f).agenda = s.agenda := rfl

@[simp] theorem State.freeCtr_modMe (s : State) (f : Task → Task) : (s.modMe f).freeCtr = s.freeCtr := rfl

@[simp] theorem State.mem_modMe (s : State) (f : Task → Task) : (s.modMe f).mem = s.mem := rfl

@[simp] theorem State.lines_modMe (s : State) (f : Task → Task) : (s.modMe f).lines = s.lines := rfl

@[simp] theorem State.gens_modMe (s : State) (f : Task → Task) : (s.modMe f).gens = s.gens := rfl

@[simp] theorem State.dies_modMe (s : State) (f : Task → Task) : (s.modMe f).dies = s.dies := rfl

@[simp] theorem State.images_modMe (s : State) (f : Task → Task) : (s.modMe f).images = s.images := rfl

@[simp] theorem State.launches_modMe (s : State) (f : Task → Task) : (s.modMe f).launches = s.launches := rfl

@[simp] theorem State.pointer_modMe (s : State) (f : Task → Task) : (s.modMe f).pointer = s.pointer := rfl

@[simp] theorem State.keys_modMe (s : State) (f : Task → Task) : (s.modMe f).keys = s.keys := rfl

@[simp] theorem State.oldKeys_modMe (s : State) (f : Task → Task) : (s.modMe f).oldKeys = s.oldKeys := rfl

@[simp] theorem State.kept_modMe (s : State) (f : Task → Task) : (s.modMe f).kept = s.kept := rfl

@[simp] theorem State.attest_modMe (s : State) (f : Task → Task) : (s.modMe f).attest = s.attest := rfl

@[simp] theorem State.host_modMe (s : State) (f : Task → Task) : (s.modMe f).host = s.host := rfl

@[simp] theorem State.gang_modMe (s : State) (f : Task → Task) : (s.modMe f).gang = s.gang := rfl

@[simp] theorem State.switched_modMe (s : State) (f : Task → Task) : (s.modMe f).switched = s.switched := rfl

@[simp] theorem State.sent_modMe (s : State) (f : Task → Task) : (s.modMe f).sent = s.sent := rfl

@[simp] theorem State.outbound_modMe (s : State) (f : Task → Task) : (s.modMe f).outbound = s.outbound := rfl

@[simp] theorem State.hwm_modMe (s : State) (f : Task → Task) : (s.modMe f).hwm = s.hwm := rfl

@[simp] theorem State.fatal_modMe (s : State) (f : Task → Task) : (s.modMe f).fatal = s.fatal := rfl

@[simp] theorem State.die_modMe (s : State) (f : Task → Task) (k : Nat) : (s.modMe f).die k = s.die k := rfl

@[simp] theorem State.powered_modHere (s : State) (f : Core → Core) : (s.modHere f).powered = s.powered := rfl

@[simp] theorem State.module_modHere (s : State) (f : Core → Core) : (s.modHere f).module = s.module := rfl

@[simp] theorem State.jobid_modHere (s : State) (f : Core → Core) : (s.modHere f).jobid = s.jobid := rfl

@[simp] theorem State.cycle_modHere (s : State) (f : Core → Core) : (s.modHere f).cycle = s.cycle := rfl

@[simp] theorem State.cur_modHere (s : State) (f : Core → Core) : (s.modHere f).cur = s.cur := rfl

@[simp] theorem State.agenda_modHere (s : State) (f : Core → Core) : (s.modHere f).agenda = s.agenda := rfl

@[simp] theorem State.freeCtr_modHere (s : State) (f : Core → Core) : (s.modHere f).freeCtr = s.freeCtr := rfl

@[simp] theorem State.mem_modHere (s : State) (f : Core → Core) : (s.modHere f).mem = s.mem := rfl

@[simp] theorem State.lines_modHere (s : State) (f : Core → Core) : (s.modHere f).lines = s.lines := rfl

@[simp] theorem State.gens_modHere (s : State) (f : Core → Core) : (s.modHere f).gens = s.gens := rfl

@[simp] theorem State.dies_modHere (s : State) (f : Core → Core) : (s.modHere f).dies = s.dies := rfl

@[simp] theorem State.images_modHere (s : State) (f : Core → Core) : (s.modHere f).images = s.images := rfl

@[simp] theorem State.launches_modHere (s : State) (f : Core → Core) : (s.modHere f).launches = s.launches := rfl

@[simp] theorem State.pointer_modHere (s : State) (f : Core → Core) : (s.modHere f).pointer = s.pointer := rfl

@[simp] theorem State.keys_modHere (s : State) (f : Core → Core) : (s.modHere f).keys = s.keys := rfl

@[simp] theorem State.oldKeys_modHere (s : State) (f : Core → Core) : (s.modHere f).oldKeys = s.oldKeys := rfl

@[simp] theorem State.kept_modHere (s : State) (f : Core → Core) : (s.modHere f).kept = s.kept := rfl

@[simp] theorem State.attest_modHere (s : State) (f : Core → Core) : (s.modHere f).attest = s.attest := rfl

@[simp] theorem State.host_modHere (s : State) (f : Core → Core) : (s.modHere f).host = s.host := rfl

@[simp] theorem State.gang_modHere (s : State) (f : Core → Core) : (s.modHere f).gang = s.gang := rfl

@[simp] theorem State.switched_modHere (s : State) (f : Core → Core) : (s.modHere f).switched = s.switched := rfl

@[simp] theorem State.sent_modHere (s : State) (f : Core → Core) : (s.modHere f).sent = s.sent := rfl

@[simp] theorem State.outbound_modHere (s : State) (f : Core → Core) : (s.modHere f).outbound = s.outbound := rfl

@[simp] theorem State.hwm_modHere (s : State) (f : Core → Core) : (s.modHere f).hwm = s.hwm := rfl

@[simp] theorem State.fatal_modHere (s : State) (f : Core → Core) : (s.modHere f).fatal = s.fatal := rfl

@[simp] theorem State.die_modHere (s : State) (f : Core → Core) (k : Nat) : (s.modHere f).die k = s.die k := rfl

@[simp] theorem State.powered_push (s : State) (n : Nat) (v : PVal) (g : BitVec 6) : (s.push n v g).powered = s.powered := rfl

@[simp] theorem State.module_push (s : State) (n : Nat) (v : PVal) (g : BitVec 6) : (s.push n v g).module = s.module := rfl

@[simp] theorem State.jobid_push (s : State) (n : Nat) (v : PVal) (g : BitVec 6) : (s.push n v g).jobid = s.jobid := rfl

@[simp] theorem State.cycle_push (s : State) (n : Nat) (v : PVal) (g : BitVec 6) : (s.push n v g).cycle = s.cycle := rfl

@[simp] theorem State.cur_push (s : State) (n : Nat) (v : PVal) (g : BitVec 6) : (s.push n v g).cur = s.cur := rfl

@[simp] theorem State.agenda_push (s : State) (n : Nat) (v : PVal) (g : BitVec 6) : (s.push n v g).agenda = s.agenda := rfl

@[simp] theorem State.freeCtr_push (s : State) (n : Nat) (v : PVal) (g : BitVec 6) : (s.push n v g).freeCtr = s.freeCtr := rfl

@[simp] theorem State.mem_push (s : State) (n : Nat) (v : PVal) (g : BitVec 6) : (s.push n v g).mem = s.mem := rfl

@[simp] theorem State.lines_push (s : State) (n : Nat) (v : PVal) (g : BitVec 6) : (s.push n v g).lines = s.lines := rfl

@[simp] theorem State.gens_push (s : State) (n : Nat) (v : PVal) (g : BitVec 6) : (s.push n v g).gens = s.gens := rfl

@[simp] theorem State.dies_push (s : State) (n : Nat) (v : PVal) (g : BitVec 6) : (s.push n v g).dies = s.dies := rfl

@[simp] theorem State.images_push (s : State) (n : Nat) (v : PVal) (g : BitVec 6) : (s.push n v g).images = s.images := rfl

@[simp] theorem State.launches_push (s : State) (n : Nat) (v : PVal) (g : BitVec 6) : (s.push n v g).launches = s.launches := rfl

@[simp] theorem State.pointer_push (s : State) (n : Nat) (v : PVal) (g : BitVec 6) : (s.push n v g).pointer = s.pointer := rfl

@[simp] theorem State.keys_push (s : State) (n : Nat) (v : PVal) (g : BitVec 6) : (s.push n v g).keys = s.keys := rfl

@[simp] theorem State.oldKeys_push (s : State) (n : Nat) (v : PVal) (g : BitVec 6) : (s.push n v g).oldKeys = s.oldKeys := rfl

@[simp] theorem State.kept_push (s : State) (n : Nat) (v : PVal) (g : BitVec 6) : (s.push n v g).kept = s.kept := rfl

@[simp] theorem State.attest_push (s : State) (n : Nat) (v : PVal) (g : BitVec 6) : (s.push n v g).attest = s.attest := rfl

@[simp] theorem State.host_push (s : State) (n : Nat) (v : PVal) (g : BitVec 6) : (s.push n v g).host = s.host := rfl

@[simp] theorem State.gang_push (s : State) (n : Nat) (v : PVal) (g : BitVec 6) : (s.push n v g).gang = s.gang := rfl

@[simp] theorem State.switched_push (s : State) (n : Nat) (v : PVal) (g : BitVec 6) : (s.push n v g).switched = s.switched := rfl

@[simp] theorem State.sent_push (s : State) (n : Nat) (v : PVal) (g : BitVec 6) : (s.push n v g).sent = s.sent := rfl

@[simp] theorem State.outbound_push (s : State) (n : Nat) (v : PVal) (g : BitVec 6) : (s.push n v g).outbound = s.outbound := rfl

@[simp] theorem State.hwm_push (s : State) (n : Nat) (v : PVal) (g : BitVec 6) : (s.push n v g).hwm = s.hwm := rfl

@[simp] theorem State.fatal_push (s : State) (n : Nat) (v : PVal) (g : BitVec 6) : (s.push n v g).fatal = s.fatal := rfl

@[simp] theorem State.die_push (s : State) (n : Nat) (v : PVal) (g : BitVec 6) (k : Nat) : (s.push n v g).die k = s.die k := rfl

@[simp] theorem State.powered_modDie (s : State) (d : Nat) (f : Die → Die) : (s.modDie d f).powered = s.powered := rfl

@[simp] theorem State.module_modDie (s : State) (d : Nat) (f : Die → Die) : (s.modDie d f).module = s.module := rfl

@[simp] theorem State.jobid_modDie (s : State) (d : Nat) (f : Die → Die) : (s.modDie d f).jobid = s.jobid := rfl

@[simp] theorem State.cycle_modDie (s : State) (d : Nat) (f : Die → Die) : (s.modDie d f).cycle = s.cycle := rfl

@[simp] theorem State.cur_modDie (s : State) (d : Nat) (f : Die → Die) : (s.modDie d f).cur = s.cur := rfl

@[simp] theorem State.agenda_modDie (s : State) (d : Nat) (f : Die → Die) : (s.modDie d f).agenda = s.agenda := rfl

@[simp] theorem State.freeCtr_modDie (s : State) (d : Nat) (f : Die → Die) : (s.modDie d f).freeCtr = s.freeCtr := rfl

@[simp] theorem State.mem_modDie (s : State) (d : Nat) (f : Die → Die) : (s.modDie d f).mem = s.mem := rfl

@[simp] theorem State.lines_modDie (s : State) (d : Nat) (f : Die → Die) : (s.modDie d f).lines = s.lines := rfl

@[simp] theorem State.gens_modDie (s : State) (d : Nat) (f : Die → Die) : (s.modDie d f).gens = s.gens := rfl

@[simp] theorem State.cores_modDie (s : State) (d : Nat) (f : Die → Die) : (s.modDie d f).cores = s.cores := rfl

@[simp] theorem State.images_modDie (s : State) (d : Nat) (f : Die → Die) : (s.modDie d f).images = s.images := rfl

@[simp] theorem State.launches_modDie (s : State) (d : Nat) (f : Die → Die) : (s.modDie d f).launches = s.launches := rfl

@[simp] theorem State.pointer_modDie (s : State) (d : Nat) (f : Die → Die) : (s.modDie d f).pointer = s.pointer := rfl

@[simp] theorem State.keys_modDie (s : State) (d : Nat) (f : Die → Die) : (s.modDie d f).keys = s.keys := rfl

@[simp] theorem State.oldKeys_modDie (s : State) (d : Nat) (f : Die → Die) : (s.modDie d f).oldKeys = s.oldKeys := rfl

@[simp] theorem State.kept_modDie (s : State) (d : Nat) (f : Die → Die) : (s.modDie d f).kept = s.kept := rfl

@[simp] theorem State.attest_modDie (s : State) (d : Nat) (f : Die → Die) : (s.modDie d f).attest = s.attest := rfl

@[simp] theorem State.host_modDie (s : State) (d : Nat) (f : Die → Die) : (s.modDie d f).host = s.host := rfl

@[simp] theorem State.gang_modDie (s : State) (d : Nat) (f : Die → Die) : (s.modDie d f).gang = s.gang := rfl

@[simp] theorem State.switched_modDie (s : State) (d : Nat) (f : Die → Die) : (s.modDie d f).switched = s.switched := rfl

@[simp] theorem State.sent_modDie (s : State) (d : Nat) (f : Die → Die) : (s.modDie d f).sent = s.sent := rfl

@[simp] theorem State.outbound_modDie (s : State) (d : Nat) (f : Die → Die) : (s.modDie d f).outbound = s.outbound := rfl

@[simp] theorem State.hwm_modDie (s : State) (d : Nat) (f : Die → Die) : (s.modDie d f).hwm = s.hwm := rfl

@[simp] theorem State.fatal_modDie (s : State) (d : Nat) (f : Die → Die) : (s.modDie d f).fatal = s.fatal := rfl

@[simp] theorem State.core_modDie (s : State) (d : Nat) (f : Die → Die) (k : CoreRef) : (s.modDie d f).core k = s.core k := rfl

@[simp] theorem State.task_modDie (s : State) (d : Nat) (f : Die → Die) (k : TaskRef) : (s.modDie d f).task k = s.task k := rfl

@[simp] theorem State.me_modDie (s : State) (d : Nat) (f : Die → Die) : (s.modDie d f).me = s.me := rfl

@[simp] theorem State.powered_modLodge (s : State) (d : Nat) (f : LodgeRegs → LodgeRegs) : (s.modLodge d f).powered = s.powered := rfl

@[simp] theorem State.module_modLodge (s : State) (d : Nat) (f : LodgeRegs → LodgeRegs) : (s.modLodge d f).module = s.module := rfl

@[simp] theorem State.jobid_modLodge (s : State) (d : Nat) (f : LodgeRegs → LodgeRegs) : (s.modLodge d f).jobid = s.jobid := rfl

@[simp] theorem State.cycle_modLodge (s : State) (d : Nat) (f : LodgeRegs → LodgeRegs) : (s.modLodge d f).cycle = s.cycle := rfl

@[simp] theorem State.cur_modLodge (s : State) (d : Nat) (f : LodgeRegs → LodgeRegs) : (s.modLodge d f).cur = s.cur := rfl

@[simp] theorem State.agenda_modLodge (s : State) (d : Nat) (f : LodgeRegs → LodgeRegs) : (s.modLodge d f).agenda = s.agenda := rfl

@[simp] theorem State.freeCtr_modLodge (s : State) (d : Nat) (f : LodgeRegs → LodgeRegs) : (s.modLodge d f).freeCtr = s.freeCtr := rfl

@[simp] theorem State.mem_modLodge (s : State) (d : Nat) (f : LodgeRegs → LodgeRegs) : (s.modLodge d f).mem = s.mem := rfl

@[simp] theorem State.lines_modLodge (s : State) (d : Nat) (f : LodgeRegs → LodgeRegs) : (s.modLodge d f).lines = s.lines := rfl

@[simp] theorem State.gens_modLodge (s : State) (d : Nat) (f : LodgeRegs → LodgeRegs) : (s.modLodge d f).gens = s.gens := rfl

@[simp] theorem State.cores_modLodge (s : State) (d : Nat) (f : LodgeRegs → LodgeRegs) : (s.modLodge d f).cores = s.cores := rfl

@[simp] theorem State.images_modLodge (s : State) (d : Nat) (f : LodgeRegs → LodgeRegs) : (s.modLodge d f).images = s.images := rfl

@[simp] theorem State.launches_modLodge (s : State) (d : Nat) (f : LodgeRegs → LodgeRegs) : (s.modLodge d f).launches = s.launches := rfl

@[simp] theorem State.pointer_modLodge (s : State) (d : Nat) (f : LodgeRegs → LodgeRegs) : (s.modLodge d f).pointer = s.pointer := rfl

@[simp] theorem State.keys_modLodge (s : State) (d : Nat) (f : LodgeRegs → LodgeRegs) : (s.modLodge d f).keys = s.keys := rfl

@[simp] theorem State.oldKeys_modLodge (s : State) (d : Nat) (f : LodgeRegs → LodgeRegs) : (s.modLodge d f).oldKeys = s.oldKeys := rfl

@[simp] theorem State.kept_modLodge (s : State) (d : Nat) (f : LodgeRegs → LodgeRegs) : (s.modLodge d f).kept = s.kept := rfl

@[simp] theorem State.attest_modLodge (s : State) (d : Nat) (f : LodgeRegs → LodgeRegs) : (s.modLodge d f).attest = s.attest := rfl

@[simp] theorem State.host_modLodge (s : State) (d : Nat) (f : LodgeRegs → LodgeRegs) : (s.modLodge d f).host = s.host := rfl

@[simp] theorem State.gang_modLodge (s : State) (d : Nat) (f : LodgeRegs → LodgeRegs) : (s.modLodge d f).gang = s.gang := rfl

@[simp] theorem State.switched_modLodge (s : State) (d : Nat) (f : LodgeRegs → LodgeRegs) : (s.modLodge d f).switched = s.switched := rfl

@[simp] theorem State.sent_modLodge (s : State) (d : Nat) (f : LodgeRegs → LodgeRegs) : (s.modLodge d f).sent = s.sent := rfl

@[simp] theorem State.outbound_modLodge (s : State) (d : Nat) (f : LodgeRegs → LodgeRegs) : (s.modLodge d f).outbound = s.outbound := rfl

@[simp] theorem State.hwm_modLodge (s : State) (d : Nat) (f : LodgeRegs → LodgeRegs) : (s.modLodge d f).hwm = s.hwm := rfl

@[simp] theorem State.fatal_modLodge (s : State) (d : Nat) (f : LodgeRegs → LodgeRegs) : (s.modLodge d f).fatal = s.fatal := rfl

@[simp] theorem State.core_modLodge (s : State) (d : Nat) (f : LodgeRegs → LodgeRegs) (k : CoreRef) : (s.modLodge d f).core k = s.core k := rfl

@[simp] theorem State.task_modLodge (s : State) (d : Nat) (f : LodgeRegs → LodgeRegs) (k : TaskRef) : (s.modLodge d f).task k = s.task k := rfl

@[simp] theorem State.me_modLodge (s : State) (d : Nat) (f : LodgeRegs → LodgeRegs) : (s.modLodge d f).me = s.me := rfl

@[simp] theorem State.powered_post (s : State) (d : Nat) (e : EventRec) : (s.post d e).powered = s.powered := rfl

@[simp] theorem State.module_post (s : State) (d : Nat) (e : EventRec) : (s.post d e).module = s.module := rfl

@[simp] theorem State.jobid_post (s : State) (d : Nat) (e : EventRec) : (s.post d e).jobid = s.jobid := rfl

@[simp] theorem State.cycle_post (s : State) (d : Nat) (e : EventRec) : (s.post d e).cycle = s.cycle := rfl

@[simp] theorem State.cur_post (s : State) (d : Nat) (e : EventRec) : (s.post d e).cur = s.cur := rfl

@[simp] theorem State.agenda_post (s : State) (d : Nat) (e : EventRec) : (s.post d e).agenda = s.agenda := rfl

@[simp] theorem State.freeCtr_post (s : State) (d : Nat) (e : EventRec) : (s.post d e).freeCtr = s.freeCtr := rfl

@[simp] theorem State.mem_post (s : State) (d : Nat) (e : EventRec) : (s.post d e).mem = s.mem := rfl

@[simp] theorem State.lines_post (s : State) (d : Nat) (e : EventRec) : (s.post d e).lines = s.lines := rfl

@[simp] theorem State.gens_post (s : State) (d : Nat) (e : EventRec) : (s.post d e).gens = s.gens := rfl

@[simp] theorem State.cores_post (s : State) (d : Nat) (e : EventRec) : (s.post d e).cores = s.cores := rfl

@[simp] theorem State.images_post (s : State) (d : Nat) (e : EventRec) : (s.post d e).images = s.images := rfl

@[simp] theorem State.launches_post (s : State) (d : Nat) (e : EventRec) : (s.post d e).launches = s.launches := rfl

@[simp] theorem State.pointer_post (s : State) (d : Nat) (e : EventRec) : (s.post d e).pointer = s.pointer := rfl

@[simp] theorem State.keys_post (s : State) (d : Nat) (e : EventRec) : (s.post d e).keys = s.keys := rfl

@[simp] theorem State.oldKeys_post (s : State) (d : Nat) (e : EventRec) : (s.post d e).oldKeys = s.oldKeys := rfl

@[simp] theorem State.kept_post (s : State) (d : Nat) (e : EventRec) : (s.post d e).kept = s.kept := rfl

@[simp] theorem State.attest_post (s : State) (d : Nat) (e : EventRec) : (s.post d e).attest = s.attest := rfl

@[simp] theorem State.host_post (s : State) (d : Nat) (e : EventRec) : (s.post d e).host = s.host := rfl

@[simp] theorem State.gang_post (s : State) (d : Nat) (e : EventRec) : (s.post d e).gang = s.gang := rfl

@[simp] theorem State.switched_post (s : State) (d : Nat) (e : EventRec) : (s.post d e).switched = s.switched := rfl

@[simp] theorem State.sent_post (s : State) (d : Nat) (e : EventRec) : (s.post d e).sent = s.sent := rfl

@[simp] theorem State.outbound_post (s : State) (d : Nat) (e : EventRec) : (s.post d e).outbound = s.outbound := rfl

@[simp] theorem State.hwm_post (s : State) (d : Nat) (e : EventRec) : (s.post d e).hwm = s.hwm := rfl

@[simp] theorem State.fatal_post (s : State) (d : Nat) (e : EventRec) : (s.post d e).fatal = s.fatal := rfl

@[simp] theorem State.core_post (s : State) (d : Nat) (e : EventRec) (k : CoreRef) : (s.post d e).core k = s.core k := rfl

@[simp] theorem State.task_post (s : State) (d : Nat) (e : EventRec) (k : TaskRef) : (s.post d e).task k = s.task k := rfl

@[simp] theorem State.me_post (s : State) (d : Nat) (e : EventRec) : (s.post d e).me = s.me := rfl


/-! ### The place just written -/

@[simp] theorem State.core_setCore (s : State) (c : CoreRef) (x : Core) : (s.setCore c x).core c = x :=
  Tbl.get_set_same ..

@[simp] theorem State.core_modCore (s : State) (c : CoreRef) (f : Core → Core) : (s.modCore c f).core c = f (s.core c) :=
  Tbl.get_set_same ..

theorem State.core_setCore_other (s : State) {c k : CoreRef} (x : Core) (h : CoreRef.key k ≠ CoreRef.key c) :
    (s.setCore c x).core k = s.core k := Tbl.get_set_other _ _ _ h

theorem State.core_modCore_other (s : State) {c k : CoreRef} (f : Core → Core) (h : CoreRef.key k ≠ CoreRef.key c) :
    (s.modCore c f).core k = s.core k := Tbl.get_set_other _ _ _ h

@[simp] theorem State.task_setTask (s : State) (r : TaskRef) (t : Task) : (s.setTask r t).task r = t := by
  simp [State.task, State.task?, State.setTask, State.putTask]

@[simp] theorem State.task_modTask (s : State) (r : TaskRef) (f : Task → Task) : (s.modTask r f).task r = f (s.task r) :=
  State.task_setTask ..

@[simp] theorem State.me_modMe (s : State) (f : Task → Task) : (s.modMe f).me = f s.me := State.task_modTask ..

@[simp] theorem State.me_push (s : State) (n : Nat) (v : PVal) (g : BitVec 6) : (s.push n v g).me = s.me.push n v g :=
  State.me_modMe ..

@[simp] theorem State.die_modDie (s : State) (d : Nat) (f : Die → Die) : (s.modDie d f).die d = f (s.die d) :=
  Tbl.get_set_same ..

theorem State.die_modDie_other (s : State) {d k : Nat} (f : Die → Die) (h : k ≠ d) : (s.modDie d f).die k = s.die k :=
  Tbl.get_set_other _ _ _ h

@[simp] theorem State.lodge_modLodge (s : State) (d : Nat) (f : LodgeRegs → LodgeRegs) :
    ((s.modLodge d f).die d).lodge = f (s.die d).lodge := by simp [State.modLodge]

/-- A task changed leaves the rest of its core. -/
theorem State.core_modTask (s : State) (r : TaskRef) (f : Task → Task) :
    (s.modTask r f).core r.coreRef =
      { s.core r.coreRef with tasks := Tbl.set none (s.core r.coreRef).tasks r.slot (some (f (s.task r))) } := by
  simp [State.modTask, State.setTask, State.putTask]

/-- A task changed leaves every other slot of its core. -/
theorem State.task_modTask_slot (s : State) (r q : TaskRef) (f : Task → Task) (h : q.coreRef = r.coreRef)
    (hs : q.slot ≠ r.slot) : (s.modTask r f).task q = s.task q := by
  unfold State.task State.task?
  rw [h, State.core_modTask]
  simp [Tbl.get_set_other _ _ _ hs]

/-! ### Scalar registers -/

@[simp] theorem Task.sreg_zero (t : Task) : t.sreg 0 = 0 := rfl

@[simp] theorem Task.sreg_setSreg_same (t : Task) {d : Nat} (v : W64) (h : d ≠ 0) : (t.setSreg d v).sreg d = v := by
  simp [Task.sreg, Task.setSreg, h]

theorem Task.sreg_setSreg_other (t : Task) {d r : Nat} (v : W64) (h : r ≠ d) : (t.setSreg d v).sreg r = t.sreg r := by
  unfold Task.sreg Task.setSreg
  by_cases hd : d = 0
  · simp [hd]
  · simp [hd, Tbl.get_set_other _ _ _ h]

/-- Writing s0 changes nothing (R87). -/
@[simp] theorem Task.setSreg_zero (t : Task) (v : W64) : t.setSreg 0 v = t := rfl

/-- A scalar written reads as written; s0 reads zero (R87). -/
theorem Task.sreg_setSreg (t : Task) (d r : Nat) (v : W64) :
    (t.setSreg d v).sreg r = if r = d ∧ d ≠ 0 then v else t.sreg r := by
  by_cases h : r = d
  · subst h
    by_cases hd : r = 0
    · simp [hd]
    · simp [hd]
  · simp [h, Task.sreg_setSreg_other _ _ h]

end Sys2Proof.Machine
end

