-- ==== Sys2Proof/Laws/Issue.lean ====
section
/-!
SUPPORT. What the issue of a bundle of one slot can do: the state after a ready slot, and, for a slot whose effect is to
queue results in its own task, the whole of the next state.
-/

namespace Sys2Proof

open Machine

/-! ### OnlyTask -/

theorem Frame.refl (mc : Core → Core) (ms : State → State) (s : State) : Frame mc ms s s :=
  ⟨fun _ _ => rfl, fun _ _ => rfl, rfl, rfl⟩

theorem OnlyTask.refl (s : State) : OnlyTask s s := Frame.refl ..

theorem OnlyTask.cur {s t : State} (h : OnlyTask s t) : t.cur = s.cur := by
  have := congrArg State.cur h.rest
  exact this

theorem OnlyTask.trans {s t u : State} (h : OnlyTask s t) (k : OnlyTask t u) : OnlyTask s u := by
  have hc := h.cur
  refine ⟨fun n hn => ?_, fun c hcne => ?_, ?_, k.rest.trans h.rest⟩
  · have := k.slots n (by rw [hc]; exact hn)
    rw [hc] at this
    exact this.trans (h.slots n hn)
  · exact (k.others c (by rw [hc]; exact hcne)).trans (h.others c hcne)
  · have := k.core
    rw [hc] at this
    exact this.trans h.core

/-- A change of the issuing task leaves everything else. -/
theorem OnlyTask.modTask (s : State) (f : Task → Task) : OnlyTask s (s.modTask s.cur f) := by
  refine ⟨fun k hk => ?_, fun c hc => ?_, ?_, rfl⟩
  · show ((s.modTask s.cur f).core s.cur.coreRef).tasks.get none k = (s.core s.cur.coreRef).tasks.get none k
    rw [State.core_modTask]
    exact Tbl.get_set_other (none : Option Task) (some (f (s.task s.cur))) (s.core s.cur.coreRef).tasks hk
  · exact State.core_setCore_other _ _ hc
  · rw [State.core_modTask]
    rfl

/-- A change of the core's regions, reruns and F unit leaves everything else. -/
theorem OnlyTask.modCore (s : State) (f : Core → Core)
    (h : ∀ c, (f c).tasks = c.tasks ∧ coreBeside (f c) = coreBeside c) :
    OnlyTask s (s.modCore s.cur.coreRef f) := by
  refine ⟨fun k _ => ?_, fun c hc => ?_, ?_, rfl⟩
  · show ((s.modCore s.cur.coreRef f).core s.cur.coreRef).tasks.get none k = (s.core s.cur.coreRef).tasks.get none k
    rw [State.core_modCore, (h _).1]
  · exact State.core_modCore_other _ _ hc
  · rw [State.core_modCore]; exact (h _).2

theorem task_modCore_tasks (s : State) (r : TaskRef) (f : Core → Core) (h : ∀ c, (f c).tasks = c.tasks) :
    (s.modCore r.coreRef f).task r = s.task r := by
  unfold State.task State.task?
  rw [State.core_modCore, h]

theorem task_modHere_tasks (u s : State) (hu : u.cur = s.cur) (f : Core → Core) (h : ∀ c, (f c).tasks = c.tasks) :
    (u.modHere f).task s.cur = u.task s.cur := by
  unfold State.modHere
  rw [hu]
  exact task_modCore_tasks u s.cur f h

/-! ### The boundary -/

theorem countRegion_tasks (n : Nat) (c : Core) : (c.countRegion n).tasks = c.tasks := by
  unfold Core.countRegion
  dsimp only
  cases c.regions.get none n <;> (dsimp only; cases c.rerun <;> dsimp only; try split) <;> rfl

theorem countRegion_rest (n : Nat) (c : Core) :
    coreBeside (c.countRegion n) = coreBeside c := by
  unfold Core.countRegion coreBeside
  dsimp only
  cases c.regions.get none n <;> (dsimp only; cases c.rerun <;> dsimp only; try split) <;> rfl

theorem landOne_task (s : State) (r : TaskRef) (p : Pending) (hv : ∀ a b c, p.val ≠ .vec a b c)
    (hs : ∀ n v, p.val = .special n v → n < 0x800) :
    (State.landOne r s p).task r = landIn (isLodge r.core) (s.task r) p := by
  obtain ⟨v, n, f⟩ := p
  cases v <;> simp only [State.landOne, State.landVal, landIn, State.task_modTask]
  · exact absurd rfl (hv _ _ _)
  · rename_i num x
    have : num < 0x800 := hs _ _ rfl
    rw [if_neg (by omega), State.task_modTask]

theorem landOne_only (s : State) (p : Pending) (hv : ∀ a b c, p.val ≠ .vec a b c)
    (hs : ∀ n v, p.val = .special n v → n < 0x800) : OnlyTask s (State.landOne s.cur s p) := by
  have key : ∀ u : State, OnlyTask s u → OnlyTask s (u.modTask s.cur fun t => t.orFlags p.flags) := fun u hu =>
    hu.trans (by rw [← hu.cur]; exact OnlyTask.modTask ..)
  apply key
  obtain ⟨v, n, f⟩ := p
  cases v <;> simp only [State.landVal]
  case vec => exact absurd rfl (hv _ _ _)
  case special num x =>
    have : num < 0x800 := hs _ _ rfl
    rw [if_neg (by omega)]
    exact OnlyTask.modTask ..
  all_goals first | exact OnlyTask.modTask .. | exact OnlyTask.refl _

/-- Whether a result that becomes visible at once goes to the task's own registers. -/
def Own (p : Pending) : Prop := p.left = 1 → (∀ a b c, p.val ≠ .vec a b c) ∧ ∀ n v, p.val = .special n v → n < 0x800

theorem land_all (l : List Pending) (s : State) (r : TaskRef) (hr : r = s.cur)
    (h : ∀ p ∈ l, (∀ a b c, p.val ≠ .vec a b c) ∧ ∀ n v, p.val = .special n v → n < 0x800) :
    (l.foldl (State.landOne r) s).task r = l.foldl (landIn (isLodge r.core)) (s.task r) ∧
      OnlyTask s (l.foldl (State.landOne r) s) := by
  subst hr
  induction l generalizing s with
  | nil => exact ⟨rfl, OnlyTask.refl s⟩
  | cons p l ih =>
    have hp := h p List.mem_cons_self
    have o := landOne_only s p hp.1 hp.2
    have e := landOne_task s s.cur p hp.1 hp.2
    have := ih (State.landOne s.cur s p) (fun q hq => h q (List.mem_cons_of_mem _ hq))
    rw [o.cur] at this
    refine ⟨?_, o.trans this.2⟩
    rw [List.foldl_cons, List.foldl_cons, this.1, e]

theorem landIn_preempt (lodge : Bool) (t : Task) (p : Pending) : (landIn lodge t p).preempt = t.preempt := by
  obtain ⟨v, n, f⟩ := p
  cases v <;> simp only [landIn, Task.orFlags]
  case scalar => unfold Task.setSreg; split <;> rfl
  case pred => unfold Task.setPred; split <;> rfl
  case lanes => unfold Task.setLanes; split <;> rfl
  case special =>
    unfold Task.writeSpecial Task.writeLoop Task.modLevel
    repeat' (first | rfl | split | (dsimp only; split))

theorem landAll_preempt (lodge : Bool) (l : List Pending) (t : Task) :
    (l.foldl (landIn lodge) t).preempt = t.preempt := by
  induction l generalizing t with
  | nil => rfl
  | cons p l ih => rw [List.foldl_cons, ih, landIn_preempt]

theorem popTaken_preempt (q0 q1 : Bool) (t : Task) : (popTaken q0 q1 t).preempt = t.preempt := by
  cases q0 <;> cases q1 <;> rfl

theorem popTaken_pend (q0 q1 : Bool) (t : Task) (l : List Pending) :
    { popTaken q0 q1 t with pend := l } = popTaken q0 q1 { t with pend := l } := by
  cases q0 <;> cases q1 <;> rfl

theorem pend_popTaken (q0 q1 : Bool) (t : Task) : (popTaken q0 q1 t).pend = t.pend := by
  cases q0 <;> cases q1 <;> rfl

/-- The landing of a bundle at a boundary where nothing earlier is due: its results of latency 1 become visible. -/
theorem land_new (s : State) (old l : List Pending) (hp : (s.task s.cur).pend = old ++ l) (ho : ∀ p ∈ old, 2 ≤ p.left)
    (hl : ∀ p ∈ l, 1 ≤ p.left ∧ Own p) :
    (s.land s.cur).task s.cur =
        delivered (isLodge s.cur.core) l { s.task s.cur with pend := old.map fun p => { p with left := p.left - 1 } } ∧
      OnlyTask s (s.land s.cur) := by
  have e1 : ((old ++ l).map fun p : Pending => { p with left := p.left - 1 }).filter (fun p => decide (p.left ≠ 0)) =
      (old.map fun p => { p with left := p.left - 1 }) ++
        (l.filter fun p => !decide (p.left = 1)).map fun p => { p with left := p.left - 1 } := by
    rw [List.map_append, List.filter_append]
    congr 1
    · rw [List.filter_eq_self]
      intro p hp
      obtain ⟨q, hq, rfl⟩ := List.mem_map.1 hp
      have := ho q hq
      simp only [decide_eq_true_eq]
      omega
    · rw [List.filter_map]
      congr 1
      apply List.filter_congr
      intro p hp
      have := (hl p hp).1
      simp only [Function.comp_apply]
      by_cases h : p.left = 1 <;> simp [h]
      omega
  have e2 : ((old ++ l).map fun p : Pending => { p with left := p.left - 1 }).filter (fun p => decide (p.left = 0)) =
      (l.filter fun p => decide (p.left = 1)).map fun p => { p with left := p.left - 1 } := by
    rw [List.map_append, List.filter_append, List.filter_map, List.filter_map]
    have : old.filter ((fun p : Pending => decide (p.left = 0)) ∘ fun p => { p with left := p.left - 1 }) = [] := by
      rw [List.filter_eq_nil_iff]
      intro p hp
      have := ho p hp
      simp only [Function.comp_apply, decide_eq_true_eq]
      omega
    rw [this, List.map_nil, List.nil_append]
    congr 1
    apply List.filter_congr
    intro p hp
    have := (hl p hp).1
    simp only [Function.comp_apply]
    by_cases h : p.left = 1 <;> simp [h]
    omega
  have e3 : ∀ (b : Bool) (k : List Pending) (t : Task),
      (k.map fun p : Pending => { p with left := p.left - 1 }).foldl (landIn b) t = k.foldl (landIn b) t := by
    intro b k
    induction k with
    | nil => intro t; rfl
    | cons p k ih => intro t; exact ih _
  have := land_all ((l.filter fun p => decide (p.left = 1)).map fun p => { p with left := p.left - 1 })
    (s.modTask s.cur fun t => { t with pend := ((s.task s.cur).pend.map fun p => { p with left := p.left - 1 }).filter (fun p => decide (p.left ≠ 0)) }) s.cur rfl (by
        intro p hp
        obtain ⟨q, hq, rfl⟩ := List.mem_map.1 hp
        have hq := List.mem_filter.1 hq
        exact (hl q hq.1).2 (of_decide_eq_true hq.2))
  unfold State.land
  simp only [hp] at this ⊢
  rw [e2, e1] at *
  refine ⟨?_, (OnlyTask.modTask ..).trans this.2⟩
  rw [this.1, State.task_modTask, e3]
  rfl

theorem closed_quiet (t : Task) (h : ∀ l ∈ t.loops.head?, l.le ≠ t.pc) : t.closed = (t, none) := by
  have : closeLoops t.pc t.loops 0 = (t.loops, 0, none) := by
    cases e : t.loops with
    | nil => rfl
    | cons l r =>
      rw [e] at h
      unfold closeLoops
      rw [if_pos (h l rfl)]
  unfold Task.closed
  rw [this]
  simp

/-- The boundary of a bundle whose slots change its task alone, to `t1`, and queue results behind those in flight. -/
theorem advance_quiet (s0 s : State) (q0 q1 : Bool) (l : List Pending) (t1 : Task) (hc : s.cur = s0.cur)
    (due : ∀ p ∈ t1.pend, 2 ≤ p.left) (ctl : t1.ctl = .none) (loops : ∀ k ∈ t1.loops.head?, k.le ≠ t1.pc)
    (delay : (s0.task s0.cur).delay = 0) (warn : t1.bwarn = 0) (bar : (s0.task s0.cur).barLeft = 0)
    (pre : t1.preempt = false) (hs : s.task s.cur = { t1 with pend := t1.pend ++ l })
    (hl : ∀ p ∈ l, 1 ≤ p.left ∧ Own p) :
    (State.advance s0 s 1 q0 q1).task s.cur =
        delivered (isLodge s.cur.core) l (popTaken q0 q1
          { t1 with
            budget := if isLodge s.cur.core then t1.budget else chargedBudget t1.budget
            bcnt := t1.bcnt + 1
            pc := t1.pc + 1
            delay := 0
            target := 0
            pend := t1.pend.map fun p => { p with left := p.left - 1 } }) ∧
      OnlyTask s (State.advance s0 s 1 q0 q1) := by
  generalize ht : s0.task s0.cur = t0 at *
  have hcharge : s.charge s.cur = s.modTask s.cur fun t =>
      { t with budget := if isLodge s.cur.core then t1.budget else chargedBudget t1.budget, bcnt := t.bcnt + 1 } := by
    unfold State.charge
    simp only [hs, warn, ne_eq, not_true_eq_false, decide_false, Bool.and_false, Bool.false_and, Bool.false_eq_true,
      if_false]
  have hlc := closed_quiet { t1 with
    budget := if isLodge s.cur.core then t1.budget else chargedBudget t1.budget, bcnt := t1.bcnt + 1,
    pend := t1.pend ++ l } loops
  unfold State.advance
  have hd : delayAfter t0 { t1 with
    budget := if isLodge s.cur.core then t1.budget else chargedBudget t1.budget, bcnt := t1.bcnt + 1,
    pend := t1.pend ++ l } = 0 := by
    unfold delayAfter
    simp [ctl, delay]
  have ht' : s0.task s.cur = t0 := by rw [hc]; exact ht
  simp only [hcharge, State.task_modTask, hs, ht', hlc, hd, if_true]
  have hpc : (s.modTask s.cur fun t => { t with
      budget := if isLodge s.cur.core then t1.budget else chargedBudget t1.budget, bcnt := t.bcnt + 1 }).nextPc t0
      { t1 with budget := if isLodge s.cur.core then t1.budget else chargedBudget t1.budget, bcnt := t1.bcnt + 1,
                pend := t1.pend ++ l } none 1 = t1.pc + 1 := by
    unfold State.nextPc
    simp only [delay, ctl]
    rfl
  rw [hpc]
  generalize hu : State.setTask (s.modTask s.cur fun t => { t with
      budget := if isLodge s.cur.core then t1.budget else chargedBudget t1.budget, bcnt := t.bcnt + 1 }) s.cur
      (popTaken q0 q1 _) = u
  have hcu : u.cur = s.cur := by rw [← hu]; rfl
  have ho : OnlyTask s u := by
    rw [← hu]
    exact (OnlyTask.modTask s _).trans (OnlyTask.modTask _ fun _ => _)
  have htu : u.task u.cur = popTaken q0 q1 { t1 with
      budget := if isLodge s.cur.core then t1.budget else chargedBudget t1.budget, bcnt := t1.bcnt + 1,
      pend := t1.pend ++ l, pc := t1.pc + 1, delay := 0, target := 0 } := by
    rw [hcu, ← hu, State.task_setTask, ← ctl]
  have hland := land_new u t1.pend l (by rw [htu, pend_popTaken]) due hl
  rw [hcu] at hland
  have hpre : ((u.land s.cur).task s.cur).preempt = false := by
    rw [hland.1]
    unfold delivered
    rw [landAll_preempt]
    show (u.task s.cur).preempt = false
    rw [← hcu, htu, popTaken_preempt]
    exact pre
  have hcb : (u.land s.cur).countBar s.cur t0.barLeft = u.land s.cur := by
    unfold State.countBar
    rw [if_pos bar]
  have hcr := task_modCore_tasks (u.land s.cur) s.cur (Core.countRegion s.cur.slot) (countRegion_tasks _)
  have hco : OnlyTask (u.land s.cur) ((u.land s.cur).modCore s.cur.coreRef (Core.countRegion s.cur.slot)) := by
    have e : (u.land s.cur).cur = s.cur := by rw [hland.2.cur, hcu]
    have := OnlyTask.modCore (u.land s.cur) (Core.countRegion s.cur.slot)
      fun c => ⟨countRegion_tasks _ c, countRegion_rest _ c⟩
    rw [e] at this
    exact this
  rw [hcb, ctl]
  simp only [State.boundary]
  unfold State.preemptAt
  rw [hcr, hpre]
  simp only [Bool.false_and, Bool.false_eq_true, if_false]
  refine ⟨?_, (ho.trans hland.2).trans hco⟩
  rw [hcr, hland.1, hcu.symm, htu, popTaken_pend, hcu]
  congr 3

/-! ### A slot that is ready -/

theorem atIssue_opened (m : SlotSem) (s : State) (h : m.mark = false) : s.atIssue [(0, m)] = opened s := by
  unfold State.atIssue opened
  simp [h]

theorem me_opened (s : State) : (opened s).me = { s.me with time := s.me.time + 1 } := State.me_modMe ..

/-! What a slot reads in the opened bundle is what stood before it, the task's time apart. -/

@[simp] theorem sreg_opened (s : State) (r : BitVec 5) : (opened s).sreg r = s.sreg r := by
  unfold State.sreg
  rw [me_opened]
  rfl

@[simp] theorem pred_opened (s : State) (p : Nat) : (opened s).me.pred p = s.me.pred p := by
  rw [me_opened]
  rfl

@[simp] theorem qreg_opened (s : State) (q : Nat) : (opened s).me.qreg q = s.me.qreg q := by
  rw [me_opened]
  rfl

@[simp] theorem qpos_opened (s : State) (q : Nat) : (opened s).me.qpos q = s.me.qpos q := by
  rw [me_opened]
  rfl

@[simp] theorem vpos_opened (s : State) (m : Nat) : (opened s).me.vpos m = s.me.vpos m := by
  rw [me_opened]
  rfl

@[simp] theorem guardOn_opened (s : State) (g : Guard) : (opened s).me.guardOn g = s.me.guardOn g := by
  rw [me_opened]
  rfl

@[simp] theorem guardLanes_opened (s : State) (g : Guard) : (opened s).me.guardLanes g = s.me.guardLanes g := by
  rw [me_opened]
  rfl

@[simp] theorem cur_opened (s : State) : (opened s).cur = s.cur := rfl

/-- A vector register reads as before the bundle. -/
@[simp] theorem vreg_opened (s : State) (m : Nat) : (opened s).vreg m = s.vreg m := by
  have h : (opened s).here.vfile = s.here.vfile := by
    show ((s.modTask s.cur _).core s.cur.coreRef).vfile = _
    rw [State.core_modTask]
    rfl
  unfold State.vreg Core.vreg
  rw [h, me_opened]
  rfl

/-- The bundle of a ready slot issues. -/
theorem issueOne_ready {m : SlotSem} {s : State} (h : Ready m s) : issueOne m s = issued m s := by
  have hs := h.may.budget
  have hh := h.may.holds
  have hl : s.atIssue [(0, m)] = s.atIssue [(0, m)] := rfl
  unfold issueOne issueSems
  rw [hs]
  simp only [Bool.false_eq_true, if_false, List.find?_cons, h.legal, List.find?_nil, h.allowed, hh, ne_eq,
    not_true_eq_false, h.flows, List.findSome?_cons, h.calm, List.findSome?_nil]
  unfold issued Attempt.state
  cases e : m.late <;> simp [Slots.inOrder, e]

/-- A ready slot whose effect is to change its own task to `f` of it and to queue results. -/
theorem does_of {i : Instr} {m : SlotSem} {s : State} {f : Task → Task} {l : List Pending} (hx : exec i s = issueSlot m s)
    (r : Ready m s) (q : Quiet s) (hm : m.mark = false) (hu : (m.apply (opened s) (opened s)).cur = s.cur)
    (ho : OnlyTask s (m.apply (opened s) (opened s)))
    (ht : (m.apply (opened s) (opened s)).task s.cur = { f (opened s).me with pend := s.me.pend ++ l })
    (hf : f (opened s).me = { f (opened s).me with
      pend := s.me.pend, ctl := s.me.ctl, bwarn := s.me.bwarn, preempt := s.me.preempt })
    (loops : ∀ k ∈ (f (opened s).me).loops.head?, k.le ≠ (f (opened s).me).pc)
    (hg : f (afterBundle (isLodge s.cur.core) s.me) =
      { f (opened s).me with
        budget := if isLodge s.cur.core then (f (opened s).me).budget else chargedBudget (f (opened s).me).budget
        bcnt := (f (opened s).me).bcnt + 1
        pc := (f (opened s).me).pc + 1
        delay := 0
        target := 0
        pend := s.me.pend.map fun p => { p with left := p.left - 1 } })
    (hl : ∀ p ∈ l, 1 ≤ p.left ∧ Own p) :
    Does i s (m.takes (opened s) 0) (m.takes (opened s) 1) f l := by
  have e : (f (opened s).me).pend = s.me.pend := by rw [hf]
  have := advance_quiet (opened s) (m.apply (opened s) (opened s)) (m.takes (opened s) 0) (m.takes (opened s) 1) l
    (f (opened s).me) hu (by rw [e]; exact q.due) (by rw [hf]; exact q.ctl) loops
    (by show (opened s).me.delay = 0; rw [me_opened]; exact q.delay) (by rw [hf]; exact q.warn)
    (by show (opened s).me.barLeft = 0; rw [me_opened]; exact q.bar) (by rw [hf]; exact q.preempt)
    (by rw [hu, ht, e]) hl
  rw [hu, e] at this
  refine ⟨issued m s, ?_, ?_, ?_⟩
  · rw [hx]
    unfold issueSlot
    rw [issueOne_ready r]
  · unfold issued
    rw [atIssue_opened m s hm]
    exact ho.trans this.2
  · unfold issued
    rw [atIssue_opened m s hm, this.1, hg]

theorem OnlyTask.opened (s : State) : OnlyTask s (opened s) :=
  OnlyTask.modTask s fun t => { t with time := t.time + 1 }

theorem OnlyTask.modMe {s t : State} (h : OnlyTask s t) (f : Task → Task) : OnlyTask s (t.modMe f) :=
  h.trans (OnlyTask.modTask t f)

/-- The F unit of the issuing core set busy. -/
theorem OnlyTask.busy {s t : State} (h : OnlyTask s t) (n : Nat) : OnlyTask s (t.modHere fun c => { c with fBusy := n }) :=
  h.trans (OnlyTask.modCore t _ fun _ => ⟨rfl, rfl⟩)

/-- A slot with no check of its own is ready in a task that may issue. -/
theorem ready_plain {m : SlotSem} {s : State} (h : MayIssue s) (hp : m.place = .any) (hv : m.vsrc = [])
    (hd : m.vdst = none) (hi : m.illegal = fun _ => false) (hw : m.wait = fun _ _ => none)
    (ht : m.trap = fun _ _ => none) (hf : m.funit = false) : Ready m s := by
  have h0 : ∀ u q, m.takes u q = false := by intro u q; simp [SlotSem.takes, hv]
  refine ⟨h, ?_, ?_, ?_, ?_⟩
  · simp [SlotSem.isIllegal, hp, hv, hd, hi]
  · simp [SlotSem.isDenied, hp]
  · simp [stallAll, SlotSem.stall, hf, SlotSem.queueWait, h0, hw]
  · simp [SlotSem.execTrap, SlotSem.queueTrap, h0, ht]

/-- A ready slot that queues results of its own task. -/
theorem does_push {i : Instr} {m : SlotSem} {s : State} {l : List Pending} (hx : exec i s = issueSlot m s)
    (r : Ready m s) (q : Quiet s) (hm : m.mark = false) (ha : m.acts (opened s) = true)
    (he : m.eff (opened s) (opened s) = (opened s).modMe fun t => { t with pend := t.pend ++ l })
    (hl : ∀ p ∈ l, 1 ≤ p.left ∧ Own p) :
    Does i s (m.takes (opened s) 0) (m.takes (opened s) 1) id l := by
  have hap : m.apply (opened s) (opened s) = if m.funit then
      ((opened s).modMe fun t => { t with pend := t.pend ++ l }).modHere fun c => { c with fBusy := 4 }
      else (opened s).modMe fun t => { t with pend := t.pend ++ l } := by
    unfold SlotSem.apply
    rw [if_pos ha, he]
  have hc : (m.apply (opened s) (opened s)).cur = s.cur := by rw [hap]; split <;> rfl
  have ho : OnlyTask s (m.apply (opened s) (opened s)) := by
    rw [hap]
    split
    · exact ((OnlyTask.opened s).modMe _).busy 4
    · exact (OnlyTask.opened s).modMe _
  have hp : (opened s).me.pend = s.me.pend := by rw [me_opened]
  have ht : (m.apply (opened s) (opened s)).task s.cur = { id (opened s).me with pend := s.me.pend ++ l } := by
    have e : ((opened s).modMe fun t => { t with pend := t.pend ++ l }).task s.cur =
        { (opened s).me with pend := s.me.pend ++ l } := by
      show ((opened s).modMe _).me = _
      rw [State.me_modMe, hp]
    rw [hap]
    split
    · refine (task_modHere_tasks _ s ?_ _ ?_).trans e
      · rfl
      · intro; rfl
    · exact e
  refine does_of hx r q hm hc ho ht ?_ ?_ ?_ hl
  · simp [me_opened]
  · rw [id_eq, me_opened]; exact q.loops
  · simp only [id_eq, me_opened, afterBundle]
    rw [q.delay]

/-- A slot with a scalar guard and no check of its own that queues results of its own task. -/
theorem gives_plain {i : Instr} {m : SlotSem} {s : State} {l : List Pending} (hx : exec i s = issueSlot m s)
    (r : Runs m.guard s) (hp : m.place = .any) (hv : m.vsrc = []) (hd : m.vdst = none)
    (hi : m.illegal = fun _ => false) (hw : m.wait = fun _ _ => none) (ht : m.trap = fun _ _ => none)
    (hf : m.funit = false) (hm : m.mark = false)
    (he : m.eff (opened s) (opened s) = (opened s).modMe fun t => { t with pend := t.pend ++ l })
    (hl : ∀ p ∈ l, 1 ≤ p.left ∧ Own p) : Gives i s l := by
  have h0 : ∀ q, m.takes (opened s) q = false := by intro q; simp [SlotSem.takes, hv]
  have ha : m.acts (opened s) = true := by
    unfold SlotSem.acts
    rw [me_opened]
    simp only [Bool.or_eq_true]
    exact .inr r.guard
  have := does_push hx (ready_plain r.may hp hv hd hi hw ht hf) r.quiet hm ha he hl
  rw [h0, h0] at this
  exact this

end Sys2Proof
end

