-- ==== Sys2Proof/Tests/Slice0.lean ====
section
/-!
SUPPORT. The model's own tests: ill-formed terms that the check refuses, words of every encoding, results the manual
states, and for each statement with hypotheses a state that meets them, with what the statement says of it.
-/

namespace Sys2Proof.Tests

open Sys2Proof Machine

set_option maxRecDepth 100000
set_option Elab.async false

/-! ### Well-formedness -/

/-- No instruction of a list is well-formed. -/
def refusedAll (l : List Instr) : Bool := l.all fun i => !i.wf

/-- A guard that is always true. -/
def on : Guard := ⟨0, false⟩

/-- A guard that is always false (R28). -/
def off : Guard := ⟨0, true⟩

/-- CMP with a reserved condition and with one predicate named twice (R37, R84); MOVS of an unlisted and to a read-only
register (R39, R90); CSRR of an unlisted number, CSRW to a read-only lodge register (R125). -/
theorem test_wf_scalar : refusedAll [.cmp on 1 2 0 0 12, .cmp on 1 1 0 0 0, .cmpi on 1 2 0 0 15, .cmpi on 3 3 0 0 0,
    .sfcmp on 1 2 0 0 8, .sfcmp on 4 4 0 0 0, .sfcvt on 1 1 8 0, .movsRead on 1 0x00B, .movsRead on 1 0x800,
    .movsWrite on 1 0x002, .movsWrite on 1 0x031, .csrr on 1 0x103, .csrw on 1 0x100, .csrw on 1 0x804, .csrw on 1 0x813] = true := by
  decide +kernel

/-- WAIT and ARRIVE of a barrier past gb7, L2WB with an unnamed operand bit; LD of type 7, ST of a signed type, VLD to a
queue name, an unlisted generator field, a step count of 0, a PHASE of 13 steps and the AFADD type 3. -/
theorem test_wf_control_memory : refusedAll [.wait on 1 8, .arrive on 8, .l2wb on 1 2 2, .ld on 1 0 0 7 0, .ldRo on 1 0 0 7 0,
    .st on 1 0 0 1 0, .st on 1 0 0 7 0, .vld on 30 0 0 0 0, .vldRo on 1 0 0 7 0, .vst on 1 0 0 7 0, .agset on 1 0 13, .agstep on 0 0,
    .phase on 13, .afadd on 1 0 3 0 0] = true := by decide +kernel

/-- A vector result to v30 or v31 (R135), a rounding mode of an integer type, a type that an operation does not have, a
row past 15, a reduction with a reserved operation, mode or order, and the reserved formats and roundings of CVT. -/
theorem test_wf_vector : refusedAll [.vadd on 30 1 1 0 0, .vadd on 1 1 1 3 1, .vsub on 1 1 1 0 2, .vmul on 31 1 1 0 0,
    .vfma on 30 1 1 0 0, .vfms on 1 1 1 5 1, .vmin on 30 1 1 0, .vmax on 31 1 1 0, .vabs on 30 1 0, .vneg on 30 1 0, .vnot on 31 1,
    .vadds on 1 1 1 2, .vsubs on 30 1 1 3, .vmulh on 1 1 1 0, .vand on 30 1 1, .vor on 30 1 1, .vxor on 31 1 1, .vshl on 1 1 1 2,
    .vshr on 1 1 1 0, .vsra on 1 1 1 1, .vcmp on 1 1 1 1 3 2, .vsel on 30 1 1 0, .vmov on 30 1, .vsplat on 31 1 0, .viotaRow on 30,
    .viotaCol on 30, .viotaLin on 31, .vbrow on 1 1 16, .vbcol on 30 1 0, .vrotr on 30 1 0, .vrotc on 1 1 16] = true
    ∧ refusedAll [.vredr on 1 1 6 0 3 0, .vredr on 1 1 3 0 0 0, .vredr on 1 1 0 1 3 0, .vredc on 1 1 1 0 0 1, .vredc on 30 1 0 0 0 0,
      .vscanr on 1 1 3 0 3 0, .vscanc on 1 1 1 1 0 0, .vxp on 30 1, .vpermRow on 30 1 1, .vpermCol on 31 1 1, .vins on 30 1 1,
      .fexp2 on 30 1 0, .fexp on 31 1 0, .flog2 on 30 1 0, .frcp on 30 1 0, .frsq on 30 1 0, .fsqrt on 31 1 0, .fdiv on 30 1 1 0,
      .ftanh on 30 1 0, .fsigm on 30 1 0, .fsin on 30 1 0, .fcos on 31 1 0, .cvt on 1 1 5 0 0, .cvt on 1 1 0 13 0, .cvt on 1 1 0 1 3,
      .qnt4 on 1 1 1 3, .dqnt4 on 30 1 1] = true := by decide +kernel

/-- An unlisted descriptor field (R218); a splitting mode past 2, a resource past 19, an operand slot past 15, an
accumulator part to a queue name, FTAKE to a queue name. -/
theorem test_wf_commands : refusedAll [.edsc on 1 0 30, .edsc on 1 0 39, .edsc on 1 0 45, .msplit on 3, .mskip on 2, .mclaim on 1 20,
    .mrel on 20, .mlatch on 1 16, .mrd on 30 0 0, .ftake on 1 31] = true := by decide +kernel

/-- Machine steps of a die, core, slot, router or port that does not exist (R8, R14, R16). -/
theorem test_wf_agents : refusedAll [.issueTick ⟨8, 0⟩, .issueTick ⟨0, 98⟩, .eventEntry 8, .fUnitFree ⟨0, 98⟩, .phaseDrainDone ⟨0, 0, 4⟩,
    .phaseBarClose ⟨0, 96, 1⟩, .l1Fill ⟨8, 0⟩ 0, .l1Writeback ⟨8, 0⟩ 0, .homeLoad ⟨0, 98⟩ 0, .homeStore ⟨0, 98⟩ 0, .atomicExecute ⟨8, 0, 0⟩,
    .orderedRelease ⟨0, 97, 1⟩, .atomicReply ⟨0, 98, 0⟩, .copyStart ⟨8, 0⟩ 0, .copyCellWrite ⟨8, 0⟩ 0, .copyComplete ⟨8, 0⟩ 0,
    .streamStart ⟨8, 0⟩ 0, .streamComplete ⟨8, 0⟩ 0, .moutComplete ⟨8, 0⟩ 0, .arrayError ⟨8, 0, 0⟩ ⟨1, 0⟩, .rerunDone ⟨8, 0⟩,
    .regionUnprotected ⟨8, 0, 0⟩, .slotRelease ⟨0, 0, 4⟩, .claim ⟨0, 0, 4⟩, .stealRequest ⟨0, 0, 4⟩, .taskHalt ⟨0, 0, 4⟩] = true
    ∧ refusedAll [.tileStart ⟨8, 0⟩ 0, .unitComplete ⟨8, 0⟩ 0 0, .tileFold ⟨8, 0⟩ 0 0, .childLost ⟨8, 0⟩ 0 0, .tileComplete ⟨8, 0⟩ 0,
      .mcstStart ⟨8, 0⟩ 0, .mcstComplete ⟨8, 0⟩ 0, .cellArrival ⟨0, 10, 0, 0⟩, .slotSend ⟨0, 0, 12, 0⟩, .linkAck ⟨0, 0, 0, 8⟩ 0,
      .replayRequest ⟨8, 0, 0, 0⟩ 0, .linkSignalLoss ⟨8, 0, 0, 0⟩, .retrainTimeout ⟨8, 0, 0, 0⟩, .moduleLoss ⟨8, 0, 0, 0⟩,
      .nackResend ⟨8, 0, 0, 0⟩, .keyMarker ⟨8, 0, 0, 0⟩ 0, .keyRefusal ⟨8, 0, 0, 0⟩, .replyCacheExpire 8 0, .sequenceSkip 8 0,
      .collArrive ⟨8, 0⟩ 0, .tlbinvAck 8, .genbumpDone 8, .l2wbDone 8, .domsetDone 8, .nploadDone 8, .gangMarker ⟨8, 0, 0, 0⟩ 0 0,
      .kill 8 0, .ghcfgLock 8 0, .powerTrip 8 0 0, .junctionTrip 8 0, .packageWatchdog 8, .fatalStop 8 0 0, .linkTrained ⟨8, 0, 0, 0⟩] = true := by
  decide +kernel

/-! ### Encodings -/

/-- Whether a word decodes to a slot. -/
def reads (w : W32) (x : Slot) : Bool :=
  match decodeSlot w with
  | .ok y => decide (y = x)
  | .error _ => false

/-- Whether every word of a list decodes to its slot. -/
def readsAll (l : List (W32 × Slot)) : Bool := l.all fun p => reads p.1 p.2

/-- Words written bit by bit from Tables 2.1 to 2.12 decode to their instructions with every operand. -/
theorem test_words_X0_a : readsAll [
    (0x8001C7C0, ⟨true, .add ⟨0, false⟩ 3 17 30⟩),
    (0x3811C7C0, ⟨false, .sub ⟨3, true⟩ 3 17 30⟩),
    (0x0021C7C0, ⟨false, .mul ⟨0, false⟩ 3 17 30⟩),
    (0x3821C7C1, ⟨false, .mulh ⟨3, true⟩ 3 17 30⟩),
    (0x0021C7C2, ⟨false, .mulhz ⟨0, false⟩ 3 17 30⟩),
    (0xB831C7C0, ⟨true, .div ⟨3, true⟩ 3 17 30⟩),
    (0x0031C7C1, ⟨false, .divz ⟨0, false⟩ 3 17 30⟩),
    (0x3831C7C2, ⟨false, .rem ⟨3, true⟩ 3 17 30⟩),
    (0x0031C7C3, ⟨false, .remz ⟨0, false⟩ 3 17 30⟩),
    (0x3841C7C0, ⟨false, .and ⟨3, true⟩ 3 17 30⟩),
    (0x8041C7C1, ⟨true, .or ⟨0, false⟩ 3 17 30⟩),
    (0x3841C7C2, ⟨false, .xor ⟨3, true⟩ 3 17 30⟩),
    (0x0041C7C3, ⟨false, .andn ⟨0, false⟩ 3 17 30⟩),
    (0x3851C7C0, ⟨false, .shl ⟨3, true⟩ 3 17 30⟩),
    (0x0051C7C1, ⟨false, .shr ⟨0, false⟩ 3 17 30⟩),
    (0xB851C7C2, ⟨true, .sra ⟨3, true⟩ 3 17 30⟩),
    (0x0051C7C3, ⟨false, .rol ⟨0, false⟩ 3 17 30⟩),
    (0x3861C7C0, ⟨false, .min ⟨3, true⟩ 3 17 30⟩),
    (0x0061C7C1, ⟨false, .max ⟨0, false⟩ 3 17 30⟩),
    (0x3861C7C2, ⟨false, .minz ⟨3, true⟩ 3 17 30⟩),
    (0x8061C7C3, ⟨true, .maxz ⟨0, false⟩ 3 17 30⟩),
    (0x3874D800, ⟨false, .clz ⟨3, true⟩ 9 22⟩),
    (0x0074D801, ⟨false, .ctz ⟨0, false⟩ 9 22⟩),
    (0x3874D802, ⟨false, .popc ⟨3, true⟩ 9 22⟩)] = true := by decide +kernel

/-- Words written bit by bit from Tables 2.1 to 2.12 decode to their instructions with every operand. -/
theorem test_words_X0_b : readsAll [
    (0x008F8600, ⟨false, .bfx ⟨0, false⟩ 31 1 16⟩),
    (0xB89F8600, ⟨true, .bfxz ⟨3, true⟩ 31 1 16⟩),
    (0x00AF8600, ⟨false, .bfi ⟨0, false⟩ 31 1 16⟩),
    (0x38B214C7, ⟨false, .sel ⟨3, true⟩ 4 5 6 7⟩)] = true := by decide +kernel

/-- Words written bit by bit from Tables 2.1 to 2.12 decode to their instructions with every operand. -/
theorem test_words_X1_a : readsAll [
    (0x01025601, ⟨false, .addi ⟨0, false⟩ 4 21 0x201⟩),
    (0x39125601, ⟨false, .andi ⟨3, true⟩ 4 21 0x201⟩),
    (0x81225601, ⟨true, .ori ⟨0, false⟩ 4 21 0x201⟩),
    (0x39325601, ⟨false, .xori ⟨3, true⟩ 4 21 0x201⟩),
    (0x01425429, ⟨false, .shli ⟨0, false⟩ 4 21 41⟩),
    (0x39425529, ⟨false, .shri ⟨3, true⟩ 4 21 41⟩),
    (0x01425629, ⟨false, .srai ⟨0, false⟩ 4 21 41⟩),
    (0xB953C003, ⟨true, .movi ⟨3, true⟩ 7 0x4003⟩),
    (0x0163C003, ⟨false, .movh ⟨0, false⟩ 7 0x4003⟩),
    (0x3973A132, ⟨false, .addsh ⟨3, true⟩ 7 8 9 18⟩),
    (0x018567CB, ⟨false, .cmp ⟨0, false⟩ 2 5 19 28 11⟩),
    (0x399027F6, ⟨false, .cmpi ⟨3, true⟩ 0 0 19 0x1F 6⟩),
    (0x81AD5800, ⟨true, .pand ⟨0, false⟩ 6 5 3⟩),
    (0x39AD5801, ⟨false, .por ⟨3, true⟩ 6 5 3⟩),
    (0x01AD5802, ⟨false, .pxor ⟨0, false⟩ 6 5 3⟩),
    (0x39AD4003, ⟨false, .pnot ⟨3, true⟩ 6 5⟩),
    (0x01B60038, ⟨false, .movsRead ⟨0, false⟩ 12 0x038⟩),
    (0xB9B64025, ⟨true, .movsWrite ⟨3, true⟩ 12 0x025⟩),
    (0x01C08862, ⟨false, .sfadd ⟨0, false⟩ 1 2 3 1⟩),
    (0x39C08864, ⟨false, .sfmul ⟨3, true⟩ 1 2 3 0⟩),
    (0x01C0886A, ⟨false, .sffma ⟨0, false⟩ 1 2 3 1⟩),
    (0x39C0886C, ⟨false, .sfmin ⟨3, true⟩ 1 2 3⟩),
    (0x81C08870, ⟨true, .sfmax ⟨0, false⟩ 1 2 3⟩),
    (0x39D20437, ⟨false, .sfcmp ⟨3, true⟩ 1 0 2 3 7⟩)] = true := by decide +kernel

/-- Words written bit by bit from Tables 2.1 to 2.12 decode to their instructions with every operand. -/
theorem test_words_X1_b : readsAll [
    (0x01E088A2, ⟨false, .sfcvt ⟨0, false⟩ 1 2 5 1⟩)] = true := by decide +kernel

/-- Words written bit by bit from Tables 2.1 to 2.12 decode to their instructions with every operand. -/
theorem test_words_X2_a : readsAll [
    (0x3A0FFFFF, ⟨false, .prep ⟨3, true⟩ 3 0x3FFFF⟩),
    (0x02181100, ⟨false, .prepr ⟨0, false⟩ 2 17⟩),
    (0xBA240000, ⟨true, .br ⟨3, true⟩ 1⟩),
    (0x0237C000, ⟨false, .brl ⟨0, false⟩ 1 30⟩),
    (0x3A42E001, ⟨false, .loop ⟨3, true⟩ 5 1 0x2001⟩),
    (0x025FFDFE, ⟨false, .loopi ⟨0, false⟩ 0x3FF 0 0x1FE⟩),
    (0x3A600000, ⟨false, .lbrk ⟨3, true⟩⟩),
    (0x82700000, ⟨true, .lpop ⟨0, false⟩⟩),
    (0x3A800000, ⟨false, .endTask ⟨3, true⟩⟩),
    (0x029ABCDE, ⟨false, .trap ⟨0, false⟩ 0xABCDE⟩),
    (0x3AA0045F, ⟨false, .sys ⟨3, true⟩ 1 2 31⟩),
    (0x02A08000, ⟨false, .eret ⟨0, false⟩⟩),
    (0xBAA10000, ⟨true, .yield ⟨3, true⟩⟩),
    (0x02A1A407, ⟨false, .wait ⟨0, false⟩ 9 7⟩),
    (0x3AA20005, ⟨false, .arrive ⟨3, true⟩ 5⟩),
    (0x02A2A414, ⟨false, .prmpt ⟨0, false⟩ 9 20⟩),
    (0x3AA32414, ⟨false, .resume ⟨3, true⟩ 9 20⟩),
    (0x82A6A414, ⟨true, .gsw ⟨0, false⟩ 9 20⟩),
    (0x3AA72414, ⟨false, .gres ⟨3, true⟩ 9 20⟩),
    (0x02A3A554, ⟨false, .ctxsv ⟨0, false⟩ 9 10 20⟩),
    (0x3AA42554, ⟨false, .ctxld ⟨3, true⟩ 9 10 20⟩),
    (0x02A4A554, ⟨false, .tlbinv ⟨0, false⟩ 9 10 20⟩),
    (0xBAA7A554, ⟨true, .attest ⟨3, true⟩ 9 10 20⟩),
    (0x02A82554, ⟨false, .keyld ⟨0, false⟩ 9 10 20⟩)] = true := by decide +kernel

/-- Words written bit by bit from Tables 2.1 to 2.12 decode to their instructions with every operand. -/
theorem test_words_X2_b : readsAll [
    (0x3AA8A554, ⟨false, .npload ⟨3, true⟩ 9 10 20⟩),
    (0x02A9A554, ⟨false, .lkey ⟨0, false⟩ 9 10 20⟩),
    (0x3AA52540, ⟨false, .genbump ⟨3, true⟩ 9 10⟩),
    (0x82A5A541, ⟨true, .l2wb ⟨0, false⟩ 9 10 1⟩),
    (0x3AA62400, ⟨false, .domset ⟨3, true⟩ 9⟩),
    (0x02A92400, ⟨false, .rlinv ⟨0, false⟩ 9⟩),
    (0x3AB30813, ⟨false, .csrr ⟨3, true⟩ 6 0x813⟩),
    (0x02C34811, ⟨false, .csrw ⟨0, false⟩ 6 0x811⟩),
    (0xBAD03800, ⟨true, .bgset ⟨3, true⟩ 14⟩),
    (0x02E00000, ⟨false, .ckpt ⟨0, false⟩⟩),
    (0x3AF00000, ⟨false, .nop ⟨3, true⟩⟩)] = true := by decide +kernel

/-- Words written bit by bit from Tables 2.1 to 2.12 decode to their instructions with every operand. -/
theorem test_words_M_a : readsAll [
    (0x0305EEFD, ⟨false, .ld ⟨0, false⟩ 11 6 1 6 0xFD⟩),
    (0x3B15E9FD, ⟨false, .ldRo ⟨3, true⟩ 11 6 1 1 0xFD⟩),
    (0x8325ECFD, ⟨true, .st ⟨0, false⟩ 11 6 1 4 0xFD⟩),
    (0x3B35EEFD, ⟨false, .vld ⟨3, true⟩ 11 6 1 6 0xFD⟩),
    (0x0345EAFD, ⟨false, .vldRo ⟨0, false⟩ 11 6 1 2 0xFD⟩),
    (0x3B55EDFD, ⟨false, .vst ⟨3, true⟩ 11 6 1 5 0xFD⟩),
    (0x03645C00, ⟨false, .agset ⟨0, false⟩ 8 5 12⟩),
    (0xBB705FFF, ⟨true, .agstep ⟨3, true⟩ 5 0xFFF⟩),
    (0x03807000, ⟨false, .pref ⟨0, false⟩ 7⟩),
    (0x3B80F000, ⟨false, .clean ⟨3, true⟩ 7⟩),
    (0x03817000, ⟨false, .inval ⟨0, false⟩ 7⟩),
    (0x3B90000C, ⟨false, .phase ⟨3, true⟩ 12⟩),
    (0x83A480A5, ⟨true, .ttdef ⟨0, false⟩ 9 0xA5⟩),
    (0x3BA4A0A5, ⟨false, .ttwait ⟨3, true⟩ 9 0xA5⟩),
    (0x03A4E0A5, ⟨false, .ttstat ⟨0, false⟩ 9 0xA5⟩),
    (0x3BA040A5, ⟨false, .ttfree ⟨3, true⟩ 0xA5⟩),
    (0x03BC0000, ⟨false, .fence ⟨0, false⟩ 3⟩),
    (0xBBB90000, ⟨true, .fenceRo ⟨3, true⟩ 2⟩),
    (0x03C220E0, ⟨false, .aadd ⟨0, false⟩ 4 2 3 1 0⟩),
    (0x3BC223E0, ⟨false, .aand ⟨3, true⟩ 4 2 3 1 0⟩),
    (0x03C224E0, ⟨false, .aor ⟨0, false⟩ 4 2 3 1 0⟩),
    (0x3BC225E0, ⟨false, .axor ⟨3, true⟩ 4 2 3 1 0⟩),
    (0x83C226E0, ⟨true, .aswp ⟨0, false⟩ 4 2 3 1 0⟩),
    (0x3BC22158, ⟨false, .amin ⟨3, true⟩ 4 2 1 0 1 1⟩)] = true := by decide +kernel

/-- Words written bit by bit from Tables 2.1 to 2.12 decode to their instructions with every operand. -/
theorem test_words_M_b : readsAll [
    (0x03C22258, ⟨false, .amax ⟨0, false⟩ 4 2 1 0 1 1⟩),
    (0x3BC22758, ⟨false, .aincb ⟨3, true⟩ 4 2 1 0 1 1⟩),
    (0x03D22AC0, ⟨false, .afadd ⟨0, false⟩ 4 2 2 1 3⟩),
    (0xBBE22DB0, ⟨true, .acas ⟨3, true⟩ 4 2 13 2 1 1⟩),
    (0x03F98000, ⟨false, .aordJoin ⟨0, false⟩ 19⟩),
    (0x3BF98001, ⟨false, .aordClose ⟨3, true⟩ 19⟩)] = true := by decide +kernel

/-- Words written bit by bit from Tables 2.1 to 2.12 decode to their instructions with every operand. -/
theorem test_words_V0 : readsAll [
    (0x040EFBE9, ⟨false, .vadd ⟨0, false⟩ 29 30 31 2 1⟩),
    (0x3C1EFBE9, ⟨false, .vsub ⟨3, true⟩ 29 30 31 2 1⟩),
    (0x842EFBE9, ⟨true, .vmul ⟨0, false⟩ 29 30 31 2 1⟩),
    (0x3C3EFBE9, ⟨false, .vfma ⟨3, true⟩ 29 30 31 2 1⟩),
    (0x044EFBE9, ⟨false, .vfms ⟨0, false⟩ 29 30 31 2 1⟩),
    (0x3C5EFBFC, ⟨false, .vmin ⟨3, true⟩ 29 30 31 7⟩),
    (0x046EFBFC, ⟨false, .vmax ⟨0, false⟩ 29 30 31 7⟩),
    (0xBC7EF814, ⟨true, .vabs ⟨3, true⟩ 29 30 5⟩),
    (0x047EF834, ⟨false, .vneg ⟨0, false⟩ 29 30 5⟩),
    (0x3C7EF840, ⟨false, .vnot ⟨3, true⟩ 29 30⟩),
    (0x04808878, ⟨false, .vadds ⟨0, false⟩ 1 2 3 6⟩),
    (0x3C908878, ⟨false, .vsubs ⟨3, true⟩ 1 2 3 6⟩),
    (0x84A08878, ⟨true, .vmulh ⟨0, false⟩ 1 2 3 6⟩),
    (0x3CB08860, ⟨false, .vand ⟨3, true⟩ 1 2 3⟩),
    (0x04B08861, ⟨false, .vor ⟨0, false⟩ 1 2 3⟩),
    (0x3CB08862, ⟨false, .vxor ⟨3, true⟩ 1 2 3⟩),
    (0x04C08870, ⟨false, .vshl ⟨0, false⟩ 1 2 3 4⟩),
    (0xBCC08871, ⟨true, .vshr ⟨3, true⟩ 1 2 3 4⟩),
    (0x04C08872, ⟨false, .vsra ⟨0, false⟩ 1 2 3 4⟩)] = true := by decide +kernel

/-- Words written bit by bit from Tables 2.1 to 2.12 decode to their instructions with every operand. -/
theorem test_words_V1_a : readsAll [
    (0x3D0C90AB, ⟨false, .vcmp ⟨3, true⟩ 1 9 4 5 2 3⟩),
    (0x051190BC, ⟨false, .vsel ⟨0, false⟩ 3 4 5 14⟩),
    (0x3D219000, ⟨false, .vmov ⟨3, true⟩ 3 4⟩),
    (0x85319004, ⟨true, .vsplat ⟨0, false⟩ 3 4 1⟩),
    (0x3D418000, ⟨false, .viotaRow ⟨3, true⟩ 3⟩),
    (0x05418001, ⟨false, .viotaCol ⟨0, false⟩ 3⟩),
    (0x3D418002, ⟨false, .viotaLin ⟨3, true⟩ 3⟩),
    (0x055190F0, ⟨false, .vbrow ⟨0, false⟩ 3 4 15⟩),
    (0xBD5193F1, ⟨true, .vbcol ⟨3, true⟩ 3 4 63⟩),
    (0x056193F0, ⟨false, .vrotr ⟨0, false⟩ 3 4 63⟩),
    (0x3D6190F1, ⟨false, .vrotc ⟨3, true⟩ 3 4 15⟩),
    (0x0571902A, ⟨false, .vredr ⟨0, false⟩ 3 4 0 1 2 1⟩),
    (0x3D71902B, ⟨false, .vredc ⟨3, true⟩ 3 4 0 1 2 1⟩),
    (0x8581902A, ⟨true, .vscanr ⟨0, false⟩ 3 4 0 1 2 1⟩),
    (0x3D81902B, ⟨false, .vscanc ⟨3, true⟩ 3 4 0 1 2 1⟩),
    (0x05919000, ⟨false, .vxp ⟨0, false⟩ 3 4⟩),
    (0x3DA190A0, ⟨false, .vpermRow ⟨3, true⟩ 3 4 5⟩),
    (0x05A190A1, ⟨false, .vpermCol ⟨0, false⟩ 3 4 5⟩),
    (0xBDBF90A0, ⟨true, .vext ⟨3, true⟩ 31 4 5⟩),
    (0x05B1FCA1, ⟨false, .vins ⟨0, false⟩ 3 31 5⟩),
    (0x3DC4B1E0, ⟨false, .qand ⟨3, true⟩ 9 12 15⟩),
    (0x05C4B1E1, ⟨false, .qor ⟨0, false⟩ 9 12 15⟩),
    (0x3DC4B1E2, ⟨false, .qxor ⟨3, true⟩ 9 12 15⟩),
    (0x85C4B003, ⟨true, .qnot ⟨0, false⟩ 9 12⟩)] = true := by decide +kernel

/-- Words written bit by bit from Tables 2.1 to 2.12 decode to their instructions with every operand. -/
theorem test_words_V1_b : readsAll [
    (0x3DCCB004, ⟨false, .qcnt ⟨3, true⟩ 25 12⟩)] = true := by decide +kernel

/-- Words written bit by bit from Tables 2.1 to 2.12 decode to their instructions with every operand. -/
theorem test_words_F : readsAll [
    (0x06019001, ⟨false, .fexp2 ⟨0, false⟩ 3 4 1⟩),
    (0x3E119001, ⟨false, .fexp ⟨3, true⟩ 3 4 1⟩),
    (0x06219001, ⟨false, .flog2 ⟨0, false⟩ 3 4 1⟩),
    (0xBE319001, ⟨true, .frcp ⟨3, true⟩ 3 4 1⟩),
    (0x06419001, ⟨false, .frsq ⟨0, false⟩ 3 4 1⟩),
    (0x3E519001, ⟨false, .fsqrt ⟨3, true⟩ 3 4 1⟩),
    (0x066190A1, ⟨false, .fdiv ⟨0, false⟩ 3 4 5 1⟩),
    (0x3E719001, ⟨false, .ftanh ⟨3, true⟩ 3 4 1⟩),
    (0x86819001, ⟨true, .fsigm ⟨0, false⟩ 3 4 1⟩),
    (0x3E919001, ⟨false, .fsin ⟨3, true⟩ 3 4 1⟩),
    (0x06A19001, ⟨false, .fcos ⟨0, false⟩ 3 4 1⟩),
    (0x3EB19326, ⟨false, .cvt ⟨3, true⟩ 3 4 12 9 2⟩),
    (0x06C190A1, ⟨false, .qnt4 ⟨0, false⟩ 3 4 5 1⟩),
    (0xBED190A0, ⟨true, .dqnt4 ⟨3, true⟩ 3 4 5⟩),
    (0x06E010A0, ⟨false, .rngseed ⟨0, false⟩ 4 5⟩),
    (0x3EF01000, ⟨false, .rngskip ⟨3, true⟩ 4⟩)] = true := by decide +kernel

/-- Words written bit by bit from Tables 2.1 to 2.12 decode to their instructions with every operand. -/
theorem test_words_T_a : readsAll [
    (0x070436C0, ⟨false, .edsc ⟨0, false⟩ 8 13 44⟩),
    (0x3F1FE400, ⟨false, .cpy ⟨3, true⟩ 63 9⟩),
    (0x871FE401, ⟨true, .gth ⟨0, false⟩ 63 9⟩),
    (0x3F1FE402, ⟨false, .sct ⟨3, true⟩ 63 9⟩),
    (0x072A4000, ⟨false, .kwait ⟨0, false⟩ 41⟩),
    (0x3F2A6801, ⟨false, .ktest ⟨3, true⟩ 41 5⟩),
    (0x072A4002, ⟨false, .krel ⟨0, false⟩ 41⟩),
    (0xBF31E43C, ⟨true, .mstrm ⟨3, true⟩ 7 9 60⟩),
    (0x07407800, ⟨false, .mzero ⟨0, false⟩ 60⟩),
    (0x3F467801, ⟨false, .mcfg ⟨3, true⟩ 12 60⟩),
    (0x07400402, ⟨false, .msplit ⟨0, false⟩ 2⟩),
    (0x3F400203, ⟨false, .mskip ⟨3, true⟩ 1⟩),
    (0x87462604, ⟨true, .mclaim ⟨0, false⟩ 12 19⟩),
    (0x3F402605, ⟨false, .mrel ⟨3, true⟩ 19⟩),
    (0x07461E06, ⟨false, .mlatch ⟨0, false⟩ 12 15⟩),
    (0x3F5EC230, ⟨false, .mrd ⟨3, true⟩ 29 33 3⟩),
    (0x075FC221, ⟨false, .mwr ⟨0, false⟩ 31 33 2⟩),
    (0xBF61E43C, ⟨true, .mout ⟨3, true⟩ 7 9 60⟩),
    (0x07786830, ⟨false, .tmm ⟨0, false⟩ 33 10 1 1⟩),
    (0x3F786850, ⟨false, .tew ⟨3, true⟩ 33 10 1⟩),
    (0x077868B0, ⟨false, .tred ⟨0, false⟩ 33 10 1 1⟩),
    (0x3F7868F0, ⟨false, .tscan ⟨3, true⟩ 33 10 1 1⟩),
    (0x87786900, ⟨true, .txp ⟨0, false⟩ 33 10⟩),
    (0x3F786950, ⟨false, .tcvt ⟨3, true⟩ 33 10 1⟩)] = true := by decide +kernel

/-- Words written bit by bit from Tables 2.1 to 2.12 decode to their instructions with every operand. -/
theorem test_words_T_b : readsAll [
    (0x07786980, ⟨false, .tcpy ⟨0, false⟩ 33 10⟩),
    (0x3F7869C0, ⟨false, .tbc ⟨3, true⟩ 33 10⟩),
    (0x07886800, ⟨false, .tlnch ⟨0, false⟩ 33 10⟩),
    (0xBF984240, ⟨true, .twait ⟨3, true⟩ 33 18⟩),
    (0x07984241, ⟨false, .tstat ⟨0, false⟩ 33 18⟩),
    (0x3F984242, ⟨false, .tabort ⟨3, true⟩ 33 18⟩),
    (0x07AA8200, ⟨false, .fbind ⟨0, false⟩ 21 1⟩),
    (0x3FAAFC01, ⟨false, .fsend ⟨3, true⟩ 21 31⟩),
    (0x87AAF802, ⟨true, .fput ⟨0, false⟩ 21 30⟩),
    (0x3FAA8203, ⟨false, .fdrain ⟨3, true⟩ 21 1⟩),
    (0x07AA8004, ⟨false, .fstat ⟨0, false⟩ 21 0⟩),
    (0x3FAAF405, ⟨false, .ftake ⟨3, true⟩ 21 29⟩),
    (0x07B86800, ⟨false, .mcst ⟨0, false⟩ 33 10⟩),
    (0xBFC86830, ⟨true, .coll ⟨3, true⟩ 33 10 1 1⟩)] = true := by decide +kernel
/-- The encoded slots that chapters 2, 4, 5 of the manual print decode to the slots they print. -/
theorem test_printed_scalar_control : readsAll [
    (0x00018440, ⟨false, .add ⟨0, false⟩ 3 1 2⟩),
    (0x019942A2, ⟨false, .cmpi ⟨0, false⟩ 4 5 1 10 2⟩),
    (0x140214C0, ⟨false, .vadd ⟨1, false⟩ 4 5 6 0 0⟩),
    (0x842494E1, ⟨true, .vmul ⟨0, false⟩ 9 5 7 0 1⟩),
    (0x81039FFD, ⟨true, .addi ⟨0, false⟩ 7 7 0x3FD⟩),
    (0x01412528, ⟨false, .shri ⟨0, false⟩ 2 9 40⟩),
    (0x0184C858, ⟨false, .cmp ⟨0, false⟩ 2 3 4 5 8⟩),
    (0x01A20003, ⟨false, .pnot ⟨0, false⟩ 1 0⟩),
    (0x01B20002, ⟨false, .movsRead ⟨0, false⟩ 4 0x002⟩),
    (0x01B2C000, ⟨false, .movsWrite ⟨0, false⟩ 5 0x000⟩),
    (0x28B08866, ⟨false, .sel ⟨2, true⟩ 1 2 3 6⟩),
    (0x01C190AA, ⟨false, .sffma ⟨0, false⟩ 3 4 5 1⟩),
    (0x01E31C00, ⟨false, .sfcvt ⟨0, false⟩ 6 7 0 0⟩),
    (0x02000005, ⟨false, .prep ⟨0, false⟩ 0 5⟩),
    (0x32200000, ⟨false, .br ⟨3, false⟩ 0⟩),
    (0xBA280000, ⟨true, .br ⟨3, true⟩ 2⟩),
    (0x0233C000, ⟨false, .brl ⟨0, false⟩ 0 30⟩),
    (0x02428028, ⟨false, .loop ⟨0, false⟩ 5 0 40⟩),
    (0x82519203, ⟨true, .loopi ⟨0, false⟩ 100 1 3⟩),
    (0x02501803, ⟨false, .loopi ⟨0, false⟩ 6 0 3⟩),
    (0x82800000, ⟨true, .endTask ⟨0, false⟩⟩),
    (0x82900123, ⟨true, .trap ⟨0, false⟩ 0x123⟩),
    (0x82A00C87, ⟨true, .sys ⟨0, false⟩ 3 4 7⟩),
    (0x02A10000, ⟨false, .yield ⟨0, false⟩⟩),
    (0x02B20101, ⟨false, .csrr ⟨0, false⟩ 4 0x101⟩),
    (0x02C34001, ⟨false, .csrw ⟨0, false⟩ 6 0x001⟩)] = true := by decide +kernel

/-- The encoded slots that chapters 6, 7 of the manual print decode to the slots they print, FSIN.rz in the word that its printed fields give (its printed word drops part of OP). -/
theorem test_printed_vector : readsAll [
    (0x05310400, ⟨false, .vsplat ⟨0, false⟩ 2 1 0⟩),
    (0x05010C82, ⟨false, .vcmp ⟨0, false⟩ 0 2 3 4 0 2⟩),
    (0x85120C42, ⟨true, .vsel ⟨0, false⟩ 4 3 2 1⟩),
    (0x943494E5, ⟨true, .vfma ⟨1, false⟩ 9 5 7 1 1⟩),
    (0x856393F0, ⟨true, .vrotr ⟨0, false⟩ 7 4 63⟩),
    (0x05729002, ⟨false, .vredr ⟨0, false⟩ 5 4 0 0 0 1⟩),
    (0x85731C8D, ⟨true, .vredc ⟨0, false⟩ 6 7 1 0 3 0⟩),
    (0x05B21400, ⟨false, .vext ⟨0, false⟩ 4 5 0⟩),
    (0x05C1A540, ⟨false, .qand ⟨0, false⟩ 3 9 10⟩),
    (0x05C18404, ⟨false, .qcnt ⟨0, false⟩ 3 1⟩),
    (0x86031401, ⟨true, .fexp2 ⟨0, false⟩ 6 5 1⟩),
    (0x06320400, ⟨false, .frcp ⟨0, false⟩ 4 1 0⟩),
    (0x26638860, ⟨false, .fdiv ⟨2, false⟩ 7 2 3 0⟩),
    (0x1E949001, ⟨false, .fsin ⟨1, true⟩ 9 4 1⟩)] = true := by decide +kernel

/-- The encoded slots that chapters 8, 9 of the manual print decode to the slots they print. -/
theorem test_printed_memory_matrix : readsAll [
    (0x03220C00, ⟨false, .st ⟨0, false⟩ 4 0 1 4 0⟩),
    (0x03069C01, ⟨false, .ld ⟨0, false⟩ 13 1 1 4 1⟩),
    (0x0331A1FE, ⟨false, .vld ⟨0, false⟩ 3 2 0 1 0xFE⟩),
    (0x03619700, ⟨false, .agset ⟨0, false⟩ 3 1 7⟩),
    (0x83702064, ⟨true, .agstep ⟨0, false⟩ 2 100⟩),
    (0x03803000, ⟨false, .pref ⟨0, false⟩ 3⟩),
    (0x03813000, ⟨false, .inval ⟨0, false⟩ 3⟩),
    (0x83900003, ⟨true, .phase ⟨0, false⟩ 3⟩),
    (0x03A32005, ⟨false, .ttwait ⟨0, false⟩ 6 5⟩),
    (0x07419001, ⟨false, .mcfg ⟨0, false⟩ 3 8⟩),
    (0x87401000, ⟨true, .mzero ⟨0, false⟩ 8⟩),
    (0x07400402, ⟨false, .msplit ⟨0, false⟩ 2⟩),
    (0x07400203, ⟨false, .mskip ⟨0, false⟩ 1⟩),
    (0x07428604, ⟨false, .mclaim ⟨0, false⟩ 5 3⟩),
    (0x0742A204, ⟨false, .mclaim ⟨0, false⟩ 5 17⟩),
    (0x07430406, ⟨false, .mlatch ⟨0, false⟩ 6 2⟩),
    (0x07521220, ⟨false, .mrd ⟨0, false⟩ 4 9 2⟩),
    (0x87521231, ⟨true, .mwr ⟨0, false⟩ 4 9 3⟩),
    (0x0731C808, ⟨false, .mstrm ⟨0, false⟩ 7 2 8⟩),
    (0x87624C08, ⟨true, .mout ⟨0, false⟩ 9 3 8⟩)] = true := by decide +kernel

/-- The encoded slots that chapters 10, 11, 12, 13 of the manual print decode to the slots they print. -/
theorem test_printed_engines : readsAll [
    (0x07010000, ⟨false, .edsc ⟨0, false⟩ 2 0 0⟩),
    (0x07028950, ⟨false, .edsc ⟨0, false⟩ 5 2 21⟩),
    (0x8711C400, ⟨true, .cpy ⟨0, false⟩ 7 1⟩),
    (0x8710C001, ⟨true, .gth ⟨0, false⟩ 3 0⟩),
    (0x8720C000, ⟨true, .kwait ⟨0, false⟩ 3⟩),
    (0x0720C801, ⟨false, .ktest ⟨0, false⟩ 3 1⟩),
    (0x0720C002, ⟨false, .krel ⟨0, false⟩ 3⟩),
    (0x02A48C85, ⟨false, .tlbinv ⟨0, false⟩ 3 4 5⟩),
    (0x82A518E0, ⟨true, .genbump ⟨0, false⟩ 6 7⟩),
    (0x02A58861, ⟨false, .l2wb ⟨0, false⟩ 2 3 1⟩),
    (0x82A61000, ⟨true, .domset ⟨0, false⟩ 4⟩),
    (0x03C22090, ⟨false, .aadd ⟨0, false⟩ 4 2 2 0 1⟩),
    (0x83C297A8, ⟨true, .aincb ⟨0, false⟩ 5 1 2 1 0 1⟩),
    (0x03D30280, ⟨false, .afadd ⟨0, false⟩ 6 0 0 1 2⟩),
    (0x03E239D0, ⟨false, .acas ⟨0, false⟩ 4 3 9 3 0 1⟩),
    (0x83B80000, ⟨true, .fence ⟨0, false⟩ 2⟩),
    (0x03BD0000, ⟨false, .fenceRo ⟨0, false⟩ 3⟩),
    (0x03F28000, ⟨false, .aordJoin ⟨0, false⟩ 5⟩),
    (0x03F28001, ⟨false, .aordClose ⟨0, false⟩ 5⟩),
    (0x02A19402, ⟨false, .wait ⟨0, false⟩ 5 2⟩),
    (0x82A20002, ⟨true, .arrive ⟨0, false⟩ 2⟩),
    (0x02A28C04, ⟨false, .prmpt ⟨0, false⟩ 3 4⟩),
    (0x02A30C04, ⟨false, .resume ⟨0, false⟩ 3 4⟩),
    (0x82A38CC4, ⟨true, .ctxsv ⟨0, false⟩ 3 6 4⟩),
    (0x02A40CC4, ⟨false, .ctxld ⟨0, false⟩ 3 6 4⟩)] = true := by decide +kernel

/-- The encoded slots that chapters 14, 15, 16, 17, 18 of the manual print decode to the slots they print. -/
theorem test_printed_tiles_fabric : readsAll [
    (0x07714820, ⟨false, .tmm ⟨0, false⟩ 5 2 1 0⟩),
    (0x87718C80, ⟨true, .tred ⟨0, false⟩ 6 3 0 0⟩),
    (0x0771D150, ⟨false, .tcvt ⟨0, false⟩ 7 4 1⟩),
    (0x87820400, ⟨true, .tlnch ⟨0, false⟩ 8 1⟩),
    (0x07914080, ⟨false, .twait ⟨0, false⟩ 5 4⟩),
    (0x07914081, ⟨false, .tstat ⟨0, false⟩ 5 4⟩),
    (0x87914082, ⟨true, .tabort ⟨0, false⟩ 5 4⟩),
    (0x07A28200, ⟨false, .fbind ⟨0, false⟩ 5 1⟩),
    (0x87A19001, ⟨true, .fsend ⟨0, false⟩ 3 4⟩),
    (0x07A19802, ⟨false, .fput ⟨0, false⟩ 3 6⟩),
    (0x07A38003, ⟨false, .fdrain ⟨0, false⟩ 7 0⟩),
    (0x07A40204, ⟨false, .fstat ⟨0, false⟩ 8 1⟩),
    (0x87A48805, ⟨true, .ftake ⟨0, false⟩ 9 2⟩),
    (0x02A894C4, ⟨false, .npload ⟨0, false⟩ 5 6 4⟩),
    (0x87B10400, ⟨true, .mcst ⟨0, false⟩ 4 1⟩),
    (0x07B24800, ⟨false, .mcst ⟨0, false⟩ 9 2⟩),
    (0x02A994C4, ⟨false, .lkey ⟨0, false⟩ 5 6 4⟩),
    (0x82A98CE2, ⟨true, .lkey ⟨0, false⟩ 3 7 2⟩),
    (0x07C18C20, ⟨false, .coll ⟨0, false⟩ 6 3 1 0⟩),
    (0x87C08000, ⟨true, .coll ⟨0, false⟩ 2 0 0 0⟩),
    (0x87C18C30, ⟨true, .coll ⟨0, false⟩ 6 3 1 1⟩),
    (0x02A91400, ⟨false, .rlinv ⟨0, false⟩ 5⟩),
    (0x82A91400, ⟨true, .rlinv ⟨0, false⟩ 5⟩),
    (0x02A69404, ⟨false, .gsw ⟨0, false⟩ 5 4⟩),
    (0x82A69404, ⟨true, .gsw ⟨0, false⟩ 5 4⟩),
    (0x02A71404, ⟨false, .gres ⟨0, false⟩ 5 4⟩),
    (0x82A71404, ⟨true, .gres ⟨0, false⟩ 5 4⟩)] = true := by decide +kernel

/-! ### Small states -/

/-- The next state of an instruction. -/
def out (i : Instr) (s : State) : State :=
  match exec i s with
  | .next t => t
  | _ => s

/-- Whether an instruction answers a next state of which a check holds. -/
def gives (i : Instr) (s : State) (p : State → Bool) : Bool :=
  match exec i s with
  | .next t => p t
  | _ => false

/-- A guard that the small tasks make true: p1. -/
def gT : Guard := ⟨1, false⟩

/-- A task of a kernel with all the vector registers, in the middle of a loop, with two results in flight. -/
def task0 : Task :=
  { Task.blank with
    job := 5, codeBase := 0x1000, codeLen := 64, vregs := 32, budget := 1000, pc := 5, time := 100, lidx := 17, fstat := 3
    sregs := [(1, 0x123), (2, 0xFFFFFFFFFFFFFFF0), (3, 7), (4, 0x40400000), (5, 0xBF800000)], preds := 0b1011
    tb := [(1, 9), (2, 33)], bars := [3, 4], loops := [⟨5, 1, 2, 9, true, none⟩], shadows := [(1, ⟨6, 20, true⟩)]
    pend := [⟨.scalar 9 1, 2, 4⟩, ⟨.scalar 8 1, 3, 8⟩], rng := ⟨1, 2, 3⟩, qregs := [(3, 0xFF), (9, 0xF0F0)] }

/-- Memory with 24 bundles of NOP at 0x1000 (Table 2.8). -/
def codeMem : Memory :=
  (List.range 24).flatMap fun n =>
    [(4096 + 16 * n + 2, 0xF0), (4096 + 16 * n + 3, 2), (4096 + 16 * n + 6, 0xF0), (4096 + 16 * n + 7, 2),
      (4096 + 16 * n + 10, 0xF0), (4096 + 16 * n + 11, 2), (4096 + 16 * n + 14, 0xF0), (4096 + 16 * n + 15, 0x82)]

/-- A state in which a task is the issuing one, beside another of its core and one of another core. -/
def stateOf (r : TaskRef) (t : Task) : State :=
  let s := (({ State.reset with cur := r, cycle := 777, jobid := 5, mem := codeMem }).setTask r t).setTask ⟨0, 7, 2⟩ { t with lidx := 98 }
  if isLodge r.core then s else s.setTask ⟨r.die, r.core, 1⟩ { t with lidx := 99 }

/-- The task on a compute core, on a control core and on a lodge core. -/
def sA : State := stateOf ⟨0, 3, 0⟩ task0
def sC : State := stateOf ⟨2, 97, 0⟩ task0
def sL : State := stateOf ⟨1, 96, 0⟩ task0

/-- A check of `MayIssue`. -/
def mayB (s : State) : Bool := !s.spent s.cur && decide (s.me.holds = [])

/-- A check of `Calm`. -/
def calmB (s : State) : Bool :=
  s.me.pend.all (fun p => decide (2 ≤ p.left)) && decide (s.me.ctl = .none) && s.me.loops.head?.all (fun l => decide (l.le ≠ s.me.pc))
    && decide (s.me.bwarn = 0) && decide (s.me.barLeft = 0) && !s.me.preempt

/-- A check of `Quiet`. -/
def quietB (s : State) : Bool := calmB s && decide (s.me.delay = 0)

/-- A check of `Runs`. -/
def runsB (g : Guard) (s : State) : Bool := mayB s && quietB s && s.me.guardOn g

theorem may_of {s : State} (h : mayB s = true) : MayIssue s := by
  simp only [mayB, Bool.and_eq_true, Bool.not_eq_true', decide_eq_true_eq] at h
  exact ⟨h.1, h.2⟩

theorem calm_of {s : State} (h : calmB s = true) : Calm s := by
  simp only [calmB, Bool.and_eq_true, Bool.not_eq_true', decide_eq_true_eq, List.all_eq_true, Option.all_eq_true] at h
  obtain ⟨⟨⟨⟨⟨h1, h2⟩, h3⟩, h4⟩, h5⟩, h6⟩ := h
  exact ⟨h1, h2, fun l hl => h3 l hl, h4, h5, h6⟩

theorem quiet_of {s : State} (h : quietB s = true) : Quiet s := by
  simp only [quietB, Bool.and_eq_true, decide_eq_true_eq] at h
  exact ⟨calm_of h.1, h.2⟩

theorem runs_of {g : Guard} {s : State} (h : runsB g s = true) : Runs g s := by
  simp only [runsB, Bool.and_eq_true] at h
  exact ⟨may_of h.1.1, quiet_of h.1.2, h.2⟩

/-- A check of `Acts` for the meaning of a slot. -/
def actsB (m : SlotSem) (s : State) : Bool :=
  quietB s && !m.lanes && s.me.guardOn m.guard && mayB s && !m.isIllegal s && !m.isDenied s
    && (stallAll [(0, m)] (s.atIssue [(0, m)]) s).isNone && (m.execTrap 0 (s.atIssue [(0, m)])).isNone

theorem acts_of {i : Instr} {m : SlotSem} {s : State} (hm : slotSem i = some m) (h : actsB m s = true) : Acts i s := by
  simp only [actsB, Bool.and_eq_true, Bool.not_eq_true', Option.isNone_iff_eq_none] at h
  obtain ⟨⟨⟨⟨⟨⟨⟨h1, h2⟩, h3⟩, h4⟩, h5⟩, h6⟩, h7⟩, h8⟩ := h
  exact ⟨quiet_of h1, m, hm, h2, h3, may_of h4, h5, h6, h7, h8⟩

/-- The tasks act on each kind of core. -/
theorem runs_sA : Runs gT sA := runs_of (by decide +kernel)
theorem runs_sC : Runs gT sC := runs_of (by decide +kernel)
theorem runs_sL : Runs gT sL := runs_of (by decide +kernel)

/-! ### Witnesses: issuing and traps -/

/-- The premises of DecodeEncode and EncodeDecode. -/
theorem witness_DecodeEncode : (Instr.add on 3 1 2).wf = true ∧ (encode (.add on 3 1 2)).isSome = true
    ∧ decodeSlot (encodeSlot ⟨true, .add on 31 31 31⟩) = .ok ⟨true, .add on 31 31 31⟩ := by decide +kernel
theorem witness_EncodeDecode : decodeSlot 0x8001C7C0 = .ok ⟨true, .add ⟨0, false⟩ 3 17 30⟩
    ∧ encodeSlot ⟨true, .add ⟨0, false⟩ 3 17 30⟩ = 0x8001C7C0 := by decide +kernel

/-- A module that runs a placed ADDI s4, s0, 9. -/
def sPlaced : State := State.reset.withFetchWord 32 0x01020009

/-- The premises of StepRunsDecoded, and what follows. -/
theorem witness_StepRunsDecoded : ∃ m,
    sPlaced.powered = true ∧ sPlaced.agenda = [] ∧ decodeSlot 0x01020009 = .ok ⟨false, .addi on 4 0 9⟩
    ∧ slotSem (.addi on 4 0 9) = some m
    ∧ (isLodge sPlaced.cur.core && (sPlaced.beforeIssue sPlaced.cur.coreRef).eventDue sPlaced.cur.die) = false
    ∧ ((sPlaced.beforeIssue sPlaced.cur.coreRef).core sPlaced.cur.coreRef).candidates sPlaced.cur.core = [0]
    ∧ (let s2 := (sPlaced.beforeIssue sPlaced.cur.coreRef).focus sPlaced.cur.coreRef 0
      s2.spent s2.cur = false ∧ s2.me.pc.toNat < s2.me.codeLen
      ∧ (s2.codeWords s2.me s2.me.pc.toNat).take 4 = [0x01020009, nopWord, nopWord, nopWord ||| 0x80000000]
      ∧ firstOffender (vLimit s2.cur.core) (decide (s2.me.delay ≠ 0)) Tally.zero 0
        [0x01020009, nopWord, nopWord, nopWord ||| 0x80000000] = none)
    ∧ (match step sPlaced with
      | .next t => decide ((t.task ⟨0, 0, 0⟩).sreg 4 = 9 ∧ (t.task ⟨0, 0, 0⟩).pc = 1)
      | _ => false) = true := by
  refine ⟨_, ?_, ?_, ?_, rfl, ?_, ?_, ?_, ?_⟩ <;> decide +kernel

/-- A lodge instruction is placed on a lodge core, where ERET goes to EPC. -/
theorem test_step_lodge : (match step ((State.reset.modLodge 0 fun l => { l with epc := 7 }).withFetchWord 32 0x02A08000) with
    | .next t => decide (t.cur = ⟨0, 96, 0⟩ ∧ (t.task ⟨0, 96, 0⟩).pc = 7)
    | _ => false) = true := by decide +kernel

/-- The premises of StepRunsAgenda: an agenda that begins with a machine step, and a module without power. -/
theorem witness_StepRunsAgenda :
    (let s := { sA with agenda := [Event.eventEntry 1, .gangStop] };
      s.powered = true ∧ eventOf (.eventEntry 1) = some (.eventEntry 1) ∧ s.agenda = .eventEntry 1 :: [.gangStop])
    ∧ (let s := { sA with powered := false, agenda := [Event.gangStop, .moduleReset 3] };
      s.powered = false ∧ isReset .gangStop = false ∧ s.agenda = [.gangStop, .moduleReset 3])
    ∧ (match step { sA with powered := false } with | .fault f => decide (f = .unpowered) | _ => false) = true := by decide +kernel

/-- The premises of MemoryCanonical: reset memory has the form, and a step answers a next state. -/
theorem witness_MemoryCanonical : Safe State.reset ∧ Safe sPlaced
    ∧ (match step sPlaced with | .next t => Memory.wf t.mem | _ => false) = true := by
  refine ⟨by unfold Safe; decide +kernel, by unfold Safe; decide +kernel, by decide +kernel⟩

/-- The premises of GuardFalse, and what follows for ADD and ST. -/
theorem witness_GuardFalse : ∃ m n, slotSem (.add off 3 1 2) = some m ∧ m.lanes = false ∧ m.funit = false
    ∧ sA.me.guardOn m.guard = false ∧ m.isIllegal sA = false
    ∧ slotSem (.st off 3 1 0 6 0) = some n ∧ n.lanes = false ∧ n.funit = false ∧ sA.me.guardOn n.guard = false ∧ n.isIllegal sA = false
    ∧ out (.add off 3 1 2) sA = out (.nop on) sA ∧ out (.st off 3 1 0 6 0) sA = out (.nop on) sA := by
  refine ⟨_, _, rfl, ?_, ?_, ?_, ?_, rfl, ?_, ?_, ?_, ?_, ?_, ?_⟩ <;> decide +kernel

/-- A task whose BUDGET is spent, and one with an atomic outstanding. -/
def sSpent : State := sA.modMe fun t => { t with budget := 0 }
def sHeld : State := sA.modMe fun t => { t with holds := [.steal 777] }

/-- The premises of BudgetAndHoldsStopTheBundle with BUDGET 0, 1 and all ones, and what follows. -/
theorem witness_BudgetAndHoldsStopTheBundle : ∃ m, slotSem (.add on 3 1 2) = some m ∧ isLodge sSpent.cur.core = false
    ∧ sSpent.me.budget = 0 ∧ out (.add on 3 1 2) sSpent = sSpent.takeTrap sSpent.cur ⟨0x08, 0⟩
    ∧ chargedBudget 1 = 0 ∧ chargedBudget (BitVec.allOnes 64) = BitVec.allOnes 64
    ∧ sHeld.spent sHeld.cur = false ∧ sHeld.me.holds ≠ [] ∧ m.isIllegal sHeld = false ∧ m.isDenied sHeld = false
    ∧ out (.add on 3 1 2) sHeld = sHeld := by
  refine ⟨_, rfl, ?_, ?_, ?_, ?_, ?_, ?_, ?_, ?_, ?_, ?_⟩ <;> decide +kernel

/-- The premises of PrivilegedOutsideTheLodge: ERET on a compute core and on a control core, TLNCH on a compute core. -/
theorem witness_PrivilegedOutsideTheLodge : ∃ m n, slotSem (.eret gT) = some m ∧ slotSem (.tlnch gT 1 1) = some n
    ∧ sA.spent sA.cur = false ∧ sA.me.guardOn m.guard = true ∧ m.isIllegal sA = false ∧ m.place = .lodge ∧ isLodge sA.cur.core = false
    ∧ isLodge sC.cur.core = false ∧ sC.me.guardOn m.guard = true ∧ m.isIllegal sC = false
    ∧ sA.me.guardOn n.guard = true ∧ n.isIllegal sA = false ∧ n.place = .lodgeControl ∧ isCompute sA.cur.core = true
    ∧ out (.eret gT) sA = sA.takeTrap sA.cur ⟨0x03, 0⟩ ∧ out (.tlnch gT 1 1) sA = sA.takeTrap sA.cur ⟨0x03, 0⟩
    ∧ ((sA.takeTrap sA.cur ⟨0x03, 0⟩).task sA.cur).halted = true := by
  refine ⟨_, _, rfl, rfl, ?_, ?_, ?_, ?_, ?_, ?_, ?_, ?_, ?_, ?_, ?_, ?_, ?_, ?_, ?_⟩ <;> decide +kernel

/-- The premises of IssueCompletes. -/
theorem witness_IssueCompletes : ∃ m, slotSem (.add gT 3 1 2) = some m ∧ Ready m sA := by
  refine ⟨_, rfl, may_of (by decide +kernel), by decide +kernel, by decide +kernel, by decide +kernel, by decide +kernel⟩

/-- A trap on a compute core, and what TrapHaltsTask says of it. -/
theorem witness_TrapHaltsTask : isLodge sA.cur.core = false
    ∧ (sA.takeTrap sA.cur ⟨0x21, 0x77⟩).task sA.cur = { sA.me with halted := true, trapped := some ⟨0x21, 0x77⟩, ctl := .none }
    ∧ ((sA.takeTrap sA.cur ⟨0x21, 0x77⟩).die 0).events.get none 0
      = some ⟨0x21, 0, 0, 3, 0, 5, 0x77, 17, 5, 777, none⟩ := by decide +kernel

/-- A die whose event queue is full. -/
def dFull : Die := { Die.reset with lodge := { LodgeRegs.reset with eqhead := 5, eqtail := 261 } }

/-- The premises of each clause of RecordsWaitOrDrop: 0 records held, and 256. -/
theorem witness_RecordsWaitOrDrop : Die.reset.lodge.held = 0 ∧ Die.reset.waitingS = [] ∧ dFull.lodge.held = 256
    ∧ { dFull.lodge with eqtail := 260 }.held = 255
    ∧ (dFull.post ⟨0x21, 0, 0, 3, 0, 5, 0, 0, 0, 0, none⟩).waitingS.length = 1
    ∧ (dFull.post ⟨0x44, 1, 0, 3, 0, 5, 0, 0, 0, 0, none⟩).lodge.eqlost = 1 := by decide +kernel

/-- A lodge whose handler runs: EMASK[0] is set. -/
def sDouble : State := sL.modLodge 1 fun l => { l with emask := 1, evec := 40 }
def sLodge : State := sL.modLodge 1 fun l => { l with emask := 2, evec := 40, fvec := 50 }

/-- The premises of each clause of LodgeTraps: EMASK[0] clear, EMASK[0] set, and after a fatal stop. -/
theorem witness_LodgeTraps : isLodge sL.cur.core = true ∧ (sLodge.die 1).lodge.emask.getLsbD 0 = false
    ∧ (let t := sLodge.takeTrap sLodge.cur ⟨0x0A, 2⟩
      t.me.pc = 40 ∧ (t.die 1).lodge.epc = 5 ∧ (t.die 1).lodge.emask = 3 ∧ (t.die 1).lodge.ecause = 0x0A ∧ (t.die 1).lodge.einfo = 2)
    ∧ (sDouble.die 1).lodge.emask.getLsbD 0 = true ∧ sDouble.fatal = none
    ∧ (sDouble.takeTrap sDouble.cur ⟨0x0A, 2⟩).fatal = some ⟨1, 0xE0, 0x50000000A, 777, false, false⟩
    ∧ (let s := { sDouble with fatal := some ⟨0, 0xE3, 0, 0, true, false⟩ }
      s.fatal.isSome = true ∧ (s.takeTrap s.cur ⟨0x0A, 2⟩).me.halted = true) := by decide +kernel

/-- The premises of FatalStopsTheModule, and what follows. -/
theorem witness_FatalStopsTheModule : sLodge.fatal = none ∧ sLodge.task? ⟨1, 96, 0⟩ = some task0
    ∧ sLodge.task? ⟨0, 7, 2⟩ = some { task0 with lidx := 98 }
    ∧ (let t := sLodge.fatalStop 2 0xE2 77
      t.fatal.isSome = true ∧ (t.task ⟨1, 96, 0⟩).pc = 50 ∧ t.task? ⟨0, 7, 2⟩ = some { task0 with lidx := 98, halted := true }
      ∧ (t.die 7).lodge.emask = 1 ∧ (t.die 7).lodge.ecause = 0xE2 ∧ t.fatalStop 3 0xE3 0 = t) := by decide +kernel

/-- The premises of each clause of LoopCloses: a level that ends elsewhere, and counts 2, 1 and 0. -/
theorem witness_LoopCloses :
    closeLoops 9 [⟨5, 1, 2, 8, true, none⟩] 0 = ([⟨5, 1, 2, 8, true, none⟩], 0, none)
    ∧ closeLoops 9 [⟨2, 1, 2, 9, true, none⟩] 0 = ([⟨1, 2, 2, 9, true, none⟩], 1, some 2)
    ∧ closeLoops 9 [⟨7, 1, 2, 9, false, some 1⟩, ⟨3, 0, 1, 9, true, none⟩] 0 = ([⟨2, 1, 1, 9, true, none⟩], 1, some 1)
    ∧ closeLoops 9 [⟨0, 1, 2, 9, true, none⟩] 0 = ([], 1, none) := by decide +kernel

/-! ### Scalar instructions -/

/-- A state whose task has s1, s2 and s3, and nothing in flight. -/
def regs (a b d : W64) : State :=
  sA.modMe fun t => { t with sregs := [(1, a), (2, b), (3, d)], pend := [] }

/-- The value an instruction gives s3, in flight or in place. -/
def s3After (i : Instr) (s : State) : Option W64 :=
  match (out i s).me.pend with
  | [⟨.scalar 3 v, _, _⟩] => some v
  | [] => some ((out i s).me.sreg 3)
  | _ => none

/-- The value that an instruction on s1 and s2 gives s3. -/
def ofTwo (i : Instr) (a b : W64) : Option W64 := s3After i (regs a b 0)

/-- The latency of the one result that is left in flight. -/
def flight (i : Instr) (s : State) : List Nat := (out i s).me.pend.map Pending.left

/-- Sums wrap (Table 4.5), and products keep their halves. -/
theorem test_add_sub_mul : ofTwo (.add on 3 1 2) (BitVec.allOnes 64) 1 = some 0 ∧ ofTwo (.sub on 3 1 2) 0 1 = some (BitVec.allOnes 64)
    ∧ ofTwo (.mul on 3 1 2) (BitVec.allOnes 64) 5 = some (-5) ∧ ofTwo (.mulh on 3 1 2) (BitVec.allOnes 64) 5 = some (-1)
    ∧ ofTwo (.mulhz on 3 1 2) (BitVec.allOnes 64) 5 = some 4 ∧ flight (.mul on 3 1 2) (regs 1 1 0) = [1]
    ∧ flight (.add on 3 1 2) (regs 1 1 0) = [] := by decide +kernel

/-- Table 4.6, and division by zero (R63, R95). -/
theorem test_div_rem : ofTwo (.div on 3 1 2) (-7) 2 = some (-3) ∧ ofTwo (.rem on 3 1 2) (-7) 2 = some (-1)
    ∧ ofTwo (.divz on 3 1 2) (-7) 2 = some 0x7FFFFFFFFFFFFFFC ∧ ofTwo (.remz on 3 1 2) (-7) 2 = some 1
    ∧ ofTwo (.div on 3 1 2) 7 (-2) = some (-3) ∧ ofTwo (.rem on 3 1 2) 7 (-2) = some 1
    ∧ ofTwo (.divz on 3 1 2) 7 (-2) = some 0 ∧ ofTwo (.remz on 3 1 2) 7 (-2) = some 7
    ∧ ofTwo (.div on 3 1 2) 9 0 = some (-1) ∧ ofTwo (.rem on 3 1 2) 9 0 = some 9 ∧ ofTwo (.divz on 3 1 2) 9 0 = some (-1)
    ∧ ofTwo (.remz on 3 1 2) 9 0 = some 9
    ∧ ofTwo (.div on 3 1 2) 0x8000000000000000 (-1) = some 0x8000000000000000 ∧ ofTwo (.rem on 3 1 2) 0x8000000000000000 (-1) = some 0
    ∧ ofTwo (.divz on 3 1 2) 0x8000000000000000 (-1) = some 0 ∧ ofTwo (.remz on 3 1 2) 0x8000000000000000 (-1) = some 0x8000000000000000
    ∧ flight (.div on 3 1 2) (regs 1 1 0) = [7] := by decide +kernel

/-- Logic and shifts: amounts are taken modulo 64 (Table 4.5). -/
theorem test_logic_shifts : ofTwo (.and on 3 1 2) 0b1100 0b1010 = some 0b1000 ∧ ofTwo (.or on 3 1 2) 0b1100 0b1010 = some 0b1110
    ∧ ofTwo (.xor on 3 1 2) 0b1100 0b1010 = some 0b0110 ∧ ofTwo (.andn on 3 1 2) 0b1100 0b1010 = some 0b0100
    ∧ ofTwo (.shl on 3 1 2) 3 65 = some 6 ∧ ofTwo (.shr on 3 1 2) (-8) 60 = some 15 ∧ ofTwo (.sra on 3 1 2) (-8) 1 = some (-4)
    ∧ ofTwo (.rol on 3 1 2) 0x8000000000000001 1 = some 3 := by decide +kernel

/-- Signed and unsigned order, counts, and the choice of SEL. -/
theorem test_min_max_counts : ofTwo (.min on 3 1 2) (-1) 1 = some (-1) ∧ ofTwo (.max on 3 1 2) (-1) 1 = some 1
    ∧ ofTwo (.minz on 3 1 2) (-1) 1 = some 1 ∧ ofTwo (.maxz on 3 1 2) (-1) 1 = some (-1)
    ∧ ofTwo (.clz on 3 1) 0 7 = some 64 ∧ ofTwo (.clz on 3 1) 0x0000000100000000 7 = some 31 ∧ ofTwo (.ctz on 3 1) 0 7 = some 64
    ∧ ofTwo (.ctz on 3 1) 0x50 7 = some 4 ∧ ofTwo (.popc on 3 1) (BitVec.allOnes 64) 7 = some 64
    ∧ ofTwo (.sel on 3 1 2 1) 11 22 = some 11 ∧ ofTwo (.sel on 3 1 2 2) 11 22 = some 22 := by decide +kernel

/-- R96: a sign-extended field, a field cut at bit 63, a width of zero, and insertion. -/
theorem test_bit_fields : ofTwo (.bfx on 3 1 2) 0xF0 0x404 = some (-1) ∧ ofTwo (.bfxz on 3 1 2) 0xF0 0x404 = some 0xF
    ∧ ofTwo (.bfxz on 3 1 2) (BitVec.allOnes 64) 0x083C = some 15 ∧ ofTwo (.bfx on 3 1 2) (BitVec.allOnes 64) 0x004 = some 0
    ∧ s3After (.bfi on 3 1 2) (regs 0xAB 0x408 0xFFFF) = some 0xFBFF ∧ s3After (.bfi on 3 1 2) (regs 0xAB 0x008 0xFFFF) = some 0xFFFF := by
  decide +kernel

/-- Immediates are sign-extended for ADDI, ANDI and MOVI and zero-extended for ORI and XORI (Table 4.7). -/
theorem test_immediates : ofTwo (.addi on 3 1 0x3FD) 1 0 = some (-2) ∧ ofTwo (.andi on 3 1 0x3F0) 0x1234 0 = some 0x1230
    ∧ ofTwo (.ori on 3 1 0x3FF) 0x1000 0 = some 0x13FF ∧ ofTwo (.xori on 3 1 0x3FF) 0x13FF 0 = some 0x1000
    ∧ ofTwo (.shli on 3 1 63) 3 0 = some 0x8000000000000000 ∧ ofTwo (.shri on 3 1 40) (-1) 0 = some 0xFFFFFF
    ∧ ofTwo (.srai on 3 1 63) (-8) 0 = some (-1) ∧ ofTwo (.movi on 3 0x7FFF) 0 0 = some (-1)
    ∧ s3After (.movh on 3 0x7FFF) (regs 0 0 2) = some 0x17FFF ∧ ofTwo (.addsh on 3 1 2 31) 1 2 = some 0x100000001 := by decide +kernel

/-- CMP and CMPI write a condition and its complement (R99); PAND to PNOT combine predicates (R100). -/
theorem test_compares : (out (.cmp on 4 5 1 2 2) (regs (-1) 1 0)).me.pred 4 = true ∧ (out (.cmp on 4 5 1 2 2) (regs (-1) 1 0)).me.pred 5 = false
    ∧ (out (.cmp on 4 5 1 2 8) (regs (-1) 1 0)).me.pred 4 = true ∧ (out (.cmpi on 4 5 1 0x1F 0) (regs (-1) 1 0)).me.pred 4 = true
    ∧ (out (.cmp on 0 0 1 2 0) (regs 1 2 0)).me.preds = task0.preds
    ∧ (out (.pand on 4 1 2) sA).me.pred 4 = false ∧ (out (.por on 4 1 2) sA).me.pred 4 = true ∧ (out (.pxor on 4 1 3) sA).me.pred 4 = false
    ∧ (out (.pnot on 4 2) sA).me.pred 4 = true := by decide +kernel

/-- The flags of the one result in flight. -/
def flagsAfter (i : Instr) (s : State) : List (BitVec 6) := (out i s).me.pend.map Pending.flags

/-- FP32 in bits [31:0]: 1 + 2^-24 ties to even, and away from it under .rz stays; min and max order; NaN compares
unordered; SFCVT of an integer (Tables 2.14 and 4.8). -/
theorem test_scalar_float : ofTwo (.sfadd on 3 1 2 0) 0x3F800000 0x33800000 = some 0x3F800000
    ∧ flagsAfter (.sfadd on 3 1 2 0) (regs 0x3F800000 0x33800000 0) = [flagNX]
    ∧ ofTwo (.sfmul on 3 1 2 0) 0x40400000 0xC0000000 = some 0xC0C00000
    ∧ s3After (.sffma on 3 1 2 0) (regs 0x40400000 0x40000000 0x3F800000) = some 0x40E00000
    ∧ ofTwo (.sfmin on 3 1 2) 0x40400000 0xC0000000 = some 0xC0000000 ∧ ofTwo (.sfmax on 3 1 2) 0x40400000 0xC0000000 = some 0x40400000
    ∧ (out (.sfcmp on 4 5 1 2 2) (regs 0x7FC00000 0x3F800000 0)).me.pred 4 = false
    ∧ ofTwo (.sfcvt on 3 1 2 0) (-1) 0 = some 0xBF800000
    ∧ ofTwo (.sfcvt on 3 1 0 0) 0xC0200000 0 = some (-2) ∧ ofTwo (.sfcvt on 3 1 1 1) 0xC0200000 0 = some 0 := by decide +kernel

/-- MOVS and CSRR of BCNT and LIDX; a write of PREDS keeps p0; a write of BUDGET only lowers it (R118); CSRW to EVEC on a
lodge (R125). -/
theorem test_special_registers : s3After (.movsRead on 3 0x002) (regs 0 0 0) = some 17 ∧ s3After (.csrr on 3 0x001) (regs 0 0 0) = some 1000
    ∧ (out (.movsWrite on 1 0x030) (regs 0xF2 0 0)).me.preds = 0xF3 ∧ (out (.csrw on 1 0x001) (regs 10 0 0)).me.budget = 10
    ∧ (out (.movsWrite on 1 0x001) (regs 5000 0 0)).me.budget = 999
    ∧ ((out (.csrw on 1 0x800) sL).die 1).lodge.evec = 0x123 := by decide +kernel

/-- The premises of the statements on scalar instructions. -/
theorem witness_ScalarArithmetic : Runs gT sA ∧ Runs gT sL ∧ Runs gT sC := ⟨runs_sA, runs_sL, runs_sC⟩
theorem witness_ScalarImmediatesAndPredicates : Runs gT sA ∧ Runs gT sL := ⟨runs_sA, runs_sL⟩
theorem witness_CompareWritesBothPredicates : Runs gT sA ∧ bits (0x01824000 : W32).toNat 26 20 = 0x18
    ∧ bits (0x01824000 : W32).toNat 19 17 = bits (0x01824000 : W32).toNat 16 14 := ⟨runs_sA, by decide +kernel, by decide +kernel⟩
theorem witness_ScalarFloat : Runs gT sA := runs_sA
/-- Numbers on each side of the lodge range, at its first, and the counters that MOVS does not read. -/
theorem witness_SpecialRegisterMoves : Runs gT sA ∧ Runs gT sL ∧ (0x7FF : BitVec 12).toNat < 0x800 ∧ 0x800 ≤ (0x800 : BitVec 12).toNat
    ∧ isLodge sL.cur.core = true ∧ sA.inRegion = false
    ∧ (sA.modHere fun c => { c with regions := [(0, some ⟨task0, [], 5, [], 0, 0, true, [], 0, [], false⟩)] }).inRegion = true := by
  refine ⟨runs_sA, runs_sL, ?_⟩; decide +kernel

/-! ### Control -/

/-- The premises of Transfers: a quiet boundary, and the two delay bundles. -/
theorem witness_Transfers : Runs gT sA
    ∧ (let s := sA.modMe fun t => { t with delay := 2, target := 40 };
      mayB s = true ∧ calmB s = true ∧ s.me.delay = 2 ∧ (out (.nop gT) s).me.delay = 1 ∧ (out (.nop gT) s).me.pc = 6)
    ∧ (let s := sA.modMe fun t => { t with delay := 1, target := 40 };
      mayB s = true ∧ calmB s = true ∧ s.me.delay = 1 ∧ (out (.nop gT) s).me.delay = 0 ∧ (out (.nop gT) s).me.pc = 40) := by
  refine ⟨runs_sA, ?_⟩; decide +kernel

/-- PREP, PREPR, BR and BRL (R107 to R109). -/
theorem test_transfers : (out (.prep on 2 0x3FFFF) sA).me.tb.get 0 2 = 4 ∧ (out (.prepr on 3 1) sA).me.tb.get 0 3 = 0x123
    ∧ (out (.br on 2) sA).me.target = 33 ∧ (out (.br on 2) sA).me.delay = 2
    ∧ (out (.brl on 2 7) sA).me.sreg 7 = 8 ∧ (out (.brl on 2 7) sA).me.target = 33 := by decide +kernel

/-- Loop stacks of depth 0, 1 and 6, and a valid shadow that ends below its begin. -/
def sLoop0 : State := sA.modMe fun t => { t with loops := [] }
def sLoop6 : State := sA.modMe fun t => { t with loops := List.replicate 6 ⟨5, 1, 2, 9, false, none⟩ }
def sLoopBad : State := sA.modMe fun t => { t with shadows := [(1, ⟨20, 6, true⟩)] }

/-- The premises of each clause of Loops, with counts 0 and 1, depths 0, 5, and 6, and an end one below and at the begin. -/
theorem witness_Loops : Runs gT sA ∧ Runs gT sLoop0 ∧ Runs gT sLoop6 ∧ Runs gT sLoopBad
    ∧ (sLoopBad.loopEnds 12).2 < (sLoopBad.loopEnds 12).1
    ∧ out (.loopi gT 1 0 12) sLoopBad = sLoopBad.takeTrap sLoopBad.cur ⟨0x05, -14⟩
    ∧ (sLoop6.loopEnds 12).1 ≤ (sLoop6.loopEnds 12).2 ∧ sLoop6.me.loops.length = 6
    ∧ out (.loopi gT 1 0 12) sLoop6 = sLoop6.takeTrap sLoop6.cur ⟨0x06, 0⟩
    ∧ (sA.loopEnds 12) = (6, 20) ∧ (out (.loop gT 3 1 12) sA).me.loops.head? = some ⟨7, 0, 6, 20, true, none⟩
    ∧ ((out (.loop gT 3 1 12) sA).me.shadow 1).valid = false
    ∧ (sLoop0.loopEnds 0).1 ≤ (sLoop0.loopEnds 3).2 ∧ (out (.loopi gT 0 0 3) sLoop0).me.pc = 9
    ∧ sLoop0.me.loops = [] ∧ out (.lpop gT) sLoop0 = sLoop0.takeTrap sLoop0.cur ⟨0x07, 0⟩
    ∧ out (.lbrk gT) sLoop0 = sLoop0.takeTrap sLoop0.cur ⟨0x07, 0⟩
    ∧ sA.me.loops = [⟨5, 1, 2, 9, true, none⟩] ∧ (out (.lpop gT) sA).me.loops = [] ∧ (out (.lpop gT) sA).me.pc = 6
    ∧ (out (.lbrk gT) sA).me.pc = 10 := by
  refine ⟨runs_sA, runs_of (by decide +kernel), runs_of (by decide +kernel), runs_of (by decide +kernel), ?_⟩
  decide +kernel

/-- Words of NOP with zero and with nonzero operand bits, and states in which it runs with either guard. -/
theorem witness_NopDoesNothing : bits (0xBAF00000 : W32).toNat 26 20 = 0x2F ∧ bits (0xBAF00000 : W32).toNat 19 0 = 0
    ∧ reads 0xBAF00000 ⟨true, .nop ⟨3, true⟩⟩ = true ∧ bits (0x02F00001 : W32).toNat 26 20 = 0x2F
    ∧ bits (0x02F80000 : W32).toNat 19 0 ≠ 0 ∧ (decodeSlot 0x02F80000).toOption = none ∧ mayB sA = true ∧ quietB sA = true
    ∧ (out (.nop gT) sA).me = afterBundle false sA.me ∧ (out (.nop off) sA).me = afterBundle false sA.me := by decide +kernel

/-- A launch of which the task is one. -/
def launch0 : Launch :=
  { seq := 0, id := 7, job := 5, kernel := { Kernel.none with sets := [2], stages := 1 }, dieMask := 1, seed := 0, args := [11, 12]
    budget := 100, nest := [4], perm := [0], grain := 1, loaded := true, placed := 1, ended := 0, slices := [], sets := []
    tlnch := none, fromHost := none, killed := false, finished := false }

/-- The task of a launch, with a tile entry and a queue. -/
def sLaunch : State :=
  { sA with launches := [launch0] }.modCore sA.cur.coreRef fun c => c.setTile 0 { TileEntry.undefined with v := true, len := 1, expect := 9 }

/-- The premises of EndEndsTheTask, and what follows. -/
theorem witness_EndEndsTheTask : runsB gT sLaunch = true ∧ sLaunch.here.regions.get none sLaunch.cur.slot = none
    ∧ sLaunch.launch? sLaunch.me.launch = some launch0 ∧ (sLaunch.here.tile (physTile sLaunch.cur 0)).v = true
    ∧ (let t := out (.endTask gT) sLaunch;
      t.me.status = .ending ∧ t.me.sregs = [] ∧ t.me.pend = [] ∧ t.launch? 0 = some { launch0 with ended := 1 }
      ∧ (t.here.tile (physTile sLaunch.cur 0)).v = false) := by decide +kernel

/-- The premises of TrapAndSysCallTheLodge, and what follows. -/
theorem witness_TrapAndSysCallTheLodge : Runs gT sA ∧ mayB sA = true ∧ sA.me.guardOn gT = true ∧ sA.me.guardOn off = false
    ∧ isLodge sA.cur.core = false ∧ out (.trap gT 0xFFFFF) sA = sA.takeTrap sA.cur ⟨0x09, 0xFFFFF⟩
    ∧ (out (.sys gT 1 2 3) sA).me = { afterBundle false sA.me with halted := true }
    ∧ ((out (.sys gT 1 2 3) sA).die 0).events.get none 0 = some ⟨0xC0, 2, 0, 3, 0, 5, 0x123, 17, 0, 777, some (3, 0xFFFFFFFFFFFFFFF0)⟩ := by
  refine ⟨runs_sA, ?_⟩; decide +kernel

/-- A lodge in its handler. -/
def sHandler : State := sL.modLodge 1 fun l => { l with epc := 44, etrans := 0x100000021, epreds := 0x0E, emask := 3 }

/-- The premises of EretReturns, and what follows. -/
theorem witness_EretReturns : runsB gT sHandler = true ∧ isLodge sHandler.cur.core = true
    ∧ (let t := out (.eret gT) sHandler;
      t.me.pc = 44 ∧ t.me.target = 0x21 ∧ t.me.delay = 1 ∧ t.me.preds = 0x0F ∧ (t.die 1).lodge.emask = 2) := by decide +kernel

/-- A barrier whose phase is 1. -/
def sPhase1 : State :=
  sA.modDie 0 fun d => { d with barriers := Tbl.set Barrier.reset d.barriers 4 { Barrier.reset with phase := true, doneTc := 555 } }

/-- The premises of each clause of YieldWaitArrive: the last barrier the group has and the first it has not. -/
theorem witness_YieldWaitArrive : Runs gT sA ∧ sA.me.bars.length ≤ (2 : BitVec 5).toNat ∧ (1 : BitVec 5).toNat < sA.me.bars.length
    ∧ sA.inRegion = false ∧ (out (.yield gT) sA).here.yielded = true
    ∧ out (.wait gT 1 2) sA = sA.takeTrap sA.cur ⟨0x0B, 2⟩ ∧ out (.arrive gT 2) sA = sA.takeTrap sA.cur ⟨0x0B, 2⟩
    ∧ runsB gT sPhase1 = true ∧ (out (.wait gT 1 1) sPhase1).me.status = .waiting 1 true
    ∧ (out (.wait gT 2 1) sPhase1).me.status = .ready ∧ (out (.wait gT 2 1) sPhase1).me.time = 555
    ∧ (out (.arrive gT 1) sA).me.holds = [.fence 2 false (some 1) 0] := by
  refine ⟨runs_sA, ?_⟩; decide +kernel

/-- The premises of each clause of BudgetWarning: a level one below, at, and one above the charged BUDGET, and 0. -/
theorem witness_BudgetWarning : Runs gT sA ∧ Runs gT sL
    ∧ (let s := fun (v : W64) => sA.modMe fun t => t.setSreg 1 v;
      runsB gT (s 999) = true ∧ runsB gT (s 998) = true ∧ runsB gT (s 0) = true ∧ chargedBudget (s 999).me.budget = 999
      ∧ (out (.bgset gT 1) (s 999)).me.bwarn = 0
      ∧ ((out (.bgset gT 1) (s 999)).die 0).events.get none 0 = some ⟨0xC1, 2, 0, 3, 0, 5, 999, 17, 0, 777, none⟩
      ∧ (out (.bgset gT 1) (s 998)).me.bwarn = 998 ∧ ((out (.bgset gT 1) (s 998)).die 0).events = []
      ∧ (out (.bgset gT 1) (s 0)).me.bwarn = 0 ∧ ((out (.bgset gT 1) (s 0)).die 0).events = []) := by
  refine ⟨runs_sA, runs_sL, ?_⟩; decide +kernel

/-- The premises of CheckpointOpensARegion, and what follows. -/
theorem witness_CheckpointOpensARegion : runsB gT sA = true ∧ sA.here.busyInside sA.cur.slot = false ∧ sA.here.regions = []
    ∧ (match (out (.ckpt gT) sA).here.regions.get none 0 with
      | some x => decide (x.saved = afterBundle false sA.me ∧ x.addr = 5 ∧ x.items = [] ∧ x.guarded = true)
      | none => false) = true := by decide +kernel

/-! ### Vector instructions -/

/-- A register with one value in every cell. -/
def every (v : W32) : VReg := List.replicate 1024 v

/-- A register whose cell e holds e. -/
def iota : VReg := (List.range 1024).map (BitVec.ofNat 32)

/-- The compute task with v4 = a, v5 = b, v6 the indices, and a block at the head of each queue. -/
def vecs (a b : W32) : State :=
  (sA.modHere fun c => { c with vfile := [(4, every a), (5, every b), (6, iota)] }).modMe fun t =>
    { t with
      pend := [], fq0 := ⟨true, 9, 3, 0, (List.range 32).map fun n => ⟨96 + n, 0, false, List.replicate 128 7⟩⟩
      fq1 := ⟨true, 10, 0, 0, (List.range 32).map fun n => ⟨n, 0, false, List.replicate 128 8⟩⟩ }

/-- Cell e of the vector result in flight. -/
def cellAfter (i : Instr) (s : State) (e : Nat) : Option W32 :=
  match (out i s).me.pend with
  | [⟨.vec _ m v, _, _⟩] => if m.getLsbD e then some (v.cell e) else none
  | _ => none

/-- Cell 65 of the result on v4 and v5. -/
def lane (i : Instr) (a b : W32) : Option W32 := cellAfter i (vecs a b) 65

/-- FP32 lanes: 3 + 1, 3 - 1, 3 × 1, 0 + 3 × 1, min, max, |-3|, -3 (Table 6.3); a NaN is canonical (R55). -/
theorem test_vector_float : lane (.vadd on 3 4 5 0 0) 0x40400000 0x3F800000 = some 0x40800000
    ∧ lane (.vsub on 3 4 5 0 0) 0x40400000 0x3F800000 = some 0x40000000 ∧ lane (.vmul on 3 4 5 0 1) 0x40400000 0xC0000000 = some 0xC0C00000
    ∧ lane (.vfma on 4 4 5 0 0) 0x40400000 0x3F800000 = some 0x40C00000 ∧ lane (.vfms on 4 4 5 0 0) 0x40400000 0x40000000 = some 0x40400000
    ∧ lane (.vmin on 3 4 5 0) 0x40400000 0xC0000000 = some 0xC0000000 ∧ lane (.vmax on 3 4 5 0) 0x40400000 0xC0000000 = some 0x40400000
    ∧ lane (.vabs on 3 4 0) 0xC0400000 0 = some 0x40400000 ∧ lane (.vneg on 3 4 0) 0xC0400000 0 = some 0x40400000
    ∧ lane (.vadd on 3 4 5 0 0) 0xFFFFFFFF 0x3F800000 = some 0x7FC00000 := by decide +kernel

/-- Integer lanes: saturating and wrapping sums, the high product, shifts modulo the width, logic (Table 6.3). -/
theorem test_vector_integer : lane (.vadds on 3 4 5 3) 0x7FFFFFFF 1 = some 0x7FFFFFFF ∧ lane (.vadd on 3 4 5 3 0) 0x7FFFFFFF 1 = some 0x80000000
    ∧ lane (.vsubs on 3 4 5 4) 1 2 = some 0 ∧ lane (.vmulh on 3 4 5 3) 0xFFFFFFFF 5 = some 0xFFFFFFFF
    ∧ lane (.vmulh on 3 4 5 4) 0xFFFFFFFF 5 = some 4 ∧ lane (.vshl on 3 4 5 4) 3 33 = some 6 ∧ lane (.vshr on 3 4 5 4) 0x80000000 31 = some 1
    ∧ lane (.vsra on 3 4 5 3) 0x80000000 31 = some 0xFFFFFFFF ∧ lane (.vand on 3 4 5) 12 10 = some 8 ∧ lane (.vor on 3 4 5) 12 10 = some 14
    ∧ lane (.vxor on 3 4 5) 12 10 = some 6 ∧ lane (.vnot on 3 4) 0xFFFFFFF0 0 = some 15 := by decide +kernel

/-- Moves: cell (1, 1) is lane 65; VPERM gives 0 out of range (R144, R148). -/
theorem test_vector_moves : lane (.vsel on 3 4 5 3) 1 2 = some 2 ∧ cellAfter (.vsel on 3 4 5 3) (vecs 1 2) 7 = some 1
    ∧ lane (.vmov on 3 6) 0 0 = some 65 ∧ lane (.vsplat on 3 1 0) 0 0 = some 0x123 ∧ lane (.viotaRow on 3) 0 0 = some 1
    ∧ lane (.viotaCol on 3) 0 0 = some 1 ∧ lane (.viotaLin on 3) 0 0 = some 65 ∧ lane (.vbrow on 3 6 15) 0 0 = some 961
    ∧ lane (.vbcol on 3 6 63) 0 0 = some 127 ∧ lane (.vrotr on 3 6 2) 0 0 = some 127 ∧ lane (.vrotc on 3 6 2) 0 0 = some 961
    ∧ lane (.vpermRow on 3 6 5) 0 63 = some 127 ∧ lane (.vpermRow on 3 6 5) 0 64 = some 0 ∧ lane (.vpermCol on 3 6 5) 0 15 = some 961
    ∧ lane (.vpermCol on 3 6 5) 0 16 = some 0 ∧ lane (.vxp on 3 6) 0 0 = some 65 ∧ cellAfter (.vxp on 3 6) (vecs 0 0) 1 = some 64
    ∧ flight (.vbrow on 3 6 15) (vecs 0 0) = [3] ∧ flight (.vmov on 3 6) (vecs 0 0) = [1] := by decide +kernel

/-- A row of 64 ones sums to 64, a column of 16 to 16; prefixes; an integer sum saturates (R147). -/
theorem test_reductions : lane (.vredr on 3 4 0 0 3 0) 1 0 = some 64 ∧ lane (.vredc on 3 4 0 0 3 0) 1 0 = some 16
    ∧ lane (.vscanr on 3 4 0 0 3 0) 1 0 = some 2 ∧ lane (.vscanc on 3 4 0 0 3 0) 1 0 = some 2
    ∧ lane (.vredr on 3 6 1 0 4 0) 0 0 = some 127 ∧ lane (.vredr on 3 4 0 0 3 0) 0x7FFFFFFF 0 = some 0x7FFFFFFF
    ∧ lane (.vredc on 3 4 0 0 0 1) 0x3F800000 0 = some 0x41800000 := by decide +kernel

/-- The worked example of chapter 6: a row of 2^24 and sixty-three 1.0, folded in ascending order, as a tree, and with
2^24 last. -/
theorem test_ordered_sums :
    foldOrdered 0 .rne (0x4B800000 :: List.replicate 63 0x3F800000) = (0x4B800000, flagNX)
    ∧ reduceCells 0 0 .rne true (0x4B800000 :: List.replicate 63 0x3F800000) = (0x4B80001F, flagNX)
    ∧ foldOrdered 0 .rne (List.replicate 63 0x3F800000 ++ [0x4B800000]) = (0x4B800020, flagNX) := by decide +kernel

/-- VCMP, the lane-predicate functions, QCNT, VEXT and VINS. -/
theorem test_lane_predicates :
    (match (out (.vcmp on 0 3 6 5 4 2) (vecs 0 65)).me.pend with
      | [⟨.lanes p m v, 1, 0⟩] => decide (p = 3) && m.getLsbD 64 && v.getLsbD 64 && !v.getLsbD 65
      | _ => false) = true
    ∧ (out (.qand on 4 3 9) sA).me.qreg 4 = 0xF0 ∧ (out (.qor on 4 3 9) sA).me.qreg 4 = 0xF0FF ∧ (out (.qxor on 4 3 9) sA).me.qreg 4 = 0xF00F
    ∧ (out (.qnot on 4 0) sA).me.qreg 4 = 0 ∧ (out (.qcnt on 7 9) sA).me.sreg 7 = 8
    ∧ s3After (.vext on 3 6 2) (vecs 0 0) = some 1008 ∧ lane (.vins on 3 1 2) 0 0 = none
    ∧ cellAfter (.vins on 3 1 2) (vecs 0 0) 1008 = some 0x123 := by decide +kernel

/-- Special operands and rounded results (Tables 7.3 and 7.4, the worked example of chapter 7): 1/3 under RNE and .rz, the
square root of 2, e^0, log2 8, tanh and sin of 0, cos 0, 1/(1+e^0). -/
theorem test_special_functions : lane (.frcp on 3 4 0) 0x40400000 0 = some 0x3EAAAAAB ∧ lane (.frcp on 3 4 1) 0x40400000 0 = some 0x3EAAAAAA
    ∧ lane (.fsqrt on 3 4 0) 0x40000000 0 = some 0x3FB504F3 ∧ lane (.frsq on 3 4 0) 0x40800000 0 = some 0x3F000000
    ∧ lane (.fexp2 on 3 4 0) 0x40400000 0 = some 0x41000000 ∧ lane (.fexp on 3 4 0) 0 0 = some 0x3F800000
    ∧ lane (.flog2 on 3 4 0) 0x41000000 0 = some 0x40400000 ∧ lane (.flog2 on 3 4 0) 0 0 = some 0xFF800000
    ∧ lane (.fdiv on 3 4 5 0) 0x3F800000 0x40400000 = some 0x3EAAAAAB ∧ lane (.fdiv on 3 4 5 0) 0x3F800000 0x80000000 = some 0xFF800000
    ∧ lane (.ftanh on 3 4 0) 0x80000000 0 = some 0x80000000 ∧ lane (.fsigm on 3 4 0) 0 0 = some 0x3F000000
    ∧ lane (.fsin on 3 4 0) 0x7F800000 0 = some 0x7FC00000 ∧ lane (.fcos on 3 4 0) 0 0 = some 0x3F800000 := by decide +kernel

/-- The nearest FP32 to e^1, sin 1, cos 1, tanh 1 and 1/(1+e^-1), from their known decimal expansions (R156). -/
theorem test_special_values : lane (.fexp on 3 4 0) 0x3F800000 0 = some 0x402DF854 ∧ lane (.fsin on 3 4 0) 0x3F800000 0 = some 0x3F576AA4
    ∧ lane (.fcos on 3 4 0) 0x3F800000 0 = some 0x3F0A5140 ∧ lane (.ftanh on 3 4 0) 0x3F800000 0 = some 0x3F42F7D6
    ∧ lane (.fsigm on 3 4 0) 0x3F800000 0 = some 0x3F3B26A8 := by decide +kernel

/-- Table 3.8: CVT.e4m3.f32 under RNE and .rz. -/
theorem test_cvt_e4m3 : lane (.cvt on 3 4 0 3 0) 0x3F880000 0 = some 0x38 ∧ lane (.cvt on 3 4 0 3 1) 0x3F880000 0 = some 0x38
    ∧ lane (.cvt on 3 4 0 3 0) 0x3F980000 0 = some 0x3A ∧ lane (.cvt on 3 4 0 3 1) 0x3F980000 0 = some 0x39
    ∧ lane (.cvt on 3 4 0 3 0) 0x43E60000 0 = some 0x7E ∧ lane (.cvt on 3 4 0 3 1) 0x43FA0000 0 = some 0x7E
    ∧ lane (.cvt on 3 4 0 3 0) 0x3A800000 0 = some 0x00 ∧ lane (.cvt on 3 4 0 3 0) 0xFF800000 0 = some 0x7F := by decide +kernel

/-- QNT4 of a row of 6.0 has code 7 in every place and a scale that DQNT4 undoes (R61, R82); the generator (R75, R78). -/
theorem test_quantise_generator :
    (out (.rngseed on 1 2) sA).me.rng = ⟨0x123, 0xFFFFFFFFFFFFFFF0, 0⟩ ∧ (out (.rngskip on 3) sA).me.rng = ⟨1, 2, 10⟩
    ∧ (out (.cvt on 3 4 0 1 2) (vecs 1 2)).me.rng.taken = 4 := by decide +kernel

/-- A check of `Poppable`. -/
def poppableB (q : InQueue) : Bool := q.bound && q.complete && q.poisoned.isNone

/-- A check of `VecRuns`. -/
def vecRunsB (src : List Nat) (dst : Option Nat) (s : State) : Bool :=
  mayB s && quietB s && src.all (fun v => s.me.backed v || decide (v = 30) || decide (v = 31)) && dst.all (fun v => s.me.backed v)
    && (!src.contains 30 || (poppableB s.me.fq0 && !s.inRegion)) && (!src.contains 31 || (poppableB s.me.fq1 && !s.inRegion))

theorem poppable_of {q : InQueue} (h : poppableB q = true) : Poppable q := by
  simp only [poppableB, Bool.and_eq_true, Option.isNone_iff_eq_none] at h
  exact ⟨h.1.1, h.1.2, h.2⟩

theorem vecRuns_of {src : List Nat} {dst : Option Nat} {s : State} (h : vecRunsB src dst s = true) : VecRuns src dst s := by
  simp only [vecRunsB, Bool.and_eq_true, List.all_eq_true, Bool.or_eq_true, decide_eq_true_eq, Option.all_eq_true,
    Bool.not_eq_true', List.contains_eq_mem, decide_eq_false_iff_not] at h
  obtain ⟨⟨⟨⟨⟨h1, h2⟩, h3⟩, h4⟩, h5⟩, h6⟩ := h
  refine ⟨may_of h1, quiet_of h2, fun v hv => ?_, fun v hv => h4 v hv, fun hm => ?_, fun hm => ?_⟩
  · rcases h3 v hv with (h | h) | h
    · exact .inl h
    · exact .inr (.inl h)
    · exact .inr (.inr h)
  · rcases h5 with h | h
    · exact absurd hm h
    · exact ⟨poppable_of h.1, h.2⟩
  · rcases h6 with h | h
    · exact absurd hm h
    · exact ⟨poppable_of h.1, h.2⟩

/-- The premises of the vector statements: backed registers to v29, both queue heads, and no source. -/
theorem witness_VectorArithmetic : VecRuns [4, 29] (some 29) (vecs 1 2) ∧ VecRuns [30, 31] (some 0) (vecs 1 2)
    ∧ ((out (.vadd on 3 30 31 0 0) (vecs 1 2)).me.fq0.complete = false) :=
  ⟨vecRuns_of (by decide +kernel), vecRuns_of (by decide +kernel), by decide +kernel⟩
theorem witness_VectorMoves : VecRuns [4, 5] (some 3) (vecs 1 2) ∧ VecRuns [] (some 3) (vecs 1 2) ∧ VecRuns [30] (some 3) (vecs 1 2) :=
  ⟨vecRuns_of (by decide +kernel), vecRuns_of (by decide +kernel), vecRuns_of (by decide +kernel)⟩
theorem witness_VectorReductions : VecRuns [4] (some 3) (vecs 1 2) ∧ VecRuns [31] (some 3) (vecs 1 2) :=
  ⟨vecRuns_of (by decide +kernel), vecRuns_of (by decide +kernel)⟩
theorem witness_LanePredicatesAndElements : VecRuns [4, 30] none (vecs 1 2) ∧ VecRuns [] none (vecs 1 2)
    ∧ VecRuns [31] none (vecs 1 2) ∧ VecRuns [] (some 29) (vecs 1 2) :=
  ⟨vecRuns_of (by decide +kernel), vecRuns_of (by decide +kernel), vecRuns_of (by decide +kernel), vecRuns_of (by decide +kernel)⟩

/-- The premises of each clause of SpecialFunctions: the F unit free, occupied, and a guard that is false. -/
theorem witness_SpecialFunctions : ∃ m, VecRuns [4, 30] (some 3) (vecs 1 2) ∧ (vecs 1 2).me.guardOn gT = true ∧ (vecs 1 2).here.fBusy = 0
    ∧ (out (.frcp gT 3 4 0) (vecs 1 2)).here.fBusy = 4 ∧ VecRuns [4] (some 3) (vecs 1 2) ∧ (vecs 1 2).me.guardOn off = false
    ∧ (out (.frcp off 3 4 0) (vecs 1 2)).here.fBusy = 4 ∧ (out (.frcp off 3 4 0) (vecs 1 2)).me.pend = []
    ∧ (let s := sA.modHere fun c => { c with fBusy := 1 };
      slotSem (.frcp off 3 4 0) = some m ∧ m.funit = true ∧ mayB s = true ∧ m.isIllegal s = false ∧ s.here.fBusy ≠ 0
      ∧ out (.frcp off 3 4 0) s = s) := by
  refine ⟨_, vecRuns_of (by decide +kernel), ?_, ?_, ?_, vecRuns_of (by decide +kernel), ?_, ?_, ?_, rfl, ?_, ?_, ?_, ?_, ?_⟩ <;>
    decide +kernel

/-- The premises of ConversionsAndGenerator. -/
theorem witness_ConversionsAndGenerator : VecRuns [4, 5] (some 3) (vecs 1 2) ∧ Runs gT sA ∧ sA.here.fBusy = 0 ∧ (vecs 1 2).here.fBusy = 0 :=
  ⟨vecRuns_of (by decide +kernel), runs_sA, by decide +kernel, by decide +kernel⟩

/-! ### Memory and consistency -/

/-- The compute task with a window of three steps from step 2, whose page table maps a page that starts at 2^30 to physical
2^21: a0 stands at the window's byte 0x400, a1 at a line of the page of which the core holds a dirty copy with the write
right, a2 at the last four bytes of the window, a3 past it, a4 at an address that 4 does not divide. -/
def sM : State :=
  let s := sA.modMe fun t =>
    { t with
      wbase := 2, wsize := 3
      ags := [(0, ⟨0x8000000000000400, [(0, 5), (1, 7)], [(0, 256), (1, 1024)], [(0, 1)]⟩), (1, ⟨0x40000080, [(0, 5)], [(0, 64)], []⟩),
        (2, ⟨0x80000000000BFFFC, [], [], []⟩), (3, ⟨0x80000000000C0000, [], [], []⟩), (4, ⟨0x8000000000000401, [], [], []⟩),
        (5, ⟨0x8000000000000400, [(0, 40)], [(0, 256)], []⟩), (6, ⟨0x40000082, [], [], []⟩)] }
  let s := s.modHere fun c => { c with
    l1 := [⟨0x4001, 5, 0x40000080, jobKey 5, 0, .write, 500, 600, true, 0, [], (List.range 128).map (BitVec.ofNat 8)⟩] }
  let s := { s with keys := [⟨5, [], []⟩] }.modLodge 0 fun l => { l with troot := 0x20000 }
  { s with mem := (((s.mem.setBytes 0x20000 (leBytes 8 0x30001)).setBytes 0x30000 (leBytes 8 0x40001)).setBytes 0x41000
      (leBytes 8 0x200007)).setBytes (windowAddr s.cur.coreRef s.me 0x500) [0x81, 0x82, 0x83, 0x84, 0x85, 0x86, 0x87, 0x88] }

/-- The rows of a scalar access and of a vector access of type 0. -/
def row1 (ag : BitVec 3) (size : Nat) (s : State) : List Row := [⟨(s.me.ag ag.toNat).addr + sext (0 : BitVec 8) * BitVec.ofNat 64 size, size⟩]
def rows16 (ag : BitVec 3) (s : State) : List Row :=
  ((s.me.ag ag.toNat).points 16).map fun a => ⟨a + sext (0 : BitVec 8) * BitVec.ofNat 64 256, 256⟩

/-- A check of `LoadReady` and of `StoreReady`. -/
def loadReadyB (ro : Bool) (rows : List Row) (s : State) : Bool :=
  ((opened s).accessTrap false ro rows).isNone
    && (((opened s).modMe fun t => { t with time := loadTime ro rows s }).accessTrap false ro rows).isNone
    && (((opened s).modMe fun t => { t with time := loadTime ro rows s }).accessWait s false ro rows).isNone
def storeReadyB (rows : List Row) (s : State) : Bool :=
  (storeRegionTrap 0 rows (opened s)).isNone && ((opened s).accessTrap true false rows).isNone
    && ((opened s).accessWait s true false rows).isNone

theorem loadReady_of {ro : Bool} {rows : List Row} {s : State} (h : loadReadyB ro rows s = true) : LoadReady ro rows s := by
  simp only [loadReadyB, Bool.and_eq_true, Option.isNone_iff_eq_none] at h
  exact ⟨h.1.1, h.1.2, h.2⟩

theorem storeReady_of {rows : List Row} {s : State} (h : storeReadyB rows s = true) : StoreReady rows s := by
  simp only [storeReadyB, Bool.and_eq_true, Option.isNone_iff_eq_none] at h
  exact ⟨h.1.1, h.1.2, h.2⟩

/-- A check of `InWindow`. -/
def inWindowB (t : Task) (r : Row) : Bool :=
  isScratch r.ea && decide (r.ea.toNat / 2 ^ 22 % 2 ^ 41 = 0) && decide (r.ea.toNat % 2 ^ 22 + r.size ≤ t.windowBytes)
    && decide (r.ea.toNat % r.size = 0)

theorem inWindow_of {t : Task} {r : Row} (h : inWindowB t r = true) : InWindow t r := by
  simp only [inWindowB, Bool.and_eq_true, decide_eq_true_eq] at h
  exact ⟨h.1.1.1, h.1.1.2, h.1.2, h.2⟩

/-- The premises of each clause of LoadsReachTheWindowAndTheLines: the window, its last word, a line, sixteen rows. -/
theorem witness_LoadsReachTheWindowAndTheLines : Runs gT sM ∧ LoadReady false (row1 0 4 sM) sM ∧ LoadReady true (row1 0 4 sM) sM
    ∧ LoadReady false (row1 2 4 sM) sM ∧ LoadReady false (row1 1 4 sM) sM ∧ LoadReady false (rows16 5 sM) sM
    ∧ sM.me.backed (29 : BitVec 5).toNat = true ∧ (∀ r ∈ row1 2 4 sM, InWindow sM.me r) ∧ ∀ r ∈ rows16 5 sM, InWindow sM.me r := by
  refine ⟨runs_of ?_, loadReady_of ?_, loadReady_of ?_, loadReady_of ?_, loadReady_of ?_, loadReady_of ?_, ?_, fun r h => ?_, fun r h => ?_⟩
  · decide +kernel
  · decide +kernel
  · decide +kernel
  · decide +kernel
  · decide +kernel
  · decide +kernel
  · decide +kernel
  · exact inWindow_of ((by decide +kernel : ∀ r ∈ row1 2 4 sM, inWindowB sM.me r = true) r h)
  · exact inWindow_of ((by decide +kernel : ∀ r ∈ rows16 5 sM, inWindowB sM.me r = true) r h)

/-- Loads are little-endian (R6), extend by their type (Table 8.5), and step the generator; an access past the window traps
0x20 and a misaligned one 0x21 (R160). -/
theorem test_loads : (out (.ld on 3 0 0 6 0) sM).me.pend.getLast? = some ⟨.scalar 3 0x8887868584838281, 2, 0⟩
    ∧ (out (.ld on 3 0 0 0 0) sM).me.pend.getLast? = some ⟨.scalar 3 0x81, 2, 0⟩
    ∧ (out (.ld on 3 0 1 1 1) sM).me.pend.getLast? = some ⟨.scalar 3 0xFFFFFFFFFFFFFF82, 2, 0⟩
    ∧ (out (.ld on 3 1 0 4 1) sM).me.pend.getLast? = some ⟨.scalar 3 0x07060504, 2, 0⟩
    ∧ ((out (.ld on 3 0 1 1 1) sM).me.ag 0).idx = [(0, 2)]
    ∧ out (.ld on 3 3 0 4 0) sM = sM.takeTrap sM.cur ⟨0x20, 0x80000000000C0000⟩
    ∧ out (.ld on 3 4 0 4 0) sM = sM.takeTrap sM.cur ⟨0x21, 0x8000000000000401⟩ := by decide +kernel

/-- A vector load reads sixteen rows of 64 cells. -/
theorem test_vector_load : (match (out (.vld on 3 5 1 0 1) sM).me.pend.getLast? with
    | some ⟨.vec p _ v, 2, 0⟩ => decide (p = 3) && decide (v.cell 0 = 0x84838281) && decide (v.cell 1 = 0x88878685) && decide (v.cell 64 = 0)
    | _ => false) = true := by decide +kernel

/-- The premises of each clause of StoresWriteTheirBytesAlone: a scalar and a vector store, the window and a held line. -/
theorem witness_StoresWriteTheirBytesAlone : Runs gT sM ∧ StoreReady (row1 2 4 sM) sM ∧ StoreReady (row1 1 4 sM) sM ∧ StoreReady (rows16 5 sM) sM
    ∧ VecRuns [(29 : BitVec 5).toNat] none sM ∧ (∀ r ∈ rows16 5 sM, InWindow sM.me r)
    ∧ (∃ x, (opened sM).plan true (row1 1 4 sM) = .ok [⟨[.home 0x200080 4 0], some x⟩])
    ∧ (out (.st on 1 2 0 4 0) sM).mem = sM.mem.setBytes (windowAddr sM.cur.coreRef sM.me 0xBFFFC) [0x23, 1, 0, 0]
    ∧ (out (.st on 1 1 0 4 0) sM).mem = sM.mem ∧ ((out (.st on 1 1 0 4 0) sM).here.l1.map fun l => l.data.take 5) = [[0x23, 1, 0, 0, 4]] := by
  refine ⟨runs_of ?_, storeReady_of ?_, storeReady_of ?_, storeReady_of ?_, vecRuns_of ?_, fun r h => ?_, ⟨_, rfl⟩, ?_⟩
  · decide +kernel
  · decide +kernel
  · decide +kernel
  · decide +kernel
  · decide +kernel
  · exact inWindow_of ((by decide +kernel : ∀ r ∈ rows16 5 sM, inWindowB sM.me r = true) r h)
  · decide +kernel

/-- The premises of each clause of GeneratorsHintsAndPhase: a line, no line, window sizes kept, grown to the last step, given up,
one past what the task can have, and a bar that is open. -/
theorem witness_GeneratorsHintsAndPhase : Runs gT sM ∧ (opened sM).hintLine 0 = none ∧ (opened sM).hintLine 1 = some (0x4001, 0)
    ∧ (∀ l ∈ sM.here.l1, l.data.length = 128) ∧ (∃ l, (sM.here.l1.find? fun l => l.holds 0x4001 .write) = some l ∧ l.right = .write
      ∧ l.dirty = true ∧ l.gen = sM.genOf (0x4001 * 128) ∧ sM.hasKey l.key = true)
    ∧ sM.inRegion = false ∧ sM.me.wsize = 3 ∧ sM.me.wbase + (10 : BitVec 4).toNat ≤ 12 ∧ (∀ m < 12, 5 ≤ m → sM.stepTaken m = false)
    ∧ sM.tilePast (1 * stepBytes) = false ∧ 12 < sM.me.wbase + (11 : BitVec 4).toNat
    ∧ (out (.phase gT 10) sM).me.barLeft = 7 * 1024 ∧ (out (.phase gT 1) sM).me.moveLen = 2 ∧ (out (.phase gT 3) sM).me.barLeft = 0
    ∧ out (.phase gT 11) sM = sM.takeTrap sM.cur ⟨0x23, 11⟩
    ∧ (let s := sM.modMe fun t => { t with barLeft := 1 };
      mayB s = true ∧ s.me.guardOn gT = true ∧ 0 < s.me.barLeft ∧ out (.phase gT 3) s = s.takeTrap s.cur ⟨0x22, 3⟩)
    ∧ (out (.clean gT 1) sM).mem.bytes 0x200080 128 = (List.range 128).map (BitVec.ofNat 8)
    ∧ (out (.clean gT 1) sM).here.l1.map L1Line.dirty = [false] ∧ (out (.inval gT 1) sM).here.l1 = []
    ∧ ((out (.pref gT 1) sM).here.l1req.map L1Req.line) = [0x4001] := by
  refine ⟨runs_of (by decide +kernel), ?_, ?_, ?_, ⟨_, rfl, ?_, ?_, ?_, ?_⟩, ?_⟩ <;> decide +kernel

/-- AGSET of a stride and AGSTEP by 5: the inner index turns over and the outer one rises (R161, R163). -/
theorem test_generators : ((out (.agset on 1 0 7) sM).me.ag 0).stride = [(0, 0x123), (1, 1024)]
    ∧ ((out (.agstep on 0 5) sM).me.ag 0).idx = [(0, 1), (1, 1)] := by decide +kernel

/-- A tile entry in each state, with EXPECT 300 and PHASE 1; the word of a definition in s1, and zero in s4. -/
def sTile (st : TileState) (v : Bool) (w : W64) : State :=
  (sM.modHere fun c => c.setTile (physTile sM.cur 5) ⟨1, 4, v, 300, 20, st, true, 900⟩).modMe fun t => (t.setSreg 1 w).setSreg 4 0

/-- The premises of each clause of TileTable: the first entry the core does not have, each state of an entry, lengths 0 and 7, and
the largest EXPECT of the length. -/
theorem witness_TileTable : (let w : W64 := BitVec.ofNat 64 (3 + 7 * 2 ^ 16 + 896 * 2 ^ 32);
      let s := fun st => sTile st true w;
      runsB gT (s .empty) = true ∧ runsB gT (s .filling) = true ∧ tileCount sM.cur.core = 64 ∧ tileCount sM.cur.core ≤ (64 : BitVec 8).toNat
      ∧ (s .ready).myTile 5 = ⟨1, 4, true, 300, 20, .ready, true, 900⟩
      ∧ w.toNat / 2 ^ 54 = 0 ∧ w.toNat / 2 ^ 15 % 2 = 0 ∧ w.toNat / 2 ^ 31 % 2 = 0 ∧ w.toNat / 2 ^ 32 % 2 ^ 22 = 7 * 128
      ∧ (3 + 7) * 128 ≤ (s .empty).me.windowBytes
      ∧ (out (.ttdef gT 1 5) (s .ready)).myTile 5 = ⟨3, 7, true, 896, 0, .empty, true, 0⟩
      ∧ ((out (.ttdef gT 4 5) (s .empty)).myTile 5).v = false
      ∧ out (.ttdef gT 1 5) (s .filling) = (s .filling).takeTrap sM.cur ⟨0x25, 5⟩
      ∧ out (.ttdef gT 1 5) (s .draining) = (s .draining).takeTrap sM.cur ⟨0x25, 5⟩
      ∧ out (.ttwait gT 1 5) (sTile .ready false 1) = (sTile .ready false 1).takeTrap sM.cur ⟨0x26, 5⟩
      ∧ out (.ttwait gT 1 64) (s .ready) = (s .ready).takeTrap sM.cur ⟨0x02, 0⟩
      ∧ out (.ttwait gT 1 5) (sTile .ready true 1) = sTile .ready true 1
      ∧ (out (.ttwait gT 4 5) (s .ready)).me.time = 900
      ∧ out (.ttfree gT 5) (s .filling) = s .filling ∧ ((out (.ttfree gT 5) (s .ready)).myTile 5).st = .empty
      ∧ (out (.ttstat gT 7 5) (s .ready)).me.sreg 7 = BitVec.ofNat 64 (20 + 300 * 2 ^ 22 + 2 * 2 ^ 44 + 3 * 2 ^ 46)) := by
  decide +kernel

/-- A checkpoint region of slot 0 that is open. -/
def region0 : Region := ⟨task0, [], 5, [], 0, 0, true, [], 0, [], false⟩
def sRegion : State := sM.modHere fun c => { c with regions := [(0, some region0)] }

/-- The premises of each clause of FencesAndAtomicsHoldTheTask: aligned and misaligned addresses, an ordered form in an open set,
and a region. -/
theorem witness_FencesAndAtomicsHoldTheTask : Runs gT sM ∧ Runs gT sRegion ∧ sM.inRegion = false ∧ sRegion.inRegion = true
    ∧ (let va := (sM.me.ag 1).addr;
      va.toNat < 2 ^ 56 ∧ va.toNat % 8 = 0 ∧ (sM.me.ag 6).addr.toNat % 4 ≠ 0 ∧ (sM.me.ag 6).addr.toNat < 2 ^ 56
      ∧ ((out (.aadd gT 2 1 2 0 1) sM).me.holds.map fun h => match h with
        | .atomic a => decide (a.op = 0 ∧ a.wide = true ∧ a.pa = 0x200080 ∧ a.operand = 0xFFFFFFFFFFFFFFF0 ∧ a.dest = 2 ∧ a.scope = 2)
        | _ => false) = [true]
      ∧ out (.aadd gT 2 6 2 0 0) sM = sM.takeTrap sM.cur ⟨0x21, 0x40000082⟩
      ∧ out (.aadd gT 2 1 2 0 1) sRegion = sRegion.takeTrap sRegion.cur ⟨0x24, 0⟩
      ∧ (out (.fence gT 3) sM).me.holds = [.fence 3 false none 0] ∧ (out (.fenceRo gT 0) sM).me.holds = [.fence 0 true none 0])
    ∧ (let s := sM.modMe fun t => { t with openSet := some 0 };
      s.me.openSet ≠ none ∧ ((out (.aincb gT 2 1 2 1 0 1) s).me.holds.map fun h => match h with
        | .atomic a => decide (a.op = 7 ∧ a.uns = true ∧ a.ordered = some 0)
        | _ => false) = [true])
    ∧ ∃ e, (opened sM).atomicPlace ⟨0, true, false, none, none, none, 2, 2, 0, 0, (sM.me.ag 1).addr, 0, 0, none, 0, 0, 0⟩ (sM.me.ag 1).addr = .ok e := by
  refine ⟨runs_of (by decide +kernel), runs_of (by decide +kernel), ?_, ?_, ?_, ?_, ⟨_, rfl⟩⟩ <;> decide +kernel

/-- A launch with a set of two, in which the task may join, has joined, and has the set open. -/
def sSets : State := sLaunch.modMe fun t => t.setSreg 6 0
def sOpen : State := out (.aordJoin gT 6) sSets

/-- The premises of each clause of OrderedSets: ordinals 0, 15 and 16, a set with room, a set that is open. -/
theorem witness_OrderedSets : runsB gT sSets = true ∧ sSets.inRegion = false ∧ sSets.launch? sSets.me.launch = some launch0
    ∧ launch0.kernel.sets[(sSets.sreg 6).toNat]? = some 2 ∧ sSets.me.openSet = none ∧ (sSets.sreg 6).toNat ∉ sSets.me.joined
    ∧ (launch0.sets.get OrdSet.none 0).joined.length < 2
    ∧ sOpen.me.openSet = some 0 ∧ ((sOpen.launch? 0).map fun l => l.sets) = some [(0, ⟨2, [17], [], 0⟩)]
    ∧ (let s := sOpen.modMe fun t => { t with pend := [] };
      runsB gT s = true ∧ out (.aordJoin gT 6) s = s.takeTrap s.cur ⟨0x66, 0⟩
      ∧ ((out (.aordClose gT 6) s).launch? 0).map (fun l => l.sets) = some [(0, ⟨2, [17], [17], 0⟩)]
      ∧ (out (.aordClose gT 6) s).me.openSet = none)
    ∧ (let s := sSets.modMe fun t => t.setSreg 6 16; 16 ≤ (s.sreg 6).toNat ∧ out (.aordJoin gT 6) s = s.takeTrap s.cur ⟨0x66, 0⟩)
    ∧ out (.aordClose gT 6) sSets = sSets.takeTrap sSets.cur ⟨0x66, 0⟩ := by decide +kernel

/-! ### Commands and the array -/

/-- The compute task with tokens in every state; descriptor e0 names a block with bindings to a PENDING, a FAULTED and a DONE
token, e1 a copy of two elements of 64 bytes in the window with a source entry that it releases, e2 a gather and a scatter, e3 a
stream and e4 an output; it holds operand slot 0 and a sub-array with a latch, and a tile of one unit of 16 columns. -/
def sK : State :=
  let s := sM.modMe fun t =>
    { t with
      tokens := [(2, ⟨.done, 0, 50⟩), (3, ⟨.pending, 0, 0⟩), (4, ⟨.faulted, 0x44, 60⟩), (5, ⟨.faulted, 0x47, 70⟩), (6, ⟨.done, 0, 5000⟩)]
      desc := [(0, 0x4000), (21, 67), (22, 68), (23, 66),
        (64, 0x400000), (65, 0x8000000000000100), (66, 64), (67, 2), (73, 64), (79, 64), (89, 775),
        (128, 0x8000000000000000), (129, 0x8000000000010000), (130, 4), (131, 1), (132, 2), (154, 0x8000000000020000), (155, 4), (156, 16),
        (192 + 34, 16), (192 + 35, 3), (192 + 36, 1),
        (256 + 40, 1), (256 + 41, 0x100), (256 + 42, 64), (256 + 36, 1)] }
  s.modHere fun c => { (c.setTile (physTile sM.cur 7) ⟨1, 4, true, 300, 300, .ready, true, 900⟩) with
    mode := 2, slotOwner := [(0, some 0)], subOwner := [(0, some 0)]
    latches := [(0, some ⟨0x30, (List.range 1024).map (BitVec.ofNat 8)⟩)], units := [(3, ⟨3, 1, 2, 0, true, 0⟩)] }

/-- The premise of each clause of CommandsTakeTheirToken. -/
theorem witness_CommandsTakeTheirToken : Acts (.cpy gT 1 1) sK ∧ Acts (.gth gT 1 2) sK ∧ Acts (.sct gT 1 2) sK ∧ Acts (.mstrm gT 1 3 3) sK
    ∧ Acts (.mout gT 1 4 3) sK ∧ Acts (.tmm gT 1 0 1 0) sK ∧ Acts (.tew gT 1 0 1) sK ∧ Acts (.tred gT 1 0 1 1) sK
    ∧ Acts (.tscan gT 1 0 0 0) sK ∧ Acts (.txp gT 1 0) sK ∧ Acts (.tcvt gT 1 0 1) sK ∧ Acts (.tcpy gT 1 0) sK ∧ Acts (.tbc gT 1 0) sK
    ∧ Acts (.mcst gT 1 0) sK ∧ Acts (.coll gT 1 0 1 1) sK := by
  refine ⟨acts_of rfl ?_, acts_of rfl ?_, acts_of rfl ?_, acts_of rfl ?_, acts_of rfl ?_, acts_of rfl ?_, acts_of rfl ?_, acts_of rfl ?_,
    acts_of rfl ?_, acts_of rfl ?_, acts_of rfl ?_, acts_of rfl ?_, acts_of rfl ?_, acts_of rfl ?_, acts_of rfl ?_⟩ <;> decide +kernel

/-- The command that an instruction puts at token 1. -/
def cmdOf (i : Instr) : Option Cmd := (out i sK).here.cmd 1

/-- Bindings at issue (R215), the released source entry (R221), and the order of the array (R191). -/
theorem test_commands : (cmdOf (.tmm gT 1 0 1 0)).map (fun x => (x.kind, x.deps, x.depFault)) = some (.tile 0 true false, [3], some 4)
    ∧ (out (.tmm gT 1 0 1 0) sK).me.token 1 = ⟨.pending, 0, 0⟩
    ∧ (cmdOf (.coll gT 1 0 1 0)).map Cmd.kind = some (.coll true false) ∧ (cmdOf (.mcst gT 1 0)).map Cmd.kind = some .mcst
    ∧ (cmdOf (.cpy gT 1 1)).map (fun x => (x.kind, x.deps, x.inside)) = some (.cpy, [], true)
    ∧ ((out (.cpy gT 1 1) sK).here.tile (physTile sK.cur 7)).st = .draining ∧ (out (.cpy gT 1 1) sK).me.time = 900
    ∧ (out (.mstrm gT 1 3 3) sK).here.mcmds = [.token 0 1] := by decide +kernel

/-- A TLNCH of a control core, whose descriptor e0 is bound to a PENDING token. -/
def sTlnch : State := sC.modMe fun t => { t with tokens := [(3, ⟨.pending, 0, 0⟩)], desc := [(0, 0x4000), (21, 67)] }

/-- The premises of TlnchMakesALaunch, and what follows. -/
theorem witness_TlnchMakesALaunch : Acts (.tlnch gT 1 0) sTlnch ∧ (∀ l ∈ sTlnch.launches, l.seq < sTlnch.launches.length)
    ∧ (∃ n ∈ kinTokens (sTlnch.me.descriptor 0), (sTlnch.me.token n).st = .pending)
    ∧ ((out (.tlnch gT 1 0) sTlnch).launches.map fun l => (l.seq, l.tlnch, l.loaded)) = [(0, some (⟨2, 97⟩, 1), false)] := by
  refine ⟨acts_of rfl ?_, ?_, ⟨3, ?_⟩, ?_⟩ <;> decide +kernel

/-- A running tile instruction under token 1. -/
def sTmm : State := (out (.tmm gT 1 0 1 0) sK).modMe fun t => { t with pend := [] }

/-- The premises of each clause of TokensAreWaitedTestedAndReleased: the first token the core does not have, and a token of each
state; an instruction to abort, and none. -/
theorem witness_TokensAreWaitedTestedAndReleased : Runs gT sK ∧ tokenCount sK.cur.core = 16 ∧ tokenCount sK.cur.core ≤ (16 : BitVec 6).toNat
    ∧ (15 : BitVec 6).toNat < tokenCount sK.cur.core ∧ out (.kwait gT 16) sK = sK.takeTrap sK.cur ⟨0x02, 0⟩
    ∧ (sK.me.token 3).st = .pending ∧ out (.kwait gT 3) sK = sK ∧ out (.krel gT 3) sK = sK ∧ out (.twait gT 3 9) sK = sK
    ∧ (sK.me.token 4).st = .faulted ∧ out (.kwait gT 4) sK = sK.takeTrap sK.cur ⟨0x42, 4⟩
    ∧ (sK.me.token 6).st = .done ∧ (out (.kwait gT 6) sK).me.time = 5000 ∧ (sK.me.token 15).st = .free
    ∧ (out (.kwait gT 15) sK).me.time = 101 ∧ (out (.krel gT 4) sK).me.token 4 = Token.free
    ∧ (out (.twait gT 4 9) sK).me.sreg 9 = 0x4402 ∧ (out (.twait gT 5 9) sK).me.sreg 9 = 0x4703 ∧ (out (.twait gT 6 9) sK).me.sreg 9 = 0
    ∧ (out (.ktest gT 3 5) sK).me.pred 5 = false ∧ (out (.ktest gT 6 5) sK).me.pred 5 = true ∧ (out (.tstat gT 4 9) sK).me.sreg 9 = 3
    ∧ sK.tileAt sK.cur.coreRef (physToken sK.cur 1) = none ∧ (out (.tabort gT 1 9) sK).me.sreg 9 = 1
    ∧ runsB gT sTmm = true ∧ (sTmm.tileAt sTmm.cur.coreRef (physToken sTmm.cur 1)).isSome = true ∧ (out (.tabort gT 1 9) sTmm).me.sreg 9 = 0
    ∧ (out (.edsc gT 1 2 44) sK).me.desc.get 0 172 = 0x123 := by
  refine ⟨runs_of ?_, ?_⟩ <;> decide +kernel

/-- The premises of each clause of ArrayResources: slots and sub-arrays that are free, held, out of the mode, of another task; a
core without an array. -/
theorem witness_ArrayResources : Runs gT sC ∧ isCompute sC.cur.core = false ∧ Runs gT sK ∧ isCompute sK.cur.core = true
    ∧ Acts (.mrel gT 0) sK ∧ Acts (.mrel gT 16) sK ∧ Acts (.msplit gT 1) (sK.modHere fun c => { c with subOwner := (List.range 4).map fun h => (h, some 0) })
    ∧ Acts (.mlatch gT 6 0) sK ∧ sK.here.mcmds = [] := by
  refine ⟨runs_sC, ?_, runs_of ?_, ?_, acts_of rfl ?_, acts_of rfl ?_, acts_of rfl ?_, acts_of rfl ?_, ?_⟩ <;> decide +kernel

/-- MCLAIM of what is free, held and absent; MREL zeroes the slot; MSPLIT drops the latches; MLATCH takes the image (R186, R185, R195). -/
theorem test_array_resources : (out (.mclaim gT 9 15) sK).me.sreg 9 = 1 ∧ (out (.mclaim gT 9 15) sK).here.slotOwner.get none 15 = some 0
    ∧ (out (.mclaim gT 9 19) sK).me.sreg 9 = 1 ∧ (out (.mclaim gT 9 19) (sK.modHere fun c => { c with mode := 1 })).me.sreg 9 = 0
    ∧ (out (.mclaim gT 9 0) (sK.modHere fun c => { c with slotOwner := [(0, some 1)] })).me.sreg 9 = 0
    ∧ (out (.mskip gT 1) sK).me.mskip = true ∧ out (.mskip gT 1) sC = sC.takeTrap sC.cur ⟨0x02, 0⟩
    ∧ (out (.mrel gT 16) sK).here.latches.get none 0 = none ∧ (out (.mrel gT 0) sK).here.slotOwner.get none 0 = none
    ∧ ((out (.mlatch gT 6 0) { sK with mem := [(operandBase sK.cur.coreRef + 5, 7)] }).here.latches.get none 0).map (fun l => l.image.take 6)
      = some [0, 0, 0, 0, 0, 7] := by decide +kernel

/-- The premises of each clause of AccumulatorTiles. -/
theorem witness_AccumulatorTiles : (let s := fun (v : W64) => sK.modMe fun t => t.setSreg 6 v;
      actsB (semMcfg gT 6 63) (s 0x201) = true ∧ (0x201 : Nat) % 32 ≠ 0 ∧ actsB (semMcfg gT 6 3) (s 0x200) = true ∧ (0x200 : Nat) % 32 = 0
      ∧ (out (.mcfg gT 6 63) (s 0x201)).here.accUnit 63 = ⟨63, 1, 2, 0, false, 0⟩ ∧ (out (.mcfg gT 6 3) (s 0x200)).here.accUnit 3 = AccUnit.free)
    ∧ Acts (.mzero gT 3) sK ∧ Acts (.mrd gT 4 3 3) sK ∧ Acts (.mwr gT 4 3 3) sK ∧ (sK.vreg 4).length = 1024
    ∧ runsB gT sK = true ∧ sK.here.cmds = [] ∧ sK.here.mcmds = []
    ∧ (let s := sK.modHere fun c => { c with units := [(3, ⟨3, 1, 2, 1, true, 0⟩)] };
      runsB gT s = true ∧ s.here.cmds = [] ∧ (s.here.accUnit 3).owner ≠ s.cur.slot ∧ s.me.backed 4 = true
      ∧ out (.mrd gT 4 3 3) s = s.takeTrap s.cur ⟨0x29, 3⟩) := by
  refine ⟨?_, acts_of rfl ?_, acts_of rfl ?_, acts_of rfl ?_, ?_⟩ <;> decide +kernel

/-- Flow queues: fq0 unbound, fq1 bound with one cell. -/
def sQ : State := (sA.modMe fun t =>
    { t with
      sregs := [(1, 0x12345678), (2, 0x80000000), (3, 0x100000000), (4, 0x300001234), (5, 0x80000000FFFFF)], pend := []
      fq1 := ⟨true, 5, 3, 0, [⟨97, 1, false, List.replicate 128 1⟩]⟩ })

/-- A cell that no Pavilion knows, held for the lodge of die 1. -/
def strayCell : Cell := ⟨0, 7, 5, 3, 9, true, false, List.replicate 128 3⟩

/-- The premises of each clause of FlowInstructions: the largest word of s_x, one past it, an empty queue and one with cells. -/
theorem witness_FlowInstructions : Runs gT sQ ∧ (sQ.sreg 1).toNat < 2 ^ 32 ∧ reservedFlow ((sQ.sreg 1).toNat % 2 ^ 20) = false
    ∧ (sQ.me.queue 0).cells = [] ∧ (sQ.me.queue 1).cells ≠ [] ∧ 2 ^ 32 ≤ (sQ.sreg 3).toNat ∧ (sQ.sreg 2).toNat / 2 ^ 31 = 1
    ∧ ((out (.fbind gT 1 0) sQ).me.queue 0).flow = 0x45678 ∧ ((out (.fbind gT 1 0) sQ).me.queue 0).nextblock = 0x123
    ∧ out (.fbind gT 1 1) sQ = sQ.takeTrap sQ.cur ⟨0x81, 1⟩ ∧ out (.fbind gT 3 0) sQ = sQ.takeTrap sQ.cur ⟨0x80, 0x100000000⟩
    ∧ Acts (.fput gT 4 2) sQ ∧ Acts (.fsend gT 4 4) sQ ∧ ((out (.fsend gT 4 4) sQ).here.sendBuf.map Cell.cidx) = List.range 32
    ∧ Acts (.ftake gT 4 2) sL ∧ (sL.die 1).stray = []
    ∧ (let s := sL.modDie 1 fun d => { d with stray := [strayCell, strayCell] };
      actsB (semFtake gT 4 2) s = true ∧ (s.die s.cur.die).stray = [strayCell, strayCell]
      ∧ ((out (.ftake gT 4 2) s).die 1).stray = [strayCell]) := by
  refine ⟨runs_of ?_, ?_, ?_, ?_, ?_, ?_, ?_, ?_, ?_, ?_, ?_, acts_of rfl ?_, acts_of rfl ?_, ?_, acts_of rfl ?_, ?_, ?_⟩ <;> decide +kernel

/-! ### Lodge operations -/

/-- A lodge task with operands: a page, three pages, the largest job word, a target, key operands, a physical address. -/
def sO : State :=
  let s := stateOf ⟨1, 96, 0⟩ { task0 with
    pend := []
    sregs := [(1, 0xE00000), (2, 0x600000), (3, 0x1FFF), (4, 0x207), (5, 6), (6, 0x38), (7, 0x4000000000010000), (8, 0x17), (10, 0x107),
      (11, 0x44), (12, 9), (13, 0x2000), (14, 0x100000000000000), (15, 0x51), (16, 0x80), (17, 0xFFFFFFFF80), (18, 8), (19, 0x80000),
      (20, 0x1009), (21, 0x41)] }
  let s := (s.setTask ⟨1, 7, 2⟩ { task0 with lidx := 98, halted := true, stopped := true, trapped := some ⟨3, 4⟩ }).setTask ⟨1, 7, 0⟩ task0
  s.modDie 1 fun d => { d with
    ranklists := [⟨5, 0xE00000, 3, []⟩, ⟨5, 5, 3, []⟩]
    gate := { d.gate with ghcfg := 0x40 }, links := [(2, { Link.reset with st := 2 }), (3, { Link.reset with st := 2, keys := [(1, some ⟨[], []⟩)] })] }

/-- The premises of each clause of LodgeRequestsAreHeld, with operands at the ends of their ranges. -/
theorem witness_LodgeRequestsAreHeld : Runs gT sO ∧ isLodge sO.cur.core = true
    ∧ (out (.tlbinv gT 1 2 3) sO).me.holds = [.tlbinv 0xE00000 0x600000 0x1FFF]
    ∧ (0x1FFF : Nat) < 2 ^ 13 ∧ (sO.sreg 13).toNat = 2 ^ 13 ∧ out (.tlbinv gT 1 2 13) sO = sO.takeTrap sO.cur ⟨0x0A, 0⟩
    ∧ (sO.sreg 14).toNat = 2 ^ 56 ∧ out (.tlbinv gT 14 2 3) sO = sO.takeTrap sO.cur ⟨0x0A, 0⟩
    ∧ (out (.genbump gT 0 19) sO).me.holds = [.genbump 0 0x80000] ∧ 0 + (sO.sreg 19).toNat * 2 ^ 21 = 2 ^ 40
    ∧ out (.genbump gT 1 19) sO = sO.takeTrap sO.cur ⟨0x0A, 0⟩ ∧ out (.genbump gT 1 0) sO = sO.takeTrap sO.cur ⟨0x0A, 0⟩
    ∧ (out (.l2wb gT 17 16 1) sO).me.holds = [.l2wb 0xFFFFFFFF80 0x80 true] ∧ (sO.sreg 17).toNat + (sO.sreg 16).toNat = 2 ^ 40
    ∧ out (.l2wb gT 17 1 0) sO = sO.takeTrap sO.cur ⟨0x0A, 0⟩
    ∧ (sO.sreg 11).toNat % 16 % 2 ^ ((sO.sreg 11).toNat / 16) ≠ 0 ∧ out (.domset gT 11) sO = sO.takeTrap sO.cur ⟨0x0A, 0⟩
    ∧ (sO.sreg 15).toNat / 16 = 5 ∧ out (.domset gT 15) sO = sO.takeTrap sO.cur ⟨0x0A, 0⟩
    ∧ (out (.domset gT 6) sO).me.holds = [.domset 0x38]
    ∧ (out (.npload gT 7 1 9) sO).me.holds = [.npload 9 0x4000000000010000 0xE00000]
    ∧ Acts (.attest gT 7 7 9) sO ∧ Acts (.keyld gT 20 7 9) sO ∧ (out (.keyld gT 20 7 9) sO).attest.queue = [(777, ⟨1, 96, 0⟩)]
    ∧ targetOk true false (sO.sreg 4) = true ∧ (targetTasks 1 (sO.sreg 4)).length = 4 ∧ targetOk true false (sO.sreg 14) = false
    ∧ out (.prmpt gT 14 9) sO = sO.takeTrap sO.cur ⟨0x0A, 0⟩ ∧ ((out (.prmpt gT 4 9) sO).task ⟨1, 7, 0⟩).preempt = true
    ∧ ((out (.prmpt gT 4 9) sO).task ⟨1, 7, 2⟩).preempt = false := by
  refine ⟨runs_of ?_, ?_, ?_, ?_, ?_, ?_, ?_, ?_, ?_, ?_, ?_, ?_, ?_, ?_, ?_, ?_, ?_, ?_, ?_, ?_, ?_, acts_of rfl ?_, acts_of rfl ?_, ?_⟩ <;>
    decide +kernel


/-- The premises of each clause of LodgeOperationsAtOnce: targets that are halted and that run, every list and one, and a key slot that
is set, cleared and switched. -/
theorem witness_LodgeOperationsAtOnce : Runs gT sO ∧ isLodge sO.cur.core = true ∧ targetOk true false (sO.sreg 4) = true
    ∧ (∀ r ∈ targetTasks 1 (sO.sreg 4), ∀ p ∈ (sO.task r).pend, p.left ≠ 0)
    ∧ ((out (.resume gT 4 9) sO).task ⟨1, 7, 2⟩).halted = false ∧ (sO.resumeCode ⟨1, 7, 2⟩) = 0 ∧ (sO.resumeCode ⟨1, 7, 0⟩) ≠ 0
    ∧ (sO.sreg 1).toNat < 2 ^ 56 ∧ ((out (.rlinv gT 1) sO).die 1).ranklists.length = 1
    ∧ ((out (.rlinv gT 22) (sO.modMe fun t => t.setSreg 22 (BitVec.allOnes 64))).die 1).ranklists = []
    ∧ Acts (.lkey gT 8 7 9) sO ∧ (sO.sreg 8).toNat / 8 = 2 ∧ (((out (.lkey gT 8 7 9) sO).die 1).link 3).hasKey 3 = false
    ∧ (let s := sO.modMe fun t => (t.setSreg 8 9).setSreg 22 13;
      actsB (semLkey gT 8 7 9) s = true ∧ (s.sreg 8).toNat / 8 = 1 ∧ ((s.die 1).link 3).keyStatus (s.rackOpen 1) 1 0 0 ≠ 0
      ∧ actsB (semLkey gT 22 7 9) s = true ∧ ((s.die 1).link 3).keyStatus (s.rackOpen 1) 1 0 1 = 0
      ∧ (((out (.lkey gT 22 7 9) s).die 1).link 3).txAct = 1 ∧ (((out (.lkey gT 22 7 9) s).die 1).link 3).switching = some 1) := by
  refine ⟨runs_of ?_, ?_, ?_, ?_, ?_, ?_, ?_, ?_, ?_, ?_, acts_of rfl ?_, ?_, ?_, ?_⟩ <;> decide +kernel

/-! ### Contexts and the gang switch -/

/-- A switch block of 64 bytes at HBM 0x2000000: job 5, module 0, an Orangery of 2^29 bytes at 0x20000000 and a turn. -/
def blockMem (job turn : Nat) : Memory :=
  [(0x2000000, BitVec.ofNat 8 job), (0x2000008, 1), (0x2000013, 0x20), (0x200001B, 0x20), (0x2000020, BitVec.ofNat 8 turn)]

/-- An empty Orangery of job 5 that has been written. -/
def orangeryMem : Memory :=
  [(0x20000000, 0x4F), (0x20000001, 0x52), (0x20000002, 0x4E), (0x20000003, 0x31), (0x20000004, 1), (0x20000008, 5), (0x20000030, 1)]

/-- The shortest context record, 38912 bytes at HBM 0x1000000, of job 5, logical index 0 and launch 7, with a declaration of 8
registers, all zero, and its parts at page 1. -/
def recordMem : Memory :=
  [(0x1000000, 0x43), (0x1000001, 0x54), (0x1000002, 0x58), (0x1000003, 0x31), (0x1000004, 1), (0x1000006, 8), (0x1000009, 0x98),
    (0x1000010, 5), (0x1000038, 7), (0x1000071, 0x10), (0x1000079, 0x10), (0x1000081, 0x10), (0x1000089, 0x10), (0x1000091, 0x10)]

/-- A lodge task with a switch block, a record and targets. -/
def sX : State :=
  let s := stateOf ⟨1, 96, 0⟩ { task0 with
    pend := []
    sregs := [(1, 0x4000000002000000), (2, 0x4000000001000000), (3, 0x107), (4, 0x507), (5, 5), (6, 0x10B)] }
  let s := (s.setTask ⟨1, 7, 2⟩ { task0 with lidx := 98, halted := true, pend := [] }).setTask ⟨1, 5, 0⟩ task0
  let s := s.modDie 1 fun d => { d with barriers := [(0, { Barrier.reset with alloc := true, owner := 1 })] }
  { s with mem := recordMem ++ blockMem 5 3, launches := [{ launch0 with slices := [] }], hwm := 12288 }

/-- The status of CTXLD of the record at a register. -/
def loadStatus (s : State) (r : TaskRef) (n : Nat) : Nat :=
  let y := (opened s).contextRead 1 (s.sreg n)
  ((y.1.lodgeRest 1).loadRead r y.2).2

/-- The premises of each clause of ContextsAndGangSwitches about contexts: a target that is halted, one that runs and none; a record
that is loaded and one that is not. -/
theorem witness_Ctxsv : Acts (.ctxsv gT 3 2 9) sX := acts_of rfl (by decide +kernel)
theorem witness_CtxldBusy : Acts (.ctxld gT 5 2 9) sX := acts_of rfl (by decide +kernel)
theorem witness_CtxldFree : Acts (.ctxld gT 6 2 9) sX := acts_of rfl (by decide +kernel)
theorem test_contexts : isLodge sX.cur.core = true ∧ sX.cur.slot = 0
    ∧ contextTarget 1 (sX.sreg 3) = ⟨1, 7, 2⟩ ∧ sX.ctxsvCode ⟨1, 7, 2⟩ false = none ∧ (out (.ctxsv gT 3 2 9) sX).me.holds.length = 1
    ∧ ((out (.ctxsv gT 3 2 9) sX).task ⟨1, 7, 2⟩).stopped = true
    ∧ sX.ctxsvCode ⟨1, 5, 0⟩ false = some 2 ∧ sX.ctxsvCode ⟨1, 4, 0⟩ false = some 3
    ∧ loadStatus sX ⟨1, 5, 0⟩ 2 = 2
    ∧ ((out (.ctxld gT 5 2 9) sX).task sX.cur).sreg 9 = 2 := by
  refine ⟨?_, ?_, ?_, ?_, ?_, ?_, ?_, ?_, ?_, ?_⟩ <;> decide +kernel

/-- The block of `sX`. -/
def blockX : SwitchBlock := ⟨5, 1, 0x20000000, 0x20000000, 3⟩

/-- Those about GSW: a block that is begun on the mark itself, an invalid one and one of another job. -/
def sOther : State := { sX with mem := blockMem 6 3 }
theorem witness_Gsw : Acts (.gsw gT 1 9) sX := acts_of rfl (by decide +kernel)
theorem witness_GswOther : Acts (.gsw gT 1 9) sOther := acts_of rfl (by decide +kernel)
theorem test_gang_switch : sX.jobid ≠ 0 ∧ sX.gang = none
    ∧ (opened sX).blockRead (sX.sreg 1) = some blockX ∧ sX.hwm.toNat ≤ 4096 * 3
    ∧ ((out (.gsw gT 1 9) sX).gang.map fun y => (y.issuer, y.stopped)) = some (some (sX.cur, 9), false)
    ∧ (opened sX).blockRead (sX.sreg 2) = none ∧ ((out (.gsw gT 1 9) sOther).task sOther.cur).sreg 9 = 1 := by
  refine ⟨?_, ?_, ?_, ?_, ?_, ?_, ?_⟩ <;> decide +kernel

/-- Those about GRES: a job is active, a switch runs, and an Orangery is restored. -/
def sBusy : State := { sX with gang := some ⟨⟨5, 1, 0, 0, 3⟩, none, false, false, [], 0, [], [], [], []⟩ }
def sBack : State := { sX with jobid := 0, keys := [⟨5, [], []⟩], mem := blockMem 5 3 ++ orangeryMem }
theorem witness_GresActive : Acts (.gres gT 1 9) sX := acts_of rfl (by decide +kernel)
theorem witness_GswBusy : Acts (.gsw gT 1 9) sBusy := acts_of rfl (by decide +kernel)
theorem witness_GresBusy : Acts (.gres gT 1 9) sBusy := acts_of rfl (by decide +kernel)
theorem witness_GresBack : Acts (.gres gT 1 9) sBack := acts_of rfl (by decide +kernel)
theorem test_gang_restore : ((out (.gres gT 1 9) sBusy).task sBusy.cur).sreg 9 = 5
    ∧ (((opened sBack).readBlock (sBack.sreg 1)).1.lodgeRest 1).orangery blockX = some ([], 0, 0)
    ∧ (((opened sBack).readBlock (sBack.sreg 1)).1.lodgeRest 1).gresCode blockX [] = none ∧ (out (.gres gT 1 9) sBack).jobid = 5 := by
  refine ⟨?_, ?_, ?_, ?_⟩ <;> decide +kernel

/-- The lodge task with the record alone in memory. -/
def sRecord : State := { sX with mem := recordMem }

/-- CTXLD of that record into a free slot. -/
theorem witness_ctxld : contextTarget 1 (sRecord.sreg 6) = ⟨1, 11, 2⟩
    ∧ loadStatus sRecord ⟨1, 11, 2⟩ 2 = 0 := by decide +kernel

/-! ### Steps of a core -/

/-- The lodge with an event in its queue that is not masked. -/
def sEvent : State := sL.modDie 1 fun d => { d with lodge := { d.lodge with eqhead := 3, eqtail := 4, emask := 2, evec := 0x40 } }

/-- The compute task with a PHASE move of window step 1 that drains, over a byte of memory, and a task of the core that has ended. -/
def sMove : State :=
  let s := sM.modMe fun t => { t with moveFirst := 1, moveLen := 1, draining := true, barLeft := 3, preempt := true }
  let s := s.modTask ⟨0, 3, 1⟩ fun t => { t with status := .ending }
  { s with mem := (s.mem.setByte (nearBase s.cur.coreRef + 3 * stepBytes) 7).setByte (nearBase s.cur.coreRef + 4 * stepBytes) 8 }

/-- A request of the core for the line of its dirty copy that another core makes, one with a stale generation, and one answered. -/
def sLines : State :=
  sM.modCore ⟨0, 7⟩ fun c => { c with
    l1req := [⟨0x4001, 5, jobKey 5, 0, .ro, 0x40000080, 2, 0, 0, .waiting⟩, ⟨0x4001, 5, jobKey 5, 0, .write, 0x40000080, 2, 0, 0, .waiting⟩,
      ⟨0x4002, 5, jobKey 5, 9, .ro, 0x40000100, 2, 0, 0, .waiting⟩,
      ⟨0x4003, 5, jobKey 5, 0, .ro, 0, 2, 0, 0, .line ⟨0x4003, 5, 0, jobKey 5, 0, .ro, 0, 0, false, 0, [], []⟩⟩] }

/-- The premises of each clause of CoreStepsAndLines, and what follows: the candidate's bundle issues, an event is entered, the moving
range reads zero and the byte after it stands, a dirty line goes back before another core's copy leaves its home. -/
theorem witness_CoreStepsAndLines :
    (let s := sA.modTask ⟨0, 3, 1⟩ fun t => { t with status := .ending };
      ((s.beforeIssue ⟨0, 3⟩).core ⟨0, 3⟩).candidates 3 = [0] ∧ ((out (.issueTick ⟨0, 3⟩) s).task sA.cur).pc = 6)
    ∧ ((sA.beforeIssue ⟨0, 4⟩).core ⟨0, 4⟩).candidates 4 = []
    ∧ (sEvent.beforeIssue ⟨1, 96⟩).eventDue 1 = true ∧ sEvent.eventDue 1 = true ∧ sL.eventDue 1 = false
    ∧ ((out (.issueTick ⟨1, 96⟩) sEvent).task sL.cur).pc = 0x40 ∧ ((out (.eventEntry 1) sEvent).die 1).lodge.epc = 5
    ∧ (sMove.task sA.cur).draining = true ∧ sA.me.draining = false
    ∧ (let t := out (.phaseDrainDone sA.cur) sMove;
      t.mem.byte (nearBase ⟨0, 3⟩ + 3 * stepBytes) = 0 ∧ t.mem.byte (nearBase ⟨0, 3⟩ + 4 * stepBytes) = 8 ∧ t.me.draining = false)
    ∧ 0 < sMove.me.barLeft
    ∧ (let s := sMove.modMe fun t => { t with barLeft := 0 }; s.me.moveLen ≠ 0 ∧ (out (.phaseBarClose sA.cur) s).me.moveLen = 0)
    ∧ sMove.slotDone ⟨0, 3, 1⟩ = true ∧ sMove.slotDone sA.cur = false ∧ ((out (.slotRelease ⟨0, 3, 1⟩) sMove).task? ⟨0, 3, 1⟩) = none
    ∧ sMove.me.preempt = true ∧ sMove.here.rerun = none ∧ (out (.taskHalt sA.cur) sMove).me.halted = true
    ∧ (sLines.core ⟨0, 7⟩).l1req.filterMap (L1Req.granted 0x4003) = [⟨0x4003, 5, 0, jobKey 5, 0, .ro, 0, 0, false, 0, [2], []⟩]
    ∧ ((out (.l1Fill ⟨0, 7⟩ 0x4003) sLines).core ⟨0, 7⟩).l1.length = 1 ∧ ((out (.l1Fill ⟨0, 7⟩ 0x4003) sLines).core ⟨0, 7⟩).l1req.length = 3
    ∧ ((out (.l1Writeback ⟨0, 3⟩ 0x4001) sLines).core ⟨0, 3⟩).l1 = [] ∧ (out (.l1Writeback ⟨0, 3⟩ 0x4001) sLines).mem.byte 0x2000FF = 0x7F
    ∧ (sLines.core ⟨0, 7⟩).l1req.find? (fun q => q.open 0x4001 false) = (sLines.core ⟨0, 7⟩).l1req[0]?
    ∧ (sLines.core ⟨0, 7⟩).l1req.find? (fun q => q.open 0x4001 true) = (sLines.core ⟨0, 7⟩).l1req[1]?
    ∧ (sLines.core ⟨0, 7⟩).l1req.find? (fun q => q.open 0x4003 true) = none
    ∧ (sLines.core ⟨0, 7⟩).l1req.map sLines.refusal = [none, none, some ⟨0x63, 0x40000100⟩, none]
    ∧ ((out (.homeLoad ⟨0, 7⟩ 0x4002) sLines).core ⟨0, 7⟩).l1req.map (·.answer) ≠ (sLines.core ⟨0, 7⟩).l1req.map (·.answer)
    ∧ (out (.homeLoad ⟨0, 7⟩ 0x4001) sLines).mem.byte 0x2000FF = 0x7F
    ∧ ((out (.homeLoad ⟨0, 7⟩ 0x4001) sLines).core ⟨0, 3⟩).l1 = []
    ∧ (((out (.homeStore ⟨0, 7⟩ 0x4001) sLines).core ⟨0, 7⟩).l1req.map fun q => match q.answer with
        | .line l => l.data.length
        | _ => 0) = [0, 128, 0, 0]
    ∧ ((out (.homeStore ⟨0, 7⟩ 0x4001) sLines).core ⟨0, 3⟩).l1 = [] := by
  refine ⟨?_, ?_, ?_, ?_, ?_, ?_, ?_, ?_, ?_, ?_, ?_, ?_, ?_, ?_, ?_, ?_, ?_, ?_, ?_, ?_, ?_, ?_, ?_, ?_, ?_, ?_, ?_, ?_, ?_, ?_, ?_, ?_⟩ <;> decide +kernel

/-! ### Atomics, loops and checkpoints -/

/-- An add of 5 to the 8 bytes at physical 0x200080, and the same as a member of set 0. -/
def add5 : AtomicOp := ⟨0, true, false, none, none, none, 2, 9, 0x200080, 0, 0x40000080, 5, 0, none, 0, 0, 0⟩
def sAdd : State := sM.modMe fun t => { t with holds := [.atomic add5] }
def sOrdered : State :=
  { sM.modMe fun t => { t with holds := [.atomic { add5 with ordered := some 0 }] } with
    launches := [{ launch0 with sets := [(0, ⟨2, [17, 18], [], 0⟩)] }] }

/-- A launch of two tasks with grain 2: task 1 has ten iterations left and task 0 none. -/
def launch2 : Launch :=
  { launch0 with kernel := { launch0.kernel with gridX := 2 }, grain := 2, nest := [20], slices := [(0, some ⟨0, 10, 10⟩), (1, some ⟨10, 20, 10⟩)] }
def sLoop : State := { sA.modMe fun t => { t with lidx := 0, holds := [.steal 777] } with launches := [launch2] }

/-- A protected region of three bundles with an empty log, and a rerun of it that has issued all its bundles. -/
def region3 : Region := { region0 with bundles := 3, saved := { task0 with pc := 2, sregs := [(1, 4)] } }
def sGuarded : State := sM.modHere fun c => { c with regions := [(0, some region3)] }
def sRerun (run : Nat) (count : W64) : State :=
  sM.modHere fun c => { c with
    regions := [(0, some region3)], rerun := some ⟨0, 1, run, 3, 0, count, Config.signature region3.writes, false, []⟩ }

/-- The premises of each clause of AtomicsLoopsAndCheckpoints about atomics and the loop sequencer, and what follows. -/
theorem witness_AtomicsAndLoops : sM.me.waitingAtomic = none ∧ sAdd.me.waitingAtomic = some add5
    ∧ sOrdered.me.waitingAtomic = some { add5 with ordered := some 0 } ∧ sOrdered.mayRelease sOrdered.me 0 = true
    ∧ sOrdered.jobStopped sOrdered.me.job = false ∧ { sOrdered with launches := [] }.mayRelease sOrdered.me 0 = false
    ∧ paModule add5.pa = sAdd.module.toNat ∧ paOffset add5.pa % 128 + add5.width ≤ 128 ∧ sAdd.hasKey (jobKey sAdd.me.job) = true
    ∧ ((sAdd.recall (lineOf (paOffset add5.pa)) true).lineMeta (lineOf (paOffset add5.pa))).key = jobKey sAdd.me.job
    ∧ (out (.atomicExecute sA.cur) sAdd).mem.bytes 0x200080 9 = [5, 1, 2, 3, 4, 5, 6, 7, 8]
    ∧ (out (.orderedRelease sA.cur) sOrdered).mem.bytes 0x200080 9 = [5, 1, 2, 3, 4, 5, 6, 7, 8]
    ∧ ((out (.atomicExecute sA.cur) sAdd).me.holds.map fun h => match h with
        | .atomic a => a.result
        | _ => none) = [some (0x0706050403020100, 0)]
    ∧ add5.fadd = none ∧ add5.cas = none ∧ add5.next 7 = (12, 0) ∧ ({ add5 with cas := some 9 }).next 5 = (9, 0)
    ∧ (let s := sM.modMe fun t => { t with holds := [.atomic { add5 with result := some (77, 4) }] };
      (out (.atomicReply sA.cur) s).me.sreg 9 = 77 ∧ (out (.atomicReply sA.cur) s).me.fstat = 7 ∧ (out (.atomicReply sA.cur) s).me.holds = [])
    ∧ sLoop.me.holds = [.steal 777] ∧ launch2.victim 0 = some (1, 10) ∧ 2 * launch2.grain ≤ 10 ∧ launch2.victim 1 = some (0, 0)
    ∧ ((out (.stealRequest sA.cur) sLoop).launches.map fun l => (l.slice 0, l.slice 1)) = [(⟨16, 20, 16⟩, ⟨10, 16, 10⟩)]
    ∧ (let s := sLoop.modMe fun t => { t with lidx := 1, holds := [.claim 15 777] };
      s.me.holds = [.claim 15 777] ∧ ((out (.claim sA.cur) s).launches.map fun l => l.slice 1) = [⟨10, 20, 15⟩]) := by
  refine ⟨?_, ?_, ?_, ?_, ?_, ?_, ?_, ?_, ?_, ?_, ?_, ?_, ?_, ?_, ?_, ?_, ?_, ?_, ?_, ?_, ?_, ?_, ?_, ?_⟩ <;> decide +kernel

/-- Those about turns, lines that are held, stale generations and another module. -/
theorem witness_AtomicTurns : sAdd.runHeld 0x200080 8 true = false ∧ add5.gen = sAdd.genOf 0x200080 ∧ sLoop.loopTurn sLoop.cur = true
    ∧ (sLoop.modTask ⟨0, 3, 1⟩ fun t => { t with holds := [.claim 3 776] }).loopTurn sLoop.cur = false ∧ ({ add5 with gen := 1 }).gen ≠ sAdd.genOf 0x200080
    ∧ (sAdd.modCore ⟨0, 7⟩ fun c => { c with l1 := [⟨0x4001, 5, 0, jobKey 5, 0, .read, 0, 0, false, 0, [1], []⟩] }).runHeld 0x200080 8 true = true
    ∧ (let s := sM.modMe fun t => { t with holds := [.atomic { add5 with pa := 2 ^ 42 + 0x200080 }] };
      paModule (2 ^ 42 + 0x200080) ≠ s.module.toNat
      ∧ ((out (.atomicExecute sA.cur) s).sent.map fun x => (x.home, x.req.kind, x.sends)) = [(1, 3, 1)])
    ∧ (let t := out (.arrayError sM.cur ⟨4, 9⟩) sM; t.me.halted = true ∧ t.me.broken = true ∧ t.me.trapped = some ⟨0xA1, 9⟩)
    ∧ sLines.homeBusy 0x200080 = false ∧ sLines.lineHeld 0x4001 true (some ⟨0, 7⟩) = false ∧ (sLines.core ⟨0, 3⟩).keepsLine 0x4001 = false := by
  refine ⟨?_, ?_, ?_, ?_, ?_, ?_, ⟨?_, ?_⟩, ?_, ?_, ?_, ?_⟩ <;> decide +kernel

/-- Those about array errors and reruns. -/
theorem witness_Checkpoints : (sM.task? ⟨0, 3, 2⟩) = none ∧ (sM.task? sM.cur).isSome = true ∧ sM.me.status = .ready
    ∧ sM.here.rerun = none ∧ sM.regionOf sM.cur = none ∧ (out (.arrayError sM.cur ⟨1, 33⟩) sM).me.halted = true
    ∧ sGuarded.here.rerun = none ∧ sGuarded.here.regions.get none 0 = some region3 ∧ region3.guarded = true ∧ region3.closed = false
    ∧ sGuarded.here.busyInside 0 = false ∧ region3.bundles ≠ 0 ∧ (out (.arrayError sM.cur ⟨1, 33⟩) sGuarded).me.pc = 2
    ∧ ((out (.arrayError sM.cur ⟨1, 33⟩) sGuarded).here.rerun.map fun x => (x.run, x.left, x.source)) = some (1, 3, 1)
    ∧ ((sRerun 1 0).here.rerun.map fun x => (x.slot, x.left)) = some (0, 0) ∧ (sRerun 1 0).here.busyInside 0 = false
    ∧ ((out (.arrayError sM.cur ⟨1, 33⟩) (sRerun 1 0)).here.rerun.map fun x => x.failed) = some true
    ∧ ((out (.rerunDone ⟨0, 3⟩) (sRerun 1 0)).here.rerun.map fun x => (x.run, x.left)) = some (2, 3)
    ∧ (out (.rerunDone ⟨0, 3⟩) (sRerun 2 (region3.count + 1))).here.rerun = none
    ∧ 3 ∈ ((out (.rerunDone ⟨0, 3⟩) (sRerun 2 (region3.count + 1))).die 0).lodge.retired
    ∧ region3.count = region3.count ∧ Config.signature region3.writes = Config.signature region3.writes
    ∧ (let s := sM.modHere fun c => { c with regions := [(0, some { region3 with charge := 65537 })] };
      ((out (.regionUnprotected sM.cur) s).here.regions.get none 0).map Region.guarded = some false)
    ∧ ((out (.regionUnprotected sM.cur) sGuarded).here.regions.get none 0).map Region.guarded = some true := by
  refine ⟨?_, ?_, ?_, ?_, ?_, ?_, ?_, ?_, ?_, ?_, ?_, ?_, ?_, ?_, ?_, ?_, ?_, ?_, ?_, ?_, rfl, rfl, ?_, ?_⟩ <;> decide +kernel

/-! ### Engine and array commands under way -/

/-- A value that every listed entry and the default have, every key has. -/
theorem get_all {α : Type} (f : α → Bool) (d : α) (hd : f d = true) (l : Tbl α) (h : (l.all fun e => f e.2) = true) (k : Nat) :
    f (Tbl.get d l k) = true := by
  induction l with
  | nil => exact hd
  | cons e r ih =>
    simp only [List.all_cons, Bool.and_eq_true] at h
    simp only [Tbl.get]
    split
    · exact h.1
    · exact ih h.2

/-- Whether nothing of a core holds an access of an engine: no drain, no line of a squashed bundle, no request for one. -/
def freeCore (c : Core) : Bool :=
  (c.tasks.all fun x => x.2.all fun t => !t.draining) && (c.l1.all fun l => decide (l.slots = [])) && decide (c.l1req = [])

/-- Where nothing of any core holds an access and no domain changes, no access is held. -/
theorem no_drain {s : State} (h : ((s.cores.all fun e => freeCore e.2) && s.dies.all fun e => !e.2.l2busy) = true) (p : Spot) (n : Nat)
    (w : Bool) : s.spotHeld p n w = false := by
  rw [Bool.and_eq_true] at h
  have hb : ∀ d, (s.die d).l2busy = false := fun d => by
    have := get_all (fun k : Die => !k.l2busy) Die.reset rfl s.dies h.2 d
    simpa [State.die] using this
  have hd : ∀ c o, s.drainHolds c o n = false := by
    intro c o
    have hc := get_all freeCore Core.reset rfl s.cores h.1 (CoreRef.key c)
    simp only [freeCore, Bool.and_eq_true, List.all_eq_true] at hc
    simp only [State.drainHolds, State.core, List.any_eq_false]
    intro x hx
    have := hc.1.1 x hx
    cases hx : x.2 <;> simp_all
  have hl : ∀ c line x, freeCore c = true → c.holdsLine line x = false := by
    intro c line x hc
    simp only [freeCore, Bool.and_eq_true, List.all_eq_true, decide_eq_true_eq] at hc
    have h1 : ∀ l ∈ c.l1, l.slots = [] := fun l hl => hc.1.2 l hl
    simp only [Core.holdsLine, hc.2, List.any_nil, Bool.or_false, List.any_eq_false]
    intro l hm
    simp [h1 l hm]
  have hh : ∀ line x, s.lineHeld line x = false := by
    intro line x
    simp only [State.lineHeld, List.any_eq_false]
    intro e he
    have := List.all_eq_true.mp h.1 e he
    simp [hl e.2 line x this]
  cases p with
  | inside o => simp only [State.spotHeld]; split <;> first | exact hd _ _ | rfl
  | window o =>
    have : s.sliceHeld o = false := by
      simp only [State.sliceHeld]
      split <;> simp [hb]
    simp only [State.spotHeld, this, Bool.or_false]; split <;> first | exact hd _ _ | rfl
  | hbm o => simp [State.spotHeld, State.runHeld, State.homeBusy, hb, hh]
  | far _ _ _ _ => rfl

/-- A command of slot 0 of the core of `sK`. -/
def cmdK (kind : CmdKind) (fields : Tbl W64) : Cmd :=
  ⟨kind, 0, 17, 5, jobKey 5, fields, [], none, false, 0, 0, 0, [], [], [], [], [], false, false, none⟩

/-- A copy of two elements of 64 bytes within the window, a stream of one row, an output of one row to operand memory, and a
multicast of one body cell, each as token 1. -/
def cmdCpy : Cmd := cmdK .cpy [(0, 0x80000000000004C0), (1, 0x8000000000008000), (2, 64), (3, 2), (9, 64), (15, 64)]
def cmdStrm : Cmd := cmdK (.mstrm 3) [(34, 16), (35, 3), (36, 1)]
def cmdOut : Cmd := cmdK (.mout 3) [(36, 1), (40, 1), (41, 0x100), (42, 64)]
def cmdMcst : Cmd := cmdK .mcst [(0, 0x8000000000000600)]
def sCmd (x : Cmd) : State :=
  let s := sK.modHere fun c => { c.setCmd 1 (some x) with mcmds := [.token 0 1] }
  let m := s.mem.setBytes (windowAddr s.cur.coreRef s.me 0x600) (leBytes 8 0x8000000000000700 ++ [0x23])
  { s with mem := m.setBytes (windowAddr s.cur.coreRef s.me 0x640) [1, 0, 20, 2, 0, 3] }
def begun (x : Cmd) : Cmd := { x with started := true }

/-- Its core. -/
abbrev cK : CoreRef := ⟨0, 3⟩

/-- The token of a command that has ended. -/
def tokAfter (i : Instr) (s : State) : Token := (out i s).me.token 1

/-- The premises of each clause of CopiesStreamsAndMulticastsRun about copies, and what follows. -/
theorem witness_Copies : (sA.core cK).cmd 1 = none ∧ (sCmd cmdCpy).here.cmd 1 = some cmdCpy ∧ cmdCpy.kind.copy? = some .cpy
    ∧ cmdCpy.deps = [] ∧ ((sCmd cmdCpy).task (issuerOf cK cmdCpy)).stopped = false
    ∧ ((out (.copyStart cK 1) (sCmd cmdCpy)).here.cmd 1).map Cmd.started = some true
    ∧ tokAfter (.copyStart cK 1) (sCmd { cmdCpy with depFault := some 4 }) = ⟨.faulted, 0x43, 0⟩
    ∧ elementTotal cmdCpy.fields = 2 ∧ (sCmd (begun { cmdCpy with elems := 2 })).sent = []
    ∧ (tokAfter (.copyComplete cK 1) (sCmd (begun { cmdCpy with elems := 2 }))).st = .done
    ∧ (let s := sCmd (begun { cmdCpy with elems := 1 });
      let x := begun { cmdCpy with elems := 1 };
      element .cpy x.fields (digits (copyCounts x.fields) x.elems) 0 = (.copy 0x8000000000000500, 0x8000000000008040)
      ∧ tteEntry x.fields = none ∧ addrForm 0x8000000000000500 = 2 ∧ addrOff 0x8000000000000500 + 64 ≤ s.me.windowBytes
      ∧ s.me.windowBytes ≤ 2 ^ 22 ∧ addrOff 0x8000000000000500 % 64 = 0 ∧ (∀ p m w, s.spotHeld p m w = false)
      ∧ (out (.copyCellWrite cK 1) s).mem.bytes (windowAddr cK s.me 0x8040) 3 = [0x81, 0x82, 0x83]) := by
  refine ⟨?_, ?_, ?_, ?_, ?_, ?_, ?_, ?_, ?_, ?_, ?_, ?_, ?_, ?_, ?_, ?_, no_drain ?_, ?_⟩ <;> decide +kernel

/-- Those about the array. -/
theorem witness_Streams : (sCmd cmdStrm).here.mayStart 0 1 cmdStrm = true ∧ (sCmd cmdStrm).here.cmd 1 = some cmdStrm
    ∧ ((out (.streamStart cK 1) (sCmd cmdStrm)).here.cmd 1).map Cmd.started = some true
    ∧ tokAfter (.streamStart cK 1) (sCmd { cmdStrm with depFault := some 4 }) = ⟨.faulted, 0x43, 100⟩
    ∧ ((sCmd { cmdStrm with deps := [3] }).here.mayStart 0 1 { cmdStrm with deps := [3] }) = false
    ∧ ((sCmd cmdStrm).here.latches.get none (fieldOf cmdStrm.fields 32)).isSome = true ∧ fieldOf cmdStrm.fields 36 = 1
    ∧ tokAfter (.streamComplete cK 1) (sCmd (begun cmdStrm)) = ⟨.done, 0, 100⟩
    ∧ (sCmd cmdOut).here.mayStart 0 1 cmdOut = true ∧ fieldOf cmdOut.fields 40 = 1 ∧ fieldOf cmdOut.fields 36 = 1
    ∧ tokAfter (.moutComplete cK 1) (sCmd cmdOut) = ⟨.done, 0, 100⟩
    ∧ tokAfter (.moutComplete cK 1) (sCmd { cmdOut with depFault := some 4 }) = ⟨.faulted, 0x43, 100⟩ := by
  refine ⟨?_, ?_, ?_, ?_, ?_, ?_, ?_, ?_, ?_, ?_, ?_, ?_, ?_⟩ <;> decide +kernel

/-- Those about multicast: a block that is refused has an address word of form 11. -/
theorem witness_Multicasts :
    (let s := sCmd cmdMcst;
      let b := s.mem.bytes (windowAddr cK s.me 0x600) 192;
      addrForm (cmdMcst.fields.get 0 0) = 2 ∧ addrOff (cmdMcst.fields.get 0 0) = 0x600 ∧ 0x600 + 192 ≤ s.me.windowBytes
      ∧ (∀ p m w, s.spotHeld p m w = false) ∧ s.jobStopped cmdMcst.job = false ∧ s.mcBlockOk cK b = true
      ∧ addrForm (BitVec.ofNat 64 (bytesAt b 0 8)) = 2 ∧ mcBody (b.drop 64) = 1 ∧ s.here.sendBuf = [] ∧ cmdMcst.cells = 0
      ∧ ((out (.mcstStart cK 1) s).here.sendBuf.map fun q => (q.typ, q.flow, q.cidx, q.payload.take 6))
        = [(8, 0x23, 0, [1, 0, 20, 2, 0, 3]), (9, 0x23, 1, [0, 0, 0, 0, 0, 0])])
    ∧ (let s := { sCmd cmdMcst with mem := (sCmd cmdMcst).mem.setByte (windowAddr cK sK.me 0x60C + 4) 1 };
      s.mcBlockOk cK (s.mem.bytes (windowAddr cK s.me 0x600) 192) = false ∧ tokAfter (.mcstStart cK 1) s = ⟨.faulted, 0x4B, 100⟩)
    ∧ tokAfter (.mcstStart cK 1) (sCmd { cmdMcst with depFault := some 4 }) = ⟨.faulted, 0x43, 100⟩
    ∧ (let x := begun { cmdMcst with cells := 2, fields := keepBlock cmdMcst.fields (padTo 192 (List.replicate 64 0 ++ [1, 0, 20])) };
      mcBody (x.block.drop 64) < x.cells ∧ (sCmd x).here.sendBuf = [] ∧ tokAfter (.mcstComplete cK 1) (sCmd x) = ⟨.done, 0, 100⟩) := by
  refine ⟨⟨?_, ?_, ?_, no_drain ?_, ?_, ?_, ?_, ?_, ?_, ?_, ?_⟩, ?_, ?_, ?_⟩ <;> decide +kernel

/-! ### Launches and tile instructions under way -/

/-- A launch of two single-task groups of which one is placed, on a module whose pointer stands at the last core of cluster 1 of die 0;
each task has a window of one step. -/
def launchD : Launch :=
  { launch0 with kernel := ⟨0x1000, 24, 3, 1, 8, 0, false, 1, 2, 1, 1, 200, [], 0⟩, args := [11, 12, 13, 14, 15, 16, 17, 18], placed := 1 }
def sDisp : State := { State.reset with jobid := 5, launches := [launchD], pointer := 15, hwm := 70, mem := [(nearBase ⟨0, 19⟩, 5)] }

/-- A launch whose tasks have ended, with the TLNCH of slot 0 of `sTlnch`'s control core, the host or nothing waiting for it. -/
def sOver (host : Option Nat) (tlnch : Option (CoreRef × Nat)) : State :=
  { sCmd { cmdK .tlnch [] with started := true } with
    launches := [{ launchD with seq := 9, placed := 2, ended := 2, fromHost := host, tlnch := tlnch, killed := tlnch.isSome }] }

/-- The premises of each clause of LaunchesAndTileInstructionsRun about launches, and what follows. -/
theorem witness_Launches : sA.launch? 0 = none ∧ sDisp.launch? 0 = some launchD ∧ launchD.loaded = true ∧ sDisp.mayDispatch launchD = true
    ∧ (∀ y ∈ sDisp.launches, y.seq = 0 → y = launchD) ∧ (sDisp.tryOrder launchD).head? = some (1, 7)
    ∧ (clusterCores (1 / 12) (1 % 12))[7 % 8]? = some ⟨0, 19⟩ ∧ sDisp.isRetired ⟨0, 19⟩ = false ∧ sDisp.freeSlot ⟨0, 19⟩ = some 0
    ∧ (sDisp.core ⟨0, 19⟩).freeBlock launchD.kernel.vregs = some 0 ∧ (sDisp.core ⟨0, 19⟩).freeWindow launchD.kernel.steps = some 0
    ∧ (let t := out (.dispatchGroup 0) sDisp;
      let k := t.task ⟨0, 19, 0⟩;
      t.pointer = 16 ∧ t.mem = [] ∧ k.pc = 3 ∧ k.lidx = 1 ∧ k.sreg 7 = 17 ∧ k.sreg 8 = 0 ∧ k.time = 70 ∧ k.wsize = 1 ∧ k.budget = 100
      ∧ t.launches.map (·.placed) = [2])
    ∧ ({ sDisp with jobid := 6 }).mayDispatch launchD = false ∧ sDisp.launchOver launchD = false
    ∧ (sOver none none).launches.map (sOver none none).launchOver = [true]
    ∧ (out (.launchComplete 9) (sOver none none)).launches.map (·.finished) = [true]
    ∧ ((out (.launchComplete 9) (sOver (some 77) none)).host.replies.flatMap fun f => f.cells.map fun c => c.payload.take 9) = [[0x91, 0, 0, 0, 77, 0, 0, 0, 7]]
    ∧ (sOver none (some (cK, 1))).launches.map (sOver none (some (cK, 1))).launchOver = [true]
    ∧ tokAfter (.launchComplete 9) (sOver none (some (cK, 1))) = ⟨.faulted, 0x47, 0⟩ := by
  refine ⟨?_, ?_, ?_, ?_, ?_, ?_, ?_, ?_, ?_, ?_, ?_, ?_, ?_, ?_, ?_, ?_, ?_, ?_, ?_⟩ <;> decide +kernel

/-- A TCPY of one byte at core level: its block at window byte 0x1000, its descriptors at 0x1100 and 0x1200, its record at 0x2000. -/
def cmdTile : Cmd := cmdK (.tile 6 false false) [(0, 0x8000000000001000)]
def tileMem : Memory :=
  [(0x30030080500, 0x81), (0x30030080501, 0x82), (0x30030081000, 0x04), (0x30030081001, 0x06), (0x30030081011, 0x11), (0x30030081017,
    0x80), (0x30030081029, 0x12), (0x3003008102F, 0x80), (0x30030081039, 0x20), (0x3003008103F, 0x80), (0x30030081040, 0x03),
    (0x30030081101, 0x05), (0x30030081107, 0x80), (0x30030081108, 0x01), (0x3003008110C, 0x01), (0x3003008111C, 0x0B), (0x30030081201,
    0x08), (0x30030081207, 0x80), (0x30030081208, 0x01), (0x3003008120C, 0x01), (0x3003008121C, 0x0B)]
def sTiled (x : Cmd) : State :=
  let s := sK.modHere fun c => { c.setCmd 1 (some x) with
    mode := 0, slotOwner := [(0, some 0), (1, some 0), (2, some 0), (3, some 0)], latches := []
    units := [(3, ⟨3, 1, 0, 0, true, 0⟩), (4, ⟨4, 1, 0, 0, true, 0⟩)] }
  { s with mem := tileMem }

/-- Its block and descriptors, and the same under way: its unit to run, or held by its core. -/
def tileBytes (o n : Nat) : List Byte := tileMem.bytes (windowAddr cK (sTiled cmdTile).me o) n
def tileRun (held : Tbl (List W64)) : TileRun :=
  { TileRun.fresh (tileBytes 0x1000 128) with
    descs := [tileBytes 0x1100 32, [], [], tileBytes 0x1200 32], units := 1, parts := [⟨0, 1, .core cK 0⟩], held := held }
def running (g : TileRun) : Cmd := { begun cmdTile with run := some g }
def runOf (s : State) : TileRun := (((s.core cK).cmd 1).bind Cmd.run).getD (TileRun.fresh [])

/-- A leaf on another core, lost, beside the issuing core. -/
def lostRun : TileRun := { tileRun [] with units := 4, parts := [⟨0, 1, .core cK 0⟩, ⟨1, 3, .core ⟨0, 5⟩ 2⟩], leaves := [.core cK 0, .core ⟨0, 5⟩ 2], done := [1] }

/-- The states. -/
def tile0 : State := sTiled cmdTile
def tile1 : State := sTiled (running (tileRun []))
def tile2 : State := sTiled (running (tileRun [(0, [0x81])]))
def tile3 : State := sTiled (running lostRun)

/-- The premises of the clauses about a tile instruction that starts. -/
theorem witness_TileStart : tile0.here.cmd 1 = some cmdTile ∧ cmdTile.run = none ∧ cmdTile.deps = [] ∧ tile0.me.stopped = false
    ∧ (sA.tileAt cK 1) = none ∧ (tile0.readRun (cmdTile.issuer cK 1) (cmdTile.fields.get 0 0) 128).1 = tile0
    ∧ (tile0.readRun (cmdTile.issuer cK 1) (cmdTile.fields.get 0 0) 128).2.toOption = some (tileRun []).block
    ∧ (State.readDescs (tileRun []) (cmdTile.issuer cK 1) [0, 1, 2, 3] tile0).1 = tile0
    ∧ (State.readDescs (tileRun []) (cmdTile.issuer cK 1) [0, 1, 2, 3] tile0).2.toOption = some (tileRun []).descs
    ∧ (tileRun []).descsAligned = true ∧ addrForm (tileRun []).record = 2 ∧ (tileRun []).level = 4 ∧ isCompute cK.core = true
    ∧ tile0.startCause cK 1 cmdTile (tileRun []) 6 false false = none ∧ tile0.startCause cK 1 cmdTile (tileRun []) 4 false false = some 0x46
    ∧ tokAfter (.tileStart cK 1) (sTiled { cmdTile with depFault := some 4 }) = ⟨.faulted, 0x43, 100⟩
    ∧ (runOf (out (.tileStart cK 1) tile0)).parts = [⟨0, 1, .core cK 0⟩] := by
  refine ⟨?_, ?_, ?_, ?_, ?_, ?_, ?_, ?_, ?_, ?_, ?_, ?_, ?_, ?_, ?_, ?_, ?_⟩ <;> decide +kernel

/-- Those about one that runs: its unit completes, its tile is written, a lost leaf's units go on, and it ends. -/
theorem witness_TileRun : tile1.tileAt cK 1 = some (running (tileRun [])) ∧ tile1.unitReady cK 1 (running (tileRun [])) (tileRun []) 0 = true
    ∧ tile1.unitReady cK 1 (running (tileRun [])) (tileRun []) 1 = false ∧ (tileRun []).worker 0 = some (.core cK 0)
    ∧ (tile1.unitResult ((running (tileRun [])).leaf cK 1 (.core cK 0)) (tileRun []) 0).2.toOption = some ([0x81], 0)
    ∧ (tileRun []).whole (0 / (tileRun []).chunks) = true ∧ tile1.foldReady cK 1 (running (tileRun [])) (tileRun []) 0 = false
    ∧ (tileRun []).workers[1]? = none ∧ (runOf (out (.unitComplete cK 1 0) tile1)).held = [(0, [0x81])] ∧ (tileRun []).ending = none
    ∧ tile2.foldReady cK 1 (running (tileRun [(0, [0x81])])) (tileRun [(0, [0x81])]) 0 = true
    ∧ (runOf (out (.tileFold cK 1 0) tile2)).folded = [0] ∧ (out (.tileFold cK 1 0) tile2).mem.byte (windowAddr cK tile0.me 0x800) = 0x81
    ∧ (runOf (out (.tileFold cK 1 0) tile2)).ending = some (1, none)
    ∧ (tokAfter (.tileComplete cK 1) (sTiled (running { tileRun [] with folded := [0], done := [0] }))).st = .done
    ∧ tile3.leafLost cK 1 (.core ⟨0, 5⟩ 2) = true ∧ tile3.leafLost cK 1 (.core cK 0) = false ∧ lostRun.workers = [.core cK 0, .core ⟨0, 5⟩ 2]
    ∧ (runOf (out (.childLost cK 1 1) tile3)).parts = [⟨0, 1, .core cK 0⟩, ⟨1, 1, .core ⟨0, 5⟩ 2⟩, ⟨2, 2, .core cK 0⟩] := by
  refine ⟨?_, ?_, ?_, ?_, ?_, ?_, ?_, ?_, ?_, ?_, ?_, ?_, ?_, ?_, ?_, ?_, ?_, ?_, ?_⟩ <;> decide +kernel

/-! ### The fabric and its links -/

/-- A cell of flow 9 of job 5, with a rank, an index and a first payload byte. -/
def cell9 (rank cidx : Nat) (b : Byte) : Cell := ⟨0, 9, 5, rank, cidx, false, false, padTo 128 [b]⟩

/-- The mesh port 0 and the local port of core 3's router, the west port of die 0, and its rack port. -/
abbrev pMesh : PortRef := ⟨0, 1, 3, 0⟩
abbrev pLocal : PortRef := ⟨0, 1, 3, 4⟩
abbrev pRing : PortRef := portAt 0 westRouter 5
abbrev pRack : PortRef := portAt 0 gateRouter 6

/-- An entry of flow 9 for indices 0 to 7. -/
def entry9 (action lslot count : Nat) : FlowEntry :=
  { v := true, action := action, flow := 9, job := 5, cfirst := 0, ccount := 8, cop := 0, ord := false, sat := false, rz := false, w := 1
    count := count, aslot := 4, holdn := 0, next := 2, fan := 0, rename := true, outflow := 12, lslot := lslot, lq := 0, lkind := 0, tt := 0
    param := 0, reserved := 0 }

/-- A cell at the mesh port of a router with one entry, before a task with a queue of flow 9. -/
def sCell (e : List FlowEntry) : State :=
  let s := sA.modMe fun t => { t with fq0 := ⟨true, 9, 0, 0, []⟩ }
  let s := s.modPav 0 15 fun p => { p with entries := e.map fun x => (2, x) }
  s.modPort 0 15 0 fun q => { q with fifo := [cell9 0 3 7, cell9 1 3 8] }
def portAfter (i : Instr) (s : State) (p : PortRef) : Port := (((out i s).die p.die).pav (portRouter p)).port p.port

/-- The premises of each clause of LinksAndArrivals about cells that arrive, and what follows. -/
theorem witness_Arrivals : linkOf pMesh = none ∧ linkOf pRing = some 0 ∧ linkOf pRack = some 2 ∧ pMesh.port < 4
    ∧ portRouter pMesh ≠ lodgeRouter ∧ (((sCell []).die 0).pav 15).port 0 = { Port.empty with fifo := [cell9 0 3 7, cell9 1 3 8] }
    ∧ (cell9 0 3 7).typ = 0 ∧ (sCell []).jobStopped 5 = false ∧ (((sCell []).die 0).pav 15).matching (cell9 0 3 7) = none
    ∧ ((out (.cellArrival pMesh) (sCell [])).die 0).stray = [cell9 0 3 7] ∧ (portAfter (.cellArrival pMesh) (sCell []) pMesh).fifo = [cell9 1 3 8]
    ∧ (let s := (sCell []).modDie 0 fun d => { d with stray := List.replicate 64 (cell9 0 0 0) };
      64 ≤ (s.die 0).stray.length ∧ ((out (.cellArrival pMesh) s).die 0).sqdrop = 1)
    ∧ (((sCell [entry9 0 0 1]).die 0).pav 15).matching (cell9 0 3 7) = some (2, entry9 0 0 1)
    ∧ (portAfter (.cellArrival pMesh) (sCell [entry9 0 0 1]) ⟨0, 2, 3, 0⟩).fifo.map (fun c => (c.flow, c.cidx)) = [(12, 3)]
    ∧ localTask 0 15 0 = sA.cur ∧ (sCell [entry9 6 0 1]).me.fq0.distance 3 < 4 ∧ (sCell [entry9 6 0 1]).me.status ≠ .ending
    ∧ (out (.cellArrival pMesh) (sCell [entry9 6 0 1])).me.fq0.cells = [⟨3, 0, false, padTo 128 [7]⟩]
    ∧ ((((sCell [entry9 1 0 3]).die 0).pav 15).round 2 3).ranks = []
    ∧ ((((out (.cellArrival pMesh) (sCell [entry9 1 0 3])).die 0).pav 15).round 2 3).ranks = [0]
    ∧ (out (.cellArrival pMesh) (sCell [entry9 1 0 3])).mem.byte (accSlot 0 15 7) = 7
    ∧ (((sA.die 0).pav 15).port 0) = Port.empty
    ∧ (let s := sA.modHere fun c => { c with sendBuf := [cell9 0 3 7, cell9 1 3 8] };
      coresAt (portRouter pLocal) = [3] ∧ coreRouter 3 = portRouter pLocal ∧ s.fatal = none ∧ s.jobStopped 5 = false
      ∧ (portAfter (.slotSend pLocal) s pLocal).fifo = [cell9 0 3 7] ∧ (out (.slotSend pLocal) s).here.sendBuf = [cell9 1 3 8]) := by
  refine ⟨?_, ?_, ?_, ?_, ?_, ?_, ?_, ?_, ?_, ?_, ?_, ?_, ?_, ?_, ?_, ?_, ?_, ?_, ?_, ?_, ?_, ?_, ?_⟩ <;> decide +kernel

/-- The west link of die 0 up, expecting ESEQ 7, with a cell to send, two unacknowledged, one that circulated and one that was refused. -/
def sLink (st : Nat) : State :=
  let s := sA.modDie 0 fun d => { d with
    links := [(0, { Link.reset with
      st := st, txEseq := 42, rxEseq := 7, fails := 3, failEseq := 7, retry := [(40, 0, cell9 0 1 1), (41, 0, cell9 0 2 2)]
      switching := some 1, markEseq := 41, keys := [(3, some ⟨[], []⟩)] })] }
  (s.modPort 0 westRouter 5 fun q => { q with out := [(0, cell9 0 3 7)], nackq := [cell9 0 4 4] }).modDie 7 fun d => { d with
    links := [(1, { Link.reset with st := 2 })] }
def linkAfter (i : Instr) (s : State) : Link := ((out i s).die 0).link 0

/-- Those about a link. -/
theorem witness_Links : (sLink 1).maySend pRing 0 = false ∧ (sLink 2).maySend pRing 0 = true ∧ ringPeer 0 0 = some (portAt 7 eastRouter 5)
    ∧ linkOf (portAt 7 eastRouter 5) = some 1 ∧ (sLink 2).reserved 0 0 0 (cell9 0 3 7) = false
    ∧ (linkAfter (.slotSend pRing) (sLink 2)).txEseq = 43 ∧ (portAfter (.slotSend pRing) (sLink 2) pRing).out = []
    ∧ (out (.slotSend pRing) (sLink 2)).agenda = [.linkCellReceive (portAt 7 eastRouter 5) ⟨42, 0, false, true, true, cell9 0 3 7⟩]
    ∧ (portAfter (.linkCellReceive pRing ⟨7, 0, false, true, true, cell9 0 5 5⟩) (sLink 2) pRing).fifo = [cell9 0 5 5]
    ∧ (linkAfter (.linkCellReceive pRing ⟨7, 0, false, true, true, cell9 0 5 5⟩) (sLink 2)).rxEseq = 8
    ∧ (linkAfter (.linkCellReceive pRing ⟨7, 0, false, false, true, cell9 0 5 5⟩) (sLink 2)).fails = 4
    ∧ (sLink 2).gangOf 5 = none ∧ (sLink 2).fatal = none
    ∧ (linkAfter (.linkAck pRing 40) (sLink 2)).retry = [(41, 0, cell9 0 2 2)] ∧ (linkAfter (.linkAck pRing 40) (sLink 2)).switching = some 1
    ∧ (linkAfter (.linkAck pRing 41) (sLink 2)).switching = none
    ∧ (out (.replayRequest pRing 41) (sLink 2)).agenda
      = [.linkCellReceive (portAt 7 eastRouter 5) ⟨41, 0, false, true, true, cell9 0 2 2⟩]
    ∧ (linkAfter (.linkSignalLoss pRing) (sLink 2)).st = 3 ∧ (((out (.linkSignalLoss pRing) (sLink 2)).die 7).link 1).st = 3
    ∧ (linkAfter (.retrainTimeout pRing) (sLink 1)).st = 3 ∧ (linkAfter (.linkTrained pRing) (sLink 1)).st = 2
    ∧ (portAfter (.ringRefusal pRing (cell9 0 6 6)) (sLink 2) pRing).circ = [{ cell9 0 6 6 with circ := true }]
    ∧ (out (.ringRefusal pRing { cell9 0 6 6 with circ := true }) (sLink 2)).agenda = [.nack (portAt 7 eastRouter 5) (cell9 0 6 6)]
    ∧ (portAfter (.nack pRing (cell9 0 6 6)) (sLink 2) pRing).nackq = [cell9 0 4 4, cell9 0 6 6]
    ∧ (portAfter (.nackResend pRing) (sLink 2) pRing).out = [(0, cell9 0 3 7), (8, cell9 0 4 4)]
    ∧ ((sLink 2).die 0 |>.link 0).hasKey 3 = true ∧ (linkAfter (.keyMarker pRing 1) (sLink 2)).rxAct = 1
    ∧ ((sLink 2).die 0 |>.link 0).hasKey 2 = false ∧ (linkAfter (.keyRefusal pRing) (sLink 2)).txAct = 1 := by
  refine ⟨?_, ?_, ?_, ?_, ?_, ?_, ?_, ?_, ?_, ?_, ?_, ?_, ?_, ?_, ?_, ?_, ?_, ?_, ?_, ?_, ?_, ?_, ?_, ?_, ?_, ?_, ?_, ?_, ?_⟩ <;> decide +kernel

/-! ### Remote requests and collectives -/

/-- A load of 8 bytes of 0x200500, request n of module 1's Gatehouse on die 0. -/
def req1 (n : Nat) : RemoteReq :=
  ⟨1, 5, 0x200500, 0, 3, 0, false, false, false, false, false, 2 ^ 42 + n, 50, 0, 0, [], false⟩
def rep1 (status n : Nat) : RemoteRep := ⟨status, 2 ^ 42 + n, 60, [1, 2]⟩

/-- Module 0 with a reply cached, expecting request 4 of that Gatehouse; the last keeps a request held. -/
def sHome (held : List RemoteReq) : State :=
  { sM.modDie 0 fun d => { d with gate := { d.gate with
      cache := [⟨2 ^ 42 + 3, rep1 0 3⟩], expectSeq := [(8, 4)], heldReqs := held, present := 3 } } with mem := [(0x200500, 0x44), (0x200507, 0x55)] }
def gateAfter (i : Instr) (s : State) : Gatehouse := ((out i s).die 0).gate

/-- The premises of each clause of RemoteRequestsAndCollectives about requests at a home, and what follows. -/
theorem witness_RemoteRequests : (sHome []).portFor 0 1 = (sHome []).portFor 0 (idModule (2 ^ 42 + 3))
    ∧ (portAfter (.remoteRequest 0 (req1 3)) (sHome []) (portAt 0 gateRouter ((sHome []).portFor 0 1))).out.map (·.2.typ) = [4]
    ∧ pairKey (req1 4).id = 8 ∧ idSeq (req1 4).id = 4 ∧ (gateAfter (.remoteRequest 0 (req1 2)) (sHome [])).heldReqs = []
    ∧ (gateAfter (.remoteRequest 0 (req1 9)) (sHome [])).heldReqs = [req1 9] ∧ (sHome []).reqStatus (req1 4) = 0
    ∧ (sHome []).reqStatus { req1 4 with gen := 1 } = 1 ∧ dirtyCopy (lineOf 0x200500) (sHome []).cores = none
    ∧ (gateAfter (.remoteRequest 0 (req1 4)) (sHome [])).expectSeq = [(8, 5)]
    ∧ (gateAfter (.remoteRequest 0 (req1 4)) (sHome [])).cache.map (fun c => (c.id, c.rep.status, c.rep.data))
      = [(2 ^ 42 + 3, 0, [1, 2]), (2 ^ 42 + 4, 0, [0x44, 0, 0, 0, 0, 0, 0, 0x55])]
    ∧ (gateAfter (.remoteRequest 0 { req1 4 with gen := 1 }) (sHome [])).cache.map (fun c => c.rep.status) = [0, 1]
    ∧ (gateAfter (.replyCacheExpire 0 (2 ^ 42 + 3)) (sHome [])).cache = []
    ∧ (gateAfter (.sequenceSkip 0 8) (sHome [req1 9])).expectSeq = [(8, 10)]
    ∧ (gateAfter (.sequenceSkip 0 8) (sHome [req1 9])).cache.map (fun c => c.id) = [2 ^ 42 + 3, 2 ^ 42 + 9] := by
  refine ⟨?_, ?_, ?_, ?_, ?_, ?_, ?_, ?_, ?_, ?_, ?_, ?_, ?_, ?_, ?_⟩ <;> decide +kernel

/-- A load and a posted store of the compute task open at Gatehouse 0, sent once and nine times. -/
def sSent (sends : Nat) (posted : Bool) : State :=
  { sM.modMe fun t => { t with remoteStores := [2 ^ 42 + 4] } with
    sent := [⟨0, { req1 4 with kind := if posted then 2 else 1 }, 1, sends, sM.cur, none, none⟩] }

/-- Those about requests of this module. -/
theorem witness_Replies : sM.openReq (2 ^ 42 + 4) = none ∧ ((sSent 1 false).openReq (2 ^ 42 + 4)).isSome = true
    ∧ ((sSent 1 false).openReq (2 ^ 42 + 4)).map SentReq.posted = some false
    ∧ ((sSent 1 true).openReq (2 ^ 42 + 4)).map SentReq.posted = some true ∧ ((sSent 1 true).task? sM.cur).isSome = true
    ∧ ((out (.reply 0 (rep1 0 4)) (sSent 1 false)).sent.map SentReq.reply) = [some (rep1 0 4)]
    ∧ ((out (.reply 0 (rep1 2 4)) (sSent 1 false)).sent.map SentReq.reply) = [none]
    ∧ (out (.reply 0 (rep1 0 4)) (sSent 1 true)).sent = [] ∧ (out (.reply 0 (rep1 0 4)) (sSent 1 true)).me.remoteStores = []
    ∧ (out (.retransmit (2 ^ 42 + 4)) (sSent 8 false)).sent.map (·.sends) = [9]
    ∧ (portAfter (.retransmit (2 ^ 42 + 4)) (sSent 8 false) (portAt 0 gateRouter ((sSent 8 false).portFor 0 1))).out
      = [(4, reqCell (req1 4) 1 0)]
    ∧ ((out (.remoteTimeout (2 ^ 42 + 4)) (sSent 9 false)).sent.map SentReq.reply) = [some ⟨5, 2 ^ 42 + 4, 0, []⟩] := by
  refine ⟨?_, ?_, ?_, ?_, ?_, ?_, ?_, ?_, ?_, ?_, ?_, ?_⟩ <;> decide +kernel

/-- The block of an allgather of one rank and one byte: its list at 0x40001000, its buffers at 0x40002000 and 0x40003000, its record at
0x40004000, COLLID 77. -/
def collBytes (rank : Nat) : List Byte :=
  [2, 11, 0, 0, 1, 0] ++ leBytes 2 rank ++ List.replicate 8 0 ++ leBytes 8 0x40001000 ++ leBytes 8 0x40002000 ++ leBytes 8 0x40003000
    ++ leBytes 8 1 ++ List.replicate 32 0 ++ leBytes 8 77 ++ leBytes 8 0x40004000 ++ List.replicate 32 0
def cmdColl : Cmd := cmdK (.coll false false) [(0, 0x40000200)]
def collMem (rank : Nat) : Memory :=
  ((Memory.setBytes [] 0x20000 [1, 0, 3]).setBytes 0x30000 [1, 0, 4]).setBytes 0x41000 [7, 0, 0x20]
    |>.setBytes 0x200200 (collBytes rank) |>.setByte 0x202000 0x66
def sColl (x : Cmd) (rank : Nat) : State := { sCmd x with mem := collMem rank }

/-- The same after it has arrived, before and after its result is written. -/
def cmdRank : Cmd := { begun cmdColl with fields := keepBlock cmdColl.fields (collBytes 0) }
def coll0 (wrote : Bool) : Coll :=
  ⟨5, 77, 1, collBytes 0, [0, 0, 0, 0, 0, 0, 0, 0], [⟨0, cK, 1, false, wrote, false⟩], true, none, [], none, [0], [], some [([0x66], [])]⟩
def sRank (wrote : Bool) : State := (sColl cmdRank 0).modDie 0 fun d => { d with colls := [coll0 wrote] }
/-- The same before it starts. -/
def sAsked : State := (sColl cmdRank 0).modDie 0 fun d => { d with colls := [{ coll0 false with started := false, list := [] }] }
def rank0 (wrote : Bool) : CollRank := ⟨0, cK, 1, false, wrote, false⟩

/-- What a read gave. -/
def readBytes (x : State × Except (Option Trap) (List Byte)) : Option (List Byte) := x.2.toOption

/-- Those about collectives. -/
theorem witness_Collectives : sA.collCmd cK 1 = none ∧ (sColl cmdColl 0).here.cmd 1 = some cmdColl ∧ cmdColl.deps = []
    ∧ (sColl cmdColl 0).jobStopped 5 = false ∧ addrForm (cmdColl.fields.get 0 0) < 2
    ∧ tokAfter (.collArrive cK 1) (sColl { cmdColl with depFault := some 4 } 0) = ⟨.faulted, 0x43, 100⟩
    ∧ tokAfter (.collArrive cK 1) (sColl { cmdColl with fields := [(0, 0x8000000000000000)] } 0) = ⟨.faulted, 0x49, 100⟩
    ∧ readBytes ((sColl cmdColl 0).readRun (cmdColl.collAgent cK 1) 0x40000200 128) = some (collBytes 0)
    ∧ collOk 3 false false (collBytes 0) = true ∧ collOk 3 false false (collBytes 1) = false
    ∧ tokAfter (.collArrive cK 1) (sColl cmdColl 1) = ⟨.faulted, 0x49, 100⟩
    ∧ (let y := (sColl cmdColl 0).readRun (cmdColl.collAgent cK 1) 0x40000200 128;
      (y.1.core cK).cmd 1 = some cmdColl ∧ (y.1.die 0).colls = [] ∧ (y.1.die 0).collWait = [] ∧ ∀ d < 8, (y.1.collOn d 5 77).isNone = true)
    ∧ ((out (.collArrive cK 1) (sColl cmdColl 0)).die 0).colls.map (fun y => (y.started, y.ranks)) = [(true, [rank0 false])]
    ∧ (sColl cmdColl 0).collRanks 5 77 = [] ∧ (sRank false).collRanks 5 77 = [(0, rank0 false)]
    ∧ (sRank false).collOn 0 5 77 = some (coll0 false) ∧ (sRank false).rankCmd 5 77 (rank0 false) = some cmdRank
    ∧ ((State.engineLists 5 77 (sAsked.collRanks 5 77) sAsked).2.toOption.map fun l => l.map fun e => e.2.2) = some [[0, 0, 0, 0, 0, 0, 0, 0]]
    ∧ (State.rankSources (coll0 false) [0] (sRank false)).2.toOption = some [([0x66], [])]
    ∧ (out (.collComplete 5 77 0) (sRank false)).mem.byte 0x203000 = 0x66
    ∧ (tokAfter (.collComplete 5 77 0) (sRank true)).st = .done ∧ (sRank true).rankCmd 5 77 (rank0 true) = some cmdRank
    ∧ (sRank true).sent = [] ∧ ((sRank false).anyColl 5 77).map Coll.failed = some none
 := by
  refine ⟨?_, ?_, ?_, ?_, ?_, ?_, ?_, ?_, ?_, ?_, ?_, ⟨?_, ?_, ?_, ?_⟩, ?_, ?_, ?_, ?_, ?_, ?_, ?_, ?_, ?_, ?_, ?_, ?_⟩ <;> decide +kernel

/-! ### Lodge completions, the gang switch, kills and monitors -/

/-- The lodge of die 1 with one operation outstanding, beside a core with two cached translations and a clean line, and a byte in the
last slice of the die's domain and in one that stays. -/
def sHold (h : Hold) : State :=
  let s := stateOf ⟨1, 96, 0⟩ { task0 with pend := [], holds := [h] }
  let s := s.modCore ⟨1, 2⟩ fun c => { c with
    tlb := [⟨5, 8, false, 0x200000, true, 0⟩, ⟨6, 8, false, 0x200000, true, 0⟩]
    l1 := [⟨0x4000, 5, 0x1000000, jobKey 5, 0, .read, 0, 0, false, 0, [], []⟩] }
  let s := s.modDie 1 fun d => { d with l2first := 8, l2logn := 3 }
  { s with mem := s.mem ++ [(sliceBase 1 8 + 3, 7), (sliceBase 1 15, 9)], gens := [(1, 4)] }

/-- The premises of each clause of LodgeCompletionsAndGangSteps about a lodge's operation, and what follows. -/
theorem witness_LodgeCompletions : sL.me.holds = [] ∧ (sHold (.tlbinv 0x1000000 0x1000 5)).me.holds = [.tlbinv 0x1000000 0x1000 5]
    ∧ (sHold (.tlbinv 0x1000000 0x1000 5)).outstanding (vaRange 0x1000000 0x1000 5) = false
    ∧ ((out (.tlbinvAck 1) (sHold (.tlbinv 0x1000000 0x1000 5))).core ⟨1, 2⟩).tlb = [⟨6, 8, false, 0x200000, true, 0⟩]
    ∧ ((out (.tlbinvAck 1) (sHold (.tlbinv 0x1000000 0x1000 5))).core ⟨1, 2⟩).l1 = []
    ∧ (out (.tlbinvAck 1) (sHold (.tlbinv 0x1000000 0x1000 5))).me.holds = []
    ∧ (out (.genbumpDone 1) (sHold (.genbump 0x200000 2))).gens = [(1, 5), (2, 1)]
    ∧ (out (.l2wbDone 1) (sHold (.l2wb 0 0x80 false))).me.holds = []
    ∧ (out (.domsetDone 1) (sHold (.domset 0x28))).mem.byte (sliceBase 1 15) = 0
    ∧ (out (.domsetDone 1) (sHold (.domset 0x28))).mem.byte (sliceBase 1 8 + 3) = 7
    ∧ ((out (.domsetDone 1) (sHold (.domset 0x28))).die 1).l2logn = 2
    ∧ (sHold (.npload 9 0 0x500000000)).me.holds = [.npload 9 0 0x500000000] ∧ (0x500000000 : W64).toNat % 2 ^ 32 = 0
    ∧ Tbl.wf Pavilion.reset ((sHold (.npload 9 0 0x500000000)).die 1).pavs = true
    ∧ (let s := { sHold (.npload 9 0 0x500000000) with pointer := 0 }.modPav 1 15 fun p => { p with entries := [(2, entry9 0 0 1)] };
      (((out (.nploadDone 1) s).die 1).pav 15).entries = [] ∧ (out (.nploadDone 1) s).me.sreg 9 = 0)
    ∧ (let s := { sHold (.keyld 9 0x1005 0) with jobid := 7, keys := [⟨5, [], []⟩, ⟨6, [], []⟩] };
      let s := { s with attest := { s.attest with queue := [(776, ⟨1, 96, 0⟩)] } };
      (0x1005 : W64).toNat / 2 ^ 12 = 1 ∧ s.isSwitched 5 = false ∧ (out .attestServe s).keys = [⟨6, [], []⟩] ∧ (out .attestServe s).me.holds = [])
    ∧ (sHold (.attest 9 0 0)).me.holds = [.attest 9 0 0] ∧ sL.attest.queue = [] := by
  refine ⟨?_, ?_, ?_, ?_, ?_, ?_, ?_, ?_, ?_, ?_, ?_, ?_, ?_, ?_, ⟨?_, ?_⟩, ⟨?_, ?_, ?_, ?_⟩, ?_, ?_⟩ <;> decide +kernel

/-- A switch of job 5 at turn 3, before and after its stop, with some ports marked. -/
def block5 : SwitchBlock := ⟨5, 1, 0x20000000, 0x20000000, 3⟩
def sGang (hwm : W64) (stopped : Bool) (marked : List PortRef) : State :=
  { sA with hwm := hwm, gang := some ⟨block5, none, stopped, false, marked, 0, [], [], [], []⟩ }
def sHalted : State := ({ State.reset with jobid := 5, keys := [⟨5, [], []⟩] }).setTask ⟨0, 7, 2⟩ { task0 with pend := [], halted := true }

/-- Those about the switch. -/
theorem witness_GangSteps : sA.gang = none ∧ block5.job = sA.jobid.toNat ∧ block5.mask.getLsbD sA.module.toNat = true
    ∧ block5.orangery % 2 ^ 21 = 0 ∧ block5.orangery + block5.size ≤ hbmSize ∧ ({ sA with hwm := 12288 }).hwm.toNat ≤ 4096 * block5.turn
    ∧ (out (.gswCommand block5) sA).gang.isSome = true ∧ (out (.gswCommand { block5 with job := 6 }) sA).gang = none
    ∧ (out .gangStop (sGang 12287 false [])).me.halted = false ∧ (out .gangStop (sGang 12288 false [])).me.halted = true
    ∧ (out .gangStopTimeout (sGang 0 false [])).hwm = 12288 ∧ pRing ∈ markedPorts ∧ pMesh ∉ markedPorts
    ∧ (out (.gangMarker pRing 5 3) (sGang 12288 true [])).gang.map (fun g => g.marked) = some [pRing]
    ∧ (out (.gangMarker pRing 5 3) (sGang 12288 false [])).gang.map (fun g => (g.marked, g.stopped)) = some ([pRing], false)
    ∧ (portAt 7 eastRouter 5 ∈ markedPorts ∧ portAt 7 eastRouter 5 ∉ ([pRing] : List PortRef))
    ∧ (sGang 12288 true [pRing]).gangOf 5 = (sGang 12288 true [pRing]).gang ∧ sA.gangOf 5 = none
    ∧ ((out (.lateCell pRing (cell9 0 1 1)) (sGang 12288 true [pRing])).gang.map fun g => g.nlate) = some 1
    ∧ (let s := { sGang 12288 true [pRing] with gang := some ⟨block5, none, true, false, [pRing], 4096, [], [], [], []⟩ };
      ((out (.lateCell pRing (cell9 0 1 1)) s).gang.map fun g => (g.nlate, g.lost)) = some (4096, [(pRing, cell9 0 1 1)]))
    ∧ (∀ r ∈ sHalted.jobTasks 5, (sHalted.task r).halted = true) := by
  refine ⟨?_, ?_, ?_, ?_, ?_, ?_, ?_, ?_, ?_, ?_, ?_, ?_, ?_, ?_, ?_, ?_, ?_, ?_, ?_, ?_, ?_⟩ <;> decide +kernel

/-- Those about kills, GHCFG, monitors and register writes. -/
theorem witness_KillsAndMonitors : targetTasks 0 3 = [⟨0, 3, 0⟩] ∧ ((out (.kill 0 3) sM).task sM.cur).status = .ending
    ∧ ((out (.kill 0 3) sM).task ⟨0, 3, 1⟩).status = .ready
    ∧ (gateAfter (.ghcfgLock 0 0xFF) (sM.modDie 0 fun d => { d with gate := { d.gate with ghcfg := 1 } })).ghcfg = 0x7F
    ∧ (gateAfter (.ghcfgLock 0 0xFF) (sM.modDie 0 fun d => { d with gate := { d.gate with ghcfg := 0x41 } })).ghcfg = 0x41
    ∧ samplesQty ⟨0, true, 3⟩ (sM.monitor ⟨0, true, 3⟩).qty = false
    ∧ ((out (.mselWrite ⟨0, true, 3⟩ 0x11) sM).monitor ⟨0, true, 3⟩).qty = 1 ∧ samplesQty ⟨0, true, 3⟩ 1 = true
    ∧ (let m := (out (.monitorSample ⟨0, true, 3⟩ 9) (out (.mselWrite ⟨0, true, 3⟩ 0x11) sM)).monitor ⟨0, true, 3⟩;
      m.count = 1 ∧ m.min = 9 ∧ m.max = 9)
    ∧ sM.hasKey (jobKey 5) = true ∧ (out (.registerWrite ⟨0, 0xA0, 0, 5, 17, false⟩ 0x300000 0x1234) sM).mem.bytes 0x300000 3 = [0x34, 0x12, 0] := by
  refine ⟨?_, ?_, ?_, ?_, ?_, ?_, ?_, ?_, ?_, ?_, ?_⟩ <;> decide +kernel

/-! ### The host and fatal causes -/

/-- Bytes of a word of an image. -/
def le4 (n : Nat) : List Byte := leBytes 4 n
/-- A section table entry. -/
def sectEntry (typ off size info : Nat) : List Byte := le4 typ ++ le4 0 ++ leBytes 8 off ++ leBytes 8 size ++ le4 0 ++ le4 info

/-- An image of job 5 (Tables 2.18 to 2.21): code of two bundles, of which the first holds PREP tb1 with a PREP18 relocation against a
label at unit 1, and one kernel of two tasks that enters at unit 1. -/
def image5 : List Byte :=
  padTo 64 (le4 0x38455642 ++ [1, 0, 0, 0] ++ le4 5 ++ le4 64)
    ++ sectEntry 1 256 32 0 ++ sectEntry 5 320 64 1 ++ sectEntry 6 384 48 2 ++ sectEntry 7 448 24 1 ++ sectEntry 8 512 4 0 ++ List.replicate 32 0
    ++ padTo 64 ([0x02040000, 0x02F00000, 0x02F00000, 0x82F00000, 0x02F00000, 0x02F00000, 0x02F00000, 0x82F00000].flatMap le4)
    ++ padTo 64 (le4 0 ++ le4 0 ++ le4 2 ++ le4 1 ++ [1, 8, 0, 0, 1, 0, 0, 0, 2, 0, 1, 0, 1, 0, 0, 0] ++ le4 200)
    ++ padTo 64 (leBytes 24 0 ++ le4 1 ++ [0, 1, 0, 0] ++ leBytes 8 1) ++ padTo 64 (leBytes 8 0 ++ le4 1 ++ [1, 0, 0, 0]) ++ [0, 65, 66, 0]
def load5 : LoadMsg := ⟨5, 0x40002000, 516, [0x40005000], [16]⟩

/-- Memory with that image at 0x202000, and the page table. -/
def imageMem : Memory :=
  [(0x20000, 1), (0x20002, 3), (0x30000, 1), (0x30002, 4), (0x41000, 7), (0x41002, 32), (0x202000, 66), (0x202001, 86), (0x202002,
    69), (0x202003, 56), (0x202004, 1), (0x202008, 5), (0x20200C, 64), (0x202040, 1), (0x202049, 1), (0x202050, 32), (0x202060, 5),
    (0x202068, 64), (0x202069, 1), (0x202070, 64), (0x20207C, 1), (0x202080, 6), (0x202088, 128), (0x202089, 1), (0x202090, 48),
    (0x20209C, 2), (0x2020A0, 7), (0x2020A8, 192), (0x2020A9, 1), (0x2020B0, 24), (0x2020BC, 1), (0x2020C0, 8), (0x2020C9, 2),
    (0x2020D0, 4), (0x202102, 4), (0x202103, 2), (0x202106, 240), (0x202107, 2), (0x20210A, 240), (0x20210B, 2), (0x20210E, 240),
    (0x20210F, 130), (0x202112, 240), (0x202113, 2), (0x202116, 240), (0x202117, 2), (0x20211A, 240), (0x20211B, 2), (0x20211E, 240),
    (0x20211F, 130), (0x202148, 2), (0x20214C, 1), (0x202150, 1), (0x202151, 8), (0x202154, 1), (0x202158, 2), (0x20215A, 1),
    (0x20215C, 1), (0x202160, 200), (0x202198, 1), (0x20219D, 1), (0x2021A0, 1), (0x2021C8, 1), (0x2021CC, 1), (0x202201, 65),
    (0x202202, 66)]

/-- It is that image there. -/
theorem image_mem : (((Memory.setBytes [] 0x20000 [1, 0, 3]).setBytes 0x30000 [1, 0, 4]).setBytes 0x41000 [7, 0, 0x20]).setBytes 0x202000 image5
    = imageMem := by decide +kernel

/-- A launch message of kernel 0 of job 5 on die 0, with the identity permutation and launch identifier 99. -/
def launchMsg (job kernel : Nat) : List Byte :=
  padTo 104 ([1, 1] ++ leBytes 2 job ++ le4 kernel) ++ [0x88, 0xC6, 2, 0, 0, 0, 0, 0] ++ leBytes 8 1 ++ leBytes 8 0
def hostCell (b : List Byte) : Cell := ⟨10, 0x1400, 0, 0, 0, false, false, b⟩

/-- The module with its host port open and eight cells waiting, of which the first has a payload, a page of job 5 mapped and its image
placed in it, and job 5 active with a kernel loaded. -/
def sHost (job : BitVec 12) (m : List Byte) : State :=
  { sM with
    mem := imageMem, jobid := job, images := [⟨5, [launchD.kernel], 0, []⟩]
    host := { State.reset.host with
      link := 2, sas := [⟨true, 0, [], 1⟩, ⟨false, 0, [], 1⟩], rxSeq := 8
      inbox := (8, hostCell m) :: List.replicate 7 (8, hostCell [1]) } }

/-- The first bytes of the replies after an instruction. -/
def repliesOf (i : Instr) (s : State) : List (List Byte) := (out i s).host.replies.flatMap fun f => f.cells.map fun c => c.payload.take 16

/-- A frame of one cell with the sequence that comes next, sealed under the receiving association. -/
def openFrame (secure : Bool) : HostFrame := ⟨secure, 0, 4, [], 0x88B5, 1, 1, 9, [hostCell [2]]⟩
def frame9 : HostFrame := { openFrame true with icv := Config.macsecIcv [] 4 (frameText (openFrame true)) }

/-- The premises of each clause of HostMessagesAreServed that do not rest on the keys and ciphers of Config, and what follows. -/
theorem witness_HostFrames : (sHost 5 []).frameOk frame9 = true ∧ (sHost 5 []).frameOk (openFrame false) = false
    ∧ (out (.hostFrame (openFrame false)) (sHost 5 [])).host.drops = 1 := by
  refine ⟨?_, by decide +kernel, by decide +kernel⟩
  have h : (sHost 5 []).opens frame9 = true := by
    simp only [State.opens, sHost, List.any_cons, Bool.and_eq_true, Bool.or_eq_true, decide_eq_true_eq]
    exact ⟨rfl, .inl ⟨⟨⟨trivial, rfl⟩, by decide⟩, rfl⟩⟩
  simp only [State.frameOk, h, Bool.and_true]
  decide +kernel

theorem witness_HostMessages : (sHost 5 []).fatal = none ∧ (sHost 5 []).host.dump = none ∧ (sHost 5 [5]).host.headKind = some 5
    ∧ (sHost 5 [5]).host.inbox.length = 8 ∧ (sHost 5 (launchMsg 5 0)).host.headIs (launchMsg 5 0) = true
    ∧ (sHost 5 [5]).host.headIs (padTo 128 [5]) = false
    ∧ (launchMsg 5 0).length = 128 ∧ launchOk (launchMsg 5 0) = true
    ∧ repliesOf (.hostLaunch (launchMsg 5 0)) (sHost 5 (launchMsg 5 0)) = [[0x81, 0, 0, 0, 8, 0, 0, 0, 1, 0, 0, 0, 0, 0, 0, 0]]
    ∧ (sHost 5 []).kernelOf 5 0 = some launchD.kernel ∧ (sHost 5 []).kernelOf 5 1 = none
    ∧ (sHost 5 []).holdable (launchOf 1 launchD.kernel (launchMsg 5 0) none (some 8)) = true
    ∧ repliesOf (.hostLaunch (launchMsg 5 1)) (sHost 5 (launchMsg 5 1)) = [[0x81, 2, 0, 0, 8, 0, 0, 0, 0, 0, 0, 0, 0, 0, 0, 0]]
    ∧ repliesOf (.hostLaunch (launchMsg 6 0)) (sHost 5 (launchMsg 6 0)) = [[0x81, 3, 0, 0, 8, 0, 0, 0, 0, 0, 0, 0, 0, 0, 0, 0]]
    ∧ repliesOf (.hostLaunch (padTo 128 [0x20])) (sHost 5 [0x20]) = [[0xA0, 1, 0, 0, 8, 0, 0, 0, 0, 0, 0, 0, 0, 0, 0, 0]]
    ∧ (out (.hostLaunch (padTo 128 [0x20])) (sHost 5 [0x20])).host.inbox.length = 7
    ∧ (sHost 5 []).jobAdmitted 5 = true ∧ (sHost 5 []).jobAdmitted 6 = false ∧ (sHost 0 []).jobAdmitted 5 = true
    ∧ repliesOf (.hostLoad { load5 with job := 0 }) (sHost 5 [2]) = [[0x82, 1, 0, 0, 8, 0, 0, 0, 0, 0, 0, 0, 0, 0, 0, 0]]
    ∧ repliesOf (.hostLoad { load5 with job := 0 }) (sHost 5 [3]) = []
    ∧ repliesOf (.hostRead 5 0x40000000 97) (sHost 5 [4]) = [[0x84, 1, 0, 0, 8, 0, 0, 0, 0, 0, 0, 0, 0, 0, 0, 0]]
    ∧ (sHost 5 []).readJob 5 0x40005000 4 = some [0, 0, 0, 0] ∧ (sHost 5 []).readJob 5 0x80000000 4 = none
    ∧ (sHost 5 []).mapped 5 0x40005000 4 (fun w => w) = true ∧ (sHost 5 []).mapped 5 0x80000000 4 (fun w => w) = false
    ∧ (sHost 5 []).keyEntry? 6 = none ∧ (sHost 5 []).attest.held = none ∧ (sHost 5 []).attest.queue = []
    ∧ repliesOf (.hostJobEnd 6) (sHost 5 [7]) = [[0x87, 3, 0, 0, 8, 0, 0, 0, 0, 0, 0, 0, 0, 0, 0, 0]]
    ∧ repliesOf (.hostJobEnd 5) (sHost 5 [7]) = [[0x87, 0, 0, 0, 8, 0, 0, 0, 0, 0, 0, 0, 0, 0, 0, 0]]
    ∧ (out (.hostJobEnd 5) (sHost 5 [7])).me.status = .ending ∧ (out (.hostJobEnd 5) (sHost 5 [7])).jobid = 0
    ∧ (out (.hostJobEnd 5) (sHost 5 [7])).keys = []
    ∧ repliesOf .hostGrotto (sHost 5 [8]) = [[0x88, 4, 0, 0, 8, 0, 0, 0, 0, 0, 0, 0, 0, 0, 0, 0]]
    ∧ repliesOf (.hostConfig 3) (sHost 5 [9]) = [[0x89, 4, 0, 0, 8, 0, 0, 0, 0, 0, 0, 0, 0, 0, 0, 0]]
    ∧ (out (.hostConfig 3) (sHost 0 [9])).attest.rackWord = 3
    ∧ requestOk (padTo 64 []) = true ∧ (padTo 64 ([] : List Byte)).length = 64 ∧ requestOk (padTo 64 [2]) = false := by
  refine ⟨?_, ?_, ?_, ?_, ?_, ?_, ?_, ?_, ?_, ?_, ?_, ?_, ?_, ?_, ?_, ?_, ?_, ?_, ?_, ?_, ?_, ?_, ?_, ?_, ?_, ?_, ?_, ?_, ?_, ?_, ?_, ?_, ?_, ?_,
    ?_, ?_, ?_, ?_, ?_, ?_⟩ <;> decide +kernel

/-- LOAD of the image places its code with the relocation made, and keeps its kernel (R51 to R53). -/
theorem test_load : ((sHost 0 [2]).loadImage load5).isSome = true
    ∧ (out (.hostLoad load5) (sHost 0 [2])).mem.bytes 0x205000 8 = [1, 0, 4, 2, 0, 0, 0xF0, 2]
    ∧ (out (.hostLoad load5) (sHost 0 [2])).images.map (fun i => i.kernels.map fun k => (k.codeBase, k.codeLen, k.entry, k.tasks)) = [[(0x205000, 2, 1, 2)]]
    ∧ (out (.hostLoad load5) (sHost 0 [2])).jobid = 5
    ∧ repliesOf (.hostLoad load5) (sHost 0 [2]) = [[0x82, 0, 0, 0, 8, 0, 0, 0, 0, 0, 0, 0, 0, 0, 0, 0]]
    ∧ (sHost 0 [2]).loadImage { load5 with place := [0x40005001] } = none := by
  refine ⟨?_, ?_, ?_, ?_, ?_, ?_⟩ <;> decide +kernel

/-- The premises of each clause of FatalCausesResetAndPower that has some: a module that runs, one that has stopped with its section
complete, and one that has not. -/
theorem witness_FatalCauses : sA.fatal = none ∧ 0xE0 ≤ 0xE1 ∧ 0xE1 ≤ 0xE3 ∧ (out (.fatalStop 0 0xDF 5) sA).fatal = none
    ∧ (out (.junctionTrip 3 9) sA).fatal = some ⟨3, 0xE2, 0x90300, 777, false, false⟩
    ∧ (let s := { sA with fatal := some ⟨0, 0xE1, 5, 777, true, false⟩, mem := [(grottoBase, 0x47), (grottoSection 0, 1)] };
      s.mem.byte (grottoSection 0) = 1 ∧ (out (.packageWatchdog 2) s).fatal = s.fatal
      ∧ repliesOf .fatalMessage s = [[0x8F, 0, 0, 0, 0, 0, 0, 0, 0x47, 0, 0, 0, 0, 0, 0, 0]]
      ∧ ((out .fatalMessage s).fatal.map fun f => f.sent) = some true)
    ∧ (let s := { sA with fatal := some ⟨0, 0xE1, 5, 777, true, false⟩ }; s.mem.byte (grottoSection 0) ≠ 1 ∧ repliesOf .fatalMessage s = [])
    ∧ ({ sA with fatal := some ⟨0, 0xE1, 5, 777, false, false⟩ }).lodgeRuns 1 = true ∧ (out .powerLoss sA).powered = false := by
  refine ⟨?_, ?_, ?_, ?_, ?_, ⟨?_, ?_, ?_, ?_⟩, ⟨?_, ?_⟩, ?_, ?_⟩ <;> decide +kernel

end Sys2Proof.Tests
end

/-! ### Two changes of one place -/

namespace Sys2Proof.Machine

theorem Tbl.insert_insert {α : Type} (v w : α) (t : Tbl α) (k : Nat) :
    Tbl.insert w (Tbl.insert v t k) k = Tbl.insert w t k := by
  induction t with
  | nil => simp [Tbl.insert]
  | cons e t ih =>
    obtain ⟨j, u⟩ := e
    by_cases below : k < j
    · simp [Tbl.insert, below]
    · by_cases same : j = k
      · simp [Tbl.insert, same]
      · simp [Tbl.insert, below, same, ih]

theorem Tbl.erase_insert {α : Type} (v : α) (t : Tbl α) (k : Nat) :
    Tbl.erase (Tbl.insert v t k) k = Tbl.erase t k := by
  induction t with
  | nil => simp [Tbl.insert, Tbl.erase]
  | cons e t ih =>
    obtain ⟨j, u⟩ := e
    by_cases below : k < j
    · simp [Tbl.insert, Tbl.erase, below]
    · by_cases same : j = k
      · simp [Tbl.insert, Tbl.erase, same]
      · simp [Tbl.insert, Tbl.erase, below, same, ih]

/-- The second of two writes of a key stands. The first lists the key, so that the second finds its place also in a table
whose keys do not rise. -/
theorem Tbl.set_set {α : Type} [DecidableEq α] {d v : α} (hv : v ≠ d) (w : α) (t : Tbl α) (k : Nat) :
    Tbl.set d (Tbl.set d t k v) k w = Tbl.set d t k w := by
  unfold Tbl.set
  rw [if_neg hv, Tbl.erase_insert, Tbl.insert_insert]

theorem Tbl.set_ne_nil {α : Type} [DecidableEq α] {d v : α} (hv : v ≠ d) (t : Tbl α) (k : Nat) :
    Tbl.set d t k v ≠ [] := by
  intro empty
  have read := Tbl.get_set_same d v t k
  rw [empty] at read
  exact hv read.symm

theorem State.setCore_setCore {x : Core} (hx : x ≠ Core.reset) (s : State) (c : CoreRef) (y : Core) :
    (s.setCore c x).setCore c y = s.setCore c y := by
  simp [State.setCore, Tbl.set_set hx]

/-- A core that holds a task is none that stands as after reset. -/
theorem Core.ne_reset_of_tasks {c : Core} (h : c.tasks ≠ []) : c ≠ Core.reset := by
  rintro rfl
  exact h rfl

/-- Two changes of a task are one. -/
theorem State.modTask_modTask (s : State) (r : TaskRef) (f g : Task → Task) :
    (s.modTask r f).modTask r g = s.modTask r fun t => g (f t) := by
  have held : { s.core r.coreRef with
      tasks := Tbl.set none (s.core r.coreRef).tasks r.slot (some (f (s.task r))) } ≠ Core.reset :=
    Core.ne_reset_of_tasks (Tbl.set_ne_nil (Option.some_ne_none _) (s.core r.coreRef).tasks r.slot)
  calc (s.modTask r f).modTask r g
      = (s.modTask r f).setTask r (g (f (s.task r))) := by rw [State.modTask, State.task_modTask]
    _ = s.setTask r (g (f (s.task r))) := by
        simp only [State.setTask, State.putTask, State.modTask, State.modCore, State.core_setCore,
          State.setCore_setCore held, Tbl.set_set (Option.some_ne_none _)]

theorem State.modMe_modMe (s : State) (f g : Task → Task) : (s.modMe f).modMe g = s.modMe fun t => g (f t) :=
  State.modTask_modTask ..

/-- Two results of the issuing task stand behind those in flight, in the order in which they are queued. -/
theorem State.push_push (s : State) (m n : Nat) (u v : PVal) (f g : BitVec 6) :
    (s.push m u f).push n v g = s.modMe fun t => { t with pend := t.pend ++ [⟨u, m, f⟩, ⟨v, n, g⟩] } := by
  simp only [State.push, State.modMe_modMe, Task.push, List.append_assoc, List.cons_append, List.nil_append]

/-! ### Scalar predicates -/

/-- Writing p0 changes nothing (R87). -/
@[simp] theorem Task.setPred_zero (t : Task) (b : Bool) : t.setPred 0 b = t := rfl

/-- A predicate written reads as written. -/
theorem Task.pred_setPred_same (t : Task) {n : Nat} (b : Bool) (hn : 0 < n) (h8 : n < 8) : (t.setPred n b).pred n = b := by
  have h0 : n ≠ 0 := by omega
  cases b <;> simp [Task.pred, Task.setPred, h0, h8]

end Sys2Proof.Machine

namespace Sys2Proof

open Machine

/-! ### Compares -/

/-- A result for a scalar predicate is its task's own. -/
theorem own_pred (n : Nat) (b : Bool) (lat : Nat) (f : BitVec 6) : Own ⟨.pred n b, lat, f⟩ :=
  fun _ => ⟨fun _ _ _ => PVal.noConfusion, fun _ _ => PVal.noConfusion⟩

/-- An instruction that issues a compare slot queues its condition and the complement (R37, R89). -/
theorem gives_compare {i : Instr} {s : State} {g : Guard} {pt pf : BitVec 3} {c : State → Bool} {v : Bool}
    (hx : exec i s = issueSlot (semCompare g pt pf c) s) (r : Runs g s) (hc : c (opened s) = v) :
    Gives i s [⟨.pred pt.toNat v, 1, 0⟩, ⟨.pred pf.toNat (!v), 1, 0⟩] := by
  subst hc
  refine gives_plain hx r rfl rfl rfl rfl rfl rfl rfl rfl (State.push_push ..) ?_
  intro p hp
  simp only [List.mem_cons, List.not_mem_nil, or_false] at hp
  rcases hp with rfl | rfl <;> exact ⟨Nat.le_refl 1, own_pred _ _ _ _⟩

/-- The primary opcodes of CMP, CMPI and SFCMP (Table 2.6). -/
def IsCompareOp (op : Nat) : Prop := op = 0x18 ∨ op = 0x19 ∨ op = 0x1D

/-- The row of a compare opcode names the predicates of its two fields. -/
theorem rowOf_compare {n : Nat} (h : IsCompareOp (bits n 26 20)) :
    ∃ (g : Guard) (a b : BitVec 5) (cond : BitVec 4), rowOf n = some (.cmp g (fld n 17 3) (fld n 14 3) a b cond)
      ∨ rowOf n = some (.cmpi g (fld n 17 3) (fld n 14 3) a b cond)
      ∨ rowOf n = some (.sfcmp g (fld n 17 3) (fld n 14 3) a b cond) := by
  refine ⟨guardOf n, fld n 9 5, fld n 4 5, fld n 0 4, ?_⟩
  rcases h with op | op | op
  · exact .inl (by simp [rowOf, rowsX1, op])
  · exact .inr (.inl (by simp [rowOf, rowsX1, op]))
  · exact .inr (.inr (by simp [rowOf, rowsX1, op]))

/-- A compare that names one predicate twice, other than p0, is ill-formed (R37). -/
theorem wf_compare_same {p : BitVec 3} (hp : p ≠ 0#3) (g : Guard) (a b : BitVec 5) (cond : BitVec 4) :
    (Instr.cmp g p p a b cond).wf = false ∧ (Instr.cmpi g p p a b cond).wf = false
      ∧ (Instr.sfcmp g p p a b cond).wf = false := by
  simp [Instr.wf, hp]

theorem toNat_fld (n lo k : Nat) : (fld n lo k).toNat = n / 2 ^ lo % 2 ^ k := BitVec.toNat_ofNat ..

/-- A word whose row is ill-formed is no slot (R33). -/
theorem decodeSlot_of_not_wf {w : W32} {i : Instr} (h : rowOf w.toNat = some i) (hw : i.wf = false) :
    decodeSlot w = .error (.refusedOperand (bits w.toNat 26 20)) := by
  simp [decodeSlot, decodeInstr, h, hw]

/-- A compare word with one predicate named twice, other than p0, is no slot (R37). -/
theorem decodeSlot_compare_same {w : W32} (h : IsCompareOp (bits w.toNat 26 20))
    (same : bits w.toNat 19 17 = bits w.toNat 16 14) (nonzero : bits w.toNat 19 17 ≠ 0) :
    decodeSlot w = .error (.refusedOperand (bits w.toNat 26 20)) := by
  have hf : fld w.toNat 14 3 = fld w.toNat 17 3 := BitVec.eq_of_toNat_eq (by rw [toNat_fld, toNat_fld]; exact same.symm)
  have hp : fld w.toNat 17 3 ≠ 0#3 := fun h0 => nonzero ((toNat_fld ..).symm.trans (congrArg BitVec.toNat h0))
  obtain ⟨g, a, b, cond, row⟩ := rowOf_compare h
  obtain ⟨cmp, cmpi, sfcmp⟩ := wf_compare_same hp g a b cond
  rw [hf] at row
  rcases row with row | row | row
  · exact decodeSlot_of_not_wf row cmp
  · exact decodeSlot_of_not_wf row cmpi
  · exact decodeSlot_of_not_wf row sfcmp

/-- A compare opcode is not that of GSW and GRES. -/
theorem namesSwitchB_compare {w : W32} (h : IsCompareOp (bits w.toNat 26 20)) : namesSwitchB w = false := by
  rcases h with op | op | op <;> simp [namesSwitchB, op]

/-- A word that is no slot and no GSW or GRES is an illegal instruction (R33). -/
theorem isIllegal_of_error {w : W32} {r : Reject} (h : decodeSlot w = .error r) (hb : namesSwitchB w = false) (s : State) :
    (wordSem w).isIllegal s = true := by
  simp [wordSem, h, hb, SlotSem.isIllegal, SlotSem.bad]

/-- Settles O19: a compare queues its two results through `gives_compare`, and a word that names one predicate twice has an
ill-formed row. -/
theorem compareWritesBothPredicates : Obligations.CompareWritesBothPredicates := by
  unfold Obligations.CompareWritesBothPredicates
  refine ⟨fun g pt pf a b cond s r => ⟨?_, ?_, ?_⟩, Task.setPred_zero, ?_, fun w op same nonzero => ?_⟩
  · exact gives_compare (c := fun s => condInt cond.toNat (s.sreg a) (s.sreg b)) rfl r (by simp)
  · exact gives_compare (c := fun s => condInt cond.toNat (s.sreg a) (sext b)) rfl r (by simp [sext])
  · exact gives_compare (c := fun s => condFloat cond.toNat (f32Of (s.sreg a)) (f32Of (s.sreg b))) rfl r (by simp)
  · exact fun t _ b => Task.pred_setPred_same t b
  · have no_slot := decodeSlot_compare_same op same nonzero
    exact ⟨⟨_, no_slot⟩, isIllegal_of_error no_slot (namesSwitchB_compare op)⟩

end Sys2Proof

namespace Sys2Proof

open Machine

/-! ### NOP -/

/-- A slot that leaves the state as it stands whatever its guard, with no check of its own, has no result (R28, R127). -/
theorem gives_nothing {i : Instr} {m : SlotSem} {s : State} (hx : exec i s = issueSlot m s) (quiet : Quiet s)
    (ready : Ready m s) (hv : m.vsrc = []) (hm : m.mark = false)
    (unchanged : m.apply (opened s) (opened s) = opened s) : Gives i s [] := by
  have takes : ∀ q, m.takes (opened s) q = false := by simp [SlotSem.takes, hv]
  have task : (opened s).task s.cur = { (opened s).me with pend := s.me.pend ++ [] } := by
    show (opened s).me = _
    simp [me_opened]
  have := does_of (f := id) hx ready quiet hm (by rw [unchanged, cur_opened]) (by rw [unchanged]; exact OnlyTask.opened s)
    (by rw [unchanged]; exact task) (by simp [me_opened]) (by rw [id_eq, me_opened]; exact quiet.loops)
    (by simp only [id_eq, me_opened, afterBundle, quiet.delay]) (List.forall_mem_nil _)
  rwa [takes, takes] at this

/-- The slot of NOP leaves the state as it stands, whether its guard is true or false (R127). -/
theorem apply_semNop (g : Guard) (s : State) : (semNop g).apply s s = s := by
  unfold SlotSem.apply
  split <;> rfl

/-- NOP under any guard has no result (R127). -/
theorem gives_nop (g : Guard) {s : State} (may : MayIssue s) (quiet : Quiet s) : Gives (.nop g) s [] :=
  gives_nothing (m := semNop g) rfl quiet (ready_plain may rfl rfl rfl rfl rfl rfl rfl) rfl rfl (apply_semNop g _)

/-- The row of opcode 0x2F is that of NOP when its operand bits are zero, and there is none otherwise (R30). -/
theorem rowOf_nop {n : Nat} (op : bits n 26 20 = 0x2F) :
    rowOf n = if bits n 19 0 = 0 then some (.nop (guardOf n)) else none := by
  simp [rowOf, rowsX2, op]

/-- A word of no row is no slot (R33). -/
theorem decodeSlot_of_no_row {w : W32} (h : rowOf w.toNat = none) : ∃ r, decodeSlot w = .error r := by
  unfold decodeSlot decodeInstr
  rw [h]
  cases opAssigned (bits w.toNat 26 20) <;> exact ⟨_, rfl⟩

/-- A word whose row is well-formed is the slot of that row and its stop bit (R27). -/
theorem decodeSlot_of_wf {w : W32} {i : Instr} (h : rowOf w.toNat = some i) (hw : i.wf = true) :
    decodeSlot w = .ok ⟨decide (bits w.toNat 31 31 = 1), i⟩ := by
  simp [decodeSlot, decodeInstr, h, hw]

/-- Settles O24: opcode 0x2F has the one row of NOP, and its slot leaves the opened bundle as it stands under any guard. -/
theorem nopDoesNothing : Obligations.NopDoesNothing := by
  unfold Obligations.NopDoesNothing
  refine ⟨fun w op => ⟨fun zero => ?_, fun nonzero => ?_⟩, fun g s may quiet => gives_nop g may quiet⟩
  · exact decodeSlot_of_wf (by rw [rowOf_nop op, if_pos zero]) rfl
  · exact decodeSlot_of_no_row (by rw [rowOf_nop op, if_neg nonzero])

end Sys2Proof

namespace Sys2Proof

open Machine

/-! ### Encoding and decoding -/

/-- The row of a primary opcode and its operand bits. -/
def rowAt (op n : Nat) (g : Guard) : Option Instr :=
  match op / 16 with
  | 0 => rowsX0 op n g
  | 1 => rowsX1 op n g
  | 2 => rowsX2 op n g
  | 3 => rowsM op n g
  | 4 => rowsV0 op n g
  | 5 => rowsV1 op n g
  | 6 => rowsF op n g
  | _ => rowsT op n g

theorem rowOf_eq (n : Nat) : rowOf n = rowAt (bits n 26 20) n (guardOf n) := rfl

/-- A field put at a bit of a number. -/
def put (v p r : Nat) : Nat := v * 2 ^ p + r

/-- Operand bits: the fields put over the fixed bits. -/
def operandBits (fixed : Nat) (fields : List (Nat × Nat)) : Nat := fields.foldr (fun f r => put f.1 f.2 r) fixed

theorem operandBits_nil (fixed : Nat) : operandBits fixed [] = fixed := by rw [operandBits, List.foldr_nil]

theorem operandBits_cons (fixed v p : Nat) (fields : List (Nat × Nat)) :
    operandBits fixed ((v, p) :: fields) = put v p (operandBits fixed fields) := by
  rw [operandBits, List.foldr_cons, operandBits]

theorem put_eq (v p r : Nat) : put v p r = v * 2 ^ p + r := by rw [put]

theorem encWord_eq (g : Guard) (op fixed : Nat) (fields : List (Nat × Nat)) :
    encWord g op fixed fields = some (encHead g op + operandBits fixed fields) := by
  unfold encWord operandBits
  congr 1
  induction fields with
  | nil => rfl
  | cons f fields ih => simp only [List.foldr_cons, ih, put]; omega

theorem fld_eq {k n lo : Nat} {x : BitVec k} (h : n / 2 ^ lo % 2 ^ k = x.toNat) : fld n lo k = x :=
  BitVec.eq_of_toNat_eq (by rw [toNat_fld, h])

/-- A field is the bits it spans. -/
theorem fld_eq_bits (n lo k : Nat) (hk : 0 < k) : fld n lo k = BitVec.ofNat k (bits n (lo + k - 1) lo) :=
  fld_eq (by rw [BitVec.toNat_ofNat, bits, show lo + k - 1 + 1 - lo = k by omega, Nat.mod_mod])

/-! A number read where fields have been put: a field beside the bits that are read falls away. -/

theorem bits_put_above (v p r hi lo : Nat) (h : lo ≤ hi) (hp : hi < p) : bits (put v p r) hi lo = bits r hi lo := by
  obtain ⟨m, rfl⟩ := Nat.exists_eq_add_of_le (show lo + (hi + 1 - lo) ≤ p by omega)
  unfold bits put
  rw [show v * 2 ^ (lo + (hi + 1 - lo) + m) = 2 ^ lo * (2 ^ (hi + 1 - lo) * (2 ^ m * v)) by ring,
    Nat.mul_add_div (by positivity), Nat.mul_add_mod]

/-- A field put in bits that are zero carries into none above it. -/
theorem put_div {w : Nat} (x : BitVec w) (p r : Nat) (clear : r / 2 ^ p % 2 ^ w = 0) :
    put x.toNat p r / 2 ^ (p + w) = r / 2 ^ (p + w) := by
  have multiple := Nat.div_add_mod (r / 2 ^ p) (2 ^ w)
  rw [clear, Nat.add_zero] at multiple
  unfold put
  rw [Nat.pow_add, ← Nat.div_div_eq_div_mul, ← Nat.div_div_eq_div_mul, Nat.mul_comm, Nat.mul_add_div (by positivity),
    ← multiple, Nat.add_comm, Nat.mul_add_div (by positivity), Nat.div_eq_of_lt x.isLt, Nat.add_zero,
    Nat.mul_div_cancel_left _ (by positivity)]

theorem clear_of_bits {p w r : Nat} (clear : bits r (p + w - 1) p = 0) (hw : 0 < w) : r / 2 ^ p % 2 ^ w = 0 := by
  rwa [bits, show p + w - 1 + 1 - p = w by omega] at clear

theorem bits_put_below {w : Nat} (x : BitVec w) (p r hi lo : Nat) (hw : 0 < w) (h : p + w ≤ lo)
    (clear : bits r (p + w - 1) p = 0) : bits (put x.toNat p r) hi lo = bits r hi lo := by
  obtain ⟨m, rfl⟩ := Nat.exists_eq_add_of_le h
  unfold bits
  rw [Nat.pow_add, ← Nat.div_div_eq_div_mul, ← Nat.div_div_eq_div_mul, put_div x p r (clear_of_bits clear hw)]

theorem bits_put_at {w : Nat} (x : BitVec w) (p r hi : Nat) (hw : 0 < w) (h : hi + 1 = p + w)
    (clear : bits r (p + w - 1) p = 0) : bits (put x.toNat p r) hi p = x.toNat := by
  unfold bits put
  rw [show hi + 1 - p = w by omega, Nat.mul_comm, Nat.mul_add_div (by positivity), Nat.add_mod, clear_of_bits clear hw,
    Nat.add_zero, Nat.mod_mod, Nat.mod_eq_of_lt x.isLt]

/-- Bits that a field overlaps in part. -/
def overlapBits (v p r hi lo : Nat) : Nat := bits (put v p r) hi lo

/-- What is read where a field has been put in bits that are zero: the number below it, beside the field, and the field
at its place. -/
theorem bits_put {w : Nat} (x : BitVec w) (p r hi lo : Nat) : bits (put x.toNat p r) hi lo =
    if lo ≤ hi ∧ hi < p then bits r hi lo
    else if bits r (p + w - 1) p = 0 ∧ 0 < w ∧ p + w ≤ lo then bits r hi lo
    else if bits r (p + w - 1) p = 0 ∧ 0 < w ∧ lo = p ∧ hi + 1 = p + w then x.toNat
    else overlapBits x.toNat p r hi lo := by
  split
  · next h => exact bits_put_above _ p r hi lo h.1 h.2
  split
  · next h => exact bits_put_below x p r hi lo h.2.1 h.2.2 h.1
  split
  · next h =>
    obtain ⟨clear, hw, rfl, hi_eq⟩ := h
    exact bits_put_at x _ r hi hw hi_eq clear
  · rfl

/-- The bits of a word's head are no operand bits. -/
theorem bits_add_head (h n : Nat) {hi lo : Nat} (hlo : lo ≤ hi) (hhi : hi < 20) :
    bits (h * 2 ^ 20 + n) hi lo = bits n hi lo :=
  bits_put_above h 20 n hi lo hlo hhi

theorem fld_add_head (h n : Nat) {lo k : Nat} (hk : 0 < k) (hlo : lo + k ≤ 20) : fld (h * 2 ^ 20 + n) lo k = fld n lo k := by
  rw [fld_eq_bits _ _ _ hk, fld_eq_bits _ _ _ hk, bits_add_head h n (by omega) (by omega)]

theorem rowAt_add_head (op h n : Nat) (g : Guard) : rowAt op (h * 2 ^ 20 + n) g = rowAt op n g := by
  unfold rowAt
  split <;> simp only [rowsX0, rowsX1, rowsX2, rowsM, rowsV0, rowsV1, rowsF, rowsT, bits_add_head h n, fld_add_head h n,
    Nat.reduceLeDiff, Nat.reduceLT, Nat.reduceAdd]

/-- Bits that have a value: their upper and their lower part have theirs. -/
theorem bits_eq_iff_parts (n c hi m lo : Nat) (hm : lo < m) (hhi : m ≤ hi) :
    bits n hi lo = c ↔ bits n hi m = c / 2 ^ (m - lo) ∧ bits n (m - 1) lo = c % 2 ^ (m - lo) := by
  obtain ⟨k, rfl⟩ := Nat.exists_eq_add_of_lt hm
  obtain ⟨l, rfl⟩ := Nat.exists_eq_add_of_le hhi
  have whole : bits n (lo + k + 1 + l) lo = bits n (lo + k + 1 + l) (lo + k + 1) * 2 ^ (k + 1) + bits n (lo + k) lo := by
    unfold bits
    rw [show lo + k + 1 + l + 1 - lo = k + 1 + (l + 1) by omega, show lo + k + 1 + l + 1 - (lo + k + 1) = l + 1 by omega,
      show lo + k + 1 - lo = k + 1 by omega, show lo + k + 1 = lo + (k + 1) by omega, Nat.pow_add 2 lo, ← Nat.div_div_eq_div_mul,
      Nat.pow_add, Nat.mod_mul, Nat.mul_comm, Nat.add_comm]
  have low : bits n (lo + k) lo < 2 ^ (k + 1) := by
    unfold bits
    rw [show lo + k + 1 - lo = k + 1 by omega]
    exact Nat.mod_lt _ (by positivity)
  rw [show lo + k + 1 - lo = k + 1 by omega, show lo + k + 1 - 1 = lo + k by omega, whole]
  constructor
  · rintro rfl
    rw [Nat.mul_comm, Nat.mul_add_div (by positivity), Nat.div_eq_of_lt low, Nat.mul_add_mod, Nat.mod_eq_of_lt low]
    exact ⟨rfl, rfl⟩
  · rintro ⟨high, low⟩
    rw [high, low, Nat.mul_comm, Nat.div_add_mod]

/-- The word of a head and operand bits, taken back to an instruction by the class table. -/
structure LaidOut (g : Guard) (op fixed : Nat) (fields : List (Nat × Nat)) (i : Instr) : Prop where
  word : encode i = encWord g op fixed fields
  op_lt : op < 128
  lt : operandBits fixed fields < 2 ^ 20
  row : ∀ r, (∀ hi lo, bits r hi lo = fixed / 2 ^ lo % 2 ^ (hi + 1 - lo)) → rowAt op (operandBits r fields) g = some i

/-- What the encoder writes for class 000. -/
theorem laidOut_classX0 {i : Instr} (lo : 0 ≤ i.ctorIdx) (hi : i.ctorIdx < 28) :
    ∃ g op fixed fields, LaidOut g op fixed fields i := by
  cases i <;> first
    | exact absurd lo (of_decide_eq_false rfl)
    | exact absurd hi (of_decide_eq_false rfl)
    | refine ⟨_, _, _, _, rfl, of_decide_eq_true rfl, ?_, fun r fixed => ?_⟩
      · simp only [operandBits_cons, operandBits_nil, put_eq]; omega
      · simp only [rowAt, rowsX0, Nat.reduceDiv]
        simp [operandBits_cons, operandBits_nil, bits_put, fixed, fld_eq_bits]

/-- What the encoder writes for class 001. -/
theorem laidOut_classX1 {i : Instr} (lo : 28 ≤ i.ctorIdx) (hi : i.ctorIdx < 53) :
    ∃ g op fixed fields, LaidOut g op fixed fields i := by
  cases i <;> first
    | exact absurd lo (of_decide_eq_false rfl)
    | exact absurd hi (of_decide_eq_false rfl)
    | refine ⟨_, _, _, _, rfl, of_decide_eq_true rfl, ?_, fun r fixed => ?_⟩
      · simp only [operandBits_cons, operandBits_nil, put_eq]; omega
      · simp only [rowAt, rowsX1, Nat.reduceDiv]
        simp [operandBits_cons, operandBits_nil, bits_put, fixed, fld_eq_bits]

theorem bits_19_0_iff_parts_at_15 (n c : Nat) : bits n 19 0 = c ↔ bits n 19 15 = c / 32768 ∧ bits n 14 0 = c % 32768 :=
  bits_eq_iff_parts n c 19 15 0 (by decide) (by decide)

theorem bits_19_5_iff_parts_at_15 (n c : Nat) : bits n 19 5 = c ↔ bits n 19 15 = c / 1024 ∧ bits n 14 5 = c % 1024 :=
  bits_eq_iff_parts n c 19 15 5 (by decide) (by decide)

/-- What the encoder writes for class 010. -/
theorem laidOut_classX2 {i : Instr} (lo : 53 ≤ i.ctorIdx) (hi : i.ctorIdx < 88) :
    ∃ g op fixed fields, LaidOut g op fixed fields i := by
  cases i <;> first
    | exact absurd lo (of_decide_eq_false rfl)
    | exact absurd hi (of_decide_eq_false rfl)
    | refine ⟨_, _, _, _, rfl, of_decide_eq_true rfl, ?_, fun r fixed => ?_⟩
      · simp only [operandBits_cons, operandBits_nil, put_eq]; omega
      · simp only [rowAt, rowsX2, Nat.reduceDiv, bits_19_0_iff_parts_at_15, bits_19_5_iff_parts_at_15]
        simp [operandBits_cons, operandBits_nil, bits_put, fixed, fld_eq_bits]

theorem bits_19_8_iff_parts_at_15 (n c : Nat) : bits n 19 8 = c ↔ bits n 19 15 = c / 128 ∧ bits n 14 8 = c % 128 :=
  bits_eq_iff_parts n c 19 15 8 (by decide) (by decide)

/-- What the encoder writes for class 011. -/
theorem laidOut_classM {i : Instr} (lo : 88 ≤ i.ctorIdx) (hi : i.ctorIdx < 118) :
    ∃ g op fixed fields, LaidOut g op fixed fields i := by
  cases i <;> first
    | exact absurd lo (of_decide_eq_false rfl)
    | exact absurd hi (of_decide_eq_false rfl)
    | refine ⟨_, _, _, _, rfl, of_decide_eq_true rfl, ?_, fun r fixed => ?_⟩
      · simp only [operandBits_cons, operandBits_nil, put_eq]; omega
      · simp only [rowAt, rowsM, Nat.reduceDiv, bits_19_8_iff_parts_at_15]
        simp [operandBits_cons, operandBits_nil, bits_put, fixed, fld_eq_bits]

/-- What the encoder writes for class 100. -/
theorem laidOut_classV0 {i : Instr} (lo : 118 ≤ i.ctorIdx) (hi : i.ctorIdx < 137) :
    ∃ g op fixed fields, LaidOut g op fixed fields i := by
  cases i <;> first
    | exact absurd lo (of_decide_eq_false rfl)
    | exact absurd hi (of_decide_eq_false rfl)
    | refine ⟨_, _, _, _, rfl, of_decide_eq_true rfl, ?_, fun r fixed => ?_⟩
      · simp only [operandBits_cons, operandBits_nil, put_eq]; omega
      · simp only [rowAt, rowsV0, Nat.reduceDiv]
        simp [operandBits_cons, operandBits_nil, bits_put, fixed, fld_eq_bits]

/-- What the encoder writes for class 101. -/
theorem laidOut_classV1 {i : Instr} (lo : 137 ≤ i.ctorIdx) (hi : i.ctorIdx < 162) :
    ∃ g op fixed fields, LaidOut g op fixed fields i := by
  cases i <;> first
    | exact absurd lo (of_decide_eq_false rfl)
    | exact absurd hi (of_decide_eq_false rfl)
    | refine ⟨_, _, _, _, rfl, of_decide_eq_true rfl, ?_, fun r fixed => ?_⟩
      · simp only [operandBits_cons, operandBits_nil, put_eq]; omega
      · simp only [rowAt, rowsV1, Nat.reduceDiv]
        simp [operandBits_cons, operandBits_nil, bits_put, fixed, fld_eq_bits]

/-- What the encoder writes for class 110. -/
theorem laidOut_classF {i : Instr} (lo : 162 ≤ i.ctorIdx) (hi : i.ctorIdx < 178) :
    ∃ g op fixed fields, LaidOut g op fixed fields i := by
  cases i <;> first
    | exact absurd lo (of_decide_eq_false rfl)
    | exact absurd hi (of_decide_eq_false rfl)
    | refine ⟨_, _, _, _, rfl, of_decide_eq_true rfl, ?_, fun r fixed => ?_⟩
      · simp only [operandBits_cons, operandBits_nil, put_eq]; omega
      · simp only [rowAt, rowsF, Nat.reduceDiv]
        simp [operandBits_cons, operandBits_nil, bits_put, fixed, fld_eq_bits]

theorem bits_13_0_iff_parts_at_11 (n c : Nat) : bits n 13 0 = c ↔ bits n 13 11 = c / 2048 ∧ bits n 10 0 = c % 2048 :=
  bits_eq_iff_parts n c 13 11 0 (by decide) (by decide)

theorem bits_9_0_iff_parts_at_6 (n c : Nat) : bits n 9 0 = c ↔ bits n 9 6 = c / 64 ∧ bits n 5 0 = c % 64 :=
  bits_eq_iff_parts n c 9 6 0 (by decide) (by decide)

theorem bits_9_5_iff_parts_at_6 (n c : Nat) : bits n 9 5 = c ↔ bits n 9 6 = c / 2 ∧ bits n 5 5 = c % 2 :=
  bits_eq_iff_parts n c 9 6 5 (by decide) (by decide)

/-- What the encoder writes for class 111. -/
theorem laidOut_classT {i : Instr} (lo : 178 ≤ i.ctorIdx) (hi : i.ctorIdx < 216) :
    ∃ g op fixed fields, LaidOut g op fixed fields i := by
  cases i <;> first
    | exact absurd lo (of_decide_eq_false rfl)
    | exact absurd hi (of_decide_eq_false rfl)
    | refine ⟨_, _, _, _, rfl, of_decide_eq_true rfl, ?_, fun r fixed => ?_⟩
      · simp only [operandBits_cons, operandBits_nil, put_eq]; omega
      · simp only [rowAt, rowsT, Nat.reduceDiv, bits_13_0_iff_parts_at_11, bits_9_0_iff_parts_at_6, bits_9_5_iff_parts_at_6]
        simp [operandBits_cons, operandBits_nil, bits_put, fixed, fld_eq_bits]


/-! The whole word. -/

/-- The number of a word: stop bit, guard, primary opcode and operand bits (Table 2.1). -/
def wordNat (stop : Bool) (g : Guard) (op body : Nat) : Nat := (if stop then 2 ^ 31 else 0) + (encHead g op + body)

theorem wordNat_lt (stop : Bool) (g : Guard) {op body : Nat} (hop : op < 128) (hb : body < 2 ^ 20) :
    wordNat stop g op body < 2 ^ 32 := by
  have := g.idx.isLt
  unfold wordNat encHead
  split <;> split <;> omega

theorem bits_wordNat (stop : Bool) (g : Guard) {op body : Nat} (hop : op < 128) (hb : body < 2 ^ 20) :
    bits (wordNat stop g op body) 26 20 = op ∧ bits (wordNat stop g op body) 31 31 = (if stop then 1 else 0)
      ∧ guardOf (wordNat stop g op body) = g := by
  have hi := g.idx.isLt
  obtain ⟨idx, neg⟩ := g
  have fields : bits (wordNat stop ⟨idx, neg⟩ op body) 26 20 = op
      ∧ bits (wordNat stop ⟨idx, neg⟩ op body) 31 31 = (if stop then 1 else 0)
      ∧ bits (wordNat stop ⟨idx, neg⟩ op body) 27 27 = (if neg then 1 else 0)
      ∧ wordNat stop ⟨idx, neg⟩ op body / 2 ^ 28 % 2 ^ 3 = idx.toNat := by
    unfold bits wordNat encHead
    cases stop <;> cases neg <;> simp only [if_true, Bool.false_eq_true, if_false] <;> omega
  obtain ⟨opcode, stop_bit, negated, index⟩ := fields
  refine ⟨opcode, stop_bit, ?_⟩
  unfold guardOf
  rw [fld_eq index, negated]
  cases neg <;> rfl

/-- The row of a word is the row of its opcode, operand bits and guard. -/
theorem rowOf_wordNat (stop : Bool) (g : Guard) {op body : Nat} (hop : op < 128) (hb : body < 2 ^ 20) :
    rowOf (wordNat stop g op body) = rowAt op body g := by
  obtain ⟨opcode, -, guard⟩ := bits_wordNat stop g hop hb
  have head : wordNat stop g op body =
      ((if stop then 2 ^ 11 else 0) + g.idx.toNat * 2 ^ 8 + (if g.neg then 2 ^ 7 else 0) + op) * 2 ^ 20 + body := by
    unfold wordNat encHead
    split <;> split <;> omega
  rw [rowOf_eq, opcode, guard, head, rowAt_add_head]

theorem exists_laidOut {i : Instr} (h : (encode i).isSome = true) : ∃ g op fixed fields, LaidOut g op fixed fields i := by
  have slot : i.ctorIdx < 216 := by
    by_contra event
    revert h event
    cases i <;> first
      | exact fun h => absurd h Bool.false_ne_true
      | exact fun _ event => absurd (of_decide_eq_true rfl) event
  rcases lt_or_ge i.ctorIdx 28 with h0 | h0
  · exact laidOut_classX0 (Nat.zero_le _) h0
  rcases lt_or_ge i.ctorIdx 53 with h1 | h1
  · exact laidOut_classX1 h0 h1
  rcases lt_or_ge i.ctorIdx 88 with h2 | h2
  · exact laidOut_classX2 h1 h2
  rcases lt_or_ge i.ctorIdx 118 with h3 | h3
  · exact laidOut_classM h2 h3
  rcases lt_or_ge i.ctorIdx 137 with h4 | h4
  · exact laidOut_classV0 h3 h4
  rcases lt_or_ge i.ctorIdx 162 with h5 | h5
  · exact laidOut_classV1 h4 h5
  rcases lt_or_ge i.ctorIdx 178 with h6 | h6
  · exact laidOut_classF h5 h6
  · exact laidOut_classT h6 slot

/-- A well-formed slot that has an encoding decodes from it. -/
theorem decodeSlot_encodeSlot {x : Slot} (wf : x.instr.wf = true) (h : (encode x.instr).isSome = true) :
    decodeSlot (encodeSlot x) = .ok x := by
  obtain ⟨g, op, fixed, fields, layout⟩ := exists_laidOut h
  have word : (encodeSlot x).toNat = wordNat x.stop g op (operandBits fixed fields) := by
    rw [encodeSlot, layout.word, encWord_eq, BitVec.toNat_ofNat]
    exact Nat.mod_eq_of_lt (wordNat_lt _ _ layout.op_lt layout.lt)
  have row : rowOf (encodeSlot x).toNat = some x.instr := by
    rw [word, rowOf_wordNat _ _ layout.op_lt layout.lt]
    exact layout.row fixed fun _ _ => rfl
  rw [decodeSlot_of_wf row wf, word, (bits_wordNat _ _ layout.op_lt layout.lt).2.1]
  cases x with | mk stop instr => cases stop <;> rfl

/-- Settles O1: every encoding is laid out as its class table reads it. -/
theorem decodeEncode : Obligations.DecodeEncode := by
  unfold Obligations.DecodeEncode
  exact ⟨fun x wf h => decodeSlot_encodeSlot wf h, fun i => by cases i <;> rfl⟩

theorem toNat_fld_eq_bits (n lo k : Nat) (hk : 0 < k) : (fld n lo k).toNat = bits n (lo + k - 1) lo := by
  rw [toNat_fld, bits, show lo + k - 1 + 1 - lo = k by omega]

/-- A run of bits as its lowest bit and the others. -/
theorem bits_eq_add (n hi lo : Nat) (h : lo < hi) : bits n hi lo = 2 * bits n hi (lo + 1) + bits n lo lo := by
  unfold bits
  rw [show hi + 1 - lo = 1 + (hi + 1 - (lo + 1)) by omega, show lo + 1 - lo = 1 by omega, Nat.pow_add, Nat.pow_one,
    Nat.mod_mul, Nat.pow_succ, ← Nat.div_div_eq_div_mul, Nat.add_comm]

theorem of_no_row {i : Instr} {P : Instr → Prop} (h : none = some i) : P i := nomatch h

/-- A row that a class table gives encodes to the operand bits it was read from. -/
def Reencodes (op n : Nat) (g : Guard) (i : Instr) : Prop := encode i = some (encHead g op + n % 2 ^ 20)

theorem reencodes_of {g : Guard} {op fixed n : Nat} {fields : List (Nat × Nat)} {i : Instr}
{k : Nat}
    (word : encode i = encWord g k fixed fields) (ho : op = k) (operands : operandBits fixed fields = bits n 19 0) :
    Reencodes op n g i := by
  rw [Reencodes, word, encWord_eq, operands, ho, bits, Nat.pow_zero, Nat.div_one]

/-- What holds of each row of a class table holds of the row it gives. -/
theorem of_row {c : Prop} [Decidable c] {a i : Instr} {rest : Option Instr} {P : Instr → Prop} (first : c → P a)
    (others : rest = some i → P i) (h : (if c then some a else rest) = some i) : P i := by
  split at h
  · next hc => exact Option.some.inj h ▸ first hc
  · exact others h

theorem reencodes_X0 {op n : Nat} {g : Guard} {i : Instr} : rowsX0 op n g = some i → Reencodes op n g i := by
  unfold rowsX0
  repeat' refine of_row (fun c => ?_) ?_
  all_goals first
    | exact of_no_row
    | refine reencodes_of rfl (by omega) ?_
      simp only [operandBits_cons, operandBits_nil, put_eq, toNat_fld_eq_bits, bits_eq_add, Nat.reduceAdd, Nat.reduceSub, Nat.reduceLT, Nat.ofNat_pos] at c ⊢
      omega

theorem reencodes_X1 {op n : Nat} {g : Guard} {i : Instr} : rowsX1 op n g = some i → Reencodes op n g i := by
  unfold rowsX1
  repeat' refine of_row (fun c => ?_) ?_
  all_goals first
    | exact of_no_row
    | refine reencodes_of rfl (by omega) ?_
      simp only [operandBits_cons, operandBits_nil, put_eq, toNat_fld_eq_bits, bits_eq_add, Nat.reduceAdd, Nat.reduceSub, Nat.reduceLT, Nat.ofNat_pos] at c ⊢
      omega

theorem reencodes_X2 {op n : Nat} {g : Guard} {i : Instr} : rowsX2 op n g = some i → Reencodes op n g i := by
  unfold rowsX2
  repeat' refine of_row (fun c => ?_) ?_
  all_goals first
    | exact of_no_row
    | refine reencodes_of rfl (by omega) ?_
      simp only [operandBits_cons, operandBits_nil, put_eq, toNat_fld_eq_bits, bits_eq_add, Nat.reduceAdd, Nat.reduceSub, Nat.reduceLT, Nat.ofNat_pos] at c ⊢
      omega

theorem reencodes_M {op n : Nat} {g : Guard} {i : Instr} : rowsM op n g = some i → Reencodes op n g i := by
  unfold rowsM
  repeat' refine of_row (fun c => ?_) ?_
  all_goals first
    | exact of_no_row
    | refine reencodes_of rfl (by omega) ?_
      simp only [operandBits_cons, operandBits_nil, put_eq, toNat_fld_eq_bits, bits_eq_add, Nat.reduceAdd, Nat.reduceSub, Nat.reduceLT, Nat.ofNat_pos] at c ⊢
      omega

theorem reencodes_V0 {op n : Nat} {g : Guard} {i : Instr} : rowsV0 op n g = some i → Reencodes op n g i := by
  unfold rowsV0
  repeat' refine of_row (fun c => ?_) ?_
  all_goals first
    | exact of_no_row
    | refine reencodes_of rfl (by omega) ?_
      simp only [operandBits_cons, operandBits_nil, put_eq, toNat_fld_eq_bits, bits_eq_add, Nat.reduceAdd, Nat.reduceSub, Nat.reduceLT, Nat.ofNat_pos] at c ⊢
      omega

theorem reencodes_V1 {op n : Nat} {g : Guard} {i : Instr} : rowsV1 op n g = some i → Reencodes op n g i := by
  unfold rowsV1
  repeat' refine of_row (fun c => ?_) ?_
  all_goals first
    | exact of_no_row
    | refine reencodes_of rfl (by omega) ?_
      simp only [operandBits_cons, operandBits_nil, put_eq, toNat_fld_eq_bits, bits_eq_add, Nat.reduceAdd, Nat.reduceSub, Nat.reduceLT, Nat.ofNat_pos] at c ⊢
      omega

theorem reencodes_F {op n : Nat} {g : Guard} {i : Instr} : rowsF op n g = some i → Reencodes op n g i := by
  unfold rowsF
  repeat' refine of_row (fun c => ?_) ?_
  all_goals first
    | exact of_no_row
    | refine reencodes_of rfl (by omega) ?_
      simp only [operandBits_cons, operandBits_nil, put_eq, toNat_fld_eq_bits, bits_eq_add, Nat.reduceAdd, Nat.reduceSub, Nat.reduceLT, Nat.ofNat_pos] at c ⊢
      omega

theorem reencodes_T {op n : Nat} {g : Guard} {i : Instr} : rowsT op n g = some i → Reencodes op n g i := by
  unfold rowsT
  repeat' refine of_row (fun c => ?_) ?_
  all_goals first
    | exact of_no_row
    | refine reencodes_of rfl (by omega) ?_
      simp only [operandBits_cons, operandBits_nil, put_eq, toNat_fld_eq_bits, bits_eq_add, Nat.reduceAdd, Nat.reduceSub, Nat.reduceLT, Nat.ofNat_pos] at c ⊢
      omega


theorem reencodes {n : Nat} {i : Instr} (h : rowOf n = some i) : Reencodes (bits n 26 20) n (guardOf n) i := by
  rw [rowOf_eq] at h
  unfold rowAt at h
  split at h
  · exact reencodes_X0 h
  · exact reencodes_X1 h
  · exact reencodes_X2 h
  · exact reencodes_M h
  · exact reencodes_V0 h
  · exact reencodes_V1 h
  · exact reencodes_F h
  · exact reencodes_T h

/-- A word that decodes has a well-formed row. -/
theorem rowOf_of_decodeSlot {w : W32} {x : Slot} (h : decodeSlot w = .ok x) :
    rowOf w.toNat = some x.instr ∧ x.instr.wf = true ∧ x.stop = decide (bits w.toNat 31 31 = 1) := by
  cases row : rowOf w.toNat with
  | none =>
    obtain ⟨r, no_slot⟩ := decodeSlot_of_no_row row
    rw [no_slot] at h
    cases h
  | some i =>
    cases wf : i.wf with
    | false =>
      rw [decodeSlot_of_not_wf row wf] at h
      cases h
    | true =>
      rw [decodeSlot_of_wf row wf] at h
      cases h
      exact ⟨rfl, wf, rfl⟩

/-- The parts of a 32-bit number. -/
theorem wordNat_parts {n : Nat} (h : n < 2 ^ 32) :
    wordNat (decide (bits n 31 31 = 1)) (guardOf n) (bits n 26 20) (n % 2 ^ 20) = n := by
  unfold wordNat encHead guardOf
  simp only [toNat_fld, decide_eq_true_eq]
  unfold bits
  split <;> split <;> omega

/-- Settles O2: every row that a class table gives encodes to the bits it was read from. -/
theorem encodeDecode : Obligations.EncodeDecode := by
  unfold Obligations.EncodeDecode
  intro w x h
  obtain ⟨row, wf, stop⟩ := rowOf_of_decodeSlot h
  refine ⟨wf, BitVec.eq_of_toNat_eq ?_⟩
  have word : (if x.stop then 2 ^ 31 else 0) + (encode x.instr).getD 0 = w.toNat := by
    rw [reencodes row, Option.getD_some, stop]
    exact wordNat_parts w.isLt
  rw [encodeSlot, word, BitVec.toNat_ofNat, Nat.mod_eq_of_lt w.isLt]

end Sys2Proof

namespace Sys2Proof

open Machine

/-! ### The order of a bundle's checks -/

/-- Settles O11: the issue of a ready slot. -/
theorem issueCompletes : Obligations.IssueCompletes := by
  unfold Obligations.IssueCompletes
  intro i m s hm ready
  rw [exec_slot hm, issueSlot, issueOne_ready ready]

/-- A bundle whose BUDGET is spent traps before anything of it is looked at (R118). -/
theorem issueOne_spent {m : SlotSem} {s : State} (h : s.spent s.cur = true) : issueOne m s = s.takeTrap s.cur ⟨0x08, 0⟩ := by
  rw [issueOne, if_pos h]

/-- A slot that is accepted and allowed is held behind an outstanding operation (R45). -/
theorem issueOne_held {m : SlotSem} {s : State} (budget : s.spent s.cur = false) (holds : s.me.holds ≠ [])
    (legal : m.isIllegal s = false) (allowed : m.isDenied s = false) : issueOne m s = s := by
  simp [issueOne, issueSems, budget, holds, legal, allowed, Attempt.state]

/-- A privileged slot on a core that may not execute it traps (R34). -/
theorem issueOne_denied {m : SlotSem} {s : State} (budget : s.spent s.cur = false) (legal : m.isIllegal s = false)
    (denied : m.isDenied s = true) : issueOne m s = s.takeTrap s.cur ⟨0x03, 0⟩ := by
  simp [issueOne, issueSems, budget, legal, denied, Attempt.state]

/-- Settles O9: BUDGET first, and an outstanding operation before the stalls. -/
theorem budgetAndHoldsStopTheBundle : Obligations.BudgetAndHoldsStopTheBundle := by
  unfold Obligations.BudgetAndHoldsStopTheBundle
  refine ⟨fun i m s hm core budget => ?_, rfl, fun b hb => if_neg hb, fun i m s hm budget holds legal allowed => ?_⟩
  · have spent : s.spent s.cur = true := by
      show (!isLodge s.cur.core && decide (s.me.budget = 0)) = true
      simp [core, budget]
    rw [exec_slot hm, issueSlot, issueOne_spent spent]
  · rw [exec_slot hm, issueSlot, issueOne_held budget holds legal allowed]

/-- Settles O10: a slot whose place is another core's is denied there. -/
theorem privilegedOutsideTheLodge : Obligations.PrivilegedOutsideTheLodge := by
  unfold Obligations.PrivilegedOutsideTheLodge
  refine ⟨fun i m s hm budget guard legal place => ?_, fun _ _ _ _ => rfl, fun _ _ _ _ => ⟨rfl, rfl⟩, fun g r n hn => ?_,
    fun _ _ _ _ _ _ _ _ => rfl⟩
  · have denied : m.isDenied s = true := by
      rcases place with ⟨place, core⟩ | ⟨place, core⟩ <;> simp [SlotSem.isDenied, guard, place, core]
    rw [exec_slot hm, issueSlot, issueOne_denied budget legal denied]
  · simp [semCsrr, semCsrw, semReadReg, semWriteReg, hn]

/-! ### A false guard -/

/-- A slot with a scalar guard that is false does not act (R28). -/
theorem acts_of_guard_false {m : SlotSem} {s : State} (lanes : m.lanes = false) (guard : s.me.guardOn m.guard = false) :
    m.acts s = false := by
  simp [SlotSem.acts, lanes, guard]

/-- A slot that does not act, and is no F slot, leaves its bundle to the boundary, as NOP does. -/
theorem issueSems_of_guard_false {m : SlotSem} {s : State} (lanes : m.lanes = false) (funit : m.funit = false)
    (guard : s.me.guardOn m.guard = false) (legal : m.isIllegal s = false) :
    issueSems [(0, m)] 1 s = if s.me.holds = [] then .issued (State.advance (opened s) (opened s) 1 false false) else .held s := by
  have idle : ∀ u : State, u.me.guardOn m.guard = false → m.acts u = false := fun u => acts_of_guard_false lanes
  have denied : m.isDenied s = false := by simp [SlotSem.isDenied, guard]
  have opening : m.acts (opened s) = false := idle _ (by rw [guardOn_opened, guard])
  have peak : m.acts ((opened s).atPeak [(0, m)]) = false := by
    refine idle _ ?_
    rw [State.atPeak, State.me_modMe]
    exact (guardOn_opened s m.guard).trans guard
  have at_issue : s.atIssue [(0, m)] = opened s := by simp [State.atIssue, opened, idle s guard]
  have effect : List.foldl (fun u e => e.2.apply (opened s) u) (opened s) (Slots.inOrder [(0, m)]) = opened s := by
    cases late : m.late <;> simp [Slots.inOrder, late, SlotSem.apply, opening, funit]
  unfold issueSems
  simp only [at_issue, effect]
  simp [legal, denied, stallAll, SlotSem.stall, SlotSem.execTrap, opening, peak, funit, SlotSem.takes]

/-- NOP leaves its bundle to the boundary. -/
theorem issueSems_nop (s : State) : issueSems [(0, semNop ⟨0, false⟩)] 1 s =
    if s.me.holds = [] then .issued (State.advance (opened s) (opened s) 1 false false) else .held s := by
  have at_issue : s.atIssue [(0, semNop ⟨0, false⟩)] = opened s := atIssue_opened _ s rfl
  have effect : List.foldl (fun u e => e.2.apply (opened s) u) (opened s) (Slots.inOrder [(0, semNop ⟨0, false⟩)]) = opened s := by
    show (semNop ⟨0, false⟩).apply (opened s) (opened s) = opened s
    exact apply_semNop _ _
  unfold issueSems
  simp only [at_issue, effect]
  simp [semNop, SlotSem.isIllegal, SlotSem.isDenied, stallAll, SlotSem.stall, SlotSem.execTrap, SlotSem.queueTrap,
    SlotSem.queueWait, SlotSem.takes]

/-- Settles O8: a slot whose guard is false leaves its bundle to the boundary, as NOP does. -/
theorem guardFalse : Obligations.GuardFalse := by
  unfold Obligations.GuardFalse
  intro i m s hm lanes funit guard legal
  rw [exec_slot hm, show exec (.nop ⟨0, false⟩) s = issueSlot (semNop ⟨0, false⟩) s from rfl, issueSlot, issueSlot, issueOne,
    issueOne, issueSems_of_guard_false lanes funit guard legal, issueSems_nop]

/-! ### Traps and records -/

theorem core_congr (s : State) {c k : CoreRef} (h : CoreRef.key c = CoreRef.key k) : s.core c = s.core k := by
  rw [State.core, State.core, h]

/-- The tasks after a core has changed: those of the core are its own now, and the others stand. -/
theorem task?_modCore (s : State) (c : CoreRef) (f : Core → Core) (q : TaskRef) : (s.modCore c f).task? q =
    if CoreRef.key q.coreRef = CoreRef.key c then (f (s.core c)).tasks.get none q.slot else s.task? q := by
  split
  · next h => rw [State.task?, core_congr _ h, State.core_modCore]
  · next h => rw [State.task?, State.core_modCore_other _ _ h, State.task?]

/-- A change of a core that keeps its tasks keeps every task. -/
theorem task?_modCore_tasks (s : State) (c : CoreRef) {f : Core → Core} (h : (f (s.core c)).tasks = (s.core c).tasks)
    (q : TaskRef) : (s.modCore c f).task? q = s.task? q := by
  rw [task?_modCore]
  split
  · next k => rw [h, State.task?, core_congr s k]
  · rfl

/-- The tasks after one has changed. -/
theorem task?_modTask (s : State) (r : TaskRef) (f : Task → Task) (q : TaskRef) : (s.modTask r f).task? q =
    if CoreRef.key q.coreRef = CoreRef.key r.coreRef ∧ q.slot = r.slot then some (f (s.task r)) else s.task? q := by
  rw [State.modTask, State.setTask, State.putTask, task?_modCore]
  by_cases hc : CoreRef.key q.coreRef = CoreRef.key r.coreRef
  · by_cases hs : q.slot = r.slot
    · rw [if_pos hc, if_pos ⟨hc, hs⟩, hs, Tbl.get_set_same]
    · rw [if_pos hc, if_neg fun h => hs h.2, Tbl.get_set_other _ _ _ hs, State.task?, core_congr s hc]
  · rw [if_neg hc, if_neg fun h => hc h.1]

theorem core_modTask_other (s : State) {r : TaskRef} (f : Task → Task) {c : CoreRef}
    (h : CoreRef.key c ≠ CoreRef.key r.coreRef) : (s.modTask r f).core c = s.core c := by
  rw [State.modTask, State.setTask, State.putTask, State.core_modCore_other _ _ h]

@[simp] theorem task?_post (s : State) (d : Nat) (e : EventRec) (q : TaskRef) : (s.post d e).task? q = s.task? q := rfl

@[simp] theorem task?_dropLoads (s : State) (r : TaskRef) (tok : Option Nat) (q : TaskRef) :
    (s.dropLoads r tok).task? q = s.task? q := rfl

@[simp] theorem core_dropLoads (s : State) (r : TaskRef) (tok : Option Nat) (c : CoreRef) :
    (s.dropLoads r tok).core c = s.core c := rfl

@[simp] theorem die_dropLoads (s : State) (r : TaskRef) (tok : Option Nat) (d : Nat) :
    (s.dropLoads r tok).die d = s.die d := rfl

@[simp] theorem mem_dropLoads (s : State) (r : TaskRef) (tok : Option Nat) : (s.dropLoads r tok).mem = s.mem := rfl

@[simp] theorem launches_dropLoads (s : State) (r : TaskRef) (tok : Option Nat) : (s.dropLoads r tok).launches = s.launches := rfl

@[simp] theorem cur_dropLoads (s : State) (r : TaskRef) (tok : Option Nat) : (s.dropLoads r tok).cur = s.cur := rfl

@[simp] theorem die_post (s : State) (d : Nat) (e : EventRec) : (s.post d e).die d = (s.die d).post e := State.die_modDie ..

theorem die_post_other (s : State) {d k : Nat} (e : EventRec) (h : k ≠ d) : (s.post d e).die k = s.die k :=
  State.die_modDie_other _ _ h

/-- A core's part of a halt keeps its tasks. -/
theorem slotHalted_tasks (c : Core) (slot : Nat) : (c.slotHalted slot).tasks = c.tasks := by
  unfold Core.slotHalted
  split <;> rfl

/-- The state in which a task has halted for a trap, its record not yet posted (R382). -/
def haltedBy (s : State) (r : TaskRef) (tr : Trap) : State :=
  (((s.modTask r fun t => { t with halted := true, preempt := false, trapped := some tr, ctl := .none }).modCore r.coreRef
    fun c => c.slotHalted r.slot).dropLoads r none).dropLoads r (some walkTok)

/-- A trap outside the lodge halts its task and posts the record (R382). -/
theorem takeTrap_halts {s : State} {r : TaskRef} (tr : Trap) (core : isLodge r.core = false) :
    s.takeTrap r tr = (haltedBy s r tr).post r.die
      ⟨tr.cause, 0, r.die, r.core, r.slot, (s.task r).job, tr.info, (s.task r).lidx, (s.task r).pc, s.cycle32, none⟩ := by
  rw [State.takeTrap, core]
  rfl

theorem task?_haltedBy (s : State) (r : TaskRef) (tr : Trap) (q : TaskRef) : (haltedBy s r tr).task? q =
    if CoreRef.key q.coreRef = CoreRef.key r.coreRef ∧ q.slot = r.slot
    then some { s.task r with halted := true, preempt := false, trapped := some tr, ctl := .none } else s.task? q := by
  rw [haltedBy, task?_dropLoads, task?_dropLoads, task?_modCore_tasks _ _ (slotHalted_tasks _ _), task?_modTask]

theorem core_haltedBy_other (s : State) {r : TaskRef} {c : CoreRef} (tr : Trap)
    (other : CoreRef.key c ≠ CoreRef.key r.coreRef) : (haltedBy s r tr).core c = s.core c := by
  rw [haltedBy, core_dropLoads, core_dropLoads, State.core_modCore_other _ _ other, core_modTask_other _ _ other]

theorem die_haltedBy (s : State) (r : TaskRef) (tr : Trap) (d : Nat) : (haltedBy s r tr).die d = s.die d := by
  simp [haltedBy]

/-- Settles O12: what a halt leaves, and the record it posts. -/
theorem trapHaltsTask : Obligations.TrapHaltsTask := by
  unfold Obligations.TrapHaltsTask
  intro s r tr core
  rw [takeTrap_halts tr core]
  refine ⟨?_, ?_, fun q _ slot => ?_, fun c other => ?_, fun d other => ?_, ?_⟩
  · rw [State.task, task?_post, task?_haltedBy, if_pos ⟨rfl, rfl⟩, Option.getD_some]
  · rw [die_post, die_haltedBy]
  · rw [task?_post, task?_haltedBy, if_neg fun h => slot h.2]
  · rw [State.core_post, core_haltedBy_other s tr other]
  · rw [die_post_other _ _ other, die_haltedBy]
  · simp [haltedBy]

/-- Shifting records up leaves the registers. -/
theorem shiftUp_lodge (d : Die) (p n : Nat) : (d.shiftUp p n).lodge = d.lodge := by
  induction n generalizing d with
  | zero => rfl
  | succ n ih => exact ih _

/-- A record stands at the tail unless the youngest is of its cycle and ranks above it (R383). -/
theorem placeOf_eq_tail (d : Die) (e : EventRec) (tail n : Nat)
    (h : ∀ x, d.events.get none ((tail + 511) % 512 % 256) = some x → x.cycle = e.cycle → x.rank ≤ e.rank) :
    d.placeOf e tail n = tail := by
  cases n with
  | zero => rfl
  | succ n =>
    unfold Die.placeOf
    split
    · next x hx => exact if_neg fun c => absurd (h x hx c.1) (by omega)
    · rfl

/-- Settles O13: the branches of a post, and the place of an enqueued record. -/
theorem recordsWaitOrDrop : Obligations.RecordsWaitOrDrop := by
  unfold Obligations.RecordsWaitOrDrop
  intro d e
  refine ⟨fun kind room empty => ?_, fun kind room => ?_, fun kind full => ?_, fun kind other full => ?_, fun kind full => ?_, ?_, ?_,
    placeOf_eq_tail d e _ _⟩
  · simp [Die.post, kind, room, empty]
  · simp [Die.post, kind, room, Nat.not_le.2 room]
  · simp [Die.post, kind, Nat.not_lt.2 full]
  · simp [Die.post, kind, other, Nat.not_lt.2 full]
  · simp [Die.post, kind, full]
  · simp only [Die.enqueue, shiftUp_lodge]
  · rw [Die.enqueue]
    exact Tbl.get_set_same (α := Option EventRec) none (some e) _ _

/-! ### The fatal stop -/

/-- A record posted changes of the registers those of the queue alone (R383). -/
theorem post_lodge (d : Die) (e : EventRec) :
    (d.post e).lodge = { d.lodge with eqtail := (d.post e).lodge.eqtail, eqlost := (d.post e).lodge.eqlost } := by
  have enqueued : (d.enqueue e).lodge =
      { d.lodge with eqtail := (d.enqueue e).lodge.eqtail, eqlost := (d.enqueue e).lodge.eqlost } := by
    simp only [Die.enqueue, shiftUp_lodge]
  unfold Die.post
  split
  · split
    · exact enqueued
    · rfl
  · split
    · rfl
    · split
      · exact enqueued
      · rfl

/-- The exception registers of a die after its part of the fatal stop (R389 step 3). -/
def stoppedLodge (cause : Nat) (l : LodgeRegs) : LodgeRegs := { l with emask := 1, ecause := BitVec.ofNat 64 cause }

theorem die_fatalDie (cause : Nat) (s : State) (d k : Nat) : (State.fatalDie cause s d).die k =
    if k = d then { s.die d with lodge := stoppedLodge cause (s.die d).lodge } else s.die k := by
  unfold State.fatalDie State.modLodge
  split
  · next h =>
    subst h
    rw [State.die_modDie, State.die_modCore]
    rfl
  · next h => rw [State.die_modDie_other _ _ h, State.die_modCore]

theorem core_fatalDie (cause : Nat) (s : State) (d : Nat) (c : CoreRef) : (State.fatalDie cause s d).core c =
    if CoreRef.key c = CoreRef.key ⟨d, 96⟩ then (s.core c).restartLodge (s.die d).lodge.fvec else s.core c := by
  unfold State.fatalDie
  rw [State.core_modLodge]
  split
  · next h => rw [core_congr _ h, State.core_modCore, core_congr s h]
  · next h => rw [State.core_modCore_other _ _ h]

/-- The first dies' parts of the fatal stop. -/
def fatalDies (cause n : Nat) (s : State) : State := (List.range n).foldl (State.fatalDie cause) s

theorem fatalDies_succ (cause n : Nat) (s : State) :
    fatalDies cause (n + 1) s = State.fatalDie cause (fatalDies cause n s) n := by
  simp [fatalDies, List.range_succ]

theorem mem_fatalDies (cause n : Nat) (s : State) :
    (fatalDies cause n s).mem = s.mem ∧ (fatalDies cause n s).fatal = s.fatal := by
  induction n with
  | zero => exact ⟨rfl, rfl⟩
  | succ n ih => simp [fatalDies_succ, State.fatalDie, ih]

theorem die_fatalDies (cause n : Nat) (s : State) (k : Nat) : (fatalDies cause n s).die k =
    if k < n then { s.die k with lodge := stoppedLodge cause (s.die k).lodge } else s.die k := by
  induction n with
  | zero => rfl
  | succ n ih =>
    rw [fatalDies_succ, die_fatalDie]
    by_cases h : k = n
    · subst h
      simp [ih]
    · rw [if_neg h, ih]
      simp only [show k < n + 1 ↔ k < n by omega]

/-- A core that is no lodge core of the first dies keeps what it holds. -/
theorem core_fatalDies_other (cause n : Nat) (s : State) {c : CoreRef} (h : ∀ d < n, CoreRef.key c ≠ CoreRef.key ⟨d, 96⟩) :
    (fatalDies cause n s).core c = s.core c := by
  induction n with
  | zero => rfl
  | succ n ih => rw [fatalDies_succ, core_fatalDie, if_neg (h n (by omega)), ih fun d hd => h d (by omega)]

theorem core_fatalDies (cause n : Nat) (s : State) {d : Nat} (hd : d < n) :
    (fatalDies cause n s).core ⟨d, 96⟩ = (s.core ⟨d, 96⟩).restartLodge (s.die d).lodge.fvec := by
  induction n with
  | zero => omega
  | succ n ih =>
    rw [fatalDies_succ, core_fatalDie]
    by_cases h : d = n
    · subst h
      rw [if_pos rfl, die_fatalDies, if_neg (Nat.lt_irrefl d), core_fatalDies_other]
      intro k hk
      simp only [CoreRef.key]
      omega
    · have other : CoreRef.key ⟨d, 96⟩ ≠ CoreRef.key ⟨n, 96⟩ := by simp only [CoreRef.key]; omega
      rw [if_neg other, ih (by omega)]

/-- The module with every task halted and the first fatal cause kept and posted (R389). -/
def fatalPosted (s : State) (die cause : Nat) (info : W64) : State :=
  State.post { s with cores := Tbl.mapVals Core.haltAll s.cores, fatal := some ⟨die, cause, info, s.cycle, false, false⟩ } die
    ⟨cause, 3, die, 96, 0, 0, info, noLidx, 0, s.cycle32, none⟩

theorem fatalStop_first {s : State} (die cause : Nat) (info : W64) (h : s.fatal = none) :
    s.fatalStop die cause info = fatalDies cause 8 (fatalPosted s die cause info) := by
  rw [State.fatalStop, h]
  rfl

theorem core_fatalPosted (s : State) (die cause : Nat) (info : W64) (c : CoreRef) :
    (fatalPosted s die cause info).core c = (s.core c).haltAll :=
  Tbl.get_mapVals (d := Core.reset) (f := Core.haltAll) rfl s.cores (CoreRef.key c)

theorem lodge_fatalPosted (s : State) (die cause : Nat) (info : W64) (d : Nat) :
    ∃ tail lost, ((fatalPosted s die cause info).die d).lodge = { (s.die d).lodge with eqtail := tail, eqlost := lost } := by
  unfold fatalPosted
  by_cases h : d = die
  · subst h
    rw [die_post]
    exact ⟨_, _, post_lodge _ _⟩
  · rw [die_post_other _ _ h]
    exact ⟨_, _, rfl⟩

/-- A task of a core as the fatal stop's first step leaves it (R389 step 1). -/
theorem haltAll_tasks (c : Core) (k : Nat) :
    c.haltAll.tasks.get none k = (c.tasks.get none k).map fun t => { t with halted := true } :=
  Tbl.get_mapVals (d := (none : Option Task)) rfl c.tasks k

theorem restartLodge_tasks (c : Core) (fvec : W64) (k : Nat) :
    (c.restartLodge fvec).tasks.get none k = (c.tasks.get none k).map (Task.restartAt (fvec.setWidth 32)) :=
  Tbl.get_mapVals (d := (none : Option Task)) rfl c.tasks k

/-- Settles O15: every task halts, the record is posted, and each die does its part. -/
theorem fatalStopsTheModule : Obligations.FatalStopsTheModule := by
  unfold Obligations.FatalStopsTheModule
  intro s die cause info
  refine ⟨fun later => by rw [State.fatalStop, if_pos later], fun first => ?_⟩
  rw [fatalStop_first die cause info first]
  obtain ⟨mem, fatal⟩ := mem_fatalDies cause 8 (fatalPosted s die cause info)
  refine ⟨fatal.trans rfl, mem.trans rfl, fun d hd => ?_, fun d t hd ht => ?_, fun r t hd _ lodge ht => ?_⟩
  · obtain ⟨tail, lost, regs⟩ := lodge_fatalPosted s die cause info d
    rw [die_fatalDies, if_pos hd, regs]
    exact ⟨rfl, rfl, rfl, rfl, rfl, rfl⟩
  · obtain ⟨tail, lost, regs⟩ := lodge_fatalPosted s die cause info d
    have task : (fatalDies cause 8 (fatalPosted s die cause info)).task? ⟨d, 96, 0⟩
        = some (Task.restartAt ((s.die d).lodge.fvec.setWidth 32) { t with halted := true }) := by
      have ht : (s.core ⟨d, 96⟩).tasks.get none 0 = some t := ht
      show ((fatalDies cause 8 (fatalPosted s die cause info)).core ⟨d, 96⟩).tasks.get none 0 = _
      rw [core_fatalDies _ _ _ hd, restartLodge_tasks, core_fatalPosted, haltAll_tasks, regs, ht]
      rfl
    rw [State.task, task]
    exact ⟨rfl, rfl, rfl⟩
  · have other : ∀ d < 8, CoreRef.key r.coreRef ≠ CoreRef.key ⟨d, 96⟩ := by
      intro d _
      simp only [CoreRef.key, TaskRef.coreRef]
      omega
    rw [State.task?, core_fatalDies_other _ _ _ other, core_fatalPosted, haltAll_tasks]
    rw [State.task?] at ht
    rw [ht]
    rfl

/-! ### Loops -/

/-- Settles O16: the cases of the close cascade. -/
theorem loopCloses : Obligations.LoopCloses := by
  unfold Obligations.LoopCloses
  refine ⟨fun _ _ => rfl, fun a x rest k => ⟨fun elsewhere => ?_, fun here many => ?_, fun here last => ?_⟩⟩
  · rw [closeLoops, if_pos elsewhere]
  · rw [closeLoops, if_neg (not_not.2 here)]
    exact if_pos many
  · rw [closeLoops, if_neg (not_not.2 here)]
    exact if_neg (BitVec.not_lt.2 last)

end Sys2Proof

namespace Sys2Proof

open Machine

/-! ### Scalar results -/

theorem own_scalar (d : Nat) (v : W64) (lat : Nat) (f : Flags) : Own ⟨.scalar d v, lat, f⟩ :=
  fun _ => ⟨fun _ _ _ => PVal.noConfusion, fun _ _ => PVal.noConfusion⟩

/-- A slot with no check of its own that queues one result of its task gives it. -/
theorem gives_one {i : Instr} {m : SlotSem} {s : State} {p : Pending} (hx : exec i s = issueSlot m s) (r : Runs m.guard s)
    (plain : m = { guard := m.guard, eff := m.eff })
    (eff : m.eff (opened s) (opened s) = (opened s).push p.left p.val p.flags) (left : 1 ≤ p.left) (own : Own p) :
    Gives i s [p] := by
  refine gives_plain hx r (by rw [plain]) (by rw [plain]) (by rw [plain]) (by rw [plain]) (by rw [plain]) (by rw [plain])
    (by rw [plain]) (by rw [plain]) eff ?_
  simpa using ⟨left, own⟩

/-- A slot that writes one scalar (R89, R94). -/
theorem gives_scalar {i : Instr} {s : State} {g : Guard} {lat : Nat} {d : BitVec 5} {v : State → W64} {w : W64}
    (hx : exec i s = issueSlot (semScalar g lat d v) s) (r : Runs g s) (left : 1 ≤ lat) (hv : v (opened s) = w) :
    Gives i s (scalarResult lat d w) := by
  subst hv
  exact gives_one hx r rfl rfl left (own_scalar _ _ _ _)

/-- A slot that writes one scalar and raises flags (R103, R105). -/
theorem gives_scalarF {i : Instr} {s : State} {g : Guard} {lat : Nat} {d : BitVec 5} {v : State → Nat × Flags} {w : Nat × Flags}
    (hx : exec i s = issueSlot (semScalarF g lat d v) s) (r : Runs g s) (left : 1 ≤ lat) (hv : v (opened s) = w) :
    Gives i s [⟨.scalar d.toNat (BitVec.ofNat 64 w.1), lat, w.2⟩] := by
  subst hv
  exact gives_one hx r rfl rfl left (own_scalar _ _ _ _)

/-- A slot of predicate logic (R100). -/
theorem gives_pred {i : Instr} {s : State} {g : Guard} {d : BitVec 3} {v : State → Bool} {b : Bool}
    (hx : exec i s = issueSlot (semPred g d v) s) (r : Runs g s) (hv : v (opened s) = b) :
    Gives i s [⟨.pred d.toNat b, 1, 0⟩] := by
  subst hv
  exact gives_one hx r rfl rfl (Nat.le_refl 1) (own_pred _ _ _ _)

/-- Settles O17: each slot writes one scalar, whose sources read in the opened bundle as before it. -/
theorem scalarArithmetic : Obligations.ScalarArithmetic := by
  unfold Obligations.ScalarArithmetic
  intro g d a b p s r
  refine ⟨?_, ?_, ?_, ?_, ?_, ?_, ?_, ?_, ?_, ?_, ?_, ?_, ?_, ?_, ?_, ?_, ?_, ?_, ?_, ?_, ?_, ?_, ?_, ?_, ?_, ?_, ?_, ?_⟩ <;>
    refine gives_scalar rfl r (by decide) ?_ <;>
    simp only [sreg_opened, pred_opened, mulHighS, mulHighU, divS, divU, remS, remU, shAmt, minS, maxS, minU, maxU]

/-- Settles O18: likewise, with the immediates and for the predicates. -/
theorem scalarImmediatesAndPredicates : Obligations.ScalarImmediatesAndPredicates := by
  unfold Obligations.ScalarImmediatesAndPredicates
  intro g d a b sh5 imm i15 sh e x y s r
  refine ⟨?_, ?_, ?_, ?_, ?_, ?_, ?_, ?_, ?_, ?_, ?_⟩
  iterate 10 exact gives_scalar rfl r (by decide) (by simp only [sreg_opened, sext, zext])
  exact ⟨gives_pred rfl r (by simp only [pred_opened]), gives_pred rfl r (by simp only [pred_opened]),
    gives_pred rfl r (by simp only [pred_opened]), gives_pred rfl r (by simp only [pred_opened])⟩

/-- Settles O20: each slot writes one scalar with the flags of its one rounding. -/
theorem scalarFloat : Obligations.ScalarFloat := by
  unfold Obligations.ScalarFloat
  intro g d a b rz s r
  exact ⟨gives_scalarF rfl r (by decide) (by simp only [sreg_opened]), gives_scalarF rfl r (by decide) (by simp only [sreg_opened]),
    gives_scalarF rfl r (by decide) (by simp only [sreg_opened]), gives_scalarF rfl r (by decide) (by simp only [sreg_opened]),
    gives_scalarF rfl r (by decide) (by simp only [sreg_opened]),
    fun code => gives_scalarF rfl r (by decide) (by simp only [sreg_opened])⟩

end Sys2Proof

namespace Sys2Proof

open Machine

/-! ### The boundary of a bundle that transfers or leaves an action -/

theorem State.setTask_modTask (s : State) (r : TaskRef) (t : Task) (f : Task → Task) :
    (s.setTask r t).modTask r f = s.setTask r (f t) := State.modTask_modTask s r (fun _ => t) f

theorem State.modTask_setTask (s : State) (r : TaskRef) (f : Task → Task) (t : Task) :
    (s.modTask r f).setTask r t = s.setTask r t := State.modTask_modTask s r f fun _ => t

@[simp] theorem State.setTask_setTask (s : State) (r : TaskRef) (t u : Task) : (s.setTask r t).setTask r u = s.setTask r u :=
  State.modTask_setTask s r (fun _ => t) u

/-- A result of the task's own registers becomes visible in its task alone. -/
theorem landOne_own (s : State) (r : TaskRef) (p : Pending) (hv : ∀ a b c, p.val ≠ .vec a b c)
    (hs : ∀ n v, p.val = .special n v → n < 0x800) :
    State.landOne r s p = s.setTask r (landIn (isLodge r.core) (s.task r) p) := by
  rw [← landOne_task s r p hv hs]
  have key : ∃ f, State.landOne r s p = s.modTask r f := by
    obtain ⟨v, n, f⟩ := p
    cases v <;> simp only [State.landOne, State.landVal, State.modTask_modTask]
    case vec => exact absurd rfl (hv _ _ _)
    case special num x =>
      have : num < 0x800 := hs _ _ rfl
      rw [if_neg (by omega), State.modTask_modTask]
      exact ⟨_, rfl⟩
    all_goals exact ⟨_, rfl⟩
  obtain ⟨f, hf⟩ := key
  rw [hf, State.task_modTask]
  rfl

/-- Where nothing earlier is due, the landing of a bundle's results changes their task alone. -/
theorem land_own (s : State) (old l : List Pending) (hp : (s.task s.cur).pend = old ++ l) (ho : ∀ p ∈ old, 2 ≤ p.left)
    (hl : ∀ p ∈ l, 1 ≤ p.left ∧ Own p) :
    s.land s.cur = s.setTask s.cur (delivered (isLodge s.cur.core) l
      { s.task s.cur with pend := old.map fun p => { p with left := p.left - 1 } }) := by
  rw [← (land_new s old l hp ho hl).1]
  have own : ∀ k : List Pending, (∀ p ∈ k, (∀ a b c, p.val ≠ .vec a b c) ∧ ∀ n v, p.val = .special n v → n < 0x800) →
      ∀ (u : State) (f : Task → Task), ∃ f', k.foldl (State.landOne s.cur) (u.modTask s.cur f) = u.modTask s.cur f' := by
    intro k
    induction k with
    | nil => exact fun _ u f => ⟨f, rfl⟩
    | cons p k ih =>
      intro hk u f
      have hp := hk p List.mem_cons_self
      rw [List.foldl_cons, landOne_own _ _ _ hp.1 hp.2, State.modTask_setTask]
      exact ih (fun q hq => hk q (List.mem_cons_of_mem _ hq)) u fun _ => _
  have due : ∀ p ∈ ((s.task s.cur).pend.map fun p : Pending => { p with left := p.left - 1 }).filter fun p => decide (p.left = 0),
      (∀ a b c, p.val ≠ .vec a b c) ∧ ∀ n v, p.val = .special n v → n < 0x800 := by
    intro p hmem
    obtain ⟨hm, h0⟩ := List.mem_filter.1 hmem
    obtain ⟨q, hq, rfl⟩ := List.mem_map.1 hm
    have h0 : q.left - 1 = 0 := of_decide_eq_true h0
    rw [hp] at hq
    rcases List.mem_append.1 hq with hq | hq
    · have := ho q hq
      omega
    · obtain ⟨left, h⟩ := hl q hq
      exact h (by omega)
  obtain ⟨f, hf⟩ := own _ due s fun t => { t with pend :=
    ((s.task s.cur).pend.map fun p : Pending => { p with left := p.left - 1 }).filter fun p => decide (p.left ≠ 0) }
  have : s.land s.cur = s.modTask s.cur f := hf
  rw [this, State.task_modTask]
  rfl

/-- The task past a bundle of one unit in which it was `t0` at issue and `t1` after the slots, at a calm boundary, with the
next bundle at `pc`. -/
def pastBundle (lodge : Bool) (t0 t1 : Task) (pc : W32) : Task :=
  { t1 with
    budget := if lodge then t1.budget else chargedBudget t1.budget
    bcnt := t1.bcnt + 1
    pc := pc
    delay := delayAfter t0 t1
    target := if delayAfter t0 t1 = 0 then 0 else t1.target
    ctl := .none
    pend := t1.pend.map fun p => { p with left := p.left - 1 } }

/-- The charge of a bundle that reaches no warning level changes its task alone (R118, R119). -/
theorem charge_unwarned (s : State) (r : TaskRef) (warn : (s.task r).bwarn = 0 ∨
      (if isLodge r.core then (s.task r).budget else chargedBudget (s.task r).budget) ≠ (s.task r).bwarn) :
    s.charge r = s.modTask r fun t => { t with
      budget := if isLodge r.core then t.budget else chargedBudget t.budget, bcnt := t.bcnt + 1 } := by
  unfold State.charge
  rcases warn with warn | warn
  · simp only [warn, ne_eq, not_true_eq_false, decide_false, Bool.and_false, Bool.false_and, Bool.false_eq_true, if_false]
    simp only [State.modTask, warn]
  · simp only [warn, decide_false, Bool.and_false, Bool.false_eq_true, if_false]
    rfl

/-- The address of the next bundle is read from the task's code, its transfer state and its boundary action alone. -/
theorem nextPc_congr {s u : State} {t0 t1 t2 : Task} (mem : u.mem = s.mem) (base : t2.codeBase = t1.codeBase)
    (len : t2.codeLen = t1.codeLen) (ctl : t2.ctl = t1.ctl) (pc : t2.pc = t1.pc) (it : Option W32) (n : Nat) :
    u.nextPc t0 t2 it n = s.nextPc t0 t1 it n := by
  have after : ∀ a, u.after t2 a = s.after t1 a := by
    intro a
    simp only [State.after, State.sizeAt, State.codeWords, State.codeWord, mem, base, len]
  simp only [State.nextPc, ctl, pc, after]

/-- The boundary of a bundle whose slots left its task as `t1` with results behind those in flight, where nothing but the
bundle's own action happens. -/
theorem advance_calm (s0 s : State) (q0 q1 : Bool) (l : List Pending) (t1 : Task) (hc : s.cur = s0.cur)
    (due : ∀ p ∈ t1.pend, 2 ≤ p.left) (loops : ∀ k ∈ t1.loops.head?, k.le ≠ t1.pc)
    (warn : t1.bwarn = 0 ∨ (if isLodge s.cur.core then t1.budget else chargedBudget t1.budget) ≠ t1.bwarn)
    (bar : (s0.task s0.cur).barLeft = 0) (hs : s.task s.cur = { t1 with pend := t1.pend ++ l })
    (hl : ∀ p ∈ l, 1 ≤ p.left ∧ Own p) :
    State.advance s0 s 1 q0 q1 = (((s.setTask s.cur (delivered (isLodge s.cur.core) l (popTaken q0 q1
      (pastBundle (isLodge s.cur.core) (s0.task s0.cur) t1 (s.nextPc (s0.task s0.cur) t1 none 1))))).modCore
        s.cur.coreRef (Core.countRegion s.cur.slot)).boundary s.cur (s0.task s0.cur).pc t1.ctl).preemptAt s.cur := by
  have ht' : s0.task s.cur = s0.task s0.cur := by rw [hc]
  generalize s0.task s0.cur = t0 at *
  have hcharge := charge_unwarned s s.cur (by rw [hs]; exact warn)
  have hlc := closed_quiet { t1 with
    budget := if isLodge s.cur.core then t1.budget else chargedBudget t1.budget, bcnt := t1.bcnt + 1,
    pend := t1.pend ++ l } loops
  have hpc : (s.modTask s.cur fun t => { t with
      budget := if isLodge s.cur.core then t.budget else chargedBudget t.budget, bcnt := t.bcnt + 1 }).nextPc t0
      { t1 with budget := if isLodge s.cur.core then t1.budget else chargedBudget t1.budget, bcnt := t1.bcnt + 1,
                pend := t1.pend ++ l } none 1 = s.nextPc t0 t1 none 1 := nextPc_congr rfl rfl rfl rfl rfl ..
  unfold State.advance
  simp only [hcharge, State.task_modTask, hs, ht', hlc, hpc, State.modTask_setTask]
  generalize htn : popTaken q0 q1 _ = tn
  have hland := land_own (s.setTask s.cur tn) t1.pend l (by
    rw [show (s.setTask s.cur tn).cur = s.cur from rfl, State.task_setTask, ← htn, pend_popTaken]) due hl
  rw [show (s.setTask s.cur tn).cur = s.cur from rfl, State.task_setTask] at hland
  rw [hland, State.countBar, if_pos bar, ← htn, popTaken_pend]
  rw [State.setTask_setTask]
  rfl

end Sys2Proof

namespace Sys2Proof

open Machine

/-! ### Slots at a calm boundary -/

/-- The state past a bundle that changed its task alone: the bundle is counted in the core's region and rerun. -/
def past (s : State) (t : Task) : State := (s.setTask s.cur t).modCore s.cur.coreRef (Core.countRegion s.cur.slot)

@[simp] theorem task_past (s : State) (t : Task) : (past s t).task s.cur = t := by
  rw [past, task_modCore_tasks _ _ _ (countRegion_tasks _), State.task_setTask]

theorem onlyTask_past (s : State) (t : Task) : OnlyTask s (past s t) :=
  (OnlyTask.modTask s fun _ => t).trans
    (OnlyTask.modCore (s.setTask s.cur t) _ fun c => ⟨countRegion_tasks _ c, countRegion_rest _ c⟩)

theorem opened_setTask (s : State) (t : Task) : (opened s).setTask s.cur t = s.setTask s.cur t :=
  State.modTask_setTask ..

theorem opened_modMe (s : State) (f : Task → Task) : (opened s).modMe f = s.setTask s.cur (f (opened s).me) := by
  rw [me_opened, opened, State.modMe_modMe]
  rfl

theorem delivered_preempt (lodge : Bool) (l : List Pending) (t : Task) : (delivered lodge l t).preempt = t.preempt := by
  rw [delivered, landAll_preempt]

theorem preemptAt_of_none {s : State} {r : TaskRef} (h : (s.task r).preempt = false) : s.preemptAt r = s := by
  rw [State.preemptAt, h]
  simp

/-- A ready slot that leaves the state `u`, with its task `t1` and results behind those in flight. -/
theorem exec_bundle {i : Instr} {m : SlotSem} {s u : State} {l : List Pending} (t1 : Task) (hx : exec i s = issueSlot m s)
    (r : Ready m s) (hm : m.mark = false) (bar : s.me.barLeft = 0) (happ : m.apply (opened s) (opened s) = u)
    (cur : u.cur = s.cur) (task : u.task s.cur = { t1 with pend := t1.pend ++ l })
    (due : ∀ p ∈ t1.pend, 2 ≤ p.left) (loops : ∀ k ∈ t1.loops.head?, k.le ≠ t1.pc)
    (warn : t1.bwarn = 0 ∨ (if isLodge s.cur.core then t1.budget else chargedBudget t1.budget) ≠ t1.bwarn)
    (hl : ∀ p ∈ l, 1 ≤ p.left ∧ Own p) :
    exec i s = .next (((past u (delivered (isLodge s.cur.core) l (popTaken (m.takes (opened s) 0) (m.takes (opened s) 1)
      (pastBundle (isLodge s.cur.core) s.me t1 (u.nextPc s.me t1 none 1))))).boundary s.cur s.me.pc t1.ctl).preemptAt s.cur) := by
  have ha := advance_calm (opened s) u (m.takes (opened s) 0) (m.takes (opened s) 1) l t1 cur due loops
    (by rw [cur]; exact warn) (by show (opened s).me.barLeft = 0; rw [me_opened]; exact bar) (by rw [cur]; exact task) hl
  have t0 : (opened s).task (opened s).cur = { s.me with time := s.me.time + 1 } := me_opened s
  rw [t0] at ha
  rw [hx, issueSlot, issueOne_ready r, issued, atIssue_opened m s hm, happ, ha, past, cur]
  rfl

/-- A ready slot that changes its task alone, to `t1` with results behind those in flight. -/
theorem exec_calm {i : Instr} {m : SlotSem} {s : State} {l : List Pending} (t1 : Task) (hx : exec i s = issueSlot m s)
    (r : Ready m s) (hm : m.mark = false) (bar : s.me.barLeft = 0)
    (happ : m.apply (opened s) (opened s) = s.setTask s.cur { t1 with pend := t1.pend ++ l })
    (due : ∀ p ∈ t1.pend, 2 ≤ p.left) (loops : ∀ k ∈ t1.loops.head?, k.le ≠ t1.pc)
    (warn : t1.bwarn = 0 ∨ (if isLodge s.cur.core then t1.budget else chargedBudget t1.budget) ≠ t1.bwarn)
    (hl : ∀ p ∈ l, 1 ≤ p.left ∧ Own p) :
    exec i s = .next (((past s (delivered (isLodge s.cur.core) l (popTaken (m.takes (opened s) 0) (m.takes (opened s) 1)
      (pastBundle (isLodge s.cur.core) s.me t1 (s.nextPc s.me t1 none 1))))).boundary s.cur s.me.pc t1.ctl).preemptAt s.cur) := by
  have := exec_bundle t1 hx r hm bar happ rfl (State.task_setTask ..) due loops warn hl
  rw [past, show (s.setTask s.cur { t1 with pend := t1.pend ++ l }).cur = s.cur from rfl, State.setTask_setTask] at this
  exact this

/-- A change of the issuing task that has nothing to do with what every bundle does to its task: it commutes with the
charge, the count, the transfer state and the results in flight, and leaves the loops, the boundary action, the warning
level and a pending pre-emption. -/
structure Steady (f : Task → Task) : Prop where
  commutes : ∀ (t : Task) (b n : W64) (pc tg : W32) (d : Nat) (p : List Pending),
    f { t with budget := b, bcnt := n, pc := pc, target := tg, delay := d, pend := p } =
      { f t with budget := b, bcnt := n, pc := pc, target := tg, delay := d, pend := p }
  loops : ∀ t, (f t).loops = t.loops
  ctl : ∀ t, (f t).ctl = t.ctl
  warn : ∀ t, (f t).bwarn = t.bwarn
  preempt : ∀ t, (f t).preempt = t.preempt

theorem Steady.keeps {f : Task → Task} (h : Steady f) (t : Task) : f t =
    { f t with budget := t.budget, bcnt := t.bcnt, pc := t.pc, target := t.target, delay := t.delay, pend := t.pend } :=
  h.commutes t t.budget t.bcnt t.pc t.target t.delay t.pend

theorem Steady.budget {f : Task → Task} (h : Steady f) (t : Task) : (f t).budget = t.budget := (congrArg Task.budget (h.keeps t) :)

theorem Steady.bcnt {f : Task → Task} (h : Steady f) (t : Task) : (f t).bcnt = t.bcnt := (congrArg Task.bcnt (h.keeps t) :)

theorem Steady.pc {f : Task → Task} (h : Steady f) (t : Task) : (f t).pc = t.pc := (congrArg Task.pc (h.keeps t) :)

theorem Steady.pend {f : Task → Task} (h : Steady f) (t : Task) : (f t).pend = t.pend := (congrArg Task.pend (h.keeps t) :)

/-- Past a quiet bundle a steady change of the opened task is that change of the task after the bundle. -/
theorem pastBundle_steady {s : State} (q : Quiet s) {f : Task → Task} (h : Steady f) (lodge : Bool) :
    pastBundle lodge s.me (f (opened s).me) (s.me.pc + 1) = f (afterBundle lodge s.me) := by
  have bundle : afterBundle lodge s.me = { (opened s).me with
      budget := if lodge then (opened s).me.budget else chargedBudget (opened s).me.budget, bcnt := (opened s).me.bcnt + 1,
      pc := s.me.pc + 1, target := 0, delay := 0, pend := (opened s).me.pend.map fun p => { p with left := p.left - 1 } } := by
    rw [me_opened, afterBundle, ← q.delay]
  have ctl : (f (opened s).me).ctl = .none := by rw [h.ctl, me_opened]; exact q.ctl
  have delay : delayAfter s.me (f (opened s).me) = 0 := by simp [delayAfter, ctl, q.delay]
  rw [bundle, h.commutes (opened s).me _ _ (s.me.pc + 1) 0 0, ← h.budget (opened s).me, ← h.bcnt (opened s).me, ← h.pend (opened s).me, pastBundle, delay, if_pos rfl]
  generalize f (opened s).me = t at ctl
  rw [← ctl]

theorem nextPc_steady {s : State} (q : Quiet s) {f : Task → Task} (h : Steady f) (u : State) :
    u.nextPc s.me (f (opened s).me) none 1 = s.me.pc + 1 := by
  have ctl : (f (opened s).me).ctl = .none := by rw [h.ctl, me_opened]; exact q.ctl
  have pc : (f (opened s).me).pc = s.me.pc := by rw [h.pc, me_opened]
  rw [State.nextPc, q.delay, ctl, pc]
  rfl

/-- The task past a quiet bundle with a steady change `f` of it and results `l`, in which slots take the queues named. -/
def taskPast (s : State) (q0 q1 : Bool) (f : Task → Task) (l : List Pending) : Task :=
  delivered (isLodge s.cur.core) l (popTaken q0 q1 (f (afterBundle (isLodge s.cur.core) s.me)))

/-- A ready slot with a steady change of its task, which leaves the state `u`: beside the bundle itself nothing more changes. -/
theorem exec_quiet {i : Instr} {m : SlotSem} {s u : State} {l : List Pending} {f : Task → Task} (hx : exec i s = issueSlot m s)
    (r : Ready m s) (q : Quiet s) (hm : m.mark = false) (happ : m.apply (opened s) (opened s) = u) (cur : u.cur = s.cur)
    (task : u.task s.cur = { f (opened s).me with pend := s.me.pend ++ l }) (hf : Steady f) (hl : ∀ p ∈ l, 1 ≤ p.left ∧ Own p) :
    exec i s = .next (past u (taskPast s (m.takes (opened s) 0) (m.takes (opened s) 1) f l)) := by
  have pend : (f (opened s).me).pend = s.me.pend := by rw [hf.pend, me_opened]
  have next := exec_bundle (f (opened s).me) hx r hm q.bar happ cur (by rw [task, pend]) (by rw [pend]; exact q.due)
    (by rw [hf.loops, hf.pc, me_opened]; exact q.loops) (.inl (by rw [hf.warn, me_opened]; exact q.warn)) hl
  have calm : ∀ v : State, v.boundary s.cur s.me.pc (f (opened s).me).ctl = v := by
    intro v
    rw [hf.ctl, me_opened]
    show v.boundary s.cur s.me.pc s.me.ctl = v
    rw [q.ctl]
    rfl
  rw [calm, nextPc_steady q hf, pastBundle_steady q hf] at next
  have mine := task_past u (taskPast s (m.takes (opened s) 0) (m.takes (opened s) 1) f l)
  rw [cur] at mine
  rw [← taskPast, preemptAt_of_none (by
    rw [mine, taskPast, delivered_preempt, popTaken_preempt, hf.preempt]; exact q.preempt)] at next
  exact next

/-- A slot that its core accepts and may execute, that takes no queue, is no F slot and opens no region: its own trap and
its own wait are all its checks. -/
structure Bare (m : SlotSem) (s : State) : Prop where
  legal : m.isIllegal s = false
  allowed : m.isDenied s = false
  src : m.vsrc = []
  funit : m.funit = false
  mark : m.mark = false

theorem bare_any {m : SlotSem} (s : State) (place : m.place = .any) (src : m.vsrc = []) (dst : m.vdst = none)
    (legal : m.illegal = fun _ => false) (funit : m.funit = false) (mark : m.mark = false) : Bare m s :=
  ⟨by simp [SlotSem.isIllegal, place, src, dst, legal], by simp [SlotSem.isDenied, place], src, funit, mark⟩

theorem Bare.takes {m : SlotSem} {s : State} (h : Bare m s) (u : State) (q : Nat) : m.takes u q = false := by
  simp [SlotSem.takes, h.src]

theorem Bare.execTrap {m : SlotSem} {s : State} (h : Bare m s) (k : Nat) {u : State} (acts : m.acts u = true) :
    m.execTrap k u = m.trap k u := by
  simp [SlotSem.execTrap, acts, SlotSem.queueTrap, h.takes]

theorem Bare.apply {m : SlotSem} {s : State} (h : Bare m s) {u v : State} (acts : m.acts u = true) : m.apply u v = m.eff u v := by
  simp [SlotSem.apply, acts, h.funit]

theorem Bare.atIssue {m : SlotSem} {s : State} (h : Bare m s) : s.atIssue [(0, m)] = opened s := atIssue_opened m s h.mark

theorem acts_opened {m : SlotSem} {s : State} (guard : s.me.guardOn m.guard = true) : m.acts (opened s) = true := by
  rw [SlotSem.acts, guardOn_opened, guard, Bool.or_true]

/-- A slot that loads nothing leaves its bundle's time as it is. -/
theorem atPeak_opened {m : SlotSem} (h : m.peak = fun _ => 0) (s : State) : (opened s).atPeak [(0, m)] = opened s := by
  have hz : ∀ (u : State) (t : W64), (([(0, m)] : Slots).filter fun e => e.2.acts u).foldl (fun a e => tmax a (e.2.peak u)) t = t := by
    intro u t
    have low : tmax t 0 = t := if_neg (by simp)
    cases acts : m.acts u
    · simp [acts]
    · simpa [acts, h] using low
  simp only [State.atPeak, hz]
  exact State.modMe_modMe ..

/-- A bare slot whose check passes and that waits for nothing is ready. -/
theorem Bare.ready {m : SlotSem} {s : State} (h : Bare m s) (may : MayIssue s) (guard : s.me.guardOn m.guard = true)
    (peak : m.peak = fun _ => 0) (trap : m.trap 0 (opened s) = none) (wait : m.wait (opened s) s = none) : Ready m s := by
  have acts := acts_opened guard
  refine ⟨may, h.legal, h.allowed, ?_, ?_⟩
  · rw [h.atIssue]
    simp [stallAll, atPeak_opened peak, SlotSem.stall, h.funit, acts, SlotSem.queueWait, h.takes, wait, h.execTrap, trap]
  · rw [h.atIssue, h.execTrap 0 acts, trap]

/-- A bare slot whose check fails traps before anything of its bundle takes effect (R35). -/
theorem Bare.traps {m : SlotSem} {s : State} (h : Bare m s) {i : Instr} {t : Trap} (hx : exec i s = issueSlot m s)
    (may : MayIssue s) (guard : s.me.guardOn m.guard = true) (peak : m.peak = fun _ => 0)
    (trap : m.trap 0 (opened s) = some t) : exec i s = .next (s.takeTrap s.cur t) := by
  have acts := acts_opened guard
  have stall : stallAll [(0, m)] (s.atIssue [(0, m)]) s = none := by
    rw [h.atIssue]
    simp [stallAll, atPeak_opened peak, SlotSem.stall, h.execTrap, acts, trap]
  have check : m.execTrap 0 (s.atIssue [(0, m)]) = some t := by rw [h.atIssue, h.execTrap 0 acts, trap]
  rw [hx, issueSlot, issueOne, may.budget]
  simp [issueSems, h.legal, h.allowed, may.holds, stall, check, Attempt.state]

/-- A bare slot with a true guard in a task at a calm boundary, which changes its task alone: its next state, with its
boundary action. -/
theorem Bare.exec_calm {m : SlotSem} {s : State} (h : Bare m s) {i : Instr} {l : List Pending} (t1 : Task)
    (hx : exec i s = issueSlot m s) (may : MayIssue s) (calm : Calm s) (guard : s.me.guardOn m.guard = true)
    (peak : m.peak = fun _ => 0) (trap : m.trap 0 (opened s) = none) (wait : m.wait (opened s) s = none)
    (eff : m.eff (opened s) (opened s) = s.setTask s.cur { t1 with pend := s.me.pend ++ l }) (pend : t1.pend = s.me.pend)
    (loops : ∀ k ∈ t1.loops.head?, k.le ≠ t1.pc)
    (warn : t1.bwarn = 0 ∨ (if isLodge s.cur.core then t1.budget else chargedBudget t1.budget) ≠ t1.bwarn)
    (hl : ∀ p ∈ l, 1 ≤ p.left ∧ Own p) :
    exec i s = .next (((past s (delivered (isLodge s.cur.core) l
      (pastBundle (isLodge s.cur.core) s.me t1 (s.nextPc s.me t1 none 1)))).boundary s.cur s.me.pc t1.ctl).preemptAt s.cur) := by
  have := Sys2Proof.exec_calm t1 hx (h.ready may guard peak trap wait) h.mark calm.bar
    (by rw [h.apply (acts_opened guard), eff, pend]) (by rw [pend]; exact calm.due) loops warn hl
  rw [h.takes, h.takes] at this
  exact this

/-- A bundle that leaves no boundary action beside where the next bundle stands. -/
theorem does_of_past {i : Instr} {s : State} {l : List Pending} {t1 t2 : Task} {f : Task → Task} {pc : W32}
    (hx : exec i s = .next (((past s (delivered (isLodge s.cur.core) l t2)).boundary s.cur pc t1.ctl).preemptAt s.cur))
    (pre : t2.preempt = false) (ctl : ∀ u : State, u.boundary s.cur pc t1.ctl = u)
    (hf : t2 = f (afterBundle (isLodge s.cur.core) s.me)) : Does i s false false f l := by
  subst hf
  rw [ctl, preemptAt_of_none (by rw [task_past, delivered_preempt]; exact pre)] at hx
  exact ⟨_, hx, onlyTask_past .., task_past ..⟩

/-- A bare slot that leaves no boundary action beside where the next bundle stands. -/
theorem Bare.does {m : SlotSem} {s : State} (h : Bare m s) {i : Instr} {l : List Pending} (t1 : Task) {f : Task → Task}
    (hx : exec i s = issueSlot m s) (may : MayIssue s) (calm : Calm s) (guard : s.me.guardOn m.guard = true)
    (peak : m.peak = fun _ => 0) (trap : m.trap 0 (opened s) = none) (wait : m.wait (opened s) s = none)
    (eff : m.eff (opened s) (opened s) = s.setTask s.cur { t1 with pend := s.me.pend ++ l }) (pend : t1.pend = s.me.pend)
    (loops : ∀ k ∈ t1.loops.head?, k.le ≠ t1.pc) (warn : t1.bwarn = 0) (pre : t1.preempt = s.me.preempt)
    (ctl : ∀ u : State, u.boundary s.cur s.me.pc t1.ctl = u) (hl : ∀ p ∈ l, 1 ≤ p.left ∧ Own p)
    (hf : pastBundle (isLodge s.cur.core) s.me t1 (s.nextPc s.me t1 none 1) = f (afterBundle (isLodge s.cur.core) s.me)) :
    Does i s false false f l := by
  exact does_of_past (h.exec_calm t1 hx may calm guard peak trap wait eff pend loops (.inl warn) hl)
    (pre.trans calm.preempt) ctl hf

/-- A bare slot with no result. -/
theorem Bare.does_own {m : SlotSem} {s : State} (h : Bare m s) {i : Instr} (t1 : Task) {f : Task → Task}
    (hx : exec i s = issueSlot m s) (may : MayIssue s) (calm : Calm s) (guard : s.me.guardOn m.guard = true)
    (peak : m.peak = fun _ => 0) (trap : m.trap 0 (opened s) = none) (wait : m.wait (opened s) s = none)
    (eff : m.eff (opened s) (opened s) = s.setTask s.cur t1) (pend : t1.pend = s.me.pend)
    (loops : ∀ k ∈ t1.loops.head?, k.le ≠ t1.pc) (warn : t1.bwarn = 0) (pre : t1.preempt = s.me.preempt)
    (ctl : ∀ u : State, u.boundary s.cur s.me.pc t1.ctl = u)
    (hf : pastBundle (isLodge s.cur.core) s.me t1 (s.nextPc s.me t1 none 1) = f (afterBundle (isLodge s.cur.core) s.me)) :
    Does i s false false f [] :=
  h.does t1 hx may calm guard peak trap wait (by rw [eff, List.append_nil, ← pend]) pend loops warn pre ctl (by simp) hf

/-- A bare slot that leaves the state `u` with a steady change of its task. -/
theorem Bare.quiet {m : SlotSem} {s u : State} (h : Bare m s) {i : Instr} {l : List Pending} {f : Task → Task}
    (hx : exec i s = issueSlot m s) (r : Runs m.guard s) (peak : m.peak = fun _ => 0) (trap : m.trap 0 (opened s) = none)
    (wait : m.wait (opened s) s = none) (eff : m.eff (opened s) (opened s) = u) (cur : u.cur = s.cur)
    (task : u.task s.cur = { f (opened s).me with pend := s.me.pend ++ l }) (hf : Steady f) (hl : ∀ p ∈ l, 1 ≤ p.left ∧ Own p) :
    ∃ t, exec i s = .next t ∧ OnlyTask u t ∧ t.task s.cur = delivered (isLodge s.cur.core) l (f (afterBundle (isLodge s.cur.core) s.me)) := by
  have next := exec_quiet hx (h.ready r.may r.guard peak trap wait) r.quiet h.mark ((h.apply (acts_opened r.guard)).trans eff) cur task hf hl
  have mine := task_past u (taskPast s (m.takes (opened s) 0) (m.takes (opened s) 1) f l)
  rw [cur] at mine
  refine ⟨_, next, onlyTask_past .., mine.trans ?_⟩
  rw [taskPast, h.takes, h.takes]
  rfl

/-- A bare slot with a steady change of its task and results, and nothing else. -/
theorem Bare.changes {m : SlotSem} {s : State} (h : Bare m s) {i : Instr} {l : List Pending} {f : Task → Task}
    (hx : exec i s = issueSlot m s) (r : Runs m.guard s) (peak : m.peak = fun _ => 0) (trap : m.trap 0 (opened s) = none)
    (wait : m.wait (opened s) s = none)
    (eff : m.eff (opened s) (opened s) = (opened s).modMe fun t => { f t with pend := t.pend ++ l }) (hf : Steady f)
    (hl : ∀ p ∈ l, 1 ≤ p.left ∧ Own p) : Does i s false false f l := by
  have task : ((opened s).modMe fun t => { f t with pend := t.pend ++ l }).task s.cur =
      { f (opened s).me with pend := s.me.pend ++ l } := by
    show ((opened s).modMe _).me = _
    rw [State.me_modMe, me_opened]
  obtain ⟨t, next, only, mine⟩ := h.quiet hx r peak trap wait eff rfl task hf hl
  exact ⟨t, next, ((OnlyTask.opened s).modMe _).trans only, mine⟩

/-- A bare slot with a steady change of its task and no result. -/
theorem Bare.changesOwn {m : SlotSem} {s : State} (h : Bare m s) {i : Instr} {f : Task → Task}
    (hx : exec i s = issueSlot m s) (r : Runs m.guard s) (peak : m.peak = fun _ => 0) (trap : m.trap 0 (opened s) = none)
    (wait : m.wait (opened s) s = none) (eff : m.eff (opened s) (opened s) = (opened s).modMe f) (hf : Steady f) :
    Does i s false false f [] := by
  refine h.changes hx r peak trap wait ?_ hf (by simp)
  have same : (fun t => { f t with pend := t.pend ++ [] }) = f := by
    funext t
    rw [List.append_nil, ← hf.pend]
  rw [eff, same]

end Sys2Proof

namespace Sys2Proof

open Machine

/-! ### Transfers -/

theorem bare_of_eff (g : Guard) (e : State → State → State) (s : State) : Bare { guard := g, eff := e } s :=
  bare_any s rfl rfl rfl rfl rfl rfl

theorem own_target (n : Nat) (v : W32) (lat : Nat) (f : Flags) : Own ⟨.target n v, lat, f⟩ :=
  fun _ => ⟨fun _ _ _ => PVal.noConfusion, fun _ _ => PVal.noConfusion⟩

@[simp] theorem sizeAt_opened (s : State) (t : Task) (a : Nat) : (opened s).sizeAt t a = s.sizeAt t a := rfl

@[simp] theorem returnAddr_opened (s : State) : (opened s).returnAddr = s.returnAddr := by
  unfold State.returnAddr
  rw [me_opened]
  rfl

/-- The task of a taken transfer to an entry of its table. -/
def transferring (s : State) (tb : BitVec 2) : Task :=
  { (opened s).me with target := s.me.tb.get 0 tb.toNat, delay := 2, ctl := .taken }

theorem transfer_opened (s : State) (tb : BitVec 2) : (opened s).transfer (opened s) tb = s.setTask s.cur (transferring s tb) := by
  rw [State.transfer, opened_modMe, transferring]
  rw [me_opened]
  rfl

/-- A transfer pending leaves the next bundle in sequence, and its two delay bundles. -/
theorem pastBundle_transferring {s : State} (q : Quiet s) (tb : BitVec 2) (lodge : Bool) :
    pastBundle lodge s.me (transferring s tb) (s.nextPc s.me (transferring s tb) none 1) =
      { afterBundle lodge s.me with target := s.me.tb.get 0 tb.toNat, delay := 2 } := by
  have pc : s.nextPc s.me (transferring s tb) none 1 = s.me.pc + 1 := by
    simp only [State.nextPc, q.delay, transferring, me_opened]
    rfl
  rw [pc]
  simp [pastBundle, transferring, delayAfter, me_opened, afterBundle, q.ctl]

theorem push_setTask (s : State) (t : Task) (n : Nat) (v : PVal) (f : Flags) :
    (s.setTask s.cur t).push n v f = s.setTask s.cur { t with pend := t.pend ++ [⟨v, n, f⟩] } :=
  State.setTask_modTask s s.cur t fun t => t.push n v f

theorem opened_eq (s : State) : opened s = s.setTask s.cur { s.me with time := s.me.time + 1 } := rfl

/-- NOP at a calm boundary, with its guard true or false. -/
theorem nop_past (g : Guard) {s : State} (may : MayIssue s) (calm : Calm s) :
    exec (.nop g) s = .next (((past s (delivered (isLodge s.cur.core) []
      (pastBundle (isLodge s.cur.core) s.me (opened s).me (s.nextPc s.me (opened s).me none 1)))).boundary s.cur s.me.pc
        (opened s).me.ctl).preemptAt s.cur) := by
  have eff : (semNop g).apply (opened s) (opened s) = s.setTask s.cur { (opened s).me with pend := (opened s).me.pend ++ [] } := by
    rw [apply_semNop, List.append_nil, me_opened]
    exact opened_eq s
  have untaken : ∀ q, (semNop g).takes (opened s) q = false := (bare_of_eff g _ s).takes (opened s)
  have next := exec_calm (m := semNop g) (i := .nop g) (opened s).me rfl (ready_plain may rfl rfl rfl rfl rfl rfl rfl) rfl
    calm.bar eff (by rw [me_opened]; exact calm.due) (by rw [me_opened]; exact calm.loops)
    (by rw [me_opened]; exact .inl calm.warn) (by simp)
  rw [untaken, untaken] at next
  exact next

/-- Settles O22: PREP and PREPR queue the entry; BR and BRL leave the transfer pending, and the two delay bundles count it
down. -/
theorem transfers : Obligations.Transfers := by
  unfold Obligations.Transfers
  refine ⟨fun g tb off a d s r => ⟨?_, ?_, ?_, ?_⟩, fun g s may calm => ⟨fun delay => ?_, fun delay => ?_⟩⟩
  · exact gives_one (m := semPrep g tb off) rfl r rfl (by simp only [semPrep, me_opened]) (Nat.le_refl 1) (own_target _ _ _ _)
  · exact gives_one (m := semPrepr g tb a) rfl r rfl (by simp only [semPrepr, sreg_opened]) (Nat.le_refl 1) (own_target _ _ _ _)
  · refine (bare_of_eff g _ s).does_own (m := semBr g tb) (transferring s tb) rfl r.may r.quiet.toCalm r.guard rfl rfl rfl
      (transfer_opened s tb) ?_ ?_ ?_ ?_ (fun _ => rfl) (pastBundle_transferring r.quiet tb _)
    all_goals simp only [transferring, me_opened]
    exacts [r.quiet.loops, r.quiet.warn]
  · refine (bare_of_eff g _ s).does (m := semBrl g tb d) (transferring s tb) rfl r.may r.quiet.toCalm r.guard rfl rfl rfl
      ?_ ?_ ?_ ?_ ?_ (fun _ => rfl) (by simpa [scalarResult] using own_scalar _ _ _ _) (pastBundle_transferring r.quiet tb _)
    · show ((opened s).transfer (opened s) tb).push 1 (.scalar d.toNat ((BitVec.ofNat 32 (opened s).returnAddr).setWidth 64)) = _
      rw [transfer_opened, returnAddr_opened, push_setTask]
      simp only [transferring, me_opened]
      rfl
    all_goals simp only [transferring, me_opened]
    exacts [r.quiet.loops, r.quiet.warn]
  · refine does_of_past (nop_past g may calm) ?_ (fun u => ?_) ?_
    · simp only [pastBundle, me_opened, calm.preempt]
    · simp only [me_opened, calm.ctl, State.boundary]
    · simp [pastBundle, delayAfter, me_opened, calm.ctl, delay, State.nextPc, afterBundle]
  · refine does_of_past (nop_past g may calm) ?_ (fun u => ?_) ?_
    · simp only [pastBundle, me_opened, calm.preempt]
    · simp only [me_opened, calm.ctl, State.boundary]
    · simp [pastBundle, delayAfter, me_opened, calm.ctl, delay, State.nextPc, afterBundle]

end Sys2Proof

namespace Sys2Proof

open Machine

/-! ### Loops -/

/-- A LOOP or LOOPI slot whose count is `count`. -/
def loopSlot (g : Guard) (count : State → W64) (rot : Bool) (span : Nat) : SlotSem :=
  { guard := g, trap := fun _ s0 => loopTrap s0 (count s0) span, eff := fun s0 s => loopEff (count s0) rot span s0 s }

theorem bare_loopSlot (g : Guard) (count : State → W64) (rot : Bool) (span : Nat) (s : State) :
    Bare (loopSlot g count rot span) s := bare_any s rfl rfl rfl rfl rfl rfl

@[simp] theorem loopEnds_opened (s : State) (span : Nat) : (opened s).loopEnds span = s.loopEnds span := by
  unfold State.loopEnds
  rw [me_opened]
  rfl

@[simp] theorem loopTrap_opened (s : State) (n : W64) (span : Nat) : loopTrap (opened s) n span = loopTrap s n span := by
  simp only [loopTrap, loopEnds_opened, me_opened]

/-- A task in which the shadow that a LOOP of the issuing task uses is used up (R111). -/
def shadowUsed (s : State) (t : Task) : Task :=
  if s.me.loops.length < 6 ∧ (s.me.shadow s.me.loops.length).valid = true then
    t.setShadow s.me.loops.length { s.me.shadow s.me.loops.length with valid := false } else t

/-- What a LOOP leaves of its task: the level pushed, or the body passed over. -/
def looped (s : State) (n : W64) (rot : Bool) (span : Nat) (t : Task) : Task :=
  if n = 0 then { shadowUsed s t with ctl := .skip (s.loopEnds span).2 }
  else { shadowUsed s t with loops := ⟨n, 0, (s.loopEnds span).1, (s.loopEnds span).2, rot, none⟩ :: (shadowUsed s t).loops }

theorem loopEff_opened (s : State) (n : W64) (rot : Bool) (span : Nat) :
    loopEff n rot span (opened s) (opened s) = s.setTask s.cur (looped s n rot span (opened s).me) := by
  unfold loopEff
  rw [opened_modMe, loopEnds_opened, me_opened]
  rfl

/-- What a LOOP changes of its task beside its shadows, its loops and its boundary action. -/
theorem looped_rest (s : State) (n : W64) (rot : Bool) (span : Nat) (t : Task) : looped s n rot span t =
    { t with shadows := (looped s n rot span t).shadows, loops := (looped s n rot span t).loops, ctl := (looped s n rot span t).ctl } := by
  unfold looped shadowUsed
  split <;> split <;> rfl

/-- LOOP and LOOPI trap in the order of R111, and otherwise leave their task `looped`. -/
theorem exec_loop {i : Instr} {g : Guard} {s : State} {count : State → W64} {n : W64} {rot : Bool} {span : Nat}
    (hx : exec i s = issueSlot (loopSlot g count rot span) s) (r : Runs g s) (hn : count (opened s) = n) :
    (∀ t, loopTrap s n span = some t → exec i s = .next (s.takeTrap s.cur t))
    ∧ ∀ f : Task → Task, loopTrap s n span = none → (n ≠ 0 → (s.loopEnds span).2 ≠ s.me.pc) →
      (let t1 := looped s n rot span (opened s).me
       pastBundle (isLodge s.cur.core) s.me t1 (s.nextPc s.me t1 none 1) = f (afterBundle (isLodge s.cur.core) s.me)) →
      Does i s false false f [] := by
  subst hn
  have bare := bare_loopSlot g count rot span s
  refine ⟨fun t ht => bare.traps hx r.may r.guard rfl (by simpa [loopSlot] using ht), fun f ht he hf => ?_⟩
  have rest := looped_rest s (count (opened s)) rot span (opened s).me
  refine bare.does_own (looped s (count (opened s)) rot span (opened s).me) hx r.may r.quiet.toCalm r.guard rfl
    (by simpa [loopSlot] using ht) rfl (loopEff_opened ..) ?_ ?_ ?_ ?_ ?_ hf
  · rw [rest, me_opened]
  · unfold looped shadowUsed
    by_cases h0 : count (opened s) = 0
    · rw [if_pos h0]
      split <;> (rw [me_opened]; exact r.quiet.loops)
    · rw [if_neg h0]
      split <;> (rw [me_opened]; rintro k ⟨⟩; exact he h0)
  · rw [rest, me_opened]; exact r.quiet.warn
  · rw [rest, me_opened]
  · intro u
    unfold looped shadowUsed
    split
    · rfl
    · split <;> (rw [me_opened]; show u.boundary _ _ s.me.ctl = u; rw [r.quiet.ctl]; rfl)

/-- Past a LOOP with a count that is not 0 the level is pushed. -/
theorem pastBundle_pushed {s : State} (q : Quiet s) {n : W64} (h0 : n ≠ 0) (rot : Bool) (span : Nat) (lodge : Bool) :
    pastBundle lodge s.me (looped s n rot span (opened s).me) (s.nextPc s.me (looped s n rot span (opened s).me) none 1) =
      { shadowUsed s (afterBundle lodge s.me) with
        loops := ⟨n, 0, (s.loopEnds span).1, (s.loopEnds span).2, rot, none⟩ :: (afterBundle lodge s.me).loops } := by
  unfold looped shadowUsed
  rw [if_neg h0]
  split <;> simp [pastBundle, delayAfter, me_opened, q.ctl, q.delay, State.nextPc, afterBundle, Task.setShadow]

/-- Past a LOOP with a count of 0 the bundle after its body follows. -/
theorem pastBundle_skipped {s : State} (q : Quiet s) (rot : Bool) (span : Nat) (lodge : Bool) :
    pastBundle lodge s.me (looped s 0 rot span (opened s).me) (s.nextPc s.me (looped s 0 rot span (opened s).me) none 1) =
      { shadowUsed s (afterBundle lodge s.me) with pc := s.after s.me (s.loopEnds span).2 } := by
  unfold looped shadowUsed
  rw [if_pos rfl]
  split <;> (simp [pastBundle, delayAfter, me_opened, q.ctl, q.delay, State.nextPc, afterBundle, Task.setShadow]; rfl)

/-- The task with its innermost level popped, and its boundary action. -/
def levelPopped (s : State) (c : Ctl) : Task := { (opened s).me with loops := s.me.loops.tail, ctl := c }

/-- LPOP and LBRK underflow at depth 0, and otherwise pop a level (R116). -/
theorem exec_pop {i : Instr} {g : Guard} {s : State} {eff : State → State → State} {c : Ctl} {f : Task → Task}
    (hx : exec i s = issueSlot { guard := g, trap := fun _ s0 => popTrap s0, eff := eff } s) (r : Runs g s) :
    (s.me.loops = [] → exec i s = .next (s.takeTrap s.cur ⟨0x07, 0⟩))
    ∧ ∀ x rest, s.me.loops = x :: rest → (∀ l ∈ rest.head?, l.le ≠ s.me.pc) →
      eff (opened s) (opened s) = s.setTask s.cur (levelPopped s c) → (∀ u : State, u.boundary s.cur s.me.pc c = u) →
      pastBundle (isLodge s.cur.core) s.me (levelPopped s c) (s.nextPc s.me (levelPopped s c) none 1) =
        f (afterBundle (isLodge s.cur.core) s.me) →
      Does i s false false f [] := by
  have bare : Bare { guard := g, trap := fun _ s0 => popTrap s0, eff := eff } s := bare_any s rfl rfl rfl rfl rfl rfl
  refine ⟨fun h => bare.traps hx r.may r.guard rfl (by simp [popTrap, me_opened, h, Trap.plain]),
    fun x rest h next he hb hf => ?_⟩
  refine bare.does_own (levelPopped s c) hx r.may r.quiet.toCalm r.guard rfl (by simp [popTrap, me_opened, h]) rfl he ?_ ?_ ?_ ?_ hb hf
  all_goals simp only [levelPopped, me_opened, h, List.tail_cons]
  exacts [next, r.quiet.warn]

/-- Settles O23: the traps of R111 and R116 in their order, then what each slot leaves of the loop stack. -/
theorem loops : Obligations.Loops := by
  unfold Obligations.Loops
  refine fun g s r => ⟨fun i n rot span slot => ?_, fun empty => ?_, fun x rest stack next => ?_⟩
  · obtain ⟨count, hx, hn⟩ : ∃ count : State → W64,
        exec i s = issueSlot (loopSlot g count rot span) s ∧ count (opened s) = n := by
      rcases slot with ⟨a, r, off, rfl, rfl, rfl, rfl⟩ | ⟨c, r, off, rfl, rfl, rfl, rfl⟩
      · exact ⟨fun u => u.sreg a, rfl, sreg_opened s a⟩
      · exact ⟨fun _ => zext c, rfl, rfl⟩
    obtain ⟨trap, runs⟩ := exec_loop hx r hn
    refine ⟨fun h => trap _ ?_, fun h h0 full => trap _ ?_, fun h h0 room outer => runs _ ?_ (fun _ => outer) ?_,
      fun h h0 => runs _ ?_ (fun h1 => absurd h0 h1) ?_⟩
    · rw [loopTrap, if_pos h]
    · rw [loopTrap, if_neg (BitVec.not_lt.2 h), if_pos ⟨h0, full⟩]
      rfl
    · rw [loopTrap, if_neg (BitVec.not_lt.2 h), if_neg fun k => by omega]
    · exact pastBundle_pushed r.quiet h0 rot span _
    · rw [loopTrap, if_neg (BitVec.not_lt.2 h), if_neg fun k => k.1 h0]
    · subst h0
      exact pastBundle_skipped r.quiet rot span _
  · exact ⟨(exec_pop (c := .none) (f := id) rfl r).1 empty, (exec_pop (c := .none) (f := id) rfl r).1 empty⟩
  · refine ⟨(exec_pop (i := .lpop g) (c := .none) rfl r).2 x rest stack next ?_ (fun _ => rfl) ?_,
      (exec_pop (i := .lbrk g) (c := .afterEnd x.le) rfl r).2 x rest stack next ?_ (fun _ => rfl) ?_⟩
    · rw [opened_modMe, levelPopped, me_opened, r.quiet.ctl]
    · simp [levelPopped, pastBundle, delayAfter, me_opened, r.quiet.delay, State.nextPc, afterBundle, stack, r.quiet.ctl]
    · rw [opened_modMe, levelPopped, me_opened, stack]
      rfl
    · simp [levelPopped, pastBundle, delayAfter, me_opened, r.quiet.delay, State.nextPc, afterBundle, stack, r.quiet.ctl]
      rfl

end Sys2Proof

namespace Sys2Proof

open Machine

/-! ### Frames -/

theorem Frame.trans {mc : Core → Core} {ms : State → State} {s t u : State} (h : Frame mc ms s t) (k : Frame mc ms t u)
    (hc : t.cur = s.cur) : Frame mc ms s u := by
  obtain ⟨slots, others, core, rest⟩ := k
  rw [hc] at slots others core
  exact ⟨fun n hn => (slots n hn).trans (h.slots n hn), fun c hn => (others c hn).trans (h.others c hn), core.trans h.core,
    rest.trans h.rest⟩

/-- A frame that blanks more. -/
theorem Frame.mono {mc mc' : Core → Core} {ms ms' : State → State} {s t : State} (h : Frame mc ms s t)
    (hc : ∀ a b, mc a = mc b → mc' a = mc' b) (hs : ∀ a b, ms a = ms b → ms' a = ms' b) : Frame mc' ms' s t :=
  ⟨h.slots, h.others, hc _ _ h.core, hs _ _ h.rest⟩

/-- A change outside the cores. -/
theorem Frame.of_cores (mc : Core → Core) {ms : State → State} {s t : State} (cores : t.cores = s.cores) (rest : ms t = ms s) :
    Frame mc ms s t := by
  have core : ∀ c, t.core c = s.core c := fun c => by rw [State.core, State.core, cores]
  exact ⟨fun k _ => by rw [State.task?, State.task?, core], fun c _ => core c, by rw [core], rest⟩

/-- A change of the issuing core that keeps its tasks. -/
theorem Frame.modCore {mc : Core → Core} {ms : State → State} (s : State) (f : Core → Core)
    (tasks : (f (s.core s.cur.coreRef)).tasks = (s.core s.cur.coreRef).tasks)
    (core : mc (f (s.core s.cur.coreRef)) = mc (s.core s.cur.coreRef)) (rest : ms (s.modCore s.cur.coreRef f) = ms s) :
    Frame mc ms s (s.modCore s.cur.coreRef f) :=
  ⟨fun k _ => task?_modCore_tasks s _ tasks _, fun _ hc => State.core_modCore_other _ _ hc, by rw [State.core_modCore, core], rest⟩

/-- A further change of the issuing task. -/
theorem OnlyTask.thenTask {s u : State} (h : OnlyTask s u) (f : Task → Task) : OnlyTask s (u.modTask s.cur f) :=
  h.trans (by rw [← h.cur]; exact OnlyTask.modTask u f)

/-! ### Boundary actions -/

/-- The actions that leave PC and the transfer state to the sequence (R113). -/
def Ctl.inSequence : Ctl → Bool
  | .taken | .afterEnd _ | .skip _ => false
  | _ => true

@[simp] theorem delivered_nil (lodge : Bool) (t : Task) : delivered lodge [] t = t := by
  simp [delivered]

/-- A bundle that leaves an action to its boundary goes on in sequence. -/
theorem pastBundle_leaving {s : State} (q : Quiet s) {c : Ctl} (hc : Ctl.inSequence c = true) (lodge : Bool) :
    pastBundle lodge s.me { (opened s).me with ctl := c } (s.nextPc s.me { (opened s).me with ctl := c } none 1) =
      afterBundle lodge s.me := by
  have hd : delayAfter s.me { (opened s).me with ctl := c } = 0 := by
    cases c <;> simp_all [delayAfter, q.delay, Ctl.inSequence]
  have hp : s.nextPc s.me { (opened s).me with ctl := c } none 1 = s.me.pc + 1 := by
    cases c <;> simp_all [State.nextPc, q.delay, Ctl.inSequence, me_opened]
  rw [pastBundle, hd, hp, if_pos rfl, me_opened, ← q.ctl, ← q.delay]
  rfl

/-- A slot that leaves its boundary an action: the task goes on as after any bundle, and then the action is done. -/
theorem exec_leaving {i : Instr} {m : SlotSem} {s : State} {c : Ctl} (hx : exec i s = issueSlot m s) (bare : Bare m s)
    (may : MayIssue s) (q : Quiet s) (guard : s.me.guardOn m.guard = true) (peak : m.peak = fun _ => 0)
    (trap : m.trap 0 (opened s) = none) (wait : m.wait (opened s) s = none)
    (eff : m.eff (opened s) (opened s) = (opened s).leave c) (hc : Ctl.inSequence c = true) :
    exec i s = .next (((past s (afterBundle (isLodge s.cur.core) s.me)).boundary s.cur s.me.pc c).preemptAt s.cur) := by
  have := bare.exec_calm (l := []) { (opened s).me with ctl := c } hx may q.toCalm guard peak trap wait
    (by rw [eff, State.leave, opened_modMe, me_opened, List.append_nil]) (by rw [me_opened]) (by rw [me_opened]; exact q.loops)
    (by rw [me_opened]; exact .inl q.warn) (by simp)
  rw [pastBundle_leaving q hc, delivered_nil] at this
  exact this

theorem preempt_afterBundle {s : State} (q : Quiet s) (lodge : Bool) : (afterBundle lodge s.me).preempt = false := q.preempt

/-! ### TRAP and SYS -/

theorem preempt_fatalDie (cause : Nat) (s : State) (d : Nat) (r : TaskRef) :
    ((State.fatalDie cause s d).task r).preempt = (s.task r).preempt := by
  rw [State.task, State.task?, core_fatalDie, State.task, State.task?]
  split
  · rw [restartLodge_tasks]
    cases (s.core r.coreRef).tasks.get none r.slot <;> rfl
  · rfl

/-- The fatal stop leaves pending pre-emptions as they are. -/
theorem preempt_fatalStop (s : State) (die cause : Nat) (info : W64) (r : TaskRef) :
    ((s.fatalStop die cause info).task r).preempt = (s.task r).preempt := by
  have dies : ∀ n u, ((fatalDies cause n u).task r).preempt = (u.task r).preempt := by
    intro n u
    induction n with
    | zero => rfl
    | succ n ih => rw [fatalDies_succ, preempt_fatalDie, ih]
  cases first : s.fatal with
  | some x => rw [State.fatalStop, first]; rfl
  | none =>
    rw [fatalStop_first _ _ _ first, dies, State.task, State.task?, core_fatalPosted, haltAll_tasks, State.task, State.task?]
    cases (s.core r.coreRef).tasks.get none r.slot <;> rfl

theorem preempt_doubleTrap (s : State) (r : TaskRef) (pc : W32) (cause kind : Nat) :
    ((s.doubleTrap r pc cause kind).task r).preempt = (s.task r).preempt := by
  unfold State.doubleTrap
  split
  · rw [State.task_modTask]
  · exact preempt_fatalStop ..

/-- A task halted at a boundary. -/
theorem task_haltTask (s : State) (r : TaskRef) : (s.haltTask r).task r = { s.task r with halted := true, preempt := false } := by
  rw [State.haltTask, task_modCore_tasks _ _ _ fun c => slotHalted_tasks c _, State.task_modTask]

/-- A halt changes its task, the region of its slot and the lines held for it. -/
theorem frame_haltTask (s : State) :
    Frame (fun c => { coreBeside c with l1 := [], l1req := [] }) moduleBeside s (s.haltTask s.cur) := by
  have task : Frame (fun c => { coreBeside c with l1 := [], l1req := [] }) moduleBeside s
      (s.modTask s.cur fun t => { t with halted := true, preempt := false }) :=
    (OnlyTask.modTask s _).mono (fun _ _ h => congrArg (fun c => { c with l1 := [], l1req := [] }) h) fun _ _ h => h
  refine task.trans (Frame.modCore (s.modTask s.cur _) _ (slotHalted_tasks _ _) ?_ rfl) rfl
  unfold Core.slotHalted
  split <;> rfl

/-- SYS outside the lodge: its record is posted and its task halts (R122). -/
theorem sysAt_halts {s : State} {r : TaskRef} (pc : W32) (code : Nat) (a b : W64) (core : isLodge r.core = false) :
    s.sysAt r pc code a b = (s.postEvent r 0xC0 a (some (code, b))).haltTask r := by
  rw [State.sysAt, core]
  rfl

theorem task_postEvent (s : State) (r : TaskRef) (cause : Nat) (info : W64) (call : Option (Nat × W64)) :
    (s.postEvent r cause info call).task r = s.task r := rfl

/-- A record posted for a task changes its die alone. -/
theorem frame_postEvent (mc : Core → Core) (s : State) (r : TaskRef) (cause : Nat) (info : W64) (call : Option (Nat × W64)) :
    Frame mc (fun x => { moduleBeside x with dies := [] }) s (s.postEvent r cause info call) :=
  Frame.of_cores _ rfl rfl

theorem die_haltTask (s : State) (r : TaskRef) (d : Nat) : (s.haltTask r).die d = s.die d := by
  simp [State.haltTask]

/-- Settles O26: TRAP is an execution trap; SYS is done at its boundary. -/
theorem trapAndSysCallTheLodge : Obligations.TrapAndSysCallTheLodge := by
  unfold Obligations.TrapAndSysCallTheLodge
  refine ⟨fun g code s may => ?_, fun g a b code s r => ?_⟩
  · have bare : Bare (semTrap g code) s := bare_any s rfl rfl rfl rfl rfl rfl
    exact ⟨fun on => bare.traps rfl may on rfl rfl, fun off => guardFalse (.trap g code) (semTrap g code) s rfl rfl rfl off bare.legal⟩
  have next := exec_leaving (i := .sys g a b code) (c := .sys code.toNat (s.sreg a) (s.sreg b)) rfl
    (bare_any s rfl rfl rfl rfl rfl rfl : Bare (semSys g a b code) s) r.may r.quiet r.guard rfl rfl rfl
    (by simp only [semSys, sreg_opened]) rfl
  have only := onlyTask_past s (afterBundle (isLodge s.cur.core) s.me)
  have mine := task_past s (afterBundle (isLodge s.cur.core) s.me)
  have dies : ∀ d, (past s (afterBundle (isLodge s.cur.core) s.me)).die d = s.die d := fun _ => rfl
  have clock : (past s (afterBundle (isLodge s.cur.core) s.me)).cycle32 = s.cycle32 := rfl
  generalize past s (afterBundle (isLodge s.cur.core) s.me) = u at next only mine dies clock
  rw [State.boundary] at next
  refine ⟨fun core => ?_, fun core => ?_⟩
  · rw [core] at mine
    rw [sysAt_halts _ _ _ _ core, preemptAt_of_none (by rw [task_haltTask])] at next
    refine ⟨_, next, ?_, ?_, ?_, fun d hd => ?_⟩
    · have halt := frame_haltTask (u.postEvent s.cur 0xC0 (s.sreg a) (some (code.toNat, s.sreg b)))
      rw [show (u.postEvent s.cur 0xC0 (s.sreg a) (some (code.toNat, s.sreg b))).cur = s.cur from only.cur] at halt
      have first : Frame (fun c => { coreBeside c with l1 := [], l1req := [] }) (fun x => { moduleBeside x with dies := [] }) s u :=
        only.mono (fun _ _ h => congrArg (fun c => { c with l1 := [], l1req := [] }) h) fun _ _ h => congrArg (fun x => { x with dies := [] }) h
      exact (first.trans (frame_postEvent ..) only.cur).trans
        (halt.mono (fun _ _ h => h) fun _ _ h => congrArg (fun x => { x with dies := [] }) h) only.cur
    · rw [task_haltTask, task_postEvent, mine]
      have pre := preempt_afterBundle r.quiet false
      generalize afterBundle false s.me = t at pre
      obtain ⟨⟩ := t
      simp_all
    · rw [die_haltTask, State.postEvent, die_post, mine, dies, clock]
      rfl
    · rw [die_haltTask, State.postEvent, die_post_other _ _ hd, dies]
  · rw [core] at mine
    refine ⟨u, only, mine, ?_⟩
    rw [next, State.sysAt, core, preemptAt_of_none]
    · rfl
    · simp only [if_true, preempt_doubleTrap, mine]
      exact preempt_afterBundle r.quiet true

end Sys2Proof

namespace Sys2Proof

open Machine

/-! ### ERET, YIELD, WAIT and ARRIVE -/

theorem bare_lodge {m : SlotSem} {s : State} (core : isLodge s.cur.core = true) (place : m.place = .lodge) (src : m.vsrc = [])
    (dst : m.vdst = none) (legal : m.illegal = fun _ => false) (funit : m.funit = false) (mark : m.mark = false) : Bare m s :=
  ⟨by simp [SlotSem.isIllegal, place, src, dst, legal], by simp [SlotSem.isDenied, place, core], src, funit, mark⟩

/-- A change of a die's registers leaves every core. -/
theorem frame_modLodge (mc : Core → Core) (s : State) (d : Nat) (f : LodgeRegs → LodgeRegs) :
    Frame mc (fun x => { moduleBeside x with dies := [] }) s (s.modLodge d f) := Frame.of_cores _ rfl rfl

/-- What leaves the dies alone leaves the rest of the module too. -/
theorem Frame.dies {mc : Core → Core} {s t : State} (h : Frame mc moduleBeside s t) :
    Frame mc (fun x => { moduleBeside x with dies := [] }) s t :=
  h.mono (fun _ _ h => h) fun _ _ h => congrArg (fun x => { x with dies := [] }) h

theorem die_modLodge_other (s : State) {d k : Nat} (f : LodgeRegs → LodgeRegs) (h : k ≠ d) : (s.modLodge d f).die k = s.die k :=
  State.die_modDie_other _ _ h

/-- Settles O27: the boundary action restores the exception registers. -/
theorem eretReturns : Obligations.EretReturns := by
  unfold Obligations.EretReturns
  intro g s r core
  have next := exec_leaving (i := .eret g) (c := .back) rfl
    (bare_lodge core rfl rfl rfl rfl rfl rfl : Bare (semEret g) s) r.may r.quiet r.guard rfl rfl rfl rfl rfl
  have only := onlyTask_past s (afterBundle (isLodge s.cur.core) s.me)
  have mine := task_past s (afterBundle (isLodge s.cur.core) s.me)
  have dies : ∀ d, (past s (afterBundle (isLodge s.cur.core) s.me)).die d = s.die d := fun _ => rfl
  generalize past s (afterBundle (isLodge s.cur.core) s.me) = u at next only mine dies
  rw [core] at mine
  have task : (u.eretEntry s.cur).task s.cur = { afterBundle true s.me with
      pc := (s.die s.cur.die).lodge.epc.setWidth 32, target := (s.die s.cur.die).lodge.etrans.setWidth 32
      delay := (s.die s.cur.die).lodge.etrans.toNat / 2 ^ 32 % 4, preds := (s.die s.cur.die).lodge.epreds.setWidth 8 ||| 1 } := by
    rw [State.eretEntry, State.task_modLodge, State.task_modTask, mine, dies]
    rfl
  rw [State.boundary, preemptAt_of_none (by rw [task]; exact r.quiet.preempt)] at next
  refine ⟨_, next, ?_, task, ?_, fun d hd => ?_⟩
  · have back : u.eretEntry s.cur = (u.modTask s.cur fun t => { t with
        pc := (u.die s.cur.die).lodge.epc.setWidth 32, target := (u.die s.cur.die).lodge.etrans.setWidth 32
        delay := ((u.die s.cur.die).lodge.etrans.toNat / 2 ^ 32) % 4
        preds := predsWord ((u.die s.cur.die).lodge.epreds.setWidth 8) }).modLodge s.cur.die fun l => { l with emask := l.emask &&& 2 } := rfl
    rw [back]
    exact (only.thenTask _).dies.trans (frame_modLodge ..) only.cur
  · rw [State.eretEntry, State.modLodge, State.die_modDie, State.die_modTask, dies]
  · rw [State.eretEntry, die_modLodge_other _ _ hd, State.die_modTask, dies]

@[simp] theorem inRegion_opened (s : State) : (opened s).inRegion = s.inRegion := by
  unfold State.inRegion State.here opened State.modMe
  rw [show (s.modTask s.cur _).cur = s.cur from rfl, State.core_modTask]

/-- Settles O28: YIELD and WAIT act at the boundary; ARRIVE puts its fence on the next bundle. -/
theorem yieldWaitArrive : Obligations.YieldWaitArrive := by
  unfold Obligations.YieldWaitArrive
  intro g a c s r
  have waits : Bare (semWait g a c) s := bare_any s rfl rfl rfl rfl rfl rfl
  have arrives : Bare (semArrive g c) s := bare_any s rfl rfl rfl rfl rfl rfl
  have bars : (opened s).me.bars = s.me.bars := by rw [me_opened]
  have mine := task_past s (afterBundle (isLodge s.cur.core) s.me)
  have only := onlyTask_past s (afterBundle (isLodge s.cur.core) s.me)
  have pre := preempt_afterBundle r.quiet (isLodge s.cur.core)
  refine ⟨?_, fun beyond => ?_, fun within => ?_⟩
  · have next := exec_leaving (i := .yield g) (c := .offer) rfl (bare_any s rfl rfl rfl rfl rfl rfl : Bare (semYield g) s) r.may
      r.quiet r.guard rfl rfl rfl rfl rfl
    have task := (task_modCore_tasks (past s (afterBundle (isLodge s.cur.core) s.me)) s.cur
      (fun k => { k with yielded := true }) fun _ => rfl).trans mine
    rw [State.boundary, preemptAt_of_none (by rw [task]; exact pre)] at next
    refine ⟨_, next, ?_, task, by rw [State.core_modCore]⟩
    exact (only.mono (fun _ _ h => congrArg (fun c => { c with yielded := false }) h) fun _ _ h => h).trans
      (Frame.modCore (past s (afterBundle (isLodge s.cur.core) s.me)) _ rfl rfl rfl) rfl
  · have trap : barTrap (opened s) c.toNat = some ⟨0x0B, BitVec.ofNat 64 c.toNat⟩ := by rw [barTrap, bars, if_pos beyond]
    exact ⟨waits.traps rfl r.may r.guard rfl trap,
      arrives.traps rfl r.may r.guard rfl (by simp only [semArrive, trap]; rfl)⟩
  · have trap : barTrap (opened s) c.toNat = none := by rw [barTrap, bars, if_neg (by omega)]
    refine ⟨?_, fun outside => ?_, fun inside => ?_⟩
    · have next := exec_leaving (i := .wait g a c) (c := .wait c.toNat ((s.sreg a).getLsbD 0)) rfl waits r.may r.quiet r.guard rfl
        trap rfl (by simp only [semWait, sreg_opened]) rfl
      have same : ∀ f : Task → Task, (past s (afterBundle (isLodge s.cur.core) s.me)).waitAt s.cur c.toNat ((s.sreg a).getLsbD 0)
          = (past s (afterBundle (isLodge s.cur.core) s.me)).modTask s.cur f → (f (afterBundle (isLodge s.cur.core) s.me)).preempt = false →
          Does (.wait g a c) s false false f [] := by
        intro f hf pre
        rw [State.boundary, hf, preemptAt_of_none (by rw [State.task_modTask, mine]; exact pre)] at next
        exact ⟨_, next, only.thenTask f, by rw [State.task_modTask, mine, delivered_nil]; rfl⟩
      have bar : ((past s (afterBundle (isLodge s.cur.core) s.me)).die s.cur.die).barrier
          (((past s (afterBundle (isLodge s.cur.core) s.me)).task s.cur).bars.getD c.toNat 0) =
            (s.die s.cur.die).barrier (s.me.bars.getD c.toNat 0) := by
        rw [mine]
        rfl
      refine same _ ?_ ?_
      · rw [State.waitAt, bar]
        split <;> rfl
      · split
        · exact pre
        · exact pre
    · exact arrives.changesOwn rfl r rfl (by simp [semArrive, trap, regionTrap, outside]) rfl rfl
        ⟨fun _ _ _ _ _ _ _ => rfl, fun _ => rfl, fun _ => rfl, fun _ => rfl, fun _ => rfl⟩
    · refine arrives.traps rfl r.may r.guard rfl ?_
      simp [semArrive, trap, regionTrap, inside]

end Sys2Proof

namespace Sys2Proof

open Machine

/-! ### BGSET -/

theorem bare_bgset (g : Guard) (a : BitVec 5) (s : State) : Bare (semBgset g a) s := bare_any s rfl rfl rfl rfl rfl rfl

theorem budget_opened (s : State) : (opened s).me.budget = s.me.budget := by rw [me_opened]

theorem disarm_none {t : Task} (h : t.bwarn = 0) : { t with bwarn := 0 } = t := by rw [← h]

theorem boundary_none (s : State) (r : TaskRef) (pc : W32) : s.boundary r pc .none = s := rfl

/-- A change that is none is steady. -/
theorem steady_id : Steady id := ⟨fun _ _ _ _ _ _ _ => rfl, fun _ => rfl, fun _ => rfl, fun _ => rfl, fun _ => rfl⟩

/-- On a lodge core BGSET does nothing (R119). -/
theorem bgset_lodge {g : Guard} {a : BitVec 5} {s : State} (r : Runs g s) (core : isLodge s.cur.core = true) :
    Gives (.bgset g a) s [] := by
  refine gives_nothing (m := semBgset g a) rfl r.quiet ((bare_bgset g a s).ready r.may r.guard rfl rfl rfl) rfl rfl ?_
  rw [(bare_bgset g a s).apply (acts_opened r.guard)]
  exact if_pos core

/-- A level already reached is posted at once (R119). -/
theorem bgset_posts {g : Guard} {a : BitVec 5} {s : State} (r : Runs g s) (core : isLodge s.cur.core = false)
    (armed : s.sreg a ≠ 0) (reached : chargedBudget s.me.budget ≤ s.sreg a) :
    ∃ t, exec (.bgset g a) s = .next t ∧ OnlyTask ((opened s).postEvent s.cur 0xC1 (chargedBudget s.me.budget)) t
      ∧ t.task s.cur = afterBundle false s.me := by
  have disarmed : (opened s).modMe (fun t => { t with bwarn := 0 }) = opened s := by
    rw [opened_modMe, disarm_none (by rw [me_opened]; exact r.quiet.warn), me_opened, opened_eq]
  have eff : (semBgset g a).eff (opened s) (opened s) = (opened s).postEvent s.cur 0xC1 (chargedBudget s.me.budget) := by
    simp only [semBgset, cur_opened, core, Bool.false_eq_true, if_false, sreg_opened, budget_opened, disarmed]
    exact if_pos ⟨armed, reached⟩
  have task : ((opened s).postEvent s.cur 0xC1 (chargedBudget s.me.budget)).task s.cur =
      { id (opened s).me with pend := s.me.pend ++ [] } := by
    show (opened s).me = _
    rw [me_opened, List.append_nil, id_eq]
  obtain ⟨t, next, only, mine⟩ := (bare_bgset g a s).quiet (i := .bgset g a) rfl r rfl rfl rfl eff rfl task steady_id (by simp)
  rw [core, delivered_nil] at mine
  exact ⟨t, next, only, mine⟩

/-- A level not yet reached is set (R119). -/
theorem bgset_arms {g : Guard} {a : BitVec 5} {s : State} (r : Runs g s) (core : isLodge s.cur.core = false)
    (level : s.sreg a = 0 ∨ s.sreg a < chargedBudget s.me.budget) :
    ∃ t, exec (.bgset g a) s = .next t ∧ OnlyTask s t ∧ t.task s.cur = { afterBundle false s.me with bwarn := s.sreg a } := by
  have below : ¬ (s.sreg a ≠ 0 ∧ chargedBudget s.me.budget ≤ s.sreg a) := by
    rintro ⟨armed, reached⟩
    exact level.elim armed fun h => absurd reached (BitVec.not_le.2 h)
  have warn : s.sreg a = 0 ∨ chargedBudget s.me.budget ≠ s.sreg a :=
    level.imp id fun h e => absurd h (by rw [e]; exact BitVec.lt_irrefl _)
  have eff : (semBgset g a).eff (opened s) (opened s) = s.setTask s.cur { (opened s).me with bwarn := s.sreg a } := by
    simp only [semBgset, cur_opened, core, Bool.false_eq_true, if_false, sreg_opened]
    rw [show chargedBudget (opened s).me.budget = chargedBudget s.me.budget by rw [budget_opened], if_neg below, opened_modMe]
  have next := (bare_bgset g a s).exec_calm (i := .bgset g a) (l := []) { (opened s).me with bwarn := s.sreg a } rfl r.may
    r.quiet.toCalm r.guard rfl rfl rfl (by rw [eff, List.append_nil, me_opened]) (by rw [me_opened])
    (by rw [me_opened]; exact r.quiet.loops) (by rw [core, budget_opened]; exact warn) (by simp)
  refine ⟨_, next, ?_⟩
  have ctl : (opened s).me.ctl = .none := by rw [me_opened]; exact r.quiet.ctl
  have past_task : pastBundle (isLodge s.cur.core) s.me { (opened s).me with bwarn := s.sreg a }
      (s.nextPc s.me { (opened s).me with bwarn := s.sreg a } none 1) = { afterBundle false s.me with bwarn := s.sreg a } := by
    simp [pastBundle, delayAfter, me_opened, State.nextPc, afterBundle, r.quiet.ctl, r.quiet.delay, core]
  rw [past_task, delivered_nil, show ({ (opened s).me with bwarn := s.sreg a } : Task).ctl = .none from ctl]
  have mine := task_past s { afterBundle false s.me with bwarn := s.sreg a }
  have only := onlyTask_past s { afterBundle false s.me with bwarn := s.sreg a }
  generalize past s { afterBundle false s.me with bwarn := s.sreg a } = u at mine only
  rw [boundary_none, preemptAt_of_none (by rw [mine]; exact r.quiet.preempt)]
  exact ⟨only, mine⟩

/-- Settles O29: BGSET changes the level of its task, or posts the warning. -/
theorem budgetWarning : Obligations.BudgetWarning := by
  unfold Obligations.BudgetWarning
  refine fun g a s r => ⟨bgset_lodge r, fun core armed reached => ?_, bgset_arms r⟩
  obtain ⟨t, next, only, mine⟩ := bgset_posts r core armed reached
  have die : ∀ d, t.die d = ((opened s).postEvent s.cur 0xC1 (chargedBudget s.me.budget)).die d :=
    fun d => congrArg (fun x => x.die d) only.rest
  refine ⟨t, next, ((OnlyTask.opened s).dies.trans (frame_postEvent ..) rfl).trans only.dies rfl, mine, ?_, fun d hd => ?_⟩
  · rw [die, State.postEvent, die_post, show (opened s).task s.cur = { s.me with time := s.me.time + 1 } from me_opened s]
    rfl
  · rw [die, State.postEvent, die_post_other _ _ hd]
    rfl

/-! ### CKPT -/

/-- Whether the core writes for a slot is read from its commands alone. -/
theorem busyInside_congr {c d : Core} (h : coreBeside c = coreBeside d) (slot : Nat) : c.busyInside slot = d.busyInside slot :=
  congrArg (fun x => x.busyInside slot) h

theorem slotTiles_congr {c d : Core} (h : coreBeside c = coreBeside d) (r : TaskRef) : c.slotTiles r = d.slotTiles r :=
  congrArg (fun x => x.slotTiles r) h

/-- The state in which a CKPT issues: its bundle stands outside every region (R205). -/
def marking (s : State) : State := (opened s).modHere fun c => { c with regions := Tbl.erase c.regions s.cur.slot }

theorem atIssue_ckpt {g : Guard} {s : State} (on : s.me.guardOn g = true) : s.atIssue [(0, semCkpt g)] = marking s := by
  unfold State.atIssue marking opened
  simp [semCkpt, SlotSem.acts, on]

theorem onlyTask_marking (s : State) : OnlyTask s (marking s) :=
  (OnlyTask.opened s).trans
    (OnlyTask.modCore (opened s) (fun c => { c with regions := Tbl.erase c.regions s.cur.slot }) fun _ => ⟨rfl, rfl⟩)

theorem task_marking (s : State) : (marking s).task s.cur = (opened s).me :=
  task_modHere_tasks (opened s) s rfl (fun c => { c with regions := Tbl.erase c.regions s.cur.slot }) fun _ => rfl

theorem regions_marking (s : State) :
    ((marking s).core s.cur.coreRef).regions = Tbl.erase s.here.regions s.cur.slot := by
  unfold marking State.modHere
  rw [cur_opened, State.core_modCore]
  show Tbl.erase ((s.modTask s.cur _).core s.cur.coreRef).regions _ = _
  rw [State.core_modTask]
  rfl

/-- A CKPT on a core where no command of the task writes into the core is ready (R205). -/
theorem ready_ckpt {g : Guard} {s : State} (r : Runs g s) (idle : s.here.busyInside s.cur.slot = false) : Ready (semCkpt g) s := by
  have only : OnlyTask s ((marking s).atPeak [(0, semCkpt g)]) := (onlyTask_marking s).modMe _
  have busy : ((marking s).atPeak [(0, semCkpt g)]).here.busyInside ((marking s).atPeak [(0, semCkpt g)]).cur.slot = false := by
    rw [State.here, only.cur]
    exact (busyInside_congr only.core _).trans idle
  have unchecked : ∀ u, (semCkpt g).execTrap 0 u = none := fun u => by
    simp [SlotSem.execTrap, SlotSem.queueTrap, SlotSem.takes, semCkpt]
  refine ⟨r.may, rfl, by simp [SlotSem.isDenied, semCkpt], ?_, ?_⟩
  · rw [atIssue_ckpt r.guard]
    simp only [stallAll, List.foldl_cons, List.foldl_nil, SlotSem.stall, unchecked]
    generalize (marking s).atPeak [(0, semCkpt g)] = u at busy
    simp [semCkpt, SlotSem.queueWait, SlotSem.takes, busy]
  · rw [atIssue_ckpt r.guard, unchecked]

/-- The state in which a CKPT's region opens: its task is past the bundle, which no region has counted. -/
def marked (s : State) : State := past (marking s) (afterBundle (isLodge s.cur.core) s.me)

theorem onlyTask_marked (s : State) : OnlyTask s (marked s) := (onlyTask_marking s).trans (onlyTask_past ..)

theorem task_marked (s : State) : (marked s).task s.cur = afterBundle (isLodge s.cur.core) s.me :=
  task_past (marking s) _

/-- The time at issue and what else of the state changes beside memory do not matter for the task past a bundle. -/
theorem pastBundle_opened (lodge : Bool) (s u : State) (t : Task) (mem : u.mem = s.mem) :
    pastBundle lodge (opened s).me t (u.nextPc (opened s).me t none 1) = pastBundle lodge s.me t (s.nextPc s.me t none 1) := by
  have delay : delayAfter (opened s).me t = delayAfter s.me t := by rw [me_opened]; rfl
  have pc : u.nextPc (opened s).me t none 1 = s.nextPc s.me t none 1 :=
    calc u.nextPc (opened s).me t none 1 = u.nextPc s.me t none 1 := by rw [me_opened]; rfl
      _ = s.nextPc s.me t none 1 := nextPc_congr mem rfl rfl rfl rfl ..
  rw [pastBundle, delay, pc, pastBundle]

/-- A CKPT that is ready leaves its region to the boundary. -/
theorem exec_ckpt {g : Guard} {s : State} (r : Runs g s) (idle : s.here.busyInside s.cur.slot = false) :
    exec (.ckpt g) s = .next (((marked s).openRegion s.cur s.me.pc).preemptAt s.cur) := by
  have acts : (semCkpt g).acts (marking s) = true := by
    have : (marking s).me = (opened s).me := task_marking s
    simp only [SlotSem.acts, this, guardOn_opened]
    simpa [semCkpt] using r.guard
  have untaken : ∀ q, (semCkpt g).takes (marking s) q = false := by simp [SlotSem.takes, semCkpt]
  have apply : (semCkpt g).apply (marking s) (marking s) = (marking s).leave .mark := by
    simp only [SlotSem.apply, acts, if_true]
    rfl
  have me : ((marking s).leave .mark).task (marking s).cur = { ({ (opened s).me with ctl := .mark } : Task) with
      pend := (opened s).me.pend ++ [] } := by
    rw [List.append_nil, ← task_marking]
    exact State.me_modMe ..
  have adv := advance_calm (marking s) ((marking s).leave .mark) false false [] { (opened s).me with ctl := .mark } rfl
    (by rw [me_opened]; exact r.quiet.due) (by rw [me_opened]; exact r.quiet.loops) (by rw [me_opened]; exact .inl r.quiet.warn)
    (by rw [show (marking s).task (marking s).cur = (opened s).me from task_marking s, me_opened]; exact r.quiet.bar) me (by simp)
  rw [show (marking s).task (marking s).cur = (opened s).me from task_marking s,
    show ((marking s).leave .mark).cur = s.cur from rfl, pastBundle_opened _ s ((marking s).leave .mark) _ rfl, pastBundle_leaving r.quiet rfl] at adv
  rw [show exec (.ckpt g) s = issueSlot (semCkpt g) s from rfl, issueSlot, issueOne_ready (ready_ckpt r idle), issued,
    atIssue_ckpt r.guard, apply, untaken, untaken, adv, delivered_nil]
  have same : ((marking s).leave .mark).setTask s.cur (popTaken false false (afterBundle (isLodge s.cur.core) s.me)) =
      (marking s).setTask s.cur (afterBundle (isLodge s.cur.core) s.me) := State.modTask_setTask ..
  rw [same, me_opened]
  rfl

/-- A bundle is not counted in a region that is not open. -/
theorem countRegion_regions {slot : Nat} {c : Core} (h : c.regions.get none slot = none) : (c.countRegion slot).regions = c.regions := by
  unfold Core.countRegion
  rw [h]
  dsimp only
  cases c.rerun <;> dsimp only
  split <;> rfl

theorem regions_marked (s : State) : ((marked s).core s.cur.coreRef).regions = Tbl.erase s.here.regions s.cur.slot := by
  have set : (((marking s).setTask s.cur (afterBundle (isLodge s.cur.core) s.me)).core s.cur.coreRef).regions =
      Tbl.erase s.here.regions s.cur.slot := by
    rw [State.setTask, State.putTask, State.core_modCore, regions_marking]
  show ((((marking s).setTask s.cur _).modCore s.cur.coreRef (Core.countRegion s.cur.slot)).core s.cur.coreRef).regions = _
  rw [State.core_modCore, countRegion_regions, set]
  rw [set]
  exact Tbl.get_erase_same (α := Option Region) none _ _

/-- A core with a region open for a slot. -/
def withRegion (slot : Nat) (x : Region) (c : Core) : Core := { c with regions := Tbl.set none c.regions slot (some x) }

/-- Settles O30: the region that the boundary opens. -/
theorem checkpointOpensARegion : Obligations.CheckpointOpensARegion := by
  unfold Obligations.CheckpointOpensARegion
  intro g s r idle
  have next := exec_ckpt r idle
  have only := onlyTask_marked s
  have mine := task_marked s
  have regions := regions_marked s
  generalize marked s = u at next only mine regions
  have opens : ∃ x : Region, u.openRegion s.cur s.me.pc = u.modCore s.cur.coreRef (withRegion s.cur.slot x)
      ∧ x = { saved := afterBundle (isLodge s.cur.core) s.me, tiles := s.here.slotTiles s.cur, addr := s.me.pc, items := [],
              charge := 0, bundles := 0, guarded := x.guarded, writes := [], cycles := 0, made := [], closed := false }
      ∧ (s.here.regions = [] → x.guarded = true) := by
    refine ⟨_, rfl, ?_, fun empty => ?_⟩
    · have ctl : (afterBundle (isLodge s.cur.core) s.me).ctl = .none := r.quiet.ctl
      simp only [mine, slotTiles_congr only.core, ← ctl]
      rfl
    · simp only [regions, empty]
      rfl
  obtain ⟨x, opens, fields, first⟩ := opens
  have task : (u.openRegion s.cur s.me.pc).task s.cur = afterBundle (isLodge s.cur.core) s.me := by
    rw [opens, task_modCore_tasks u s.cur (withRegion s.cur.slot x) fun _ => rfl, mine]
  rw [preemptAt_of_none (by rw [task]; exact r.quiet.preempt)] at next
  refine ⟨_, x, next, ?_, task, ?_, fields, first, fun k hk => ?_⟩
  · rw [opens]
    have := OnlyTask.modCore u (withRegion s.cur.slot x) fun _ => ⟨rfl, rfl⟩
    rw [only.cur] at this
    exact only.trans this
  · rw [opens, State.core_modCore]
    exact Tbl.get_set_same (α := Option Region) none (some x) _ _
  · rw [opens, State.core_modCore]
    show (Tbl.set none (u.core s.cur.coreRef).regions s.cur.slot (some x)).get none k = _
    rw [Tbl.get_set_other _ _ _ hk, regions, Tbl.get_erase_other _ _ hk]

end Sys2Proof

namespace Sys2Proof

open Machine

/-! ### Barriers and their waiters -/

/-- What a change of barriers may do beside the die: tasks that wait on one of them become ready at a raised time. -/
structure Wakes (bars : List Nat) (s t : State) : Prop where
  tasks : ∀ q, t.task? q = s.task? q ∨ ∃ x n p b v, s.task? q = some x ∧ x.status = .waiting n p ∧ x.bars[n]? = some b ∧ b ∈ bars
    ∧ t.task? q = some { x.observe v with status := .ready }
  cores : ∀ c, { t.core c with tasks := [] } = { s.core c with tasks := [] }
  rest : { t with cores := [], dies := [] } = { s with cores := [], dies := [] }

theorem Wakes.refl (bars : List Nat) (s : State) : Wakes bars s s := ⟨fun _ => .inl rfl, fun _ => rfl, rfl⟩

/-- A task that was woken waits no more. -/
theorem Wakes.trans {bars : List Nat} {s t u : State} (h : Wakes bars s t) (k : Wakes bars t u) : Wakes bars s u := by
  refine ⟨fun q => ?_, fun c => (k.cores c).trans (h.cores c), k.rest.trans h.rest⟩
  rcases h.tasks q with same | ⟨x, n, p, b, v, before, waits, named, mem, after⟩
  · rcases k.tasks q with same' | ⟨x, n, p, b, v, before, rest⟩
    · exact .inl (same'.trans same)
    · exact .inr ⟨x, n, p, b, v, same ▸ before, rest⟩
  · rcases k.tasks q with same' | ⟨y, n', p', _, _, before', waits', _⟩
    · exact .inr ⟨x, n, p, b, v, before, waits, named, mem, same'.trans after⟩
    · rw [after] at before'
      cases before'
      exact absurd waits' (by simp)

/-- One task at a completed phase: it stands, or it waited on this barrier and is ready. -/
theorem wake_cases (b : Nat) (x : Barrier) (t : Task) : t.wake b x = t ∨ ∃ n p, t.status = .waiting n p ∧ t.bars[n]? = some b
    ∧ t.wake b x = { t.observe x.doneTc with status := .ready } := by
  unfold Task.wake
  split
  · next n p waits =>
    split
    · next h => exact .inr ⟨n, p, waits, h.1, rfl⟩
    · exact .inl rfl
  · exact .inl rfl

/-- The tasks of one core woken. -/
theorem wakes_core (bars : List Nat) (s : State) (c : CoreRef) {b : Nat} (x : Barrier) (mem : b ∈ bars) :
    Wakes bars s (s.modCore c fun k => { k with tasks := Tbl.mapVals (Option.map (Task.wake b x)) k.tasks }) := by
  refine ⟨fun q => ?_, fun k => ?_, rfl⟩
  · rw [task?_modCore]
    split
    · next h =>
      rw [Tbl.get_mapVals rfl, show Tbl.get none (s.core c).tasks q.slot = s.task? q by rw [State.task?, core_congr s h]]
      cases held : s.task? q with
      | none => exact .inl rfl
      | some t =>
        rcases wake_cases b x t with same | ⟨n, p, waits, named, woken⟩
        · exact .inl (by rw [Option.map_some, same])
        · exact .inr ⟨t, n, p, b, x.doneTc, rfl, waits, named, mem, by rw [Option.map_some, woken]⟩
    · exact .inl rfl
  · by_cases h : CoreRef.key k = CoreRef.key c
    · rw [core_congr _ h, State.core_modCore, core_congr s h]
    · rw [State.core_modCore_other _ _ h]

theorem wakes_wakeAll (bars : List Nat) (s : State) (die : Nat) {b : Nat} (mem : b ∈ bars) : Wakes bars s (s.wakeAll die b) := by
  unfold State.wakeAll
  generalize s.coreRefs.filter (fun c => decide (c.die = die)) = l
  dsimp only
  generalize (s.die die).barrier b = x
  induction l generalizing s with
  | nil => exact Wakes.refl ..
  | cons c l ih => exact (wakes_core bars s c x mem).trans (ih _)

theorem dies_wakeAll (s : State) (die b : Nat) : (s.wakeAll die b).dies = s.dies := by
  unfold State.wakeAll
  generalize s.coreRefs.filter (fun c => decide (c.die = die)) = l
  dsimp only
  generalize (s.die die).barrier b = x
  induction l generalizing s with
  | nil => rfl
  | cons c l ih => exact (ih _).trans (State.dies_modCore ..)

theorem wakes_modDie (bars : List Nat) (s : State) (d : Nat) (f : Die → Die) : Wakes bars s (s.modDie d f) :=
  ⟨fun _ => .inl rfl, fun _ => rfl, rfl⟩

theorem wakes_modBarrier (bars : List Nat) (s : State) (die : Nat) {b : Nat} (f : Barrier → Barrier) (mem : b ∈ bars) :
    Wakes bars s (s.modBarrier die b f) := (wakes_modDie bars s die _).trans (wakes_wakeAll bars _ die mem)

/-- Barriers of a die changed in turn. -/
theorem wakes_modBarriers (bars : List Nat) (s : State) (die : Nat) (f : Barrier → Barrier) (l : List Nat) (mem : ∀ b ∈ l, b ∈ bars) :
    Wakes bars s (l.foldl (fun s b => s.modBarrier die b f) s) := by
  induction l generalizing s with
  | nil => exact Wakes.refl ..
  | cons b l ih =>
    exact (wakes_modBarrier bars s die f (mem b List.mem_cons_self)).trans (ih _ fun k hk => mem k (List.mem_cons_of_mem _ hk))

theorem die_modBarrier (s : State) (die b : Nat) (f : Barrier → Barrier) (d : Nat) : (s.modBarrier die b f).die d =
    if d = die then (s.die die).setBarrier b (f ((s.die die).barrier b)).complete else s.die d := by
  rw [State.modBarrier, State.die, dies_wakeAll]
  split
  · next h =>
    subst h
    exact State.die_modDie ..
  · next h => exact State.die_modDie_other _ _ h

theorem die_modBarriers (s : State) (die : Nat) (f : Barrier → Barrier) (l : List Nat) (d : Nat) :
    (l.foldl (fun s b => s.modBarrier die b f) s).die d =
      if d = die then l.foldl (fun x b => x.setBarrier b (f (x.barrier b)).complete) (s.die die) else s.die d := by
  induction l generalizing s with
  | nil =>
    split
    · next h => rw [h]; rfl
    · rfl
  | cons b l ih =>
    rw [List.foldl_cons, ih, die_modBarrier, die_modBarrier, if_pos rfl]
    split <;> rfl

/-! ### Tile entries of an ended task -/

theorem tile_setTile (c : Core) (n m : Nat) (e : TileEntry) : (c.setTile n e).tile m = if m = n then e else c.tile m := by
  unfold Core.setTile Core.tile
  split
  · next h => rw [h]; exact Tbl.get_set_same (α := TileEntry) _ e _ _
  · next h => exact Tbl.get_set_other (α := TileEntry) _ e _ h

/-- An entry that is no longer defined. -/
def TileEntry.dropped (e : TileEntry) : TileEntry := { e with v := false, st := .empty }

theorem tile_undefineTiles (c : Core) (r : TaskRef) (m : Nat) : (c.undefineTiles r).tile m =
    if ∃ n < tileCount r.core, m = physTile r n then TileEntry.dropped (c.tile m) else c.tile m := by
  have key : ∀ (l : List Nat) (c : Core), (l.foldl (fun c n => c.setTile (physTile r n) (TileEntry.dropped (c.tile (physTile r n)))) c).tile m =
      if ∃ n ∈ l, m = physTile r n then TileEntry.dropped (c.tile m) else c.tile m := by
    intro l
    induction l with
    | nil => intro c; simp
    | cons n l ih =>
      intro c
      rw [List.foldl_cons, ih, tile_setTile]
      by_cases h : m = physTile r n
      · simp only [h, List.mem_cons, exists_eq_or_imp, true_or, if_true]
        split <;> rfl
      · simp only [h, List.mem_cons, exists_eq_or_imp, false_or, if_false]
  have := key (List.range (tileCount r.core)) c
  simp only [List.mem_range] at this
  exact this

theorem undefineTiles_rest (c : Core) (r : TaskRef) : { c.undefineTiles r with tiles := [] } = { c with tiles := [] } := by
  unfold Core.undefineTiles
  generalize List.range (tileCount r.core) = l
  induction l generalizing c with
  | nil => rfl
  | cons n l ih => exact ih _

end Sys2Proof

namespace Sys2Proof

open Machine

/-! ### END -/

/-- A launch in which a task closes its open set, if it has one (R261). -/
def closedIn (t : Task) (l : Launch) : Launch :=
  { l with sets := match t.openSet with
      | none => l.sets
      | some o => l.sets.set OrdSet.none o { l.sets.get OrdSet.none o with
          closed := (l.sets.get OrdSet.none o).closed ++ [t.lidx.toNat] } }

/-- The state in which a task has closed its set, its registers and entries are released, and its barriers still count it. -/
def released (u : State) (r : TaskRef) : State :=
  (((u.closeSet r).modTask r Task.released).modCore r.coreRef fun c => (c.undefineTiles r).slotEnded r.slot).dropLoads r none

theorem endTaskAt_eq (u : State) (r : TaskRef) : u.endTaskAt r =
    ((u.task r).bars.foldl (fun s b => s.modBarrier r.die b Barrier.leave) (released u r)).modLaunch (u.task r).launch
      fun l => { l with ended := l.ended + 1 } := rfl

theorem closeSet_none {u : State} {r : TaskRef} (h : (u.task r).openSet = none) : u.closeSet r = u := by
  simp only [State.closeSet, h]

theorem closeSet_some {u : State} {r : TaskRef} {o : Nat} (h : (u.task r).openSet = some o) : u.closeSet r =
    (u.modLaunch (u.task r).launch (closedIn (u.task r))).modTask r fun t => { t with openSet := none } := by
  have closes : closedIn (u.task r) = fun l => { l with sets := l.sets.set OrdSet.none o { l.sets.get OrdSet.none o with
      closed := (l.sets.get OrdSet.none o).closed ++ [(u.task r).lidx.toNat] } } := by
    funext l
    simp only [closedIn, h]
  rw [closes]
  simp only [State.closeSet, h]

theorem closeSet_launches (u : State) (r : TaskRef) : (u.closeSet r).launches =
    u.launches.map fun l => if l.seq = (u.task r).launch then closedIn (u.task r) l else l := by
  cases h : (u.task r).openSet with
  | none => simp [closeSet_none h, closedIn, h]
  | some o => rw [closeSet_some h]; rfl

theorem task_closeSet (u : State) (r : TaskRef) : (u.closeSet r).task r = { u.task r with openSet := none } := by
  cases h : (u.task r).openSet with
  | none => rw [closeSet_none h, ← h]
  | some o => rw [closeSet_some h, State.task_modTask]; rfl

/-- Closing a set changes a launch and the task. -/
theorem closeSet_rest (u : State) (r : TaskRef) :
    u.closeSet r = u ∨ ∃ f, u.closeSet r = { u.modTask r f with launches := (u.closeSet r).launches } := by
  cases h : (u.task r).openSet with
  | none => exact .inl (closeSet_none h)
  | some o => rw [closeSet_some h]; exact .inr ⟨fun t => { t with openSet := none }, rfl⟩

theorem task?_released (u : State) (r q : TaskRef) : (released u r).task? q =
    if CoreRef.key q.coreRef = CoreRef.key r.coreRef ∧ q.slot = r.slot
    then some { (u.task r).released with openSet := none } else u.task? q := by
  have tasks : ∀ c : Core, ((c.undefineTiles r).slotEnded r.slot).tasks = c.tasks := fun c =>
    (congrArg Core.tasks (undefineTiles_rest c r) :)
  rw [released, task?_dropLoads, task?_modCore_tasks _ _ (tasks _), task?_modTask, task_closeSet]
  split
  · rfl
  · next other =>
    rcases closeSet_rest u r with h | ⟨f, h⟩
    · rw [h]
    · rw [h]
      show (u.modTask r f).task? q = _
      rw [task?_modTask, if_neg other]

theorem core_closeSet (u : State) (r : TaskRef) (c : CoreRef) : { (u.closeSet r).core c with tasks := [] } = { u.core c with tasks := [] } := by
  rcases closeSet_rest u r with h | ⟨f, h⟩
  · rw [h]
  · rw [h]
    show ({ (u.modTask r f).core c with tasks := [] } : Core) = _
    by_cases k : CoreRef.key c = CoreRef.key r.coreRef
    · rw [core_congr _ k, State.core_modTask, core_congr u k]
    · rw [core_modTask_other _ _ k]

theorem core_released_other (u : State) {r : TaskRef} {c : CoreRef} (h : CoreRef.key c ≠ CoreRef.key r.coreRef) :
    (released u r).core c = u.core c := by
  rw [released, core_dropLoads, State.core_modCore_other _ _ h, core_modTask_other _ _ h]
  rcases closeSet_rest u r with k | ⟨f, k⟩
  · rw [k]
  · rw [k]
    exact core_modTask_other _ _ h

theorem undefineTiles_blank (c : Core) (r : TaskRef) :
    ({ c with tasks := [] } : Core).undefineTiles r = { c.undefineTiles r with tasks := [] } := by
  unfold Core.undefineTiles
  generalize List.range (tileCount r.core) = l
  induction l generalizing c with
  | nil => rfl
  | cons n l ih => exact ih (c.setTile (physTile r n) _)

/-- The core of an ended task beside its tasks. -/
theorem core_released (u : State) (r : TaskRef) : { (released u r).core r.coreRef with tasks := [] } =
    { ((u.core r.coreRef).undefineTiles r).slotEnded r.slot with tasks := [] } := by
  have beside : ∀ c d : Core, { c with tasks := [] } = { d with tasks := [] } →
      { (c.undefineTiles r).slotEnded r.slot with tasks := [] } = { (d.undefineTiles r).slotEnded r.slot with tasks := [] } := by
    intro c d h
    have blank : ∀ c : Core, { (c.undefineTiles r).slotEnded r.slot with tasks := [] } =
        (({ c with tasks := [] } : Core).undefineTiles r).slotEnded r.slot := fun c => by
      rw [undefineTiles_blank]
      rfl
    rw [blank, blank, h]
  rw [released, core_dropLoads, State.core_modCore]
  refine beside _ _ ?_
  rw [State.core_modTask]
  exact core_closeSet u r r.coreRef

/-- The module without its cores, its launches and its outstanding requests. -/
def unlaunched (s : State) : State := { s with cores := [], launches := [], sent := [] }

theorem unlaunched_modCore (s : State) (c : CoreRef) (f : Core → Core) : unlaunched (s.modCore c f) = unlaunched s := rfl

theorem unlaunched_modTask (s : State) (r : TaskRef) (f : Task → Task) : unlaunched (s.modTask r f) = unlaunched s := rfl

theorem unlaunched_dropLoads (s : State) (r : TaskRef) (tok : Option Nat) : unlaunched (s.dropLoads r tok) = unlaunched s := rfl

theorem unlaunched_launches (s : State) (l : List Launch) : unlaunched { s with launches := l } = unlaunched s := rfl

/-- Releasing a task changes its core, a launch and the loads outstanding. -/
theorem unlaunched_released (u : State) (r : TaskRef) : unlaunched (released u r) = unlaunched u := by
  have closed : unlaunched (u.closeSet r) = unlaunched u := by
    rcases closeSet_rest u r with h | ⟨f, h⟩
    · rw [h]
    · rw [h, unlaunched_launches, unlaunched_modTask]
  rw [released, unlaunched_dropLoads, unlaunched_modCore, unlaunched_modTask, closed]

theorem launches_released (u : State) (r : TaskRef) : (released u r).launches =
    u.launches.map fun l => if l.seq = (u.task r).launch then closedIn (u.task r) l else l := by
  rw [← closeSet_launches]
  rfl

theorem sent_released (u : State) (r : TaskRef) : (released u r).sent = (u.dropLoads r none).sent := by
  have same : (u.closeSet r).sent = u.sent := by
    rcases closeSet_rest u r with h | ⟨f, h⟩
    · rw [h]
    · rw [h]
      rfl
  show ((u.closeSet r).sent.filter _) = _
  rw [same]
  rfl

/-- The barriers of an ended task are left (R275). -/
theorem wakes_endTaskAt (u : State) (r : TaskRef) : Wakes (u.task r).bars { released u r with launches := [] } { u.endTaskAt r with launches := [] } := by
  obtain ⟨tasks, cores, rest⟩ := wakes_modBarriers (u.task r).bars (released u r) r.die Barrier.leave (u.task r).bars fun _ h => h
  exact ⟨tasks, cores, congrArg (fun s : State => { s with launches := [] }) rest⟩

theorem launches_endTaskAt (u : State) (r : TaskRef) : (u.endTaskAt r).launches =
    u.launches.map fun l => if l.seq = (u.task r).launch then { closedIn (u.task r) l with ended := l.ended + 1 } else l := by
  have same := congrArg State.launches
    (wakes_modBarriers (u.task r).bars (released u r) r.die Barrier.leave (u.task r).bars fun _ h => h).rest
  have same : ((u.task r).bars.foldl (fun s b => s.modBarrier r.die b Barrier.leave) (released u r)).launches = (released u r).launches := same
  rw [endTaskAt_eq, State.modLaunch]
  simp only [same, launches_released, List.map_map]
  apply List.map_congr_left
  intro l _
  by_cases h : l.seq = (u.task r).launch
  · have k : (closedIn (u.task r) l).seq = (u.task r).launch := h
    simp only [Function.comp_apply, h, if_true, k]
    rfl
  · simp only [Function.comp_apply, h, if_false]

/-- An ended task, whose own barriers cannot wake it. -/
theorem task?_endTaskAt (u : State) (r : TaskRef) : (u.endTaskAt r).task? r = some { (u.task r).released with openSet := none } := by
  have before : (released u r).task? r = some { (u.task r).released with openSet := none } := by
    rw [task?_released, if_pos ⟨rfl, rfl⟩]
  rcases (wakes_endTaskAt u r).tasks r with same | ⟨x, n, p, b, v, held, waits, _⟩
  · exact same.trans before
  · have : x = { (u.task r).released with openSet := none } := Option.some.inj (held.symm.trans before)
    rw [this] at waits
    exact absurd waits (by simp [Task.released])

/-- Any other task stands or is woken by a barrier of the ended one. -/
theorem task?_endTaskAt_other (u : State) {r q : TaskRef} (other : CoreRef.key q.coreRef ≠ CoreRef.key r.coreRef ∨ q.slot ≠ r.slot) :
    (u.endTaskAt r).task? q = u.task? q ∨ ∃ x n p b v, u.task? q = some x ∧ x.status = .waiting n p ∧ x.bars[n]? = some b
      ∧ b ∈ (u.task r).bars ∧ (u.endTaskAt r).task? q = some { x.observe v with status := .ready } := by
  have before : ({ released u r with launches := [] } : State).task? q = u.task? q := by
    show (released u r).task? q = _
    rw [task?_released, if_neg]
    rintro ⟨hc, hs⟩
    exact other.elim (fun h => h hc) fun h => h hs
  have := (wakes_endTaskAt u r).tasks q
  rw [before] at this
  exact this

end Sys2Proof

namespace Sys2Proof

open Machine

/-- Every task but the issuing one stands. -/
theorem Frame.task? {mc : Core → Core} {ms : State → State} {s t : State} (h : Frame mc ms s t) {q : TaskRef}
    (other : CoreRef.key q.coreRef ≠ CoreRef.key s.cur.coreRef ∨ q.slot ≠ s.cur.slot) : t.task? q = s.task? q := by
  by_cases hc : CoreRef.key q.coreRef = CoreRef.key s.cur.coreRef
  · have slot : q.slot ≠ s.cur.slot := other.elim (fun h => absurd hc h) id
    have := h.slots q.slot slot
    rw [State.task?, core_congr t hc, State.task?, core_congr s hc]
    exact this
  · rw [State.task?, h.others _ hc, State.task?]

/-- Nothing makes an END wait outside a protected region, or with no command that writes into the core (R205). -/
theorem wait_end {g : Guard} {s : State} (free : ∀ x, s.here.regions.get none s.cur.slot = some x →
    x.guarded = false ∨ s.here.busyInside s.cur.slot = false) : (semEndTask g).wait (opened s) s = none := by
  have core := State.core_modTask s s.cur fun t => { t with time := t.time + 1 }
  have regions : (opened s).here.regions = s.here.regions := (congrArg Core.regions core :)
  have busy : (opened s).here.busyInside s.cur.slot = s.here.busyInside s.cur.slot :=
    busyInside_congr (OnlyTask.opened s).core _
  simp only [semEndTask, cur_opened, regions, busy]
  split
  · next x held => rcases free x held with h | h <;> simp [h]
  · rfl

/-- The core an ended task leaves, beside its tasks. -/
theorem core_endTaskAt (u : State) (r c) : { (u.endTaskAt r).core c with tasks := [] } = { (released u r).core c with tasks := [] } :=
  (wakes_endTaskAt u r).cores c

theorem die_endTaskAt (u : State) (r : TaskRef) (d : Nat) : (u.endTaskAt r).die d =
    if d = r.die then (u.task r).bars.foldl (fun x b => x.setBarrier b (x.barrier b).leave.complete) (u.die r.die) else u.die d := by
  have dies : ∀ k, (released u r).die k = u.die k := fun k => congrArg (fun x => x.die k) (unlaunched_released u r)
  have := die_modBarriers (released u r) r.die Barrier.leave (u.task r).bars d
  rw [dies, dies] at this
  exact this

/-- Settles O25: END leaves its boundary the end of its task. -/
theorem endEndsTheTask : Obligations.EndEndsTheTask := by
  unfold Obligations.EndEndsTheTask
  intro g s r free
  have next := exec_leaving (i := .endTask g) (c := .leave) rfl (bare_any s rfl rfl rfl rfl rfl rfl : Bare (semEndTask g) s) r.may
    r.quiet r.guard rfl rfl (wait_end free) rfl rfl
  have only := onlyTask_past s (afterBundle (isLodge s.cur.core) s.me)
  have mine := task_past s (afterBundle (isLodge s.cur.core) s.me)
  generalize past s (afterBundle (isLodge s.cur.core) s.me) = u at next only mine
  have own := task?_endTaskAt u s.cur
  have task : (u.endTaskAt s.cur).task s.cur = { (afterBundle (isLodge s.cur.core) s.me).released with openSet := none } := by
    rw [State.task, own, mine, Option.getD_some]
  rw [State.boundary, preemptAt_of_none (by rw [task]; rfl)] at next
  have here := (core_endTaskAt u s.cur s.cur.coreRef).trans (core_released u s.cur)
  have bars : (u.task s.cur).bars = s.me.bars := by rw [mine]; rfl
  have dies : ∀ d, u.die d = s.die d := fun d => congrArg (fun x => x.die d) only.rest
  have l1 : ((u.core s.cur.coreRef).undefineTiles s.cur).l1 = s.here.l1 :=
    (congrArg Core.l1 (undefineTiles_rest (u.core s.cur.coreRef) s.cur) :).trans (congrArg Core.l1 only.core :)
  have l1req : ((u.core s.cur.coreRef).undefineTiles s.cur).l1req = s.here.l1req :=
    (congrArg Core.l1req (undefineTiles_rest (u.core s.cur.coreRef) s.cur) :).trans (congrArg Core.l1req only.core :)
  refine ⟨_, next, task, fun n hn => ?_, fun m hm => ?_, ?_, ?_, ?_, ?_, fun d hd => ?_, ?_, ?_, fun q other => ?_, fun c other => ?_, ?_, ?_⟩
  · have tile : ((u.endTaskAt s.cur).core s.cur.coreRef).tile (physTile s.cur n) = _ := congrArg (fun c => c.tile (physTile s.cur n)) here
    have stood : (u.core s.cur.coreRef).tile (physTile s.cur n) = s.here.tile (physTile s.cur n) :=
      congrArg (fun c => c.tile (physTile s.cur n)) only.core
    refine tile.trans ((tile_undefineTiles _ s.cur (physTile s.cur n)).trans ?_)
    rw [if_pos ⟨n, hn, rfl⟩, stood]
    rfl
  · have tile : ((u.endTaskAt s.cur).core s.cur.coreRef).tile m = _ := congrArg (fun c => c.tile m) here
    have stood : (u.core s.cur.coreRef).tile m = s.here.tile m := congrArg (fun c => c.tile m) only.core
    refine tile.trans ((tile_undefineTiles _ s.cur m).trans ?_)
    rw [if_neg fun ⟨n, hn, h⟩ => hm n hn h, stood]
  · exact (congrArg Core.l1 here :).trans (congrArg (List.map (L1Line.letGo s.cur.slot)) l1)
  · exact (congrArg Core.l1req here :).trans (congrArg (List.filterMap (L1Req.letGo s.cur.slot)) l1req)
  · have region : ((u.endTaskAt s.cur).core s.cur.coreRef).regions.get none s.cur.slot = _ := congrArg (fun c => c.regions.get none s.cur.slot) here
    exact region.trans (Tbl.get_erase_same (α := Option Region) none _ _)
  · rw [die_endTaskAt, if_pos rfl, bars, dies]
  · rw [die_endTaskAt, if_neg hd, dies]
  · rw [launches_endTaskAt, mine, show u.launches = s.launches from (congrArg State.launches only.rest :)]
    rfl
  · have sent : (u.endTaskAt s.cur).sent = (released u s.cur).sent := (congrArg State.sent (wakes_endTaskAt u s.cur).rest :)
    rw [sent, sent_released]
    exact congrArg (List.filter fun x => !(decide (x.task = s.cur) && decide (x.cmdTok = none) && decide (x.req.kind = 1)))
      (congrArg State.sent only.rest :)
  · rw [← only.cur] at other
    have stood := only.task? (by rwa [only.cur] at other)
    have after := task?_endTaskAt_other u other
    rw [stood, only.cur, bars] at after
    refine ⟨fun none => ?_, fun x some => ?_⟩
    · rcases after with same | ⟨x, _, _, _, _, some, _⟩
      · rw [same, none]
      · rw [none] at some
        cases some
    · rcases after with same | ⟨y, n, p, b, v, some', waits, named, mem, woken⟩
      · exact .inl (by rw [same, some])
      · rw [some] at some'
        cases some'
        exact .inr ⟨n, p, b, v, waits, named, mem, woken⟩
  · rw [core_endTaskAt, core_released_other u other, only.others c other]
  · have core := congrArg (fun c : Core => { coreBeside c with tiles := [], l1 := [], l1req := [] }) here
    have undefined := congrArg (fun c : Core => { coreBeside c with l1 := [], l1req := [] }) (undefineTiles_rest (u.core s.cur.coreRef) s.cur)
    exact core.trans (undefined.trans (congrArg (fun c : Core => { c with tiles := [], l1 := [], l1req := [] }) only.core))
  · have ended := congrArg (fun x : State => { x with sent := [] }) (wakes_endTaskAt u s.cur).rest
    have rest := congrArg (fun x : State => { x with dies := [] }) (unlaunched_released u s.cur)
    exact ended.trans (rest.trans (congrArg (fun x : State => { x with dies := [], launches := [], sent := [] }) only.rest))

end Sys2Proof

namespace Sys2Proof

open Machine

/-! ### Slots with vector operands -/

/-- Register names of five bits, as numbers. -/
theorem contains_names (l : List (BitVec 5)) (n : BitVec 5) : (l.map BitVec.toNat).contains n.toNat = l.contains n := by
  induction l with
  | nil => rfl
  | cons a l ih => simp only [List.map_cons, List.contains_cons, ih, beq_eq_decide, BitVec.toNat_eq]

@[simp] theorem fq0_opened (s : State) : (opened s).me.fq0 = s.me.fq0 := by rw [me_opened]

@[simp] theorem fq1_opened (s : State) : (opened s).me.fq1 = s.me.fq1 := by rw [me_opened]

theorem here_opened (s : State) : coreBeside (opened s).here = coreBeside s.here := (OnlyTask.opened s).core

@[simp] theorem fBusy_opened (s : State) : (opened s).here.fBusy = s.here.fBusy := by
  show ((s.modTask s.cur _).core s.cur.coreRef).fBusy = _
  rw [State.core_modTask]
  rfl

/-- A slot with vector operands and no check of its own, on a core of any kind. -/
structure VecSlot (m : SlotSem) : Prop where
  place : m.place = .any
  legal : m.illegal = fun _ => false
  wait : m.wait = fun _ _ => none
  trap : m.trap = fun _ _ => none
  mark : m.mark = false
  peak : m.peak = fun _ => 0

/-- A queue that can be popped outside a region neither traps nor stalls the slot (R135, R207, R325). -/
theorem queueTrap_none {m : SlotSem} {s : State} (k : Nat) (h0 : m.takes s 0 = true → Poppable s.me.fq0 ∧ s.inRegion = false)
    (h1 : m.takes s 1 = true → Poppable s.me.fq1 ∧ s.inRegion = false) : m.queueTrap k s = none ∧ m.queueWait s = false := by
  have pop : ∀ q : InQueue, Poppable q → q.popTrap = none := fun q h => by simp [InQueue.popTrap, h.clean]
  unfold State.inRegion at h0 h1
  unfold SlotSem.queueTrap SlotSem.queueWait
  cases t0 : m.takes s 0
  · cases t1 : m.takes s 1
    · simp
    · obtain ⟨q1, outside⟩ := h1 t1
      simp [q1.bound, q1.complete, outside, pop _ q1]
  · obtain ⟨q0, outside⟩ := h0 t0
    cases t1 : m.takes s 1
    · simp [q0.bound, q0.complete, outside, pop _ q0]
    · obtain ⟨q1, _⟩ := h1 t1
      simp [q0.bound, q0.complete, q1.bound, q1.complete, outside, pop _ q0, pop _ q1]

/-- A slot whose vector operands are there is ready, if it needs no F unit or finds it free. -/
theorem VecSlot.ready {m : SlotSem} {s : State} {src : List Nat} {dst : Option Nat} (h : VecSlot m) (r : VecRuns src dst s)
    (hs : m.vsrc = src) (hd : m.vdst = dst) (free : m.funit = true → s.here.fBusy = 0) : Ready m s := by
  have named : ∀ q, m.takes (opened s) q = true → 30 + q ∈ src := by
    intro q hq
    simp only [SlotSem.takes, hs, Bool.and_eq_true, List.contains_iff_mem] at hq
    exact hq.2
  obtain ⟨trap, wait⟩ := queueTrap_none (m := m) (s := opened s) 0
    (fun hq => by rw [fq0_opened, inRegion_opened]; exact r.queue0 (named 0 hq))
    (fun hq => by rw [fq1_opened, inRegion_opened]; exact r.queue1 (named 1 hq))
  have check : m.execTrap 0 (opened s) = none := by simp [SlotSem.execTrap, trap, h.trap]
  refine ⟨r.may, ?_, by simp [SlotSem.isDenied, h.place], ?_, ?_⟩
  · have sources : (src.any fun v => !s.me.backed v && !decide (v = 30) && !decide (v = 31)) = false := by
      rw [List.any_eq_false]
      intro v hv
      rcases r.sources v hv with b | rfl | rfl <;> simp [*]
    cases dst with
    | none => simp [SlotSem.isIllegal, h.place, hs, hd, h.legal, sources]
    | some v => simp [SlotSem.isIllegal, h.place, hs, hd, h.legal, sources, r.dest v rfl]
  · rw [atIssue_opened m s h.mark]
    have unit : (m.funit && decide (s.here.fBusy ≠ 0)) = false := by
      cases hf : m.funit
      · rfl
      · simp [free hf]
    simp only [stallAll, List.foldl_cons, List.foldl_nil, atPeak_opened h.peak, SlotSem.stall, check, fBusy_opened, unit, wait, h.wait]
    simp
  · rw [atIssue_opened m s h.mark, check]

/-- The queues a slot takes are those among its sources, when it acts. -/
theorem takes_names {m : SlotSem} {s : State} {src : List (BitVec 5)} (acts : m.acts (opened s) = true)
    (hs : m.vsrc = src.map BitVec.toNat) : m.takes (opened s) 0 = src.contains 30 ∧ m.takes (opened s) 1 = src.contains 31 := by
  simp only [SlotSem.takes, acts, hs, Bool.true_and]
  exact ⟨contains_names src 30, contains_names src 31⟩

/-- A result that is still in flight past its bundle goes wherever it may. -/
theorem own_later {p : Pending} (h : 2 ≤ p.left) : Own p := fun h1 => by omega

/-- A V slot that queues results of its own task (R28, R138). -/
theorem does_vec {i : Instr} {m : SlotSem} {s : State} {src : List (BitVec 5)} {dst : Option Nat} {l : List Pending}
    (hx : exec i s = issueSlot m s) (h : VecSlot m) (lanes : m.lanes = true) (funit : m.funit = false)
    (hs : m.vsrc = src.map BitVec.toNat) (hd : m.vdst = dst) (r : VecRuns (src.map BitVec.toNat) dst s)
    (he : m.eff (opened s) (opened s) = (opened s).modMe fun t => { t with pend := t.pend ++ l })
    (hl : ∀ p ∈ l, 1 ≤ p.left ∧ Own p) : Does i s (src.contains 30) (src.contains 31) id l := by
  have acts : m.acts (opened s) = true := by simp [SlotSem.acts, lanes]
  obtain ⟨q0, q1⟩ := takes_names acts hs
  rw [← q0, ← q1]
  exact does_push hx (h.ready r hs hd (by simp [funit])) r.quiet h.mark acts he hl

/-- A V slot that writes one vector register (R28, R138). -/
theorem vecGives {i : Instr} {s : State} {g : Guard} {lat : Nat} {d : BitVec 5} {src : List (BitVec 5)} {f : State → Cells}
    {cells : Cells} (hx : exec i s = issueSlot (semVec g lat d (src.map BitVec.toNat) f) s) (later : 2 ≤ lat)
    (hf : f (opened s) = cells) : VecGives i s g lat d src cells := by
  intro r
  subst hf
  refine does_vec hx ⟨rfl, rfl, rfl, rfl, rfl, rfl⟩ rfl rfl rfl rfl r ?_ ?_
  · simp only [semVec, vpos_opened, guardLanes_opened]
    rfl
  · simpa using ⟨by omega, own_later later⟩

/-- Settles O31: each slot writes one register, from sources that read in the opened bundle as before it. -/
theorem vectorArithmetic : Obligations.VectorArithmetic := by
  unfold Obligations.VectorArithmetic
  intro g d a b ty mode s
  refine ⟨?_, ?_, ?_, ?_, ?_, ?_, ?_, ?_, ?_, ?_, ?_, ?_, ?_, ?_, ?_, ?_, ?_, ?_, ?_⟩
  case refine_13 => exact vecGives rfl (Nat.le_refl 2) (by simp only [vreg_opened, Machine.quiet, List.map_map]; rfl)
  all_goals exact vecGives rfl (Nat.le_refl 2) (by simp only [vreg_opened])

/-- Settles O32: likewise. -/
theorem vectorMoves : Obligations.VectorMoves := by
  unfold Obligations.VectorMoves
  intro g d a b ty q n s
  refine ⟨?_, ?_, ?_, ?_, ?_, ?_, ?_, ?_, ?_, ?_, ?_, ?_, ?_⟩ <;>
    exact vecGives rfl (by decide) (by simp only [vreg_opened, sreg_opened, qreg_opened])

end Sys2Proof

namespace Sys2Proof

open Machine

/-- Settles O33: the slots write one register; the ordered fold by its definition. -/
theorem vectorReductions : Obligations.VectorReductions := by
  unfold Obligations.VectorReductions
  refine ⟨fun g d a op rz ty ord s => ⟨?_, ?_, ?_, ?_⟩, fun ty md t => ?_, fun ty md ts t more => ?_⟩
  iterate 4 exact vecGives rfl (by decide) (by simp only [vreg_opened])
  · rfl
  · cases ts with
    | nil => exact absurd rfl more
    | cons x xs => simp only [foldOrdered, List.cons_append, List.foldl_append, List.foldl_cons, List.foldl_nil]

/-! ### Lane predicates and elements -/

theorem own_lanes (q : Nat) (mask v : Lanes) (lat : Nat) (f : Flags) : Own ⟨.lanes q mask v, lat, f⟩ :=
  fun _ => ⟨fun _ _ _ => PVal.noConfusion, fun _ _ => PVal.noConfusion⟩

/-- A V slot that writes one lane predicate (R142, R149). -/
theorem does_lanes {i : Instr} {s : State} {g : Guard} {lat : Nat} {d : BitVec 4} {src : List (BitVec 5)} {f : State → Lanes}
    {v : Lanes} (hx : exec i s = issueSlot (semLanes g lat d (src.map BitVec.toNat) f) s) (left : 1 ≤ lat) (hf : f (opened s) = v)
    (r : VecRuns (src.map BitVec.toNat) none s) :
    Does i s (src.contains 30) (src.contains 31) id [⟨.lanes (s.me.qpos d.toNat) (s.me.guardLanes g) v, lat, 0⟩] := by
  subst hf
  refine does_vec hx ⟨rfl, rfl, rfl, rfl, rfl, rfl⟩ rfl rfl rfl rfl r ?_ ?_
  · simp only [semLanes, qpos_opened, guardLanes_opened]
    rfl
  · simpa using ⟨left, own_lanes _ _ _ _ _⟩

theorem modMe_no_results (s : State) : ((opened s).modMe fun t => { t with pend := t.pend ++ [] }) = opened s := by
  rw [opened_modMe, List.append_nil, me_opened]
  exact (opened_eq s).symm

/-- Settles O34: each slot queues its result, if any. -/
theorem lanePredicatesAndElements : Obligations.LanePredicatesAndElements := by
  unfold Obligations.LanePredicatesAndElements
  refine fun g s => ⟨fun ch d a b ty cl r => ?_, fun r d a b x => ⟨?_, ?_, ?_, ?_, ?_⟩, fun d a b r => ?_, fun d a b r => ?_⟩
  · exact does_lanes rfl (by decide) (by simp only [vreg_opened]) r
  iterate 4 exact does_lanes (src := []) rfl (by decide) (by simp only [qreg_opened]) r
  · refine does_vec (src := []) (m := semQcnt g x a) rfl ⟨rfl, rfl, rfl, rfl, rfl, rfl⟩ rfl rfl rfl rfl r ?_ ?_
    · simp only [semQcnt, qreg_opened, guardLanes_opened]
      rfl
    · simpa [scalarResult] using own_scalar _ _ _ _
  · refine does_vec (m := semVext g d a b) rfl ⟨rfl, rfl, rfl, rfl, rfl, rfl⟩ rfl rfl rfl rfl r ?_ ?_
    · simp only [semVext, sreg_opened, guardLanes_opened, vreg_opened]
      split
      · rfl
      · exact (modMe_no_results s).symm
    · split
      · simpa [scalarResult] using own_scalar _ _ _ _
      · simp
  · refine does_vec (src := []) (m := semVins g d a b) rfl ⟨rfl, rfl, rfl, rfl, rfl, rfl⟩ rfl rfl rfl rfl r ?_ ?_
    · simp only [semVins, sreg_opened, guardLanes_opened, vpos_opened]
      split
      · rfl
      · exact (modMe_no_results s).symm
    · split
      · exact List.forall_mem_singleton.2 ⟨Nat.le_succ 1, own_later (Nat.le_refl 2)⟩
      · simp

end Sys2Proof

namespace Sys2Proof

open Machine

/-! ### F slots -/

theorem countRegion_fBusy (n : Nat) (c : Core) : (c.countRegion n).fBusy = c.fBusy := by
  unfold Core.countRegion
  dsimp only
  cases c.regions.get none n <;> (dsimp only; cases c.rerun <;> dsimp only; try split) <;> rfl

theorem fBusy_past (s : State) (t : Task) : ((past s t).core s.cur.coreRef).fBusy = s.here.fBusy := by
  rw [past, State.core_modCore, countRegion_fBusy, State.setTask, State.putTask, State.core_modCore]
  rfl

/-- The state after an F slot's own effect: the unit is occupied (R151). -/
def occupied (s : State) : State := s.modHere fun c => { c with fBusy := 4 }

theorem onlyTask_occupied (s : State) : OnlyTask s (occupied s) := OnlyTask.modCore s (fun c => { c with fBusy := 4 }) fun _ => ⟨rfl, rfl⟩

theorem task_occupied (s : State) : (occupied s).task s.cur = s.task s.cur :=
  task_modCore_tasks s s.cur (fun c => { c with fBusy := 4 }) fun _ => rfl

/-- A ready F slot with a steady change of its task and results: it occupies the unit. -/
theorem fDoes {i : Instr} {m : SlotSem} {s u : State} {f : Task → Task} {l : List Pending} (hx : exec i s = issueSlot m s)
    (ready : Ready m s) (q : Quiet s) (hm : m.mark = false) (happ : m.apply (opened s) (opened s) = occupied u) (only : OnlyTask s u)
    (task : u.task s.cur = { f (opened s).me with pend := s.me.pend ++ l }) (hf : Steady f) (hl : ∀ p ∈ l, 1 ≤ p.left ∧ Own p) :
    FDoes i s (m.takes (opened s) 0) (m.takes (opened s) 1) f l := by
  have cur : (occupied u).cur = s.cur := only.cur
  have held : (occupied u).task s.cur = { f (opened s).me with pend := s.me.pend ++ l } := by
    rw [← task, ← only.cur]
    exact task_occupied u
  have next := exec_quiet hx ready q hm happ cur held hf hl
  have mine := task_past (occupied u) (taskPast s (m.takes (opened s) 0) (m.takes (opened s) 1) f l)
  have busy := fBusy_past (occupied u) (taskPast s (m.takes (opened s) 0) (m.takes (opened s) 1) f l)
  rw [cur] at mine busy
  refine ⟨_, next, (only.trans (onlyTask_occupied u)).trans (onlyTask_past ..), busy.trans ?_, mine⟩
  exact congrArg Core.fBusy (State.core_modCore u u.cur.coreRef fun c => { c with fBusy := 4 })

/-- An F slot under a true guard whose operands are there, with the unit free. -/
theorem fDoes_acts {i : Instr} {m : SlotSem} {s : State} {src : List (BitVec 5)} {dst : Option Nat} {f : Task → Task}
    {l : List Pending} (hx : exec i s = issueSlot m s) (h : VecSlot m) (funit : m.funit = true)
    (hs : m.vsrc = src.map BitVec.toNat) (hd : m.vdst = dst) (r : VecRuns (src.map BitVec.toNat) dst s)
    (guard : s.me.guardOn m.guard = true) (free : s.here.fBusy = 0)
    (he : m.eff (opened s) (opened s) = (opened s).modMe fun t => { f t with pend := t.pend ++ l }) (hf : Steady f)
    (hl : ∀ p ∈ l, 1 ≤ p.left ∧ Own p) : FDoes i s (src.contains 30) (src.contains 31) f l := by
  have acts : m.acts (opened s) = true := acts_opened guard
  obtain ⟨q0, q1⟩ := takes_names acts hs
  have happ : m.apply (opened s) (opened s) = occupied ((opened s).modMe fun t => { f t with pend := t.pend ++ l }) := by
    rw [SlotSem.apply, if_pos acts, if_pos funit, he]
    rfl
  have task : ((opened s).modMe fun t => { f t with pend := t.pend ++ l }).task s.cur =
      { f (opened s).me with pend := s.me.pend ++ l } := by
    show ((opened s).modMe _).me = _
    rw [State.me_modMe, me_opened]
  rw [← q0, ← q1]
  exact fDoes hx (h.ready r hs hd fun _ => free) r.quiet h.mark happ ((OnlyTask.opened s).modMe _) task hf hl

/-- An F slot that writes one vector register (R153, R154). -/
theorem fGives {i : Instr} {s : State} {g : Guard} {lat : Nat} {d : BitVec 5} {src : List (BitVec 5)} {f : State → Cells}
    {cells : Cells} (hx : exec i s = issueSlot (semF g lat d (src.map BitVec.toNat) f) s) (later : 2 ≤ lat)
    (hf : f (opened s) = cells) : FGives i s g lat d src id cells := by
  intro r guard free
  subst hf
  refine fDoes_acts hx ⟨rfl, rfl, rfl, rfl, rfl, rfl⟩ rfl rfl rfl r guard free ?_ steady_id
    (List.forall_mem_singleton.2 ⟨Nat.le_of_lt later, own_later later⟩)
  simp only [semF, vpos_opened]
  rfl

/-- The slots of the F unit: scalar guards, any core, no region opened. -/
theorem funit_slot {i : Instr} {m : SlotSem} (h : slotSem i = some m) (hf : m.funit = true) :
    m.place = .any ∧ m.lanes = false ∧ m.mark = false := by
  cases i <;> cases h <;> first | exact ⟨rfl, rfl, rfl⟩ | exact absurd hf Bool.false_ne_true

/-- A slot with a scalar guard opens its bundle as any other, if it marks no region. -/
theorem fBusy_atPeak (s : State) (l : Slots) : ((opened s).atPeak l).here.fBusy = s.here.fBusy := by
  unfold State.atPeak State.modMe State.here
  rw [show ((opened s).modTask (opened s).cur _).cur = (opened s).cur from rfl, State.core_modTask]
  exact fBusy_opened s

/-- While the unit is occupied an F slot whose own checks pass waits (R151). -/
theorem exec_funit_waits {i : Instr} {m : SlotSem} {s : State} (h : slotSem i = some m) (funit : m.funit = true) (may : MayIssue s)
    (legal : m.isIllegal s = false) (check : m.execTrap 0 ((s.atIssue [(0, m)]).atPeak [(0, m)]) = none) (busy : s.here.fBusy ≠ 0) :
    exec i s = .next s := by
  obtain ⟨place, _, mark⟩ := funit_slot h funit
  have allowed : m.isDenied s = false := by simp [SlotSem.isDenied, place]
  rw [atIssue_opened m s mark] at check
  have stall : stallAll [(0, m)] (s.atIssue [(0, m)]) s = some s := by
    rw [atIssue_opened m s mark]
    simp only [stallAll, List.foldl_cons, List.foldl_nil, SlotSem.stall, check, fBusy_atPeak, funit]
    simp [busy]
  rw [exec_slot h, issueSlot, issueOne, may.budget]
  simp [issueSems, legal, allowed, may.holds, stall, Attempt.state]

/-- With a false guard and the unit free an F slot occupies the unit and writes nothing (R28, R151). -/
theorem exec_funit_idle {i : Instr} {m : SlotSem} {s : State} (h : slotSem i = some m) (funit : m.funit = true) (may : MayIssue s)
    (q : Quiet s) (legal : m.isIllegal s = false) (guard : s.me.guardOn m.guard = false) (free : s.here.fBusy = 0) :
    FDoes i s false false id [] := by
  obtain ⟨place, lanes, mark⟩ := funit_slot h funit
  have idle : ∀ u : State, u.me.guardOn m.guard = false → m.acts u = false := fun u => acts_of_guard_false lanes
  have opening : m.acts (opened s) = false := idle _ (by rw [guardOn_opened, guard])
  have peak : m.acts ((opened s).atPeak [(0, m)]) = false := by
    refine idle _ ?_
    rw [State.atPeak, State.me_modMe]
    exact (guardOn_opened s m.guard).trans guard
  have ready : Ready m s := by
    refine ⟨may, legal, by simp [SlotSem.isDenied, place], ?_, ?_⟩
    · rw [atIssue_opened m s mark]
      simp [stallAll, SlotSem.stall, SlotSem.execTrap, peak, fBusy_atPeak, free]
    · rw [atIssue_opened m s mark]
      simp [SlotSem.execTrap, opening]
  have untaken : ∀ n, m.takes (opened s) n = false := by simp [SlotSem.takes, opening]
  have := fDoes (u := opened s) (f := id) (l := []) (exec_slot h s) ready q mark
    (by rw [SlotSem.apply, opening, if_pos funit]; rfl) (OnlyTask.opened s)
    (by show (opened s).me = _; rw [me_opened, List.append_nil, id_eq]) steady_id (by simp)
  rw [untaken, untaken] at this
  exact this

/-- Settles O35: each function's slot writes one register; the unit's occupancy stalls or is taken whatever the guard. -/
theorem specialFunctions : Obligations.SpecialFunctions := by
  unfold Obligations.SpecialFunctions
  intro g d a b mode s
  refine ⟨?_, ?_, ?_, ?_, ?_, ?_, ?_, ?_, ?_, ?_, ?_, fun i m h funit may legal check busy => exec_funit_waits h funit may legal check busy,
    fun i m h funit may q legal guard free => exec_funit_idle h funit may q legal guard free⟩
  all_goals exact fGives rfl (by decide) (by simp only [vreg_opened])

/-! ### Conversions and the generator -/

theorem steady_rngTake (n : Nat) : Steady (Task.rngTake n) :=
  ⟨fun _ _ _ _ _ _ _ => rfl, fun _ => rfl, fun _ => rfl, fun _ => rfl, fun _ => rfl⟩

@[simp] theorem rngHead_opened (s : State) : (opened s).me.rngHead = s.me.rngHead := by
  rw [me_opened]
  rfl

/-- An F slot that takes a random word under stochastic rounding (R78). -/
theorem fGives_take {i : Instr} {s : State} {g : Guard} {d : BitVec 5} {src : List (BitVec 5)} {f : State → Cells} {rm : BitVec 2}
    {cells : Cells} (hx : exec i s = issueSlot (semTake (semF g 8 d (src.map BitVec.toNat) f) (decide (rm = 2))) s)
    (hf : f (opened s) = cells) : FGives i s g 8 d src (if rm = 2 then Task.rngTake 1 else id) cells := by
  by_cases sr : rm = 2
  · rw [if_pos sr]
    rw [decide_eq_true sr] at hx
    intro r guard free
    subst hf
    have later : 2 ≤ 8 := by decide
    refine fDoes_acts hx ⟨rfl, rfl, rfl, rfl, rfl, rfl⟩ rfl rfl rfl r guard free ?_ (steady_rngTake 1)
      (List.forall_mem_singleton.2 ⟨Nat.le_of_lt later, own_later later⟩)
    simp only [semTake, semF, vpos_opened, if_true, State.push, State.modMe_modMe]
    rfl
  · rw [if_neg sr]
    rw [decide_eq_false sr] at hx
    exact fGives hx (by decide) hf

/-- Settles O36: each conversion's slot writes one register; the generator's two slots change it alone. -/
theorem conversionsAndGenerator : Obligations.ConversionsAndGenerator := by
  unfold Obligations.ConversionsAndGenerator
  intro g d a b src dst rm s
  refine ⟨?_, ?_, ?_, fun r free => ⟨?_, ?_⟩⟩
  · exact fGives_take rfl (by simp only [vreg_opened, rngHead_opened])
  · exact fGives_take rfl (by simp only [vreg_opened, rngHead_opened])
  · exact fGives rfl (by decide) (by simp only [vreg_opened])
  · have none : VecRuns [] none s := ⟨r.may, r.quiet, by simp, by simp, by simp, by simp⟩
    refine fDoes_acts (m := semRngseed g a b) (src := []) rfl ⟨rfl, rfl, rfl, rfl, rfl, rfl⟩ rfl rfl rfl none r.guard free ?_
      ⟨fun _ _ _ _ _ _ _ => rfl, fun _ => rfl, fun _ => rfl, fun _ => rfl, fun _ => rfl⟩ (by simp)
    simp only [semRngseed, sreg_opened, List.append_nil]
  · have none : VecRuns [] none s := ⟨r.may, r.quiet, by simp, by simp, by simp, by simp⟩
    refine fDoes_acts (m := semRngskip g a) (src := []) rfl ⟨rfl, rfl, rfl, rfl, rfl, rfl⟩ rfl rfl rfl none r.guard free ?_
      (steady_rngTake _) (by simp)
    simp only [semRngskip, sreg_opened, List.append_nil]
    rfl

end Sys2Proof

namespace Sys2Proof

open Machine

/-! ### Changes that spare every task -/

/-- A change within `mc` and `ms` that leaves the issuing task too. -/
structure Spares (mc : Core → Core) (ms : State → State) (s t : State) : Prop extends Frame mc ms s t where
  cur : t.cur = s.cur
  own : t.task s.cur = s.task s.cur

theorem Spares.refl (mc : Core → Core) (ms : State → State) (s : State) : Spares mc ms s s := ⟨Frame.refl .., rfl, rfl⟩

theorem Spares.trans {mc : Core → Core} {ms : State → State} {s t u : State} (h : Spares mc ms s t) (k : Spares mc ms t u) :
    Spares mc ms s u := by
  refine ⟨h.toFrame.trans k.toFrame h.cur, k.cur.trans h.cur, ?_⟩
  have := k.own
  rw [h.cur] at this
  exact this.trans h.own

theorem Spares.mono {mc mc' : Core → Core} {ms ms' : State → State} {s t : State} (h : Spares mc ms s t)
    (hc : ∀ a b, mc a = mc b → mc' a = mc' b) (hs : ∀ a b, ms a = ms b → ms' a = ms' b) : Spares mc' ms' s t :=
  ⟨h.toFrame.mono hc hs, h.cur, h.own⟩

theorem Spares.of_cores (mc : Core → Core) {ms : State → State} {s t : State} (cores : t.cores = s.cores) (cur : t.cur = s.cur)
    (rest : ms t = ms s) : Spares mc ms s t :=
  ⟨Frame.of_cores mc cores rest, cur, by rw [State.task, State.task?, State.core, cores]; rfl⟩

theorem Spares.modCore {mc : Core → Core} {ms : State → State} (s : State) (f : Core → Core)
    (tasks : (f (s.core s.cur.coreRef)).tasks = (s.core s.cur.coreRef).tasks)
    (core : mc (f (s.core s.cur.coreRef)) = mc (s.core s.cur.coreRef)) (rest : ms (s.modCore s.cur.coreRef f) = ms s) :
    Spares mc ms s (s.modCore s.cur.coreRef f) :=
  ⟨Frame.modCore s f tasks core rest, rfl, by rw [State.task, task?_modCore_tasks s _ tasks, State.task]⟩

/-- Changes in turn, each of which spares the tasks. -/
theorem Spares.foldl {mc : Core → Core} {ms : State → State} {α : Type} (step : State → α → State)
    (each : ∀ t a, Spares mc ms t (step t a)) (s : State) (l : List α) : Spares mc ms s (l.foldl step s) := by
  induction l generalizing s with
  | nil => exact Spares.refl ..
  | cons a l ih => exact (each s a).trans (ih _)

/-- What an access of a task may change beside its task: lines, requests and translations of its core, and of each die
translations, its time mark, sequence numbers and output ports; of the module what `ms` blanks. -/
structure Accessed (ms : State → State) (s t : State) : Prop extends Spares coreBesideLines ms s t where
  dies : ∀ d, dieBesideLines (t.die d) = dieBesideLines (s.die d)

theorem Accessed.refl (ms : State → State) (s : State) : Accessed ms s s := ⟨Spares.refl .., fun _ => rfl⟩

theorem Accessed.trans {ms : State → State} {s t u : State} (h : Accessed ms s t) (k : Accessed ms t u) : Accessed ms s u :=
  ⟨h.toSpares.trans k.toSpares, fun d => (k.dies d).trans (h.dies d)⟩

theorem Accessed.mono {ms ms' : State → State} {s t : State} (h : Accessed ms s t) (hs : ∀ a b, ms a = ms b → ms' a = ms' b) :
    Accessed ms' s t := ⟨h.toSpares.mono (fun _ _ h => h) hs, h.dies⟩

theorem Accessed.foldl {ms : State → State} {α : Type} (step : State → α → State) (each : ∀ t a, Accessed ms t (step t a))
    (s : State) (l : List α) : Accessed ms s (l.foldl step s) := by
  induction l generalizing s with
  | nil => exact Accessed.refl ..
  | cons a l ih => exact (each s a).trans (ih _)

theorem Accessed.of_cores {ms : State → State} {s t : State} (cores : t.cores = s.cores) (cur : t.cur = s.cur) (rest : ms t = ms s)
    (dies : t.dies = s.dies) : Accessed ms s t :=
  ⟨Spares.of_cores _ cores cur rest, fun d => by rw [State.die, State.die, dies]⟩

theorem Accessed.modCore {ms : State → State} (s : State) (f : Core → Core)
    (tasks : (f (s.core s.cur.coreRef)).tasks = (s.core s.cur.coreRef).tasks)
    (core : coreBesideLines (f (s.core s.cur.coreRef)) = coreBesideLines (s.core s.cur.coreRef))
    (rest : ms (s.modCore s.cur.coreRef f) = ms s) : Accessed ms s (s.modCore s.cur.coreRef f) :=
  ⟨Spares.modCore s f tasks core rest, fun _ => rfl⟩

theorem Accessed.modDie {ms : State → State} (s : State) (d : Nat) (f : Die → Die)
    (die : dieBesideLines (f (s.die d)) = dieBesideLines (s.die d)) (rest : ms (s.modDie d f) = ms s) : Accessed ms s (s.modDie d f) := by
  refine ⟨Spares.of_cores _ rfl rfl rest, fun k => ?_⟩
  by_cases h : k = d
  · rw [h, State.die_modDie, die]
  · rw [State.die_modDie_other _ _ h]

/-- Whether a blanked module still says nothing of what an access changes of it. -/
structure Unaccessed (ms : State → State) : Prop where
  cores : ∀ (s : State) c, ms { s with cores := c } = ms s
  dies : ∀ (s : State) d, ms { s with dies := d } = ms s
  sent : ∀ (s : State) l, ms { s with sent := l } = ms s
  freeCtr : ∀ (s : State) n, ms { s with freeCtr := n } = ms s
  hwm : ∀ (s : State) n, ms { s with hwm := n } = ms s

theorem unaccessed_lines : Unaccessed moduleBesideLines := ⟨fun _ _ => rfl, fun _ _ => rfl, fun _ _ => rfl, fun _ _ => rfl, fun _ _ => rfl⟩

section
variable {ms : State → State} (hms : Unaccessed ms)
include hms

theorem accessed_dropLoads (s : State) (r : TaskRef) (tok : Option Nat) : Accessed ms s (s.dropLoads r tok) :=
  .of_cores rfl rfl (hms.sent ..) rfl

theorem accessed_tookFree (s : State) (n : Nat) : Accessed ms s (s.tookFree n) := .of_cores rfl rfl (hms.freeCtr ..) rfl

theorem accessed_cacheTlb (s : State) {c : CoreRef} (hc : c = s.cur.coreRef) (e : TlbEntry) : Accessed ms s (s.cacheTlb c e) := by
  subst hc
  have core : Accessed ms s (s.modCore s.cur.coreRef fun k => { k with tlb := (e :: k.tlb.filter fun x => !decide (x = e)).take 64 }) :=
    .modCore s _ rfl rfl (hms.cores ..)
  exact core.trans (.modDie _ _ (fun d => { d with tlb := (e :: d.tlb.filter fun x => !decide (x = e)).take 8192 }) rfl (hms.dies ..))

/-- The translations of an access kept (R232). -/
theorem accessed_keepPlans (s : State) (l : List Plan) : Accessed ms s (s.keepPlans l) := by
  have cached : ∀ (es : List TlbEntry) (t : State), Accessed ms t (es.foldl (fun t e => t.cacheTlb t.cur.coreRef e) t) := fun es t =>
    .foldl _ (fun t e => accessed_cacheTlb hms t rfl e) t es
  exact ((accessed_dropLoads hms s s.cur (some walkTok)).trans (cached _ _)).trans (accessed_tookFree hms _ _)

/-- Lines let go (R167). -/
theorem accessed_modHere (s : State) (f : Core → Core) (tasks : ∀ c, (f c).tasks = c.tasks)
    (core : ∀ c, coreBesideLines (f c) = coreBesideLines c) : Accessed ms s (s.modHere f) :=
  .modCore s f (tasks _) (core _) (hms.cores ..)

end

end Sys2Proof

namespace Sys2Proof

open Machine

/-! ### Loads -/

/-- Keeping translations changes of the core its translations alone. -/
theorem core_keepPlans (s : State) (l : List Plan) :
    { (s.keepPlans l).core s.cur.coreRef with tlb := [] } = { s.core s.cur.coreRef with tlb := [] } := by
  have cached : ∀ (es : List TlbEntry) (t : State), t.cur = s.cur →
      { (es.foldl (fun t e => t.cacheTlb t.cur.coreRef e) t).core s.cur.coreRef with tlb := [] } = { t.core s.cur.coreRef with tlb := [] } := by
    intro es
    induction es with
    | nil => exact fun _ _ => rfl
    | cons e es ih =>
      intro t hc
      refine (ih (t.cacheTlb t.cur.coreRef e) hc).trans ?_
      rw [hc, State.cacheTlb, State.core_modDie, State.core_modCore]
  exact cached (l.filterMap Plan.entry) (s.dropLoads s.cur (some walkTok)) rfl

/-- The state after the checks of a load, with its task's time at the point the access takes. -/
def timed (s : State) (time : W64) : State := s.setTask s.cur { s.me with time := time }

theorem opened_timed (s : State) : opened s = timed s (s.me.time + 1) := rfl

theorem timed_timed (s : State) (a b : W64) : (timed s a).modMe (fun t => { t with time := b }) = timed s b := by
  have cur : (timed s a).cur = s.cur := rfl
  rw [State.modMe, cur, timed, State.setTask_modTask]
  rfl

theorem me_timed (s : State) (a : W64) : (timed s a).me = { s.me with time := a } := State.task_setTask ..

/-- The core after a load: the lines of its slot are let go, and leases of lines held with the write right extended. -/
def loadedCore (slot : Nat) (ro : Bool) (lines : List Nat) (time : W64) (c : Core) : Core :=
  { c.letGo slot with l1 := if ro then (c.letGo slot).l1 else (c.letGo slot).l1.map (L1Line.leased lines time) }

theorem data_loadedCore (slot : Nat) (ro : Bool) (lines : List Nat) (time : W64) (c : Core) :
    (loadedCore slot ro lines time c).l1.map L1Line.data = c.l1.map L1Line.data := by
  have leased : ∀ l : L1Line, (l.leased lines time).data = l.data := fun l => by
    unfold L1Line.leased
    split <;> rfl
  cases ro <;> simp [loadedCore, Core.letGo, L1Line.letGo, List.map_map, Function.comp_def, leased]

/-- The lines of the issuing core changed, its loads forgotten, and its translations kept. -/
def settled (s : State) (f : Core → Core) (r : TaskRef) (l : List Plan) : State := ((s.modHere f).dropLoads r none).keepPlans l

theorem accessed_settled (s : State) (f : Core → Core) (r : TaskRef) (l : List Plan) (tasks : ∀ c, (f c).tasks = c.tasks)
    (core : ∀ c, coreBesideLines (f c) = coreBesideLines c) : Accessed moduleBesideLines s (settled s f r l) :=
  ((accessed_modHere unaccessed_lines s f tasks core).trans (accessed_dropLoads unaccessed_lines _ _ _)).trans
    (accessed_keepPlans unaccessed_lines _ l)

theorem l1_settled (s : State) (f : Core → Core) (r : TaskRef) (l : List Plan) :
    ((settled s f r l).core s.cur.coreRef).l1 = (f (s.core s.cur.coreRef)).l1 := by
  have kept : ((settled s f r l).core s.cur.coreRef).l1 = (((s.modHere f).dropLoads r none).core s.cur.coreRef).l1 :=
    (congrArg Core.l1 (core_keepPlans ((s.modHere f).dropLoads r none) l) :)
  rw [kept, core_dropLoads, State.modHere, State.core_modCore]

theorem afterLoad_ok {s0 s : State} {ro : Bool} {rows : List Row} {l : List Plan} (plan : s0.plan false rows = .ok l) :
    s0.afterLoad s ro rows = settled (s.modMe fun t => { t with time := tmax s.me.time (s0.accessPeak ro rows) })
      (loadedCore s0.cur.slot ro (((l.flatMap Plan.parts).flatMap Piece.lines).map Prod.fst) (tmax s.me.time (s0.accessPeak ro rows))) s0.cur l := by
  rw [State.afterLoad, plan]
  rfl

/-- What a load leaves, apart from its result and its generator: the task's time, lines let go and leases extended, and
what every access may change. -/
theorem afterLoad_opened (s : State) (ro : Bool) (rows : List Row) :
    Accessed moduleBesideLines (timed s (loadTime ro rows s)) ((opened s).afterLoad (opened s) ro rows)
      ∧ (((opened s).afterLoad (opened s) ro rows).core s.cur.coreRef).l1.map L1Line.data = s.here.l1.map L1Line.data := by
  have l1 : ∀ a, ((timed s a).core s.cur.coreRef).l1 = s.here.l1 := fun a => by
    rw [timed, State.setTask, State.putTask, State.core_modCore]
    rfl
  cases plan : (opened s).plan false rows with
  | error e =>
    have time : loadTime ro rows s = s.me.time + 1 := by
      have low : ∀ t : W64, tmax t 0 = t := fun t => if_neg (by simp)
      rw [loadTime, State.accessPeak, plan, me_opened]
      exact low _
    rw [time, ← opened_timed, State.afterLoad, plan]
    exact ⟨Accessed.refl .., by rw [opened_timed, l1]⟩
  | ok l =>
    rw [afterLoad_ok plan, show (opened s).modMe (fun t => { t with time := tmax (opened s).me.time ((opened s).accessPeak ro rows) })
      = timed s (loadTime ro rows s) from timed_timed ..]
    refine ⟨accessed_settled _ _ _ _ (fun _ => rfl) fun _ => rfl, ?_⟩
    have kept := l1_settled (timed s (loadTime ro rows s)) (loadedCore (opened s).cur.slot ro
      (((l.flatMap Plan.parts).flatMap Piece.lines).map Prod.fst) (tmax (opened s).me.time ((opened s).accessPeak ro rows))) (opened s).cur l
    have kept := congrArg (List.map L1Line.data) kept
    rw [data_loadedCore, show (timed s (loadTime ro rows s)).cur = s.cur from rfl, l1] at kept
    exact kept

end Sys2Proof

namespace Sys2Proof

open Machine

/-- The task after an access at a time, its generator stepped n times when P is set (R164, R165). -/
def accessed (s : State) (time : W64) (ag : BitVec 3) (post : BitVec 1) (n : Nat) (t : Task) : Task :=
  if post = 1 then ({ t with time := time } : Task).setAg ag.toNat ((s.me.ag ag.toNat).steps n) else { t with time := time }

theorem steady_accessed (s : State) (time : W64) (ag : BitVec 3) (post : BitVec 1) (n : Nat) : Steady (accessed s time ag post n) := by
  unfold accessed
  by_cases h : post = 1 <;> simp only [h, if_true, if_false] <;>
    exact ⟨fun _ _ _ _ _ _ _ => rfl, fun _ => rfl, fun _ => rfl, fun _ => rfl, fun _ => rfl⟩

/-- The issuing task's generators are those before the bundle. -/
@[simp] theorem ag_opened (s : State) (n : Nat) : (opened s).me.ag n = s.me.ag n := by
  rw [me_opened]
  rfl

theorem ag_timed (s : State) (a : W64) (n : Nat) : (timed s a).me.ag n = s.me.ag n := by
  rw [me_timed]
  rfl

/-- The task of a slot that queues a result and steps a generator. -/
theorem stepAg_push (s0 u : State) (lat : Nat) (v : PVal) (ag : BitVec 3) (post : BitVec 1) (n : Nat) :
    s0.stepAg (u.push lat v) ag post n = u.modMe fun t =>
      if post = 1 then (t.push lat v).setAg ag.toNat ((s0.me.ag ag.toNat).steps n) else t.push lat v := by
  unfold State.stepAg
  by_cases h : post = 1
  · simp only [h, if_true, State.push]
    exact State.modMe_modMe ..
  · simp only [h, if_false]
    rfl

/-- The peak of a bundle of one load. -/
theorem atPeak_load {g : Guard} {ro : Bool} {rows : State → List Row} {vdst : Option Nat}
    {put : State → List (List Byte) → State → State} {s : State} {r : List Row} (guard : s.me.guardOn g = true) (hr : rows (opened s) = r) :
    (opened s).atPeak [(0, semLoad g ro rows vdst put)] = timed s (loadTime ro r s) := by
  have acts : (semLoad g ro rows vdst put).acts (opened s) = true := acts_opened guard
  subst hr
  simp only [State.atPeak, List.filter_cons, acts, if_true, List.filter_nil, List.foldl_cons, List.foldl_nil]
  rw [opened_modMe, timed, loadTime, me_opened]
  rfl

/-- A result still in flight past its bundle. -/
theorem later_result (v : PVal) {lat : Nat} (f : Flags) (h : 2 ≤ lat) : ∀ p ∈ [(⟨v, lat, f⟩ : Pending)], 1 ≤ p.left ∧ Own p :=
  List.forall_mem_singleton.2 ⟨Nat.le_of_lt h, own_later h⟩

/-- A change of the task alone, as an access sees it. -/
theorem OnlyTask.lines {s t : State} (h : OnlyTask s t) : Frame coreBesideLines moduleBesideLines s t :=
  h.mono (fun _ _ h => congrArg (fun c => { c with l1 := [], l1req := [], tlb := [], hwm := 0 }) h)
    fun _ _ h => congrArg (fun x => { x with freeCtr := 0, sent := [], hwm := 0, dies := [] }) h

/-- A load whose checks pass and whose lines and replies are there, with its destination backed, completes. -/
theorem completes_load {i : Instr} {g : Guard} {ro : Bool} {rows : State → List Row} {vdst : Option Nat} {s : State} {r : List Row}
    {ag : BitVec 3} {post : BitVec 1} {n : Nat} {value : State → List (List Byte) → PVal} {v : PVal}
    (hx : exec i s = issueSlot (semLoad g ro rows vdst fun s0 b u => s0.stepAg (u.push 3 (value s0 b)) ag post n) s)
    (run : Runs g s) (dest : ∀ d ∈ vdst, s.me.backed d = true) (opening : rows (opened s) = r)
    (peak : rows (timed s (loadTime ro r s)) = r) (ready : LoadReady ro r s)
    (hv : value (opened s) ((opened s).readRows ro r) = v) :
    Completes i s coreBesideLines moduleBesideLines (accessed s (loadTime ro r s) ag post n) [⟨v, 3, 0⟩] fun t =>
      (t.core s.cur.coreRef).l1.map L1Line.data = s.here.l1.map L1Line.data
      ∧ ∀ die, dieBesideLines (t.die die) = dieBesideLines (s.die die) := by
  generalize hm : semLoad g ro rows vdst (fun s0 b u => s0.stepAg (u.push 3 (value s0 b)) ag post n) = m at hx
  have acts : m.acts (opened s) = true := by rw [← hm]; exact acts_opened run.guard
  have untaken : ∀ u q, m.takes u q = false := fun u q => by rw [← hm]; simp [SlotSem.takes, semLoad]
  have checks : ∀ u, m.acts u = true → m.execTrap 0 u = u.accessTrap false ro (rows u) := fun u h => by
    rw [SlotSem.execTrap, if_pos h]
    simp only [SlotSem.queueTrap, untaken]
    rw [← hm]
    rfl
  obtain ⟨pass, hold⟩ := ready.there
  rw [show (opened s).modMe (fun t => { t with time := loadTime ro r s }) = timed s (loadTime ro r s) from timed_timed ..] at pass hold
  have peaked : (opened s).atPeak [(0, m)] = timed s (loadTime ro r s) := by rw [← hm]; exact atPeak_load run.guard opening
  have acts' : m.acts (timed s (loadTime ro r s)) = true := by
    rw [← hm, SlotSem.acts, me_timed]
    exact (Bool.or_eq_true _ _).mpr (.inr run.guard)
  have able : Ready m s := by
    refine ⟨run.may, ?_, by rw [← hm]; simp [SlotSem.isDenied, semLoad], ?_, ?_⟩
    · cases vdst with
      | none => rw [← hm]; simp [SlotSem.isIllegal, semLoad]
      | some d => rw [← hm]; simp [SlotSem.isIllegal, semLoad, dest d rfl]
    · rw [atIssue_opened m s (by rw [← hm]; rfl)]
      simp only [stallAll, List.foldl_cons, List.foldl_nil, peaked, SlotSem.stall, checks _ acts', peak, pass, acts', SlotSem.queueWait, untaken]
      rw [← hm]
      simp [semLoad, peak, hold]
    · rw [atIssue_opened m s (by rw [← hm]; rfl), checks _ acts, opening]
      exact ready.checks
  obtain ⟨after, data⟩ := afterLoad_opened s ro r
  generalize hA : (opened s).afterLoad (opened s) ro r = A at after data
  have happ : m.apply (opened s) (opened s) = A.modMe fun t =>
      if post = 1 then (t.push 3 v).setAg ag.toNat ((s.me.ag ag.toNat).steps n) else t.push 3 v := by
    rw [SlotSem.apply, if_pos acts, ← hm]
    simp only [semLoad, opening, hA, hv, stepAg_push, ag_opened]
    rfl
  have cur : A.cur = s.cur := after.cur
  have me : A.me = { s.me with time := loadTime ro r s } := by
    have own := after.own
    rw [show (timed s (loadTime ro r s)).cur = s.cur from rfl] at own
    rw [State.me, cur, own]
    exact me_timed ..
  have task : (A.modMe fun t => if post = 1 then (t.push 3 v).setAg ag.toNat ((s.me.ag ag.toNat).steps n) else t.push 3 v).task s.cur =
      { accessed s (loadTime ro r s) ag post n (opened s).me with pend := s.me.pend ++ [⟨v, 3, 0⟩] } := by
    have after := State.me_modMe A fun t => if post = 1 then (t.push 3 v).setAg ag.toNat ((s.me.ag ag.toNat).steps n) else t.push 3 v
    rw [State.me, show (A.modMe _).cur = s.cur from cur] at after
    rw [after, me, accessed, me_opened]
    split <;> rfl
  have next := exec_quiet hx able run.quiet (by rw [← hm]; rfl) happ cur task (steady_accessed ..)
    (later_result v 0 (by decide))
  rw [untaken, untaken] at next
  refine ⟨_, next, ?_, ?_, ?_, fun die => after.dies die⟩
  · have opening : OnlyTask s (timed s (loadTime ro r s)) := OnlyTask.modTask s fun _ => _
    have push : OnlyTask A (A.modMe fun t => if post = 1 then (t.push 3 v).setAg ag.toNat ((s.me.ag ag.toNat).steps n) else t.push 3 v) :=
      OnlyTask.modTask ..
    exact ((opening.lines.trans after.toFrame rfl).trans push.lines cur).trans (onlyTask_past ..).lines cur
  · have mine := task_past (A.modMe fun t => if post = 1 then (t.push 3 v).setAg ag.toNat ((s.me.ag ag.toNat).steps n) else t.push 3 v)
      (taskPast s false false (accessed s (loadTime ro r s) ag post n) [⟨v, 3, 0⟩])
    rw [show (A.modMe _).cur = s.cur from cur] at mine
    exact mine
  · have kept : ((past (A.modMe fun t => if post = 1 then (t.push 3 v).setAg ag.toNat ((s.me.ag ag.toNat).steps n) else t.push 3 v)
        (taskPast s false false (accessed s (loadTime ro r s) ag post n) [⟨v, 3, 0⟩])).core s.cur.coreRef).l1 = (A.core s.cur.coreRef).l1 := by
      have first : OnlyTask A (A.modMe fun t => if post = 1 then (t.push 3 v).setAg ag.toNat ((s.me.ag ag.toNat).steps n) else t.push 3 v) :=
        OnlyTask.modTask ..
      have both := (first.trans (onlyTask_past _ (taskPast s false false (accessed s (loadTime ro r s) ag post n) [⟨v, 3, 0⟩]))).core
      rw [cur] at both
      exact (congrArg Core.l1 both :)
    rw [kept, data]

end Sys2Proof

namespace Sys2Proof

open Machine

/-- The part of a row in the window of a task. -/
def windowPart (c : CoreRef) (t : Task) (r : Row) : Plan := ⟨[.near (windowAddr c t (r.ea.toNat % 2 ^ 22)) r.size], none⟩

/-- A row in the window passes the checks of its task. -/
theorem rowTrap_inWindow {t : Task} {r : Row} (h : InWindow t r) (bar : t.barLeft = 0) : t.rowTrap r = none := by
  unfold Task.rowTrap
  simp only [h.scratch, h.zeros, h.aligned, Nat.not_lt.2 h.inside, Task.moving, bar]
  rfl

/-- The plan of rows in the window: each is its own part (R160). -/
theorem planRows_inWindow {p : State} {write : Bool} (bar : p.me.barLeft = 0) : ∀ (n : Nat) (rows : List Row), (∀ r ∈ rows, InWindow p.me r) →
    p.planRows write n rows = .ok (rows.map (windowPart p.cur.coreRef p.me))
  | _, [], _ => rfl
  | n, r :: rest, h => by
    have first := h r (List.mem_cons_self ..)
    have place : p.planRow n write r = .ok (windowPart p.cur.coreRef p.me r) := by rw [State.planRow, if_pos first.scratch]; rfl
    simp only [State.planRows, rowTrap_inWindow first bar, place,
      planRows_inWindow bar (n + 1) rest fun q hq => h q (List.mem_cons_of_mem _ hq), List.map_cons]

section
variable {p : State} {rows : List Row} (h : ∀ r ∈ rows, InWindow p.me r) (bar : p.me.barLeft = 0)
include h bar

theorem plan_inWindow (write : Bool) : p.plan write rows = .ok (rows.map (windowPart p.cur.coreRef p.me)) :=
  planRows_inWindow bar p.freeCtr rows h

/-- Rows in the window bring no trap. -/
theorem accessTrap_inWindow (write ro : Bool) : p.accessTrap write ro rows = none := by
  simp only [State.accessTrap, plan_inWindow h bar, partsOf, List.findSome?_eq_none_iff, List.mem_flatMap, List.mem_map]
  rintro x ⟨q, ⟨r, -, rfl⟩, hx⟩
  obtain rfl := List.mem_singleton.1 hx
  rfl

/-- Rows in the window touch no line of HBM. -/
theorem lines_inWindow (write : Bool) : (partsOf (p.plan write rows)).flatMap Piece.lines = [] := by
  simp only [plan_inWindow h bar, partsOf, List.flatMap_eq_nil_iff, List.mem_flatMap, List.mem_map]
  rintro x ⟨q, ⟨r, -, rfl⟩, hx⟩
  obtain rfl := List.mem_singleton.1 hx
  rfl

/-- Rows in the window wait for nothing. -/
theorem accessWait_inWindow (s : State) (write ro : Bool) : p.accessWait s write ro rows = none := by
  have idle : ∀ (l : List (Plan × Row)), (∀ e ∈ l, ∃ r, e.1 = windowPart p.cur.coreRef p.me r) → ∀ a : Bool × State, a.1 = false →
      (l.foldl (fun (a : Bool × State) e =>
        let b := e.1.parts.foldl (p.waitPart (rightOf write ro)) a
        (b.1, b.2.modHere fun c => c.nameLines p.cur.slot e.2.ea)) a).1 = false := by
    intro l
    induction l with
    | nil => exact fun _ _ ha => ha
    | cons e l ih =>
      intro hl a ha
      obtain ⟨r, hr⟩ := hl e (List.mem_cons_self ..)
      refine ih (fun e he => hl e (List.mem_cons_of_mem _ he)) _ ?_
      simp only [hr]
      exact ha
  simp only [State.accessWait, plan_inWindow h bar]
  refine if_neg ?_
  rw [idle _ ?_ _ rfl]
  · decide
  · intro e he
    obtain ⟨r, -, hr⟩ := List.mem_map.1 (List.of_mem_zip he).1
    exact ⟨r, hr.symm⟩

/-- A load of rows in the window reads the window's bytes. -/
theorem readRows_inWindow (ro : Bool) : p.readRows ro rows =
    rows.map fun r => p.mem.bytes (windowAddr p.cur.coreRef p.me (r.ea.toNat % 2 ^ 22)) r.size := by
  simp only [State.readRows, plan_inWindow h bar, List.map_map]
  refine List.map_congr_left fun r _ => ?_
  simp only [Function.comp, windowPart, List.flatMap_cons, List.flatMap_nil, List.append_nil]
  rfl

end

/-- Settles O37: LD and VLD are the general load `completes_load`; rows in the window are planned as their own parts. -/
theorem loadsReachTheWindowAndTheLines : Obligations.LoadsReachTheWindowAndTheLines := by
  intro g d ag post ty off s run
  refine ⟨fun ro ready => ?_, fun ro ready dest => ?_, fun ro rows inside => ?_⟩
  · have opening : scalarRows ag off (scalarBytes ty.toNat) (opened s) = scalarRows ag off (scalarBytes ty.toNat) s := by
      simp only [scalarRows, ag_opened]
    have peak := fun a => show scalarRows ag off (scalarBytes ty.toNat) (timed s a) = scalarRows ag off (scalarBytes ty.toNat) s by
      simp only [scalarRows, ag_timed]
    cases ro <;> exact completes_load (value := fun _ b => .scalar d.toNat (extendLoad ty.toNat (b.headD []))) rfl run
      (fun d h => nomatch h) opening (peak _) ready rfl
  · have opening : vectorRows ag off ty.toNat (opened s) = vectorRows ag off ty.toNat s := by
      simp only [vectorRows, ag_opened]
    have peak := fun a => show vectorRows ag off ty.toNat (timed s a) = vectorRows ag off ty.toNat s by
      simp only [vectorRows, ag_timed]
    have place : (opened s).me.vpos d.toNat = s.me.vpos d.toNat := by rw [me_opened]; rfl
    have value : ∀ b : List (List Byte), PVal.vec ((opened s).me.vpos d.toNat) (BitVec.allOnes 1024) (b.flatMap (cellsOf ty.toNat)) =
        .vec (s.me.vpos d.toNat) (BitVec.allOnes 1024) (b.flatMap (cellsOf ty.toNat)) := fun _ => by rw [place]
    cases ro <;> exact completes_load
      (value := fun u b => .vec (u.me.vpos d.toNat) (BitVec.allOnes 1024) (b.flatMap (cellsOf ty.toNat))) rfl run
      (fun q hq => Option.mem_some.1 hq ▸ dest) opening (peak _) ready (value _)
  · have first : ∀ r ∈ rows, InWindow (opened s).me r := fun r hr => by
      rw [me_opened]
      exact ⟨(inside r hr).scratch, (inside r hr).zeros, (inside r hr).inside, (inside r hr).aligned⟩
    have bar : (opened s).me.barLeft = 0 := by rw [me_opened]; exact run.quiet.bar
    have later : ∀ r ∈ rows, InWindow (timed s (loadTime ro rows s)).me r := fun r hr => by
      rw [me_timed]
      exact ⟨(inside r hr).scratch, (inside r hr).zeros, (inside r hr).inside, (inside r hr).aligned⟩
    have bar' : (timed s (loadTime ro rows s)).me.barLeft = 0 := by rw [me_timed]; exact run.quiet.bar
    refine ⟨⟨accessTrap_inWindow first bar .., ?_⟩, (readRows_inWindow first bar ro).trans ?_⟩
    · rw [show (opened s).modMe (fun t => { t with time := loadTime ro rows s }) = timed s (loadTime ro rows s) from timed_timed ..]
      exact ⟨accessTrap_inWindow later bar' .., accessWait_inWindow later bar' ..⟩
    · rw [me_opened]
      rfl

end Sys2Proof

namespace Sys2Proof

open Machine

/-- Settles O3: the decoder evaluates on each word. -/
theorem decodeWords : Obligations.DecodeWords := by
  unfold Obligations.DecodeWords
  refine ⟨?_, ?_, ?_, ?_, ?_, ?_, ?_, ?_, ?_, ?_, ?_, ?_, ?_, ?_, ?_, ?_, ?_, ?_, ?_⟩ <;> rfl

/-! ### Machine steps of the agenda -/

/-- The row of the opcode table that stands for a machine step. -/
noncomputable def eventRow (e : Event) : Instr :=
  match e with
  | .issueTick c => .issueTick c
  | .eventEntry die => .eventEntry die
  | .fUnitFree c => .fUnitFree c
  | .phaseDrainDone t => .phaseDrainDone t
  | .phaseBarClose t => .phaseBarClose t
  | .l1Fill c line => .l1Fill c line
  | .l1Writeback c line => .l1Writeback c line
  | .homeLoad c line => .homeLoad c line
  | .homeStore c line => .homeStore c line
  | .atomicExecute t => .atomicExecute t
  | .orderedRelease t => .orderedRelease t
  | .atomicReply t => .atomicReply t
  | .copyStart c tok => .copyStart c tok
  | .copyCellWrite c tok => .copyCellWrite c tok
  | .copyComplete c tok => .copyComplete c tok
  | .streamStart c tok => .streamStart c tok
  | .streamComplete c tok => .streamComplete c tok
  | .moutComplete c tok => .moutComplete c tok
  | .arrayError t source => .arrayError t source
  | .rerunDone c => .rerunDone c
  | .regionUnprotected t => .regionUnprotected t
  | .slotRelease t => .slotRelease t
  | .dispatchGroup launch => .dispatchGroup launch
  | .claim t => .claim t
  | .stealRequest t => .stealRequest t
  | .taskHalt t => .taskHalt t
  | .tileStart c tok => .tileStart c tok
  | .unitComplete c tok unit => .unitComplete c tok unit
  | .tileFold c tok tile => .tileFold c tok tile
  | .childLost c tok child => .childLost c tok child
  | .tileComplete c tok => .tileComplete c tok
  | .launchComplete launch => .launchComplete launch
  | .mcstStart c tok => .mcstStart c tok
  | .mcstComplete c tok => .mcstComplete c tok
  | .cellArrival p => .cellArrival p
  | .slotSend p => .slotSend p
  | .linkCellReceive p w => .linkCellReceive p w
  | .linkAck p eseq => .linkAck p eseq
  | .replayRequest p eseq => .replayRequest p eseq
  | .linkSignalLoss p => .linkSignalLoss p
  | .retrainTimeout p => .retrainTimeout p
  | .moduleLoss p => .moduleLoss p
  | .ringRefusal p cell => .ringRefusal p cell
  | .nack p cell => .nack p cell
  | .nackResend p => .nackResend p
  | .keyMarker p slot => .keyMarker p slot
  | .keyRefusal p => .keyRefusal p
  | .remoteRequest gate q => .remoteRequest gate q
  | .reply gate r => .reply gate r
  | .retransmit id => .retransmit id
  | .remoteTimeout id => .remoteTimeout id
  | .replyCacheExpire gate id => .replyCacheExpire gate id
  | .sequenceSkip gate source => .sequenceSkip gate source
  | .collArrive c tok => .collArrive c tok
  | .collComplete job collid rank => .collComplete job collid rank
  | .collFault job collid cause rank => .collFault job collid cause rank
  | .tlbinvAck die => .tlbinvAck die
  | .genbumpDone die => .genbumpDone die
  | .l2wbDone die => .l2wbDone die
  | .domsetDone die => .domsetDone die
  | .nploadDone die => .nploadDone die
  | .attestServe => .attestServe
  | .gswCommand b => .gswCommand b
  | .gangStop => .gangStop
  | .gangStopTimeout => .gangStopTimeout
  | .gangMarker p job turn => .gangMarker p job turn
  | .lateCell p cell => .lateCell p cell
  | .kill die target => .kill die target
  | .mselWrite m v => .mselWrite m v
  | .monitorSample m v => .monitorSample m v
  | .ghcfgLock die v => .ghcfgLock die v
  | .registerWrite w addr v => .registerWrite w addr v
  | .hostFrame f => .hostFrame f
  | .hostLaunch m => .hostLaunch m
  | .hostLoad m => .hostLoad m
  | .hostWrite job va data => .hostWrite job va data
  | .hostRead job va size => .hostRead job va size
  | .hostKey job blob => .hostKey job blob
  | .hostAttest req => .hostAttest req
  | .hostJobEnd job => .hostJobEnd job
  | .hostGrotto => .hostGrotto
  | .hostConfig word => .hostConfig word
  | .moduleReset straps => .moduleReset straps
  | .powerTrip die high reading => .powerTrip die high reading
  | .junctionTrip die reading => .junctionTrip die reading
  | .packageWatchdog die => .packageWatchdog die
  | .fatalStop die cause info => .fatalStop die cause info
  | .fatalMessage => .fatalMessage
  | .linkTrained p => .linkTrained p
  | .powerLoss => .powerLoss

/-- Every machine step has its row. -/
theorem eventOf_eventRow (e : Event) : eventOf (eventRow e) = some e := by
  cases e <;> rfl

/-- A step with power runs the head of the agenda. -/
theorem step_cons {s : State} {e : Event} {rest : List Event} (power : s.powered = true) (agenda : s.agenda = e :: rest) :
    step s = runEvent e { s with agenda := rest } := by
  simp [step, agenda, power]

/-- Settles O5. -/
theorem stepRunsAgenda : Obligations.StepRunsAgenda := by
  unfold Obligations.StepRunsAgenda
  refine ⟨fun s i e rest power row agenda => ?_, fun e => ⟨_, eventOf_eventRow e⟩, fun s power => ⟨fun agenda => ?_, ?_, ?_⟩⟩
  · rw [step_cons power agenda, exec_event row]
  · simp [step, agenda, power]
  · intro e rest agenda other
    simp [step, agenda, power, other]
  · intro p rest agenda
    simp only [step, agenda, isReset, Bool.or_true, if_true]
    rfl

/-- Settles O7: every store of the reset state is empty, so each read is its default. -/
theorem resetState : Obligations.ResetState :=
  ⟨rfl, rfl, fun _ => rfl, fun _ => rfl, fun _ _ => rfl, fun _ _ => rfl, fun _ _ => rfl,
    fun _ => ⟨rfl, rfl, rfl, rfl, rfl, rfl, rfl⟩, fun _ _ => rfl⟩

/-! ### A bundle of one instruction beside NOPs -/

/-- A slot that, whatever the state, is accepted, waits for nothing, traps for nothing and does nothing. -/
structure Inert (m : SlotSem) : Prop where
  legal : ∀ s, m.isIllegal s = false
  allowed : ∀ s, m.isDenied s = false
  mark : m.mark = false
  late : m.late = false
  peak : ∀ s, m.peak s = 0
  stall : ∀ k s0 s, m.stall k s0 s = none
  trap : ∀ k s, m.execTrap k s = none
  takes : ∀ s q, m.takes s q = false
  apply : ∀ s0 s, m.apply s0 s = s

theorem inert_semNop (g : Guard) : Inert (semNop g) where
  legal s := by simp [SlotSem.isIllegal, semNop]
  allowed s := by simp [SlotSem.isDenied, semNop]
  mark := rfl
  late := rfl
  peak _ := rfl
  stall k s0 s := by simp [SlotSem.stall, SlotSem.queueWait, SlotSem.takes, semNop]
  trap k s := by simp [SlotSem.execTrap, SlotSem.queueTrap, SlotSem.takes, semNop]
  takes s q := by simp [SlotSem.takes, semNop]
  apply s0 s := by
    unfold SlotSem.apply
    split <;> rfl

theorem tmax_zero (a : W64) : tmax a 0 = a := if_neg (by simp)

section
variable {l k : Slots} (inert : ∀ e ∈ k, Inert e.2)
include inert

theorem atIssue_append_inert (s : State) : s.atIssue (l ++ k) = s.atIssue l := by
  have none_marks : (k.any fun e => e.2.mark && e.2.acts s) = false :=
    List.any_eq_false.2 fun e he => by simp [(inert e he).mark]
  simp only [State.atIssue, List.any_append, none_marks, Bool.or_false]

theorem atPeak_append_inert (s : State) : s.atPeak (l ++ k) = s.atPeak l := by
  have raises : ∀ (j : Slots) (a : W64), (∀ e ∈ j, Inert e.2) → j.foldl (fun a e => tmax a (e.2.peak s)) a = a := by
    intro j
    induction j with
    | nil => exact fun _ _ => rfl
    | cons e j ih =>
      intro a hj
      rw [List.foldl_cons, (hj e (List.mem_cons_self ..)).peak, tmax_zero]
      exact ih a fun e he => hj e (List.mem_cons_of_mem _ he)
  simp only [State.atPeak, List.filter_append, List.foldl_append]
  congr 1
  funext t
  rw [raises _ _ fun e he => inert e (List.mem_filter.1 he).1]

theorem stallAll_append_inert (s1 s : State) : stallAll (l ++ k) s1 s = stallAll l s1 s := by
  have waits : ∀ (j : Slots) (p : State) (a : Option State), (∀ e ∈ j, Inert e.2) →
      j.foldl (fun a e => match e.2.stall e.1 p (a.getD s) with
        | some s' => some s'
        | none => a) a = a := by
    intro j p
    induction j with
    | nil => exact fun _ _ => rfl
    | cons e j ih =>
      intro a hj
      rw [List.foldl_cons, (hj e (List.mem_cons_self ..)).stall]
      exact ih a fun e he => hj e (List.mem_cons_of_mem _ he)
  simp only [stallAll, List.foldl_append, atPeak_append_inert inert]
  exact waits k _ _ inert

theorem inOrder_append_inert (s1 s : State) : (Slots.inOrder (l ++ k)).foldl (fun s e => e.2.apply s1 s) s =
    (Slots.inOrder l).foldl (fun s e => e.2.apply s1 s) s := by
  have does : ∀ (j : Slots) (u : State), (∀ e ∈ j, Inert e.2) → j.foldl (fun s e => e.2.apply s1 s) u = u := by
    intro j
    induction j with
    | nil => exact fun _ _ => rfl
    | cons e j ih =>
      intro u hj
      rw [List.foldl_cons, (hj e (List.mem_cons_self ..)).apply]
      exact ih u fun e he => hj e (List.mem_cons_of_mem _ he)
  simp only [Slots.inOrder, List.filter_append, List.foldl_append]
  rw [does (k.filter fun e => !e.2.late) _ fun e he => inert e (List.mem_filter.1 he).1,
    does (k.filter fun e => e.2.late) _ fun e he => inert e (List.mem_filter.1 he).1]

/-- Inert slots behind the others of a bundle change nothing of its issue. -/
theorem issueSems_append_inert (units : Nat) (s : State) : issueSems (l ++ k) units s = issueSems l units s := by
  have legal : (k.find? fun e => e.2.isIllegal s) = none := List.find?_eq_none.2 fun e he => by simp [(inert e he).legal]
  have allowed : (k.find? fun e => e.2.isDenied s) = none := List.find?_eq_none.2 fun e he => by simp [(inert e he).allowed]
  have traps : ∀ u, (k.findSome? fun e => e.2.execTrap e.1 u) = none := fun u =>
    List.findSome?_eq_none_iff.2 fun e he => (inert e he).trap _ _
  have takes : ∀ u q, (k.any fun e => e.2.takes u q) = false := fun u q =>
    List.any_eq_false.2 fun e he => by simp [(inert e he).takes]
  simp only [issueSems, List.find?_append, legal, allowed, Option.or_none, atIssue_append_inert inert, stallAll_append_inert inert,
    List.findSome?_append, traps, inOrder_append_inert inert, List.any_append, takes, Bool.or_false]

end

/-- The stop bit of an accepted word. -/
theorem stop_of_decodeSlot {w : W32} {b : Bool} {i : Instr} (h : decodeSlot w = .ok ⟨b, i⟩) : w.getLsbD 31 = b := by
  unfold decodeSlot at h
  split at h
  · obtain ⟨rfl, rfl⟩ := Slot.mk.inj (Except.ok.inj h)
    simp [bits, BitVec.getLsbD, Nat.testBit_eq_decide_div_mod_eq]
  · cases h

/-- The slots of a bundle of one instruction before three NOPs. -/
theorem issueBundle_alone {s : State} {w : W32} {i : Instr} {m : SlotSem} (word : decodeSlot w = .ok ⟨false, i⟩) (sem : slotSem i = some m)
    (budget : s.spent s.cur = false) (inCode : s.me.pc.toNat < s.me.codeLen)
    (code : (s.codeWords s.me s.me.pc.toNat).take 4 = [w, nopWord, nopWord, nopWord ||| 0x80000000])
    (format : firstOffender (vLimit s.cur.core) (decide (s.me.delay ≠ 0)) Tally.zero 0
      [w, nopWord, nopWord, nopWord ||| 0x80000000] = none) : issueBundle s = issueSems [(0, m)] 1 s := by
  have words : bundleWords (s.codeWords s.me s.me.pc.toNat) 0 = some [w, nopWord, nopWord, nopWord ||| 0x80000000] := by
    rw [← List.take_append_drop 4 (s.codeWords s.me s.me.pc.toNat), code]
    simp only [List.cons_append, bundleWords, stop_of_decodeSlot word]
    rfl
  have sems : [w, nopWord, nopWord, nopWord ||| 0x80000000].map wordSem = [m, semNop ⟨0, false⟩, semNop ⟨0, false⟩, semNop ⟨0, false⟩] := by
    simp only [List.map_cons, wordSem, word, sem]
    rfl
  simp only [issueBundle, budget, Nat.not_le.2 inCode, words, format, sems]
  exact issueSems_append_inert (l := [(0, m)]) (k := [(1, semNop ⟨0, false⟩), (2, semNop ⟨0, false⟩), (3, semNop ⟨0, false⟩)])
    (by simp [inert_semNop]) 1 s

/-- Settles O4. -/
theorem stepRunsDecoded : Obligations.StepRunsDecoded := by
  unfold Obligations.StepRunsDecoded
  rintro s w i m power agenda word sem s1 hs1 event n cand s2 hs2 budget inCode code format
  have bundle := issueBundle_alone word sem budget inCode code format
  have run : exec i s2 = .next (issueSems [(0, m)] 1 s2).state := by
    rw [exec_slot sem, issueSlot, issueOne, budget]
    rfl
  have tick : execIssueTick s.cur.coreRef s = .next (State.tryIssue s.cur.coreRef [n] s1).state := by
    rw [execIssueTick, ← hs1]
    simp only
    rw [show isLodge s.cur.coreRef.core = isLodge s.cur.core from rfl, show s.cur.coreRef.die = s.cur.die from rfl, event,
      show s.cur.coreRef.core = s.cur.core from rfl, cand]
    rfl
  have stepped : step s = .next (State.tryIssue s.cur.coreRef [n] s1).state.afterTick := by
    simp only [step, agenda, power, tick, if_true]
  have tried : State.tryIssue s.cur.coreRef [n] s1 = match issueSems [(0, m)] 1 s2 with
      | .issued t => .issued t
      | a => .held (s1.unfocus s.cur.coreRef a.state) := by
    rw [State.tryIssue, ← hs2, bundle]
    rfl
  rw [run, stepped, tried]
  cases issueSems [(0, m)] 1 s2 <;> exact ⟨rfl, rfl⟩

end Sys2Proof

namespace Sys2Proof

open Machine

/-! ### Slots that change more than their task -/

/-- A bare slot that leaves the state `u`: the frame of its effect is that of the bundle. -/
theorem Bare.completes {m : SlotSem} {s u : State} (h : Bare m s) {i : Instr} {l : List Pending} {f : Task → Task} {mc : Core → Core}
    {ms : State → State} (hx : exec i s = issueSlot m s) (r : Runs m.guard s) (peak : m.peak = fun _ => 0)
    (trap : m.trap 0 (opened s) = none) (wait : m.wait (opened s) s = none) (eff : m.eff (opened s) (opened s) = u)
    (frame : Frame mc ms (opened s) u) (cur : u.cur = s.cur) (task : u.task s.cur = { f (opened s).me with pend := s.me.pend ++ l })
    (hf : Steady f) (hl : ∀ p ∈ l, 1 ≤ p.left ∧ Own p) (hc : ∀ a b, coreBeside a = coreBeside b → mc a = mc b)
    (hs : ∀ a b, moduleBeside a = moduleBeside b → ms a = ms b) {P : State → Prop} (post : ∀ t, OnlyTask u t → P t) :
    Completes i s mc ms f l P := by
  obtain ⟨t, next, only, mine⟩ := h.quiet hx r peak trap wait eff cur task hf hl
  exact ⟨t, next, (((OnlyTask.opened s).mono hc hs).trans frame rfl).trans (only.mono hc hs) cur, mine, post t only⟩

/-- As `Bare.completes`, of an effect that spares every task. -/
theorem Bare.spares {m : SlotSem} {s u : State} (h : Bare m s) {i : Instr} {mc : Core → Core} {ms : State → State}
    (hx : exec i s = issueSlot m s) (r : Runs m.guard s) (peak : m.peak = fun _ => 0) (trap : m.trap 0 (opened s) = none)
    (wait : m.wait (opened s) s = none) (eff : m.eff (opened s) (opened s) = u) (spares : Spares mc ms (opened s) u)
    (hc : ∀ a b, coreBeside a = coreBeside b → mc a = mc b) (hs : ∀ a b, moduleBeside a = moduleBeside b → ms a = ms b)
    {P : State → Prop} (post : ∀ t, OnlyTask u t → P t) : Completes i s mc ms id [] P := by
  refine h.completes hx r peak trap wait eff spares.toFrame spares.cur (spares.own.trans ?_) steady_id (by simp) hc hs post
  show (opened s).me = _
  rw [List.append_nil, me_opened]
  rfl

/-- As `Bare.completes`, of an effect that spares every task but its own. -/
theorem Bare.sparesThen {m : SlotSem} {s u : State} (h : Bare m s) {i : Instr} {l : List Pending} {f : Task → Task} {mc : Core → Core}
    {ms : State → State} (hx : exec i s = issueSlot m s) (r : Runs m.guard s) (peak : m.peak = fun _ => 0)
    (trap : m.trap 0 (opened s) = none) (wait : m.wait (opened s) s = none)
    (eff : m.eff (opened s) (opened s) = u.modMe fun t => { f t with pend := t.pend ++ l }) (spares : Spares mc ms (opened s) u)
    (hf : Steady f) (hl : ∀ p ∈ l, 1 ≤ p.left ∧ Own p) (hc : ∀ a b, coreBeside a = coreBeside b → mc a = mc b)
    (hs : ∀ a b, moduleBeside a = moduleBeside b → ms a = ms b) {P : State → Prop}
    (post : ∀ t, OnlyTask u t → P t) : Completes i s mc ms f l P := by
  have own : u.me = (opened s).me := (by rw [State.me, spares.cur, spares.own]; rfl)
  have change : OnlyTask u (u.modMe fun t => { f t with pend := t.pend ++ l }) := OnlyTask.modTask u _
  refine h.completes hx r peak trap wait eff (spares.toFrame.trans (change.mono hc hs) spares.cur) spares.cur ?_ hf hl hc hs
    fun t ht => post t (change.trans ht)
  have mine : (u.modMe fun t => { f t with pend := t.pend ++ l }).me = _ := State.me_modMe ..
  rw [State.me, show (u.modMe _).cur = s.cur from spares.cur, own] at mine
  rw [mine, me_opened]

/-- A bare slot that waits leaves what it starts. -/
theorem Bare.waits {m : SlotSem} {s u : State} (h : Bare m s) {i : Instr} (hx : exec i s = issueSlot m s) (may : MayIssue s)
    (guard : s.me.guardOn m.guard = true) (peak : m.peak = fun _ => 0) (trap : m.trap 0 (opened s) = none)
    (wait : m.wait (opened s) s = some u) : exec i s = .next u := by
  have acts := acts_opened guard
  have stall : stallAll [(0, m)] (s.atIssue [(0, m)]) s = some u := by
    rw [h.atIssue]
    simp [stallAll, atPeak_opened peak, SlotSem.stall, h.execTrap, acts, trap, h.funit, SlotSem.queueWait, h.takes, wait]
  rw [hx, issueSlot, issueOne, may.budget]
  simp [issueSems, h.legal, h.allowed, may.holds, stall, Attempt.state]

/-- An illegal instruction traps first of all (R33). -/
theorem exec_illegal {i : Instr} {m : SlotSem} {s : State} (hx : exec i s = issueSlot m s) (may : MayIssue s)
    (illegal : m.isIllegal s = true) : exec i s = .next (s.takeTrap s.cur ⟨0x02, 0⟩) := by
  rw [hx, issueSlot, issueOne, may.budget]
  simp [issueSems, illegal, Attempt.state]

/-! ### The tile table (R175 to R183) -/

@[simp] theorem tile_opened (s : State) (n : Nat) : (opened s).here.tile n = s.here.tile n :=
  (congrArg (fun c : Core => c.tile n) (here_opened s) :)

@[simp] theorem myTile_opened (s : State) (tt : BitVec 8) : (opened s).myTile tt = s.myTile tt := tile_opened s _

/-- A slot on a tile entry its core has is bare. -/
theorem bare_tile {m : SlotSem} {s : State} {tt : BitVec 8} (has : tt.toNat < tileCount s.cur.core) (place : m.place = .any)
    (src : m.vsrc = []) (dst : m.vdst = none) (funit : m.funit = false) (mark : m.mark = false) : Bare (semTile m tt) s where
  legal := by simp [SlotSem.isIllegal, semTile, place, src, dst, has]
  allowed := by simp [SlotSem.isDenied, semTile, place]
  src := src
  funit := funit
  mark := mark

/-- A slot on a tile entry its core does not have is an illegal instruction. -/
theorem illegal_tile {m : SlotSem} {s : State} {tt : BitVec 8} (has : tileCount s.cur.core ≤ tt.toNat) :
    (semTile m tt).isIllegal s = true := by
  simp [SlotSem.isIllegal, semTile, has]

/-- An entry of the issuing task replaced, and nothing else. -/
theorem spares_putTile (s : State) (tt : BitVec 8) (f : TileEntry → TileEntry) :
    Spares (fun c => { coreBeside c with tiles := [] }) moduleBeside s (s.putTile tt f) :=
  .modCore s (fun c => c.setTile (physTile s.cur tt.toNat) (f (c.tile (physTile s.cur tt.toNat)))) rfl rfl rfl

/-- The entries of the core after one of the issuing task is replaced. -/
theorem tile_putTile (s : State) (tt : BitVec 8) (f : TileEntry → TileEntry) (n : Nat) : ((s.putTile tt f).core s.cur.coreRef).tile n =
    if n = physTile s.cur tt.toNat then f (s.myTile tt) else s.here.tile n := by
  rw [State.putTile, State.modHere, State.core_modCore, tile_setTile]
  rfl

section
variable {g : Guard} {a : BitVec 5} {tt : BitVec 8} {s : State}

/-- A slot that replaces an entry of its task. -/
theorem sets_tile {i : Instr} {m : SlotSem} {f : TileEntry → TileEntry} (bare : Bare m s) (hx : exec i s = issueSlot m s)
    (r : Runs m.guard s) (peak : m.peak = fun _ => 0) (trap : m.trap 0 (opened s) = none)
    (wait : m.wait (opened s) s = none) (eff : m.eff (opened s) (opened s) = (opened s).putTile tt f) :
    Completes i s (fun c => { coreBeside c with tiles := [] }) moduleBeside id [] fun t =>
      ∀ n, (t.core s.cur.coreRef).tile n = if n = physTile s.cur tt.toNat then f (s.myTile tt) else s.here.tile n := by
  refine bare.spares hx r peak trap wait eff (spares_putTile ..) (fun _ _ h => congrArg (fun c => { c with tiles := [] }) h)
    (fun _ _ h => h) fun t ht n => ?_
  have kept := congrArg (fun c : Core => c.tile n) ht.core
  have here := tile_putTile (opened s) tt f n
  rw [myTile_opened, tile_opened] at here
  exact kept.trans here

theorem TileEntry.define_of_zero {v : W64} (h : defLen v = 0) :
    TileEntry.define v = fun e => { e with v := false, st := .empty, arrived := 0 } :=
  funext fun _ => if_pos h

/-- An entry defined by an operand with a length (R179). -/
def TileEntry.placed (v : W64) (e : TileEntry) : TileEntry :=
  { e with base := defBase v, len := defLen v, expect := defExpect v, v := true, st := .empty, arrived := 0, tc := 0 }

theorem TileEntry.define_of_nonzero {v : W64} (h : defLen v ≠ 0) : TileEntry.define v = TileEntry.placed v := funext fun _ => if_neg h

theorem steady_observe (time : W64) : Steady fun t => t.observe time :=
  ⟨fun _ _ _ _ _ _ _ => rfl, fun _ => rfl, fun _ => rfl, fun _ => rfl, fun _ => rfl⟩

/-- The limits of R179 on TTDEF's operand. -/
theorem defBad_eq_false_iff (v : W64) (window : Nat) : defBad v window = false ↔
    v.toNat / 2 ^ 54 = 0 ∧ v.toNat / 2 ^ 15 % 2 = 0 ∧ v.toNat / 2 ^ 31 % 2 = 0 ∧ 1 ≤ defExpect v ∧ defExpect v ≤ defLen v * 128
      ∧ (defBase v + defLen v) * 128 ≤ window := by
  simp only [defBad, BitVec.getLsbD, Nat.testBit_eq_decide_div_mod_eq, Bool.or_eq_false_iff, decide_eq_false_iff_not]
  omega

/-- TTDEF of an entry at rest, within the limits of the window where it defines one (R179). -/
theorem ttdefTrap_none {v : W64} (rest : (s.myTile tt).st = .empty ∨ (s.myTile tt).st = .ready) (bar : s.me.barLeft = 0)
    (fits : defLen v = 0 ∨ defBad v s.me.windowBytes = false) : ttdefTrap tt v s = none := by
  have idle : ¬((s.myTile tt).st = .filling ∨ (s.myTile tt).st = .draining) := by rcases rest with h | h <;> simp [h]
  simp only [ttdefTrap, if_neg idle]
  rcases fits with h | h <;> simp [h, Task.moving, bar]

theorem windowBytes_opened : (opened s).me.windowBytes = s.me.windowBytes := by rw [me_opened]; rfl

theorem ttdefTrap_opened (v : W64) : ttdefTrap tt v (opened s) = ttdefTrap tt v s := by
  simp only [ttdefTrap, myTile_opened, windowBytes_opened]
  rw [me_opened]
  rfl

end

/-- Settles O40: each slot is bare where its core has the entry, and its own check and wait are those of the entry. -/
theorem tileTable : Obligations.TileTable := by
  unfold Obligations.TileTable
  intro g a tt s r
  refine ⟨fun has i hi => ?_, fun has => ⟨?_, ?_, ?_, ?_, ?_, ?_, ?_, ?_, ?_, ?_⟩⟩
  · simp only [List.mem_cons, List.not_mem_nil, or_false] at hi
    rcases hi with rfl | rfl | rfl | rfl
    · exact exec_illegal (m := semTtdef g a tt) rfl r.may (illegal_tile has)
    · exact exec_illegal (m := semTtwait g a tt) rfl r.may (illegal_tile has)
    · exact exec_illegal (m := semTtfree g tt) rfl r.may (illegal_tile has)
    · exact exec_illegal (m := semTtstat g a tt) rfl r.may (illegal_tile has)
  all_goals
    have ttdef : Bare (semTtdef g a tt) s := bare_tile has rfl rfl rfl rfl rfl
    have ttwait : Bare (semTtwait g a tt) s := bare_tile has rfl rfl rfl rfl rfl
    have ttfree : Bare (semTtfree g tt) s := bare_tile has rfl rfl rfl rfl rfl
    have defTrap : (semTtdef g a tt).trap 0 (opened s) = ttdefTrap tt (s.sreg a) s := by
      show ttdefTrap tt ((opened s).sreg a) (opened s) = _
      rw [sreg_opened, ttdefTrap_opened]
    have undef : undefTrap tt (opened s) = undefTrap tt s := by rw [undefTrap, undefTrap, myTile_opened]
  · intro rest len
    refine sets_tile (i := .ttdef g a tt) (f := fun e => { e with v := false, st := .empty, arrived := 0 }) ttdef rfl r rfl
      (defTrap.trans (ttdefTrap_none rest r.quiet.bar (.inl len))) rfl ?_
    show (opened s).putTile tt (TileEntry.define ((opened s).sreg a)) = _
    rw [sreg_opened, TileEntry.define_of_zero len]
  · intro rest len h54 h15 h31 low high window
    have fits := (defBad_eq_false_iff (s.sreg a) s.me.windowBytes).2 ⟨h54, h15, h31, low, high, window⟩
    refine sets_tile (i := .ttdef g a tt) (f := TileEntry.placed (s.sreg a)) ttdef rfl r rfl
      (defTrap.trans (ttdefTrap_none rest r.quiet.bar (.inr fits))) rfl ?_
    show (opened s).putTile tt (TileEntry.define ((opened s).sreg a)) = _
    rw [sreg_opened, TileEntry.define_of_nonzero len]
  · intro rest len bad
    have beyond : defBad (s.sreg a) s.me.windowBytes = true :=
      Bool.eq_true_of_not_eq_false fun h => bad ((defBad_eq_false_iff ..).1 h)
    have idle : ¬((s.myTile tt).st = .filling ∨ (s.myTile tt).st = .draining) := by rcases rest with h | h <;> simp [h]
    refine ttdef.traps rfl r.may r.guard rfl (defTrap.trans ?_)
    rw [ttdefTrap, if_neg idle, if_neg (show defLen (s.sreg a) ≠ 0 from len), if_pos beyond]
    rfl
  · intro busy
    exact ttdef.traps rfl r.may r.guard rfl (defTrap.trans (if_pos busy))
  · intro undefined i hi
    have trap : undefTrap tt (opened s) = some ⟨0x26, zext tt⟩ := by simp [undefTrap, undefined]
    simp only [List.mem_cons, List.not_mem_nil, or_false] at hi
    rcases hi with rfl | rfl
    · exact ttwait.traps rfl r.may r.guard rfl trap
    · exact ttfree.traps rfl r.may r.guard rfl trap
  · intro defined phase
    refine ttwait.waits rfl r.may r.guard rfl (undef.trans (if_pos defined)) ?_
    show (if ((opened s).myTile tt).phase = ((opened s).sreg a).getLsbD 0 then some s else none) = some s
    rw [myTile_opened, sreg_opened, if_pos phase]
  · intro defined phase
    refine ttwait.changesOwn rfl r rfl (undef.trans (if_pos defined)) ?_ ?_ (steady_observe _)
    · show (if ((opened s).myTile tt).phase = ((opened s).sreg a).getLsbD 0 then some s else none) = none
      rw [myTile_opened, sreg_opened, if_neg phase]
    · show (opened s).modMe (fun t => t.observe ((opened s).myTile tt).tc) = _
      rw [myTile_opened]
  · intro defined busy
    refine ttfree.waits rfl r.may r.guard rfl (undef.trans (if_pos defined)) ?_
    show (if ((opened s).myTile tt).st = .filling ∨ ((opened s).myTile tt).st = .draining then some s else none) = some s
    rw [myTile_opened, if_pos busy]
  · intro defined rest
    have idle : ¬((s.myTile tt).st = .filling ∨ (s.myTile tt).st = .draining) := by rcases rest with h | h <;> simp [h]
    refine sets_tile (i := .ttfree g tt) (f := TileEntry.freed) ttfree rfl r rfl (undef.trans (if_pos defined)) ?_ rfl
    show (if ((opened s).myTile tt).st = .filling ∨ ((opened s).myTile tt).st = .draining then some s else none) = none
    rw [myTile_opened, if_neg idle]
  · refine (bare_tile (m := { guard := g, eff := fun s0 s => s.push 1 (.scalar a.toNat (s0.myTile tt).status) }) has rfl rfl rfl rfl rfl).changes
      (i := .ttstat g a tt) rfl r rfl rfl rfl ?_ steady_id (List.forall_mem_singleton.2 ⟨Nat.le_refl 1, own_scalar _ _ _ _⟩)
    show (opened s).push 1 (.scalar a.toNat ((opened s).myTile tt).status) = _
    rw [myTile_opened]
    rfl

end Sys2Proof

namespace Sys2Proof

open Machine

/-! ### Ordered sets (R261) -/

theorem bare_aordJoin (g : Guard) (a : BitVec 5) (s : State) : Bare (semAordJoin g a) s := bare_any s rfl rfl rfl rfl rfl rfl

theorem bare_aordClose (g : Guard) (a : BitVec 5) (s : State) : Bare (semAordClose g a) s := bare_any s rfl rfl rfl rfl rfl rfl

/-- A launch changed, beside every task. -/
theorem spares_modLaunch (s : State) (n : Nat) (f : Launch → Launch) :
    Spares coreBeside (fun x => { moduleBeside x with launches := [] }) s (s.modLaunch n f) := .of_cores _ rfl rfl rfl

theorem modLaunch_modMe (s : State) (n : Nat) (f : Task → Task) (h : Launch → Launch) :
    (s.modMe f).modLaunch n h = (s.modLaunch n h).modMe f := rfl

/-- A launch with a set changed. -/
def Launch.modSet (o : Nat) (h : OrdSet → OrdSet) (l : Launch) : Launch :=
  { l with sets := Tbl.set OrdSet.none l.sets o (h (l.sets.get OrdSet.none o)) }

section
variable {s : State}

@[simp] theorem openSet_opened : (opened s).me.openSet = s.me.openSet := by rw [me_opened]

@[simp] theorem launch_opened : (opened s).me.launch = s.me.launch := by rw [me_opened]

@[simp] theorem lidx_opened : (opened s).me.lidx = s.me.lidx := by rw [me_opened]

@[simp] theorem setSize_opened (o : Nat) : (opened s).setSize o = s.setSize o := by
  rw [State.setSize, launch_opened]
  rfl

@[simp] theorem joinBad_opened (v : W64) : joinBad v (opened s) = joinBad v s := by
  have joined : (opened s).me.joined = s.me.joined := by rw [me_opened]
  have members : ∀ o, (opened s).setJoined o = s.setJoined o := fun o => by
    rw [State.setJoined, launch_opened]
    rfl
  simp only [joinBad, openSet_opened, joined, setSize_opened, members]

/-- A set of the issuing task's kernel that is not full may be joined (R261). -/
theorem joinBad_eq_false {v : W64} {n : Nat} {l : Launch} (launch : s.launch? s.me.launch = some l)
    (declared : l.kernel.sets[v.toNat]? = some n) (low : v.toNat < 16) (noSet : s.me.openSet = none) (new : v.toNat ∉ s.me.joined)
    (room : (l.sets.get OrdSet.none v.toNat).joined.length < n) : joinBad v s = false := by
  have size : s.setSize v.toNat = some n := by simp only [State.setSize, launch, declared]
  have members : s.setJoined v.toNat = (l.sets.get OrdSet.none v.toNat).joined := by simp only [State.setJoined, launch]
  simp only [joinBad, size, members, noSet]
  simp [low, new, room]

/-- What the manual refuses of a join (R261). -/
theorem joinBad_eq_true {v : W64} (h : 16 ≤ v.toNat ∨ s.me.openSet ≠ none ∨ v.toNat ∈ s.me.joined ∨
    ∀ l n, s.launch? s.me.launch = some l → l.kernel.sets[v.toNat]? = some n → n ≤ (l.sets.get OrdSet.none v.toNat).joined.length) :
    joinBad v s = true := by
  rcases h with high | joined | again | full
  · simp [joinBad, high]
  · simp [joinBad, Option.isSome_iff_ne_none.2 joined]
  · simp [joinBad, again]
  · cases launch : s.launch? s.me.launch with
    | none => simp [joinBad, State.setSize, launch]
    | some l =>
      cases declared : l.kernel.sets[v.toNat]? with
      | none => simp [joinBad, State.setSize, launch, declared]
      | some n => simp [joinBad, State.setSize, State.setJoined, launch, declared, full l n launch declared]

/-- A slot that changes a set of its launch and its task. -/
theorem lands_set {i : Instr} {m : SlotSem} {f : Task → Task} {h : OrdSet → OrdSet} {o : Nat} (bare : Bare m s)
    (hx : exec i s = issueSlot m s) (r : Runs m.guard s) (peak : m.peak = fun _ => 0) (trap : m.trap 0 (opened s) = none)
    (wait : m.wait (opened s) s = none) (hf : Steady f)
    (eff : m.eff (opened s) (opened s) = ((opened s).modLaunch s.me.launch (Launch.modSet o h)).modMe f) :
    Completes i s coreBeside (fun x => { moduleBeside x with launches := [] }) f [] fun t =>
      t.launches = s.launches.map fun l => if l.seq = s.me.launch then Launch.modSet o h l else l := by
  have same : (fun t => { f t with pend := t.pend ++ [] }) = f := by
    funext t
    rw [List.append_nil, ← hf.pend]
  exact bare.sparesThen hx r peak trap wait (by rw [same]; exact eff) (spares_modLaunch ..) hf (by simp) (fun _ _ h => h)
    (fun _ _ h => congrArg (fun x => { x with launches := [] }) h) fun t ht => (congrArg State.launches ht.rest :)

end

/-- Settles O42: join and close are bare slots that change one set of their launch and their task. -/
theorem orderedSets : Obligations.OrderedSets := by
  unfold Obligations.OrderedSets
  intro g a s r outside
  have noRegion : regionTrap 0 (opened s) = none := by simp [regionTrap, outside]
  have joins : (semAordJoin g a).trap 0 (opened s) = trapIf (joinBad (s.sreg a) s) (setTrap (s.sreg a)) := by
    show firstTrap [regionTrap 0 (opened s), trapIf (joinBad ((opened s).sreg a) (opened s)) (setTrap ((opened s).sreg a))] = _
    rw [sreg_opened, joinBad_opened, noRegion]
    cases joinBad (s.sreg a) s <;> rfl
  have closes : (semAordClose g a).trap 0 (opened s) = trapIf (decide (s.me.openSet ≠ some (s.sreg a).toNat)) (setTrap (s.sreg a)) := by
    show firstTrap [regionTrap 0 (opened s), trapIf (decide ((opened s).me.openSet ≠ some ((opened s).sreg a).toNat)) (setTrap ((opened s).sreg a))] = _
    rw [sreg_opened, openSet_opened, noRegion]
    cases decide (s.me.openSet ≠ some (s.sreg a).toNat) <;> rfl
  refine ⟨fun n l launch declared low noSet new room => ?_, fun own => ?_, fun refused => ?_, fun other => ?_⟩
  · refine lands_set (i := .aordJoin g a) (o := (s.sreg a).toNat)
      (h := fun x => { x with size := n, joined := x.joined ++ [s.me.lidx.toNat] }) (bare_aordJoin g a s) rfl r rfl
      (joins.trans (by rw [joinBad_eq_false launch declared low noSet new room]; rfl)) rfl
      (f := fun t => { t with openSet := some (s.sreg a).toNat, joined := t.joined ++ [(s.sreg a).toNat] })
      ⟨fun _ _ _ _ _ _ _ => rfl, fun _ => rfl, fun _ => rfl, fun _ => rfl, fun _ => rfl⟩ ?_
    have size : ((opened s).setSize (s.sreg a).toNat).getD 0 = n := by
      rw [setSize_opened]
      simp only [State.setSize, launch, declared, Option.getD_some]
    simp only [semAordJoin, size, sreg_opened, launch_opened, lidx_opened]
    exact modLaunch_modMe ..
  · refine lands_set (i := .aordClose g a) (o := (s.sreg a).toNat)
      (h := fun x => { x with closed := x.closed ++ [s.me.lidx.toNat] }) (bare_aordClose g a s) rfl r rfl
      (closes.trans (by simp [own, trapIf])) rfl
      (f := fun t => { t with openSet := none })
      ⟨fun _ _ _ _ _ _ _ => rfl, fun _ => rfl, fun _ => rfl, fun _ => rfl, fun _ => rfl⟩ ?_
    have mine : ((opened s).task (opened s).cur).openSet = some (s.sreg a).toNat := openSet_opened.trans own
    show (opened s).closeSet (opened s).cur = _
    rw [closeSet_some mine, show ((opened s).task (opened s).cur).launch = s.me.launch from launch_opened]
    have closing : closedIn ((opened s).task (opened s).cur) =
        Launch.modSet (s.sreg a).toNat fun x => { x with closed := x.closed ++ [s.me.lidx.toNat] } := by
      funext l
      simp only [closedIn, mine, Launch.modSet, show ((opened s).task (opened s).cur).lidx = s.me.lidx from lidx_opened]
    rw [closing]
    rfl
  · exact (bare_aordJoin g a s).traps rfl r.may r.guard rfl (joins.trans (by rw [joinBad_eq_true refused]; rfl))
  · exact (bare_aordClose g a s).traps rfl r.may r.guard rfl (closes.trans (by rw [decide_eq_true other]; rfl))

end Sys2Proof

namespace Sys2Proof

open Machine

/-! ### Tokens (R213, R214, R223, R307) -/

/-- A slot on a token its core has is bare. -/
theorem bare_token {m : SlotSem} {s : State} {tok : BitVec 6} (has : tok.toNat < tokenCount s.cur.core) (place : m.place = .any)
    (src : m.vsrc = []) (dst : m.vdst = none) (legal : m.illegal s = false) (funit : m.funit = false) (mark : m.mark = false) :
    Bare (semToken m tok) s where
  legal := by simp [SlotSem.isIllegal, semToken, place, src, dst, legal, has]
  allowed := by simp [SlotSem.isDenied, semToken, place]
  src := src
  funit := funit
  mark := mark

/-- A slot on a token its core does not have is an illegal instruction. -/
theorem illegal_token {m : SlotSem} {s : State} {tok : BitVec 6} (has : tokenCount s.cur.core ≤ tok.toNat) :
    (semToken m tok).isIllegal s = true := by
  simp [SlotSem.isIllegal, semToken, has]

section
variable {s : State}

@[simp] theorem token_opened (n : Nat) : (opened s).me.token n = s.me.token n := by
  rw [me_opened]
  rfl

theorem cmd_opened (n : Nat) : (opened s).here.cmd n = s.here.cmd n := (congrArg (fun c : Core => c.cmd n) (here_opened s) :)

@[simp] theorem unitsDone_opened (n : Nat) : (opened s).here.unitsDone n = s.here.unitsDone n := by
  rw [Core.unitsDone, Core.unitsDone, cmd_opened]

@[simp] theorem tileAt_opened (n : Nat) : (opened s).tileAt s.cur.coreRef n = s.tileAt s.cur.coreRef n := by
  have same : ((opened s).core s.cur.coreRef).cmd n = (s.core s.cur.coreRef).cmd n := cmd_opened n
  rw [State.tileAt, State.tileAt, same]

end

theorem steady_setToken (n : Nat) (k : Token) : Steady fun t => t.setToken n k :=
  ⟨fun _ _ _ _ _ _ _ => rfl, fun _ => rfl, fun _ => rfl, fun _ => rfl, fun _ => rfl⟩

/-- A command of a core replaced, beside every task. -/
theorem spares_setCmd (s : State) (n : Nat) (x : Option Cmd) :
    Spares (fun c => { coreBeside c with cmds := [] }) moduleBeside s (s.modHere fun c => c.setCmd n x) :=
  .modCore s (fun c => c.setCmd n x) rfl rfl rfl

theorem cmd_setCmd (c : Core) (n m : Nat) (x : Option Cmd) : (c.setCmd n x).cmd m = if m = n then x else c.cmd m := by
  unfold Core.setCmd Core.cmd
  split
  · next h => rw [h]; exact Tbl.get_set_same (α := Option Cmd) _ x _ _
  · next h => exact Tbl.get_set_other (α := Option Cmd) _ x _ h

/-- Settles O45: each slot is bare where its core has the token, and waits, traps and acts by the state of the token. -/
theorem tokensAreWaitedTestedAndReleased : Obligations.TokensAreWaitedTestedAndReleased := by
  unfold Obligations.TokensAreWaitedTestedAndReleased
  intro g tok e field d pd s r
  refine ⟨?_, fun has i hi => ?_, fun has => ?_⟩
  · refine (bare_any (m := semEdsc g d e field) s rfl rfl rfl rfl rfl rfl).changesOwn rfl r rfl rfl rfl ?_
      ⟨fun _ _ _ _ _ _ _ => rfl, fun _ => rfl, fun _ => rfl, fun _ => rfl, fun _ => rfl⟩
    simp only [semEdsc, sreg_opened]
  · simp only [List.mem_cons, List.not_mem_nil, or_false] at hi
    rcases hi with rfl | rfl | rfl | rfl | rfl | rfl
    · exact exec_illegal (m := semKwait g tok) rfl r.may (illegal_token has)
    · exact exec_illegal (m := semKtest g tok pd) rfl r.may (illegal_token has)
    · exact exec_illegal (m := semKrel g tok) rfl r.may (illegal_token has)
    · exact exec_illegal (m := semTwait g tok d) rfl r.may (illegal_token has)
    · exact exec_illegal (m := semTstat g tok d) rfl r.may (illegal_token has)
    · exact exec_illegal (m := semTabort g tok d) rfl r.may (illegal_token has)
  have kwait : Bare (semKwait g tok) s := bare_token has rfl rfl rfl rfl rfl rfl
  have krel : Bare (semKrel g tok) s := bare_token has rfl rfl rfl rfl rfl rfl
  have twait : Bare (semTwait g tok d) s := bare_token has rfl rfl rfl rfl rfl rfl
  have ktest : Bare (semKtest g tok pd) s := bare_token has rfl rfl rfl rfl rfl rfl
  have tstat : Bare (semTstat g tok d) s := bare_token has rfl rfl rfl rfl rfl rfl
  have tabort : Bare (semTabort g tok d) s := bare_token has rfl rfl rfl rfl rfl rfl
  have faults : (semKwait g tok).trap 0 (opened s) = trapIf (decide ((s.me.token tok.toNat).st = .faulted)) ⟨0x42, zext tok⟩ := by
    simp only [semKwait, semToken, token_opened]
  have stalls : ∀ m ∈ [semKwait g tok, semKrel g tok, semTwait g tok d],
      m.wait (opened s) s = if (s.me.token tok.toNat).st = .pending then some s else none := by
    simp [semKwait, semKrel, semTwait, semToken]
  refine ⟨fun pending i hi => ?_, fun faulted => ?_, fun free => ?_, fun ended => ⟨?_, ?_⟩, ?_, ?_, fun absent => ?_, fun x present => ?_⟩
  · have held := fun m hm => (stalls m hm).trans (if_pos pending)
    simp only [List.mem_cons, List.not_mem_nil, or_false] at hi
    rcases hi with rfl | rfl | rfl
    · exact kwait.waits rfl r.may r.guard rfl (faults.trans (by simp [pending, trapIf])) (held _ (by simp))
    · exact krel.waits rfl r.may r.guard rfl rfl (held _ (by simp))
    · exact twait.waits rfl r.may r.guard rfl rfl (held _ (by simp))
  · exact kwait.traps rfl r.may r.guard rfl (faults.trans (by rw [decide_eq_true faulted]; rfl))
  · have running : ¬(s.me.token tok.toNat).st = .pending := by rcases free with h | h <;> simp [h]
    have sound : ¬(s.me.token tok.toNat).st = .faulted := by rcases free with h | h <;> simp [h]
    refine kwait.changesOwn rfl r rfl (faults.trans (by rw [decide_eq_false sound]; rfl)) ((stalls _ (by simp)).trans (if_neg running)) ?_
      (steady_observe _)
    simp only [semKwait, semToken, token_opened]
  · exact krel.changesOwn rfl r rfl rfl ((stalls _ (by simp)).trans (if_neg ended)) rfl (steady_setToken ..)
  · refine twait.changes rfl r rfl rfl ((stalls _ (by simp)).trans (if_neg ended)) ?_ (steady_observe _)
      (List.forall_mem_singleton.2 ⟨Nat.le_refl 1, own_scalar _ _ _ _⟩)
    simp only [semTwait, semToken, token_opened]
    exact State.modMe_modMe ..
  · refine ktest.changes rfl r rfl rfl rfl (f := fun t => if (s.me.token tok.toNat).st ≠ .pending then t.observe (s.me.token tok.toNat).tc else t)
      ?_ ?_ (List.forall_mem_singleton.2 ⟨Nat.le_refl 1, own_pred _ _ _ _⟩)
    · simp only [semKtest, semToken, token_opened]
      by_cases h : (s.me.token tok.toNat).st = .pending
      · simp only [h, ne_eq, not_true, decide_false, if_false]
        rfl
      · simp only [h, ne_eq, not_false_iff, decide_true, if_true]
        exact State.modMe_modMe ..
    · by_cases h : (s.me.token tok.toNat).st = .pending
      · simp only [h, ne_eq, not_true, if_false]
        exact steady_id
      · simp only [h, ne_eq, not_false_iff, if_true]
        exact steady_observe _
  · refine tstat.changes rfl r rfl rfl rfl ?_ steady_id (List.forall_mem_singleton.2 ⟨Nat.le_refl 1, own_scalar _ _ _ _⟩)
    simp only [semTstat, semToken, token_opened, unitsDone_opened]
    rfl
  · refine tabort.changes rfl r rfl rfl rfl ?_ steady_id (List.forall_mem_singleton.2 ⟨Nat.le_refl 1, own_scalar _ _ _ _⟩)
    have none_there : (opened s).tileAt (opened s).cur.coreRef ((opened s).myPhys tok.toNat) = none := (tileAt_opened _).trans absent
    simp only [semTabort, semToken, none_there]
    rfl
  · refine tabort.sparesThen (u := (opened s).modHere fun c => c.setCmd (physToken s.cur tok.toNat) (some x.abort)) (f := id)
      (i := .tabort g tok d) rfl r rfl rfl rfl ?_ (spares_setCmd ..) steady_id (List.forall_mem_singleton.2 ⟨Nat.le_refl 1, own_scalar _ _ _ _⟩)
      (fun _ _ h => congrArg (fun c => { c with cmds := [] }) h) (fun _ _ h => h) fun t ht n => ?_
    · have there : (opened s).tileAt (opened s).cur.coreRef ((opened s).myPhys tok.toNat) = some x := (tileAt_opened _).trans present
      simp only [semTabort, semToken, there]
      rfl
    · have kept : (t.core s.cur.coreRef).cmd n = (((opened s).modHere fun c => c.setCmd (physToken s.cur tok.toNat) (some x.abort)).core s.cur.coreRef).cmd n :=
        (congrArg (fun c : Core => c.cmd n) ht.core :)
      rw [kept, ← cmd_opened]
      show (((opened s).modCore s.cur.coreRef _).core s.cur.coreRef).cmd n = _
      rw [State.core_modCore, cmd_setCmd]
      rfl

end Sys2Proof

namespace Sys2Proof

open Machine

/-! ### Ready slots that change more than their task -/

/-- What `Acts` says of the slot of its instruction. -/
theorem Acts.slotOf {i : Instr} {m : SlotSem} {s : State} (h : Acts i s) (hm : slotSem i = some m) : Runs m.guard s ∧ Ready m s := by
  obtain ⟨quiet, n, hn, -, guard, ready⟩ := h
  obtain rfl : n = m := Option.some.inj (hn.symm.trans hm)
  exact ⟨⟨ready.may, quiet, guard⟩, ready⟩

/-- A ready slot whose effect leaves the state `u`: the bundle changes its task alone after it. -/
theorem Ready.leaves {i : Instr} {m : SlotSem} {s u : State} {l : List Pending} {f : Task → Task} (ready : Ready m s)
    (r : Runs m.guard s) (hx : exec i s = issueSlot m s) (mark : m.mark = false) (funit : m.funit = false)
    (eff : m.eff (opened s) (opened s) = u) (cur : u.cur = s.cur)
    (task : u.task s.cur = { f (opened s).me with pend := s.me.pend ++ l }) (hf : Steady f) (hl : ∀ p ∈ l, 1 ≤ p.left ∧ Own p) :
    ∃ t, exec i s = .next t ∧ t.task s.cur = taskPast s (m.takes (opened s) 0) (m.takes (opened s) 1) f l ∧ OnlyTask u t := by
  have happ : m.apply (opened s) (opened s) = u := by
    rw [SlotSem.apply, if_pos (acts_opened r.guard), funit]
    exact eff
  have mine := task_past u (taskPast s (m.takes (opened s) 0) (m.takes (opened s) 1) f l)
  rw [cur] at mine
  exact ⟨_, exec_quiet hx ready r.quiet mark happ cur task hf hl, mine,
    onlyTask_past u (taskPast s (m.takes (opened s) 0) (m.takes (opened s) 1) f l)⟩

/-- As `Ready.leaves`, with the frame of the effect. -/
theorem Ready.next {i : Instr} {m : SlotSem} {s u : State} {l : List Pending} {f : Task → Task} {mc : Core → Core}
    {ms : State → State} (ready : Ready m s) (r : Runs m.guard s) (hx : exec i s = issueSlot m s) (mark : m.mark = false)
    (funit : m.funit = false) (eff : m.eff (opened s) (opened s) = u) (frame : Frame mc ms (opened s) u) (cur : u.cur = s.cur)
    (task : u.task s.cur = { f (opened s).me with pend := s.me.pend ++ l }) (hf : Steady f) (hl : ∀ p ∈ l, 1 ≤ p.left ∧ Own p)
    (hc : ∀ a b, coreBeside a = coreBeside b → mc a = mc b) (hs : ∀ a b, moduleBeside a = moduleBeside b → ms a = ms b) :
    ∃ t, exec i s = .next t ∧ Frame mc ms s t
      ∧ t.task s.cur = taskPast s (m.takes (opened s) 0) (m.takes (opened s) 1) f l ∧ OnlyTask u t := by
  obtain ⟨t, next, mine, only⟩ := ready.leaves r hx mark funit eff cur task hf hl
  exact ⟨t, next, (((OnlyTask.opened s).mono hc hs).trans frame rfl).trans (only.mono hc hs) cur, mine, only⟩

/-- A ready slot that takes no queue and spares every task. -/
theorem Ready.spares {i : Instr} {m : SlotSem} {s u : State} {mc : Core → Core} {ms : State → State} (ready : Ready m s)
    (r : Runs m.guard s) (hx : exec i s = issueSlot m s) (mark : m.mark = false) (funit : m.funit = false) (src : m.vsrc = [])
    (eff : m.eff (opened s) (opened s) = u) (spares : Spares mc ms (opened s) u) (hc : ∀ a b, coreBeside a = coreBeside b → mc a = mc b)
    (hs : ∀ a b, moduleBeside a = moduleBeside b → ms a = ms b) {P : State → Prop} (post : ∀ t, OnlyTask u t → P t) :
    Completes i s mc ms id [] P := by
  have task : u.task s.cur = { id (opened s).me with pend := s.me.pend ++ [] } := by
    refine spares.own.trans ?_
    show (opened s).me = _
    rw [List.append_nil, me_opened]
    rfl
  obtain ⟨t, next, frame, mine, only⟩ := ready.next r hx mark funit eff spares.toFrame spares.cur task steady_id (by simp) hc hs
  have takes : ∀ q, m.takes (opened s) q = false := fun q => by simp [SlotSem.takes, src]
  rw [takes, takes] at mine
  exact ⟨t, next, frame, mine, post t only⟩

/-! ### Changes of the issuing core in turn -/

/-- Changes in turn about one task, each of which spares the tasks. -/
theorem Spares.foldl_at {mc : Core → Core} {ms : State → State} {α : Type} (step : State → α → State) {r : TaskRef}
    (each : ∀ t a, t.cur = r → Spares mc ms t (step t a)) (s : State) (l : List α) (cur : s.cur = r) : Spares mc ms s (l.foldl step s) := by
  induction l generalizing s with
  | nil => exact Spares.refl ..
  | cons a l ih =>
    have first := each s a cur
    exact first.trans (ih _ (first.cur.trans cur))

/-- A log item changes the region of its slot alone (R206). -/
theorem spares_logFor (s : State) {c : CoreRef} (hc : c = s.cur.coreRef) (slot : Nat) (x : LogItem) (w : Nat) :
    Spares coreBeside moduleBeside s (s.logFor c slot x w) := by
  subst hc
  unfold State.logFor
  split
  · exact Spares.refl ..
  · exact .modCore s _ rfl rfl rfl

theorem spares_logRows (s : State) {c : CoreRef} (hc : c = s.cur.coreRef) (slot a row n w : Nat) :
    Spares coreBeside moduleBeside s (s.logRows c slot a row n w) :=
  .foldl_at _ (fun t _ ht => spares_logFor t (hc.trans (congrArg TaskRef.coreRef ht.symm)) ..) s _ rfl

/-- Memory alone changed. -/
theorem spares_mem (s : State) (m : Memory) : Spares coreBeside (fun x => { moduleBeside x with mem := [] }) s { s with mem := m } :=
  .of_cores _ rfl rfl rfl

/-- A change that spares the module spares it with its memory. -/
theorem Spares.beside {mc mc' : Core → Core} {s t : State} (h : Spares mc moduleBeside s t) (hc : ∀ a b, mc a = mc b → mc' a = mc' b) :
    Spares mc' (fun x => { moduleBeside x with mem := [] }) s t :=
  h.mono hc fun _ _ h => congrArg (fun x => { x with mem := [] }) h

/-! ### Operand slots and sub-arrays (R185 to R188) -/

/-- A lookup of a key that a test leaves out. -/
theorem Tbl.get_filter_out {α : Type} (d : α) (p : Nat → Bool) (t : Tbl α) (k : Nat) (h : p k = false) :
    Tbl.get d (t.filter fun e => p e.1) k = d := by
  induction t with
  | nil => rfl
  | cons e t ih =>
    obtain ⟨j, v⟩ := e
    by_cases hj : j = k
    · subst hj; simp [h, ih]
    · by_cases hp : p j = true <;> simp [hp, Tbl.get, hj, ih]

/-- A byte of memory after a range is wiped. -/
theorem Memory.byte_wipe (m : Memory) (lo n b : Nat) :
    Memory.byte (m.filter fun e => !(decide (lo ≤ e.1) && decide (e.1 < lo + n))) b = if lo ≤ b ∧ b < lo + n then 0 else m.byte b := by
  split
  · next h => exact Tbl.get_filter_out 0 (fun a => !(decide (lo ≤ a) && decide (a < lo + n))) m b (by simp [h.1, h.2])
  · next h => exact Tbl.get_filter 0 (fun a => !(decide (lo ≤ a) && decide (a < lo + n))) m b (by simpa [Nat.not_lt, Classical.or_iff_not_imp_left] using h)

/-- On a core without an array a slot on it is an illegal instruction (R16). -/
theorem illegal_array {m : SlotSem} {s : State} (place : m.place = .array) (core : isCompute s.cur.core = false) : m.isIllegal s = true := by
  simp [SlotSem.isIllegal, place, core]

theorem bare_array {m : SlotSem} {s : State} (core : isCompute s.cur.core = true) (place : m.place = .array) (src : m.vsrc = [])
    (dst : m.vdst = none) (legal : m.illegal s = false) (funit : m.funit = false) (mark : m.mark = false) : Bare m s :=
  ⟨by simp [SlotSem.isIllegal, place, core, src, dst, legal], by simp [SlotSem.isDenied, place], src, funit, mark⟩

/-- Whether a slot may claim operand slot n (R187). -/
def slotFree (c : Core) (slot n : Nat) : Prop := n < 16 ∧ (c.slotOwner.get none n = none ∨ c.slotOwner.get none n = some slot)

/-- Whether a slot may claim sub-array n - 16 of the mode (R187). -/
def subFree (c : Core) (slot n : Nat) : Prop :=
  16 ≤ n ∧ n - 16 < subCount c.mode ∧ (c.subOwner.get none (n - 16) = none ∨ c.subOwner.get none (n - 16) = some slot)

theorem mayHold_iff (owner : Option Nat) (slot : Nat) : mayHold owner slot = true ↔ owner = none ∨ owner = some slot := by
  simp [mayHold]

theorem claim_slot {c : Core} {slot n : Nat} (h : slotFree c slot n) :
    c.claim slot n = ({ c with slotOwner := Tbl.set none c.slotOwner n (some slot) }, true) := by
  rw [Core.claim, if_pos h.1, if_pos ((mayHold_iff ..).2 h.2)]

theorem claim_sub {c : Core} {slot n : Nat} (h : subFree c slot n) :
    c.claim slot n = ({ c with subOwner := Tbl.set none c.subOwner (n - 16) (some slot) }, true) := by
  rw [Core.claim, if_neg (Nat.not_lt.2 h.1), if_pos ⟨h.2.1, (mayHold_iff ..).2 h.2.2⟩]

theorem claim_refused {c : Core} {slot n : Nat} (h : ¬slotFree c slot n) (k : ¬subFree c slot n) : c.claim slot n = (c, false) := by
  unfold Core.claim
  by_cases low : n < 16
  · rw [if_pos low, if_neg fun free => h ⟨low, (mayHold_iff ..).1 free⟩]
  · rw [if_neg low, if_neg fun free => k ⟨Nat.not_lt.1 low, free.1, (mayHold_iff ..).1 free.2⟩]

/-- What MCLAIM does to the holders (R187). -/
theorem claim_spec (c : Core) (slot n : Nat) {P Q : Prop} [Decidable P] [Decidable Q] (hP : P ↔ slotFree c slot n) (hQ : Q ↔ subFree c slot n) :
    (∀ k, (c.claim slot n).1.slotOwner.get none k = if P ∧ k = n then some slot else c.slotOwner.get none k)
      ∧ (∀ k, (c.claim slot n).1.subOwner.get none k = if Q ∧ k = n - 16 then some slot else c.subOwner.get none k)
      ∧ (if (c.claim slot n).2 then (1 : W64) else 0) = (if P ∨ Q then 1 else 0)
      ∧ { (c.claim slot n).1 with slotOwner := [], subOwner := [] } = { c with slotOwner := [], subOwner := [] } := by
  by_cases h : slotFree c slot n
  · have notSub : ¬Q := fun k => absurd h.1 (Nat.not_lt.2 (hQ.1 k).1)
    rw [claim_slot h]
    refine ⟨fun k => ?_, fun k => by simp [notSub], by simp [hP.2 h], rfl⟩
    by_cases hk : k = n
    · subst hk; simp [hP.2 h]
    · simp [hk, Tbl.get_set_other (α := Option Nat) _ _ _ hk]
  have notSlot : ¬P := fun k => h (hP.1 k)
  by_cases k : subFree c slot n
  · rw [claim_sub k]
    refine ⟨fun _ => by simp [notSlot], fun j => ?_, by simp [hQ.2 k], rfl⟩
    by_cases hj : j = n - 16
    · subst hj; simp [hQ.2 k]
    · simp [hj, Tbl.get_set_other (α := Option Nat) _ _ _ hj]
  · have notSub : ¬Q := fun j => k (hQ.1 j)
    rw [claim_refused h k]
    exact ⟨fun _ => by simp [notSlot], fun _ => by simp [notSub], by simp [notSlot, notSub], rfl⟩

end Sys2Proof

namespace Sys2Proof

open Machine

section
variable {s : State}

theorem slotFree_opened (slot n : Nat) : slotFree (opened s).here slot n = slotFree s.here slot n :=
  (congrArg (fun c => slotFree c slot n) (here_opened s) :)

theorem subFree_opened (slot n : Nat) : subFree (opened s).here slot n = subFree s.here slot n :=
  (congrArg (fun c => subFree c slot n) (here_opened s) :)

@[simp] theorem slotOwner_opened : (opened s).here.slotOwner = s.here.slotOwner := (congrArg Core.slotOwner (here_opened s) :)

@[simp] theorem subOwner_opened : (opened s).here.subOwner = s.here.subOwner := (congrArg Core.subOwner (here_opened s) :)

@[simp] theorem latches_opened : (opened s).here.latches = s.here.latches := (congrArg Core.latches (here_opened s) :)

@[simp] theorem mcmds_opened : (opened s).here.mcmds = s.here.mcmds := (congrArg Core.mcmds (here_opened s) :)

@[simp] theorem mode_opened : (opened s).here.mode = s.here.mode := (congrArg Core.mode (here_opened s) :)

@[simp] theorem mem_opened : (opened s).mem = s.mem := rfl

end

/-- The core of the issuing task after a change of that task alone. -/
theorem OnlyTask.coreAt {u t : State} (h : OnlyTask u t) {r : TaskRef} (cur : u.cur = r) :
    coreBeside (t.core r.coreRef) = coreBeside (u.core r.coreRef) := by
  subst cur
  exact h.core

/-- The issuing core changed, beside its tasks. -/
theorem spares_modHere {mc : Core → Core} (s : State) (f : Core → Core) (tasks : (f s.here).tasks = s.here.tasks)
    (core : mc (f s.here) = mc s.here) : Spares mc moduleBeside s (s.modHere f) := .modCore s f tasks core rfl

theorem core_modHere (s : State) (f : Core → Core) : (s.modHere f).core s.cur.coreRef = f s.here := State.core_modCore ..

/-- A lookup after one is replaced. -/
theorem get_set_option {α : Type} [DecidableEq α] (t : Tbl (Option α)) (k : Nat) (v : Option α) (j : Nat) :
    Tbl.get none (Tbl.set none t k v) j = if j = k then v else Tbl.get none t j := by
  split
  · next h => rw [h, Tbl.get_set_same]
  · next h => exact Tbl.get_set_other _ _ _ h

/-- MCLAIM gives the holder what is free or its own (R187). -/
theorem completes_mclaim {g : Guard} {a : BitVec 5} {idx : BitVec 6} {s : State} {P Q : Prop} [Decidable P] [Decidable Q] (r : Runs g s)
    (array : isCompute s.cur.core = true) (hP : P ↔ slotFree s.here s.cur.slot idx.toNat) (hQ : Q ↔ subFree s.here s.cur.slot idx.toNat) :
    Completes (.mclaim g a idx) s (fun c => { coreBeside c with slotOwner := [], subOwner := [] }) moduleBeside id
      (scalarResult 1 a (if P ∨ Q then 1 else 0)) fun t =>
      (∀ k, (t.core s.cur.coreRef).slotOwner.get none k = if P ∧ k = idx.toNat then some s.cur.slot else s.here.slotOwner.get none k)
      ∧ ∀ k, (t.core s.cur.coreRef).subOwner.get none k = if Q ∧ k = idx.toNat - 16 then some s.cur.slot else s.here.subOwner.get none k := by
  have bare : Bare (semMclaim g a idx) s := bare_array array rfl rfl rfl rfl rfl rfl
  obtain ⟨slots, subs, gives, rest⟩ := claim_spec (P := P) (Q := Q) (opened s).here s.cur.slot idx.toNat
    (hP.trans (Iff.of_eq (slotFree_opened ..).symm)) (hQ.trans (Iff.of_eq (subFree_opened ..).symm))
  refine bare.sparesThen (u := (opened s).modHere fun _ => ((opened s).here.claim s.cur.slot idx.toNat).1) (f := id) rfl r rfl rfl rfl ?_
    (spares_modHere _ _ ?_ ?_) steady_id (List.forall_mem_singleton.2 ⟨Nat.le_refl 1, own_scalar _ _ _ _⟩)
    (fun _ _ h => congrArg (fun c => { c with slotOwner := [], subOwner := [] }) h) (fun _ _ h => h) fun t ht => ⟨fun k => ?_, fun k => ?_⟩
  · rw [← gives]
    rfl
  · exact (congrArg Core.tasks rest :)
  · exact (congrArg coreBeside rest :)
  · have core := ht.core.trans (congrArg coreBeside (core_modHere ..))
    have holders : (t.core s.cur.coreRef).slotOwner = _ := (congrArg Core.slotOwner core :)
    rw [holders]
    exact (slots k).trans (by rw [slotOwner_opened])
  · have core := ht.core.trans (congrArg coreBeside (core_modHere ..))
    have holders : (t.core s.cur.coreRef).subOwner = _ := (congrArg Core.subOwner core :)
    rw [holders]
    exact (subs k).trans (by rw [subOwner_opened])

/-- Memory without a range. -/
def Memory.wiped (m : Memory) (lo n : Nat) : Memory := m.filter fun e => !(decide (lo ≤ e.1) && decide (e.1 < lo + n))

theorem giveSlot_eq (s : State) (c : CoreRef) (n : Nat) : s.giveSlot c n =
    ({ s with mem := Memory.wiped s.mem (slotBase c n) 0x8000 }).modCore c fun k => { k with slotOwner := Tbl.set none k.slotOwner n none } := rfl

theorem spares_giveSlot (s : State) (n : Nat) : Spares (fun c => { coreBeside c with slotOwner := [] })
    (fun x => { moduleBeside x with mem := [] }) s (s.giveSlot s.cur.coreRef n) := by
  rw [giveSlot_eq]
  exact ((spares_mem s _).mono (fun _ _ h => congrArg (fun c => { c with slotOwner := [] }) h) fun _ _ h => h).trans
    (.modCore { s with mem := _ } (fun k => { k with slotOwner := Tbl.set none k.slotOwner n none }) rfl rfl rfl)

theorem eff_mrel_slot {g : Guard} {idx : BitVec 6} {s0 s : State} (low : idx.toNat < 16) : (semMrel g idx).eff s0 s =
    (s.logRows s.cur.coreRef s.cur.slot (slotBase s.cur.coreRef idx.toNat) 128 256 0).giveSlot s.cur.coreRef idx.toNat := by
  unfold semMrel semNaming semArray
  rw [decide_eq_true low]
  rfl

theorem eff_mrel_sub {g : Guard} {idx : BitVec 6} {s0 s : State} (high : 16 ≤ idx.toNat) : (semMrel g idx).eff s0 s =
    s.modHere fun c => c.giveSub (idx.toNat - 16) := by
  unfold semMrel semNaming semArray
  rw [decide_eq_false (Nat.not_lt.2 high)]
  rfl

/-- MREL of an operand slot (R186, R187). -/
theorem completes_mrel_slot {g : Guard} {idx : BitVec 6} {s : State} (acts : Acts (.mrel g idx) s) (low : idx.toNat < 16) :
    Completes (.mrel g idx) s (fun c => { coreBeside c with slotOwner := [] }) (fun x => { moduleBeside x with mem := [] }) id []
      fun t => (∀ k, (t.core s.cur.coreRef).slotOwner.get none k = if k = idx.toNat then none else s.here.slotOwner.get none k)
        ∧ ∀ b, t.mem.byte b = if operandBase s.cur.coreRef + idx.toNat * 0x8000 ≤ b ∧ b < operandBase s.cur.coreRef + (idx.toNat + 1) * 0x8000
            then 0 else s.mem.byte b := by
  obtain ⟨r, ready⟩ := acts.slotOf rfl
  generalize hlog : (opened s).logRows s.cur.coreRef s.cur.slot (slotBase s.cur.coreRef idx.toNat) 128 256 0 = v
  have logged : Spares coreBeside moduleBeside (opened s) v := hlog ▸ spares_logRows (opened s) rfl ..
  have given := spares_giveSlot v idx.toNat
  rw [show v.cur = s.cur from logged.cur] at given
  refine ready.spares r rfl rfl rfl rfl (u := v.giveSlot s.cur.coreRef idx.toNat) ?_
    ((logged.beside fun _ _ h => congrArg (fun c => { c with slotOwner := [] }) h).trans given)
    (fun _ _ h => congrArg (fun c => { c with slotOwner := [] }) h) (fun _ _ h => congrArg (fun x => { x with mem := [] }) h) fun t ht => ⟨fun k => ?_, fun b => ?_⟩
  · rw [eff_mrel_slot low, ← hlog]
    rfl
  · have kept : (t.core s.cur.coreRef).slotOwner = ((v.giveSlot s.cur.coreRef idx.toNat).core s.cur.coreRef).slotOwner := by
      exact (congrArg Core.slotOwner (ht.coreAt (r := s.cur) logged.cur) :)
    have before : (v.core s.cur.coreRef).slotOwner = s.here.slotOwner := (congrArg Core.slotOwner (logged.core.trans (here_opened s)) :)
    rw [kept, giveSlot_eq, State.core_modCore]
    show Tbl.get none (Tbl.set none (v.core s.cur.coreRef).slotOwner idx.toNat none) k = _
    rw [before]
    exact get_set_option ..
  · have kept : t.mem = Memory.wiped v.mem (slotBase s.cur.coreRef idx.toNat) 0x8000 := (congrArg State.mem ht.rest :)
    have before : v.mem = s.mem := (congrArg State.mem logged.rest :)
    rw [kept, before, Memory.wiped, Memory.byte_wipe]
    have top : slotBase s.cur.coreRef idx.toNat + 0x8000 = operandBase s.cur.coreRef + (idx.toNat + 1) * 0x8000 := by
      rw [slotBase]
      omega
    rw [top]
    rfl

/-- MREL of a sub-array (R186, R187). -/
theorem completes_mrel_sub {g : Guard} {idx : BitVec 6} {s : State} (acts : Acts (.mrel g idx) s) (high : 16 ≤ idx.toNat) :
    Completes (.mrel g idx) s (fun c => { coreBeside c with subOwner := [], latches := [] }) moduleBeside id [] fun t =>
      ∀ k, (t.core s.cur.coreRef).subOwner.get none k = (if k = idx.toNat - 16 then none else s.here.subOwner.get none k)
        ∧ (t.core s.cur.coreRef).latches.get none k = if k = idx.toNat - 16 then none else s.here.latches.get none k := by
  obtain ⟨r, ready⟩ := acts.slotOf rfl
  refine ready.spares r rfl rfl rfl rfl (u := (opened s).modHere fun c => c.giveSub (idx.toNat - 16)) (eff_mrel_sub high) (spares_modHere _ _ rfl rfl)
    (fun _ _ h => congrArg (fun c => { c with subOwner := [], latches := [] }) h) (fun _ _ h => h) fun t ht k => ?_
  · have core := ht.core.trans (congrArg coreBeside (core_modHere ..))
    have subs : (t.core s.cur.coreRef).subOwner = _ := (congrArg Core.subOwner core :)
    have weights : (t.core s.cur.coreRef).latches = _ := (congrArg Core.latches core :)
    rw [subs, weights]
    rw [← subOwner_opened, ← latches_opened]
    exact ⟨get_set_option (opened s).here.subOwner (idx.toNat - 16) none k, get_set_option (opened s).here.latches (idx.toNat - 16) none k⟩

/-- A lookup in a list of keys of one value. -/
theorem get_map_some {α : Type} (v : α) (l : List Nat) (k : Nat) :
    Tbl.get none (l.map fun h => (h, some v)) k = if k ∈ l then some v else none := by
  induction l with
  | nil => rfl
  | cons h l ih =>
    by_cases hk : h = k
    · simp [Tbl.get, hk]
    · simp [Tbl.get, hk, ih, Ne.symm hk]

/-- MSPLIT (R188). -/
theorem completes_msplit {g : Guard} {idx : BitVec 6} {s : State} (acts : Acts (.msplit g idx) s) :
    Completes (.msplit g idx) s (fun c => { coreBeside c with mode := 0, subOwner := [], latches := [] }) moduleBeside id []
      fun t => (t.core s.cur.coreRef).mode = idx.toNat ∧ (t.core s.cur.coreRef).latches = []
        ∧ ∀ k, (t.core s.cur.coreRef).subOwner.get none k = if k < subCount idx.toNat then some s.cur.slot else none := by
  obtain ⟨r, ready⟩ := acts.slotOf rfl
  refine ready.spares r rfl rfl rfl rfl rfl (spares_modHere (opened s) (fun c => c.split s.cur.slot idx.toNat) rfl rfl)
    (fun _ _ h => congrArg (fun c => { c with mode := 0, subOwner := [], latches := [] }) h) (fun _ _ h => h) fun t ht => ?_
  have core := ht.core.trans (congrArg coreBeside (core_modHere ..))
  refine ⟨(congrArg Core.mode core :), (congrArg Core.latches core :), fun k => ?_⟩
  have subs : (t.core s.cur.coreRef).subOwner = (List.range (subCount idx.toNat)).map fun h => (h, some s.cur.slot) :=
    (congrArg Core.subOwner core :)
  rw [subs, get_map_some]
  simp only [List.mem_range]

/-! ### Latches (R195) -/

/-- Latches that execute change the latches and the queue of the core alone. -/
theorem spares_runLatches {r : TaskRef} (done : List MCmd) (l : List MCmd) (s : State) (cur : s.cur = r) :
    Spares (fun c => { coreBeside c with mcmds := [], latches := [] }) moduleBeside s (State.runLatches r.coreRef done l s) := by
  induction l generalizing done s with
  | nil =>
    subst cur
    exact .modCore s (fun k => { k with mcmds := done }) rfl rfl rfl
  | cons m l ih =>
    cases m with
    | latch slot h o v =>
      rw [State.runLatches]
      split
      · exact ih _ s cur
      · subst cur
        exact Spares.trans (.modCore s (fun k => { k with latches := Tbl.set none k.latches h _ }) rfl rfl rfl) (ih _ _ rfl)
    | token slot tok => exact ih _ s cur

/-- The weights that MLATCH's operand names, as they stand in a mode (R195). -/
def latchImage (m : Memory) (c : CoreRef) (o : Nat) (v : W64) (mode : Nat) : Latch :=
  ⟨v, m.bytes (operandBase c + o * 0x8000 + latchOff v) (imageSize (latchFmt v) (subDepth mode))⟩

/-- An only latch of a core executes at once. -/
theorem runLatches_alone (s : State) (c : CoreRef) (slot h o : Nat) (v : W64) : State.runLatches c [] [.latch slot h o v] s =
    (s.modCore c fun k => { k with latches := Tbl.set none k.latches h (some (latchImage s.mem c o v (s.core c).mode)) }).modCore c fun k => { k with mcmds := [] } := rfl

/-- A core with a latch queued (R195). -/
def Core.queueLatch (slot o : Nat) (v : W64) (c : Core) : Core := { c with mcmds := c.mcmds ++ [.latch slot (latchSub v) o v] }

theorem eff_mlatch (g : Guard) (a : BitVec 5) (idx : BitVec 6) (s : State) : (semMlatch g a idx).eff (opened s) (opened s) =
    ((opened s).modHere (Core.queueLatch s.cur.slot idx.toNat (s.sreg a))).latchAll s.cur.coreRef := by
  show ((opened s).modHere (Core.queueLatch (opened s).cur.slot idx.toNat ((opened s).sreg a))).latchAll (opened s).cur.coreRef = _
  rw [sreg_opened]
  rfl

/-- MLATCH (R195, R196). -/
theorem completes_mlatch {g : Guard} {a : BitVec 5} {idx : BitVec 6} {s : State} (acts : Acts (.mlatch g a idx) s) :
    Completes (.mlatch g a idx) s (fun c => { coreBeside c with mcmds := [], latches := [] }) moduleBeside id [] fun t =>
      s.here.mcmds = [] → (t.core s.cur.coreRef).mcmds = [] ∧ ∀ h, (t.core s.cur.coreRef).latches.get none h =
        if h = latchSub (s.sreg a) then some ⟨s.sreg a, s.mem.bytes (operandBase s.cur.coreRef + idx.toNat * 0x8000 + latchOff (s.sreg a))
          (imageSize (latchFmt (s.sreg a)) (subDepth s.here.mode))⟩
        else s.here.latches.get none h := by
  obtain ⟨r, ready⟩ := acts.slotOf rfl
  generalize hq : (opened s).modHere (Core.queueLatch s.cur.slot idx.toNat (s.sreg a)) = q
  have queued : Spares (fun c => { coreBeside c with mcmds := [], latches := [] }) moduleBeside (opened s) q :=
    hq ▸ spares_modHere (opened s) (Core.queueLatch s.cur.slot idx.toNat (s.sreg a)) rfl rfl
  have core : q.core s.cur.coreRef = Core.queueLatch s.cur.slot idx.toNat (s.sreg a) (opened s).here := by
    rw [← hq]
    exact core_modHere ..
  refine ready.spares r rfl rfl rfl rfl (u := q.latchAll s.cur.coreRef) ((eff_mlatch ..).trans (by rw [hq]))
    (queued.trans (spares_runLatches [] _ q queued.cur))
    (fun _ _ h => congrArg (fun c => { c with mcmds := [], latches := [] }) h) (fun _ _ h => h) fun t ht idle => ?_
  have only : (q.core s.cur.coreRef).mcmds = [.latch s.cur.slot (latchSub (s.sreg a)) idx.toNat (s.sreg a)] := by
    rw [core, Core.queueLatch, mcmds_opened, idle]
    rfl
  have weights : (q.core s.cur.coreRef).latches = s.here.latches := by rw [core, ← latches_opened]; rfl
  have mode : (q.core s.cur.coreRef).mode = s.here.mode := by rw [core, ← mode_opened]; rfl
  have mem : q.mem = s.mem := (congrArg State.mem queued.rest :)
  rw [State.latchAll, only, runLatches_alone, mode, mem] at ht
  have after := ht.coreAt (r := s.cur) queued.cur
  rw [State.core_modCore, State.core_modCore] at after
  have images : (t.core s.cur.coreRef).latches = Tbl.set none (q.core s.cur.coreRef).latches (latchSub (s.sreg a))
      (some (latchImage s.mem s.cur.coreRef idx.toNat (s.sreg a) s.here.mode)) := (congrArg Core.latches after :)
  refine ⟨(congrArg Core.mcmds after :), fun h => ?_⟩
  rw [images, weights]
  exact get_set_option ..

/-- Settles O46: claims, releases, modes and latches are ready slots that change their own resources. -/
theorem arrayResources : Obligations.ArrayResources := by
  unfold Obligations.ArrayResources
  intro g a tok e idx part s
  refine ⟨fun r core i hi => ?_, fun r core => ⟨completes_mclaim r core Iff.rfl Iff.rfl, ?_⟩, completes_mrel_slot, completes_mrel_sub,
    completes_msplit, completes_mlatch⟩
  · simp only [List.mem_cons, List.not_mem_nil, or_false] at hi
    rcases hi with rfl | rfl | rfl | rfl | rfl | rfl | rfl | rfl | rfl | rfl | rfl
    · exact exec_illegal (m := semMclaim g a idx) rfl r.may (illegal_array rfl core)
    · exact exec_illegal (m := semMrel g idx) rfl r.may (illegal_array rfl core)
    · exact exec_illegal (m := semMsplit g idx) rfl r.may (illegal_array rfl core)
    · exact exec_illegal (m := semMskip g idx) rfl r.may (illegal_array rfl core)
    · exact exec_illegal (m := semMlatch g a idx) rfl r.may (illegal_array rfl core)
    · exact exec_illegal (m := semMzero g idx) rfl r.may (illegal_array rfl core)
    · exact exec_illegal (m := semMcfg g a idx) rfl r.may (illegal_array rfl core)
    · exact exec_illegal (m := semMrd g a idx part) rfl r.may (illegal_array rfl core)
    · exact exec_illegal (m := semMwr g a idx part) rfl r.may (illegal_array rfl core)
    · exact exec_illegal (m := semMstrm g tok e idx) rfl r.may (illegal_array rfl core)
    · exact exec_illegal (m := semMout g tok e idx) rfl r.may (illegal_array rfl core)
  · have bit : (fun t : Task => { t with mskip := decide (idx = 1) }) = fun t => { t with mskip := decide (idx.toNat = 1) } := by
      have same : (idx = 1) = (idx.toNat = 1) := propext (BitVec.toNat_inj (y := 1)).symm
      simp only [same]
    refine (bare_array (m := semMskip g idx) core rfl rfl rfl rfl rfl rfl).changesOwn rfl r rfl rfl rfl (congrArg (opened s).modMe bit)
      ⟨fun _ _ _ _ _ _ _ => rfl, fun _ => rfl, fun _ => rfl, fun _ => rfl, fun _ => rfl⟩

end Sys2Proof

namespace Sys2Proof

open Machine

/-! ### Accumulator tiles (R189 to R193) -/

/-- A slot whose own check fails traps before anything of its bundle takes effect (R35). -/
theorem exec_traps {i : Instr} {m : SlotSem} {s : State} {t : Trap} (hx : exec i s = issueSlot m s) (may : MayIssue s)
    (legal : m.isIllegal s = false) (allowed : m.isDenied s = false) (mark : m.mark = false) (peak : m.peak = fun _ => 0)
    (trap : m.execTrap 0 (opened s) = some t) : exec i s = .next (s.takeTrap s.cur t) := by
  have stall : stallAll [(0, m)] (s.atIssue [(0, m)]) s = none := by
    rw [atIssue_opened m s mark]
    simp [stallAll, atPeak_opened peak, SlotSem.stall, trap]
  have check : m.execTrap 0 (s.atIssue [(0, m)]) = some t := by rw [atIssue_opened m s mark, trap]
  rw [hx, issueSlot, issueOne, may.budget]
  simp [issueSems, legal, allowed, may.holds, stall, check, Attempt.state]

@[simp] theorem units_opened (s : State) : (opened s).here.units = s.here.units := (congrArg Core.units (here_opened s) :)

@[simp] theorem accUnit_opened (s : State) (n : Nat) : (opened s).here.accUnit n = s.here.accUnit n := by
  rw [Core.accUnit, units_opened]
  rfl

theorem accUnit_setUnit (c : Core) (n k : Nat) (u : AccUnit) : (c.setUnit n u).accUnit k = if k = n then u else c.accUnit k := by
  unfold Core.setUnit Core.accUnit
  split
  · next h => rw [h]; exact Tbl.get_set_same (α := AccUnit) ..
  · next h => exact Tbl.get_set_other (α := AccUnit) _ _ _ h

/-- Units set in turn. -/
theorem accUnit_setUnits (c : Core) (l : List Nat) (u : AccUnit) (k : Nat) :
    (l.foldl (fun c n => c.setUnit n u) c).accUnit k = if k ∈ l then u else c.accUnit k := by
  induction l generalizing c with
  | nil => rfl
  | cons n l ih =>
    rw [List.foldl_cons, ih, accUnit_setUnit]
    by_cases h : k ∈ l
    · simp [h]
    · by_cases hn : k = n <;> simp [h, hn]

/-- The units of a tile that MCFG configures (R190). -/
theorem accUnit_configure (c : Core) {slot n u cols k : Nat} (low : n ≤ k) (high : k < n + u) :
    (c.configure slot n u cols).accUnit k = ⟨n, u, cols, slot, false, 0⟩ := by
  have member : k ∈ unitRun n u := List.mem_map.2 ⟨k - n, List.mem_range.2 (by omega), by omega⟩
  rw [Core.configure, accUnit_setUnits, if_pos member]

/-- The tile that a unit belongs to made FREE, if it belongs to one. -/
def tileFreed (t : Tbl AccUnit) (k : Nat) : Tbl AccUnit :=
  if 0 < (Tbl.get AccUnit.free t k).units then t.filter fun e => !decide (e.2.head = (Tbl.get AccUnit.free t k).head) else t

/-- The units of a core after MCFG, as a table (R190). -/
def configured (t : Tbl AccUnit) (slot n u cols : Nat) : Tbl AccUnit :=
  (unitRun n u).foldl (fun t k => Tbl.set AccUnit.free t k ⟨n, u, cols, slot, false, 0⟩) ((unitRun n u).foldl tileFreed t)

/-- Changes of the units of a core in turn. -/
theorem foldl_units (f : Core → Nat → Core) (h : Tbl AccUnit → Nat → Tbl AccUnit) (each : ∀ c k, f c k = { c with units := h c.units k })
    (c : Core) (l : List Nat) : l.foldl f c = { c with units := l.foldl h c.units } := by
  induction l generalizing c with
  | nil => rfl
  | cons k l ih => rw [List.foldl_cons, ih, each]; rfl

/-- MCFG reads and changes the units of its core alone. -/
theorem configure_eq (c : Core) (slot n u cols : Nat) : c.configure slot n u cols = { c with units := configured c.units slot n u cols } := by
  have frees : ∀ (c : Core) (k : Nat), (if 0 < (c.accUnit k).units then c.freeTile (c.accUnit k).head else c) =
      { c with units := tileFreed c.units k } := by
    intro c k
    unfold Core.accUnit Core.freeTile tileFreed
    split <;> rfl
  rw [Core.configure, foldl_units (fun c k => c.setUnit k ⟨n, u, cols, slot, false, 0⟩) (fun t k => Tbl.set AccUnit.free t k ⟨n, u, cols, slot, false, 0⟩) fun _ _ => rfl,
    foldl_units _ tileFreed frees]
  rfl

/-- The wiped bytes of u units (R190, R192). -/
theorem zeroUnits_eq (s : State) (c : CoreRef) (slot n u cols : Nat) : s.zeroUnits c slot n u cols =
    { s.logRows c slot (unitAddr c n) (4 * cols) (4096 * u / cols) 0 with
      mem := Memory.wiped (s.logRows c slot (unitAddr c n) (4 * cols) (4096 * u / cols) 0).mem (unitAddr c n) (0x4000 * u) } := rfl

theorem core_modHere_at (s : State) (h : Core → Core) {r : TaskRef} (cur : s.cur = r) :
    (s.modHere h).core r.coreRef = h (s.core r.coreRef) := by
  subst cur
  exact core_modHere ..

/-- A slot that changes accumulator bytes through its region's log, and then the units of its core. -/
theorem alters {i : Instr} {m : SlotSem} {s v : State} {h : Core → Core} {mem : Memory} {f : Task → Task} {t0 : Tbl AccUnit} (ready : Ready m s)
    (r : Runs m.guard s) (hx : exec i s = issueSlot m s) (mark : m.mark = false) (funit : m.funit = false)
    (queues : ∀ t, popTaken (m.takes (opened s) 0) (m.takes (opened s) 1) t = f t)
    (logged : Spares coreBeside moduleBeside (opened s) v) (units : ∀ c, h c = { c with units := (h c).units })
    (eff : m.eff (opened s) (opened s) = ({ v with mem := mem }).modHere h) (result : (h (v.core s.cur.coreRef)).units = t0) :
    Completes i s (fun c => { coreBeside c with units := [] }) (fun x => { moduleBeside x with mem := [] }) f [] fun t =>
      t.mem = mem ∧ (t.core s.cur.coreRef).units = t0 := by
  have altered : Spares (fun c => { coreBeside c with units := [] }) (fun x => { moduleBeside x with mem := [] }) (opened s)
      (({ v with mem := mem }).modHere h) := by
    refine (logged.beside fun _ _ h => congrArg (fun c => { c with units := [] }) h).trans
      (((spares_mem v mem).mono (fun _ _ h => congrArg (fun c => { c with units := [] }) h) fun _ _ h => h).trans (.modCore _ h ?_ ?_ rfl))
    · rw [units]
    · rw [units]
      rfl
  have task : (({ v with mem := mem }).modHere h).task s.cur = { id (opened s).me with pend := s.me.pend ++ [] } := by
    refine altered.own.trans ?_
    show (opened s).me = _
    rw [List.append_nil, me_opened]
    rfl
  obtain ⟨t, next, frame, mine, only⟩ := ready.next r hx mark funit eff altered.toFrame altered.cur task steady_id (by simp)
    (fun _ _ h => congrArg (fun c => { c with units := [] }) h) (fun _ _ h => congrArg (fun x => { x with mem := [] }) h)
  refine ⟨t, next, frame, ?_, (congrArg State.mem only.rest :), ?_⟩
  · rw [mine, taskPast, queues]
    rfl
  · have core := only.coreAt (r := s.cur) logged.cur
    have here := core_modHere_at { v with mem := mem } h (r := s.cur) logged.cur
    rw [here] at core
    exact (congrArg Core.units core : _).trans result

section
variable {g : Guard} {a : BitVec 5} {idx : BitVec 6} {part : BitVec 2} {s : State}

/-- The core's units once its region has logged. -/
theorem units_logged {v : State} (logged : Spares coreBeside moduleBeside (opened s) v) : (v.core s.cur.coreRef).units = s.here.units :=
  (congrArg Core.units (logged.core.trans (here_opened s)) :)

theorem mem_logged {v : State} (logged : Spares coreBeside moduleBeside (opened s) v) : v.mem = s.mem :=
  (congrArg State.mem logged.rest :)

/-- A slot that takes no queue. -/
theorem takes_nothing {m : SlotSem} (src : m.vsrc = []) (u : State) (t : Task) : popTaken (m.takes u 0) (m.takes u 1) t = id t := by
  have none_taken : ∀ q, m.takes u q = false := fun q => by simp [SlotSem.takes, src]
  rw [none_taken, none_taken]
  rfl

/-- MCFG of a tile (R190). -/
theorem completes_mcfg (acts : Acts (.mcfg g a idx) s) (some_units : cfgUnits (s.sreg a) ≠ 0) :
    Completes (.mcfg g a idx) s (fun c => { coreBeside c with units := [] }) (fun x => { moduleBeside x with mem := [] }) id [] fun t =>
      t.mem = Memory.wiped s.mem (unitAddr s.cur.coreRef idx.toNat) (0x4000 * cfgUnits (s.sreg a))
      ∧ (t.core s.cur.coreRef).units = configured s.here.units s.cur.slot idx.toNat (cfgUnits (s.sreg a)) (cfgCols (s.sreg a)) := by
  obtain ⟨r, ready⟩ := acts.slotOf rfl
  generalize hv : (opened s).logRows s.cur.coreRef s.cur.slot (unitAddr s.cur.coreRef idx.toNat) (4 * colCount (cfgCols (s.sreg a)))
    (4096 * cfgUnits (s.sreg a) / colCount (cfgCols (s.sreg a))) 0 = v
  have logged : Spares coreBeside moduleBeside (opened s) v := hv ▸ spares_logRows (opened s) rfl ..
  refine alters ready r rfl rfl rfl (takes_nothing rfl _) logged
    (h := fun c => c.configure s.cur.slot idx.toNat (cfgUnits (s.sreg a)) (cfgCols (s.sreg a))) (fun c => ?_) ?_ ?_
  · rw [configure_eq]
  · show (let v := (opened s).sreg a
      if cfgUnits v = 0 then (opened s).modHere fun c => c.freeTile idx.toNat
      else ((opened s).zeroUnits s.cur.coreRef s.cur.slot idx.toNat (cfgUnits v) (colCount (cfgCols v))).modHere fun c =>
            c.configure s.cur.slot idx.toNat (cfgUnits v) (cfgCols v)) = _
    simp only [sreg_opened]
    rw [if_neg some_units, zeroUnits_eq, hv, mem_logged logged]
  · rw [configure_eq, units_logged logged]

/-- MCFG that frees a tile (R190). -/
theorem completes_mcfg_free (acts : Acts (.mcfg g a idx) s) (no_units : cfgUnits (s.sreg a) = 0) :
    Completes (.mcfg g a idx) s (fun c => { coreBeside c with units := [] }) (fun x => { moduleBeside x with mem := [] }) id [] fun t =>
      t.mem = s.mem ∧ (t.core s.cur.coreRef).units = s.here.units.filter fun x => !decide (x.2.head = idx.toNat) := by
  obtain ⟨r, ready⟩ := acts.slotOf rfl
  refine alters ready r rfl rfl rfl (takes_nothing rfl _) (Spares.refl ..) (h := fun c => c.freeTile idx.toNat) (fun c => rfl) ?_ ?_
  · show (let v := (opened s).sreg a
      if cfgUnits v = 0 then (opened s).modHere fun c => c.freeTile idx.toNat
      else ((opened s).zeroUnits s.cur.coreRef s.cur.slot idx.toNat (cfgUnits v) (colCount (cfgCols v))).modHere fun c =>
            c.configure s.cur.slot idx.toNat (cfgUnits v) (cfgCols v)) = _
    simp only [sreg_opened]
    rw [if_pos no_units]
    rfl
  · rw [← units_logged (Spares.refl ..)]
    rfl

/-- MZERO (R192). -/
theorem completes_mzero (acts : Acts (.mzero g idx) s) :
    Completes (.mzero g idx) s (fun c => { coreBeside c with units := [] }) (fun x => { moduleBeside x with mem := [] }) id [] fun t =>
      t.mem = Memory.wiped s.mem (unitAddr s.cur.coreRef idx.toNat) (0x4000 * (s.here.accUnit idx.toNat).units)
      ∧ (t.core s.cur.coreRef).units = (s.here.modTile idx.toNat fun u => { u with live := true, flags := 0 }).units := by
  obtain ⟨r, ready⟩ := acts.slotOf rfl
  generalize hv : (opened s).logRows s.cur.coreRef s.cur.slot (unitAddr s.cur.coreRef idx.toNat) (4 * colCount (s.here.accUnit idx.toNat).cols)
    (4096 * (s.here.accUnit idx.toNat).units / colCount (s.here.accUnit idx.toNat).cols) 0 = v
  have logged : Spares coreBeside moduleBeside (opened s) v := hv ▸ spares_logRows (opened s) rfl ..
  refine alters ready r rfl rfl rfl (takes_nothing rfl _) logged
    (h := fun c => c.modTile idx.toNat fun u => { u with live := true, flags := 0 }) (fun c => rfl) ?_ ?_
  · show (let u := (opened s).here.accUnit idx.toNat
      ((opened s).zeroUnits s.cur.coreRef s.cur.slot idx.toNat u.units (colCount u.cols)).modHere fun c =>
        c.modTile idx.toNat fun u => { u with live := true, flags := 0 }) = _
    simp only [accUnit_opened]
    rw [zeroUnits_eq, hv, mem_logged logged]
  · rw [Core.modTile, units_logged logged]
    rfl

/-- MRD (R193). -/
theorem completes_mrd (acts : Acts (.mrd g a idx part) s) : Does (.mrd g a idx part) s false false id
    [⟨.vec (s.me.vpos a.toNat) (BitVec.allOnes 1024)
      (wordsOf (s.mem.bytes (unitAddr s.cur.coreRef idx.toNat + 0x1000 * part.toNat) 0x1000)), 4, 0⟩] := by
  obtain ⟨r, ready⟩ := acts.slotOf rfl
  have place : (opened s).me.vpos a.toNat = s.me.vpos a.toNat := vpos_opened ..
  generalize hw : wordsOf (s.mem.bytes (unitAddr s.cur.coreRef idx.toNat + 0x1000 * part.toNat) 0x1000) = words
  have eff : (semMrd g a idx part).eff (opened s) (opened s) =
      (opened s).modTask s.cur fun t => t.push 4 (.vec (s.me.vpos a.toNat) (BitVec.allOnes 1024) words) := by
    rw [← place, ← hw]
    rfl
  obtain ⟨t, next, only, mine, -⟩ := ready.next (i := .mrd g a idx part) r rfl rfl rfl eff (OnlyTask.modTask (opened s) _) rfl
    (f := id) (l := [⟨.vec (s.me.vpos a.toNat) (BitVec.allOnes 1024) words, 4, 0⟩])
    ((State.me_modMe (opened s) _).trans (by rw [me_opened]; rfl)) steady_id
    (List.forall_mem_singleton.2 ⟨Nat.le_add_left 1 3, own_later (Nat.le_add_left 2 2)⟩) (fun _ _ h => h) (fun _ _ h => h)
  refine ⟨t, next, only, mine.trans ?_⟩
  rw [taskPast, takes_nothing (m := semMrd g a idx part) rfl]
  rfl

/-- MWR (R193). -/
theorem completes_mwr (acts : Acts (.mwr g a idx part) s) : Completes (.mwr g a idx part) s (fun c => { coreBeside c with units := [] })
    (fun x => { moduleBeside x with mem := [] }) (popTaken (decide (a = 30)) (decide (a = 31))) [] fun t =>
      t.mem = s.mem.setBytes (unitAddr s.cur.coreRef idx.toNat + 0x1000 * part.toNat) (bytesOf (s.vreg a.toNat))
      ∧ (t.core s.cur.coreRef).units = (s.here.modTile (s.here.accUnit idx.toNat).head fun u => { u with live := true }).units := by
  obtain ⟨r, ready⟩ := acts.slotOf rfl
  obtain ⟨first, second⟩ := takes_names (m := semMwr g a idx part) (src := [a]) (acts_opened r.guard) rfl
  have single : ∀ n : BitVec 5, [a].contains n = decide (a = n) := fun n => by
    rw [List.contains_cons, List.contains_nil, Bool.or_false, beq_eq_decide]
    exact decide_eq_decide.2 eq_comm
  generalize hv : (opened s).logRows s.cur.coreRef s.cur.slot (unitAddr s.cur.coreRef idx.toNat + 0x1000 * part.toNat)
    (4 * colCount (s.here.accUnit idx.toNat).cols) (0x1000 / (4 * colCount (s.here.accUnit idx.toNat).cols)) (leNat (bytesOf (s.vreg a.toNat))) = v
  have logged : Spares coreBeside moduleBeside (opened s) v := hv ▸ spares_logRows (opened s) rfl ..
  refine alters ready r rfl rfl rfl (fun t => by rw [first, second, single, single]) logged
    (h := fun c => c.modTile (c.accUnit idx.toNat).head fun u => { u with live := true }) (fun c => rfl) ?_ ?_
  · rw [← mem_logged logged, ← hv, ← accUnit_opened, ← vreg_opened]
    rfl
  · rw [Core.accUnit, Core.modTile, units_logged logged]
    rfl

theorem queueTrap_nothing {m : SlotSem} (src : m.vsrc = []) (k : Nat) (u : State) : m.queueTrap k u = none := by
  simp [SlotSem.queueTrap, SlotSem.takes, src]

/-- A unit that is not the task's (R191 to R193). -/
theorem ownsUnit_eq_false {slot n : Nat} (other : (s.here.accUnit n).owner ≠ slot) : (opened s).here.ownsUnit slot n = false := by
  simp [Core.ownsUnit, other]

end

theorem byte_wiped (m : Memory) (lo n b : Nat) : Memory.byte (Memory.wiped m lo n) b = if lo ≤ b ∧ b < lo + n then 0 else m.byte b :=
  Memory.byte_wipe ..

theorem length_bytesOf (l : List W32) : (bytesOf l).length = 4 * l.length := by
  induction l with
  | nil => rfl
  | cons w l ih =>
    rw [bytesOf, List.length_append, ih, List.length_cons]
    have four : (leBytes 4 w.toNat).length = 4 := rfl
    omega

/-- Settles O47: MCFG, MZERO and MWR are `alters` with their bytes and units, MRD is a result. -/
theorem accumulatorTiles : Obligations.AccumulatorTiles := by
  unfold Obligations.AccumulatorTiles
  intro g a idx part s
  refine ⟨fun acts some_units => ?_, fun acts no_units => ?_, fun acts => ?_, completes_mrd, fun acts size => ?_, ?_⟩
  · obtain ⟨t, next, frame, mine, mem, units⟩ := completes_mcfg acts some_units
    refine ⟨t, next, frame, mine, fun b out => ?_, fun b low high => ?_, fun k low high => ?_, ?_⟩
    · rw [mem, byte_wiped]
      exact if_neg out
    · rw [mem, byte_wiped]
      exact if_pos ⟨low, high⟩
    · have here := accUnit_configure s.here (slot := s.cur.slot) (cols := cfgCols (s.sreg a)) low high
      rw [configure_eq] at here
      rw [Core.accUnit, units]
      exact here
    · rw [units]
      exact (congrArg Core.units (configure_eq ..)).symm
  · obtain ⟨t, next, frame, mine, mem, units⟩ := completes_mcfg_free acts no_units
    exact ⟨t, next, frame, mine, fun b _ => by rw [mem], units⟩
  · obtain ⟨t, next, frame, mine, mem, units⟩ := completes_mzero acts
    refine ⟨t, next, frame, mine, fun b out => ?_, fun b low high => ?_, units⟩
    · rw [mem, byte_wiped]
      exact if_neg out
    · rw [mem, byte_wiped]
      exact if_pos ⟨low, high⟩
  · obtain ⟨t, next, frame, mine, mem, units⟩ := completes_mwr acts
    refine ⟨t, next, frame, mine, fun b out => ?_, mem, units⟩
    have len : (bytesOf (s.vreg a.toNat)).length = 4096 := by rw [length_bytesOf, size]
    have short := part.isLt
    rw [mem, Memory.byte_setBytes_out _ _ _ _ (by omega)]
  · intro r array _ _ other backed not30 not31 i hi
    have refused : trapIf (!false) (resourceTrap idx.toNat) = some ⟨0x29, idx.setWidth 64⟩ := by
      rw [resourceTrap, BitVec.ofNat_toNat]
      rfl
    have notHead : (opened s).here.ownsTile s.cur.slot idx.toNat = false := by rw [Core.ownsTile, ownsUnit_eq_false other, Bool.false_and]
    have acts : ∀ m : SlotSem, m.guard = g → m.acts (opened s) = true := fun m hm => acts_opened (by rw [hm]; exact r.guard)
    have free : ∀ q, q = 0 ∨ q = 1 → (semMwr g a idx part).takes (opened s) q = false := by
      intro q hq
      obtain ⟨first, second⟩ := takes_names (m := semMwr g a idx part) (src := [a]) (acts _ rfl) rfl
      rcases hq with rfl | rfl
      · rw [first]; simpa using not30.symm
      · rw [second]; simpa using not31.symm
    simp only [List.mem_cons, List.not_mem_nil, or_false] at hi
    rcases hi with rfl | rfl | rfl
    · have bare : Bare (semMzero g idx) s := bare_array array rfl rfl rfl rfl rfl rfl
      exact bare.traps rfl r.may r.guard rfl (by
        show trapIf (!(opened s).here.ownsTile s.cur.slot idx.toNat) (resourceTrap idx.toNat) = _
        rw [notHead]
        exact refused)
    · refine exec_traps (m := semMrd g a idx part) rfl r.may ?_ ?_ rfl rfl ?_
      · simp [SlotSem.isIllegal, semMrd, semNaming, semArray, array, backed]
      · simp [SlotSem.isDenied, semMrd, semNaming, semArray]
      · rw [SlotSem.execTrap, if_pos (acts _ rfl)]
        rw [queueTrap_nothing rfl]
        show firstTrap [trapIf (!(opened s).here.ownsUnit s.cur.slot idx.toNat) (resourceTrap idx.toNat), _] = _
        rw [ownsUnit_eq_false other, refused]
        rfl
    · refine exec_traps (m := semMwr g a idx part) rfl r.may ?_ ?_ rfl rfl ?_
      · simp [SlotSem.isIllegal, semMwr, semNaming, semArray, array, backed]
      · simp [SlotSem.isDenied, semMwr, semNaming, semArray]
      · rw [SlotSem.execTrap, if_pos (acts _ rfl), SlotSem.queueTrap, free 0 (.inl rfl), free 1 (.inr rfl)]
        show trapIf (!(opened s).here.ownsUnit s.cur.slot idx.toNat) (resourceTrap idx.toNat) = _
        rw [ownsUnit_eq_false other]
        exact refused

end Sys2Proof

namespace Sys2Proof

open Machine

/-! ### Flow instructions (R327 to R329) -/

/-- A ready slot that takes the queues among its sources and spares every task. -/
theorem Ready.sparesTaking {i : Instr} {m : SlotSem} {s u : State} {mc : Core → Core} {ms : State → State} {src : List (BitVec 5)}
    (ready : Ready m s) (r : Runs m.guard s) (hx : exec i s = issueSlot m s) (mark : m.mark = false) (funit : m.funit = false)
    (hs : m.vsrc = src.map BitVec.toNat) (eff : m.eff (opened s) (opened s) = u) (spares : Spares mc ms (opened s) u)
    (hc : ∀ a b, coreBeside a = coreBeside b → mc a = mc b) (hm : ∀ a b, moduleBeside a = moduleBeside b → ms a = ms b)
    {P : State → Prop} (post : ∀ t, OnlyTask u t → P t) : Completes i s mc ms (popTaken (src.contains 30) (src.contains 31)) [] P := by
  have task : u.task s.cur = { id (opened s).me with pend := s.me.pend ++ [] } := by
    refine spares.own.trans ?_
    show (opened s).me = _
    rw [List.append_nil, me_opened]
    rfl
  obtain ⟨t, next, frame, mine, only⟩ := ready.next r hx mark funit eff spares.toFrame spares.cur task steady_id (by simp) hc hm
  obtain ⟨first, second⟩ := takes_names (acts_opened r.guard) hs
  rw [first, second] at mine
  exact ⟨t, next, frame, mine, post t only⟩

/-- A ready slot that takes no queue and spares every task but its own. -/
theorem Ready.sparesThen {i : Instr} {m : SlotSem} {s u : State} {l : List Pending} {f : Task → Task} {mc : Core → Core} {ms : State → State}
    (ready : Ready m s) (r : Runs m.guard s) (hx : exec i s = issueSlot m s) (mark : m.mark = false) (funit : m.funit = false)
    (src : m.vsrc = []) (eff : m.eff (opened s) (opened s) = u.modMe fun t => { f t with pend := t.pend ++ l })
    (spares : Spares mc ms (opened s) u) (hf : Steady f) (hl : ∀ p ∈ l, 1 ≤ p.left ∧ Own p)
    (hc : ∀ a b, coreBeside a = coreBeside b → mc a = mc b) (hs : ∀ a b, moduleBeside a = moduleBeside b → ms a = ms b) {P : State → Prop}
    (post : ∀ t, OnlyTask u t → P t) : Completes i s mc ms f l P := by
  have own : u.me = (opened s).me := (by rw [State.me, spares.cur, spares.own]; rfl)
  have change : OnlyTask u (u.modMe fun t => { f t with pend := t.pend ++ l }) := OnlyTask.modTask u _
  have task : (u.modMe fun t => { f t with pend := t.pend ++ l }).task s.cur = { f (opened s).me with pend := s.me.pend ++ l } := by
    have mine : (u.modMe fun t => { f t with pend := t.pend ++ l }).me = _ := State.me_modMe ..
    rw [State.me, show (u.modMe _).cur = s.cur from spares.cur, own] at mine
    rw [mine, me_opened]
  obtain ⟨t, next, frame, mine, only⟩ := ready.next r hx mark funit eff (spares.toFrame.trans (change.mono hc hs) spares.cur) spares.cur task
    hf hl hc hs
  have takes : ∀ q, m.takes (opened s) q = false := fun q => by simp [SlotSem.takes, src]
  rw [takes, takes] at mine
  exact ⟨t, next, frame, mine, post t (change.trans only)⟩

/-- A ready slot that takes no queue, with a steady change of its task and results, and nothing else. -/
theorem Ready.changes {i : Instr} {m : SlotSem} {s : State} {l : List Pending} {f : Task → Task} (ready : Ready m s) (r : Runs m.guard s)
    (hx : exec i s = issueSlot m s) (mark : m.mark = false) (funit : m.funit = false) (src : m.vsrc = [])
    (eff : m.eff (opened s) (opened s) = (opened s).modMe fun t => { f t with pend := t.pend ++ l }) (hf : Steady f)
    (hl : ∀ p ∈ l, 1 ≤ p.left ∧ Own p) : Does i s false false f l := by
  obtain ⟨t, next, frame, mine, -⟩ := ready.sparesThen r hx mark funit src eff (Spares.refl coreBeside moduleBeside _) hf hl (fun _ _ h => h)
    (fun _ _ h => h) (P := fun _ => True) fun _ _ => trivial
  exact ⟨t, next, frame, mine⟩

theorem contains_singleton (a n : BitVec 5) : [a].contains n = decide (a = n) := by
  rw [List.contains_cons, List.contains_nil, Bool.or_false, beq_eq_decide]
  exact decide_eq_decide.2 eq_comm

section
variable {s : State}

@[simp] theorem queue_opened (q : Nat) : (opened s).me.queue q = s.me.queue q := by
  rw [me_opened]
  rfl

@[simp] theorem myQueue_opened (q : BitVec 1) : (opened s).myQueue q = s.myQueue q := queue_opened _

@[simp] theorem sendBuf_opened : (opened s).here.sendBuf = s.here.sendBuf := (congrArg Core.sendBuf (here_opened s) :)

/-- Cells put behind the others of the core's send buffer. -/
theorem spares_send (cells : List Cell) : Spares (fun c => { coreBeside c with sendBuf := [] }) moduleBeside s
    (s.modHere fun c => { c with sendBuf := c.sendBuf ++ cells }) :=
  spares_modHere s (fun c => { c with sendBuf := c.sendBuf ++ cells }) rfl rfl

theorem sendBuf_sent {t : State} (cells : List Cell) (h : OnlyTask ((opened s).modHere fun c => { c with sendBuf := c.sendBuf ++ cells }) t) :
    (t.core s.cur.coreRef).sendBuf = s.here.sendBuf ++ cells := by
  have core := (h.coreAt (r := s.cur) rfl).trans (congrArg coreBeside (core_modHere (opened s) _))
  rw [← sendBuf_opened]
  exact (congrArg Core.sendBuf core :)

end

theorem steady_setQueue (q : Nat) (y : InQueue) : Steady fun t => t.setQueue q y := by
  refine ⟨fun _ _ _ _ _ _ _ => ?_, fun _ => ?_, fun _ => ?_, fun _ => ?_, fun _ => ?_⟩ <;> unfold Task.setQueue <;> split <;> rfl

section
variable {g : Guard} {x f : BitVec 5} {q : BitVec 1} {s : State}

theorem bare_fbind : Bare (semFbind g x q) s := bare_any s rfl rfl rfl rfl rfl rfl

/-- The checks of FBIND (R327). -/
theorem fbindTrap : (semFbind g x q).trap 0 (opened s) = firstTrap
    [trapIf (decide (2 ^ 32 ≤ (s.sreg x).toNat) || (!bitOf (s.sreg x).toNat 31 && reservedFlow ((s.sreg x).toNat % 2 ^ 20))) ⟨0x80, s.sreg x⟩,
      trapIf (decide ((s.me.queue q.toNat).cells ≠ [])) ⟨0x81, zext q⟩] := by
  show firstTrap [trapIf (decide (2 ^ 32 ≤ ((opened s).sreg x).toNat) || (!bitOf ((opened s).sreg x).toNat 31
    && reservedFlow (((opened s).sreg x).toNat % 2 ^ 20))) ⟨0x80, (opened s).sreg x⟩, trapIf (decide (((opened s).myQueue q).cells ≠ [])) ⟨0x81, zext q⟩] = _
  rw [sreg_opened, myQueue_opened]
  rfl

/-- The unbinding bit of an operand within its fields. -/
theorem bitOf_top {v : Nat} (h : v < 2 ^ 32) : bitOf v 31 = decide (v / 2 ^ 31 = 1) := decide_eq_decide.2 (by omega)

/-- An operand that FBIND takes. -/
theorem fbind_operand {v : Nat} (h : v < 2 ^ 32) (flow : v / 2 ^ 31 = 1 ∨ reservedFlow (v % 2 ^ 20) = false) :
    (decide (2 ^ 32 ≤ v) || (!bitOf v 31 && reservedFlow (v % 2 ^ 20))) = false := by
  rw [bitOf_top h, decide_eq_false (Nat.not_le.2 h)]
  rcases flow with h | h
  · rw [decide_eq_true h]
    rfl
  · rw [h, Bool.and_false]
    rfl

/-- FBIND of an empty queue (R327). -/
theorem does_fbind (r : Runs g s) (fields : (s.sreg x).toNat < 2 ^ 32)
    (flow : (s.sreg x).toNat / 2 ^ 31 = 1 ∨ reservedFlow ((s.sreg x).toNat % 2 ^ 20) = false) (empty : (s.me.queue q.toNat).cells = []) :
    Does (.fbind g x q) s false false (fun t => t.setQueue q.toNat
      (if (s.sreg x).toNat / 2 ^ 31 = 1 then { s.me.queue q.toNat with bound := false }
        else { s.me.queue q.toNat with
          bound := true, flow := (s.sreg x).toNat % 2 ^ 20, nextblock := (s.sreg x).toNat / 2 ^ 20 % 2048 })) [] := by
  refine bare_fbind.changesOwn rfl r rfl ?_ rfl ?_ (steady_setQueue ..)
  · rw [fbindTrap, fbind_operand fields flow, empty]
    rfl
  · show (opened s).putQueue q (if bitOf ((opened s).sreg x).toNat 31 then { (opened s).myQueue q with bound := false }
      else { (opened s).myQueue q with
        bound := true, flow := ((opened s).sreg x).toNat % 2 ^ 20, nextblock := ((opened s).sreg x).toNat / 2 ^ 20 % 2048 }) = _
    simp only [sreg_opened, myQueue_opened, bitOf_top fields, decide_eq_true_eq]
    rfl

/-- FDRAIN (R327). -/
theorem does_fdrain (r : Runs g s) : Does (.fdrain g x q) s false false (fun t => t.setQueue q.toNat (s.me.queue q.toNat).drained)
    (scalarResult 1 x (BitVec.ofNat 64 (s.me.queue q.toNat).completeBlocks)) := by
  refine (bare_any (m := semFdrain g x q) s rfl rfl rfl rfl rfl rfl).changes rfl r rfl rfl rfl ?_ (steady_setQueue ..)
    (List.forall_mem_singleton.2 ⟨Nat.le_refl 1, own_scalar _ _ _ _⟩)
  simp only [semFdrain, myQueue_opened]
  refine (State.modMe_modMe ..).trans (congrArg (opened s).modMe (funext fun t => ?_))
  have pend : (t.setQueue q.toNat (s.myQueue q).drained).pend = t.pend := (steady_setQueue ..).pend t
  rw [Task.push, pend]
  rfl

/-- FSTAT (R327). -/
theorem gives_fstat (r : Runs g s) : Gives (.fstat g x q) s (scalarResult 1 x (s.me.queue q.toNat).status) := by
  refine (bare_any (m := semFstat g x q) s rfl rfl rfl rfl rfl rfl).changes rfl r rfl rfl rfl ?_ steady_id
    (List.forall_mem_singleton.2 ⟨Nat.le_refl 1, own_scalar _ _ _ _⟩)
  simp only [semFstat, myQueue_opened]
  rfl

/-- FPUT (R327, R328). -/
theorem completes_fput (acts : Acts (.fput g x f) s) :
    Completes (.fput g x f) s (fun c => { coreBeside c with sendBuf := [] }) moduleBeside id [] fun t => (t.core s.cur.coreRef).sendBuf =
      s.here.sendBuf ++ [sendCellOf s.jobid.toNat (s.sreg x) 0 (padTo 128 (leBytes 8 (s.sreg f).toNat))] := by
  obtain ⟨r, ready⟩ := acts.slotOf rfl
  refine ready.spares r rfl rfl rfl rfl ?_ (spares_send [sendCellOf s.jobid.toNat (s.sreg x) 0 (padTo 128 (leBytes 8 (s.sreg f).toNat))])
    (fun _ _ h => congrArg (fun c => { c with sendBuf := [] }) h) (fun _ _ h => h) fun t ht => sendBuf_sent _ ht
  simp only [semFput, sreg_opened]
  rfl

/-- FSEND (R328). -/
theorem completes_fsend (acts : Acts (.fsend g x f) s) :
    Completes (.fsend g x f) s (fun c => { coreBeside c with sendBuf := [] }) moduleBeside (popTaken (decide (f = 30)) (decide (f = 31))) []
      fun t => (t.core s.cur.coreRef).sendBuf = s.here.sendBuf ++ (List.range 32).map fun n =>
        sendCellOf s.jobid.toNat (s.sreg x) n (bytesOf ((List.range 32).map fun i => (s.vreg f.toNat).cell (32 * n + i))) := by
  obtain ⟨r, ready⟩ := acts.slotOf rfl
  rw [← contains_singleton, ← contains_singleton]
  refine ready.sparesTaking (src := [f]) r rfl rfl rfl rfl ?_ (spares_send ((List.range 32).map fun n =>
      sendCellOf s.jobid.toNat (s.sreg x) n (bytesOf ((List.range 32).map fun i => (s.vreg f.toNat).cell (32 * n + i)))))
    (fun _ _ h => congrArg (fun c => { c with sendBuf := [] }) h) (fun _ _ h => h) fun t ht => sendBuf_sent _ ht
  simp only [semFsend, sreg_opened, vreg_opened]
  rfl

/-- FTAKE where no stray cell is held (R329). -/
theorem gives_ftake_none (acts : Acts (.ftake g x f) s) (empty : (s.die s.cur.die).stray = []) :
    Gives (.ftake g x f) s (scalarResult 2 x 0) := by
  obtain ⟨r, ready⟩ := acts.slotOf rfl
  refine ready.changes r rfl rfl rfl rfl ?_ steady_id (List.forall_mem_singleton.2 ⟨Nat.le_succ 1, own_later (Nat.le_refl 2)⟩)
  have none_held : ((opened s).die (opened s).cur.die).stray = [] := empty
  simp only [semFtake, none_held]
  rfl

/-- The results of FTAKE of a cell (R329). -/
def strayResults (s : State) (x f : BitVec 5) (c : Cell) : List Pending :=
  scalarResult 2 x 1 ++ [⟨.vec (s.me.vpos f.toNat) (BitVec.allOnes 1024) (strayVreg c), 2, 0⟩]

theorem strayResults_later (c : Cell) : ∀ p ∈ strayResults s x f c, 1 ≤ p.left ∧ Own p := by
  intro p hp
  have two : p.left = 2 := by
    rcases List.mem_append.1 hp with h | h <;> exact (List.mem_singleton.1 h) ▸ rfl
  exact ⟨by omega, own_later (by omega)⟩

/-- FTAKE of the oldest stray cell (R329). -/
theorem completes_ftake (acts : Acts (.ftake g x f) s) {c : Cell} {rest : List Cell} (held : (s.die s.cur.die).stray = c :: rest) :
    Completes (.ftake g x f) s coreBeside (fun m => { moduleBeside m with dies := [] }) id (strayResults s x f c) fun t =>
      ∀ d, t.die d = if d = s.cur.die then { s.die d with stray := rest } else s.die d := by
  obtain ⟨r, ready⟩ := acts.slotOf rfl
  have held' : ((opened s).die (opened s).cur.die).stray = c :: rest := held
  refine ready.sparesThen (u := (opened s).modDie s.cur.die fun d => { d with stray := d.stray.drop 1 }) r rfl rfl rfl rfl ?_
    (.of_cores _ rfl rfl rfl) steady_id (strayResults_later c) (fun _ _ h => h) (fun _ _ h => congrArg (fun m => { m with dies := [] }) h)
    fun t ht d => ?_
  · simp only [semFtake, held', vpos_opened]
    refine (State.modMe_modMe ..).trans (congrArg (State.modMe _) (funext fun t => ?_))
    exact congrArg (fun l => { t with pend := l }) (List.append_assoc ..)
  · have kept : t.die d = ((opened s).modDie s.cur.die fun d => { d with stray := d.stray.drop 1 }).die d :=
      (congrArg (fun m => State.die m d) ht.rest :)
    rw [kept]
    split
    · next h =>
      rw [h, State.die_modDie]
      show { s.die s.cur.die with stray := (s.die s.cur.die).stray.drop 1 } = _
      rw [held]
      rfl
    · next h => exact State.die_modDie_other _ _ h

end

/-- Settles O48, instruction by instruction. -/
theorem flowInstructions : Obligations.FlowInstructions := by
  unfold Obligations.FlowInstructions
  intro g x f q s
  refine ⟨fun r => ⟨does_fbind r, fun fields flow full => ?_, fun refused => ?_, does_fdrain r, gives_fstat r⟩, completes_fput, completes_fsend,
    fun acts => ⟨gives_ftake_none acts, fun _ _ => completes_ftake acts⟩⟩
  · refine bare_fbind.traps rfl r.may r.guard rfl (fbindTrap.trans ?_)
    rw [fbind_operand fields flow, decide_eq_true full]
    rfl
  · have bad : (decide (2 ^ 32 ≤ (s.sreg x).toNat) || (!bitOf (s.sreg x).toNat 31 && reservedFlow ((s.sreg x).toNat % 2 ^ 20))) = true := by
      rcases refused with beyond | ⟨binds, reserved⟩
      · rw [decide_eq_true beyond, Bool.true_or]
      · rw [bitOf, reserved, decide_eq_false (show ¬(s.sreg x).toNat / 2 ^ 31 % 2 = 1 by omega), Bool.not_false, Bool.and_self, Bool.or_true]
    refine bare_fbind.traps rfl r.may r.guard rfl (fbindTrap.trans ?_)
    rw [bad]
    rfl

end Sys2Proof

namespace Sys2Proof

open Machine

/-! ### The work of homes and Gatehouses -/

/-- A core without the lines, requests and translations it holds, and its time mark. -/
def coreWork (c : Core) : Core := { c with l1 := [], l1req := [], tlb := [], hwm := 0 }

/-- A die without what serving an access changes: its event queue, marks and times, its Gatehouse's numbers and its ports. -/
def dieWork (d : Die) : Die :=
  { d with
    tlb := [], hwm := 0, agentTime := [], events := [], waitingS := [], engFaults := [], pavs := []
    lodge := { d.lodge with eqtail := 0, eqlost := 0 }, gate := { d.gate with sendSeq := [], faults := 0 } }

/-- The module without what serving an access changes beside its cores and dies: memory and the homes' records, the requests
sent, the free-value counter and the time mark. -/
def moduleWork (s : State) : State := { s with cores := [], dies := [], mem := [], lines := [], sent := [], freeCtr := 0, hwm := 0 }

/-- What homes and Gatehouses do to serve an access: no task, no array, no link and no register of a lodge changes. -/
structure Worked (s t : State) : Prop where
  cores : ∀ c, coreWork (t.core c) = coreWork (s.core c)
  dies : ∀ d, dieWork (t.die d) = dieWork (s.die d)
  rest : moduleWork t = moduleWork s

theorem Worked.refl (s : State) : Worked s s := ⟨fun _ => rfl, fun _ => rfl, rfl⟩

theorem Worked.trans {s t u : State} (h : Worked s t) (k : Worked t u) : Worked s u :=
  ⟨fun c => (k.cores c).trans (h.cores c), fun d => (k.dies d).trans (h.dies d), k.rest.trans h.rest⟩

theorem Worked.foldl {α : Type} (step : State → α → State) (each : ∀ t a, Worked t (step t a)) (s : State) (l : List α) :
    Worked s (l.foldl step s) := by
  induction l generalizing s with
  | nil => exact .refl _
  | cons a l ih => exact (each s a).trans (ih _)

/-- What leaves every core and die as it was. -/
theorem Worked.of_stores {s t : State} (cores : t.cores = s.cores) (dies : t.dies = s.dies) (rest : moduleWork t = moduleWork s) : Worked s t :=
  ⟨fun c => by rw [State.core, State.core, cores], fun d => by rw [State.die, State.die, dies], rest⟩

theorem Worked.modCore (s : State) (r : CoreRef) (f : Core → Core) (h : coreWork (f (s.core r)) = coreWork (s.core r)) :
    Worked s (s.modCore r f) := by
  refine ⟨fun c => ?_, fun _ => rfl, rfl⟩
  by_cases hc : CoreRef.key c = CoreRef.key r
  · rw [core_congr _ hc, core_congr s hc, State.core_modCore, h]
  · rw [State.core_modCore_other _ _ hc]

theorem Worked.modDie (s : State) (d : Nat) (f : Die → Die) (h : dieWork (f (s.die d)) = dieWork (s.die d)) : Worked s (s.modDie d f) := by
  refine ⟨fun _ => rfl, fun k => ?_, rfl⟩
  by_cases hk : k = d
  · rw [hk, State.die_modDie, h]
  · rw [State.die_modDie_other _ _ hk]

section
variable {s t : State} (h : Worked s t)
include h

theorem Worked.cur : t.cur = s.cur := (congrArg State.cur h.rest :)
theorem Worked.cycle : t.cycle = s.cycle := (congrArg State.cycle h.rest :)
theorem Worked.attest : t.attest = s.attest := (congrArg State.attest h.rest :)
theorem Worked.jobid : t.jobid = s.jobid := (congrArg State.jobid h.rest :)
theorem Worked.gang : t.gang = s.gang := (congrArg State.gang h.rest :)

theorem Worked.task? (q : TaskRef) : t.task? q = s.task? q := (congrArg (fun c : Core => c.tasks.get none q.slot) (h.cores q.coreRef) :)

theorem Worked.task (q : TaskRef) : t.task q = s.task q := by rw [State.task, State.task, h.task?]

end

section
variable (s : State)

theorem worked_modLine (line : Nat) (f : LineMeta → LineMeta) : Worked s (s.modLine line f) := .of_stores rfl rfl rfl

theorem worked_setMem (m : Memory) : Worked s { s with mem := m } := .of_stores rfl rfl rfl

theorem worked_sent (l : List SentReq) : Worked s { s with sent := l } := .of_stores rfl rfl rfl

theorem worked_tookFree (n : Nat) : Worked s (s.tookFree n) := .of_stores rfl rfl rfl

theorem worked_dropFar (r : TaskRef) (tok : Nat) : Worked s (s.dropFar r tok) := .of_stores rfl rfl rfl

theorem worked_dropLoads (r : TaskRef) (tok : Option Nat) : Worked s (s.dropLoads r tok) := .of_stores rfl rfl rfl

theorem worked_raiseAgent (die pos : Nat) (t : W64) : Worked s (s.raiseAgent die pos t) := .modDie s die _ rfl

end

theorem dieWork_shiftUp (d : Die) (p n : Nat) : dieWork (d.shiftUp p n) = dieWork d := by
  induction n generalizing d with
  | zero => rfl
  | succ n ih => exact (ih _).trans rfl

theorem dieWork_enqueue (d : Die) (e : EventRec) : dieWork (d.enqueue e) = dieWork d := by
  have shifted := dieWork_shiftUp d (d.placeOf e d.lodge.eqtail d.lodge.held)
    ((d.lodge.eqtail + 512 - d.placeOf e d.lodge.eqtail d.lodge.held) % 512)
  exact Eq.trans rfl shifted

/-- A record posted changes a die's event queue alone (R383). -/
theorem dieWork_post (d : Die) (e : EventRec) : dieWork (d.post e) = dieWork d := by
  unfold Die.post
  split
  · split
    · exact dieWork_enqueue ..
    · rfl
  split
  · rfl
  split
  · exact dieWork_enqueue ..
  · rfl

theorem dieWork_noteFault (agent cause : Nat) (d : Die) : dieWork (d.noteFault agent cause) = dieWork d := by
  unfold Die.noteFault
  dsimp only
  split
  · rfl
  split <;> rfl

section
variable (s : State)

theorem worked_post (d : Nat) (e : EventRec) : Worked s (s.post d e) := .modDie s d _ (dieWork_post ..)

theorem worked_postFault (die agent slot job cause : Nat) (info lidx : W64) :
    Worked s (s.postFault die agent slot job cause info lidx) :=
  (Worked.modDie s die _ (dieWork_noteFault ..)).trans (worked_post ..)

/-- A write-back changes its home's record and bytes, or posts its refusal (R234). -/
theorem worked_writeBack (c : CoreRef) (l : L1Line) : Worked s (s.writeBack c l) := by
  have times := worked_modLine s l.line fun m => { m with wts := l.wts, rts := l.rts }
  unfold State.writeBack
  dsimp only
  split
  · exact .refl _
  split
  · exact times
  split
  · exact times.trans (worked_postFault ..)
  split
  · exact times.trans (worked_postFault ..)
  · exact times.trans ((worked_setMem _ _).trans (worked_modLine ..))

/-- A core that gives a line back loses copies and answers on their way alone (R244). -/
theorem worked_giveBack (line : Nat) (exclusive : Bool) (c : CoreRef) : Worked s (State.giveBack line exclusive s c) := by
  have revoked : Worked s (if (s.core c).l1req = [] then s
      else s.modCore c fun k => { k with l1req := k.l1req.map (L1Req.revoked line exclusive) }) := by
    split
    · exact .refl _
    · exact .modCore s c _ rfl
  unfold State.giveBack
  dsimp only
  generalize (if (s.core c).l1req = [] then s
    else s.modCore c fun k => { k with l1req := k.l1req.map (L1Req.revoked line exclusive) }) = u at revoked ⊢
  refine revoked.trans ?_
  split
  · exact .refl _
  split
  · exact (worked_writeBack ..).trans (.modCore _ _ _ rfl)
  · exact .refl _

theorem worked_recall (line : Nat) (exclusive : Bool) : Worked s (s.recall line exclusive) :=
  .foldl _ (fun t c => worked_giveBack t line exclusive c) s _

theorem worked_homeLoad (die pos o n key : Nat) : Worked s (s.homeLoad die pos o n key).1 :=
  ((Worked.foldl _ (fun t l => worked_recall t l false) s (linesOf o n)).trans
    (.foldl _ (fun t l => worked_modLine t l _) _ (linesOf o n))).trans (worked_raiseAgent ..)

theorem worked_modPav (die router : Nat) (f : Pavilion → Pavilion) : Worked s (s.modPav die router f) := .modDie s die _ rfl

theorem worked_transmit (die home : Nat) (q : RemoteReq) : Worked s (s.transmit die home q) := by
  unfold State.transmit State.output
  exact worked_modPav ..

theorem worked_sendReq (r : TaskRef) (tok : Option Nat) (home : Nat) (q : RemoteReq) : Worked s (s.sendReq r tok home q).1 := by
  have numbered := Worked.modDie s r.die (fun d => { d with gate :=
    { d.gate with sendSeq := Tbl.set 0 d.gate.sendSeq home ((s.nextSeq r.die home + 1) % 2 ^ 32) } }) rfl
  unfold State.sendReq State.modGate
  exact (numbered.trans (worked_sent _ _)).trans (worked_transmit ..)

theorem worked_farPart (g : Agent) (va : W64) (pa gen : Nat) (phys : Bool) (n : Nat) : Worked s (s.farPart g va pa gen phys n).1 := by
  unfold State.farPart
  split
  · exact .refl _
  · exact worked_sendReq ..

theorem worked_farUnits (g : Agent) (pa k : Nat) : Worked s (s.farUnits g pa k).1 := by
  induction k generalizing s pa with
  | zero => exact .refl _
  | succ k ih => exact (worked_farPart ..).trans (ih _ _)

end

/-! ### A lodge's reads (R253) -/

/-- What an ordered read of a lodge changes beside serving it: the time of its task. -/
structure Reads (die : Nat) (s t : State) : Prop where
  cores : ∀ c, { coreWork (t.core c) with tasks := [] } = { coreWork (s.core c) with tasks := [] }
  others : ∀ q : TaskRef, (CoreRef.key q.coreRef ≠ CoreRef.key ⟨die, 96⟩ ∨ q.slot ≠ 0) → t.task? q = s.task? q
  times : ∀ q, (t.task? q).map (fun k => { k with time := 0 }) = (s.task? q).map fun k => { k with time := 0 }
  dies : ∀ d, dieWork (t.die d) = dieWork (s.die d)
  rest : moduleWork t = moduleWork s

theorem Worked.reads {s t : State} (h : Worked s t) (die : Nat) : Reads die s t :=
  ⟨fun c => congrArg (fun c => { c with tasks := [] }) (h.cores c), fun q _ => h.task? q, fun q => by rw [h.task?], h.dies, h.rest⟩

theorem Reads.trans {die : Nat} {s t u : State} (h : Reads die s t) (k : Reads die t u) : Reads die s u :=
  ⟨fun c => (k.cores c).trans (h.cores c), fun q hq => (k.others q hq).trans (h.others q hq), fun q => (k.times q).trans (h.times q),
    fun d => (k.dies d).trans (h.dies d), k.rest.trans h.rest⟩

section
variable {die : Nat} {s t : State} (h : Reads die s t)
include h

theorem Reads.cur : t.cur = s.cur := (congrArg State.cur h.rest :)
theorem Reads.cycle : t.cycle = s.cycle := (congrArg State.cycle h.rest :)
theorem Reads.attest : t.attest = s.attest := (congrArg State.attest h.rest :)
theorem Reads.jobid : t.jobid = s.jobid := (congrArg State.jobid h.rest :)
theorem Reads.gang : t.gang = s.gang := (congrArg State.gang h.rest :)

/-- A task after the read: its time alone may have risen. -/
theorem Reads.task (q : TaskRef) : t.task q = { s.task q with time := (t.task q).time } := by
  have times := h.times q
  rw [State.task, State.task]
  generalize t.task? q = x at times
  generalize s.task? q = y at times
  cases x with
  | none => cases y with
    | none => rfl
    | some _ => exact absurd times nofun
  | some a => cases y with
    | none => exact absurd times nofun
    | some b => exact (congrArg (fun k : Task => { k with time := a.time }) (Option.some.inj times) :)

end

theorem reads_lodgeSees (s : State) (die : Nat) : Reads die s (s.lodgeSees die) := by
  unfold State.lodgeSees
  split
  case isFalse => exact (Worked.refl s).reads die
  case isTrue there =>
    obtain ⟨k, hk⟩ := Option.isSome_iff_exists.1 there
    refine ⟨fun c => ?_, fun q hq => ?_, fun q => ?_, fun _ => rfl, rfl⟩
    · by_cases hc : CoreRef.key c = CoreRef.key (lodgeTask die).coreRef
      · rw [core_congr _ hc, core_congr s hc, State.core_modTask]
        rfl
      · rw [core_modTask_other _ _ hc]
    · rw [task?_modTask, if_neg (fun same => hq.elim (fun k => k same.1) fun k => k same.2)]
    · rw [task?_modTask]
      split
      case isFalse => rfl
      case isTrue same =>
        have here : s.task? q = some k := by rw [← hk, State.task?, State.task?, core_congr s same.1, same.2]
        rw [here, State.task, hk]
        rfl

/-- A lodge's ordered read serves itself and raises its task's time (R253). -/
theorem reads_lodgeRead (s : State) (die : Nat) (a : W64) (n : Nat) : Reads die s (s.lodgeRead die a n).1 := by
  have timed : Worked s (s.lodgeTime die) := worked_raiseAgent ..
  have still := (Worked.refl s).reads die
  unfold State.lodgeRead
  dsimp only
  split
  · split
    · exact (timed.trans (worked_farUnits ..)).reads die
    · exact still
  split
  · split
    · exact still
    · exact ((timed.trans (worked_homeLoad ..)).reads die).trans (reads_lodgeSees ..)
  split <;> exact still

theorem reads_lodgeRest (s : State) (die : Nat) : Reads die s (s.lodgeRest die) := (worked_dropFar ..).reads die

end Sys2Proof

namespace Sys2Proof

open Machine

/-! ### The lodge's operations (R236 to R239, R282, R330, R403, R407) -/

/-- An operation put among those the next bundle waits for. -/
def held (h : Hold) (t : Task) : Task := { t with holds := t.holds ++ [h] }

theorem steady_held (h : Hold) : Steady (held h) :=
  ⟨fun _ _ _ _ _ _ _ => rfl, fun _ => rfl, fun _ => rfl, fun _ => rfl, fun _ => rfl⟩

/-- The system-operand check of operands that keep `P`. -/
def operandTrap (P : Prop) [Decidable P] : Option Trap := sysTrap (!decide P) 0

theorem sysTrap_eq {bad : Bool} {P : Prop} [Decidable P] (h : bad = false ↔ P) : sysTrap bad 0 = operandTrap P := by
  rw [operandTrap]
  congr
  by_cases hP : P
  · simp [h.2 hP, hP]
  · simp [hP, Bool.eq_true_of_not_eq_false fun k => hP (h.1 k)]

section
variable {m : SlotSem} {i : Instr} {s : State} {P : Prop} [Decidable P]

/-- A lodge operation whose operands are refused. -/
theorem Bare.refuses (h : Bare m s) (hx : exec i s = issueSlot m s) (r : Runs m.guard s) (peak : m.peak = fun _ => 0)
    (trap : m.trap 0 (opened s) = operandTrap P) (refused : ¬P) : exec i s = .next (s.takeTrap s.cur ⟨0x0A, 0⟩) := by
  rw [operandTrap, decide_eq_false refused] at trap
  exact h.traps hx r.may r.guard peak trap

/-- The operands that are taken raise no trap. -/
theorem taken_operands (trap : m.trap 0 (opened s) = operandTrap P) (taken : P) : m.trap 0 (opened s) = none := by
  rw [trap, operandTrap, decide_eq_true taken]
  rfl

/-- A lodge operation whose operands are taken, and which the next bundle waits for. -/
theorem Bare.holds (h : Bare m s) (hx : exec i s = issueSlot m s) (r : Runs m.guard s) (peak : m.peak = fun _ => 0)
    (trap : m.trap 0 (opened s) = operandTrap P) (taken : P) (wait : m.wait (opened s) s = none) {x : Hold}
    (eff : m.eff (opened s) (opened s) = (opened s).holdOn x) : Does i s false false (held x) [] :=
  h.changesOwn hx r peak (taken_operands trap taken) wait eff (steady_held x)

end

theorem Steady.comp {f k : Task → Task} (hf : Steady f) (hk : Steady k) : Steady fun t => f (k t) :=
  ⟨fun t b n pc tg d p => by rw [hk.commutes, hf.commutes], fun t => (hf.loops _).trans (hk.loops t), fun t => (hf.ctl _).trans (hk.ctl t),
    fun t => (hf.warn _).trans (hk.warn t), fun t => (hf.preempt _).trans (hk.preempt t)⟩

/-- A task's time set. -/
def atTime (time : W64) (t : Task) : Task := { t with time := time }

theorem steady_atTime (time : W64) : Steady (atTime time) :=
  ⟨fun _ _ _ _ _ _ _ => rfl, fun _ => rfl, fun _ => rfl, fun _ => rfl, fun _ => rfl⟩

/-- A ready slot whose effect reads as its lodge (leaving `u`), changes what `mc` and `ms` blank (leaving `v`), and then its own task. -/
theorem Ready.reading {m : SlotSem} {i : Instr} {s u v : State} {die : Nat} {f : Task → Task} {l : List Pending} {mc : Core → Core}
    {ms : State → State} (ready : Ready m s) (r : Runs m.guard s) (hx : exec i s = issueSlot m s) (mark : m.mark = false)
    (funit : m.funit = false) (src : m.vsrc = []) (reads : Reads die (opened s) u) (spares : Spares mc ms u v)
    (eff : m.eff (opened s) (opened s) = v.modMe fun t => { f t with pend := t.pend ++ l }) (hf : Steady f) (hl : ∀ p ∈ l, 1 ≤ p.left ∧ Own p)
    (hc : ∀ a b, coreBeside a = coreBeside b → mc a = mc b) (hs : ∀ a b, moduleBeside a = moduleBeside b → ms a = ms b) :
    ∃ t, exec i s = .next t ∧ Frame mc ms u t ∧ OnlyTask v t
      ∧ t.task s.cur = delivered (isLodge s.cur.core) l (f (atTime (u.task s.cur).time (afterBundle (isLodge s.cur.core) s.me))) := by
  have cur : v.cur = s.cur := spares.cur.trans reads.cur
  have own : v.me = atTime (u.task s.cur).time (opened s).me := by
    have same := spares.own
    rw [show u.cur = s.cur from reads.cur] at same
    rw [State.me, cur, same, reads.task s.cur]
    rfl
  have change : OnlyTask v (v.modMe fun t => { f t with pend := t.pend ++ l }) := OnlyTask.modTask ..
  have task : (v.modMe fun t => { f t with pend := t.pend ++ l }).task s.cur =
      { f (atTime (u.task s.cur).time (opened s).me) with pend := s.me.pend ++ l } := by
    have mine : (v.modMe fun t => { f t with pend := t.pend ++ l }).me = _ := State.me_modMe ..
    rw [State.me, show (v.modMe _).cur = s.cur from cur, own] at mine
    rw [mine, me_opened]
    rfl
  obtain ⟨t, next, mine, only⟩ := ready.leaves r hx mark funit eff cur task (hf.comp (steady_atTime _)) hl
  have takes : ∀ q, m.takes (opened s) q = false := fun q => by simp [SlotSem.takes, src]
  rw [takes, takes] at mine
  exact ⟨t, next, (spares.toFrame.trans (change.mono hc hs) spares.cur).trans (only.mono hc hs) (show v.cur = u.cur from spares.cur),
    change.trans only, mine⟩

section
variable {g : Guard} {a b c : BitVec 5} {s : State}

/-- TLBINV's operands (R236). -/
theorem tlbinv_trap : (semTlbinv g a b c).trap 0 (opened s) = operandTrap ((s.sreg a).toNat % 2 ^ 21 = 0 ∧ (s.sreg a).toNat < 2 ^ 56
    ∧ (s.sreg b).toNat % 2 ^ 21 = 0 ∧ (s.sreg c).toNat < 2 ^ 13) := by
  simp only [semTlbinv, sreg_opened, mib2]
  exact sysTrap_eq (by simp only [Bool.or_eq_false_iff, decide_eq_false_iff_not]; omega)

/-- GENBUMP's operands (R237). -/
theorem genbump_trap : (semGenbump g a b).trap 0 (opened s) = operandTrap ((s.sreg a).toNat % 2 ^ 21 = 0 ∧ 1 ≤ (s.sreg b).toNat
    ∧ (s.sreg b).toNat ≤ 2 ^ 19 ∧ (s.sreg a).toNat + (s.sreg b).toNat * 2 ^ 21 ≤ 2 ^ 40) := by
  simp only [semGenbump, sreg_opened, mib2, hbmSize]
  exact sysTrap_eq (by simp only [Bool.or_eq_false_iff, decide_eq_false_iff_not]; omega)

/-- L2WB's operands (R238). -/
theorem l2wb_trap : (semL2wb g a b c).trap 0 (opened s) = operandTrap ((s.sreg a).toNat % 128 = 0 ∧ (s.sreg b).toNat % 128 = 0
    ∧ (s.sreg a).toNat + (s.sreg b).toNat ≤ 2 ^ 40) := by
  simp only [semL2wb, sreg_opened, hbmSize]
  exact sysTrap_eq (by simp only [Bool.or_eq_false_iff, decide_eq_false_iff_not]; omega)

/-- DOMSET's operand (R239). -/
theorem domset_trap : (semDomset g a).trap 0 (opened s) =
    operandTrap ((s.sreg a).toNat / 16 ≤ 4 ∧ (s.sreg a).toNat % 16 % 2 ^ ((s.sreg a).toNat / 16) = 0) := by
  simp only [semDomset, sreg_opened]
  generalize (s.sreg a).toNat = v
  refine sysTrap_eq ?_
  simp only [Bool.or_eq_false_iff, decide_eq_false_iff_not, Decidable.not_not]
  exact ⟨fun h => ⟨by omega, h.2⟩, fun h => ⟨⟨by omega, by omega⟩, h.2⟩⟩

/-- NPLOAD's operands (R330). -/
theorem npload_trap : (semNpload g a b c).trap 0 (opened s) = operandTrap ((s.sreg a).toNat / 2 ^ 62 = 1
    ∧ (s.sreg a).toNat % 2 ^ 62 < 2 ^ 48 ∧ (s.sreg b).toNat < 2 ^ 44) := by
  simp only [semNpload, sreg_opened]
  exact sysTrap_eq (by
    simp only [isForm01, addrForm, addrOff, formWidth, Bool.or_eq_false_iff, Bool.not_eq_false', Bool.and_eq_true, decide_eq_true_eq,
      decide_eq_false_iff_not, Nat.not_le, and_assoc]
    exact and_congr_left fun _ => decide_eq_true_iff)

theorem prmpt_trap : (semPrmpt g a c).trap 0 (opened s) = operandTrap (targetOk true false (s.sreg a) = true) := by
  simp only [semPrmpt, sreg_opened]
  exact sysTrap_eq (by simp)

theorem resume_trap : (semResume g a c).trap 0 (opened s) = operandTrap (targetOk true false (s.sreg a) = true) := by
  simp only [semResume, sreg_opened]
  exact sysTrap_eq (by simp)

theorem bare_l2wb (core : isLodge s.cur.core = true) (form : c.toNat < 2) : Bare (semL2wb g a b c) s where
  legal := by simp [SlotSem.isIllegal, semL2wb, form]
  allowed := by simp [SlotSem.isDenied, semL2wb, core]
  src := rfl
  funit := rfl
  mark := rfl

/-- DOMSET of a domain sets BUSY of its die (R239). -/
theorem completes_domset (core : isLodge s.cur.core = true) (r : Runs g s)
    (fits : (s.sreg a).toNat / 16 ≤ 4 ∧ (s.sreg a).toNat % 16 % 2 ^ ((s.sreg a).toNat / 16) = 0) :
    Completes (.domset g a) s coreBeside (fun m => { moduleBeside m with dies := [] }) (held (.domset (s.sreg a))) [] fun t =>
      ∀ d, t.die d = if d = s.cur.die then { s.die d with l2busy := true } else s.die d := by
  refine (bare_lodge core rfl rfl rfl rfl rfl rfl : Bare (semDomset g a) s).sparesThen
    (u := (opened s).modDie s.cur.die fun d => { d with l2busy := true }) rfl r rfl
    (taken_operands domset_trap fits) rfl ?_ (.of_cores _ rfl rfl rfl) (steady_held _) (by simp) (fun _ _ h => h)
    (fun _ _ h => congrArg (fun m => { m with dies := [] }) h) fun t ht d => ?_
  · simp only [semDomset, sreg_opened, List.append_nil]
    rfl
  · have dies := congrArg State.dies ht.rest
    rw [show t.die d = ((opened s).modDie s.cur.die fun d => { d with l2busy := true }).die d from (congrArg (fun x => Tbl.get Die.reset x d) dies :)]
    split
    · next h => subst h; exact State.die_modDie ..
    · next h => exact State.die_modDie_other _ _ h

/-! ### Requests to the attestation unit (R404) -/

/-- A request put in the attestation unit's queue at the place its cycle and die give it. -/
def asked (s : State) : State := { s with attest := s.attest.enqueue s.cycle s.cur }

/-- A request that the unit has queued and the next bundle waits for. -/
theorem asked_held (s : State) (x : Hold) :
    { s.holdOn x with attest := s.attest.enqueue s.cycle s.cur } = (asked s).modMe fun t => { held x t with pend := t.pend ++ [] } := by
  have plain : (fun t : Task => { held x t with pend := t.pend ++ [] }) = held x := funext fun t => by rw [List.append_nil]; rfl
  rw [plain]
  rfl

theorem spares_asked (s : State) : Spares coreBeside (fun m => { moduleBeside m with attest := { m.attest with queue := [] } }) s (asked s) :=
  .of_cores _ rfl rfl rfl

theorem completes_keyld (acts : Acts (.keyld g a b c) s) : Completes (.keyld g a b c) s coreBeside
    (fun m => { moduleBeside m with attest := { m.attest with queue := [] } }) (held (.keyld c.toNat (s.sreg a) (s.sreg b))) []
      fun t => t.attest.queue = (s.attest.enqueue s.cycle s.cur).queue := by
  obtain ⟨r, ready⟩ := acts.slotOf (m := semKeyld g a b c) rfl
  have eff : (semKeyld g a b c).eff (opened s) (opened s) = (asked (opened s)).modMe
      fun t => { held (.keyld c.toNat (s.sreg a) (s.sreg b)) t with pend := t.pend ++ [] } := by
    rw [← asked_held]
    simp only [semKeyld, sreg_opened]
  refine ready.sparesThen r rfl rfl rfl rfl eff (spares_asked _) (steady_held _) (by simp) (fun _ _ h => h)
    (fun _ _ h => congrArg (fun m => { m with attest := { m.attest with queue := [] } }) h) fun t ht => ?_
  exact (congrArg (fun m : State => m.attest.queue) ht.rest :)

/-- A slot of a lodge whose guard is true is allowed on a lodge core alone (R34). -/
theorem core_of_lodge {m : SlotSem} (ready : Ready m s) (r : Runs m.guard s) (place : m.place = .lodge) : isLodge s.cur.core = true := by
  simpa [SlotSem.isDenied, place, r.guard] using ready.allowed

/-- ATTEST reads its request and joins the unit's queue (R403, R404). -/
theorem attest_reads (acts : Acts (.attest g a b c) s) {u : State} (hu : ((opened s).attestRecord (s.sreg a)).1.lodgeRest s.cur.die = u) :
    ∃ t, exec (.attest g a b c) s = .next t
      ∧ Frame coreBeside (fun m => { moduleBeside m with attest := { m.attest with queue := [] } }) u t
      ∧ t.attest.queue = (s.attest.enqueue s.cycle s.cur).queue
      ∧ t.task s.cur = held (.attest c.toNat (s.sreg a) (s.sreg b)) { afterBundle true s.me with time := (u.task s.cur).time } := by
  obtain ⟨r, ready⟩ := acts.slotOf (m := semAttest g a b c) rfl
  have reads : Reads s.cur.die (opened s) u := hu ▸ (reads_lodgeRead ..).trans (reads_lodgeRest ..)
  have eff : (semAttest g a b c).eff (opened s) (opened s) = (asked u).modMe
      fun t => { held (.attest c.toNat (s.sreg a) (s.sreg b)) t with pend := t.pend ++ [] } := by
    rw [← asked_held]
    simp only [semAttest, sreg_opened]
    rw [reads.cycle, reads.cur, show (opened s).cur = s.cur from rfl, hu]
  obtain ⟨t, next, frame, only, mine⟩ := ready.reading (i := .attest g a b c) r rfl rfl rfl rfl reads (spares_asked u) eff (steady_held _) (by simp)
    (fun _ _ h => h) fun _ _ h => congrArg (fun m => { m with attest := { m.attest with queue := [] } }) h
  rw [core_of_lodge ready r rfl, delivered_nil] at mine
  refine ⟨t, next, frame, ?_, mine⟩
  have queue : t.attest.queue = (u.attest.enqueue u.cycle u.cur).queue := (congrArg (fun m : State => m.attest.queue) only.rest :)
  rw [queue, reads.attest, reads.cycle, reads.cur]
  rfl

/-! ### PRMPT (R282, R285) -/

/-- A task that is to halt at its next boundary. -/
def toHalt (s : State) (r : TaskRef) : State := s.modTask r fun t => { t with preempt := true }

/-- The tasks after some are to halt. -/
theorem task?_toHalt (l : List TaskRef) (s : State) (q : TaskRef) : (l.foldl toHalt s).task? q =
    if ∃ r ∈ l, CoreRef.key q.coreRef = CoreRef.key r.coreRef ∧ q.slot = r.slot then some { s.task q with preempt := true } else s.task? q := by
  induction l generalizing s with
  | nil => simp
  | cons r l ih =>
    have first : (toHalt s r).task? q = _ := task?_modTask s r _ q
    rw [List.foldl_cons, ih, State.task]
    by_cases here : CoreRef.key q.coreRef = CoreRef.key r.coreRef ∧ q.slot = r.slot
    · have same : s.task r = s.task q := by rw [State.task, State.task, State.task?, State.task?, core_congr s here.1, here.2]
      rw [if_pos here, same] at first
      rw [first]
      simp only [List.mem_cons, exists_eq_or_imp, here, and_self, true_or, if_true]
      split <;> rfl
    · rw [if_neg here] at first
      rw [first, ← State.task]
      simp only [List.mem_cons, exists_eq_or_imp, here, false_or]

theorem core_toHalt (l : List TaskRef) (s : State) (c : CoreRef) : coreBeside ((l.foldl toHalt s).core c) = coreBeside (s.core c) := by
  induction l generalizing s with
  | nil => rfl
  | cons r l ih =>
    refine (ih (toHalt s r)).trans ?_
    by_cases hc : CoreRef.key c = CoreRef.key r.coreRef
    · rw [core_congr _ hc, core_congr s hc, toHalt, State.core_modTask]
      rfl
    · rw [toHalt, core_modTask_other _ _ hc]

theorem rest_toHalt (l : List TaskRef) (s : State) : moduleBeside (l.foldl toHalt s) = moduleBeside s := by
  induction l generalizing s with
  | nil => rfl
  | cons r l ih => exact ih (toHalt s r)

/-- The tasks a target names are of one core of the die (Table 13.3). -/
theorem core_target {v : W64} {die : Nat} {r : TaskRef} (hr : r ∈ targetTasks die v) : r.die = die ∧ r.core = v.toNat % 128 := by
  unfold targetTasks at hr
  dsimp only at hr
  split at hr
  · obtain ⟨k, -, rfl⟩ := List.mem_map.1 hr
    exact ⟨rfl, rfl⟩
  · rw [List.mem_singleton.1 hr]
    exact ⟨rfl, rfl⟩

/-- No target is of a lodge core (Table 13.3). -/
theorem target_not_lodge {v : W64} (ok : targetOk true false v = true) : v.toNat % 128 ≠ 96 := by
  simp only [targetOk, isCompute, isControl, Bool.and_eq_true, Bool.or_eq_true, decide_eq_true_eq] at ok
  omega

theorem key_target {v : W64} (ok : targetOk true false v = true) {die : Nat} {r q : TaskRef} (hr : r ∈ targetTasks die v)
    (hq : q.die = die) (lodge : isLodge q.core = true) : CoreRef.key q.coreRef ≠ CoreRef.key r.coreRef := by
  have other := target_not_lodge ok
  simp only [isLodge, decide_eq_true_eq] at lodge
  simp only [CoreRef.key, TaskRef.coreRef, (core_target hr).1, (core_target hr).2, hq, lodge]
  omega

/-- What PRMPT asks of a task it names (R282). -/
theorem prmptCode_opened {q : TaskRef} (other : CoreRef.key q.coreRef ≠ CoreRef.key s.cur.coreRef) :
    (opened s).task? q = s.task? q ∧ (opened s).prmptCode q = s.prmptCode q := by
  have same : (opened s).task? q = s.task? q := (task?_modTask ..).trans (if_neg fun h => other h.1)
  exact ⟨same, by rw [State.prmptCode, State.prmptCode, same]⟩

/-- Beside its tasks and what counts its bundles no core changes with a task. -/
theorem OnlyTask.coreBeside {s t : State} (h : OnlyTask s t) (c : CoreRef) : coreBeside (t.core c) = coreBeside (s.core c) := by
  by_cases hc : CoreRef.key c = CoreRef.key s.cur.coreRef
  · rw [core_congr t hc, core_congr s hc]
    exact h.core
  · rw [h.others c hc]

/-- PRMPT of a target (R282, R285). -/
theorem prmpt_halts (core : isLodge s.cur.core = true) (r : Runs g s) (ok : targetOk true false (s.sreg a) = true) :
    let l := targetTasks s.cur.die (s.sreg a)
    let runs := fun (r : TaskRef) => decide (s.prmptCode r = none)
    ∃ t, exec (.prmpt g a c) s = .next t
      ∧ t.task s.cur = held (.prmpt c.toNat (s.sreg a) ((l.filter runs).map TaskRef.slot) (leastStatus (l.filterMap s.prmptCode)))
          (afterBundle true s.me)
      ∧ (∀ r ∈ l, t.task? r = if runs r then (s.task? r).map fun k => { k with preempt := true } else s.task? r)
      ∧ (∀ q : TaskRef, (CoreRef.key q.coreRef ≠ CoreRef.key s.cur.coreRef ∨ q.slot ≠ s.cur.slot) →
          (∀ r ∈ l, CoreRef.key q.coreRef ≠ CoreRef.key r.coreRef ∨ q.slot ≠ r.slot) → t.task? q = s.task? q)
      ∧ (∀ k, coreBeside (t.core k) = coreBeside (s.core k)) ∧ moduleBeside t = moduleBeside s := by
  intro l runs
  have far : ∀ q ∈ l, CoreRef.key s.cur.coreRef ≠ CoreRef.key q.coreRef := fun q hq => key_target ok hq rfl core
  have codes : ∀ q ∈ l, (opened s).prmptCode q = s.prmptCode q := fun q hq => (prmptCode_opened (far q hq).symm).2
  let x := Hold.prmpt c.toNat (s.sreg a) ((l.filter runs).map TaskRef.slot) (leastStatus (l.filterMap s.prmptCode))
  let u := (l.filter runs).foldl toHalt (opened s)
  have restU : moduleBeside u = moduleBeside (opened s) := rest_toHalt ..
  have cur : u.cur = s.cur := (congrArg State.cur restU :)
  have eff : (semPrmpt g a c).eff (opened s) (opened s) = u.holdOn x := by
    have given : l.filterMap (opened s).prmptCode = l.filterMap s.prmptCode := List.filterMap_congr codes
    have named : l.filter (fun r => ((opened s).prmptCode r).isNone) = l.filter runs :=
      List.filter_congr fun q hq => by
        rw [codes q hq]
        show _ = decide (s.prmptCode q = none)
        cases s.prmptCode q <;> rfl
    simp only [semPrmpt, sreg_opened]
    rw [show (opened s).cur = s.cur from rfl, given, named]
    rfl
  have own : u.task s.cur = (opened s).me := by
    have mine := task?_toHalt (l.filter runs) (opened s) s.cur
    rw [if_neg fun ⟨q, hq, same⟩ => far q (List.mem_filter.1 hq).1 same.1] at mine
    exact congrArg (fun o : Option Task => o.getD Task.blank) mine
  have task : (u.holdOn x).task s.cur = { held x (opened s).me with pend := s.me.pend ++ [] } := by
    have mine : (u.holdOn x).me = _ := State.me_modMe ..
    rw [State.me, show (u.holdOn x).cur = s.cur from cur, State.me, cur, own] at mine
    rw [mine, List.append_nil, me_opened]
    rfl
  obtain ⟨t, next, only, mine⟩ := (bare_lodge core rfl rfl rfl rfl rfl rfl : Bare (semPrmpt g a c) s).quiet (i := .prmpt g a c) rfl r rfl
    (taken_operands prmpt_trap ok) rfl eff cur task (steady_held x) (by simp)
  have change : OnlyTask u t := (OnlyTask.modTask u (held x)).trans only
  have others : ∀ q : TaskRef, (CoreRef.key q.coreRef ≠ CoreRef.key s.cur.coreRef ∨ q.slot ≠ s.cur.slot) → t.task? q = u.task? q :=
    fun q hq => change.task? (by rw [cur]; exact hq)
  rw [core, delivered_nil] at mine
  refine ⟨t, next, mine, fun q hq => ?_, fun q hq out => ?_, fun k => ?_, change.rest.trans restU⟩
  · rw [others q (.inl (far q hq).symm), task?_toHalt]
    have before : (opened s).task? q = s.task? q := (prmptCode_opened (far q hq).symm).1
    by_cases named : runs q = true
    · have clear : s.prmptCode q = none := of_decide_eq_true named
      rw [if_pos ⟨q, List.mem_filter.2 ⟨hq, named⟩, rfl, rfl⟩, if_pos named, State.task, before]
      cases there : s.task? q with
      | none => exact absurd clear (by simp [State.prmptCode, there])
      | some k => rfl
    · have unnamed : ¬∃ p ∈ l.filter runs, CoreRef.key q.coreRef = CoreRef.key p.coreRef ∧ q.slot = p.slot := by
        rintro ⟨p, hp, core, slot⟩
        have same : s.task? q = s.task? p := by rw [State.task?, State.task?, core_congr s core, slot]
        have code : s.prmptCode q = s.prmptCode p := by rw [State.prmptCode, State.prmptCode, same]
        exact named ((congrArg (fun o : Option Nat => decide (o = none)) code).trans (List.mem_filter.1 hp).2)
      rw [if_neg unnamed, if_neg named, before]
  · rw [others q hq, task?_toHalt, if_neg fun ⟨p, hp, same⟩ => (out p (List.mem_filter.1 hp).1).elim (fun k => k same.1) fun k => k same.2]
    exact (OnlyTask.opened s).task? hq
  · refine (?_ : coreBeside (t.core k) = coreBeside (u.core k)).trans ((core_toHalt _ _ k).trans ?_)
    · exact change.coreBeside k
    · exact (OnlyTask.opened s).coreBeside k

end

/-- Settles O49: each operation's operand check is decided by one condition, and what it does is held, queued or marked. -/
theorem lodgeRequestsAreHeld : Obligations.LodgeRequestsAreHeld := by
  unfold Obligations.LodgeRequestsAreHeld
  intro g a b c s r core
  have tlbinv : Bare (semTlbinv g a b c) s := bare_lodge core rfl rfl rfl rfl rfl rfl
  have genbump : Bare (semGenbump g a b) s := bare_lodge core rfl rfl rfl rfl rfl rfl
  have domset : Bare (semDomset g a) s := bare_lodge core rfl rfl rfl rfl rfl rfl
  have npload : Bare (semNpload g a b c) s := bare_lodge core rfl rfl rfl rfl rfl rfl
  have prmpt : Bare (semPrmpt g a c) s := bare_lodge core rfl rfl rfl rfl rfl rfl
  have resume : Bare (semResume g a c) s := bare_lodge core rfl rfl rfl rfl rfl rfl
  refine ⟨fun h1 h2 h3 h4 => ?_, fun bad => ?_, fun h1 h2 h3 h4 => ?_, fun bad => ?_, fun form h1 h2 h3 => ?_, fun form bad => ?_,
    fun h1 h2 => completes_domset core r ⟨h1, h2⟩, fun bad => ?_, fun form => ?_, fun bad => ?_, fun h1 h2 h3 => ?_,
    fun acts => attest_reads acts rfl, completes_keyld, fun bad => ?_, prmpt_halts core r⟩
  · exact tlbinv.holds rfl r rfl tlbinv_trap ⟨h1, h2, h3, h4⟩ rfl (by simp only [semTlbinv, sreg_opened])
  · exact tlbinv.refuses rfl r rfl tlbinv_trap (by omega)
  · exact genbump.holds rfl r rfl genbump_trap ⟨h1, h2, h3, h4⟩ rfl (by simp only [semGenbump, sreg_opened])
  · exact genbump.refuses rfl r rfl genbump_trap (by omega)
  · exact (bare_l2wb core form).holds rfl r rfl l2wb_trap ⟨h1, h2, h3⟩ rfl (by simp only [semL2wb, sreg_opened])
  · exact (bare_l2wb core form).refuses rfl r rfl l2wb_trap (by omega)
  · exact domset.refuses rfl r rfl domset_trap (by omega)
  · exact exec_illegal (m := semL2wb g a b c) rfl r.may (by simp [SlotSem.isIllegal, semL2wb, form])
  · exact npload.refuses rfl r rfl npload_trap (by omega)
  · exact npload.holds rfl r rfl npload_trap ⟨h1, h2, h3⟩ rfl (by simp only [semNpload, sreg_opened])
  · have refused : ¬targetOk true false (s.sreg a) = true := by rw [bad]; exact Bool.false_ne_true
    exact ⟨prmpt.refuses rfl r rfl prmpt_trap refused, resume.refuses rfl r rfl resume_trap refused⟩

end Sys2Proof

namespace Sys2Proof

open Machine

/-! ### RESUME (R284, R285) -/

/-- Two names of one slot of a core. -/
abbrev SameSlot (q r : TaskRef) : Prop := CoreRef.key q.coreRef = CoreRef.key r.coreRef ∧ q.slot = r.slot

theorem SameSlot.task? {q r : TaskRef} (h : SameSlot q r) (s : State) : s.task? q = s.task? r := by
  rw [State.task?, State.task?, core_congr s h.1, h.2]

theorem not_sameSlot {q r : TaskRef} (h : CoreRef.key q.coreRef ≠ CoreRef.key r.coreRef ∨ q.slot ≠ r.slot) : ¬SameSlot q r :=
  fun k => h.elim (fun h => h k.1) fun h => h k.2

/-- A halted task made ready again, with the results that came meanwhile. -/
def resumed (lodge : Bool) (t : Task) : Task :=
  (t.pend.filter fun p => decide (p.left = 0)).foldl (landIn lodge)
    { t with halted := false, stopped := false, trapped := none, pend := t.pend.filter fun p => !decide (p.left = 0) }

/-- The state with a slot's task rewritten, beside what counts its core's bundles. -/
structure Rewrote (r : TaskRef) (x : Task) (s t : State) : Prop where
  own : ∀ q, SameSlot q r → t.task? q = some x
  others : ∀ q, ¬SameSlot q r → t.task? q = s.task? q
  cores : ∀ c, coreBeside (t.core c) = coreBeside (s.core c)
  rest : moduleBeside t = moduleBeside s

theorem Rewrote.task {r : TaskRef} {x : Task} {s t : State} (h : Rewrote r x s t) : t.task r = x := by
  rw [State.task, h.own r ⟨rfl, rfl⟩]
  rfl

theorem Rewrote.setTask {r : TaskRef} {x : Task} {s t : State} (h : Rewrote r x s t) (y : Task) : Rewrote r y s (t.setTask r y) := by
  have tasks : ∀ q, (t.setTask r y).task? q = if CoreRef.key q.coreRef = CoreRef.key r.coreRef ∧ q.slot = r.slot then some y else t.task? q :=
    task?_modTask t r fun _ => y
  refine ⟨fun q hq => (tasks q).trans (if_pos hq), fun q hq => ((tasks q).trans (if_neg hq)).trans (h.others q hq), fun c => ?_, h.rest⟩
  refine Eq.trans ?_ (h.cores c)
  by_cases hc : CoreRef.key c = CoreRef.key r.coreRef
  · rw [core_congr _ hc, core_congr t hc, State.setTask, State.putTask, State.core_modCore]
    rfl
  · rw [State.setTask, State.putTask, State.core_modCore_other _ _ hc]

/-- Results that are registers of their task's own become visible in it. -/
theorem Rewrote.land {r : TaskRef} {s : State} (l : List Pending) {x : Task} {t : State} (h : Rewrote r x s t)
    (scalar : ∀ p ∈ l, ∃ d v, p.val = .scalar d v) : Rewrote r (l.foldl (landIn (isLodge r.core)) x) s (l.foldl (State.landOne r) t) := by
  induction l generalizing x t with
  | nil => exact h
  | cons p l ih =>
    obtain ⟨d, v, hv⟩ := scalar p List.mem_cons_self
    rw [List.foldl_cons, List.foldl_cons, landOne_own _ _ _ (by simp [hv]) (by simp [hv]), h.task]
    exact ih (h.setTask _) fun q hq => scalar q (List.mem_cons_of_mem _ hq)

/-- A resumed task runs outside any region (R206, R285). -/
theorem resumeTask_rewrote (s : State) (r : TaskRef) (fatal : s.fatal = none)
    (scalar : ∀ p ∈ (s.task r).pend, p.left = 0 → ∃ d v, p.val = .scalar d v) :
    Rewrote r (resumed (isLodge r.core) (s.task r)) s (s.resumeTask r) := by
  have due : ∀ p ∈ (s.task r).pend.filter fun p => decide (p.left = 0), ∃ d v, p.val = .scalar d v := fun p hp =>
    scalar p (List.mem_filter.1 hp).1 (of_decide_eq_true (List.mem_filter.1 hp).2)
  unfold State.resumeTask
  rw [fatal]
  refine Rewrote.land _ ?_ due
  refine ⟨fun q hq => ?_, fun q hq => ?_, fun c => ?_, rfl⟩
  · exact ((task?_modCore_tasks _ _ rfl _).trans (task?_modTask ..)).trans (if_pos hq)
  · exact ((task?_modCore_tasks _ _ rfl _).trans (task?_modTask ..)).trans (if_neg hq)
  · by_cases hc : CoreRef.key c = CoreRef.key r.coreRef
    · rw [core_congr _ hc, core_congr s hc, State.core_modCore, State.core_modTask]
      rfl
    · rw [State.core_modCore_other _ _ hc, core_modTask_other _ _ hc]

/-- Tasks made ready again, each in a slot of its own. -/
theorem task?_resumed (l : List TaskRef) (s : State) (fatal : s.fatal = none) (apart : l.Pairwise fun q r => ¬SameSlot q r)
    (core : ∀ r ∈ l, isLodge r.core = false) (scalar : ∀ r ∈ l, ∀ p ∈ (s.task r).pend, p.left = 0 → ∃ d v, p.val = .scalar d v) :
    (∀ r ∈ l, (l.foldl State.resumeTask s).task? r = some (resumed false (s.task r)))
      ∧ (∀ q, (∀ r ∈ l, ¬SameSlot q r) → (l.foldl State.resumeTask s).task? q = s.task? q)
      ∧ (∀ c, coreBeside ((l.foldl State.resumeTask s).core c) = coreBeside (s.core c))
      ∧ moduleBeside (l.foldl State.resumeTask s) = moduleBeside s := by
  induction l generalizing s with
  | nil => exact ⟨by simp, fun _ _ => rfl, fun _ => rfl, rfl⟩
  | cons r l ih =>
    obtain ⟨far, apart⟩ := List.pairwise_cons.1 apart
    have first := resumeTask_rewrote s r fatal (scalar r List.mem_cons_self)
    rw [core r List.mem_cons_self] at first
    have kept : ∀ q ∈ l, (s.resumeTask r).task q = s.task q := fun q hq => by
      rw [State.task, State.task, first.others q fun h => far q hq ⟨h.1.symm, h.2.symm⟩]
    obtain ⟨named, others, cores, rest⟩ := ih (s.resumeTask r) ((congrArg State.fatal first.rest :).trans fatal) apart
      (fun q hq => core q (List.mem_cons_of_mem _ hq)) fun q hq => by
        rw [kept q hq]
        exact scalar q (List.mem_cons_of_mem _ hq)
    refine ⟨fun q hq => ?_, fun q hq => ?_, fun c => (cores c).trans (first.cores c), rest.trans first.rest⟩
    · rcases List.mem_cons.1 hq with rfl | hq
      · exact (others q far).trans (first.own q ⟨rfl, rfl⟩)
      · rw [List.foldl_cons, named q hq, kept q hq]
    · exact (others q fun p hp => hq p (List.mem_cons_of_mem _ hp)).trans (first.others q (hq r List.mem_cons_self))

/-- After a fatal stop nothing resumes (R389). -/
theorem resumed_fatal (l : List TaskRef) (s : State) (fatal : s.fatal ≠ none) : l.foldl State.resumeTask s = s := by
  have stays : ∀ r, s.resumeTask r = s := fun r => if_pos (Option.isSome_iff_ne_none.2 fatal)
  induction l with
  | nil => rfl
  | cons r l ih => rw [List.foldl_cons, stays, ih]

/-- The slots that a target names are apart. -/
theorem apart_target (die : Nat) (v : W64) : (targetTasks die v).Pairwise fun q r => ¬SameSlot q r := by
  unfold targetTasks
  dsimp only
  split
  · refine List.pairwise_map.2 (List.nodup_range.imp fun h same => h same.2)
  · exact List.pairwise_singleton ..

section
variable {g : Guard} {a b c : BitVec 5} {s : State}

/-- The tasks RESUME makes ready (R285). -/
def toResume (s : State) (l : List TaskRef) : List TaskRef := l.filter fun r => decide (s.resumeCode r = 0) && !(s.task r).broken

/-- What RESUME does before it gives its status (R285). -/
def resumedAll (s : State) (l : List TaskRef) (t : State) : State :=
  if l.any fun r => (s.task r).broken then ((toResume s l).foldl State.resumeTask t).tookFree else (toResume s l).foldl State.resumeTask t

theorem resume_eff (ok : targetOk true false (s.sreg a) = true) (core : isLodge s.cur.core = true) :
    (semResume g a c).eff (opened s) (opened s) = (resumedAll s (targetTasks s.cur.die (s.sreg a)) (opened s)).push 1
      (.scalar c.toNat (BitVec.ofNat 64 (leastStatus ((targetTasks s.cur.die (s.sreg a)).map s.resumeCode)))) := by
  have same : ∀ r ∈ targetTasks s.cur.die (s.sreg a), (opened s).task? r = s.task? r := fun r hr =>
    (prmptCode_opened (key_target ok hr rfl core).symm).1
  have codes : ∀ r ∈ targetTasks s.cur.die (s.sreg a), (opened s).resumeCode r = s.resumeCode r := fun r hr => by
    rw [State.resumeCode, State.resumeCode, same r hr]
    rfl
  have broken : ∀ r ∈ targetTasks s.cur.die (s.sreg a), ((opened s).task r).broken = (s.task r).broken := fun r hr => by
    rw [State.task, State.task, same r hr]
  have some : (targetTasks s.cur.die (s.sreg a)).filter (fun r => decide ((opened s).resumeCode r = 0) && !((opened s).task r).broken) =
      toResume s (targetTasks s.cur.die (s.sreg a)) := List.filter_congr fun r hr => by rw [codes r hr, broken r hr]
  have any : (targetTasks s.cur.die (s.sreg a)).any (fun r => ((opened s).task r).broken) =
      (targetTasks s.cur.die (s.sreg a)).any fun r => (s.task r).broken := by
    rw [Bool.eq_iff_iff, List.any_eq_true, List.any_eq_true]
    exact exists_congr fun r => and_congr_right fun hr => by rw [broken r hr]
  simp only [semResume, sreg_opened, cur_opened, some, any, List.map_congr_left codes]
  rfl

/-- What RESUME does to the tasks (R284, R285, R389). -/
theorem resumedAll_spec (l : List TaskRef) (t : State) (fatal : t.fatal = s.fatal) (apart : l.Pairwise fun q r => ¬SameSlot q r)
    (core : ∀ r ∈ l, isLodge r.core = false) (same : ∀ r ∈ l, t.task? r = s.task? r)
    (scalar : ∀ r ∈ l, ∀ p ∈ (s.task r).pend, p.left = 0 → ∃ d v, p.val = .scalar d v) :
    (∀ r ∈ l, (resumedAll s l t).task? r = if s.resumeCode r = 0 ∧ (s.task r).broken = false ∧ s.fatal = none then
        (s.task? r).map (resumed false) else s.task? r)
      ∧ (∀ q, (∀ r ∈ l, ¬SameSlot q r) → (resumedAll s l t).task? q = t.task? q)
      ∧ (∀ c, coreBeside ((resumedAll s l t).core c) = coreBeside (t.core c))
      ∧ { moduleBeside (resumedAll s l t) with freeCtr := 0 } = { moduleBeside t with freeCtr := 0 } := by
  let u := (toResume s l).foldl State.resumeTask t
  have cores : (resumedAll s l t).cores = u.cores := by unfold resumedAll; split <;> rfl
  have rest : { moduleBeside (resumedAll s l t) with freeCtr := 0 } = { moduleBeside u with freeCtr := 0 } := by
    unfold resumedAll; split <;> rfl
  have inside : ∀ r ∈ toResume s l, r ∈ l := fun r hr => (List.mem_filter.1 hr).1
  have tasks : ∀ q, (resumedAll s l t).task? q = u.task? q := fun q => by rw [State.task?, State.core, cores]; rfl
  have kept : ∀ r ∈ l, t.task r = s.task r := fun r hr => by rw [State.task, State.task, same r hr]
  suffices spec : (∀ r ∈ l, u.task? r = if s.resumeCode r = 0 ∧ (s.task r).broken = false ∧ s.fatal = none then
      (s.task? r).map (resumed false) else s.task? r) ∧ (∀ q, (∀ r ∈ l, ¬SameSlot q r) → u.task? q = t.task? q)
      ∧ (∀ c, coreBeside (u.core c) = coreBeside (t.core c)) ∧ moduleBeside u = moduleBeside t by
    obtain ⟨named, others, beside, still⟩ := spec
    refine ⟨fun r hr => (tasks r).trans (named r hr), fun q hq => (tasks q).trans (others q hq), fun c => ?_,
      rest.trans (congrArg (fun m => { m with freeCtr := 0 }) still)⟩
    rw [State.core, cores]
    exact beside c
  by_cases stopped : s.fatal = none
  case neg =>
    have still : u = t := resumed_fatal _ t (by rw [fatal]; exact stopped)
    rw [still]
    exact ⟨fun r hr => (same r hr).trans (if_neg fun h => stopped h.2.2).symm, fun _ _ => rfl, fun _ => rfl, rfl⟩
  case pos =>
    obtain ⟨named, others, beside, still⟩ := task?_resumed (toResume s l) t (fatal.trans stopped) (apart.filter _)
      (fun r hr => core r (inside r hr)) fun r hr => by
        rw [kept r (inside r hr)]
        exact scalar r (inside r hr)
    refine ⟨fun r hr => ?_, fun q hq => others q fun p hp => hq p (inside p hp), beside, still⟩
    split
    case isTrue due =>
      have there : r ∈ toResume s l := List.mem_filter.2 ⟨hr, by simp [due.1, due.2.1]⟩
      rw [named r there, kept r hr, State.task]
      cases held : s.task? r with
      | none => exact absurd due.1 (by simp [State.resumeCode, held])
      | some k => rfl
    case isFalse idle =>
      have absent : r ∉ toResume s l := fun there => idle (by
        have := (List.mem_filter.1 there).2
        simp only [Bool.and_eq_true, decide_eq_true_eq, Bool.not_eq_true'] at this
        exact ⟨this.1, this.2, stopped⟩)
      refine (others r fun p hp => ?_).trans (same r hr)
      have symm : Std.Symm fun q r => ¬SameSlot q r := ⟨fun q p h k => h ⟨k.1.symm, k.2.symm⟩⟩
      exact apart.forall hr (inside p hp) fun h => absent (h ▸ hp)

/-- RESUME of a target (R285). -/
theorem resume_readies (core : isLodge s.cur.core = true) (r : Runs g s) (ok : targetOk true false (s.sreg a) = true)
    (scalar : ∀ r ∈ targetTasks s.cur.die (s.sreg a), ∀ p ∈ (s.task r).pend, p.left = 0 → ∃ d v, p.val = .scalar d v) :
    let l := targetTasks s.cur.die (s.sreg a)
    ∃ t, exec (.resume g a c) s = .next t
      ∧ t.task s.cur = delivered true (scalarResult 1 c (BitVec.ofNat 64 (leastStatus (l.map s.resumeCode)))) (afterBundle true s.me)
      ∧ (∀ r ∈ l, t.task? r = if s.resumeCode r = 0 ∧ (s.task r).broken = false ∧ s.fatal = none then
          (s.task? r).map (resumed false) else s.task? r)
      ∧ (∀ q : TaskRef, (CoreRef.key q.coreRef ≠ CoreRef.key s.cur.coreRef ∨ q.slot ≠ s.cur.slot) →
          (∀ r ∈ l, CoreRef.key q.coreRef ≠ CoreRef.key r.coreRef ∨ q.slot ≠ r.slot) → t.task? q = s.task? q)
      ∧ (∀ k, coreBeside (t.core k) = coreBeside (s.core k))
      ∧ { moduleBeside t with freeCtr := 0 } = { moduleBeside s with freeCtr := 0 } := by
  intro l
  have far : ∀ q ∈ l, CoreRef.key s.cur.coreRef ≠ CoreRef.key q.coreRef := fun q hq => key_target ok hq rfl core
  obtain ⟨named, others, cores, rest⟩ := resumedAll_spec (s := s) l (opened s) rfl (apart_target ..)
    (fun q hq => by rw [isLodge, (core_target hq).2, decide_eq_false (target_not_lodge ok)])
    (fun q hq => (prmptCode_opened (far q hq).symm).1) scalar
  let u := resumedAll s l (opened s)
  let p : Pending := ⟨.scalar c.toNat (BitVec.ofNat 64 (leastStatus (l.map s.resumeCode))), 1, 0⟩
  have cur : u.cur = s.cur := (congrArg State.cur rest :)
  have own : u.task s.cur = (opened s).me := by rw [State.task, others s.cur fun q hq h => far q hq h.1]; rfl
  have task : (u.push 1 p.val).task s.cur = { id (opened s).me with pend := s.me.pend ++ [p] } := by
    have mine : (u.push 1 p.val).me = _ := State.me_modMe ..
    rw [State.me, show (u.push 1 p.val).cur = s.cur from cur, State.me, cur, own] at mine
    rw [mine, me_opened]
    rfl
  obtain ⟨t, next, only, mine⟩ := (bare_lodge core rfl rfl rfl rfl rfl rfl : Bare (semResume g a c) s).quiet (i := .resume g a c) rfl r rfl
    (taken_operands resume_trap ok) rfl (resume_eff ok core) cur task (f := id) steady_id (List.forall_mem_singleton.2 ⟨Nat.le_refl 1, own_scalar _ _ _ _⟩)
  have change : OnlyTask u t := OnlyTask.trans (OnlyTask.modTask u fun t => t.push 1 p.val) only
  have elsewhere : ∀ q : TaskRef, (CoreRef.key q.coreRef ≠ CoreRef.key s.cur.coreRef ∨ q.slot ≠ s.cur.slot) → t.task? q = u.task? q :=
    fun q hq => change.task? (by rw [cur]; exact hq)
  rw [core] at mine
  refine ⟨t, next, mine, fun q hq => (elsewhere q (.inl (far q hq).symm)).trans (named q hq), fun q hq out => ?_, fun k => ?_,
    (congrArg (fun m => { m with freeCtr := 0 }) change.rest).trans rest⟩
  · exact ((elsewhere q hq).trans (others q fun p hp => not_sameSlot (out p hp))).trans ((OnlyTask.opened s).task? hq)
  · exact (change.coreBeside k).trans ((cores k).trans ((OnlyTask.opened s).coreBeside k))

/-! ### RLINV (R367) -/

/-- A change of the first n dies, each alone. -/
theorem die_each (f : Die → Die) (s : State) (n d : Nat) :
    ((List.range n).foldl (fun s d => s.modDie d f) s).die d = if d < n then f (s.die d) else s.die d := by
  induction n with
  | zero => simp
  | succ n ih =>
    rw [List.range_succ, List.foldl_append, List.foldl_cons, List.foldl_nil]
    by_cases h : d = n
    · subst h
      rw [State.die_modDie, ih, if_neg (Nat.lt_irrefl _), if_pos (Nat.lt_succ_self _)]
    · rw [State.die_modDie_other _ _ h, ih]
      simp only [show d < n + 1 ↔ d < n by omega]

theorem spares_modDie (mc : Core → Core) (s : State) (d : Nat) (f : Die → Die) :
    Spares mc (fun x => { moduleBeside x with dies := [] }) s (s.modDie d f) := .of_cores _ rfl rfl rfl

/-- The rank lists RLINV drops of a die (R367). -/
def dropLists (job : Nat) (v : W64) (d : Die) : Die := { d with ranklists := d.ranklists.filter fun k =>
  !(decide (k.job = job) && (decide (v = BitVec.allOnes 64) || decide (k.addr = v.toNat))) }

theorem rlinv_trap : (semRlinv g a).trap 0 (opened s) = operandTrap (s.sreg a = BitVec.allOnes 64 ∨ (s.sreg a).toNat < 2 ^ 56) := by
  simp only [semRlinv, sreg_opened]
  exact sysTrap_eq (by simp only [Bool.and_eq_false_iff, decide_eq_false_iff_not, Decidable.not_not, Nat.not_le])

theorem bare_rlinv (core : isCompute s.cur.core = false) : Bare (semRlinv g a) s where
  legal := by simp [SlotSem.isIllegal, semRlinv]
  allowed := by simp [SlotSem.isDenied, semRlinv, core]
  src := rfl
  funit := rfl
  mark := rfl

theorem completes_rlinv (core : isCompute s.cur.core = false) (r : Runs g s) (fits : (s.sreg a).toNat < 2 ^ 56 ∨ s.sreg a = BitVec.allOnes 64) :
    Completes (.rlinv g a) s coreBeside (fun m => { moduleBeside m with dies := [] }) id [] fun t =>
      ∀ d, t.die d = if d < 8 then dropLists s.jobid.toNat (s.sreg a) (s.die d) else s.die d := by
  have each := die_each (dropLists s.jobid.toNat (s.sreg a)) (opened s) 8
  have spares : Spares coreBeside (fun x => { moduleBeside x with dies := [] }) (opened s)
      ((List.range 8).foldl (fun m d => m.modDie d (dropLists s.jobid.toNat (s.sreg a))) (opened s)) :=
    .foldl _ (fun t d => spares_modDie _ t d _) _ _
  have eff : (semRlinv g a).eff (opened s) (opened s) =
      (List.range 8).foldl (fun m d => m.modDie d (dropLists s.jobid.toNat (s.sreg a))) (opened s) := by
    simp only [semRlinv, sreg_opened]
    rfl
  generalize (List.range 8).foldl (fun m d => m.modDie d (dropLists s.jobid.toNat (s.sreg a))) (opened s) = u at each spares eff
  refine (bare_rlinv core).spares rfl r rfl
    (taken_operands rlinv_trap fits.symm) rfl eff spares (fun _ _ h => h)
    (fun _ _ h => congrArg (fun m => { m with dies := [] }) h) fun t ht d => ?_
  have dies : t.dies = u.dies := (congrArg State.dies ht.rest :)
  rw [State.die, dies]
  exact each d

/-! ### LKEY (R356) -/

/-- The state that LKEY's status is written in: an install has read its record (R253). -/
def keyRead (s : State) (v b : W64) : State :=
  if keyOp v = 0 then ((opened s).keyRecord b).1.lodgeRest s.cur.die else opened s

theorem reads_keyRead (s : State) (v b : W64) : Reads s.cur.die (opened s) (keyRead s v b) := by
  unfold keyRead
  split
  · exact (reads_lodgeRead ..).trans (reads_lodgeRest ..)
  · exact (Worked.refl _).reads _

/-- The status LKEY gives (R356). -/
def keyCode (s : State) (v : W64) : Nat :=
  ((s.die s.cur.die).link (2 + keyPort v)).keyStatus (s.rackOpen s.cur.die) (keyOp v) (keyDir v) (keySlot v)

/-- A key slot of a link installed from the record that was read, or cleared (R356). -/
def keyed (die : Nat) (v : W64) (got : Got) (s : State) : State :=
  if keyOp v = 0 then
    (match got with
      | .bytes r => s.modLink die (2 + keyPort v) (Link.setKey (keyDir v) (keySlot v) (some ⟨r.take 32, (r.drop 32).take 4⟩))
      | _ => s)
  else s.modLink die (2 + keyPort v) (Link.setKey (keyDir v) (keySlot v) none)

theorem keyed_clear {die : Nat} {v : W64} {got : Got} {t : State} (h : keyOp v ≠ 0) :
    keyed die v got t = t.modLink die (2 + keyPort v) (Link.setKey (keyDir v) (keySlot v) none) := if_neg h

theorem keyed_install {die : Nat} {v : W64} {r : List Byte} {t : State} (h : keyOp v = 0) : keyed die v (.bytes r) t =
    t.modLink die (2 + keyPort v) (Link.setKey (keyDir v) (keySlot v) (some ⟨r.take 32, (r.drop 32).take 4⟩)) := if_pos h

theorem lkey_eff : (semLkey g a b c).eff (opened s) (opened s) =
    if keyCode s (s.sreg a) = 0 ∧ keyOp (s.sreg a) = 1 then
      ((keyRead s (s.sreg a) (s.sreg b)).beginSwitch s.cur.die (2 + keyPort (s.sreg a)) (keySlot (s.sreg a))).holdOn
        (.lkey c.toNat (keyPort (s.sreg a)))
    else
      let done := (keyRead s (s.sreg a) (s.sreg b)).push 1 (.scalar c.toNat (BitVec.ofNat 64 (keyCode s (s.sreg a))))
      if keyCode s (s.sreg a) ≠ 0 then done else keyed s.cur.die (s.sreg a) ((opened s).keyRecord (s.sreg b)).2 done := by
  have code : (((opened s).die s.cur.die).link (2 + keyPort (s.sreg a))).keyStatus ((opened s).rackOpen s.cur.die) (keyOp (s.sreg a))
    (keyDir (s.sreg a)) (keySlot (s.sreg a)) = keyCode s (s.sreg a) := rfl
  simp only [semLkey, sreg_opened, cur_opened, code, keyed, keyRead] <;> rfl

/-- What a change of one link of a die leaves of the dies. -/
structure LinkOnly (die port : Nat) (s t : State) : Prop where
  others : ∀ d, d ≠ die → t.die d = s.die d
  beside : { t.die die with links := [] } = { s.die die with links := [] }
  links : ∀ k, k ≠ port → (t.die die).link k = (s.die die).link k

theorem LinkOnly.refl (die port : Nat) (s : State) : LinkOnly die port s s := ⟨fun _ _ => rfl, rfl, fun _ _ => rfl⟩

theorem linkOnly_modLink (s : State) (die port : Nat) (f : Link → Link) : LinkOnly die port s (s.modLink die port f) where
  others _ h := State.die_modDie_other _ _ h
  beside := by rw [State.modLink, State.die_modDie]
  links k h := by
    rw [State.modLink, State.die_modDie]
    exact Tbl.get_set_other _ _ _ h

theorem link_modLink (s : State) (die port : Nat) (f : Link → Link) : ((s.modLink die port f).die die).link port = f ((s.die die).link port) := by
  rw [State.modLink, State.die_modDie]
  exact Tbl.get_set_same ..

/-- What is said of the dies alone. -/
theorem LinkOnly.congr {die port : Nat} {s t u : State} (h : LinkOnly die port s t) (dies : u.dies = t.dies) : LinkOnly die port s u := by
  have same : ∀ d, u.die d = t.die d := fun d => by rw [State.die, dies]; rfl
  exact ⟨fun d hd => (same d).trans (h.others d hd), by rw [same, h.beside], fun k hk => by rw [same, h.links k hk]⟩

theorem keyed_push (die : Nat) (v : W64) (got : Got) (s : State) (p : PVal) : keyed die v got (s.push 1 p) =
    (keyed die v got s).modMe fun t => { id t with pend := t.pend ++ [⟨p, 1, 0⟩] } := by
  unfold keyed
  split
  · cases got <;> rfl
  · rfl

theorem spares_keyed (die : Nat) (v : W64) (got : Got) (s : State) :
    Spares coreBeside (fun x => { moduleBeside x with dies := [] }) s (keyed die v got s) ∧ LinkOnly die (2 + keyPort v) s (keyed die v got s) := by
  unfold keyed
  split
  · cases got with
    | bytes r => exact ⟨spares_modDie .., linkOnly_modLink ..⟩
    | failed t => exact ⟨.refl .., .refl ..⟩
    | waits => exact ⟨.refl .., .refl ..⟩
  · exact ⟨spares_modDie .., linkOnly_modLink ..⟩

/-- A result of latency 1 leaves a task's time. -/
theorem delivered_atTime (lodge : Bool) (d : BitVec 5) (v : W64) (time : W64) (t : Task) :
    delivered lodge (scalarResult 1 d v) (atTime time t) = { delivered lodge (scalarResult 1 d v) t with time := time } := by
  by_cases h : d.toNat = 0 <;> simp [delivered, scalarResult, landIn, Task.setSreg, Task.orFlags, atTime, h]

/-- The link after a switch of its slot has begun (R349). -/
def switchBegun (slot : Nat) (k : Link) : Link :=
  { k with
    markEseq := k.txEseq, txEseq := (k.txEseq + 1) % 2 ^ 32
    retry := k.retry ++ [(k.txEseq, k.txAct, ⟨7, 0, 0, 0, 0, false, false, padTo 128 (leBytes 1 slot)⟩)]
    icntOld := k.icnt, icnt := 0, switching := some slot, liveOld := decide (k.txAct ≠ slot), txAct := slot }

/-- A rack port's switch puts its marker on the wire (R349). -/
theorem beginSwitch_rack (u : State) (die port slot : Nat) : ∃ y, u.beginSwitch die (2 + port) slot =
    ({ u with outbound := u.outbound ++ [y] } : State).modLink die (2 + port) (switchBegun slot) := by
  have rack : ringPeer die (2 + port) = none := by
    rw [Nat.add_comm]
    rfl
  unfold State.beginSwitch State.onWire
  dsimp only
  rw [rack]
  exact ⟨_, rfl⟩

section
variable (acts : Acts (.lkey g a b c) s)
include acts

/-- LKEY that gives a status at once, after what `keyed` or nothing changed. -/
theorem lkey_gives {v : State} (spares : Spares coreBeside (fun x => { moduleBeside x with dies := [] }) (keyRead s (s.sreg a) (s.sreg b)) v)
    (eff : (semLkey g a b c).eff (opened s) (opened s) =
      v.modMe fun t => { id t with pend := t.pend ++ scalarResult 1 c (BitVec.ofNat 64 (keyCode s (s.sreg a))) }) :
    ∃ t, exec (.lkey g a b c) s = .next t
      ∧ Frame coreBeside (fun x => { moduleBeside x with dies := [] }) (keyRead s (s.sreg a) (s.sreg b)) t ∧ OnlyTask v t
      ∧ t.task s.cur = { delivered true (scalarResult 1 c (BitVec.ofNat 64 (keyCode s (s.sreg a)))) (afterBundle true s.me) with
          time := ((keyRead s (s.sreg a) (s.sreg b)).task s.cur).time } := by
  obtain ⟨r, ready⟩ := acts.slotOf (m := semLkey g a b c) rfl
  obtain ⟨t, next, frame, only, mine⟩ := ready.reading (i := .lkey g a b c) r rfl rfl rfl rfl (reads_keyRead ..) spares eff steady_id
    (List.forall_mem_singleton.2 ⟨Nat.le_refl 1, own_scalar _ _ _ _⟩) (fun _ _ h => h) fun _ _ h => congrArg (fun x => { x with dies := [] }) h
  rw [core_of_lodge ready r rfl, id, delivered_atTime] at mine
  exact ⟨t, next, frame, only, mine⟩

/-- LKEY with a status other than 0 changes nothing beside its read. -/
theorem lkey_refused (code : keyCode s (s.sreg a) ≠ 0) : ∃ t, exec (.lkey g a b c) s = .next t
    ∧ Frame coreBeside moduleBeside (keyRead s (s.sreg a) (s.sreg b)) t
    ∧ t.task s.cur = { delivered true (scalarResult 1 c (BitVec.ofNat 64 (keyCode s (s.sreg a)))) (afterBundle true s.me) with
        time := ((keyRead s (s.sreg a) (s.sreg b)).task s.cur).time } := by
  obtain ⟨t, next, -, only, mine⟩ := lkey_gives acts (.refl ..) (by
    rw [lkey_eff, if_neg fun h => code h.1]
    dsimp only
    rw [if_pos code]
    rfl)
  exact ⟨t, next, only, mine⟩

/-- LKEY of a switch that may begin (R349, R356). -/
theorem lkey_switches (code : keyCode s (s.sreg a) = 0) (op : keyOp (s.sreg a) = 1) : ∃ t y, exec (.lkey g a b c) s = .next t
    ∧ Frame coreBeside (fun x => { moduleBeside x with dies := [], outbound := [] }) (opened s) t
    ∧ LinkOnly s.cur.die (2 + keyPort (s.sreg a)) (opened s) t
    ∧ t.task s.cur = held (.lkey c.toNat (keyPort (s.sreg a))) (afterBundle true s.me)
    ∧ t.outbound = s.outbound ++ [y]
    ∧ (t.die s.cur.die).link (2 + keyPort (s.sreg a)) = switchBegun (keySlot (s.sreg a)) ((s.die s.cur.die).link (2 + keyPort (s.sreg a))) := by
  obtain ⟨r, ready⟩ := acts.slotOf (m := semLkey g a b c) rfl
  have read : keyRead s (s.sreg a) (s.sreg b) = opened s := if_neg (by rw [op]; decide)
  obtain ⟨y, hy⟩ := beginSwitch_rack (opened s) s.cur.die (keyPort (s.sreg a)) (keySlot (s.sreg a))
  let w : State := { opened s with outbound := (opened s).outbound ++ [y] }
  have spares : Spares coreBeside (fun x => { moduleBeside x with dies := [], outbound := [] }) (opened s)
      (w.modLink s.cur.die (2 + keyPort (s.sreg a)) (switchBegun (keySlot (s.sreg a)))) := .of_cores _ rfl rfl rfl
  have eff : (semLkey g a b c).eff (opened s) (opened s) = (w.modLink s.cur.die (2 + keyPort (s.sreg a)) (switchBegun (keySlot (s.sreg a)))).modMe
      fun t => { held (.lkey c.toNat (keyPort (s.sreg a))) t with pend := t.pend ++ [] } := by
    rw [lkey_eff, if_pos ⟨code, op⟩, read, hy, State.holdOn]
    simp only [List.append_nil]
    rfl
  obtain ⟨t, next, frame, only, mine⟩ := ready.reading (i := .lkey g a b c) r rfl rfl rfl rfl ((Worked.refl _).reads s.cur.die) spares eff
    (steady_held _) (by simp) (fun _ _ h => h) fun _ _ h => congrArg (fun x => { x with dies := [], outbound := [] }) h
  have dies : t.dies = (w.modLink s.cur.die (2 + keyPort (s.sreg a)) (switchBegun (keySlot (s.sreg a)))).dies := (congrArg State.dies only.rest :)
  have time : atTime ((opened s).task s.cur).time (afterBundle true s.me) = afterBundle true s.me := by
    rw [show (opened s).task s.cur = (opened s).me from rfl, me_opened]
    rfl
  rw [core_of_lodge ready r rfl, delivered_nil, time] at mine
  have only' := (linkOnly_modLink w s.cur.die (2 + keyPort (s.sreg a)) (switchBegun (keySlot (s.sreg a)))).congr dies
  refine ⟨t, y, next, frame, ⟨only'.others, only'.beside, only'.links⟩, mine, (congrArg State.outbound only.rest :), ?_⟩
  rw [State.die, dies]
  exact link_modLink w ..

/-- LKEY that installs or clears a key (R356). -/
theorem lkey_keys (code : keyCode s (s.sreg a) = 0) (op : keyOp (s.sreg a) ≠ 1) : ∃ t, exec (.lkey g a b c) s = .next t
    ∧ Frame coreBeside (fun x => { moduleBeside x with dies := [] }) (keyRead s (s.sreg a) (s.sreg b)) t
    ∧ t.task s.cur = { delivered true (scalarResult 1 c (BitVec.ofNat 64 0)) (afterBundle true s.me) with
        time := ((keyRead s (s.sreg a) (s.sreg b)).task s.cur).time }
    ∧ LinkOnly s.cur.die (2 + keyPort (s.sreg a)) (keyRead s (s.sreg a) (s.sreg b)) t
    ∧ t.dies = (keyed s.cur.die (s.sreg a) ((opened s).keyRecord (s.sreg b)).2 (keyRead s (s.sreg a) (s.sreg b))).dies := by
  obtain ⟨spares, links⟩ := spares_keyed s.cur.die (s.sreg a) ((opened s).keyRecord (s.sreg b)).2 (keyRead s (s.sreg a) (s.sreg b))
  obtain ⟨t, next, frame, only, mine⟩ := lkey_gives acts spares (by
    rw [lkey_eff, if_neg fun h => op h.2]
    dsimp only
    rw [if_neg (not_not_intro code), keyed_push]
    rfl)
  have dies : t.dies = _ := (congrArg State.dies only.rest :)
  rw [code] at mine
  exact ⟨t, next, frame, mine, links.congr dies, dies⟩

end

end

/-- Settles O50: RESUME task by task over its target, RLINV die by die, LKEY by its status and operation. -/
theorem lodgeOperationsAtOnce : Obligations.LodgeOperationsAtOnce := by
  unfold Obligations.LodgeOperationsAtOnce
  intro g a b c s r
  refine ⟨fun core ok scalar => resume_readies core r ok scalar, fun core fits => completes_rlinv core r fits, fun core high other => ?_,
    fun acts => ⟨fun code => lkey_refused acts code, fun code op => ?_, fun code op => ?_⟩⟩
  · exact (bare_rlinv core).refuses rfl r rfl rlinv_trap fun fits => fits.elim other (Nat.not_lt.2 high)
  · obtain ⟨t, y, next, frame, link, mine, wire, port⟩ := lkey_switches acts code op
    rw [if_neg (show ¬(s.sreg a).toNat / 8 = 0 by rw [op]; decide)]
    exact ⟨t, next, frame, ⟨link.others, link.beside, link.links⟩, mine, ⟨y, wire⟩, port⟩
  · obtain ⟨t, next, frame, mine, link, dies⟩ := lkey_keys acts code op
    refine ⟨t, next, frame, mine, ⟨link.others, link.beside, link.links⟩, fun key given => ?_⟩
    rw [State.die, dies]
    rcases given with ⟨clear, rfl⟩ | ⟨install, m, read, rfl⟩
    · rw [keyed_clear (by rw [keyOp, clear]; decide)]
      exact link_modLink ..
    · rw [read, keyed_install install]
      exact link_modLink ..

end Sys2Proof

namespace Sys2Proof

open Machine

/-! ### Changes of the issuing task and its core in turn -/

/-- A change within `mc` and `ms` that changes the issuing task by `f`. -/
structure Touches (mc : Core → Core) (ms : State → State) (f : Task → Task) (s t : State) : Prop extends Frame mc ms s t where
  cur : t.cur = s.cur
  own : t.task s.cur = f (s.task s.cur)

theorem Touches.trans {mc : Core → Core} {ms : State → State} {f k : Task → Task} {s t u : State} (h : Touches mc ms f s t)
    (j : Touches mc ms k t u) : Touches mc ms (fun x => k (f x)) s u := by
  refine ⟨h.toFrame.trans j.toFrame h.cur, j.cur.trans h.cur, ?_⟩
  have own := j.own
  rw [h.cur] at own
  rw [own, h.own]

theorem Spares.touches {mc : Core → Core} {ms : State → State} {s t : State} (h : Spares mc ms s t) : Touches mc ms id s t :=
  ⟨h.toFrame, h.cur, h.own⟩

theorem touches_modMe {mc : Core → Core} {ms : State → State} (s : State) (f : Task → Task) (hc : ∀ a b, coreBeside a = coreBeside b → mc a = mc b)
    (hs : ∀ a b, moduleBeside a = moduleBeside b → ms a = ms b) : Touches mc ms f s (s.modMe f) :=
  ⟨(OnlyTask.modTask s f).mono hc hs, rfl, State.me_modMe ..⟩

theorem Touches.mono {mc mc' : Core → Core} {ms ms' : State → State} {f : Task → Task} {s t : State} (h : Touches mc ms f s t)
    (hc : ∀ a b, mc a = mc b → mc' a = mc' b) (hs : ∀ a b, ms a = ms b → ms' a = ms' b) : Touches mc' ms' f s t :=
  ⟨h.toFrame.mono hc hs, h.cur, h.own⟩

/-- A ready slot that takes no queue, and changes its task by `f` in whatever order. -/
theorem Ready.touches {i : Instr} {m : SlotSem} {s u : State} {f : Task → Task} {mc : Core → Core} {ms : State → State} (ready : Ready m s)
    (r : Runs m.guard s) (hx : exec i s = issueSlot m s) (mark : m.mark = false) (funit : m.funit = false) (src : m.vsrc = [])
    (eff : m.eff (opened s) (opened s) = u) (touches : Touches mc ms f (opened s) u) (hf : Steady f)
    (hc : ∀ a b, coreBeside a = coreBeside b → mc a = mc b) (hs : ∀ a b, moduleBeside a = moduleBeside b → ms a = ms b) {P : State → Prop}
    (post : ∀ t, OnlyTask u t → P t) : Completes i s mc ms f [] P := by
  have task : u.task s.cur = { f (opened s).me with pend := s.me.pend ++ [] } := by
    refine (touches.own.trans (hf.keeps _)).trans ?_
    rw [List.append_nil, show (opened s).task (opened s).cur = (opened s).me from rfl, hf.keeps, me_opened]
  obtain ⟨t, next, frame, mine, only⟩ := ready.next r hx mark funit eff touches.toFrame touches.cur task hf (by simp) hc hs
  have takes : ∀ q, m.takes (opened s) q = false := fun q => by simp [SlotSem.takes, src]
  rw [takes, takes] at mine
  exact ⟨t, next, frame, mine, post t only⟩

/-- What a change of the issuing task leaves of its core. -/
theorem here_modMe (s : State) (f : Task → Task) : { (s.modMe f).here with tasks := [] } = { s.here with tasks := [] } := by
  rw [State.here, State.modMe, show (s.modTask s.cur f).cur = s.cur from rfl, State.core_modTask]
  rfl

theorem here_modHere (s : State) (f : Core → Core) : (s.modHere f).here = f s.here := core_modHere s f

/-! ### Commands (R215, R216) -/

/-- The command that an instruction issues. -/
def commandOf (s : State) (kind : CmdKind) (f : Tbl W64) (inside : Bool) : Cmd :=
  { kind := kind, slot := s.cur.slot, lidx := s.me.lidx, job := s.me.job, fields := f
    key := if isLodge s.cur.core ∧ (s.die s.cur.die).lodge.pkey = 0 then fwKey
      else if isLodge s.cur.core then jobKey (s.die s.cur.die).lodge.pkey.toNat else jobKey s.me.job
    deps := ((kinTokens f).filter fun n => decide ((s.me.token n).st = .pending)).dedup
    depFault := (kinTokens f).find? fun n => decide ((s.me.token n).st = .faulted)
    started := false, cells := 0, elems := 0, skip := 0, idx := [], spots := [], stores := [], lines := [], olds := []
    run := none, inside := inside, within := s.inRegion }

/-- A command put in the buffer of the issuing core under a token of its task. -/
def queued (tok : Nat) (x : Cmd) (s : State) : State :=
  (s.modMe fun t => t.setToken tok ⟨.pending, 0, 0⟩).modHere fun c => (c.madeToken s.cur.slot tok).setCmd (physToken s.cur tok) (some x)

/-- The key of a command, by the core it is issued on (R405). -/
theorem commandKey (lodge : Bool) (p : W64) (job : Nat) : (if lodge then (let n := p.toNat; if n = 0 then fwKey else jobKey n) else jobKey job) =
    if lodge ∧ p = 0 then fwKey else if lodge then jobKey p.toNat else jobKey job := by
  have zero : p.toNat = 0 ↔ p = 0 := ⟨fun h => BitVec.eq_of_toNat_eq h, fun h => by rw [h]; rfl⟩
  cases lodge
  · simp
  · simp [zero]

theorem issueCmd_eq (s u : State) (kind : CmdKind) (tok : Nat) (f : Tbl W64) (inside : Bool) (cur : u.cur = s.cur) :
    (opened s).issueCmd u kind tok f (kinTokens f) inside none = queued tok (commandOf s kind f inside) u := by
  have key := commandKey (isLodge s.cur.core) (s.die s.cur.die).lodge.pkey s.me.job
  unfold State.issueCmd queued commandOf
  simp only [inRegion_opened, cur_opened, cur, ← key, me_opened]
  rfl

/-- The core without what commands change of it: its buffer, the order of its array and its entries. -/
def coreBesideCmds (c : Core) : Core := { coreBeside c with cmds := [], mcmds := [], tiles := [] }

theorem coreBesideCmds_congr (a b : Core) (h : coreBeside a = coreBeside b) : coreBesideCmds a = coreBesideCmds b :=
  congrArg (fun c : Core => { c with cmds := [], mcmds := [], tiles := [] }) h

theorem madeToken_eq (c : Core) (slot tok : Nat) : ∃ regions, c.madeToken slot tok = { c with regions := regions } := by
  unfold Core.madeToken
  split
  · exact ⟨_, rfl⟩
  · exact ⟨_, rfl⟩

/-- A command stored beside the tasks of its core. -/
theorem stored_beside (c : Core) (slot tok p : Nat) (x : Cmd) : ((c.madeToken slot tok).setCmd p (some x)).tasks = c.tasks
    ∧ { coreBeside ((c.madeToken slot tok).setCmd p (some x)) with cmds := [] } = { coreBeside c with cmds := [] } := by
  obtain ⟨regions, made⟩ := madeToken_eq c slot tok
  rw [made]
  exact ⟨rfl, rfl⟩

theorem touches_queued (tok : Nat) (x : Cmd) (s : State) :
    Touches (fun c => { coreBeside c with cmds := [] }) moduleBeside (fun t => t.setToken tok ⟨.pending, 0, 0⟩) s (queued tok x s) :=
  (touches_modMe s _ (fun _ _ h => congrArg (fun c => { c with cmds := [] }) h) fun _ _ h => h).trans
    (Spares.touches (spares_modHere _ _ (stored_beside ..).1 (stored_beside ..).2))

/-- The core of the issuing task after a command is queued: its buffer, its array's order and its entries. -/
theorem core_queued (tok : Nat) (x : Cmd) (s : State) :
    (∀ n, (queued tok x s).here.cmd n = if n = physToken s.cur tok then some x else s.here.cmd n)
      ∧ (queued tok x s).here.mcmds = s.here.mcmds ∧ ∀ n, (queued tok x s).here.tile n = s.here.tile n := by
  obtain ⟨regions, made⟩ := madeToken_eq (s.modMe fun t => t.setToken tok ⟨.pending, 0, 0⟩).here s.cur.slot tok
  have own := here_modMe s fun t => t.setToken tok ⟨.pending, 0, 0⟩
  rw [queued, here_modHere, made]
  refine ⟨fun n => ?_, (congrArg Core.mcmds own :), fun n => (congrArg (fun c : Core => c.tile n) own :)⟩
  rw [cmd_setCmd]
  exact congrArg (fun o => if n = physToken s.cur tok then some x else o) (congrArg (fun c : Core => c.cmd n) own :)

/-- Taking a source entry observes its time and, with REL, makes it DRAINING (R220). -/
theorem touches_takeSource (f : Tbl W64) (s : State) :
    Touches (fun c => { coreBeside c with tiles := [] }) moduleBeside
      (fun t => match sttEntry f with | some x => t.observe (s.here.tile (physTile s.cur x.1)).tc | none => t) s (s.takeSource f) := by
  unfold State.takeSource
  cases sttEntry f with
  | none => exact (Spares.refl ..).touches
  | some x =>
    have observed : Touches (fun c => { coreBeside c with tiles := [] }) moduleBeside (fun t => t.observe (s.here.tile (physTile s.cur x.1)).tc)
        s (s.modMe fun t => t.observe (s.here.tile (physTile s.cur x.1)).tc) :=
      touches_modMe s _ (fun _ _ h => congrArg (fun c => { c with tiles := [] }) h) fun _ _ h => h
    dsimp only
    split
    · exact observed.trans (Spares.touches (spares_modHere _ _ rfl rfl))
    · exact observed

theorem core_takeSource (f : Tbl W64) (s : State) :
    (∀ n, (s.takeSource f).here.cmd n = s.here.cmd n) ∧ (s.takeSource f).here.mcmds = s.here.mcmds
      ∧ ∀ n, (s.takeSource f).here.tile n = match sttEntry f with
        | some (x, true) => if n = physTile s.cur x then { s.here.tile n with st := .draining } else s.here.tile n
        | _ => s.here.tile n := by
  unfold State.takeSource
  rcases sttEntry f with _ | ⟨x, drains⟩
  · exact ⟨fun _ => rfl, rfl, fun _ => rfl⟩
  have own := here_modMe s fun t => t.observe (s.here.tile (physTile s.cur x)).tc
  have cmds := fun n => (congrArg (fun c : Core => c.cmd n) own :)
  have order := (congrArg Core.mcmds own :)
  have tiles := fun n => (congrArg (fun c : Core => c.tile n) own :)
  cases drains
  · exact ⟨cmds, order, tiles⟩
  · dsimp only
    rw [if_pos rfl, here_modHere]
    refine ⟨cmds, order, fun n => ?_⟩
    rw [tile_setTile]
    split
    · next h => subst h; exact congrArg (fun e : TileEntry => { e with st := .draining }) (tiles _)
    · exact tiles n

theorem spares_joinOrder (tok : Nat) (s : State) : Spares (fun c => { coreBeside c with mcmds := [] }) moduleBeside s (s.joinOrder tok) :=
  spares_modHere s _ rfl rfl

/-! ### The instructions that issue a command -/

section
variable {g : Guard} {tok : BitVec 6} {e : BitVec 4} {s : State}

@[simp] theorem descriptor_opened (n : Nat) : (opened s).me.descriptor n = s.me.descriptor n := by
  rw [me_opened]
  rfl

/-- What an instruction that issues a command leaves (R214, R215). -/
def Issued (i : Instr) (tok : Nat) (x : Cmd) (array : Bool) (source : Option (Nat × Bool)) (s : State) : Prop :=
  Completes i s coreBesideCmds moduleBeside
    (fun t => (match source with | some x => t.observe (s.here.tile (physTile s.cur x.1)).tc | none => t).setToken tok ⟨.pending, 0, 0⟩) []
    fun t =>
      let c := t.core s.cur.coreRef
      (∀ n, c.cmd n = if n = physToken s.cur tok then some x else s.here.cmd n)
        ∧ c.mcmds = s.here.mcmds ++ (if array then [.token s.cur.slot tok] else [])
        ∧ ∀ n, c.tile n = match source with
          | some (x, true) => if n = physTile s.cur x then { s.here.tile n with st := .draining } else s.here.tile n
          | _ => s.here.tile n

/-- What follows from the core that an effect leaves, beside its tasks. -/
theorem core_after {u t : State} (h : OnlyTask u t) (cur : u.cur = s.cur) : coreBeside (t.core s.cur.coreRef) = coreBeside u.here := by
  rw [h.coreAt cur, State.here, cur]

/-- The buffer, the order of the array and the entries of a core, from those of a core that stands like it beside its tasks. -/
theorem issued_post {c k : Core} {x : Cmd} {p : Nat} {mcmds : List MCmd} {tile : Nat → TileEntry} (core : coreBeside c = coreBeside k)
    (cmds : ∀ n, k.cmd n = if n = p then some x else (opened s).here.cmd n) (order : k.mcmds = mcmds) (tiles : ∀ n, k.tile n = tile n) :
    (∀ n, c.cmd n = if n = p then some x else s.here.cmd n) ∧ c.mcmds = mcmds ∧ ∀ n, c.tile n = tile n := by
  refine ⟨fun n => ?_, (congrArg Core.mcmds core :).trans order, fun n => (congrArg (fun c : Core => c.tile n) core :).trans (tiles n)⟩
  have same : c.cmd n = k.cmd n := (congrArg (fun c : Core => c.cmd n) core :)
  rw [same, cmds, cmd_opened]

/-- An instruction that issues a command and no more. -/
theorem issues_plain {i : Instr} {m : SlotSem} {x : Cmd} (ready : Ready m s) (r : Runs m.guard s) (hx : exec i s = issueSlot m s)
    (mark : m.mark = false) (funit : m.funit = false) (src : m.vsrc = []) (eff : m.eff (opened s) (opened s) = queued tok.toNat x (opened s)) :
    Issued i tok.toNat x false none s := by
  obtain ⟨cmds, order, tiles⟩ := core_queued tok.toNat x (opened s)
  refine ready.touches r hx mark funit src eff ((touches_queued ..).mono ?_ fun _ _ h => h) (steady_setToken ..) coreBesideCmds_congr (fun _ _ h => h)
    fun t ht => ?_
  · exact fun _ _ h => congrArg (fun c => { c with mcmds := [], tiles := [] }) h
  · exact issued_post (core_after ht rfl) cmds (order.trans (by rw [mcmds_opened, if_neg Bool.false_ne_true, List.append_nil]))
      fun n => (tiles n).trans (tile_opened s n)

theorem cmd_reordered (c : Core) (m : List MCmd) (n : Nat) : ({ c with mcmds := m } : Core).cmd n = c.cmd n := rfl

theorem tile_reordered (c : Core) (m : List MCmd) (n : Nat) : ({ c with mcmds := m } : Core).tile n = c.tile n := rfl

/-- An array instruction that issues a command and joins the order of its array (R197). -/
theorem issues_ordered {i : Instr} {m : SlotSem} {x : Cmd} (ready : Ready m s) (r : Runs m.guard s) (hx : exec i s = issueSlot m s)
    (mark : m.mark = false) (funit : m.funit = false) (src : m.vsrc = [])
    (eff : m.eff (opened s) (opened s) = (queued tok.toNat x (opened s)).joinOrder tok.toNat) : Issued i tok.toNat x true none s := by
  obtain ⟨cmds, order, tiles⟩ := core_queued tok.toNat x (opened s)
  have touches : Touches coreBesideCmds moduleBeside (fun t => t.setToken tok.toNat ⟨.pending, 0, 0⟩) (opened s)
      ((queued tok.toNat x (opened s)).joinOrder tok.toNat) :=
    ((touches_queued ..).mono (fun _ _ h => congrArg (fun c => { c with mcmds := [], tiles := [] }) h) fun _ _ h => h).trans
      ((spares_joinOrder ..).touches.mono (fun _ _ h => congrArg (fun c => { c with cmds := [], tiles := [] }) h) fun _ _ h => h)
  refine ready.touches r hx mark funit src eff touches (steady_setToken ..) coreBesideCmds_congr (fun _ _ h => h) fun t ht => ?_
  have core := core_after ht touches.cur
  rw [State.joinOrder, here_modHere, show (queued tok.toNat x (opened s)).cur = s.cur from (touches_queued ..).cur] at core
  have order' : (queued tok.toNat x (opened s)).here.mcmds ++ [.token s.cur.slot tok.toNat] =
      s.here.mcmds ++ if true = true then [.token s.cur.slot tok.toNat] else [] := by rw [order, mcmds_opened, if_pos rfl]
  exact issued_post core (fun n => (cmd_reordered ..).trans (cmds n)) order' fun n => (tile_reordered ..).trans ((tiles n).trans (tile_opened s n))

/-- A copy, which takes its source entry first (R220). -/
theorem issues_copy {i : Instr} {m : SlotSem} {x : Cmd} {f : Tbl W64} (ready : Ready m s) (r : Runs m.guard s) (hx : exec i s = issueSlot m s)
    (mark : m.mark = false) (funit : m.funit = false) (src : m.vsrc = [])
    (eff : m.eff (opened s) (opened s) = queued tok.toNat x ((opened s).takeSource f)) : Issued i tok.toNat x false (sttEntry f) s := by
  obtain ⟨cmds, order, tiles⟩ := core_queued tok.toNat x ((opened s).takeSource f)
  obtain ⟨cmds', order', tiles'⟩ := core_takeSource f (opened s)
  have taken := touches_takeSource f (opened s)
  have cur : ((opened s).takeSource f).cur = s.cur := taken.cur
  have touches := (taken.mono (fun _ _ h => congrArg (fun c => { c with cmds := [], mcmds := [] }) h) fun _ _ h => h).trans
    ((touches_queued tok.toNat x ((opened s).takeSource f)).mono (fun _ _ h => congrArg (fun c => { c with mcmds := [], tiles := [] }) h) fun _ _ h => h)
  simp only [tile_opened] at touches tiles'
  refine ready.touches (mc := coreBesideCmds) r hx mark funit src eff touches ?_ coreBesideCmds_congr (fun _ _ h => h) fun t ht => ?_
  · rcases sttEntry f with _ | y
    · exact steady_setToken ..
    · exact (steady_setToken ..).comp (steady_observe _)
  · rw [cur] at cmds
    exact issued_post (core_after ht cur) (fun n => (cmds n).trans (by rw [cmds'])) ((order.trans order').trans
      (by rw [mcmds_opened, if_neg Bool.false_ne_true, List.append_nil])) fun n => (tiles n).trans (tiles' n)

theorem copies {k : CopyKind} {i : Instr} (hx : exec i s = issueSlot (semCopy k g tok e) s) (acts : Acts i s)
    (sem : slotSem i = some (semCopy k g tok e)) : Issued i tok.toNat
      (commandOf s k.cmd (s.me.descriptor e.toNat) (decide (2 ≤ addrForm ((s.me.descriptor e.toNat).get 0 1)))) false
      (sttEntry (s.me.descriptor e.toNat)) s := by
  obtain ⟨r, ready⟩ := acts.slotOf sem
  refine issues_copy ready r hx rfl rfl rfl ?_
  simp only [semCopy, semToken, descriptor_opened]
  exact issueCmd_eq s _ _ _ _ _ (touches_takeSource ..).cur

theorem tiles {opc : Nat} {o z : Bool} {i : Instr} (hx : exec i s = issueSlot (semTileOp opc g tok e o z) s) (acts : Acts i s)
    (sem : slotSem i = some (semTileOp opc g tok e o z)) :
    Issued i tok.toNat (commandOf s (.tile opc o z) (s.me.descriptor e.toNat) false) false none s := by
  obtain ⟨r, ready⟩ := acts.slotOf sem
  refine issues_plain ready r hx rfl rfl rfl ?_
  simp only [semTileOp, semToken, descriptor_opened]
  exact issueCmd_eq s _ _ _ _ _ rfl

theorem mcst_issues (acts : Acts (.mcst g tok e) s) :
    Issued (.mcst g tok e) tok.toNat (commandOf s .mcst (s.me.descriptor e.toNat) false) false none s := by
  obtain ⟨r, ready⟩ := acts.slotOf (m := semMcst g tok e) rfl
  refine issues_plain ready r rfl rfl rfl rfl ?_
  simp only [semMcst, semToken, descriptor_opened]
  exact issueCmd_eq s _ _ _ _ _ rfl

theorem coll_issues {ord rz : BitVec 1} (acts : Acts (.coll g tok e ord rz) s) : Issued (.coll g tok e ord rz) tok.toNat
    (commandOf s (.coll (decide (ord = 1)) (decide (rz = 1))) (s.me.descriptor e.toNat) false) false none s := by
  obtain ⟨r, ready⟩ := acts.slotOf (m := semColl g tok e ord rz) rfl
  refine issues_plain ready r rfl rfl rfl rfl ?_
  simp only [semColl, semToken, descriptor_opened]
  exact issueCmd_eq s _ _ _ _ _ rfl

theorem mstrm_issues {tile : BitVec 6} (acts : Acts (.mstrm g tok e tile) s) : Issued (.mstrm g tok e tile) tok.toNat
    (commandOf s (.mstrm tile.toNat) (s.me.descriptor e.toNat) true) true none s := by
  obtain ⟨r, ready⟩ := acts.slotOf (m := semMstrm g tok e tile) rfl
  refine issues_ordered ready r rfl rfl rfl rfl ?_
  simp only [semMstrm, semNaming, semArray, semToken, descriptor_opened]
  rw [issueCmd_eq s (opened s) _ _ _ _ rfl]

theorem mout_issues {tile : BitVec 6} (acts : Acts (.mout g tok e tile) s) : Issued (.mout g tok e tile) tok.toNat
    (commandOf s (.mout tile.toNat) (s.me.descriptor e.toNat) true) true none s := by
  obtain ⟨r, ready⟩ := acts.slotOf (m := semMout g tok e tile) rfl
  refine issues_ordered ready r rfl rfl rfl rfl ?_
  simp only [semMout, semNaming, semArray, semToken, descriptor_opened]
  rw [issueCmd_eq s (opened s) _ _ _ _ rfl]

end

/-- Settles O43: each instruction's effect is a command queued, after its source entry or before its place in the order. -/
theorem commandsTakeTheirToken : Obligations.CommandsTakeTheirToken := by
  unfold Obligations.CommandsTakeTheirToken
  intro g tok e tile ord rz s
  refine ⟨fun acts => copies (k := .cpy) rfl acts rfl, fun acts => copies (k := .gth) rfl acts rfl, fun acts => copies (k := .sct) rfl acts rfl,
    mstrm_issues, mout_issues, fun acts => ?_, fun acts => ?_, fun acts => ?_, fun acts => ?_, fun acts => ?_, fun acts => ?_,
    fun acts => ?_, fun acts => ?_, mcst_issues, coll_issues⟩
  · exact tiles (opc := 0) (o := decide (ord = 1)) (z := decide (rz = 1)) rfl acts rfl
  · exact tiles (opc := 1) (o := false) (z := decide (rz = 1)) rfl acts rfl
  · exact tiles (opc := 2) (o := decide (ord = 1)) (z := decide (rz = 1)) rfl acts rfl
  · exact tiles (opc := 3) (o := decide (ord = 1)) (z := decide (rz = 1)) rfl acts rfl
  · exact tiles (opc := 4) (o := false) (z := false) rfl acts rfl
  · exact tiles (opc := 5) (o := false) (z := decide (rz = 1)) rfl acts rfl
  · exact tiles (opc := 6) (o := false) (z := false) rfl acts rfl
  · exact tiles (opc := 7) (o := false) (z := false) rfl acts rfl

end Sys2Proof

namespace Sys2Proof

open Machine

/-! ### The reads of engines (R217 to R220) -/

section
variable (s : State)

theorem worked_askWalk (r : TaskRef) (t : Trap) : Worked s (s.askWalk r t) := by
  unfold State.askWalk
  dsimp only
  split
  · exact .refl _
  · exact worked_sendReq ..

theorem worked_spotFails (g : Agent) (t : Trap) : Worked s (s.spotFails g t) := by
  unfold State.spotFails
  split
  · exact worked_askWalk ..
  · exact .refl _

theorem worked_farLoad (g : Agent) (va : W64) (pa gen : Nat) (phys : Bool) (n : Nat) : Worked s (s.farLoad g va pa gen phys n).1 := by
  unfold State.farLoad
  split
  · exact worked_farPart ..
  · exact (worked_farPart ..).trans (worked_farPart ..)

/-- The state of a virtual access after its walk has taken a free value. -/
theorem worked_walked (a : W64) : Worked s (if addrForm a = 0 then s.tookFree else s) := by
  split
  · exact worked_tookFree ..
  · exact .refl _

theorem worked_engineRead (g : Agent) (a : W64) (n : Nat) : Worked s (s.engineRead g a n).1 := by
  have walked := worked_walked s a
  unfold State.engineRead
  dsimp only
  generalize (if addrForm a = 0 then s.tookFree else s) = u at walked ⊢
  cases s.spot g a n false with
  | error t => exact walked.trans (worked_spotFails ..)
  | ok p =>
    dsimp only
    split
    · exact walked
    · cases p with
      | inside o => exact walked
      | hbm o => exact walked.trans (worked_homeLoad (key := g.keyOf a) ..)
      | window o => exact walked
      | far va pa gen phys => exact walked.trans (worked_farLoad ..)

theorem worked_readElems (g : Agent) (w : Nat) (l : List W64) : Worked s (State.readElems g w l s).1 := by
  induction l generalizing s with
  | nil => exact .refl _
  | cons a l ih =>
    have first := worked_engineRead s g a w
    unfold State.readElems
    dsimp only
    split
    · exact first
    · exact first
    · exact first.trans (ih _)

theorem worked_readRun (g : Agent) (a : W64) (n : Nat) : Worked s (s.readRun g a n).1 := worked_readElems ..

end

/-! ### TLNCH (R306) -/

/-- A launch of a TLNCH that has placed nothing. -/
structure Fresh (n : Nat) (c : CoreRef) (p : Nat) (l : Launch) : Prop where
  seq : l.seq = n
  tlnch : l.tlnch = some (c, p)
  placed : l.placed = 0
  ended : l.ended = 0

/-- What loading launch n changes of the launches and of the issuing task: that launch, and tokens of the task. -/
structure Loads (n : Nat) (c : CoreRef) (p : Nat) (s t : State) : Prop where
  cur : t.cur = s.cur
  own : ∃ f, Steady f ∧ t.task s.cur = f (s.task s.cur)
  launches : ∃ f : Launch → Launch, (∀ l, Fresh n c p l → Fresh n c p (f l)) ∧ t.launches = s.launches.map fun l => if l.seq = n then f l else l

section
variable {n : Nat} {c : CoreRef} {p : Nat}

theorem Loads.trans {s t u : State} (h : Loads n c p s t) (k : Loads n c p t u) : Loads n c p s u := by
  obtain ⟨f, hf, own⟩ := h.own
  obtain ⟨f', hf', own'⟩ := k.own
  obtain ⟨j, hj, launches⟩ := h.launches
  obtain ⟨j', hj', launches'⟩ := k.launches
  rw [h.cur, own] at own'
  refine ⟨k.cur.trans h.cur, ⟨_, hf'.comp hf, own'⟩, fun l => if (j l).seq = n then j' (j l) else j l, fun l hl => ?_, ?_⟩
  · dsimp only
    rw [if_pos (hj l hl).seq]
    exact hj' _ (hj l hl)
  · rw [launches', launches, List.map_map]
    refine List.map_congr_left fun l _ => ?_
    dsimp only [Function.comp]
    by_cases hl : l.seq = n <;> simp only [hl, if_true, if_false]

theorem Loads.of_task {s t : State} (cur : t.cur = s.cur) (own : t.task s.cur = s.task s.cur) (launches : t.launches = s.launches) :
    Loads n c p s t :=
  ⟨cur, ⟨id, steady_id, own⟩, id, fun _ h => h, by simp [launches]⟩

theorem Worked.loads {s t : State} (h : Worked s t) : Loads n c p s t := .of_task h.cur (h.task _) (congrArg State.launches h.rest :)

theorem loads_modCore (s : State) (r : CoreRef) (f : Core → Core) (tasks : (f (s.core r)).tasks = (s.core r).tasks) :
    Loads n c p s (s.modCore r f) :=
  .of_task rfl (by rw [State.task, task?_modCore_tasks _ _ tasks]; rfl) rfl

theorem loads_modLaunch (s : State) (f : Launch → Launch) (hf : ∀ l, Fresh n c p l → Fresh n c p (f l)) : Loads n c p s (s.modLaunch n f) :=
  ⟨rfl, ⟨id, steady_id, rfl⟩, f, hf, rfl⟩

theorem loads_endToken (s : State) (r : TaskRef) (tok cause : Nat) (tc : W64) : Loads n c p s (s.endToken r tok cause tc) := by
  unfold State.endToken
  dsimp only
  refine Loads.trans (t := s.modTask r fun t => t.setToken tok ⟨if cause = 0 then .done else .faulted, cause, tc⟩) ⟨rfl, ?_, id, fun _ h => h, ?_⟩
    (loads_modCore _ _ _ rfl)
  · have tasks := task?_modTask s r (fun t => t.setToken tok ⟨if cause = 0 then .done else .faulted, cause, tc⟩) s.cur
    by_cases same : SameSlot s.cur r
    · rw [if_pos same] at tasks
      refine ⟨_, steady_setToken tok ⟨if cause = 0 then .done else .faulted, cause, tc⟩, ?_⟩
      rw [State.task, tasks, State.task, State.task, same.task?]
      rfl
    · rw [if_neg same] at tasks
      exact ⟨id, steady_id, by rw [State.task, tasks]; rfl⟩
  · show s.launches = _
    simp

theorem loads_endCmd (s : State) (r : CoreRef) (ptok cause : Nat) (tc : W64) : Loads n c p s (s.endCmd r ptok cause tc) := by
  unfold State.endCmd
  split
  · exact (Worked.refl _).loads
  · dsimp only
    refine Loads.trans (Loads.trans ?_ (loads_modCore _ r _ rfl)) (loads_endToken ..)
    split
    · exact loads_modCore _ _ _ rfl
    · exact loads_modCore _ _ _ rfl
    · exact loads_modCore _ _ _ rfl
    · exact (Worked.refl _).loads

theorem loads_dropLaunch (s : State) : Loads n c p s (s.dropLaunch n) := loads_modLaunch s _ fun _ h => ⟨h.seq, h.tlnch, h.placed, h.ended⟩

theorem loads_refuse (s : State) (r : CoreRef) (ptok cause : Nat) (tc : W64) : Loads n c p s ((s.endCmd r ptok cause tc).dropLaunch n) :=
  (loads_endCmd ..).trans (loads_dropLaunch _)

/-- Loading a launch changes that launch and its issuer's tokens (R306, R396, R268). -/
theorem loads_loadLaunch (s : State) (own : ∀ l, s.launch? n = some l → l.tlnch = some (c, p)) : Loads n c p s (s.loadLaunch n) := by
  have still : Loads n c p s s := (Worked.refl _).loads
  unfold State.loadLaunch
  cases there : s.launch? n with
  | none => exact still
  | some l =>
    have mine := own l there
    dsimp only
    rw [mine]
    split
    case h_2 => exact still
    case h_1 c' p' _ same =>
      obtain ⟨rfl, rfl⟩ : c = c' ∧ p = p' := by simpa using same
      split
      · exact loads_dropLaunch _
      · next x _ =>
        split
        · exact still
        split
        · exact loads_refuse ..
        have read : Loads n c p s (s.readRun (x.issuer c p) (x.fields.get 0 0) 128).1 := (worked_readRun ..).loads
        generalize s.readRun (x.issuer c p) (x.fields.get 0 0) 128 = y at read ⊢
        obtain ⟨u, z⟩ := y
        dsimp only at read ⊢
        split
        · exact read
        · exact read.trans (loads_refuse ..)
        · split
          · split
            · exact read.trans (Loads.trans (worked_tookFree u 1).loads (loads_refuse ..))
            split
            · exact read.trans (Loads.trans (worked_postFault u ..).loads (loads_refuse ..))
            · exact read.trans (Loads.trans (loads_modLaunch u _ fun _ _ => ⟨rfl, rfl, rfl, rfl⟩) (loads_modCore _ _ _ rfl))
          · exact read.trans (Loads.trans (worked_tookFree u 1).loads (loads_refuse ..))

/-- A launch that waits for a token stays as it is (R216). -/
theorem loadLaunch_waits {s : State} {l : Launch} {x : Cmd} (there : s.launch? n = some l) (idle : (l.loaded || l.finished) = false)
    (own : l.tlnch = some (c, p)) (command : (s.core c).cmd p = some x) (deps : x.deps ≠ []) : s.loadLaunch n = s := by
  unfold State.loadLaunch
  rw [there]
  dsimp only
  rw [idle, own]
  dsimp only
  rw [command]
  exact if_pos (.inl deps)

end

/-- The launch of a TLNCH before its block is read. -/
def unread (s : State) (tok : Nat) : Launch :=
  { launchOf s.launches.length Kernel.none [] (some (s.cur.coreRef, physToken s.cur tok)) none with loaded := false }

/-- The state with a TLNCH's command queued and its launch last. -/
def launching (s : State) (tok : Nat) (f : Tbl W64) : State :=
  { queued tok (commandOf s .tlnch f false) (opened s) with launches := s.launches ++ [unread s tok] }

section
variable {g : Guard} {tok : BitVec 6} {e : BitVec 4} {s : State}

theorem tlnch_eff : (semTlnch g tok e).eff (opened s) (opened s) =
    (launching s tok.toNat (s.me.descriptor e.toNat)).loadLaunch s.launches.length := by
  simp only [semTlnch, semToken, descriptor_opened]
  rw [issueCmd_eq s (opened s) _ _ _ _ rfl]
  rfl

theorem touches_launching (tok : Nat) (f : Tbl W64) : Touches (fun c => { coreBeside c with cmds := [] })
    (fun x => { moduleBeside x with launches := [] }) (fun t => t.setToken tok ⟨.pending, 0, 0⟩) (opened s) (launching s tok f) := by
  have queue := (touches_queued tok (commandOf s .tlnch f false) (opened s)).mono (mc' := fun c => { coreBeside c with cmds := [] })
    (ms' := fun x => { moduleBeside x with launches := [] }) (fun _ _ h => h) fun _ _ h => congrArg (fun x => { x with launches := [] }) h
  have added : Spares (fun c => { coreBeside c with cmds := [] }) (fun x => { moduleBeside x with launches := [] })
    (queued tok (commandOf s .tlnch f false) (opened s)) (launching s tok f) := .of_cores _ rfl rfl rfl
  exact queue.trans added.touches

theorem launch_launching (tok : Nat) (f : Tbl W64) (low : ∀ l ∈ s.launches, l.seq < s.launches.length) :
    (launching s tok f).launch? s.launches.length = some (unread s tok) := by
  have none : s.launches.find? (fun l => decide (l.seq = s.launches.length)) = none :=
    List.find?_eq_none.2 fun l hl => by simpa using Nat.ne_of_lt (low l hl)
  show (s.launches ++ [unread s tok]).find? _ = _
  rw [List.find?_append, none]
  simp [unread, launchOf]

/-- The launches after the last of them is changed. -/
theorem launches_last (low : ∀ l ∈ s.launches, l.seq < s.launches.length) (x : Launch) (hx : x.seq = s.launches.length) (f : Launch → Launch) :
    (s.launches ++ [x]).map (fun l => if l.seq = s.launches.length then f l else l) = s.launches ++ [f x] := by
  rw [List.map_append]
  congr 1
  · refine (List.map_congr_left fun l hl => if_neg (Nat.ne_of_lt (low l hl))).trans (List.map_id' _)
  · simp [hx]

/-- A ready slot that takes no queue and changes its task steadily, whatever else it does. -/
theorem Ready.steadily {i : Instr} {m : SlotSem} {u : State} {k : Task → Task} (ready : Ready m s) (r : Runs m.guard s)
    (hx : exec i s = issueSlot m s) (mark : m.mark = false) (funit : m.funit = false) (src : m.vsrc = []) (eff : m.eff (opened s) (opened s) = u)
    (cur : u.cur = s.cur) (own : u.task s.cur = k (opened s).me) (hk : Steady k) :
    ∃ t, exec i s = .next t ∧ OnlyTask u t ∧ t.task s.cur = k (afterBundle (isLodge s.cur.core) s.me) := by
  have task : u.task s.cur = { k (opened s).me with pend := s.me.pend ++ [] } := by
    rw [own, List.append_nil, hk.keeps, me_opened]
  obtain ⟨t, next, mine, only⟩ := ready.leaves r hx mark funit eff cur task hk (by simp)
  have takes : ∀ q, m.takes (opened s) q = false := fun q => by simp [SlotSem.takes, src]
  rw [takes, takes, taskPast, delivered_nil] at mine
  exact ⟨t, next, only, mine⟩

/-- TLNCH adds its launch, loaded, refused or waiting (R306). -/
theorem tlnch_launches (acts : Acts (.tlnch g tok e) s) (low : ∀ l ∈ s.launches, l.seq < s.launches.length) :
    ∃ t h, exec (.tlnch g tok e) s = .next t
      ∧ OnlyTask ((launching s tok.toNat (s.me.descriptor e.toNat)).loadLaunch s.launches.length) t
      ∧ ((launching s tok.toNat (s.me.descriptor e.toNat)).loadLaunch s.launches.length).launches = s.launches ++ [h]
      ∧ Fresh s.launches.length s.cur.coreRef (physToken s.cur tok.toNat) h := by
  obtain ⟨r, ready⟩ := acts.slotOf (m := semTlnch g tok e) rfl
  have touches := touches_launching (s := s) tok.toNat (s.me.descriptor e.toNat)
  have there := launch_launching tok.toNat (s.me.descriptor e.toNat) low
  have eff := tlnch_eff (g := g) (tok := tok) (e := e) (s := s)
  have before : (launching s tok.toNat (s.me.descriptor e.toNat)).launches = s.launches ++ [unread s tok.toNat] := rfl
  generalize launching s tok.toNat (s.me.descriptor e.toNat) = w at touches there eff before ⊢
  have loads : Loads s.launches.length s.cur.coreRef (physToken s.cur tok.toNat) w (w.loadLaunch s.launches.length) :=
    loads_loadLaunch _ fun l hl => by
      rw [there] at hl
      rw [← Option.some.inj hl]
      rfl
  obtain ⟨k, hk, own⟩ := loads.own
  obtain ⟨h, fresh, launches⟩ := loads.launches
  have cur : w.cur = s.cur := touches.cur
  rw [cur, show w.task s.cur = _ from touches.own] at own
  obtain ⟨t, next, only, -⟩ := ready.steadily (i := .tlnch g tok e) r rfl rfl rfl rfl eff (loads.cur.trans cur) own (hk.comp (steady_setToken ..))
  refine ⟨t, h (unread s tok.toNat), next, only, ?_, fresh _ ⟨rfl, rfl, rfl, rfl⟩⟩
  rw [launches, before]
  exact launches_last low _ rfl h

theorem cmd_launching (tok : Nat) (f : Tbl W64) (n : Nat) : (launching s tok f).here.cmd n =
    if n = physToken s.cur tok then some (commandOf s .tlnch f false) else s.here.cmd n := by
  have cmds := (core_queued tok (commandOf s .tlnch f false) (opened s)).1 n
  rw [cmd_opened] at cmds
  exact cmds

/-- TLNCH whose token waits for another stays in the buffer (R216, R306). -/
theorem tlnch_waits (low : ∀ l ∈ s.launches, l.seq < s.launches.length)
    (pending : ∃ n ∈ kinTokens (s.me.descriptor e.toNat), (s.me.token n).st = .pending) :
    (launching s tok.toNat (s.me.descriptor e.toNat)).loadLaunch s.launches.length = launching s tok.toNat (s.me.descriptor e.toNat) := by
  obtain ⟨n, hn, wait⟩ := pending
  refine loadLaunch_waits (c := s.cur.coreRef) (p := physToken s.cur tok.toNat) (launch_launching _ _ low) rfl rfl
    (x := commandOf s .tlnch (s.me.descriptor e.toNat) false) ?_ ?_
  · have cmds := (core_queued tok.toNat (commandOf s .tlnch (s.me.descriptor e.toNat) false) (opened s)).1 (physToken s.cur tok.toNat)
    exact cmds.trans (if_pos rfl)
  · exact List.ne_nil_of_mem (List.mem_dedup.2 (List.mem_filter.2 ⟨hn, decide_eq_true wait⟩))

theorem tlnch_buffered (acts : Acts (.tlnch g tok e) s) {t : State} (next : exec (.tlnch g tok e) s = .next t)
    (low : ∀ l ∈ s.launches, l.seq < s.launches.length)
    (pending : ∃ n ∈ kinTokens (s.me.descriptor e.toNat), (s.me.token n).st = .pending) :
    Frame (fun c => { coreBeside c with cmds := [] }) (fun x => { moduleBeside x with launches := [] }) s t
      ∧ t.task s.cur = (afterBundle (isLodge s.cur.core) s.me).setToken tok.toNat ⟨.pending, 0, 0⟩
      ∧ ∀ n, (t.core s.cur.coreRef).cmd n = if n = physToken s.cur tok.toNat then
          some (commandOf s .tlnch (s.me.descriptor e.toNat) false) else s.here.cmd n := by
  obtain ⟨r, ready⟩ := acts.slotOf (m := semTlnch g tok e) rfl
  have eff := (tlnch_eff (g := g) (tok := tok) (e := e) (s := s)).trans (tlnch_waits low pending)
  obtain ⟨u, next', frame, mine, cmds⟩ := ready.touches (i := .tlnch g tok e) (P := fun t => ∀ n, (t.core s.cur.coreRef).cmd n =
      if n = physToken s.cur tok.toNat then some (commandOf s .tlnch (s.me.descriptor e.toNat) false) else s.here.cmd n)
    r rfl rfl rfl rfl eff (touches_launching ..) (steady_setToken ..)
    (fun _ _ h => congrArg (fun c => { c with cmds := [] }) h) (fun _ _ h => congrArg (fun x => { x with launches := [] }) h) fun t ht n => by
      have core : coreBeside (t.core s.cur.coreRef) = coreBeside (launching s tok.toNat (s.me.descriptor e.toNat)).here :=
        core_after ht (touches_launching ..).cur
      exact ((congrArg (fun c : Core => c.cmd n) core :)).trans (cmd_launching ..)
  obtain rfl : u = t := by
    rw [next'] at next
    exact Host.Outcome.next.inj next
  rw [delivered_nil] at mine
  exact ⟨frame, mine, cmds⟩

end

/-- Settles O44: the command is queued and the launch added; loading changes that launch and tokens of its task alone. -/
theorem tlnchMakesALaunch : Obligations.TlnchMakesALaunch := by
  unfold Obligations.TlnchMakesALaunch
  intro g tok e s acts low f p
  obtain ⟨t, h, next, only, launches, fresh⟩ := tlnch_launches acts low
  refine ⟨t, h, next, (congrArg State.launches only.rest :).trans launches, fresh.seq, fresh.tlnch, fresh.placed, fresh.ended, fun pending => ?_⟩
  obtain ⟨frame, mine, cmds⟩ := tlnch_buffered acts next low pending
  rw [tlnch_waits low pending] at launches
  obtain rfl : unread s tok.toNat = h := (List.append_inj_right' launches rfl |> List.singleton_inj.1)
  refine ⟨frame, rfl, rfl, mine, fun n hn => (cmds n).trans (if_neg hn), _, (cmds p).trans (if_pos rfl), rfl, rfl, rfl, fun n => ?_⟩
  exact List.mem_dedup.trans (List.mem_filter.trans (and_congr_right fun _ => decide_eq_true_iff))

end Sys2Proof

namespace Sys2Proof

open Machine

/-! ### Fences and atomics (R249, R254 to R258) -/

/-- The atomic of a slot, with what its task gives it at issue. -/
def atomicOf (ag : BitVec 3) (ordered : Bool) (op : State → AtomicOp) (s : State) : AtomicOp :=
  { op s with
    ordered := if ordered then s.me.openSet else none, floor := s.scopeFloor s.cur.coreRef (op s).scope
    pc := s.me.pc, delay := s.me.delay, target := s.me.target, va := (s.me.ag ag.toNat).addr }

/-- The checks of an atomic that its place does not decide (Table 12.4). -/
def atomicCheck (ordered : Bool) (w : Nat) (ea : W64) (s : State) : Option Trap :=
  firstTrap [regionTrap 0 s, trapIf (decide (ea.toNat / 2 ^ 56 ≠ 0)) ⟨0x20, ea⟩, trapIf (decide (ea.toNat % w ≠ 0)) ⟨0x21, ea⟩,
    trapIf (ordered && s.me.openSet.isNone) ⟨0x66, ea⟩]

section
variable {g : Guard} {ag : BitVec 3} {ordered : Bool} {op : State → AtomicOp} {s : State}

theorem bare_atomic : Bare (semAtomic g ag ordered op) s := bare_any s rfl rfl rfl rfl rfl rfl

theorem bare_fence (sc : BitVec 2) (ro : Bool) : Bare (fenceSem g sc ro) s := bare_any s rfl rfl rfl rfl rfl rfl

/-- What the place of an atomic's line raises at issue: a walk that waits raises nothing. -/
def placeTrap (k : AtomicOp) (va : W64) (s : State) : Option Trap :=
  match s.atomicPlace k va with
  | .error e => if e.isWalk then none else some e
  | .ok _ => none

theorem placeTrap_ok {k : AtomicOp} {va : W64} {u : State} {e : TlbEntry} (h : u.atomicPlace k va = .ok e) : placeTrap k va u = none := by
  rw [placeTrap, h]

theorem placeTrap_error {k : AtomicOp} {va : W64} {u : State} {t : Trap} (h : u.atomicPlace k va = .error t) :
    placeTrap k va u = if t.isWalk then none else some t := by rw [placeTrap, h]

/-- An atomic traps for its address and its set first, and then as its place does. -/
theorem atomic_trap {k : AtomicOp} {va : W64} (hk : atomicOf ag ordered op (opened s) = k) (hva : (s.me.ag ag.toNat).addr = va) :
    (semAtomic g ag ordered op).trap 0 (opened s) = (atomicCheck ordered k.width va s).or (placeTrap k va (opened s)) := by
  have region : regionTrap 0 (opened s) = regionTrap 0 s := by rw [regionTrap, regionTrap, inRegion_opened]
  have place : (semAtomic g ag ordered op).trap 0 (opened s) =
      ([regionTrap 0 (opened s), trapIf (decide (va.toNat / 2 ^ 56 ≠ 0)) ⟨0x20, va⟩, trapIf (decide (va.toNat % k.width ≠ 0)) ⟨0x21, va⟩,
        trapIf (ordered && (opened s).me.openSet.isNone) ⟨0x66, va⟩] ++ [placeTrap k va (opened s)]).findSome? id := by
    rw [← hk, ← hva, ← ag_opened]
    rfl
  rw [place, List.findSome?_append, region, openSet_opened]
  cases placeTrap k va (opened s) <;> rfl

/-- What the first four checks come to. -/
theorem atomicCheck_cases {w : Nat} {va : W64} (outside : s.inRegion = false) :
    (2 ^ 56 ≤ va.toNat → atomicCheck ordered w va s = some ⟨0x20, va⟩)
      ∧ (va.toNat < 2 ^ 56 → va.toNat % w ≠ 0 → atomicCheck ordered w va s = some ⟨0x21, va⟩)
      ∧ (va.toNat < 2 ^ 56 → va.toNat % w = 0 → ordered = true → s.me.openSet = none → atomicCheck ordered w va s = some ⟨0x66, va⟩)
      ∧ (va.toNat < 2 ^ 56 → va.toNat % w = 0 → (ordered = true → s.me.openSet ≠ none) → atomicCheck ordered w va s = none) := by
  have high : va.toNat / 2 ^ 56 = 0 ↔ va.toNat < 2 ^ 56 := Nat.div_eq_zero_iff.trans (by simp)
  refine ⟨fun h => ?_, fun h k => ?_, fun h k o n => ?_, fun h k o => ?_⟩
  · simp [atomicCheck, firstTrap, regionTrap, outside, trapIf, -Nat.reducePow, mt high.1 (Nat.not_lt.2 h)]
  · simp [atomicCheck, firstTrap, regionTrap, outside, trapIf, -Nat.reducePow, high.2 h, k]
  · simp [atomicCheck, firstTrap, regionTrap, outside, trapIf, -Nat.reducePow, high.2 h, k, o, n]
  · have set : (ordered && s.me.openSet.isNone) = false := by
      cases ordered
      · rfl
      · rw [Bool.true_and, Option.isNone_eq_false_iff, Option.isSome_iff_ne_none]
        exact o rfl
    simp [atomicCheck, firstTrap, regionTrap, outside, trapIf, -Nat.reducePow, high.2 h, k, set]

variable {i : Instr} {k : AtomicOp} {va : W64}

/-- An atomic that a check stops. -/
theorem atomic_checked {t : Trap} (r : Runs g s) (hx : exec i s = issueSlot (semAtomic g ag ordered op) s)
    (hk : atomicOf ag ordered op (opened s) = k) (hva : (s.me.ag ag.toNat).addr = va) (check : atomicCheck ordered k.width va s = some t) :
    exec i s = .next (s.takeTrap s.cur t) :=
  bare_atomic.traps hx r.may r.guard rfl (by rw [atomic_trap hk hva, check]; rfl)

/-- An atomic whose place is refused. -/
theorem atomic_refused {t : Trap} (r : Runs g s) (hx : exec i s = issueSlot (semAtomic g ag ordered op) s)
    (hk : atomicOf ag ordered op (opened s) = k) (hva : (s.me.ag ag.toNat).addr = va) (check : atomicCheck ordered k.width va s = none)
    (place : (opened s).atomicPlace k va = .error t) (walk : t.isWalk = false) : exec i s = .next (s.takeTrap s.cur t) :=
  bare_atomic.traps hx r.may r.guard rfl (by rw [atomic_trap hk hva, check, placeTrap_error place, walk]; rfl)

/-- What an atomic waits for: a walk of another module. -/
theorem atomic_wait {u : State} (hk : atomicOf ag ordered op (opened s) = k) (hva : (s.me.ag ag.toNat).addr = va) :
    (semAtomic g ag ordered op).wait (opened s) u = match (opened s).atomicPlace k va with
      | .error e => if e.isWalk then some (u.askWalk s.cur e).tookFree else none
      | .ok _ => none := by
  rw [← hk, ← hva, ← ag_opened]
  rfl

/-- An atomic whose walk waits for another module (R233). -/
theorem atomic_walks {t : Trap} (r : Runs g s) (hx : exec i s = issueSlot (semAtomic g ag ordered op) s)
    (hk : atomicOf ag ordered op (opened s) = k) (hva : (s.me.ag ag.toNat).addr = va) (check : atomicCheck ordered k.width va s = none)
    (place : (opened s).atomicPlace k va = .error t) (walk : t.isWalk = true) : exec i s = .next (s.askWalk s.cur t).tookFree :=
  bare_atomic.waits hx r.may r.guard rfl (by rw [atomic_trap hk hva, check, placeTrap_error place, walk]; rfl)
    (by rw [atomic_wait hk hva, place]; exact if_pos walk)

/-- The translation of an atomic kept, beside its task. -/
def translated (u : State) (e : TlbEntry) : State := ((u.dropLoads u.cur (some walkTok)).cacheTlb u.cur.coreRef e).tookFree

theorem spares_translated (u : State) (e : TlbEntry) : Spares (fun c => { coreBeside c with tlb := [] })
    (fun m => { moduleBeside m with freeCtr := 0, dies := [], sent := [] }) u (translated u e) := by
  have cached : ∀ v : State, Spares (fun c => { coreBeside c with tlb := [] })
      (fun m => { moduleBeside m with freeCtr := 0, dies := [], sent := [] }) v (v.cacheTlb v.cur.coreRef e) := fun v =>
    (Spares.modCore v (fun k => { k with tlb := (e :: k.tlb.filter fun x => !decide (x = e)).take 64 }) rfl rfl rfl).trans
      (.of_cores _ rfl rfl rfl)
  exact (Spares.of_cores (s := u) (t := u.dropLoads u.cur (some walkTok)) _ rfl rfl rfl).trans
    ((cached (u.dropLoads u.cur (some walkTok))).trans (.of_cores (t := translated u e) _ rfl rfl rfl))

theorem die_translated (u : State) (e : TlbEntry) (d : Nat) : { (translated u e).die d with tlb := [] } = { u.die d with tlb := [] } := by
  have cached : ∀ v : State, ∀ c, { (v.cacheTlb c e).die d with tlb := [] } = { v.die d with tlb := [] } := fun v c => by
    rw [State.cacheTlb]
    by_cases h : d = c.die
    · rw [h, State.die_modDie]
      rfl
    · rw [State.die_modDie_other _ _ h]
      rfl
  exact cached (u.dropLoads u.cur (some walkTok)) u.cur.coreRef

/-- An atomic holds the next bundle with itself (R257, R258). -/
theorem atomic_holds {e : TlbEntry} (r : Runs g s) (hx : exec i s = issueSlot (semAtomic g ag ordered op) s)
    (hk : atomicOf ag ordered op (opened s) = k) (hva : (s.me.ag ag.toNat).addr = va) (check : atomicCheck ordered k.width va s = none)
    (place : (opened s).atomicPlace k va = .ok e) :
    Completes i s (fun c => { coreBeside c with tlb := [] }) (fun m => { moduleBeside m with freeCtr := 0, dies := [], sent := [] })
      (fun t => { t with holds := t.holds ++ [.atomic { k with pa := e.addr va.toNat, gen := e.gen }] }) []
      fun t => (∀ die, { t.die die with tlb := [] } = { s.die die with tlb := [] })
        ∧ t.sent = (s.dropLoads s.cur (some walkTok)).sent := by
  have trap : (semAtomic g ag ordered op).trap 0 (opened s) = none := by rw [atomic_trap hk hva, check, placeTrap_ok place]; rfl
  have wait : (semAtomic g ag ordered op).wait (opened s) s = none := by rw [atomic_wait hk hva, place]
  have kva : k.va = va := by rw [← hk, ← hva, ← ag_opened]; rfl
  have eff : (semAtomic g ag ordered op).eff (opened s) (opened s) =
      (translated (opened s) e).holdOn (.atomic { k with pa := e.addr va.toNat, gen := e.gen }) := by
    show (match (opened s).atomicPlace (atomicOf ag ordered op (opened s)) (atomicOf ag ordered op (opened s)).va with
      | .error _ => opened s
      | .ok e => (translated (opened s) e).holdOn (.atomic { atomicOf ag ordered op (opened s) with
          pa := e.addr (atomicOf ag ordered op (opened s)).va.toNat, gen := e.gen })) = _
    rw [hk, kva, place]
    exact congrArg (fun a => (translated (opened s) e).holdOn (.atomic { k with pa := e.addr va.toNat, gen := e.gen, va := a })) kva
  refine bare_atomic.sparesThen (f := held (.atomic { k with pa := e.addr va.toNat, gen := e.gen })) hx r rfl trap wait ?_
    (spares_translated (opened s) e) (steady_held _) (by simp) (fun _ _ h => congrArg (fun c => { c with tlb := [] }) h)
    (fun _ _ h => congrArg (fun m : State => { m with freeCtr := 0, dies := [], sent := [] }) h) fun t only => ⟨fun d => ?_, ?_⟩
  · rw [eff]
    simp only [List.append_nil]
    rfl
  · refine (congrArg (fun m : State => { m.die d with tlb := [] }) only.rest :).trans ((die_translated ..).trans ?_)
    exact congrArg (fun m : State => { m.die d with tlb := [] }) (OnlyTask.opened s).rest
  · exact (congrArg State.sent only.rest).trans rfl

/-- An atomic outside a checkpoint region: its traps in their order, or the next bundle held with it. -/
theorem atomic_outcome {w : Nat} (r : Runs g s) (outside : s.inRegion = false) (hx : exec i s = issueSlot (semAtomic g ag ordered op) s)
    (hk : atomicOf ag ordered op (opened s) = k) (hw : k.width = w) (hva : (s.me.ag ag.toNat).addr = va) :
    (2 ^ 56 ≤ va.toNat → exec i s = .next (s.takeTrap s.cur ⟨0x20, va⟩))
      ∧ (va.toNat < 2 ^ 56 → va.toNat % w ≠ 0 → exec i s = .next (s.takeTrap s.cur ⟨0x21, va⟩))
      ∧ (va.toNat < 2 ^ 56 → va.toNat % w = 0 → ordered = true → s.me.openSet = none → exec i s = .next (s.takeTrap s.cur ⟨0x66, va⟩))
      ∧ (va.toNat < 2 ^ 56 → va.toNat % w = 0 → (ordered = true → s.me.openSet ≠ none) →
        (∀ e, (opened s).atomicPlace k va = .ok e →
          Completes i s (fun c => { coreBeside c with tlb := [] }) (fun m => { moduleBeside m with freeCtr := 0, dies := [], sent := [] })
            (fun t => { t with holds := t.holds ++ [.atomic { k with pa := e.addr va.toNat, gen := e.gen }] }) []
            fun t => (∀ die, { t.die die with tlb := [] } = { s.die die with tlb := [] })
              ∧ t.sent = (s.dropLoads s.cur (some walkTok)).sent)
        ∧ ∀ tr, (opened s).atomicPlace k va = .error tr →
          (tr.isWalk = false → exec i s = .next (s.takeTrap s.cur tr)) ∧ (tr.isWalk = true → exec i s = .next (s.askWalk s.cur tr).tookFree)) := by
  subst hw
  obtain ⟨high, odd, unset, passed⟩ := atomicCheck_cases (ordered := ordered) (w := k.width) (va := va) outside
  exact ⟨fun h => atomic_checked r hx hk hva (high h), fun h a => atomic_checked r hx hk hva (odd h a),
    fun h a o n => atomic_checked r hx hk hva (unset h a o n), fun h a o => ⟨fun e => atomic_holds r hx hk hva (passed h a o),
      fun tr place => ⟨atomic_refused r hx hk hva (passed h a o) place, atomic_walks r hx hk hva (passed h a o) place⟩⟩⟩

/-- An atomic in a checkpoint region. -/
theorem atomic_inRegion (r : Runs g s) (inside : s.inRegion = true) (hx : exec i s = issueSlot (semAtomic g ag ordered op) s) :
    exec i s = .next (s.takeTrap s.cur ⟨0x24, 0⟩) :=
  atomic_checked r hx rfl rfl (by simp [atomicCheck, firstTrap, regionTrap, inside])

end

/-! ### O41 -/

/-- A fence holds the next bundle with itself (R249). -/
theorem fence_holds {g : Guard} {s : State} {sc : BitVec 2} {ro : Bool} {i : Instr} (r : Runs g s) (outside : s.inRegion = false)
    (hx : exec i s = issueSlot (fenceSem g sc ro) s) :
    Does i s false false (fun t => { t with holds := t.holds ++ [.fence sc.toNat ro none ((opened s).scopeFloor s.cur.coreRef sc.toNat)] }) [] :=
  (bare_fence sc ro).changesOwn hx r rfl (by show regionTrap 0 (opened s) = none; simp [regionTrap, outside]) rfl rfl (steady_held _)

@[simp] theorem pc_opened (s : State) : (opened s).me.pc = s.me.pc := by rw [me_opened]

@[simp] theorem delay_opened (s : State) : (opened s).me.delay = s.me.delay := by rw [me_opened]

@[simp] theorem target_opened (s : State) : (opened s).me.target = s.me.target := by rw [me_opened]

/-- The width field of an integer atomic and its bytes. -/
theorem wide_iff (wide : BitVec 1) : decide ((if wide = 1 then 8 else 4) = 8) = decide (wide = 1) := by
  rcases BitVec.eq_zero_or_eq_one wide with rfl | rfl <;> rfl

/-- An integer atomic as it is held. -/
theorem atomicOf_int {s : State} (n : Nat) (d : BitVec 5) (ag : BitVec 3) (sc : BitVec 2) (ix wide z : BitVec 1) :
    atomicOf ag (decide (ix = 1)) (intAtomic n d sc wide z) (opened s) =
      { op := n, wide := decide ((if wide = 1 then 8 else 4) = 8), uns := decide (z = 1), fadd := none, cas := none
        ordered := if ix = 1 then s.me.openSet else none, scope := sc.toNat, dest := d.toNat, pa := 0, gen := 0
        va := (s.me.ag ag.toNat).addr, operand := s.sreg d, floor := (opened s).scopeFloor s.cur.coreRef sc.toNat, result := none
        pc := s.me.pc, delay := s.me.delay, target := s.me.target } := by
  rw [wide_iff]
  simp [atomicOf, intAtomic]

/-- An AFADD as it is held. -/
theorem atomicOf_fadd {s : State} (d : BitVec 5) (ag : BitVec 3) (ty : BitVec 2) (o : BitVec 1) (sc : BitVec 2) :
    atomicOf ag (decide (o = 1)) (fun s => { intAtomic 0 d sc 0 0 s with fadd := some ty }) (opened s) =
      { op := 0, wide := decide ((if ty = 0 then 4 else 2) = 8), uns := false, fadd := some ty, cas := none
        ordered := if o = 1 then s.me.openSet else none, scope := sc.toNat, dest := d.toNat, pa := 0, gen := 0
        va := (s.me.ag ag.toNat).addr, operand := s.sreg d, floor := (opened s).scopeFloor s.cur.coreRef sc.toNat, result := none
        pc := s.me.pc, delay := s.me.delay, target := s.me.target } := by
  have narrow : decide ((if ty = 0 then 4 else 2) = 8) = false := by split <;> rfl
  rw [narrow]
  simp [atomicOf, intAtomic]

/-- An ACAS as it is held. -/
theorem atomicOf_cas {s : State} (d : BitVec 5) (ag : BitVec 3) (b : BitVec 4) (sc : BitVec 2) (ix wide : BitVec 1) :
    atomicOf ag (decide (ix = 1)) (fun s => { intAtomic 0 d sc wide 0 s with cas := some (s.sreg (b.setWidth 5)) }) (opened s) =
      { op := 0, wide := decide ((if wide = 1 then 8 else 4) = 8), uns := false, fadd := none, cas := some (s.sreg (b.setWidth 5))
        ordered := if ix = 1 then s.me.openSet else none, scope := sc.toNat, dest := d.toNat, pa := 0, gen := 0
        va := (s.me.ag ag.toNat).addr, operand := s.sreg d, floor := (opened s).scopeFloor s.cur.coreRef sc.toNat, result := none
        pc := s.me.pc, delay := s.me.delay, target := s.me.target } := by
  rw [wide_iff]
  simp [atomicOf, intAtomic]

/-- The bytes of an atomic that is not an AFADD. -/
theorem width_of_wide {k : AtomicOp} {wide : BitVec 1} (none : k.fadd = none) (h : k.wide = decide ((if wide = 1 then 8 else 4) = 8)) :
    k.width = if wide = 1 then 8 else 4 := by
  rw [AtomicOp.width, none, h, wide_iff]
  simp

/-- Settles O41: a fence or an atomic holds the next bundle with itself, after the checks of Table 12.4 in their order. -/
theorem fencesAndAtomicsHoldTheTask : Obligations.FencesAndAtomicsHoldTheTask := by
  intro g d ag b ty sc ix wide z s r va floor held atomics
  have form : ∀ i ord x, atomics i ord x → ∃ op, exec i s = issueSlot (semAtomic g ag (decide (ord = 1)) op) s
      ∧ atomicOf ag (decide (ord = 1)) op (opened s) = x.2 ∧ x.2.width = x.1 := by
    rintro i ord x (⟨rfl, rfl, rfl⟩ | ⟨rfl, rfl, rfl⟩ | ⟨rfl, rfl, rfl⟩ | ⟨rfl, rfl, rfl⟩ | ⟨rfl, rfl, rfl⟩ | ⟨rfl, rfl, rfl⟩ |
      ⟨rfl, rfl, rfl⟩ | ⟨rfl, rfl, rfl⟩ | ⟨rfl, rfl, rfl⟩ | ⟨rfl, rfl, rfl⟩)
    · exact ⟨_, rfl, atomicOf_int 0 d ag sc ord wide 0, width_of_wide rfl rfl⟩
    · exact ⟨_, rfl, atomicOf_int 3 d ag sc ord wide 0, width_of_wide rfl rfl⟩
    · exact ⟨_, rfl, atomicOf_int 4 d ag sc ord wide 0, width_of_wide rfl rfl⟩
    · exact ⟨_, rfl, atomicOf_int 5 d ag sc ord wide 0, width_of_wide rfl rfl⟩
    · exact ⟨_, rfl, atomicOf_int 6 d ag sc ord wide 0, width_of_wide rfl rfl⟩
    · exact ⟨_, rfl, atomicOf_int 1 d ag sc ord wide z, width_of_wide rfl rfl⟩
    · exact ⟨_, rfl, atomicOf_int 2 d ag sc ord wide z, width_of_wide rfl rfl⟩
    · exact ⟨_, rfl, atomicOf_int 7 d ag sc ord wide z, width_of_wide rfl rfl⟩
    · exact ⟨_, rfl, atomicOf_cas d ag b sc ord wide, width_of_wide rfl rfl⟩
    · exact ⟨_, rfl, atomicOf_fadd d ag ty ord sc, rfl⟩
  refine ⟨fun outside => ⟨fence_holds r outside rfl, fence_holds r outside rfl⟩, fun inside => ?_, fun i ord x hi outside => ?_⟩
  · have region : regionTrap 0 (opened s) = some ⟨0x24, 0⟩ := by simp [regionTrap, inside]
    rintro i (rfl | rfl | rfl | rfl | ⟨ord, x, hi⟩)
    · exact (bare_fence sc false).traps rfl r.may r.guard rfl region
    · exact (bare_fence sc true).traps rfl r.may r.guard rfl region
    · exact (bare_aordJoin g d s).traps rfl r.may r.guard rfl (by simp [semAordJoin, firstTrap, region])
    · exact (bare_aordClose g d s).traps rfl r.may r.guard rfl (by simp [semAordClose, firstTrap, region])
    · obtain ⟨op, hx, -, -⟩ := form i ord x hi
      exact atomic_inRegion r inside hx
  · obtain ⟨op, hx, hk, hw⟩ := form i ord x hi
    have out := atomic_outcome r outside hx hk hw rfl
    simp only [decide_eq_true_eq] at out
    exact out

end Sys2Proof

namespace Sys2Proof

open Machine

/-! ### Write-backs (R234, R244) -/

/-- What a home keeps of a write-back: the bytes of a dirty line with the write right, of its own generation and under a key that
is there (R234, R405). -/
def written (s : State) (l : L1Line) : Memory :=
  if l.right = .write ∧ l.dirty = true ∧ l.gen = s.genOf (l.line * 128) ∧ s.hasKey l.key = true then s.mem.setBytes (l.line * 128) l.data
  else s.mem

/-- A write-back changes the memory, the home's records and the dies' events alone. -/
theorem writeBack_eq (s : State) (c : CoreRef) (l : L1Line) :
    ∃ lines dies, s.writeBack c l = { s with mem := written s l, lines := lines, dies := dies } := by
  by_cases right : l.right = .write
  · by_cases dirty : l.dirty = true
    · by_cases gen : l.gen = s.genOf (l.line * 128)
      · by_cases key : s.hasKey l.key = true
        · rw [written, if_pos ⟨right, dirty, gen, key⟩]
          refine ⟨(s.writeBack c l).lines, s.dies, ?_⟩
          have genL : ¬l.gen ≠ (s.modLine l.line fun m => { m with wts := l.wts, rts := l.rts }).genOf (l.line * 128) := not_not.2 gen
          have keyL : ¬(!(s.modLine l.line fun m => { m with wts := l.wts, rts := l.rts }).hasKey l.key) = true := by
            rw [Bool.not_eq_true']
            exact fun h => Bool.false_ne_true (h.symm.trans key)
          simp only [State.writeBack, right, ne_eq, not_true_eq_false, if_false, dirty, Bool.not_true, Bool.false_eq_true]
          rw [if_neg genL, if_neg keyL]
          rfl
        · rw [written, if_neg fun h => key h.2.2.2]
          have keyL : (!(s.modLine l.line fun m => { m with wts := l.wts, rts := l.rts }).hasKey l.key) = true := by
            rw [Bool.not_eq_true']
            exact Bool.eq_false_iff.2 key
          refine ⟨(s.writeBack c l).lines, (s.writeBack c l).dies, ?_⟩
          have genL : ¬l.gen ≠ (s.modLine l.line fun m => { m with wts := l.wts, rts := l.rts }).genOf (l.line * 128) := not_not.2 gen
          simp only [State.writeBack, right, ne_eq, not_true_eq_false, if_false, dirty, Bool.not_true, Bool.false_eq_true]
          rw [if_neg genL, if_pos keyL]
          rfl
      · rw [written, if_neg fun h => gen h.2.2.1]
        refine ⟨(s.writeBack c l).lines, (s.writeBack c l).dies, ?_⟩
        have genL : l.gen ≠ (s.modLine l.line fun m => { m with wts := l.wts, rts := l.rts }).genOf (l.line * 128) := gen
        simp only [State.writeBack, right, ne_eq, not_true_eq_false, if_false, dirty, Bool.not_true, Bool.false_eq_true]
        rw [if_pos genL]
        rfl
    · rw [written, if_neg fun h => dirty h.2.1]
      refine ⟨(s.writeBack c l).lines, s.dies, ?_⟩
      simp only [State.writeBack, right, ne_eq, not_true_eq_false, if_false, dirty, Bool.not_false, if_true]
      rfl
  · rw [written, if_neg fun h => right h.1]
    exact ⟨s.lines, s.dies, if_pos right⟩

/-- A line's bytes that a home keeps are those of the line alone. -/
theorem byte_written_out (s : State) {l : L1Line} (whole : l.data.length = 128) {b : Nat} (out : b / 128 ≠ l.line) :
    (written s l).byte b = s.mem.byte b := by
  unfold written
  split
  · exact Memory.byte_setBytes_out _ _ _ _ (by omega)
  · rfl

/-- A run of bytes written reads back whole. -/
theorem Memory.bytes_setBytes (m : Memory) (a : Nat) (d : List Byte) : (m.setBytes a d).bytes a d.length = d := by
  refine List.ext_getElem (by simp [Memory.bytes]) fun n h k => ?_
  have in_ : n < d.length := by simpa [Memory.bytes] using h
  rw [show ((m.setBytes a d).bytes a d.length)[n] = (m.setBytes a d).byte (a + n) by simp [Memory.bytes],
    Memory.byte_setBytes_in _ _ _ _ in_, List.getD_eq_getElem _ _ in_]

/-- A line that its home accepts reads there as its copy. -/
theorem bytes_written {s : State} {l : L1Line} (right : l.right = .write) (dirty : l.dirty = true)
    (gen : l.gen = s.genOf (l.line * 128)) (key : s.hasKey l.key = true) (whole : l.data.length = 128) :
    (written s l).bytes (l.line * 128) 128 = l.data := by
  rw [written, if_pos ⟨right, dirty, gen, key⟩, ← whole]
  exact Memory.bytes_setBytes ..

/-! ### CLEAN and INVAL (R169) -/

/-- A core without its lines and what asks for them. -/
def coreBesideCopies (c : Core) : Core := { coreBeside c with l1 := [], l1req := [] }

/-- The module without its cores, its memory, the homes' records, the dies and the free-value counter. -/
def moduleBesideHomes (x : State) : State := { moduleBeside x with freeCtr := 0, mem := [], lines := [], dies := [] }

theorem spares_writeBack (u : State) (c : CoreRef) (l : L1Line) : Spares coreBesideCopies moduleBesideHomes u (u.writeBack c l) := by
  obtain ⟨lines, dies, back⟩ := writeBack_eq u c l
  rw [back]
  exact .of_cores _ rfl rfl rfl

theorem writeBack_kept (u : State) (c : CoreRef) (l : L1Line) :
    (u.writeBack c l).cores = u.cores ∧ (u.writeBack c l).mem = written u l := by
  obtain ⟨lines, dies, back⟩ := writeBack_eq u c l
  rw [back]
  exact ⟨rfl, rfl⟩

/-- What a hint that gives a line back leaves: lines, homes and events alone, and of the memory the bytes of the line. -/
structure Hinted (line : Nat) (copies : List L1Line → List L1Line) (pick : L1Line → Bool) (u v : State) : Prop
    extends Spares coreBesideCopies moduleBesideHomes u v where
  l1 : (v.core u.cur.coreRef).l1 = copies u.here.l1
  mem : v.mem = match u.here.l1.find? pick with
    | some l => written u l
    | none => u.mem

/-- A line written back, and then dropped or changed in its core. -/
theorem Hinted.of_writeBack {line : Nat} {copies : List L1Line → List L1Line} {pick : L1Line → Bool} {u v : State} {l : L1Line}
    (found : u.here.l1.find? pick = some l) (f : Core → Core) (hv : v = (u.writeBack u.cur.coreRef l).modCore u.cur.coreRef f)
    (hf : ∀ c, (f c).tasks = c.tasks ∧ coreBesideCopies (f c) = coreBesideCopies c ∧ (f c).l1 = copies c.l1) : Hinted line copies pick u v := by
  have back := spares_writeBack u u.cur.coreRef l
  obtain ⟨here, mem⟩ := writeBack_kept u u.cur.coreRef l
  generalize u.writeBack u.cur.coreRef l = w at hv back here mem
  have cur := back.cur
  have change : Spares coreBesideCopies moduleBesideHomes w (w.modCore w.cur.coreRef f) := .modCore w f (hf _).1 (hf _).2.1 rfl
  rw [cur] at change
  subst hv
  exact ⟨back.trans change, by rw [State.core_modCore, (hf _).2.2, State.core, here]; rfl, by rw [found]; exact mem⟩

/-- The dirty copies of a line made clean. -/
def cleaned (line : Nat) (l : List L1Line) : List L1Line :=
  l.map fun x => if x.line = line ∧ x.right = .write then { x with dirty := false } else x

/-- The copies of a line dropped. -/
def dropped (line : Nat) (l : List L1Line) : List L1Line := l.filter fun x => !decide (x.line = line)

/-- The copy of a line that is not read-only. -/
def ownCopy (line : Nat) (l : L1Line) : Bool := decide (l.line = line) && !decide (l.right = .ro)

theorem holds_write (l : L1Line) (line : Nat) : l.holds line .write = ownCopy line l := by
  cases h : l.right <;> simp [L1Line.holds, ownCopy, h]

theorem cleaned_of_none {line : Nat} {l : List L1Line} (h : l.find? (ownCopy line) = none) : cleaned line l = l := by
  refine (List.map_congr_left fun x hx => ?_).trans (List.map_id l)
  have no := List.find?_eq_none.1 h x hx
  refine if_neg fun k => no ?_
  simp [ownCopy, k.1, k.2]

theorem cleaned_dirty (line : Nat) (l : List L1Line) :
    ((cleaned line l).map fun x => { x with dirty := false }) = l.map fun x => { x with dirty := false } := by
  rw [cleaned, List.map_map]
  refine List.map_congr_left fun x _ => ?_
  show ({ (if x.line = line ∧ x.right = .write then { x with dirty := false } else x) with dirty := false } : L1Line) = _
  split <;> rfl

theorem not_dirty_of_cleaned {line : Nat} {l : List L1Line} {x : L1Line} (h : x ∈ cleaned line l) (at' : x.line = line)
    (right : x.right = .write) : x.dirty = false := by
  obtain ⟨y, -, rfl⟩ := List.mem_map.1 h
  by_cases h : y.line = line ∧ y.right = .write
  · rw [if_pos h]
  · rw [if_neg h] at at' right
    exact absurd ⟨at', right⟩ h

theorem hinted_cleanLine (line : Nat) (u : State) : Hinted line (cleaned line) (ownCopy line) u (u.cleanLine u.cur.coreRef line) := by
  have pick : (u.here.l1.find? fun l => l.holds line .write) = u.here.l1.find? (ownCopy line) :=
    congrArg (fun p => u.here.l1.find? p) (funext fun l => holds_write l line)
  cases found : u.here.l1.find? (ownCopy line) with
  | none =>
    have same : u.cleanLine u.cur.coreRef line = u := by
      show (match u.here.l1.find? fun l => l.holds line .write with | none => u | some l => _) = u
      rw [pick, found]
    rw [same]
    exact ⟨.refl .., (cleaned_of_none found).symm, by rw [found]⟩
  | some l =>
    refine .of_writeBack found (fun k => { k with l1 := cleaned line k.l1 }) ?_ fun _ => ⟨rfl, rfl, rfl⟩
    show (match u.here.l1.find? fun l => l.holds line .write with | none => u | some l => _) = _
    rw [pick, found]
    rfl

theorem dropped_ownCopy {line : Nat} {l : List L1Line} :
    dropped line (l.filter fun x => !ownCopy line x) = dropped line l := by
  rw [dropped, dropped, List.filter_filter]
  refine List.filter_congr fun x _ => ?_
  by_cases h : x.line = line <;> simp [ownCopy, h]

/-- Copies changed once more in the core of a hint. -/
theorem Hinted.thenCopies {line : Nat} {copies copies' : List L1Line → List L1Line} {pick : L1Line → Bool} {u v : State}
    (h : Hinted line copies pick u v) (f : Core → Core)
    (hf : ∀ c, (f c).tasks = c.tasks ∧ coreBesideCopies (f c) = coreBesideCopies c ∧ (f c).l1 = copies' c.l1) :
    Hinted line (fun l => copies' (copies l)) pick u (v.modCore u.cur.coreRef f) := by
  have change : Spares coreBesideCopies moduleBesideHomes v (v.modCore v.cur.coreRef f) := .modCore v f (hf _).1 (hf _).2.1 rfl
  rw [h.cur] at change
  exact ⟨h.toSpares.trans change, by rw [State.core_modCore, (hf _).2.2, h.l1], h.mem⟩

/-- Answers on their way taken back first. -/
theorem Hinted.revoked {line : Nat} {copies : List L1Line → List L1Line} {pick : L1Line → Bool} {u v : State} (f : Core → Core)
    (hf : ∀ c, (f c).tasks = c.tasks ∧ coreBesideCopies (f c) = coreBesideCopies c ∧ (f c).l1 = c.l1)
    (h : Hinted line copies pick (u.modCore u.cur.coreRef f) v) : Hinted line copies pick u v := by
  have change : Spares coreBesideCopies moduleBesideHomes u (u.modCore u.cur.coreRef f) := .modCore u f (hf _).1 (hf _).2.1 rfl
  have l1 : (u.modCore u.cur.coreRef f).here.l1 = u.here.l1 := by
    show ((u.modCore u.cur.coreRef f).core u.cur.coreRef).l1 = _
    rw [State.core_modCore, (hf _).2.2]
    rfl
  refine ⟨change.trans h.toSpares, by rw [← l1]; exact h.l1, ?_⟩
  rw [← l1]
  exact h.mem

/-- A core's own copy of a line written back and dropped, with every right of it. -/
def handedBack (line : Nat) (w : State) (c : CoreRef) : State :=
  match (w.core c).l1.find? (ownCopy line) with
  | none => w
  | some l => (w.writeBack c l).modCore c fun k => { k with l1 := k.l1.filter fun x => !ownCopy line x }

theorem giveBack_eq (line : Nat) (u : State) (c : CoreRef) : State.giveBack line true u c =
    handedBack line (if (u.core c).l1req = [] then u
      else u.modCore c fun k => { k with l1req := k.l1req.map (L1Req.revoked line true) }) c := by
  unfold State.giveBack handedBack
  simp only [or_true, if_true] <;> rfl

theorem hinted_handedBack (line : Nat) (w : State) :
    Hinted line (fun l => l.filter fun x => !ownCopy line x) (ownCopy line) w (handedBack line w w.cur.coreRef) := by
  cases found : w.here.l1.find? (ownCopy line) with
  | none =>
    have same : handedBack line w w.cur.coreRef = w := by
      show (match w.here.l1.find? (ownCopy line) with | none => w | some l => _) = w
      rw [found]
    have none : ∀ x ∈ w.here.l1, (!ownCopy line x) = true := fun x hx => by simpa using List.find?_eq_none.1 found x hx
    rw [same]
    exact ⟨.refl .., (List.filter_eq_self.2 none).symm, by rw [found]⟩
  | some l =>
    refine .of_writeBack found (fun k => { k with l1 := k.l1.filter fun x => !ownCopy line x }) ?_ fun _ => ⟨rfl, rfl, rfl⟩
    show (match w.here.l1.find? (ownCopy line) with | none => w | some l => _) = _
    rw [found]

/-- A core that gives back a line with every right of it, and drops every other copy. -/
theorem hinted_dropLine (line : Nat) (u : State) : Hinted line (dropped line) (ownCopy line) u (u.dropLine u.cur.coreRef line) := by
  have back : Hinted line (fun l => l.filter fun x => !ownCopy line x) (ownCopy line) u (State.giveBack line true u u.cur.coreRef) := by
    rw [giveBack_eq]
    split
    · exact hinted_handedBack line u
    · exact .revoked (fun k => { k with l1req := k.l1req.map (L1Req.revoked line true) }) (fun _ => ⟨rfl, rfl, rfl⟩)
        (hinted_handedBack line (u.modCore u.cur.coreRef fun k => { k with l1req := k.l1req.map (L1Req.revoked line true) }))
  have drop := back.thenCopies (copies' := dropped line) (fun k => { k with l1 := dropped line k.l1 }) fun _ => ⟨rfl, rfl, rfl⟩
  simp only [dropped_ownCopy] at drop
  exact drop

/-- The memory after a hint: the line's bytes alone may differ (R169). -/
theorem Hinted.byte {line : Nat} {copies : List L1Line → List L1Line} {u v : State} (h : Hinted line copies (ownCopy line) u v)
    (whole : ∀ l ∈ u.here.l1, l.data.length = 128) {b : Nat} (out : b / 128 ≠ line) : v.mem.byte b = u.mem.byte b := by
  rw [h.mem]
  split
  · next l found =>
    have own := List.find?_some found
    have at' : l.line = line := by simpa [ownCopy] using (Bool.and_eq_true_iff.1 own).1
    exact byte_written_out u (whole l (List.mem_of_find?_eq_some found)) (by rw [at']; exact out)
  · rfl

/-- The line's bytes after a hint, where its home accepts the copy. -/
theorem Hinted.bytes {line : Nat} {copies : List L1Line → List L1Line} {u v : State} (h : Hinted line copies (ownCopy line) u v)
    {l : L1Line} (found : u.here.l1.find? (ownCopy line) = some l) (right : l.right = .write) (dirty : l.dirty = true)
    (gen : l.gen = u.genOf (line * 128)) (key : u.hasKey l.key = true) (whole : l.data.length = 128) :
    v.mem.bytes (line * 128) 128 = l.data := by
  have own := List.find?_some found
  have at' : l.line = line := by simpa [ownCopy] using (Bool.and_eq_true_iff.1 own).1
  rw [h.mem, found, ← at']
  exact bytes_written right dirty (by rw [at']; exact gen) key whole

/-! ### Address generators (R162, R163) -/

/-- A task changed by functions that agree on it. -/
theorem modMe_congr {u : State} {f k : Task → Task} (h : f u.me = k u.me) : u.modMe f = u.modMe k :=
  congrArg (u.setTask u.cur) h

theorem steady_setAg (n : Nat) (x : AddrGen) : Steady fun t => t.setAg n x :=
  ⟨fun _ _ _ _ _ _ _ => rfl, fun _ => rfl, fun _ => rfl, fun _ => rfl, fun _ => rfl⟩

end Sys2Proof

namespace Sys2Proof

open Machine

/-! ### The hints as slots (R169) -/

section
variable {g : Guard} {ag : BitVec 3} {s : State} {i : Instr} {m : SlotSem}

theorem bare_pref : Bare (semPref g ag) s := bare_any s rfl rfl rfl rfl rfl rfl

theorem bare_clean : Bare (semClean g ag) s := bare_any s rfl rfl rfl rfl rfl rfl

theorem bare_inval : Bare (semInval g ag) s := bare_any s rfl rfl rfl rfl rfl rfl

theorem here_l1_opened (s : State) : (opened s).tookFree.here.l1 = s.here.l1 := (congrArg Core.l1 (here_opened s) :)

theorem keepsLine_opened (s : State) (line : Nat) : ((opened s).core s.cur.coreRef).keepsLine line = s.here.keepsLine line :=
  (congrArg (fun c : Core => c.keepsLine line) (here_opened s) :)

/-- A hint of an address that has no line of this module takes a free value and does nothing. -/
theorem hint_nothing (bare : Bare m s) (hx : exec i s = issueSlot m s) (r : Runs m.guard s) (peak : m.peak = fun _ => 0)
    (trap : m.trap 0 (opened s) = none) (wait : m.wait (opened s) s = none) (eff : m.eff (opened s) (opened s) = (opened s).tookFree) :
    Completes i s coreBeside (fun x => { moduleBeside x with freeCtr := 0 }) id [] fun _ => True :=
  bare.spares hx r peak trap wait eff (.of_cores _ rfl rfl rfl) (fun _ _ h => h)
    (fun _ _ h => congrArg (fun x : State => { x with freeCtr := 0 }) h) fun _ _ => trivial

/-- What PREF asks for. -/
def prefetch (u : State) (ag : BitVec 3) (x : Nat × Nat) : L1Req :=
  { line := x.1, job := u.me.job, key := jobKey u.me.job, gen := x.2, right := .read, va := (u.me.ag ag.toNat).addr, slot := prefSlot
    time := u.me.time, roFloor := u.me.roFloor, answer := .waiting }

/-- PREF asks for the line once (R169). -/
theorem pref_asks {line gen : Nat} (r : Runs g s) (here : (opened s).hintLine ag = some (line, gen)) :
    Completes (.pref g ag) s (fun c => { coreBeside c with l1req := [] }) (fun x => { moduleBeside x with freeCtr := 0 }) id []
      fun t => ∃ q : L1Req, q.line = line ∧ q.right = .read ∧ q.slot = prefSlot
        ∧ (q ∈ s.here.l1req ∧ (t.core s.cur.coreRef).l1req = s.here.l1req ∨ (t.core s.cur.coreRef).l1req = s.here.l1req ++ [q]) := by
  obtain ⟨q, hq, at', right, slot⟩ : ∃ q : L1Req, (semPref g ag).eff (opened s) (opened s) = (opened s).tookFree.modHere (fun c => c.request q)
      ∧ q.line = line ∧ q.right = .read ∧ q.slot = prefSlot := by
    have eff : (semPref g ag).eff (opened s) (opened s) = match (opened s).hintLine ag with
      | none => (opened s).tookFree
      | some x => (opened s).tookFree.modHere fun c => c.request (prefetch (opened s) ag x) := rfl
    rw [here] at eff
    exact ⟨_, eff, rfl, rfl, rfl⟩
  have asked : ∀ c : Core, (c.request q).tasks = c.tasks ∧ { coreBeside (c.request q) with l1req := [] } = { coreBeside c with l1req := [] } :=
    fun c => by
      unfold Core.request
      split <;> exact ⟨rfl, rfl⟩
  have spares : Spares (fun c => { coreBeside c with l1req := [] }) (fun x => { moduleBeside x with freeCtr := 0 }) (opened s)
      ((opened s).tookFree.modHere fun c => c.request q) :=
    (Spares.of_cores (s := opened s) (t := (opened s).tookFree) _ rfl rfl rfl).trans (.modCore (opened s).tookFree _ (asked _).1 (asked _).2 rfl)
  refine bare_pref.spares rfl r rfl rfl rfl hq spares (fun _ _ h => congrArg (fun c => { c with l1req := [] }) h)
    (fun _ _ h => congrArg (fun x : State => { x with freeCtr := 0 }) h) fun t only => ?_
  have old : (opened s).tookFree.here.l1req = s.here.l1req := (congrArg Core.l1req (here_opened s) :)
  have kept : (t.core s.cur.coreRef).l1req = ((opened s).tookFree.here.request q).l1req := by
    refine (congrArg Core.l1req only.core :).trans ?_
    show (((opened s).tookFree.modCore s.cur.coreRef _).core s.cur.coreRef).l1req = _
    rw [State.core_modCore]
    rfl
  rw [kept, Core.request, old]
  split
  · next dup =>
    obtain ⟨p, hp, same⟩ := List.any_eq_true.1 dup
    simp only [Bool.and_eq_true, decide_eq_true_eq] at same
    obtain ⟨⟨hl, hs⟩, hr⟩ := same
    exact ⟨p, hl.trans at', hr.trans right, hs.trans slot, .inl ⟨hp, old⟩⟩
  · exact ⟨q, at', right, slot, .inr rfl⟩

/-- A slot that hints at a line (R169). -/
theorem hint_completes {line : Nat} {copies : List L1Line → List L1Line} {u : State} (bare : Bare m s) (hx : exec i s = issueSlot m s)
    (r : Runs m.guard s) (peak : m.peak = fun _ => 0) (trap : m.trap 0 (opened s) = none) (wait : m.wait (opened s) s = none)
    (eff : m.eff (opened s) (opened s) = u) (h : Hinted line copies (ownCopy line) (opened s).tookFree u) :
    Completes i s coreBesideCopies moduleBesideHomes id [] fun t =>
      (∀ b, b / 128 ≠ line → (∀ l ∈ s.here.l1, l.data.length = 128) → t.mem.byte b = s.mem.byte b)
      ∧ (t.core s.cur.coreRef).l1 = copies s.here.l1
      ∧ ∀ l, s.here.l1.find? (ownCopy line) = some l → l.right = .write → l.dirty = true → l.gen = s.genOf (line * 128) →
          s.hasKey l.key = true → l.data.length = 128 → t.mem.bytes (line * 128) 128 = l.data := by
  have spares : Spares coreBesideCopies moduleBesideHomes (opened s) u :=
    (Spares.of_cores (s := opened s) (t := (opened s).tookFree) _ rfl rfl rfl).trans h.toSpares
  refine bare.spares hx r peak trap wait eff spares (fun _ _ h => congrArg (fun c => { c with l1 := [], l1req := [] }) h)
    (fun _ _ h => congrArg (fun x : State => { x with freeCtr := 0, mem := [], lines := [], dies := [] }) h) fun t only => ?_
  have cur : u.cur = s.cur := h.cur
  have mem : t.mem = u.mem := (congrArg State.mem only.rest :)
  have l1 : (t.core s.cur.coreRef).l1 = (u.core s.cur.coreRef).l1 := by
    rw [← cur]
    exact (congrArg Core.l1 only.core :)
  rw [mem, l1]
  refine ⟨fun b out whole => h.byte (by rw [here_l1_opened]; exact whole) out, ?_, fun l found right dirty gen key whole => ?_⟩
  · rw [← here_l1_opened]
    exact h.l1
  · exact h.bytes (by rw [here_l1_opened]; exact found) right dirty gen key whole

/-- INVAL of a line that a squashed bundle holds is CLEAN (R167, R169). -/
theorem inval_eq_clean {line gen : Nat} (r : Runs g s) (here : (opened s).hintLine ag = some (line, gen))
    (keeps : s.here.keepsLine line = true) : exec (.inval g ag) s = exec (.clean g ag) s := by
  have clean : (semClean g ag).eff (opened s) (opened s) = (opened s).tookFree.cleanLine s.cur.coreRef line := by
    simp only [semClean, here] <;> rfl
  have inval : (semInval g ag).eff (opened s) (opened s) = (opened s).tookFree.cleanLine s.cur.coreRef line := by
    have kept : ((opened s).core (opened s).cur.coreRef).keepsLine line = true := (keepsLine_opened s line).trans keeps
    simp only [semInval, here, kept, if_true] <;> rfl
  have done : ∀ (m : SlotSem) (i : Instr), Bare m s → exec i s = issueSlot m s → m.guard = g → m.peak = (fun _ => 0) →
      m.trap 0 (opened s) = none → m.wait (opened s) s = none → m.vsrc = [] →
      m.eff (opened s) (opened s) = (opened s).tookFree.cleanLine s.cur.coreRef line →
      exec i s = .next (past ((opened s).tookFree.cleanLine s.cur.coreRef line)
        (taskPast s false false id [])) := by
    intro m i bare hx hg peak trap wait src eff
    have guard : s.me.guardOn m.guard = true := by rw [hg]; exact r.guard
    have hinted := hinted_cleanLine line (opened s).tookFree
    have task : ((opened s).tookFree.cleanLine s.cur.coreRef line).task s.cur = { id (opened s).me with pend := s.me.pend ++ [] } := by
      refine hinted.own.trans ?_
      rw [List.append_nil]
      show (opened s).me = _
      rw [me_opened]
      rfl
    have next := exec_quiet hx (bare.ready r.may guard peak trap wait) r.quiet bare.mark
      ((bare.apply (acts_opened guard)).trans eff) hinted.cur task steady_id (by simp)
    rw [bare.takes, bare.takes] at next
    exact next
  exact (done _ _ bare_inval rfl rfl rfl rfl rfl rfl inval).trans (done _ _ bare_clean rfl rfl rfl rfl rfl rfl clean).symm

end

end Sys2Proof

namespace Sys2Proof

open Machine

/-! ### PHASE (R172) -/

/-- What lies at other keys of a table does not change when one key is set. -/
theorem Tbl.any_erase {α : Type} (t : Tbl α) (k : Nat) (p : Nat × α → Bool) :
    (Tbl.erase t k).any (fun e => decide (e.1 ≠ k) && p e) = t.any fun e => decide (e.1 ≠ k) && p e := by
  induction t with
  | nil => rfl
  | cons e t ih =>
    obtain ⟨j, v⟩ := e
    by_cases h : j = k
    · rw [Tbl.erase, if_pos h, List.any_cons, ih, h, decide_eq_false (not_not.2 rfl), Bool.false_and, Bool.false_or]
    · rw [Tbl.erase, if_neg h, List.any_cons, List.any_cons, ih]

theorem Tbl.any_insert {α : Type} (v : α) (t : Tbl α) (k : Nat) (p : Nat × α → Bool) :
    (Tbl.insert v t k).any (fun e => decide (e.1 ≠ k) && p e) = t.any fun e => decide (e.1 ≠ k) && p e := by
  induction t with
  | nil => simp [Tbl.insert]
  | cons e t ih =>
    obtain ⟨j, w⟩ := e
    unfold Tbl.insert
    split
    · simp
    split
    · next h => simp [h]
    · rw [List.any_cons, List.any_cons, ih]

theorem Tbl.any_set {α : Type} [DecidableEq α] (d v : α) (t : Tbl α) (k : Nat) (p : Nat × α → Bool) :
    (Tbl.set d t k v).any (fun e => decide (e.1 ≠ k) && p e) = t.any fun e => decide (e.1 ≠ k) && p e := by
  unfold Tbl.set
  split
  · exact Tbl.any_erase ..
  · exact Tbl.any_insert ..

theorem stepTaken_opened (s : State) (m : Nat) : (opened s).stepTaken m = s.stepTaken m := by
  have tasks : (opened s).here.tasks = Tbl.set none s.here.tasks s.cur.slot (some { s.me with time := s.me.time + 1 }) :=
    congrArg Core.tasks (State.core_modCore ..)
  rw [State.stepTaken, State.stepTaken, tasks]
  exact Tbl.any_set ..

theorem tilePast_opened (s : State) (b : Nat) : (opened s).tilePast b = s.tilePast b :=
  (congrArg (fun c : Core => (c.slotTiles s.cur).any fun e => e.v && decide (b < (e.base + e.len) * 128)) (here_opened s) :)

section
variable {g : Guard} {n : BitVec 4} {s : State}

theorem bare_phase : Bare (semPhase g n) s := bare_any s rfl rfl rfl rfl rfl rfl

/-- Whether a task can have a window of n steps: those it gains are free, and no tile lies in those it gives up (R172). -/
def PhaseFits (n : Nat) (s : State) : Prop :=
  (n ≤ s.me.wsize ∨ (s.me.wbase + n ≤ 12
      ∧ ∀ m, s.me.wbase + s.me.wsize ≤ m → m < s.me.wbase + n → s.stepTaken m = false))
    ∧ (s.me.wsize ≤ n ∨ s.tilePast (n * stepBytes) = false)

/-- The steps a task would gain that it cannot have. -/
theorem gain_refused {k : Nat} : (s.me.wsize < k ∧ (12 < s.me.wbase + k ∨
      (List.range (k - s.me.wsize)).any (fun i => s.stepTaken (s.me.wbase + s.me.wsize + i)) = true)) ↔
    ¬(k ≤ s.me.wsize ∨ (s.me.wbase + k ≤ 12 ∧ ∀ m, s.me.wbase + s.me.wsize ≤ m → m < s.me.wbase + k → s.stepTaken m = false)) := by
  have steps : (List.range (k - s.me.wsize)).any (fun i => s.stepTaken (s.me.wbase + s.me.wsize + i)) = true ↔
      ¬∀ m, s.me.wbase + s.me.wsize ≤ m → m < s.me.wbase + k → s.stepTaken m = false := by
    simp only [List.any_eq_true, List.mem_range, Classical.not_forall, Bool.not_eq_false]
    constructor
    · rintro ⟨i, low, taken⟩
      exact ⟨_, by omega, by omega, taken⟩
    · rintro ⟨m, low, high, taken⟩
      exact ⟨m - (s.me.wbase + s.me.wsize), by omega, by rw [Nat.add_sub_cancel' low]; exact taken⟩
  rw [steps, not_or, Classical.not_and_iff_not_or_not, Nat.not_le, Nat.not_le]

/-- The traps of PHASE, in their order. -/
theorem phaseTrap_cases (k : Nat) : phaseTrap k 0 (opened s) =
    if 0 < s.me.barLeft then some ⟨0x22, BitVec.ofNat 64 k⟩ else
    if s.me.wsize < k ∧ (12 < s.me.wbase + k ∨
      (List.range (k - s.me.wsize)).any (fun i => s.stepTaken (s.me.wbase + s.me.wsize + i)) = true) then some ⟨0x23, BitVec.ofNat 64 k⟩
    else if k < s.me.wsize ∧ s.tilePast (k * stepBytes) = true then some ⟨0x23, BitVec.ofNat 64 k⟩ else regionTrap 0 s := by
  have region : regionTrap 0 (opened s) = regionTrap 0 s := by rw [regionTrap, regionTrap, inRegion_opened]
  have bar : (opened s).me.barLeft = s.me.barLeft := by rw [me_opened]
  have size : (opened s).me.wsize = s.me.wsize := by rw [me_opened]
  have base : (opened s).me.wbase = s.me.wbase := by rw [me_opened]
  simp only [phaseTrap, stepTaken_opened, tilePast_opened, region, bar, size, base]

theorem phaseTrap_of_bar {k : Nat} (bar : 0 < s.me.barLeft) : phaseTrap k 0 (opened s) = some ⟨0x22, BitVec.ofNat 64 k⟩ := by
  rw [phaseTrap_cases, if_pos bar]

theorem phaseTrap_of_fits {k : Nat} (bar : s.me.barLeft = 0) (fits : PhaseFits k s) : phaseTrap k 0 (opened s) = regionTrap 0 s := by
  obtain ⟨gain, lose⟩ := fits
  have tiles : ¬(k < s.me.wsize ∧ s.tilePast (k * stepBytes) = true) := fun h =>
    lose.elim (Nat.not_le.2 h.1) fun no => Bool.false_ne_true (no.symm.trans h.2)
  rw [phaseTrap_cases, if_neg (by omega), if_neg (gain_refused.not.2 (not_not.2 gain)), if_neg tiles]

theorem phaseTrap_of_unfit {k : Nat} (bar : s.me.barLeft = 0) (unfit : ¬PhaseFits k s) :
    phaseTrap k 0 (opened s) = some ⟨0x23, BitVec.ofNat 64 k⟩ := by
  rw [phaseTrap_cases, if_neg (by omega)]
  by_cases gain : k ≤ s.me.wsize ∨ (s.me.wbase + k ≤ 12
      ∧ ∀ m, s.me.wbase + s.me.wsize ≤ m → m < s.me.wbase + k → s.stepTaken m = false)
  · have lose : ¬(s.me.wsize ≤ k ∨ s.tilePast (k * stepBytes) = false) := fun h => unfit ⟨gain, h⟩
    rw [not_or, Bool.not_eq_false, Nat.not_le] at lose
    rw [if_neg (gain_refused.not.2 (not_not.2 gain)), if_pos lose]
  · rw [if_pos (gain_refused.2 gain)]

/-- The window after a PHASE to k steps from one of w. -/
def phasedTo (k w : Nat) (t : Task) : Task :=
  { t with wsize := k, moveFirst := min k w, moveLen := max k w - min k w, barLeft := 1024 * (max k w - min k w), draining := true }

theorem steady_phasedTo (k w : Nat) : Steady (phasedTo k w) :=
  ⟨fun _ _ _ _ _ _ _ => rfl, fun _ => rfl, fun _ => rfl, fun _ => rfl, fun _ => rfl⟩

theorem phased_of_ne {k : Nat} {t : Task} (h : k ≠ t.wsize) : t.phased k = phasedTo k t.wsize t :=
  if_neg (by omega)

theorem wsize_opened (s : State) : (opened s).me.wsize = s.me.wsize := by rw [me_opened]

/-- A PHASE to the size the window has changes nothing. -/
theorem phase_same (h : n.toNat = s.me.wsize) : (opened s).phase n.toNat = opened s := by
  have same : (opened s).me.phased n.toNat = (opened s).me := by
    rw [Task.phased]
    exact if_pos (by rw [wsize_opened]; omega)
  rw [State.phase, if_neg (by rw [wsize_opened]; omega)]
  show (opened s).modMe (Task.phased n.toNat) = opened s
  rw [opened_modMe, same, me_opened]
  exact (opened_eq s).symm

/-- A PHASE to a larger window. -/
theorem phase_gains (h : s.me.wsize < n.toNat) : (opened s).phase n.toNat = (opened s).modMe (phasedTo n.toNat s.me.wsize) := by
  rw [State.phase, if_neg (by rw [wsize_opened]; omega)]
  refine modMe_congr ?_
  rw [phased_of_ne (by rw [wsize_opened]; omega), wsize_opened]

/-- The memory without the steps a smaller window gives up (R173). -/
def givenUp (k : Nat) (s : State) : Memory :=
  s.mem.filter fun e => !(decide (nearBase s.cur.coreRef + (s.me.wbase + k) * stepBytes ≤ e.1) &&
    decide (e.1 < nearBase s.cur.coreRef + (s.me.wbase + k) * stepBytes + (s.me.wsize - k) * stepBytes))

/-- A PHASE to a smaller window discards what it gives up (R173). -/
theorem phase_loses (h : n.toNat < s.me.wsize) : (opened s).phase n.toNat =
    ({ opened s with mem := givenUp n.toNat s } : State).modMe (phasedTo n.toNat s.me.wsize) := by
  have moved : (opened s).modMe (Task.phased n.toNat) = (opened s).modMe (phasedTo n.toNat s.me.wsize) := by
    refine modMe_congr ?_
    rw [phased_of_ne (by rw [wsize_opened]; omega), wsize_opened]
  have task : ((opened s).modMe (phasedTo n.toNat s.me.wsize)).task s.cur = phasedTo n.toNat s.me.wsize (opened s).me := State.me_modMe ..
  have base : (opened s).me.wbase = s.me.wbase := by rw [me_opened]
  rw [State.phase, if_pos (by rw [wsize_opened]; exact h), moved]
  show ((opened s).modMe (phasedTo n.toNat s.me.wsize)).wipeMoving s.cur = _
  rw [State.wipeMoving, task]
  simp only [Task.movingRange, phasedTo, base, Nat.min_eq_left (Nat.le_of_lt h), Nat.max_eq_right (Nat.le_of_lt h)]
  rfl

/-- Settles O39: generators step, hints move copies of their line alone, and PHASE moves the window. -/
theorem generatorsHintsAndPhase : Obligations.GeneratorsHintsAndPhase := by
  intro g a ag field count n s
  refine ⟨fun r => ⟨?_, ?_, ⟨fun nothing i hi => ?_, fun line gen here => ⟨pref_asks r here, ?_, inval_eq_clean r here, fun free => ?_⟩⟩⟩,
    fun r => ⟨fun fits outside => ⟨fun same => ?_, fun gains => ?_, fun loses => ?_⟩, fun fits inside => ?_, fun unfit => ?_⟩,
    fun may guard bar => ?_⟩
  · refine (bare_any s rfl rfl rfl rfl rfl rfl : Bare (semAgset g a ag field) s).changesOwn rfl r rfl rfl rfl ?_ (steady_setAg ..)
    refine modMe_congr (u := opened s)
      (f := fun t => t.setAg ag.toNat ((t.ag ag.toNat).setField field.toNat ((opened s).sreg a))) ?_
    simp only [ag_opened, sreg_opened]
  · refine (bare_any s rfl rfl rfl rfl rfl rfl : Bare (semAgstep g ag count) s).changesOwn rfl r rfl rfl rfl ?_ (steady_setAg ..)
    refine modMe_congr (u := opened s) (f := fun t => t.setAg ag.toNat (((opened s).me.ag ag.toNat).steps count.toNat)) ?_
    simp only [ag_opened]
  · simp only [List.mem_cons, List.not_mem_nil, or_false] at hi
    rcases hi with rfl | rfl | rfl
    · exact hint_nothing bare_pref rfl r rfl rfl rfl (by simp only [semPref, nothing])
    · exact hint_nothing bare_clean rfl r rfl rfl rfl (by simp only [semClean, nothing])
    · exact hint_nothing bare_inval rfl r rfl rfl rfl (by simp only [semInval, nothing])
  · have eff : (semClean g ag).eff (opened s) (opened s) = (opened s).tookFree.cleanLine (opened s).tookFree.cur.coreRef line := by
      simp only [semClean, here] <;> rfl
    obtain ⟨t, next, frame, mine, bytes, l1, kept⟩ := hint_completes (i := .clean g ag) bare_clean rfl r rfl rfl rfl eff (hinted_cleanLine ..)
    refine ⟨t, next, frame, mine, bytes, by rw [l1]; exact cleaned_dirty .., fun l hl at' right => ?_, fun l found => kept l ?_⟩
    · rw [l1] at hl
      exact not_dirty_of_cleaned hl at' right
    · rw [← found]
      exact congrArg (fun p => s.here.l1.find? p) (funext fun l => (holds_write l line).symm)
  · have eff : (semInval g ag).eff (opened s) (opened s) = (opened s).tookFree.dropLine (opened s).tookFree.cur.coreRef line := by
      have kept : ((opened s).core (opened s).cur.coreRef).keepsLine line = false := (keepsLine_opened s line).trans free
      simp only [semInval, here, kept, Bool.false_eq_true, if_false] <;> rfl
    exact hint_completes (i := .inval g ag) bare_inval rfl r rfl rfl rfl eff (hinted_dropLine ..)
  · have trap : (semPhase g n).trap 0 (opened s) = none := (phaseTrap_of_fits r.quiet.bar fits).trans (by simp [regionTrap, outside])
    exact bare_phase.changes (f := id) rfl r rfl trap rfl ((phase_same same).trans (modMe_no_results s).symm) steady_id (by simp)
  · have trap : (semPhase g n).trap 0 (opened s) = none := (phaseTrap_of_fits r.quiet.bar fits).trans (by simp [regionTrap, outside])
    exact bare_phase.changesOwn rfl r rfl trap rfl (phase_gains gains) (steady_phasedTo ..)
  · have trap : (semPhase g n).trap 0 (opened s) = none := (phaseTrap_of_fits r.quiet.bar fits).trans (by simp [regionTrap, outside])
    refine bare_phase.sparesThen (f := phasedTo n.toNat s.me.wsize) rfl r rfl trap rfl ?_ (spares_mem (opened s) (givenUp n.toNat s)) (steady_phasedTo ..)
      (by simp) (fun _ _ h => h) (fun _ _ h => congrArg (fun x : State => { x with mem := [] }) h) fun t only b => ?_
    · refine (phase_loses loses).trans (modMe_congr ?_)
      simp only [List.append_nil]
      rfl
    · exact (congrArg (fun m : Memory => m.byte b) (congrArg State.mem only.rest : t.mem = givenUp n.toNat s)).trans (Memory.byte_wipe ..)
  · exact bare_phase.traps rfl r.may r.guard rfl ((phaseTrap_of_fits r.quiet.bar fits).trans (by simp [regionTrap, inside]))
  · exact bare_phase.traps rfl r.may r.guard rfl ((phaseTrap_of_unfit r.quiet.bar unfit).trans (by rw [BitVec.ofNat_toNat]))
  · exact bare_phase.traps rfl may guard rfl ((phaseTrap_of_bar bar).trans (by rw [BitVec.ofNat_toNat]))

end

end Sys2Proof

namespace Sys2Proof

open Machine

/-! ### What a store changes (R164, R165) -/

theorem leBytes_length (n v : Nat) : (leBytes n v).length = n := by
  induction n generalizing v with
  | zero => rfl
  | succ n ih => rw [leBytes, List.length_cons, ih]

/-- A row of a register has at most its bytes. -/
theorem rowBytes_length_le (w : Nat) (v : VReg) (i : Nat) : (rowBytes w v i).length ≤ 64 * w := by
  have each : ∀ l : List W32, (l.flatMap fun c => leBytes w c.toNat).length = l.length * w := fun l => by
    rw [List.length_flatMap, List.map_congr_left fun c _ => leBytes_length w c.toNat, List.map_const', List.sum_replicate, smul_eq_mul]
  rw [rowBytes, each]
  exact Nat.mul_le_mul_right w (List.length_take_le ..)

/-- A module as a store sees it: beside what every access changes, and memory. -/
def moduleBesideStore (x : State) : State := { moduleBesideLines x with mem := [] }

theorem unaccessed_store : Unaccessed moduleBesideStore := ⟨fun _ _ => rfl, fun _ _ => rfl, fun _ _ => rfl, fun _ _ => rfl, fun _ _ => rfl⟩

/-- What a store changes: what every access does, its task's outstanding remote stores, and memory where `within` says. -/
structure Stored (within : Nat → Prop) (s t : State) : Prop extends Frame coreBesideLines moduleBesideStore s t where
  cur : t.cur = s.cur
  own : ∃ far, t.task s.cur = { s.task s.cur with remoteStores := (s.task s.cur).remoteStores ++ far }
  dies : ∀ d, dieBesideLines (t.die d) = dieBesideLines (s.die d)
  mem : ∀ a, ¬within a → t.mem.byte a = s.mem.byte a

section
variable {within : Nat → Prop} {s t u : State}

theorem Accessed.stored (h : Accessed moduleBesideStore s t) (mem : t.mem = s.mem) : Stored within s t :=
  ⟨h.toFrame, h.cur, ⟨[], by rw [h.own, List.append_nil]⟩, h.dies, fun _ _ => by rw [mem]⟩

theorem Stored.refl (s : State) : Stored within s s := (Accessed.refl _ s).stored rfl

theorem Stored.trans (h : Stored within s t) (k : Stored within t u) : Stored within s u := by
  obtain ⟨a, ha⟩ := h.own
  obtain ⟨b, hb⟩ := k.own
  rw [h.cur] at hb
  refine ⟨h.toFrame.trans k.toFrame h.cur, k.cur.trans h.cur, ⟨a ++ b, ?_⟩, fun d => (k.dies d).trans (h.dies d),
    fun a ha => (k.mem a ha).trans (h.mem a ha)⟩
  rw [hb, ha]
  simp only [List.append_assoc]

theorem Stored.foldl {α : Type} (step : State → α → State) {r : TaskRef} {l : List α}
    (each : ∀ t a, t.cur = r → a ∈ l → Stored within t (step t a)) (s : State) (cur : s.cur = r) : Stored within s (l.foldl step s) := by
  induction l generalizing s with
  | nil => exact .refl s
  | cons a l ih =>
    have first := each s a cur (List.mem_cons_self ..)
    exact first.trans (ih (fun t b ht hb => each t b ht (List.mem_cons_of_mem _ hb)) _ (first.cur.trans cur))

end

section
variable {ms : State → State} (hms : Unaccessed ms) (s : State)
include hms

theorem accessed_modPav (die router : Nat) (f : Pavilion → Pavilion) : Accessed ms s (s.modPav die router f) :=
  .modDie s die (fun d => { d with pavs := Tbl.set Pavilion.reset d.pavs router (f (d.pav router)) }) rfl (hms.dies ..)

/-- A request of a task leaves by its die's Gatehouse (R338). -/
theorem accessed_sendReq (r : TaskRef) (tok : Option Nat) (home : Nat) (q : RemoteReq) : Accessed ms s (s.sendReq r tok home q).1 := by
  have numbered : ∀ n, Accessed ms s (s.modGate r.die fun g => { g with sendSeq := Tbl.set 0 g.sendSeq home n }) := fun n =>
    .modDie s r.die (fun d => { d with gate := { d.gate with sendSeq := Tbl.set 0 d.gate.sendSeq home n } }) rfl (hms.dies ..)
  have left : ∀ (u : State) l q', Accessed ms u (({ u with sent := l } : State).transmit r.die home q') := fun u l q' => by
    have listed : Accessed ms u { u with sent := l } := .of_cores rfl rfl (hms.sent ..) rfl
    unfold State.transmit State.output
    exact listed.trans (accessed_modPav hms { u with sent := l } ..)
  exact (numbered _).trans (left _ _ _)

/-- A write performed at a time (R248). -/
theorem accessed_mark (time : W64) : Accessed ms s (s.mark s.cur.coreRef time) := by
  have core : Accessed ms s (s.modCore s.cur.coreRef fun k => { k with hwm := tmax k.hwm time }) := .modCore s _ rfl rfl (hms.cores ..)
  have die : ∀ u : State, Accessed ms u (u.modDie s.cur.coreRef.die fun d => { d with hwm := tmax d.hwm time }) := fun u =>
    .modDie u _ (fun d => { d with hwm := tmax d.hwm time }) rfl (hms.dies ..)
  have module : ∀ (u : State) n, Accessed ms u { u with hwm := n } := fun u n => .of_cores rfl rfl (hms.hwm ..) rfl
  exact (core.trans (die _)).trans (module _ _)

end

/-- Bytes of a store kept for the region (R206). -/
theorem spares_logBytes (s : State) {c : CoreRef} (hc : c = s.cur.coreRef) (slot a : Nat) (b : List Byte) :
    Spares coreBeside moduleBeside s (s.logBytes c slot a b) := by
  refine .foldl_at _ (fun t i ht => ?_) s _ rfl
  dsimp only
  split
  · exact spares_logFor t (hc.trans (congrArg TaskRef.coreRef ht.symm)) ..
  · exact .refl ..

/-- A store to the window (R158) changes the region's log and memory. -/
theorem spares_writeLocal (s : State) {c : CoreRef} (hc : c = s.cur.coreRef) (slot a : Nat) (b : List Byte) :
    Spares coreBeside (fun x => { moduleBeside x with mem := [] }) s (s.writeLocal c slot a b) :=
  ((spares_logBytes s hc slot a b).beside fun _ _ h => h).trans (spares_mem (s.logBytes c slot a b) _)

theorem mem_writeLocal (s : State) {c : CoreRef} (hc : c = s.cur.coreRef) (slot a : Nat) (b : List Byte) :
    (s.writeLocal c slot a b).mem = s.mem.setBytes a b :=
  congrArg (fun m : Memory => m.setBytes a b) (congrArg State.mem (spares_logBytes s hc slot a b).rest :)

/-- What a task's own change of its remote stores leaves. -/
theorem stored_remote {within : Nat → Prop} (s : State) (id : Nat) :
    Stored within s (s.modMe fun t => { t with remoteStores := t.remoteStores ++ [id] }) := by
  have change : OnlyTask s (s.modMe fun t => { t with remoteStores := t.remoteStores ++ [id] }) := OnlyTask.modTask ..
  exact ⟨change.lines.mono (fun _ _ h => h) fun _ _ h => congrArg (fun x : State => { x with mem := [] }) h, rfl,
    ⟨[id], State.me_modMe ..⟩, fun _ => rfl, fun _ _ => rfl⟩

/-- Whether a byte lies in the near part of a store. -/
def nearAt (p : Piece) (a : Nat) : Prop :=
  match p with
  | .near lo n => lo ≤ a ∧ a < lo + n
  | _ => False

/-- One part of a store. -/
theorem stored_writePart {s0 s : State} (cur : s.cur = s0.cur) (time : W64) (p : Piece) (b : List Byte) (short : b.length ≤ p.len) :
    Stored (nearAt p) s (s0.writePart time s p b) := by
  have core : s0.cur.coreRef = s.cur.coreRef := congrArg TaskRef.coreRef cur.symm
  cases p with
  | near a n =>
    have local_ := spares_writeLocal s core s0.cur.slot a b
    have wide := local_.mono (mc' := coreBesideLines) (ms' := moduleBesideStore)
      (fun _ _ h => congrArg (fun c => { c with l1 := [], l1req := [], tlb := [], hwm := 0 }) h)
      fun _ _ h => congrArg (fun x : State => { x with freeCtr := 0, sent := [], hwm := 0, dies := [] }) h
    refine ⟨wide.toFrame, wide.cur, ⟨[], by rw [List.append_nil]; exact wide.own⟩,
      fun d => (congrArg (fun x : State => dieBesideLines (x.die d)) local_.rest :), fun x out => ?_⟩
    have bytes : (s0.writePart time s (.near a n) b).mem = s.mem.setBytes a b := mem_writeLocal s core s0.cur.slot a b
    rw [bytes]
    refine Memory.byte_setBytes_out _ _ _ _ ?_
    have short' : b.length ≤ n := short
    have out' : ¬(a ≤ x ∧ x < a + n) := out
    omega
  | home o n gen =>
    exact (accessed_modHere unaccessed_store s (fun c => { c with l1 := c.l1.map (L1Line.stored o b time) }) (fun _ => rfl)
      fun _ => rfl).stored rfl
  | far va pa n gen =>
    have sent := accessed_sendReq unaccessed_store s s0.cur none (paModule pa) (storeReq s0.me.job pa gen s.me.time.toNat b)
    exact (sent.stored rfl).trans (stored_remote ..)

theorem Stored.mono {within within' : Nat → Prop} {s t : State} (h : Stored within s t) (w : ∀ a, within a → within' a) : Stored within' s t :=
  ⟨h.toFrame, h.cur, h.own, h.dies, fun a ha => h.mem a fun k => ha (w a k)⟩

/-- The parts of a row in turn. -/
theorem stored_writeParts {within : Nat → Prop} {s0 : State} (time : W64) : ∀ (l : List Piece) (b : List Byte) (s : State), s.cur = s0.cur →
    (∀ p ∈ l, ∀ a, nearAt p a → within a) → Stored within s (State.writeParts s0 time l b s)
  | [], _, s, _, _ => .refl s
  | p :: rest, b, s, cur, near => by
    have first : Stored within s (s0.writePart time s p (b.take p.len)) :=
      (stored_writePart cur time p _ (List.length_take_le ..)).mono (near p (List.mem_cons_self ..))
    exact first.trans (stored_writeParts time rest _ _ (first.cur.trans cur) fun q hq => near q (List.mem_cons_of_mem _ hq))

end Sys2Proof

namespace Sys2Proof

open Machine

/-! ### The plan of a store (R160) -/

/-- A byte of the window that a row names. -/
def inRow (s : State) (r : Row) (a : Nat) : Prop :=
  isScratch r.ea = true ∧ windowAddr s.cur.coreRef s.me (r.ea.toNat % 2 ^ 22) ≤ a ∧
    a < windowAddr s.cur.coreRef s.me (r.ea.toNat % 2 ^ 22) + r.size

/-- The near part of a row, if it has one, is the row's bytes of the window. -/
theorem near_of_planRow {s : State} {n : Nat} {write : Bool} {r : Row} {e : Plan} (h : s.planRow n write r = .ok e) :
    ∀ p ∈ e.parts, ∀ a, nearAt p a → inRow s r a := by
  unfold State.planRow at h
  dsimp only at h
  split at h
  · next scratch =>
    obtain rfl := Except.ok.inj h
    intro p hp a ha
    obtain rfl := List.mem_singleton.1 hp
    exact ⟨scratch, ha⟩
  split at h
  · cases h
  split at h
  · cases h
  split at h
  · obtain rfl := Except.ok.inj h
    intro p hp a ha
    obtain rfl := List.mem_singleton.1 hp
    exact ha.elim
  split at h
  · obtain rfl := Except.ok.inj h
    intro p hp a ha
    obtain ⟨i, -, rfl⟩ := List.mem_map.1 hp
    exact ha.elim
  · cases h

theorem near_of_planRows {s : State} {write : Bool} : ∀ (n : Nat) (rows : List Row) (l : List Plan), s.planRows write n rows = .ok l →
    ∀ e ∈ l, ∀ p ∈ e.parts, ∀ a, nearAt p a → ∃ r ∈ rows, inRow s r a
  | _, [], l, h => by
    obtain rfl := Except.ok.inj h
    exact fun e he => absurd he (List.not_mem_nil)
  | n, r :: rest, l, h => by
    unfold State.planRows at h
    split at h
    · cases h
    split at h
    · cases h
    next p hp =>
    split at h
    · cases h
    next l' hl =>
    obtain rfl := Except.ok.inj h
    intro e he q hq a ha
    rcases List.mem_cons.1 he with rfl | he
    · exact ⟨r, List.mem_cons_self .., near_of_planRow hp q hq a ha⟩
    · obtain ⟨r', hr, at'⟩ := near_of_planRows (n + 1) rest l' hl e he q hq a ha
      exact ⟨r', List.mem_cons_of_mem _ hr, at'⟩

/-- An access whose checks pass and that waits for nothing has a plan. -/
theorem plan_of_ready {rows : List Row} {s : State} (h : StoreReady rows s) : ∃ l, (opened s).plan true rows = .ok l := by
  cases plan : (opened s).plan true rows with
  | ok l => exact ⟨l, rfl⟩
  | error e =>
    have checks := h.checks
    have there := h.there
    rw [State.accessTrap, plan] at checks
    rw [State.accessWait, plan] at there
    cases walk : e.isWalk <;> simp [walk] at checks there

/-! ### What the rows of a store leave -/

/-- The rows of a store written at a time. -/
def rowsWritten (s0 : State) (time : W64) (l : List Plan) (data : List (List Byte)) : State :=
  (l.zip data).foldl (fun s e => State.writeParts s0 time e.1.parts e.2 s) (timed s0 time)

/-- The lines of a plan. -/
def planLines (l : List Plan) : List Nat := ((l.flatMap Plan.parts).flatMap Piece.lines).map Prod.fst

theorem storeRows_ok {s0 : State} {rows : List Row} {data : List (List Byte)} {l : List Plan} (plan : s0.plan true rows = .ok l) :
    s0.storeRows s0 rows data =
      ((if planLines l = [] then rowsWritten s0 (s0.storeTime (planLines l)) l data
        else (rowsWritten s0 (s0.storeTime (planLines l)) l data).mark s0.cur.coreRef (s0.storeTime (planLines l))).modHere
          (Core.letGo s0.cur.slot)).keepPlans l := by
  rw [State.storeRows, plan]
  rfl

/-- The state in which a bundle issues, with its task's time set. -/
theorem timed_cur (s : State) (time : W64) : (timed s time).cur = s.cur := rfl

theorem stored_rowsWritten {s0 : State} {rows : List Row} {l : List Plan} (plan : s0.plan true rows = .ok l) (time : W64)
    (data : List (List Byte)) : Stored (fun a => ∃ r ∈ rows, inRow s0 r a) (timed s0 time) (rowsWritten s0 time l data) :=
  .foldl (r := s0.cur) _ (fun t e ht he => stored_writeParts time e.1.parts e.2 t ht
    fun p hp a ha => near_of_planRows s0.freeCtr rows l plan e.1 (List.of_mem_zip he).1 p hp a ha) (timed s0 time) rfl

/-- Keeping translations leaves memory. -/
theorem mem_keepPlans (s : State) (l : List Plan) : (s.keepPlans l).mem = s.mem := by
  have cached : ∀ (es : List TlbEntry) (t : State), (es.foldl (fun t e => t.cacheTlb t.cur.coreRef e) t).mem = t.mem := by
    intro es
    induction es with
    | nil => exact fun _ => rfl
    | cons e es ih => exact fun t => ih (t.cacheTlb t.cur.coreRef e)
  exact cached _ _

/-- What a store leaves, apart from its generator. -/
theorem stored_storeRows {s0 : State} {rows : List Row} {l : List Plan} (plan : s0.plan true rows = .ok l) (data : List (List Byte)) :
    Stored (fun a => ∃ r ∈ rows, inRow s0 r a) (timed s0 (s0.storeTime (planLines l))) (s0.storeRows s0 rows data) := by
  have written := stored_rowsWritten plan (s0.storeTime (planLines l)) data
  rw [storeRows_ok plan]
  generalize rowsWritten s0 (s0.storeTime (planLines l)) l data = w at written ⊢
  have cur : w.cur = s0.cur := written.cur
  have marked : Stored (fun a => ∃ r ∈ rows, inRow s0 r a) w
      (if planLines l = [] then w else w.mark s0.cur.coreRef (s0.storeTime (planLines l))) := by
    split
    · exact .refl w
    · rw [← cur]
      exact (accessed_mark unaccessed_store w _).stored rfl
  generalize (if planLines l = [] then w else w.mark s0.cur.coreRef (s0.storeTime (planLines l))) = v at marked ⊢
  have loose : Accessed moduleBesideStore v (v.modHere (Core.letGo s0.cur.slot)) :=
    accessed_modHere unaccessed_store v _ (fun _ => rfl) fun _ => rfl
  have kept := accessed_keepPlans unaccessed_store (v.modHere (Core.letGo s0.cur.slot)) l
  have mem : ((v.modHere (Core.letGo s0.cur.slot)).keepPlans l).mem = (v.modHere (Core.letGo s0.cur.slot)).mem :=
    mem_keepPlans ..
  exact (written.trans marked).trans ((loose.stored rfl).trans (kept.stored mem))

/-! ### Stores as slots -/

/-- The generator of a store stepped when P is set (R164, R165). -/
def stepped (s : State) (ag : BitVec 3) (post : BitVec 1) (n : Nat) (t : Task) : Task :=
  if post = 1 then t.setAg ag.toNat ((s.me.ag ag.toNat).steps n) else t

theorem steady_stepped (s : State) (ag : BitVec 3) (post : BitVec 1) (n : Nat) : Steady (stepped s ag post n) := by
  unfold stepped
  by_cases h : post = 1 <;> simp only [h, if_true, if_false] <;>
    exact ⟨fun _ _ _ _ _ _ _ => rfl, fun _ => rfl, fun _ => rfl, fun _ => rfl, fun _ => rfl⟩

/-- A task after a store at a time, with more remote stores outstanding. -/
def storing (time : W64) (stores : List Nat) (t : Task) : Task := { t with time := time, remoteStores := stores }

/-- A store whose checks pass, whose lines are there and whose vector operand is there, is ready. -/
theorem ready_store {g : Guard} {rows : State → List Row} {src : List Nat} {data : State → List (List Byte)} {ag : BitVec 3}
    {post : BitVec 1} {n : Nat} {s : State} {rs : List Row} (run : VecRuns src none s) (guard : s.me.guardOn g = true)
    (opening : rows (opened s) = rs) (ready : StoreReady rs s) : Ready (semStore g rows src data ag post n) s := by
  generalize hm : semStore g rows src data ag post n = m
  have acts : m.acts (opened s) = true := by rw [← hm]; exact acts_opened guard
  have hs : m.vsrc = src := by rw [← hm]; rfl
  have named : ∀ q, m.takes (opened s) q = true → 30 + q ∈ src := by
    intro q hq
    simp only [SlotSem.takes, hs, Bool.and_eq_true, List.contains_iff_mem] at hq
    exact hq.2
  obtain ⟨trap, wait⟩ := queueTrap_none (m := m) (s := opened s) 0
    (fun hq => by rw [fq0_opened, inRegion_opened]; exact run.queue0 (named 0 hq))
    (fun hq => by rw [fq1_opened, inRegion_opened]; exact run.queue1 (named 1 hq))
  have own : m.trap 0 (opened s) = none := by
    rw [← hm]
    show ((storeRegionTrap 0 (rows (opened s)) (opened s)).orElse fun _ => (opened s).accessTrap true false (rows (opened s))) = none
    rw [opening, ready.region]
    exact ready.checks
  have hold : m.wait (opened s) s = none := by
    rw [← hm]
    show (opened s).accessWait s true false (rows (opened s)) = none
    rw [opening]
    exact ready.there
  have mark : m.mark = false := by rw [← hm]; rfl
  have check : m.execTrap 0 (opened s) = none := by simp [SlotSem.execTrap, trap, own]
  have sources : (src.any fun v => !s.me.backed v && !decide (v = 30) && !decide (v = 31)) = false := by
    rw [List.any_eq_false]
    intro v hv
    rcases run.sources v hv with b | rfl | rfl <;> simp [*]
  refine ⟨run.may, ?_, by rw [← hm]; simp [SlotSem.isDenied, semStore], ?_, ?_⟩
  · rw [← hm]
    simp [SlotSem.isIllegal, semStore, sources]
  · rw [atIssue_opened m s mark]
    have funit : m.funit = false := by rw [← hm]; rfl
    simp only [stallAll, List.foldl_cons, List.foldl_nil, atPeak_opened (m := m) (by rw [← hm]; rfl), SlotSem.stall, check, funit, wait]
    simp [acts, hold]
  · rw [atIssue_opened m s mark, check]

/-- A ready store: the state its rows leave, with the generator stepped and the queues among its sources popped. -/
theorem store_next {i : Instr} {g : Guard} {rows : State → List Row} {src : List (BitVec 5)} {data : State → List (List Byte)}
    {ag : BitVec 3} {post : BitVec 1} {n : Nat} {s A : State} {rs : List Row} {f : Task → Task}
    (hx : exec i s = issueSlot (semStore g rows (src.map BitVec.toNat) data ag post n) s) (run : Runs g s)
    (ready : Ready (semStore g rows (src.map BitVec.toNat) data ag post n) s) (opening : rows (opened s) = rs)
    (hA : (opened s).storeRows (opened s) rs (data (opened s)) = A) (cur : A.cur = s.cur) (me : A.me = f (opened s).me) (hf : Steady f) :
    ∃ t, exec i s = .next t ∧ OnlyTask A t ∧ t.task s.cur = delivered (isLodge s.cur.core) []
      (popTaken (src.contains 30) (src.contains 31) (stepped s ag post n (f (afterBundle (isLodge s.cur.core) s.me)))) := by
  have acts : (semStore g rows (src.map BitVec.toNat) data ag post n).acts (opened s) = true := acts_opened run.guard
  have eff : (semStore g rows (src.map BitVec.toNat) data ag post n).eff (opened s) (opened s) = (opened s).stepAg A ag post n := by
    rw [← hA, ← opening]
    rfl
  have step : OnlyTask A ((opened s).stepAg A ag post n) ∧ ((opened s).stepAg A ag post n).cur = s.cur
      ∧ ((opened s).stepAg A ag post n).me = stepped s ag post n A.me := by
    unfold State.stepAg stepped
    by_cases h : post = 1
    · simp only [h, if_true, ag_opened]
      exact ⟨OnlyTask.modTask .., cur, State.me_modMe ..⟩
    · simp only [h, if_false]
      exact ⟨Frame.refl .., cur, trivial⟩
  obtain ⟨only, cur', mine⟩ := step
  rw [me, State.me, cur'] at mine
  have pend : (stepped s ag post n (f (opened s).me)).pend = s.me.pend ++ [] := by
    rw [(steady_stepped s ag post n).pend, hf.pend, me_opened, List.append_nil]
  obtain ⟨t, next, task, rest⟩ := ready.leaves (f := fun t => stepped s ag post n (f t)) (l := []) run hx rfl rfl eff cur'
    (by rw [mine, ← pend]) ((steady_stepped s ag post n).comp hf) (by simp)
  obtain ⟨first, second⟩ := takes_names acts (rfl : (semStore g rows (src.map BitVec.toNat) data ag post n).vsrc = src.map BitVec.toNat)
  rw [first, second] at task
  exact ⟨t, next, only.trans rest, task⟩

end Sys2Proof

namespace Sys2Proof

open Machine

section
variable {i : Instr} {g : Guard} {rows : State → List Row} {src : List (BitVec 5)} {data : State → List (List Byte)} {ag : BitVec 3}
  {post : BitVec 1} {n : Nat} {s : State} {rs : List Row} {ds : List (List Byte)}

/-- A byte of a row in the window. -/
def at22 (s : State) (r : Row) : Nat := windowAddr s.cur.coreRef s.me (r.ea.toNat % 2 ^ 22)

theorem inRow_opened (r : Row) (a : Nat) : inRow (opened s) r a ↔ isScratch r.ea = true ∧ at22 s r ≤ a ∧ a < at22 s r + r.size := by
  have base : windowAddr (opened s).cur.coreRef (opened s).me (r.ea.toNat % 2 ^ 22) = at22 s r := by
    rw [me_opened]
    rfl
  rw [inRow, base]

theorem steady_storing (time : W64) (stores : List Nat) : Steady (storing time stores) :=
  ⟨fun _ _ _ _ _ _ _ => rfl, fun _ => rfl, fun _ => rfl, fun _ => rfl, fun _ => rfl⟩

/-- The task after the rows of a store: its time, and the requests it has sent. -/
theorem storeRows_me {l : List Plan} (plan : (opened s).plan true rs = .ok l) (ds : List (List Byte)) : ∃ far,
    ((opened s).storeRows (opened s) rs ds).me =
      storing ((opened s).storeTime (planLines l)) (s.me.remoteStores ++ far) (opened s).me := by
  have stored := stored_storeRows plan ds
  have cur : ((opened s).storeRows (opened s) rs ds).cur = s.cur := stored.cur
  obtain ⟨far, own⟩ := stored.own
  have timedMe : (timed (opened s) ((opened s).storeTime (planLines l))).task (opened s).cur =
      { (opened s).me with time := (opened s).storeTime (planLines l) } := me_timed ..
  rw [timed_cur, timedMe] at own
  refine ⟨far, ?_⟩
  rw [State.me, cur]
  refine own.trans ?_
  rw [me_opened]
  rfl

/-- A store as every store: what may change, its time and the requests it sends. -/
theorem store_lands (hx : exec i s = issueSlot (semStore g rows (src.map BitVec.toNat) data ag post n) s)
    (run : VecRuns (src.map BitVec.toNat) none s) (guard : s.me.guardOn g = true) (opening : rows (opened s) = rs)
    (ready : StoreReady rs s) :
    ∃ t, exec i s = .next t ∧ Frame coreBesideLines (fun x => { moduleBesideLines x with mem := [] }) s t
      ∧ (∀ a, (∀ r ∈ rs, isScratch r.ea = true → ¬(at22 s r ≤ a ∧ a < at22 s r + r.size)) → t.mem.byte a = s.mem.byte a)
      ∧ (∀ die, dieBesideLines (t.die die) = dieBesideLines (s.die die))
      ∧ ∃ far, t.task s.cur = delivered (isLodge s.cur.core) []
          (popTaken (src.contains 30) (src.contains 31) (stepped s ag post n { afterBundle (isLodge s.cur.core) s.me with
            time := (opened s).storeTime (((partsOf ((opened s).plan true rs)).flatMap Piece.lines).map Prod.fst)
            remoteStores := s.me.remoteStores ++ far })) := by
  obtain ⟨l, plan⟩ := plan_of_ready ready
  have stored := stored_storeRows plan (data (opened s))
  have cur : ((opened s).storeRows (opened s) rs (data (opened s))).cur = s.cur := stored.cur
  obtain ⟨far, me⟩ := storeRows_me plan (data (opened s))
  obtain ⟨t, next, only, task⟩ := store_next hx ⟨run.may, run.quiet, guard⟩ (ready_store run guard opening ready) opening rfl cur me
    (steady_storing ..)
  have opening' : OnlyTask s (timed (opened s) ((opened s).storeTime (planLines l))) :=
    (OnlyTask.opened s).trans (OnlyTask.modTask (opened s) fun _ => _)
  have beside : ∀ {a b : State}, OnlyTask a b → Frame coreBesideLines moduleBesideStore a b := fun h =>
    h.lines.mono (fun _ _ h => h) fun _ _ h => congrArg (fun x : State => { x with mem := [] }) h
  refine ⟨t, next, ((beside opening').trans stored.toFrame rfl).trans (beside only) cur, fun a out => ?_, fun d => ?_, far, ?_⟩
  · refine (congrArg (fun x : State => x.mem.byte a) only.rest :).trans (stored.mem a ?_)
    rintro ⟨r, hr, inside⟩
    obtain ⟨scratch, low, high⟩ := (inRow_opened r a).1 inside
    exact out r hr scratch ⟨low, high⟩
  · exact (congrArg (fun x : State => dieBesideLines (x.die d)) only.rest :).trans (stored.dies d)
  · rw [task, plan]
    rfl

/-! ### Stores to the window -/

/-- The state of an instruction of rows in the window: rows are planned as their own parts. -/
theorem inWindow_opened (inside : ∀ r ∈ rs, InWindow s.me r) : ∀ r ∈ rs, InWindow (opened s).me r := fun r hr => by
  rw [me_opened]
  exact ⟨(inside r hr).scratch, (inside r hr).zeros, (inside r hr).inside, (inside r hr).aligned⟩

theorem barLeft_opened (s : State) : (opened s).me.barLeft = s.me.barLeft := by rw [me_opened]

/-- A store of rows in the window has no other checks (R160, R207). -/
theorem storeReady_inWindow (bar : s.me.barLeft = 0) (inside : ∀ r ∈ rs, InWindow s.me r) : StoreReady rs s where
  region := by
    rw [storeRegionTrap, if_neg]
    rw [List.any_eq_true]
    rintro ⟨r, hr, virtual⟩
    rw [(inside r hr).scratch] at virtual
    exact Bool.false_ne_true virtual
  checks := accessTrap_inWindow (inWindow_opened inside) ((barLeft_opened s).trans bar) ..
  there := accessWait_inWindow (inWindow_opened inside) ((barLeft_opened s).trans bar) ..

/-- A core without its tasks, what asks for lines, and what holds them. -/
def coreBesideHeld (c : Core) : Core := { coreBeside c with l1req := [], l1 := c.l1.map fun l => { l with slots := [] } }

/-- A module without its cores, memory, free-value counter and outstanding requests. -/
def moduleBesideHeld (x : State) : State := { moduleBeside x with mem := [], freeCtr := 0, sent := [] }

/-- Rows written to the window in their order. -/
theorem windowWritten {s0 : State} {time : W64} : ∀ (rs : List Row) (ds : List (List Byte)) (u : State), u.cur = s0.cur →
    (∀ e ∈ rs.zip ds, e.2.length ≤ e.1.size) →
    Spares coreBeside (fun x => { moduleBeside x with mem := [] }) u
      (((rs.map (windowPart s0.cur.coreRef s0.me)).zip ds).foldl (fun s e => State.writeParts s0 time e.1.parts e.2 s) u)
    ∧ (((rs.map (windowPart s0.cur.coreRef s0.me)).zip ds).foldl (fun s e => State.writeParts s0 time e.1.parts e.2 s) u).mem =
      (rs.zip ds).foldl (fun m e => m.setBytes (at22 s0 e.1) e.2) u.mem
  | [], _, u, _, _ => ⟨.refl .., rfl⟩
  | _ :: _, [], u, _, _ => ⟨.refl .., rfl⟩
  | r :: rs, d :: ds, u, cur, short => by
    have core : s0.cur.coreRef = u.cur.coreRef := congrArg TaskRef.coreRef cur.symm
    have whole : d.take r.size = d := List.take_of_length_le (short (r, d) (List.mem_cons_self ..))
    have row : State.writeParts s0 time (windowPart s0.cur.coreRef s0.me r).parts d u = u.writeLocal s0.cur.coreRef s0.cur.slot (at22 s0 r) d :=
      congrArg (fun b => u.writeLocal s0.cur.coreRef s0.cur.slot (at22 s0 r) b) whole
    have first := spares_writeLocal u core s0.cur.slot (at22 s0 r) d
    obtain ⟨rest, mem⟩ := windowWritten rs ds (u.writeLocal s0.cur.coreRef s0.cur.slot (at22 s0 r) d) (first.cur.trans cur)
      fun e he => short e (List.mem_cons_of_mem _ he)
    simp only [List.map_cons, List.zip_cons_cons, List.foldl_cons, row]
    exact ⟨first.trans rest, by rw [mem, mem_writeLocal u core]⟩

/-- What rows in the window leave, apart from the generator. -/
theorem storeRows_inWindow (bar : s.me.barLeft = 0) (inside : ∀ r ∈ rs, InWindow s.me r) (short : ∀ e ∈ rs.zip ds, e.2.length ≤ e.1.size) :
    Spares coreBesideHeld moduleBesideHeld (timed (opened s) (opened s).me.time) ((opened s).storeRows (opened s) rs ds)
      ∧ ((opened s).storeRows (opened s) rs ds).mem = (rs.zip ds).foldl (fun m e => m.setBytes (at22 s e.1) e.2) s.mem
      ∧ ((opened s).storeRows (opened s) rs ds).sent = (s.dropLoads s.cur (some walkTok)).sent := by
  have plan := plan_inWindow (inWindow_opened inside) ((barLeft_opened s).trans bar) true
  have lines : planLines (rs.map (windowPart (opened s).cur.coreRef (opened s).me)) = [] := by
    have none := lines_inWindow (inWindow_opened inside) ((barLeft_opened s).trans bar) true
    rw [plan] at none
    exact congrArg (List.map Prod.fst) none
  have time : (opened s).storeTime [] = (opened s).me.time := rfl
  have base : at22 (opened s) = at22 s := by
    funext r
    rw [at22, me_opened]
    rfl
  obtain ⟨written, mem⟩ := windowWritten (s0 := opened s) (time := (opened s).me.time) rs ds (timed (opened s) (opened s).me.time) rfl short
  have entries : (rs.map (windowPart (opened s).cur.coreRef (opened s).me)).filterMap Plan.entry = [] := by
    rw [List.filterMap_map]
    exact List.filterMap_eq_nil_iff.2 fun _ _ => rfl
  rw [storeRows_ok plan, lines, if_pos rfl, time, State.keepPlans, entries]
  rw [base] at mem
  unfold rowsWritten
  generalize ((rs.map (windowPart (opened s).cur.coreRef (opened s).me)).zip ds).foldl
    (fun s_1 e => State.writeParts (opened s) (opened s).me.time e.1.parts e.2 s_1) (timed (opened s) (opened s).me.time) = w at written mem ⊢
  have wide : Spares coreBesideHeld moduleBesideHeld (timed (opened s) (opened s).me.time) w :=
    written.mono (fun _ _ h => congrArg (fun c : Core => { c with l1req := [], l1 := c.l1.map fun l : L1Line => { l with slots := [] } }) h)
      fun _ _ h => congrArg (fun x : State => { x with freeCtr := 0, sent := [] }) h
  have held : ∀ c, coreBesideHeld (Core.letGo s.cur.slot c) = coreBesideHeld c := fun c => by
    unfold coreBesideHeld Core.letGo
    simp only [coreBeside, List.map_map]
    rfl
  have loose : Spares coreBesideHeld moduleBesideHeld w (w.modHere (Core.letGo s.cur.slot)) := .modCore w _ rfl (held _) rfl
  have kept : ∀ v : State, Spares coreBesideHeld moduleBesideHeld v ((v.dropLoads v.cur (some walkTok)).tookFree
      (rs.map (windowPart (opened s).cur.coreRef (opened s).me)).length) := fun v => .of_cores _ rfl rfl rfl
  have cur : w.cur = s.cur := wide.cur
  have sent : w.sent = s.sent := (congrArg State.sent written.rest :)
  refine ⟨wide.trans (loose.trans (kept _)), mem, ?_⟩
  show (w.dropLoads w.cur (some walkTok)).sent = _
  rw [State.dropLoads, State.dropLoads, sent, cur]

/-- A store to the window. -/
theorem store_inWindow (hx : exec i s = issueSlot (semStore g rows (src.map BitVec.toNat) data ag post n) s)
    (run : VecRuns (src.map BitVec.toNat) none s) (guard : s.me.guardOn g = true) (opening : rows (opened s) = rs)
    (hd : data (opened s) = ds) (inside : ∀ r ∈ rs, InWindow s.me r) (short : ∀ e ∈ rs.zip ds, e.2.length ≤ e.1.size) :
    ∃ t, exec i s = .next t ∧ t.mem = (rs.zip ds).foldl (fun m e => m.setBytes (at22 s e.1) e.2) s.mem
      ∧ (∀ a, (∀ r ∈ rs, ¬(at22 s r ≤ a ∧ a < at22 s r + r.size)) → t.mem.byte a = s.mem.byte a)
      ∧ Frame coreBesideHeld moduleBesideHeld s t ∧ t.sent = (s.dropLoads s.cur (some walkTok)).sent
      ∧ t.task s.cur = delivered (isLodge s.cur.core) []
          (popTaken (src.contains 30) (src.contains 31) (stepped s ag post n (afterBundle (isLodge s.cur.core) s.me))) := by
  subst hd
  have ready := storeReady_inWindow run.quiet.bar inside
  obtain ⟨spares, mem, sent⟩ := storeRows_inWindow run.quiet.bar inside short
  obtain ⟨t', next', -, bytes, -⟩ := store_lands hx run guard opening ready
  have cur : ((opened s).storeRows (opened s) rs (data (opened s))).cur = s.cur := spares.cur
  have me : ((opened s).storeRows (opened s) rs (data (opened s))).me = id (opened s).me := by
    rw [State.me, cur]
    refine spares.own.trans (?_ : (timed (opened s) (opened s).me.time).me = _)
    rw [me_timed]
    rfl
  obtain ⟨t, next, only, task⟩ := store_next hx ⟨run.may, run.quiet, guard⟩ (ready_store run guard opening ready) opening rfl cur me steady_id
  obtain rfl : t = t' := by
    have same := next.symm.trans next'
    injection same
  have opening' : OnlyTask s (timed (opened s) (opened s).me.time) := (OnlyTask.opened s).trans (OnlyTask.modTask (opened s) fun _ => _)
  have beside : ∀ {a b : State}, OnlyTask a b → Frame coreBesideHeld moduleBesideHeld a b := fun h =>
    h.mono (fun _ _ h => congrArg (fun c : Core => { c with l1req := [], l1 := c.l1.map fun l : L1Line => { l with slots := [] } }) h)
      fun _ _ h => congrArg (fun x : State => { x with mem := [], freeCtr := 0, sent := [] }) h
  refine ⟨t, next, (congrArg State.mem only.rest :).trans mem, fun a out => bytes a fun r hr _ => out r hr,
    ((beside opening').trans spares.toFrame rfl).trans (beside only) cur, (congrArg State.sent only.rest :).trans sent, task⟩

/-! ### A store to one line -/

/-- The copies of a core after a store to lines it holds, and memory. -/
theorem storeRows_home {o size e : Nat} {x : Option TlbEntry} {b : List Byte} (short : b.length ≤ size)
    (plan : (opened s).plan true rs = .ok [⟨[.home o size e], x⟩]) :
    ((opened s).storeRows (opened s) rs [b]).mem = s.mem
      ∧ (((opened s).storeRows (opened s) rs [b]).core s.cur.coreRef).l1 =
        (s.here.l1.map (L1Line.stored o b ((opened s).storeTime (linesOf o size)))).map (L1Line.letGo s.cur.slot) := by
  have lines : planLines [⟨[.home o size e], x⟩] = linesOf o size := by
    simp [planLines, Piece.lines, List.map_map, Function.comp_def]
  have written : ∀ time, rowsWritten (opened s) time [⟨[.home o size e], x⟩] [b] =
      (timed (opened s) time).modHere fun c => { c with l1 := c.l1.map (L1Line.stored o b time) } := fun time =>
    congrArg (fun d => (timed (opened s) time).modHere fun c => { c with l1 := c.l1.map (L1Line.stored o d time) })
      (List.take_of_length_le short)
  have old : ∀ time, ((timed (opened s) time).core s.cur.coreRef).l1 = s.here.l1 := fun time => by
    rw [timed, State.setTask, State.putTask]
    exact (congrArg Core.l1 (State.core_modCore ..) :).trans (congrArg Core.l1 (here_opened s) :)
  rw [storeRows_ok plan, lines, written]
  generalize (opened s).storeTime (linesOf o size) = time
  have here : (((timed (opened s) time).modHere fun c => { c with l1 := c.l1.map (L1Line.stored o b time) }).core s.cur.coreRef).l1 =
      s.here.l1.map (L1Line.stored o b time) := by
    refine (congrArg Core.l1 (State.core_modCore (timed (opened s) time) s.cur.coreRef _) :).trans ?_
    rw [← old time]
  have mem : ((timed (opened s) time).modHere fun c => { c with l1 := c.l1.map (L1Line.stored o b time) }).mem = s.mem := rfl
  have cur : ((timed (opened s) time).modHere fun c => { c with l1 := c.l1.map (L1Line.stored o b time) }).cur = s.cur := rfl
  generalize (timed (opened s) time).modHere (fun c => { c with l1 := c.l1.map (L1Line.stored o b time) }) = w at here mem cur ⊢
  have marked : ∀ v, v = (if linesOf o size = [] then w else w.mark (opened s).cur.coreRef time) →
      v.mem = s.mem ∧ (v.core s.cur.coreRef).l1 = s.here.l1.map (L1Line.stored o b time) ∧ v.cur = s.cur := by
    rintro v rfl
    split
    · exact ⟨mem, here, cur⟩
    · refine ⟨mem, (Eq.trans ?_ here), cur⟩
      exact (congrArg Core.l1 (State.core_modCore w s.cur.coreRef fun k => { k with hwm := tmax k.hwm time }) :)
  obtain ⟨mem', here', cur'⟩ := marked _ rfl
  generalize (if linesOf o size = [] then w else w.mark (opened s).cur.coreRef time) = v at mem' here' cur' ⊢
  have kept := congrArg Core.l1 (core_keepPlans (v.modHere (Core.letGo s.cur.slot)) [⟨[.home o size e], x⟩])
  refine ⟨(mem_keepPlans ..).trans mem', ?_⟩
  rw [show (v.modHere (Core.letGo s.cur.slot)).cur = s.cur from cur'] at kept
  refine kept.trans ?_
  rw [State.modHere, cur']
  refine (congrArg Core.l1 (State.core_modCore ..) :).trans ?_
  show ((v.core s.cur.coreRef).l1.map (L1Line.letGo s.cur.slot)) = _
  rw [here']

/-- A store to lines of this module's HBM that the core holds changes its copies alone. -/
theorem store_home {o size e : Nat} {x : Option TlbEntry} {b : List Byte} (hx : exec i s = issueSlot (semStore g rows (src.map BitVec.toNat) data ag post n) s)
    (run : VecRuns (src.map BitVec.toNat) none s) (guard : s.me.guardOn g = true) (opening : rows (opened s) = rs)
    (hd : data (opened s) = [b]) (short : b.length ≤ size) (ready : StoreReady rs s)
    (plan : (opened s).plan true rs = .ok [⟨[.home o size e], x⟩]) :
    ∃ t, exec i s = .next t ∧ t.mem = s.mem
      ∧ (t.core s.cur.coreRef).l1 =
        (s.here.l1.map (L1Line.stored o b ((opened s).storeTime (linesOf o size)))).map (L1Line.letGo s.cur.slot) := by
  have stored := stored_storeRows plan (data (opened s))
  have cur : ((opened s).storeRows (opened s) rs (data (opened s))).cur = s.cur := stored.cur
  obtain ⟨far, me⟩ := storeRows_me plan (data (opened s))
  obtain ⟨t, next, only, -⟩ := store_next hx ⟨run.may, run.quiet, guard⟩ (ready_store run guard opening ready) opening rfl cur me
    (steady_storing ..)
  have core := only.core
  have rest := only.rest
  obtain ⟨mem, l1⟩ := storeRows_home short plan
  rw [cur, hd] at core
  rw [hd] at rest
  exact ⟨t, next, (congrArg State.mem rest :).trans mem, (congrArg Core.l1 core :).trans l1⟩

end

/-! ### O38 -/

theorem scalarRows_opened (ag : BitVec 3) (off : BitVec 8) (n : Nat) (s : State) : scalarRows ag off n (opened s) = scalarRows ag off n s := by
  simp only [scalarRows, ag_opened]

theorem vectorRows_opened (ag : BitVec 3) (off : BitVec 8) (ty : Nat) (s : State) : vectorRows ag off ty (opened s) = vectorRows ag off ty s := by
  simp only [vectorRows, ag_opened]

/-- Settles O38: a store's rows change window bytes, lines and requests alone; rows in the window are set in their order. -/
theorem storesWriteTheirBytesAlone : Obligations.StoresWriteTheirBytesAlone := by
  intro g d ag post ty off s r here size w at22' step i rows data n vec form
  have slot : ∃ (src : List (BitVec 5)) (rs : State → List Row) (ds : State → List (List Byte)),
      exec i s = issueSlot (semStore g rs (src.map BitVec.toNat) ds ag post n) s ∧ VecRuns (src.map BitVec.toNat) none s
      ∧ rs (opened s) = rows ∧ ds (opened s) = data ∧ (∀ e ∈ rows.zip data, e.2.length ≤ e.1.size)
      ∧ src.contains 30 = (vec && decide (d = 30)) ∧ src.contains 31 = (vec && decide (d = 31))
      ∧ (n = 1 → data = [leBytes size (s.sreg d).toNat]) := by
    rcases form with ⟨rfl, rfl, rfl, rfl, rfl⟩ | ⟨rfl, rfl, run, rfl, rfl, rfl⟩
    · refine ⟨[], scalarRows ag off size, fun s => [leBytes size (s.sreg d).toNat], rfl,
        ⟨r.may, r.quiet, by simp, by simp, by simp, by simp⟩, scalarRows_opened .., by simp only [sreg_opened], ?_, rfl, rfl, fun _ => rfl⟩
      rintro e he
      obtain rfl := List.mem_singleton.1 he
      exact Nat.le_of_eq (leBytes_length ..)
    · refine ⟨[d], vectorRows ag off ty.toNat, fun s => (List.range 16).map (rowBytes (cellBytes ty.toNat) (s.vreg d.toNat)), rfl, run,
        vectorRows_opened .., by simp only [vreg_opened], ?_, ?_, ?_, fun h => absurd h (by decide)⟩
      · rintro e he
        obtain ⟨hr, hd⟩ := List.of_mem_zip he
        obtain ⟨a, -, ha⟩ := List.mem_map.1 hr
        obtain ⟨j, -, hj⟩ := List.mem_map.1 hd
        rw [← ha, ← hj]
        exact rowBytes_length_le ..
      · rw [contains_singleton, Bool.true_and]
      · rw [contains_singleton, Bool.true_and]
  obtain ⟨src, rs, ds, hx, run, opening, hd, short, q0, q1, one⟩ := slot
  rw [← q0, ← q1]
  refine ⟨fun ready => store_lands hx run r.guard opening ready, fun inside => ⟨storeReady_inWindow run.quiet.bar inside,
    store_inWindow hx run r.guard opening hd inside short⟩, fun e o hn ready plan => ?_⟩
  rw [one hn] at hd ⊢
  have whole : (leBytes size (s.sreg d).toNat).length ≤ size := Nat.le_of_eq (leBytes_length ..)
  rcases plan with plan | ⟨x, plan⟩
  · exact store_home hx run r.guard opening hd whole ready plan
  · exact store_home hx run r.guard opening hd whole ready plan

end Sys2Proof

namespace Sys2Proof

open Machine

/-! ### Writes at homes (R234, R244) -/

/-- What a home keeps of a write-back depends on memory, generations and keys alone. -/
theorem written_congr {u w : State} (mem : w.mem = u.mem) (gens : w.gens = u.gens) (keys : w.keys = u.keys) (l : L1Line) :
    written w l = written u l := by
  have gen : w.genOf (l.line * 128) = u.genOf (l.line * 128) := congrArg (fun g : Tbl (BitVec 4) => (g.get 0 (l.line * 128 / 2 ^ 21)).toNat) gens
  have key : w.hasKey l.key = u.hasKey l.key :=
    congrArg (fun k : List KeyEntry => decide (l.key < 2) || k.any fun k => decide (jobKey k.job = l.key)) keys
  rw [written, written, gen, key, mem]

/-- A core that gives a line back leaves memory, or writes a copy of that line. -/
theorem mem_giveBack (line : Nat) (exclusive : Bool) (u : State) (c : CoreRef) :
    (State.giveBack line exclusive u c).mem = u.mem
      ∨ ∃ l ∈ (u.core c).l1, l.line = line ∧ (State.giveBack line exclusive u c).mem = written u l := by
  have revoked : ∀ w, w = (if (u.core c).l1req = [] then u
      else u.modCore c fun k => { k with l1req := k.l1req.map (L1Req.revoked line exclusive) }) →
      w.mem = u.mem ∧ w.gens = u.gens ∧ w.keys = u.keys ∧ (w.core c).l1 = (u.core c).l1 := by
    rintro w rfl
    split
    · exact ⟨rfl, rfl, rfl, rfl⟩
    · exact ⟨rfl, rfl, rfl, (congrArg Core.l1 (State.core_modCore ..) :)⟩
  unfold State.giveBack
  dsimp only
  generalize hw : (if (u.core c).l1req = [] then u
    else u.modCore c fun k => { k with l1req := k.l1req.map (L1Req.revoked line exclusive) }) = w
  obtain ⟨mem, gens, keys, l1⟩ := revoked w hw.symm
  split
  · exact .inl mem
  · next l found =>
    split
    · right
      rw [l1] at found
      have own := List.find?_some found
      rw [Bool.and_eq_true, decide_eq_true_eq] at own
      refine ⟨l, List.mem_of_find?_eq_some found, own.1, ?_⟩
      refine (writeBack_kept w c l).2.trans ?_
      exact written_congr mem gens keys l
    · exact .inl mem

/-- What a line's recall leaves of memory below the line. -/
theorem byte_recall_below (line : Nat) (exclusive : Bool) (u : State) {b : Nat} (below : b < line * 128) :
    (u.recall line exclusive).mem.byte b = u.mem.byte b := by
  have all : ∀ (l : List CoreRef) (v : State), (l.foldl (State.giveBack line exclusive) v).mem.byte b = v.mem.byte b := by
    intro l
    induction l with
    | nil => exact fun _ => rfl
    | cons c l ih =>
      intro v
      refine (ih _).trans ?_
      rcases mem_giveBack line exclusive v c with same | ⟨x, -, rfl, back⟩
      · rw [same]
      · rw [back]
        unfold written
        split
        · exact Memory.byte_setBytes_out _ _ _ _ (.inl below)
        · rfl
  exact all _ _

/-- A line with bytes written at its home: below it memory stands, and the bytes read back. -/
theorem byte_writeLine_below (u : State) (o key : Nat) (d : List Byte) {b : Nat} (below : b < lineOf o * 128) :
    (u.writeLine o key d).mem.byte b = u.mem.byte b := by
  have low : b < o := by unfold lineOf at below; omega
  have recalled := byte_recall_below (lineOf o) true u below
  unfold State.writeLine
  dsimp only
  generalize u.recall (lineOf o) true = w at recalled ⊢
  split
  · exact (Memory.byte_setBytes_out _ _ _ _ (.inl low)).trans recalled
  split
  · exact (Memory.byte_setBytes_out _ _ _ _ (.inl low)).trans ((Memory.byte_setBytes_out (w.freeBytes 128) _ _ _ (.inl below)).trans recalled)
  · exact (Memory.byte_setBytes_out _ _ _ _ (.inl low)).trans recalled

theorem byte_writeLine_in (u : State) (o key : Nat) (d : List Byte) {i : Nat} (h : i < d.length) :
    (u.writeLine o key d).mem.byte (o + i) = d.getD i 0 := by
  unfold State.writeLine
  dsimp only
  split
  · exact Memory.byte_setBytes_in _ _ _ _ h
  split
  · exact Memory.byte_setBytes_in _ _ _ _ h
  · exact Memory.byte_setBytes_in _ _ _ _ h

/-- Bytes written at homes leave memory below their first line. -/
theorem byte_writeHbm_below (key : Nat) {b : Nat} : ∀ (fuel : Nat) (u : State) (o : Nat) (d : List Byte), b < lineOf o * 128 →
    (u.writeHbm o key d fuel).mem.byte b = u.mem.byte b
  | 0, _, _, _, _ => rfl
  | fuel + 1, u, o, d, below => by
    unfold State.writeHbm
    split
    · rfl
    · refine (byte_writeHbm_below key fuel _ _ _ ?_).trans (byte_writeLine_below u o key _ below)
      unfold lineOf at below ⊢
      omega

/-- Bytes written at homes read back. -/
theorem byte_writeHbm_in (key : Nat) : ∀ (fuel : Nat) (u : State) (o : Nat) (d : List Byte) (i : Nat), i < d.length →
    o % 128 + d.length ≤ 128 * fuel → (u.writeHbm o key d fuel).mem.byte (o + i) = d.getD i 0
  | 0, _, _, _, _, hi, hf => absurd hf (by omega)
  | fuel + 1, u, o, d, i, hi, hf => by
    have some : d ≠ [] := fun h => by simp [h] at hi
    unfold State.writeHbm
    rw [if_neg some]
    by_cases first : i < 128 - o % 128
    · have at' : i < (d.take (128 - o % 128)).length := by
        rw [List.length_take]
        omega
      refine (byte_writeHbm_below key fuel _ _ _ ?_).trans ((byte_writeLine_in u o key _ at').trans ?_)
      · unfold lineOf
        omega
      · simp only [List.getD_eq_getElem?_getD, List.getElem?_take, first, if_true]
    · have rest := byte_writeHbm_in key fuel (u.writeLine o key (d.take (128 - o % 128))) (o + (128 - o % 128)) (d.drop (128 - o % 128))
        (i - (128 - o % 128)) (by rw [List.length_drop]; omega) (by rw [List.length_drop]; omega)
      rw [show o + (128 - o % 128) + (i - (128 - o % 128)) = o + i by omega] at rest
      dsimp only
      rw [rest, List.getD_eq_getElem?_getD, List.getElem?_drop, List.getD_eq_getElem?_getD,
        show 128 - o % 128 + (i - (128 - o % 128)) = i by omega]

/-- The firmware's key is always there (R405). -/
theorem hasKey_fwKey (s : State) : s.hasKey fwKey = true := by simp [State.hasKey, fwKey]

theorem byte_storeHbm_below (u : State) (o key : Nat) (d : List Byte) {b : Nat} (below : b < lineOf o * 128) :
    (u.storeHbm o key d).mem.byte b = u.mem.byte b := by
  unfold State.storeHbm
  split
  · exact byte_writeHbm_below key _ u o d below
  · rfl

theorem byte_storeHbm_in (u : State) {o key : Nat} {d : List Byte} {i : Nat} (there : u.hasKey key = true) (h : i < d.length) :
    (u.storeHbm o key d).mem.byte (o + i) = d.getD i 0 := by
  unfold State.storeHbm
  rw [if_pos there]
  exact byte_writeHbm_in key _ u o d i h (by omega)

theorem bytes_storeHbm (u : State) {o key : Nat} {d : List Byte} (there : u.hasKey key = true) :
    (u.storeHbm o key d).mem.bytes o d.length = d := by
  refine List.ext_getElem (by simp [Memory.bytes]) fun n h k => ?_
  rw [show ((u.storeHbm o key d).mem.bytes o d.length)[n] = (u.storeHbm o key d).mem.byte (o + n) by simp [Memory.bytes],
    byte_storeHbm_in u there k, List.getD_eq_getElem _ _ k]

section
variable (s : State)

theorem worked_writeLine (o key : Nat) (d : List Byte) : Worked s (s.writeLine o key d) := by
  have recalled := worked_recall s (lineOf o) true
  unfold State.writeLine
  dsimp only
  generalize s.recall (lineOf o) true = w at recalled ⊢
  refine recalled.trans ?_
  split
  · exact (worked_setMem _ _).trans (worked_modLine ..)
  split
  · exact (((worked_setMem _ _).trans (worked_tookFree _ _)).trans (worked_setMem _ _)).trans (worked_modLine ..)
  · exact (worked_setMem _ _).trans (worked_modLine ..)

theorem worked_writeHbm (key : Nat) : ∀ (fuel : Nat) (s : State) (o : Nat) (d : List Byte), Worked s (s.writeHbm o key d fuel)
  | 0, s, _, _ => .refl s
  | fuel + 1, s, o, d => by
    unfold State.writeHbm
    split
    · exact .refl s
    · exact (worked_writeLine ..).trans (worked_writeHbm key fuel _ _ _)

theorem worked_storeHbm (o key : Nat) (d : List Byte) : Worked s (s.storeHbm o key d) := by
  unfold State.storeHbm
  split
  · exact worked_writeHbm ..
  · exact .refl _

end

end Sys2Proof

namespace Sys2Proof

open Machine

/-! ### The fatal stop and its dump (R389 to R391) -/

/-- What the first fatal cause leaves. -/
theorem stops_first {s : State} (die cause : Nat) (info : W64) (first : s.fatal = none) :
    (s.fatalStop die cause info).fatal = some ⟨die, cause, info, s.cycle, false, false⟩ ∧ (s.fatalStop die cause info).mem = s.mem
      ∧ (∀ n, n < 8 → ((s.fatalStop die cause info).die n).lodge.emask = 1
          ∧ ((s.fatalStop die cause info).die n).lodge.ecause = BitVec.ofNat 64 cause
          ∧ ∀ k, s.task? (lodgeTask n) = some k →
            (s.fatalStop die cause info).task? (lodgeTask n) = some (k.restartAt ((s.die n).lodge.fvec.setWidth 32)))
      ∧ ∀ r k, r.die < 8 → r.core < 128 → r.core ≠ 96 → s.task? r = some k →
        (s.fatalStop die cause info).task? r = some { k with halted := true } := by
  rw [fatalStop_first die cause info first]
  obtain ⟨mem, fatal⟩ := mem_fatalDies cause 8 (fatalPosted s die cause info)
  refine ⟨fatal.trans rfl, mem.trans rfl, fun n hn => ?_, fun r k hd hc lodge hk => ?_⟩
  · obtain ⟨tail, lost, regs⟩ := lodge_fatalPosted s die cause info n
    rw [die_fatalDies, if_pos hn, regs]
    refine ⟨rfl, rfl, fun k hk => ?_⟩
    have hk : (s.core ⟨n, 96⟩).tasks.get none 0 = some k := hk
    show ((fatalDies cause 8 (fatalPosted s die cause info)).core ⟨n, 96⟩).tasks.get none 0 = _
    rw [core_fatalDies _ _ _ hn, restartLodge_tasks, core_fatalPosted, haltAll_tasks, regs, hk]
    rfl
  · have other : ∀ d < 8, CoreRef.key r.coreRef ≠ CoreRef.key ⟨d, 96⟩ := by
      intro d _
      simp only [CoreRef.key, TaskRef.coreRef]
      omega
    rw [State.task?] at hk
    rw [State.task?, core_fatalDies_other _ _ _ other, core_fatalPosted, haltAll_tasks, hk]
    rfl

/-- The Grotto as the dump begins: cleared, and the stop's mark set. -/
def dumpBegun (s : State) (f : Fatal) : State :=
  { s with mem := s.mem.clear grottoBase (hbmSize - grottoBase), fatal := some { f with dumped := true } }

/-- The first n dies' sections of the dump of a state. -/
def sections (s : State) (n : Nat) (z : State) : State :=
  (List.range n).foldl (fun z d => if s.lodgeRuns d then z.storeHbm (grottoSection d) fwKey (s.dieDump d) else z) z

theorem sections_succ (s : State) (n : Nat) (z : State) : sections s (n + 1) z =
    if s.lodgeRuns n then (sections s n z).storeHbm (grottoSection n) fwKey (s.dieDump n) else sections s n z := by
  simp only [sections, List.range_succ, List.foldl_append, List.foldl_cons, List.foldl_nil]

theorem dumpGrotto_eq (s : State) (f : Fatal) :
    s.dumpGrotto f = sections s 8 ((dumpBegun s f).storeHbm grottoBase fwKey (s.grottoHeader f)) := rfl

theorem worked_sections (s : State) (n : Nat) (z : State) : Worked z (sections s n z) :=
  .foldl _ (fun z d => by
    split
    · exact worked_storeHbm ..
    · exact .refl _) z _

/-- Sections leave what lies below them. -/
theorem byte_sections_below (s : State) (z : State) {b : Nat} (below : b < grottoSection 0) : ∀ n, (sections s n z).mem.byte b = z.mem.byte b
  | 0 => rfl
  | n + 1 => by
    rw [sections_succ]
    split
    · refine (byte_storeHbm_below _ _ _ _ ?_).trans (byte_sections_below s z below n)
      unfold grottoSection grottoBase lineOf at *
      omega
    · exact byte_sections_below s z below n

theorem getD_append_left (d e : List Byte) {i : Nat} (h : i < d.length) : (d ++ e).getD i 0 = d.getD i 0 := by
  rw [List.getD_eq_getElem?_getD, List.getD_eq_getElem?_getD, List.getElem?_append_left h]

theorem padTo_prefix (n : Nat) (a b : List Byte) : a <+: padTo n (a ++ b) := (List.prefix_append a b).trans (List.prefix_append ..)

theorem prefix_of_run (n : Nat) (h a b c d e f : List Byte) : h <+: padTo n (h ++ a) ++ b ++ c ++ d ++ e ++ f :=
  (((((padTo_prefix n h a).trans (List.prefix_append _ b)).trans (List.prefix_append _ c)).trans (List.prefix_append _ d)).trans
    (List.prefix_append _ e)).trans (List.prefix_append _ f)

/-- A section begins with 1 (R391). -/
theorem dieDump_prefix (s : State) (d : Nat) : leBytes 8 1 <+: s.dieDump d := by
  unfold State.dieDump
  exact prefix_of_run ..

theorem leBytes_one : leBytes 8 1 = [1, 0, 0, 0, 0, 0, 0, 0] := by decide

theorem head_of_prefix {b : List Byte} (h : leBytes 8 1 <+: b) : b.getD 0 0 = 1 ∧ 0 < b.length := by
  obtain ⟨rest, rfl⟩ := h
  rw [leBytes_one]
  exact ⟨rfl, Nat.succ_pos _⟩

theorem dieDump_head (s : State) (d : Nat) : (s.dieDump d).getD 0 0 = 1 ∧ 0 < (s.dieDump d).length :=
  head_of_prefix (dieDump_prefix s d)

theorem byte_section (s : State) (z : State) {d : Nat} (runs : s.lodgeRuns d = true) : ∀ n, d < n →
    (sections s n z).mem.byte (grottoSection d) = 1
  | 0, h => absurd h (Nat.not_lt_zero d)
  | n + 1, h => by
    rw [sections_succ]
    by_cases last : d = n
    · subst last
      rw [if_pos runs]
      have first := byte_storeHbm_in (sections s d z) (o := grottoSection d) (hasKey_fwKey _) (dieDump_head s d).2
      rw [Nat.add_zero] at first
      exact first.trans (dieDump_head s d).1
    · have ih := byte_section s z runs n (by omega)
      split
      · refine (byte_storeHbm_below _ _ _ _ ?_).trans ih
        unfold grottoSection grottoBase lineOf
        omega
      · exact ih

theorem grottoHeader_length (s : State) (f : Fatal) : (s.grottoHeader f).length = 32 := by
  simp [State.grottoHeader, leBytes_length]

/-- What the dump leaves. -/
theorem dumps (s : State) (f : Fatal) :
    (s.dumpGrotto f).fatal = some { f with dumped := true } ∧ (∀ r, (s.dumpGrotto f).task? r = s.task? r)
      ∧ (s.dumpGrotto f).mem.bytes grottoBase 32 = s.grottoHeader f
      ∧ (∀ n, n < 8 → s.lodgeRuns n = true → (s.dumpGrotto f).mem.byte (grottoSection n) = 1)
      ∧ ∀ b, b < grottoBase → (s.dumpGrotto f).mem.byte b = s.mem.byte b := by
  rw [dumpGrotto_eq]
  have begun : (dumpBegun s f).fatal = some { f with dumped := true } ∧ (∀ r, (dumpBegun s f).task? r = s.task? r)
      ∧ ∀ b, b < grottoBase → (dumpBegun s f).mem.byte b = s.mem.byte b := by
    refine ⟨rfl, fun _ => rfl, fun b hb => (Memory.byte_wipe ..).trans (if_neg fun h => ?_)⟩
    omega
  obtain ⟨fatal, tasks, low⟩ := begun
  have header : ((dumpBegun s f).storeHbm grottoBase fwKey (s.grottoHeader f)).mem.bytes grottoBase 32 = s.grottoHeader f := by
    have whole := bytes_storeHbm (dumpBegun s f) (o := grottoBase) (d := s.grottoHeader f) (hasKey_fwKey _)
    rwa [grottoHeader_length] at whole
  have under : ∀ b, b < grottoBase → ((dumpBegun s f).storeHbm grottoBase fwKey (s.grottoHeader f)).mem.byte b = s.mem.byte b :=
    fun b hb => (byte_storeHbm_below _ _ _ _ (by unfold grottoBase lineOf at *; omega)).trans (low b hb)
  have stored := worked_storeHbm (dumpBegun s f) grottoBase fwKey (s.grottoHeader f)
  generalize dumpBegun s f = v at *
  generalize v.storeHbm grottoBase fwKey (s.grottoHeader f) = z at *
  have worked := stored.trans (worked_sections s 8 z)
  have inside : ∀ b, b < grottoBase + 32 → b < grottoSection 0 := fun b hb => by
    have base : grottoSection 0 = grottoBase + 0x1000000 := rfl
    omega
  refine ⟨(congrArg State.fatal worked.rest :).trans fatal, fun r => (worked.task? r).trans (tasks r), ?_,
    fun n hn runs => byte_section s z runs 8 hn, fun b hb => (byte_sections_below s z (inside b (by omega)) 8).trans (under b hb)⟩
  rw [← header]
  exact List.map_congr_left fun i hi => byte_sections_below s z (inside _ (by have := List.mem_range.1 hi; omega)) 8

end Sys2Proof

namespace Sys2Proof

open Machine

/-! ### Replies of the host port (R393, R395) -/

/-- The module has sent n cells with P to the host, and changed nothing else but the packet numbers of its port. -/
structure Answered (P : Cell → Prop) (n : Nat) (s t : State) : Prop where
  rest : t = { s with host := t.host }
  inbox : t.host.inbox = s.host.inbox
  dump : t.host.dump = s.host.dump
  link : t.host.link = s.host.link
  secure : t.host.isSecure = s.host.isSecure
  replies : ∃ l, t.host.replies = s.host.replies ++ l ∧ l.length = n ∧ ∀ f ∈ l, ∀ c ∈ f.cells, P c

theorem Answered.refl (P : Cell → Prop) (s : State) : Answered P 0 s s :=
  ⟨rfl, rfl, rfl, rfl, rfl, [], (List.append_nil _).symm, rfl, by simp⟩

theorem Answered.trans {P : Cell → Prop} {n m : Nat} {s t u : State} (h : Answered P n s t) (k : Answered P m t u) :
    Answered P (n + m) s u := by
  obtain ⟨a, ha, na, pa⟩ := h.replies
  obtain ⟨b, hb, nb, pb⟩ := k.replies
  refine ⟨?_, k.inbox.trans h.inbox, k.dump.trans h.dump, k.link.trans h.link, k.secure.trans h.secure, a ++ b, ?_, ?_, fun f hf => ?_⟩
  · have first := k.rest
    rw [h.rest] at first
    exact first
  · rw [hb, ha, List.append_assoc]
  · rw [List.length_append, na, nb]
  · exact (List.mem_append.1 hf).elim (pa f) (pb f)

/-- Counting a packet changes no association's direction. -/
theorem isSecure_sendCell (h : HostPort) (c : Cell) : (h.sendCell c).isSecure = h.isSecure := by
  have kept : ∀ (p : SecAssoc → Bool) (an n : Nat), (∀ a k, p { a with next := k } = p a) →
      (h.counted false an n).sas.any p = h.sas.any p := fun p an n hp => by
    simp only [HostPort.counted, List.any_map, Function.comp_def]
    congr 1
    funext a
    split
    · exact hp a _
    · rfl
  exact congrArg₂ and (kept (fun a => a.rx) _ _ fun _ _ => rfl) (kept (fun a => !a.rx) _ _ fun _ _ => rfl)

theorem answered_send {P : Cell → Prop} (s : State) {c : Cell} (h : P c) : Answered P 1 s { s with host := s.host.sendCell c } :=
  ⟨rfl, rfl, rfl, rfl, isSecure_sendCell .., [s.host.frameOf c], rfl, rfl, by
    rintro f hf x hx
    obtain rfl := List.mem_singleton.1 hf
    obtain rfl := List.mem_singleton.1 hx
    exact h⟩

/-- A cell of a reply of a KIND, of status 0. -/
def IsReply (kind : Nat) (c : Cell) : Prop := c.typ = 10 ∧ c.payload.take 4 = leBytes 1 (kind + 0x80) ++ [0, 0, 0]

theorem answered_reply (s : State) (kind seq : Nat) (b : List Byte) : Answered (IsReply kind) 1 s (s.reply kind 0 seq b) := by
  refine answered_send s ⟨rfl, ?_⟩
  show (padTo 128 (leBytes 1 (kind + 0x80) ++ leBytes 1 0 ++ [0, 0] ++ leBytes 4 seq ++ b)).take 4 = _
  rw [padTo]
  rfl

theorem answered_replyCells (s : State) (kind seq : Nat) (b : List Byte) :
    Answered (IsReply kind) (chunks 120 b.length b).length s (s.replyCells kind seq b) := by
  have all : ∀ (l : List (List Byte)) (s : State), Answered (IsReply kind) l.length s (l.foldl (fun s c => s.reply kind 0 seq c) s) := by
    intro l
    induction l with
    | nil => exact fun s => .refl _ s
    | cons c l ih =>
      intro s
      have both := (answered_reply s kind seq c).trans (ih _)
      rw [Nat.add_comm] at both
      exact both
  exact all _ s

/-! ### Bring-up (R408) -/

/-- The lodge firmware of the first n dies loaded. -/
def firmwares (n : Nat) (s : State) : State := (List.range n).foldl State.loadFirmware s

theorem firmwares_succ (n : Nat) (s : State) : firmwares (n + 1) s = (firmwares n s).loadFirmware n := by
  simp only [firmwares, List.range_succ, List.foldl_append, List.foldl_cons, List.foldl_nil]

theorem loadFirmware_rest (s : State) (d : Nat) : { s.loadFirmware d with mem := s.mem, cores := s.cores } = s := rfl

theorem firmwares_rest (s : State) : ∀ n, { firmwares n s with mem := s.mem, cores := s.cores } = s
  | 0 => rfl
  | n + 1 => by
    rw [firmwares_succ]
    have first := congrArg (fun x : State => { x with mem := s.mem, cores := s.cores }) (loadFirmware_rest (firmwares n s) n)
    exact first.trans (firmwares_rest s n)

/-- A task after the firmware of a die is loaded. -/
theorem task_loadFirmware (s : State) (d : Nat) (r : TaskRef) : (s.loadFirmware d).task? r =
    if CoreRef.key r.coreRef = CoreRef.key ⟨d, 96⟩ ∧ r.slot = 0 then some (firmwareTask d) else s.task? r :=
  task?_modTask { s with mem := s.mem.setBytes (firmwareBase d) ((Config.lodgeImage d).take firmwareArea) } (lodgeTask d)
    (fun _ => firmwareTask d) r

/-- The lodges have their firmware, and nothing else is resident. -/
theorem task_firmwares (s : State) {d : Nat} : ∀ n, d < n → (firmwares n s).task? (lodgeTask d) = some (firmwareTask d)
  | 0, h => absurd h (Nat.not_lt_zero d)
  | n + 1, h => by
    rw [firmwares_succ, task_loadFirmware]
    by_cases last : d = n
    · subst last
      exact if_pos ⟨rfl, rfl⟩
    · refine (if_neg fun k => last ?_).trans (task_firmwares s n (by omega))
      have key := k.1
      simp only [CoreRef.key, lodgeTask, TaskRef.coreRef] at key
      omega

theorem task_firmwares_other (s : State) {r : TaskRef} (hc : r.core < 128) (other : r.core ≠ 96 ∨ r.slot ≠ 0) :
    ∀ n, (firmwares n s).task? r = s.task? r
  | 0 => rfl
  | n + 1 => by
    rw [firmwares_succ, task_loadFirmware]
    refine (if_neg fun k => ?_).trans (task_firmwares_other s hc other n)
    have key := k.1
    simp only [CoreRef.key, TaskRef.coreRef] at key
    rcases other with core | slot
    · omega
    · exact slot k.2

/-- Bytes outside the firmware areas stand. -/
theorem byte_firmwares (s : State) {b : Nat} : ∀ n, (∀ d, d < n → b < firmwareBase d ∨ firmwareBase d + firmwareArea ≤ b) →
    (firmwares n s).mem.byte b = s.mem.byte b
  | 0, _ => rfl
  | n + 1, out => by
    rw [firmwares_succ]
    refine (Memory.byte_setBytes_out ((Config.lodgeImage n).take firmwareArea) (firmwares n s).mem (firmwareBase n) b ?_).trans
      (byte_firmwares s n fun d hd => out d (by omega))
    have area : ((Config.lodgeImage n).take firmwareArea).length ≤ firmwareArea := List.length_take_le ..
    have := out n (Nat.lt_succ_self n)
    omega

/-- The memory that a module reset keeps: the Grotto. -/
theorem byte_zeroed (s : State) (b : Nat) : s.zeroed.mem.byte b = if grottoBase ≤ b ∧ b < hbmSize then s.mem.byte b else 0 := by
  show Memory.byte (s.mem.filter fun e => decide (grottoBase ≤ e.1) && decide (e.1 < hbmSize)) b = _
  split
  · next h => exact Tbl.get_filter 0 (fun a => decide (grottoBase ≤ a) && decide (a < hbmSize)) s.mem b (by simp [h.1, h.2])
  · next h => exact Tbl.get_filter_out 0 (fun a => decide (grottoBase ≤ a) && decide (a < hbmSize)) s.mem b (by simpa using h)

/-- The module as bring-up leaves it before READY. -/
def broughtUp (s : State) (straps : BitVec 6) : State :=
  let z := firmwares 8 s.zeroed
  let up := { z with module := straps, dies := (List.range 8).map fun d => (d, dieUp z.attest.rackWord straps.toNat) }
  { up with attest := { up.attest with mcfg := extended up.attest.mcfg up.configBytes }, host := hostUp z.host.dump }

theorem exec_moduleReset (straps : BitVec 6) (s : State) : exec (.moduleReset straps) s =
    .next (if imagesVerify then (broughtUp s straps).sendReady else s.zeroed) := by
  show Host.Outcome.next (if !imagesVerify then s.zeroed else (broughtUp s straps).sendReady) = _
  cases imagesVerify <;> rfl

theorem die_broughtUp (s : State) (straps : BitVec 6) {d : Nat} (h : d < 8) :
    (broughtUp s straps).die d = dieUp s.attest.rackWord straps.toNat := by
  have word : (firmwares 8 s.zeroed).attest.rackWord = s.attest.rackWord := by
    have rest := congrArg (fun x : State => x.attest.rackWord) (firmwares_rest s.zeroed 8)
    refine rest.trans ?_
    show (Attest.measured _).rackWord = _
    unfold Attest.measured
    dsimp only
    split <;> rfl
  have at' : ∀ x : Die, Tbl.get Die.reset ((List.range 8).map fun k => (k, x)) d = x := fun x => by
    interval_cases d <;> rfl
  rw [← word]
  exact at' _

theorem chunks_pos {n : Nat} : ∀ {b : List Byte}, b ≠ [] → 0 < (chunks n b.length b).length
  | [], h => absurd rfl h
  | _ :: _, _ => Nat.succ_pos _

theorem exactly_length (n : Nat) (b : List Byte) : (exactly n b).length = n := by
  rw [exactly, padTo, List.length_take, List.length_append, List.length_replicate]
  omega

/-- READY is sent in cells of its KIND. -/
theorem answered_ready (s : State) : ∃ n, 0 < n ∧ Answered (IsReply 0x10) n s s.sendReady := by
  refine ⟨_, chunks_pos fun none => ?_, answered_replyCells s 0x10 0 (exactly 32 s.attest.mboot ++ exactly 32 s.attest.mfw ++ identityKey)⟩
  have length := congrArg List.length none
  simp [exactly_length] at length

/-- What every module reset leaves (R408, R413, R414). -/
structure ResetDone (s t : State) : Prop where
  powered : t.powered = true
  fatal : t.fatal = none
  jobid : t.jobid = 0
  keys : t.keys = []
  launches : t.launches = []
  gens : t.gens = State.reset.gens
  nextIdx : t.attest.nextIdx = s.attest.nextIdx
  rackWord : t.attest.rackWord = s.attest.rackWord
  held : t.attest.held = none
  grotto : ∀ b, grottoBase ≤ b → b < hbmSize → t.mem.byte b = s.mem.byte b
  zero : ∀ b, (b < grottoBase ∨ hbmSize ≤ b) → (∀ d, d < 8 → b < firmwareBase d ∨ firmwareBase d + firmwareArea ≤ b) → t.mem.byte b = 0
  inbox : t.host.inbox = []
  dump : t.host.dump = if s.fatal.isSome then some 0 else s.host.dump

theorem measured_kept (a : Attest) : a.measured.nextIdx = a.nextIdx ∧ a.measured.rackWord = a.rackWord ∧ a.measured.held = a.held := by
  unfold Attest.measured
  dsimp only
  split <;> exact ⟨rfl, rfl, rfl⟩

theorem resetDone_zeroed (s : State) : ResetDone s s.zeroed := by
  obtain ⟨idx, word, held⟩ := measured_kept
    { Attest.reset with nextIdx := s.attest.nextIdx, rackWord := s.attest.rackWord, kemCount := s.attest.kemCount }
  exact ⟨rfl, rfl, rfl, rfl, rfl, rfl, idx, word, held, fun b low high => (byte_zeroed s b).trans (if_pos ⟨low, high⟩),
    fun b out _ => (byte_zeroed s b).trans (if_neg fun h => out.elim (Nat.not_lt.2 h.1) (Nat.not_le.2 h.2)), rfl, rfl⟩

theorem resetDone_ready (s : State) (straps : BitVec 6) : ResetDone s (broughtUp s straps).sendReady := by
  obtain ⟨n, -, sent⟩ := answered_ready (broughtUp s straps)
  have zeroed := resetDone_zeroed s
  have rest := firmwares_rest s.zeroed 8
  have kept : ∀ {β : Type} (f : State → β), (∀ (x : State) h, f { x with host := h } = f x) →
      f (broughtUp s straps).sendReady = f (broughtUp s straps) := fun f hf => by
    rw [sent.rest]
    exact hf _ _
  have field : ∀ {β : Type} (f : State → β), (∀ (x : State) m c, f { x with mem := m, cores := c } = f x) →
      f (firmwares 8 s.zeroed) = f s.zeroed := fun f hf => by
    rw [← hf (firmwares 8 s.zeroed) s.zeroed.mem s.zeroed.cores, rest]
  refine ⟨(kept State.powered fun _ _ => rfl).trans ((field State.powered fun _ _ _ => rfl).trans zeroed.powered),
    (kept State.fatal fun _ _ => rfl).trans ((field State.fatal fun _ _ _ => rfl).trans zeroed.fatal),
    (kept State.jobid fun _ _ => rfl).trans ((field State.jobid fun _ _ _ => rfl).trans zeroed.jobid),
    (kept State.keys fun _ _ => rfl).trans ((field State.keys fun _ _ _ => rfl).trans zeroed.keys),
    (kept State.launches fun _ _ => rfl).trans ((field State.launches fun _ _ _ => rfl).trans zeroed.launches),
    (kept State.gens fun _ _ => rfl).trans ((field State.gens fun _ _ _ => rfl).trans zeroed.gens),
    (kept (fun x => x.attest.nextIdx) fun _ _ => rfl).trans ((field (fun x => x.attest.nextIdx) fun _ _ _ => rfl).trans zeroed.nextIdx),
    (kept (fun x => x.attest.rackWord) fun _ _ => rfl).trans ((field (fun x => x.attest.rackWord) fun _ _ _ => rfl).trans zeroed.rackWord),
    (kept (fun x => x.attest.held) fun _ _ => rfl).trans ((field (fun x => x.attest.held) fun _ _ _ => rfl).trans zeroed.held),
    fun b low high => ?_, fun b out away => ?_, sent.inbox, sent.dump.trans ((field (fun x => x.host.dump) fun _ _ _ => rfl).trans zeroed.dump)⟩
  · refine (congrArg (fun m : Memory => m.byte b) (kept State.mem fun _ _ => rfl)).trans
      ((byte_firmwares s.zeroed 8 fun d hd => .inl ?_).trans (zeroed.grotto b low high))
    unfold firmwareBase dieBase hbmSize at *
    omega
  · exact (congrArg (fun m : Memory => m.byte b) (kept State.mem fun _ _ => rfl)).trans
      ((byte_firmwares s.zeroed 8 away).trans (zeroed.zero b out away))

end Sys2Proof

namespace Sys2Proof

open Machine

/-! ### O60 -/

/-- A step that stops a running module, and whose next dumps it. -/
def StopsOrDumps (s : State) (d cause : Nat) (info : W64) (i : Instr) : Prop :=
  (s.fatal = none → ∃ t, exec i s = .next t ∧ t.fatal = some ⟨d, cause, info, s.cycle, false, false⟩ ∧ t.mem = s.mem
      ∧ (∀ n, n < 8 → (t.die n).lodge.emask = 1 ∧ (t.die n).lodge.ecause = BitVec.ofNat 64 cause
        ∧ ∀ k, s.task? (lodgeTask n) = some k → t.task? (lodgeTask n) = some (k.restartAt ((s.die n).lodge.fvec.setWidth 32)))
      ∧ ∀ r k, r.die < 8 → r.core < 128 → r.core ≠ 96 → s.task? r = some k → t.task? r = some { k with halted := true })
    ∧ ∀ f, s.fatal = some f → (f.dumped = true → exec i s = .next s)
      ∧ (f.dumped = false → ∃ t, exec i s = .next t ∧ t.fatal = some { f with dumped := true }
        ∧ (∀ r, t.task? r = s.task? r) ∧ t.mem.bytes grottoBase 32 = s.grottoHeader f
        ∧ (∀ n, n < 8 → s.lodgeRuns n = true → t.mem.byte (grottoSection n) = 1)
        ∧ ∀ b, b < grottoBase → t.mem.byte b = s.mem.byte b)

theorem stops_or_dumps {s : State} {d cause : Nat} {info : W64} {i : Instr} (hx : exec i s = .next (s.stopOrDump d cause info)) :
    StopsOrDumps s d cause info i := by
  refine ⟨fun first => ⟨_, hx, ?_⟩, fun f stopped => ⟨fun done => ?_, fun todo => ⟨_, hx, ?_⟩⟩⟩
  · have run : s.stopOrDump d cause info = s.fatalStop d cause info := if_neg (by simp [first])
    rw [run]
    exact stops_first d cause info first
  · have dump : s.stopOrDump d cause info = s := by
      rw [State.stopOrDump, if_pos (by simp [stopped]), State.dumpOnce, stopped]
      exact if_pos done
    rw [hx, dump]
  · have dump : s.stopOrDump d cause info = s.dumpGrotto f := by
      rw [State.stopOrDump, if_pos (by simp [stopped]), State.dumpOnce, stopped]
      exact if_neg (by simp [todo])
    rw [dump]
    exact dumps s f

/-- FATAL is sent once, when the section of D0 is complete (R412). -/
theorem fatalMessage_sent {s : State} {f : Fatal} (stopped : s.fatal = some f) : exec .fatalMessage s = .next
    (if f.dumped && !f.sent && decide (s.mem.byte (grottoSection 0) = 1) then
      { s.reply 0x0F 0 0 (s.mem.bytes grottoBase 32) with fatal := some { f with sent := true } } else s) := by
  show execFatalMessage s = _
  rw [execFatalMessage, stopped]

/-- READY changes the port alone (R408). -/
theorem ready_sent {up : State} (silent : up.host.replies = []) :
    up.sendReady.module = up.module ∧ up.sendReady.cores = up.cores ∧ up.sendReady.dies = up.dies
      ∧ up.sendReady.host.isSecure = up.host.isSecure ∧ up.sendReady.host.link = up.host.link ∧ up.sendReady.host.replies ≠ []
      ∧ ∀ f ∈ up.sendReady.host.replies, ∀ c ∈ f.cells, c.typ = 10 ∧ c.payload.take 4 = [0x90, 0, 0, 0] := by
  obtain ⟨n, some, sent⟩ := answered_ready up
  obtain ⟨l, replies, count, each⟩ := sent.replies
  rw [silent, List.nil_append] at replies
  refine ⟨(congrArg State.module sent.rest :), (congrArg State.cores sent.rest :), (congrArg State.dies sent.rest :), sent.secure, sent.link, ?_, ?_⟩
  · rw [replies]
    exact List.ne_nil_of_length_pos (by omega)
  · rw [replies]
    exact each

theorem host_broughtUp (s : State) (straps : BitVec 6) : (broughtUp s straps).host = hostUp (firmwares 8 s.zeroed).host.dump := rfl

theorem cores_broughtUp (s : State) (straps : BitVec 6) : (broughtUp s straps).cores = (firmwares 8 s.zeroed).cores := by
  simp only [broughtUp]

theorem exec_fatalStop (s : State) (d cause : Nat) (info : W64) :
    exec (.fatalStop d cause info) s = .next (if isFatalCause cause then s.stopOrDump d cause info else s) := rfl

theorem isFatalCause_iff (cause : Nat) : isFatalCause cause = true ↔ 0xE0 ≤ cause ∧ cause ≤ 0xE3 := by
  rw [isFatalCause, Bool.and_eq_true, decide_eq_true_eq, decide_eq_true_eq]

theorem fatal_causes (s : State) (d cause high reading : Nat) (info : W64) :
    ((cause < 0xE0 ∨ 0xE3 < cause) → exec (.fatalStop d cause info) s = .next s)
      ∧ ∀ x ∈ ([(.powerTrip d high reading, 0xE2, BitVec.ofNat 64 ((if high = 0 then 1 else 2) + d % 2 ^ 8 * 2 ^ 8 + reading % 2 ^ 16 * 2 ^ 16)),
            (.junctionTrip d reading, 0xE2, BitVec.ofNat 64 (d % 2 ^ 8 * 2 ^ 8 + reading % 2 ^ 16 * 2 ^ 16)),
            (.packageWatchdog d, 0xE3, BitVec.ofNat 64 (d % 2 ^ 8))]
          ++ (if 0xE0 ≤ cause ∧ cause ≤ 0xE3 then [(.fatalStop d cause info, cause, info)] else []) : List (Instr × Nat × W64)),
        StopsOrDumps s d x.2.1 x.2.2 x.1 := by
  refine ⟨fun other => ?_, fun x hx => ?_⟩
  · rw [exec_fatalStop, if_neg (by rw [isFatalCause_iff]; omega)]
  · rcases List.mem_append.1 hx with fixed | own
    · simp only [List.mem_cons, List.not_mem_nil, or_false] at fixed
      rcases fixed with rfl | rfl | rfl
      · exact stops_or_dumps rfl
      · refine stops_or_dumps (?_ : Host.Outcome.next (s.stopOrDump d 0xE2 (tripInfo 0 d reading)) = _)
        rw [tripInfo, Nat.zero_add]
      · exact stops_or_dumps rfl
    · split at own
      · next fatal =>
        obtain rfl := List.mem_singleton.1 own
        exact stops_or_dumps (by rw [exec_fatalStop, if_pos ((isFatalCause_iff cause).2 fatal)])
      · exact absurd own (List.not_mem_nil)

/-- Settles O60: a cause stops or dumps, FATAL is sent once, a reset brings the module up, and power loss ends it. -/
theorem fatalCausesResetAndPower : Obligations.FatalCausesResetAndPower := by
  refine ⟨?_, fun s => ⟨fun running => ?_, fun f stopped => ⟨fun no => ?_, fun dumped unsent complete => ?_⟩⟩, fun s straps => ?_,
    fun s => ?_⟩
  · intro s d cause high reading info causes
    exact fatal_causes ..
  · show execFatalMessage s = _
    rw [execFatalMessage, running]
  · rw [fatalMessage_sent stopped, if_neg]
    simp only [Bool.and_eq_true, Bool.not_eq_true', decide_eq_true_eq]
    rintro ⟨⟨dumped, unsent⟩, complete⟩
    rcases no with h | h | h
    · exact Bool.false_ne_true (h.symm.trans dumped)
    · exact Bool.false_ne_true (unsent.symm.trans h)
    · exact h complete
  · rw [fatalMessage_sent stopped, if_pos (by simp [dumped, unsent, complete])]
    rfl
  · cases images : imagesVerify with
    | false =>
      refine ⟨s.zeroed, by rw [exec_moduleReset, images]; rfl, ?_⟩
      have done := resetDone_zeroed s
      exact ⟨done.powered, done.fatal, done.jobid, done.keys, done.launches, done.gens, done.nextIdx, done.rackWord, done.held,
        done.grotto, done.zero, done.inbox, done.dump, fun _ => ⟨rfl, rfl, rfl⟩, fun h => absurd h Bool.false_ne_true⟩
    | true =>
      refine ⟨(broughtUp s straps).sendReady, by rw [exec_moduleReset, images]; rfl, ?_⟩
      have done := resetDone_ready s straps
      obtain ⟨module, cores, dies, secure, link, some, cells⟩ := ready_sent (up := broughtUp s straps) (by rw [host_broughtUp]; rfl)
      have tasks : ∀ r, (broughtUp s straps).sendReady.task? r = (firmwares 8 s.zeroed).task? r := fun r => by
        rw [State.task?, State.task?, State.core, State.core, cores, cores_broughtUp]
      have die : ∀ d, d < 8 → (broughtUp s straps).sendReady.die d = dieUp s.attest.rackWord straps.toNat := fun d hd => by
        rw [State.die, dies]
        exact die_broughtUp s straps hd
      rw [host_broughtUp] at secure link
      refine ⟨done.powered, done.fatal, done.jobid, done.keys, done.launches, done.gens, done.nextIdx, done.rackWord, done.held,
        done.grotto, done.zero, done.inbox, done.dump, fun h => absurd h.symm Bool.false_ne_true, fun _ => ⟨module, fun d hd => ?_,
        fun r _ hc other => ?_, secure, link, some, cells⟩⟩
      · rw [State.task, tasks, task_firmwares _ 8 hd, die d hd]
        refine ⟨rfl, ?_, rfl, rfl, rfl, rfl⟩
        show BitVec.ofNat 64 (straps.toNat % 64 + 64) = _
        rw [Nat.mod_eq_of_lt straps.isLt]
      · rw [tasks, task_firmwares_other _ hc other 8]
        rfl
  · exact ⟨_, rfl, rfl, rfl, rfl, rfl, rfl, rfl, rfl, rfl, rfl, rfl, rfl, rfl⟩

end Sys2Proof

namespace Sys2Proof

open Machine

/-! ### Steps that touch one task (R173, R174, R270, R282, R384) -/

/-- Another slot than a task's. -/
def Beside (r q : TaskRef) : Prop := CoreRef.key q.coreRef ≠ CoreRef.key r.coreRef ∨ q.slot ≠ r.slot

theorem task?_modTask_beside (s : State) {r q : TaskRef} (f : Task → Task) (h : Beside r q) : (s.modTask r f).task? q = s.task? q := by
  rw [task?_modTask]
  exact if_neg fun k => h.elim (fun h => h k.1) fun h => h k.2

theorem othersStand_modTask (s : State) (r : TaskRef) (f : Task → Task) : OthersStand s (s.modTask r f) r :=
  fun _ h => task?_modTask_beside s f h

theorem OthersStand.trans {s t u : State} {r : TaskRef} (h : OthersStand s t r) (k : OthersStand t u r) : OthersStand s u r :=
  fun q beside => (k q beside).trans (h q beside)

/-- What keeps every task, the launches and the dies: steps on arrays, windows and lines. -/
structure KeepsTasks (s t : State) : Prop where
  task? : ∀ q, t.task? q = s.task? q
  launches : t.launches = s.launches
  dies : t.dies = s.dies

theorem KeepsTasks.refl (s : State) : KeepsTasks s s := ⟨fun _ => rfl, rfl, rfl⟩

theorem KeepsTasks.trans {s t u : State} (h : KeepsTasks s t) (k : KeepsTasks t u) : KeepsTasks s u :=
  ⟨fun q => (k.task? q).trans (h.task? q), k.launches.trans h.launches, k.dies.trans h.dies⟩

theorem KeepsTasks.foldl {α : Type} (step : State → α → State) (each : ∀ t a, KeepsTasks t (step t a)) (s : State) (l : List α) :
    KeepsTasks s (l.foldl step s) := by
  induction l generalizing s with
  | nil => exact .refl _
  | cons a l ih => exact (each s a).trans (ih _)

theorem keepsTasks_modCore (s : State) (c : CoreRef) (f : Core → Core) (h : (f (s.core c)).tasks = (s.core c).tasks) :
    KeepsTasks s (s.modCore c f) := ⟨task?_modCore_tasks s c h, rfl, rfl⟩

theorem keepsTasks_mem (s : State) (m : Memory) : KeepsTasks s { s with mem := m } := ⟨fun _ => rfl, rfl, rfl⟩

theorem keepsTasks_giveAll (s : State) (r : TaskRef) : KeepsTasks s (s.giveAll r) := by
  refine (KeepsTasks.foldl _ (fun t n => ?_) s _).trans (.foldl _ (fun t h => ?_) _ _)
  · split
    · rw [giveSlot_eq]
      exact (keepsTasks_mem t _).trans (keepsTasks_modCore _ _ _ rfl)
    · exact .refl _
  · split
    · exact keepsTasks_modCore _ _ _ rfl
    · exact .refl _

theorem freedCore_tasks (c : Core) (r : TaskRef) (base n : Nat) :
    (((c.undefineTiles r).freeUnits r.slot).zeroBlock base n).tasks = c.tasks :=
  Eq.trans (b := (c.undefineTiles r).tasks) rfl (congrArg Core.tasks (undefineTiles_rest c r) :)

/-- The slot of an ended task frees, and the other tasks, the launches and the dies stand (R270). -/
theorem freeSlotOf_frees {s : State} {r : TaskRef} {x : Task} (there : s.task? r = some x) :
    (s.freeSlotOf r).task? r = none ∧ OthersStand s (s.freeSlotOf r) r
      ∧ (s.freeSlotOf r).launches = s.launches ∧ (s.freeSlotOf r).dies = s.dies := by
  have kept : KeepsTasks s ((s.zeroWindow r.coreRef x.wbase x.wsize).giveAll r) :=
    (keepsTasks_mem s _ : KeepsTasks s (s.zeroWindow r.coreRef x.wbase x.wsize)).trans (keepsTasks_giveAll _ r)
  unfold State.freeSlotOf
  rw [there]
  dsimp only
  generalize (s.zeroWindow r.coreRef x.wbase x.wsize).giveAll r = w at kept ⊢
  have core : KeepsTasks w (w.modCore r.coreRef fun c => ((c.undefineTiles r).freeUnits r.slot).zeroBlock x.vbase x.vregs) :=
    keepsTasks_modCore w r.coreRef _ (freedCore_tasks _ r _ _)
  generalize (w.modCore r.coreRef fun c => ((c.undefineTiles r).freeUnits r.slot).zeroBlock x.vbase x.vregs) = v at core ⊢
  have kept := kept.trans core
  refine ⟨?_, fun q beside => ?_, kept.launches, kept.dies⟩
  · rw [State.putTask, task?_modCore, if_pos rfl, Tbl.get_set_same]
  · refine Eq.trans ?_ (kept.task? q)
    rw [State.putTask, task?_modCore]
    split
    · next same =>
      rw [Tbl.get_set_other _ _ _ (beside.resolve_left (not_not_intro same)), State.task?, core_congr v same]
    · rfl

/-- A task halts at its boundary; every other task and every byte stand (R282). -/
theorem haltTask_halts (s : State) (r : TaskRef) : (s.haltTask r).task r = { s.task r with halted := true, preempt := false }
    ∧ OthersStand s (s.haltTask r) r ∧ (s.haltTask r).mem = s.mem := by
  have tasks := task?_modCore_tasks (s.modTask r fun t => { t with halted := true, preempt := false }) r.coreRef
    (f := fun c => c.slotHalted r.slot) (slotHalted_tasks _ r.slot)
  refine ⟨?_, fun q beside => (tasks q).trans (task?_modTask_beside s _ beside), rfl⟩
  rw [State.haltTask, State.task, tasks, task?_modTask, if_pos ⟨rfl, rfl⟩]
  rfl

/-- The drain of a PHASE at its end (R173). -/
theorem drain_ends {s : State} {r : TaskRef} (draining : (s.task r).draining = true) :
    (s.drain r).task r = { s.task r with draining := false } ∧ OthersStand s (s.drain r) r
      ∧ ∀ b, (s.drain r).mem.byte b =
        if (s.task r).moveFirst + (s.task r).moveLen ≤ (s.task r).wsize
          ∧ nearBase r.coreRef + ((s.task r).wbase + (s.task r).moveFirst) * stepBytes ≤ b
          ∧ b < nearBase r.coreRef + ((s.task r).wbase + (s.task r).moveFirst) * stepBytes + (s.task r).moveLen * stepBytes
        then 0 else s.mem.byte b := by
  have steps : s.drain r = (if (s.task r).gains then s.wipeMoving r else s).modTask r fun t => { t with draining := false } := by
    unfold State.drain
    simp only [draining, Bool.not_true, Bool.false_eq_true, if_false]
  have kept : KeepsTasks s (if (s.task r).gains then s.wipeMoving r else s) := by
    split
    · exact ⟨fun _ => rfl, rfl, rfl⟩
    · exact .refl _
  have bytes : ∀ b, (if (s.task r).gains then s.wipeMoving r else s).mem.byte b = if (s.task r).gains = true
      ∧ nearBase r.coreRef + (s.task r).movingRange.1 ≤ b
      ∧ b < nearBase r.coreRef + (s.task r).movingRange.1 + (s.task r).movingRange.2 then 0 else s.mem.byte b := fun b => by
    by_cases gains : (s.task r).gains = true
    · simp only [gains, if_true, true_and]
      exact byte_wiped s.mem (nearBase r.coreRef + (s.task r).movingRange.1) (s.task r).movingRange.2 b
    · rw [if_neg gains, if_neg fun h => gains h.1]
  have gains : (s.task r).gains = true ↔ (s.task r).moveFirst + (s.task r).moveLen ≤ (s.task r).wsize := by simp [Task.gains]
  rw [steps]
  generalize (if (s.task r).gains then s.wipeMoving r else s) = w at kept bytes
  refine ⟨?_, fun q beside => (task?_modTask_beside w _ beside).trans (kept.task? q), fun b => ?_⟩
  · rw [State.task_modTask, State.task, State.task, kept.task?]
  · refine (bytes b).trans ?_
    simp only [gains]
    rfl

theorem drain_idle {s : State} {r : TaskRef} (idle : (s.task r).draining = false) : s.drain r = s := by
  unfold State.drain
  simp only [idle, Bool.not_false, if_true]

/-- The drain leaves the other tasks, and its own task beside the mark that it drains. -/
theorem drain_task (s : State) (r : TaskRef) :
    (s.drain r).task r = { s.task r with draining := false } ∧ OthersStand s (s.drain r) r := by
  cases draining : (s.task r).draining with
  | true => exact ⟨(drain_ends draining).1, (drain_ends draining).2.1⟩
  | false =>
    rw [drain_idle draining]
    refine ⟨?_, fun _ _ => rfl⟩
    conv_lhs => rw [show s.task r = { s.task r with draining := (s.task r).draining } from rfl, draining]

/-- The lodge core enters its handler (R384). -/
theorem lodgeEntry_enters (s : State) (r : TaskRef) (cause : Nat) (info : W64) :
    (s.lodgeEntry r cause info).mem = s.mem ∧ OthersStand s (s.lodgeEntry r cause info) r
    ∧ (s.lodgeEntry r cause info).task r =
      { s.task r with pc := (s.die r.die).lodge.evec.setWidth 32, target := 0, delay := 0, halted := false, ctl := .none }
    ∧ (s.lodgeEntry r cause info).die r.die = { s.die r.die with lodge := { (s.die r.die).lodge with
        epc := (s.task r).pc.setWidth 64, etrans := transWord (s.task r).target (s.task r).delay
        epreds := (s.task r).preds.setWidth 64, ecause := BitVec.ofNat 64 cause, einfo := info
        emask := (s.die r.die).lodge.emask ||| 1 } }
    ∧ ∀ k, k ≠ r.die → (s.lodgeEntry r cause info).die k = s.die k := by
  unfold State.lodgeEntry
  dsimp only
  generalize hw : (s.modLodge r.die fun l => { l with
      epc := (s.task r).pc.setWidth 64, etrans := transWord (s.task r).target (s.task r).delay
      epreds := (s.task r).preds.setWidth 64, ecause := BitVec.ofNat 64 cause, einfo := info
      emask := l.emask ||| 1 }) = w
  have tasks : ∀ q, w.task? q = s.task? q := fun q => by rw [← hw]; rfl
  have here : w.die r.die = { s.die r.die with lodge := { (s.die r.die).lodge with
        epc := (s.task r).pc.setWidth 64, etrans := transWord (s.task r).target (s.task r).delay
        epreds := (s.task r).preds.setWidth 64, ecause := BitVec.ofNat 64 cause, einfo := info
        emask := (s.die r.die).lodge.emask ||| 1 } } := by rw [← hw, State.modLodge, State.die_modDie]
  have other : ∀ k, k ≠ r.die → w.die k = s.die k := fun k h => by rw [← hw, State.modLodge, State.die_modDie_other _ _ h]
  have mem : w.mem = s.mem := by rw [← hw]; rfl
  clear hw
  have letGo := task?_modCore_tasks w r.coreRef (f := Core.letGo r.slot) rfl
  refine ⟨mem, fun q beside => ?_, ?_, here, other⟩
  · rw [task?_modTask_beside _ _ beside, task?_dropLoads, letGo, tasks]
  · have evec : (w.die r.die).lodge.evec = (s.die r.die).lodge.evec := by rw [here]
    rw [State.task_modTask, evec, State.task, task?_dropLoads, letGo, tasks]
    rfl

/-- The F unit's last tick frees it (R151). -/
theorem fUnitFree_frees (c : CoreRef) (s : State) : ∃ t, exec (.fUnitFree c) s = .next t ∧ TasksAndMemoryStand s t
    ∧ t.core c = { s.core c with fBusy := if (s.core c).fBusy ≤ 1 then 0 else (s.core c).fBusy } := by
  refine ⟨s.modCore c fun k => if k.fBusy ≤ 1 then { k with fBusy := 0 } else k, rfl, ⟨task?_modCore_tasks s c ?_, rfl⟩, ?_⟩
  · split <;> rfl
  · rw [State.core_modCore]
    split <;> rfl

/-- ISSUE_TICK tries its one candidate: what becomes of its bundle (R271). -/
theorem tickOver_one (s : State) (c : CoreRef) (n : Nat) : s.tickOver c [n] = match issueBundle (s.focus c n) with
    | .issued t => t
    | a => s.unfocus c a.state := by
  unfold State.tickOver State.tryIssue
  cases issueBundle (s.focus c n) with
  | issued t => rfl
  | trapped t => rfl
  | held t => rfl

end Sys2Proof

namespace Sys2Proof

open Machine

/-! ### Lines that a core gives back (R234, R244) -/

/-- A core's copies after it has handed back a line: its own ones are gone, and no other core's change. -/
theorem l1_handedBack (line : Nat) (w : State) (c k : CoreRef) : ((handedBack line w c).core k).l1 =
    if CoreRef.key k = CoreRef.key c then (w.core k).l1.filter fun x => !ownCopy line x else (w.core k).l1 := by
  unfold handedBack
  split
  · next none =>
    split
    · next same =>
      rw [core_congr w same]
      exact (List.filter_eq_self.2 fun x hx => by simpa using List.find?_eq_none.1 none x hx).symm
    · rfl
  · next l found =>
    have cores := (writeBack_kept w c l).1
    generalize w.writeBack c l = v at cores
    have same : ∀ k, v.core k = w.core k := fun k => by rw [State.core, State.core, cores]
    split
    · next at' => rw [core_congr _ at', State.core_modCore, same, core_congr w at']
    · next other => rw [State.core_modCore_other _ _ other, same]

/-- A core's copies after it has given back a line with every right of it. -/
theorem l1_giveBack (line : Nat) (u : State) (c k : CoreRef) : ((State.giveBack line true u c).core k).l1 =
    if CoreRef.key k = CoreRef.key c then (u.core k).l1.filter fun x => !ownCopy line x else (u.core k).l1 := by
  rw [giveBack_eq]
  split
  · exact l1_handedBack ..
  · rw [l1_handedBack]
    have same : ((u.modCore c fun k => { k with l1req := k.l1req.map (L1Req.revoked line true) }).core k).l1 = (u.core k).l1 := by
      by_cases h : CoreRef.key k = CoreRef.key c
      · rw [core_congr _ h, State.core_modCore, core_congr u h]
      · rw [State.core_modCore_other _ _ h]
    rw [same]

theorem Tbl.get_of_not_mem {α : Type} (d : α) (t : Tbl α) {k : Nat} (h : ∀ e ∈ t, e.1 ≠ k) : Tbl.get d t k = d := by
  have := Tbl.get_append d t [] k h
  rwa [List.append_nil] at this

theorem key_coreRef (n : Nat) : CoreRef.key ⟨n / 128, n % 128⟩ = n := Nat.div_add_mod' n 128

/-- After an exclusive recall only read-only copies of the line are left (R244, R258). -/
theorem l1_recall (line : Nat) (u : State) (k : CoreRef) : ∀ x ∈ ((u.recall line true).core k).l1, ownCopy line x = false := by
  have all : ∀ (l : List CoreRef) (v : State),
      (∀ x ∈ (v.core k).l1, ownCopy line x = false) ∨ (∃ c ∈ l, CoreRef.key k = CoreRef.key c) →
      ∀ x ∈ ((l.foldl (State.giveBack line true) v).core k).l1, ownCopy line x = false := by
    intro l
    induction l with
    | nil => exact fun v h => h.resolve_right fun ⟨_, none', _⟩ => absurd none' List.not_mem_nil
    | cons c l ih =>
      intro v h
      refine ih _ ?_
      rw [l1_giveBack]
      by_cases same : CoreRef.key k = CoreRef.key c
      · rw [if_pos same]
        exact .inl fun x hx => by simpa using (List.mem_filter.1 hx).2
      · rw [if_neg same]
        refine h.imp_right fun ⟨b, hb, at'⟩ => ⟨b, (List.mem_cons.1 hb).resolve_left ?_, at'⟩
        rintro rfl
        exact same at'
  refine all _ _ ?_
  by_cases listed : ∃ e ∈ u.cores, e.1 = CoreRef.key k
  · obtain ⟨e, he, at'⟩ := listed
    exact .inr ⟨_, List.mem_map_of_mem he, (key_coreRef e.1 ▸ at'.symm :)⟩
  · have blank : u.core k = Core.reset := Tbl.get_of_not_mem _ _ fun e he h => listed ⟨e, he, h⟩
    rw [blank]
    exact .inl fun x hx => absurd hx List.not_mem_nil

/-- A line that leaves a core: its copies are gone, and memory stands where none of them was dirty (R234). -/
theorem dropLine_drops (c : CoreRef) (line : Nat) (s : State) : (∀ q, (s.dropLine c line).task? q = s.task? q)
    ∧ ((s.dropLine c line).core c).l1 = (s.core c).l1.filter (fun l => !decide (l.line = line))
    ∧ ((∀ l ∈ (s.core c).l1, l.line = line → l.dirty = false) → (s.dropLine c line).mem = s.mem) := by
  have worked := worked_giveBack s line true c
  have l1 := l1_giveBack line s c c
  have mem := mem_giveBack line true s c
  unfold State.dropLine
  generalize State.giveBack line true s c = w at worked l1 mem
  refine ⟨fun q => (task?_modCore_tasks w c rfl q).trans (worked.task? q), ?_, fun clean => ?_⟩
  · rw [State.core_modCore]
    rw [if_pos rfl] at l1
    rw [l1]
    exact dropped_ownCopy
  · rcases mem with same | ⟨l, at', here, back⟩
    · exact same
    · have kept : written s l = s.mem := if_neg fun h => Bool.false_ne_true ((clean l at' here).symm.trans h.2.1)
      exact back.trans kept

/-! ### The homes' answers (R234, R244, R405) -/

theorem answer_stores (s : State) (c : CoreRef) (line : Nat) (write : Bool) (a : Answer) :
    (∀ q, (s.answer c line write a).task? q = s.task? q) ∧ (s.answer c line write a).mem = s.mem
      ∧ ((s.answer c line write a).core c).l1req = answerFirst line write a (s.core c).l1req
      ∧ ∀ k, ((s.answer c line write a).core k).l1 = (s.core k).l1 := by
  refine ⟨task?_modCore_tasks s c rfl, rfl, ?_, fun k => ?_⟩
  · exact (congrArg Core.l1req (State.core_modCore ..) :)
  · unfold State.answer
    by_cases h : CoreRef.key k = CoreRef.key c
    · rw [core_congr _ h, State.core_modCore, core_congr s h]
    · rw [State.core_modCore_other _ _ h]

theorem open_line {q : L1Req} {line : Nat} {write : Bool} (h : q.open line write = true) : q.line = line := by
  unfold L1Req.open at h
  rw [Bool.and_eq_true, Bool.and_eq_true, decide_eq_true_eq] at h
  exact h.1.1

/-- The copy that a home hands out: the line's bytes under the key they were written with. -/
theorem copyFor_bytes (s : State) (q : L1Req) (rts : W64) (key : (s.lineMeta q.line).key = 0 ∨ (s.lineMeta q.line).key = q.key) :
    (s.copyFor q rts).data = s.mem.bytes (q.line * 128) 128 := by
  have own : (decide ((s.lineMeta q.line).key ≠ 0) && decide ((s.lineMeta q.line).key ≠ q.key)) = false := by
    rcases key with none | same
    · rw [decide_eq_false (not_not_intro none), Bool.false_and]
    · rw [decide_eq_false (p := _ ≠ q.key) (not_not_intro same), Bool.and_false]
  unfold State.copyFor
  simp only [own, Bool.false_eq_true, if_false]

/-- What an answered request leaves once the other copies are given back: `s1` is the state after the recall. -/
theorem serves_line {s s1 w : State} {c : CoreRef} {line : Nat} {write : Bool} {q : L1Req} {rts : W64} (asks : q.line = line)
    (worked : Worked s s1) (mem : w.mem = s1.mem) (cores : w.cores = s1.cores) (alone : write = true → s1 = s.recall line true) :
    ∃ t l, (.next (w.answer c line write (.line (s1.copyFor q rts))) : Host.Outcome State Fault Refusal) = .next t ∧ t.mem = s1.mem
      ∧ (∀ q, t.task? q = s.task? q) ∧ (t.core c).l1req = answerFirst line write (.line l) (s1.core c).l1req
      ∧ l.line = line ∧ l.right = q.right ∧ l.key = q.key ∧ l.gen = q.gen ∧ l.dirty = false ∧ l.wts = (s1.lineMeta line).wts
      ∧ ((s1.lineMeta line).key = 0 ∨ (s1.lineMeta line).key = q.key → l.data = s1.mem.bytes (line * 128) 128)
      ∧ (write = true → ∀ k, ∀ x ∈ (t.core k).l1, x.line = line → x.right = .ro) := by
  subst asks
  obtain ⟨tasks, kept, requests, copies⟩ := answer_stores w c q.line write (.line (s1.copyFor q rts))
  have same : ∀ k, w.core k = s1.core k := fun k => by rw [State.core, State.core, cores]
  refine ⟨_, s1.copyFor q rts, rfl, kept.trans mem, fun r => ?_, ?_, rfl, rfl, rfl, rfl, rfl, rfl, copyFor_bytes s1 q rts, fun store k x hx at' => ?_⟩
  · rw [tasks, State.task?, same]
    exact worked.task? r
  · rw [requests, same]
  · rw [copies, same, alone store] at hx
    have free := l1_recall q.line s k x hx
    simpa [ownCopy, at'] using free

/-- Lines that arrive change the copies of a core alone. -/
theorem installs_lines (got : List L1Line) (k : Core) : (got.foldl Core.install k).tasks = k.tasks
    ∧ (got.foldl Core.install k).l1req = k.l1req := by
  induction got generalizing k with
  | nil => exact ⟨rfl, rfl⟩
  | cons l got ih => exact ih (k.install l)

/-- L1_FILL brings in the granted lines, the last of them first in the L1 (R167). -/
theorem l1Fill_fills (c : CoreRef) (line : Nat) (s : State) : ∃ t, exec (.l1Fill c line) s = .next t ∧ TasksAndMemoryStand s t
    ∧ (t.core c).l1req = (s.core c).l1req.filter (fun q => !q.spent line)
    ∧ ((s.core c).l1req.filterMap (L1Req.granted line) = [] → (t.core c).l1 = (s.core c).l1)
    ∧ ∀ q l, (s.core c).l1req.filterMap (L1Req.granted line) = q ++ [l] →
      ∃ x, (t.core c).l1.head? = some x ∧ { x with slots := l.slots } = l := by
  refine ⟨_, rfl, ⟨task?_modCore_tasks s c (installs_lines _ _).1, rfl⟩, ?_, fun none => ?_, fun q l last => ?_⟩
  · rw [State.core_modCore]
    exact (installs_lines _ _).2
  · rw [State.core_modCore]
    dsimp only
    rw [none]
    rfl
  · rw [State.core_modCore]
    dsimp only
    rw [last, List.foldl_append]
    exact ⟨_, rfl, rfl⟩

/-- A request that its home refuses is answered so (R234, R405). -/
theorem refuses {c : CoreRef} {line : Nat} {write : Bool} {s : State} {q : L1Req} {e : Trap}
    (found : (s.core c).l1req.find? (fun q => q.open line write) = some q) (refused : s.refusal q = some e) :
    exec (if write then .homeStore c line else .homeLoad c line) s = .next (s.answer c line write (.refused e)) := by
  cases write with
  | false =>
    show execHomeLoad c line s = _
    unfold execHomeLoad
    rw [found]
    dsimp only
    rw [refused]
  | true =>
    show execHomeStore c line s = _
    unfold execHomeStore
    rw [found]
    dsimp only
    rw [refused]

theorem home_idle {c : CoreRef} {line : Nat} {s : State} (write : Bool)
    (none : (s.core c).l1req.find? (fun q => q.open line write) = none) :
    exec (if write then .homeStore c line else .homeLoad c line) s = .next s := by
  cases write with
  | false =>
    show execHomeLoad c line s = _
    unfold execHomeLoad
    rw [none]
  | true =>
    show execHomeStore c line s = _
    unfold execHomeStore
    rw [none]

/-- What a home does with an accepted request: it waits while the line is held, and else hands out the line. -/
theorem home_accepts {c : CoreRef} {line : Nat} {write : Bool} {s : State} {q : L1Req}
    (found : (s.core c).l1req.find? (fun q => q.open line write) = some q) (accepted : s.refusal q = none) :
    exec (if write then .homeStore c line else .homeLoad c line) s =
      if s.homeBusy (line * 128) || s.lineHeld line write (some c) then .next s
      else .next (if write then
          ((s.recall line write).tookFree 128).answer c line write
            (.line ((s.recall line write).copyFor q ((s.recall line write).lineMeta line).rts))
        else
          ((s.recall line write).modLine line fun m => { m with rts := grantEnd q ((s.recall line write).lineMeta line) }).answer c line write
            (.line ((s.recall line write).copyFor q (grantEnd q ((s.recall line write).lineMeta line))))) := by
  cases write with
  | false =>
    show execHomeLoad c line s = _
    unfold execHomeLoad
    rw [found]
    dsimp only
    rw [accepted]
    dsimp only
    split <;> rfl
  | true =>
    show execHomeStore c line s = _
    unfold execHomeStore
    rw [found]
    dsimp only
    rw [accepted]
    dsimp only
    split <;> rfl

/-- Settles O52: a step of a core or a home is its function's case, and the rules above say what each leaves. -/
theorem coreStepsAndLines : Obligations.CoreStepsAndLines := by
  unfold Obligations.CoreStepsAndLines
  refine ⟨fun c s => ?_, fun d s => ?_, fUnitFree_frees, fun r s => ?_, fun c line s => ?_⟩
  · intro s1
    refine ⟨fun due => ?_, fun idle => ⟨fun n one => ?_, fun none => ?_⟩⟩
    · show Host.Outcome.next (if (isLodge c.core && s1.eventDue c.die) = true then _ else _) = _
      rw [if_pos due]
    · have tick : exec (.issueTick c) s = .next (s1.tickOver c [n]) := by
        show Host.Outcome.next (if (isLodge c.core && s1.eventDue c.die) = true then _ else _) = _
        rw [idle, if_neg Bool.false_ne_true, one]
      rw [tick, tickOver_one]
      cases issueBundle (s1.focus c n) with
      | issued t => rfl
      | trapped t => rfl
      | held t => rfl
    · show Host.Outcome.next (if (isLodge c.core && s1.eventDue c.die) = true then _ else _) = _
      rw [idle, if_neg Bool.false_ne_true, none]
      rfl
  · intro r
    refine ⟨fun idle => ?_, fun due => ⟨s.lodgeEntry r 0 0, ?_, ?_⟩⟩
    · show Host.Outcome.next (if s.eventDue d = true then _ else s) = _
      rw [idle, if_neg Bool.false_ne_true]
    · show Host.Outcome.next (if s.eventDue d = true then _ else s) = _
      rw [due, if_pos rfl]
    · obtain ⟨mem, others, task, here, dies⟩ := lodgeEntry_enters s r 0 0
      have masked : (s.die d).lodge.emask = 2 := by
        unfold State.eventDue at due
        simp only [Bool.and_eq_true, decide_eq_true_eq] at due
        exact due.1.1.2
      refine ⟨mem, others, task, here.trans ?_, dies⟩
      rw [show r.die = d from rfl, masked]
      rfl
  · intro k lo
    refine ⟨fun idle => ?_, fun draining => ?_, fun open' => ?_, fun shut moves => ?_, fun busy => ?_, fun done => ?_, fun quiet => ?_,
      fun halt alone => ?_⟩
    · exact congrArg Host.Outcome.next (drain_idle idle)
    · obtain ⟨task, others, bytes⟩ := drain_ends draining
      exact ⟨_, rfl, task, others, bytes⟩
    · have open_ : ¬((s.task r).barLeft = 0 ∧ (s.task r).moveLen ≠ 0) := fun h => open'.elim (fun more => Nat.ne_of_gt more h.1) h.2
      exact congrArg Host.Outcome.next (if_neg open_)
    · obtain ⟨task, others⟩ := drain_task s r
      refine ⟨(s.drain r).modTask r fun x => { x with moveLen := 0, moveFirst := 0 }, congrArg Host.Outcome.next (if_pos ⟨shut, moves⟩), ?_,
        others.trans (othersStand_modTask _ r _)⟩
      rw [State.task_modTask, task]
    · show Host.Outcome.next (if s.slotDone r = true then _ else s) = _
      rw [busy, if_neg Bool.false_ne_true]
    · refine ⟨s.freeSlotOf r, ?_, ?_⟩
      · show Host.Outcome.next (if s.slotDone r = true then _ else s) = _
        rw [done, if_pos rfl]
      · cases there : s.task? r with
        | none => simp [State.slotDone, there] at done
        | some x => exact freeSlotOf_frees there
    · have stays : ¬((s.task r).preempt && (s.core r.coreRef).rerun.isNone) = true := by
        rw [show (s.task r).preempt = false from quiet, Bool.false_and]
        exact Bool.false_ne_true
      exact congrArg Host.Outcome.next (if_neg stays)
    · have halts : ((s.task r).preempt && (s.core r.coreRef).rerun.isNone) = true := by
        rw [show (s.task r).preempt = true from halt, alone]
        rfl
      exact ⟨s.haltTask r, congrArg Host.Outcome.next (if_pos halts), haltTask_halts s r⟩
  · refine ⟨l1Fill_fills c line s, fun kept => ?_, fun free => ⟨s.dropLine c line, ?_, dropLine_drops c line s⟩,
      home_idle false, home_idle true, fun q write found => ⟨fun e refused => ?_, fun accepted held => ?_, fun accepted free => ?_⟩⟩
    · exact congrArg Host.Outcome.next (if_pos kept)
    · exact congrArg Host.Outcome.next (if_neg (by rw [free]; exact Bool.false_ne_true))
    · obtain ⟨tasks, mem, requests, -⟩ := answer_stores s c line write (.refused e)
      exact ⟨_, refuses found refused, ⟨tasks, mem⟩, requests⟩
    · rw [home_accepts found accepted, held, if_pos rfl]
    · rw [home_accepts found accepted, free, if_neg Bool.false_ne_true]
      have asks : q.line = line := open_line (write := write) (List.find?_some found :)
      have worked := worked_recall s line write
      cases write with
      | true =>
        exact serves_line asks worked (w := (s.recall line true).tookFree 128) rfl rfl fun _ => rfl
      | false =>
        exact serves_line asks worked (w := (s.recall line false).modLine line fun m =>
          { m with rts := grantEnd q ((s.recall line false).lineMeta line) }) rfl rfl fun h => absurd h Bool.false_ne_true

end Sys2Proof

namespace Sys2Proof

open Machine

/-! ### An atomic at its home (R258, R247) -/

/-- No core has a copy of a line that it could write or must give back: read-only ones alone are left. -/
def Alone (line : Nat) (s : State) : Prop := ∀ k : CoreRef, ∀ x ∈ (s.core k).l1, ownCopy line x = false

theorem alone_recall (line : Nat) (s : State) : Alone line (s.recall line true) := l1_recall line s

/-- A core without such a copy gives back nothing. -/
theorem giveBack_alone {line : Nat} {u : State} (alone : Alone line u) (c : CoreRef) : (State.giveBack line true u c).mem = u.mem
    ∧ (State.giveBack line true u c).lines = u.lines ∧ Alone line (State.giveBack line true u c) := by
  have none : ∀ w : State, (w.core c).l1 = (u.core c).l1 → handedBack line w c = w := fun w l1 => by
    have no : (w.core c).l1.find? (ownCopy line) = none := by
      rw [l1]
      exact List.find?_eq_none.2 fun x hx => by rw [alone c x hx]; exact Bool.false_ne_true
    unfold handedBack
    rw [no]
  refine ⟨?_, ?_, fun k x hx => ?_⟩
  · rw [giveBack_eq]
    split
    · rw [none u rfl]
    · rw [none _ (congrArg Core.l1 (State.core_modCore ..) :)]
      rfl
  · rw [giveBack_eq]
    split
    · rw [none u rfl]
    · rw [none _ (congrArg Core.l1 (State.core_modCore ..) :)]
      rfl
  · rw [l1_giveBack] at hx
    split at hx
    · exact alone k x (List.mem_filter.1 hx).1
    · exact alone k x hx

/-- A recall of a line that no core has to give back leaves memory and the homes' records. -/
theorem recall_of_alone {line : Nat} {u : State} (alone : Alone line u) : (u.recall line true).mem = u.mem
    ∧ (u.recall line true).lines = u.lines := by
  have all : ∀ (l : List CoreRef) (v : State), Alone line v → (l.foldl (State.giveBack line true) v).mem = v.mem
      ∧ (l.foldl (State.giveBack line true) v).lines = v.lines := by
    intro l
    induction l with
    | nil => exact fun _ _ => ⟨rfl, rfl⟩
    | cons c l ih =>
      intro v h
      obtain ⟨mem, lines, still⟩ := giveBack_alone h c
      exact ⟨(ih _ still).1.trans mem, (ih _ still).2.trans lines⟩
  exact all _ _ alone

/-- Bytes written within a line whose copies have been given back, under its own key or where it has none, are all that changes
(R234, R405). -/
theorem mem_writeLine_alone {u : State} {o key : Nat} (d : List Byte) (alone : Alone (lineOf o) u)
    (keys : (u.lineMeta (lineOf o)).key = 0 ∨ (u.lineMeta (lineOf o)).key = key) : (u.writeLine o key d).mem = u.mem.setBytes o d := by
  obtain ⟨mem, lines⟩ := recall_of_alone alone
  unfold State.writeLine
  dsimp only
  generalize u.recall (lineOf o) true = w at mem lines ⊢
  have record : w.lineMeta (lineOf o) = u.lineMeta (lineOf o) := by rw [State.lineMeta, State.lineMeta, lines]
  have related : ¬((w.lineMeta (lineOf o)).key ≠ 0 ∧ w.sameKey (w.lineMeta (lineOf o)).key key = false) := by
    rw [record]
    rintro ⟨some, other⟩
    rw [keys.resolve_left some, State.sameKey, decide_eq_true rfl, Bool.true_or] at other
    exact Bool.noConfusion other
  rw [if_neg related]
  split
  · exact congrArg (fun m : Memory => m.setBytes o d) mem
  · exact congrArg (fun m : Memory => m.setBytes o d) mem

theorem mem_storeHbm_alone {u : State} {o key : Nat} {d : List Byte} (alone : Alone (lineOf o) u)
    (keys : (u.lineMeta (lineOf o)).key = 0 ∨ (u.lineMeta (lineOf o)).key = key) (there : u.hasKey key = true)
    (inside : o % 128 + d.length ≤ 128) (some : d ≠ []) : (u.storeHbm o key d).mem = u.mem.setBytes o d := by
  have whole : d.take (128 - o % 128) = d := List.take_of_length_le (by omega)
  have rest : d.drop (128 - o % 128) = [] := List.drop_of_length_le (by omega)
  unfold State.storeHbm State.writeHbm
  rw [if_pos there, if_neg some]
  dsimp only
  rw [whole, rest]
  unfold State.writeHbm
  rw [if_pos rfl]
  exact mem_writeLine_alone d alone keys

theorem worked_mark (s : State) (c : CoreRef) (t : W64) : Worked s (s.mark c t) :=
  ((Worked.modCore s c (fun k => { k with hwm := tmax k.hwm t }) rfl).trans
    (.modDie _ c.die (fun d => { d with hwm := tmax d.hwm t }) rfl)).trans (.of_stores rfl rfl rfl)

theorem noteSet_stores (s : State) (r : TaskRef) (a : AtomicOp) (ta : W64) : (s.noteSet r a ta).cores = s.cores
    ∧ (s.noteSet r a ta).mem = s.mem := by
  unfold State.noteSet
  split <;> exact ⟨rfl, rfl⟩

theorem atomic_width_pos (a : AtomicOp) : 0 < a.width := by
  unfold AtomicOp.width
  split
  · split <;> decide
  · split <;> decide

theorem mem_mark (s : State) (c : CoreRef) (t : W64) : (s.mark c t).mem = s.mem := rfl

theorem atomicAt_eq (s : State) (a : AtomicOp) (o key : Nat) (ta : W64) : s.atomicAt a o key ta =
    (((s.recall (lineOf o) true).storeHbm o key
      (leBytes a.width (a.next (leNat ((s.recall (lineOf o) true).mem.bytes o a.width))).1)).modLine (lineOf o) fun m =>
        { m with wts := ta, rts := ta }, leNat ((s.recall (lineOf o) true).mem.bytes o a.width)) := rfl

/-- The state after an atomic has been performed at its home (R258). -/
def performed (s : State) (r : TaskRef) (a : AtomicOp) : State :=
  let line := lineOf (paOffset a.pa)
  let ta := (s.recall line true).atomicTime r a line
  let x := s.atomicAt a (paOffset a.pa) (jobKey (s.task r).job) ta
  ((x.1.mark r.coreRef ta).noteSet r a ta).setHold r (.atomic { a with floor := ta, result := some (a.returned x.2, (a.next x.2).2) })

/-- The bytes of a line change where an atomic is performed, and its task keeps the old value (R258, R254). -/
theorem performed_atomic (s : State) (r : TaskRef) (a : AtomicOp) (inside : paOffset a.pa % 128 + a.width ≤ 128)
    (there : s.hasKey (jobKey (s.task r).job) = true)
    (keys : ((s.recall (lineOf (paOffset a.pa)) true).lineMeta (lineOf (paOffset a.pa))).key = 0
      ∨ ((s.recall (lineOf (paOffset a.pa)) true).lineMeta (lineOf (paOffset a.pa))).key = jobKey (s.task r).job) :
    let s1 := s.recall (lineOf (paOffset a.pa)) true
    let old := leNat (s1.mem.bytes (paOffset a.pa) a.width)
    ((performed s r a).task r).holds = .atomic { a with
        floor := s1.atomicTime r a (lineOf (paOffset a.pa)), result := some (a.returned old, (a.next old).2) } :: (s.task r).holds.drop 1
      ∧ OthersStand s (performed s r a) r
      ∧ (performed s r a).mem = s1.mem.setBytes (paOffset a.pa) (leBytes a.width (a.next old).1) := by
  intro s1 old
  have worked : Worked s s1 := worked_recall ..
  have there1 : s1.hasKey (jobKey (s.task r).job) = true :=
    (congrArg (fun k : List KeyEntry => decide (jobKey (s.task r).job < 2) || k.any fun k => decide (jobKey k.job = jobKey (s.task r).job))
      (congrArg State.keys worked.rest :) :).trans there
  have length := leBytes_length a.width (a.next old).1
  have mem := mem_storeHbm_alone (d := leBytes a.width (a.next old).1) (alone_recall _ s) keys there1 (by rw [length]; exact inside)
    fun none => Nat.ne_of_gt (atomic_width_pos a) (by rw [← length, none]; rfl)
  have stored : Worked s1 (s1.storeHbm (paOffset a.pa) (jobKey (s.task r).job) (leBytes a.width (a.next old).1)) := worked_storeHbm ..
  unfold performed
  dsimp only
  rw [atomicAt_eq]
  generalize s1.atomicTime r a (lineOf (paOffset a.pa)) = ta
  generalize s1.storeHbm (paOffset a.pa) (jobKey (s.task r).job) (leBytes a.width (a.next old).1) = w at mem stored ⊢
  have stamped := ((worked.trans stored).trans (worked_modLine w (lineOf (paOffset a.pa)) fun m => { m with wts := ta, rts := ta })).trans
    (worked_mark _ r.coreRef ta)
  have memV : ((w.modLine (lineOf (paOffset a.pa)) fun m => { m with wts := ta, rts := ta }).mark r.coreRef ta).mem = w.mem :=
    mem_mark ..
  generalize (w.modLine (lineOf (paOffset a.pa)) fun m => { m with wts := ta, rts := ta }).mark r.coreRef ta = v at stamped memV
  obtain ⟨cores, memN⟩ := noteSet_stores v r a ta
  generalize v.noteSet r a ta = n at cores memN
  have tasks : ∀ q, n.task? q = s.task? q := fun q => by
    rw [State.task?, State.core, cores]
    exact stamped.task? q
  have task : n.task r = s.task r := by rw [State.task, tasks, ← State.task]
  refine ⟨?_, fun q beside => (task?_modTask_beside n _ beside).trans (tasks q), memN.trans (memV.trans mem)⟩
  rw [State.setHold, State.task_modTask, task]

/-- The request of an atomic on its way to another module (R264): its task holds for the reply. -/
theorem requested_atomic (s : State) (r : TaskRef) (a : AtomicOp) (far : paModule a.pa ≠ s.module.toNat) :
    ∃ t, s.executeAtomic r a = t
      ∧ (t.task r).holds = .remote (requestId s.module.toNat r.die (s.nextSeq r.die (paModule a.pa))) a :: (s.task r).holds.drop 1
      ∧ t.sent = s.sent ++ [⟨r.die, { a.request (s.task r).job (s.fenceTime r a.floor + 1) with
          id := requestId s.module.toNat r.die (s.nextSeq r.die (paModule a.pa)) }, paModule a.pa, 1, r, none, none⟩]
      ∧ OthersStand s t r ∧ t.mem = s.mem := by
  unfold State.executeAtomic
  rw [if_neg far]
  refine ⟨_, rfl, ?_⟩
  dsimp only
  generalize hw : s.modTask r (fun x => { x with time := s.fenceTime r a.floor }) = w
  have holds : (w.task r).holds = (s.task r).holds := by rw [← hw, State.task_modTask]
  have others : OthersStand s w r := by rw [← hw]; exact othersStand_modTask s r _
  have seq : w.nextSeq r.die (paModule a.pa) = s.nextSeq r.die (paModule a.pa) := by rw [← hw]; rfl
  have id : w.module = s.module := by rw [← hw]; rfl
  have sent : w.sent = s.sent := by rw [← hw]; rfl
  have mem : w.mem = s.mem := by rw [← hw]; rfl
  have worked := worked_sendReq w r none (paModule a.pa) (a.request (s.task r).job (s.fenceTime r a.floor + 1))
  have number : (w.sendReq r none (paModule a.pa) (a.request (s.task r).job (s.fenceTime r a.floor + 1))).2
    = requestId w.module.toNat r.die (w.nextSeq r.die (paModule a.pa)) := rfl
  have sentX : (w.sendReq r none (paModule a.pa) (a.request (s.task r).job (s.fenceTime r a.floor + 1))).1.sent = w.sent ++
    [⟨r.die, { a.request (s.task r).job (s.fenceTime r a.floor + 1) with
      id := requestId w.module.toNat r.die (w.nextSeq r.die (paModule a.pa)) }, paModule a.pa, 1, r, none, none⟩] := rfl
  have memX : (w.sendReq r none (paModule a.pa) (a.request (s.task r).job (s.fenceTime r a.floor + 1))).1.mem = w.mem := rfl
  generalize w.sendReq r none (paModule a.pa) (a.request (s.task r).job (s.fenceTime r a.floor + 1)) = x at worked number sentX memX ⊢
  refine ⟨?_, ?_, fun q beside => ?_, memX.trans mem⟩
  · rw [State.setHold, State.task_modTask, worked.task, holds, number, id, seq]
  · refine sentX.trans ?_
    rw [sent, id, seq]
  · exact (task?_modTask_beside x.1 _ beside).trans ((worked.task? q).trans (others q beside))

/-- What becomes of an atomic at its home (R234, R239, R258). -/
theorem executeAtomic_here {s : State} {r : TaskRef} {a : AtomicOp} (here : paModule a.pa = s.module.toNat) : s.executeAtomic r a =
    if a.gen ≠ s.genOf (paOffset a.pa) then (if (s.task r).halted then s else s.atomicTraps r a ⟨0x63, a.va⟩)
    else if s.runHeld (paOffset a.pa) a.width true then s else performed s r a := by
  unfold State.executeAtomic
  rw [if_pos here]
  rfl

/-! ### What an atomic computes (Table 12.3) -/

/-- The new values of Table 12.3, of the unsigned forms and of ACAS. -/
theorem next_values (a : AtomicOp) (old : Nat) : let v := a.operand.toNat % 2 ^ (8 * a.width)
    (∀ x, a.fadd = none → a.cas = some x → a.next old = (if old = v then x.toNat else old, 0))
    ∧ (a.fadd = none → a.cas = none →
      (a.op = 0 → a.next old = (old + v, 0)) ∧ (a.op = 1 → a.uns = true → a.next old = (min old v, 0))
      ∧ (a.op = 2 → a.uns = true → a.next old = (max old v, 0)) ∧ (a.op = 3 → a.next old = (old &&& v, 0))
      ∧ (a.op = 4 → a.next old = (old ||| v, 0)) ∧ (a.op = 5 → a.next old = (old ^^^ v, 0)) ∧ (a.op = 6 → a.next old = (v, 0))
      ∧ (a.op = 7 → a.uns = true → a.next old = (if old < v then old + 1 else old, 0))) := by
  intro v
  refine ⟨fun x fadd cas => ?_, fun fadd cas => ?_⟩
  · unfold AtomicOp.next
    rw [fadd, cas]
  · have int : a.next old = (a.intNew old v, 0) := by
      unfold AtomicOp.next
      rw [fadd, cas]
    have whole (uns : a.uns = true) (n : Nat) : a.intOf n = (n : Int) := by
      unfold AtomicOp.intOf
      rw [uns, if_pos rfl]
    rw [int]
    refine ⟨fun op => ?_, fun op uns => ?_, fun op uns => ?_, fun op => ?_, fun op => ?_, fun op => ?_, fun op => ?_, fun op uns => ?_⟩
    · simp only [AtomicOp.intNew, op]
    · simp only [AtomicOp.intNew, op, whole uns, Nat.cast_le, Nat.min_def]
    · simp only [AtomicOp.intNew, op, whole uns, Nat.cast_le]
      split <;> congr 1 <;> omega
    · simp only [AtomicOp.intNew, op]
    · simp only [AtomicOp.intNew, op]
    · simp only [AtomicOp.intNew, op]
    · simp only [AtomicOp.intNew, op]
    · simp only [AtomicOp.intNew, op, whole uns, Nat.cast_lt]

/-! ### The old value comes back (R254, R256) -/

/-- A task that takes a reply at a time: its first outstanding operation is off, and its time is at least that one. -/
def replied (t : Task) (ta : W64) (rest : List Hold) : Task := { t.observe ta with holds := rest }

/-- An old value delivered: to its register, or, while the task is halted, as a pending result (R254, R284). -/
theorem delivers {s : State} {r : TaskRef} {h : Hold} {rest : List Hold} (holds : (s.task r).holds = h :: rest) (d : Nat) (v : W64) (f : Flags)
    (ta : W64) : OthersStand s (s.deliver r d v f ta) r ∧ (s.deliver r d v f ta).mem = s.mem
      ∧ (s.deliver r d v f ta).task r = if (replied (s.task r) ta rest).halted then (replied (s.task r) ta rest).push 0 (.scalar d v) f
        else ((replied (s.task r) ta rest).setSreg d v).orFlags f := by
  have steps : s.deliver r d v f ta =
      (if (((s.modTask r fun t => t.observe ta).dropHold r).task r).halted then
        ((s.modTask r fun t => t.observe ta).dropHold r).modTask r fun t => t.push 0 (.scalar d v) f
      else ((s.modTask r fun t => t.observe ta).dropHold r).modTask r fun t => (t.setSreg d v).orFlags f) := rfl
  have task : ((s.modTask r fun t => t.observe ta).dropHold r).task r = replied (s.task r) ta rest := by
    rw [State.dropHold, State.task_modTask, State.task_modTask]
    show { ((s.task r).observe ta) with holds := (s.task r).holds.drop 1 } = _
    rw [holds]
    rfl
  have others : OthersStand s ((s.modTask r fun t => t.observe ta).dropHold r) r :=
    (othersStand_modTask s r _).trans (othersStand_modTask _ r _)
  have mem : ((s.modTask r fun t => t.observe ta).dropHold r).mem = s.mem := rfl
  rw [steps]
  generalize (s.modTask r fun t => t.observe ta).dropHold r = w at task others mem ⊢
  rw [task]
  split
  · exact ⟨others.trans (othersStand_modTask _ r _), mem, by rw [State.task_modTask, task]⟩
  · exact ⟨others.trans (othersStand_modTask _ r _), mem, by rw [State.task_modTask, task]⟩

end Sys2Proof

namespace Sys2Proof

open Machine

/-! ### The tile loop sequencer (R276 to R279) -/

/-- A request served: the launch changes, and the request is off its task's list. -/
theorem serves_loop (s : State) (r : TaskRef) (g : Launch → Launch) {h : Hold} {rest : List Hold} (holds : (s.task r).holds = h :: rest) :
    OthersStand s ((s.modLaunch (s.task r).launch g).dropHold r) r ∧ ((s.modLaunch (s.task r).launch g).dropHold r).mem = s.mem
      ∧ ((s.modLaunch (s.task r).launch g).dropHold r).task r = { s.task r with holds := rest }
      ∧ ((s.modLaunch (s.task r).launch g).dropHold r).launches = s.launches.map fun l => if l.seq = (s.task r).launch then g l else l := by
  have same : ∀ q, (s.modLaunch (s.task r).launch g).task? q = s.task? q := fun _ => rfl
  refine ⟨fun q beside => (task?_modTask_beside _ _ beside).trans (same q), rfl, ?_, rfl⟩
  rw [State.dropHold, State.task_modTask]
  have kept : (s.modLaunch (s.task r).launch g).task r = s.task r := rfl
  rw [kept, holds]
  rfl

theorem headHold_of {s : State} {r : TaskRef} {h : Hold} {rest : List Hold} (holds : (s.task r).holds = h :: rest) : s.headHold r = some h := by
  rw [State.headHold, holds]
  rfl

theorem loopTurn_idle {s : State} {r : TaskRef} (idle : (s.task r).holds = []) : s.loopTurn r = false := by
  have none : s.headHold r = none := by
    rw [State.headHold, idle]
    rfl
  unfold State.loopTurn
  rw [none]
  rfl

theorem claim_waits {s : State} {r : TaskRef} (wait : s.loopTurn r = false) : exec (.claim r) s = .next s := by
  show execClaim r s = _
  unfold execClaim
  rw [wait]
  rfl

theorem steal_waits {s : State} {r : TaskRef} (wait : s.loopTurn r = false) : exec (.stealRequest r) s = .next s := by
  show execStealRequest r s = _
  unfold execStealRequest
  rw [wait]
  rfl

theorem claim_serves {s : State} {r : TaskRef} {v n : W64} {rest : List Hold} (turn : s.loopTurn r = true)
    (holds : (s.task r).holds = .claim v n :: rest) : exec (.claim r) s = .next ((s.modLaunch (s.task r).launch fun l =>
      l.setSlice (s.task r).lidx.toNat ((l.slice (s.task r).lidx.toNat).claimed v)).dropHold r) := by
  show execClaim r s = _
  unfold execClaim
  rw [turn, headHold_of holds]
  rfl

theorem steal_serves {s : State} {r : TaskRef} {n : W64} {rest : List Hold} (turn : s.loopTurn r = true)
    (holds : (s.task r).holds = .steal n :: rest) : exec (.stealRequest r) s =
      .next ((s.modLaunch (s.task r).launch fun l => l.stolen (s.task r).lidx.toNat).dropHold r) := by
  show execStealRequest r s = _
  unfold execStealRequest
  rw [turn, headHold_of holds]
  rfl

theorem atomicReply_idle {s : State} {r : TaskRef} (idle : (s.task r).holds = []) : exec (.atomicReply r) s = .next s := by
  show execAtomicReply r s = _
  unfold execAtomicReply
  rw [idle]

theorem slice_setSlice (l : Launch) (k : Nat) (x : Slice) : (l.setSlice k x).slice k = x := by
  rw [Launch.slice, Launch.setSlice]
  dsimp only
  rw [Tbl.get_set_same]
  rfl

theorem slice_setSlice_other (l : Launch) {k j : Nat} (x : Slice) (h : j ≠ k) : (l.setSlice k x).slice j = l.slice j := by
  rw [Launch.slice, Launch.setSlice]
  dsimp only
  rw [Tbl.get_set_other _ _ _ h]
  rfl

/-- A steal empties the slice where the victim has too little (R278). -/
theorem stolen_nothing {l : Launch} {h v u : Nat} (grain : l.grain ≠ 0) (victim : l.victim h = some (v, u)) (few : u < 2 * l.grain) :
    l.stolen h = l.setSlice h ⟨(l.slice h).sle, (l.slice h).sle, (l.slice h).sle⟩ := by
  unfold Launch.stolen
  rw [if_neg grain, victim]
  exact if_pos few

/-- A steal moves whole grains from the victim's end (R278). -/
theorem stolen_grains {l : Launch} {h v u : Nat} (grain : l.grain ≠ 0) (victim : l.victim h = some (v, u)) (enough : 2 * l.grain ≤ u) :
    l.stolen h = (l.setSlice h ⟨(l.slice v).sle - BitVec.ofNat 64 (u / (2 * l.grain) * l.grain), (l.slice v).sle,
      (l.slice v).sle - BitVec.ofNat 64 (u / (2 * l.grain) * l.grain)⟩).setSlice v
        { l.slice v with sle := (l.slice v).sle - BitVec.ofNat 64 (u / (2 * l.grain) * l.grain) } := by
  unfold Launch.stolen
  rw [if_neg grain, victim]
  exact if_neg (Nat.not_lt.2 enough)

theorem stolen_slices (l : Launch) (h v u : Nat) (grain : l.grain ≠ 0) (victim : l.victim h = some (v, u)) (other : v ≠ h) :
    (u < 2 * l.grain → (l.stolen h).slice h = ⟨(l.slice h).sle, (l.slice h).sle, (l.slice h).sle⟩ ∧ (l.stolen h).slice v = l.slice v)
    ∧ (2 * l.grain ≤ u → let m := (l.slice v).sle - BitVec.ofNat 64 (u / (2 * l.grain) * l.grain)
      (l.stolen h).slice h = ⟨m, (l.slice v).sle, m⟩ ∧ (l.stolen h).slice v = { l.slice v with sle := m }) := by
  refine ⟨fun few => ?_, fun enough => ?_⟩
  · rw [stolen_nothing grain victim few]
    exact ⟨slice_setSlice .., slice_setSlice_other _ _ other⟩
  · intro m
    rw [stolen_grains grain victim enough]
    exact ⟨(slice_setSlice_other _ _ (Ne.symm other)).trans (slice_setSlice ..), slice_setSlice ..⟩

end Sys2Proof

namespace Sys2Proof

open Machine

/-! ### Errors of the array and the stores (R209, R386) -/

/-- An error beyond repair: the task halts, and its die posts the fault (R209). -/
theorem beyondRepair_halts {s : State} {r : TaskRef} (source : Nat) (ready : (s.task r).status = .ready) :
    OthersStand s (s.beyondRepair r source) r ∧ (s.beyondRepair r source).mem = s.mem ∧ ((s.beyondRepair r source).task r).halted = true
      ∧ (s.beyondRepair r source).die r.die = ((s.die r.die).noteFault r.core 0xA2).post
        ⟨0xA2, 1, r.die, r.core, r.slot, (s.task r).job, BitVec.ofNat 64 source, (s.task r).lidx, 0, s.cycle32, none⟩ := by
  have worked : Worked s (s.postTaskFault r 0xA2 (BitVec.ofNat 64 source)) := worked_postFault ..
  have die : (s.postTaskFault r 0xA2 (BitVec.ofNat 64 source)).die r.die = ((s.die r.die).noteFault r.core 0xA2).post
      ⟨0xA2, 1, r.die, r.core, r.slot, (s.task r).job, BitVec.ofNat 64 source, (s.task r).lidx, 0, s.cycle32, none⟩ := by
    unfold State.postTaskFault State.postFault
    rw [die_post, State.die_modDie]
  have mem : (s.postTaskFault r 0xA2 (BitVec.ofNat 64 source)).mem = s.mem := rfl
  unfold State.beyondRepair
  dsimp only
  generalize s.postTaskFault r 0xA2 (BitVec.ofNat 64 source) = w at worked die mem
  have going : ¬(w.task r).status = .ending := by
    rw [worked.task, ready]
    decide
  rw [if_neg going]
  obtain ⟨task, others, kept⟩ := haltTask_halts w r
  refine ⟨fun q beside => (others q beside).trans (worked.task? q), kept.trans mem, ?_, (rfl : _ = w.die r.die).trans die⟩
  rw [task]

/-- The reruns of a core made to disagree where one is under way (R208). -/
def spoiled (s : State) (r : TaskRef) : State :=
  if (s.core r.coreRef).rerun.any fun y => decide (y.run ≠ 0) then
    s.modCore r.coreRef fun k => { k with rerun := k.rerun.map fun y => { y with failed := true } }
  else s

theorem keepsTasks_spoiled (s : State) (r : TaskRef) : KeepsTasks s (spoiled s r) := by
  unfold spoiled
  split
  · exact keepsTasks_modCore _ _ _ rfl
  · exact .refl s

theorem spoiled_stores (s : State) (r : TaskRef) : (spoiled s r).mem = s.mem ∧ (spoiled s r).cycle32 = s.cycle32 := by
  unfold spoiled
  split <;> exact ⟨rfl, rfl⟩

theorem rerun_spoiled (s : State) (r : TaskRef) : ((spoiled s r).core r.coreRef).rerun = (s.core r.coreRef).rerun.map fun y =>
    if y.run ≠ 0 then { y with failed := true } else y := by
  unfold spoiled
  cases runs : (s.core r.coreRef).rerun with
  | none =>
    rw [if_neg (by decide)]
    exact runs
  | some y =>
    by_cases run : y.run ≠ 0
    · rw [if_pos (by simpa using run), State.core_modCore]
      simp only [runs, Option.map_some, if_pos run]
    · rw [if_neg (by simpa using run), runs]
      simp only [Option.map_some, if_neg run]

/-- An error of a task's unit outside any recovery is the tile task's (R299). -/
theorem arrayError_tiling {s : State} {r : TaskRef} {x : Task} {source tok : Nat} {h : CoreRef} (there : s.task? r = some x)
    (tiling : x.status = .tiling h tok) (quiet : (s.core r.coreRef).rerun = none) : s.arrayError r source = s.tileError r source h tok := by
  unfold State.arrayError
  rw [there]
  dsimp only
  rw [quiet, tiling]
  rfl

/-- An error met by a ready task while its core reruns a region (R208). -/
theorem arrayError_rerunning {s : State} {r : TaskRef} {x : Task} {y : Rerun} {source : Nat} (there : s.task? r = some x)
    (ready : x.status = .ready) (runs : (s.core r.coreRef).rerun = some y) : s.arrayError r source =
      if y.slot = r.slot ∧ ((decide (y.run ≠ 0)) = true ∨ ((spoiled s r).regionOf r).isSome = true) then spoiled s r
      else (spoiled s r).tookFree.beyondRepair r source := by
  have still := rerun_spoiled s r
  have steps : s.arrayError r source = match ((spoiled s r).core r.coreRef).rerun, (spoiled s r).regionOf r with
      | some y, g => if y.slot = r.slot ∧ (((s.core r.coreRef).rerun.any fun y => decide (y.run ≠ 0)) = true ∨ g.isSome = true)
          then spoiled s r else (spoiled s r).tookFree.beyondRepair r source
      | none, some g =>
        if g.guarded then
          ((spoiled s r).tookFree.modCore r.coreRef fun k =>
            { k with rerun := some ⟨r.slot, source, 0, g.bundles, 0, 0, 0, false, if x.halted then [r.slot] else []⟩ }).recoverAll
            r.coreRef
        else (spoiled s r).tookFree.beyondRepair r source
      | none, none => (spoiled s r).tookFree.beyondRepair r source := by
    unfold State.arrayError
    rw [there]
    dsimp only
    rw [ready]
    rfl
  rw [steps, still, runs]
  have slot : (if y.run ≠ 0 then { y with failed := true } else y).slot = y.slot := by split <;> rfl
  simp only [Option.map_some, slot, Option.any_some]

/-- An error met by a ready task of a core that reruns nothing (R208, R209). -/
theorem arrayError_alone {s : State} {r : TaskRef} {x : Task} {source : Nat} (there : s.task? r = some x)
    (ready : x.status = .ready) (quiet : (s.core r.coreRef).rerun = none) : s.arrayError r source = match s.regionOf r with
      | some g =>
        if g.guarded then
          (s.tookFree.modCore r.coreRef fun k =>
            { k with rerun := some ⟨r.slot, source, 0, g.bundles, 0, 0, 0, false, if x.halted then [r.slot] else []⟩ }).recoverAll
            r.coreRef
        else s.tookFree.beyondRepair r source
      | none => s.tookFree.beyondRepair r source := by
  unfold State.arrayError
  rw [there]
  dsimp only
  rw [ready, quiet]
  simp only [Option.any_none, Bool.false_eq_true, if_false, quiet]
  cases s.regionOf r with
  | none => rfl
  | some g => rfl

/-! ### Rollback (R208) -/

/-- What a rollback leaves beside the stores it restores. -/
structure Restores (s t : State) : Prop where
  task? : ∀ q, t.task? q = s.task? q
  cores : ∀ c, { t.core c with vfile := [] } = { s.core c with vfile := [] }
  fatal : t.fatal = s.fatal

theorem restores_item (c : CoreRef) (s : State) (x : LogItem) : Restores s (State.restoreLogged c s x) := by
  unfold State.restoreLogged
  cases x with
  | vreg p old =>
    refine ⟨task?_modCore_tasks s c rfl, fun k => ?_, rfl⟩
    by_cases h : CoreRef.key k = CoreRef.key c
    · rw [core_congr _ h, State.core_modCore, core_congr s h]
    · rw [State.core_modCore_other _ _ h]
  | bytes a old => exact ⟨fun _ => rfl, fun _ => rfl, rfl⟩

theorem restores_items (c : CoreRef) (l : List LogItem) (s : State) : Restores s (l.foldl (State.restoreLogged c) s) := by
  induction l generalizing s with
  | nil => exact ⟨fun _ => rfl, fun _ => rfl, rfl⟩
  | cons x l ih =>
    have one := restores_item c s x
    have rest := ih (State.restoreLogged c s x)
    exact ⟨fun q => (rest.task? q).trans (one.task? q), fun k => (rest.cores k).trans (one.cores k), rest.fatal.trans one.fatal⟩

theorem restoreTiles_rest (c : Core) (r : TaskRef) (l : List TileEntry) : { c.restoreTiles r l with tiles := [] } = { c with tiles := [] } := by
  unfold Core.restoreTiles
  generalize (List.range l.length).zip l = m
  induction m generalizing c with
  | nil => rfl
  | cons e m ih => exact ih _

/-- A region that starts again (R208). -/
def startAgain (g : Region) : Region :=
  { g with items := [], charge := 0, bundles := 0, writes := [], cycles := 0, made := [], closed := false }

/-- A task rolled back to its CKPT (R208): its captured state is back, and its region is open with an empty log. -/
structure RolledBack (r : TaskRef) (g : Region) (s t : State) : Prop where
  others : OthersStand s t r
  busy : ∀ k, (t.core r.coreRef).busyInside k = (s.core r.coreRef).busyInside k
  region : (t.core r.coreRef).regions.get none r.slot = some (startAgain g)
  fatal : t.fatal = s.fatal
  pc : (t.task r).pc = g.saved.pc
  sregs : (t.task r).sregs = g.saved.sregs
  preds : (t.task r).preds = g.saved.preds
  loops : (t.task r).loops = g.saved.loops
  budget : (t.task r).budget = g.saved.budget
  halted : (t.task r).halted = false
  mem : g.items = [] → t.mem = s.mem

/-- A rollback in its steps: the logged stores, the task, and the core's entries and region. -/
theorem rollBack_eq (s : State) (r : TaskRef) (g : Region) : ∃ tokens, s.rollBack r g =
    (((g.items.foldl (State.restoreLogged r.coreRef) s).setTask r { (s.task r).rolledBack g.saved with tokens := tokens }).modCore r.coreRef
      fun c => { c.restoreTiles r g.tiles with regions := Tbl.set none c.regions r.slot (some (startAgain g)) }) := ⟨_, rfl⟩

theorem task?_setTask (s : State) (r : TaskRef) (x : Task) (q : TaskRef) : (s.setTask r x).task? q =
    if CoreRef.key q.coreRef = CoreRef.key r.coreRef ∧ q.slot = r.slot then some x else s.task? q :=
  task?_modTask s r (fun _ => x) q

theorem rolledBack_rollBack (s : State) (r : TaskRef) (g : Region) (f : Core → Core) (hf : ∀ c, (f c).tasks = c.tasks
    ∧ (f c).cmds = c.cmds ∧ (f c).mcmds = c.mcmds ∧ (f c).regions = c.regions) :
    RolledBack r g s ((s.rollBack r g).modCore r.coreRef f) := by
  obtain ⟨tokens, steps⟩ := rollBack_eq s r g
  rw [steps]
  have restored := restores_items r.coreRef g.items s
  have memory : g.items = [] → (g.items.foldl (State.restoreLogged r.coreRef) s).mem = s.mem := fun none => by rw [none]; rfl
  generalize g.items.foldl (State.restoreLogged r.coreRef) s = w at restored memory ⊢
  generalize hx : ({ (s.task r).rolledBack g.saved with tokens := tokens } : Task) = x
  have here : ∀ c : Core, ((c.restoreTiles r g.tiles).tasks = c.tasks ∧ (c.restoreTiles r g.tiles).cmds = c.cmds)
      ∧ (c.restoreTiles r g.tiles).mcmds = c.mcmds := fun c =>
    ⟨⟨(congrArg Core.tasks (restoreTiles_rest c r g.tiles) :), (congrArg Core.cmds (restoreTiles_rest c r g.tiles) :)⟩,
      (congrArg Core.mcmds (restoreTiles_rest c r g.tiles) :)⟩
  have core : ∀ v : State, (v.core r.coreRef).cmds = (s.core r.coreRef).cmds → (v.core r.coreRef).mcmds = (s.core r.coreRef).mcmds →
      ∀ k, (v.core r.coreRef).busyInside k = (s.core r.coreRef).busyInside k := fun v cmds mcmds k => by
    unfold Core.busyInside
    rw [cmds, mcmds]
  have kept : KeepsTasks (w.setTask r x) (((w.setTask r x).modCore r.coreRef fun c =>
      { c.restoreTiles r g.tiles with regions := Tbl.set none c.regions r.slot (some (startAgain g)) }).modCore r.coreRef f) :=
    (keepsTasks_modCore _ _ (fun c => { c.restoreTiles r g.tiles with regions := Tbl.set none c.regions r.slot (some (startAgain g)) })
      (here _).1.1).trans (keepsTasks_modCore _ _ _ (hf _).1)
  have task : (((w.setTask r x).modCore r.coreRef fun c =>
      { c.restoreTiles r g.tiles with regions := Tbl.set none c.regions r.slot (some (startAgain g)) }).modCore r.coreRef f).task r = x := by
    rw [State.task, kept.task?, task?_setTask, if_pos ⟨rfl, rfl⟩]
    rfl
  have cmds : (w.core r.coreRef).cmds = (s.core r.coreRef).cmds := (congrArg Core.cmds (restored.cores r.coreRef) :)
  have mcmds : (w.core r.coreRef).mcmds = (s.core r.coreRef).mcmds := (congrArg Core.mcmds (restored.cores r.coreRef) :)
  refine ⟨fun q beside => ?_, ?_, ?_, restored.fatal, ?_, ?_, ?_, ?_, ?_, ?_, fun none => memory none⟩
  · rw [kept.task?, task?_setTask, if_neg fun h => beside.elim (fun k => k h.1) fun k => k h.2, restored.task?]
  · refine core _ ?_ ?_
    · rw [State.core_modCore, (hf _).2.1, State.core_modCore]
      refine (here _).1.2.trans (Eq.trans ?_ cmds)
      rw [State.setTask, State.putTask, State.core_modCore]
    · rw [State.core_modCore, (hf _).2.2.1, State.core_modCore]
      refine (here _).2.trans (Eq.trans ?_ mcmds)
      rw [State.setTask, State.putTask, State.core_modCore]
  · rw [State.core_modCore, (hf _).2.2.2, State.core_modCore]
    exact Tbl.get_set_same none (some (startAgain g)) _ _
  all_goals rw [task, ← hx]; rfl

end Sys2Proof

namespace Sys2Proof

open Machine

/-! ### The reruns of a core (R208, R209) -/

/-- A region of a core that may go on: no fatal stop, nothing of it at work, and its slot has a region. -/
structure Recovers (s : State) (c : CoreRef) (x : Rerun) (g : Region) : Prop where
  runs : (s.core c).rerun = some x
  free : (s.core c).busyInside x.slot = false
  going : s.fatal = none
  region : (s.core c).regions.get none x.slot = some g

theorem recover_none {s : State} {c : CoreRef} (none : (s.core c).rerun = none) : s.recover c = s := by
  unfold State.recover
  rw [none]

/-- What stands next in a recovery that may go on (R208). -/
theorem recover_next {s : State} {c : CoreRef} {x : Rerun} {g : Region} (h : Recovers s c x g) : s.recover c =
    if x.run = 0 then (s.rollBack ⟨c.die, c.core, x.slot⟩ g).modCore c fun k => { k with rerun := some { x with run := 1, left := x.bundles } }
    else if g.closed then s.retireLost ⟨c.die, c.core, x.slot⟩ g.addr g.count (Config.signature g.writes) x
    else if x.left ≠ 0 then s
    else if x.run = 1 then (s.rollBack ⟨c.die, c.core, x.slot⟩ g).modCore c fun k =>
      { k with rerun := some { x with run := 2, left := x.bundles, count1 := g.count, sig1 := Config.signature g.writes } }
    else s.judgeReruns ⟨c.die, c.core, x.slot⟩ g x := by
  unfold State.recover
  rw [h.runs]
  dsimp only
  have goes : ¬(s.fatal.isSome = true ∨ (s.core c).busyInside x.slot = true) := by
    rw [h.going, h.free]
    simp
  rw [if_neg goes, h.region]

/-- A run that still has bundles to issue is waited for. -/
theorem recover_waits {s : State} {c : CoreRef} {x : Rerun} {g : Region} (h : Recovers s c x g) (run : x.run ≠ 0) (opened : g.closed = false)
    (left : x.left ≠ 0) : s.recover c = s := by
  rw [recover_next h, if_neg run, opened, if_neg Bool.false_ne_true, if_pos left]

theorem recoverAll_steps {s t : State} {c : CoreRef} (step : s.recover c = t) (stays : t.recover c = t) : s.recoverAll c = t := by
  rw [State.recoverAll, step, stays, stays]

/-- A rollback into a run that has bundles to issue: the recovery goes no further. -/
theorem rollBack_waits {s : State} {r : TaskRef} {g : Region} (y : Rerun) (slot : y.slot = r.slot) (free : (s.core r.coreRef).busyInside r.slot = false)
    (going : s.fatal = none) (run : y.run ≠ 0) (left : y.left ≠ 0) :
    RolledBack r g s ((s.rollBack r g).modCore r.coreRef fun k => { k with rerun := some y })
      ∧ (((s.rollBack r g).modCore r.coreRef fun k => { k with rerun := some y }).core r.coreRef).rerun = some y
      ∧ ((s.rollBack r g).modCore r.coreRef fun k => { k with rerun := some y }).recover r.coreRef
        = (s.rollBack r g).modCore r.coreRef fun k => { k with rerun := some y } := by
  have back := rolledBack_rollBack s r g (fun k => { k with rerun := some y }) fun _ => ⟨rfl, rfl, rfl, rfl⟩
  have runs : (((s.rollBack r g).modCore r.coreRef fun k => { k with rerun := some y }).core r.coreRef).rerun = some y :=
    (congrArg Core.rerun (State.core_modCore ..) :)
  generalize (s.rollBack r g).modCore r.coreRef (fun k => { k with rerun := some y }) = t at back runs ⊢
  refine ⟨back, runs, recover_waits (g := startAgain g) ⟨runs, ?_, back.fatal.trans going, ?_⟩ run rfl left⟩
  · rw [slot, back.busy, free]
  · rw [slot, back.region]

/-- An error in a protected region: the first rollback, and the first rerun begins (R208). -/
theorem protected_rolls_back {s : State} {r : TaskRef} {x : Task} {source : Nat} {g : Region} (there : s.task? r = some x)
    (ready : x.status = .ready) (quiet : (s.core r.coreRef).rerun = none) (region : s.regionOf r = some g) (guarded : g.guarded = true)
    (free : (s.core r.coreRef).busyInside r.slot = false) (going : s.fatal = none) (bundles : g.bundles ≠ 0) :
    ∃ y : Rerun, (y.slot = r.slot ∧ y.source = source ∧ y.run = 1 ∧ y.left = g.bundles)
      ∧ RolledBack r g s (s.arrayError r source) ∧ ((s.arrayError r source).core r.coreRef).rerun = some y := by
  have own : (s.core r.coreRef).regions.get none r.slot = some g := by
    unfold State.regionOf at region
    dsimp only at region
    cases got : (s.core r.coreRef).regions.get none r.slot with
    | none => rw [got] at region; cases region
    | some k =>
      rw [got] at region
      dsimp only at region
      split at region
      · cases region
      split at region
      · cases region
      · exact region
  rw [arrayError_alone there ready quiet, region]
  dsimp only
  rw [if_pos guarded]
  generalize hz : (⟨r.slot, source, 0, g.bundles, 0, 0, 0, false, if x.halted then [r.slot] else []⟩ : Rerun) = z
  generalize hw : (s.tookFree.modCore r.coreRef fun k => { k with rerun := some z }) = w
  have core : w.core r.coreRef = { s.core r.coreRef with rerun := some z } := by rw [← hw]; exact State.core_modCore ..
  have tasks : ∀ q, w.task? q = s.task? q := fun q => by
    rw [← hw]
    exact task?_modCore_tasks s.tookFree r.coreRef rfl q
  have freeW : (w.core r.coreRef).busyInside r.slot = false := by rw [core]; exact free
  have goingW : w.fatal = none := by rw [← hw]; exact going
  have mem : w.mem = s.mem := by rw [← hw]; rfl
  have slot : z.slot = r.slot := by rw [← hz]
  have step : w.recover r.coreRef = (w.rollBack r g).modCore r.coreRef fun k => { k with rerun := some { z with run := 1, left := z.bundles } } := by
    rw [recover_next (g := g) ⟨by rw [core], by rw [slot]; exact freeW, goingW, by rw [core, slot]; exact own⟩, if_pos (by rw [← hz]), slot]
    rfl
  obtain ⟨back, runs, stays⟩ := rollBack_waits (s := w) (r := r) (g := g) { z with run := 1, left := z.bundles } slot freeW goingW
    Nat.one_ne_zero (by rw [← hz]; exact bundles)
  rw [recoverAll_steps step stays]
  refine ⟨{ z with run := 1, left := z.bundles }, ⟨slot, by rw [← hz], rfl, by rw [← hz]⟩, ?_, runs⟩
  exact ⟨fun q beside => (back.others q beside).trans (tasks q), fun k => (back.busy k).trans (by rw [core]; rfl), back.region,
    back.fatal.trans (goingW.trans going.symm), back.pc, back.sregs, back.preds, back.loops, back.budget, back.halted,
    fun none => (back.mem none).trans mem⟩

/-! ### The end of the reruns (R208, R209) -/

theorem retired_worked {s t : State} (h : Worked s t) (d : Nat) : (t.die d).lodge.retired = (s.die d).lodge.retired :=
  (congrArg (fun k : Die => k.lodge.retired) (h.dies d) :)

/-- A retired core stands in its lodge's list, and reruns nothing (R209). -/
theorem retire_retires (s : State) (c : CoreRef) (source : Nat) :
    c.core ∈ ((s.retire c source).die c.die).lodge.retired ∧ ((s.retire c source).core c).rerun = none := by
  have halts : ∀ (l : List Nat) (w : State),
      ((l.foldl (fun s k => (s.postTaskFault ⟨c.die, c.core, k⟩ 0xA3 (BitVec.ofNat 64 source)).modTask ⟨c.die, c.core, k⟩
        fun t => { t with halted := true }) w).die c.die).lodge.retired = (w.die c.die).lodge.retired := by
    intro l
    induction l with
    | nil => exact fun _ => rfl
    | cons k l ih => exact fun w => (ih _).trans (retired_worked (worked_postFault ..) c.die)
  unfold State.retire
  dsimp only
  refine ⟨?_, (congrArg Core.rerun (State.core_modCore ..) :)⟩
  rw [State.die_modCore, halts, State.modLodge, State.die_modDie]
  dsimp only
  split
  · next listed => exact List.contains_iff_mem.1 listed
  · exact List.mem_append_right _ (List.mem_singleton.2 rfl)

/-- A core with its reruns judged: RETREC holds the outcome (R387). -/
def judgedCore (s : State) (r : TaskRef) (g : Region) (x : Rerun) (ok : Nat) (k : Core) : Core :=
  { k with
    rerun := none
    retrec := retrecBytes x.source ok r.slot (s.task r).lidx g.addr x.count1 g.count x.sig1 (Config.signature g.writes) s.cycle }

theorem keepsTasks_judged (s : State) (r : TaskRef) (g : Region) (x : Rerun) (ok : Nat) :
    KeepsTasks s (s.modCore r.coreRef (judgedCore s r g x ok)) := keepsTasks_modCore _ _ _ rfl

/-- Whether the reruns agree (R208). -/
def agrees (x : Rerun) (g : Region) : Bool :=
  !x.failed && decide (x.count1 = g.count) && decide (x.sig1 = Config.signature g.writes)

theorem judgeReruns_eq (s : State) (r : TaskRef) (g : Region) (x : Rerun) : s.judgeReruns r g x =
    if agrees x g then ((s.modCore r.coreRef (judgedCore s r g x (if agrees x g then 1 else 2))).postEvent r 0xA4 (BitVec.ofNat 64 x.source)).haltAgain r x
    else (s.modCore r.coreRef (judgedCore s r g x (if agrees x g then 1 else 2))).retire r.coreRef x.source := rfl

theorem haltAgain_keeps (s : State) (r : TaskRef) (x : Rerun) : OthersStand s (s.haltAgain r x) r ∧ (s.haltAgain r x).mem = s.mem
    ∧ ((s.haltAgain r x).core r.coreRef).rerun = (s.core r.coreRef).rerun
    ∧ ((s.haltAgain r x).core r.coreRef).retrec = (s.core r.coreRef).retrec := by
  unfold State.haltAgain
  split
  · refine ⟨fun q beside => ?_, rfl, ?_, ?_⟩
    · refine Eq.trans ?_ (task?_modTask_beside s (fun t => { t with halted := true }) beside)
      exact task?_modCore_tasks (s.modTask r fun t => { t with halted := true }) r.coreRef rfl q
    · rw [State.core_modCore, State.modTask, State.setTask, State.putTask, State.core_modCore]
    · rw [State.core_modCore, State.modTask, State.setTask, State.putTask, State.core_modCore]
  · exact ⟨fun _ _ => rfl, rfl, rfl, rfl⟩

/-- The judgement of two reruns: agreement recovers, and anything else retires the core (R208, R209, R387). -/
theorem judgeReruns_judges (s : State) (r : TaskRef) (g : Region) (x : Rerun) :
    ((s.judgeReruns r g x).core r.coreRef).rerun = none
      ∧ (agrees x g = false → r.core ∈ ((s.judgeReruns r g x).die r.die).lodge.retired)
      ∧ (agrees x g = true → (s.judgeReruns r g x).mem = s.mem ∧ OthersStand s (s.judgeReruns r g x) r
        ∧ ((s.judgeReruns r g x).core r.coreRef).retrec.take 3 = [BitVec.ofNat 8 x.source, 1, BitVec.ofNat 8 r.slot]) := by
  rw [judgeReruns_eq]
  cases ok : agrees x g with
  | false =>
    simp only [Bool.false_eq_true, if_false]
    obtain ⟨listed, none⟩ := retire_retires (s.modCore r.coreRef (judgedCore s r g x 2)) r.coreRef x.source
    exact ⟨none, fun _ => listed, fun h => absurd h (by decide)⟩
  | true =>
    simp only [if_true]
    have tasks := keepsTasks_judged s r g x 1
    generalize hw : (s.modCore r.coreRef (judgedCore s r g x 1)) = w at tasks
    have mem : w.mem = s.mem := by rw [← hw]; rfl
    have core : w.core r.coreRef = judgedCore s r g x 1 (s.core r.coreRef) := by rw [← hw]; exact State.core_modCore ..
    obtain ⟨others, memH, rerun, retrec⟩ := haltAgain_keeps (w.postEvent r 0xA4 (BitVec.ofNat 64 x.source)) r x
    refine ⟨rerun.trans (congrArg Core.rerun core), fun h => absurd h (by decide), fun _ => ⟨memH.trans mem,
      fun q beside => (others q beside).trans (tasks.task? q), ?_⟩⟩
    rw [retrec, show ((w.postEvent r 0xA4 (BitVec.ofNat 64 x.source)).core r.coreRef) = w.core r.coreRef from rfl, core]
    rfl

end Sys2Proof

namespace Sys2Proof

open Machine

theorem Memory.bytes_setBytes_of_length (m : Memory) (a : Nat) {d : List Byte} {n : Nat} (h : d.length = n) :
    (m.setBytes a d).bytes a n = d := by
  rw [← h]
  exact Memory.bytes_setBytes ..

/-! ### Held atomics and their replies (R258, R262 to R265) -/

theorem atomic_idle {s : State} {r : TaskRef} (none : (s.task r).waitingAtomic = none) :
    exec (.atomicExecute r) s = .next s ∧ exec (.orderedRelease r) s = .next s := by
  refine ⟨?_, ?_⟩
  · show execAtomicExecute r s = _
    unfold execAtomicExecute
    rw [none]
  · show execOrderedRelease r s = _
    unfold execOrderedRelease
    rw [none]

/-- An atomic that no set orders executes, and an ordered one once its set lets it (R258, R262). -/
theorem atomic_steps {s : State} {r : TaskRef} {a : AtomicOp} (waits : (s.task r).waitingAtomic = some a) :
    exec (.atomicExecute r) s = .next (if a.ordered.isSome then s else s.executeAtomic r a)
    ∧ exec (.orderedRelease r) s = .next (match a.ordered with
        | some o => if s.mayRelease (s.task r) o && !s.jobStopped (s.task r).job then s.executeAtomic r a else s
        | none => s) := by
  refine ⟨?_, ?_⟩
  · show execAtomicExecute r s = _
    unfold execAtomicExecute
    rw [waits]
  · show execOrderedRelease r s = _
    unfold execOrderedRelease
    rw [waits] <;> rfl

/-- Whether nothing but its home holds an atomic back. -/
def Released (s : State) (r : TaskRef) (a : AtomicOp) : Prop :=
  a.ordered = none ∨ ∃ o, a.ordered = some o ∧ s.mayRelease (s.task r) o = true ∧ s.jobStopped (s.task r).job = false

/-- The step that is an atomic's own: of its set, or of its home. -/
theorem atomic_own_step {s : State} {r : TaskRef} {a : AtomicOp} (waits : (s.task r).waitingAtomic = some a) :
    (Released s r a → exec (if a.ordered.isSome then .orderedRelease r else .atomicExecute r) s = .next (s.executeAtomic r a))
    ∧ (¬Released s r a → exec (if a.ordered.isSome then .orderedRelease r else .atomicExecute r) s = .next s) := by
  obtain ⟨plain, release⟩ := atomic_steps waits
  cases ordered : a.ordered with
  | none =>
    rw [ordered] at plain
    exact ⟨fun _ => plain, fun held => absurd (.inl ordered) held⟩
  | some o =>
    rw [ordered] at release
    refine ⟨fun free => release.trans ?_, fun held => release.trans ?_⟩
    · rcases free with none | ⟨k, same, may, going⟩
      · rw [ordered] at none
        cases none
      · rw [ordered] at same
        cases same
        dsimp only
        rw [may, going]
        rfl
    · have stays : ¬(s.mayRelease (s.task r) o && !s.jobStopped (s.task r).job) = true := fun h => by
        rw [Bool.and_eq_true, Bool.not_eq_true'] at h
        exact held (.inr ⟨o, ordered, h⟩)
      dsimp only
      rw [if_neg stays]

theorem atomicReply_here {s : State} {r : TaskRef} {a : AtomicOp} {rest : List Hold} (holds : (s.task r).holds = .atomic a :: rest) :
    exec (.atomicReply r) s = .next (match a.result with
      | some x => s.deliver r a.dest x.1 x.2 a.floor
      | none => s) := by
  show execAtomicReply r s = _
  unfold execAtomicReply
  rw [holds] <;> rfl

theorem atomicReply_far {s : State} {r : TaskRef} {a : AtomicOp} {id : Nat} {rest : List Hold}
    (holds : (s.task r).holds = .remote id a :: rest) : exec (.atomicReply r) s = .next (s.takeRemote r id a) := by
  show execAtomicReply r s = _
  unfold execAtomicReply
  rw [holds]

theorem takeRemote_waits {s : State} {r : TaskRef} {a : AtomicOp} {id : Nat}
    (none : (s.sent.find? fun x => decide (x.req.id = id)).bind SentReq.reply = none) : s.takeRemote r id a = s := by
  unfold State.takeRemote
  cases found : s.sent.find? fun x => decide (x.req.id = id) with
  | none => rfl
  | some x =>
    rw [found, Option.bind_some] at none
    dsimp only
    rw [none]

theorem takeRemote_replied {s : State} {r : TaskRef} {a : AtomicOp} {id : Nat} {x : SentReq} {rep : RemoteRep}
    (found : (s.sent.find? fun x => decide (x.req.id = id)) = some x) (reply : x.reply = some rep) : s.takeRemote r id a =
      match replyTrap a.va x.req rep.status with
      | none => (s.dropSent id).deliver r a.dest (a.returned (RemoteRep.old a rep)) (a.next (RemoteRep.old a rep)).2 (BitVec.ofNat 64 rep.time)
      | some tr => if (s.task r).halted then s else (s.dropSent id).atomicTraps r a tr := by
  unfold State.takeRemote
  rw [found]
  dsimp only
  rw [reply] <;> rfl

/-- REGION_UNPROTECTED frees the log of a region past its limits (R206). -/
theorem regionUnprotected_frees (r : TaskRef) (s : State) : ∃ t, exec (.regionUnprotected r) s = .next t ∧ TasksAndMemoryStand s t
    ∧ ∀ g, (s.core r.coreRef).regions.get none r.slot = some g →
      (t.core r.coreRef).regions.get none r.slot
        = some (if g.charge > 65536 ∨ g.bundles ≥ 4096 then { g with guarded := false, items := [] } else g) := by
  cases found : (s.core r.coreRef).regions.get none r.slot with
  | none =>
    refine ⟨s, ?_, ⟨fun _ => rfl, rfl⟩, fun g h => absurd h (by simp)⟩
    show execRegionUnprotected r s = _
    unfold execRegionUnprotected
    rw [found]
  | some g =>
    refine ⟨s.modCore r.coreRef fun c => { c with regions := Tbl.set none c.regions r.slot (some g.limit) }, ?_,
      ⟨task?_modCore_tasks s _ rfl, rfl⟩, fun k h => ?_⟩
    · show execRegionUnprotected r s = _
      unfold execRegionUnprotected
      rw [found]
    · cases h
      rw [State.core_modCore]
      exact Tbl.get_set_same none (some g.limit) _ _

theorem arrayError_exec (r : TaskRef) (source place : Nat) (s : State) :
    exec (.arrayError r ⟨source, place⟩) s = .next (match source with
      | 0 => s.modMonitor (nearMonitor r.die place) fun m => { m with ce := m.ce + 1 }
      | 4 => if isLodge r.core then s.stopOrDump r.die 0xE1 (BitVec.ofNat 64 (place % 2 ^ 48)) else s.storeError r place
      | 5 => s.poison place
      | 6 => s.stopOrDump r.die 0xE1 (BitVec.ofNat 64 (place % 2 ^ 48))
      | _ => s.arrayError r source) := rfl

theorem arrayError_other {source : Nat} (other : source ∉ [0, 4, 5, 6]) (r : TaskRef) (place : Nat) (s : State) :
    exec (.arrayError r ⟨source, place⟩) s = .next (s.arrayError r source) := by
  simp only [List.mem_cons, List.not_mem_nil, or_false, not_or] at other
  obtain ⟨zero, four, five, six⟩ := other
  rw [arrayError_exec]
  split
  · exact absurd rfl zero
  · exact absurd rfl four
  · exact absurd rfl five
  · exact absurd rfl six
  · rfl

/-- An error met by a bundle in its core's stores (Table 19.4). -/
theorem storeError_traps {s : State} {r : TaskRef} {place : Nat} (there : (s.task? r).isSome = true) (lives : (s.task r).status ≠ .ending)
    (runs : (s.task r).halted = false) : s.storeError r place =
      (s.takeTrap r ⟨0xA1, BitVec.ofNat 64 place⟩).modTask r fun t => { t with broken := true } := by
  obtain ⟨x, found⟩ := Option.isSome_iff_exists.1 there
  have task : s.task r = x := by rw [State.task, found]; rfl
  rw [task] at lives runs
  unfold State.storeError
  rw [found]
  dsimp only
  rw [if_neg fun h => h.elim lives fun k => Bool.false_ne_true (runs.symm.trans k)]

/-- Settles O53, from the rules above. -/
theorem atomicsLoopsAndCheckpoints : Obligations.AtomicsLoopsAndCheckpoints := by
  unfold Obligations.AtomicsLoopsAndCheckpoints
  refine ⟨fun r s => ⟨atomic_idle, fun a waits => ?_⟩, next_values, fun r s rest => ?_, fun r s v n rest => ?_, stolen_slices,
    fun r source place s => ?_, fun c s => ?_, regionUnprotected_frees⟩
  · intro go i here
    obtain ⟨plain, release⟩ := atomic_steps waits
    obtain ⟨runs, stays⟩ := atomic_own_step waits
    refine ⟨fun ordered => ?_, fun free => ?_, stays, fun free at' stale => ?_, fun free at' fresh held => ?_, fun free at' fresh clear inside => ?_,
      fun free far => ?_⟩
    · rw [plain, if_pos ordered]
    · rw [release, free]
    · rw [show exec i s = _ from runs free, executeAtomic_here at', if_pos stale]
      rfl
    · rw [show exec i s = _ from runs free, executeAtomic_here at', if_neg (not_not_intro fresh), if_pos held]
    · intro s1 key old there keys
      obtain ⟨holds, others, mem⟩ := performed_atomic s r a inside there keys
      have length := leBytes_length a.width (a.next old).1
      refine ⟨performed s r a, _, ?_, holds, rfl, others, ?_, fun b out => ?_⟩
      · rw [show exec i s = _ from runs free, executeAtomic_here at', if_neg (not_not_intro fresh), clear, if_neg Bool.false_ne_true]
      · rw [mem]
        exact Memory.bytes_setBytes_of_length _ _ length
      · rw [mem]
        exact Memory.byte_setBytes_out _ _ _ _ (by rw [length]; exact out)
    · intro p id
      obtain ⟨t, rfl, request⟩ := requested_atomic s r a far
      exact ⟨_, runs free, request⟩
  · intro takes
    refine ⟨fun a holds => ⟨fun none => ?_, fun v f result => ?_⟩, fun id a holds => ⟨fun none => ?_, fun x rep found reply => ⟨fun good => ?_, fun tr bad => ?_⟩⟩⟩
    · rw [atomicReply_here holds, none]
    · refine ⟨_, ?_, delivers holds a.dest v f a.floor⟩
      rw [atomicReply_here holds, result]
    · rw [atomicReply_far holds, takeRemote_waits none]
    · refine ⟨_, ?_, delivers (s := s.dropSent id) holds a.dest _ _ _⟩
      rw [atomicReply_far holds, takeRemote_replied found reply, good]
    · rw [atomicReply_far holds, takeRemote_replied found reply, bad]
      rfl
  · intro h serves
    refine ⟨fun turn holds => ⟨_, claim_serves turn holds, serves_loop s r _ holds⟩,
      fun turn holds => ⟨_, steal_serves turn holds, serves_loop s r _ holds⟩, fun wait => ⟨claim_waits wait, steal_waits wait⟩, fun idle => ?_⟩
    have wait := loopTurn_idle idle
    exact ⟨claim_waits wait, steal_waits wait, atomicReply_idle idle⟩
  · intro c i
    refine ⟨fun zero => ?_, fun four core there lives runs => ?_, fun five => ?_, fun lodge => ?_, fun other => ⟨fun none => ?_, fun h tok there tiling quiet => ?_,
      fun there ready => ⟨fun y runs slot run => ?_, fun repair => ?_, fun g quiet region guarded free going opened bundles => ?_⟩⟩⟩
    · subst zero
      rfl
    · subst four
      refine (arrayError_exec ..).trans (congrArg Host.Outcome.next ?_)
      rw [core, if_neg Bool.false_ne_true]
      exact storeError_traps there lives runs
    · subst five
      rfl
    · rcases lodge with rfl | ⟨rfl, lodge⟩
      · rfl
      · refine (arrayError_exec ..).trans (congrArg Host.Outcome.next ?_)
        exact if_pos lodge
    · refine (arrayError_other other ..).trans (congrArg Host.Outcome.next ?_)
      unfold State.arrayError
      rw [none]
    all_goals
      obtain ⟨x, found⟩ := Option.isSome_iff_exists.1 there
      have task : s.task r = x := by rw [State.task, found]; rfl
    · refine (arrayError_other other ..).trans (congrArg Host.Outcome.next ?_)
      exact arrayError_tiling found (task ▸ tiling) quiet
    · refine ⟨spoiled s r, (arrayError_other other ..).trans (congrArg Host.Outcome.next ?_), ⟨(keepsTasks_spoiled s r).task?, (spoiled_stores s r).1⟩, ?_⟩
      · rw [arrayError_rerunning found (task ▸ ready) runs, if_pos ⟨slot, .inl (decide_eq_true run)⟩]
      · rw [rerun_spoiled, show (s.core r.coreRef).rerun = some y from runs, Option.map_some, if_pos run]
    · rcases repair with ⟨quiet, bare⟩ | ⟨y, runs, slot⟩
      · have beyond : s.arrayError r source = s.tookFree.beyondRepair r source := by
          rw [arrayError_alone found (task ▸ ready) quiet]
          cases region : s.regionOf r with
          | none => rfl
          | some g =>
            dsimp only
            rw [bare g region, if_neg Bool.false_ne_true]
        refine ⟨_, (arrayError_other other ..).trans (congrArg Host.Outcome.next beyond), ?_⟩
        exact beyondRepair_halts (s := s.tookFree) source ready
      · have beyond : s.arrayError r source = (spoiled s r).tookFree.beyondRepair r source := by
          rw [arrayError_rerunning found (task ▸ ready) runs, if_neg fun h => slot h.1]
        have kept := keepsTasks_spoiled s r
        have stores := spoiled_stores s r
        generalize spoiled s r = w at beyond kept stores
        have same : w.task r = s.task r := by rw [State.task, kept.task?, ← State.task]
        have die : w.die r.die = s.die r.die := by rw [State.die, State.die, kept.dies]
        obtain ⟨others, mem, halted, posted⟩ := beyondRepair_halts (s := w.tookFree) (r := r) source (same.symm ▸ ready : (w.task r).status = .ready)
        refine ⟨_, (arrayError_other other ..).trans (congrArg Host.Outcome.next beyond), fun q beside => (others q beside).trans (kept.task? q),
          mem.trans stores.1, halted, posted.trans ?_⟩
        rw [show w.tookFree.die r.die = w.die r.die from rfl, show w.tookFree.task r = w.task r from rfl,
          show w.tookFree.cycle32 = w.cycle32 from rfl, die, same, stores.2]
    · obtain ⟨y, ⟨slotY, sourceY, run, left⟩, back, runs⟩ := protected_rolls_back (source := source) found (task ▸ ready) quiet region guarded free going bundles
      exact ⟨_, y, arrayError_other other .., back.others, runs, slotY, sourceY, run, left, back.pc, back.sregs, back.preds, back.loops, back.budget,
        back.halted, back.mem⟩
  · have idle : ∀ t : State, t.recover c = t → t.recoverAll c = t := fun t h => by rw [State.recoverAll, h, h, h]
    refine ⟨fun none => congrArg Host.Outcome.next (idle s (recover_none none)), fun stopped => congrArg Host.Outcome.next (idle s ?_), fun x g runs left free going region opened => ?_⟩
    · unfold State.recover
      split
      · rfl
      · exact if_pos (.inl stopped)
    · have ready : Recovers s c x g := ⟨runs, free, going, region⟩
      refine ⟨fun run bundles => ?_, fun run => ?_⟩
      · obtain ⟨back, reruns, stays⟩ := rollBack_waits (s := s) (r := ⟨c.die, c.core, x.slot⟩) (g := g)
          { x with run := 2, left := x.bundles, count1 := g.count, sig1 := Config.signature g.writes } rfl free going (by decide : (2 : Nat) ≠ 0) bundles
        refine ⟨_, congrArg Host.Outcome.next (recoverAll_steps ?_ stays), back.others, reruns, back.pc⟩
        rw [recover_next ready, if_neg (by rw [run]; decide), opened, if_neg Bool.false_ne_true, if_neg (not_not_intro left), if_pos run]
        rfl
      · obtain ⟨none, retires, recovers⟩ := judgeReruns_judges s ⟨c.die, c.core, x.slot⟩ g x
        refine ⟨_, congrArg Host.Outcome.next (recoverAll_steps ?_ (recover_none none)), none, fun apart => retires ?_, fun good count sig => recovers ?_⟩
        · rw [recover_next ready, if_neg (by rw [run]; decide), opened, if_neg Bool.false_ne_true, if_neg (not_not_intro left), if_neg (by rw [run]; decide)]
        · unfold agrees
          rcases apart with failed | count | sig
          · rw [failed]
            rfl
          · rw [decide_eq_false count, Bool.and_false, Bool.false_and]
          · rw [decide_eq_false sig, Bool.and_false]
        · unfold agrees
          rw [good, decide_eq_true count, decide_eq_true sig]
          rfl

end Sys2Proof

namespace Sys2Proof

open Machine

/-! ### Commands that end or go on (R214, R215) -/

/-- A state whose tasks are another's, and whose core has the same commands and accumulator units. -/
structure SameCmds (s w : State) (c : CoreRef) : Prop where
  tasks : ∀ q, w.task? q = s.task? q
  cmds : (w.core c).cmds = (s.core c).cmds
  units : (w.core c).units = (s.core c).units

theorem SameCmds.refl (s : State) (c : CoreRef) : SameCmds s s c := ⟨fun _ => rfl, rfl, rfl⟩

theorem SameCmds.trans {s w v : State} {c : CoreRef} (h : SameCmds s w c) (k : SameCmds w v c) : SameCmds s v c :=
  ⟨fun q => (k.tasks q).trans (h.tasks q), k.cmds.trans h.cmds, k.units.trans h.units⟩

theorem SameCmds.task {s w : State} {c : CoreRef} (h : SameCmds s w c) (q : TaskRef) : w.task q = s.task q := by
  rw [State.task, State.task, h.tasks]

theorem SameCmds.cmd {s w : State} {c : CoreRef} (h : SameCmds s w c) (n : Nat) : (w.core c).cmd n = (s.core c).cmd n := by
  rw [Core.cmd, Core.cmd, h.cmds]

theorem SameCmds.of_worked {s w : State} (h : Worked s w) (c : CoreRef) : SameCmds s w c :=
  ⟨h.task?, (congrArg Core.cmds (h.cores c) :), (congrArg Core.units (h.cores c) :)⟩

theorem SameCmds.modCore (s : State) (c : CoreRef) (f : Core → Core)
    (hf : (f (s.core c)).tasks = (s.core c).tasks ∧ (f (s.core c)).cmds = (s.core c).cmds ∧ (f (s.core c)).units = (s.core c).units) :
    SameCmds s (s.modCore c f) c :=
  ⟨task?_modCore_tasks s c hf.1, by rw [State.core_modCore, hf.2.1], by rw [State.core_modCore, hf.2.2]⟩

theorem SameCmds.of_cores {s w : State} (h : w.cores = s.cores) (c : CoreRef) : SameCmds s w c := by
  have core : ∀ k, w.core k = s.core k := fun k => by rw [State.core, State.core, h]
  exact ⟨fun q => by rw [State.task?, State.task?, core], by rw [core], by rw [core]⟩

theorem SameCmds.setMem {s w : State} {c : CoreRef} (h : SameCmds s w c) (m : Memory) : SameCmds s { w with mem := m } c :=
  h.trans (SameCmds.of_cores (s := w) (w := { w with mem := m }) rfl c)

theorem SameCmds.tookFree {s w : State} {c : CoreRef} (h : SameCmds s w c) (n : Nat) : SameCmds s (w.tookFree n) c :=
  h.trans (SameCmds.of_cores (s := w) (w := w.tookFree n) rfl c)

/-- A command that ends in a state with the same tasks and commands. -/
theorem Ended.of_same {s w t : State} {c : CoreRef} {tok cause : Nat} {x : Cmd} {tc : W64} (h : Ended w t c tok x cause tc)
    (same : SameCmds s w c) : Ended s t c tok x cause tc :=
  ⟨by rw [h.token, same.task], fun q beside => (h.others q beside).trans (same.tasks q), by rw [h.commands, same.cmds]⟩

/-- The source entry that a copy releases at its end (R221). -/
def releasesSource (s : State) (c : CoreRef) (x : Cmd) : State :=
  match x.kind, sttEntry x.fields with
  | .cpy, some (e, true) | .gth, some (e, true) | .sct, some (e, true) =>
    s.modCore c fun k => k.setTile (physTile ⟨c.die, c.core, x.slot⟩ e) (k.tile (physTile ⟨c.die, c.core, x.slot⟩ e)).drained
  | _, _ => s

theorem releasesSource_keeps (s : State) (c : CoreRef) (x : Cmd) :
    SameCmds s (releasesSource s c x) c ∧ (releasesSource s c x).mem = s.mem ∧ (releasesSource s c x).dies = s.dies := by
  unfold releasesSource
  split
  · exact ⟨.modCore _ _ _ ⟨rfl, rfl, rfl⟩, rfl, rfl⟩
  · exact ⟨.modCore _ _ _ ⟨rfl, rfl, rfl⟩, rfl, rfl⟩
  · exact ⟨.modCore _ _ _ ⟨rfl, rfl, rfl⟩, rfl, rfl⟩
  · exact ⟨.refl _ _, rfl, rfl⟩

theorem endCmd_eq {s : State} {c : CoreRef} {tok : Nat} {x : Cmd} (there : (s.core c).cmd tok = some x) (cause : Nat) (tc : W64) :
    s.endCmd c tok cause tc = ((releasesSource s c x).modCore c fun k => k.setCmd tok none).endToken (issuerOf c x)
      (if isCompute c.core then tok % 16 else tok) cause tc := by
  unfold State.endCmd releasesSource
  rw [there]
  rfl

theorem core_modTask (s : State) (r : TaskRef) (f : Task → Task) : (s.modTask r f).core r.coreRef =
    { s.core r.coreRef with tasks := Tbl.set none (s.core r.coreRef).tasks r.slot (some (f (s.task r))) } := by
  rw [State.modTask, State.setTask, State.putTask, State.core_modCore]

/-- A command ends: its token takes its state and time, and those bound to it learn of it (R214, R215). -/
theorem endCmd_ends {s : State} {c : CoreRef} {tok : Nat} {x : Cmd} (there : (s.core c).cmd tok = some x) (cause : Nat) (tc : W64) :
    Ended s (s.endCmd c tok cause tc) c tok x cause tc ∧ (s.endCmd c tok cause tc).mem = s.mem
      ∧ ((s.endCmd c tok cause tc).core c).units = (s.core c).units ∧ (s.endCmd c tok cause tc).dies = s.dies := by
  obtain ⟨same, mem, dies⟩ := releasesSource_keeps s c x
  rw [endCmd_eq there]
  generalize releasesSource s c x = w at same mem dies ⊢
  generalize hn : (if isCompute c.core then tok % 16 else tok) = n
  have gone : ∀ q, (w.modCore c fun k => k.setCmd tok none).task? q = w.task? q := task?_modCore_tasks w c rfl
  have core : (w.modCore c fun k => k.setCmd tok none).core c = (w.core c).setCmd tok none := State.core_modCore ..
  have memV : (w.modCore c fun k => k.setCmd tok none).mem = w.mem := rfl
  have diesV : (w.modCore c fun k => k.setCmd tok none).dies = w.dies := rfl
  generalize w.modCore c (fun k => k.setCmd tok none) = v at gone core memV diesV ⊢
  have taskV : v.task (issuerOf c x) = s.task (issuerOf c x) := by rw [State.task, gone, same.tasks, ← State.task]
  have tasks := task?_modCore_tasks (v.modTask (issuerOf c x) fun t => t.setToken n ⟨if cause = 0 then .done else .faulted, cause, tc⟩) c
    (f := fun k => { k with cmds := Tbl.mapVals (Option.map (Cmd.resolve x.slot n (decide (cause ≠ 0)))) k.cmds }) rfl
  have coreT := core_modTask v (issuerOf c x) fun t => t.setToken n ⟨if cause = 0 then .done else .faulted, cause, tc⟩
  have cmds : ((v.modTask (issuerOf c x) fun t => t.setToken n ⟨if cause = 0 then .done else .faulted, cause, tc⟩).core c).cmds
      = Tbl.set none (w.core c).cmds tok none := (congrArg Core.cmds coreT :).trans (congrArg Core.cmds core :)
  have units : ((v.modTask (issuerOf c x) fun t => t.setToken n ⟨if cause = 0 then .done else .faulted, cause, tc⟩).core c).units
      = (w.core c).units := (congrArg Core.units coreT :).trans (congrArg Core.units core :)
  have steps : v.endToken (issuerOf c x) n cause tc =
      (v.modTask (issuerOf c x) fun t => t.setToken n ⟨if cause = 0 then .done else .faulted, cause, tc⟩).modCore c
        fun k => { k with cmds := Tbl.mapVals (Option.map (Cmd.resolve x.slot n (decide (cause ≠ 0)))) k.cmds } := rfl
  rw [steps]
  refine ⟨⟨?_, fun q beside => ?_, ?_⟩, memV.trans mem, ?_, diesV.trans dies⟩
  · rw [State.task, tasks, task?_modTask, if_pos ⟨rfl, rfl⟩, taskV, ← hn]
    rfl
  · rw [tasks, task?_modTask_beside _ _ beside, gone, same.tasks]
  · rw [State.core_modCore, cmds, same.cmds, ← hn]
  · rw [State.core_modCore]
    exact units.trans same.units

/-- A command of a core that becomes another. -/
theorem goesOn_modCore (s : State) (c : CoreRef) (tok : Nat) (y : Cmd) (f : Core → Core)
    (hf : (f (s.core c)).tasks = (s.core c).tasks ∧ (f (s.core c)).cmds = Tbl.set none (s.core c).cmds tok (some y)) :
    GoesOn s (s.modCore c f) c tok y := by
  refine ⟨?_, fun n other => ?_, task?_modCore_tasks s c hf.1⟩
  · rw [State.core_modCore, Core.cmd, hf.2]
    exact Tbl.get_set_same none (some y) _ _
  · rw [State.core_modCore, Core.cmd, hf.2]
    exact Tbl.get_set_other none (some y) _ other

theorem GoesOn.of_same {s w t : State} {c : CoreRef} {tok : Nat} {y : Cmd} (h : GoesOn w t c tok y) (same : SameCmds s w c) :
    GoesOn s t c tok y :=
  ⟨h.command, fun n other => (h.others n other).trans (same.cmd n), fun q => (h.tasks q).trans (same.tasks q)⟩

/-- Where no command stands under a token, no step of an engine or of the array does anything. -/
theorem no_command {c : CoreRef} {tok : Nat} {s : State} (none : (s.core c).cmd tok = none) :
    ∀ i ∈ [Instr.copyStart c tok, .copyCellWrite c tok, .copyComplete c tok, .streamStart c tok,
      .streamComplete c tok, .moutComplete c tok, .mcstStart c tok, .mcstComplete c tok], exec i s = .next s := by
  have copy : s.copyAt c tok = .none := by
    unfold State.copyAt
    rw [none]
  have mcst : s.mcstAt c tok = .none := by
    unfold State.mcstAt
    rw [none]
  intro i hi
  simp only [List.mem_cons, List.not_mem_nil, or_false] at hi
  rcases hi with rfl | rfl | rfl | rfl | rfl | rfl | rfl | rfl
  · show execCopyStart c tok s = _
    unfold execCopyStart
    rw [copy]
  · show execCopyCellWrite c tok s = _
    unfold execCopyCellWrite
    rw [copy]
  · show execCopyComplete c tok s = _
    unfold execCopyComplete
    rw [copy]
  · show execStreamStart c tok s = _
    unfold execStreamStart
    rw [none]
  · show execStreamComplete c tok s = _
    unfold execStreamComplete
    rw [none]
  · show execMoutComplete c tok s = _
    unfold execMoutComplete
    rw [none]
  · show execMcstStart c tok s = _
    unfold execMcstStart
    rw [mcst]
  · show execMcstComplete c tok s = _
    unfold execMcstComplete
    rw [mcst]

end Sys2Proof

namespace Sys2Proof

open Machine

/-! ### Elements in the window (R217, R220) -/

/-- An element of n bytes in the window of an engine's task, at an aligned address. -/
structure Windowed (s : State) (r : TaskRef) (a : W64) (n : Nat) : Prop where
  form : addrForm a = 2
  some : 0 < n
  aligned : addrOff a % n = 0
  inside : addrOff a + n ≤ (s.task r).windowBytes
  small : (s.task r).windowBytes ≤ 2 ^ 22

theorem spot_window {s : State} {g : Agent} {a : W64} {n : Nat} (h : Windowed s g.task a n) (fresh : g.spots = []) (write : Bool) :
    s.spot g a n write = .ok (.inside (windowAddr g.task.coreRef (s.task g.task) (addrOff a))) := by
  have := h.some
  have := h.inside
  have := h.small
  have ok : addrOk g.task.core a = true := by
    unfold addrOk
    rw [h.form, Bool.and_eq_true]
    exact ⟨decide_eq_true (by show addrOff a < 2 ^ 22; omega), by rfl⟩
  unfold State.spot
  rw [fresh]
  unfold State.findSpot
  simp only [List.find?_nil, ok, Bool.not_true, Bool.false_eq_true, if_false, ne_eq, h.aligned, not_true_eq_false, h.form, h.inside, if_true]

theorem noteSpot_window {s : State} {g : Agent} {a : W64} {n : Nat} (form : addrForm a = 2) (write : Bool) :
    s.noteSpot g a n write = g.spots := if_pos (.inl (by rw [form]; decide))

theorem engineRead_window {s : State} {g : Agent} {a : W64} {n : Nat} (h : Windowed s g.task a n) (fresh : g.spots = [])
    (free : ∀ o m w, s.spotHeld (.inside o) m w = false) : s.engineRead g a n =
      (s, .bytes (s.mem.bytes (windowAddr g.task.coreRef (s.task g.task) (addrOff a)) n)) := by
  unfold State.engineRead
  rw [spot_window h fresh]
  have form : ¬addrForm a = 0 := by rw [h.form]; decide
  simp only [if_neg form, free, Bool.false_eq_true, if_false]

theorem engineWrite_window {s : State} {g : Agent} {a : W64} {b : List Byte} (h : Windowed s g.task a b.length) (fresh : g.spots = [])
    (free : ∀ o m w, s.spotHeld (.inside o) m w = false) : s.engineWrite g a b =
      (s.writeLocal g.task.coreRef g.task.slot (windowAddr g.task.coreRef (s.task g.task) (addrOff a)) b g.within, .wrote []) := by
  unfold State.engineWrite
  rw [spot_window h fresh]
  have form : ¬addrForm a = 0 := by rw [h.form]; decide
  simp only [if_neg form, free, Bool.false_eq_true, if_false]

theorem sameCmds_logFor (s : State) (c : CoreRef) (slot : Nat) (i : LogItem) (w : Nat) :
    SameCmds s (s.logFor c slot i w) c ∧ (s.logFor c slot i w).mem = s.mem := by
  unfold State.logFor
  split
  · exact ⟨.refl .., rfl⟩
  · exact ⟨.modCore _ _ _ ⟨rfl, rfl, rfl⟩, rfl⟩

theorem sameCmds_logBytes (s : State) (c : CoreRef) (slot a : Nat) (b : List Byte) :
    SameCmds s (s.logBytes c slot a b) c ∧ (s.logBytes c slot a b).mem = s.mem := by
  unfold State.logBytes
  generalize List.range ((a + b.length + 127) / 128 - a / 128) = l
  induction l generalizing s with
  | nil => exact ⟨.refl .., rfl⟩
  | cons i l ih =>
    rw [List.foldl_cons]
    dsimp only
    split
    · obtain ⟨one, mem⟩ := sameCmds_logFor s c slot (.bytes ((a / 128 + i) * 128) (s.mem.bytes ((a / 128 + i) * 128) 128)) (leNat b)
      exact ⟨one.trans (ih _).1, (ih _).2.trans mem⟩
    · exact ih s

/-- A store of a core's own memory writes its bytes, and may log what stood there (R205, R206). -/
theorem sameCmds_writeLocal (s : State) (c : CoreRef) (slot a : Nat) (b : List Byte) (within : Bool) :
    SameCmds s (s.writeLocal c slot a b within) c ∧ (s.writeLocal c slot a b within).mem = s.mem.setBytes a b := by
  have stored : ∀ w : State, SameCmds s w c ∧ w.mem = s.mem →
      SameCmds s { w with mem := w.mem.setBytes a b } c ∧ w.mem.setBytes a b = s.mem.setBytes a b := fun w h =>
    ⟨h.1.setMem _, congrArg (fun m : Memory => m.setBytes a b) h.2⟩
  cases within with
  | true => exact stored _ (sameCmds_logBytes s c slot a b)
  | false => exact stored s ⟨.refl .., rfl⟩

/-! ### The last element of a CPY within the window (R220, R221) -/

theorem overlay_nil (o : Nat) (b : List Byte) : overlay o b [] = b := rfl

/-- One element of a CPY, read from the window and to be written there. -/
def windowRun (s : State) (r : TaskRef) (x : Cmd) (a b : W64) : CellRun :=
  let d := s.mem.bytes (windowAddr r.coreRef (s.task r) (addrOff a)) (fieldOf x.fields 2)
  { writes := [(b, d)], puts := [(s.physical (windowAddr r.coreRef (s.task r) (addrOff b)), d)], next := x.elems + 1
    granule := some (b.toNat / 128), spots := [], idx := [0], failed := none, waits := false }

theorem gatherCell_window {s : State} {g : Agent} {x : Cmd} {a b : W64} (source : Windowed s g.task a (fieldOf x.fields 2))
    (target : Windowed s g.task b (fieldOf x.fields 2)) (fresh : g.spots = []) (idx : x.idx = []) (spots : x.spots = [])
    (elem : element .cpy x.fields (digits (copyCounts x.fields) x.elems) 0 = (.copy a, b)) (free : ∀ o m w, s.spotHeld (.inside o) m w = false) :
    State.gatherCell g .cpy x false 1 (s, ⟨[], [], x.elems, none, x.spots, x.idx, none, false⟩) =
      (s, windowRun s g.task x a b) := by
  have same : ({ g with spots := [] } : Agent) = g := by rw [← fresh]
  have index : s.readIndex g .cpy x ⟨[], [], x.elems, none, [], [], none, false⟩ = (s, .ok 0) := rfl
  have read := engineRead_window source fresh free
  have seen : s.seenIn g a (fieldOf x.fields 2) [] (.bytes (s.mem.bytes (windowAddr g.task.coreRef (s.task g.task) (addrOff a)) (fieldOf x.fields 2)))
      = .bytes (s.mem.bytes (windowAddr g.task.coreRef (s.task g.task) (addrOff a)) (fieldOf x.fields 2)) := by
    unfold State.seenIn
    rw [spot_window source fresh]
    rfl
  have data : s.elementData g .cpy x [] (.copy a) =
      (s, .bytes (s.mem.bytes (windowAddr g.task.coreRef (s.task g.task) (addrOff a)) (fieldOf x.fields 2))) := by
    unfold State.elementData
    dsimp only
    rw [read]
    dsimp only
    rw [seen]
    rfl
  have notes (v : W64) (form : addrForm v = 2) (write : Bool) : s.noteSpot g v (fieldOf x.fields 2) write = [] :=
    (noteSpot_window form write).trans fresh
  rw [idx, spots]
  simp only [State.gatherCell, same, if_true, index, elem, List.length_nil, Nat.sub_self, List.nil_append, reduceCtorEq, if_false,
    Option.isSome_none, Bool.false_eq_true, false_and, ne_eq, notes a source.form, notes b target.form, data, spot_window target fresh]
  rfl

end Sys2Proof

namespace Sys2Proof

open Machine

/-! ### The steps of a copy (R215, R220, R221) -/

section
variable {s : State} {c : CoreRef} {tok : Nat} {x : Cmd} {k : CopyKind} (there : (s.core c).cmd tok = some x) (copies : x.kind.copy? = some k)
include there copies

theorem copyAt_of : s.copyAt c tok = some (x, k) := by
  unfold State.copyAt
  rw [there]
  dsimp only
  rw [copies]
  rfl

theorem copyStart_steps : exec (.copyStart c tok) s = .next (
    if x.started ∨ x.deps ≠ [] ∨ (s.task (issuerOf c x)).stopped = true then s
    else if x.depFault.isSome then s.endCmd c tok 0x43 (s.agentTime c.die (x.agent c tok).pos)
    else (s.modCore c fun k => k.setCmd tok (some { x with started := true })).raiseAgent c.die (x.agent c tok).pos (s.task (issuerOf c x)).time) := by
  show execCopyStart c tok s = _
  unfold execCopyStart
  rw [copyAt_of there copies]
  rfl

theorem copyComplete_steps : exec (.copyComplete c tok) s = .next (
    if !x.started || decide (x.elems < elementTotal x.fields) || s.farPending (issuerOf c x) tok || s.storesHeld x then s
    else match s.farRefused (issuerOf c x) tok with
      | some t => s.failCopy (x.agent c tok) c tok x t
      | none => s.finishCopy (x.agent c tok) c tok x) := by
  show execCopyComplete c tok s = _
  unfold execCopyComplete
  rw [copyAt_of there copies]
  rfl

end

theorem agentTime_raiseAgent (s : State) (die pos : Nat) (t : W64) : (s.raiseAgent die pos t).agentTime die pos = tmax (s.agentTime die pos) t := by
  rw [State.raiseAgent, State.agentTime, State.die_modDie, Tbl.get_set_same]
  rfl

theorem goesOn_raiseAgent {s t : State} {c : CoreRef} {tok : Nat} {y : Cmd} (h : GoesOn s t c tok y) (die pos : Nat) (time : W64) :
    GoesOn s (t.raiseAgent die pos time) c tok y := ⟨h.command, h.others, h.tasks⟩

/-- What a copy has written in HBM taken by its homes (R250): tasks and commands stand. -/
theorem worked_stamp (s : State) (die pos : Nat) (lines : List Nat) : Worked s (s.stamp die pos lines).1 := by
  have marked : ∀ (t : State) (tc : W64), Worked t (t.markDie die tc) := fun t tc =>
    (Worked.modDie t die (fun d => { d with hwm := tmax d.hwm tc }) rfl).trans (.of_stores rfl rfl rfl)
  have stamped : ∀ tc : W64, Worked s (lines.foldl (fun s l => s.modLine l fun m => { m with wts := tc, rts := tc }) s) := fun tc =>
    .foldl (fun s l => s.modLine l fun m => { m with wts := tc, rts := tc }) (fun t l => worked_modLine t l _) s lines
  unfold State.stamp
  dsimp only
  generalize wheelTime _ _ = tc
  refine ((stamped tc).trans ?_).trans (worked_raiseAgent ..)
  split
  · exact .refl _
  · exact marked _ _

theorem mem_stamp (s : State) (die pos : Nat) (lines : List Nat) : (s.stamp die pos lines).1.mem = s.mem := by
  have stamped : ∀ (l : List Nat) (t : State) (f : LineMeta → LineMeta), (l.foldl (fun s l => s.modLine l f) t).mem = t.mem := by
    intro l
    induction l with
    | nil => exact fun _ _ => rfl
    | cons a l ih => exact fun t f => (ih _ f).trans rfl
  unfold State.stamp
  dsimp only
  split
  · exact stamped lines s _
  · exact (rfl : _ = _).trans (stamped lines s _)

theorem landStores_lands (s : State) (g : Agent) (x : Cmd) : Worked s (s.landStores g x).1
    ∧ (s.landStores g x).1.mem = (x.stores.foldl (fun s y => s.storeHbm y.2.1 y.1 y.2.2) s).mem := by
  have stores : Worked s (x.stores.foldl (fun s y => s.storeHbm y.2.1 y.1 y.2.2) s) :=
    .foldl (fun s y => s.storeHbm y.2.1 y.1 y.2.2) (fun t y => worked_storeHbm t y.2.1 y.1 y.2.2) s x.stores
  unfold State.landStores
  generalize x.stores.foldl (fun s y => s.storeHbm y.2.1 y.1 y.2.2) s = w at stores
  exact ⟨stores.trans (worked_stamp ..), mem_stamp ..⟩

/-- A command counted by its engine (Table 10.1). -/
def engineDone (s : State) (c : CoreRef) : State :=
  s.modDie c.die fun d => { d with engDone := Tbl.set 0 d.engDone (engineOf c.core) (d.engDone.get 0 (engineOf c.core) + 1) }

theorem finishCopy_eq (s : State) (g : Agent) (c : CoreRef) (tok : Nat) (x : Cmd) : s.finishCopy g c tok x =
    ((engineDone (s.landStores g x).1 c).dropFar g.task tok).endCmd c tok 0 (s.landStores g x).2 := rfl

/-- A copy command that completes (R220, Table 10.1). -/
theorem finishCopy_ends {s : State} {c : CoreRef} {tok : Nat} {x : Cmd} (there : (s.core c).cmd tok = some x) (g : Agent) :
    Ended s (s.finishCopy g c tok x) c tok x 0 (s.landStores g x).2
      ∧ (s.finishCopy g c tok x).mem = (x.stores.foldl (fun s y => s.storeHbm y.2.1 y.1 y.2.2) s).mem
      ∧ ((s.finishCopy g c tok x).die c.die).engDone.get 0 (engineOf c.core) = (s.die c.die).engDone.get 0 (engineOf c.core) + 1 := by
  obtain ⟨worked, mem⟩ := landStores_lands s g x
  rw [finishCopy_eq]
  generalize (s.landStores g x).2 = tc
  generalize (s.landStores g x).1 = w at worked mem ⊢
  have counts : (w.die c.die).engDone = (s.die c.die).engDone := (congrArg Die.engDone (worked.dies c.die) :)
  have same : SameCmds w ((engineDone w c).dropFar g.task tok) c := SameCmds.of_cores (s := w) (w := (engineDone w c).dropFar g.task tok) rfl c
  have memV : ((engineDone w c).dropFar g.task tok).mem = w.mem := rfl
  have die : (((engineDone w c).dropFar g.task tok).die c.die).engDone.get 0 (engineOf c.core) = (w.die c.die).engDone.get 0 (engineOf c.core) + 1 := by
    show ((engineDone w c).die c.die).engDone.get 0 (engineOf c.core) = _
    rw [engineDone, State.die_modDie, Tbl.get_set_same]
  generalize (engineDone w c).dropFar g.task tok = v at same memV die ⊢
  have kept := (SameCmds.of_worked worked c).trans same
  obtain ⟨ended, memE, -, dies⟩ := endCmd_ends ((kept.cmd tok).trans there) 0 tc
  refine ⟨ended.of_same kept, memE.trans (memV.trans mem), ?_⟩
  rw [State.die, dies, ← State.die, die, counts]

theorem farPending_none {s : State} {r : TaskRef} {tok : Nat} (none : ∀ q ∈ s.sent, q.task = r → q.cmdTok ≠ some tok) :
    s.farPending r tok = false ∧ s.farRefused r tok = .none := by
  refine ⟨List.any_eq_false.2 fun q hq h => ?_, List.findSome?_eq_none_iff.2 fun q hq => ?_⟩
  · rw [Bool.and_eq_true, Bool.and_eq_true, decide_eq_true_eq, decide_eq_true_eq] at h
    exact none q hq h.1.1 h.1.2
  · exact if_neg fun h => none q hq h.1 h.2.1

/-- A cell of one element put in the window (R221). -/
theorem putCell_window {s : State} {g : Agent} {x : Cmd} {a b : W64} (target : Windowed s g.task b (fieldOf x.fields 2)) (fresh : g.spots = []) (entry : tteEntry x.fields = none)
    (free : ∀ o m w, s.spotHeld (.inside o) m w = false) : s.putCell g .cpy x (windowRun s g.task x a b) =
      (s.writeLocal g.task.coreRef g.task.slot (windowAddr g.task.coreRef (s.task g.task) (addrOff b))
          (s.mem.bytes (windowAddr g.task.coreRef (s.task g.task) (addrOff a)) (fieldOf x.fields 2)) g.within,
        ⟨{ x with lines := x.lines ++ [], stores := x.stores ++ [] }, none, false⟩) := by
  have length : (s.mem.bytes (windowAddr g.task.coreRef (s.task g.task) (addrOff a)) (fieldOf x.fields 2)).length = fieldOf x.fields 2 := by
    simp [Memory.bytes]
  have writes : (windowRun s g.task x a b).writes =
      [(b, s.mem.bytes (windowAddr g.task.coreRef (s.task g.task) (addrOff a)) (fieldOf x.fields 2))] := rfl
  unfold State.putCell
  rw [writes]
  generalize s.mem.bytes (windowAddr g.task.coreRef (s.task g.task) (addrOff a)) (fieldOf x.fields 2) = d at length
  have target' : Windowed s g.task b d.length := by rw [length]; exact target
  have place := spot_window target' fresh true
  have written := engineWrite_window target' fresh free
  have held : s.cellHeld g [(b, d)] = false := by
    unfold State.cellHeld
    simp only [List.any_cons, List.any_nil, Bool.or_false, place, free]
  have copied : s.copyWrite g b d = (s.writeLocal g.task.coreRef g.task.slot (windowAddr g.task.coreRef (s.task g.task) (addrOff b)) d g.within,
      .wrote [], []) := by
    unfold State.copyWrite
    rw [place]
    dsimp only
    rw [written]
  rw [held, if_neg Bool.false_ne_true, entry]
  dsimp only
  unfold State.writeCell
  rw [copied]
  rfl

theorem advanced_window {s : State} {r : TaskRef} {x : Cmd} {a b : W64} (skip : x.skip = 0) (idx : x.idx = []) (spots : x.spots = []) :
    ({ x with lines := x.lines ++ [], stores := x.stores ++ [] } : Cmd).advanced (windowRun s r x a b) x.elems =
      { x with elems := x.elems + 1, cells := x.cells + 1, lines := x.lines.dedup } := by
  have one : (x.elems + 1) - x.elems = 1 := Nat.add_sub_cancel_left ..
  unfold Cmd.advanced windowRun
  simp only [List.append_nil, reduceCtorEq, if_false, one, List.drop_succ_cons, List.drop_zero, skip, idx, spots]

/-- The last element of a CPY within the window is copied there, and the command goes on to its end (R220, R221). -/
theorem copyCell_window {s : State} {c : CoreRef} {tok : Nat} {x : Cmd} {a b : W64} (there : (s.core c).cmd tok = some x)
    (copies : x.kind.copy? = some .cpy) (source : Windowed s (issuerOf c x) a (fieldOf x.fields 2))
    (target : Windowed s (issuerOf c x) b (fieldOf x.fields 2))
    (elem : element .cpy x.fields (digits (copyCounts x.fields) x.elems) 0 = (.copy a, b)) (started : x.started = true)
    (runs : (s.task (issuerOf c x)).stopped = false) (last : x.elems + 1 = elementTotal x.fields) (entry : tteEntry x.fields = none)
    (skip : x.skip = 0) (idx : x.idx = []) (spots : x.spots = []) (free : ∀ o m w, s.spotHeld (.inside o) m w = false) :
    ∃ t, exec (.copyCellWrite c tok) s = .next t
      ∧ GoesOn s t c tok { x with elems := x.elems + 1, cells := x.cells + 1, lines := x.lines.dedup }
      ∧ t.mem = s.mem.setBytes (windowAddr c (s.task (issuerOf c x)) (addrOff b))
          (s.mem.bytes (windowAddr c (s.task (issuerOf c x)) (addrOff a)) (fieldOf x.fields 2)) := by
  have next : s.nextCell (x.agent c tok) .cpy x = (s, windowRun s (issuerOf c x) x a b) := by
    unfold State.nextCell
    rw [skip, ← last, Nat.add_sub_cancel_left]
    exact gatherCell_window (g := x.agent c tok) source target spots idx spots elem free
  have put := putCell_window (g := { x.agent c tok with spots := [] }) (a := a) target rfl entry free
  have runs' : (!x.started || decide (elementTotal x.fields ≤ x.elems) || (s.task (x.agent c tok).task).stopped) = false := by
    rw [started, decide_eq_false (by omega), show (s.task (x.agent c tok).task).stopped = false from runs]
    rfl
  have went := advanced_window (s := s) (r := issuerOf c x) (a := a) (b := b) skip idx spots
  have cell : exec (.copyCellWrite c tok) s = .next ((((s.writeLocal c x.slot (windowAddr c (s.task (issuerOf c x)) (addrOff b))
      (s.mem.bytes (windowAddr c (s.task (issuerOf c x)) (addrOff a)) (fieldOf x.fields 2)) x.within).dropLoads
      (issuerOf c x) (some tok)).dropLoads (issuerOf c x) (some walkTok)).modCore c fun k =>
        k.setCmd tok (some { x with elems := x.elems + 1, cells := x.cells + 1, lines := x.lines.dedup })) := by
    show execCopyCellWrite c tok s = _
    unfold execCopyCellWrite
    rw [copyAt_of there copies]
    dsimp only
    rw [runs', if_neg Bool.false_ne_true, next]
    dsimp only
    rw [show (windowRun s (issuerOf c x) x a b).waits = false from rfl, if_neg Bool.false_ne_true,
      show (windowRun s (issuerOf c x) x a b).spots = [] from rfl, show (windowRun s (issuerOf c x) x a b).failed = none from rfl]
    have put' : s.putCell { x.agent c tok with spots := [] } .cpy x (windowRun s (issuerOf c x) x a b) = _ := put
    rw [put']
    dsimp only
    rw [went]
    rfl
  obtain ⟨same, mem⟩ := sameCmds_writeLocal s c x.slot (windowAddr c (s.task (issuerOf c x)) (addrOff b))
    (s.mem.bytes (windowAddr c (s.task (issuerOf c x)) (addrOff a)) (fieldOf x.fields 2)) x.within
  generalize s.writeLocal c x.slot (windowAddr c (s.task (issuerOf c x)) (addrOff b))
    (s.mem.bytes (windowAddr c (s.task (issuerOf c x)) (addrOff a)) (fieldOf x.fields 2)) x.within = w at cell same mem
  have dropped : SameCmds w ((w.dropLoads (issuerOf c x) (some tok)).dropLoads (issuerOf c x) (some walkTok)) c :=
    SameCmds.of_cores (s := w) (w := (w.dropLoads (issuerOf c x) (some tok)).dropLoads (issuerOf c x) (some walkTok)) rfl c
  refine ⟨_, cell, GoesOn.of_same ?_ (same.trans dropped), mem⟩
  exact goesOn_modCore _ c tok _ _ ⟨rfl, rfl⟩

end Sys2Proof

namespace Sys2Proof

open Machine

/-! ### The steps of a copy, assembled -/

section
variable {s : State} {c : CoreRef} {tok : Nat} {x : Cmd} {k : CopyKind} (there : (s.core c).cmd tok = some x) (copies : x.kind.copy? = some k)
include there copies

theorem copyStart_idle (h : x.started = true ∨ x.deps ≠ [] ∨ (s.task (issuerOf c x)).stopped = true) :
    exec (.copyStart c tok) s = .next s := by
  rw [copyStart_steps there copies, if_pos h]

theorem copyStart_begins (fresh : x.started = false) (bound : x.deps = []) (runs : (s.task (issuerOf c x)).stopped = false) :
    (x.depFault.isSome = true → ∃ t, exec (.copyStart c tok) s = .next t
      ∧ Ended s t c tok x 0x43 (s.agentTime c.die (x.agent c tok).pos) ∧ t.mem = s.mem)
    ∧ (x.depFault = none → ∃ t, exec (.copyStart c tok) s = .next t ∧ GoesOn s t c tok { x with started := true } ∧ t.mem = s.mem
      ∧ t.agentTime c.die (x.agent c tok).pos = tmax (s.agentTime c.die (x.agent c tok).pos) (s.task (issuerOf c x)).time) := by
  have goes : ¬(x.started = true ∨ x.deps ≠ [] ∨ (s.task (issuerOf c x)).stopped = true) := by
    rw [fresh, bound, runs]
    simp
  rw [copyStart_steps there copies, if_neg goes]
  refine ⟨fun faulted => ?_, fun good => ?_⟩
  · rw [if_pos faulted]
    obtain ⟨ended, mem, -, -⟩ := endCmd_ends there 0x43 (s.agentTime c.die (x.agent c tok).pos)
    exact ⟨_, rfl, ended, mem⟩
  · rw [good, if_neg (by decide)]
    exact ⟨_, rfl, goesOn_raiseAgent (goesOn_modCore s c tok _ _ ⟨rfl, rfl⟩) .., rfl, agentTime_raiseAgent ..⟩

theorem copyComplete_idle (h : x.started = false ∨ x.elems < elementTotal x.fields) : exec (.copyComplete c tok) s = .next s := by
  rw [copyComplete_steps there copies, if_pos]
  rcases h with fresh | left
  · rw [fresh]
    rfl
  · rw [decide_eq_true left, Bool.or_true]
    rfl

theorem copyComplete_held (held : s.storesHeld x = true) : exec (.copyComplete c tok) s = .next s := by
  rw [copyComplete_steps there copies, if_pos (by rw [held, Bool.or_true])]

theorem copyComplete_ends (started : x.started = true) (all : elementTotal x.fields ≤ x.elems)
    (answered : ∀ q ∈ s.sent, q.task = issuerOf c x → q.cmdTok ≠ some tok) (free : s.storesHeld x = false) :
    ∃ t, exec (.copyComplete c tok) s = .next t ∧ Ended s t c tok x 0 (s.landStores (x.agent c tok) x).2
      ∧ t.mem = (x.stores.foldl (fun s y => s.storeHbm y.2.1 y.1 y.2.2) s).mem
      ∧ (t.die c.die).engDone.get 0 (engineOf c.core) = (s.die c.die).engDone.get 0 (engineOf c.core) + 1 := by
  obtain ⟨pending, refused⟩ := farPending_none answered
  have due : (!x.started || decide (x.elems < elementTotal x.fields) || s.farPending (issuerOf c x) tok || s.storesHeld x) = false := by
    rw [started, pending, free, decide_eq_false (Nat.not_lt.2 all)]
    rfl
  rw [copyComplete_steps there copies, due, if_neg Bool.false_ne_true, refused]
  exact ⟨_, rfl, finishCopy_ends there _⟩

end

/-! ### The order of the array (R195, R199) -/

/-- Latches that execute change a core's latches and its order alone. -/
theorem runLatches_keeps (c : CoreRef) : ∀ (rest done : List MCmd) (s : State), SameCmds s (State.runLatches c done rest s) c
    ∧ (State.runLatches c done rest s).mem = s.mem
  | [], done, s => ⟨.modCore _ _ _ ⟨rfl, rfl, rfl⟩, rfl⟩
  | .token slot tok :: rest, done, s => runLatches_keeps c rest _ s
  | .latch slot h o v :: rest, done, s => by
    unfold State.runLatches
    dsimp only
    split
    · exact runLatches_keeps c rest _ s
    · obtain ⟨same, mem⟩ := runLatches_keeps c rest done (s.modCore c fun k =>
        { k with latches := Tbl.set none k.latches h (some ⟨v, s.mem.bytes (operandBase c + o * 0x8000 + latchOff v)
          (imageSize (latchFmt v) (subDepth (s.core c).mode))⟩) })
      exact ⟨SameCmds.trans (.modCore _ _ _ ⟨rfl, rfl, rfl⟩) same, mem⟩

theorem leaveOrder_keeps (s : State) (c : CoreRef) (slot tok : Nat) : SameCmds s (s.leaveOrder c slot tok) c
    ∧ (s.leaveOrder c slot tok).mem = s.mem := by
  obtain ⟨same, mem⟩ := runLatches_keeps c ((s.modCore c fun k =>
    { k with mcmds := k.mcmds.filter fun m => !decide (m = .token slot tok) }).core c).mcmds [] (s.modCore c fun k =>
    { k with mcmds := k.mcmds.filter fun m => !decide (m = .token slot tok) })
  exact ⟨SameCmds.trans (.modCore _ _ _ ⟨rfl, rfl, rfl⟩) same, mem⟩

/-- A matrix command ends with its task's time (R199, R215). -/
theorem endMatrix_ends {s : State} {c : CoreRef} {tok : Nat} {x : Cmd} (there : (s.core c).cmd tok = some x) (cause : Nat) :
    Ended s (s.endMatrix c tok x.slot cause) c tok x cause (s.task (issuerOf c x)).time ∧ (s.endMatrix c tok x.slot cause).mem = s.mem
      ∧ ((s.endMatrix c tok x.slot cause).core c).units = (s.core c).units := by
  obtain ⟨same, mem⟩ := leaveOrder_keeps s c x.slot (tok % 16)
  obtain ⟨ended, memE, units, -⟩ := endCmd_ends ((same.cmd tok).trans there) cause (s.task (issuerOf c x)).time
  exact ⟨ended.of_same same, memE.trans mem, units.trans same.units⟩

section
variable {s : State} {c : CoreRef} {tok n : Nat} {x : Cmd} (there : (s.core c).cmd tok = some x) (stream : x.kind = .mstrm n)
include there stream

theorem streamStart_steps : exec (.streamStart c tok) s = .next (
    if x.started || !(s.core c).mayStart x.slot (tok % 16) x then s
    else if x.depFault.isSome then s.endMatrix c tok x.slot 0x43
    else s.modCore c fun k => k.setCmd tok (some { x with started := true })) := by
  show execStreamStart c tok s = _
  unfold execStreamStart
  rw [there]
  dsimp only
  rw [stream]

theorem streamComplete_steps : exec (.streamComplete c tok) s = .next (
    if x.started then (s.stream c x n).endMatrix c tok x.slot 0 else s) := by
  show execStreamComplete c tok s = _
  unfold execStreamComplete
  rw [there]
  dsimp only
  rw [stream]

theorem streamStart_idle (h : x.started = true ∨ (s.core c).mayStart x.slot (tok % 16) x = false) : exec (.streamStart c tok) s = .next s := by
  rw [streamStart_steps there stream, if_pos]
  rcases h with started | waits
  · rw [started]
    rfl
  · rw [waits, Bool.not_false, Bool.or_true]

theorem streamStart_begins (fresh : x.started = false) (may : (s.core c).mayStart x.slot (tok % 16) x = true) :
    (x.depFault.isSome = true → ∃ t, exec (.streamStart c tok) s = .next t ∧ Ended s t c tok x 0x43 (s.task (issuerOf c x)).time
      ∧ t.mem = s.mem)
    ∧ (x.depFault = none → ∃ t, exec (.streamStart c tok) s = .next t ∧ GoesOn s t c tok { x with started := true } ∧ t.mem = s.mem) := by
  have goes : (x.started || !(s.core c).mayStart x.slot (tok % 16) x) = false := by
    rw [fresh, may]
    rfl
  rw [streamStart_steps there stream, goes, if_neg Bool.false_ne_true]
  refine ⟨fun faulted => ?_, fun good => ?_⟩
  · rw [if_pos faulted]
    obtain ⟨ended, mem, -⟩ := endMatrix_ends there 0x43
    exact ⟨_, rfl, ended, mem⟩
  · rw [good, if_neg (by decide)]
    exact ⟨_, rfl, goesOn_modCore s c tok _ _ ⟨rfl, rfl⟩, rfl⟩

end

end Sys2Proof

namespace Sys2Proof

open Machine

/-! ### The rows of a stream (R196, R200, R201) -/

theorem Ended.of_tasks {s w t : State} {c : CoreRef} {tok cause : Nat} {x : Cmd} {tc : W64} (h : Ended w t c tok x cause tc)
    (tasks : ∀ q, w.task? q = s.task? q) (cmds : (w.core c).cmds = (s.core c).cmds) : Ended s t c tok x cause tc :=
  ⟨by rw [h.token, State.task, tasks, ← State.task], fun q beside => (h.others q beside).trans (tasks q), by rw [h.commands, cmds]⟩

/-- A row of a stream from the memory as it stands. -/
def streamedRow (m : Memory) (c : CoreRef) (n : Nat) (f : Tbl W64) (l : Latch) (d cols i : Nat) : List (W32 × Flags) :=
  streamRow (.ofRz (decide (fieldOf f 38 = 1))) d cols (latchFmt l.operand) l.image
    (wordsOf (m.bytes (unitAddr c n + 4 * cols * (fieldOf f 37 + i)) (4 * cols)))
    ((List.range d).map fun k => activationAt (m.bytes (operandBase c + fieldOf f 33 + i * fieldOf f 34) (rowSize (fieldOf f 35) d)) (fieldOf f 35) d k)

/-- One row performed: its words are written in the tile, and its flags are gathered. -/
theorem streamOne_writes (c : CoreRef) (slot : Nat) (within : Bool) (n : Nat) (f : Tbl W64) (l : Latch) (d cols : Nat) (a : State × Flags) (i : Nat) :
    SameCmds a.1 (State.streamOne c slot within n f l d cols a i).1 c
    ∧ (State.streamOne c slot within n f l d cols a i).1.mem =
      a.1.mem.setBytes (unitAddr c n + 4 * cols * (fieldOf f 37 + i)) (bytesOf ((streamedRow a.1.mem c n f l d cols i).map Prod.fst))
    ∧ (State.streamOne c slot within n f l d cols a i).2 = a.2 ||| orAll ((streamedRow a.1.mem c n f l d cols i).map Prod.snd) := by
  have row : streamRow (.ofRz (decide (fieldOf f 38 = 1))) d cols (latchFmt l.operand) l.image
      (wordsOf (a.1.mem.bytes (unitAddr c n + 4 * cols * (fieldOf f 37 + i)) (4 * cols))) (a.1.streamAct c f d i) = streamedRow a.1.mem c n f l d cols i := rfl
  unfold State.streamOne
  dsimp only
  rw [row]
  refine ⟨?_, ?_, rfl⟩
  · split
    · exact (sameCmds_logFor _ c slot _ _).1.setMem _
    · exact (SameCmds.refl a.1 c).setMem _
  · split
    · exact congrArg (fun m : Memory => m.setBytes _ _) (sameCmds_logFor ..).2
    · rfl

theorem length_streamedRow (m : Memory) (c : CoreRef) (n : Nat) (f : Tbl W64) (l : Latch) (d cols i : Nat) :
    (bytesOf ((streamedRow m c n f l d cols i).map Prod.fst)).length = 4 * cols := by
  simp [length_bytesOf, streamedRow, streamRow]

/-- The rows of a stream write the rows of their tile alone. -/
theorem streamRows_writes (c : CoreRef) (slot : Nat) (within : Bool) (n : Nat) (f : Tbl W64) (la : Latch) (d cols rows : Nat) (l : List Nat) :
    ∀ (a : State × Flags), (∀ i ∈ l, i < rows) →
      SameCmds a.1 (l.foldl (State.streamOne c slot within n f la d cols) a).1 c
      ∧ ∀ b, b < unitAddr c n + 4 * cols * fieldOf f 37 ∨ unitAddr c n + 4 * cols * fieldOf f 37 + 4 * cols * rows ≤ b →
        (l.foldl (State.streamOne c slot within n f la d cols) a).1.mem.byte b = a.1.mem.byte b := by
  induction l with
  | nil => exact fun a _ => ⟨.refl .., fun _ _ => rfl⟩
  | cons i l ih =>
    intro a low
    obtain ⟨same, mem, -⟩ := streamOne_writes c slot within n f la d cols a i
    obtain ⟨rest, bytes⟩ := ih (State.streamOne c slot within n f la d cols a i) fun j hj => low j (List.mem_cons_of_mem _ hj)
    refine ⟨same.trans rest, fun b out => (bytes b out).trans ?_⟩
    rw [mem]
    refine Memory.byte_setBytes_out _ _ _ _ ?_
    rw [length_streamedRow]
    have row : i < rows := low i List.mem_cons_self
    have upper : 4 * cols * (i + 1) ≤ 4 * cols * rows := Nat.mul_le_mul_left _ row
    rw [Nat.mul_add] at upper ⊢
    rcases out with below | above
    · exact .inl (by omega)
    · exact .inr (by omega)

theorem countCycles_keeps (s : State) (c : CoreRef) (slot : Nat) : SameCmds s (s.countCycles c slot) c ∧ (s.countCycles c slot).mem = s.mem := by
  unfold State.countCycles
  split
  · exact ⟨.refl .., rfl⟩
  · exact ⟨SameCmds.tookFree (.modCore _ _ _ ⟨rfl, rfl, rfl⟩) 1, rfl⟩

/-- Whether a weight of a latch is invalid for a tile (R196). -/
def badWeights (l : Latch) (d cols : Nat) : Bool :=
  (List.range d).any fun i => (List.range cols).any fun j => weightInvalid l.image (latchFmt l.operand) d i j

/-- A stream performed: its rows, and the flags raised on its tile's first unit (R194, R200). -/
theorem stream_latched {s : State} {c : CoreRef} {x : Cmd} {n : Nat} {l : Latch}
    (latched : (s.core c).latches.get none (fieldOf x.fields 32) = some l) : s.stream c x n =
      let cols := colCount ((s.core c).accUnit n).cols
      let d := subDepth (s.core c).mode
      let r := (List.range (fieldOf x.fields 36)).foldl (State.streamOne c x.slot x.within n x.fields l d cols) (s, flagIf (badWeights l d cols) flagNV)
      if x.within then (r.1.modCore c fun k => k.raiseFlags n r.2).countCycles c x.slot else r.1.modCore c fun k => k.raiseFlags n r.2 := by
  unfold State.stream
  dsimp only
  rw [latched]
  rfl

theorem raiseFlags_keeps (s : State) (c : CoreRef) (n : Nat) (f : Flags) :
    (∀ q, (s.modCore c fun k => k.raiseFlags n f).task? q = s.task? q)
    ∧ ((s.modCore c fun k => k.raiseFlags n f).core c).cmds = (s.core c).cmds
    ∧ (((s.modCore c fun k => k.raiseFlags n f).core c).accUnit n).flags = ((s.core c).accUnit n).flags ||| f := by
  refine ⟨task?_modCore_tasks s c rfl, ?_, ?_⟩
  · rw [State.core_modCore]
    rfl
  · rw [State.core_modCore, Core.raiseFlags, Core.setUnit, Core.accUnit]
    dsimp only
    rw [Tbl.get_set_same]

/-- What a stream leaves: tasks and commands, and every byte outside the rows of its tile. -/
theorem stream_keeps (s : State) (c : CoreRef) (x : Cmd) (n : Nat) : (∀ q, (s.stream c x n).task? q = s.task? q)
    ∧ ((s.stream c x n).core c).cmds = (s.core c).cmds
    ∧ ∀ b, b < unitAddr c n + 4 * colCount ((s.core c).accUnit n).cols * fieldOf x.fields 37
        ∨ unitAddr c n + 4 * colCount ((s.core c).accUnit n).cols * fieldOf x.fields 37
          + 4 * colCount ((s.core c).accUnit n).cols * fieldOf x.fields 36 ≤ b →
      (s.stream c x n).mem.byte b = s.mem.byte b := by
  cases latched : (s.core c).latches.get none (fieldOf x.fields 32) with
  | none =>
    have same : s.stream c x n = s := by
      unfold State.stream
      dsimp only
      rw [latched]
    rw [same]
    exact ⟨fun _ => rfl, rfl, fun _ _ => rfl⟩
  | some l =>
    rw [stream_latched latched]
    dsimp only
    obtain ⟨rows, bytes⟩ := streamRows_writes c x.slot x.within n x.fields l (subDepth (s.core c).mode) (colCount ((s.core c).accUnit n).cols)
      (fieldOf x.fields 36) (List.range (fieldOf x.fields 36))
      (s, flagIf (badWeights l (subDepth (s.core c).mode) (colCount ((s.core c).accUnit n).cols)) flagNV) fun i hi => List.mem_range.1 hi
    generalize (List.range (fieldOf x.fields 36)).foldl _ (s, _) = r at rows bytes ⊢
    obtain ⟨tasks, cmds, -⟩ := raiseFlags_keeps r.1 c n r.2
    have memV : (r.1.modCore c fun k => k.raiseFlags n r.2).mem = r.1.mem := rfl
    generalize (r.1.modCore c fun k => k.raiseFlags n r.2) = v at tasks cmds memV ⊢
    have tasksV : ∀ q, v.task? q = s.task? q := fun q => (tasks q).trans (rows.tasks q)
    split
    · obtain ⟨same, mem⟩ := countCycles_keeps v c x.slot
      exact ⟨fun q => (same.tasks q).trans (tasksV q), same.cmds.trans (cmds.trans rows.cmds), fun b out => by rw [mem, memV]; exact bytes b out⟩
    · exact ⟨tasksV, cmds.trans rows.cmds, fun b out => by rw [memV]; exact bytes b out⟩

/-- A stream of one row (R200): the row's words in the tile, and the flags of its weights and its products. -/
theorem stream_oneRow {s : State} {c : CoreRef} {x : Cmd} {n : Nat} {l : Latch}
    (latched : (s.core c).latches.get none (fieldOf x.fields 32) = some l) (one : fieldOf x.fields 36 = 1) :
    (s.stream c x n).mem = s.mem.setBytes (unitAddr c n + 4 * colCount ((s.core c).accUnit n).cols * fieldOf x.fields 37)
        (bytesOf ((streamedRow s.mem c n x.fields l (subDepth (s.core c).mode) (colCount ((s.core c).accUnit n).cols) 0).map Prod.fst))
    ∧ (((s.stream c x n).core c).accUnit n).flags = ((s.core c).accUnit n).flags
      ||| flagIf (badWeights l (subDepth (s.core c).mode) (colCount ((s.core c).accUnit n).cols)) flagNV
      ||| orAll ((streamedRow s.mem c n x.fields l (subDepth (s.core c).mode) (colCount ((s.core c).accUnit n).cols) 0).map Prod.snd) := by
  rw [stream_latched latched, one]
  dsimp only
  rw [List.range_one, List.foldl_cons, List.foldl_nil]
  obtain ⟨same, mem, flags⟩ := streamOne_writes c x.slot x.within n x.fields l (subDepth (s.core c).mode) (colCount ((s.core c).accUnit n).cols)
    (s, flagIf (badWeights l (subDepth (s.core c).mode) (colCount ((s.core c).accUnit n).cols)) flagNV) 0
  generalize State.streamOne c x.slot x.within n x.fields l (subDepth (s.core c).mode) (colCount ((s.core c).accUnit n).cols)
    (s, flagIf (badWeights l (subDepth (s.core c).mode) (colCount ((s.core c).accUnit n).cols)) flagNV) 0 = r at same mem flags ⊢
  obtain ⟨-, -, raised⟩ := raiseFlags_keeps r.1 c n r.2
  have memV : (r.1.modCore c fun k => k.raiseFlags n r.2).mem = r.1.mem := rfl
  generalize (r.1.modCore c fun k => k.raiseFlags n r.2) = v at raised memV ⊢
  have flagsV : ((v.core c).accUnit n).flags = ((s.core c).accUnit n).flags
      ||| flagIf (badWeights l (subDepth (s.core c).mode) (colCount ((s.core c).accUnit n).cols)) flagNV
      ||| orAll ((streamedRow s.mem c n x.fields l (subDepth (s.core c).mode) (colCount ((s.core c).accUnit n).cols) 0).map Prod.snd) := by
    rw [raised, flags, ← BitVec.or_assoc, Core.accUnit, same.units]
    rfl
  split
  · obtain ⟨kept, memC⟩ := countCycles_keeps v c x.slot
    refine ⟨memC.trans (memV.trans mem), ?_⟩
    rw [← flagsV, Core.accUnit, kept.units]
    rfl
  · exact ⟨memV.trans mem, flagsV⟩

/-- STREAM_COMPLETE performs the stream and ends it (R199, R200). -/
theorem streamComplete_ends {s : State} {c : CoreRef} {tok n : Nat} {x : Cmd} (there : (s.core c).cmd tok = some x) (stream : x.kind = .mstrm n)
    (started : x.started = true) : ∃ t, exec (.streamComplete c tok) s = .next t ∧ Ended s t c tok x 0 (s.task (issuerOf c x)).time
      ∧ t.mem = (s.stream c x n).mem ∧ ((t.core c).accUnit n).flags = (((s.stream c x n).core c).accUnit n).flags := by
  obtain ⟨tasks, cmds, -⟩ := stream_keeps s c x n
  rw [streamComplete_steps there stream, if_pos started]
  generalize s.stream c x n = w at tasks cmds ⊢
  have thereW : (w.core c).cmd tok = some x := by rw [Core.cmd, cmds]; exact there
  obtain ⟨ended, mem, units⟩ := endMatrix_ends thereW 0
  have time : w.task (issuerOf c x) = s.task (issuerOf c x) := by rw [State.task, tasks, ← State.task]
  rw [time] at ended
  exact ⟨_, rfl, ended.of_tasks tasks cmds, mem, by rw [Core.accUnit, units]; rfl⟩

end Sys2Proof

namespace Sys2Proof

open Machine

/-! ### A row of MOUT in operand memory (R204) -/

/-- Bytes written granule by granule read back whole, and no other byte changes. -/
theorem granules_write (base : Nat) : ∀ (fuel a : Nat) (b : List Byte) (m : Memory), a % 128 + b.length ≤ 128 * fuel →
    (∀ i, i < b.length → ((granules a b fuel).foldl (fun m x => m.setBytes (base + x.1) x.2) m : Memory).byte (base + a + i) = b.getD i 0)
    ∧ ∀ p, p < base + a ∨ base + a + b.length ≤ p →
      ((granules a b fuel).foldl (fun m x => m.setBytes (base + x.1) x.2) m : Memory).byte p = m.byte p
  | 0, a, b, m, short => ⟨fun i hi => absurd hi (by omega), fun _ _ => rfl⟩
  | fuel + 1, a, b, m, short => by
    unfold granules
    split
    · next none =>
      rw [none]
      exact ⟨fun i hi => absurd hi (Nat.not_lt_zero i), fun _ _ => rfl⟩
    · dsimp only
      rw [List.foldl_cons]
      dsimp only
      have first : (b.take (128 - a % 128)).length = min (128 - a % 128) b.length := List.length_take
      have later : (b.drop (128 - a % 128)).length = b.length - (128 - a % 128) := List.length_drop
      obtain ⟨inside, outside⟩ := granules_write base fuel (a + (128 - a % 128)) (b.drop (128 - a % 128))
        (m.setBytes (base + a) (b.take (128 - a % 128))) (by omega)
      refine ⟨fun i hi => ?_, fun p out => ?_⟩
      · by_cases early : i < 128 - a % 128
        · rw [outside _ (.inl (by omega)), Memory.byte_setBytes_in _ _ _ _ (by omega)]
          simp only [List.getD_eq_getElem?_getD, List.getElem?_take, early, if_true]
        · have rest := inside (i - (128 - a % 128)) (by omega)
          rw [show base + (a + (128 - a % 128)) + (i - (128 - a % 128)) = base + a + i by omega] at rest
          rw [rest, List.getD_eq_getElem?_getD, List.getElem?_drop, List.getD_eq_getElem?_getD,
            show 128 - a % 128 + (i - (128 - a % 128)) = i by omega]
      · rw [outside p (by omega)]
        exact Memory.byte_setBytes_out _ _ _ _ (by omega)

/-- Cells of MOUT written in operand memory. -/
theorem outCells_write (r : TaskRef) (within : Bool) {f : Tbl W64} (operand : fieldOf f 40 = 1) (cells : List (Nat × List Byte)) (s : State) :
    SameCmds s (cells.foldl (State.outCell r within f) s) r.coreRef
    ∧ (cells.foldl (State.outCell r within f) s).mem = cells.foldl (fun m x => m.setBytes (operandBase r.coreRef + x.1) x.2) s.mem := by
  induction cells generalizing s with
  | nil => exact ⟨.refl .., rfl⟩
  | cons x cells ih =>
    have cell : State.outCell r within f s x = s.writeLocal r.coreRef r.slot (operandBase r.coreRef + x.1) x.2 within := if_pos operand
    obtain ⟨same, mem⟩ := sameCmds_writeLocal s r.coreRef r.slot (operandBase r.coreRef + x.1) x.2 within
    rw [List.foldl_cons, cell]
    obtain ⟨rest, memR⟩ := ih (s.writeLocal r.coreRef r.slot (operandBase r.coreRef + x.1) x.2 within)
    refine ⟨same.trans rest, memR.trans ?_⟩
    rw [mem]
    rfl

theorem length_wordsOf : ∀ l : List Byte, (wordsOf l).length = l.length / 4
  | [] => by simp [wordsOf]
  | [_] => by simp [wordsOf]
  | [_, _] => by simp [wordsOf]
  | [_, _, _] => by simp [wordsOf]
  | a :: b :: c :: d :: t => by
    rw [wordsOf, List.length_cons, length_wordsOf t]
    simp only [List.length_cons]
    omega

theorem length_outElem (fmt : Nat) (rz : Bool) (w : W32) : (outElem fmt rz w).1.length = fmtBytes fmt := by
  unfold outElem
  split
  · next zero =>
    rw [zero]
    exact leBytes_length ..
  · exact leBytes_length ..

/-- The elements of a row of MOUT, converted (R204). -/
def outRowOf (m : Memory) (c : CoreRef) (n cols : Nat) (f : Tbl W64) : List (List Byte × Flags) :=
  (wordsOf (m.bytes (unitAddr c n + 4 * cols * fieldOf f 44) (4 * cols))).map (outElem (fieldOf f 43) (decide (fieldOf f 38 = 1)))

theorem length_outRowOf (m : Memory) (c : CoreRef) (n cols : Nat) (f : Tbl W64) :
    ((outRowOf m c n cols f).flatMap Prod.fst).length = cols * fmtBytes (fieldOf f 43) := by
  have each : ∀ l : List W32, ((l.map (outElem (fieldOf f 43) (decide (fieldOf f 38 = 1)))).flatMap Prod.fst).length
      = l.length * fmtBytes (fieldOf f 43) := by
    intro l
    induction l with
    | nil => simp
    | cons w l ih => rw [List.map_cons, List.flatMap_cons, List.length_append, ih, length_outElem, List.length_cons, Nat.succ_mul, Nat.add_comm]
  have words : (wordsOf (m.bytes (unitAddr c n + 4 * cols * fieldOf f 44) (4 * cols))).length = cols := by
    rw [length_wordsOf]
    simp [Memory.bytes]
  rw [outRowOf, each, words]

theorem colCount_le (code : Nat) : colCount code ≤ 64 := by
  unfold colCount
  split
  · exact Nat.le_refl _
  · split <;> decide

theorem fmtBytes_le (fmt : Nat) : fmtBytes fmt ≤ 4 := by
  unfold fmtBytes
  split
  · exact Nat.le_refl _
  · split <;> decide

/-- One row of MOUT written in operand memory. -/
theorem outRow_writes {s : State} {c : CoreRef} {slot n cols : Nat} {within : Bool} {f : Tbl W64} (operand : fieldOf f 40 = 1) (few : cols ≤ 64) :
    SameCmds s (State.outRow ⟨c.die, c.core, slot⟩ within n cols f (s, 0) 0).1 c
    ∧ (State.outRow ⟨c.die, c.core, slot⟩ within n cols f (s, 0) 0).2 = orAll ((outRowOf s.mem c n cols f).map Prod.snd)
    ∧ (State.outRow ⟨c.die, c.core, slot⟩ within n cols f (s, 0) 0).1.mem.bytes (operandBase c + fieldOf f 41) (cols * fmtBytes (fieldOf f 43))
      = (outRowOf s.mem c n cols f).flatMap Prod.fst
    ∧ ∀ b, b < operandBase c + fieldOf f 41 ∨ operandBase c + fieldOf f 41 + cols * fmtBytes (fieldOf f 43) ≤ b →
      (State.outRow ⟨c.die, c.core, slot⟩ within n cols f (s, 0) 0).1.mem.byte b = s.mem.byte b := by
  have steps : State.outRow ⟨c.die, c.core, slot⟩ within n cols f (s, 0) 0 =
      ((granules (fieldOf f 41 + 0 * fieldOf f 42) ((outRowOf s.mem c n cols f).flatMap Prod.fst) 4).foldl
        (State.outCell ⟨c.die, c.core, slot⟩ within f) s, 0 ||| orAll ((outRowOf s.mem c n cols f).map Prod.snd)) := rfl
  have length := length_outRowOf s.mem c n cols f
  have bound : cols * fmtBytes (fieldOf f 43) ≤ 64 * 4 := Nat.mul_le_mul few (fmtBytes_le _)
  rw [steps, Nat.zero_mul, Nat.add_zero]
  generalize (outRowOf s.mem c n cols f).flatMap Prod.fst = d at length ⊢
  obtain ⟨same, mem⟩ := outCells_write ⟨c.die, c.core, slot⟩ within operand (granules (fieldOf f 41) d 4) s
  obtain ⟨inside, outside⟩ := granules_write (operandBase c) 4 (fieldOf f 41) d s.mem (by omega)
  have mem' : ((granules (fieldOf f 41) d 4).foldl (State.outCell ⟨c.die, c.core, slot⟩ within f) s).mem =
    (granules (fieldOf f 41) d 4).foldl (fun m x => m.setBytes (operandBase c + x.1) x.2) s.mem := mem
  refine ⟨same, BitVec.zero_or, ?_, fun b out => ?_⟩
  · dsimp only
    rw [mem']
    refine List.ext_getElem (by rw [length]; simp [Memory.bytes]) fun i h k => ?_
    rw [← List.getD_eq_getElem _ 0 k, ← inside i k]
    simp [Memory.bytes]
  · dsimp only
    rw [mem']
    exact outside b (by rw [length]; exact out)

section
variable {s : State} {c : CoreRef} {tok n : Nat} {x : Cmd} (there : (s.core c).cmd tok = some x) (out : x.kind = .mout n)
include there out

theorem moutComplete_steps : exec (.moutComplete c tok) s = .next (
    if !(s.core c).mayStart x.slot (tok % 16) x then s
    else if x.depFault.isSome then s.endMatrix c tok x.slot 0x43
    else if s.outHeld (issuerOf c x) n x.fields then s
    else
      let a := (List.range (fieldOf x.fields 36)).foldl
        (State.outRow (issuerOf c x) x.within n (colCount ((s.core c).accUnit n).cols) x.fields) (s, 0)
      (a.1.modCore c fun k => k.raiseFlags n a.2).endMatrix c tok x.slot 0) := by
  show execMoutComplete c tok s = _
  unfold execMoutComplete
  rw [there]
  dsimp only
  rw [out]
  rfl

theorem moutComplete_waits (waits : (s.core c).mayStart x.slot (tok % 16) x = false) : exec (.moutComplete c tok) s = .next s := by
  rw [moutComplete_steps there out, waits]
  rfl

theorem moutComplete_faulted (may : (s.core c).mayStart x.slot (tok % 16) x = true) (faulted : x.depFault.isSome = true) :
    ∃ t, exec (.moutComplete c tok) s = .next t ∧ Ended s t c tok x 0x43 (s.task (issuerOf c x)).time ∧ t.mem = s.mem := by
  obtain ⟨ended, mem, -⟩ := endMatrix_ends there 0x43
  refine ⟨_, ?_, ended, mem⟩
  rw [moutComplete_steps there out, may, faulted]
  rfl

/-- MOUT of one row to operand memory (R204). -/
theorem moutComplete_oneRow (may : (s.core c).mayStart x.slot (tok % 16) x = true) (good : x.depFault = none) (operand : fieldOf x.fields 40 = 1)
    (one : fieldOf x.fields 36 = 1) : ∃ t, exec (.moutComplete c tok) s = .next t ∧ Ended s t c tok x 0 (s.task (issuerOf c x)).time
      ∧ t.mem.bytes (operandBase c + fieldOf x.fields 41) (colCount ((s.core c).accUnit n).cols * fmtBytes (fieldOf x.fields 43))
        = (outRowOf s.mem c n (colCount ((s.core c).accUnit n).cols) x.fields).flatMap Prod.fst
      ∧ (∀ b, b < operandBase c + fieldOf x.fields 41
          ∨ operandBase c + fieldOf x.fields 41 + colCount ((s.core c).accUnit n).cols * fmtBytes (fieldOf x.fields 43) ≤ b →
        t.mem.byte b = s.mem.byte b)
      ∧ ((t.core c).accUnit n).flags = ((s.core c).accUnit n).flags
        ||| orAll ((outRowOf s.mem c n (colCount ((s.core c).accUnit n).cols) x.fields).map Prod.snd) := by
  have free : s.outHeld (issuerOf c x) n x.fields = false := by
    unfold State.outHeld
    rw [operand]
    rfl
  have row := outRow_writes (s := s) (c := c) (slot := x.slot) (n := n) (within := x.within) operand (colCount_le ((s.core c).accUnit n).cols)
  rw [moutComplete_steps there out, may, good, free, one]
  dsimp only
  rw [List.range_one, List.foldl_cons, List.foldl_nil, show issuerOf c x = ⟨c.die, c.core, x.slot⟩ from rfl]
  generalize State.outRow ⟨c.die, c.core, x.slot⟩ x.within n (colCount ((s.core c).accUnit n).cols) x.fields (s, 0) 0 = a at row ⊢
  obtain ⟨same, flags, inside, outside⟩ := row
  obtain ⟨tasks, cmds, raised⟩ := raiseFlags_keeps a.1 c n a.2
  have memV : (a.1.modCore c fun k => k.raiseFlags n a.2).mem = a.1.mem := rfl
  generalize (a.1.modCore c fun k => k.raiseFlags n a.2) = v at tasks cmds raised memV ⊢
  have thereV : (v.core c).cmd tok = some x := by rw [Core.cmd, cmds, same.cmds]; exact there
  obtain ⟨ended, mem, units⟩ := endMatrix_ends thereV 0
  have tasksV : ∀ q, v.task? q = s.task? q := fun q => (tasks q).trans (same.tasks q)
  have time : v.task (issuerOf c x) = s.task (issuerOf c x) := by rw [State.task, tasksV, ← State.task]
  rw [time] at ended
  refine ⟨v.endMatrix c tok x.slot 0, rfl, ended.of_tasks tasksV (cmds.trans same.cmds), ?_, fun b hb => ?_, ?_⟩
  · rw [mem, memV]
    exact inside
  · rw [mem, memV]
    exact outside b hb
  · rw [Core.accUnit, units, ← Core.accUnit, raised, flags, Core.accUnit, same.units]
    rfl

end

end Sys2Proof

namespace Sys2Proof

open Machine

/-! ### Runs of bytes read in the window (R217) -/

theorem leNat_lt (b : List Byte) : leNat b < 256 ^ b.length := by
  induction b with
  | nil => exact Nat.one_pos
  | cons x b ih =>
    have := x.isLt
    rw [leNat, List.length_cons, Nat.pow_succ]
    omega

/-- The bytes of a value are the bytes it was read from (R6). -/
theorem leBytes_leNat (b : List Byte) : leBytes b.length (leNat b) = b := by
  induction b with
  | nil => rfl
  | cons x b ih =>
    have low : (x.toNat + 256 * leNat b) / 256 = leNat b := by
      have := x.isLt
      omega
    have byte : (BitVec.ofNat 8 (x.toNat + 256 * leNat b) : Byte) = x := by
      refine BitVec.eq_of_toNat_eq ?_
      rw [BitVec.toNat_ofNat]
      have := x.isLt
      omega
    rw [List.length_cons, leBytes, leNat, low, byte, ih]

theorem Memory.length_bytes (m : Memory) (a n : Nat) : (m.bytes a n).length = n := by simp [Memory.bytes]

/-- Bytes in pieces of eight. -/
theorem bytes_pieces (m : Memory) (a k : Nat) : (List.range k).flatMap (fun i => m.bytes (a + 8 * i) 8) = m.bytes a (8 * k) := by
  induction k with
  | zero => rfl
  | succ k ih =>
    rw [List.range_succ, List.flatMap_append, ih, List.flatMap_singleton, Memory.bytes, Memory.bytes, Memory.bytes, Nat.mul_succ,
      List.range_add, List.map_append, List.map_map]
    refine congrArg (List.map _ _ ++ ·) (List.map_congr_left fun i _ => ?_)
    exact congrArg m.byte (Nat.add_assoc ..)

/-- Bytes of an address past another in its space. -/
theorem addr_add {a : W64} {i n : Nat} (form : addrForm a = 2) (small : addrOff a + n ≤ 2 ^ 22) (i_le : 8 * i ≤ n) :
    addrForm (a + BitVec.ofNat 64 (8 * i)) = 2 ∧ addrOff (a + BitVec.ofNat 64 (8 * i)) = addrOff a + 8 * i := by
  unfold addrForm addrOff at *
  have := a.isLt
  have sum : (a + BitVec.ofNat 64 (8 * i)).toNat = a.toNat + 8 * i := by
    rw [BitVec.toNat_add, BitVec.toNat_ofNat]
    omega
  rw [sum]
  omega

/-- A run of bytes in the window of a task. -/
structure WindowRun (s : State) (r : TaskRef) (a : W64) (n : Nat) : Prop where
  form : addrForm a = 2
  aligned : addrOff a % 8 = 0
  inside : addrOff a + n ≤ (s.task r).windowBytes
  small : (s.task r).windowBytes ≤ 2 ^ 22

theorem readElems_window {s : State} {g : Agent} {a : W64} {n : Nat} (run : WindowRun s g.task a n) (fresh : g.spots = [])
    (free : ∀ o m w, s.spotHeld (.inside o) m w = false) (l : List Nat) (low : ∀ i ∈ l, 8 * i + 8 ≤ n) :
    State.readElems g 8 (l.map fun i => a + BitVec.ofNat 64 (8 * i)) s =
      (s, .ok (l.map fun i => leNat (s.mem.bytes (windowAddr g.task.coreRef (s.task g.task) (addrOff a) + 8 * i) 8))) := by
  induction l with
  | nil => rfl
  | cons i l ih =>
    have here := low i List.mem_cons_self
    obtain ⟨form, off⟩ := addr_add (i := i) run.form (Nat.le_trans run.inside run.small) (by omega)
    have inside := run.inside
    have aligned := run.aligned
    have window : Windowed s g.task (a + BitVec.ofNat 64 (8 * i)) 8 := ⟨form, by decide, by rw [off]; omega, by rw [off]; omega, run.small⟩
    have place : windowAddr g.task.coreRef (s.task g.task) (addrOff a + 8 * i) =
        windowAddr g.task.coreRef (s.task g.task) (addrOff a) + 8 * i := (Nat.add_assoc ..).symm
    rw [List.map_cons, State.readElems, engineRead_window window fresh free, off, place]
    dsimp only
    rw [ih fun j hj => low j (List.mem_cons_of_mem _ hj)]
    rfl

/-- A run of bytes in the window is read at once. -/
theorem readRun_window {s : State} {g : Agent} {a : W64} {n : Nat} (run : WindowRun s g.task a (8 * n)) (fresh : g.spots = [])
    (free : ∀ o m w, s.spotHeld (.inside o) m w = false) :
    s.readRun g a (8 * n) = (s, .ok (s.mem.bytes (windowAddr g.task.coreRef (s.task g.task) (addrOff a)) (8 * n))) := by
  have piece : pieceSize a = 8 := if_pos run.aligned
  have elems := readElems_window run fresh free (List.range n) fun i hi => by
    have := List.mem_range.1 hi
    omega
  unfold State.readRun
  dsimp only
  rw [piece, Nat.mul_div_cancel_left n (by decide : 0 < 8), elems]
  refine Prod.ext rfl (congrArg Except.ok ?_)
  dsimp only
  rw [List.flatMap_map, ← bytes_pieces]
  refine List.flatMap_congr fun i _ => ?_
  have back := leBytes_leNat (s.mem.bytes (windowAddr g.task.coreRef (s.task g.task) (addrOff a) + 8 * i) 8)
  rwa [Memory.length_bytes] at back

/-! ### The block of a multicast (R355) -/

theorem get_keepBlock (f : Tbl W64) (b : List Byte) {j : Nat} (h : j < b.length / 8) :
    (keepBlock f b).get 0 (64 + j) = BitVec.ofNat 64 (bytesAt b (8 * j) 8) := by
  have all : ∀ n, j < n → ((List.range n).foldl (fun f i => Tbl.set 0 f (64 + i) (BitVec.ofNat 64 (bytesAt b (8 * i) 8))) f).get 0 (64 + j)
      = BitVec.ofNat 64 (bytesAt b (8 * j) 8) := by
    intro n
    induction n with
    | zero => exact fun none => absurd none (Nat.not_lt_zero j)
    | succ n ih =>
      intro low
      rw [List.range_succ, List.foldl_append, List.foldl_cons, List.foldl_nil]
      by_cases last : j = n
      · rw [last, Tbl.get_set_same]
      · rw [Tbl.get_set_other _ _ _ (by omega)]
        exact ih (by omega)
  exact all _ h

theorem pieces_of (b : List Byte) : ∀ n, b.length = 8 * n → (List.range n).flatMap (fun i => (b.drop (8 * i)).take 8) = b := by
  have upTo : ∀ n, (List.range n).flatMap (fun i => (b.drop (8 * i)).take 8) = b.take (8 * n) := by
    intro n
    induction n with
    | zero => rfl
    | succ n ih => rw [List.range_succ, List.flatMap_append, ih, List.flatMap_singleton, Nat.mul_succ, List.take_add]
  intro n length
  rw [upTo, List.take_of_length_le (Nat.le_of_eq length)]

/-- The block kept with a multicast is the block that was read. -/
theorem block_kept {x : Cmd} {b : List Byte} (length : b.length = 192) : ({ x with fields := keepBlock x.fields b } : Cmd).block = b := by
  have words : ∀ i ∈ List.range 24, leBytes 8 ((keepBlock x.fields b).get 0 (64 + i)).toNat = (b.drop (8 * i)).take 8 := fun i hi => by
    have low := List.mem_range.1 hi
    have piece : ((b.drop (8 * i)).take 8).length = 8 := by
      rw [List.length_take, List.length_drop]
      omega
    have back := leBytes_leNat ((b.drop (8 * i)).take 8)
    have small := leNat_lt ((b.drop (8 * i)).take 8)
    rw [piece] at back small
    rw [get_keepBlock _ _ (by omega), BitVec.toNat_ofNat, bytesAt, Nat.mod_eq_of_lt (by omega)]
    exact back
  show (List.range 24).flatMap (fun i => leBytes 8 ((keepBlock x.fields b).get 0 (64 + i)).toNat) = b
  rw [List.flatMap_congr words]
  exact pieces_of b 24 length

end Sys2Proof

namespace Sys2Proof

open Machine

/-! ### The steps of a multicast (R355) -/

/-- Accesses within a core's own stores depend on the tasks and the dies alone (R173, R239). -/
theorem spotHeld_inside {s w : State} (tasks : ∀ k : CoreRef, (w.core k).tasks = (s.core k).tasks) (o m : Nat) (write : Bool) :
    w.spotHeld (.inside o) m write = s.spotHeld (.inside o) m write := by
  unfold State.spotHeld
  dsimp only
  cases nearCore o with
  | none => rfl
  | some k =>
    dsimp only
    rw [State.drainHolds, State.drainHolds, tasks]

theorem tasks_modCore (s : State) (c : CoreRef) (f : Core → Core) (hf : (f (s.core c)).tasks = (s.core c).tasks) (k : CoreRef) :
    ((s.modCore c f).core k).tasks = (s.core k).tasks := by
  by_cases h : CoreRef.key k = CoreRef.key c
  · rw [core_congr _ h, State.core_modCore, hf, core_congr s h]
  · rw [State.core_modCore_other _ _ h]

theorem mcstAt_of {s : State} {c : CoreRef} {tok : Nat} {x : Cmd} (there : (s.core c).cmd tok = some x) (mcst : x.kind = .mcst) :
    s.mcstAt c tok = some x := by
  unfold State.mcstAt
  rw [there]
  exact if_pos mcst

/-- The feeding of cells stops at the last of them, or where the buffer is full (R355). -/
theorem feedMcst_stops {s : State} {c : CoreRef} {tok : Nat} {x : Cmd} (there : s.mcstAt c tok = some x)
    (last : mcBody (x.block.drop 64) < x.cells) : ∀ fuel, State.feedMcst c tok fuel s = s
  | 0 => rfl
  | fuel + 1 => by
    unfold State.feedMcst
    rw [there]
    exact if_pos (.inr (.inr last))

theorem feedMcst_head {s : State} {c : CoreRef} {tok : Nat} {x : Cmd} (there : s.mcstAt c tok = some x) (going : s.fatal = none)
    (room : (s.core c).sendBuf.length < 64) (first : x.cells = 0) (fuel : Nat) : State.feedMcst c tok (fuel + 1) s =
      State.feedMcst c tok fuel (s.pushCell c tok x (x.mcCell s.jobid.toNat 0 (x.block.drop 64))) := by
  conv_lhs => unfold State.feedMcst
  rw [there]
  have goes : ¬(s.fatal.isSome = true ∨ sendLimit ≤ (s.core c).sendBuf.length ∨ mcBody (x.block.drop 64) < x.cells) := by
    rw [going, first]
    rintro (stopped | full | last)
    · exact Bool.false_ne_true stopped
    · exact absurd room (Nat.not_lt.2 full)
    · exact Nat.not_lt_zero _ last
  dsimp only
  rw [if_neg goes, if_pos first]

theorem feedMcst_body {s : State} {c : CoreRef} {tok : Nat} {x : Cmd} {d : List Byte} (there : s.mcstAt c tok = some x) (going : s.fatal = none)
    (room : (s.core c).sendBuf.length < 64) (later : x.cells ≠ 0) (more : x.cells ≤ mcBody (x.block.drop 64))
    (read : s.readRun (x.issuer c tok) (BitVec.ofNat 64 (bytesAt x.block 0 8) + BitVec.ofNat 64 (128 * (x.cells - 1))) 128 = (s, .ok d)) (fuel : Nat) :
    State.feedMcst c tok (fuel + 1) s = State.feedMcst c tok fuel (s.pushCell c tok x (x.mcCell s.jobid.toNat x.cells d)) := by
  conv_lhs => unfold State.feedMcst
  rw [there]
  have goes : ¬(s.fatal.isSome = true ∨ sendLimit ≤ (s.core c).sendBuf.length ∨ mcBody (x.block.drop 64) < x.cells) := by
    rw [going]
    rintro (stopped | full | last)
    · exact Bool.false_ne_true stopped
    · exact absurd room (Nat.not_lt.2 full)
    · exact absurd more (Nat.not_le.2 last)
  dsimp only
  rw [if_neg goes, if_neg later, read]

/-- A cell put in the send buffer (R355). -/
theorem pushCell_pushes (s : State) (c : CoreRef) (tok : Nat) (x : Cmd) (cell : Cell) :
    GoesOn s (s.pushCell c tok x cell) c tok { x with cells := x.cells + 1 } ∧ (s.pushCell c tok x cell).mem = s.mem
    ∧ ((s.pushCell c tok x cell).core c).sendBuf = (s.core c).sendBuf ++ [cell]
    ∧ (s.pushCell c tok x cell).fatal = s.fatal ∧ (s.pushCell c tok x cell).jobid = s.jobid
    ∧ ∀ k, ((s.pushCell c tok x cell).core k).tasks = (s.core k).tasks := by
  refine ⟨goesOn_modCore s c tok _ _ ⟨rfl, rfl⟩, rfl, ?_, rfl, rfl, fun k => tasks_modCore s c _ rfl k⟩
  exact (congrArg Core.sendBuf (State.core_modCore ..) :)

theorem GoesOn.trans {s t u : State} {c : CoreRef} {tok : Nat} {y z : Cmd} (h : GoesOn s t c tok y) (k : GoesOn t u c tok z) : GoesOn s u c tok z :=
  ⟨k.command, fun n other => (k.others n other).trans (h.others n other), fun r => (k.tasks r).trans (h.tasks r)⟩

section
variable {s : State} {c : CoreRef} {tok : Nat} {x : Cmd} (there : (s.core c).cmd tok = some x) (mcst : x.kind = .mcst)
include there mcst

theorem mcstStart_steps : exec (.mcstStart c tok) s = .next (
    if x.started ∨ x.deps ≠ [] ∨ (s.task (issuerOf c x)).stopped = true ∨ s.jobStopped x.job = true then s
    else if x.depFault.isSome then s.endCmd c tok 0x43 (s.task (issuerOf c x)).time
    else
      match (s.readRun (x.issuer c tok) (x.fields.get 0 0) 192).2 with
      | .error none => (s.readRun (x.issuer c tok) (x.fields.get 0 0) 192).1
      | .error (some e) => ((s.readRun (x.issuer c tok) (x.fields.get 0 0) 192).1.noteRefused (x.issuer c tok) x e).endCmd c tok e.cause
          (s.task (issuerOf c x)).time
      | .ok b =>
        if (s.readRun (x.issuer c tok) (x.fields.get 0 0) 192).1.mcBlockOk c b then
          State.feedMcst c tok 64 ((s.readRun (x.issuer c tok) (x.fields.get 0 0) 192).1.modCore c fun k =>
            k.setCmd tok (some { x with started := true, fields := keepBlock x.fields b }))
        else (s.readRun (x.issuer c tok) (x.fields.get 0 0) 192).1.endCmd c tok 0x4B (s.task (issuerOf c x)).time) := by
  show execMcstStart c tok s = _
  unfold execMcstStart
  rw [mcstAt_of there mcst]
  rfl

theorem mcstStart_idle (h : x.started = true ∨ x.deps ≠ [] ∨ (s.task (issuerOf c x)).stopped = true ∨ s.jobStopped x.job = true) :
    exec (.mcstStart c tok) s = .next s := by
  rw [mcstStart_steps there mcst, if_pos h]

/-- MCST_START where its block has been read (R355). -/
theorem mcstStart_reads {b : List Byte} (fresh : x.started = false) (bound : x.deps = []) (runs : (s.task (issuerOf c x)).stopped = false)
    (going : s.jobStopped x.job = false) (good : x.depFault = none)
    (read : s.readRun (x.issuer c tok) (x.fields.get 0 0) 192 = (s, .ok b)) : exec (.mcstStart c tok) s = .next (
      if s.mcBlockOk c b then State.feedMcst c tok 64 (s.modCore c fun k => k.setCmd tok (some { x with started := true, fields := keepBlock x.fields b }))
      else s.endCmd c tok 0x4B (s.task (issuerOf c x)).time) := by
  have goes : ¬(x.started = true ∨ x.deps ≠ [] ∨ (s.task (issuerOf c x)).stopped = true ∨ s.jobStopped x.job = true) := by
    rw [fresh, bound, runs, going]
    simp
  rw [mcstStart_steps there mcst, if_neg goes, good, if_neg (by decide), read]

theorem mcstStart_faulted (fresh : x.started = false) (bound : x.deps = []) (runs : (s.task (issuerOf c x)).stopped = false)
    (going : s.jobStopped x.job = false) (faulted : x.depFault.isSome = true) : ∃ t, exec (.mcstStart c tok) s = .next t
      ∧ Ended s t c tok x 0x43 (s.task (issuerOf c x)).time ∧ t.mem = s.mem := by
  have goes : ¬(x.started = true ∨ x.deps ≠ [] ∨ (s.task (issuerOf c x)).stopped = true ∨ s.jobStopped x.job = true) := by
    rw [fresh, bound, runs, going]
    simp
  obtain ⟨ended, mem, -, -⟩ := endCmd_ends there 0x43 (s.task (issuerOf c x)).time
  refine ⟨_, ?_, ended, mem⟩
  rw [mcstStart_steps there mcst, if_neg goes, if_pos faulted]

theorem mcstComplete_steps : exec (.mcstComplete c tok) s = .next (
    if !x.started || s.jobStopped x.job then s
    else match (State.feedMcst c tok 64 s).mcstAt c tok with
      | none => State.feedMcst c tok 64 s
      | some x =>
        if mcBody (x.block.drop 64) < x.cells
            ∧ (((State.feedMcst c tok 64 s).core c).sendBuf.all fun y => decide (y.typ ≠ 8) && decide (y.typ ≠ 9)) = true then
          (State.feedMcst c tok 64 s).endCmd c tok 0 ((State.feedMcst c tok 64 s).task (x.taskRef c)).time
        else State.feedMcst c tok 64 s) := by
  show execMcstComplete c tok s = _
  unfold execMcstComplete
  rw [mcstAt_of there mcst] <;> rfl

theorem mcstComplete_idle (fresh : x.started = false) : exec (.mcstComplete c tok) s = .next s := by
  rw [mcstComplete_steps there mcst, fresh]
  rfl

/-- MCST_COMPLETE once the last cell has entered the buffer: the command ends when the last has left it (R355). -/
theorem mcstComplete_last (started : x.started = true) (going : s.jobStopped x.job = false) (last : mcBody (x.block.drop 64) < x.cells) :
    exec (.mcstComplete c tok) s = .next (
      if ((s.core c).sendBuf.all fun y => decide (y.typ ≠ 8) && decide (y.typ ≠ 9)) = true then s.endCmd c tok 0 (s.task (issuerOf c x)).time else s) := by
  have at' := mcstAt_of there mcst
  rw [mcstComplete_steps there mcst, started, going, feedMcst_stops at' last, at']
  simp only [last, true_and]
  rfl

end

/-- The cells of a multicast of one body cell within the window (R355). -/
theorem mcst_feeds {s : State} {c : CoreRef} {tok : Nat} {x : Cmd} {b : List Byte} (length : b.length = 192)
    (body : WindowRun s (issuerOf c x) (BitVec.ofNat 64 (bytesAt b 0 8)) 128) (free : ∀ o m w, s.spotHeld (.inside o) m w = false)
    (going : s.fatal = none) (one : mcBody (b.drop 64) = 1) (room : (s.core c).sendBuf.length + 2 ≤ 64) (first : x.cells = 0) (mcst : x.kind = .mcst) :
    let y := { x with started := true, fields := keepBlock x.fields b }
    let t := State.feedMcst c tok 64 (s.modCore c fun k => k.setCmd tok (some y))
    GoesOn s t c tok { y with cells := 2 } ∧ t.mem = s.mem ∧ (t.core c).sendBuf = (s.core c).sendBuf
      ++ [y.mcCell s.jobid.toNat 0 (b.drop 64),
        y.mcCell s.jobid.toNat 1 (s.mem.bytes (windowAddr c (s.task (issuerOf c x)) (addrOff (BitVec.ofNat 64 (bytesAt b 0 8)))) 128)] := by
  intro y
  have block : y.block = b := block_kept (x := { x with started := true }) length
  have start : GoesOn s (s.modCore c fun k => k.setCmd tok (some y)) c tok y := goesOn_modCore s c tok _ _ ⟨rfl, rfl⟩
  have tasks0 := tasks_modCore s c (fun k => k.setCmd tok (some y)) rfl
  have buf0 : ((s.modCore c fun k => k.setCmd tok (some y)).core c).sendBuf = (s.core c).sendBuf := (congrArg Core.sendBuf (State.core_modCore ..) :)
  have mem0 : (s.modCore c fun k => k.setCmd tok (some y)).mem = s.mem := rfl
  have fatal0 : (s.modCore c fun k => k.setCmd tok (some y)).fatal = none := going
  have job0 : (s.modCore c fun k => k.setCmd tok (some y)).jobid = s.jobid := rfl
  dsimp only
  generalize (s.modCore c fun k => k.setCmd tok (some y)) = w at start tasks0 buf0 mem0 fatal0 job0 ⊢
  rw [feedMcst_head (mcstAt_of start.command mcst) fatal0 (by rw [buf0]; omega) first 63, block]
  obtain ⟨head, mem1, buf1, fatal1, job1, tasks1⟩ := pushCell_pushes w c tok y (y.mcCell w.jobid.toNat 0 (b.drop 64))
  generalize w.pushCell c tok y (y.mcCell w.jobid.toNat 0 (b.drop 64)) = v at head mem1 buf1 fatal1 job1 tasks1 ⊢
  have task1 : v.task (issuerOf c x) = s.task (issuerOf c x) := by rw [State.task, head.tasks, start.tasks, ← State.task]
  have run1 : WindowRun v (issuerOf c x) (BitVec.ofNat 64 (bytesAt b 0 8)) 128 :=
    ⟨body.form, body.aligned, by rw [task1]; exact body.inside, by rw [task1]; exact body.small⟩
  have free1 : ∀ o m w, v.spotHeld (.inside o) m w = false := fun o m write => by
    rw [spotHeld_inside (s := s) (fun k => (tasks1 k).trans (tasks0 k)), free]
  have read := readRun_window (g := ({ y with cells := y.cells + 1 } : Cmd).issuer c tok) (n := 16) run1 rfl free1
  have mem01 : v.mem = s.mem := mem1.trans mem0
  have same : windowAddr (({ y with cells := y.cells + 1 } : Cmd).issuer c tok).task.coreRef (v.task (({ y with cells := y.cells + 1 } : Cmd).issuer c tok).task)
      (addrOff (BitVec.ofNat 64 (bytesAt b 0 8))) = windowAddr c (s.task (issuerOf c x)) (addrOff (BitVec.ofNat 64 (bytesAt b 0 8))) := by
    rw [← task1]
    rfl
  rw [same, mem01] at read
  have count : ({ y with cells := y.cells + 1 } : Cmd).cells = 1 := congrArg (· + 1) first
  have kept : ({ y with cells := y.cells + 1 } : Cmd).block = b := block
  have kind : ({ y with cells := y.cells + 1 } : Cmd).kind = .mcst := mcst
  have cell : ∀ n p, ({ y with cells := y.cells + 1 } : Cmd).mcCell v.jobid.toNat n p = y.mcCell s.jobid.toNat n p := fun n p => by
    rw [job1, job0]
    rfl
  have last : ({ ({ y with cells := y.cells + 1 } : Cmd) with cells := ({ y with cells := y.cells + 1 } : Cmd).cells + 1 } : Cmd) = { y with cells := 2 } := by
    rw [count]
  generalize ({ y with cells := y.cells + 1 } : Cmd) = z at head count read kept kind cell last
  have at1 := mcstAt_of head.command kind
  have addr : BitVec.ofNat 64 (bytesAt z.block 0 8) + BitVec.ofNat 64 (128 * (z.cells - 1)) = BitVec.ofNat 64 (bytesAt b 0 8) := by
    rw [kept, count]
    exact BitVec.add_zero _
  rw [feedMcst_body at1 (fatal1.trans fatal0) (by rw [buf1, buf0, List.length_append]; simp only [List.length_cons, List.length_nil]; omega)
    (by rw [count]; decide) (by rw [count, kept, one]) (by rw [addr]; exact read) 62, cell, count]
  obtain ⟨push, mem2, buf2, -, -, -⟩ := pushCell_pushes v c tok z
    (y.mcCell s.jobid.toNat 1 (s.mem.bytes (windowAddr c (s.task (issuerOf c x)) (addrOff (BitVec.ofNat 64 (bytesAt b 0 8)))) (8 * 16)))
  rw [last] at push
  have stops := feedMcst_stops (mcstAt_of push.command mcst) (by
    rw [show ({ y with cells := 2 } : Cmd).block = b from block, one]
    exact Nat.one_lt_two) 62
  have stops' : State.feedMcst c tok 62 (v.pushCell c tok z (y.mcCell s.jobid.toNat 1
      (s.mem.bytes (windowAddr c (s.task (issuerOf c x)) (addrOff (BitVec.ofNat 64 (bytesAt b 0 8)))) (8 * 16)))) = _ := stops
  rw [stops']
  refine ⟨(start.trans head).trans push, mem2.trans mem01, buf2.trans ?_⟩
  rw [buf1, buf0, job0, List.append_assoc]
  rfl

end Sys2Proof

namespace Sys2Proof

open Machine

theorem mcBlockOk_aligned {s : State} {c : CoreRef} {b : List Byte} (ok : s.mcBlockOk c b = true) :
    addrOff (BitVec.ofNat 64 (bytesAt b 0 8)) % 128 = 0 := by
  unfold State.mcBlockOk at ok
  simp only [Bool.and_eq_true, decide_eq_true_eq] at ok
  tauto

theorem sendBuf_multicast (l : List Cell) : ((l.all fun y => decide (y.typ ≠ 8) && decide (y.typ ≠ 9)) = true ↔ ∀ q ∈ l, q.typ ≠ 8 ∧ q.typ ≠ 9) := by
  simp [List.all_eq_true]

/-- Settles O54, from the rules of copies, streams, MOUT and multicasts. -/
theorem copiesStreamsAndMulticastsRun : Obligations.CopiesStreamsAndMulticastsRun := by
  unfold Obligations.CopiesStreamsAndMulticastsRun
  intro c tok s
  refine ⟨no_command, fun x there => ?_⟩
  intro r f begun
  refine ⟨fun k g copies agent => ?_, fun n stream => ?_, fun n out => ?_, fun mcst => ?_⟩
  · subst agent
    refine ⟨copyStart_idle there copies, copyStart_begins there copies, copyComplete_idle there copies, fun _ => copyComplete_held there copies,
      copyComplete_ends there copies, ?_⟩
    intro a b n elem size kind started runs last entry skip idx spots formA formB some alignedA alignedB insideA insideB small free
    subst size kind
    intro o
    have source : Windowed s (issuerOf c x) a (fieldOf x.fields 2) := ⟨formA, some, alignedA, insideA, small⟩
    have target : Windowed s (issuerOf c x) b (fieldOf x.fields 2) := ⟨formB, some, alignedB, insideB, small⟩
    obtain ⟨t, step, goes, mem⟩ := copyCell_window there copies source target elem started runs last entry skip idx spots fun o => free (.inside o)
    refine ⟨t, step, goes, ?_, fun m out => ?_⟩
    · rw [mem]
      exact Memory.bytes_setBytes_of_length _ _ (Memory.length_bytes ..)
    · rw [mem]
      exact Memory.byte_setBytes_out _ _ _ _ (by rw [Memory.length_bytes]; exact out)
  · intro k cols d o
    refine ⟨streamStart_idle there stream, streamStart_begins there stream, fun fresh => ?_, fun started => ?_⟩
    · rw [streamComplete_steps there stream, fresh, if_neg Bool.false_ne_true]
    · obtain ⟨t, step, ended, mem, flags⟩ := streamComplete_ends there stream started
      refine ⟨t, step, ended, fun b outside => ?_, fun l latched one => ?_⟩
      · rw [mem]
        exact (stream_keeps s c x n).2.2 b outside
      · obtain ⟨memRow, flagsRow⟩ := stream_oneRow latched one
        have row : streamedRow s.mem c n x.fields l d cols 0 = streamRow (.ofRz (decide (fieldOf f 38 = 1))) d cols (latchFmt l.operand) l.image
            (wordsOf (s.mem.bytes o (4 * cols)))
            ((List.range d).map fun i => activationAt (s.mem.bytes (operandBase c + fieldOf f 33) (rowSize (fieldOf f 35) d)) (fieldOf f 35) d i) := by
          unfold streamedRow
          rw [Nat.zero_mul, Nat.add_zero, Nat.add_zero]
        intro row'
        rw [mem, memRow, flags, flagsRow]
        rw [row]
        exact ⟨Memory.bytes_setBytes_of_length _ _ (by simp [length_bytesOf, streamRow]), rfl⟩
  · intro k cols l o
    exact ⟨moutComplete_waits there out, moutComplete_faulted there out, moutComplete_oneRow there out⟩
  · intro a b body
    refine ⟨mcstStart_idle there mcst, fun fresh bound runs going => ⟨mcstStart_faulted there mcst fresh bound runs going, fun good form aligned inside small free alive => ?_⟩,
      mcstComplete_idle there mcst, fun started going last => ⟨fun left => ?_, fun gone => ?_⟩⟩
    · have run : WindowRun s (issuerOf c x) a 192 := ⟨form, by omega, inside, small⟩
      have read : s.readRun (x.issuer c tok) (x.fields.get 0 0) 192 = (s, .ok b) :=
        readRun_window (g := x.issuer c tok) (n := 24) run rfl fun o => free (.inside o)
      have step := mcstStart_reads there mcst fresh bound runs going good read
      refine ⟨fun bad => ?_, fun ok formB insideB one room first => ?_⟩
      · obtain ⟨ended, mem, -, -⟩ := endCmd_ends there 0x4B (s.task (issuerOf c x)).time
        refine ⟨_, ?_, ended, mem⟩
        rw [step, bad, if_neg Bool.false_ne_true]
      · intro cell
        have aligned128 := mcBlockOk_aligned ok
        have length : b.length = 192 := Memory.length_bytes ..
        have runB : WindowRun s (issuerOf c x) (BitVec.ofNat 64 (bytesAt b 0 8)) 128 := ⟨formB, by omega, insideB, small⟩
        obtain ⟨goes, mem, buf⟩ := mcst_feeds (c := c) (tok := tok) length runB (fun o => free (.inside o)) alive one room first mcst
        have block : ({ x with started := true, fields := keepBlock x.fields b } : Cmd).block = b := block_kept (x := { x with started := true }) length
        refine ⟨_, _, step.trans (congrArg Host.Outcome.next (if_pos ok)), goes, rfl, rfl, mcst, mem, buf.trans ?_⟩
        refine congrArg ((s.core c).sendBuf ++ ·) ?_
        unfold Cmd.mcCell
        rw [block]
        rfl
    · have stays : ¬(((s.core c).sendBuf.all fun y => decide (y.typ ≠ 8) && decide (y.typ ≠ 9)) = true) := fun h => by
        obtain ⟨q, hq, kind⟩ := left
        have none := (sendBuf_multicast _).1 h q hq
        exact kind.elim none.1 none.2
      rw [mcstComplete_last there mcst started going last, if_neg stays]
    · obtain ⟨ended, mem, -, -⟩ := endCmd_ends there 0 (s.task (issuerOf c x)).time
      refine ⟨_, ?_, ended, mem⟩
      rw [mcstComplete_last there mcst started going last, if_pos ((sendBuf_multicast _).2 gone)]

end Sys2Proof

namespace Sys2Proof

open Machine

/-! ### Launches placed -/

/-- A core whose window and vector block are made ready for a task and which has it in a slot. -/
def takenOn (s : State) (l : Launch) (i : Nat) (bars : List Nat) (c : CoreRef) (slot vb wb : Nat) : State :=
  ((s.zeroWindow c wb l.kernel.steps).modCore c fun k =>
    ((k.dropRo).zeroBlock vb l.kernel.vregs).undefineTiles ⟨c.die, c.core, slot⟩).setTask ⟨c.die, c.core, slot⟩
      (l.task i bars vb wb s.hwm)

section

variable {s : State} {n : Nat} {l : Launch}

theorem loadLaunch_none (h : s.launch? n = none) : s.loadLaunch n = s := by rw [State.loadLaunch, h]

theorem loadLaunch_loaded (h : s.launch? n = some l) (loaded : l.loaded = true) : s.loadLaunch n = s := by
  rw [State.loadLaunch, h]
  simp only [loaded, Bool.true_or]

/-- A core that has a slot, a vector block and a window for a task takes it on. -/
theorem takeOn_eq {c : CoreRef} {slot vb wb : Nat} (i : Nat) (bars : List Nat) (working : s.isRetired c = false)
    (slotFree : s.freeSlot c = some slot) (block : (s.core c).freeBlock l.kernel.vregs = some vb)
    (window : (s.core c).freeWindow l.kernel.steps = some wb) :
    s.takeOn l i bars c = some (takenOn s l i bars c slot vb wb) := by
  rw [State.takeOn, if_neg (by rw [working]; exact Bool.false_ne_true), slotFree, block, window] <;> rfl

theorem task?_takenOn (i : Nat) (bars : List Nat) (c : CoreRef) (slot vb wb : Nat) (q : TaskRef) :
    (takenOn s l i bars c slot vb wb).task? q =
      if CoreRef.key q.coreRef = CoreRef.key c ∧ q.slot = slot then some (l.task i bars vb wb s.hwm) else s.task? q := by
  rw [takenOn, task?_setTask, task?_modCore_tasks]
  · rfl
  · exact (congrArg Core.tasks (undefineTiles_rest _ _) :)

/-- The first core that a cluster offers takes the only task of a group without barriers. -/
theorem placeOn_single {q j slot vb wb : Nat} {c : CoreRef} (group : l.kernel.group = 1) (barriers : l.kernel.barriers = 0)
    (left : l.placed < l.kernel.tasks) (core : (clusterCores (q / 12) (q % 12))[j % 8]? = some c) (working : s.isRetired c = false)
    (slotFree : s.freeSlot c = some slot) (block : (s.core c).freeBlock l.kernel.vregs = some vb)
    (window : (s.core c).freeWindow l.kernel.steps = some wb) :
    s.placeOn l l.placed (q / 12) (q % 12) j = some (takenOn s l l.placed [] c slot vb wb, j + 1) := by
  have bars : s.freeBars (q / 12) 0 = some [] := rfl
  have size : l.kernel.groupSize l.placed = 1 := by rw [Kernel.groupSize, group]; omega
  have first : s.takeFrom l l.placed [] (clusterCores (q / 12) (q % 12)) j = some (takenOn s l l.placed [] c slot vb wb, j) := by
    rw [State.takeFrom, List.range_succ_eq_map, List.findSome?_cons, Nat.add_zero, core]
    simp only [takeOn_eq l.placed [] working slotFree block window, Option.map_some]
  have members : ((List.range 1).map fun k => l.placed * l.kernel.group + k) = [l.placed] := by
    rw [group]; simp
  have none_taken : s.takeBars (q / 12) [] 1 l.placed (l.seq + 1) = s := rfl
  rw [State.placeOn, barriers, bars, size]
  simp only [none_taken]
  rw [members, State.takeGroup, first] <;> rfl

theorem placeGroup_single {q j slot vb wb : Nat} {rest : List (Nat × Nat)} {c : CoreRef} (group : l.kernel.group = 1)
    (barriers : l.kernel.barriers = 0) (left : l.placed < l.kernel.tasks) (order : s.tryOrder l = (q, j) :: rest)
    (core : (clusterCores (q / 12) (q % 12))[j % 8]? = some c) (working : s.isRetired c = false)
    (slotFree : s.freeSlot c = some slot) (block : (s.core c).freeBlock l.kernel.vregs = some vb)
    (window : (s.core c).freeWindow l.kernel.steps = some wb) :
    s.placeGroup l l.placed = some { takenOn s l l.placed [] c slot vb wb with pointer := (8 * q + j % 8 + 1) % 768 } := by
  rw [State.placeGroup, order, List.findSome?_cons]
  simp only [placeOn_single group barriers left core working slotFree block window, Option.map_some, if_neg (Nat.succ_ne_zero j),
    Nat.add_sub_cancel]

theorem mayDispatch_left (h : s.mayDispatch l = true) : l.placed < l.kernel.tasks := by
  simp only [State.mayDispatch, Bool.and_eq_true, decide_eq_true_eq] at h
  exact h.1.1.1.2

theorem dispatch_idle (here : s.launch? n = some l) (loaded : l.loaded = true) (idle : s.mayDispatch l = false) :
    exec (.dispatchGroup n) s = .next s := by
  show execDispatchGroup n s = .next s
  simp only [execDispatchGroup, loadLaunch_loaded here loaded, here, idle, Bool.not_false, if_true]

theorem modLaunch_congr {f g : Launch → Launch} (h : ∀ y ∈ s.launches, y.seq = n → f y = g y) : s.modLaunch n f = s.modLaunch n g := by
  have same : (s.launches.map fun y => if y.seq = n then f y else y) = s.launches.map fun y => if y.seq = n then g y else y :=
    List.map_congr_left fun y mem => by
      split
      · next k => exact h y mem k
      · rfl
  exact congrArg (fun x => { s with launches := x }) same

theorem dispatch_places {q j slot vb wb : Nat} {rest : List (Nat × Nat)} {c : CoreRef} (here : s.launch? n = some l)
    (loaded : l.loaded = true) (due : s.mayDispatch l = true) (alone : ∀ y ∈ s.launches, y.seq = n → y = l) (group : l.kernel.group = 1)
    (barriers : l.kernel.barriers = 0) (order : s.tryOrder l = (q, j) :: rest)
    (core : (clusterCores (q / 12) (q % 12))[j % 8]? = some c) (working : s.isRetired c = false)
    (slotFree : s.freeSlot c = some slot) (block : (s.core c).freeBlock l.kernel.vregs = some vb)
    (window : (s.core c).freeWindow l.kernel.steps = some wb) :
    exec (.dispatchGroup n) s = .next
      ({ takenOn s l l.placed [] c slot vb wb with pointer := (8 * q + j % 8 + 1) % 768 }.modLaunch n fun l =>
        { l with placed := l.placed + 1 }) := by
  have left := mayDispatch_left due
  have index : l.placed / l.kernel.group = l.placed := by rw [group, Nat.div_one]
  have size : l.kernel.groupSize l.placed = 1 := by rw [Kernel.groupSize, group]; omega
  show execDispatchGroup n s = _
  simp only [execDispatchGroup, loadLaunch_loaded here loaded, here, due, index, Bool.not_true, Bool.false_eq_true, if_false,
    placeGroup_single group barriers left order core working slotFree block window]
  refine congrArg Host.Outcome.next (modLaunch_congr fun y mem k => ?_)
  rw [alone y mem k, size]

theorem complete_idle (here : s.launch? n = some l) (idle : s.launchOver l = false) : exec (.launchComplete n) s = .next s := by
  show execLaunchComplete n s = .next s
  simp only [execLaunchComplete, here, idle, Bool.not_false, if_true]

/-- The answer to the host of a launch of its own. -/
def launchAnswered (s : State) (l : Launch) : State :=
  match l.fromHost with
  | some seq => s.reply 0x11 0 seq (leBytes 8 l.id.toNat)
  | none => s

theorem complete_over (here : s.launch? n = some l) (ended : s.launchOver l = true) : exec (.launchComplete n) s = .next
    (match l.tlnch with
      | some (c, tok) => (launchAnswered (s.dropLaunch n) l).endCmd c tok (if l.killed then 0x47 else 0) s.hwm
      | none => launchAnswered (s.dropLaunch n) l) := by
  have hwm : (launchAnswered (s.dropLaunch n) l).hwm = s.hwm := by
    unfold launchAnswered
    split <;> rfl
  show execLaunchComplete n s = _
  simp only [execLaunchComplete, here, ended, Bool.not_true, Bool.false_eq_true, if_false]
  congr 1
  cases l.tlnch with
  | none => rfl
  | some ct => exact congrArg (State.endCmd _ _ _ _) hwm

end

/-- Argument i of a launch stands in the register after it. -/
theorem get_setArgs (v : Nat → W64) {m i : Nat} (h : i < m) :
    Tbl.get 0 ((List.range m).foldl (fun t i => Tbl.set 0 t (i + 1) (v i)) []) (i + 1) = v i := by
  induction m with
  | zero => omega
  | succ m ih =>
    rw [List.range_succ, List.foldl_append, List.foldl_cons, List.foldl_nil]
    by_cases last : i = m
    · rw [last, Tbl.get_set_same]
    · rw [Tbl.get_set_other _ _ _ (by omega)]
      exact ih (by omega)

/-- DISPATCH_GROUP and LAUNCH_COMPLETE of a launch that is due. -/
theorem dispatch_dispatches {n : Nat} {s : State} {l : Launch} (here : s.launch? n = some l) (loaded : l.loaded = true) :
    ∀ q j rest c slot vb wb, s.mayDispatch l = true → l.kernel.group = 1 → l.kernel.barriers = 0 →
      (∀ y ∈ s.launches, y.seq = n → y = l) →
      s.tryOrder l = (q, j) :: rest → (clusterCores (q / 12) (q % 12))[j % 8]? = some c → s.isRetired c = false →
      s.freeSlot c = some slot → (s.core c).freeBlock l.kernel.vregs = some vb → (s.core c).freeWindow l.kernel.steps = some wb →
      let r : TaskRef := ⟨c.die, c.core, slot⟩
      let lo := nearBase c + wb * stepBytes
      ∃ t k, exec (.dispatchGroup n) s = .next t ∧ t.task? r = some k ∧ OthersStand s t r
        ∧ k = l.task l.placed [] vb wb s.hwm ∧ k.pc = l.kernel.entry ∧ k.budget = l.budget ∧ k.lidx = BitVec.ofNat 64 l.placed
        ∧ k.job = l.job ∧ k.time = s.hwm ∧ (∀ i, i < 7 → k.sregs.get 0 (i + 1) = l.args.getD i 0)
        ∧ (∀ b, t.mem.byte b = if lo ≤ b ∧ b < lo + l.kernel.steps * stepBytes then 0 else s.mem.byte b)
        ∧ t.launches = s.launches.map (fun y => if y.seq = n then { y with placed := y.placed + 1 } else y)
        ∧ t.pointer = (8 * q + j % 8 + 1) % 768 := by
  intro q j rest c slot vb wb due group barriers alone order core working slotFree block window r lo
  refine ⟨_, l.task l.placed [] vb wb s.hwm, dispatch_places here loaded due alone group barriers order core working slotFree block window,
    (task?_takenOn l.placed [] c slot vb wb r).trans (if_pos ⟨rfl, rfl⟩), fun p away => ?_, rfl, rfl, rfl, rfl, rfl, rfl, fun i hi => ?_,
    fun b => byte_wiped s.mem lo _ b, rfl, rfl⟩
  · refine (task?_takenOn l.placed [] c slot vb wb p).trans (if_neg fun h => ?_)
    exact away.elim (fun k => k h.1) fun k => k h.2
  · have args : (l.task l.placed [] vb wb s.hwm).sregs =
        (List.range 7).foldl (fun t i => Tbl.set 0 t (i + 1) (l.args.getD i 0)) [] := rfl
    rw [args, get_setArgs (fun i => l.args.getD i 0) hi]

theorem launches_endCmd (s : State) (c : CoreRef) (tok cause : Nat) (tc : W64) : (s.endCmd c tok cause tc).launches = s.launches := by
  cases there : (s.core c).cmd tok with
  | none => rw [State.endCmd, there]
  | some x =>
    rw [endCmd_eq there]
    refine Eq.trans (b := (releasesSource s c x).launches) rfl ?_
    unfold releasesSource
    split <;> rfl

theorem complete_completes {n : Nat} {s : State} {l : Launch} (here : s.launch? n = some l) (ended : s.launchOver l = true) :
    let past := s.launches.map fun y => if y.seq = n then { y with finished := true } else y
    (l.tlnch = none → l.fromHost = none → ∃ t, exec (.launchComplete n) s = .next t ∧ t = { s with launches := past })
      ∧ (∀ seq, l.tlnch = none → l.fromHost = some seq → ∃ t, exec (.launchComplete n) s = .next t ∧ t.launches = past
        ∧ TasksAndMemoryStand s t ∧ t.host = s.host.sendCell
          (routedCell 10 s.hostRoute 0 (padTo 128 ([0x91, 0, 0, 0] ++ leBytes 4 seq ++ leBytes 8 l.id.toNat))))
      ∧ ∀ c tok x, l.tlnch = some (c, tok) → (s.core c).cmd tok = some x → ∃ t, exec (.launchComplete n) s = .next t
        ∧ t.launches = past ∧ t.mem = s.mem ∧ Ended s t c tok x (if l.killed then 0x47 else 0) s.hwm := by
  intro past
  rw [complete_over here ended]
  refine ⟨fun own host => ?_, fun seq own host => ?_, fun c tok x own there => ?_⟩
  · simp only [own, launchAnswered, host]
    exact ⟨_, rfl, rfl⟩
  · simp only [own, launchAnswered, host]
    exact ⟨_, rfl, rfl, ⟨fun _ => rfl, rfl⟩, rfl⟩
  · have same : (launchAnswered (s.dropLaunch n) l).cores = s.cores ∧ (launchAnswered (s.dropLaunch n) l).launches = past
        ∧ (launchAnswered (s.dropLaunch n) l).mem = s.mem := by
      unfold launchAnswered
      split <;> exact ⟨rfl, rfl, rfl⟩
    simp only [own]
    generalize launchAnswered (s.dropLaunch n) l = w at same ⊢
    obtain ⟨cores, launches, mem⟩ := same
    have thereW : (w.core c).cmd tok = some x := by rw [State.core, cores, ← State.core, there]
    obtain ⟨ends, memW, -, -⟩ := endCmd_ends thereW (if l.killed then 0x47 else 0) s.hwm
    exact ⟨_, rfl, by rw [launches_endCmd, launches], memW.trans mem, ends.of_same (.of_cores (s := s) (w := w) cores c)⟩

end Sys2Proof

namespace Sys2Proof

open Machine

/-! ### What writes leave of tile tasks and commands -/

/-- The tile tasks of a run stand, and the commands under their tokens are of the same slots. -/
structure Tiling (s t : State) : Prop where
  status : ∀ q home tok, (s.task q).status = .tiling home tok → (t.task q).status = .tiling home tok
  slots : ∀ c n, ((t.core c).cmd n).map Cmd.slot = ((s.core c).cmd n).map Cmd.slot

theorem Tiling.refl (s : State) : Tiling s s := ⟨fun _ _ _ h => h, fun _ _ => rfl⟩

theorem Tiling.trans {s t u : State} (h : Tiling s t) (k : Tiling t u) : Tiling s u :=
  ⟨fun q home tok tiles => k.status q home tok (h.status q home tok tiles), fun c n => (k.slots c n).trans (h.slots c n)⟩

theorem Tiling.foldl {α : Type} (step : State → α → State) (each : ∀ t a, Tiling t (step t a)) (s : State) (l : List α) :
    Tiling s (l.foldl step s) := by
  induction l generalizing s with
  | nil => exact .refl _
  | cons a l ih => exact (each s a).trans (ih _)

/-- What keeps the tables of tasks and commands of every core. -/
theorem Tiling.of_tables {s t : State} (h : ∀ c, (t.core c).tasks = (s.core c).tasks ∧ (t.core c).cmds = (s.core c).cmds) : Tiling s t := by
  refine ⟨fun q home tok tiles => ?_, fun c n => by rw [Core.cmd, (h c).2, ← Core.cmd]⟩
  rw [State.task, State.task?, (h q.coreRef).1, ← State.task?, ← State.task]
  exact tiles

theorem Tiling.of_cores {s t : State} (h : t.cores = s.cores) : Tiling s t :=
  .of_tables fun c => by rw [State.core, State.core, h]; exact ⟨rfl, rfl⟩

theorem Tiling.of_worked {s t : State} (h : Worked s t) : Tiling s t :=
  .of_tables fun c => ⟨(congrArg Core.tasks (h.cores c) :), (congrArg Core.cmds (h.cores c) :)⟩

theorem tables_modCore (s : State) (r : CoreRef) (f : Core → Core)
    (h : (f (s.core r)).tasks = (s.core r).tasks ∧ (f (s.core r)).cmds = (s.core r).cmds) (c : CoreRef) :
    ((s.modCore r f).core c).tasks = (s.core c).tasks ∧ ((s.modCore r f).core c).cmds = (s.core c).cmds := by
  by_cases hc : CoreRef.key c = CoreRef.key r
  · rw [core_congr _ hc, core_congr s hc, State.core_modCore]
    exact h
  · rw [State.core_modCore_other _ _ hc]
    exact ⟨rfl, rfl⟩

theorem tiling_modCore (s : State) (r : CoreRef) (f : Core → Core)
    (h : (f (s.core r)).tasks = (s.core r).tasks ∧ (f (s.core r)).cmds = (s.core r).cmds) : Tiling s (s.modCore r f) :=
  .of_tables (tables_modCore s r f h)

theorem tiling_modDie (s : State) (d : Nat) (f : Die → Die) : Tiling s (s.modDie d f) := .of_cores rfl

theorem tiling_wakeAll (s : State) (die b : Nat) : Tiling s (s.wakeAll die b) := by
  have wakes := wakes_wakeAll [b] s die (b := b) (by simp)
  refine ⟨fun q home tok tiles => ?_, fun c n => ?_⟩
  · rcases wakes.tasks q with same | ⟨x, n, p, _, v, there, waits, -⟩
    · rw [State.task, same, ← State.task]
      exact tiles
    · rw [State.task, there, Option.getD_some, waits] at tiles
      exact absurd tiles (by simp)
  · have cmds : ((s.wakeAll die b).core c).cmds = (s.core c).cmds := (congrArg Core.cmds (wakes.cores c) :)
    rw [Core.cmd, cmds, ← Core.cmd]

theorem tiling_modBarrier (s : State) (die b : Nat) (f : Barrier → Barrier) : Tiling s (s.modBarrier die b f) :=
  (tiling_modDie s die _).trans (tiling_wakeAll _ die b)

theorem tiling_noteLock (s t : State) (h : Tiling s t) : Tiling s (s.noteLock t) := by
  unfold State.noteLock
  split
  · exact h.trans (.of_cores rfl)
  · exact h

theorem tiling_followModule (s : State) : Tiling s s.followModule := .of_cores (by rw [State.followModule])

theorem tiling_drops (s : State) (h : HostPort) : Tiling s { s with host := h } := .of_cores rfl

theorem tiling_modMonitor (s : State) (m : MonitorRef) (f : Monitor → Monitor) : Tiling s (s.modMonitor m f) := by
  unfold State.modMonitor
  exact tiling_modDie ..

theorem tiling_modGate (s : State) (die : Nat) (f : Gatehouse → Gatehouse) : Tiling s (s.modGate die f) := tiling_modDie ..

theorem tiling_writeWord (s : State) (r : Reg) (mask v : W64) : Tiling s (s.writeWord r mask v) := by
  unfold State.writeWord
  split
  · exact tiling_modCore s _ _ ⟨rfl, rfl⟩
  · split
    · exact tiling_modDie ..
    · exact .refl s
  · split
    · exact tiling_modDie ..
    · exact .refl s
  · exact .refl s
  · split_ifs
    · exact tiling_modMonitor ..
    · exact tiling_modMonitor ..
    · exact .refl s
  · exact tiling_noteLock s _ ((tiling_modGate ..).trans (tiling_followModule _))
  · exact tiling_modDie ..
  · exact tiling_modDie ..
  · split
    · exact tiling_drops ..
    · exact .refl s
  · exact tiling_modBarrier ..
  · exact tiling_modDie ..
  · split
    · exact tiling_modDie ..
    · exact .refl s
  · exact .refl s

/-- A run told that its staging slice was stored to. -/
def spoiledCmd (d : Nat) (x : Cmd) : Cmd := { x with run := x.run.map (TileRun.spoilOn d) }

theorem tiling_storeSlice (s : State) (o : Nat) : Tiling s (s.storeSlice o) := by
  unfold State.storeSlice
  split
  · exact .refl s
  · next d _ =>
    let told := fun c : Core => { c with cmds := Tbl.mapVals (Option.map (spoiledCmd d)) c.cmds }
    have core : ∀ c, State.core { s with cores := Tbl.mapVals told s.cores } c = told (s.core c) := fun c =>
      Tbl.get_mapVals (d := Core.reset) rfl s.cores (CoreRef.key c)
    refine ⟨fun q home tok tiles => ?_, fun c n => ?_⟩
    · have tasks : State.task? { s with cores := Tbl.mapVals told s.cores } q = s.task? q := by rw [State.task?, core]; rfl
      refine Eq.trans (congrArg (fun t => (Option.getD t Task.blank).status) tasks) tiles
    · refine Eq.trans (congrArg (fun k : Core => (k.cmd n).map Cmd.slot) (core c)) ?_
      show (Tbl.get none (Tbl.mapVals (Option.map (spoiledCmd d)) (s.core c).cmds) n).map Cmd.slot = _
      rw [Tbl.get_mapVals rfl, Option.map_map]
      rfl

theorem tiling_writeAt {s t : State} {w : Writer} {o : Nat} {b : List Byte} (h : s.writeAt w o b = some t) : Tiling s t := by
  unfold State.writeAt at h
  split at h
  · obtain rfl := Option.some.inj h
    exact Tiling.trans (t := { s with mem := s.mem.setBytes o b }) (.of_cores rfl) (tiling_storeSlice _ o)
  · split at h <;> obtain rfl := Option.some.inj h
    · exact .of_cores rfl
    · exact tiling_modCore s _ _ ⟨rfl, rfl⟩
  · split at h <;> obtain rfl := Option.some.inj h
    · exact .of_cores rfl
    · exact tiling_modCore s _ _ ⟨rfl, rfl⟩
  · obtain rfl := Option.some.inj h
    exact .refl s
  · cases h
  · split at h
    · obtain rfl := Option.some.inj h
      exact tiling_writeWord ..
    · cases h
  · cases h

theorem tiling_writeRuns (w : Writer) : ∀ (fuel : Nat) (s : State) (o : Nat) (b : List Byte), Tiling s (s.writeRuns w o b fuel)
  | 0, s, _, _ => .refl s
  | fuel + 1, s, o, b => by
    rw [State.writeRuns]
    split
    · exact .refl s
    · refine Tiling.trans ?_ (tiling_writeRuns w fuel _ _ _)
      cases h : s.writeAt w o (b.take (s.runLength o)) with
      | none => exact .refl s
      | some t => exact tiling_writeAt h

theorem tiling_physWrite (s : State) (w : Writer) (key o : Nat) (b : List Byte) : Tiling s (s.physWrite w key o b).1 := by
  unfold State.physWrite
  split
  · split
    · exact .of_worked (worked_storeHbm ..)
    · exact .refl s
  · split
    · exact .refl s
    · exact tiling_writeRuns ..

theorem tables_logFor (s : State) (r : CoreRef) (slot : Nat) (i : LogItem) (w : Nat) (c : CoreRef) :
    ((s.logFor r slot i w).core c).tasks = (s.core c).tasks ∧ ((s.logFor r slot i w).core c).cmds = (s.core c).cmds := by
  unfold State.logFor
  split
  · exact ⟨rfl, rfl⟩
  · exact tables_modCore _ _ _ ⟨rfl, rfl⟩ c

theorem tables_writeLocal (s : State) (r : CoreRef) (slot a : Nat) (b : List Byte) (within : Bool) (c : CoreRef) :
    ((s.writeLocal r slot a b within).core c).tasks = (s.core c).tasks
      ∧ ((s.writeLocal r slot a b within).core c).cmds = (s.core c).cmds := by
  have logged : ((s.logBytes r slot a b).core c).tasks = (s.core c).tasks ∧ ((s.logBytes r slot a b).core c).cmds = (s.core c).cmds := by
    unfold State.logBytes
    generalize List.range ((a + b.length + 127) / 128 - a / 128) = l
    induction l generalizing s with
    | nil => exact ⟨rfl, rfl⟩
    | cons i l ih =>
      rw [List.foldl_cons]
      dsimp only
      split
      · obtain ⟨tasks, cmds⟩ := tables_logFor s r slot (.bytes ((a / 128 + i) * 128) (s.mem.bytes ((a / 128 + i) * 128) 128)) (leNat b) c
        exact ⟨(ih _).1.trans tasks, (ih _).2.trans cmds⟩
      · exact ih s
  cases within with
  | true => exact logged
  | false => exact ⟨rfl, rfl⟩

theorem worked_farStore (s : State) (g : Agent) (pa gen : Nat) (phys : Bool) (b : List Byte) : Worked s (s.farStore g pa gen phys b) := by
  unfold State.farStore
  dsimp only
  split
  · exact worked_sendReq ..
  · exact (worked_sendReq ..).trans (worked_sendReq ..)

theorem tiling_engineWrite (s : State) (g : Agent) (a : W64) (b : List Byte) : Tiling s (s.engineWrite g a b).1 := by
  have walked : Tiling s (if addrForm a = 0 then s.tookFree else s) := .of_worked (worked_walked s a)
  unfold State.engineWrite
  dsimp only
  generalize (if addrForm a = 0 then s.tookFree else s) = w at walked ⊢
  refine walked.trans ?_
  split
  · exact .of_worked (worked_spotFails ..)
  · split
    · exact .refl w
    · split
      · exact Tiling.of_tables (tables_writeLocal w g.task.coreRef g.task.slot _ b g.within)
      · exact .of_worked (worked_farStore ..)
      · exact tiling_physWrite ..
      · exact tiling_physWrite ..

theorem tiling_writeEach (g : Agent) : ∀ (l : List (W64 × List Byte)) (s : State) (lines : List Nat), Tiling s (State.writeEach g l s lines).1
  | [], s, _ => .refl s
  | (a, b) :: rest, s, lines => by
    rw [State.writeEach]
    have one := tiling_engineWrite s g a b
    split
    · exact one
    · exact one
    · exact one.trans (tiling_writeEach g rest _ _)

theorem tiling_writeList (g : Agent) (l : List (W64 × List Byte)) (s : State) (lines : List Nat) : Tiling s (State.writeList g l s lines).1 := by
  unfold State.writeList
  split
  · exact tiling_engineWrite ..
  · exact tiling_writeEach ..

theorem worked_tileTime (s : State) (r : TaskRef) (cores : List CoreRef) (lines : List Nat) : Worked s (s.tileTime r cores lines).1 := by
  unfold State.tileTime
  dsimp only
  have stamped (m : LineMeta → LineMeta) : Worked s (lines.foldl (fun s l => s.modLine l m) s) :=
    .foldl _ (fun t l => worked_modLine t l m) s lines
  split
  · exact stamped _
  · exact (stamped _).trans (.foldl _ (fun t k => worked_mark t k _) _ _)

theorem tiling_lastRecord (s : State) (c : CoreRef) (tok : Nat) (x : Cmd) (g : TileRun) (lines : List Nat) (state : Nat) (t : Option TileFault) :
    Tiling s (s.lastRecord c tok x g lines state t).1 := by
  unfold State.lastRecord
  dsimp only
  split
  · exact tiling_writeList ..
  · exact (Tiling.of_worked (worked_tileTime ..)).trans (tiling_writeList ..)

end Sys2Proof

namespace Sys2Proof

open Machine

/-! ### Steps of a run -/

/-- Where no tile instruction stands under a token, no step of one does anything. -/
theorem no_tile {c : CoreRef} {tok : Nat} (unit : Nat) {s : State} (none : s.tileAt c tok = none) :
    ∀ i ∈ [Instr.tileStart c tok, .unitComplete c tok unit, .tileFold c tok unit, .childLost c tok unit, .tileComplete c tok],
      exec i s = .next s := by
  intro i mem
  simp only [List.mem_cons, List.not_mem_nil, or_false] at mem
  rcases mem with rfl | rfl | rfl | rfl | rfl
  · show execTileStart c tok s = _
    simp only [execTileStart, none]
  · show execUnitComplete c tok unit s = _
    simp only [execUnitComplete, none]
  · show execTileFold c tok unit s = _
    simp only [execTileFold, none]
  · show execChildLost c tok unit s = _
    simp only [execChildLost, none]
  · show execTileComplete c tok s = _
    simp only [execTileComplete, none]

theorem cmd_of_tileAt {s : State} {c : CoreRef} {tok : Nat} {x : Cmd} (h : s.tileAt c tok = some x) :
    (s.core c).cmd tok = some x ∧ ∃ opc ord rz, x.kind = .tile opc ord rz := by
  unfold State.tileAt at h
  split at h
  · next y there =>
    split at h
    · next opc ord rz kind =>
      obtain rfl := Option.some.inj h
      exact ⟨there, opc, ord, rz, kind⟩
    · cases h
  · cases h

theorem tileAt_of_cmd {s : State} {c : CoreRef} {tok : Nat} {x : Cmd} {opc : Nat} {ord rz : Bool} (there : (s.core c).cmd tok = some x)
    (kind : x.kind = .tile opc ord rz) : s.tileAt c tok = some x := by
  unfold State.tileAt
  rw [there]
  simp only [kind]

theorem cmd_setRun (s : State) (c : CoreRef) (tok : Nat) (x : Cmd) (g : TileRun) :
    ((s.setRun c tok x g).core c).cmd tok = some { x with run := some g } := by
  rw [State.setRun, State.core_modCore, Core.cmd, Core.setCmd, Tbl.get_set_same]

section

variable {c : CoreRef} {tok : Nat} {s : State} {x : Cmd} {g : TileRun}

theorem unit_idle {u : Nat} (there : s.tileAt c tok = some x) (run : x.run = some g) (idle : s.unitReady c tok x g u = false) :
    exec (.unitComplete c tok u) s = .next s := by
  show execUnitComplete c tok u s = _
  simp only [execUnitComplete, there, run, idle, Bool.not_false, if_true]

/-- A unit that is ready has a leaf. -/
theorem worker_of_ready {u : Nat} (ready : s.unitReady c tok x g u = true) : ∃ w, g.worker u = some w := by
  unfold State.unitReady at ready
  cases h : g.worker u with
  | none => simp [h] at ready
  | some w => exact ⟨w, rfl⟩

theorem sentSince_self (s : State) : sentSince s s = [] := by
  unfold sentSince
  rw [List.map_eq_nil_iff, List.filter_eq_nil_iff]
  intro q mem
  have same : (s.sent.any fun y => decide (y.req.id = q.req.id)) = true := List.any_eq_true.mpr ⟨q, mem, decide_eq_true rfl⟩
  rw [same, Bool.not_true, Bool.and_false]
  exact Bool.false_ne_true

/-- UNIT_COMPLETE of a ready unit, by what it forms. -/
theorem unit_forms {u : Nat} (there : s.tileAt c tok = some x) (run : x.run = some g) (ready : s.unitReady c tok x g u = true) :
    let a := x.unitAgent c tok g u
    let bad : TileFault := ⟨u, 0, 4, g.worker u⟩
    (∀ s1 e, s.unitForms a g u = (s1, .error (some e)) →
      exec (.unitComplete c tok u) s = .next ((s1.forgetReads a).setRun c tok x (g.fail { bad with cause := tileCause e })))
    ∧ ∀ s1 v l f s2 lines, s.unitForms a g u = (s1, .ok (v, l, f)) →
      State.writeList a (s1.tileWrites g l ++ (if g.whole (u / g.chunks) then [] else
          pieces (g.workAt u) (v.flatMap fun n => leBytes g.workWidth n.toNat)))
        ((s1.forgetReads a).tookFree (8 * l.length)) [] = (s2, ⟨lines, none, false⟩) →
      let g' := { g with
        flags := g.flags ||| f
        stores := g.stores ++ (sentSince ((s1.forgetReads a).tookFree (8 * l.length)) s2).map fun id => (id, bad, [u]) }
      let x' := { x with lines := (x.lines ++ lines).dedup }
      exec (.unitComplete c tok u) s = .next (if g.whole (u / g.chunks) then
          s2.setRun c tok x' { g' with held := Tbl.insert v g'.held u }
        else (s2.noteDone c tok x' { g' with done := u :: g'.done }).1.setRun c tok x' { g' with done := u :: g'.done }) := by
  intro a bad
  obtain ⟨w, worker⟩ := worker_of_ready ready
  have agent : x.leaf c tok ((g.worker u).getD (.module 0)) = a := by
    simp only [a, Cmd.unitAgent, worker, Option.getD_some]
  refine ⟨fun s1 e forms => ?_, fun s1 v l f s2 lines forms writes => ?_⟩
  · show execUnitComplete c tok u s = _
    simp only [execUnitComplete, there, run, ready, Bool.not_true, Bool.false_eq_true, if_false, agent, forms]
    rfl
  · show execUnitComplete c tok u s = _
    simp only [execUnitComplete, there, run, ready, Bool.not_true, Bool.false_eq_true, if_false, agent, forms, writes]
    split <;> rfl

/-- A step after which a command runs on with another run. -/
def RunsOn (i : Instr) (c : CoreRef) (tok : Nat) (x : Cmd) (s s0 : State) (h : TileRun) : Prop :=
  ∃ t, exec i s = .next t
    ∧ (∃ y, (t.core c).cmd tok = some y ∧ y.run = some h ∧ y.started = x.started ∧ y.kind = x.kind) ∧ t.mem = s0.mem

theorem runsOn_setRun {i : Instr} {y : Cmd} {w s0 : State} {h : TileRun} (next : exec i s = .next (w.setRun c tok y h))
    (started : y.started = x.started) (kind : y.kind = x.kind) (mem : w.mem = s0.mem) : RunsOn i c tok x s s0 h :=
  ⟨_, next, ⟨_, cmd_setRun .., rfl, started, kind⟩, mem⟩

theorem unit_fails {u : Nat} (there : s.tileAt c tok = some x) (run : x.run = some g) (ready : s.unitReady c tok x g u = true) :
    ∀ s1 e, s.unitForms (x.unitAgent c tok g u) g u = (s1, .error (some e)) →
      RunsOn (.unitComplete c tok u) c tok x s s1 (g.fail ⟨u, tileCause e, 4, g.worker u⟩) :=
  fun s1 e forms => runsOn_setRun ((unit_forms there run ready).1 s1 e forms) rfl rfl rfl

/-- A unit of a tile that is whole in its leaf is held there (R296). -/
theorem unit_held {u : Nat} (there : s.tileAt c tok = some x) (run : x.run = some g) (ready : s.unitReady c tok x g u = true) :
    ∀ s1 v f, s.unitForms (x.unitAgent c tok g u) g u = (s1, .ok (v, [], f)) → g.whole (u / g.chunks) = true →
      RunsOn (.unitComplete c tok u) c tok x s s1 { g with flags := g.flags ||| f, held := Tbl.insert v g.held u } := by
  intro s1 v f forms whole
  have step := (unit_forms there run ready).2 s1 v [] f ((s1.forgetReads (x.unitAgent c tok g u)).tookFree (8 * ([] : List ((Nat × Nat) × Nat)).length)) [] forms
    (by rw [if_pos whole]; rfl)
  rw [sentSince_self] at step
  dsimp only at step
  rw [if_pos whole] at step
  rw [List.map_nil, List.append_nil g.stores] at step
  exact runsOn_setRun step rfl rfl rfl

/-- A unit of a split tile is written to WORK and is complete (R297, R304). -/
theorem unit_written {u : Nat} (there : s.tileAt c tok = some x) (run : x.run = some g) (ready : s.unitReady c tok x g u = true) :
    ∀ s1 v l f s2 lines, s.unitForms (x.unitAgent c tok g u) g u = (s1, .ok (v, l, f)) → g.whole (u / g.chunks) = false →
      State.writeList (x.unitAgent c tok g u)
        (s1.tileWrites g l ++ pieces (g.workAt u) (v.flatMap fun n => leBytes g.workWidth n.toNat))
        ((s1.forgetReads (x.unitAgent c tok g u)).tookFree (8 * l.length)) [] = (s2, ⟨lines, none, false⟩) →
      ∃ t y h, exec (.unitComplete c tok u) s = .next t ∧ (t.core c).cmd tok = some y ∧ y.run = some h ∧ h.flags = g.flags ||| f
        ∧ h.done = u :: g.done ∧ h.held = g.held ∧ t.mem = (s2.noteDone c tok y h).1.mem := by
  intro s1 v l f s2 lines forms split writes
  have short : ¬g.whole (u / g.chunks) = true := by rw [split]; exact Bool.false_ne_true
  have step := (unit_forms there run ready).2 s1 v l f s2 lines forms (by rw [if_neg short]; exact writes)
  dsimp only at step
  rw [if_neg short] at step
  exact ⟨_, _, _, step, cmd_setRun .., rfl, rfl, rfl, rfl, rfl⟩

theorem fold_idle {n : Nat} (there : s.tileAt c tok = some x) (run : x.run = some g) (idle : s.foldReady c tok x g n = false) :
    exec (.tileFold c tok n) s = .next s := by
  show execTileFold c tok n s = _
  simp only [execTileFold, there, run, idle, Bool.not_false, if_true]

/-- TILE_FOLD of a tile whose units stand (R291, R297). -/
theorem fold_folds {n : Nat} (there : s.tileAt c tok = some x) (run : x.run = some g) (ready : s.foldReady c tok x g n = true) :
    let a := if g.whole n then x.unitAgent c tok g (n * g.chunks) else x.issuer c tok
    ∀ s1 l f s2 fw, s.foldTile a g n = (s1, .ok (l, f)) →
      State.foldWrites g (fun u => if g.opc = 3 then x.unitAgent c tok g u else a) l (s1.forgetReads a) ⟨[], [], none, false⟩
        = (s2, fw) → fw.waits = false → fw.failed = none →
      ∃ t y h, exec (.tileFold c tok n) s = .next t ∧ (t.core c).cmd tok = some y ∧ y.run = some h ∧ h.flags = g.flags ||| f
        ∧ h.folded = n :: g.folded ∧ (∀ u, u ∈ h.done ↔ u ∈ g.done ∨ u ∈ g.unitsOf n)
        ∧ t.mem = (s2.noteDone c tok y h).1.mem := by
  intro a s1 l f s2 fw folds writes goes whole
  have step : exec (.tileFold c tok n) s = execTileFold c tok n s := rfl
  simp only [execTileFold, there, run, ready, Bool.not_true, Bool.false_eq_true, if_false, a, folds, writes, goes, whole] at step
  refine ⟨_, _, _, step, cmd_setRun .., rfl, rfl, rfl, fun u => ?_, rfl⟩
  simp only [List.mem_append, List.mem_filter, Bool.not_eq_true', List.contains_eq_mem, decide_eq_false_iff_not]
  tauto

/-- CHILD_LOST of a leaf that never was, or of one with nothing to move (R298). -/
theorem lost_idle (n : Nat) (there : s.tileAt c tok = some x) (run : x.run = some g) :
    (g.workers[n]? = none → exec (.childLost c tok n) s = .next s)
      ∧ ∀ w, g.workers[n]? = some w →
        (x.started = false ∨ g.aborted = true
          ∨ ((g.parts.filter fun p => decide (p.worker = w)).flatMap fun p => withoutUnits g.done p.first p.count) = []
          ∨ s.leafLost c tok w = false → exec (.childLost c tok n) s = .next s) := by
  refine ⟨fun absent => ?_, fun w child idle => ?_⟩
  · show execChildLost c tok n s = _
    simp only [execChildLost, there, run, absent]
  · show execChildLost c tok n s = _
    have stays : (!x.started || g.aborted
        || decide (((g.parts.filter fun p => decide (p.worker = w)).flatMap fun p => withoutUnits g.done p.first p.count) = [])
        || !s.leafLost c tok w) = true := by
      simp only [Bool.or_eq_true, Bool.not_eq_true', decide_eq_true_eq]
      tauto
    simp only [execChildLost, there, run, child, stays, if_true]

theorem mem_placeAll (s : State) (x : Cmd) (home : CoreRef) (tok : Nat) (ws : List Worker) (time : W64) :
    (s.placeAll x home tok ws time).mem = s.mem := by
  unfold State.placeAll
  induction ws generalizing s with
  | nil => rfl
  | cons w ws ih =>
    rw [List.foldl_cons, ih]
    split
    · split
      · rfl
      · unfold State.placeTile
        split <;> rfl
    · rfl

/-- CHILD_LOST: the units of a lost leaf go to those that are left (R298). -/
theorem lost_moves (n : Nat) {w : Worker} (there : s.tileAt c tok = some x) (run : x.run = some g) (child : g.workers[n]? = some w) :
    let mine := g.parts.filter fun p => decide (p.worker = w)
    let units := mine.flatMap fun p => withoutUnits g.done p.first p.count
    x.started = true → g.aborted = false → units ≠ [] → s.leafLost c tok w = true →
      let live := (g.leaves.filter fun v => !decide (v = w)).filterMap (s.liveLeaf c tok g)
      let new := distribute s.module.toNat 4 0 units (nearest s.module.toNat w live)
      live ≠ [] → ∃ t, exec (.childLost c tok n) s = .next t ∧ t.mem = s.mem ∧ (t.core c).cmd tok = some { x with run := some { g with
        parts := (g.parts.filter fun p => !decide (p.worker = w)) ++ g.doneParts mine ++ new
        leaves := live
        held := g.held.filter fun e => !decide (g.worker e.1 = some w) } } := by
  intro mine units started going some_units lost live new left
  have goes : (!x.started || g.aborted || decide (units = []) || !s.leafLost c tok w) = false := by
    rw [started, going, decide_eq_false some_units, lost]
    rfl
  have step : exec (.childLost c tok n) s = execChildLost c tok n s := rfl
  simp only [execChildLost, there, run, child] at step
  rw [if_neg (by rw [goes]; exact Bool.false_ne_true), if_neg left] at step
  exact ⟨_, step, mem_placeAll .., cmd_setRun ..⟩

theorem tile_completes_idle (there : s.tileAt c tok = some x) (run : x.run = some g)
    (idle : (s.task (issuerOf c x)).stopped = true ∨ (g.final = none ∧ (x.started = false ∨ (s.judged g).ending = none))) :
    exec (.tileComplete c tok) s = .next s := by
  show execTileComplete c tok s = _
  simp only [execTileComplete, there, run]
  split
  · rfl
  · next stays =>
    have goes : (s.task (issuerOf c x)).stopped = false := by
      simp only [Bool.or_eq_true, not_or, Bool.not_eq_true] at stays
      exact stays.1
    rw [goes] at idle
    obtain ⟨final, open'⟩ := idle.resolve_left Bool.false_ne_true
    rw [final]
    dsimp only
    rcases open' with waiting | unended
    · rw [waiting]
      rfl
    · rw [unended]
      split <;> rfl

end

end Sys2Proof

namespace Sys2Proof

open Machine

/-! ### The end of a run (R302, R303) -/

/-- Some slots are freed, and no command goes. -/
structure Frees (s t : State) : Prop where
  tasks : ∀ q, t.task? q = s.task? q ∨ t.task? q = none
  cmds : ∀ c, (t.core c).cmds = (s.core c).cmds

theorem Frees.refl (s : State) : Frees s s := ⟨fun _ => .inl rfl, fun _ => rfl⟩

theorem Frees.trans {s t u : State} (h : Frees s t) (k : Frees t u) : Frees s u :=
  ⟨fun q => (k.tasks q).elim (fun same => same ▸ h.tasks q) .inr, fun c => (k.cmds c).trans (h.cmds c)⟩

theorem Frees.foldl {α : Type} (step : State → α → State) (each : ∀ t a, Frees t (step t a)) (s : State) (l : List α) :
    Frees s (l.foldl step s) := by
  induction l generalizing s with
  | nil => exact .refl _
  | cons a l ih => exact (each s a).trans (ih _)

theorem Frees.of_tables {s t : State} (h : ∀ c, (t.core c).tasks = (s.core c).tasks ∧ (t.core c).cmds = (s.core c).cmds) : Frees s t :=
  ⟨fun q => .inl (by rw [State.task?, (h _).1, ← State.task?]), fun c => (h c).2⟩

theorem Frees.of_cores {s t : State} (h : t.cores = s.cores) : Frees s t :=
  .of_tables fun c => by rw [State.core, State.core, h]; exact ⟨rfl, rfl⟩

theorem Frees.gone {s t : State} (h : Frees s t) {q : TaskRef} (gone : s.task? q = none) : t.task? q = none :=
  (h.tasks q).elim (fun same => same.trans gone) id

theorem frees_modCore (s : State) (r : CoreRef) (f : Core → Core)
    (h : (f (s.core r)).tasks = (s.core r).tasks ∧ (f (s.core r)).cmds = (s.core r).cmds) : Frees s (s.modCore r f) :=
  .of_tables (tables_modCore s r f h)

theorem frees_mem (s : State) (m : Memory) : Frees s { s with mem := m } := .of_cores rfl

theorem frees_giveAll (s : State) (r : TaskRef) : Frees s (s.giveAll r) := by
  refine (Frees.foldl _ (fun t n => ?_) s _).trans (.foldl _ (fun t h => ?_) _ _)
  · split
    · rw [giveSlot_eq]
      exact (frees_mem t _).trans (frees_modCore _ _ _ ⟨rfl, rfl⟩)
    · exact .refl _
  · split
    · exact frees_modCore _ _ _ ⟨rfl, rfl⟩
    · exact .refl _

theorem freedCore_cmds (c : Core) (r : TaskRef) (base n : Nat) :
    (((c.undefineTiles r).freeUnits r.slot).zeroBlock base n).cmds = c.cmds :=
  Eq.trans (b := (c.undefineTiles r).cmds) rfl (congrArg Core.cmds (undefineTiles_rest c r) :)

theorem frees_putNone (s : State) (r : TaskRef) : Frees s (s.putTask r none) := by
  refine ⟨fun q => ?_, fun c => ?_⟩
  · rw [State.putTask, task?_modCore]
    split
    · next same =>
      by_cases slot : q.slot = r.slot
      · exact .inr (by rw [slot, Tbl.get_set_same])
      · exact .inl (by rw [Tbl.get_set_other _ _ _ slot, State.task?, core_congr s same])
    · exact .inl rfl
  · unfold State.putTask
    by_cases hc : CoreRef.key c = CoreRef.key r.coreRef
    · rw [core_congr _ hc, core_congr s hc, State.core_modCore]
    · rw [State.core_modCore_other _ _ hc]

theorem frees_freeSlotOf (s : State) (r : TaskRef) : Frees s (s.freeSlotOf r) := by
  unfold State.freeSlotOf
  split
  · exact .refl s
  · next x _ =>
    dsimp only
    have given : Frees s ((s.zeroWindow r.coreRef x.wbase x.wsize).giveAll r) :=
      (frees_mem s _ : Frees s (s.zeroWindow r.coreRef x.wbase x.wsize)).trans (frees_giveAll _ r)
    generalize (s.zeroWindow r.coreRef x.wbase x.wsize).giveAll r = w at given ⊢
    have core : Frees w (w.modCore r.coreRef fun c => ((c.undefineTiles r).freeUnits r.slot).zeroBlock x.vbase x.vregs) :=
      frees_modCore w r.coreRef _ ⟨freedCore_tasks _ r _ _, freedCore_cmds _ r _ _⟩
    exact given.trans (core.trans (frees_putNone _ r))

/-- The tile task of one worker of a run freed, if it stands (R299). -/
def freeWorker (c : CoreRef) (tok : Nat) (s : State) (w : Worker) : State :=
  match w with
  | .core k slot =>
    if k = c then s
    else if (s.task ⟨k.die, k.core, slot⟩).status = .tiling c tok then s.freeSlotOf ⟨k.die, k.core, slot⟩ else s
  | .module _ => s

theorem frees_freeWorker (c : CoreRef) (tok : Nat) (s : State) (w : Worker) : Frees s (freeWorker c tok s w) := by
  unfold freeWorker
  split
  · split
    · exact .refl s
    · split
      · exact frees_freeSlotOf ..
      · exact .refl s
  · exact .refl s

/-- Every tile task of the workers goes. -/
theorem freeWorkers_frees {c k : CoreRef} {tok slot : Nat} (other : CoreRef.key k ≠ CoreRef.key c) {ws : List Worker} {s : State}
    (mem : Worker.core k slot ∈ ws) (tiles : (s.task ⟨k.die, k.core, slot⟩).status = .tiling c tok) :
    (ws.foldl (freeWorker c tok) s).task? ⟨k.die, k.core, slot⟩ = none := by
  have rest (l : List Worker) (t : State) : Frees t (l.foldl (freeWorker c tok) t) := .foldl _ (frees_freeWorker c tok) t l
  induction ws generalizing s with
  | nil => exact absurd mem List.not_mem_nil
  | cons w ws ih =>
    rw [List.foldl_cons]
    rcases List.mem_cons.mp mem with same | later
    · refine (rest ws _).gone ?_
      have apart : ¬k = c := fun h => other (by rw [h])
      have step : freeWorker c tok s w = s.freeSlotOf ⟨k.die, k.core, slot⟩ := by
        rw [← same, freeWorker, if_neg apart, if_pos tiles]
      rw [step]
      cases there : s.task? ⟨k.die, k.core, slot⟩ with
      | none => exact (frees_freeSlotOf s _).gone there
      | some x => exact (freeSlotOf_frees there).1
    · rcases (frees_freeWorker c tok s w).tasks ⟨k.die, k.core, slot⟩ with same | gone
      · exact ih later (by rw [State.task, same, ← State.task, tiles])
      · exact (rest ws _).gone gone

/-- Bytes of a core's stores that a core-level instruction leaves unspecified (R299). -/
def unspecifiedAt (w : State) (a n : Nat) : State := { w with mem := w.mem.setBytes a (w.freeBytes n) }.tookFree n

/-- What a core-level instruction leaves of the array's stores it used: nothing that is specified (R299). -/
theorem releaseTiles_frees (s : State) (c : CoreRef) (tok : Nat) (x : Cmd) (g : TileRun) :
    Frees (g.workers.foldl (freeWorker c tok) s) (s.releaseTiles c tok x g) := by
  have steps : s.releaseTiles c tok x g = (let w := g.workers.foldl (freeWorker c tok) s
    if g.level = 4 ∧ x.started = true then
      let w := unspecifiedAt (unspecifiedAt w (operandBase c + g.osl * 0x8000) (4 * 0x8000)) (unitAddr c g.acc) (2 * 0x4000)
      let l := w.latchAfter ((w.core c).latches.get none 0)
      (w.tookFree 0x8000).modCore c fun k => { k with latches := Tbl.set none k.latches 0 l }
    else w) := rfl
  rw [steps]
  generalize g.workers.foldl (freeWorker c tok) s = w
  dsimp only
  have stores : Frees w (unspecifiedAt (unspecifiedAt w (operandBase c + g.osl * 0x8000) (4 * 0x8000)) (unitAddr c g.acc) (2 * 0x4000)) :=
    .of_cores rfl
  generalize unspecifiedAt (unspecifiedAt w (operandBase c + g.osl * 0x8000) (4 * 0x8000)) (unitAddr c g.acc) (2 * 0x4000) = v at stores ⊢
  split
  · refine (stores.trans (Frees.of_cores (t := v.tookFree 0x8000) rfl)).trans (frees_modCore _ _ _ ⟨rfl, rfl⟩)
  · exact .refl w

/-- A run that is whole ends with its last record (R303). -/
theorem tile_ends {c : CoreRef} {tok : Nat} {s : State} {x : Cmd} {g : TileRun} (there : s.tileAt c tok = some x) (run : x.run = some g)
    (final : g.final = none) (ended : g.ending = some (1, none)) (started : x.started = true)
    (going : (s.task (issuerOf c x)).stopped = false) (stores : g.stores = []) (clean : g.spoilt = false)
    (quiet : ∀ q ∈ s.sent, q.cmdTok ≠ some tok) {s1 : State} {tc : W64} {lines : List Nat}
    (record : ((x.agents c tok g).foldl (fun s a => s.dropFar a.task tok) s.tookFree).lastRecord c tok x g x.lines.dedup 1 none
      = (s1, tc, ⟨lines, none, false⟩)) (answered : s1.farPending (issuerOf c x) tok = false) :
    exec (.tileComplete c tok) s = .next (((x.agents c tok g).foldl (fun s a => s.dropFar a.task tok)
      (s1.releaseTiles c tok x g)).endCmd c tok 0 tc) := by
  have none_pending : ((x.agents c tok g).any fun a => s.farPending a.task tok) = false := by
    rw [List.any_eq_false]
    intro a _
    unfold State.farPending
    rw [Bool.not_eq_true, List.any_eq_false]
    intro q mem
    rw [decide_eq_false (quiet q mem)]
    simp
  have judged : s.judged g = g := by rw [State.judged, stores]; rfl
  have ends : s.endRun c tok x g 1 none = s1.finishRun c tok x g none tc none := by
    have pending : s1.farPending (x.issuer c tok).task tok = false := answered
    unfold State.endRun
    simp only [clean, and_self, if_true, List.append_nil, Bool.false_eq_true, if_false, record, Option.isNone_none, pending,
      Bool.and_false]
  show execTileComplete c tok s = _
  have stays : ¬((s.task (x.taskRef c)).stopped || ((x.agents c tok g).any fun a => s.farPending a.task tok)) = true := by
    have h : (s.task (x.taskRef c)).stopped = false := going
    rw [h, none_pending]
    exact Bool.false_ne_true
  simp only [execTileComplete, there, run]
  rw [if_neg stays, final, judged]
  simp only [started, ended, Bool.not_true, Bool.false_eq_true, if_false, ends]
  rfl

/-- A command ends in a state that holds one of its slot under its token: the token is gone from the buffer and tells how (R214). -/
theorem endCmd_tells {w : State} {c : CoreRef} {tok : Nat} {x : Cmd} (slots : ((w.core c).cmd tok).map Cmd.slot = some x.slot)
    (cause : Nat) (tc : W64) : ((w.endCmd c tok cause tc).core c).cmd tok = none
      ∧ ((w.endCmd c tok cause tc).task (issuerOf c x)).token (if isCompute c.core then tok % 16 else tok)
        = ⟨if cause = 0 then .done else .faulted, cause, tc⟩
      ∧ OthersStand w (w.endCmd c tok cause tc) (issuerOf c x) := by
  cases held : (w.core c).cmd tok with
  | none => rw [held] at slots; cases slots
  | some y =>
    rw [held] at slots
    have slot : y.slot = x.slot := Option.some.inj slots
    have issuer : issuerOf c y = issuerOf c x := by rw [issuerOf, issuerOf, slot]
    obtain ⟨ends, -⟩ := endCmd_ends held cause tc
    rw [← issuer]
    refine ⟨?_, ?_, ends.others⟩
    · rw [Core.cmd, ends.commands, Tbl.get_mapVals rfl, Tbl.get_set_same]
      rfl
    · rw [ends.token, Task.token, Task.setToken, Tbl.get_set_same]

/-- TILE_COMPLETE of a run that is whole: its token is DONE with the time of its record, and its tile tasks are gone. -/
theorem tile_completes {c : CoreRef} {tok : Nat} {s : State} {x : Cmd} {g : TileRun} (there : s.tileAt c tok = some x) (run : x.run = some g)
    (final : g.final = none) (ended : g.ending = some (1, none)) (started : x.started = true)
    (going : (s.task (issuerOf c x)).stopped = false) (stores : g.stores = []) (clean : g.spoilt = false)
    (quiet : ∀ q ∈ s.sent, q.cmdTok ≠ some tok) {s1 : State} {tc : W64} {lines : List Nat}
    (record : ((x.agents c tok g).foldl (fun s a => s.dropFar a.task tok) s.tookFree).lastRecord c tok x g x.lines.dedup 1 none
      = (s1, tc, ⟨lines, none, false⟩)) (answered : s1.farPending (issuerOf c x) tok = false) :
    ∃ t, exec (.tileComplete c tok) s = .next t ∧ (t.core c).cmd tok = none
      ∧ (t.task (issuerOf c x)).token (if isCompute c.core then tok % 16 else tok) = ⟨.done, 0, tc⟩
      ∧ ∀ k slot, Worker.core k slot ∈ g.workers → CoreRef.key k ≠ CoreRef.key c →
        (s.task ⟨k.die, k.core, slot⟩).status = .tiling c tok → t.task? ⟨k.die, k.core, slot⟩ = none := by
  refine ⟨_, tile_ends there run final ended started going stores clean quiet record answered, ?_⟩
  have far (v : State) : Worked v ((x.agents c tok g).foldl (fun s a => s.dropFar a.task tok) v) :=
    .foldl _ (fun t (a : Agent) => worked_dropFar t a.task tok) v _
  have before : Tiling s s1 := by
    have recorded := tiling_lastRecord ((x.agents c tok g).foldl (fun s a => s.dropFar a.task tok) s.tookFree) c tok x g
      x.lines.dedup 1 none
    rw [record] at recorded
    exact (Tiling.of_worked ((worked_tookFree s 1).trans (far s.tookFree))).trans recorded
  have freed := releaseTiles_frees s1 c tok x g
  have workers : Frees s1 (g.workers.foldl (freeWorker c tok) s1) := .foldl _ (frees_freeWorker c tok) s1 _
  have after : Frees (s1.releaseTiles c tok x g) ((x.agents c tok g).foldl (fun s a => s.dropFar a.task tok) (s1.releaseTiles c tok x g)) :=
    .of_tables fun k => ⟨(congrArg Core.tasks ((far _).cores k) :), (congrArg Core.cmds ((far _).cores k) :)⟩
  generalize (x.agents c tok g).foldl (fun s a => s.dropFar a.task tok) (s1.releaseTiles c tok x g) = w at after ⊢
  have slots : ((w.core c).cmd tok).map Cmd.slot = some x.slot := by
    rw [Core.cmd, after.cmds, freed.cmds, workers.cmds, ← Core.cmd, before.slots, (cmd_of_tileAt there).1]
    rfl
  obtain ⟨empty, token, others⟩ := endCmd_tells slots 0 tc
  refine ⟨empty, token, fun k q mem other tiles => ?_⟩
  have away : CoreRef.key (TaskRef.coreRef ⟨k.die, k.core, q⟩) ≠ CoreRef.key (issuerOf c x).coreRef := other
  have gone := freeWorkers_frees other mem (before.status _ _ _ tiles)
  exact (others ⟨k.die, k.core, q⟩ (.inl away)).trans (after.gone (freed.gone gone))

end Sys2Proof

namespace Sys2Proof

open Machine

/-! ### Records in the window (R290, R303) -/

theorem free_of_tasks {s t : State} (h : ∀ c, (t.core c).tasks = (s.core c).tasks) (free : ∀ o m w, s.spotHeld (.inside o) m w = false) :
    ∀ o m w, t.spotHeld (.inside o) m w = false := by
  intro o m w
  refine Eq.trans ?_ (free o m w)
  unfold State.spotHeld State.drainHolds
  simp only [h]

/-- A write at an address of the window's form never waits. -/
theorem engineWrite_near {s : State} {g : Agent} {a : W64} (b : List Byte) (form : addrForm a = 2) (fresh : g.spots = [])
    (free : ∀ o m w, s.spotHeld (.inside o) m w = false) : (s.engineWrite g a b).2 ≠ .waits
      ∧ ∀ c, ((s.engineWrite g a b).1.core c).tasks = (s.core c).tasks := by
  have found : (∃ t, s.spot g a b.length true = .error t ∧ t.isWalk = false) ∨ ∃ o, s.spot g a b.length true = .ok (.inside o) := by
    unfold State.spot
    rw [fresh]
    unfold State.findSpot
    simp only [List.find?_nil, form]
    split
    · exact .inl ⟨_, rfl, rfl⟩
    · split
      · exact .inl ⟨_, rfl, rfl⟩
      · split
        · exact .inr ⟨_, rfl⟩
        · exact .inl ⟨_, rfl, rfl⟩
  have virt : ¬addrForm a = 0 := by rw [form]; decide
  unfold State.engineWrite
  simp only [if_neg virt]
  rcases found with ⟨t, error, walk⟩ | ⟨o, ok⟩
  · simp only [error, walk, State.spotFails, Bool.false_eq_true, if_false]
    exact ⟨nofun, fun _ => trivial⟩
  · simp only [ok, free, Bool.false_eq_true, if_false]
    exact ⟨nofun, fun c => (tables_writeLocal _ _ _ _ _ _ c).1⟩

theorem writeEach_near {g : Agent} (fresh : g.spots = []) : ∀ (l : List (W64 × List Byte)) (s : State) (lines : List Nat),
    (∀ e ∈ l, addrForm e.1 = 2) → (∀ o m w, s.spotHeld (.inside o) m w = false) → (State.writeEach g l s lines).2.waits = false
  | [], _, _, _, _ => rfl
  | (a, b) :: rest, s, lines, near, free => by
    obtain ⟨goes, tasks⟩ := engineWrite_near b (near (a, b) List.mem_cons_self) fresh free
    rw [State.writeEach]
    split
    · next h => exact absurd h goes
    · rfl
    · exact writeEach_near fresh rest _ _ (fun e mem => near e (List.mem_cons_of_mem _ mem)) (free_of_tasks tasks free)

theorem writeList_near {s : State} {g : Agent} {l : List (W64 × List Byte)} (fresh : g.spots = []) (near : ∀ e ∈ l, addrForm e.1 = 2)
    (free : ∀ o m w, s.spotHeld (.inside o) m w = false) : (State.writeList g l s []).2.waits = false := by
  have goes : (l.find? fun x => decide ((s.engineWrite g x.1 x.2).2 = .waits)) = none := by
    rw [List.find?_eq_none]
    intro e mem
    rw [decide_eq_true_eq]
    exact (engineWrite_near e.2 (near e mem) fresh free).1
  rw [State.writeList, goes]
  exact writeEach_near fresh l s [] near free

theorem length_placeBytes (m0 : Nat) (c : CoreRef) (level : Nat) (w : Option Worker) : (placeBytes m0 c level w).length = 5 := by
  unfold placeBytes
  split <;> rfl

theorem length_recordHead (m0 : Nat) (c : CoreRef) (g : TileRun) (state : Nat) (t : Option TileFault) (tc : W64) (n : Nat) :
    (recordHead m0 c g state t tc n).length = 64 := by
  have place (l : List Nat) : (l.flatMap (leBytes 1)).length = l.length := by
    induction l with
    | nil => rfl
    | cons a l ih => rw [List.flatMap_cons, List.length_append, ih, leBytes_length, List.length_cons]; omega
  unfold recordHead
  dsimp only
  simp only [List.length_append, leBytes_length, List.length_replicate, place]
  split
  · rw [length_placeBytes]
  · rfl

theorem length_recordImage (m0 : Nat) (c : CoreRef) (g : TileRun) (state : Nat) (t : Option TileFault) (tc : W64) :
    (recordImage m0 c g state t tc).length ≤ 0x2000 := by
  have ranges (l : List (Nat × Nat)) : (l.flatMap fun x => leBytes 4 x.1 ++ leBytes 4 x.2).length = 8 * l.length := by
    induction l with
    | nil => rfl
    | cons a l ih => rw [List.flatMap_cons, List.length_append, ih, List.length_append, leBytes_length, leBytes_length, List.length_cons]; omega
  have few : g.ranges.length ≤ 1016 := List.length_take_le ..
  rw [recordImage, List.length_append, length_recordHead, ranges]
  omega

/-- The pieces of a record that lies in the window stand there. -/
theorem pieces_near {a : W64} {b : List Byte} (form : addrForm a = 2) (low : addrOff a < 2 ^ 22) (short : b.length ≤ 0x2000) :
    ∀ e ∈ pieces a b, addrForm e.1 = 2 := by
  intro e mem
  obtain ⟨i, hi, rfl⟩ := List.mem_map.mp mem
  rw [List.mem_range] at hi
  generalize (if b.length % 8 = 0 then pieceSize a else 1) = p at hi ⊢
  have below : p * i < 0x2000 + 1 := by
    have : p * i ≤ p * (b.length / p) := Nat.mul_le_mul_left p (Nat.le_of_lt hi)
    have := Nat.mul_div_le b.length p
    omega
  unfold addrForm at form ⊢
  unfold addrOff at low
  rw [BitVec.toNat_add, BitVec.toNat_ofNat]
  omega

/-! ### Units of a core-level instruction (R288, R296) -/

theorem rangesOf_run (n f : Nat) : rangesOf ((List.range n).map fun i => f + i) = if n = 0 then [] else [(f, n)] := by
  induction n generalizing f with
  | zero => rfl
  | succ n ih =>
    have rest : ((List.range n).map Nat.succ).map (fun i => f + i) = (List.range n).map fun i => (f + 1) + i := by
      rw [List.map_map]
      exact List.map_congr_left fun i _ => by show f + (i + 1) = f + 1 + i; omega
    have step : rangesOf ((List.range (n + 1)).map fun i => f + i) = (match rangesOf ((List.range n).map fun i => (f + 1) + i) with
        | (a, k) :: t => if f + 0 + 1 = a then (f + 0, k + 1) :: t else (f + 0, 1) :: (a, k) :: t
        | [] => [(f + 0, 1)]) := by
      rw [List.range_succ_eq_map, List.map_cons, rest]
      unfold rangesOf
      rw [List.foldr_cons]
      split <;> simp only [*]
    rw [step, ih]
    by_cases zero : n = 0
    · simp [zero]
    · simp [zero]

theorem withoutUnits_all (n : Nat) : withoutUnits [] 0 n = if n = 0 then [] else [(0, n)] := by
  unfold withoutUnits
  have all : (((List.range n).map fun i => 0 + i).filter fun u => !([] : List Nat).contains u) = (List.range n).map fun i => 0 + i :=
    List.filter_eq_self.mpr fun u _ => rfl
  rw [all]
  exact rangesOf_run n 0

/-- All the units of a run go to its only leaf. -/
theorem distribute_single (m0 n : Nat) (w : Worker) :
    distribute m0 1 3 (withoutUnits [] 0 n) [w] = if n = 0 then [] else [⟨0, n, w⟩] := by
  rw [withoutUnits_all]
  by_cases zero : n = 0
  · rw [if_pos zero, if_pos zero]
    rfl
  · rw [if_neg zero, if_neg zero]
    have part : sliceUnits [(0, n)] 0 n = [(0, n)] := by simp [sliceUnits, takeUnits, zero]
    simp [distribute, part]

/-! ### TILE_START of a core-level instruction (R289, R290) -/

section

variable {c : CoreRef} {tok : Nat} {s : State} {x : Cmd} {opc : Nat} {ord rz : Bool}

theorem start_idle (there : s.tileAt c tok = some x)
    (idle : x.started = true ∨ x.deps ≠ [] ∨ (s.task (issuerOf c x)).stopped = true ∨ s.jobStopped x.job = true) :
    exec (.tileStart c tok) s = .next s := by
  have stays : (x.started || (s.task (x.taskRef c)).stopped || s.jobStopped x.job || !x.deps.isEmpty) = true := by
    have same : x.taskRef c = issuerOf c x := rfl
    rw [same]
    rcases idle with h | h | h | h
    · rw [h]; rfl
    · have some_deps : x.deps.isEmpty = false := by cases hd : x.deps with | nil => exact absurd hd h | cons => rfl
      rw [some_deps, Bool.not_false, Bool.or_true]
    · rw [h, Bool.or_true]; rfl
    · rw [h, Bool.or_true]; rfl
  show execTileStart c tok s = _
  simp only [execTileStart, there, stays, if_true]

/-- TILE_START of a command whose bindings have completed: it ends with a faulted one, or starts with its block. -/
theorem start_due (there : s.tileAt c tok = some x) (kind : x.kind = .tile opc ord rz) (unstarted : x.started = false)
    (bound : x.deps = []) (going : (s.task (issuerOf c x)).stopped = false) (active : s.jobStopped x.job = false) :
    (x.depFault.isSome = true → exec (.tileStart c tok) s = .next (s.endCmd c tok 0x43 (s.task (issuerOf c x)).time))
      ∧ ∀ b, x.run = none → x.depFault = none → s.readRun (x.issuer c tok) (x.fields.get 0 0) 128 = (s, .ok b) →
        exec (.tileStart c tok) s = .next (s.startRun c tok x (TileRun.fresh b) opc ord rz) := by
  have goes : (x.started || (s.task (x.taskRef c)).stopped || s.jobStopped x.job || !x.deps.isEmpty) = false := by
    have same : x.taskRef c = issuerOf c x := rfl
    rw [same, unstarted, going, active, bound]
    rfl
  refine ⟨fun fault => ?_, fun b run fault read => ?_⟩
  · show execTileStart c tok s = _
    simp only [execTileStart, there, goes, fault, Bool.false_eq_true, if_false, if_true]
    rfl
  · have none_final : (TileRun.fresh []).final.isSome = false := rfl
    have none_units : (TileRun.fresh []).units = 0 := rfl
    have none_block : (TileRun.fresh []).block = [] := rfl
    show execTileStart c tok s = _
    simp only [execTileStart, there, goes, fault, kind, run, Option.isSome_none, Option.getD_none, none_final, none_units, none_block,
      read, Bool.false_eq_true, if_false, ne_eq, not_true_eq_false]
    rfl

variable {g0 : TileRun} {d : List (List Byte)}

/-- A run with a good level and aligned descriptors is checked with them (R287, R289). -/
theorem startRun_checks (read : State.readDescs g0 (x.issuer c tok) [0, 1, 2, 3] s = (s, .ok d)) (fresh : g0.descs = [])
    (aligned : g0.descsAligned = true) (level : g0.level = 4) (compute : isCompute c.core = true) :
    s.startRun c tok x g0 opc ord rz = s.checkRun c tok x { g0 with descs := d } opc ord rz := by
  have named : mayName c.core 4 = true := by rw [mayName, compute]; rfl
  unfold State.startRun
  simp only [level, named, aligned, fresh, read, Nat.reduceEqDiff, Nat.reduceLeDiff, or_self, if_false, Bool.not_true,
    Bool.false_eq_true, ne_eq, not_true_eq_false]

/-- The record of a core-level run lies in the window when it may be written. -/
theorem records_near {g : TileRun} (form : addrForm g.record = 2) (level : g.level = 4)
    (good : s.writable (x.issuer c tok) g.record (g.recordSize s.module.toNat) = true) (m state : Nat) (t : Option TileFault) (tc : W64) :
    ∀ e ∈ g.records m c state t tc, addrForm e.1 = 2 := by
  have low : addrOff g.record < 2 ^ 22 := by
    unfold State.writable at good
    simp only [Bool.and_eq_true] at good
    have ok := good.1
    unfold addrOk at ok
    rw [form, Bool.and_eq_true, decide_eq_true_eq] at ok
    exact ok.1
  have own : g.records m c state t tc = pieces g.record (recordImage m c g state t tc) := by
    unfold TileRun.records
    exact if_pos (by rw [level]; decide)
  rw [own]
  exact pieces_near form low (length_recordImage ..)

theorem free_of_worked {w : State} (h : Worked s w) (free : ∀ o m v, s.spotHeld (.inside o) m v = false) :
    ∀ o m v, w.spotHeld (.inside o) m v = false :=
  free_of_tasks (fun k => (congrArg Core.tasks (h.cores k) :)) free

/-- The token of a run that may not start holds the cause (R290). -/
theorem failStart_fails {g : TileRun} (there : (s.core c).cmd tok = some x) (form : addrForm g.record = 2) (level : g.level = 4)
    (free : ∀ o m w, s.spotHeld (.inside o) m w = false) (cause : Nat) :
    ∃ tc, ((s.failStart c tok x g cause).core c).cmd tok = none
      ∧ ((s.failStart c tok x g cause).task (issuerOf c x)).token (if isCompute c.core then tok % 16 else tok)
        = ⟨if cause = 0 then .done else .faulted, cause, tc⟩ := by
  have slots {w : State} (h : Tiling s w) : ((w.core c).cmd tok).map Cmd.slot = some x.slot := by rw [h.slots, there]; rfl
  unfold State.failStart State.failWith
  split
  · next good =>
    have near := records_near form level good.2
    have record := tiling_lastRecord s c tok x g [] 2 (some ⟨0, cause, g.level, none⟩)
    have goes : (s.lastRecord c tok x g [] 2 (some ⟨0, cause, g.level, none⟩)).2.2.waits = false := by
      unfold State.lastRecord
      dsimp only
      rw [writeList_near rfl (near _ _ _ _) free]
      exact writeList_near rfl (near _ _ _ _) (free_of_worked (worked_tileTime ..) free)
    generalize s.lastRecord c tok x g [] 2 (some ⟨0, cause, g.level, none⟩) = w at record goes ⊢
    dsimp only
    rw [goes]
    obtain ⟨empty, token, -⟩ := endCmd_tells (slots record) cause w.2.1
    exact ⟨_, empty, token⟩
  · have time := Tiling.of_worked (worked_tileTime s (x.taskRef c) [] [])
    obtain ⟨empty, token, -⟩ := endCmd_tells (slots time) cause (s.tileTime (x.taskRef c) [] []).2
    exact ⟨_, empty, token⟩

/-- The units of a core-level run go to its own core (R288, R296). -/
theorem decompose_single {g : TileRun} (level : g.level = 4) (going : g.aborted = false) (done : g.done = []) (parts : g.parts = []) :
    ∃ t h, s.decompose c tok x g = t ∧ (t.core c).cmd tok = some { x with started := true, run := some h }
      ∧ h = { g with parts := if g.units = 0 then [] else [⟨0, g.units, .core c x.slot⟩], leaves := [.core c x.slot] } := by
  have own : s.candidates c x.slot 4 g.mask = [.core c x.slot] := rfl
  have willing : s.refuser [.core c x.slot] = none := rfl
  have kept : g.doneParts g.parts = [] := by rw [parts]; rfl
  unfold State.decompose
  simp only [going, Bool.false_eq_true, if_false, level, own, List.cons_ne_nil, if_true, done, Nat.reduceSub,
    distribute_single, willing, kept, List.nil_append]
  refine ⟨_, _, if_neg fun h => absurd ((show g.level = 0 from h.1).symm.trans level) (by decide), ?_, rfl⟩
  rw [State.core_modCore, Core.cmd, Core.setCmd, Tbl.get_set_same]

/-- A check that gives no cause has passed, as have those after it. -/
theorem passed_of_none {p : Prop} [Decidable p] {a : Nat} {rest : Option Nat} (h : (if p then some a else rest) = none) :
    ¬p ∧ rest = none := by
  split at h
  · cases h
  · next passed => exact ⟨passed, h⟩

/-- A core-level run that nothing forbids starts with all its units on its own core (R288, R290, R296). -/
theorem checkRun_starts {g : TileRun} (form : addrForm g.record = 2) (level : g.level = 4) (resumed : g.resumed = false)
    (going : g.aborted = false) (done : g.done = []) (parts : g.parts = [])
    (free : ∀ o m w, s.spotHeld (.inside o) m w = false) (good : s.startCause c tok x g opc ord rz = none) :
    ∃ seed, let n := g.tiles * g.chunks
      ((s.checkRun c tok x g opc ord rz).core c).cmd tok = some { x with started := true, run := some { g with
        units := n, seed := seed, parts := if n = 0 then [] else [⟨0, n, .core c x.slot⟩], leaves := [.core c x.slot] } } := by
  have writable : s.writable (x.issuer c tok) g.record (g.recordSize s.module.toNat) = true := by
    unfold State.startCause at good
    obtain ⟨-, good⟩ := passed_of_none good
    obtain ⟨-, good⟩ := passed_of_none good
    obtain ⟨-, good⟩ := passed_of_none good
    have passed := (passed_of_none good).1
    rw [not_or, Bool.not_eq_false] at passed
    exact passed.2
  have near := records_near form level writable
  unfold State.checkRun
  rw [good]
  dsimp only
  have raised := worked_raiseAgent (s := s) c.die (taskPos (x.taskRef c)) (s.task (x.taskRef c)).time
  generalize s.raiseAgent c.die (taskPos (x.taskRef c)) (s.task (x.taskRef c)).time = w at raised ⊢
  have goes : (w.noteDone c tok x { g with units := g.tiles * g.chunks, seed := w.freeCtr }).2.waits = false :=
    writeList_near rfl (near _ _ _ _) (free_of_worked raised free)
  rw [if_neg (by rw [resumed]; exact Bool.false_ne_true), if_neg (by rw [goes]; exact Bool.false_ne_true)]
  obtain ⟨t, h, rfl, cmd, rfl⟩ := decompose_single (c := c) (tok := tok) (x := x)
    (s := (w.noteDone c tok x { g with units := g.tiles * g.chunks, seed := w.freeCtr }).1.tookFree
      ({ g with units := g.tiles * g.chunks, seed := w.freeCtr } : TileRun).tiles)
    (g := { g with units := g.tiles * g.chunks, seed := w.freeCtr }) level going done parts
  exact ⟨w.freeCtr, cmd⟩

end

theorem worker_single {g : TileRun} {n u : Nat} {w : Worker} (parts : g.parts = if n = 0 then [] else [⟨0, n, w⟩])
    (some_units : ¬n = 0) (below : u < n) : g.worker u = some w := by
  have here : (decide (0 ≤ u) && decide (u < 0 + n)) = true := by simp [below]
  unfold TileRun.worker
  simp only [parts, if_neg some_units, List.find?_cons, here, Option.map_some]

/-- Settles O55: launches from `launches_dispatches`, the steps of a run from its `unitForms`, `foldTile` and `decompose`, its end
from what its last record leaves of commands and tile tasks (`Tiling`, `Frees`). -/
theorem launchesAndTileInstructionsRun : Obligations.LaunchesAndTileInstructionsRun := by
  refine ⟨fun n s absent => ⟨?_, ?_⟩, fun n s l here loaded => ⟨dispatch_idle here loaded, complete_idle here,
    dispatch_dispatches here loaded, complete_completes here⟩, fun c tok unit s none => no_tile unit none,
    fun c tok s x opc ord rz there kind => ?_, fun c tok s x g there run => ?_⟩
  · show execDispatchGroup n s = _
    simp only [execDispatchGroup, loadLaunch_none absent, absent]
  · show execLaunchComplete n s = _
    simp only [execLaunchComplete, absent]
  · have tile := tileAt_of_cmd there kind
    refine ⟨start_idle tile, fun unstarted bound going active => ?_⟩
    obtain ⟨faulted, started⟩ := start_due tile kind unstarted bound going active
    refine ⟨fun fault => ?_, ?_⟩
    · obtain ⟨ends, mem, -, -⟩ := endCmd_ends there 0x43 (s.task (issuerOf c x)).time
      exact ⟨_, faulted fault, ends, mem⟩
    · intro b d run fault read _ g0 descs aligned form level compute free g
      have step := started b run fault read
      rw [startRun_checks descs rfl aligned level compute] at step
      have inside : ∀ o m w, s.spotHeld (.inside o) m w = false := fun o => free (.inside o)
      refine ⟨fun cause refused => ?_, fun good => ?_⟩
      · obtain ⟨tc, empty, token⟩ := failStart_fails (g := { g0 with descs := d }) there form level inside cause
        refine ⟨_, tc, step, ?_⟩
        rw [State.checkRun, refused]
        rw [if_pos compute] at token
        exact ⟨empty, token⟩
      · obtain ⟨seed, cmd⟩ := checkRun_starts (g := { g0 with descs := d }) form level rfl rfl rfl rfl inside good
        refine ⟨_, _, _, step, cmd, rfl, rfl, rfl, rfl, rfl, rfl, rfl, rfl, rfl, rfl, rfl, fun u below => ?_⟩
        have some_units : ¬g.tiles * g.chunks = 0 := fun zero => Nat.not_lt_zero u (zero ▸ below)
        exact worker_single rfl some_units below
  · exact ⟨fun u => ⟨unit_idle there run, fun ready => ⟨unit_fails there run ready, unit_held there run ready,
      unit_written there run ready⟩⟩, fun n => ⟨fold_idle there run, fold_folds there run⟩, fun n => ⟨(lost_idle n there run).1,
      fun w child => ⟨(lost_idle n there run).2 w child, lost_moves n there run child⟩⟩, tile_completes_idle there run,
      fun final ended started going stores clean quiet s1 tc lines record answered =>
        tile_completes there run final ended started going stores clean quiet record answered⟩

end Sys2Proof

namespace Sys2Proof

open Machine

/-! ### Ports and links of a die -/

theorem stands_of {s t : State} (cores : t.cores = s.cores) (mem : t.mem = s.mem) : TasksAndMemoryStand s t :=
  ⟨fun q => by rw [State.task?, State.task?, State.core, State.core, cores], mem⟩

theorem die_modLink (s : State) (d l : Nat) (f : Link → Link) : (s.modLink d l f).die d =
    { s.die d with links := Tbl.set Link.reset (s.die d).links l (f ((s.die d).link l)) } := by rw [State.modLink, State.die_modDie]

theorem die_modPort (s : State) (d r p : Nat) (f : Port → Port) : (s.modPort d r p f).die d =
    { s.die d with pavs := Tbl.set Pavilion.reset (s.die d).pavs r (((s.die d).pav r).modPort p f) } := by
  rw [State.modPort, State.modPav, State.die_modDie]

theorem pav_modLink (s : State) (d l r : Nat) (f : Link → Link) : ((s.modLink d l f).die d).pav r = (s.die d).pav r := by
  rw [die_modLink]
  rfl

theorem link_modPort (s : State) (d r p l : Nat) (f : Port → Port) : ((s.modPort d r p f).die d).link l = (s.die d).link l := by
  rw [die_modPort]
  rfl

theorem pav_modPort (s : State) (d r p : Nat) (f : Port → Port) :
    ((s.modPort d r p f).die d).pav r = ((s.die d).pav r).modPort p f := by
  rw [die_modPort, Die.pav, Tbl.get_set_same]

theorem port_modPort (s : State) (d r p : Nat) (f : Port → Port) :
    (((s.modPort d r p f).die d).pav r).port p = f (((s.die d).pav r).port p) := by
  rw [pav_modPort, Pavilion.modPort, Pavilion.port, Tbl.get_set_same]

theorem die_modLink_other (s : State) {d k : Nat} (l : Nat) (f : Link → Link) (h : k ≠ d) : (s.modLink d l f).die k = s.die k :=
  State.die_modDie_other s _ h

/-- Records posted and their marks: no core, byte, step to come, link or queue of a port changes. -/
structure Records (s t : State) : Prop where
  cores : t.cores = s.cores
  mem : t.mem = s.mem
  agenda : t.agenda = s.agenda
  outbound : t.outbound = s.outbound
  links : ∀ d, (t.die d).links = (s.die d).links
  pavs : ∀ d, (t.die d).pavs = (s.die d).pavs
  floss : ∀ d, (t.die d).gate.floss = (s.die d).gate.floss

theorem Records.refl (s : State) : Records s s := ⟨rfl, rfl, rfl, rfl, fun _ => rfl, fun _ => rfl, fun _ => rfl⟩

theorem Records.trans {s t u : State} (h : Records s t) (k : Records t u) : Records s u :=
  ⟨k.cores.trans h.cores, k.mem.trans h.mem, k.agenda.trans h.agenda, k.outbound.trans h.outbound,
    fun d => (k.links d).trans (h.links d), fun d => (k.pavs d).trans (h.pavs d), fun d => (k.floss d).trans (h.floss d)⟩

theorem records_modDie (s : State) (d : Nat) (f : Die → Die)
    (h : ∀ x, (f x).links = x.links ∧ (f x).pavs = x.pavs ∧ (f x).gate.floss = x.gate.floss) : Records s (s.modDie d f) := by
  have same : ∀ k, ((s.modDie d f).die k).links = (s.die k).links ∧ ((s.modDie d f).die k).pavs = (s.die k).pavs
      ∧ ((s.modDie d f).die k).gate.floss = (s.die k).gate.floss := fun k => by
    by_cases hk : k = d
    · rw [hk, State.die_modDie]
      exact h _
    · rw [State.die_modDie_other _ _ hk]
      exact ⟨rfl, rfl, rfl⟩
  exact ⟨rfl, rfl, rfl, rfl, fun k => (same k).1, fun k => (same k).2.1, fun k => (same k).2.2⟩

theorem shiftUp_rest (d : Die) (p n : Nat) : { d.shiftUp p n with events := [] } = { d with events := [] } := by
  induction n generalizing d with
  | zero => rfl
  | succ n ih => exact (ih _).trans rfl

/-- What a die has beside its event queue and its counters. -/
theorem enqueue_rest (d : Die) (e : EventRec) : (d.enqueue e).links = d.links ∧ (d.enqueue e).pavs = d.pavs
    ∧ (d.enqueue e).gate.floss = d.gate.floss := by
  have shifted := shiftUp_rest d (d.placeOf e d.lodge.eqtail d.lodge.held)
    ((d.lodge.eqtail + 512 - d.placeOf e d.lodge.eqtail d.lodge.held) % 512)
  unfold Die.enqueue
  exact ⟨(congrArg Die.links shifted :), (congrArg Die.pavs shifted :), (congrArg (fun d : Die => d.gate.floss) shifted :)⟩

theorem records_post (s : State) (d : Nat) (e : EventRec) : Records s (s.post d e) :=
  records_modDie s d _ fun x => by
    unfold Die.post
    split_ifs
    · exact enqueue_rest ..
    · exact ⟨rfl, rfl, rfl⟩
    · exact ⟨rfl, rfl, rfl⟩
    · exact enqueue_rest ..
    · exact ⟨rfl, rfl, rfl⟩

theorem records_postFault (s : State) (die agent slot job cause : Nat) (info lidx : W64) :
    Records s (s.postFault die agent slot job cause info lidx) := by
  refine Records.trans (t := s.modDie die (Die.noteFault agent cause)) (records_modDie s die _ fun x => ?_) (records_post ..)
  unfold Die.noteFault
  dsimp only
  split_ifs <;> exact ⟨rfl, rfl, rfl⟩

theorem records_postLoss (s : State) (die l job : Nat) : Records s (s.postLoss die l job) := records_postFault ..

theorem records_countKey (s : State) (die l before : Nat) : Records s (s.countKey die l before) := by
  unfold State.countKey
  dsimp only
  split_ifs
  · exact records_post ..
  · exact records_post ..
  · exact .refl s

theorem Records.link {s t : State} (h : Records s t) (d l : Nat) : (t.die d).link l = (s.die d).link l := by
  rw [Die.link, h.links, ← Die.link]

theorem Records.pav {s t : State} (h : Records s t) (d r : Nat) : (t.die d).pav r = (s.die d).pav r := by
  rw [Die.pav, h.pavs, ← Die.pav]

/-- What leaves a port: it comes next at the other end of a package-ring hop, or is out of the module. -/
structure Leaves (s t : State) : Prop where
  cores : t.cores = s.cores
  mem : t.mem = s.mem
  dies : t.dies = s.dies
  sent : t.sent = s.sent

theorem Leaves.refl (s : State) : Leaves s s := ⟨rfl, rfl, rfl, rfl⟩

theorem Leaves.trans {s t u : State} (h : Leaves s t) (k : Leaves t u) : Leaves s u :=
  ⟨k.cores.trans h.cores, k.mem.trans h.mem, k.dies.trans h.dies, k.sent.trans h.sent⟩

theorem Leaves.die {s t : State} (h : Leaves s t) (d : Nat) : t.die d = s.die d := by rw [State.die, h.dies, ← State.die]

theorem leaves_onWire (s : State) (die l : Nat) (w : WireCell) : Leaves s (s.onWire die l w) := by
  unfold State.onWire
  split <;> exact ⟨rfl, rfl, rfl, rfl⟩

theorem agenda_onWire {s : State} {die l : Nat} (w : WireCell) {y : PortRef} (peer : ringPeer die l = some y) :
    (s.onWire die l w).agenda = s.agenda ++ [.linkCellReceive y w] := by
  rw [State.onWire, peer] <;> rfl

theorem outbound_onWire {s : State} {die l : Nat} {w : WireCell} (rack : ringPeer die l = none) (straight : w.wrap = false) :
    (s.onWire die l w).outbound = s.outbound ++ [(die, l - 2, s.wireBytes die l w)] := by
  rw [State.onWire, rack]
  simp only [straight, Bool.false_eq_true, if_false]

theorem leaves_control (s : State) (die l what n : Nat) (i : PortRef → Event) : Leaves s (s.control die l what n i) := by
  unfold State.control
  split
  · exact ⟨rfl, rfl, rfl, rfl⟩
  · exact leaves_onWire ..

theorem agenda_control {s : State} {die l : Nat} (what n : Nat) (i : PortRef → Event) {y : PortRef} (peer : ringPeer die l = some y) :
    (s.control die l what n i).agenda = s.agenda ++ [i y] := by
  rw [State.control, peer] <;> rfl

/-- Cells sent again over a link, in order (R344). -/
theorem resend_sends (s : State) (die l : Nat) (cells : List (Nat × Nat × Cell)) : Leaves s (s.resend die l cells)
    ∧ ∀ y, ringPeer die l = some y → (s.resend die l cells).agenda = s.agenda ++ cells.map fun x =>
      .linkCellReceive y ⟨x.1, x.2.1, decide (((s.die die).link l).st = 3), true, true, x.2.2⟩ := by
  unfold State.resend
  induction cells generalizing s with
  | nil => exact ⟨.refl s, fun _ _ => (List.append_nil _).symm⟩
  | cons x cells ih =>
    rw [List.foldl_cons]
    have one := leaves_onWire s die l ⟨x.1, x.2.1, decide (((s.die die).link l).st = linkFailed), true, true, x.2.2⟩
    obtain ⟨rest, agenda⟩ := ih (s.onWire die l ⟨x.1, x.2.1, decide (((s.die die).link l).st = linkFailed), true, true, x.2.2⟩)
    refine ⟨one.trans rest, fun y peer => ?_⟩
    rw [agenda y peer, agenda_onWire _ peer, one.die, List.append_assoc]
    rfl

end Sys2Proof

namespace Sys2Proof

open Machine

/-! ### Steps of a link (R344 to R349) -/

/-- A port that is no ring or rack port has no link. -/
theorem no_link {p : PortRef} (w : WireCell) (n : Nat) (s : State) (none : linkOf p = none) :
    ∀ i ∈ [Instr.linkCellReceive p w, .linkAck p n, .replayRequest p n, .linkSignalLoss p, .retrainTimeout p, .moduleLoss p,
      .keyMarker p n, .keyRefusal p, .linkTrained p], exec i s = .next s := by
  intro i mem
  simp only [List.mem_cons, List.not_mem_nil, or_false] at mem
  rcases mem with rfl | rfl | rfl | rfl | rfl | rfl | rfl | rfl | rfl
  · show execLinkCellReceive p w s = _
    simp only [execLinkCellReceive, none]
  · show execLinkAck p n s = _
    simp only [execLinkAck, none]
  · show execReplayRequest p n s = _
    simp only [execReplayRequest, none]
  · show execLinkSignalLoss p s = _
    simp only [execLinkSignalLoss, none]
  · show execRetrainTimeout p s = _
    simp only [execRetrainTimeout, none]
  · show execModuleLoss p s = _
    simp only [execModuleLoss, none]
  · show execKeyMarker p n s = _
    simp only [execKeyMarker, none]
  · show execKeyRefusal p s = _
    simp only [execKeyRefusal, none]
  · show execLinkTrained p s = _
    simp only [execLinkTrained, none]

section

variable {p : PortRef} {l : Nat} {s : State} (link : linkOf p = some l)

theorem link_at (s : State) (d l : Nat) (f : Link → Link) : ((s.modLink d l f).die d).link l = f ((s.die d).link l) := by
  rw [die_modLink, Die.link, Tbl.get_set_same]

/-- A lodge's switch of a port ends: no byte and no die changes. -/
theorem endSwitch_keeps (s : State) (die l status : Nat) : (s.endSwitch die l status).mem = s.mem ∧ (s.endSwitch die l status).dies = s.dies := by
  unfold State.endSwitch
  dsimp only
  split
  · split
    · split <;> exact ⟨rfl, rfl⟩
    · exact ⟨rfl, rfl⟩
  · exact ⟨rfl, rfl⟩

include link

theorem linkAck_acks (n : Nat) : ∃ t, exec (.linkAck p n) s = .next t ∧ t.mem = s.mem
    ∧ ((t.die p.die).link l).retry = ((s.die p.die).link l).retry.filter (fun x => !eseqLe x.1 n)
    ∧ ((t.die p.die).link l).switching = (if ((s.die p.die).link l).switching.isSome ∧ eseqLe ((s.die p.die).link l).markEseq n = true then none
      else ((s.die p.die).link l).switching) := by
  have step : exec (.linkAck p n) s = execLinkAck p n s := rfl
  simp only [execLinkAck, link] at step
  refine ⟨_, step, ?_⟩
  split
  · obtain ⟨mem, dies⟩ := endSwitch_keeps ((s.modLink p.die l (Link.acked n)).modLink p.die l fun k => { k with switching := none }) p.die l 0
    have die := congrArg (fun m : Tbl Die => m.get Die.reset p.die) dies
    have here : (State.endSwitch ((s.modLink p.die l (Link.acked n)).modLink p.die l fun k => { k with switching := none }) p.die l 0).die p.die
      = ((s.modLink p.die l (Link.acked n)).modLink p.die l fun k => { k with switching := none }).die p.die := die
    rw [here, link_at, link_at]
    exact ⟨mem, rfl, rfl⟩
  · rw [link_at]
    exact ⟨rfl, rfl, rfl⟩

theorem replayRequest_replays (n : Nat) (y : PortRef) (peer : ringPeer p.die l = some y) : ∃ t, exec (.replayRequest p n) s = .next t
    ∧ TasksAndMemoryStand s t ∧ (t.die p.die).link l = { (s.die p.die).link l with replays := ((s.die p.die).link l).replays + 1 }
    ∧ t.agenda = s.agenda ++ (((s.die p.die).link l).retry.filter fun x => eseqLe n x.1).map fun x =>
      .linkCellReceive y ⟨x.1, x.2.1, decide (((s.die p.die).link l).st = 3), true, true, x.2.2⟩ := by
  have step : exec (.replayRequest p n) s = execReplayRequest p n s := rfl
  simp only [execReplayRequest, link, link_at] at step
  obtain ⟨leaves, agenda⟩ := resend_sends (s.modLink p.die l fun k => { k with replays := k.replays + 1 }) p.die l
    (((s.die p.die).link l).retry.filter fun x => eseqLe n x.1)
  refine ⟨_, step, stands_of leaves.cores leaves.mem, by rw [leaves.die, link_at], ?_⟩
  rw [agenda y peer, link_at]
  rfl

theorem linkTrained_trains : ∃ t, exec (.linkTrained p) s = .next t ∧ TasksAndMemoryStand s t
    ∧ (t.die p.die).link l = { (s.die p.die).link l with st := 2, wrapped := false, fails := 0, authFails := 0 }
    ∧ ∀ y, ringPeer p.die l = some y → t.agenda = s.agenda
      ++ (((s.die p.die).link l).retry.filter fun x => eseqLe ((s.die y.die).link (1 - l)).rxEseq x.1).map fun x =>
        .linkCellReceive y ⟨x.1, x.2.1, false, true, true, x.2.2⟩ := by
  have step : exec (.linkTrained p) s = execLinkTrained p s := rfl
  simp only [execLinkTrained, link, link_at] at step
  obtain ⟨leaves, agenda⟩ := resend_sends (s.modLink p.die l fun k => { k with st := linkUp, wrapped := false, fails := 0, authFails := 0 })
    p.die l (((s.die p.die).link l).retry.filter fun x => eseqLe (State.expected (s.modLink p.die l fun k =>
      { k with st := linkUp, wrapped := false, fails := 0, authFails := 0 }) p.die l) x.1)
  refine ⟨_, step, stands_of leaves.cores leaves.mem, by rw [leaves.die, link_at]; rfl, fun y peer => ?_⟩
  have expected : State.expected (s.modLink p.die l fun k => { k with st := linkUp, wrapped := false, fails := 0, authFails := 0 }) p.die l
      = ((s.die y.die).link (1 - l)).rxEseq := by
    have same : ((s.modLink p.die l fun k => { k with st := linkUp, wrapped := false, fails := 0, authFails := 0 }).die y.die).link (1 - l)
        = (s.die y.die).link (1 - l) := by
      by_cases die : y.die = p.die
      · have apart : ¬1 - l = l := by omega
        rw [die, die_modLink, Die.link, Tbl.get_set_other _ _ _ apart, ← Die.link]
      · rw [die_modLink_other _ _ _ die]
    rw [State.expected, peer]
    exact congrArg Link.rxEseq same
  rw [agenda y peer, link_at, expected]
  rfl

theorem keyMarker_marks (n : Nat) :
    (((s.die p.die).link l).hasKey (2 + n % 2) = true → ∃ t, exec (.keyMarker p n) s = .next t ∧ TasksAndMemoryStand s t
      ∧ (t.die p.die).link l = { (s.die p.die).link l with rxAct := n % 2 })
    ∧ (((s.die p.die).link l).hasKey (2 + n % 2) = false → ∃ t, exec (.keyMarker p n) s = .next t ∧ TasksAndMemoryStand s t
      ∧ t.dies = s.dies) := by
  have step : exec (.keyMarker p n) s = execKeyMarker p n s := rfl
  simp only [execKeyMarker, link] at step
  refine ⟨fun key => ?_, fun bare => ?_⟩
  · rw [if_pos key] at step
    exact ⟨_, step, stands_of rfl rfl, link_at ..⟩
  · rw [if_neg (by rw [bare]; exact Bool.false_ne_true)] at step
    have leaves := leaves_control s p.die l 2 0 fun q => .keyRefusal q
    exact ⟨_, step, stands_of leaves.cores leaves.mem, leaves.dies⟩

theorem keyRefusal_idle (none : ((s.die p.die).link l).switching = none) : exec (.keyRefusal p) s = .next s := by
  show execKeyRefusal p s = _
  simp only [execKeyRefusal, link, none, if_true]

theorem keyRefusal_returns (switching : ((s.die p.die).link l).switching ≠ none) : ∃ t, exec (.keyRefusal p) s = .next t ∧ t.mem = s.mem
    ∧ ((t.die p.die).link l).txAct = 1 - ((s.die p.die).link l).txAct % 2
    ∧ ((t.die p.die).link l).switching = none ∧ ((t.die p.die).link l).liveOld = false := by
  have step : exec (.keyRefusal p) s = execKeyRefusal p s := rfl
  simp only [execKeyRefusal, link, if_neg switching] at step
  refine ⟨_, step, ?_⟩
  have counted := records_countKey (s.modLink p.die l Link.refused) p.die l ((s.die p.die).link l).icntOld
  have linkW : (((s.modLink p.die l Link.refused).countKey p.die l ((s.die p.die).link l).icntOld).die p.die).link l
      = Link.refused ((s.die p.die).link l) := by rw [counted.link, link_at]
  have memW := counted.mem
  generalize (s.modLink p.die l Link.refused).countKey p.die l ((s.die p.die).link l).icntOld = w at linkW memW ⊢
  have leaves := (resend_sends w p.die l (((w.die p.die).link l).retry.filter fun x => !eseqLe x.1 ((s.die p.die).link l).markEseq)).1
  generalize w.resend p.die l (((w.die p.die).link l).retry.filter fun x => !eseqLe x.1 ((s.die p.die).link l).markEseq) = v at leaves ⊢
  obtain ⟨mem, dies⟩ := endSwitch_keeps v p.die l 3
  have linkT : ((v.endSwitch p.die l 3).die p.die).link l = Link.refused ((s.die p.die).link l) := by
    rw [State.die, dies, ← State.die, leaves.die, linkW]
  rw [linkT]
  exact ⟨(mem.trans leaves.mem).trans memW, rfl, rfl, rfl⟩

end

end Sys2Proof

namespace Sys2Proof

open Machine

/-! ### Links that fail and neighbours that are lost (R345, R346) -/

/-- Ends of links fail: no core and no byte changes, and a failed end stays failed. -/
structure Fails (s t : State) : Prop where
  cores : t.cores = s.cores
  mem : t.mem = s.mem
  failed : ∀ d l, ((s.die d).link l).st = 3 → ((t.die d).link l).st = 3

theorem Fails.refl (s : State) : Fails s s := ⟨rfl, rfl, fun _ _ h => h⟩

theorem Fails.trans {s t u : State} (h : Fails s t) (k : Fails t u) : Fails s u :=
  ⟨k.cores.trans h.cores, k.mem.trans h.mem, fun d l f => k.failed d l (h.failed d l f)⟩

theorem Fails.of_records {s t : State} (h : Records s t) : Fails s t :=
  ⟨h.cores, h.mem, fun d l f => by rw [h.link]; exact f⟩

theorem Fails.of_leaves {s t : State} (h : Leaves s t) : Fails s t :=
  ⟨h.cores, h.mem, fun d l f => by rw [h.die]; exact f⟩

theorem Fails.foldl {α : Type} (step : State → α → State) (each : ∀ t a, Fails t (step t a)) (s : State) (l : List α) :
    Fails s (l.foldl step s) := by
  induction l generalizing s with
  | nil => exact .refl _
  | cons a l ih => exact (each s a).trans (ih _)

theorem fails_modLink (s : State) (d l : Nat) (f : Link → Link) (h : ∀ k, (f k).st = 3) : Fails s (s.modLink d l f) := by
  refine ⟨rfl, rfl, fun d' l' failed => ?_⟩
  by_cases die : d' = d
  · rw [die] at failed ⊢
    by_cases port : l' = l
    · rw [port, link_at]
      exact h _
    · rw [die_modLink, Die.link, Tbl.get_set_other _ _ _ port]
      exact failed
  · rw [die_modLink_other _ _ _ die]
    exact failed

theorem failEnd_fails (s : State) (d l : Nat) : Fails s (s.failEnd d l) ∧ (((s.failEnd d l).die d).link l).st = 3 := by
  unfold State.failEnd
  dsimp only
  split
  · next failed => exact ⟨.refl s, failed⟩
  · have marked := fails_modLink s d l (fun k => { k with st := linkFailed, wrapped := true }) fun _ => rfl
    have here : (((s.modLink d l fun k => { k with st := linkFailed, wrapped := true }).die d).link l).st = 3 := by rw [link_at]; rfl
    have posted := Fails.of_records (records_postFault (s.modLink d l fun k => { k with st := linkFailed, wrapped := true }) d
      (0xA0 + linkBlock l) 0 0 0x88 (linkInfo l) noLidx)
    have before := marked.trans posted
    have there := posted.failed d l here
    split
    · have rest := Fails.foldl (fun s (x : Nat × Nat × Cell) => s.onWire d l ⟨x.1, x.2.1, true, true, true, x.2.2⟩)
        (fun t x => .of_leaves (leaves_onWire ..)) ((s.modLink d l fun k => { k with st := linkFailed, wrapped := true }).postFault d
          (0xA0 + linkBlock l) 0 0 0x88 (linkInfo l)) ((s.die d).link l).retry
      exact ⟨before.trans rest, rest.failed d l there⟩
    · have rest := Fails.foldl (fun s j => s.postLoss d l j)
        (fun t j => .of_records (records_postLoss ..)) ((s.modLink d l fun k => { k with st := linkFailed, wrapped := true }).postFault d
          (0xA0 + linkBlock l) 0 0 0x88 (linkInfo l)) (((((s.die d).link l).retry.map fun x => x.2.2).filter flowTyped).map Cell.job).dedup
      exact ⟨before.trans rest, rest.failed d l there⟩

theorem linkOf_east (d : Nat) : linkOf (portAt d eastRouter 5) = some 1 := rfl
theorem linkOf_west (d : Nat) : linkOf (portAt d westRouter 5) = some 0 := rfl

/-- A link fails at both of its ends in this module. -/
theorem failLink_fails (s : State) (d l : Nat) : Fails s (s.failLink d l) ∧ (((s.failLink d l).die d).link l).st = 3
    ∧ ∀ y m, ringPeer d l = some y → linkOf y = some m → (((s.failLink d l).die y.die).link m).st = 3 := by
  obtain ⟨first, here⟩ := failEnd_fails s d l
  unfold State.failLink
  dsimp only
  split
  · obtain ⟨second, there⟩ := failEnd_fails (s.failEnd d 0) ((d + 7) % 8) 1
    refine ⟨first.trans second, second.failed d 0 here, fun y m peer port => ?_⟩
    obtain rfl : portAt ((d + 7) % 8) eastRouter 5 = y := Option.some.inj peer
    obtain rfl : 1 = m := Option.some.inj ((linkOf_east _).symm.trans port)
    exact there
  · obtain ⟨second, there⟩ := failEnd_fails (s.failEnd d 1) ((d + 1) % 8) 0
    refine ⟨first.trans second, second.failed d 1 here, fun y m peer port => ?_⟩
    obtain rfl : portAt ((d + 1) % 8) westRouter 5 = y := Option.some.inj peer
    obtain rfl : 0 = m := Option.some.inj ((linkOf_west _).symm.trans port)
    exact there
  · next rack0 rack1 =>
    refine ⟨first, here, fun y m peer _ => ?_⟩
    unfold ringPeer at peer
    split at peer
    · exact absurd rfl rack0
    · exact absurd rfl rack1
    · cases peer

/-- One job told of a lost neighbour: its fault is posted and its collectives are to end (R346). -/
def lostTo (die l : Nat) (s : State) (j : Nat) : State := { s.postLoss die l j with agenda := s.agenda ++ s.losses j }

/-- The losses counted, which the manual leaves open (R346). -/
def lossCounted (die : Nat) (s : State) : State := (s.modGate die fun g => { g with floss := g.floss + Config.freeWord s.freeCtr }).tookFree

theorem die_lossCounted (die : Nat) (s : State) : (lossCounted die s).die die =
    { s.die die with gate := { (s.die die).gate with floss := (s.die die).gate.floss + Config.freeWord s.freeCtr } } := by
  refine Eq.trans (b := (s.modGate die fun g => { g with floss := g.floss + Config.freeWord s.freeCtr }).die die) rfl ?_
  rw [State.modGate, State.die_modDie]

/-- What jobs told of a loss leave as it was. -/
structure Told (s t : State) : Prop where
  cores : t.cores = s.cores
  mem : t.mem = s.mem
  links : ∀ d, (t.die d).links = (s.die d).links
  floss : ∀ d, (t.die d).gate.floss = (s.die d).gate.floss

theorem lostTo_keeps (die l : Nat) (jobs : List Nat) (s : State) : Told s (jobs.foldl (lostTo die l) s) := by
  induction jobs generalizing s with
  | nil => exact ⟨rfl, rfl, fun _ => rfl, fun _ => rfl⟩
  | cons j jobs ih =>
    have one := records_postLoss s die l j
    have step : Told s (lostTo die l s j) := ⟨one.cores, one.mem, one.links, one.floss⟩
    have rest := ih (lostTo die l s j)
    rw [List.foldl_cons]
    exact ⟨rest.cores.trans step.cores, rest.mem.trans step.mem, fun d => (rest.links d).trans (step.links d),
      fun d => (rest.floss d).trans (step.floss d)⟩

section

variable {p : PortRef} {l : Nat} {s : State} (link : linkOf p = some l)

/-- A step after which a link is down at both of its ends in this module, every task and byte standing. -/
def TakesDown (p : PortRef) (l : Nat) (s : State) (i : Instr) : Prop :=
  ∃ t, exec i s = .next t ∧ TasksAndMemoryStand s t ∧ ((t.die p.die).link l).st = 3
    ∧ ∀ y m, ringPeer p.die l = some y → linkOf y = some m → ((t.die y.die).link m).st = 3

include link

theorem signalLoss_fails : TakesDown p l s (.linkSignalLoss p) := by
  have step : exec (.linkSignalLoss p) s = execLinkSignalLoss p s := rfl
  simp only [execLinkSignalLoss, link] at step
  obtain ⟨fails, here, there⟩ := failLink_fails s p.die l
  exact ⟨_, step, stands_of fails.cores fails.mem, here, there⟩

theorem retrainTimeout_fails (down : ((s.die p.die).link l).st ≠ 2) : TakesDown p l s (.retrainTimeout p) := by
  have step : exec (.retrainTimeout p) s = execRetrainTimeout p s := rfl
  simp only [execRetrainTimeout, link] at step
  rw [if_neg (show ¬((s.die p.die).link l).st = linkUp from down)] at step
  obtain ⟨fails, here, there⟩ := failLink_fails s p.die l
  exact ⟨_, step, stands_of fails.cores fails.mem, here, there⟩

theorem retrainTimeout_idle (up : ((s.die p.die).link l).st = 2) : exec (.retrainTimeout p) s = .next s := by
  show execRetrainTimeout p s = _
  simp only [execRetrainTimeout, link]
  rw [if_pos (show ((s.die p.die).link l).st = linkUp from up)]

/-- MODULE_LOSS: the loss is counted, and the link knows no job's cells any more (R346). -/
theorem moduleLoss_counts : ∃ t, exec (.moduleLoss p) s = .next t ∧ TasksAndMemoryStand s t
    ∧ (t.die p.die).link l = { (s.die p.die).link l with jobs := [] }
    ∧ (t.die p.die).gate.floss = (s.die p.die).gate.floss + Config.freeWord s.freeCtr := by
  have step : exec (.moduleLoss p) s = .next ((((s.die p.die).link l).jobs.foldl (lostTo p.die l) (lossCounted p.die s)).modLink p.die l
      fun k => { k with jobs := [] }) := by
    show execModuleLoss p s = _
    unfold execModuleLoss
    rw [link] <;> rfl
  have told := lostTo_keeps p.die l ((s.die p.die).link l).jobs (lossCounted p.die s)
  have gate := die_lossCounted p.die s
  have base : (lossCounted p.die s).cores = s.cores ∧ (lossCounted p.die s).mem = s.mem := ⟨rfl, rfl⟩
  refine ⟨_, step, ?_⟩
  generalize lossCounted p.die s = w at told gate base ⊢
  generalize ((s.die p.die).link l).jobs.foldl (lostTo p.die l) w = v at told ⊢
  have linkV : (v.die p.die).link l = (s.die p.die).link l := by rw [Die.link, told.links, gate]; rfl
  refine ⟨stands_of (told.cores.trans base.1) (told.mem.trans base.2), by rw [link_at, linkV], ?_⟩
  rw [die_modLink]
  exact (told.floss p.die).trans (congrArg (fun d : Die => d.gate.floss) gate)

/-! ### Refusal and circulation (R340) -/

omit link in
theorem ringRefusal_circulates (c : Cell) (new : c.circ = false) : ∃ t, exec (.ringRefusal p c) s = .next t ∧ TasksAndMemoryStand s t
    ∧ (((t.die p.die).pav (portRouter p)).port p.port).circ
      = (((s.die p.die).pav (portRouter p)).port p.port).circ ++ [{ c with circ := true }] := by
  have step : exec (.ringRefusal p c) s = execRingRefusal p c s := rfl
  simp only [execRingRefusal, new, Bool.false_eq_true, if_false] at step
  exact ⟨_, step, stands_of rfl rfl, by rw [State.circulate, port_modPort]⟩

theorem ringRefusal_nacks (c : Cell) (y : PortRef) (again : c.circ = true) (peer : ringPeer p.die l = some y) :
    exec (.ringRefusal p c) s = .next { s with agenda := s.agenda ++ [.nack y { c with circ := false }] } := by
  show execRingRefusal p c s = _
  simp only [execRingRefusal, again, if_true, State.sendNack, link, peer]
  rfl

theorem nack_queues (c : Cell) (going : s.jobStopped c.job = false) : ∃ t, exec (.nack p c) s = .next t ∧ TasksAndMemoryStand s t
    ∧ (t.die p.die).link l = { (s.die p.die).link l with nacks := ((s.die p.die).link l).nacks + 1 }
    ∧ (((t.die p.die).pav (portRouter p)).port p.port).nackq
      = (((s.die p.die).pav (portRouter p)).port p.port).nackq ++ [{ c with circ := false }] := by
  have step : exec (.nack p c) s = execNack p c s := rfl
  have goes : (s.modLink p.die l fun k => { k with nacks := k.nacks + 1 }).jobStopped c.job = false := going
  simp only [execNack, State.takeNack, link, goes, Bool.false_and, Bool.false_eq_true, if_false] at step
  refine ⟨_, step, stands_of rfl rfl, by rw [link_modPort, link_at], by rw [port_modPort, pav_modLink]⟩

theorem nackResend_waits (c : Cell) (rest : List Cell)
    (queue : (((s.die p.die).pav (portRouter p)).port p.port).nackq = c :: rest) (going : s.jobStopped c.job = false)
    (frame : ((s.die p.die).link l).slotTime % 64 = 0) : ∃ t, exec (.nackResend p) s = .next t
      ∧ TasksAndMemoryStand s t ∧ (t.die p.die).link l = (s.die p.die).link l
      ∧ ((t.die p.die).pav (portRouter p)).port p.port = { ((s.die p.die).pav (portRouter p)).port p.port with
        nackq := rest, out := (((s.die p.die).pav (portRouter p)).port p.port).out ++ [(8, c)] } := by
  have step : exec (.nackResend p) s = execNackResend p s := rfl
  have start : s.frameStart p = true := by rw [State.frameStart, link]; exact decide_eq_true frame
  simp only [execNackResend, start, Bool.not_true, Bool.false_eq_true, if_false, queue, takeFirst, going, Bool.not_false, if_true] at step
  exact ⟨_, step, stands_of rfl rfl, link_modPort .., port_modPort ..⟩

theorem nackResend_idle (idle : (((s.die p.die).pav (portRouter p)).port p.port).nackq = [] ∨ ((s.die p.die).link l).slotTime % 64 ≠ 0) :
    exec (.nackResend p) s = .next s := by
  show execNackResend p s = _
  unfold execNackResend
  split
  · rfl
  · next start =>
    have frame : ((s.die p.die).link l).slotTime % 64 = 0 := by
      rw [Bool.not_eq_true', Bool.not_eq_false, State.frameStart, link] at start
      exact of_decide_eq_true start
    rw [idle.resolve_right (not_not_intro frame)]
    rfl

end

end Sys2Proof

namespace Sys2Proof

open Machine

/-! ### What a port sends (R335, R336, R344) -/

section

variable {p : PortRef} {l : Nat} {s : State}

/-- A local port takes the first cell of its first core's send buffer (R328). -/
theorem slotSend_local (c : Nat) (x : Cell) (rest : List Cell) (port : p.port = 4) (running : s.fatal = none)
    (first : (coresAt (portRouter p)).head? = some c) (buffer : (s.core ⟨p.die, c⟩).sendBuf = x :: rest)
    (going : s.jobStopped x.job = false) (router : coreRouter c = portRouter p) :
    ∃ t, exec (.slotSend p) s = .next t ∧ TasksAndMemoryStand s t ∧ (t.core ⟨p.die, c⟩).sendBuf = rest
      ∧ (((t.die p.die).pav (portRouter p)).port 4).fifo = (((s.die p.die).pav (portRouter p)).port p.port).fifo ++ [x] := by
  have bare : linkOf p = none := by simp [linkOf, port]
  have found : ((coresAt (portRouter p)).find? fun c => match (s.core ⟨p.die, c⟩).sendBuf with
      | [] => false
      | x :: _ => !s.jobStopped x.job) = some c := by
    cases hc : coresAt (portRouter p) with
    | nil => rw [hc] at first; cases first
    | cons k ks =>
      rw [hc] at first
      obtain rfl : k = c := Option.some.inj first
      rw [List.find?_cons]
      simp only [buffer, going, Bool.not_false]
  have step : exec (.slotSend p) s = .next (s.sendOne ⟨p.die, c⟩) := by
    show execSlotSend p s = _
    simp only [execSlotSend, bare, port, running, Option.isNone_none, and_self, if_true]
    show Host.Outcome.next (match (coresAt (portRouter p)).find? fun c => match (s.core ⟨p.die, c⟩).sendBuf with
        | [] => false
        | x :: _ => !s.jobStopped x.job with
      | some c => s.sendOne ⟨p.die, c⟩
      | none => s) = _
    rw [found]
  have sends : s.sendOne ⟨p.die, c⟩ = (s.modCore ⟨p.die, c⟩ fun k => { k with sendBuf := rest }).modPort p.die (portRouter p) 4 fun q =>
      { q with fifo := q.fifo ++ [x] } := by
    unfold State.sendOne
    rw [buffer, router] <;> rfl
  have core : ((s.sendOne ⟨p.die, c⟩).core ⟨p.die, c⟩).sendBuf = rest := by
    rw [sends]
    exact (congrArg Core.sendBuf (State.core_modCore s ⟨p.die, c⟩ fun k => { k with sendBuf := rest }) :)
  refine ⟨_, step, ⟨fun q => ?_, by rw [sends]; rfl⟩, core, ?_⟩
  · rw [sends]
    exact task?_modCore_tasks s ⟨p.die, c⟩ (f := fun k => { k with sendBuf := rest }) rfl q
  · rw [sends, port_modPort, port]
    rfl

theorem slotSend_none (bare : linkOf p = none) (port : p.port ≠ 4) : exec (.slotSend p) s = .next s := by
  show execSlotSend p s = _
  simp only [execSlotSend, bare, port, false_and, if_false]

variable (link : linkOf p = some l)

theorem choose_nil (empty : (((s.die p.die).pav (portRouter p)).port p.port).out = []) : s.choose p l = none := by
  unfold State.choose
  simp only [empty, takeFirst, List.filter_nil, nextInput, List.any_nil, Option.orElse]
  have none_turn (l : List Nat) : (l.find? fun _ => false) = none := by
    induction l with
    | nil => rfl
    | cons a l ih => rw [List.find?_cons, ih]
  rw [none_turn]

include link in
theorem slotSend_idle (idle : s.maySend p l = false ∨ (((s.die p.die).pav (portRouter p)).port p.port).out = []) :
    exec (.slotSend p) s = .next (s.modLink p.die l fun _ =>
      { (s.die p.die).link l with slotTime := (((s.die p.die).link l).slotTime + 1) % 64 }) := by
  have nothing : (if s.maySend p l then s.choose p l else none) = none := by
    rcases idle with h | h
    · rw [h]; rfl
    · rw [choose_nil h]; split <;> rfl
  show execSlotSend p s = _
  simp only [execSlotSend, link, State.slotTick, nothing]
  rfl

theorem takeFirst_head {α : Type} {f : α → Bool} {x : α} (rest : List α) (h : f x = true) : takeFirst f (x :: rest) = some (x, rest) := by
  rw [takeFirst, if_pos h]

theorem takeFirst_none {α : Type} {f : α → Bool} {xs : List α} (h : ∀ x ∈ xs, f x = false) : takeFirst f xs = none := by
  induction xs with
  | nil => rfl
  | cons x xs ih =>
    rw [takeFirst, h x List.mem_cons_self, ih fun y mem => h y (List.mem_cons_of_mem _ mem)]
    rfl

/-- The only input port with cells has its turn. -/
theorem nextInput_only {turn n : Nat} {out : List (Nat × Cell)} (small : n < 9) (some_cell : out ≠ []) (only : ∀ x ∈ out, x.1 = n) :
    nextInput turn out = some n := by
  obtain ⟨x, mem⟩ := List.exists_mem_of_ne_nil out some_cell
  have turn_of (m : Nat) : (out.any fun x => decide (x.1 = m)) = decide (m = n) := by
    by_cases h : m = n
    · rw [decide_eq_true h]
      exact List.any_eq_true.mpr ⟨x, mem, decide_eq_true ((only x mem).trans h.symm)⟩
    · rw [decide_eq_false h, List.any_eq_false]
      intro y hy same
      exact h ((of_decide_eq_true same).symm.trans (only y hy))
  unfold nextInput
  simp only [turn_of]
  cases found : ((List.range 9).map fun i => (turn + 1 + i) % 9).find? fun m => decide (m = n) with
  | some m => rw [of_decide_eq_true (List.find?_some (p := fun m => decide (m = n)) found)]
  | none =>
    have absent := List.find?_eq_none.mp found n (List.mem_map.mpr ⟨(n + 9 - (turn + 1) % 9) % 9, List.mem_range.mpr (by omega), by omega⟩)
    exact absurd (decide_eq_true rfl) absent

/-- The oldest cell of the only input port that sends is chosen, where none circulates, is a marker or of a reserved flow. -/
theorem choose_only {n : Nat} {c : Cell} {rest : List (Nat × Cell)} (out : (((s.die p.die).pav (portRouter p)).port p.port).out = (n, c) :: rest)
    (small : n < 9) (plain : ∀ x ∈ (((s.die p.die).pav (portRouter p)).port p.port).out, x.1 = n ∧ x.2.typ ≠ 6 ∧ x.2.circ = false
      ∧ s.reserved p.die l (((s.die p.die).link l).slotTime % 64) x.2 = false) : s.choose p l = some ((n, c), rest) := by
  unfold State.choose
  dsimp only
  rw [out] at plain ⊢
  have none_circ : takeFirst (fun x : Nat × Cell => x.2.circ) ((n, c) :: rest) = none := takeFirst_none fun x mem => (plain x mem).2.2.1
  have none_due : takeFirst (fun x : Nat × Cell => decide (x.2.typ = 6)
      && !(((n, c) :: rest).any fun y => !decide (y.2.typ = 6) && decide (y.2.job = x.2.job))) ((n, c) :: rest) = none :=
    takeFirst_none fun x mem => by rw [decide_eq_false (plain x mem).2.1, Bool.false_and]
  have none_reserved : takeFirst (fun x : Nat × Cell => s.reserved p.die l (((s.die p.die).link l).slotTime % 64) x.2) ((n, c) :: rest) = none :=
    takeFirst_none fun x mem => (plain x mem).2.2.2
  have all : (((n, c) :: rest).filter fun x => !decide (x.2.typ = 6)) = (n, c) :: rest :=
    List.filter_eq_self.mpr fun x mem => by rw [decide_eq_false (plain x mem).2.1]; rfl
  have turn (m : Nat) := nextInput_only (turn := m) small (List.cons_ne_nil (n, c) rest) fun x mem => (plain x mem).1
  have head : takeFirst (fun x : Nat × Cell => !decide (x.2.typ = 6) && decide (x.1 = n)) ((n, c) :: rest) = some ((n, c), rest) :=
    takeFirst_head rest (by rw [decide_eq_false (plain (n, c) List.mem_cons_self).2.1, decide_eq_true rfl]; rfl)
  rw [none_circ, none_due, none_reserved, all, turn]
  exact head

include link in
/-- A ring or rack port sends its oldest cell under the next ESEQ (R336, R344). -/
theorem slotSend_sends {n : Nat} {c : Cell} {rest : List (Nat × Cell)} (may : s.maySend p l = true) (up : ((s.die p.die).link l).st = 2)
    (out : (((s.die p.die).pav (portRouter p)).port p.port).out = (n, c) :: rest) (small : n < 9)
    (plain : ∀ x ∈ (((s.die p.die).pav (portRouter p)).port p.port).out, x.1 = n ∧ x.2.typ ≠ 6 ∧ x.2.circ = false
      ∧ s.reserved p.die l (((s.die p.die).link l).slotTime % 64) x.2 = false) :
    let k := (s.die p.die).link l
    let w : WireCell := ⟨k.txEseq, k.txAct, false, true, true, c⟩
    ∃ t, exec (.slotSend p) s = .next t
      ∧ TasksAndMemoryStand s t ∧ (((t.die p.die).pav (portRouter p)).port p.port).out = rest
      ∧ (∀ y, ringPeer p.die l = some y → t.agenda = s.agenda ++ [.linkCellReceive y w])
      ∧ (ringPeer p.die l = none → t.outbound = s.outbound ++ [(p.die, l - 2, s.wireBytes p.die l w)])
      ∧ ((t.die p.die).link l).txEseq = (k.txEseq + 1) % 2 ^ 32
      ∧ ((t.die p.die).link l).retry = k.retry ++ [(k.txEseq, k.txAct, c)] := by
  intro k w
  have step : exec (.slotSend p) s = .next (s.slotTick p l) := by
    show execSlotSend p s = _
    simp only [execSlotSend, link]
  have x : (if s.maySend p l then s.choose p l else none) = some ((n, c), rest) := by rw [if_pos may, choose_only out small plain]
  let s1 := s.modLink p.die l fun k => { k with slotTime := (k.slotTime + 1) % 64 }
  let s2 := s1.modPort p.die (portRouter p) p.port fun q => { q with out := rest, turn := n }
  let s3 := s2.modLink p.die l (Link.sent (isRack l) c)
  have link2 : (s2.die p.die).link l = { k with slotTime := (k.slotTime + 1) % 64 } := by rw [link_modPort, link_at]
  have up2 : ((s2.die p.die).link l).st = 2 := by rw [link2]; exact up
  have ticks : s.slotTick p l = (s3.onWire p.die l w).countKey p.die l k.icnt := by
    have sends : s.slotTick p l = s2.sendCell p.die l c := by
      unfold State.slotTick
      simp only [x]
      exact if_neg fun h => absurd (h.1.symm.trans up2) (by decide)
    rw [sends]
    unfold State.sendCell
    rw [link2]
    have straight : decide (k.st = linkFailed) = false := decide_eq_false (by rw [up]; decide)
    simp only [straight] <;> rfl
  refine ⟨_, step, ?_⟩
  rw [ticks]
  have records := records_countKey (s3.onWire p.die l w) p.die l k.icnt
  have leaves := leaves_onWire s3 p.die l w
  have link3 : (s3.die p.die).link l = Link.sent (isRack l) c ((s2.die p.die).link l) := link_at ..
  refine ⟨stands_of (records.cores.trans leaves.cores) (records.mem.trans leaves.mem), ?_, fun y peer => ?_, fun rack => ?_, ?_, ?_⟩
  · rw [records.pav, leaves.die, pav_modLink, port_modPort]
  · rw [records.agenda, agenda_onWire _ peer]
    rfl
  · rw [records.outbound, outbound_onWire rack rfl]
    have keys : ((s3.die p.die).link l).keys = k.keys := by rw [link3, link2]; rfl
    have same : s3.wireBytes p.die l w = s.wireBytes p.die l w := by
      unfold State.wireBytes
      rw [keys]
      rfl
    rw [same]
    rfl
  · rw [records.link, leaves.die, link3, link2]
    rfl
  · rw [records.link, leaves.die, link3, link2]
    rfl

end

end Sys2Proof

namespace Sys2Proof

open Machine

/-! ### What a link receives (R344, R345, R350) -/

section

variable {p : PortRef} {l : Nat} {s : State} (link : linkOf p = some l)

include link

theorem receive_drops (w : WireCell) :
    (s.fatal.isSome = true → exec (.linkCellReceive p w) s = .next s)
      ∧ (w.wrap = true → isRack l = false → eseqLe ((s.die p.die).link l).rxEseq w.eseq = false → exec (.linkCellReceive p w) s = .next s)
      ∧ (w.wrap = false → (((s.die p.die).link l).st ≠ 2 ∨ w.eseq ≠ ((s.die p.die).link l).rxEseq
        ∨ (isRack l = true ∧ s.rackOpen p.die = false)) → exec (.linkCellReceive p w) s = .next s) := by
  have step : exec (.linkCellReceive p w) s = execLinkCellReceive p w s := rfl
  simp only [execLinkCellReceive, link] at step
  refine ⟨fun fatal => ?_, fun wrap ring old => ?_, fun straight unexpected => ?_⟩
  · rw [step, if_pos fatal]
  · rw [step]
    by_cases fatal : s.fatal.isSome = true
    · rw [if_pos fatal]
    · rw [if_neg fatal, if_pos wrap, if_neg (by rw [ring]; exact Bool.false_ne_true), State.wrapEnd, if_neg (by rw [old]; exact Bool.false_ne_true)]
  · rw [step]
    by_cases fatal : s.fatal.isSome = true
    · rw [if_pos fatal]
    · rw [if_neg fatal, if_neg (by rw [straight]; exact Bool.false_ne_true), if_pos (by
        rcases unexpected with h | h | h
        · exact .inl h
        · exact .inr (.inr h)
        · exact .inr (.inl h))]

/-- The cell expected next is looked at. -/
theorem receive_expected {w : WireCell} (running : s.fatal = none) (straight : w.wrap = false) (up : ((s.die p.die).link l).st = 2)
    (expected : w.eseq = ((s.die p.die).link l).rxEseq) (passes : isRack l = true → s.rackOpen p.die = true) :
    exec (.linkCellReceive p w) s = .next (if !w.beatOk then s.rejectCell p l false
      else if ((s.die p.die).link l).badAuth (isRack l) w then s.rejectCell p l true else s.acceptCell p l w) := by
  have step : exec (.linkCellReceive p w) s = execLinkCellReceive p w s := rfl
  simp only [execLinkCellReceive, link] at step
  rw [step, if_neg (by rw [running]; exact Bool.false_ne_true), if_neg (by rw [straight]; exact Bool.false_ne_true), if_neg]
  rintro (h | h | h)
  · exact h up
  · rw [passes h.1] at h
    exact absurd h.2 (by decide)
  · exact h expected

/-- A cell whose beats failed is asked for again (R344). -/
theorem receive_asksAgain {w : WireCell} (running : s.fatal = none) (straight : w.wrap = false) (up : ((s.die p.die).link l).st = 2)
    (expected : w.eseq = ((s.die p.die).link l).rxEseq) (passes : isRack l = true → s.rackOpen p.die = true) (y : PortRef)
    (peer : ringPeer p.die l = some y) (beat : w.beatOk = false) (same : ((s.die p.die).link l).failEseq = ((s.die p.die).link l).rxEseq)
    (few : ((s.die p.die).link l).fails < 16) (fewAuth : ((s.die p.die).link l).authFails < 2) :
    ∃ t, exec (.linkCellReceive p w) s = .next t
      ∧ TasksAndMemoryStand s t ∧ (t.die p.die).link l = { (s.die p.die).link l with fails := ((s.die p.die).link l).fails + 1 }
      ∧ t.agenda = s.agenda ++ [.replayRequest y ((s.die p.die).link l).rxEseq] := by
  have step := receive_expected link running straight up expected passes
  rw [beat, if_pos (show (!false) = true from rfl)] at step
  have failed : Link.failed false ((s.die p.die).link l) = { (s.die p.die).link l with fails := ((s.die p.die).link l).fails + 1 } := by
    unfold Link.failed
    dsimp only
    rw [if_pos same, if_neg Bool.false_ne_true]
  have asks : s.rejectCell p l false = (s.modLink p.die l (Link.failed false)).control p.die l 1 ((s.die p.die).link l).rxEseq
      fun q => .replayRequest q ((s.die p.die).link l).rxEseq := by
    unfold State.rejectCell
    simp only [link_at, failed]
    exact if_neg (by omega)
  rw [asks] at step
  have leaves := leaves_control (s.modLink p.die l (Link.failed false)) p.die l 1 ((s.die p.die).link l).rxEseq
    fun q => .replayRequest q ((s.die p.die).link l).rxEseq
  exact ⟨_, step, stands_of leaves.cores leaves.mem, by rw [leaves.die, link_at, failed], agenda_control _ _ _ peer⟩

/-- The cell expected next enters its port's FIFO and is acknowledged (R344). -/
theorem receive_accepts {w : WireCell} (running : s.fatal = none) (straight : w.wrap = false) (up : ((s.die p.die).link l).st = 2)
    (expected : w.eseq = ((s.die p.die).link l).rxEseq) (passes : isRack l = true → s.rackOpen p.die = true) (beat : w.beatOk = true)
    (auth : ((s.die p.die).link l).badAuth (isRack l) w = false) (flow : w.cell.typ = 0) (first : w.cell.circ = false)
    (stays : s.gangOf w.cell.job = none) :
    ∃ t, exec (.linkCellReceive p w) s = .next t
      ∧ TasksAndMemoryStand s t ∧ (t.die p.die).link l = { (s.die p.die).link l with rxEseq := (w.eseq + 1) % 2 ^ 32, fails := 0, authFails := 0 }
      ∧ (∀ y, ringPeer p.die l = some y → t.agenda = s.agenda ++ [.linkAck y w.eseq])
      ∧ (((t.die p.die).pav (portRouter p)).port p.port).fifo = (((s.die p.die).pav (portRouter p)).port p.port).fifo ++ [w.cell] := by
  have step := receive_expected link running straight up expected passes
  rw [beat, if_neg (by decide), if_neg (by rw [auth]; exact Bool.false_ne_true)] at step
  let s1 := s.modLink p.die l fun k => { k with rxEseq := (w.eseq + 1) % 2 ^ 32, fails := 0, authFails := 0 }
  let s2 := s1.control p.die l 0 w.eseq fun q => .linkAck q w.eseq
  have accepts : s.acceptCell p l w = s2.dispatchCell p w.cell := by
    have plain : ((s.die p.die).link l).refusesMarker w.cell = false := by rw [Link.refusesMarker, flow]; rfl
    unfold State.acceptCell
    rw [plain]
    rfl
  have leaves : Leaves s1 s2 := leaves_control ..
  have enters : s2.dispatchCell p w.cell = s2.modPort p.die (portRouter p) p.port fun q => { q with fifo := q.fifo ++ [w.cell] } := by
    have gang : s2.gangOf w.cell.job = none := by
      have same : s2.gang = s.gang ∧ s2.switched = s.switched := by
        show (s1.control p.die l 0 w.eseq fun q => .linkAck q w.eseq).gang = s.gang
          ∧ (s1.control p.die l 0 w.eseq fun q => .linkAck q w.eseq).switched = s.switched
        unfold State.control State.onWire
        split
        · exact ⟨rfl, rfl⟩
        · split <;> exact ⟨rfl, rfl⟩
      rw [State.gangOf, same.1, same.2]
      exact stays
    unfold State.dispatchCell
    simp only [flow, first, Bool.false_eq_true, if_false]
    unfold State.admitCell
    rw [gang] <;> rfl
  rw [accepts, enters] at step
  refine ⟨_, step, stands_of leaves.cores leaves.mem, ?_, fun y peer => agenda_control (s := s1) _ _ _ peer, ?_⟩
  · rw [link_modPort, leaves.die]
    exact link_at ..
  · rw [port_modPort, leaves.die]
    exact congrArg (fun v : Pavilion => (v.port p.port).fifo ++ [w.cell]) (pav_modLink s p.die l (portRouter p) _)

end

end Sys2Proof

namespace Sys2Proof

open Machine

/-! ### Cells that arrive at a mesh port (R314 to R324) -/

/-- The port's oldest cell taken out of its FIFO. -/
def fifoTaken (s : State) (p : PortRef) (rest : List Cell) : State :=
  s.modPort p.die (portRouter p) p.port fun q => { q with fifo := rest }

/-- A stray cell queued on its die, or dropped and counted where the queue is full (R322). -/
def strayedDie (c : Cell) (d : Die) : Die :=
  if d.stray.length < 64 then { d with stray := d.stray ++ [c] }
  else { d with sqdrop := d.sqdrop + 1, sqlast := BitVec.ofNat 64 (leNat ((cellTag c 0 0 false).take 8)) }

/-- The die of a stray cell with it. -/
def strayQueued (s : State) (die : Nat) (c : Cell) : State := s.modDie die (strayedDie c)

theorem strayed_pavs (d : Die) (c : Cell) : (strayedDie c d).pavs = d.pavs := by unfold strayedDie; split <;> rfl

theorem strayed_eq (d : Die) (c : Cell) : (strayedDie c d).stray = (if d.stray.length < 64 then d.stray ++ [c] else d.stray)
    ∧ (64 ≤ d.stray.length → (strayedDie c d).sqdrop = d.sqdrop + 1) := by
  unfold strayedDie
  split
  · next room => exact ⟨rfl, fun full => absurd room (by omega)⟩
  · exact ⟨rfl, fun _ => rfl⟩

theorem stray_strays (w : State) (die router : Nat) (c : Cell) : (w.stray die router c).cores = w.cores ∧ (w.stray die router c).mem = w.mem
    ∧ ((w.stray die router c).die die).pav router = (w.die die).pav router
    ∧ ((w.stray die router c).die die).stray = (if (w.die die).stray.length < 64 then (w.die die).stray ++ [c] else (w.die die).stray)
    ∧ (64 ≤ (w.die die).stray.length → ((w.stray die router c).die die).sqdrop = (w.die die).sqdrop + 1) := by
  have steps : w.stray die router c = (strayQueued w die c).postFault die 0xC0 router c.job 0x84 (cellInfo true c) noLidx := rfl
  have queued : (strayQueued w die c).die die = strayedDie c (w.die die) := State.die_modDie ..
  have base : (strayQueued w die c).cores = w.cores ∧ (strayQueued w die c).mem = w.mem := ⟨rfl, rfl⟩
  obtain ⟨strays, drops⟩ := strayed_eq (w.die die) c
  rw [steps]
  generalize strayQueued w die c = v at queued base ⊢
  have records := records_postFault v die 0xC0 router c.job 0x84 (cellInfo true c) noLidx
  have worked := (worked_postFault v die 0xC0 router c.job 0x84 (cellInfo true c) noLidx).dies die
  generalize v.postFault die 0xC0 router c.job 0x84 (cellInfo true c) noLidx = u at records worked ⊢
  have stray : (u.die die).stray = (v.die die).stray := (congrArg Die.stray worked :)
  have sqdrop : (u.die die).sqdrop = (v.die die).sqdrop := (congrArg Die.sqdrop worked :)
  refine ⟨records.cores.trans base.1, records.mem.trans base.2, ?_, ?_, fun full => ?_⟩
  · rw [records.pav, queued, Die.pav, strayed_pavs, ← Die.pav]
  · rw [stray, queued, strays]
  · rw [sqdrop, queued, drops full]

section

variable {p : PortRef} {s : State}

theorem arrival_idle (ahead : (((s.die p.die).pav (portRouter p)).port p.port).ahead = [])
    (refusal : (((s.die p.die).pav (portRouter p)).port p.port).refusal = [])
    (fifo : (((s.die p.die).pav (portRouter p)).port p.port).fifo = []) (circ : (((s.die p.die).pav (portRouter p)).port p.port).circ = []) :
    exec (.cellArrival p) s = .next s := by
  have none_ahead : s.tryAhead p = none := by
    unfold State.tryAhead
    split
    · rfl
    · next port =>
      rw [ne_eq, Decidable.not_not] at port
      rw [← port, ahead]
      rfl
  have none_refused : s.tryRefused p = none := by unfold State.tryRefused; rw [refusal]; rfl
  have none_fifo : s.tryFifo p = none := by unfold State.tryFifo; rw [fifo]; rfl
  have none_circ : s.tryCirc p = none := by unfold State.tryCirc; rw [circ]; rfl
  show Host.Outcome.next ((s.arriveAt p).getD s) = _
  rw [State.arriveAt, none_ahead, none_refused, none_fifo, none_circ]
  rfl

variable {c : Cell} {rest : List Cell} (fifo : (((s.die p.die).pav (portRouter p)).port p.port).fifo = c :: rest)
  (refusal : (((s.die p.die).pav (portRouter p)).port p.port).refusal = []) (mesh : p.port < 4)
  (free : s.collTakes p.die (portRouter p) c = none) (flow : c.typ = 0) (going : s.jobStopped c.job = false)

/-- A port with its oldest cell taken matches as before. -/
theorem matching_taken : ((((fifoTaken s p rest).die p.die).pav (portRouter p)).matching c) = ((s.die p.die).pav (portRouter p)).matching c := by
  rw [fifoTaken, pav_modPort]
  rfl

theorem port_taken : (((fifoTaken s p rest).die p.die).pav (portRouter p)).port p.port
    = { ((s.die p.die).pav (portRouter p)).port p.port with fifo := rest } := port_modPort ..

include fifo refusal mesh free flow going

/-- The oldest flow cell of a mesh port is offered to the Pavilion. -/
theorem arrival_offers {t : State} (offered : (fifoTaken s p rest).offerFrom p false c = some t) : exec (.cellArrival p) s = .next t := by
  have none_ahead : s.tryAhead p = none := if_pos (by omega)
  have none_refused : s.tryRefused p = none := by unfold State.tryRefused; rw [refusal]; rfl
  have free' : (fifoTaken s p rest).collTakes p.die (portRouter p) c = none := by
    have colls : ((fifoTaken s p rest).die p.die).colls = (s.die p.die).colls := by rw [fifoTaken, die_modPort]
    have none_takes : (s.die p.die).colls.any (Coll.takes (portRouter p) c) = false := by
      unfold State.collTakes at free
      split at free
      · cases free
      · next h => exact Bool.not_eq_true _ ▸ h
    unfold State.collTakes
    rw [colls, none_takes]
    rfl
  have acts : (fifoTaken s p rest).actOn p c = (fifoTaken s p rest).offerFrom p false c := by
    unfold State.actOn
    simp only [flow, free']
    rfl
  have tries : s.tryFifo p = some t := by
    unfold State.tryFifo
    rw [fifo, takeFirst_head rest (by rw [going]; rfl)]
    exact acts.trans offered
  show Host.Outcome.next ((s.arriveAt p).getD s) = _
  rw [State.arriveAt, none_ahead, none_refused, tries]
  rfl

/-- A cell that matches no entry is stray (R322). -/
theorem arrival_stray (unmatched : ((s.die p.die).pav (portRouter p)).matching c = none) :
    ∃ t, exec (.cellArrival p) s = .next t ∧ TasksAndMemoryStand s t
      ∧ (((t.die p.die).pav (portRouter p)).port p.port).fifo = rest
      ∧ (t.die p.die).stray = (if (s.die p.die).stray.length < 64 then (s.die p.die).stray ++ [c] else (s.die p.die).stray)
      ∧ (64 ≤ (s.die p.die).stray.length → (t.die p.die).sqdrop = (s.die p.die).sqdrop + 1) := by
  have offered : (fifoTaken s p rest).offerFrom p false c = some ((fifoTaken s p rest).stray p.die (portRouter p) c) := by
    have offer : (fifoTaken s p rest).offer p.die (portRouter p) p.port c = .stray := by
      unfold State.offer
      rw [matching_taken, unmatched]
    unfold State.offerFrom
    rw [offer]
  refine ⟨_, arrival_offers fifo refusal mesh free flow going offered, ?_⟩
  obtain ⟨cores, mem, pav, strays, drops⟩ := stray_strays (fifoTaken s p rest) p.die (portRouter p) c
  have queue : ((fifoTaken s p rest).die p.die).stray = (s.die p.die).stray ∧ ((fifoTaken s p rest).die p.die).sqdrop = (s.die p.die).sqdrop := by
    rw [fifoTaken, die_modPort]
    exact ⟨rfl, rfl⟩
  rw [queue.1] at strays drops
  rw [queue.2] at drops
  exact ⟨stands_of cores mem, by rw [pav, port_taken], strays, drops⟩

/-- FORWARD emits the cell (R315). -/
theorem arrival_forwards {n : Nat} {e : FlowEntry} (hit : ((s.die p.die).pav (portRouter p)).matching c = some (n, e)) (action : e.action = 0) :
    exec (.cellArrival p) s = .next ((fifoTaken s p rest).emit p.die (portRouter p) p.port e.next
      (if e.rename then { c with flow := e.outflow } else c)) := by
  refine arrival_offers fifo refusal mesh free flow going ?_
  have offer : (fifoTaken s p rest).offer p.die (portRouter p) p.port c =
      .taken ((fifoTaken s p rest).emit p.die (portRouter p) p.port e.next (e.named c)) false := by
    unfold State.offer
    rw [matching_taken, hit]
    simp only [action]
  unfold State.offerFrom
  rw [offer]
  rfl

/-- DELIVER puts the cell in its task's queue (R321, R324). -/
theorem arrival_delivers {n : Nat} {e : FlowEntry} (hit : ((s.die p.die).pav (portRouter p)).matching c = some (n, e)) (k : Task)
    (action : e.action = 6) (kind : e.lkind = 0) (there : s.task? (localTask p.die (portRouter p) e.lslot) = some k) (job : k.job = e.job)
    (runs : k.status ≠ .ending) (bound : (k.queue e.lq).bound = true) (same : (k.queue e.lq).flow = c.flow)
    (near : (k.queue e.lq).distance c.cidx < 4) (new : ∀ y ∈ (k.queue e.lq).cells, y.cidx ≠ c.cidx % 2 ^ 16) :
    ∃ t, exec (.cellArrival p) s = .next t ∧ OthersStand s t (localTask p.die (portRouter p) e.lslot) ∧ t.mem = s.mem
      ∧ t.task (localTask p.die (portRouter p) e.lslot)
        = k.setQueue e.lq { k.queue e.lq with cells := (k.queue e.lq).cells ++ [⟨c.cidx, c.rank, c.psn, c.payload⟩] } := by
  have there' : (fifoTaken s p rest).task? (localTask p.die (portRouter p) e.lslot) = some k := there
  have unseen : ((k.queue e.lq).cells.any fun y => decide (y.cidx = c.cidx % 2 ^ 16)) = false := by
    rw [List.any_eq_false]
    intro y mem h
    exact new y mem (of_decide_eq_true h)
  have enters : (fifoTaken s p rest).enterQueue (localTask p.die (portRouter p) e.lslot) e.lq e.job c =
      .entered ((fifoTaken s p rest).modTask (localTask p.die (portRouter p) e.lslot) fun t => t.setQueue e.lq
        { k.queue e.lq with cells := (k.queue e.lq).cells ++ [⟨c.cidx, c.rank, c.psn, c.payload⟩] }) := by
    unfold State.enterQueue
    rw [there']
    dsimp only
    rw [if_neg (by rintro (h | h | h | h); exacts [h job, runs h, absurd (bound.symm.trans h) (by decide), h same]), if_neg (by omega),
      if_neg (by omega), unseen, if_neg Bool.false_ne_true]
  have offer : (fifoTaken s p rest).offer p.die (portRouter p) p.port c =
      .taken ((fifoTaken s p rest).modTask (localTask p.die (portRouter p) e.lslot) fun t => t.setQueue e.lq
        { k.queue e.lq with cells := (k.queue e.lq).cells ++ [⟨c.cidx, c.rank, c.psn, c.payload⟩] }) false := by
    unfold State.offer
    rw [matching_taken, hit]
    simp only [action, State.deliveryHeld, kind, State.deliverCell, State.toQueue, enters]
    rfl
  have offered : (fifoTaken s p rest).offerFrom p false c = some ((fifoTaken s p rest).modTask (localTask p.die (portRouter p) e.lslot)
      fun t => t.setQueue e.lq { k.queue e.lq with cells := (k.queue e.lq).cells ++ [⟨c.cidx, c.rank, c.psn, c.payload⟩] }) := by
    unfold State.offerFrom
    rw [offer]
    rfl
  refine ⟨_, arrival_offers fifo refusal mesh free flow going offered, othersStand_modTask (fifoTaken s p rest) _ _, rfl, ?_⟩
  rw [State.task_modTask, State.task, there']
  rfl

/-- An unordered COMBINE folds the cell's payload and marks its rank (R316, R317). -/
theorem arrival_combines {n : Nat} {e : FlowEntry} (hit : ((s.die p.die).pav (portRouter p)).matching c = some (n, e)) (action : e.action = 1)
    (loose : e.ord = false) (low : c.rank < e.count) (new : c.rank ∉ (((s.die p.die).pav (portRouter p)).round n (c.cidx - e.cfirst)).ranks)
    (more : (((s.die p.die).pav (portRouter p)).round n (c.cidx - e.cfirst)).ranks.length + 1 < e.count) (clean : c.psn = false) :
    let l := c.cidx - e.cfirst
    let r := ((s.die p.die).pav (portRouter p)).round n l
    let o := accSlot p.die (portRouter p) (e.slotOf l)
    let x := e.accumulate (decide (r.ranks = [])) (s.readAcc p.die (portRouter p) (e.slotOf l) e.accSlots) (padTo 128 c.payload)
    ∃ t, exec (.cellArrival p) s = .next t ∧ (∀ q, t.task? q = s.task? q)
      ∧ ((t.die p.die).pav (portRouter p)).round n l = { r with ranks := r.ranks ++ [c.rank] }
      ∧ t.mem.bytes o x.1.length = x.1 ∧ ∀ b, b < o ∨ o + x.1.length ≤ b → t.mem.byte b = s.mem.byte b := by
  intro l r o x
  have same : (((fifoTaken s p rest).die p.die).pav (portRouter p)).round n l = r := by
    rw [fifoTaken, pav_modPort]
    rfl
  let w := ((fifoTaken s p rest).writeAcc p.die (portRouter p) (e.slotOf l) x.1).raisePav p.die (portRouter p) x.2
  have worked : Worked ((fifoTaken s p rest).writeAcc p.die (portRouter p) (e.slotOf l) x.1) w := by
    show Worked _ (State.raisePav _ _ _ _)
    unfold State.raisePav
    split
    · exact .refl _
    · exact worked_modPav ..
  have memW : w.mem = s.mem.setBytes o x.1 := by
    show (State.raisePav _ _ _ _).mem = _
    unfold State.raisePav
    split <;> rfl
  have folds : (fifoTaken s p rest).foldTerm p.die (portRouter p) e l (decide (r.ranks = [])) false (padTo 128 c.payload) = w := rfl
  have seen : r.ranks.contains c.rank = false := by
    rw [List.contains_eq_mem, decide_eq_false_iff_not]
    exact new
  have unordered : (fifoTaken s p rest).unordered p.die (portRouter p) n e l c = .taken (w.modPav p.die (portRouter p) fun v => v.setRound n l
      { r with ranks := r.ranks ++ [c.rank] }) false := by
    unfold State.unordered
    simp only [same, seen, clean, Bool.or_false, folds, Bool.false_eq_true, if_false]
    rw [if_neg (Nat.ne_of_lt more)]
  have combine : (fifoTaken s p rest).combine p.die (portRouter p) n e l c = .taken (w.modPav p.die (portRouter p) fun v => v.setRound n l
      { r with ranks := r.ranks ++ [c.rank] }) false := by
    unfold State.combine
    rw [if_neg (by omega), if_neg (by rw [action, loose]; simp), unordered]
  have offer : (fifoTaken s p rest).offer p.die (portRouter p) p.port c = .taken (w.modPav p.die (portRouter p) fun v => v.setRound n l
      { r with ranks := r.ranks ++ [c.rank] }) false := by
    unfold State.offer
    rw [matching_taken, hit]
    simp only [action]
    exact combine
  have offered : (fifoTaken s p rest).offerFrom p false c = some (w.modPav p.die (portRouter p) fun v => v.setRound n l
      { r with ranks := r.ranks ++ [c.rank] }) := by
    unfold State.offerFrom
    rw [offer]
    rfl
  refine ⟨_, arrival_offers fifo refusal mesh free flow going offered, fun q => worked.task? q, ?_, ?_, fun b out => ?_⟩
  · rw [State.modPav, State.die_modDie, Die.pav, Tbl.get_set_same, Pavilion.round, Pavilion.setRound, Tbl.get_set_same]
  · rw [show (w.modPav p.die (portRouter p) fun v => v.setRound n l { r with ranks := r.ranks ++ [c.rank] }).mem = w.mem from rfl, memW,
      Memory.bytes_setBytes]
  · rw [show (w.modPav p.die (portRouter p) fun v => v.setRound n l { r with ranks := r.ranks ++ [c.rank] }).mem = w.mem from rfl, memW,
      Memory.byte_setBytes_out _ _ _ _ out]

end

/-- Settles O56: the arrivals from what `offerFrom` does, the links from what leaves a port (`Leaves`), what posts a record
(`Records`) and what fails an end (`Fails`). -/
theorem linksAndArrivals : Obligations.LinksAndArrivals := by
  refine ⟨fun p w n s none => no_link w n s none, ?_, ?_, ?_⟩
  · intro p s c rest v fifo refusal mesh free flow going s1
    refine ⟨arrival_stray fifo refusal mesh free flow going, fun n e hit => ⟨arrival_forwards fifo refusal mesh free flow going hit,
      fun k action kind => ?_, fun action loose => ?_⟩⟩
    · intro r x there job runs bound same near new
      exact arrival_delivers fifo refusal mesh free flow going hit k action kind there job runs bound same near new
    · intro l r low new more clean
      exact arrival_combines fifo refusal mesh free flow going hit action loose low new more clean
  · intro p s q
    exact ⟨arrival_idle, slotSend_none, slotSend_local⟩
  · intro p l s link k q tick
    refine ⟨slotSend_idle link, fun n c rest may up out small plain => slotSend_sends link may up out small plain, fun w => ?_, linkAck_acks link,
      replayRequest_replays link, ⟨signalLoss_fails link, retrainTimeout_fails link⟩, retrainTimeout_idle link, linkTrained_trains link,
      fun c => ⟨ringRefusal_circulates c, ringRefusal_nacks link c, nack_queues link c, nackResend_waits link c⟩, nackResend_idle link,
      moduleLoss_counts link, keyMarker_marks link, keyRefusal_idle link, keyRefusal_returns link⟩
    obtain ⟨fatal, wrapped, unexpected⟩ := receive_drops link w
    exact ⟨fatal, wrapped, unexpected, fun running straight up expected passes => ⟨fun y peer beat same few fewAuth =>
      receive_asksAgain link running straight up expected passes y peer beat same few fewAuth,
      fun beat auth flow first stays => receive_accepts link running straight up expected passes beat auth flow first stays⟩⟩

end Sys2Proof

namespace Sys2Proof

open Machine

/-! ### A clean line at its home (R244) -/

/-- No core holds a dirty copy of a line. -/
def Clean (line : Nat) (s : State) : Prop := ∀ e ∈ s.cores, ∀ l ∈ e.2.l1, l.line = line → l.dirty = false

theorem clean_iff (line : Nat) (s : State) : dirtyCopy line s.cores = none ↔ Clean line s := by
  unfold Clean
  induction s.cores with
  | nil => simp [dirtyCopy]
  | cons e t ih =>
    have head : (e.2.l1.find? fun l => decide (l.line = line) && l.dirty) = none ↔ ∀ l ∈ e.2.l1, l.line = line → l.dirty = false := by
      simp [List.find?_eq_none]
    rw [List.forall_mem_cons, ← head, ← ih, dirtyCopy]
    split
    · next found => simp [found]
    · next found => simp [found]

theorem Clean.core {line : Nat} {s : State} (h : Clean line s) (c : CoreRef) : ∀ l ∈ (s.core c).l1, l.line = line → l.dirty = false := by
  by_cases there : ∃ e ∈ s.cores, e.1 = CoreRef.key c
  · obtain ⟨e, mem, -⟩ := there
    unfold Clean at h
    rw [State.core]
    clear mem e
    generalize s.cores = t at h ⊢
    induction t with
    | nil => exact fun l hl => absurd hl (List.not_mem_nil)
    | cons e t ih =>
      obtain ⟨j, v⟩ := e
      rw [Tbl.get]
      split
      · exact h (j, v) List.mem_cons_self
      · exact ih fun e he => h e (List.mem_cons_of_mem _ he)
  · rw [State.core, Tbl.get_of_not_mem _ _ fun e he hk => there ⟨e, he, hk⟩]
    exact fun l hl => absurd hl (List.not_mem_nil)

theorem Clean.modCore {line : Nat} {s : State} (h : Clean line s) (c : CoreRef) (f : Core → Core)
    (sub : ∀ l ∈ (f (s.core c)).l1, l ∈ (s.core c).l1) : Clean line (s.modCore c f) := by
  intro e he l hl at'
  have cases : e = (CoreRef.key c, f (s.core c)) ∨ e ∈ s.cores := by
    have set : e ∈ Tbl.set Core.reset s.cores (CoreRef.key c) (f (s.core c)) := he
    unfold Tbl.set at set
    split at set
    · exact .inr (Tbl.mem_erase set).1
    · exact Tbl.mem_insert set
  rcases cases with rfl | old
  · exact h.core c l (sub l hl) at'
  · exact h e old l hl at'

/-- What is left where every copy of a line that is given back is clean: the homes' records of time alone change. -/
structure Lent (line : Nat) (s t : State) : Prop where
  worked : Worked s t
  dies : t.dies = s.dies
  mem : t.mem = s.mem
  whole : ∀ k, (t.lineMeta k).key = (s.lineMeta k).key ∧ (t.lineMeta k).poison = (s.lineMeta k).poison
  clean : Clean line t

theorem Lent.trans {line : Nat} {s t u : State} (h : Lent line s t) (k : Lent line t u) : Lent line s u :=
  ⟨h.worked.trans k.worked, k.dies.trans h.dies, k.mem.trans h.mem,
    fun l => ⟨(k.whole l).1.trans (h.whole l).1, (k.whole l).2.trans (h.whole l).2⟩, k.clean⟩

theorem Lent.modCore {line : Nat} {s : State} (clean : Clean line s) (c : CoreRef) (f : Core → Core)
    (kept : coreWork (f (s.core c)) = coreWork (s.core c)) (sub : ∀ l ∈ (f (s.core c)).l1, l ∈ (s.core c).l1) :
    Lent line s (s.modCore c f) :=
  ⟨.modCore s c f kept, rfl, rfl, fun _ => ⟨rfl, rfl⟩, clean.modCore c f sub⟩

theorem whole_modLine (s : State) (line : Nat) (f : LineMeta → LineMeta)
    (kept : ∀ m, (f m).key = m.key ∧ (f m).poison = m.poison) (k : Nat) :
    ((s.modLine line f).lineMeta k).key = (s.lineMeta k).key ∧ ((s.modLine line f).lineMeta k).poison = (s.lineMeta k).poison := by
  show ((Tbl.set LineMeta.clean s.lines line (f (s.lineMeta line))).get LineMeta.clean k).key = _
    ∧ ((Tbl.set LineMeta.clean s.lines line (f (s.lineMeta line))).get LineMeta.clean k).poison = _
  by_cases h : k = line
  · rw [h, Tbl.get_set_same]
    exact kept _
  · rw [Tbl.get_set_other _ _ _ h]
    exact ⟨rfl, rfl⟩

theorem lent_writeBack {line : Nat} {s : State} (clean : Clean line s) (c : CoreRef) (l : L1Line) (dirty : l.dirty = false) :
    Lent line s (s.writeBack c l) := by
  unfold State.writeBack
  split
  · exact ⟨.refl s, rfl, rfl, fun _ => ⟨rfl, rfl⟩, clean⟩
  · simp only [dirty, Bool.not_false, if_true]
    exact ⟨worked_modLine .., rfl, rfl, whole_modLine s l.line _ fun _ => ⟨rfl, rfl⟩, clean⟩

theorem lent_giveBack {line : Nat} {s : State} (clean : Clean line s) (c : CoreRef) : Lent line s (State.giveBack line false s c) := by
  have asked : Lent line s (if (s.core c).l1req = [] then s
      else s.modCore c fun k => { k with l1req := k.l1req.map (L1Req.revoked line false) }) := by
    split
    · exact ⟨.refl s, rfl, rfl, fun _ => ⟨rfl, rfl⟩, clean⟩
    · exact .modCore clean c _ rfl fun _ h => h
  unfold State.giveBack
  dsimp only
  refine asked.trans ?_
  have clean := asked.clean
  generalize (if (s.core c).l1req = [] then s
      else s.modCore c fun k => { k with l1req := k.l1req.map (L1Req.revoked line false) }) = u at clean ⊢
  have still : Lent line u u := ⟨.refl u, rfl, rfl, fun _ => ⟨rfl, rfl⟩, clean⟩
  split
  · exact still
  · next l found =>
    have dirty : l.dirty = false := clean.core c l (List.mem_of_find?_eq_some found) (by
      have picked := List.find?_some found
      simp only [Bool.and_eq_true, decide_eq_true_eq] at picked
      exact picked.1)
    split
    · have back := lent_writeBack clean c l dirty
      exact back.trans (.modCore back.clean c _ rfl fun _ h => (List.mem_filter.mp h).1)
    · exact still

theorem lent_recall {line : Nat} {s : State} (clean : Clean line s) : Lent line s (s.recall line false) := by
  unfold State.recall
  generalize s.coreRefs = l
  induction l generalizing s with
  | nil => exact ⟨.refl s, rfl, rfl, fun _ => ⟨rfl, rfl⟩, clean⟩
  | cons c l ih =>
    have one := lent_giveBack clean c
    exact one.trans (ih one.clean)

/-- A clean line reads as its home holds it. -/
theorem view_clean {line : Nat} {s : State} (clean : Clean line s) :
    s.view line = ⟨s.mem.bytes (line * 128) 128, (s.lineMeta line).key, (s.lineMeta line).poison⟩ := by
  simp only [State.view, (clean_iff line s).mpr clean]

theorem linesOf_one {o n : Nat} (some : 0 < n) (one : o % 128 + n ≤ 128) : linesOf o n = [lineOf o] := by
  unfold linesOf lineOf
  rw [show (o + n + 127) / 128 - o / 128 = 1 by omega]
  rfl

theorem raiseAgent_dies {u v : State} (die pos : Nat) (t : W64) (dies : v.dies = u.dies) :
    (v.raiseAgent die pos t).dies = (u.raiseAgent die pos t).dies := by
  unfold State.raiseAgent State.modDie State.die
  rw [dies]

/-- A load within a clean line gives the bytes of memory, and leaves them. -/
theorem homeLoad_clean {s : State} {die pos o n key : Nat} (some : 0 < n) (one : o % 128 + n ≤ 128) (clean : Clean (lineOf o) s)
    (reads : s.poisonUnder (s.view (lineOf o)) key = 0) : (s.homeLoad die pos o n key).2 = .ok (s.mem.bytes o n)
    ∧ (s.homeLoad die pos o n key).1.mem = s.mem ∧ (s.homeLoad die pos o n key).1.dies = (s.raiseAgent die pos
      ((linesOf o n).foldl (fun t l => tmax t ((s.recall (lineOf o) false).lineMeta l).wts) (s.agentTime die pos))).dies := by
  have lent := lent_recall clean
  have same : (s.recall (lineOf o) false).poisonUnder ((s.recall (lineOf o) false).view (lineOf o)) key = 0 := by
    rw [← reads, view_clean clean, view_clean lent.clean, lent.mem, (lent.whole _).1, (lent.whole _).2]
    unfold State.poisonUnder State.hasKey State.sameKey State.xtsKey
    rw [show (s.recall (lineOf o) false).keys = s.keys from (congrArg State.keys lent.worked.rest :),
      show (s.recall (lineOf o) false).oldKeys = s.oldKeys from (congrArg State.oldKeys lent.worked.rest :)]
  have times : (s.recall (lineOf o) false).agentTime die pos = s.agentTime die pos := by
    rw [State.agentTime, State.agentTime, State.die, State.die, lent.dies]
  unfold State.homeLoad
  rw [linesOf_one some one]
  simp only [List.foldl_cons, List.foldl_nil]
  refine ⟨?_, lent.mem, ?_⟩
  · unfold State.readHbm
    rw [linesOf_one some one]
    simp only [List.find?_cons, same, ne_eq, not_true_eq_false, decide_false, List.find?_nil, List.flatMap_cons, List.flatMap_nil, List.append_nil]
    rw [view_clean lent.clean, lent.mem]
    congr 1
    unfold Memory.bytes lineOf
    rw [← List.map_drop, ← List.map_take]
    apply List.ext_getElem
    · simp
      omega
    · intro i h1 h2
      simp only [List.length_map, List.length_take, List.length_drop, List.length_range] at h1
      simp only [List.getElem_map, List.getElem_take, List.getElem_drop, List.getElem_range]
      congr 1
      omega
  · rw [times]
    exact raiseAgent_dies (u := s) die pos _ lent.dies

end Sys2Proof

namespace Sys2Proof

open Machine

/-! ### Requests at their home Gatehouse (R265, R342, R343) -/

/-- The reply cell of a request, as it leaves. -/
def replyCell (job : Nat) (rep : RemoteRep) : Cell :=
  { routedCell 4 (gateRoute (idModule rep.id) (idGate rep.id)) job (repPayload rep) with psn := decide (rep.status = 4) }

/-- The output queue of a port of a die's Gatehouse router. -/
def gateOut (s : State) (d p : Nat) : List (Nat × Cell) := (((s.die d).pav gateRouter).port p).out

theorem gateOut_output (s : State) (d p : Nat) (c : Cell) : gateOut (s.output d gateRouter p c) d p = gateOut s d p ++ [(4, c)] := by
  have pav : ((s.output d gateRouter p c).die d).pav gateRouter
      = ((s.die d).pav gateRouter).modPort p fun q => { q with out := q.out ++ [(4, c)] } := by
    rw [State.output, State.modPav, State.die_modDie, Die.pav, Tbl.get_set_same]
  rw [gateOut, pav, Pavilion.modPort, Pavilion.port, Tbl.get_set_same]
  rfl

theorem gate_output (s : State) (d r p : Nat) (c : Cell) : ((s.output d r p c).die d).gate = (s.die d).gate := by
  rw [State.output, State.modPav, State.die_modDie]

theorem gate_modGate (s : State) (d : Nat) (f : Gatehouse → Gatehouse) : ((s.modGate d f).die d).gate = f (s.die d).gate := by
  rw [State.modGate, State.die_modDie]

/-- The die of a Gatehouse with its ports and links as they were, its reply cache and its requests as they were. -/
structure GateStands (d : Nat) (s t : State) : Prop where
  stands : TasksAndMemoryStand s t
  pavs : (t.die d).pavs = (s.die d).pavs
  links : (t.die d).links = (s.die d).links
  module : t.module = s.module
  gate : ∃ seq faults, (t.die d).gate = { (s.die d).gate with sendSeq := seq, faults := faults }

theorem GateStands.refl (d : Nat) (s : State) : GateStands d s s := ⟨⟨fun _ => rfl, rfl⟩, rfl, rfl, rfl, _, _, rfl⟩

theorem gate_of_worked {s t : State} (h : Worked s t) (d : Nat) :
    ∃ seq faults, (t.die d).gate = { (s.die d).gate with sendSeq := seq, faults := faults } := by
  have gate : { (t.die d).gate with sendSeq := [], faults := 0 } = { (s.die d).gate with sendSeq := [], faults := 0 } :=
    (congrArg Die.gate (h.dies d) :)
  exact ⟨(t.die d).gate.sendSeq, (t.die d).gate.faults,
    (congrArg (fun g : Gatehouse => { g with sendSeq := (t.die d).gate.sendSeq, faults := (t.die d).gate.faults }) gate :)⟩

theorem GateStands.of_worked {d : Nat} {s t : State} (h : Worked s t) (mem : t.mem = s.mem) (pavs : (t.die d).pavs = (s.die d).pavs) :
    GateStands d s t :=
  ⟨⟨h.task?, mem⟩, pavs, (congrArg Die.links (h.dies d) :), (congrArg State.module h.rest :), gate_of_worked h d⟩

theorem GateStands.portFor {d : Nat} {s t : State} (h : GateStands d s t) (m : Nat) : t.portFor d m = s.portFor d m := by
  obtain ⟨seq, faults, gate⟩ := h.gate
  unfold State.portFor State.portFailed
  rw [h.links, h.module, gate]

theorem GateStands.out {d : Nat} {s t : State} (h : GateStands d s t) (p : Nat) : gateOut t d p = gateOut s d p := by
  rw [gateOut, gateOut, Die.pav, Die.pav, h.pavs]

theorem GateStands.trans {d : Nat} {s t u : State} (h : GateStands d s t) (k : GateStands d t u) : GateStands d s u := by
  obtain ⟨q, f, gate⟩ := h.gate
  obtain ⟨q', f', gate'⟩ := k.gate
  exact ⟨⟨fun r => (k.stands.1 r).trans (h.stands.1 r), k.stands.2.trans h.stands.2⟩, k.pavs.trans h.pavs, k.links.trans h.links,
    k.module.trans h.module, q', f', by rw [gate', gate]⟩

theorem stands_postPsn (s : State) (d : Nat) (q : RemoteReq) (r : RemoteRep) : GateStands d s (s.postPsn d q r) := by
  unfold State.postPsn
  split
  · exact .of_worked (worked_postFault ..) (records_postFault ..).mem ((records_postFault ..).pavs d)
  · exact .refl d s

/-- A reply leaves by the port to the requester's module. -/
theorem sendReply_answers (s : State) (d job : Nat) (r : RemoteRep) : TasksAndMemoryStand s (s.sendReply d job r)
    ∧ ((s.sendReply d job r).die d).gate = (s.die d).gate
    ∧ gateOut (s.sendReply d job r) d (s.portFor d (idModule r.id))
      = gateOut s d (s.portFor d (idModule r.id)) ++ [(4, replyCell job r)] := by
  unfold State.sendReply
  exact ⟨stands_of rfl rfl, gate_output .., gateOut_output ..⟩

/-- A Gatehouse with a reply kept and the pair's sequence past its request. -/
def cachedGate (q : RemoteReq) (rep : RemoteRep) (g : Gatehouse) : Gatehouse :=
  { g with cache := g.cache ++ [⟨q.id, rep⟩], expectSeq := Tbl.set 0 g.expectSeq (pairKey q.id) ((idSeq q.id + 1) % 2 ^ 32) }

theorem serveReq_eq {s : State} {d : Nat} {q : RemoteReq} (room : (s.die d).gate.cache.length < 16384) :
    s.serveReq d q = (((((s.performReq d q).1.modGate d (cachedGate q (s.performReq d q).2)).postPsn d q (s.performReq d q).2).sendReply d
      q.job (s.performReq d q).2), true) := by
  rw [State.serveReq, if_neg (by rw [cacheLimit]; omega)]
  rfl

/-- What is served leaves its reply in the cache, and its pair at the next sequence. -/
theorem serveReq_keeps {s : State} {d : Nat} {q : RemoteReq} (room : (s.die d).gate.cache.length < 16384)
    (gate : ∃ seq faults, ((s.performReq d q).1.die d).gate = { (s.die d).gate with sendSeq := seq, faults := faults }) :
    (s.serveReq d q).2 = true
    ∧ ((s.serveReq d q).1.die d).gate.cache = (s.die d).gate.cache ++ [⟨q.id, (s.performReq d q).2⟩]
    ∧ ((s.serveReq d q).1.die d).gate.heldReqs = (s.die d).gate.heldReqs
    ∧ ((s.serveReq d q).1.die d).gate.expectSeq.get 0 (pairKey q.id) = (idSeq q.id + 1) % 2 ^ 32 := by
  rw [serveReq_eq room]
  generalize (s.performReq d q).2 = rep
  generalize (s.performReq d q).1 = u at gate ⊢
  obtain ⟨seq, faults, gate⟩ := gate
  have cached : ((u.modGate d (cachedGate q rep)).die d).gate = cachedGate q rep (u.die d).gate := gate_modGate ..
  generalize u.modGate d (cachedGate q rep) = v at cached ⊢
  obtain ⟨seq', faults', told⟩ := (stands_postPsn v d q rep).gate
  generalize v.postPsn d q rep = w at told ⊢
  rw [(sendReply_answers w d q.job rep).2.1, told, cached, gate]
  exact ⟨rfl, rfl, rfl, Tbl.get_set_same ..⟩

/-- What is served is answered. -/
theorem serveReq_answers {s : State} {d : Nat} {q : RemoteReq} {rep : RemoteRep} (room : (s.die d).gate.cache.length < 16384)
    (performs : (s.performReq d q).2 = rep) (kept : GateStands d s (s.performReq d q).1) : TasksAndMemoryStand s (s.serveReq d q).1
    ∧ gateOut (s.serveReq d q).1 d (s.portFor d (idModule rep.id)) = gateOut s d (s.portFor d (idModule rep.id)) ++ [(4, replyCell q.job rep)] := by
  rw [serveReq_eq room, performs]
  generalize (s.performReq d q).1 = u at kept ⊢
  have same : TasksAndMemoryStand u (u.modGate d (cachedGate q rep)) ∧ (u.modGate d (cachedGate q rep)).portFor d (idModule rep.id)
      = u.portFor d (idModule rep.id) ∧ gateOut (u.modGate d (cachedGate q rep)) d (u.portFor d (idModule rep.id))
      = gateOut u d (u.portFor d (idModule rep.id)) := by
    refine ⟨stands_of rfl rfl, ?_, ?_⟩
    · unfold State.portFor State.portFailed State.modGate
      rw [State.die_modDie]
      rfl
    · unfold gateOut State.modGate
      rw [State.die_modDie]
      rfl
  generalize u.modGate d (cachedGate q rep) = v at same ⊢
  obtain ⟨stood, port, out⟩ := same
  have told := stands_postPsn v d q rep
  generalize v.postPsn d q rep = w at told ⊢
  obtain ⟨sent, -, sentOut⟩ := sendReply_answers w d q.job rep
  have toPort : w.portFor d (idModule rep.id) = s.portFor d (idModule rep.id) := by rw [told.portFor, port, kept.portFor]
  rw [toPort] at sentOut
  rw [kept.portFor] at out
  refine ⟨⟨fun r => ?_, ?_⟩, ?_⟩
  · rw [sent.1, told.stands.1, stood.1, kept.stands.1]
  · rw [sent.2, told.stands.2, stood.2, kept.stands.2]
  · rw [sentOut, told.out, out, kept.out]

section

variable {d : Nat} {q : RemoteReq} {s : State}

theorem performReq_refuses (st : s.reqStatus q ≠ 0) : s.performReq d q = (s, ⟨s.reqStatus q, q.id, 0, []⟩) := by
  rw [State.performReq, if_pos st]
  rfl

/-- A load within a clean line: its bytes, and nothing else moves. -/
theorem performReq_load (st : s.reqStatus q = 0) (load : q.kind = 1) (one : paOffset q.pa % 128 + 2 ^ q.lgSize ≤ 128)
    (clean : Clean (lineOf (paOffset q.pa)) s) :
    ∃ time, (s.performReq d q).2 = ⟨0, q.id, time, s.mem.bytes (paOffset q.pa) (2 ^ q.lgSize)⟩
      ∧ GateStands d s (s.performReq d q).1 := by
  have reads : s.poisonUnder (s.view (lineOf (paOffset q.pa))) (reqKey q) = 0 := by
    unfold State.reqStatus at st
    dsimp only at st
    split_ifs at st with a b c e
    · rw [not_and_or, not_not, not_not] at e
      exact e.resolve_left (by rw [load]; decide)
  have loads : s.performReq d q = s.reqLoad d q := by
    rw [State.performReq, if_neg (not_not.mpr st), load] <;> rfl
  have raised := worked_raiseAgent s d gatePos (BitVec.ofNat 64 q.time)
  have base : (s.raiseAgent d gatePos (BitVec.ofNat 64 q.time)).mem = s.mem
      ∧ ((s.raiseAgent d gatePos (BitVec.ofNat 64 q.time)).die d).pavs = (s.die d).pavs
      ∧ Clean (lineOf (paOffset q.pa)) (s.raiseAgent d gatePos (BitVec.ofNat 64 q.time))
      ∧ (s.raiseAgent d gatePos (BitVec.ofNat 64 q.time)).poisonUnder
        ((s.raiseAgent d gatePos (BitVec.ofNat 64 q.time)).view (lineOf (paOffset q.pa))) (reqKey q) = 0 := by
    refine ⟨rfl, ?_, clean, reads⟩
    rw [State.raiseAgent, State.die_modDie]
  rw [loads]
  unfold State.reqLoad
  dsimp only
  generalize s.raiseAgent d gatePos (BitVec.ofNat 64 q.time) = u at raised base ⊢
  obtain ⟨mem, pavs, clean', reads'⟩ := base
  obtain ⟨got, gotMem, gotDies⟩ := homeLoad_clean (die := d) (pos := gatePos) (Nat.two_pow_pos q.lgSize) one clean' reads'
  have gotWorked := worked_homeLoad u d gatePos (paOffset q.pa) (2 ^ q.lgSize) (reqKey q)
  have gotPavs : ((u.homeLoad d gatePos (paOffset q.pa) (2 ^ q.lgSize) (reqKey q)).1.die d).pavs = (u.die d).pavs := by
    rw [State.die, gotDies, ← State.die, State.raiseAgent, State.die_modDie]
  unfold reqSize
  rw [got, mem]
  exact ⟨_, rfl, .of_worked (raised.trans gotWorked) (gotMem.trans mem) (gotPavs.trans pavs)⟩

end

end Sys2Proof

namespace Sys2Proof

open Machine

/-! ### REMOTE_REQUEST, SEQUENCE_SKIP and REPLY_CACHE_EXPIRE (R265, R342) -/

section

variable (s : State) (d : Nat) (q : RemoteReq)

theorem worked_markDie (t : W64) : Worked s (s.markDie d t) :=
  (Worked.modDie s d (fun x => { x with hwm := tmax x.hwm t }) rfl).trans (.of_stores rfl rfl rfl)

theorem worked_atomicAt (a : AtomicOp) (o key : Nat) (ta : W64) : Worked s (s.atomicAt a o key ta).1 := by
  rw [atomicAt_eq]
  dsimp only
  exact ((worked_recall s (lineOf o) true).trans (worked_storeHbm ..)).trans (worked_modLine ..)

theorem worked_reqLoad : Worked s (s.reqLoad d q).1 := (worked_raiseAgent ..).trans (worked_homeLoad _ _ _ _ _ (reqKey q))

theorem worked_reqStore : Worked s (s.reqStore d q).1 := by
  have stored : Worked s ((s.raiseAgent d gatePos (BitVec.ofNat 64 q.time)).storeHbm (paOffset q.pa) (reqKey q) (q.data.take (reqSize q))) :=
    (worked_raiseAgent ..).trans (worked_storeHbm ..)
  unfold State.reqStore
  dsimp only
  generalize (s.raiseAgent d gatePos (BitVec.ofNat 64 q.time)).storeHbm (paOffset q.pa) (reqKey q) (q.data.take (reqSize q)) = u at stored ⊢
  exact ((stored.trans (worked_modLine ..)).trans (worked_raiseAgent ..)).trans (worked_markDie ..)

theorem worked_reqAtomic : Worked s (s.reqAtomic d q).1 := by
  have given := worked_recall s (lineOf (paOffset q.pa)) true
  unfold State.reqAtomic
  dsimp only
  generalize s.recall (lineOf (paOffset q.pa)) true = u at given ⊢
  exact ((given.trans (worked_atomicAt ..)).trans (worked_raiseAgent ..)).trans (worked_markDie ..)

theorem worked_performReq : Worked s (s.performReq d q).1 := by
  unfold State.performReq
  dsimp only
  split
  · exact .refl s
  · split
    · exact worked_reqLoad ..
    · exact worked_reqStore ..
    · exact worked_reqAtomic ..

theorem reqHeld_modGate (f : Gatehouse → Gatehouse) : (s.modGate d f).reqHeld q = s.reqHeld q := by
  have busy : ∀ o, (s.modGate d f).homeBusy o = s.homeBusy o := fun o => by
    unfold State.homeBusy State.modGate
    by_cases h : homeDie o = d
    · rw [h, State.die_modDie]
    · rw [State.die_modDie_other _ _ h]
  unfold State.reqHeld State.runHeld
  simp only [busy]
  rfl

end

section

variable {d : Nat} {q : RemoteReq} {s : State}

theorem remote_again {c : CachedReply} (cached : (s.die d).gate.cache.find? (fun c => decide (c.id = q.id)) = some c) :
    exec (.remoteRequest d q) s = .next (s.sendReply d q.job c.rep) := by
  show Host.Outcome.next (s.remoteRequest d q) = _
  unfold State.remoteRequest
  simp only [cached]

variable (fresh : ∀ c ∈ (s.die d).gate.cache, c.id ≠ q.id)
include fresh

theorem remote_fresh : s.remoteRequest d q =
    if 2 ^ 31 ≤ (idSeq q.id + 2 ^ 32 - (s.die d).gate.expected q.id) % 2 ^ 32 ∨ s.diesJoined d (homeDie (paOffset q.pa)) = false then s
    else if (idSeq q.id + 2 ^ 32 - (s.die d).gate.expected q.id) % 2 ^ 32 ≠ 0 ∨ s.reqHeld q = true then s.holdReq d q
    else if ((s.dropHeld d q).serveReq d q).2 then
      (State.pumpReqs d (pairKey q.id) (s.die d).gate.heldReqs.length ((s.dropHeld d q).serveReq d q).1).1
    else ((s.dropHeld d q).serveReq d q).1 := by
  have unseen : (s.die d).gate.cache.find? (fun c => decide (c.id = q.id)) = none :=
    List.find?_eq_none.mpr fun c hc => by simpa using fresh c hc
  unfold State.remoteRequest
  simp only [unseen]

theorem remote_held (joined : s.diesJoined d (homeDie (paOffset q.pa)) = true)
    (waits : 0 < (idSeq q.id + 2 ^ 32 - (s.die d).gate.expectSeq.get 0 (pairKey q.id)) % 2 ^ 32 ∨ s.reqHeld q = true)
    (near : (idSeq q.id + 2 ^ 32 - (s.die d).gate.expectSeq.get 0 (pairKey q.id)) % 2 ^ 32 < 2 ^ 31)
    (new : ∀ x ∈ (s.die d).gate.heldReqs, x.id ≠ q.id) : ∃ t, exec (.remoteRequest d q) s = .next t ∧ TasksAndMemoryStand s t
      ∧ (t.die d).gate = { (s.die d).gate with heldReqs := (s.die d).gate.heldReqs ++ [q] } := by
  refine ⟨s.holdReq d q, ?_, stands_of rfl rfl, ?_⟩
  · show Host.Outcome.next (s.remoteRequest d q) = _
    rw [remote_fresh fresh, Gatehouse.expected, joined]
    rw [if_neg (not_or.mpr ⟨Nat.not_le.mpr near, Bool.noConfusion⟩), if_pos (waits.imp_left Nat.pos_iff_ne_zero.mp)]
  · rw [State.holdReq, gate_modGate, if_neg]
    simpa using new

theorem remote_serves (joined : s.diesJoined d (homeDie (paOffset q.pa)) = true)
    (turn : (idSeq q.id + 2 ^ 32 - (s.die d).gate.expectSeq.get 0 (pairKey q.id)) % 2 ^ 32 = 0) (free : s.reqHeld q = false)
    (nothing : (s.die d).gate.heldReqs = []) (room : (s.die d).gate.cache.length < 16384) {rep : RemoteRep} (own : rep.id = q.id)
    (performs : ((s.dropHeld d q).performReq d q).2 = rep) (kept : GateStands d (s.dropHeld d q) ((s.dropHeld d q).performReq d q).1) :
    ∃ t, exec (.remoteRequest d q) s = .next t ∧ TasksAndMemoryStand s t
      ∧ gateOut t d (s.portFor d (idModule q.id)) = gateOut s d (s.portFor d (idModule q.id)) ++ [(4, replyCell q.job rep)]
      ∧ (t.die d).gate.cache = (s.die d).gate.cache ++ [⟨q.id, rep⟩] ∧ (t.die d).gate.heldReqs = []
      ∧ (t.die d).gate.expectSeq.get 0 (pairKey q.id) = (idSeq q.id + 1) % 2 ^ 32 := by
  have gate : ((s.dropHeld d q).die d).gate = (s.die d).gate := by
    rw [State.dropHeld, gate_modGate, nothing, List.filter_nil, ← nothing]
  have port : (s.dropHeld d q).portFor d (idModule q.id) = s.portFor d (idModule q.id) := by
    unfold State.portFor State.portFailed State.dropHeld State.modGate
    rw [State.die_modDie]
    rfl
  have out : ∀ p, gateOut (s.dropHeld d q) d p = gateOut s d p := fun p => by
    unfold gateOut State.dropHeld State.modGate
    rw [State.die_modDie]
    rfl
  have stood : TasksAndMemoryStand s (s.dropHeld d q) := stands_of rfl rfl
  have runs : s.remoteRequest d q = if ((s.dropHeld d q).serveReq d q).2 then ((s.dropHeld d q).serveReq d q).1
      else ((s.dropHeld d q).serveReq d q).1 := by
    rw [remote_fresh fresh, Gatehouse.expected, joined, turn, free, nothing]
    rw [if_neg (by simp), if_neg (by simp)]
    rfl
  rw [ite_self] at runs
  generalize s.dropHeld d q = u at performs kept gate port out stood runs
  have answers := serveReq_answers (by rw [gate]; exact room) performs kept
  have keeps := serveReq_keeps (by rw [gate]; exact room) kept.gate
  rw [performs, gate] at keeps
  rw [own, port, out] at answers
  refine ⟨(u.serveReq d q).1, congrArg Host.Outcome.next runs, ⟨fun r => ?_, ?_⟩, answers.2, keeps.2.1, ?_, keeps.2.2.2⟩
  · rw [answers.1.1, stood.1]
  · rw [answers.1.2, stood.2]
  · rw [keeps.2.2.1, nothing]

end

/-- The one request that a pair holds is served when the missing ones are skipped. -/
theorem skip_serves {d k : Nat} {s : State} {q : RemoteReq} (held : (s.die d).gate.heldReqs = [q]) (pair : pairKey q.id = k)
    (room : (s.die d).gate.cache.length < 16384) (free : s.reqHeld q = false) : ∃ t rep, exec (.sequenceSkip d k) s = .next t
      ∧ (t.die d).gate.heldReqs = [] ∧ (t.die d).gate.cache = (s.die d).gate.cache ++ [⟨q.id, rep⟩]
      ∧ (t.die d).gate.expectSeq.get 0 k = (idSeq q.id + 1) % 2 ^ 32 := by
  have next : (s.die d).gate.nextHeld k = some (idSeq q.id) := by
    unfold Gatehouse.nextHeld
    rw [held]
    simp [pair]
  have passed : ((s.modGate d fun g => { g with expectSeq := Tbl.set 0 g.expectSeq k (idSeq q.id) }).die d).gate
      = { (s.die d).gate with expectSeq := Tbl.set 0 (s.die d).gate.expectSeq k (idSeq q.id) } := gate_modGate ..
  have waits : (s.modGate d fun g => { g with expectSeq := Tbl.set 0 g.expectSeq k (idSeq q.id) }).reqHeld q = false := by
    rw [reqHeld_modGate, free]
  have skips : State.skipSeqs d k 1 s
      = (State.pumpReqs d k 1 (s.modGate d fun g => { g with expectSeq := Tbl.set 0 g.expectSeq k (idSeq q.id) })).1 := by
    simp only [State.skipSeqs, next, held, List.length_singleton, ite_self]
  generalize (s.modGate d fun g => { g with expectSeq := Tbl.set 0 g.expectSeq k (idSeq q.id) }) = u at passed waits skips
  have finds : (u.die d).gate.heldReqs.find? (fun x => decide (pairKey x.id = k) && decide (idSeq x.id = (u.die d).gate.expectSeq.get 0 k))
      = some q := by
    rw [passed]
    simp only [held, List.find?_cons, pair, Tbl.get_set_same, decide_true, Bool.and_self]
  have pumps : (State.pumpReqs d k 1 u).1 = ((u.dropHeld d q).serveReq d q).1 := by
    simp only [State.pumpReqs, finds, waits, Bool.false_eq_true, if_false]
    split <;> rfl
  have gate : ((u.dropHeld d q).die d).gate = { (u.die d).gate with heldReqs := [] } := by
    rw [State.dropHeld, gate_modGate, passed, held]
    simp
  obtain ⟨-, cache, heldReqs, expect⟩ := serveReq_keeps (s := u.dropHeld d q) (d := d) (q := q)
    (by rw [gate, passed]; exact room) (gate_of_worked (worked_performReq ..) d)
  rw [gate] at cache heldReqs
  rw [passed] at cache
  refine ⟨_, _, ?_, heldReqs, cache, pair ▸ expect⟩
  show Host.Outcome.next (State.skipSeqs d k (s.die d).gate.heldReqs.length s) = _
  rw [held, List.length_singleton, skips, pumps]

/-- REMOTE_REQUEST, case by case. -/
theorem remoteRequest_steps (d : Nat) (q : RemoteReq) (s : State) :
    let g := (s.die d).gate
    let i : Instr := .remoteRequest d q
    let o := paOffset q.pa
    let ahead := (idSeq q.id + 2 ^ 32 - g.expectSeq.get 0 (pairKey q.id)) % 2 ^ 32
    let p := s.portFor d (idModule q.id)
    let answers := fun (t : State) (rep : RemoteRep) => (((t.die d).pav gateRouter).port p).out
      = (((s.die d).pav gateRouter).port p).out ++
        [(4, { routedCell 4 (gateRoute (idModule rep.id) (idGate rep.id)) q.job (repPayload rep) with psn := decide (rep.status = 4) })]
    let serves := fun (rep : RemoteRep) => ∃ t, exec i s = .next t ∧ TasksAndMemoryStand s t ∧ answers t rep
      ∧ (t.die d).gate.cache = g.cache ++ [⟨q.id, rep⟩] ∧ (t.die d).gate.heldReqs = []
      ∧ (t.die d).gate.expectSeq.get 0 (pairKey q.id) = (idSeq q.id + 1) % 2 ^ 32
    (∀ c, g.cache.find? (fun c => decide (c.id = q.id)) = some c → idModule c.rep.id = idModule q.id → ∃ t, exec i s = .next t
      ∧ TasksAndMemoryStand s t ∧ answers t c.rep ∧ (t.die d).gate = g)
    ∧ ((∀ c ∈ g.cache, c.id ≠ q.id) →
      (2 ^ 31 ≤ ahead ∨ s.diesJoined d (homeDie o) = false → exec i s = .next s)
      ∧ (s.diesJoined d (homeDie o) = true → 0 < ahead ∨ s.reqHeld q = true → ahead < 2 ^ 31 → (∀ x ∈ g.heldReqs, x.id ≠ q.id) → ∃ t, exec i s = .next t ∧ TasksAndMemoryStand s t
        ∧ (t.die d).gate = { g with heldReqs := g.heldReqs ++ [q] })
      ∧ (s.diesJoined d (homeDie o) = true → ahead = 0 → s.reqHeld q = false → g.heldReqs = [] → g.cache.length < 16384 →
        (s.reqStatus q ≠ 0 → serves ⟨s.reqStatus q, q.id, 0, []⟩)
        ∧ (s.reqStatus q = 0 → q.kind = 1 → o % 128 + 2 ^ q.lgSize ≤ 128 → dirtyCopy (lineOf o) s.cores = none →
          ∃ time, serves ⟨0, q.id, time, s.mem.bytes o (2 ^ q.lgSize)⟩))) := by
  intro g i o ahead p answers serves
  refine ⟨fun c cached own => ?_, fun fresh => ⟨fun passed => ?_, remote_held fresh, fun joined turn free nothing room => ⟨fun st => ?_, ?_⟩⟩⟩
  · obtain ⟨stand, gate, out⟩ := sendReply_answers s d q.job c.rep
    rw [own] at out
    exact ⟨_, remote_again cached, stand, out, gate⟩
  · show Host.Outcome.next (s.remoteRequest d q) = _
    rw [remote_fresh fresh, Gatehouse.expected, if_pos passed]
  · exact remote_serves fresh joined turn free nothing room rfl (congrArg Prod.snd (performReq_refuses (s := s.dropHeld d q) st))
      (by rw [performReq_refuses (s := s.dropHeld d q) st]; exact .refl d _)
  · intro st load one dirty
    obtain ⟨time, performs, kept⟩ := performReq_load (s := s.dropHeld d q) (d := d) st load one ((clean_iff _ s).mp dirty)
    exact ⟨time, remote_serves fresh joined turn free nothing room rfl performs kept⟩

end Sys2Proof

namespace Sys2Proof

open Machine

/-! ### REPLY, RETRANSMIT and REMOTE_TIMEOUT (R265, R341, R426) -/

/-- The requests sent with an answer that waits for its bundle or command. -/
def answered (s : State) (rep : RemoteRep) : State :=
  { s with sent := s.sent.map fun y => if y.req.id = rep.id then { y with reply := some rep } else y }

section

variable {s : State} {x : SentReq} {id : Nat} (opens : s.openReq id = some x)
include opens

theorem openReq_id : x.req.id = id := by
  have found := List.find?_some opens
  simp only [Bool.and_eq_true, decide_eq_true_eq] at found
  exact found.1

theorem answers_waiting {rep : RemoteRep} (same : rep.id = id) (waiting : x.posted = false) : s.answerReq x rep = answered s rep := by
  unfold State.answerReq answered
  simp only [waiting, Bool.false_eq_true, if_false, openReq_id opens, same]

/-- A posted store is acknowledged: it is outstanding no longer. -/
theorem acknowledges {rep : RemoteRep} (whole : rep.status = 0) (posted : x.posted = true) : ∃ t, s.answerReq x rep = t ∧ t.mem = s.mem
    ∧ t.sent = s.sent.filter (fun y => !decide (y.req.id = id)) ∧ OthersStand s t x.task
    ∧ ∀ k, s.task? x.task = some k → t.task? x.task = some { k with remoteStores := k.remoteStores.filter fun i => !decide (i = id) } := by
  have acks : s.answerReq x rep = if ((s.dropSent id).task? x.task).isSome
      then (s.dropSent id).modTask x.task fun t => { t with remoteStores := t.remoteStores.filter fun i => !decide (i = id) }
      else s.dropSent id := by
    rw [State.answerReq, if_pos posted, whole, State.ackStore, openReq_id opens]
    rfl
  refine ⟨_, rfl, ?_⟩
  rw [acks]
  split
  · next there =>
    refine ⟨rfl, rfl, fun q beside => othersStand_modTask (s.dropSent id) x.task _ q beside, fun k here => ?_⟩
    have held : (s.dropSent id).task x.task = k := by
      show (s.task? x.task).getD Task.blank = k
      rw [here]
      rfl
    rw [task?_modTask, if_pos ⟨rfl, rfl⟩, held]
  · next gone => exact ⟨rfl, rfl, fun _ _ => rfl, fun k here => absurd (show (s.task? x.task).isSome = true by rw [here]; rfl) gone⟩

theorem retransmits (again : x.sends < 9) : ∃ t, exec (.retransmit id) s = .next t ∧ TasksAndMemoryStand s t
    ∧ t.sent = s.sent.map (fun y => if y.req.id = id then { y with sends := y.sends + 1 } else y)
    ∧ gateOut t x.gate (s.portFor x.gate x.home) = gateOut s x.gate (s.portFor x.gate x.home) ++ [(4, reqCell x.req x.home x.gate)] := by
  let counted : State := { s with sent := s.sent.map fun y => if y.req.id = id then { y with sends := y.sends + 1 } else y }
  refine ⟨counted.transmit x.gate x.home x.req, ?_, stands_of rfl rfl, rfl, gateOut_output counted ..⟩
  show Host.Outcome.next (match s.openReq id with
    | some x => if x.sends < sendsLimit then _ else s
    | none => s) = _
  rw [opens]
  exact congrArg Host.Outcome.next (if_pos again)

end

/-- REPLY, RETRANSMIT and REMOTE_TIMEOUT, case by case. -/
theorem replies_steps (d : Nat) (r : RemoteRep) (s : State) :
    (s.openReq r.id = none → exec (.reply d r) s = .next s ∧ exec (.retransmit r.id) s = .next s
      ∧ exec (.remoteTimeout r.id) s = .next s)
    ∧ ∀ x, s.openReq r.id = some x →
      (r.status = 2 ∨ x.gate ≠ d → exec (.reply d r) s = .next s)
      ∧ (r.status ≠ 2 → x.gate = d → x.posted = false → exec (.reply d r) s = .next (answered s r))
      ∧ (r.status = 0 → x.gate = d → x.posted = true → ∃ t, exec (.reply d r) s = .next t ∧ t.mem = s.mem
        ∧ t.sent = s.sent.filter (fun y => !decide (y.req.id = r.id)) ∧ OthersStand s t x.task
        ∧ ∀ k, s.task? x.task = some k → t.task? x.task
          = some { k with remoteStores := k.remoteStores.filter fun i => !decide (i = r.id) })
      ∧ (x.sends < 9 → exec (.remoteTimeout r.id) s = .next s ∧ ∃ t, exec (.retransmit r.id) s = .next t
        ∧ TasksAndMemoryStand s t
        ∧ t.sent = s.sent.map (fun y => if y.req.id = r.id then { y with sends := y.sends + 1 } else y)
        ∧ gateOut t x.gate (s.portFor x.gate x.home) = gateOut s x.gate (s.portFor x.gate x.home) ++ [(4, reqCell x.req x.home x.gate)])
      ∧ (9 ≤ x.sends → exec (.retransmit r.id) s = .next s
        ∧ (x.posted = false → exec (.remoteTimeout r.id) s = .next (answered s ⟨5, r.id, 0, []⟩))) := by
  have reply : exec (.reply d r) s = execReply d r s := rfl
  have resend : exec (.retransmit r.id) s = execRetransmit r.id s := rfl
  have timeout : exec (.remoteTimeout r.id) s = execRemoteTimeout r.id s := rfl
  refine ⟨fun closed => ?_, fun x opens => ⟨fun other => ?_, fun real here waiting => ?_, fun whole here posted => ?_, fun again => ⟨?_, ?_⟩,
    fun spent => ⟨?_, fun waiting => ?_⟩⟩⟩
  · rw [reply, resend, timeout]
    simp only [execReply, execRetransmit, execRemoteTimeout, closed, and_self]
  · simp only [reply, execReply, opens]
    rw [if_neg fun both => other.elim both.2 (absurd both.1)]
  · simp only [reply, execReply, opens]
    rw [if_pos ⟨here, real⟩, answers_waiting opens rfl waiting]
  · obtain ⟨t, acks, facts⟩ := acknowledges opens whole posted
    refine ⟨t, ?_, facts⟩
    simp only [reply, execReply, opens]
    rw [if_pos ⟨here, by omega⟩, acks]
  · simp only [timeout, execRemoteTimeout, opens]
    rw [if_pos (by rw [sendsLimit]; exact again)]
  · exact retransmits opens again
  · simp only [resend, execRetransmit, opens]
    rw [if_neg (by rw [sendsLimit]; omega)]
  · simp only [timeout, execRemoteTimeout, opens]
    rw [if_neg (by rw [sendsLimit]; omega)]
    exact congrArg Host.Outcome.next (answers_waiting opens rfl waiting)

end Sys2Proof

namespace Sys2Proof

open Machine

/-! ### A COLL at its engine (R358, R359) -/

/-- The block of a collective that a command keeps. -/
theorem collBlock_kept {x : Cmd} {b : List Byte} (length : b.length = 128) : ({ x with cells := 1, fields := keepBlock x.fields b } : Cmd).collBlock = b := by
  have words : ∀ i ∈ List.range 16, leBytes 8 ((keepBlock x.fields b).get 0 (64 + i)).toNat = (b.drop (8 * i)).take 8 := fun i hi => by
    have low := List.mem_range.1 hi
    have piece : ((b.drop (8 * i)).take 8).length = 8 := by
      rw [List.length_take, List.length_drop]
      omega
    have back := leBytes_leNat ((b.drop (8 * i)).take 8)
    have small := leNat_lt ((b.drop (8 * i)).take 8)
    rw [piece] at back small
    rw [get_keepBlock _ _ (by omega), BitVec.toNat_ofNat, bytesAt, Nat.mod_eq_of_lt (by omega)]
    exact back
  show ((List.range (16 + 8)).flatMap (fun i => leBytes 8 ((keepBlock x.fields b).get 0 (64 + i)).toNat)).take 128 = b
  rw [List.range_add, List.flatMap_append, List.flatMap_congr words, pieces_of b 16 length, List.take_left' length]

theorem length_readElems (g : Agent) (w : Nat) : ∀ (l : List W64) (s t : State) (r : List Nat), State.readElems g w l s = (t, .ok r) → r.length = l.length
  | [], s, t, r, read => by
    have got := congrArg Prod.snd read
    rw [State.readElems] at got
    exact (congrArg List.length (Except.ok.inj got)).symm
  | a :: rest, s, t, r, read => by
    have got := congrArg Prod.snd read
    rw [State.readElems] at got
    dsimp only at got
    split at got
    · cases got
    · cases got
    · next b hb =>
      dsimp only at got
      have tail := length_readElems g w rest (s.engineRead g a w).1
      generalize State.readElems g w rest (s.engineRead g a w).1 = z at tail got
      obtain ⟨u, z⟩ := z
      cases z with
      | error e => cases got
      | ok m =>
        have eq : leNat b :: m = r := Except.ok.inj got
        rw [← eq, List.length_cons, List.length_cons, tail u m rfl]

theorem length_readRun {s t : State} {g : Agent} {a : W64} {n : Nat} {b : List Byte} (read : s.readRun g a n = (t, .ok b)) (words : n % 8 = 0) :
    b.length = n := by
  have fits : n / pieceSize a * pieceSize a = n := by
    unfold pieceSize
    split <;> omega
  unfold State.readRun at read
  dsimp only at read
  have elems := length_readElems g (pieceSize a) ((List.range (n / pieceSize a)).map fun i => a + BitVec.ofNat 64 (pieceSize a * i)) s
  generalize State.readElems g (pieceSize a) ((List.range (n / pieceSize a)).map fun i => a + BitVec.ofNat 64 (pieceSize a * i)) s = z at elems read
  obtain ⟨u, z⟩ := z
  cases z with
  | error e => cases congrArg Prod.snd read
  | ok m =>
    have eq : m.flatMap (leBytes (pieceSize a)) = b := Except.ok.inj (congrArg Prod.snd read)
    have count := elems u m rfl
    rw [List.length_map, List.length_range] at count
    rw [← eq, List.length_flatMap]
    simp only [leBytes_length, List.map_const', List.sum_replicate, smul_eq_mul]
    rw [count, fits]

theorem collOn_other (s : State) {d k : Nat} (f : Die → Die) (h : k ≠ d) (job : Nat) (id : W64) : (s.modDie d f).collOn k job id = s.collOn k job id := by
  rw [State.collOn, State.collOn, State.die_modDie_other _ _ h]

theorem collOn_kept (s : State) (d : Nat) (f : Die → Die) (h : (f (s.die d)).colls = (s.die d).colls) (k job : Nat) (id : W64) :
    (s.modDie d f).collOn k job id = s.collOn k job id := by
  by_cases hk : k = d
  · rw [State.collOn, State.collOn, hk, State.die_modDie, h]
  · exact collOn_other s f hk job id

theorem anyColl_none {s : State} {job : Nat} {id : W64} (h : ∀ d, d < 8 → s.collOn d job id = none) : s.anyColl job id = none :=
  List.findSome?_eq_none_iff.mpr fun d hd => h d (List.mem_range.mp hd)

/-- The collective that the first COLL of its key opens at its engine. -/
def newColl (x : Cmd) : Coll :=
  { job := x.job, collid := collId x.collBlock, nranks := collN x.collBlock, lead := x.collBlock, list := [], ranks := [],
    started := false, tree := none, got := [], failed := none, seen := [], issuers := [], src := none }

/-- A collective with the rank of a COLL. -/
def withRank (x : Cmd) (c : CoreRef) (tok : Nat) (lidx : W64) (launch : Nat) (y : Coll) : Coll :=
  { y with
    ranks := y.ranks ++ [⟨collRankOf x.collBlock, c, tok, false, false, false⟩]
    seen := if y.seen.contains (collRankOf x.collBlock) then y.seen else y.seen ++ [collRankOf x.collBlock]
    issuers := y.issuers ++ [(x.taskRef c, lidx, launch)] }

/-- A COLL marked started, and waiting no longer. -/
def collMarked (v : State) (c : CoreRef) (tok : Nat) (x : Cmd) : State :=
  (v.modCore c fun k => k.setCmd tok (some { x with started := true })).modDie c.die fun d =>
    { d with collWait := d.collWait.filter fun e => !decide (e = (c, tok)) }

/-- The state in which the first COLL of its key has opened its collective. -/
def collJoined (v : State) (c : CoreRef) (tok : Nat) (x : Cmd) : State :=
  ((collMarked v c tok x).modDie c.die fun d => { d with colls := d.colls ++ [newColl x] }).modColl c.die x.job (collId x.collBlock)
    (withRank x c tok (v.task (x.taskRef c)).lidx (v.task (x.taskRef c)).launch)

section

variable {v : State} {c : CoreRef} {tok : Nat} {x : Cmd} (empty : (v.die c.die).colls = [])
include empty

theorem collMarked_colls : ((collMarked v c tok x).die c.die).colls = [] := by
  rw [collMarked, State.die_modDie]
  exact empty

theorem collJoined_colls : ((collJoined v c tok x).die c.die).colls
    = [withRank x c tok (v.task (x.taskRef c)).lidx (v.task (x.taskRef c)).launch (newColl x)] := by
  rw [collJoined, State.modColl, State.die_modDie, State.die_modDie]
  simp only [collMarked_colls empty, List.nil_append, List.map_singleton]
  rw [if_pos ⟨rfl, rfl⟩]

omit empty in
theorem collJoined_keeps : TasksAndMemoryStand v (collJoined v c tok x) ∧ ((collJoined v c tok x).core c).cmd tok = some { x with started := true } := by
  refine ⟨⟨task?_modCore_tasks v c (f := fun k => k.setCmd tok (some { x with started := true })) rfl, rfl⟩, ?_⟩
  show ((v.modCore c fun k => k.setCmd tok (some { x with started := true })).core c).cmd tok = _
  rw [State.core_modCore, cmd_setCmd, if_pos rfl]

/-- A COLL that is the first of its key opens its collective (R358). -/
theorem joins_alone (first : ∀ d, d < 8 → v.collOn d x.job (collId x.collBlock) = none) :
    v.joinColl c tok x = (collJoined v c tok x).startColl x.job (collId x.collBlock) := by
  have any := anyColl_none first
  have none_of : v.collsOf x.job (collId x.collBlock) = [] :=
    List.filterMap_eq_nil_iff.mpr fun d hd => first d (List.mem_range.mp hd)
  have closed : (collMarked v c tok x).collOn c.die x.job (collId x.collBlock) = none := by rw [State.collOn, collMarked_colls empty]; rfl
  have found : (collJoined v c tok x).collOn c.die x.job (collId x.collBlock)
      = some (withRank x c tok (v.task (x.taskRef c)).lidx (v.task (x.taskRef c)).launch (newColl x)) := by
    rw [State.collOn, collJoined_colls empty]
    exact List.find?_cons_of_pos (by simp [withRank, newColl])
  have steps : v.joinColl c tok x = match (collJoined v c tok x).collOn c.die x.job (collId x.collBlock) with
      | none => collJoined v c tok x
      | some y =>
        match y.failed with
        | some f =>
          ((State.failRank f.1 f.2 x.job (collId x.collBlock) (collJoined v c tok x) (c.die, ⟨collRankOf x.collBlock, c, tok, false, false, false⟩)).modColl
            c.die x.job (collId x.collBlock) fun y => { y with ranks := [] }).settleFailed x.job (collId x.collBlock)
        | none =>
          if false || decide (collShared x.collBlock ≠ collShared y.lead) then
            ((collJoined v c tok x).failColl x.job (collId x.collBlock) 0x4A (collRankOf x.collBlock)).settleFailed x.job (collId x.collBlock)
          else (collJoined v c tok x).startColl x.job (collId x.collBlock) := by
    unfold collMarked at closed
    unfold State.joinColl collJoined collMarked
    simp only [any, none_of, List.any_nil, closed, Option.isSome_none, Bool.false_eq_true, if_false] <;> rfl
  rw [steps, found]
  exact if_neg (by simp [withRank, newColl])

end

/-- A COLL that waits at its engine. -/
def collQueued (v : State) (c : CoreRef) (tok : Nat) (x : Cmd) : State :=
  (v.modDie c.die fun d => { d with collWait := d.collWait ++ [(c, tok)] }).modCore c fun k => k.setCmd tok (some x)

section

variable {v : State} {c : CoreRef} {tok : Nat} {x : Cmd}

theorem collQueued_die : (collQueued v c tok x).die c.die = { v.die c.die with collWait := (v.die c.die).collWait ++ [(c, tok)] } := by
  show (v.modDie c.die fun d => { d with collWait := d.collWait ++ [(c, tok)] }).die c.die = _
  rw [State.die_modDie]

theorem collQueued_keeps : TasksAndMemoryStand v (collQueued v c tok x) :=
  ⟨task?_modCore_tasks (v.modDie c.die fun d => { d with collWait := d.collWait ++ [(c, tok)] }) c (f := fun k => k.setCmd tok (some x)) rfl, rfl⟩

theorem collQueued_collOn (d job : Nat) (id : W64) : (collQueued v c tok x).collOn d job id = v.collOn d job id :=
  collOn_kept v c.die (fun d => { d with collWait := d.collWait ++ [(c, tok)] }) rfl d job id

/-- A COLL whose engine holds nothing joins at once. -/
theorem enters_alone (empty : (v.die c.die).colls = []) (nothing : (v.die c.die).collWait = []) :
    v.enterColl c tok x = (collQueued v c tok x).joinColl c tok x := by
  have pruned : v.pruneColls c.die = v := by rw [State.pruneColls, empty]; rfl
  have die := collQueued_die (v := v) (c := c) (tok := tok) (x := x)
  have goes : (collQueued v c tok x).waitsBefore c.die (c, tok) = false := by
    unfold State.waitsBefore
    rw [die, nothing, List.nil_append, List.takeWhile_cons_of_neg (by simp)]
    rfl
  have steps : v.enterColl c tok x = if ((collQueued v c tok x).collOn c.die x.job (collId x.collBlock)).isSome then (collQueued v c tok x).joinColl c tok x
      else if (collQueued v c tok x).waitsBefore c.die (c, tok)
          || decide (16 ≤ (((collQueued v c tok x).die c.die).colls.filter fun k => k.failed.isNone).length) then collQueued v c tok x
      else (collQueued v c tok x).joinColl c tok x := by
    have unseen : (v.die c.die).collWait.contains (c, tok) = false := by rw [nothing]; rfl
    unfold State.enterColl collQueued
    simp only [pruned, unseen, Bool.false_eq_true, if_false]
  rw [steps, goes, die, empty]
  split
  · rfl
  · rfl

end

section

variable {s : State} {c : CoreRef} {tok : Nat} {x : Cmd} {ord rz : Bool}

theorem collArrive_none (none : s.collCmd c tok = none) : exec (.collArrive c tok) s = .next s := by
  show execCollArrive c tok s = _
  unfold execCollArrive
  rw [none]

variable (there : (s.core c).cmd tok = some x) (coll : x.kind = .coll ord rz)
include there coll

theorem collArrive_steps : exec (.collArrive c tok) s = .next (
    if x.started ∨ x.deps ≠ [] ∨ s.jobStopped x.job = true then s
    else if x.cells = 1 then s.enterColl c tok x
    else if x.depFault.isSome then s.endCmd c tok 0x43 (s.task (x.taskRef c)).time
    else if 2 ≤ addrForm (x.fields.get 0 0) then s.endCmd c tok 0x49 (s.task (x.taskRef c)).time
    else
      match (s.readRun (x.collAgent c tok) (x.fields.get 0 0) 128).2 with
      | .error none => (s.readRun (x.collAgent c tok) (x.fields.get 0 0) 128).1
      | .error (some e) => ((s.readRun (x.collAgent c tok) (x.fields.get 0 0) 128).1.noteRefused (x.collAgent c tok) x e).endCmd c tok e.cause
          (s.task (x.taskRef c)).time
      | .ok b =>
        if !collOk c.core ord rz b then (s.readRun (x.collAgent c tok) (x.fields.get 0 0) 128).1.endCmd c tok 0x49 (s.task (x.taskRef c)).time
        else (s.readRun (x.collAgent c tok) (x.fields.get 0 0) 128).1.enterColl c tok { x with cells := 1, fields := keepBlock x.fields b }) := by
  have cmd : s.collCmd c tok = some x := by
    unfold State.collCmd
    simp only [there, coll]
  show execCollArrive c tok s = _
  unfold execCollArrive
  simp only [cmd, coll] <;> rfl

/-- COLL_ARRIVE, case by case. -/
theorem collArrive_cases : let u := (s.task (issuerOf c x)).time
    let a := x.collAgent c tok
    let p := x.fields.get 0 0
    let ends := fun (s1 : State) cause => ∃ t, exec (.collArrive c tok) s = .next t ∧ Ended s1 t c tok x cause u ∧ t.mem = s1.mem
    (x.started = true ∨ x.deps ≠ [] ∨ s.jobStopped x.job = true → exec (.collArrive c tok) s = .next s)
    ∧ (x.started = false → x.deps = [] → s.jobStopped x.job = false →
      (x.cells = 1 → exec (.collArrive c tok) s = .next (s.enterColl c tok x))
      ∧ (x.cells ≠ 1 → (x.depFault.isSome = true → ends s 0x43)
        ∧ (x.depFault = none → 2 ≤ addrForm p → ends s 0x49)
        ∧ ∀ s1 b, x.depFault = none → addrForm p < 2 → s.readRun a p 128 = (s1, .ok b) → (s1.core c).cmd tok = some x →
          (collOk c.core ord rz b = false → ends s1 0x49)
          ∧ (collOk c.core ord rz b = true → (s1.die c.die).colls = [] → (s1.die c.die).collWait = [] →
            (∀ d, d < 8 → s1.collOn d x.job (collId b) = none) →
            ∃ s2 y z, exec (.collArrive c tok) s = .next (s2.startColl x.job (collId b)) ∧ TasksAndMemoryStand s1 s2
              ∧ (s2.die c.die).colls = [y] ∧ y.job = x.job ∧ y.collid = collId b ∧ y.nranks = collN b
              ∧ y.ranks = [⟨collRankOf b, c, tok, false, false, false⟩] ∧ y.started = false ∧ y.failed = none
              ∧ (s2.core c).cmd tok = some z ∧ z.started = true ∧ z.kind = x.kind))) := by
  intro u a p ends
  have steps := collArrive_steps there coll
  refine ⟨fun idle => by rw [steps, if_pos idle], fun fresh free runs => ?_⟩
  rw [if_neg (by rw [fresh, runs]; simp [free])] at steps
  refine ⟨fun reached => by rw [steps, if_pos reached], fun unread => ?_⟩
  rw [if_neg unread] at steps
  refine ⟨fun bad => ?_, fun good form => ?_, fun s1 b good form read still => ?_⟩
  · rw [if_pos bad] at steps
    obtain ⟨ended, mem, -⟩ := endCmd_ends there 0x43 u
    exact ⟨_, steps, ended, mem⟩
  · rw [good, if_neg (by simp), if_pos form] at steps
    obtain ⟨ended, mem, -⟩ := endCmd_ends there 0x49 u
    exact ⟨_, steps, ended, mem⟩
  · rw [if_neg (by rw [good]; simp), if_neg (Nat.not_le.mpr form), show s.readRun (x.collAgent c tok) (x.fields.get 0 0) 128 = (s1, .ok b) from read] at steps
    dsimp only at steps
    refine ⟨fun refused => ?_, fun ok empty nothing first => ?_⟩
    · rw [refused] at steps
      obtain ⟨ended, mem, -⟩ := endCmd_ends still 0x49 u
      exact ⟨_, steps, ended, mem⟩
    · rw [ok] at steps
      have block := collBlock_kept (x := x) (length_readRun read rfl)
      generalize hz : ({ x with cells := 1, fields := keepBlock x.fields b } : Cmd) = z at block steps
      have job : z.job = x.job := by rw [← hz]
      have kind : z.kind = x.kind := by rw [← hz]
      have queued := collQueued_keeps (v := s1) (c := c) (tok := tok) (x := z)
      have empty' : ((collQueued s1 c tok z).die c.die).colls = [] := by rw [collQueued_die]; exact empty
      have first' : ∀ d, d < 8 → (collQueued s1 c tok z).collOn d z.job (collId z.collBlock) = none := fun d hd => by
        rw [collQueued_collOn, job, block]
        exact first d hd
      have enters := (enters_alone empty nothing).trans (joins_alone empty' first')
      have colls := collJoined_colls (tok := tok) (x := z) empty'
      obtain ⟨stood, command⟩ := collJoined_keeps (v := collQueued s1 c tok z) (c := c) (tok := tok) (x := z)
      generalize collJoined (collQueued s1 c tok z) c tok z = s2 at enters colls stood command
      rw [job, block] at enters
      refine ⟨s2, _, _, steps.trans (congrArg Host.Outcome.next enters), ⟨fun q => (stood.1 q).trans (queued.1 q), stood.2.trans queued.2⟩, colls, job,
        congrArg collId block, congrArg collN block, ?_, rfl, rfl, command, rfl, kind⟩
      show [(⟨collRankOf z.collBlock, c, tok, false, false, false⟩ : CollRank)] = _
      rw [block]

end

end Sys2Proof

namespace Sys2Proof

open Machine

/-! ### Collectives of a module -/

theorem collOn_key {s : State} {d job : Nat} {id : W64} {y : Coll} (h : s.collOn d job id = some y) : y.job = job ∧ y.collid = id := by
  have found := List.find?_some h
  simpa only [Bool.and_eq_true, decide_eq_true_eq] using found

/-- A change of the collectives of a key that keeps their keys is seen by each. -/
theorem find_mapped (l : List Coll) (job : Nat) (id : W64) (f : Coll → Coll) (keeps : ∀ x, (f x).job = x.job ∧ (f x).collid = x.collid) :
    (l.map fun x => if x.job = job ∧ x.collid = id then f x else x).find? (fun x => decide (x.job = job) && decide (x.collid = id))
      = (l.find? fun x => decide (x.job = job) && decide (x.collid = id)).map f := by
  induction l with
  | nil => rfl
  | cons x l ih =>
    obtain ⟨job', id'⟩ := keeps x
    by_cases h : x.job = job ∧ x.collid = id
    · rw [List.map_cons, if_pos h, List.find?_cons_of_pos (by simp [job', id', h.1, h.2]), List.find?_cons_of_pos (by simp [h.1, h.2])]
      rfl
    · rw [List.map_cons, if_neg h, List.find?_cons_of_neg (by simpa using h), List.find?_cons_of_neg (by simpa using h), ih]

section

variable (s : State) (job : Nat) (id : W64)

theorem collOn_modColl (d : Nat) (f : Coll → Coll) (keeps : ∀ x, (f x).job = x.job ∧ (f x).collid = x.collid) :
    (s.modColl d job id f).collOn d job id = (s.collOn d job id).map f := by
  rw [State.collOn, State.modColl, State.die_modDie]
  exact find_mapped _ job id f keeps

theorem modColls_cores (f : Coll → Coll) : (s.modColls job id f).cores = s.cores ∧ (s.modColls job id f).mem = s.mem := by
  unfold State.modColls
  generalize List.range 8 = l
  induction l generalizing s with
  | nil => exact ⟨rfl, rfl⟩
  | cons d l ih => exact ih (s.modColl d job id f)

theorem dropColl_cores : (s.dropColl job id).cores = s.cores ∧ (s.dropColl job id).mem = s.mem := by
  unfold State.dropColl
  generalize List.range 8 = l
  induction l generalizing s with
  | nil => exact ⟨rfl, rfl⟩
  | cons d l ih => exact ih (s.modDie d _)

theorem settleFailed_cores : (s.settleFailed job id).cores = s.cores := by
  unfold State.settleFailed
  dsimp only
  split
  · split
    · exact (dropColl_cores s job id).1
    · rfl
  · rfl

theorem collOn_modColls (f : Coll → Coll) (keeps : ∀ x, (f x).job = x.job ∧ (f x).collid = x.collid) {d : Nat} (h : d < 8) :
    (s.modColls job id f).collOn d job id = (s.collOn d job id).map f := by
  have upTo : ∀ n k, ((List.range n).foldl (fun s d => s.modColl d job id f) s).collOn k job id
      = if k < n then (s.collOn k job id).map f else s.collOn k job id := by
    intro n k
    induction n with
    | zero => rfl
    | succ n ih =>
      rw [List.range_succ, List.foldl_append, List.foldl_cons, List.foldl_nil]
      by_cases last : k = n
      · subst last
        rw [collOn_modColl _ job id k f keeps, ih, if_neg (Nat.lt_irrefl k), if_pos (Nat.lt_succ_self k)]
      · rw [State.modColl, collOn_other _ _ last, ih]
        exact if_congr (by omega) rfl rfl
  exact (upTo 8 d).trans (if_pos h)

theorem collOn_dropColl {d : Nat} (h : d < 8) : (s.dropColl job id).collOn d job id = none := by
  have gone : ∀ u : State, ∀ n, (u.modDie n fun k => { k with colls := k.colls.filter fun x => !(decide (x.job = job) && decide (x.collid = id)) }).collOn n job id
      = none := fun u n => by
    rw [State.collOn, State.die_modDie]
    refine List.find?_eq_none.mpr fun x hx => ?_
    have out := (List.mem_filter.mp hx).2
    simpa only [Bool.not_eq_true', Bool.not_eq_true] using out
  have upTo : ∀ n k, k < n → ((List.range n).foldl
      (fun s d => s.modDie d fun k => { k with colls := k.colls.filter fun x => !(decide (x.job = job) && decide (x.collid = id)) }) s).collOn k job id = none := by
    intro n k
    induction n with
    | zero => exact fun none => absurd none (Nat.not_lt_zero k)
    | succ n ih =>
      intro low
      rw [List.range_succ, List.foldl_append, List.foldl_cons, List.foldl_nil]
      by_cases last : k = n
      · subst last
        exact gone _ k
      · rw [collOn_other _ _ last]
        exact ih (by omega)
  exact upTo 8 d h

end

/-! ### COLL_FAULT (R369) -/

/-- A collective that fails does so at every engine (R360, R369). -/
theorem collFault_fails {job cause rank : Nat} {id : W64} {s : State} {y : Coll} (any : s.anyColl job id = some y) (well : y.failed = none)
    (real : cause % 256 ≠ 0) (before : ∀ e ∈ s.collRanks job id, e.2.done = false) : ∃ t, exec (.collFault job id cause rank) s = .next t
      ∧ (∀ d z, d < 8 → t.collOn d job id = some z → z.failed = some (cause % 256, rank) ∧ z.ranks = [])
      ∧ t.cores = ((s.collRanks job id).foldl (State.failRank (cause % 256) rank job id) s).cores := by
  refine ⟨(s.failColl job id (cause % 256) rank).settleFailed job id, ?_, fun d z low found => ?_, ?_⟩
  · show execCollFault job id cause rank s = _
    unfold execCollFault
    rw [any]
    refine congrArg Host.Outcome.next (if_pos ?_)
    have none_done : ((s.collRanks job id).any fun e => e.2.done) = false := by simpa using before
    simp [well, real, none_done]
  · have failed : ∀ z, (s.failColl job id (cause % 256) rank).collOn d job id = some z → z.failed = some (cause % 256, rank) ∧ z.ranks = [] := by
      intro z hz
      rw [State.failColl, collOn_modColls _ job id (fun x => { x with failed := some (cause % 256, rank), ranks := [] }) (fun x => ⟨rfl, rfl⟩) low] at hz
      obtain ⟨x, -, rfl⟩ := Option.map_eq_some_iff.mp hz
      exact ⟨rfl, rfl⟩
    unfold State.settleFailed at found
    dsimp only at found
    split at found
    · split at found
      · rw [collOn_dropColl _ job id low] at found
        cases found
      · exact failed z found
    · exact failed z found
  · rw [settleFailed_cores, State.failColl, (modColls_cores ..).1]

/-- COLL_FAULT where it comes too late, or names no cause. -/
theorem collFault_idle {job cause rank : Nat} {id : W64} {s : State}
    (idle : ∀ y, s.anyColl job id = some y → cause % 256 = 0 ∨ y.failed ≠ none ∨ ∃ e ∈ s.collRanks job id, e.2.done = true) :
    exec (.collFault job id cause rank) s = .next s := by
  show execCollFault job id cause rank s = _
  unfold execCollFault
  split
  · next y any =>
    refine congrArg Host.Outcome.next (if_neg ?_)
    rcases idle y any with zero | failed | ⟨e, mem, done⟩
    · simp [zero]
    · simp [failed]
    · have some_done : ((s.collRanks job id).any fun e => e.2.done) = true := List.any_eq_true.mpr ⟨e, mem, done⟩
      simp [some_done]
  · rfl

/-! ### The start of a collective (R358, R366) -/

theorem startColl_idle {job : Nat} {id : W64} {s : State} {y : Coll} (any : s.anyColl job id = some y)
    (idle : y.started = true ∨ y.failed.isSome = true) : s.startColl job id = s := by
  unfold State.startColl
  rw [any]
  refine if_pos ?_
  rcases idle with started | failed
  · rw [started]; rfl
  · rw [failed, Bool.or_true]; rfl

/-- A collective that is full, whose lists agree and name its engines, starts. -/
theorem startColl_starts {job : Nat} {id : W64} {s s1 : State} {y : Coll} {ls : List (Nat × CollRank × List Byte)} {e : Nat × CollRank × List Byte}
    (any : s.anyColl job id = some y) (fresh : y.started = false) (well : y.failed = none)
    (full : ∀ n, n < y.nranks → ∃ k ∈ s.collRanks job id, k.2.rank = n) (some : 0 < y.nranks)
    (read : State.engineLists job id (s.collRanks job id) s = (s1, .ok ls)) (listed : e ∈ ls)
    (agree : ∀ k ∈ ls, k.2.2 = e.2.2 ∧ listEntry k.2.2 k.2.1.rank = s.module.toNat + 64 * k.1) :
    s.startColl job id = s1.tookFree.modColls job id fun y' =>
      { y' with
        started := true, list := e.2.2
        tree := if collAlg y.lead = 2 then Option.some ((collFlow y.lead + 1) % 2 ^ 20) else none } := by
  have missing : ((List.range y.nranks).filter fun i => !((s.collRanks job id).any fun e => decide (e.2.rank = i))) = [] := by
    refine List.filter_eq_nil_iff.mpr fun n hn => ?_
    obtain ⟨k, mem, rank⟩ := full n (List.mem_range.mp hn)
    have there : ((s.collRanks job id).any fun e => decide (e.2.rank = n)) = true := List.any_eq_true.mpr ⟨k, mem, by simp [rank]⟩
    simp [there]
  have nonempty : (s.collRanks job id).isEmpty = false := by
    obtain ⟨k, mem, -⟩ := full 0 some
    cases h : s.collRanks job id with
    | nil => rw [h] at mem; cases mem
    | cons => rfl
  have named : (ls.filter fun k => decide (listEntry k.2.2 k.2.1.rank ≠ s.module.toNat + 64 * k.1)) = [] :=
    List.filter_eq_nil_iff.mpr fun k hk => by simp [(agree k hk).2]
  have lead : (((ls.find? fun k => decide (k.2.1.rank = collRankOf y.lead)).orElse fun _ => ls.head?).map fun k => k.2.2).getD [] = e.2.2 := by
    have of : ∀ k, ((ls.find? fun k => decide (k.2.1.rank = collRankOf y.lead)).orElse fun _ => ls.head?) = Option.some k → k ∈ ls := fun k hk => by
      cases hf : ls.find? fun k => decide (k.2.1.rank = collRankOf y.lead) with
      | none =>
        rw [hf] at hk
        exact List.mem_of_mem_head? hk
      | some j =>
        rw [hf] at hk
        cases hk
        exact List.mem_of_find?_eq_some hf
    cases hl : ((ls.find? fun k => decide (k.2.1.rank = collRankOf y.lead)).orElse fun _ => ls.head?) with
    | none =>
      exfalso
      cases hf : ls.find? fun k => decide (k.2.1.rank = collRankOf y.lead) with
      | none =>
        rw [hf] at hl
        rw [List.head?_eq_none_iff.mp hl] at listed
        cases listed
      | some j =>
        rw [hf] at hl
        cases hl
    | some k => exact (agree k (of k hl)).1
  have same : (ls.find? fun k => decide (k.2.2 ≠ e.2.2)) = none := List.find?_eq_none.mpr fun k hk => by simp [(agree k hk).1]
  unfold State.startColl
  rw [any]
  dsimp only
  rw [fresh, well, nonempty, read]
  simp only [missing, lead, named, same, Option.isSome_none, Bool.or_self, Bool.false_eq_true, if_false, List.any_nil, ne_eq, not_true_eq_false,
    if_true, one_ne_zero, OfNat.one_ne_ofNat]

end Sys2Proof

namespace Sys2Proof

open Machine

/-! ### COLL_COMPLETE (R363, R368) -/

section

variable {s : State} (none_sent : s.sent = [])
include none_sent

theorem far_of_nothing (r : TaskRef) (tok : Nat) : s.farPending r tok = false ∧ s.farRefused r tok = none :=
  farPending_none (by rw [none_sent]; exact fun q hq => absurd hq List.not_mem_nil)

theorem dropFar_nothing (r : TaskRef) (tok : Nat) : s.dropFar r tok = s := by
  have same : (s.sent.filter fun x => !(decide (x.task = r) && (decide (x.cmdTok = some tok) || decide (x.cmdTok = some walkTok)))) = s.sent := by
    rw [none_sent]
    rfl
  exact congrArg (fun l => { s with sent := l }) same

/-- A rank ends once the writes of every rank here are made and answered. -/
theorem endRank_ends {d job : Nat} {id : W64} {r : CollRank} {x : Cmd} (there : (s.core r.core).cmd r.tok = some x)
    (wrote : ∀ e ∈ s.collRanks job id, e.2.wrote = true) :
    Ended s (s.endRank d job id r) r.core r.tok x 0 (s.agentTime d collPos) ∧ (s.endRank d job id r).mem = s.mem := by
  have ready : ((s.collRanks job id).any fun e => !e.2.wrote || (!e.2.done && s.farPending e.2.agentTask e.2.tok)) = false := by
    refine List.any_eq_false.mpr fun e he => ?_
    rw [wrote e he, (far_of_nothing none_sent ..).1]
    simp
  have accepted : s.rankRefused job id = none := by
    refine List.findSome?_eq_none_iff.mpr fun e _ => ?_
    rw [(far_of_nothing none_sent ..).2]
    rfl
  obtain ⟨ended, mem, -⟩ := endCmd_ends there 0 (s.agentTime d collPos)
  unfold State.endRank
  dsimp only
  rw [ready, accepted, dropFar_nothing none_sent, if_neg Bool.false_ne_true]
  dsimp only
  generalize s.endCmd r.core r.tok 0 (s.agentTime d collPos) = w at ended mem ⊢
  have dropped : ∀ (l : List (Nat × CollRank)) (v : State), (l.foldl (fun s e => s.dropFar e.2.agentTask (sourceTok e.2.tok)) v).cores = v.cores
      ∧ (l.foldl (fun s e => s.dropFar e.2.agentTask (sourceTok e.2.tok)) v).mem = v.mem := by
    intro l
    induction l with
    | nil => exact fun v => ⟨rfl, rfl⟩
    | cons e l ih => exact fun v => ih (v.dropFar e.2.agentTask (sourceTok e.2.tok))
  have cores : ∀ t : State, t.cores = w.cores → Ended s t r.core r.tok x 0 (s.agentTime d collPos) := fun t h =>
    ⟨by rw [← ended.token, State.task, State.task, State.task?, State.task?, State.core, State.core, h],
      fun q beside => by rw [← ended.others q beside, State.task?, State.task?, State.core, State.core, h],
      by rw [← ended.commands, State.core, State.core, h]⟩
  split
  · refine ⟨cores _ ?_, ?_⟩
    · rw [(dropColl_cores ..).1, (dropped ..).1]
      rfl
    · rw [(dropColl_cores ..).2, (dropped ..).2]
      exact mem
  · exact ⟨cores _ rfl, mem⟩

end

section

variable {job rank : Nat} {id : W64} {s : State}

theorem collComplete_none (none : (s.collRanks job id).find? (fun e => decide (e.2.rank = rank)) = none) :
    exec (.collComplete job id rank) s = .next s := by
  show execCollComplete job id rank s = _
  unfold execCollComplete
  rw [none]

variable {d : Nat} {r : CollRank} {y : Coll} (found : (s.collRanks job id).find? (fun e => decide (e.2.rank = rank)) = some (d, r))
  (on : s.collOn d job id = some y)
include found on

theorem collComplete_steps : exec (.collComplete job id rank) s = .next (
    if r.done || s.jobStopped job then s
    else if !y.started then (s.pruneColl job id).startColl job id
    else match s.rankCmd job id r with
      | none => s.failColl job id 0x47 rank
      | some x =>
        if r.wrote then s.endRank d job id r
        else match y.src with
          | none => s.takeSources y
          | some src => s.runRank d y x r src) := by
  show execCollComplete job id rank s = _
  unfold execCollComplete
  simp only [found, on] <;> rfl

theorem collComplete_idle (idle : r.done = true ∨ s.jobStopped job = true) : exec (.collComplete job id rank) s = .next s := by
  rw [collComplete_steps found on, if_pos (by rw [Bool.or_eq_true]; exact idle)]

section

variable (going : r.done = false) (runs : s.jobStopped job = false)
include going runs

theorem collComplete_opens (fresh : y.started = false) : exec (.collComplete job id rank) s = .next ((s.pruneColl job id).startColl job id) := by
  rw [collComplete_steps found on, going, runs, fresh, if_neg (by simp), if_pos (by simp)]

variable {x : Cmd} (started : y.started = true) (cmd : s.rankCmd job id r = some x)
include started cmd

theorem collComplete_runs : exec (.collComplete job id rank) s = .next (
    if r.wrote then s.endRank d job id r
    else match y.src with
      | none => s.takeSources y
      | some src => s.runRank d y x r src) := by
  rw [collComplete_steps found on, going, runs, started, cmd, if_neg (by simp), if_neg (by simp)]

/-- COLL_COMPLETE of a rank of a started collective. -/
theorem collComplete_cases : (r.wrote = true → (∃ e ∈ s.collRanks job id, e.2.wrote = false) → exec (.collComplete job id rank) s = .next s)
    ∧ (r.wrote = true → (∀ e ∈ s.collRanks job id, e.2.wrote = true) → s.sent = [] → ∃ t, exec (.collComplete job id rank) s = .next t
      ∧ Ended s t r.core r.tok x 0 (s.agentTime d collPos) ∧ t.mem = s.mem)
    ∧ (∀ s1 src, r.wrote = false → y.src = none → State.rankSources y (List.range y.nranks) s = (s1, .ok src) →
      exec (.collComplete job id rank) s = .next (s1.modColls job id fun x => { x with src := some src }))
    ∧ ∀ src, r.wrote = false → y.src = some src → y.tree = none →
      exec (.collComplete job id rank) s = .next ((s.tookFree (2 * (collDest x.collBlock + 1) * (y.nranks + 1))).putRank d
        job id x r (collResult x.collBlock r.rank s.freeCtr src)) := by
  have steps := collComplete_runs found on going runs started cmd
  obtain ⟨job', id'⟩ := collOn_key on
  refine ⟨fun wrote waits => ?_, fun wrote all none_sent => ?_, fun s1 src unwritten none_yet read => ?_, fun src unwritten have_src plain => ?_⟩
  · rw [steps, if_pos wrote]
    obtain ⟨e, mem, not⟩ := waits
    exact congrArg Host.Outcome.next (if_pos (List.any_eq_true.mpr ⟨e, mem, by rw [not]; rfl⟩))
  · have there : (s.core r.core).cmd r.tok = some x := by
      unfold State.rankCmd at cmd
      split at cmd
      · next z held =>
        split at cmd
        · cases cmd
          unfold State.collCmd at held
          split at held
          · next w at' =>
            split at held
            · exact at'.trans held
            · cases held
          · cases held
        · cases cmd
      · cases cmd
    exact ⟨_, steps.trans (by rw [if_pos wrote]), endRank_ends none_sent there all⟩
  · rw [steps, if_neg (by rw [unwritten]; simp), none_yet]
    dsimp only
    rw [State.takeSources, read, job', id']
  · rw [steps, if_neg (by rw [unwritten]; simp), have_src]
    dsimp only
    unfold State.runRank State.rankResult
    rw [plain, job', id']
    rfl

end

end

/-- Settles O57: requests are served, cached and answered in the order of their pair (R342), replies and resends act on the open
request alone, and a collective joins, starts, runs its ranks and fails at every engine together. -/
theorem remoteRequestsAndCollectives : Obligations.RemoteRequestsAndCollectives := by
  unfold Obligations.RemoteRequestsAndCollectives
  refine ⟨remoteRequest_steps, fun d id k s => ⟨⟨_, rfl, stands_of rfl rfl, gate_modGate ..⟩, fun none => ?_, fun q held pair room free =>
      skip_serves held pair room free⟩, replies_steps, fun c tok s => ⟨collArrive_none, fun x ord rz there coll => collArrive_cases there coll⟩,
    fun job id s y any => ⟨startColl_idle any, fun s1 ls e fresh well full some read listed agree =>
      startColl_starts any fresh well full some read listed agree⟩, fun job rank cause id s => ⟨collComplete_none, fun d r y found on =>
        ⟨collComplete_idle found on, collComplete_opens found on, fun x started going runs cmd => collComplete_cases found on going runs started cmd⟩,
      fun idle => collFault_idle fun y any => ?_, fun y any => ⟨fun late => collFault_idle fun z any' => ?_, fun well real before =>
        collFault_fails any well real before⟩⟩⟩
  · show Host.Outcome.next (State.skipSeqs d k (s.die d).gate.heldReqs.length s) = _
    rw [none]
    rfl
  · rcases idle with gone | zero
    · rw [gone] at any
      cases any
    · exact .inl zero
  · rw [any] at any'
    cases any'
    exact .inr late

end Sys2Proof

namespace Sys2Proof

open Machine

/-! ### What lodges wait for: translations and generations (R236 to R238) -/

/-- A task's first outstanding operation ends. -/
theorem dropHold_drops {s : State} {r : TaskRef} {h : Hold} {rest : List Hold} (holds : (s.task r).holds = h :: rest) :
    (s.dropHold r).task r = { s.task r with holds := rest } ∧ OthersStand s (s.dropHold r) r := by
  refine ⟨?_, othersStand_modTask s r _⟩
  rw [State.dropHold, State.task_modTask, holds]
  rfl

theorem modTask_beside (s : State) (r : TaskRef) (f : Task → Task) (c : CoreRef) : { (s.modTask r f).core c with tasks := [] } = { s.core c with tasks := [] } := by
  by_cases h : CoreRef.key c = CoreRef.key r.coreRef
  · rw [core_congr _ h, core_congr s h, core_modTask]
  · rw [State.modTask, State.setTask, State.putTask, State.core_modCore_other _ _ h]

/-! #### The write-back of lines -/

theorem shiftUp_tlb (d : Die) (p n : Nat) : (d.shiftUp p n).tlb = d.tlb := by
  have rest := shiftUp_rest d p n
  exact (congrArg Die.tlb rest :)

theorem enqueue_tlb (d : Die) (e : EventRec) : (d.enqueue e).tlb = d.tlb := by
  unfold Die.enqueue
  exact shiftUp_tlb ..

theorem post_tlb (d : Die) (e : EventRec) : (d.post e).tlb = d.tlb := by
  unfold Die.post
  split_ifs
  · exact enqueue_tlb ..
  · rfl
  · rfl
  · exact enqueue_tlb ..
  · rfl

/-- What keeps the cores and the translations of the dies. -/
structure KeepsTlbs (s t : State) : Prop where
  cores : t.cores = s.cores
  dies : ∀ n, (t.die n).tlb = (s.die n).tlb

theorem KeepsTlbs.refl (s : State) : KeepsTlbs s s := ⟨rfl, fun _ => rfl⟩

theorem KeepsTlbs.trans {s t u : State} (h : KeepsTlbs s t) (k : KeepsTlbs t u) : KeepsTlbs s u :=
  ⟨k.cores.trans h.cores, fun n => (k.dies n).trans (h.dies n)⟩

theorem keepsTlbs_modDie (s : State) (d : Nat) (f : Die → Die) (h : (f (s.die d)).tlb = (s.die d).tlb) : KeepsTlbs s (s.modDie d f) := by
  refine ⟨rfl, fun n => ?_⟩
  by_cases hn : n = d
  · rw [hn, State.die_modDie, h]
  · rw [State.die_modDie_other _ _ hn]

theorem keepsTlbs_post (s : State) (d : Nat) (e : EventRec) : KeepsTlbs s (s.post d e) := keepsTlbs_modDie s d _ (post_tlb ..)

theorem keepsTlbs_postFault (s : State) (die agent slot job cause : Nat) (info lidx : W64) : KeepsTlbs s (s.postFault die agent slot job cause info lidx) := by
  refine KeepsTlbs.trans (t := s.modDie die (Die.noteFault agent cause)) (keepsTlbs_modDie s die _ ?_) (keepsTlbs_post ..)
  unfold Die.noteFault
  dsimp only
  split_ifs <;> rfl

theorem keepsTlbs_writeBack (s : State) (c : CoreRef) (l : L1Line) : KeepsTlbs s (s.writeBack c l) := by
  have timed : KeepsTlbs s (s.modLine l.line fun m => { m with wts := l.wts, rts := l.rts }) := ⟨rfl, fun _ => rfl⟩
  unfold State.writeBack
  dsimp only
  split_ifs
  · exact .refl s
  · exact timed
  · exact timed.trans (keepsTlbs_postFault ..)
  · exact timed.trans (keepsTlbs_postFault ..)
  · exact ⟨rfl, fun _ => rfl⟩

theorem mem_writeBack_clean (s : State) (c : CoreRef) (l : L1Line) (dirty : l.dirty = false) : (s.writeBack c l).mem = s.mem := by
  unfold State.writeBack
  dsimp only
  rw [dirty]
  split <;> rfl

/-! #### A range invalidated (R236) -/

/-- A core without the translations and lines of a range. -/
def withoutRange (x : VaRange) (k : Core) : Core :=
  { k with
    tlb := k.tlb.filter fun e => !x.hits e
    l1 := k.l1.filter fun l => !x.meets l.job (l.va.toNat / 128 * 128) 128
    l1req := k.l1req.filter fun q => !x.meets q.job (q.va.toNat / 128 * 128) 128 }

/-- The lines of a core in a range written back. -/
def rangeWritten (x : VaRange) (s : State) (c : CoreRef) : State :=
  ((s.core c).l1.filter fun l => x.meets l.job (l.va.toNat / 128 * 128) 128).foldl (fun s l => s.writeBack c l) s

theorem invalidateCore_eq (x : VaRange) (s : State) (c : CoreRef) :
    State.invalidateCore x s c = (rangeWritten x s c).modCore c (withoutRange x) := rfl

theorem rangeWritten_writes (x : VaRange) (s : State) (c : CoreRef) : Worked s (rangeWritten x s c) ∧ KeepsTlbs s (rangeWritten x s c)
    ∧ ((∀ l ∈ (s.core c).l1, l.dirty = false) → (rangeWritten x s c).mem = s.mem) := by
  unfold rangeWritten
  have each : ∀ l ∈ (s.core c).l1.filter (fun l => x.meets l.job (l.va.toNat / 128 * 128) 128), l ∈ (s.core c).l1 := fun l hl => (List.mem_filter.mp hl).1
  have all : ∀ (k : List L1Line) (u : State), Worked u (k.foldl (fun s l => s.writeBack c l) u) ∧ KeepsTlbs u (k.foldl (fun s l => s.writeBack c l) u)
      ∧ ((∀ l ∈ k, l.dirty = false) → (k.foldl (fun s l => s.writeBack c l) u).mem = u.mem) := by
    intro k
    induction k with
    | nil => exact fun u => ⟨.refl u, .refl u, fun _ => rfl⟩
    | cons l k ih =>
      intro u
      obtain ⟨worked, tlbs, mem⟩ := ih (u.writeBack c l)
      exact ⟨(worked_writeBack ..).trans worked, (keepsTlbs_writeBack ..).trans tlbs, fun clean =>
        (mem fun l hl => clean l (List.mem_cons_of_mem _ hl)).trans (mem_writeBack_clean u c l (clean l List.mem_cons_self))⟩
  obtain ⟨worked, tlbs, mem⟩ := all ((s.core c).l1.filter fun l => x.meets l.job (l.va.toNat / 128 * 128) 128) s
  exact ⟨worked, tlbs, fun clean => mem fun l hl => clean l (each l hl)⟩

theorem withoutRange_twice (x : VaRange) (k : Core) : withoutRange x (withoutRange x k) = withoutRange x k := by
  simp only [withoutRange, List.filter_filter, Bool.and_self]

/-- Every core loses the range. -/
structure RangeGone (x : VaRange) (l : List CoreRef) (s t : State) : Prop where
  worked : Worked s t
  dies : ∀ n, (t.die n).tlb = (s.die n).tlb
  here : ∀ c, (∃ k ∈ l, CoreRef.key k = CoreRef.key c) → t.core c = withoutRange x (s.core c)
  other : ∀ c, (∀ k ∈ l, CoreRef.key k ≠ CoreRef.key c) → t.core c = s.core c
  mem : (∀ c, ∀ l ∈ (s.core c).l1, l.dirty = false) → t.mem = s.mem

theorem invalidateCores (x : VaRange) (l : List CoreRef) (s : State) : RangeGone x l s (l.foldl (State.invalidateCore x) s) := by
  induction l generalizing s with
  | nil => exact ⟨.refl s, fun _ => rfl, fun c h => absurd h (by simp), fun _ _ => rfl, fun _ => rfl⟩
  | cons c l ih =>
    obtain ⟨worked, tlbs, mem⟩ := rangeWritten_writes x s c
    have one := invalidateCore_eq x s c
    rw [List.foldl_cons, one]
    have written : ∀ k, (rangeWritten x s c).core k = s.core k := fun k => by rw [State.core, tlbs.cores, ← State.core]
    have same : ∀ k, CoreRef.key k = CoreRef.key c → ((rangeWritten x s c).modCore c (withoutRange x)).core k = withoutRange x (s.core k) := fun k hk => by
      rw [core_congr _ hk, State.core_modCore, written, core_congr s hk]
    have beside : ∀ k, CoreRef.key k ≠ CoreRef.key c → ((rangeWritten x s c).modCore c (withoutRange x)).core k = s.core k := fun k hk => by
      rw [State.core_modCore_other _ _ hk, written]
    have step : Worked s ((rangeWritten x s c).modCore c (withoutRange x)) := worked.trans (.modCore _ c _ rfl)
    have stepDies : ∀ n, (((rangeWritten x s c).modCore c (withoutRange x)).die n).tlb = (s.die n).tlb := tlbs.dies
    have stepMem : ((rangeWritten x s c).modCore c (withoutRange x)).mem = (rangeWritten x s c).mem := rfl
    generalize (rangeWritten x s c).modCore c (withoutRange x) = u at same beside step stepDies stepMem ⊢
    have rest := ih u
    generalize l.foldl (State.invalidateCore x) u = t at rest ⊢
    refine ⟨step.trans rest.worked, fun n => (rest.dies n).trans (stepDies n), fun k hk => ?_, fun k hk => ?_, fun clean => ?_⟩
    · by_cases later : ∃ j ∈ l, CoreRef.key j = CoreRef.key k
      · rw [rest.here k later]
        by_cases first : CoreRef.key k = CoreRef.key c
        · rw [same k first, withoutRange_twice]
        · rw [beside k first]
      · have first : CoreRef.key k = CoreRef.key c := by
          obtain ⟨j, hj, key⟩ := hk
          rcases List.mem_cons.mp hj with rfl | tail
          · exact key.symm
          · exact absurd ⟨j, tail, key⟩ later
        rw [rest.other k fun j hj key => later ⟨j, hj, key⟩, same k first]
    · rw [rest.other k fun j hj => hk j (List.mem_cons_of_mem _ hj), beside k fun key => hk c List.mem_cons_self key.symm]
    · have still : ∀ k, ∀ l ∈ (u.core k).l1, l.dirty = false := fun k l hl => by
        by_cases first : CoreRef.key k = CoreRef.key c
        · rw [same k first] at hl
          exact clean k l (List.mem_filter.mp hl).1
        · rw [beside k first] at hl
          exact clean k l hl
      rw [rest.mem still, stepMem, mem (clean c)]

/-- Every cache of the module loses a range (R236). -/
theorem invalidate_drops (s : State) (x : VaRange) : Worked s (s.invalidate x) ∧ (∀ c, (s.invalidate x).core c = withoutRange x (s.core c))
    ∧ (∀ n, n < 8 → ((s.invalidate x).die n).tlb = (s.die n).tlb.filter fun e => !x.hits e)
    ∧ ((∀ c, ∀ l ∈ (s.core c).l1, l.dirty = false) → (s.invalidate x).mem = s.mem) := by
  have gone := invalidateCores x s.coreRefs s
  unfold State.invalidate
  dsimp only
  generalize s.coreRefs.foldl (State.invalidateCore x) s = u at gone ⊢
  have dies : ∀ m, Worked u ((List.range m).foldl (fun s d => s.modDie d fun k => { k with tlb := k.tlb.filter fun e => !x.hits e }) u)
      ∧ ((List.range m).foldl (fun s d => s.modDie d fun k => { k with tlb := k.tlb.filter fun e => !x.hits e }) u).cores = u.cores
      ∧ ((List.range m).foldl (fun s d => s.modDie d fun k => { k with tlb := k.tlb.filter fun e => !x.hits e }) u).mem = u.mem
      ∧ ∀ n, (((List.range m).foldl (fun s d => s.modDie d fun k => { k with tlb := k.tlb.filter fun e => !x.hits e }) u).die n).tlb
        = if n < m then (u.die n).tlb.filter (fun e => !x.hits e) else (u.die n).tlb := by
    intro m
    induction m with
    | zero => exact ⟨.refl u, rfl, rfl, fun _ => rfl⟩
    | succ m ih =>
      obtain ⟨worked, cores, mem, tlb⟩ := ih
      rw [List.range_succ, List.foldl_append, List.foldl_cons, List.foldl_nil]
      refine ⟨worked.trans (.modDie _ m _ rfl), cores, mem, fun n => ?_⟩
      by_cases hn : n = m
      · subst hn
        rw [State.die_modDie, if_pos (Nat.lt_succ_self n)]
        show ((State.die _ n).tlb).filter _ = _
        rw [tlb n, if_neg (Nat.lt_irrefl n)]
      · rw [State.die_modDie_other _ _ hn, tlb n]
        exact if_congr (by omega) rfl rfl
  obtain ⟨worked, cores, mem, tlb⟩ := dies 8
  refine ⟨gone.worked.trans worked, fun c => ?_, fun n hn => by rw [tlb n, if_pos hn, gone.dies n], fun clean => mem.trans (gone.mem clean)⟩
  rw [State.core, cores, ← State.core]
  by_cases listed : ∃ k ∈ s.coreRefs, CoreRef.key k = CoreRef.key c
  · exact gone.here c listed
  · rw [gone.other c fun k hk key => listed ⟨k, hk, key⟩]
    have blank : s.core c = Core.reset := by
      refine Tbl.get_of_not_mem _ _ fun e he key => listed ⟨⟨e.1 / 128, e.1 % 128⟩, List.mem_map.mpr ⟨e, he, rfl⟩, ?_⟩
      rw [key_coreRef, key]
    rw [blank]
    rfl

/-- TLBINV_ACK (R236). -/
theorem tlbinvAck_acks {d : Nat} {s : State} {a b c : W64} {rest : List Hold} (holds : (s.task (lodgeTask d)).holds = .tlbinv a b c :: rest) :
    ∃ t, exec (.tlbinvAck d) s = .next t ∧ OthersStand s t (lodgeTask d)
      ∧ t.task (lodgeTask d) = (if (s.invalidate (vaRange a b c)).outstanding (vaRange a b c) then s.task (lodgeTask d)
        else { s.task (lodgeTask d) with holds := rest })
      ∧ (∀ k, (t.core k).tlb = (s.core k).tlb.filter (fun e => !(vaRange a b c).hits e)
        ∧ ∀ l ∈ (t.core k).l1, (vaRange a b c).meets l.job (l.va.toNat / 128 * 128) 128 = false)
      ∧ (∀ n, n < 8 → (t.die n).tlb = (s.die n).tlb.filter fun e => !(vaRange a b c).hits e)
      ∧ ((∀ c, ∀ l ∈ (s.core c).l1, l.dirty = false) → t.mem = s.mem) := by
  obtain ⟨worked, cores, dies, mem⟩ := invalidate_drops s (vaRange a b c)
  have steps : exec (.tlbinvAck d) s = .next (if (s.invalidate (vaRange a b c)).outstanding (vaRange a b c) then s.invalidate (vaRange a b c)
      else (s.invalidate (vaRange a b c)).dropHold (lodgeTask d)) := by
    show execTlbinvAck d s = _
    unfold execTlbinvAck
    rw [headHold_of holds]
  rw [steps]
  generalize s.invalidate (vaRange a b c) = u at worked cores dies mem
  have coresOf : ∀ t : State, (∀ k, { t.core k with tasks := [] } = { u.core k with tasks := [] }) →
      ∀ k, (t.core k).tlb = (s.core k).tlb.filter (fun e => !(vaRange a b c).hits e)
        ∧ ∀ l ∈ (t.core k).l1, (vaRange a b c).meets l.job (l.va.toNat / 128 * 128) 128 = false := fun t same k => by
    have tlb : (t.core k).tlb = (u.core k).tlb := (congrArg Core.tlb (same k) :)
    have l1 : (t.core k).l1 = (u.core k).l1 := (congrArg Core.l1 (same k) :)
    rw [tlb, l1, cores]
    refine ⟨rfl, fun l hl => ?_⟩
    have out := (List.mem_filter.mp hl).2
    rwa [Bool.not_eq_true'] at out
  refine ⟨_, rfl, ?_⟩
  split
  · exact ⟨fun q _ => worked.task? q, worked.task _, coresOf u fun _ => rfl, dies, mem⟩
  · obtain ⟨task, others⟩ := dropHold_drops (s := u) (r := lodgeTask d) (h := .tlbinv a b c) (rest := rest)
      (by rw [worked.task]; exact holds)
    rw [worked.task] at task
    have beside := modTask_beside u (lodgeTask d) fun t => { t with holds := t.holds.drop 1 }
    exact ⟨fun q apart => (others q apart).trans (worked.task? q), task, coresOf (u.dropHold (lodgeTask d)) beside, dies, mem⟩

end Sys2Proof

namespace Sys2Proof

open Machine

/-! ### What lodges wait for: frames, domains, images and the unit (R237 to R239, R330, R404) -/

/-- A completion-latency operation of a task ends with its value. -/
theorem settle_settles {s : State} {r : TaskRef} {h : Hold} {rest : List Hold} (holds : (s.task r).holds = h :: rest) (d : Nat) (v : W64) :
    OthersStand s (s.settle r d v) r ∧ (s.settle r d v).task r = if (s.task r).halted
      then ({ s.task r with holds := rest } : Task).push 0 (.scalar d v) else ({ s.task r with holds := rest } : Task).setSreg d v := by
  obtain ⟨task, others⟩ := dropHold_drops holds
  unfold State.settle
  dsimp only
  generalize s.dropHold r = u at task others ⊢
  have halted : (u.task r).halted = (s.task r).halted := by rw [task]
  rw [halted]
  split
  · exact ⟨others.trans (othersStand_modTask u r _), by rw [State.task_modTask, task]⟩
  · exact ⟨others.trans (othersStand_modTask u r _), by rw [State.task_modTask, task]⟩

theorem settle_stores (s : State) (r : TaskRef) (d : Nat) (v : W64) : (s.settle r d v).mem = s.mem ∧ (s.settle r d v).dies = s.dies
    ∧ (s.settle r d v).attest = s.attest ∧ (s.settle r d v).keys = s.keys ∧ (s.settle r d v).gang = s.gang
    ∧ (s.settle r d v).switched = s.switched ∧ (s.settle r d v).jobid = s.jobid := by
  unfold State.settle
  dsimp only
  split <;> exact ⟨rfl, rfl, rfl, rfl, rfl, rfl, rfl⟩

/-! #### GENBUMP and DOMSET -/

theorem get_bumpFrames (f : Nat) (t : Tbl (BitVec 4)) (k : Nat) : ∀ n, (bumpFrames f n t).get 0 k = if f ≤ k ∧ k < f + n then t.get 0 k + 1 else t.get 0 k
  | 0 => (if_neg (by omega)).symm
  | n + 1 => by
    rw [bumpFrames]
    by_cases last : k = f + n
    · rw [last, Tbl.get_set_same, get_bumpFrames f t (f + n) n, if_neg (by omega), if_pos (by omega)]
    · rw [Tbl.get_set_other _ _ _ last, get_bumpFrames f t k n]
      exact if_congr (by omega) rfl rfl

/-- A byte after the slices that leave or join a domain have been wiped, and the others left (R239). -/
theorem byte_clearSlices (u : State) (d : Nat) (old new : Die) (b : Nat) :
    (∀ n, n < 16 → old.inDomain n ≠ new.inDomain n → sliceBase d n ≤ b → b < sliceBase d n + 0x4000000 →
      (u.clearSlices d old new).mem.byte b = 0)
    ∧ ((∀ n, n < 16 → old.inDomain n ≠ new.inDomain n → b < sliceBase d n ∨ sliceBase d n + 0x4000000 ≤ b) →
      (u.clearSlices d old new).mem.byte b = u.mem.byte b) := by
  have all : ∀ m, (∀ n, n < m → old.inDomain n ≠ new.inDomain n → sliceBase d n ≤ b → b < sliceBase d n + 0x4000000 →
        Memory.byte ((List.range m).foldl (fun x k => if old.inDomain k = new.inDomain k then x else x.clear (sliceBase d k) 0x4000000) u.mem) b = 0)
      ∧ ((∀ n, n < m → old.inDomain n ≠ new.inDomain n → b < sliceBase d n ∨ sliceBase d n + 0x4000000 ≤ b) →
        Memory.byte ((List.range m).foldl (fun x k => if old.inDomain k = new.inDomain k then x else x.clear (sliceBase d k) 0x4000000) u.mem) b
          = u.mem.byte b) := by
    intro m
    induction m with
    | zero => exact ⟨fun n low => absurd low (Nat.not_lt_zero n), fun _ => rfl⟩
    | succ m ih =>
      obtain ⟨wiped, left⟩ := ih
      rw [List.range_succ, List.foldl_append, List.foldl_cons, List.foldl_nil]
      generalize (List.range m).foldl (fun x k => if old.inDomain k = new.inDomain k then x else x.clear (sliceBase d k) 0x4000000) u.mem = x at wiped left ⊢
      have wipe : ∀ k, Memory.byte (x.clear (sliceBase d k) 0x4000000) b
          = if sliceBase d k ≤ b ∧ b < sliceBase d k + 0x4000000 then 0 else x.byte b := fun k => Memory.byte_wipe x _ _ b
      refine ⟨fun n low moved above below => ?_, fun out => ?_⟩
      · split
        · next same =>
          have other : n ≠ m := fun e => moved (e ▸ same)
          exact wiped n (by omega) moved above below
        · rw [wipe]
          split
          · rfl
          · next off =>
            have other : n ≠ m := fun e => off (e ▸ ⟨above, below⟩)
            exact wiped n (by omega) moved above below
      · have before := left fun n low => out n (by omega)
        split
        · exact before
        · next moved =>
          rw [wipe, if_neg, before]
          have off := out m (Nat.lt_succ_self m) moved
          omega
  exact all 16

section

variable {d : Nat} {s : State} {rest : List Hold}

/-- GENBUMP_DONE (R237). -/
theorem genbumpDone_bumps {a b : W64} (holds : (s.task (lodgeTask d)).holds = .genbump a b :: rest) :
    ∃ t, exec (.genbumpDone d) s = .next t ∧ t.task (lodgeTask d) = { s.task (lodgeTask d) with holds := rest } ∧ OthersStand s t (lodgeTask d)
      ∧ t.mem = s.mem ∧ ∀ n, t.gens.get 0 n = if a.toNat / 2 ^ 21 ≤ n ∧ n < a.toNat / 2 ^ 21 + b.toNat then s.gens.get 0 n + 1 else s.gens.get 0 n := by
  let bumped : State := { s with gens := bumpFrames (a.toNat / mib2) b.toNat s.gens }
  obtain ⟨task, others⟩ := dropHold_drops (s := bumped) holds
  refine ⟨bumped.dropHold (lodgeTask d), ?_, task, others, rfl, fun n => get_bumpFrames _ _ n _⟩
  show execGenbumpDone d s = _
  unfold execGenbumpDone
  rw [headHold_of holds]

/-- L2WB_DONE (R238). -/
theorem l2wbDone_ends {a b : W64} {v : Bool} (holds : (s.task (lodgeTask d)).holds = .l2wb a b v :: rest) :
    ∃ t, exec (.l2wbDone d) s = .next t ∧ t.task (lodgeTask d) = { s.task (lodgeTask d) with holds := rest } ∧ OthersStand s t (lodgeTask d)
      ∧ t.mem = s.mem := by
  obtain ⟨task, others⟩ := dropHold_drops holds
  refine ⟨s.dropHold (lodgeTask d), ?_, task, others, rfl⟩
  show execL2wbDone d s = _
  unfold execL2wbDone
  rw [headHold_of holds]

/-- DOMSET_DONE (R239). -/
theorem domsetDone_takes {v : W64} (holds : (s.task (lodgeTask d)).holds = .domset v :: rest) :
    let old := s.die d
    let new := { old with l2first := v.toNat % 16, l2logn := v.toNat / 16 % 8, l2busy := false }
    ∃ t, exec (.domsetDone d) s = .next t ∧ t.task (lodgeTask d) = { s.task (lodgeTask d) with holds := rest } ∧ OthersStand s t (lodgeTask d)
      ∧ t.die d = new
      ∧ (∀ n b, n < 16 → old.inDomain n ≠ new.inDomain n → sliceBase d n ≤ b → b < sliceBase d n + 0x4000000 → t.mem.byte b = 0)
      ∧ ∀ b, (∀ n, n < 16 → old.inDomain n ≠ new.inDomain n → b < sliceBase d n ∨ sliceBase d n + 0x4000000 ≤ b) → t.mem.byte b = s.mem.byte b := by
  intro old new
  obtain ⟨task, others⟩ := dropHold_drops (s := (s.clearSlices d old new).modDie d fun _ => new) holds
  refine ⟨((s.clearSlices d old new).modDie d fun _ => new).dropHold (lodgeTask d), ?_, task, others, ?_, fun n b low =>
    (byte_clearSlices s d old new b).1 n low, fun b => (byte_clearSlices s d old new b).2⟩
  · show execDomsetDone d s = _
    unfold execDomsetDone
    rw [headHold_of holds]
  · exact State.die_modDie (s.clearSlices d old new) d fun _ => new

/-! #### NPLOAD (R330) -/

theorem Tbl.get_mapDrop {α : Type} [DecidableEq α] {d : α} {f : α → α} (keeps : f d = d) : ∀ (t : Tbl α) (k : Nat), Tbl.wf d t = true →
    (Tbl.mapDrop d f t).get d k = f (t.get d k)
  | [], k, _ => keeps.symm
  | (j, v) :: t, k, wf => by
    obtain ⟨rising, values⟩ := (Tbl.wf_iff d _).mp wf
    have tail : Tbl.wf d t = true := (Tbl.wf_iff d t).mpr ⟨(List.pairwise_cons.mp rising).2, fun e he => values e (List.mem_cons_of_mem _ he)⟩
    have later : ∀ e ∈ t, e.1 ≠ j := fun e he => Nat.ne_of_gt ((List.pairwise_cons.mp rising).1 e he)
    have ih := Tbl.get_mapDrop keeps t k tail
    rw [Tbl.mapDrop]
    split
    · next gone =>
      rw [ih, Tbl.get]
      split
      · next here => rw [Tbl.get_of_not_mem d t (fun e he => here ▸ later e he), keeps, gone]
      · rfl
    · rw [Tbl.get, Tbl.get]
      split
      · rfl
      · exact ih

variable {g : Nat} {a b : W64} (holds : (s.task (lodgeTask d)).holds = .npload g a b :: rest)
include holds

theorem nploadDone_steps : exec (.nploadDone d) s = .next (match s.nploadRun d a b with
    | some x => x.1.settle (lodgeTask d) g (BitVec.ofNat 64 (x.2.1 + x.2.2 * 2 ^ 8))
    | none => s) := by
  show execNploadDone d s = _
  unfold execNploadDone
  rw [headHold_of holds] <;> rfl

/-- NPLOAD of a job with no image: its entries go. -/
theorem nploadDone_clears (empty : b.toNat % 2 ^ 32 = 0) (wf : Tbl.wf Pavilion.reset (s.die d).pavs = true) :
    ∃ t, exec (.nploadDone d) s = .next t ∧ OthersStand s t (lodgeTask d) ∧ t.mem = s.mem
      ∧ t.task (lodgeTask d) = (if (s.task (lodgeTask d)).halted then ({ s.task (lodgeTask d) with holds := rest } : Task).push 0 (.scalar g 0)
        else ({ s.task (lodgeTask d) with holds := rest } : Task).setSreg g 0)
      ∧ ∀ n, (t.die d).pav n = ((s.die d).pav n).dropJob (b.toNat / 2 ^ 32 % 2 ^ 12) := by
  let cleared : State := (s.modDie d fun k => { k with pavs := k.pavs.mapDrop Pavilion.reset (Pavilion.dropJob (b.toNat / 2 ^ 32 % 2 ^ 12)) }).extendJob
    (b.toNat / 2 ^ 32 % 2 ^ 12) []
  have run : s.nploadRun d a b = some (cleared, 0, 0) := if_pos empty
  obtain ⟨others, task⟩ := settle_settles (s := cleared) holds g (BitVec.ofNat 64 (0 + 0 * 2 ^ 8))
  obtain ⟨mem, dies, -⟩ := settle_stores cleared (lodgeTask d) g (BitVec.ofNat 64 (0 + 0 * 2 ^ 8))
  refine ⟨cleared.settle (lodgeTask d) g (BitVec.ofNat 64 (0 + 0 * 2 ^ 8)), ?_, others, mem, task, fun n => ?_⟩
  · rw [nploadDone_steps holds, run]
  · have pavs : (cleared.die d).pavs = (s.die d).pavs.mapDrop Pavilion.reset (Pavilion.dropJob (b.toNat / 2 ^ 32 % 2 ^ 12)) := by
      show ((s.modDie d fun k => { k with pavs := k.pavs.mapDrop Pavilion.reset (Pavilion.dropJob (b.toNat / 2 ^ 32 % 2 ^ 12)) }).die d).pavs = _
      rw [State.die_modDie]
    rw [State.die, dies, ← State.die, Die.pav, pavs]
    exact Tbl.get_mapDrop rfl _ n wf

end

/-! #### The unit (R404, R407) -/

section

variable {s : State} {n : W64} {r : TaskRef} {rest : List (W64 × TaskRef)} (queue : s.attest.queue = (n, r) :: rest)
include queue

theorem attestServe_waits (now : n = s.cycle) : exec .attestServe s = .next s := by
  show execAttestServe s = _
  unfold execAttestServe
  rw [queue]
  exact congrArg Host.Outcome.next (if_pos now)

variable (later : n ≠ s.cycle)
include later

theorem attestServe_serves : exec .attestServe s = .next s.serveUnit := by
  show execAttestServe s = _
  unfold execAttestServe
  rw [queue]
  exact congrArg Host.Outcome.next (if_neg later)

theorem attestServe_attests {l : List Hold} {g : Nat} {a b : W64} (holds : (s.task r).holds = .attest g a b :: l) :
    exec .attestServe s = .next (State.unitEnds r g (s.serveAttest r.die a b)) := by
  rw [attestServe_serves queue later, State.serveUnit, queue]
  simp only [headHold_of holds]

theorem attestServe_keys {l : List Hold} {g : Nat} {v b : W64} (holds : (s.task r).holds = .keyld g v b :: l) :
    exec .attestServe s = .next (State.unitEnds r g (s.serveKeyld r.die v b)) := by
  rw [attestServe_serves queue later, State.serveUnit, queue]
  simp only [headHold_of holds]

omit queue later in
theorem removeKey_removes (s : State) (job : Nat) : (s.removeKey job).cores = s.cores ∧ (s.removeKey job).mem = s.mem
    ∧ (s.removeKey job).attest = s.attest ∧ (s.removeKey job).keys = s.keys.filter fun x => !decide (x.job = job) := by
  unfold State.removeKey
  split
  · next none =>
    refine ⟨rfl, rfl, rfl, (List.filter_eq_self.mpr fun k hk => ?_).symm⟩
    have other := List.find?_eq_none.mp none k hk
    simpa using other
  · exact ⟨rfl, rfl, rfl, rfl⟩

/-- KEYLD clears the entry of a job that is neither active nor switched (R407). -/
theorem attestServe_clears {l : List Hold} {g : Nat} {v b : W64} (holds : (s.task r).holds = .keyld g v b :: l) (clear : v.toNat / 2 ^ 12 = 1)
    (inactive : v.toNat % 2 ^ 12 ≠ s.jobid.toNat) (present : s.isSwitched (v.toNat % 2 ^ 12) = false) :
    ∃ t, exec .attestServe s = .next t ∧ OthersStand s t r ∧ t.mem = s.mem ∧ t.attest.queue = rest
      ∧ t.keys = s.keys.filter fun x => !decide (x.job = v.toNat % 2 ^ 12) := by
  have cleared : s.clearKey (keyJob v) = (s.removeKey (v.toNat % 2 ^ 12), 0) :=
    if_neg (by rintro (active | gone); exacts [inactive active, by rw [keyJob] at gone; rw [present] at gone; cases gone])
  have serves : s.serveKeyld r.die v b = (s.removeKey (v.toNat % 2 ^ 12), some 0) := by
    rw [State.serveKeyld, keyldOp, if_pos clear, cleared]
  obtain ⟨cores, mem, attest, keys⟩ := removeKey_removes s (v.toNat % 2 ^ 12)
  have steps : exec .attestServe s = .next (((s.removeKey (v.toNat % 2 ^ 12)).unitNext.lodgeRest r.die).settle r g (BitVec.ofNat 64 0)) := by
    rw [attestServe_keys queue later holds, serves]
    rfl
  refine ⟨_, steps, ?_⟩
  clear steps serves cleared
  generalize s.removeKey (v.toNat % 2 ^ 12) = u at cores mem attest keys
  have rest' : (u.unitNext.lodgeRest r.die).attest.queue = rest := by
    show u.attest.queue.drop 1 = rest
    rw [attest, queue]
    rfl
  have coresU : (u.unitNext.lodgeRest r.die).cores = u.cores := rfl
  have memU : (u.unitNext.lodgeRest r.die).mem = u.mem := rfl
  have keysU : (u.unitNext.lodgeRest r.die).keys = u.keys := rfl
  generalize u.unitNext.lodgeRest r.die = w at rest' coresU memU keysU ⊢
  have tasks := (stands_of (coresU.trans cores) (memU.trans mem)).1
  have held : (w.task r).holds = .keyld g v b :: l := by rw [State.task, tasks, ← State.task]; exact holds
  obtain ⟨memW, -, attestW, keysW, -⟩ := settle_stores w r g (BitVec.ofNat 64 0)
  refine ⟨fun q beside => ((settle_settles held g (BitVec.ofNat 64 0)).1 q beside).trans (tasks q), memW.trans (memU.trans mem), ?_, keysW.trans (keysU.trans keys)⟩
  rw [attestW, rest']

end

end Sys2Proof

namespace Sys2Proof

open Machine

/-! ### Gang switches (R372 to R377) -/

/-- GSW_COMMAND of a switch that does not begin here. -/
theorem gswCommand_idle {s : State} {b : SwitchBlock} (idle : s.gang ≠ none ∨ b.job = 0 ∨ b.job ≠ s.jobid.toNat ∨ b.mask.getLsbD s.module.toNat = false) :
    exec (.gswCommand b) s = .next s := by
  refine congrArg Host.Outcome.next (if_pos ?_)
  rcases idle with runs | none | other | out
  · exact .inl (Option.isSome_iff_ne_none.mpr runs)
  · exact .inr (.inl none)
  · exact .inr (.inr (.inl other))
  · exact .inr (.inr (.inr (.inl out)))

theorem gswCommand_begins {s : State} {b : SwitchBlock} (free : s.gang = none) (real : b.job ≠ 0) (active : b.job = s.jobid.toNat)
    (named : b.mask.getLsbD s.module.toNat = true) (aligned : b.orangery % 2 ^ 21 = 0) (size : 2 ^ 29 ≤ b.size) (inside : b.orangery + b.size ≤ hbmSize)
    (turn : b.turn < 2 ^ 64) (early : s.hwm.toNat ≤ 4096 * b.turn) :
    exec (.gswCommand b) s = .next { s with gang := some ⟨b, none, false, false, [], 0, [], [], [], []⟩ } := by
  have begins : exec (.gswCommand b) s = .next (s.startGang b none) := by
    refine congrArg Host.Outcome.next (if_neg ?_)
    rintro (runs | none | other | out | odd | small | large | late)
    · rw [free] at runs
      cases runs
    · exact real none
    · exact other active
    · rw [named] at out
      cases out
    · exact odd aligned
    · exact absurd size (Nat.not_le.mpr small)
    · exact absurd inside (Nat.not_le.mpr large)
    · exact absurd turn (Nat.not_lt.mpr late)
  rw [begins, State.startGang, decide_eq_false (Nat.not_lt.mpr early)]
  rfl

/-! #### The stop (R372) -/

/-- A task halted, or to halt at its boundary. -/
def Stopping (s : State) (q : TaskRef) : Prop := (s.task q).halted = true ∨ (s.task q).preempt = true

/-- A task of a stopped job halts as by PRMPT. -/
def stopTask (s : State) (r : TaskRef) : State :=
  if (s.task r).halted then s else (s.modTask r fun t => { t with preempt := true }).preemptAt r

theorem task_other {s t : State} {r q : TaskRef} (others : OthersStand s t r)
    (beside : CoreRef.key q.coreRef ≠ CoreRef.key r.coreRef ∨ q.slot ≠ r.slot) : t.task q = s.task q := by
  rw [State.task, others q beside, ← State.task]

theorem task_same (s : State) {r q : TaskRef} (core : CoreRef.key q.coreRef = CoreRef.key r.coreRef) (slot : q.slot = r.slot) : s.task q = s.task r := by
  rw [State.task, State.task, State.task?, State.task?, core_congr s core, slot]

theorem stopTask_stops (s : State) (r : TaskRef) : (stopTask s r).gang = s.gang ∧ Stopping (stopTask s r) r ∧ OthersStand s (stopTask s r) r := by
  unfold stopTask
  split
  · next halted => exact ⟨rfl, .inl halted, fun _ _ => rfl⟩
  · have asked : ((s.modTask r fun t => { t with preempt := true }).task r).preempt = true := by rw [State.task_modTask]
    have others := othersStand_modTask s r fun t => { t with preempt := true }
    have gang : (s.modTask r fun t => { t with preempt := true }).gang = s.gang := rfl
    generalize (s.modTask r fun t => { t with preempt := true }) = u at asked others gang ⊢
    unfold State.preemptAt
    split
    · obtain ⟨halts, beside, -⟩ := haltTask_halts u r
      exact ⟨gang, .inl (by rw [halts]), others.trans beside⟩
    · exact ⟨gang, .inr asked, others⟩

theorem stopTasks_stop (l : List TaskRef) (s : State) : (l.foldl stopTask s).gang = s.gang ∧ (∀ r ∈ l, Stopping (l.foldl stopTask s) r)
    ∧ ∀ q, Stopping s q → Stopping (l.foldl stopTask s) q := by
  induction l generalizing s with
  | nil => exact ⟨rfl, fun _ h => absurd h List.not_mem_nil, fun _ h => h⟩
  | cons r l ih =>
    obtain ⟨gang, here, others⟩ := stopTask_stops s r
    obtain ⟨gang', all, kept⟩ := ih (stopTask s r)
    have keeps : ∀ q, Stopping s q → Stopping (stopTask s r) q := fun q h => by
      by_cases same : CoreRef.key q.coreRef = CoreRef.key r.coreRef ∧ q.slot = r.slot
      · rw [Stopping, task_same _ same.1 same.2]
        exact here
      · rw [Stopping, task_other others (by rwa [not_and_or] at same)]
        exact h
    refine ⟨gang'.trans gang, fun q hq => ?_, fun q h => kept q (keeps q h)⟩
    rcases List.mem_cons.mp hq with rfl | tail
    · exact kept q here
    · exact all q tail

theorem outputs_keep {α : Type} (l : List α) (d r p : α → Nat) (c : α → Cell) (s : State) :
    (l.foldl (fun s x => s.output (d x) (r x) (p x) (c x)) s).cores = s.cores ∧ (l.foldl (fun s x => s.output (d x) (r x) (p x) (c x)) s).gang = s.gang := by
  induction l generalizing s with
  | nil => exact ⟨rfl, rfl⟩
  | cons x l ih => exact ih (s.output (d x) (r x) (p x) (c x))

/-- A gang switch that has stopped its job. -/
def stoppedGang (s : State) (g : Gang) : Gang :=
  { g with stopped := true, marked := g.marked ++ markedPorts.filter fun p => s.markedAtStop g.block.mask p && !g.marked.contains p }

/-- A job's tasks stopped, and its markers sent. -/
def jobHalted (s : State) (g : Gang) : State :=
  markedPorts.foldl (fun s p => s.output p.die (portRouter p) p.port (markerCell g.block.job g.block.turn))
    ((s.jobTasks g.block.job).foldl stopTask { s with gang := some (stoppedGang s g) })

theorem stopJob_eq (s : State) (g : Gang) : s.stopJob g = (jobHalted s g).toOrangery g.block 0
    (padTo 4096 (headerBytes (jobHalted s g).module.toNat g.block 0 g.nlate 0 g.lost.length 0)) := rfl

/-- The module stops a job (R372). -/
theorem stopJob_stops (s : State) (g : Gang) : ∃ h, (s.stopJob g).gang = some h ∧ h.stopped = true ∧ h.block = g.block
    ∧ ∀ r ∈ s.jobTasks g.block.job, ((s.stopJob g).task r).halted = true ∨ ((s.stopJob g).task r).preempt = true := by
  have before : (jobHalted s g).gang = some (stoppedGang s g) ∧ ∀ r ∈ s.jobTasks g.block.job, Stopping (jobHalted s g) r := by
    obtain ⟨gang, all, -⟩ := stopTasks_stop (s.jobTasks g.block.job) { s with gang := some (stoppedGang s g) }
    unfold jobHalted
    generalize (s.jobTasks g.block.job).foldl stopTask { s with gang := some (stoppedGang s g) } = u at gang all ⊢
    obtain ⟨cores, gang'⟩ := outputs_keep markedPorts PortRef.die portRouter PortRef.port (fun _ => markerCell g.block.job g.block.turn) u
    refine ⟨gang'.trans gang, fun r hr => ?_⟩
    rw [Stopping, State.task, State.task?, State.core, cores]
    exact all r hr
  rw [stopJob_eq]
  generalize jobHalted s g = w at before ⊢
  have worked : Worked w (w.toOrangery g.block 0 (padTo 4096 (headerBytes w.module.toNat g.block 0 g.nlate 0 g.lost.length 0))) := worked_storeHbm ..
  generalize w.toOrangery g.block 0 (padTo 4096 (headerBytes w.module.toNat g.block 0 g.nlate 0 g.lost.length 0)) = t at worked ⊢
  refine ⟨stoppedGang s g, worked.gang.trans before.1, rfl, rfl, fun r hr => ?_⟩
  rw [worked.task]
  exact before.2 r hr

/-! #### The sweep (R374) -/

/-- The block of the switch that runs. -/
def gangBlock (s : State) : Option SwitchBlock := s.gang.map Gang.block

theorem gangBlock_modGang (s : State) (job : Nat) (f : Gang → Gang) (keeps : ∀ g, (f g).block = g.block) : gangBlock (s.modGang job f) = gangBlock s := by
  show (s.gang.map fun g => if g.block.job = job then f g else g).map Gang.block = s.gang.map Gang.block
  rw [Option.map_map]
  congr 1
  funext g
  show (if g.block.job = job then f g else g).block = g.block
  split
  · exact keeps g
  · rfl

/-- A sweep whose steps keep the switch keeps it. -/
theorem sweep_foldl {α : Type} (f : Swept → α → Swept) (each : ∀ x a, gangBlock (f x a).1 = gangBlock x.1) (l : List α) (x : Swept) :
    gangBlock (l.foldl f x).1 = gangBlock x.1 := by
  induction l generalizing x with
  | nil => rfl
  | cons a l ih => exact (ih (f x a)).trans (each x a)

theorem gangBlock_foldl {α : Type} (f : State → α → State) (each : ∀ s a, (f s a).gang = s.gang) (l : List α) (s : State) :
    gangBlock (l.foldl f s) = gangBlock s := by
  induction l generalizing s with
  | nil => rfl
  | cons a l ih => rw [List.foldl_cons, ih, gangBlock, each, ← gangBlock]

theorem gangBlock_modDie (s : State) (d : Nat) (f : Die → Die) : gangBlock (s.modDie d f) = gangBlock s := rfl

theorem gangBlock_modPort (s : State) (d r p : Nat) (f : Port → Port) : gangBlock (s.modPort d r p f) = gangBlock s := rfl

theorem gangBlock_modLink (s : State) (d l : Nat) (f : Link → Link) : gangBlock (s.modLink d l f) = gangBlock s := rfl

theorem gangBlock_modTask (s : State) (r : TaskRef) (f : Task → Task) : gangBlock (s.modTask r f) = gangBlock s := rfl

theorem add_keeps (x : Swept) (l : RecLoc) (b : List Byte) : gangBlock (x.add l b).1 = gangBlock x.1 := rfl

theorem cells_keeps (p : PortRef) (source : Nat) (l : List Cell) (x : Swept) : gangBlock (Swept.cells p source l x).1 = gangBlock x.1 := by
  unfold Swept.cells
  exact sweep_foldl _ (fun x c => add_keeps x _ _) l x

theorem sweepPort_keeps (job : Nat) (x : Swept) (p : PortRef) : gangBlock (sweepPort job x p).1 = gangBlock x.1 := by
  unfold sweepPort
  dsimp only
  rw [gangBlock_foldl]
  · rw [gangBlock_modPort]
    apply sweep_foldl
    exact fun x e => cells_keeps p e.1 e.2 x
  · exact fun _ _ => rfl

theorem sweepPorts_keeps (job : Nat) (x : Swept) : gangBlock (sweepPorts job x).1 = gangBlock x.1 := by
  unfold sweepPorts
  apply sweep_foldl
  intro x e
  split
  · apply sweep_foldl
    exact fun x n => sweepPort_keeps job x _
  · rfl

theorem sweepPavilion_keeps (job : Nat) (x : Swept) (d : Nat × Nat) : gangBlock (sweepPavilion job x d).1 = gangBlock x.1 := by
  unfold sweepPavilion
  dsimp only
  split
  · rfl
  · rw [gangBlock_modGang]
    · rfl
    · exact fun _ => rfl

theorem sweepPavilions_keeps (job : Nat) (x : Swept) : gangBlock (sweepPavilions job x).1 = gangBlock x.1 := by
  unfold sweepPavilions
  apply sweep_foldl
  exact sweepPavilion_keeps job

theorem sweepRetries_keeps (job : Nat) (x : Swept) : gangBlock (sweepRetries job x).1 = gangBlock x.1 := by
  unfold sweepRetries
  apply sweep_foldl
  intro x p
  dsimp only
  split
  · rfl
  · split
    · rfl
    · rw [gangBlock_modLink]
      apply sweep_foldl
      exact fun x e => add_keeps x _ _

theorem sweepQueue_keeps (job : Nat) (r : TaskRef) (x : Swept) (q : Nat) : gangBlock (sweepQueue job r x q).1 = gangBlock x.1 := by
  unfold sweepQueue
  dsimp only
  rw [gangBlock_modPort, gangBlock_modTask]
  apply sweep_foldl
  exact fun x c => add_keeps x _ _

theorem sweepQueues_keeps (job : Nat) (x : Swept) : gangBlock (sweepQueues job x).1 = gangBlock x.1 := by
  unfold sweepQueues
  apply sweep_foldl
  intro x r
  apply sweep_foldl
  exact sweepQueue_keeps job r

theorem sweepAtomics_keeps (job : Nat) (x : Swept) : gangBlock (sweepAtomics job x).1 = gangBlock x.1 := by
  unfold sweepAtomics
  apply sweep_foldl
  exact fun x e => (gangBlock_modTask _ e.1 _).trans (add_keeps x _ _)

theorem sweepColls_keeps (job : Nat) (x : Swept) : gangBlock (sweepColls job x).1 = gangBlock x.1 := by
  unfold sweepColls
  apply sweep_foldl
  intro x d
  dsimp only
  rw [gangBlock_modGang]
  · rw [gangBlock_modDie]
    apply sweep_foldl
    intro x c
    apply sweep_foldl
    exact fun x k => add_keeps x _ _
  · exact fun _ => rfl

theorem sweep_keeps (s : State) (job : Nat) : gangBlock (s.sweep job).1 = gangBlock s := by
  unfold State.sweep
  rw [sweepColls_keeps, sweepAtomics_keeps, sweepQueues_keeps, sweepRetries_keeps, sweepPavilions_keeps, sweepPorts_keeps]

end Sys2Proof

namespace Sys2Proof

open Machine

/-! ### The steps of a gang switch (R372, R373, R377) -/

/-- The GSW of a switch that has closed completes: the switch stays closed. -/
theorem endGsw_closed {s : State} (g : Gang) (code : Nat) (closed : s.gang = none) (job : s.jobid = 0) (switched : s.isSwitched g.block.job = true) :
    (s.endGsw g code).gang = none ∧ (s.endGsw g code).jobid = 0 ∧ (s.endGsw g code).isSwitched g.block.job = true := by
  have told : (s.modGang g.block.job fun g => { g with issuer := none }).gang = none
      ∧ (s.modGang g.block.job fun g => { g with issuer := none }).jobid = 0
      ∧ (s.modGang g.block.job fun g => { g with issuer := none }).isSwitched g.block.job = true := by
    refine ⟨?_, job, ?_⟩
    · show s.gang.map _ = none
      rw [closed]
      rfl
    · obtain ⟨k, mem, same⟩ := List.any_eq_true.mp switched
      refine List.any_eq_true.mpr ⟨_, List.mem_map.mpr ⟨k, mem, rfl⟩, ?_⟩
      rw [decide_eq_true_eq] at same
      rw [if_pos same]
      exact decide_eq_true same
  unfold State.endGsw
  dsimp only
  generalize (s.modGang g.block.job fun g => { g with issuer := none }) = u at told ⊢
  split
  · next r d issuer =>
    split
    · obtain ⟨-, -, -, -, gang, sw, id⟩ := settle_stores u r d (BitVec.ofNat 64 code)
      refine ⟨gang.trans told.1, id.trans told.2.1, ?_⟩
      rw [State.isSwitched, sw]
      exact told.2.2
    · exact told
  · exact told

/-- The sweep closes once every port is marked and every task of the job stands halted (R373). -/
theorem tryClose_closes {s : State} {g : Gang} (runs : s.gang = some g) (stopped : g.stopped = true) (marked : ∀ p ∈ markedPorts, p ∈ g.marked)
    (halted : ∀ r ∈ s.jobTasks g.block.job, (s.task r).halted = true) :
    s.tryClose.gang = none ∧ s.tryClose.jobid = 0 ∧ s.tryClose.isSwitched g.block.job = true := by
  have allMarked : (markedPorts.all fun p => g.marked.contains p) = true := List.all_eq_true.mpr fun p hp => List.contains_iff_mem.mpr (marked p hp)
  have allHalted : ((s.jobTasks g.block.job).all fun r => (s.task r).halted) = true := List.all_eq_true.mpr halted
  have swept := sweep_keeps s g.block.job
  unfold State.tryClose
  rw [runs]
  dsimp only
  rw [stopped, allMarked, allHalted]
  rw [if_neg (by decide)]
  generalize s.sweep g.block.job = x at swept ⊢
  have written : Worked x.1 (x.1.toOrangery g.block 0x100000 x.2.flatten) := worked_storeHbm ..
  have block : gangBlock (x.1.toOrangery g.block 0x100000 x.2.flatten) = some g.block := by
    rw [gangBlock, written.gang, ← gangBlock, swept, gangBlock, runs]
    rfl
  generalize x.1.toOrangery g.block 0x100000 x.2.flatten = u at block ⊢
  obtain ⟨h, gang, same⟩ := Option.map_eq_some_iff.mp block
  rw [gang]
  dsimp only
  generalize u.toOrangery g.block 0 (headerBytes u.module.toNat g.block x.2.length h.nlate (crc32c x.2.flatten) h.lost.length 1) = w
  have closed : ({ w with gang := none, switched := w.switched ++ [{ h with before := [] }], jobid := 0 } : State).isSwitched g.block.job = true :=
    List.any_eq_true.mpr ⟨{ h with before := [] }, List.mem_append_right _ List.mem_cons_self, decide_eq_true (congrArg SwitchBlock.job same)⟩
  split
  · rw [← same] at closed ⊢
    exact endGsw_closed (s := { w with gang := none, switched := w.switched ++ [{ h with before := [] }], jobid := 0 }) { h with before := [] } _ rfl rfl closed
  · exact ⟨rfl, rfl, closed⟩

theorem tryClose_open {s : State} {g : Gang} (runs : s.gang = some g) (waits : ∃ q ∈ markedPorts, q ∉ g.marked) : s.tryClose = s := by
  obtain ⟨q, mem, unmarked⟩ := waits
  have some_unmarked : (markedPorts.all fun p => g.marked.contains p) = false := by
    refine List.all_eq_false.mpr ⟨q, mem, ?_⟩
    rw [List.contains_iff_mem]
    exact unmarked
  unfold State.tryClose
  rw [runs]
  dsimp only
  rw [some_unmarked]
  exact if_pos (by simp)

/-- GANG_STOP and GANG_STOP_TIMEOUT of no switch that runs. -/
theorem gangStop_none {s : State} (none : s.gang = none) : ((∀ g ∈ s.switched, g.issuer = Option.none) → exec .gangStop s = .next s)
    ∧ exec .gangStopTimeout s = .next s := by
  have stop : exec .gangStop s = execGangStop s := rfl
  have timeout : exec .gangStopTimeout s = execGangStopTimeout s := rfl
  refine ⟨fun told => ?_, ?_⟩
  · have nobody : (s.switched.find? fun g => g.issuer.isSome) = Option.none := List.find?_eq_none.mpr fun g hg => by rw [told g hg]; simp
    rw [stop]
    unfold execGangStop
    simp only [none, nobody]
  · rw [timeout]
    unfold execGangStopTimeout
    simp only [none]

section

variable {s : State} {g : Gang} (runs : s.gang = some g)
include runs

omit runs in
/-- What stops the job of a switch. -/
theorem stops_by {i : Instr} {u : State} (steps : exec i s = .next (u.stopJob g)) (same : ∀ job, u.jobTasks job = s.jobTasks job) :
    ∃ t h, exec i s = .next t ∧ t.gang = some h ∧ h.stopped = true ∧ h.block = g.block
      ∧ ∀ r ∈ s.jobTasks g.block.job, (t.task r).halted = true ∨ (t.task r).preempt = true := by
  obtain ⟨h, gang, stopped, block, all⟩ := stopJob_stops u g
  exact ⟨_, h, steps, gang, stopped, block, fun r hr => all r (by rw [same]; exact hr)⟩

theorem gangStop_running (going : g.stopped = false) : (s.hwm.toNat < 4096 * g.block.turn → exec .gangStop s = .next s)
    ∧ (4096 * g.block.turn ≤ s.hwm.toNat → ∃ t h, exec .gangStop s = .next t ∧ t.gang = some h ∧ h.stopped = true ∧ h.block = g.block
      ∧ ∀ r ∈ s.jobTasks g.block.job, (t.task r).halted = true ∨ (t.task r).preempt = true)
    ∧ ∃ t h, exec .gangStopTimeout s = .next t ∧ t.gang = some h ∧ h.stopped = true ∧ h.block = g.block
      ∧ ∀ r ∈ s.jobTasks g.block.job, (t.task r).halted = true ∨ (t.task r).preempt = true := by
  have stop : exec .gangStop s = .next (if 4096 * g.block.turn ≤ s.hwm.toNat then s.stopJob g else s) := by
    show execGangStop s = _
    unfold execGangStop
    simp only [runs, going, Bool.false_eq_true, if_false]
  have timeout : exec .gangStopTimeout s = .next ({ s with hwm := tmax s.hwm (BitVec.ofNat 64 (4096 * g.block.turn)) }.stopJob g) := by
    show execGangStopTimeout s = _
    unfold execGangStopTimeout
    simp only [runs, going, Bool.false_eq_true, if_false]
  refine ⟨fun early => ?_, fun due => stops_by ?_ fun _ => rfl, stops_by timeout fun _ => rfl⟩
  · rw [stop, if_neg (Nat.not_le.mpr early)]
  · rw [stop, if_pos due]

theorem gangStop_stopped (stopped : g.stopped = true) : exec .gangStopTimeout s = .next s
    ∧ ((∀ p ∈ markedPorts, p ∈ g.marked) → (∀ r ∈ s.jobTasks g.block.job, (s.task r).halted = true) → ∃ t,
      exec .gangStop s = .next t ∧ t.gang = none ∧ t.jobid = 0 ∧ t.isSwitched g.block.job = true) := by
  refine ⟨?_, fun marked halted => ?_⟩
  · show execGangStopTimeout s = _
    unfold execGangStopTimeout
    simp only [runs, stopped, if_true]
  · obtain ⟨gang, job, switched⟩ := tryClose_closes runs stopped marked halted
    refine ⟨s.tryClose, ?_, gang, job, switched⟩
    show execGangStop s = _
    unfold execGangStop
    simp only [runs, stopped, if_true, gang, Option.isSome_none, Bool.false_eq_true, false_and, if_false]

theorem gangMarker_marks (p : PortRef) (job turn : Nat) :
    ((g.block.job ≠ job ∨ g.block.turn ≠ turn ∨ p ∉ markedPorts) → exec (.gangMarker p job turn) s = .next s)
    ∧ (g.block.job = job → g.block.turn = turn → p ∈ markedPorts →
      (g.stopped = false ∨ (∃ q ∈ markedPorts, q ≠ p ∧ q ∉ g.marked)) → exec (.gangMarker p job turn) s = .next { s with
        gang := some { g with marked := if g.marked.contains p then g.marked else g.marked ++ [p] } }) := by
  have steps : exec (.gangMarker p job turn) s = .next (if g.block.job = job ∧ g.block.turn = turn ∧ markedPorts.contains p = true then
      (if g.stopped then ({ s with gang := some { g with marked := if g.marked.contains p then g.marked else g.marked ++ [p] } } : State).tryClose
        else { s with gang := some { g with marked := if g.marked.contains p then g.marked else g.marked ++ [p] } }) else s) := by
    show execGangMarker p job turn s = _
    unfold execGangMarker
    simp only [runs]
  rw [steps]
  refine ⟨fun other => congrArg Host.Outcome.next (if_neg ?_), fun job' turn' port more => ?_⟩
  · rintro ⟨job', turn', port⟩
    exact other.elim (fun h => h job') fun h => h.elim (fun h => h turn') fun h => h (List.contains_iff_mem.mp port)
  · rw [if_pos ⟨job', turn', List.contains_iff_mem.mpr port⟩]
    split
    · next stopped =>
      have waits := more.resolve_left (by rw [stopped]; exact Bool.noConfusion)
      obtain ⟨q, mem, other, unmarked⟩ := waits
      refine congrArg Host.Outcome.next (tryClose_open rfl ⟨q, mem, fun marked => ?_⟩)
      dsimp only at marked
      split at marked
      · exact unmarked marked
      · rcases List.mem_append.mp marked with old | new
        · exact unmarked old
        · exact other (List.mem_singleton.mp new)
    · rfl

end

/-! #### Late cells (R377) -/

/-- A switch of a job changed is found as changed. -/
theorem gangOf_modGang {s : State} {job : Nat} {g : Gang} (f : Gang → Gang) (keeps : ∀ g, (f g).block = g.block) (found : s.gangOf job = some g) :
    (s.modGang job f).gangOf job = some (f g) := by
  have key : ∀ x : Gang, (if x.block.job = job then f x else x).block.job = x.block.job := fun x => by
    split
    · rw [keeps]
    · rfl
  have listed : ∀ l : List Gang, (l.map fun x => if x.block.job = job then f x else x).find? (fun x => decide (x.block.job = job))
      = (l.find? fun x => decide (x.block.job = job)).map f := by
    intro l
    induction l with
    | nil => rfl
    | cons x l ih =>
      by_cases h : x.block.job = job
      · rw [List.map_cons, List.find?_cons_of_pos (by rw [key]; exact decide_eq_true h), List.find?_cons_of_pos (p := fun x : Gang => decide (x.block.job = job)) (decide_eq_true h), if_pos h]
        rfl
      · rw [List.map_cons, List.find?_cons_of_neg (by rw [key]; simpa using h), List.find?_cons_of_neg (by simpa using h), ih]
  have switched := listed s.switched
  unfold State.gangOf at found ⊢
  have gang : (s.modGang job f).gang = s.gang.map fun x => if x.block.job = job then f x else x := rfl
  have sw : (s.modGang job f).switched = s.switched.map fun x => if x.block.job = job then f x else x := rfl
  rw [gang, sw, switched]
  cases hg : s.gang with
  | none =>
    rw [hg] at found
    have found : (s.switched.find? fun g => decide (g.block.job = job)) = some g := found
    rw [found]
    rfl
  | some x =>
    rw [hg] at found
    by_cases h : x.block.job = job
    · have same : x = g := by
        dsimp only at found
        rw [if_pos h] at found
        exact Option.some.inj found
      subst same
      rw [Option.map_some, if_pos h]
      dsimp only
      rw [if_pos (by rw [keeps]; exact h)]
      rfl
    · dsimp only at found
      rw [if_neg h] at found
      have found : (s.switched.find? fun g => decide (g.block.job = job)) = some g := found
      rw [Option.map_some, if_neg h]
      dsimp only
      rw [if_neg h, found]
      rfl

theorem gangOf_job {s : State} {job : Nat} {g : Gang} (found : s.gangOf job = some g) : g.block.job = job := by
  unfold State.gangOf at found
  cases hg : s.gang with
  | none =>
    rw [hg] at found
    exact of_decide_eq_true (List.find?_some (p := fun g : Gang => decide (g.block.job = job)) (show (s.switched.find? fun g => decide (g.block.job = job)) = some g from found))
  | some x =>
    rw [hg] at found
    dsimp only at found
    split at found
    · next h =>
      cases found
      exact h
    · exact of_decide_eq_true (List.find?_some (p := fun g : Gang => decide (g.block.job = job)) (show (s.switched.find? fun g => decide (g.block.job = job)) = some g from found))

/-- LATE_CELL (R377). -/
theorem lateCell_counts (s : State) (p : PortRef) (c : Cell) : (s.gangOf c.job = none → exec (.lateCell p c) s = .next s)
    ∧ ∀ g, s.gangOf c.job = some g → (g.marked.contains p = false → exec (.lateCell p c) s = .next s)
      ∧ (g.marked.contains p = true → ∃ t h, exec (.lateCell p c) s = .next t ∧ (∀ q, t.task? q = s.task? q)
        ∧ t.gangOf c.job = some h ∧ h = (if g.nlate < 4096 then { g with nlate := g.nlate + 1 } else { g with lost := g.lost ++ [(p, c)] })) := by
  have late : exec (.lateCell p c) s = execLateCell p c s := rfl
  rw [late]
  unfold execLateCell
  refine ⟨fun none => by rw [none], fun g found => ⟨fun unmarked => ?_, fun marked => ?_⟩⟩
  · rw [found]
    exact congrArg Host.Outcome.next (if_neg (by rw [unmarked]; exact Bool.false_ne_true))
  · have job := gangOf_job found
    refine ⟨s.lateCell g p c, if g.nlate < 4096 then { g with nlate := g.nlate + 1 } else { g with lost := g.lost ++ [(p, c)] }, ?_, ?_⟩
    · rw [found]
      exact congrArg Host.Outcome.next (if_pos marked)
    · unfold State.lateCell
      dsimp only
      have of : ∀ w : State, Worked s w → w.gangOf c.job = some g := fun w worked => by
        unfold State.gangOf
        rw [worked.gang, show w.switched = s.switched from (congrArg State.switched worked.rest :)]
        exact found
      rw [job]
      split
      · next room =>
        have worked := (worked_storeHbm s (g.block.orangery + 0x1000 + 160 * g.nlate) (jobKey c.job)
          (recordOf (portLoc p 6 (s.bodyDue p c)) (slotBytes c))).trans (worked_storeHbm _ (g.block.orangery + 32) (jobKey c.job) (leBytes 4 (g.nlate + 1)))
        rw [if_pos (show g.nlate < 4096 from room)]
        exact ⟨worked.task?, gangOf_modGang _ (fun _ => rfl) (of _ worked), rfl⟩
      · next full =>
        have worked := worked_storeHbm s (g.block.orangery + 40) (jobKey c.job) (leBytes 8 (g.lost.length + 1))
        rw [if_neg (show ¬g.nlate < 4096 from full)]
        exact ⟨worked.task?, gangOf_modGang _ (fun _ => rfl) (of _ worked), rfl⟩

end Sys2Proof

namespace Sys2Proof

open Machine

/-! ### KILL (R385) -/

/-- A command stopped by KILL touches its own task and core alone. -/
theorem killCmd_kills (r : TaskRef) (s : State) (ptok : Nat) :
    OthersStand s (State.killCmd r.coreRef r.slot s ptok) r ∧ (State.killCmd r.coreRef r.slot s ptok).mem = s.mem := by
  unfold State.killCmd
  split
  · exact ⟨fun _ _ => rfl, rfl⟩
  · next x there =>
    split
    · exact ⟨fun _ _ => rfl, rfl⟩
    · next own =>
      split
      · exact ⟨fun q _ => task?_modCore_tasks s r.coreRef rfl q, rfl⟩
      · obtain ⟨ended, mem, -⟩ := endCmd_ends there 0x47 0
        have issuer : issuerOf r.coreRef x = r := by
          rw [issuerOf, not_not.mp own]
          rfl
        exact ⟨issuer ▸ ended.others, mem⟩

theorem killCmds_kill (r : TaskRef) (l : List Nat) (s : State) : OthersStand s (l.foldl (State.killCmd r.coreRef r.slot) s) r
    ∧ (l.foldl (State.killCmd r.coreRef r.slot) s).mem = s.mem := by
  induction l generalizing s with
  | nil => exact ⟨fun _ _ => rfl, rfl⟩
  | cons n l ih =>
    obtain ⟨others, mem⟩ := killCmd_kills r s n
    obtain ⟨others', mem'⟩ := ih (State.killCmd r.coreRef r.slot s n)
    exact ⟨others.trans others', mem'.trans mem⟩

theorem mem_endTaskAt (u : State) (r : TaskRef) : (u.endTaskAt r).mem = u.mem := by
  have left : (u.endTaskAt r).mem = (released u r).mem := (congrArg State.mem (wakes_endTaskAt u r).rest :)
  have closed : (u.closeSet r).mem = u.mem := by
    rcases closeSet_rest u r with same | ⟨f, same⟩
    · rw [same]
    · rw [same]
      rfl
  exact left.trans closed

/-- A task killed: it is ending, and of the others only those that wait on a barrier may wake. -/
structure Kills (s t : State) (r : TaskRef) : Prop where
  mem : t.mem = s.mem
  ends : (s.task? r).isSome = true → (t.task? r).isSome = true ∧ (t.task r).status = .ending
  others : ∀ q : TaskRef, (CoreRef.key q.coreRef ≠ CoreRef.key r.coreRef ∨ q.slot ≠ r.slot) →
    t.task? q = s.task? q ∨ ∃ x n p v, s.task? q = some x ∧ x.status = .waiting n p ∧ t.task? q = some { x.observe v with status := .ready }

theorem Kills.beside {s t : State} {r q : TaskRef} (h : Kills s t r) (other : CoreRef.key q.coreRef ≠ CoreRef.key r.coreRef ∨ q.slot ≠ r.slot) :
    (t.task? q).isSome = (s.task? q).isSome ∧ ((∀ n p, (s.task q).status ≠ .waiting n p) → t.task? q = s.task? q) := by
  rcases h.others q other with stands | ⟨x, n, p, v, held, waits, woken⟩
  · exact ⟨by rw [stands], fun _ => stands⟩
  · refine ⟨by rw [woken, held]; rfl, fun idle => absurd ?_ (idle n p)⟩
    rw [State.task, held]
    exact waits

theorem killTask_kills (s : State) (r : TaskRef) : Kills s (s.killTask r) r := by
  unfold State.killTask
  split
  · next none =>
    refine ⟨rfl, fun there => ?_, fun _ _ => .inl rfl⟩
    rw [none] at there
    cases there
  · next t here =>
    dsimp only
    obtain ⟨others, mem⟩ := killCmds_kill r (List.range 64) (s.modLaunch t.launch fun l => { l with killed := true })
    have others : OthersStand s _ r := OthersStand.trans (t := s.modLaunch t.launch fun l => { l with killed := true }) (fun _ _ => rfl) others
    have mem := mem.trans (show (s.modLaunch t.launch fun l => { l with killed := true }).mem = s.mem from rfl)
    generalize (List.range 64).foldl (State.killCmd r.coreRef r.slot) (s.modLaunch t.launch fun l => { l with killed := true }) = u at others mem ⊢
    have freed := task?_modCore_tasks u r.coreRef (f := fun c => { c with mcmds := c.mcmds.filter fun m => match m with
          | .latch k _ _ _ => !decide (k = r.slot)
          | .token k _ => !decide (k = r.slot) }) rfl
    have others : OthersStand s _ r := fun q beside => (freed q).trans (others q beside)
    have mem : State.mem _ = s.mem := mem
    have memFreed : (u.modCore r.coreRef fun c => { c with mcmds := c.mcmds.filter fun m => match m with
          | .latch k _ _ _ => !decide (k = r.slot)
          | .token k _ => !decide (k = r.slot) }).mem = u.mem := rfl
    generalize (u.modCore r.coreRef fun c => { c with mcmds := c.mcmds.filter fun m => match m with
          | .latch k _ _ _ => !decide (k = r.slot)
          | .token k _ => !decide (k = r.slot) }) = w at others memFreed ⊢
    have ended := task?_endTaskAt w r
    refine ⟨(mem_endTaskAt w r).trans (memFreed.trans mem), fun _ => ⟨by rw [ended]; rfl, ?_⟩, fun q beside => ?_⟩
    · rw [State.task, ended]
      rfl
    · have same := others q beside
      rcases task?_endTaskAt_other w beside with stands | ⟨x, n, p, b, v, held, waits, -, -, woken⟩
      · exact .inl (stands.trans same)
      · exact .inr ⟨x, n, p, v, same ▸ held, waits, woken⟩

/-- A named task killed where it is there and has not ended. -/
def killNamed (s : State) (r : TaskRef) : State := if (s.task? r).isSome ∧ (s.task r).status ≠ .ending then s.killTask r else s

theorem killNamed_kills (s : State) (r : TaskRef) : Kills s (killNamed s r) r := by
  unfold killNamed
  split
  · exact killTask_kills s r
  · next over' =>
    exact ⟨rfl, fun there => ⟨there, by_contra fun alive => over' ⟨there, alive⟩⟩, fun _ _ => .inl rfl⟩

/-- A task that has ended stays so while others are killed. -/
theorem Kills.ended {s t : State} {r q : TaskRef} (h : Kills s t r) (there : (s.task? q).isSome = true) (over' : (s.task q).status = .ending) :
    (t.task? q).isSome = true ∧ (t.task q).status = .ending := by
  by_cases same : CoreRef.key q.coreRef = CoreRef.key r.coreRef ∧ q.slot = r.slot
  · have key : ∀ u : State, u.task? q = u.task? r := fun u => by rw [State.task?, State.task?, core_congr u same.1, same.2]
    rw [key] at there ⊢
    rw [task_same t same.1 same.2]
    exact h.ends there
  · obtain ⟨some, stands⟩ := h.beside (by rwa [not_and_or] at same)
    refine ⟨by rw [some, there], ?_⟩
    rw [State.task, stands fun n p => by rw [over']; nofun, ← State.task, over']

theorem killAll_kills (l : List TaskRef) (s : State) : (l.foldl killNamed s).mem = s.mem
    ∧ (∀ q, (s.task? q).isSome = true → (s.task q).status = .ending → ((l.foldl killNamed s).task q).status = .ending)
    ∧ (∀ r ∈ l, (s.task? r).isSome = true → ((l.foldl killNamed s).task r).status = .ending)
    ∧ ∀ q : TaskRef, (∀ r ∈ l, CoreRef.key q.coreRef ≠ CoreRef.key r.coreRef ∨ q.slot ≠ r.slot) →
      (∀ n p, (s.task q).status ≠ .waiting n p) → (l.foldl killNamed s).task? q = s.task? q := by
  induction l generalizing s with
  | nil => exact ⟨rfl, fun _ _ h => h, fun _ h => absurd h List.not_mem_nil, fun _ _ _ => rfl⟩
  | cons r l ih =>
    have one := killNamed_kills s r
    obtain ⟨mem, stay, ends, others⟩ := ih (killNamed s r)
    rw [List.foldl_cons]
    refine ⟨mem.trans one.mem, fun q there over' => ?_, fun q hq there => ?_, fun q beside idle => ?_⟩
    · obtain ⟨there', over''⟩ := one.ended there over'
      exact stay q there' over''
    · by_cases tail : q ∈ l
      · by_cases same : CoreRef.key q.coreRef = CoreRef.key r.coreRef ∧ q.slot = r.slot
        · have key : ∀ u : State, u.task? q = u.task? r := fun u => by rw [State.task?, State.task?, core_congr u same.1, same.2]
          obtain ⟨there', over'⟩ := one.ends (key s ▸ there)
          exact stay q (by rw [key]; exact there') (by rw [task_same _ same.1 same.2]; exact over')
        · exact ends q tail (by rw [(one.beside (by rwa [not_and_or] at same)).1]; exact there)
      · rcases List.mem_cons.mp hq with rfl | tail'
        · obtain ⟨there', over'⟩ := one.ends there
          exact stay q there' over'
        · exact absurd tail' tail
    · have stands := (one.beside (beside r List.mem_cons_self)).2 idle
      have same : (killNamed s r).task q = s.task q := by rw [State.task, stands, ← State.task]
      exact (others q (fun k hk => beside k (List.mem_cons_of_mem _ hk)) (by rw [same]; exact idle)).trans stands

/-! ### Registers and monitors (R24, R339, R388) -/

theorem mergeWord_whole (old v : W64) : mergeWord old (BitVec.allOnes 64) v = v := by
  rw [mergeWord, BitVec.not_allOnes, BitVec.and_zero, BitVec.zero_or, BitVec.and_allOnes]

/-- GHCFG_LOCK (R339). -/
theorem ghcfgLock_writes (d : Nat) (v : W64) (s : State) : ∃ t, exec (.ghcfgLock d v) s = .next t ∧ TasksAndMemoryStand s t
    ∧ (t.die d).gate = (if (s.die d).gate.ghcfg.getLsbD 6 then (s.die d).gate else { (s.die d).gate with ghcfg := v &&& 0x7F })
    ∧ t.module = (t.die 0).gate.ghcfg.setWidth 6 := by
  have written := gate_modGate s d (Gatehouse.write 0 (BitVec.allOnes 64) v)
  have noted : ∀ u : State, TasksAndMemoryStand u (s.noteLock u) ∧ (s.noteLock u).dies = u.dies ∧ (s.noteLock u).module = u.module := fun u => by
    unfold State.noteLock
    split <;> exact ⟨stands_of rfl rfl, rfl, rfl⟩
  obtain ⟨stands, dies, module⟩ := noted (s.modGate d (Gatehouse.write 0 (BitVec.allOnes 64) v)).followModule
  refine ⟨_, rfl, stands, ?_, ?_⟩
  · rw [State.die, dies]
    refine written.trans ?_
    unfold Gatehouse.write
    rw [mergeWord_whole] <;> rfl
  · rw [module, State.die, dies]
    rfl

theorem monitor_modMonitor (s : State) (m : MonitorRef) (f : Monitor → Monitor) : (s.modMonitor m f).monitor m = f (s.monitor m) := by
  unfold State.modMonitor State.monitor
  rw [State.die_modDie, Tbl.get_set_same]

theorem monitorSample_steps (m : MonitorRef) (n : Nat) (s : State) :
    (samplesQty m (s.monitor m).qty = false → exec (.monitorSample m n) s = .next s)
    ∧ (samplesQty m (s.monitor m).qty = true → exec (.monitorSample m n) s = .next (s.modMonitor m (Monitor.sample (s.levelOf m n)))) := by
  have steps : exec (.monitorSample m n) s = execMonitorSample m n s := rfl
  rw [steps]
  unfold execMonitorSample
  exact ⟨fun off => by rw [off]; rfl, fun on => by rw [on]; rfl⟩

/-- REGISTER_WRITE (R24). -/
theorem registerWrite_steps (s : State) (w : Writer) (a : Nat) (v : W64) (key : Nat) (hkey : key = if w.lodge then s.lodgeKey w.die else jobKey w.job) :
    (∀ s1 e, s.physWrite w key a (leBytes 8 v.toNat) = (s1, some e) →
      exec (.registerWrite w a v) s = .next (s1.postFault w.die w.agent w.slot w.job e.cause e.info w.lidx))
    ∧ (∀ s1, s.physWrite w key a (leBytes 8 v.toNat) = (s1, none) → exec (.registerWrite w a v) s = .next s1)
    ∧ (a + 8 ≤ hbmSize → s.hasKey key = true → ∃ t, exec (.registerWrite w a v) s = .next t
      ∧ t.mem.bytes a 8 = leBytes 8 v.toNat ∧ ∀ q, t.task? q = s.task? q) := by
  subst hkey
  have steps : exec (.registerWrite w a v) s = execRegisterWrite w a v s := rfl
  rw [steps]
  unfold execRegisterWrite
  refine ⟨fun s1 e refused => ?_, fun s1 made => ?_, fun inside known => ?_⟩
  · simp only [refused]
  · simp only [made]
  · have length : (leBytes 8 v.toNat).length = 8 := leBytes_length ..
    have made : s.physWrite w (if w.lodge then s.lodgeKey w.die else jobKey w.job) a (leBytes 8 v.toNat)
        = (s.storeHbm a (if w.lodge then s.lodgeKey w.die else jobKey w.job) (leBytes 8 v.toNat), none) := by
      unfold State.physWrite
      rw [if_pos (by rw [length]; exact inside), if_pos known]
    refine ⟨s.storeHbm a (if w.lodge then s.lodgeKey w.die else jobKey w.job) (leBytes 8 v.toNat), by simp only [made], ?_, (worked_storeHbm ..).task?⟩
    have stored := bytes_storeHbm s (o := a) (d := leBytes 8 v.toNat) known
    rwa [length] at stored

/-- Settles O58: what lodges wait for completes, gang switches stop, mark and close (R372, R373), and register writes and monitors
act on their own registers. -/
theorem lodgeCompletionsAndGangSteps : Obligations.LodgeCompletionsAndGangSteps := by
  unfold Obligations.LodgeCompletionsAndGangSteps
  refine ⟨fun d s => ⟨fun idle i listed => ?_, fun rest => ⟨fun a b c => tlbinvAck_acks, fun a b => genbumpDone_bumps, fun a b v => l2wbDone_ends,
      fun v => domsetDone_takes, fun g a b holds => ⟨fun none => ?_, fun s1 st n run => ?_, nploadDone_clears holds⟩⟩⟩,
    fun s => ⟨fun none => ?_, fun n r rest queue => ⟨attestServe_waits queue, fun later => ⟨fun l g a b holds => ?_, fun l g v b holds => ⟨?_,
      attestServe_clears queue later holds⟩⟩⟩⟩,
    fun s b => ⟨gswCommand_idle, gswCommand_begins⟩,
    fun s => ⟨gangStop_none, fun g runs => ⟨gangStop_running runs, gangStop_stopped runs, gangMarker_marks runs⟩⟩,
    lateCell_counts, fun s d v => ⟨⟨_, rfl, ?_⟩, ghcfgLock_writes d v s⟩,
    fun s m v n => ⟨⟨_, rfl, stands_of rfl rfl, monitor_modMonitor ..⟩, (monitorSample_steps m n s).1, fun on => ⟨_, (monitorSample_steps m n s).2 on,
      stands_of rfl rfl, ?_⟩⟩,
    fun s w a v => ⟨(registerWrite_steps s w a v _ rfl).1, (registerWrite_steps s w a v _ rfl).2.1, fun _ => (registerWrite_steps s w a v _ rfl).2.2⟩⟩
  · have head : s.headHold (lodgeTask d) = none := by rw [State.headHold, idle]; rfl
    simp only [List.mem_cons, List.not_mem_nil, or_false] at listed
    rcases listed with rfl | rfl | rfl | rfl | rfl
    · show execTlbinvAck d s = _
      unfold execTlbinvAck
      rw [head]
    · show execGenbumpDone d s = _
      unfold execGenbumpDone
      rw [head]
    · show execL2wbDone d s = _
      unfold execL2wbDone
      rw [head]
    · show execDomsetDone d s = _
      unfold execDomsetDone
      rw [head]
    · show execNploadDone d s = _
      unfold execNploadDone
      rw [head]
  · rw [nploadDone_steps holds, none]
  · rw [nploadDone_steps holds, run]
  · show execAttestServe s = _
    unfold execAttestServe
    rw [none]
  · rw [attestServe_attests queue later holds]
    rfl
  · rw [attestServe_keys queue later holds]
    rfl
  · obtain ⟨mem, -, ends, others⟩ := killAll_kills (targetTasks d v) s
    exact ⟨mem, ends, others⟩
  · rw [monitor_modMonitor]
    exact ⟨rfl, rfl, rfl, rfl⟩

end Sys2Proof

namespace Sys2Proof

open Machine

/-! ### Host messages (R393 to R396) -/

/-- The port with some cells at the head of those that wait consumed. -/
def portLeft (s : State) (n : Nat) : HostPort := { s.host with inbox := s.host.inbox.drop n }

/-- The cell of a reply to the message at the head. -/
def hostCell (s : State) (kind status : Nat) (b : List Byte) : Cell :=
  routedCell 10 s.hostRoute 0 (padTo 128 (leBytes 1 (kind + 0x80) ++ leBytes 1 status ++ [0, 0] ++ leBytes 4 s.messageSeq ++ b))

/-- A message of some cells is served: it answers, and no task and no byte changes. -/
def Answers (s : State) (i : Instr) (n kind status : Nat) (b : List Byte) : Prop :=
  ∃ t, exec i s = .next t ∧ TasksAndMemoryStand s t ∧ t.host = HostPort.sendCell (hostCell s kind status b) (portLeft s n)

/-- What keeps the host port and the module's number. -/
structure AtPort (s u : State) (n : Nat) : Prop where
  host : u.host = portLeft s n
  module : u.module = s.module

theorem atPort_consumed (s : State) (n : Nat) : AtPort s (s.consumed n) n := ⟨rfl, rfl⟩

theorem AtPort.of_same {s u v : State} {n : Nat} (h : AtPort s u n) (host : v.host = u.host) (module : v.module = u.module) : AtPort s v n :=
  ⟨host.trans h.host, module.trans h.module⟩

theorem AtPort.of_worked {s u v : State} {n : Nat} (h : AtPort s u n) (worked : Worked u v) : AtPort s v n :=
  h.of_same (congrArg State.host worked.rest :) (congrArg State.module worked.rest :)

theorem AtPort.reply {s u : State} {n : Nat} (h : AtPort s u n) (kind status : Nat) (b : List Byte) :
    (u.reply kind status s.messageSeq b).host = HostPort.sendCell (hostCell s kind status b) (portLeft s n) := by
  show HostPort.sendCell (routedCell 10 u.hostRoute 0 _) u.host = _
  rw [h.host, State.hostRoute, h.module]
  rfl

theorem answers_of {s u : State} {i : Instr} {n kind status : Nat} {b : List Byte} (steps : exec i s = .next (u.reply kind status s.messageSeq b))
    (port : AtPort s u n) (stands : TasksAndMemoryStand s u) : Answers s i n kind status b :=
  ⟨_, steps, ⟨stands.1, stands.2⟩, port.reply kind status b⟩

/-- An answer from the message's cells alone. -/
theorem answers_consumed {s : State} {i : Instr} {n kind status : Nat} {b : List Byte}
    (steps : exec i s = .next ((s.consumed n).reply kind status s.messageSeq b)) : Answers s i n kind status b :=
  answers_of steps (atPort_consumed s n) (stands_of rfl rfl)

theorem serveOr_idle {s : State} {mine : Bool} {cells : Nat} (f : Nat → State → Option State)
    (idle : s.fatal.isSome = true ∨ mine = false ∨ s.host.inbox.length < cells) : s.serveOr mine cells f = .next s := by
  refine congrArg Host.Outcome.next (if_pos ?_)
  rcases idle with fatal | other | short
  · simp [fatal]
  · simp [other]
  · simp [short]

theorem serveOr_serves {s : State} {mine : Bool} {cells : Nat} (f : Nat → State → Option State) (going : s.fatal = none) (own : mine = true)
    (there : cells ≤ s.host.inbox.length) : s.serveOr mine cells f = .next ((f s.messageSeq (s.consumed cells)).getD s) := by
  refine congrArg Host.Outcome.next (if_neg ?_)
  simp [going, own, Nat.not_lt.mpr there]

/-- HOST_FRAME (R394). -/
theorem hostFrame_steps (f : HostFrame) (s : State) :
    (s.frameOk f = true → exec (.hostFrame f) s = .next { s with host :=
      { s.portAfter f with rxSeq := f.seq, inbox := (s.portAfter f).inbox ++ f.cells.map fun c => (f.seq, c) } })
    ∧ (s.frameOk f = false → exec (.hostFrame f) s = .next { s with host := { s.portAfter f with drops := (s.portAfter f).drops + 1 } }) := by
  have steps : exec (.hostFrame f) s = execHostFrame f s := rfl
  rw [steps]
  unfold execHostFrame
  exact ⟨fun ok => by rw [ok]; rfl, fun bad => by rw [bad]; rfl⟩

/-- A message that does not stand at the head with all its cells, or comes after a fatal stop, does nothing. -/
theorem messages_idle (s : State) (m blob req data : List (BitVec 8)) (l : LoadMsg) (job va size : Nat) (w : W64) :
    (∀ x ∈ ([(.hostLoad l, 2, 1), (.hostWrite job va data, 3, 1), (.hostRead job va size, 4, 1),
        (.hostKey job blob, 5, 8), (.hostAttest req, 6, 1), (.hostJobEnd job, 7, 1), (.hostGrotto, 8, 1), (.hostConfig w, 9, 1)] : List (Instr × Nat × Nat)),
      (s.fatal.isSome = true ∨ s.host.headKind ≠ some x.2.1 ∨ s.host.inbox.length < x.2.2) → exec x.1 s = .next s)
    ∧ ((s.fatal.isSome = true ∨ s.host.headIs m = false) → exec (.hostLaunch m) s = .next s) := by
  refine ⟨fun x listed idle => ?_, fun idle => ?launch⟩
  case launch =>
    show execHostLaunch m s = _
    unfold execHostLaunch
    exact serveOr_idle _ (idle.imp_right .inl)
  have idle : s.fatal.isSome = true ∨ decide (s.host.headKind = some x.2.1) = false ∨ s.host.inbox.length < x.2.2 :=
    idle.imp_right (Or.imp_left fun other => decide_eq_false other)
  simp only [List.mem_cons, List.not_mem_nil, or_false] at listed
  rcases listed with rfl | rfl | rfl | rfl | rfl | rfl | rfl | rfl
  · show execHostLoad l s = _
    unfold execHostLoad
    exact serveOr_idle _ idle
  · show execHostWrite job va data s = _
    unfold execHostWrite
    exact serveOr_idle _ idle
  · show execHostRead job va size s = _
    unfold execHostRead
    exact serveOr_idle _ idle
  · show execHostKey job blob s = _
    unfold execHostKey
    exact serveOr_idle _ idle
  · show execHostAttest req s = _
    unfold execHostAttest
    exact serveOr_idle _ idle
  · show execHostJobEnd job s = _
    unfold execHostJobEnd
    exact serveOr_idle _ idle
  · show execHostGrotto s = _
    unfold execHostGrotto
    exact serveOr_idle _ idle
  · show execHostConfig w s = _
    unfold execHostConfig
    exact serveOr_idle _ idle

section

variable {s : State} (going : s.fatal = none) (live : s.host.dump = none)
include going

/-! #### LAUNCH (R396) -/

include live in
/-- A launch message judged (Table 20.10). -/
theorem hostLaunch_steps {m : List (BitVec 8)} (head : s.host.headIs m = true) : exec (.hostLaunch m) s = .next (
    match (s.consumed 1).launchJudge s.messageSeq m with
    | .error st => (s.consumed 1).respond (bytesAt m 0 1) s.messageSeq st
    | .ok l =>
      if !(s.consumed 1).holdable l then ((s.consumed 1).refuseCapacity l).respond (bytesAt m 0 1) s.messageSeq 2
      else { s.consumed 1 with launches := s.launches ++ [l] }.reply (bytesAt m 0 1) 0 s.messageSeq (leBytes 8 l.id.toNat)) := by
  have there : 1 ≤ s.host.inbox.length := by
    unfold HostPort.headIs at head
    split at head
    · next inbox =>
      rw [inbox]
      exact Nat.succ_le_succ (Nat.zero_le _)
    · cases head
  have kept : (s.consumed 1).endDump = s.consumed 1 := if_pos (by show s.host.dump.isNone = true; rw [live]; rfl)
  show execHostLaunch m s = _
  unfold execHostLaunch
  rw [serveOr_serves _ going head there]
  simp only [kept, ite_self, Option.getD_some] <;> rfl

include live in
theorem hostLaunch_cases {m : List (BitVec 8)} (head : s.host.headIs m = true) : let kind := bytesAt m 0 1
    let job := bytesAt m 2 2
    (kind ≠ 1 ∨ m.length ≠ 128 ∨ launchOk m = false → Answers s (.hostLaunch m) 1 kind 1 [])
    ∧ (kind = 1 → m.length = 128 → launchOk m = true →
      (job ≠ s.jobid.toNat ∨ s.jobid = 0 → Answers s (.hostLaunch m) 1 1 3 [])
      ∧ (job = s.jobid.toNat → s.jobid ≠ 0 → (s.kernelOf job (bytesAt m 4 4) = none → Answers s (.hostLaunch m) 1 1 2 [])
        ∧ ∀ k, s.kernelOf job (bytesAt m 4 4) = some k →
          let y := launchOf s.launches.length k m none (some s.messageSeq)
          (s.holdable y = false → Answers s (.hostLaunch m) 1 1 2 [])
          ∧ (s.holdable y = true → ∃ t, exec (.hostLaunch m) s = .next t ∧ TasksAndMemoryStand s t
            ∧ t.launches = s.launches ++ [y] ∧ t.host = HostPort.sendCell (hostCell s 1 0 (leBytes 8 y.id.toNat)) (portLeft s 1)))) := by
  intro kind job
  have steps := hostLaunch_steps going live head
  refine ⟨fun bad => ?_, fun is1 length ok => ⟨fun other => ?_, fun own active => ⟨fun absent => ?_, fun k found => ⟨fun full => ?_, fun room => ?_⟩⟩⟩⟩
  · have judged : (s.consumed 1).launchJudge s.messageSeq m = .error 1 := if_pos bad
    rw [judged] at steps
    exact answers_consumed steps
  all_goals
    have fine : ¬(bytesAt m 0 1 ≠ 1 ∨ m.length ≠ 128 ∨ launchOk m = false) := by
      rintro (h | h | h)
      · exact h is1
      · exact h length
      · rw [ok] at h
        cases h
    have judge : (s.consumed 1).launchJudge s.messageSeq m = if bytesAt m 2 2 ≠ s.jobid.toNat ∨ s.jobid = 0 then .error 3
        else match s.kernelOf (bytesAt m 2 2) (bytesAt m 4 4) with
          | none => .error 2
          | some k => .ok (launchOf s.launches.length k m none (some s.messageSeq)) := (if_neg fine).trans rfl
    rw [judge, show bytesAt m 0 1 = 1 from is1] at steps
  · rw [if_pos other] at steps
    exact answers_consumed steps
  all_goals rw [if_neg (not_or.mpr ⟨not_not.mpr own, active⟩)] at steps
  · rw [show s.kernelOf (bytesAt m 2 2) (bytesAt m 4 4) = none from absent] at steps
    exact answers_consumed steps
  · rw [show s.kernelOf (bytesAt m 2 2) (bytesAt m 4 4) = some k from found] at steps
    dsimp only at steps
    rw [show (s.consumed 1).holdable (launchOf s.launches.length k m none (some s.messageSeq)) = false from full] at steps
    have posted : Worked (s.consumed 1) ((s.consumed 1).refuseCapacity (launchOf s.launches.length k m none (some s.messageSeq))) := worked_postFault ..
    have mem := (records_postFault (s.consumed 1) ((launchOf s.launches.length k m none (some s.messageSeq)).dies.headD 0) 96 0
      (launchOf s.launches.length k m none (some s.messageSeq)).job 0x0D 0 noLidx).mem
    exact answers_of steps ((atPort_consumed s 1).of_worked posted) ⟨posted.task?, mem⟩
  · rw [show s.kernelOf (bytesAt m 2 2) (bytesAt m 4 4) = some k from found] at steps
    dsimp only at steps
    rw [show (s.consumed 1).holdable (launchOf s.launches.length k m none (some s.messageSeq)) = true from room] at steps
    exact ⟨_, steps, stands_of rfl rfl, rfl, rfl⟩

end

end Sys2Proof

namespace Sys2Proof

open Machine

/-! ### LOAD, WRITE and READ (R395, R402, R407) -/

theorem serve_serves {s : State} {kind cells : Nat} (f : Nat → State → State) (going : s.fatal = none) (head : s.host.headKind = some kind)
    (there : cells ≤ s.host.inbox.length) : s.serve kind cells f = .next (f s.messageSeq (s.consumed cells)) := by
  unfold State.serve
  rw [serveOr_serves _ going (decide_eq_true head) there]
  rfl

/-- Replies sent one after another. -/
theorem replies_fold {α : Type} (kind status seq : Nat) (b : α → List Byte) (l : List α) (u : State) :
    (l.foldl (fun s x => s.reply kind status seq (b x)) u).host = l.foldl (fun h x => HostPort.sendCell (routedCell 10 u.hostRoute 0
      (padTo 128 (leBytes 1 (kind + 0x80) ++ leBytes 1 status ++ [0, 0] ++ leBytes 4 seq ++ b x))) h) u.host
    ∧ { l.foldl (fun s x => s.reply kind status seq (b x)) u with host := u.host } = u := by
  induction l generalizing u with
  | nil => exact ⟨rfl, rfl⟩
  | cons x l ih =>
    obtain ⟨host, rest⟩ := ih (u.reply kind status seq (b x))
    exact ⟨host, congrArg (fun t : State => { t with host := u.host }) rest⟩

theorem worked_writeJob (s : State) (job va : Nat) (b : List Byte) : Worked s (s.writeJob job va b) := by
  unfold State.writeJob
  refine .foldl _ (fun t x => ?_) s _
  split
  · exact .refl t
  · exact worked_storeHbm ..

section

variable {s : State} (going : s.fatal = none)
include going

section

variable {l : LoadMsg} (head : s.host.headKind = some 2) (there : 1 ≤ s.host.inbox.length)
include head there

theorem hostLoad_steps : exec (.hostLoad l) s = .next (
    if 2 ^ 12 ≤ l.job ∨ l.job = 0 ∨ 2 ^ 56 < l.va + l.len then (s.consumed 1).respond 2 s.messageSeq 1
    else if !s.jobAdmitted l.job then (s.consumed 1).respond 2 s.messageSeq 3
    else match (s.consumed 1).loadImage l with
      | none => (s.consumed 1).respond 2 s.messageSeq 2
      | some (s2, ks) =>
        if ks = [] then (if s2.jobid = 0 then { s2 with jobid := BitVec.ofNat 12 l.job } else s2).respond 2 s.messageSeq 0
        else ks.foldl (fun s' k => s'.reply 2 0 s.messageSeq (leBytes 8 k.promise.toNat))
          (if s2.jobid = 0 then { s2 with jobid := BitVec.ofNat 12 l.job } else s2)) := by
  show execHostLoad l s = _
  unfold execHostLoad
  exact (serve_serves _ going head there).trans rfl

/-- LOAD (R402). -/
theorem hostLoad_cases : (2 ^ 12 ≤ l.job ∨ l.job = 0 ∨ 2 ^ 56 < l.va + l.len → Answers s (.hostLoad l) 1 2 1 [])
    ∧ (l.job < 2 ^ 12 → l.job ≠ 0 → l.va + l.len ≤ 2 ^ 56 → (s.jobAdmitted l.job = false → Answers s (.hostLoad l) 1 2 3 [])
      ∧ (s.jobAdmitted l.job = true → ((s.consumed 1).loadImage l = none → Answers s (.hostLoad l) 1 2 2 [])
        ∧ ∀ s2 k ks, (s.consumed 1).loadImage l = some (s2, k :: ks) → ∃ t, exec (.hostLoad l) s = .next t ∧ t.mem = s2.mem
          ∧ t.images = s2.images ∧ t.jobid = (if s2.jobid = 0 then BitVec.ofNat 12 l.job else s2.jobid)
          ∧ t.host = (k :: ks).foldl (fun h x => HostPort.sendCell (routedCell 10 s2.hostRoute 0 (padTo 128
            (leBytes 1 0x82 ++ leBytes 1 0 ++ [0, 0] ++ leBytes 4 s.messageSeq ++ leBytes 8 x.promise.toNat))) h) s2.host)) := by
  have steps := hostLoad_steps (l := l) going head there
  refine ⟨fun bad => ?_, fun small real inside => ?_⟩
  · rw [if_pos bad] at steps
    exact answers_consumed steps
  · rw [if_neg (by omega)] at steps
    refine ⟨fun refused => ?_, fun admitted => ⟨fun unloaded => ?_, fun s2 k ks loaded => ?_⟩⟩
    · rw [refused] at steps
      exact answers_consumed steps
    · rw [admitted, unloaded] at steps
      exact answers_consumed steps
    · rw [admitted, loaded] at steps
      dsimp only at steps
      rw [if_neg (by simp), if_neg (List.cons_ne_nil k ks)] at steps
      have same : ∀ u : State, u = (if s2.jobid = 0 then { s2 with jobid := BitVec.ofNat 12 l.job } else s2) → u.mem = s2.mem ∧ u.images = s2.images
          ∧ u.jobid = (if s2.jobid = 0 then BitVec.ofNat 12 l.job else s2.jobid) ∧ u.host = s2.host ∧ u.hostRoute = s2.hostRoute := by
        intro u hu
        rw [hu]
        split <;> exact ⟨rfl, rfl, rfl, rfl, rfl⟩
      obtain ⟨mem, images, jobid, host, route⟩ := same _ rfl
      generalize (if s2.jobid = 0 then { s2 with jobid := BitVec.ofNat 12 l.job } else s2) = u at steps mem images jobid host route
      obtain ⟨sent, rest⟩ := replies_fold 2 0 s.messageSeq (fun k : Kernel => leBytes 8 k.promise.toNat) (k :: ks) u
      refine ⟨_, steps, Eq.trans (congrArg State.mem rest :) mem, Eq.trans (congrArg State.images rest :) images,
        Eq.trans (congrArg State.jobid rest :) jobid, ?_⟩
      rw [host, route] at sent
      exact sent

end

/-- WRITE (R407). -/
theorem hostWrite_cases (job va : Nat) (data : List (BitVec 8)) (head : s.host.headKind = some 3) (there : 1 ≤ s.host.inbox.length) :
    (2 ^ 12 ≤ job ∨ 2 ^ 56 ≤ va ∨ 96 < data.length → Answers s (.hostWrite job va data) 1 3 1 [])
    ∧ (job < 2 ^ 12 → va < 2 ^ 56 → data.length ≤ 96 → (s.jobAdmitted job = false → Answers s (.hostWrite job va data) 1 3 3 [])
      ∧ (s.jobAdmitted job = true → (Config.gcmOpen (s.transferKey job) [] data [] = none → Answers s (.hostWrite job va data) 1 3 2 [])
        ∧ ∀ b, Config.gcmOpen (s.transferKey job) [] data [] = some b →
          (s.mapped job va b.length (fun w => w) = false → Answers s (.hostWrite job va data) 1 3 2 [])
          ∧ (s.mapped job va b.length (fun w => w) = true → ∃ t, exec (.hostWrite job va data) s = .next t
            ∧ t.mem = ((s.consumed 1).writeJob job va b).mem ∧ t.host = HostPort.sendCell (hostCell s 3 0 []) (portLeft s 1)))) := by
  have steps : exec (.hostWrite job va data) s = .next (
      if 2 ^ 12 ≤ job ∨ 2 ^ 56 ≤ va ∨ 96 < data.length then (s.consumed 1).respond 3 s.messageSeq 1
      else if !s.jobAdmitted job then (s.consumed 1).respond 3 s.messageSeq 3
      else match Config.gcmOpen (s.transferKey job) [] data [] with
        | none => (s.consumed 1).respond 3 s.messageSeq 2
        | some b =>
          if s.mapped job va b.length (fun w => w) then ((s.consumed 1).writeJob job va b).respond 3 s.messageSeq 0
          else (s.consumed 1).respond 3 s.messageSeq 2) := by
    show execHostWrite job va data s = _
    unfold execHostWrite
    exact (serve_serves _ going head there).trans rfl
  refine ⟨fun bad => ?_, fun small low short => ?_⟩
  · rw [if_pos bad] at steps
    exact answers_consumed steps
  · rw [if_neg (by omega)] at steps
    refine ⟨fun refused => ?_, fun admitted => ⟨fun sealed => ?_, fun b opens => ⟨fun unmapped => ?_, fun mapped => ?_⟩⟩⟩
    · rw [refused] at steps
      exact answers_consumed steps
    · rw [admitted, sealed] at steps
      exact answers_consumed steps
    · rw [admitted, opens] at steps
      dsimp only at steps
      rw [unmapped] at steps
      exact answers_consumed steps
    · rw [admitted, opens] at steps
      dsimp only at steps
      rw [mapped] at steps
      exact ⟨_, steps, rfl, ((atPort_consumed s 1).of_worked (worked_writeJob ..)).reply 3 0 []⟩

/-- READ (R407). -/
theorem hostRead_cases (job va size : Nat) (head : s.host.headKind = some 4) (there : 1 ≤ s.host.inbox.length) :
    (2 ^ 12 ≤ job ∨ 2 ^ 56 ≤ va ∨ 96 < size → Answers s (.hostRead job va size) 1 4 1 [])
    ∧ (job < 2 ^ 12 → va < 2 ^ 56 → size ≤ 96 → (s.jobAdmitted job = false → Answers s (.hostRead job va size) 1 4 3 [])
      ∧ (s.jobAdmitted job = true → (s.readJob job va size = none → Answers s (.hostRead job va size) 1 4 2 [])
        ∧ ∀ b, s.readJob job va size = some b → Answers s (.hostRead job va size) 1 4 0
          (List.replicate 24 0 ++ exactly 96 (Config.gcmSeal (s.transferKey job) b)))) := by
  have steps : exec (.hostRead job va size) s = .next (
      if 2 ^ 12 ≤ job ∨ 2 ^ 56 ≤ va ∨ 96 < size then (s.consumed 1).respond 4 s.messageSeq 1
      else if !s.jobAdmitted job then (s.consumed 1).respond 4 s.messageSeq 3
      else match s.readJob job va size with
        | none => (s.consumed 1).respond 4 s.messageSeq 2
        | some b => (s.consumed 1).reply 4 0 s.messageSeq (List.replicate 24 0 ++ exactly 96 (Config.gcmSeal (s.transferKey job) b))) := by
    show execHostRead job va size s = _
    unfold execHostRead
    exact (serve_serves _ going head there).trans rfl
  refine ⟨fun bad => ?_, fun small low short => ?_⟩
  · rw [if_pos bad] at steps
    exact answers_consumed steps
  · rw [if_neg (by omega)] at steps
    refine ⟨fun refused => ?_, fun admitted => ⟨fun unread => ?_, fun b read => ?_⟩⟩
    · rw [refused] at steps
      exact answers_consumed steps
    · rw [admitted, unread] at steps
      exact answers_consumed steps
    · rw [admitted, read] at steps
      exact answers_consumed steps

end

end Sys2Proof

namespace Sys2Proof

open Machine

/-! ### KEY, ATTEST, GROTTO and CONFIG (R404, R407, R409, R414) -/

section

variable {s : State} (going : s.fatal = none)
include going

/-- KEY (R407). -/
theorem hostKey_cases (live : s.host.dump = none) (job : Nat) (blob : List (BitVec 8)) (head : s.host.headKind = some 5) (there : 8 ≤ s.host.inbox.length) :
    (2 ^ 12 ≤ job → Answers s (.hostKey job blob) 8 5 1 [])
    ∧ (job < 2 ^ 12 → s.attest.queue = [] → (s.attest.held = none → Answers s (.hostKey job blob) 8 5 2 (leBytes 8 1))
      ∧ ∀ k m, s.attest.held = some k → openBlob k job (padTo 2048 blob) = some m → s.keyEntry? job = none →
        s.keys.length < 64 → ∃ t, exec (.hostKey job blob) s = .next t ∧ TasksAndMemoryStand s t
          ∧ t.host = HostPort.sendCell (hostCell s 5 0 (leBytes 8 0)) (portLeft s 8) ∧ t.attest.held = none
          ∧ t.keys = s.keys ++ [⟨job, m, exactly 32 (Config.shake256 (padTo 2048 blob))⟩]) := by
  have kept : (s.consumed 8).endDump = s.consumed 8 := if_pos (by show s.host.dump.isNone = true; rw [live]; rfl)
  have steps : exec (.hostKey job blob) s = .next ((if 2 ^ 12 ≤ job then some ((s.consumed 8).respond 5 s.messageSeq 1)
      else (s.consumed 8).serveUnitAll.map fun u => (u.installKey job (padTo 2048 blob)).1.reply 5
        (if (u.installKey job (padTo 2048 blob)).2 = 0 then 0 else 2) s.messageSeq (leBytes 8 (u.installKey job (padTo 2048 blob)).2)).getD s) := by
    show execHostKey job blob s = _
    unfold execHostKey
    rw [serveOr_serves _ going (decide_eq_true head) there]
    simp only [kept]
  refine ⟨fun large => ?_, fun small queue => ?_⟩
  · rw [if_pos large] at steps
    exact answers_consumed steps
  · have served : (s.consumed 8).serveUnitAll = some (s.consumed 8) := by
      unfold State.serveUnitAll
      have length : (s.consumed 8).attest.queue = [] := queue
      simp only [length, List.length_nil, List.range_zero, List.foldl_nil, if_true]
    rw [if_neg (Nat.not_le.mpr small), served] at steps
    refine ⟨fun held => ?_, fun k m held opens fresh room => ?_⟩
    · have installs : (s.consumed 8).installKey job (padTo 2048 blob) = (s.consumed 8, 1) := by
        unfold State.installKey
        rw [show (s.consumed 8).attest.held = none from held]
      rw [Option.map_some, installs] at steps
      exact answers_consumed steps
    · have installs : (s.consumed 8).installKey job (padTo 2048 blob) = ({ s.consumed 8 with
          keys := s.keys ++ [⟨job, m, exactly 32 (Config.shake256 (padTo 2048 blob))⟩], attest := { s.attest with held := none } }, 0) := by
        unfold State.installKey
        rw [show (s.consumed 8).attest.held = some k from held]
        dsimp only
        rw [opens]
        dsimp only
        rw [show (s.consumed 8).keyEntry? job = none from fresh]
        refine (if_neg (by simp)).trans ((if_neg ?_).trans rfl)
        exact Nat.not_le.mpr room
      rw [Option.map_some, installs] at steps
      exact ⟨_, steps, stands_of rfl rfl, rfl, rfl, rfl⟩

/-- ATTEST of a record (R403, R404). -/
theorem hostAttest_cases (req : List (BitVec 8)) (head : s.host.headKind = some 6) (there : 1 ≤ s.host.inbox.length) :
    (req.length ≠ 64 ∨ requestOk req = false → Answers s (.hostAttest req) 1 6 1 [])
    ∧ (req.length = 64 → requestOk req = true → bytesAt req 0 1 ≠ 1 → bytesAt req 2 2 = 0 → s.attest.queue = [] →
      (s.attest.nextIdx = 2 ^ 40 → Answers s (.hostAttest req) 1 6 2 (leBytes 8 1))
      ∧ (s.attest.nextIdx ≠ 2 ^ 40 → let x := (s.consumed 1).signRequest req
        ∃ t, exec (.hostAttest req) s = .next t ∧ TasksAndMemoryStand s t ∧ t.attest.nextIdx = s.attest.nextIdx + 1
        ∧ t.host = ((x.1.tookFree recordArea).replyCells 6 s.messageSeq (x.1.areaBytes x.2.2)).host)) := by
  have steps : exec (.hostAttest req) s = .next ((if req.length ≠ 64 ∨ requestOk req = false then some ((s.consumed 1).respond 6 s.messageSeq 1)
      else (s.consumed 1).serveUnitAll.bind fun u =>
        if bytesAt req 0 1 = 1 then u.extendAsked s.messageSeq req
        else if (u.signRequest req).2.1 ≠ 0 then some ((u.signRequest req).1.reply 6 (if (u.signRequest req).2.1 = 2 then 3 else 2) s.messageSeq
          (leBytes 8 (u.signRequest req).2.1))
        else some (((u.signRequest req).1.tookFree recordArea).replyCells 6 s.messageSeq ((u.signRequest req).1.areaBytes (u.signRequest req).2.2))).getD s) := by
    show execHostAttest req s = _
    unfold execHostAttest
    exact (serveOr_serves _ going (decide_eq_true head) there).trans rfl
  refine ⟨fun bad => ?_, fun length ok signs job queue => ?_⟩
  · rw [if_pos bad] at steps
    exact answers_consumed steps
  · have served : (s.consumed 1).serveUnitAll = some (s.consumed 1) := by
      unfold State.serveUnitAll
      have length : (s.consumed 1).attest.queue = [] := queue
      simp only [length, List.length_nil, List.range_zero, List.foldl_nil, if_true]
    rw [if_neg (by rw [ok]; simp [length]), served, Option.bind_some, if_neg signs] at steps
    have asked : ¬(requestOk req = false ∨ (bytesAt req 2 2 ≠ 0 ∧ ((s.consumed 1).keyEntry? (bytesAt req 2 2)).isNone = true)) := by
      rintro (bad | ⟨other, -⟩)
      · rw [ok] at bad
        cases bad
      · exact other job
    refine ⟨fun spent => ?_, fun left => ?_⟩
    · have refuses : (s.consumed 1).signRequest req = (s.consumed 1, 1, []) := (if_neg asked).trans (if_pos spent)
      rw [refuses] at steps
      exact answers_consumed steps
    · have signed : ((s.consumed 1).signRequest req).2.1 = 0 ∧ ((s.consumed 1).signRequest req).1.attest.nextIdx = s.attest.nextIdx + 1
          ∧ ((s.consumed 1).signRequest req).1.cores = s.cores ∧ ((s.consumed 1).signRequest req).1.mem = s.mem := by
        unfold State.signRequest
        dsimp only
        rw [if_neg asked, if_neg (show ¬(s.consumed 1).attest.nextIdx = 2 ^ 40 from left)]
        exact ⟨rfl, rfl, rfl, rfl⟩
      intro x
      obtain ⟨status, index, cores, mem⟩ := signed
      rw [status, if_neg (by simp)] at steps
      obtain ⟨-, rest⟩ := replies_fold 6 0 s.messageSeq (fun c : List Byte => c) (chunks 120 (x.1.areaBytes x.2.2).length (x.1.areaBytes x.2.2))
        (x.1.tookFree recordArea)
      have same : { (x.1.tookFree recordArea).replyCells 6 s.messageSeq (x.1.areaBytes x.2.2) with host := (x.1.tookFree recordArea).host }
          = x.1.tookFree recordArea := rest
      exact ⟨_, steps, stands_of (Eq.trans (congrArg State.cores same :) cores) (Eq.trans (congrArg State.mem same :) mem),
        Eq.trans (congrArg (fun u : State => u.attest.nextIdx) same :) index, rfl⟩

/-- GROTTO (R414). -/
theorem hostGrotto_cases (live : s.host.dump = none) (head : s.host.headKind = some 8) (there : 1 ≤ s.host.inbox.length) :
    Answers s .hostGrotto 1 8 4 [] ∧ ∀ n, n < hbmSize - grottoBase →
      let s2 := { s with host := { s.host with dump := some n } }
      let m := min 120 (hbmSize - grottoBase - n)
      ∃ t, exec .hostGrotto s2 = .next t ∧ TasksAndMemoryStand s2 t
        ∧ t.host = HostPort.sendCell (hostCell s 8 0 (s.mem.bytes (grottoBase + n) m)) { portLeft s 1 with dump := some (n + m) } := by
  refine ⟨?_, fun n inside => ?_⟩
  · have steps : exec .hostGrotto s = .next ((s.consumed 1).respond 8 s.messageSeq 4) := by
      show execHostGrotto s = _
      unfold execHostGrotto
      rw [serve_serves _ going head there]
      simp only [show (s.consumed 1).host.dump = none from live]
    exact answers_consumed steps
  · intro s2 m
    have positive : m ≠ 0 := by
      show min 120 (hbmSize - grottoBase - n) ≠ 0
      omega
    refine ⟨{ s2.consumed 1 with host := { (s2.consumed 1).host with dump := some (n + m) } }.reply 8 0 s.messageSeq (s.mem.bytes (grottoBase + n) m), ?_,
      stands_of rfl rfl, rfl⟩
    show execHostGrotto s2 = _
    unfold execHostGrotto
    rw [serve_serves (s := s2) _ going head there]
    exact congrArg Host.Outcome.next (if_neg positive)

/-- CONFIG (R409). -/
theorem hostConfig_cases (w : W64) (head : s.host.headKind = some 9) (there : 1 ≤ s.host.inbox.length) :
    (s.jobid ≠ 0 → Answers s (.hostConfig w) 1 9 4 [])
    ∧ (s.jobid = 0 → ∃ t, exec (.hostConfig w) s = .next t ∧ TasksAndMemoryStand s t
      ∧ t.host = HostPort.sendCell (hostCell s 9 0 (leBytes 8 w.toNat)) (portLeft s 1) ∧ t.attest.rackWord = w) := by
  have steps : exec (.hostConfig w) s = .next (if s.jobid ≠ 0 then (s.consumed 1).respond 9 s.messageSeq 4
      else { s.consumed 1 with attest := { s.attest with rackWord := w } }.reply 9 0 s.messageSeq (leBytes 8 w.toNat)) := by
    show execHostConfig w s = _
    unfold execHostConfig
    exact (serve_serves _ going head there).trans rfl
  refine ⟨fun active => ?_, fun idle => ?_⟩
  · rw [if_pos active] at steps
    exact answers_consumed steps
  · rw [if_neg (not_not.mpr idle)] at steps
    exact ⟨_, steps, stands_of rfl rfl, rfl, rfl⟩

end

end Sys2Proof

namespace Sys2Proof

open Machine

/-! ### JOBEND (R395) -/

/-- The module beside its cores, dies, launches and requests. -/
def moduleRest (s : State) : State := { s with cores := [], dies := [], launches := [], sent := [] }

theorem rest_modCore (s : State) (c : CoreRef) (f : Core → Core) : moduleRest (s.modCore c f) = moduleRest s := rfl

theorem rest_modTask (s : State) (r : TaskRef) (f : Task → Task) : moduleRest (s.modTask r f) = moduleRest s := rfl

theorem rest_modLaunch (s : State) (n : Nat) (f : Launch → Launch) : moduleRest (s.modLaunch n f) = moduleRest s := rfl

theorem rest_dropLoads (s : State) (r : TaskRef) (tok : Option Nat) : moduleRest (s.dropLoads r tok) = moduleRest s := rfl

theorem rest_endToken (s : State) (r : TaskRef) (tok cause : Nat) (tc : W64) : moduleRest (s.endToken r tok cause tc) = moduleRest s := by
  unfold State.endToken
  dsimp only
  rw [rest_modCore, rest_modTask]

theorem rest_endCmd (s : State) (c : CoreRef) (tok cause : Nat) (tc : W64) : moduleRest (s.endCmd c tok cause tc) = moduleRest s := by
  cases there : (s.core c).cmd tok with
  | none =>
    unfold State.endCmd
    rw [there]
  | some x =>
    rw [endCmd_eq there, rest_endToken, rest_modCore]
    unfold releasesSource
    split
    · exact rest_modCore ..
    · exact rest_modCore ..
    · exact rest_modCore ..
    · rfl

theorem rest_killCmd (c : CoreRef) (slot : Nat) (s : State) (ptok : Nat) : moduleRest (State.killCmd c slot s ptok) = moduleRest s := by
  unfold State.killCmd
  split
  · rfl
  · split
    · rfl
    · split
      · exact rest_modCore ..
      · exact rest_endCmd ..

theorem rest_foldl {α : Type} (f : State → α → State) (each : ∀ s a, moduleRest (f s a) = moduleRest s) (l : List α) (s : State) :
    moduleRest (l.foldl f s) = moduleRest s := by
  induction l generalizing s with
  | nil => rfl
  | cons a l ih => exact (ih (f s a)).trans (each s a)

theorem rest_of_wakes {bars : List Nat} {s t : State} (h : Wakes bars { s with launches := [] } { t with launches := [] }) : moduleRest t = moduleRest s := by
  have same := congrArg (fun u : State => { u with sent := [] }) h.rest
  exact same

theorem rest_closeSet (u : State) (r : TaskRef) : moduleRest (u.closeSet r) = moduleRest u := by
  cases h : (u.task r).openSet with
  | none => rw [closeSet_none h]
  | some o => rw [closeSet_some h, rest_modTask, rest_modLaunch]

theorem rest_endTaskAt (u : State) (r : TaskRef) : moduleRest (u.endTaskAt r) = moduleRest u := by
  rw [rest_of_wakes (wakes_endTaskAt u r), released, rest_dropLoads, rest_modCore, rest_modTask, rest_closeSet]

theorem rest_killTask (s : State) (r : TaskRef) : moduleRest (s.killTask r) = moduleRest s := by
  unfold State.killTask
  split
  · rfl
  · dsimp only
    rw [rest_endTaskAt, rest_modCore, rest_foldl _ (rest_killCmd r.coreRef r.slot), rest_modLaunch]

/-- A job's task killed where it has not ended. -/
def killOf (job : Nat) (s : State) (r : TaskRef) : State :=
  if (s.task r).job = job ∧ isLodge r.core = false ∧ (s.task r).status ≠ .ending then s.killTask r else s

theorem rest_killOf (job : Nat) (s : State) (r : TaskRef) : moduleRest (killOf job s r) = moduleRest s := by
  unfold killOf
  split
  · exact rest_killTask s r
  · rfl

theorem killOf_kills (job : Nat) (s : State) (r : TaskRef) : killOf job s r = s ∨ Kills s (killOf job s r) r := by
  unfold killOf
  split
  · exact .inr (killTask_kills s r)
  · exact .inl rfl

/-- A resident task of a job, or one that has ended. -/
def Doomed (job : Nat) (s : State) (q : TaskRef) : Prop := (s.task? q).isSome = true ∧ ((s.task q).job = job ∨ (s.task q).status = .ending)

theorem killOf_dooms {job : Nat} {s : State} {q : TaskRef} (h : Doomed job s q) (r : TaskRef) : Doomed job (killOf job s r) q := by
  rcases killOf_kills job s r with same | kills
  · rw [same]
    exact h
  · by_cases here : CoreRef.key q.coreRef = CoreRef.key r.coreRef ∧ q.slot = r.slot
    · have key : ∀ u : State, u.task? q = u.task? r := fun u => by rw [State.task?, State.task?, core_congr u here.1, here.2]
      obtain ⟨there, over'⟩ := kills.ends (key s ▸ h.1)
      exact ⟨by rw [key]; exact there, .inr (by rw [task_same _ here.1 here.2]; exact over')⟩
    · rcases kills.others q (by rwa [not_and_or] at here) with stands | ⟨x, n, p, v, held, waits, woken⟩
      · unfold Doomed State.task
        rw [stands]
        exact h
      · refine ⟨by rw [woken]; rfl, .inl ?_⟩
        have task : s.task q = x := by rw [State.task, held]; rfl
        have named : x.job = job := by
          rcases h.2 with own | over'
          · rwa [task] at own
          · rw [task, waits] at over'
            cases over'
        rw [State.task, woken]
        exact named

theorem killOf_ends {job : Nat} {s : State} {r : TaskRef} (h : Doomed job s r) (user : isLodge r.core = false) :
    ((killOf job s r).task r).status = .ending := by
  unfold killOf
  split
  · exact ((killTask_kills s r).ends h.1).2
  · next spared =>
    rcases h.2 with own | over'
    · exact by_contra fun alive => spared ⟨own, user, alive⟩
    · exact over'

theorem killOf_ended {job : Nat} {s : State} {q : TaskRef} (there : (s.task? q).isSome = true) (over' : (s.task q).status = .ending) (r : TaskRef) :
    ((killOf job s r).task? q).isSome = true ∧ ((killOf job s r).task q).status = .ending := by
  rcases killOf_kills job s r with same | kills
  · rw [same]
    exact ⟨there, over'⟩
  · exact kills.ended there over'

theorem killsOf_end (job : Nat) (l : List TaskRef) (s : State) :
    (∀ q, (s.task? q).isSome = true → (s.task q).status = .ending → ((l.foldl (killOf job) s).task q).status = .ending)
    ∧ ∀ r ∈ l, isLodge r.core = false → Doomed job s r → ((l.foldl (killOf job) s).task r).status = .ending := by
  induction l generalizing s with
  | nil => exact ⟨fun _ _ h => h, fun _ h => absurd h List.not_mem_nil⟩
  | cons k l ih =>
    obtain ⟨stay, ends⟩ := ih (killOf job s k)
    refine ⟨fun q there over' => ?_, fun r hr user doomed => ?_⟩
    · obtain ⟨there', over''⟩ := killOf_ended (job := job) there over' k
      exact stay q there' over''
    · rcases List.mem_cons.mp hr with rfl | tail
      · exact stay r (killOf_dooms doomed r).1 (killOf_ends doomed user)
      · exact ends r tail user (killOf_dooms doomed k)

theorem Tbl.mem_of_get {α : Type} {d v : α} : ∀ {t : Tbl α} {k : Nat}, t.get d k = v → v ≠ d → (k, v) ∈ t
  | [], k, get, ne => absurd get.symm ne
  | (j, w) :: t, k, get, ne => by
    rw [Tbl.get] at get
    split at get
    · next same => exact same ▸ get ▸ List.mem_cons_self
    · exact List.mem_cons_of_mem _ (Tbl.mem_of_get get ne)

/-- A task in a slot of a core is resident. -/
theorem resident_of {s : State} {r : TaskRef} {k : Task} (here : s.task? r = some k) (core : r.core < 128) : r ∈ s.residents := by
  have slot : (r.slot, some k) ∈ (s.core r.coreRef).tasks := Tbl.mem_of_get here (Option.some_ne_none k)
  have listed : r.coreRef ∈ s.coreRefs := by
    have used : s.core r.coreRef ≠ Core.reset := fun blank => by
      rw [blank] at slot
      exact absurd slot List.not_mem_nil
    refine List.mem_map.mpr ⟨_, Tbl.mem_of_get (d := Core.reset) (t := s.cores) (k := CoreRef.key r.coreRef) rfl used, ?_⟩
    have key : CoreRef.key r.coreRef = r.die * 128 + r.core := rfl
    dsimp only
    rw [key, show (r.die * 128 + r.core) / 128 = r.die by omega, show (r.die * 128 + r.core) % 128 = r.core by omega]
    rfl
  exact List.mem_flatMap.mpr ⟨r.coreRef, listed, List.mem_filterMap.mpr ⟨_, slot, rfl⟩⟩

/-- A job's tasks killed, wherever they are. -/
theorem killJob_kills (s : State) (job : Nat) : moduleRest (s.killJob job) = moduleRest s
    ∧ ∀ r k, r.core < 128 → isLodge r.core = false → s.task? r = some k → k.job = job → ((s.killJob job).task r).status = .ending := by
  refine ⟨rest_foldl (killOf job) (rest_killOf job) s.residents s, fun r k core user here own => ?_⟩
  refine (killsOf_end job s.residents s).2 r (resident_of here core) user ⟨by rw [here]; rfl, .inl ?_⟩
  rw [State.task, here]
  exact own

/-- The state after a job has been killed and its translations are gone. -/
def jobGone (s : State) (job : Nat) : State := (s.killJob job).invalidate ⟨some job, 0, 2 ^ 56⟩

/-- A job's launches over, and its images and activity gone. -/
def withoutJob (job : Nat) (u : State) : State :=
  { u with
    launches := u.launches.map fun l => if l.job = job then { l with finished := true } else l
    images := u.images.filter fun i => !decide (i.job = job)
    kept := u.kept.filter fun k => !decide (k.job = job)
    jobid := if u.jobid.toNat = job then 0 else u.jobid }

theorem withoutJob_keeps (job : Nat) (u : State) : (withoutJob job u).host = u.host ∧ (withoutJob job u).module = u.module
    ∧ (withoutJob job u).jobid = (if u.jobid.toNat = job then 0 else u.jobid) ∧ (withoutJob job u).keys = u.keys
    ∧ (withoutJob job u).cores = u.cores ∧ ∀ x ∈ (withoutJob job u).images, x.job ≠ job := by
  refine ⟨rfl, rfl, rfl, rfl, rfl, fun x hx => ?_⟩
  have out := (List.mem_filter.mp hx).2
  simpa using out

theorem jobGone_keeps (s : State) (job : Nat) : (jobGone s job).host = s.host ∧ (jobGone s job).module = s.module ∧ (jobGone s job).jobid = s.jobid
    ∧ (jobGone s job).keys = s.keys
    ∧ ∀ r k, r.core < 128 → isLodge r.core = false → s.task? r = some k → k.job = job → ((jobGone s job).task r).status = .ending := by
  obtain ⟨rest, ends⟩ := killJob_kills s job
  have worked := (invalidate_drops (s.killJob job) ⟨some job, 0, 2 ^ 56⟩).1
  unfold jobGone
  generalize s.killJob job = u at rest ends worked ⊢
  generalize u.invalidate ⟨some job, 0, 2 ^ 56⟩ = t at worked ⊢
  refine ⟨Eq.trans (congrArg State.host worked.rest :) (congrArg State.host rest :), Eq.trans (congrArg State.module worked.rest :) (congrArg State.module rest :),
    Eq.trans (congrArg State.jobid worked.rest :) (congrArg State.jobid rest :), Eq.trans (congrArg State.keys worked.rest :) (congrArg State.keys rest :),
    fun r k core user here own => ?_⟩
  rw [worked.task]
  exact ends r k core user here own

section

variable {s : State} (going : s.fatal = none)
include going

/-- JOBEND (R395). -/
theorem hostJobEnd_cases (job : Nat) (head : s.host.headKind = some 7) (there : 1 ≤ s.host.inbox.length) :
    (2 ^ 12 ≤ job → Answers s (.hostJobEnd job) 1 7 1 [])
    ∧ (job < 2 ^ 12 → (s.keyEntry? job = none → Answers s (.hostJobEnd job) 1 7 3 [])
      ∧ (s.keyEntry? job ≠ none → (s.isSwitched job = true ∨ s.jobStopped job = true → Answers s (.hostJobEnd job) 1 7 4 [])
        ∧ (s.isSwitched job = false → s.jobStopped job = false → ∃ t, exec (.hostJobEnd job) s = .next t
          ∧ t.host = HostPort.sendCell (hostCell s 7 0 []) (portLeft s 1)
          ∧ t.jobid = (if s.jobid.toNat = job then 0 else s.jobid) ∧ t.keys = s.keys.filter (fun k => !decide (k.job = job))
          ∧ (∀ x ∈ t.images, x.job ≠ job) ∧ ∀ r k, r.die < 8 → r.core < 98 → isLodge r.core = false →
            s.task? r = some k → k.job = job → (t.task r).status = .ending))) := by
  have steps : exec (.hostJobEnd job) s = .next (if 2 ^ 12 ≤ job then (s.consumed 1).respond 7 s.messageSeq 1
      else if (s.keyEntry? job).isNone then (s.consumed 1).respond 7 s.messageSeq 3
      else if s.isSwitched job || s.jobStopped job then (s.consumed 1).respond 7 s.messageSeq 4
      else ((withoutJob job (jobGone (s.consumed 1) job)).removeKey job).respond 7 s.messageSeq 0) := by
    show execHostJobEnd job s = _
    unfold execHostJobEnd
    exact (serve_serves _ going head there).trans rfl
  refine ⟨fun large => ?_, fun small => ⟨fun absent => ?_, fun known => ⟨fun stopped => ?_, fun here runs => ?_⟩⟩⟩
  · rw [if_pos large] at steps
    exact answers_consumed steps
  · rw [if_neg (Nat.not_le.mpr small), absent] at steps
    exact answers_consumed steps
  · rw [if_neg (Nat.not_le.mpr small), if_neg (by simpa using known), if_pos (by simpa using stopped)] at steps
    exact answers_consumed steps
  · rw [if_neg (Nat.not_le.mpr small), if_neg (by simpa using known), here, runs, if_neg (by simp)] at steps
    obtain ⟨host, module, jobid, keys, ends⟩ := jobGone_keeps (s.consumed 1) job
    generalize jobGone (s.consumed 1) job = w at steps host module jobid keys ends
    obtain ⟨hostU, moduleU, jobidU, keysU, coresU, imagesU⟩ := withoutJob_keeps job w
    have port : AtPort s (withoutJob job w) 1 := ⟨hostU.trans host, moduleU.trans module⟩
    rw [jobid] at jobidU
    rw [keys] at keysU
    generalize withoutJob job w = u at steps port jobidU keysU coresU imagesU
    obtain ⟨cores, -, -, removed⟩ := removeKey_removes u job
    have kept : (u.removeKey job).host = u.host ∧ (u.removeKey job).module = u.module ∧ (u.removeKey job).jobid = u.jobid
        ∧ (u.removeKey job).images = u.images := by
      unfold State.removeKey
      split <;> exact ⟨rfl, rfl, rfl, rfl⟩
    refine ⟨_, steps, (port.of_same kept.1 kept.2.1).reply 7 0 [], kept.2.2.1.trans jobidU, ?_, ?_, fun r k _ core user resident own => ?_⟩
    · exact Eq.trans removed (congrArg (List.filter fun x => !decide (x.job = job)) keysU)
    · show ∀ x ∈ (u.removeKey job).images, x.job ≠ job
      rw [kept.2.2.2]
      exact imagesU
    · have ended := ends r k (by omega) user resident own
      rw [State.task, State.task?, State.core, ← coresU] at ended
      show ((u.removeKey job).task r).status = .ending
      rw [State.task, State.task?, State.core, cores]
      exact ended

end

/-- Settles O59: frames are queued in order (R394), and each host message that stands at the head is served with its effect and its
reply (R395), unless a fatal stop has come. -/
theorem hostMessagesAreServed : Obligations.HostMessagesAreServed := by
  unfold Obligations.HostMessagesAreServed
  exact ⟨hostFrame_steps, messages_idle, fun s going live => ⟨fun m head => hostLaunch_cases going live head,
    fun l heads => hostLoad_cases going heads.1 heads.2, fun job va data heads => hostWrite_cases going job va data heads.1 heads.2,
    fun job va size heads => hostRead_cases going job va size heads.1 heads.2, fun job blob heads => hostKey_cases going live job blob heads.1 heads.2,
    fun req heads => hostAttest_cases going req heads.1 heads.2, fun job heads => hostJobEnd_cases going job heads.1 heads.2,
    fun heads => hostGrotto_cases going live heads.1 heads.2, fun w heads => hostConfig_cases going w heads.1 heads.2⟩⟩

end Sys2Proof

namespace Sys2Proof

open Machine

/-! ### Properties that every update keeps -/

/-- A property of states that depends on the memory's canonical form, the gang switch under way and the active job alone, and
that no change inside a gang's record ends. -/
structure Kept where
  Holds : State → Prop
  stored : ∀ {s t : State}, Holds s → (s.mem.wf = true → t.mem.wf = true) → t.gang = s.gang → t.jobid = s.jobid → Holds t
  gangs : ∀ {s : State} (job : Nat) (f : Gang → Gang), Holds s → Holds (s.modGang job f)

section
variable (K : Kept) {α : Type}

/-- The state an optional step answers, if any, keeps the property. -/
def Kept.Maybe (o : Option State) : Prop := ∀ t, o = some t → K.Holds t

/-- The state an optional step answers beside another value, if any, keeps the property. -/
def Kept.Beside (o : Option (State × α)) : Prop := ∀ x, o = some x → K.Holds x.1

/-- The state a checked step answers, if any, keeps the property. -/
def Kept.Checked (o : Except α State) : Prop := ∀ t, o = .ok t → K.Holds t

/-- The next state of an outcome, if any, keeps the property. -/
def Kept.Next (o : Host.Outcome State Fault Refusal) : Prop := ∀ t, o = .next t → K.Holds t

/-- The state after a cell has entered a queue, if it has, keeps the property. -/
def Kept.Enters (o : Entering) : Prop := ∀ t, o = .entered t → K.Holds t

/-- The state after a cell has been taken, if it has, keeps the property. -/
def Kept.Takes (o : Offer) : Prop := ∀ t a, o = .taken t a → K.Holds t

/-- The states that a slot's wait and its effect answer keep the property. -/
structure Kept.Slot (m : SlotSem) : Prop where
  eff : ∀ s0 s, K.Holds s0 → K.Holds s → K.Holds (m.eff s0 s)
  wait : ∀ s0 s, K.Holds s0 → K.Holds s → K.Maybe (m.wait s0 s)

end

/-- The canonical form of the memory as a property that updates keep. -/
def canonical : Kept := ⟨Safe, fun h w _ _ => w h, fun _ _ h => h⟩

section
variable {K : Kept} {s t : State} {α β : Type}

section
variable {powered : Bool} {module : BitVec 6} {jobid : BitVec 12} {cycle : W64} {cur : TaskRef} {agenda : List Event} {freeCtr : Nat}
  {lines : Tbl LineMeta} {gens : Tbl (BitVec 4)} {cores : Tbl Core} {dies : Tbl Die} {images : List Image} {launches : List Launch}
  {pointer : Nat} {keys : List KeyEntry} {oldKeys : List (List Byte)} {attest : Attest} {host : HostPort} {kept : List KeptCmd}
  {gang : Option Gang} {switched : List Gang} {sent : List SentReq} {outbound : List (Nat × Nat × List Byte)} {hwm : W64}
  {fatal : Option Fatal}

/-- An update of other fields than the memory, the gang switch and the active job. -/
theorem Kept.Holds.updated (h : K.Holds s) : K.Holds ⟨powered, module, s.jobid, cycle, cur, agenda, freeCtr, s.mem, lines, gens, cores, dies,
    images, launches, pointer, keys, oldKeys, attest, host, kept, s.gang, switched, sent, outbound, hwm, fatal⟩ :=
  K.stored h id rfl rfl

/-- An update of the memory that keeps its canonical form. -/
theorem Kept.Holds.wrote (h : K.Holds s) {mem : Memory} (m : s.mem.wf = true → mem.wf = true) : K.Holds ⟨powered, module, s.jobid, cycle, cur,
    agenda, freeCtr, mem, lines, gens, cores, dies, images, launches, pointer, keys, oldKeys, attest, host, kept, s.gang, switched, sent,
    outbound, hwm, fatal⟩ :=
  K.stored h m rfl rfl

/-- An update of any fields but the memory. -/
theorem Kept.Holds.changed (h : canonical.Holds s) : canonical.Holds ⟨powered, module, jobid, cycle, cur, agenda, freeCtr, s.mem, lines, gens,
    cores, dies, images, launches, pointer, keys, oldKeys, attest, host, kept, gang, switched, sent, outbound, hwm, fatal⟩ := h

end

theorem Kept.Holds.ite {c : Prop} {_ : Decidable c} (h : K.Holds s) (k : K.Holds t) : K.Holds (if c then s else t) := by
  split
  · exact h
  · exact k

theorem Kept.Holds.iteFst {c : Prop} {_ : Decidable c} {x y : State × α} (h : K.Holds x.1) (k : K.Holds y.1) :
    K.Holds (if c then x else y).1 := by
  split
  · exact h
  · exact k

theorem Kept.Holds.foldl {f : State → α → State} {l : List α} (step : ∀ s a, K.Holds s → K.Holds (f s a)) (h : K.Holds s) :
    K.Holds (l.foldl f s) := by
  induction l generalizing s with
  | nil => exact h
  | cons a l ih => exact ih (step s a h)

theorem Kept.Holds.foldlFst {f : State × β → α → State × β} {l : List α} {x : State × β}
    (step : ∀ x a, K.Holds x.1 → K.Holds (f x a).1) (h : K.Holds x.1) : K.Holds (l.foldl f x).1 := by
  induction l generalizing x with
  | nil => exact h
  | cons a l ih => exact ih (step x a h)

theorem Kept.Holds.foldlSnd {f : β × State → α → β × State} {l : List α} {x : β × State}
    (step : ∀ x a, K.Holds x.2 → K.Holds (f x a).2) (h : K.Holds x.2) : K.Holds (l.foldl f x).2 := by
  induction l generalizing x with
  | nil => exact h
  | cons a l ih => exact ih (step x a h)

theorem Kept.Holds.fst {x : State × α} {a : α} (h : K.Holds x.1) (e : x = (s, a)) : K.Holds s := by
  rw [e] at h
  exact h

theorem Kept.Holds.pair {a : α} (h : K.Holds s) : K.Holds (s, a).1 := h

theorem Kept.Holds.getD {o : Option State} (k : K.Maybe o) (h : K.Holds s) : K.Holds (o.getD s) := by
  cases o with
  | none => exact h
  | some t => exact k t rfl

/-- A continuation of a read that may fail. -/
theorem Kept.Holds.thenRead {x : State × Except (Option Trap) α} {f : State → α → State × Except (Option Trap) β}
    (h : K.Holds x.1) (step : ∀ s a, K.Holds s → K.Holds (f s a).1) : K.Holds (Machine.thenRead x f).1 := by
  unfold Machine.thenRead
  split
  · exact h
  · exact step _ _ h

theorem Kept.Maybe.holds {o : Option State} (k : K.Maybe o) (e : o = some s) : K.Holds s := k s e

theorem Kept.Maybe.none : K.Maybe none := nofun

theorem Kept.Maybe.some (h : K.Holds s) : K.Maybe (some s) := fun _ e => Option.some.inj e ▸ h

theorem Kept.Maybe.ite {c : Prop} {_ : Decidable c} {x y : Option State} (h : K.Maybe x) (k : K.Maybe y) : K.Maybe (if c then x else y) := by
  split
  · exact h
  · exact k

theorem Kept.Maybe.map {o : Option α} {f : α → State} (h : ∀ a, o = Option.some a → K.Holds (f a)) : K.Maybe (o.map f) := by
  cases o with
  | none => exact .none
  | some a => exact .some (h a rfl)

theorem Kept.Maybe.orElse {o : Option State} {f : Unit → Option State} (h : K.Maybe o) (k : ∀ a, K.Maybe (f a)) : K.Maybe (o.orElse f) := by
  cases o with
  | none => exact k ()
  | some _ => exact h

theorem Kept.Maybe.bind {o : Option State} {f : State → Option State} (h : K.Maybe o) (k : ∀ a, K.Holds a → K.Maybe (f a)) :
    K.Maybe (o.bind f) := by
  cases o with
  | none => exact .none
  | some a => exact k a (h a rfl)

theorem Kept.Maybe.findSome {l : List α} {f : α → Option State} (h : ∀ a, K.Maybe (f a)) : K.Maybe (l.findSome? f) := fun t e => by
  obtain ⟨a, _, ha⟩ := List.exists_of_findSome?_eq_some e
  exact h a t ha

theorem Kept.Beside.holds {o : Option (State × α)} {x : State × α} (k : K.Beside o) (e : o = some x) : K.Holds x.1 := k x e

theorem Kept.Beside.holdsFst {o : Option (State × α)} {a : α} (k : K.Beside o) (e : o = Option.some (s, a)) : K.Holds s := k _ e

theorem Kept.Beside.none : K.Beside (α := α) none := nofun

theorem Kept.Beside.some {x : State × α} (h : K.Holds x.1) : K.Beside (some x) := fun _ e => Option.some.inj e ▸ h

theorem Kept.Beside.ite {c : Prop} {_ : Decidable c} {x y : Option (State × α)} (h : K.Beside x) (k : K.Beside y) :
    K.Beside (if c then x else y) := by
  split
  · exact h
  · exact k

theorem Kept.Beside.map {o : Option α} {f : α → State × β} (h : ∀ a, o = Option.some a → K.Holds (f a).1) : K.Beside (o.map f) := by
  cases o with
  | none => exact .none
  | some a => exact .some (h a rfl)

theorem Kept.Beside.findSome {l : List β} {f : β → Option (State × α)} (h : ∀ a, K.Beside (f a)) : K.Beside (l.findSome? f) := fun t e => by
  obtain ⟨a, _, ha⟩ := List.exists_of_findSome?_eq_some e
  exact h a t ha

theorem Kept.Checked.holds {o : Except α State} (k : K.Checked o) (e : o = .ok s) : K.Holds s := k s e

theorem Kept.Checked.ok (h : K.Holds s) : K.Checked (α := α) (.ok s) := fun _ e => Except.ok.inj e ▸ h

theorem Kept.Checked.error {a : α} : K.Checked (.error a) := nofun

theorem Kept.Checked.ite {c : Prop} {_ : Decidable c} {x y : Except α State} (h : K.Checked x) (k : K.Checked y) :
    K.Checked (if c then x else y) := by
  split
  · exact h
  · exact k

theorem Kept.Enters.holds {o : Entering} (k : K.Enters o) (e : o = .entered s) : K.Holds s := k s e

theorem Kept.Enters.entered (h : K.Holds s) : K.Enters (.entered s) := fun _ e => Entering.entered.inj e ▸ h

theorem Kept.Enters.ahead : K.Enters .ahead := nofun

theorem Kept.Enters.stray : K.Enters .stray := nofun

theorem Kept.Enters.ite {c : Prop} {_ : Decidable c} {x y : Entering} (h : K.Enters x) (k : K.Enters y) : K.Enters (if c then x else y) := by
  split
  · exact h
  · exact k

theorem Kept.Takes.holds {o : Offer} {a : Bool} (k : K.Takes o) (e : o = .taken s a) : K.Holds s := k s a e

theorem Kept.Takes.taken {a : Bool} (h : K.Holds s) : K.Takes (.taken s a) := fun _ _ e => (Offer.taken.inj e).1 ▸ h

theorem Kept.Takes.refused : K.Takes .refused := nofun

theorem Kept.Takes.stray : K.Takes .stray := nofun

theorem Kept.Takes.waits : K.Takes .waits := nofun

theorem Kept.Takes.ite {c : Prop} {_ : Decidable c} {x y : Offer} (h : K.Takes x) (k : K.Takes y) : K.Takes (if c then x else y) := by
  split
  · exact h
  · exact k

theorem Kept.Next.next (h : K.Holds s) : K.Next (.next s) := fun _ e => Host.Outcome.next.inj e ▸ h

theorem Kept.Next.holds {o : Host.Outcome State Fault Refusal} (k : K.Next o) (e : o = .next s) : K.Holds s := k s e

theorem Kept.Next.fault {f : Fault} : K.Next (.fault f) := nofun

theorem Kept.Next.refused {r : Refusal} : K.Next (.refused r) := nofun

theorem Kept.Next.ite {c : Prop} {_ : Decidable c} {x y : Host.Outcome State Fault Refusal} (h : K.Next x) (k : K.Next y) :
    K.Next (if c then x else y) := by
  split
  · exact h
  · exact k

theorem Kept.Slot.ite {c : Prop} {_ : Decidable c} {x y : SlotSem} (h : K.Slot x) (k : K.Slot y) :
    K.Slot (if c then x else y) := by
  split
  · exact h
  · exact k

theorem Kept.Holds.eff {m : SlotSem} (hm : K.Slot m) (h0 : K.Holds s) (h : K.Holds t) : K.Holds (m.eff s t) := hm.eff s t h0 h

theorem Kept.Maybe.wait {m : SlotSem} (hm : K.Slot m) (h0 : K.Holds s) (h : K.Holds t) : K.Maybe (m.wait s t) := hm.wait s t h0 h

/-- A state that an attempt at a bundle answers. -/
theorem Kept.Holds.issued {a : Attempt} (h : K.Holds a.state) (e : a = .issued s) : K.Holds s := by
  rw [e] at h
  exact h

end

theorem Memory.wf_foldl {α : Type} {f : Memory → α → Memory} {l : List α} {m : Memory} (step : ∀ m a, m.wf = true → (f m a).wf = true)
    (h : m.wf = true) : (l.foldl f m).wf = true := by
  induction l generalizing m with
  | nil => exact h
  | cons a l ih => exact ih (step m a h)

theorem Kept.Holds.reset : canonical.Holds State.reset := Memory.wf_reset

/-! ### What each operation of the model keeps -/

section
variable {K : Kept} {s : State}

theorem Kept.Holds.modGang (h : K.Holds s) {job : Nat} {f : Gang → Gang} : K.Holds (s.modGang job f) := K.gangs job f h

/-! ### The definitions of Sys2Proof/Machine/Ops.lean -/

theorem Kept.Holds.setCore {c : CoreRef} {x : Core} (h : K.Holds s) : K.Holds (s.setCore c x) := by
  unfold State.setCore
  exact .updated h

theorem Kept.Holds.modCore {c : CoreRef} {f : Core → Core} (h : K.Holds s) : K.Holds (s.modCore c f) := by
  unfold State.modCore
  exact .setCore h

theorem Kept.Holds.putTask {r : TaskRef} {t : Option Task} (h : K.Holds s) : K.Holds (s.putTask r t) := by
  unfold State.putTask
  exact .modCore h

theorem Kept.Holds.setTask {r : TaskRef} {t : Task} (h : K.Holds s) : K.Holds (s.setTask r t) := by
  unfold State.setTask
  exact .putTask h

theorem Kept.Holds.modTask {r : TaskRef} {f : Task → Task} (h : K.Holds s) : K.Holds (s.modTask r f) := by
  unfold State.modTask
  exact .setTask h

theorem Kept.Holds.modDie {d : ℕ} {f : Die → Die} (h : K.Holds s) : K.Holds (s.modDie d f) := by
  unfold State.modDie
  exact .updated h

theorem Kept.Holds.modLodge {d : ℕ} {f : LodgeRegs → LodgeRegs} (h : K.Holds s) : K.Holds (s.modLodge d f) := by
  unfold State.modLodge
  exact .modDie h

theorem Kept.Holds.modMe {f : Task → Task} (h : K.Holds s) : K.Holds (s.modMe f) := by
  unfold State.modMe
  exact .modTask h

theorem Kept.Holds.modHere {f : Core → Core} (h : K.Holds s) : K.Holds (s.modHere f) := by
  unfold State.modHere
  exact .modCore h

theorem Kept.Holds.push {lat : ℕ} {v : PVal} {f : BitVec 6} (h : K.Holds s) : K.Holds (s.push lat v f) := by
  unfold State.push
  exact .modMe h

theorem Kept.Holds.post {die : ℕ} {e : EventRec} (h : K.Holds s) : K.Holds (s.post die e) := by
  unfold State.post
  exact .modDie h

theorem Kept.Holds.postFault {die agent slot job cause : ℕ} {info lidx : W64} (h : K.Holds s) :
    K.Holds (s.postFault die agent slot job cause info lidx) := by
  unfold State.postFault
  exact .post (.modDie h)

theorem Kept.Holds.postEvent {r : TaskRef} {cause : ℕ} {info : W64} {call : Option (ℕ × W64)} (h : K.Holds s) :
    K.Holds (s.postEvent r cause info call) := by
  unfold State.postEvent
  exact .post h

theorem Kept.Holds.postTaskFault {r : TaskRef} {cause : ℕ} {info : W64} (h : K.Holds s) : K.Holds (s.postTaskFault r cause info) := by
  unfold State.postTaskFault
  exact .postFault h

theorem Kept.Holds.fatalDie {cause d : ℕ} (h : K.Holds s) : K.Holds (State.fatalDie cause s d) := by
  unfold State.fatalDie
  exact .modLodge (.modCore h)

theorem Kept.Holds.fatalStop {die cause : ℕ} {info : W64} (h : K.Holds s) : K.Holds (s.fatalStop die cause info) := by
  unfold State.fatalStop
  exact .ite h (.foldl (fun t a ht => .fatalDie ht) (.post (.updated h)))

theorem Kept.Holds.doubleTrap {r : TaskRef} {pc : W32} {cause kind : ℕ} (h : K.Holds s) : K.Holds (s.doubleTrap r pc cause kind) := by
  unfold State.doubleTrap
  exact .ite (.modTask h) (.fatalStop h)

theorem Kept.Holds.dropLoads {r : TaskRef} {tok : Option ℕ} (h : K.Holds s) : K.Holds (s.dropLoads r tok) := by
  unfold State.dropLoads
  exact .updated h

theorem Kept.Holds.lodgeEntry {r : TaskRef} {cause : ℕ} {info : W64} (h : K.Holds s) : K.Holds (s.lodgeEntry r cause info) := by
  unfold State.lodgeEntry
  exact .modTask (.dropLoads (.modCore (.modLodge h)))

theorem Kept.Holds.takeTrap {r : TaskRef} {tr : Trap} (h : K.Holds s) : K.Holds (s.takeTrap r tr) := by
  unfold State.takeTrap
  exact .ite (.ite (.doubleTrap h) (.lodgeEntry h)) (.post (.dropLoads (.dropLoads (.modCore (.modTask h)))))

theorem Kept.Holds.eretEntry {r : TaskRef} (h : K.Holds s) : K.Holds (s.eretEntry r) := by
  unfold State.eretEntry
  exact .modLodge (.modTask h)

theorem Kept.Holds.tookFree {n : ℕ} (h : K.Holds s) : K.Holds (s.tookFree n) := by
  unfold State.tookFree
  exact .updated h

/-! ### The definitions of Sys2Proof/Machine/Sem.lean -/

theorem Kept.Maybe.stall {m : SlotSem} {k : ℕ} {s0 s : State} (h0 : K.Slot m) (h1 : K.Holds s0) (h2 : K.Holds s) :
    K.Maybe (m.stall k s0 s) := by
  unfold SlotSem.stall
  exact .ite .none (.ite (.some h2) (.ite (.ite (.some h2) (.wait h0 h1 h2)) .none))

theorem Kept.Holds.apply {m : SlotSem} {s0 s : State} (h0 : K.Slot m) (h1 : K.Holds s0) (h2 : K.Holds s) : K.Holds (m.apply s0 s) := by
  unfold SlotSem.apply
  exact .ite (.modHere (.ite (.eff h0 h1 h2) h2)) (.ite (.eff h0 h1 h2) h2)

/-! ### The definitions of Sys2Proof/Machine/Registers.lean -/

theorem Kept.Holds.modLaunch {n : ℕ} {f : Launch → Launch} (h : K.Holds s) : K.Holds (s.modLaunch n f) := by
  unfold State.modLaunch
  exact .updated h

/-! ### The definitions of Sys2Proof/Machine/Memory.lean -/

theorem Kept.Holds.modLine {line : ℕ} {f : LineMeta → LineMeta} (h : K.Holds s) : K.Holds (s.modLine line f) := by
  unfold State.modLine
  exact .updated h

theorem Kept.Holds.writeBack {c : CoreRef} {l : L1Line} (h : K.Holds s) : K.Holds (s.writeBack c l) := by
  unfold State.writeBack
  exact .ite h (.ite (.modLine h) (.ite (.postFault (.modLine h)) (.ite (.postFault (.modLine h)) (.modLine (.wrote (.modLine h) (fun w =>
      Memory.wf_setBytes _ _ w))))))

theorem Kept.Holds.giveBack {line : ℕ} {exclusive : Bool} {c : CoreRef} (h : K.Holds s) : K.Holds (State.giveBack line exclusive s c) := by
  unfold State.giveBack
  dsimp only
  split
  · exact .ite h (.modCore h)
  · exact .ite (.modCore (.writeBack (.ite h (.modCore h)))) (.ite h (.modCore h))

theorem Kept.Holds.recall {line : ℕ} {exclusive : Bool} (h : K.Holds s) : K.Holds (s.recall line exclusive) := by
  unfold State.recall
  exact .foldl (fun t a ht => .giveBack ht) h

theorem Kept.Holds.writeLine {o key : ℕ} {b : List Byte} (h : K.Holds s) : K.Holds (s.writeLine o key b) := by
  unfold State.writeLine
  exact .ite (.modLine (.wrote (.recall h) (fun w => Memory.wf_setBytes _ _ w))) (.ite (.modLine (.wrote (.tookFree (.wrote (.recall h)
      (fun w => Memory.wf_setBytes _ _ w))) (fun w => Memory.wf_setBytes _ _ w))) (.modLine (.wrote (.recall h) (fun w =>
      Memory.wf_setBytes _ _ w))))

theorem Kept.Holds.writeHbm {o key : ℕ} {b : List Byte} {x5 : ℕ} (h : K.Holds s) : K.Holds (s.writeHbm o key b x5) := by
  induction x5 generalizing s o key b with
  | zero =>
    unfold State.writeHbm
    exact h
  | succ n ih =>
    unfold State.writeHbm
    exact .ite h (ih (.writeLine h))

theorem Kept.Holds.storeHbm {o key : ℕ} {b : List Byte} (h : K.Holds s) : K.Holds (s.storeHbm o key b) := by
  unfold State.storeHbm
  exact .ite (.writeHbm h) h

theorem Kept.Holds.cacheTlb {c : CoreRef} {e : TlbEntry} (h : K.Holds s) : K.Holds (s.cacheTlb c e) := by
  unfold State.cacheTlb
  exact .modDie (.modCore h)

/-! ### The definitions of Sys2Proof/Machine/TaskOps.lean -/

theorem Kept.Holds.endToken {r : TaskRef} {tok cause : ℕ} {tc : W64} (h : K.Holds s) : K.Holds (s.endToken r tok cause tc) := by
  unfold State.endToken
  exact .modCore (.modTask h)

theorem Kept.Holds.endCmd {c : CoreRef} {ptok cause : ℕ} {tc : W64} (h : K.Holds s) : K.Holds (s.endCmd c ptok cause tc) := by
  unfold State.endCmd
  dsimp only
  split
  · exact h
  · refine .endToken (.modCore ?_)
    split
    · exact .modCore h
    · exact .modCore h
    · exact .modCore h
    · exact h

theorem Kept.Holds.mark {c : CoreRef} {t : W64} (h : K.Holds s) : K.Holds (s.mark c t) := by
  unfold State.mark
  exact .updated (.modDie (.modCore h))

theorem Kept.Holds.markDie {die : ℕ} {t : W64} (h : K.Holds s) : K.Holds (s.markDie die t) := by
  unfold State.markDie
  exact .updated (.modDie h)

theorem Kept.Holds.logFor {c : CoreRef} {slot : ℕ} {x : LogItem} {w : ℕ} (h : K.Holds s) : K.Holds (s.logFor c slot x w) := by
  unfold State.logFor
  split
  · exact h
  · exact .modCore h

theorem Kept.Holds.logBytes {c : CoreRef} {slot a : ℕ} {b : List Byte} (h : K.Holds s) : K.Holds (s.logBytes c slot a b) := by
  unfold State.logBytes
  exact .foldl (fun t a1 ht => .ite (.logFor ht) ht) h

theorem Kept.Holds.writeLocal {c : CoreRef} {slot a : ℕ} {b : List Byte} {within : Bool} (h : K.Holds s) :
    K.Holds (s.writeLocal c slot a b within) := by
  unfold State.writeLocal
  exact .wrote (.ite (.logBytes h) h) (fun w => Memory.wf_setBytes _ _ w)

theorem Kept.Holds.wakeAll {die b : ℕ} (h : K.Holds s) : K.Holds (s.wakeAll die b) := by
  unfold State.wakeAll
  exact .foldl (fun t a ht => .modCore ht) h

theorem Kept.Holds.modBarrier {die b : ℕ} {f : Barrier → Barrier} (h : K.Holds s) : K.Holds (s.modBarrier die b f) := by
  unfold State.modBarrier
  exact .wakeAll (.modDie h)

theorem Kept.Holds.closeSet {r : TaskRef} (h : K.Holds s) : K.Holds (s.closeSet r) := by
  unfold State.closeSet
  dsimp only
  split
  · exact h
  · exact .modTask (.modLaunch h)

theorem Kept.Holds.haltTask {r : TaskRef} (h : K.Holds s) : K.Holds (s.haltTask r) := by
  unfold State.haltTask
  exact .modCore (.modTask h)

theorem Kept.Holds.endTaskAt {r : TaskRef} (h : K.Holds s) : K.Holds (s.endTaskAt r) := by
  unfold State.endTaskAt
  exact .modLaunch (.foldl (fun t a ht => .modBarrier ht) (.dropLoads (.modCore (.modTask (.closeSet h)))))

theorem Kept.Holds.killCmd {c : CoreRef} {slot ptok : ℕ} (h : K.Holds s) : K.Holds (State.killCmd c slot s ptok) := by
  unfold State.killCmd
  split
  · exact h
  · refine .ite h ?_
    split
    · exact .modCore h
    · exact .endCmd h

theorem Kept.Holds.killTask {r : TaskRef} (h : K.Holds s) : K.Holds (s.killTask r) := by
  unfold State.killTask
  dsimp only
  split
  · exact h
  · exact .endTaskAt (.modCore (.foldl (fun t a ht => .killCmd ht) (.modLaunch h)))

theorem Kept.Holds.kill {die : ℕ} {target : W64} (h : K.Holds s) : K.Holds (s.kill die target) := by
  unfold State.kill
  exact .foldl (fun t a ht => .ite (.killTask ht) ht) h

/-! ### The definitions of Sys2Proof/Machine/Issue.lean -/

theorem Kept.Holds.writeLodge {die num : ℕ} {v : W64} (h : K.Holds s) : K.Holds (s.writeLodge die num v) := by
  unfold State.writeLodge
  exact .ite (.kill h) (.ite (.modDie h) (.modLodge h))

theorem Kept.Holds.landVec {r : TaskRef} {pos : ℕ} {mask : Lanes} {v : VReg} (h : K.Holds s) : K.Holds (s.landVec r pos mask v) := by
  unfold State.landVec
  exact .modCore (.logFor h)

theorem Kept.Holds.landVal {r : TaskRef} {v : PVal} (h : K.Holds s) : K.Holds (s.landVal r v) := by
  unfold State.landVal
  split
  · exact .modTask h
  · exact .modTask h
  · exact .modTask h
  · exact .landVec h
  · exact .modTask h
  · exact .modTask h
  · exact .ite (.writeLodge h) (.modTask h)
  · exact h

theorem Kept.Holds.landOne {r : TaskRef} {p : Pending} (h : K.Holds s) : K.Holds (State.landOne r s p) := by
  unfold State.landOne
  exact .modTask (.landVal h)

theorem Kept.Holds.land {r : TaskRef} (h : K.Holds s) : K.Holds (s.land r) := by
  unfold State.land
  exact .foldl (fun t a ht => .landOne ht) (.modTask h)

theorem Kept.Holds.charge {r : TaskRef} (h : K.Holds s) : K.Holds (s.charge r) := by
  unfold State.charge
  exact .ite (.postEvent (.modTask h)) (.modTask h)

theorem Kept.Holds.wipeMoving {r : TaskRef} (h : K.Holds s) : K.Holds (s.wipeMoving r) := by
  unfold State.wipeMoving
  exact .wrote h (fun w => Memory.wf_filter _ w)

theorem Kept.Holds.drain {r : TaskRef} (h : K.Holds s) : K.Holds (s.drain r) := by
  unfold State.drain
  exact .ite h (.modTask (.ite (.wipeMoving h) h))

theorem Kept.Holds.countBar {r : TaskRef} {before : ℕ} (h : K.Holds s) : K.Holds (s.countBar r before) := by
  unfold State.countBar
  exact .ite h (.modTask (.ite (.drain h) h))

theorem Kept.Holds.openRegion {r : TaskRef} {addr : W32} (h : K.Holds s) : K.Holds (s.openRegion r addr) := by
  unfold State.openRegion
  exact .modCore h

theorem Kept.Holds.sysAt {r : TaskRef} {pc : W32} {code : ℕ} {a b : W64} (h : K.Holds s) : K.Holds (s.sysAt r pc code a b) := by
  unfold State.sysAt
  exact .ite (.doubleTrap h) (.haltTask (.postEvent h))

theorem Kept.Holds.waitAt {r : TaskRef} {n : ℕ} {parity : Bool} (h : K.Holds s) : K.Holds (s.waitAt r n parity) := by
  unfold State.waitAt
  exact .ite (.modTask h) (.modTask h)

theorem Kept.Holds.boundary {r : TaskRef} {addr : W32} {c : Ctl} (h : K.Holds s) : K.Holds (s.boundary r addr c) := by
  unfold State.boundary
  split
  · exact .endTaskAt h
  · exact .sysAt h
  · exact .modCore h
  · exact .waitAt h
  · exact .openRegion h
  · exact .eretEntry h
  · exact h

theorem Kept.Holds.preemptAt {r : TaskRef} (h : K.Holds s) : K.Holds (s.preemptAt r) := by
  unfold State.preemptAt
  exact .ite (.haltTask h) h

theorem Kept.Holds.advance {s0 s : State} {units : ℕ} {q0 q1 : Bool} (h1 : K.Holds s) : K.Holds (s0.advance s units q0 q1) := by
  unfold State.advance
  exact .preemptAt (.boundary (.modCore (.countBar (.land (.setTask (.charge h1))))))

theorem Kept.Holds.atIssue {l : Slots} (h : K.Holds s) : K.Holds (s.atIssue l) := by
  unfold State.atIssue
  exact .ite (.modHere (.modMe h)) (.modMe h)

theorem Kept.Holds.atPeak {s1 : State} {l : Slots} (h : K.Holds s1) : K.Holds (s1.atPeak l) := by
  unfold State.atPeak
  exact .modMe h

/-- What stalled slots start, each of which keeps the property. -/
theorem Kept.Maybe.stallAll {l : Slots} {s1 : State} (hl : ∀ e ∈ l, K.Slot e.2) (h1 : K.Holds s1) (h : K.Holds s) :
    K.Maybe (Machine.stallAll l s1 s) := by
  have peak : K.Holds (s1.atPeak l) := .atPeak h1
  unfold Machine.stallAll
  generalize s1.atPeak l = u at peak
  suffices all : ∀ a : Option State, K.Maybe a → K.Maybe (l.foldl (fun a e => match e.2.stall e.1 u (a.getD s) with
      | Option.some s' => Option.some s'
      | Option.none => a) a) from all Option.none .none
  induction l with
  | nil => exact fun _ ha => ha
  | cons e l ih =>
    intro a ha
    refine ih (fun x hx => hl x (List.mem_cons_of_mem _ hx)) _ ?_
    dsimp only
    split
    · exact .some (Kept.Maybe.holds (.stall (hl e List.mem_cons_self) peak (.getD ha h)) ‹_›)
    · exact ha

/-- A bundle whose slots keep the property keeps it. -/
theorem Kept.Holds.issueSems {l : Slots} {units : ℕ} (hl : ∀ e ∈ l, K.Slot e.2) (h : K.Holds s) :
    K.Holds (Machine.issueSems l units s).state := by
  have start : K.Holds (s.atIssue l) := .atIssue h
  unfold Machine.issueSems
  dsimp only
  split
  · exact .takeTrap h
  split
  · exact .takeTrap h
  split
  · exact h
  split
  · exact Kept.Maybe.holds (.stallAll hl start h) ‹_›
  split
  · exact .takeTrap h
  · refine .advance ?_
    have slots : ∀ e ∈ l.inOrder, K.Slot e.2 := fun e he =>
      (List.mem_append.1 he).elim (fun k => hl e (List.mem_filter.1 k).1) fun k => hl e (List.mem_filter.1 k).1
    generalize l.inOrder = order at slots
    suffices all : ∀ u, K.Holds u → K.Holds (order.foldl (fun t e => e.2.apply (s.atIssue l) t) u) from all _ start
    induction order with
    | nil => exact fun _ hu => hu
    | cons e order ih =>
      exact fun u hu => ih (fun x hx => slots x (List.mem_cons_of_mem _ hx)) _ (.apply (slots e List.mem_cons_self) start hu)

/-! ### The definitions of Sys2Proof/Machine/Remote.lean -/

theorem Kept.Holds.modPav {die router : ℕ} {f : Pavilion → Pavilion} (h : K.Holds s) : K.Holds (s.modPav die router f) := by
  unfold State.modPav
  exact .modDie h

theorem Kept.Holds.output {die router port : ℕ} {c : Cell} {inp : ℕ} (h : K.Holds s) : K.Holds (s.output die router port c inp) := by
  unfold State.output
  exact .modPav h

theorem Kept.Holds.modGate {die : ℕ} {f : Gatehouse → Gatehouse} (h : K.Holds s) : K.Holds (s.modGate die f) := by
  unfold State.modGate
  exact .modDie h

theorem Kept.Holds.transmit {die home : ℕ} {q : RemoteReq} (h : K.Holds s) : K.Holds (s.transmit die home q) := by
  unfold State.transmit
  exact .output h

theorem Kept.Holds.sendReq {r : TaskRef} {tok : Option ℕ} {home : ℕ} {q : RemoteReq} (h : K.Holds s) :
    K.Holds (s.sendReq r tok home q).1 := by
  unfold State.sendReq
  exact .pair (.transmit (.updated (.modGate h)))

theorem Kept.Holds.askWalk {r : TaskRef} {t : Trap} (h : K.Holds s) : K.Holds (s.askWalk r t) := by
  unfold State.askWalk
  exact .ite h (.sendReq h)

/-! ### The definitions of Sys2Proof/Machine/Access.lean -/

theorem Kept.Holds.ask {s0 : State} {right : Right} {s : State} {x : ℕ × ℕ} (h1 : K.Holds s) : K.Holds (s0.ask right s x) := by
  unfold State.ask
  exact .modHere h1

theorem Kept.Holds.waitPart {s0 : State} {right : Right} {a : Bool × State} {p : Piece} (h1 : K.Holds a.2) :
    K.Holds (s0.waitPart right a p).2 := by
  unfold State.waitPart
  dsimp only
  split
  · exact h1
  · split
    · exact h1
    · exact .foldl (fun t x ht => .ask ht) h1
  · split
    · exact h1
    · split
      · exact h1
      · exact .sendReq h1

theorem Kept.Holds.keepPlans {l : List Plan} (h : K.Holds s) : K.Holds (s.keepPlans l) := by
  unfold State.keepPlans
  exact .tookFree (.foldl (fun t a ht => .cacheTlb ht) (.dropLoads h))

theorem Kept.Maybe.accessWait {s0 s : State} {write ro : Bool} {rows : List Row} (h1 : K.Holds s) :
    K.Maybe (s0.accessWait s write ro rows) := by
  unfold State.accessWait
  dsimp only
  split
  · exact .ite (.some (.tookFree (.askWalk h1))) .none
  · exact .ite (.some (.keepPlans (.foldlSnd (fun x x1 ht => .modHere (.foldlSnd (fun x2 a ht1 => .waitPart ht1) ht)) h1))) .none

theorem Kept.Holds.afterLoad {s0 s : State} {ro : Bool} {rows : List Row} (h1 : K.Holds s) : K.Holds (s0.afterLoad s ro rows) := by
  unfold State.afterLoad
  dsimp only
  split
  · exact h1
  · exact .keepPlans (.dropLoads (.modHere (.modMe h1)))

theorem Kept.Holds.writePart {s0 : State} {time : W64} {s : State} {p : Piece} {b : List Byte} (h1 : K.Holds s) :
    K.Holds (s0.writePart time s p b) := by
  unfold State.writePart
  dsimp only
  split
  · exact .writeLocal h1
  · exact .modHere h1
  · exact .modMe (.sendReq h1)

theorem Kept.Holds.writeParts {s0 : State} {time : W64} {x3 : List Piece} {x4 : List Byte} {x5 : State} (h0 : K.Holds s0)
    (h1 : K.Holds x5) :
    K.Holds (s0.writeParts time x3 x4 x5) := by
  induction x3 generalizing s0 time x4 x5 with
  | nil =>
    unfold State.writeParts
    exact h1
  | cons a l ih =>
    unfold State.writeParts
    exact ih h0 (.writePart h1)

theorem Kept.Holds.storeRows {s0 s : State} {rows : List Row} {data : List (List Byte)} (h0 : K.Holds s0) (h1 : K.Holds s) :
    K.Holds (s0.storeRows s rows data) := by
  unfold State.storeRows
  dsimp only
  split
  · exact h1
  · exact .keepPlans (.modHere (.ite (.foldl (fun t x ht => .writeParts h0 ht) (.modMe h1)) (.mark (.foldl (fun t x ht => .writeParts h0
      ht) (.modMe h1)))))

/-! ### The definitions of Sys2Proof/Machine/Scalar.lean -/

theorem Kept.Slot.semScalar {g : Guard} {lat : ℕ} {d : BitVec 5} {v : State → W64} : K.Slot (Machine.semScalar g lat d v) := by
  unfold Machine.semScalar
  exact ⟨fun t t1 ht ht1 => .push ht1, fun t t1 ht ht1 => .none⟩

theorem Kept.Slot.semScalarF {g : Guard} {lat : ℕ} {d : BitVec 5} {v : State → ℕ × Flags} : K.Slot (Machine.semScalarF g lat d v) := by
  unfold Machine.semScalarF
  exact ⟨fun t t1 ht ht1 => .push ht1, fun t t1 ht ht1 => .none⟩

theorem Kept.Slot.semCompare {g : Guard} {pt pf : BitVec 3} {c : State → Bool} : K.Slot (Machine.semCompare g pt pf c) := by
  unfold Machine.semCompare
  exact ⟨fun t t1 ht ht1 => .push (.push ht1), fun t t1 ht ht1 => .none⟩

theorem Kept.Slot.semPred {g : Guard} {d : BitVec 3} {v : State → Bool} : K.Slot (Machine.semPred g d v) := by
  unfold Machine.semPred
  exact ⟨fun t t1 ht ht1 => .push ht1, fun t t1 ht ht1 => .none⟩

theorem Kept.Slot.semReadReg {g : Guard} {r : BitVec 5} {num : ℕ} : K.Slot (Machine.semReadReg g r num) := by
  unfold Machine.semReadReg
  exact ⟨fun t t1 ht ht1 => .push ht1, fun t t1 ht ht1 => .none⟩

theorem Kept.Holds.writeRegEff {num : ℕ} {v : W64} {s0 s : State} (h1 : K.Holds s) : K.Holds (Machine.writeRegEff num v s0 s) := by
  unfold Machine.writeRegEff
  exact .ite (.modMe h1) (.ite (.modMe h1) (.push h1))

theorem Kept.Slot.semWriteReg {g : Guard} {r : BitVec 5} {num : ℕ} : K.Slot (Machine.semWriteReg g r num) := by
  unfold Machine.semWriteReg
  exact ⟨fun t t1 ht ht1 => .writeRegEff ht1, fun t t1 ht ht1 => .none⟩

theorem Kept.Slot.semAdd {g : Guard} {d a b : BitVec 5} : K.Slot (Machine.semAdd g d a b) := by
  unfold Machine.semAdd
  exact .semScalar

theorem Kept.Slot.semSub {g : Guard} {d a b : BitVec 5} : K.Slot (Machine.semSub g d a b) := by
  unfold Machine.semSub
  exact .semScalar

theorem Kept.Slot.semMul {g : Guard} {d a b : BitVec 5} : K.Slot (Machine.semMul g d a b) := by
  unfold Machine.semMul
  exact .semScalar

theorem Kept.Slot.semMulh {g : Guard} {d a b : BitVec 5} : K.Slot (Machine.semMulh g d a b) := by
  unfold Machine.semMulh
  exact .semScalar

theorem Kept.Slot.semMulhz {g : Guard} {d a b : BitVec 5} : K.Slot (Machine.semMulhz g d a b) := by
  unfold Machine.semMulhz
  exact .semScalar

theorem Kept.Slot.semDiv {g : Guard} {d a b : BitVec 5} : K.Slot (Machine.semDiv g d a b) := by
  unfold Machine.semDiv
  exact .semScalar

theorem Kept.Slot.semDivz {g : Guard} {d a b : BitVec 5} : K.Slot (Machine.semDivz g d a b) := by
  unfold Machine.semDivz
  exact .semScalar

theorem Kept.Slot.semRem {g : Guard} {d a b : BitVec 5} : K.Slot (Machine.semRem g d a b) := by
  unfold Machine.semRem
  exact .semScalar

theorem Kept.Slot.semRemz {g : Guard} {d a b : BitVec 5} : K.Slot (Machine.semRemz g d a b) := by
  unfold Machine.semRemz
  exact .semScalar

theorem Kept.Slot.semAnd {g : Guard} {d a b : BitVec 5} : K.Slot (Machine.semAnd g d a b) := by
  unfold Machine.semAnd
  exact .semScalar

theorem Kept.Slot.semOr {g : Guard} {d a b : BitVec 5} : K.Slot (Machine.semOr g d a b) := by
  unfold Machine.semOr
  exact .semScalar

theorem Kept.Slot.semXor {g : Guard} {d a b : BitVec 5} : K.Slot (Machine.semXor g d a b) := by
  unfold Machine.semXor
  exact .semScalar

theorem Kept.Slot.semAndn {g : Guard} {d a b : BitVec 5} : K.Slot (Machine.semAndn g d a b) := by
  unfold Machine.semAndn
  exact .semScalar

theorem Kept.Slot.semShl {g : Guard} {d a b : BitVec 5} : K.Slot (Machine.semShl g d a b) := by
  unfold Machine.semShl
  exact .semScalar

theorem Kept.Slot.semShr {g : Guard} {d a b : BitVec 5} : K.Slot (Machine.semShr g d a b) := by
  unfold Machine.semShr
  exact .semScalar

theorem Kept.Slot.semSra {g : Guard} {d a b : BitVec 5} : K.Slot (Machine.semSra g d a b) := by
  unfold Machine.semSra
  exact .semScalar

theorem Kept.Slot.semRol {g : Guard} {d a b : BitVec 5} : K.Slot (Machine.semRol g d a b) := by
  unfold Machine.semRol
  exact .semScalar

theorem Kept.Slot.semMin {g : Guard} {d a b : BitVec 5} : K.Slot (Machine.semMin g d a b) := by
  unfold Machine.semMin
  exact .semScalar

theorem Kept.Slot.semMax {g : Guard} {d a b : BitVec 5} : K.Slot (Machine.semMax g d a b) := by
  unfold Machine.semMax
  exact .semScalar

theorem Kept.Slot.semMinz {g : Guard} {d a b : BitVec 5} : K.Slot (Machine.semMinz g d a b) := by
  unfold Machine.semMinz
  exact .semScalar

theorem Kept.Slot.semMaxz {g : Guard} {d a b : BitVec 5} : K.Slot (Machine.semMaxz g d a b) := by
  unfold Machine.semMaxz
  exact .semScalar

theorem Kept.Slot.semBfx {g : Guard} {d a b : BitVec 5} : K.Slot (Machine.semBfx g d a b) := by
  unfold Machine.semBfx
  exact .semScalar

theorem Kept.Slot.semBfxz {g : Guard} {d a b : BitVec 5} : K.Slot (Machine.semBfxz g d a b) := by
  unfold Machine.semBfxz
  exact .semScalar

theorem Kept.Slot.semBfi {g : Guard} {d a b : BitVec 5} : K.Slot (Machine.semBfi g d a b) := by
  unfold Machine.semBfi
  exact .semScalar

theorem Kept.Slot.semClz {g : Guard} {d a : BitVec 5} : K.Slot (Machine.semClz g d a) := by
  unfold Machine.semClz
  exact .semScalar

theorem Kept.Slot.semCtz {g : Guard} {d a : BitVec 5} : K.Slot (Machine.semCtz g d a) := by
  unfold Machine.semCtz
  exact .semScalar

theorem Kept.Slot.semPopc {g : Guard} {d a : BitVec 5} : K.Slot (Machine.semPopc g d a) := by
  unfold Machine.semPopc
  exact .semScalar

theorem Kept.Slot.semSel {g : Guard} {d a b : BitVec 5} {p : BitVec 3} : K.Slot (Machine.semSel g d a b p) := by
  unfold Machine.semSel
  exact .semScalar

theorem Kept.Slot.semAddi {g : Guard} {d a : BitVec 5} {imm : BitVec 10} : K.Slot (Machine.semAddi g d a imm) := by
  unfold Machine.semAddi
  exact .semScalar

theorem Kept.Slot.semAndi {g : Guard} {d a : BitVec 5} {imm : BitVec 10} : K.Slot (Machine.semAndi g d a imm) := by
  unfold Machine.semAndi
  exact .semScalar

theorem Kept.Slot.semOri {g : Guard} {d a : BitVec 5} {imm : BitVec 10} : K.Slot (Machine.semOri g d a imm) := by
  unfold Machine.semOri
  exact .semScalar

theorem Kept.Slot.semXori {g : Guard} {d a : BitVec 5} {imm : BitVec 10} : K.Slot (Machine.semXori g d a imm) := by
  unfold Machine.semXori
  exact .semScalar

theorem Kept.Slot.semShli {g : Guard} {d a : BitVec 5} {sh : BitVec 6} : K.Slot (Machine.semShli g d a sh) := by
  unfold Machine.semShli
  exact .semScalar

theorem Kept.Slot.semShri {g : Guard} {d a : BitVec 5} {sh : BitVec 6} : K.Slot (Machine.semShri g d a sh) := by
  unfold Machine.semShri
  exact .semScalar

theorem Kept.Slot.semSrai {g : Guard} {d a : BitVec 5} {sh : BitVec 6} : K.Slot (Machine.semSrai g d a sh) := by
  unfold Machine.semSrai
  exact .semScalar

theorem Kept.Slot.semMovi {g : Guard} {d : BitVec 5} {imm : BitVec 15} : K.Slot (Machine.semMovi g d imm) := by
  unfold Machine.semMovi
  exact .semScalar

theorem Kept.Slot.semMovh {g : Guard} {d : BitVec 5} {imm : BitVec 15} : K.Slot (Machine.semMovh g d imm) := by
  unfold Machine.semMovh
  exact .semScalar

theorem Kept.Slot.semAddsh {g : Guard} {d a b sh : BitVec 5} : K.Slot (Machine.semAddsh g d a b sh) := by
  unfold Machine.semAddsh
  exact .semScalar

theorem Kept.Slot.semCmp {g : Guard} {pt pf : BitVec 3} {a b : BitVec 5} {cond : BitVec 4} : K.Slot (Machine.semCmp g pt pf a b cond) := by
  unfold Machine.semCmp
  exact .semCompare

theorem Kept.Slot.semCmpi {g : Guard} {pt pf : BitVec 3} {a imm : BitVec 5} {cond : BitVec 4} :
    K.Slot (Machine.semCmpi g pt pf a imm cond) := by
  unfold Machine.semCmpi
  exact .semCompare

theorem Kept.Slot.semPand {g : Guard} {d a b : BitVec 3} : K.Slot (Machine.semPand g d a b) := by
  unfold Machine.semPand
  exact .semPred

theorem Kept.Slot.semPor {g : Guard} {d a b : BitVec 3} : K.Slot (Machine.semPor g d a b) := by
  unfold Machine.semPor
  exact .semPred

theorem Kept.Slot.semPxor {g : Guard} {d a b : BitVec 3} : K.Slot (Machine.semPxor g d a b) := by
  unfold Machine.semPxor
  exact .semPred

theorem Kept.Slot.semPnot {g : Guard} {d a : BitVec 3} : K.Slot (Machine.semPnot g d a) := by
  unfold Machine.semPnot
  exact .semPred

theorem Kept.Slot.semMovsRead {g : Guard} {r : BitVec 5} {num : BitVec 12} : K.Slot (Machine.semMovsRead g r num) := by
  unfold Machine.semMovsRead
  exact .semReadReg

theorem Kept.Slot.semMovsWrite {g : Guard} {r : BitVec 5} {num : BitVec 12} : K.Slot (Machine.semMovsWrite g r num) := by
  unfold Machine.semMovsWrite
  exact .semWriteReg

theorem Kept.Slot.semSfadd {g : Guard} {d a b : BitVec 5} {rz : BitVec 1} : K.Slot (Machine.semSfadd g d a b rz) := by
  unfold Machine.semSfadd
  exact .semScalarF

theorem Kept.Slot.semSfmul {g : Guard} {d a b : BitVec 5} {rz : BitVec 1} : K.Slot (Machine.semSfmul g d a b rz) := by
  unfold Machine.semSfmul
  exact .semScalarF

theorem Kept.Slot.semSffma {g : Guard} {d a b : BitVec 5} {rz : BitVec 1} : K.Slot (Machine.semSffma g d a b rz) := by
  unfold Machine.semSffma
  exact .semScalarF

theorem Kept.Slot.semSfmin {g : Guard} {d a b : BitVec 5} : K.Slot (Machine.semSfmin g d a b) := by
  unfold Machine.semSfmin
  exact .semScalarF

theorem Kept.Slot.semSfmax {g : Guard} {d a b : BitVec 5} : K.Slot (Machine.semSfmax g d a b) := by
  unfold Machine.semSfmax
  exact .semScalarF

theorem Kept.Slot.semSfcmp {g : Guard} {pt pf : BitVec 3} {a b : BitVec 5} {cond : BitVec 4} :
    K.Slot (Machine.semSfcmp g pt pf a b cond) := by
  unfold Machine.semSfcmp
  exact .semCompare

theorem Kept.Slot.semSfcvt {g : Guard} {d a code : BitVec 5} {rz : BitVec 1} : K.Slot (Machine.semSfcvt g d a code rz) := by
  unfold Machine.semSfcvt
  exact .semScalarF

/-! ### The definitions of Sys2Proof/Machine/Control.lean -/

theorem Kept.Holds.leave {c : Ctl} (h : K.Holds s) : K.Holds (s.leave c) := by
  unfold State.leave
  exact .modMe h

theorem Kept.Slot.semPrep {g : Guard} {tb : BitVec 2} {off : BitVec 18} : K.Slot (Machine.semPrep g tb off) := by
  unfold Machine.semPrep
  exact ⟨fun t t1 ht ht1 => .push ht1, fun t t1 ht ht1 => .none⟩

theorem Kept.Slot.semPrepr {g : Guard} {tb : BitVec 2} {a : BitVec 5} : K.Slot (Machine.semPrepr g tb a) := by
  unfold Machine.semPrepr
  exact ⟨fun t t1 ht ht1 => .push ht1, fun t t1 ht ht1 => .none⟩

theorem Kept.Holds.transfer {s0 s : State} {tb : BitVec 2} (h1 : K.Holds s) : K.Holds (s0.transfer s tb) := by
  unfold State.transfer
  exact .modMe h1

theorem Kept.Slot.semBr {g : Guard} {tb : BitVec 2} : K.Slot (Machine.semBr g tb) := by
  unfold Machine.semBr
  exact ⟨fun t t1 ht ht1 => .transfer ht1, fun t t1 ht ht1 => .none⟩

theorem Kept.Slot.semBrl {g : Guard} {tb : BitVec 2} {d : BitVec 5} : K.Slot (Machine.semBrl g tb d) := by
  unfold Machine.semBrl
  exact ⟨fun t t1 ht ht1 => .push (.transfer ht1), fun t t1 ht ht1 => .none⟩

theorem Kept.Holds.loopEff {n : W64} {rot : Bool} {span : ℕ} {s0 s : State} (h1 : K.Holds s) :
    K.Holds (Machine.loopEff n rot span s0 s) := by
  unfold Machine.loopEff
  exact .modMe h1

theorem Kept.Slot.semLoop {g : Guard} {a : BitVec 5} {rot : BitVec 1} {off : BitVec 14} : K.Slot (Machine.semLoop g a rot off) := by
  unfold Machine.semLoop
  exact ⟨fun t t1 ht ht1 => .loopEff ht1, fun t t1 ht ht1 => .none⟩

theorem Kept.Slot.semLoopi {g : Guard} {count : BitVec 10} {rot : BitVec 1} {off : BitVec 9} :
    K.Slot (Machine.semLoopi g count rot off) := by
  unfold Machine.semLoopi
  exact ⟨fun t t1 ht ht1 => .loopEff ht1, fun t t1 ht ht1 => .none⟩

theorem Kept.Slot.semLbrk {g : Guard} : K.Slot (Machine.semLbrk g) := by
  unfold Machine.semLbrk
  refine ⟨fun s0 s h0 h => ?_, fun s0 s h0 h => ?_⟩
  · dsimp only
    exact .modMe h
  · dsimp only
    exact .none

theorem Kept.Slot.semLpop {g : Guard} : K.Slot (Machine.semLpop g) := by
  unfold Machine.semLpop
  refine ⟨fun s0 s h0 h => ?_, fun s0 s h0 h => ?_⟩
  · dsimp only
    exact .modMe h
  · dsimp only
    exact .none

theorem Kept.Slot.semEndTask {g : Guard} : K.Slot (Machine.semEndTask g) := by
  unfold Machine.semEndTask
  refine ⟨fun s0 s h0 h => ?_, fun s0 s h0 h => ?_⟩
  · dsimp only
    exact .leave h
  · dsimp only
    split
    · exact .ite (.some h) .none
    · exact .none

theorem Kept.Slot.semTrap {g : Guard} {code : BitVec 20} : K.Slot (Machine.semTrap g code) := by
  unfold Machine.semTrap
  exact ⟨fun t t1 ht ht1 => ht1, fun t t1 ht ht1 => .none⟩

theorem Kept.Slot.semSys {g : Guard} {a b code : BitVec 5} : K.Slot (Machine.semSys g a b code) := by
  unfold Machine.semSys
  exact ⟨fun t t1 ht ht1 => .leave ht1, fun t t1 ht ht1 => .none⟩

theorem Kept.Slot.semEret {g : Guard} : K.Slot (Machine.semEret g) := by
  unfold Machine.semEret
  exact ⟨fun t t1 ht ht1 => .leave ht1, fun t t1 ht ht1 => .none⟩

theorem Kept.Slot.semYield {g : Guard} : K.Slot (Machine.semYield g) := by
  unfold Machine.semYield
  exact ⟨fun t t1 ht ht1 => .leave ht1, fun t t1 ht ht1 => .none⟩

theorem Kept.Slot.semWait {g : Guard} {a c : BitVec 5} : K.Slot (Machine.semWait g a c) := by
  unfold Machine.semWait
  exact ⟨fun t t1 ht ht1 => .leave ht1, fun t t1 ht ht1 => .none⟩

theorem Kept.Holds.holdOn {h : Hold} (hs : K.Holds s) : K.Holds (s.holdOn h) := by
  unfold State.holdOn
  exact .modMe hs

theorem Kept.Slot.semArrive {g : Guard} {c : BitVec 5} : K.Slot (Machine.semArrive g c) := by
  unfold Machine.semArrive
  exact ⟨fun t t1 ht ht1 => .holdOn ht1, fun t t1 ht ht1 => .none⟩

theorem Kept.Slot.semCsrr {g : Guard} {r : BitVec 5} {num : BitVec 12} : K.Slot (Machine.semCsrr g r num) := by
  unfold Machine.semCsrr
  exact .semReadReg

theorem Kept.Slot.semCsrw {g : Guard} {r : BitVec 5} {num : BitVec 12} : K.Slot (Machine.semCsrw g r num) := by
  unfold Machine.semCsrw
  exact .semWriteReg

theorem Kept.Slot.semBgset {g : Guard} {a : BitVec 5} : K.Slot (Machine.semBgset g a) := by
  unfold Machine.semBgset
  exact ⟨fun t t1 ht ht1 => .ite ht1 (.ite (.postEvent (.modMe ht1)) (.modMe ht1)), fun t t1 ht ht1 => .none⟩

theorem Kept.Slot.semCkpt {g : Guard} : K.Slot (Machine.semCkpt g) := by
  unfold Machine.semCkpt
  exact ⟨fun t t1 ht ht1 => .leave ht1, fun t t1 ht ht1 => .ite (.some ht1) .none⟩

theorem Kept.Slot.semNop {g : Guard} : K.Slot (Machine.semNop g) := by
  unfold Machine.semNop
  exact ⟨fun t t1 ht ht1 => ht1, fun t t1 ht ht1 => .none⟩

/-! ### The definitions of Sys2Proof/Machine/NearMem.lean -/

theorem Kept.Holds.stepAg {s0 s : State} {ag : BitVec 3} {post : BitVec 1} {n : ℕ} (h1 : K.Holds s) : K.Holds (s0.stepAg s ag post n) := by
  unfold State.stepAg
  exact .ite (.modMe h1) h1

theorem Kept.Slot.semLoad {g : Guard} {ro : Bool} {rows : State → List Row} {vdst : Option ℕ}
    {put : State → List (List Byte) → State → State}
    (keeps : ∀ {a : State} {a_1 : List (List Byte)} {a_2 : State}, K.Holds a → K.Holds a_2 → K.Holds (put a a_1 a_2)) :
    K.Slot (Machine.semLoad g ro rows vdst put) := by
  unfold Machine.semLoad
  exact ⟨fun t t1 ht ht1 => keeps ht (.afterLoad ht1), fun t t1 ht ht1 => .accessWait ht1⟩

theorem Kept.Slot.semScalarLoad {g : Guard} {ro : Bool} {d : BitVec 5} {ag : BitVec 3} {post : BitVec 1} {ty : BitVec 3} {off : BitVec 8} :
    K.Slot (Machine.semScalarLoad g ro d ag post ty off) := by
  unfold Machine.semScalarLoad
  exact .semLoad (fun ht ht1 => .stepAg (.push ht1))

theorem Kept.Slot.semVectorLoad {g : Guard} {ro : Bool} {d : BitVec 5} {ag : BitVec 3} {post : BitVec 1} {ty : BitVec 3} {off : BitVec 8} :
    K.Slot (Machine.semVectorLoad g ro d ag post ty off) := by
  unfold Machine.semVectorLoad
  exact .semLoad (fun ht ht1 => .stepAg (.push ht1))

theorem Kept.Slot.semStore {g : Guard} {rows : State → List Row} {src : List ℕ} {data : State → List (List Byte)} {ag : BitVec 3}
    {post : BitVec 1} {n : ℕ} :
    K.Slot (Machine.semStore g rows src data ag post n) := by
  unfold Machine.semStore
  exact ⟨fun t t1 ht ht1 => .stepAg (.storeRows ht ht1), fun t t1 ht ht1 => .accessWait ht1⟩

theorem Kept.Slot.semLd {g : Guard} {d : BitVec 5} {ag : BitVec 3} {post : BitVec 1} {ty : BitVec 3} {off : BitVec 8} :
    K.Slot (Machine.semLd g d ag post ty off) := by
  unfold Machine.semLd
  exact .semScalarLoad

theorem Kept.Slot.semLdRo {g : Guard} {d : BitVec 5} {ag : BitVec 3} {post : BitVec 1} {ty : BitVec 3} {off : BitVec 8} :
    K.Slot (Machine.semLdRo g d ag post ty off) := by
  unfold Machine.semLdRo
  exact .semScalarLoad

theorem Kept.Slot.semSt {g : Guard} {d : BitVec 5} {ag : BitVec 3} {post : BitVec 1} {ty : BitVec 3} {off : BitVec 8} :
    K.Slot (Machine.semSt g d ag post ty off) := by
  unfold Machine.semSt
  exact .semStore

theorem Kept.Slot.semVld {g : Guard} {d : BitVec 5} {ag : BitVec 3} {post : BitVec 1} {ty : BitVec 3} {off : BitVec 8} :
    K.Slot (Machine.semVld g d ag post ty off) := by
  unfold Machine.semVld
  exact .semVectorLoad

theorem Kept.Slot.semVldRo {g : Guard} {d : BitVec 5} {ag : BitVec 3} {post : BitVec 1} {ty : BitVec 3} {off : BitVec 8} :
    K.Slot (Machine.semVldRo g d ag post ty off) := by
  unfold Machine.semVldRo
  exact .semVectorLoad

theorem Kept.Slot.semVst {g : Guard} {d : BitVec 5} {ag : BitVec 3} {post : BitVec 1} {ty : BitVec 3} {off : BitVec 8} :
    K.Slot (Machine.semVst g d ag post ty off) := by
  unfold Machine.semVst
  exact .semStore

theorem Kept.Slot.semAgset {g : Guard} {r : BitVec 5} {ag : BitVec 3} {field : BitVec 4} : K.Slot (Machine.semAgset g r ag field) := by
  unfold Machine.semAgset
  refine ⟨fun s0 s h0 h => ?_, fun s0 s h0 h => ?_⟩
  · dsimp only
    exact .modMe h
  · dsimp only
    exact .none

theorem Kept.Slot.semAgstep {g : Guard} {ag : BitVec 3} {count : BitVec 12} : K.Slot (Machine.semAgstep g ag count) := by
  unfold Machine.semAgstep
  refine ⟨fun s0 s h0 h => ?_, fun s0 s h0 h => ?_⟩
  · dsimp only
    exact .modMe h
  · dsimp only
    exact .none

theorem Kept.Slot.semPref {g : Guard} {ag : BitVec 3} : K.Slot (Machine.semPref g ag) := by
  unfold Machine.semPref
  refine ⟨fun s0 s h0 h => ?_, fun s0 s h0 h => ?_⟩
  · dsimp only
    split
    · exact .tookFree h
    · exact .modHere (.tookFree h)
  · dsimp only
    exact .none

theorem Kept.Holds.cleanLine {c : CoreRef} {line : ℕ} (h : K.Holds s) : K.Holds (s.cleanLine c line) := by
  unfold State.cleanLine
  split
  · exact h
  · exact .modCore (.writeBack h)

theorem Kept.Slot.semClean {g : Guard} {ag : BitVec 3} : K.Slot (Machine.semClean g ag) := by
  unfold Machine.semClean
  refine ⟨fun s0 s h0 h => ?_, fun s0 s h0 h => ?_⟩
  · dsimp only
    split
    · exact .tookFree h
    · exact .cleanLine (.tookFree h)
  · dsimp only
    exact .none

theorem Kept.Holds.dropLine {c : CoreRef} {line : ℕ} (h : K.Holds s) : K.Holds (s.dropLine c line) := by
  unfold State.dropLine
  exact .modCore (.giveBack h)

theorem Kept.Slot.semInval {g : Guard} {ag : BitVec 3} : K.Slot (Machine.semInval g ag) := by
  unfold Machine.semInval
  refine ⟨fun s0 s h0 h => ?_, fun s0 s h0 h => ?_⟩
  · dsimp only
    split
    · exact .tookFree h
    · exact .ite (.cleanLine (.tookFree h)) (.dropLine (.tookFree h))
  · dsimp only
    exact .none

theorem Kept.Holds.phase {n : ℕ} (h : K.Holds s) : K.Holds (s.phase n) := by
  unfold State.phase
  exact .ite (.wipeMoving (.modMe h)) (.modMe h)

theorem Kept.Slot.semPhase {g : Guard} {steps : BitVec 4} : K.Slot (Machine.semPhase g steps) := by
  unfold Machine.semPhase
  exact ⟨fun t t1 ht ht1 => .phase ht1, fun t t1 ht ht1 => .none⟩

theorem Kept.Holds.putTile {tt : BitVec 8} {f : TileEntry → TileEntry} (h : K.Holds s) : K.Holds (s.putTile tt f) := by
  unfold State.putTile
  exact .modHere h

theorem Kept.Slot.semTile {m : SlotSem} {tt : BitVec 8} (hm : K.Slot m) : K.Slot (Machine.semTile m tt) := by
  unfold Machine.semTile
  refine ⟨fun s0 s h0 h => ?_, fun s0 s h0 h => ?_⟩
  · dsimp only
    exact .eff hm h0 h
  · dsimp only
    exact .wait hm h0 h

theorem Kept.Slot.semTtdef {g : Guard} {r : BitVec 5} {tt : BitVec 8} : K.Slot (Machine.semTtdef g r tt) := by
  unfold Machine.semTtdef
  exact .semTile ⟨fun t t1 ht ht1 => .putTile ht1, fun t t1 ht ht1 => .none⟩

theorem Kept.Slot.semTtwait {g : Guard} {r : BitVec 5} {tt : BitVec 8} : K.Slot (Machine.semTtwait g r tt) := by
  unfold Machine.semTtwait
  refine .semTile ⟨fun s0 s h0 h => ?_, fun s0 s h0 h => ?_⟩
  · dsimp only
    exact .modMe h
  · dsimp only
    exact .ite (.some h) .none

theorem Kept.Slot.semTtfree {g : Guard} {tt : BitVec 8} : K.Slot (Machine.semTtfree g tt) := by
  unfold Machine.semTtfree
  exact .semTile ⟨fun t t1 ht ht1 => .putTile ht1, fun t t1 ht ht1 => .ite (.some ht1) .none⟩

theorem Kept.Slot.semTtstat {g : Guard} {d : BitVec 5} {tt : BitVec 8} : K.Slot (Machine.semTtstat g d tt) := by
  unfold Machine.semTtstat
  exact .semTile ⟨fun t t1 ht ht1 => .push ht1, fun t t1 ht ht1 => .none⟩

/-! ### The definitions of Sys2Proof/Machine/Keys.lean -/

theorem Kept.Holds.extendJob {job : ℕ} {d : List Byte} (h : K.Holds s) : K.Holds (s.extendJob job d) := by
  unfold State.extendJob
  exact .updated h

theorem Kept.Holds.removeKey {job : ℕ} (h : K.Holds s) : K.Holds (s.removeKey job) := by
  unfold State.removeKey
  dsimp only
  split
  · exact h
  · exact .updated h

theorem Kept.Holds.noteLock {s s' : State} (h1 : K.Holds s') : K.Holds (s.noteLock s') := by
  unfold State.noteLock
  exact .ite (.updated h1) h1

/-! ### The definitions of Sys2Proof/Machine/Windows.lean -/

theorem Kept.Holds.modLink {die l : ℕ} {f : Link → Link} (h : K.Holds s) : K.Holds (s.modLink die l f) := by
  unfold State.modLink
  exact .modDie h

theorem Kept.Holds.modMonitor {m : MonitorRef} {f : Monitor → Monitor} (h : K.Holds s) : K.Holds (s.modMonitor m f) := by
  unfold State.modMonitor
  exact .modDie h

theorem Kept.Holds.followModule (h : K.Holds s) : K.Holds (s.followModule) := by
  unfold State.followModule
  exact .updated h

theorem Kept.Holds.writeWord {r : Reg} {mask v : W64} (h : K.Holds s) : K.Holds (s.writeWord r mask v) := by
  unfold State.writeWord
  dsimp only
  split
  · exact .modCore h
  · exact .ite (.modPav h) h
  · exact .ite (.modDie h) h
  · exact h
  · exact .ite (.modMonitor h) (.ite (.modMonitor h) h)
  · exact .noteLock (.followModule (.modGate h))
  · exact .modLink h
  · exact .modLink h
  · exact .ite (.updated h) h
  · exact .modBarrier h
  · exact .modDie h
  · exact .ite (.modDie h) h
  · exact h

theorem Kept.Holds.storeSlice {o : ℕ} (h : K.Holds s) : K.Holds (s.storeSlice o) := by
  unfold State.storeSlice
  dsimp only
  split
  · exact h
  · exact .updated h

theorem Kept.Holds.conflict {w : Writer} {o : ℕ} (h : K.Holds s) : K.Holds (s.conflict w o) := by
  unfold State.conflict
  exact .postFault h

theorem Kept.Maybe.writeAt {w : Writer} {o : ℕ} {b : List Byte} (h : K.Holds s) : K.Maybe (s.writeAt w o b) := by
  unfold State.writeAt
  dsimp only
  split
  · exact .some (.storeSlice (.wrote h (fun w => Memory.wf_setBytes _ _ w)))
  · exact .ite (.some (.conflict h)) (.some (.modCore h))
  · exact .ite (.some (.conflict h)) (.some (.modCore h))
  · exact .some h
  · exact .none
  · exact .ite (.some (.writeWord h)) .none
  · exact .none

theorem Kept.Holds.writeRuns {w : Writer} {o : ℕ} {b : List Byte} {x5 : ℕ} (h : K.Holds s) : K.Holds (s.writeRuns w o b x5) := by
  induction x5 generalizing s w o b with
  | zero =>
    unfold State.writeRuns
    exact h
  | succ n ih =>
    unfold State.writeRuns
    exact .ite h (ih (.getD (.writeAt h) h))

theorem Kept.Holds.physWrite {w : Writer} {key o : ℕ} {b : List Byte} (h : K.Holds s) : K.Holds (s.physWrite w key o b).1 := by
  unfold State.physWrite
  exact .iteFst (.iteFst (.pair (.storeHbm h)) h) (.iteFst h (.pair (.writeRuns h)))

/-! ### The definitions of Sys2Proof/Machine/Commands.lean -/

theorem Kept.Slot.semToken {m : SlotSem} {tok : BitVec 6} (hm : K.Slot m) : K.Slot (Machine.semToken m tok) := by
  unfold Machine.semToken
  refine ⟨fun s0 s h0 h => ?_, fun s0 s h0 h => ?_⟩
  · dsimp only
    exact .eff hm h0 h
  · dsimp only
    exact .wait hm h0 h

theorem Kept.Holds.issueCmd {s0 s : State} {kind : CmdKind} {tok : ℕ} {fields : Tbl W64} {deps : List ℕ} {inside : Bool}
    {run : Option TileRun} (h1 : K.Holds s) :
    K.Holds (s0.issueCmd s kind tok fields deps inside run) := by
  unfold State.issueCmd
  exact .modHere (.modMe h1)

theorem Kept.Holds.arrive {r : TaskRef} {entry : ℕ} {parts : List (ℕ × List Byte)} {tc : W64} {within : Bool} (h : K.Holds s) :
    K.Holds (s.arrive r entry parts tc within) := by
  unfold State.arrive
  exact .ite (.postTaskFault h) (.ite (.postTaskFault h) (.modCore (.foldl (fun t x ht => .writeLocal ht) h)))

theorem Kept.Slot.semEdsc {g : Guard} {r : BitVec 5} {e : BitVec 4} {field : BitVec 6} : K.Slot (Machine.semEdsc g r e field) := by
  unfold Machine.semEdsc
  refine ⟨fun s0 s h0 h => ?_, fun s0 s h0 h => ?_⟩
  · dsimp only
    exact .modMe h
  · dsimp only
    exact .none

theorem Kept.Slot.semKwait {g : Guard} {tok : BitVec 6} : K.Slot (Machine.semKwait g tok) := by
  unfold Machine.semKwait
  refine .semToken ⟨fun s0 s h0 h => ?_, fun s0 s h0 h => ?_⟩
  · dsimp only
    exact .modMe h
  · dsimp only
    exact .ite (.some h) .none

theorem Kept.Slot.semKtest {g : Guard} {tok : BitVec 6} {pd : BitVec 3} : K.Slot (Machine.semKtest g tok pd) := by
  unfold Machine.semKtest
  exact .semToken ⟨fun t t1 ht ht1 => .push (.ite (.modMe ht1) ht1), fun t t1 ht ht1 => .none⟩

theorem Kept.Slot.semKrel {g : Guard} {tok : BitVec 6} : K.Slot (Machine.semKrel g tok) := by
  unfold Machine.semKrel
  refine .semToken ⟨fun s0 s h0 h => ?_, fun s0 s h0 h => ?_⟩
  · dsimp only
    exact .modMe h
  · dsimp only
    exact .ite (.some h) .none

/-! ### The definitions of Sys2Proof/Machine/EngineMem.lean -/

theorem Kept.Holds.raiseAgent {die pos : ℕ} {t : W64} (h : K.Holds s) : K.Holds (s.raiseAgent die pos t) := by
  unfold State.raiseAgent
  exact .modDie h

theorem Kept.Holds.spotFails {g : Agent} {t : Trap} (h : K.Holds s) : K.Holds (s.spotFails g t) := by
  unfold State.spotFails
  exact .ite (.askWalk h) h

theorem Kept.Holds.homeLoad {die pos o n key : ℕ} (h : K.Holds s) : K.Holds (s.homeLoad die pos o n key).1 := by
  unfold State.homeLoad
  exact .pair (.raiseAgent (.foldl (fun t a ht => .modLine ht) (.foldl (fun t a ht => .recall ht) h)))

theorem Kept.Holds.farPart {g : Agent} {va : W64} {pa gen : ℕ} {phys : Bool} {n : ℕ} (h : K.Holds s) :
    K.Holds (s.farPart g va pa gen phys n).1 := by
  unfold State.farPart
  dsimp only
  split
  · exact h
  · exact .pair (.sendReq h)

theorem Kept.Holds.farLoad {g : Agent} {va : W64} {pa gen : ℕ} {phys : Bool} {n : ℕ} (h : K.Holds s) :
    K.Holds (s.farLoad g va pa gen phys n).1 := by
  unfold State.farLoad
  exact .iteFst (.farPart h) (.pair (.farPart (.farPart h)))

theorem Kept.Holds.engineRead {g : Agent} {a : W64} {n : ℕ} (h : K.Holds s) : K.Holds (s.engineRead g a n).1 := by
  unfold State.engineRead
  dsimp only
  split
  · exact .pair (.spotFails (.ite (.tookFree h) h))
  · refine .iteFst (.pair (.ite (.tookFree h) h)) ?_
    split
    · exact .pair (.ite (.tookFree h) h)
    · exact .pair (.homeLoad (.ite (.tookFree h) h))
    · exact .pair (.ite (.tookFree h) h)
    · exact .farLoad (.ite (.tookFree h) h)

theorem Kept.Holds.farStore {g : Agent} {pa gen : ℕ} {phys : Bool} {b : List Byte} (h : K.Holds s) :
    K.Holds (s.farStore g pa gen phys b) := by
  unfold State.farStore
  exact .ite (.sendReq h) (.sendReq (.sendReq h))

theorem Kept.Holds.engineWrite {g : Agent} {a : W64} {b : List Byte} (h : K.Holds s) : K.Holds (s.engineWrite g a b).1 := by
  unfold State.engineWrite
  dsimp only
  split
  · exact .pair (.spotFails (.ite (.tookFree h) h))
  · refine .iteFst (.pair (.ite (.tookFree h) h)) ?_
    split
    · exact .pair (.writeLocal (.ite (.tookFree h) h))
    · exact .pair (.farStore (.ite (.tookFree h) h))
    · exact .pair (.physWrite (.ite (.tookFree h) h))
    · exact .pair (.physWrite (.ite (.tookFree h) h))

theorem Kept.Holds.stamp {die pos : ℕ} {lines : List ℕ} (h : K.Holds s) : K.Holds (s.stamp die pos lines).1 := by
  unfold State.stamp
  exact .pair (.raiseAgent (.ite (.foldl (fun t a ht => .modLine ht) h) (.markDie (.foldl (fun t a ht => .modLine ht) h))))

theorem Kept.Holds.dropFar {r : TaskRef} {tok : ℕ} (h : K.Holds s) : K.Holds (s.dropFar r tok) := by
  unfold State.dropFar
  exact .updated h

theorem Kept.Holds.noteRefused {g : Agent} {x : Cmd} {t : Trap} (h : K.Holds s) : K.Holds (s.noteRefused g x t) := by
  unfold State.noteRefused
  exact .ite (.postFault h) h

/-! ### The definitions of Sys2Proof/Machine/Fabric.lean -/

theorem Kept.Holds.modPort {die router port : ℕ} {f : Port → Port} (h : K.Holds s) : K.Holds (s.modPort die router port f) := by
  unfold State.modPort
  exact .modPav h

theorem Kept.Holds.input {die router port : ℕ} {c : Cell} (h : K.Holds s) : K.Holds (s.input die router port c) := by
  unfold State.input
  exact .modPort h

theorem Kept.Holds.emit {die router inp port : ℕ} {c : Cell} (h : K.Holds s) : K.Holds (s.emit die router inp port c) := by
  unfold State.emit
  exact .ite (.input h) (.ite (.input h) (.ite (.output h) (.output h)))

theorem Kept.Holds.postCell {die router cause : ℕ} {rank : Bool} {c : Cell} (h : K.Holds s) :
    K.Holds (s.postCell die router cause rank c) := by
  unfold State.postCell
  exact .postFault h

theorem Kept.Holds.stray {die router : ℕ} {c : Cell} (h : K.Holds s) : K.Holds (s.stray die router c) := by
  unfold State.stray
  exact .postCell (.modDie h)

theorem Kept.Enters.enterQueue {r : TaskRef} {q job : ℕ} {c : Cell} (h : K.Holds s) : K.Enters (s.enterQueue r q job c) := by
  unfold State.enterQueue
  dsimp only
  split
  · exact .stray
  · exact .ite .stray (.ite (.entered (.modTask h)) (.ite .ahead (.ite (.entered (.postFault h)) (.entered (.modTask h)))))

theorem Kept.Holds.toQueue {die router lslot q job : ℕ} {c : Cell} (h : K.Holds s) : K.Holds (s.toQueue die router lslot q job c) := by
  unfold State.toQueue
  split
  · exact Kept.Enters.holds (.enterQueue h) ‹_›
  · exact .modPort h
  · exact .stray h

theorem Kept.Holds.sendOne {c : CoreRef} (h : K.Holds s) : K.Holds (s.sendOne c) := by
  unfold State.sendOne
  split
  · exact h
  · exact .input (.modCore h)

/-! ### The definitions of Sys2Proof/Machine/Late.lean -/

theorem Kept.Holds.lateCell {g : Gang} {p : PortRef} {c : Cell} (h : K.Holds s) : K.Holds (s.lateCell g p c) := by
  unfold State.lateCell
  exact .ite (.modGang (.storeHbm (.storeHbm h))) (.modGang (.storeHbm h))

theorem Kept.Holds.admitCell {p : PortRef} {c : Cell} (h : K.Holds s) : K.Holds (s.admitCell p c) := by
  unfold State.admitCell
  split
  · exact .ite (.lateCell h) (.ite (.input h) (.modGang h))
  · exact .input h

/-! ### The definitions of Sys2Proof/Machine/Links.lean -/

theorem Kept.Holds.andThen {i : Event} (h : K.Holds s) : K.Holds (s.andThen i) := by
  unfold State.andThen
  exact .updated h

theorem Kept.Holds.postKey {die l cause : ℕ} (h : K.Holds s) : K.Holds (s.postKey die l cause) := by
  unfold State.postKey
  exact .post h

theorem Kept.Holds.countKey {die l before : ℕ} (h : K.Holds s) : K.Holds (s.countKey die l before) := by
  unfold State.countKey
  exact .ite (.postKey h) (.ite (.postKey h) h)

theorem Kept.Holds.onWire {die l : ℕ} {w : WireCell} (h : K.Holds s) : K.Holds (s.onWire die l w) := by
  unfold State.onWire
  dsimp only
  split
  · exact .andThen h
  · exact .updated h

theorem Kept.Holds.sendCell {die l : ℕ} {c : Cell} (h : K.Holds s) : K.Holds (s.sendCell die l c) := by
  unfold State.sendCell
  exact .countKey (.onWire (.modLink h))

theorem Kept.Holds.postLoss {die l job : ℕ} (h : K.Holds s) : K.Holds (s.postLoss die l job) := by
  unfold State.postLoss
  exact .postFault h

theorem Kept.Holds.slotTick {p : PortRef} {l : ℕ} (h : K.Holds s) : K.Holds (s.slotTick p l) := by
  unfold State.slotTick
  dsimp only
  split
  · exact .modLink h
  · exact .ite (.ite (.postLoss (.modPort (.modLink h))) (.modPort (.modLink h))) (.sendCell (.modPort (.modLink h)))

theorem Kept.Next.execSlotSend {p : PortRef} (h : K.Holds s) : K.Next (Machine.execSlotSend p s) := by
  unfold Machine.execSlotSend
  refine .next ?_
  split
  · exact .slotTick h
  · refine .ite ?_ h
    split
    · exact .sendOne h
    · exact h

theorem Kept.Holds.control {die l what eseq : ℕ} {i : PortRef → Event} (h : K.Holds s) : K.Holds (s.control die l what eseq i) := by
  unfold State.control
  dsimp only
  split
  · exact .andThen h
  · exact .onWire h

theorem Kept.Holds.failEnd {die l : ℕ} (h : K.Holds s) : K.Holds (s.failEnd die l) := by
  unfold State.failEnd
  exact .ite h (.ite (.foldl (fun t x ht => .onWire ht) (.postFault (.modLink h))) (.foldl (fun t a ht => .postLoss ht) (.postFault
      (.modLink h))))

theorem Kept.Holds.failLink {die l : ℕ} (h : K.Holds s) : K.Holds (s.failLink die l) := by
  unfold State.failLink
  dsimp only
  split
  · exact .failEnd (.failEnd h)
  · exact .failEnd (.failEnd h)
  · exact .failEnd h

theorem Kept.Next.execLinkSignalLoss {p : PortRef} (h : K.Holds s) : K.Next (Machine.execLinkSignalLoss p s) := by
  unfold Machine.execLinkSignalLoss
  refine .next ?_
  split
  · exact .failLink h
  · exact h

theorem Kept.Next.execRetrainTimeout {p : PortRef} (h : K.Holds s) : K.Next (Machine.execRetrainTimeout p s) := by
  unfold Machine.execRetrainTimeout
  refine .next ?_
  split
  · exact .ite h (.failLink h)
  · exact h

theorem Kept.Holds.takeNack {p : PortRef} {c : Cell} (h : K.Holds s) : K.Holds (s.takeNack p c) := by
  unfold State.takeNack
  dsimp only
  refine .ite (.admitCell ?_) (.modPort ?_)
  · split
    · exact .modLink h
    · exact h
  · split
    · exact .modLink h
    · exact h

theorem Kept.Holds.passOn {p : PortRef} {c : Cell} (h : K.Holds s) : K.Holds (s.passOn p c) := by
  unfold State.passOn
  exact .ite (.output h) (.output h)

theorem Kept.Holds.dispatchCell {p : PortRef} {c : Cell} (h : K.Holds s) : K.Holds (s.dispatchCell p c) := by
  unfold State.dispatchCell
  dsimp only
  split
  · exact .ite (.passOn h) (.admitCell h)
  · exact .ite (.passOn h) (.admitCell h)
  · exact .ite (.passOn h) (.admitCell h)
  · exact .ite (.andThen h) (.passOn h)
  · exact .ite (.andThen h) (.passOn h)
  · exact .ite (.andThen h) (.passOn h)
  · exact .ite (.andThen h) (.passOn h)
  · exact .ite (.andThen h) (.passOn h)
  · exact .andThen h
  · exact .andThen h
  · exact .ite (.andThen h) (.passOn h)
  · exact .ite h (.passOn h)
  · exact .modGate h
  · exact .modGate h
  · exact .modGate h
  · exact h

theorem Kept.Holds.acceptCell {p : PortRef} {l : ℕ} {w : WireCell} (h : K.Holds s) : K.Holds (s.acceptCell p l w) := by
  unfold State.acceptCell
  exact .dispatchCell (.ite (.modLink h) (.control (.modLink h)))

theorem Kept.Holds.rejectCell {p : PortRef} {l : ℕ} {auth : Bool} (h : K.Holds s) : K.Holds (s.rejectCell p l auth) := by
  unfold State.rejectCell
  exact .ite (.failLink (.modLink h)) (.control (.modLink h))

theorem Kept.Holds.wrapEnd {p : PortRef} {l : ℕ} {w : WireCell} (h : K.Holds s) : K.Holds (s.wrapEnd p l w) := by
  unfold State.wrapEnd
  exact .ite (.acceptCell h) h

theorem Kept.Holds.wrapRack {p : PortRef} {l : ℕ} {w : WireCell} (h : K.Holds s) : K.Holds (s.wrapRack p l w) := by
  unfold State.wrapRack
  exact .ite h (.ite (.modLink h) (.ite (.wrapEnd h) (.updated h)))

theorem Kept.Next.execLinkCellReceive {p : PortRef} {w : WireCell} (h : K.Holds s) : K.Next (Machine.execLinkCellReceive p w s) := by
  unfold Machine.execLinkCellReceive
  dsimp only
  refine .next ?_
  split
  · exact h
  · exact .ite h (.ite (.ite (.wrapRack h) (.wrapEnd h)) (.ite h (.ite (.rejectCell h) (.ite (.rejectCell h) (.acceptCell h)))))

theorem Kept.Holds.endSwitch {die l status : ℕ} (h : K.Holds s) : K.Holds (s.endSwitch die l status) := by
  unfold State.endSwitch
  dsimp only
  split
  · exact .ite (.ite (.modTask (.modTask h)) (.modTask (.modTask h))) h
  · exact h

theorem Kept.Next.execLinkAck {p : PortRef} {eseq : ℕ} (h : K.Holds s) : K.Next (Machine.execLinkAck p eseq s) := by
  unfold Machine.execLinkAck
  dsimp only
  refine .next ?_
  split
  · exact h
  · exact .ite (.endSwitch (.modLink (.modLink h))) (.modLink h)

theorem Kept.Holds.resend {die l : ℕ} {cells : List (ℕ × ℕ × Cell)} (h : K.Holds s) : K.Holds (s.resend die l cells) := by
  unfold State.resend
  exact .foldl (fun t x ht => .onWire ht) h

theorem Kept.Next.execReplayRequest {p : PortRef} {eseq : ℕ} (h : K.Holds s) : K.Next (Machine.execReplayRequest p eseq s) := by
  unfold Machine.execReplayRequest
  dsimp only
  refine .next ?_
  split
  · exact h
  · exact .resend (.modLink h)

theorem Kept.Next.execLinkTrained {p : PortRef} (h : K.Holds s) : K.Next (Machine.execLinkTrained p s) := by
  unfold Machine.execLinkTrained
  dsimp only
  refine .next ?_
  split
  · exact h
  · exact .resend (.modLink h)

theorem Kept.Holds.circulate {p : PortRef} {c : Cell} (h : K.Holds s) : K.Holds (s.circulate p c) := by
  unfold State.circulate
  exact .modPort h

theorem Kept.Holds.sendNack {p : PortRef} {c : Cell} (h : K.Holds s) : K.Holds (s.sendNack p c) := by
  unfold State.sendNack
  split
  · exact h
  · split
    · exact .andThen h
    · exact .output h

theorem Kept.Next.execRingRefusal {p : PortRef} {cell : Cell} (h : K.Holds s) : K.Next (Machine.execRingRefusal p cell s) := by
  unfold Machine.execRingRefusal
  exact .next (.ite (.sendNack h) (.circulate h))

theorem Kept.Next.execNack {p : PortRef} {cell : Cell} (h : K.Holds s) : K.Next (Machine.execNack p cell s) := by
  unfold Machine.execNack
  exact .next (.takeNack h)

theorem Kept.Next.execNackResend {p : PortRef} (h : K.Holds s) : K.Next (Machine.execNackResend p s) := by
  unfold Machine.execNackResend
  refine .next (.ite h ?_)
  split
  · exact h
  · exact .modPort h

theorem Kept.Next.execModuleLoss {p : PortRef} (h : K.Holds s) : K.Next (Machine.execModuleLoss p s) := by
  unfold Machine.execModuleLoss
  dsimp only
  refine .next ?_
  split
  · exact h
  · exact .modLink (.foldl (fun t a ht => .updated (.postLoss ht)) (.tookFree (.modGate h)))

theorem Kept.Next.execKeyMarker {p : PortRef} {slot : ℕ} (h : K.Holds s) : K.Next (Machine.execKeyMarker p slot s) := by
  unfold Machine.execKeyMarker
  refine .next ?_
  split
  · exact h
  · exact .ite (.modLink h) (.control h)

theorem Kept.Next.execKeyRefusal {p : PortRef} (h : K.Holds s) : K.Next (Machine.execKeyRefusal p s) := by
  unfold Machine.execKeyRefusal
  dsimp only
  refine .next ?_
  split
  · exact h
  · exact .ite h (.endSwitch (.resend (.countKey (.modLink h))))

theorem Kept.Holds.beginSwitch {die l slot : ℕ} (h : K.Holds s) : K.Holds (s.beginSwitch die l slot) := by
  unfold State.beginSwitch
  exact .modLink (.onWire h)

/-! ### The definitions of Sys2Proof/Machine/Multicast.lean -/

theorem Kept.Holds.mcOut {die router inp port : ℕ} {c : Cell} (h : K.Holds s) : K.Holds (s.mcOut die router inp port c) := by
  unfold State.mcOut
  exact .ite (.input h) (.output h)

theorem Kept.Holds.mcHead {die router inp : ℕ} {c : Cell} (h : K.Holds s) : K.Holds (s.mcHead die router inp c) := by
  unfold State.mcHead
  exact .modPav (.foldl (fun t x ht => .mcOut ht) h)

theorem Kept.Holds.mcBodyCell {die router inp : ℕ} {c : Cell} (h : K.Holds s) : K.Holds (s.mcBodyCell die router inp c).1 := by
  unfold State.mcBodyCell
  dsimp only
  split
  · exact h
  · exact .pair (.modPav (.ite (.foldl (fun t x ht => .foldl (fun t1 a ht1 => .mcOut ht1) ht) (.foldl (fun t a ht => .mcOut ht) h)) (.foldl
      (fun t a ht => .mcOut ht) h)))

/-! ### The definitions of Sys2Proof/Machine/Pavilion.lean -/

theorem Kept.Holds.writeAcc {die router slot : ℕ} {b : List Byte} (h : K.Holds s) : K.Holds (s.writeAcc die router slot b) := by
  unfold State.writeAcc
  exact .wrote h (fun w => Memory.wf_setBytes _ _ w)

theorem Kept.Holds.raisePav {die router : ℕ} {f : Flags} (h : K.Holds s) : K.Holds (s.raisePav die router f) := by
  unfold State.raisePav
  exact .ite h (.modPav h)

theorem Kept.Holds.foldTerm {die router : ℕ} {e : FlowEntry} {l : ℕ} {first psn : Bool} {term : List Byte} (h : K.Holds s) :
    K.Holds (s.foldTerm die router e l first psn term) := by
  unfold State.foldTerm
  exact .ite h (.raisePav (.writeAcc h))

theorem Kept.Holds.emitFold {die router : ℕ} {e : FlowEntry} {l rank cidx : ℕ} {psn : Bool} (h : K.Holds s) :
    K.Holds (s.emitFold die router e l rank cidx psn) := by
  unfold State.emitFold
  exact .ite (.tookFree (.emit h)) (.emit (.raisePav h))

theorem Kept.Holds.keepRank {die router n : ℕ} {e : FlowEntry} {l : ℕ} {c : Cell} (h : K.Holds s) :
    K.Holds (s.keepRank die router n e l c) := by
  unfold State.keepRank
  dsimp only
  refine .modPav ?_
  split
  · exact .writeAcc h
  · exact h

theorem Kept.Holds.foldNext {die router n : ℕ} {e : FlowEntry} {l cidx : ℕ} {psn : Bool} {term : List Byte} (h : K.Holds s) :
    K.Holds (s.foldNext die router n e l cidx psn term) := by
  unfold State.foldNext
  exact .modPav (.ite (.emitFold (.foldTerm h)) (.ite (.emitFold (.foldTerm h)) (.foldTerm h)))

theorem Kept.Holds.foldHeld {die router n : ℕ} {e : FlowEntry} {l cidx x7 : ℕ} {x8 : State} (h : K.Holds x8) :
    K.Holds (State.foldHeld die router n e l cidx x7 x8) := by
  induction x7 generalizing die router n e l cidx x8 with
  | zero =>
    unfold State.foldHeld
    exact h
  | succ n ih =>
    unfold State.foldHeld
    exact .ite (ih (.foldNext h)) h

theorem Kept.Takes.ordered {die router n : ℕ} {e : FlowEntry} {l : ℕ} {c : Cell} (h : K.Holds s) :
    K.Takes (s.ordered die router n e l c) := by
  unfold State.ordered
  exact .ite .refused (.ite (.taken (.foldHeld (.foldNext h))) (.taken (.keepRank h)))

theorem Kept.Takes.unordered {die router n : ℕ} {e : FlowEntry} {l : ℕ} {c : Cell} (h : K.Holds s) :
    K.Takes (s.unordered die router n e l c) := by
  unfold State.unordered
  exact .ite .refused (.ite (.taken (.modPav (.emitFold (.foldTerm h)))) (.taken (.modPav (.foldTerm h))))

theorem Kept.Takes.combine {die router n : ℕ} {e : FlowEntry} {l : ℕ} {c : Cell} (h : K.Holds s) :
    K.Takes (s.combine die router n e l c) := by
  unfold State.combine
  exact .ite (.taken (.postCell h)) (.ite (.ordered h) (.unordered h))

theorem Kept.Takes.holdCell {die router inp n : ℕ} {e : FlowEntry} {c : Cell} (h : K.Holds s) :
    K.Takes (s.holdCell die router inp n e c) := by
  unfold State.holdCell
  exact .ite (.taken (.postCell h)) (.ite (.taken (.modPav (.writeAcc h))) (.taken (.foldl (fun t x ht => .emit ht) (.modPav (.writeAcc
      h)))))

theorem Kept.Takes.transpose {die router n : ℕ} {e : FlowEntry} {l : ℕ} {c : Cell} (h : K.Holds s) :
    K.Takes (s.transpose die router n e l c) := by
  unfold State.transpose
  exact .ite (.taken (.postCell h)) (.ite .refused (.ite (.taken (.modPav (.writeAcc h))) (.taken (.foldl (fun t a ht => .emit ht) (.modPav
      (.writeAcc h))))))

theorem Kept.Holds.deliverNear {die router : ℕ} {e : FlowEntry} {l : ℕ} {c : Cell} (h : K.Holds s) :
    K.Holds (s.deliverNear die router e l c) := by
  unfold State.deliverNear
  exact .ite (.postCell h) (.ite (.arrive h) (.postFault h))

theorem Kept.Holds.deliverGlobal {die router : ℕ} {e : FlowEntry} {l : ℕ} {c : Cell} (h : K.Holds s) :
    K.Holds (s.deliverGlobal die router e l c) := by
  unfold State.deliverGlobal
  dsimp only
  refine .ite (.postCell h) ?_
  split
  · exact .stamp (.engineWrite h)
  · exact .postCell (.engineWrite h)

theorem Kept.Holds.deliverCell {die router : ℕ} {e : FlowEntry} {l : ℕ} {c : Cell} (h : K.Holds s) :
    K.Holds (s.deliverCell die router e l c) := by
  unfold State.deliverCell
  split
  · exact .toQueue h
  · exact .deliverNear h
  · exact .deliverGlobal h

theorem Kept.Holds.duplicate {die router inp : ℕ} {e : FlowEntry} {l : ℕ} {c : Cell} (h : K.Holds s) :
    K.Holds (s.duplicate die router inp e l c) := by
  unfold State.duplicate
  exact .foldl (fun t a ht => .ite ht (.ite (.deliverCell ht) (.emit ht))) h

theorem Kept.Takes.offer {die router inp : ℕ} {c : Cell} (h : K.Holds s) : K.Takes (s.offer die router inp c) := by
  unfold State.offer
  dsimp only
  split
  · exact .stray
  · split
    · exact .taken (.emit h)
    · exact .combine h
    · exact .ite .waits (.taken (.duplicate h))
    · exact .holdCell h
    · exact .combine h
    · exact .transpose h
    · exact .ite .waits (.taken (.deliverCell h))

theorem Kept.Holds.countRefusal {die router : ℕ} (h : K.Holds s) : K.Holds (s.countRefusal die router) := by
  unfold State.countRefusal
  exact .modPav h

theorem Kept.Holds.retryPort {die router : ℕ} {of : Cell} {x4 : ℕ} {x5 : List Cell} {x6 : State} (h : K.Holds x6) :
    K.Holds (State.retryPort die router of x4 x5 x6).1 := by
  induction x5 generalizing die router of x4 x6 with
  | nil =>
    unfold State.retryPort
    exact h
  | cons a l ih =>
    unfold State.retryPort
    dsimp only
    refine .iteFst ?_ (.pair (ih h))
    split
    · exact .pair (ih (Kept.Takes.holds (.offer h) ‹_›))
    · exact .pair (ih (.countRefusal h))
    · exact .pair (ih h)

theorem Kept.Holds.retryPorts {die router : ℕ} {of : Cell} (h : K.Holds s) : K.Holds (s.retryPorts die router of).1 := by
  unfold State.retryPorts
  exact .foldlFst (fun x a ht => .pair (.modPort (.retryPort ht))) h

theorem Kept.Holds.retryAll {die router : ℕ} {of : Cell} {x4 : ℕ} {x5 : State} (h : K.Holds x5) :
    K.Holds (State.retryAll die router of x4 x5) := by
  induction x4 generalizing die router of x5 with
  | zero =>
    unfold State.retryAll
    exact h
  | succ n ih =>
    unfold State.retryAll
    exact .ite (ih (.retryPorts h)) (.retryPorts h)

theorem Kept.Holds.afterTaken {die router : ℕ} {c : Cell} {advanced : Bool} (h : K.Holds s) :
    K.Holds (s.afterTaken die router c advanced) := by
  unfold State.afterTaken
  exact .ite (.retryAll h) h

/-! ### The definitions of Sys2Proof/Machine/Matrix.lean -/

theorem Kept.Slot.semArray {m : SlotSem} (hm : K.Slot m) : K.Slot (Machine.semArray m) := by
  unfold Machine.semArray
  refine ⟨fun s0 s h0 h => ?_, fun s0 s h0 h => ?_⟩
  · dsimp only
    exact .eff hm h0 h
  · dsimp only
    exact .wait hm h0 h

theorem Kept.Slot.semNaming {names : State → List ℕ} {m : SlotSem} (hm : K.Slot m) : K.Slot (Machine.semNaming names m) := by
  unfold Machine.semNaming
  refine .semArray ⟨fun s0 s h0 h => ?_, fun s0 s h0 h => ?_⟩
  · dsimp only
    exact .eff hm h0 h
  · dsimp only
    exact .ite (.some h) (.wait hm h0 h)

theorem Kept.Slot.semMclaim {g : Guard} {d : BitVec 5} {idx : BitVec 6} : K.Slot (Machine.semMclaim g d idx) := by
  unfold Machine.semMclaim
  exact .semArray ⟨fun t t1 ht ht1 => .push (.modHere ht1), fun t t1 ht ht1 => .none⟩

theorem Kept.Holds.logRows {c : CoreRef} {slot a row n w : ℕ} (h : K.Holds s) : K.Holds (s.logRows c slot a row n w) := by
  unfold State.logRows
  exact .foldl (fun t a1 ht => .logFor ht) h

theorem Kept.Holds.giveSlot {c : CoreRef} {n : ℕ} (h : K.Holds s) : K.Holds (s.giveSlot c n) := by
  unfold State.giveSlot
  exact .modCore (.wrote h (fun w => Memory.wf_filter _ w))

theorem Kept.Slot.semMrel {g : Guard} {idx : BitVec 6} : K.Slot (Machine.semMrel g idx) := by
  unfold Machine.semMrel
  exact .semNaming ⟨fun t t1 ht ht1 => .ite (.giveSlot (.logRows ht1)) (.modHere ht1), fun t t1 ht ht1 => .ite (.some ht1) .none⟩

theorem Kept.Slot.semMsplit {g : Guard} {idx : BitVec 6} : K.Slot (Machine.semMsplit g idx) := by
  unfold Machine.semMsplit
  refine .semNaming ⟨fun s0 s h0 h => ?_, fun s0 s h0 h => ?_⟩
  · dsimp only
    exact .modHere h
  · dsimp only
    exact .ite (.some h) .none

theorem Kept.Slot.semMskip {g : Guard} {idx : BitVec 6} : K.Slot (Machine.semMskip g idx) := by
  unfold Machine.semMskip
  refine .semArray ⟨fun s0 s h0 h => ?_, fun s0 s h0 h => ?_⟩
  · dsimp only
    exact .modMe h
  · dsimp only
    exact .none

theorem Kept.Holds.zeroUnits {c : CoreRef} {slot n u cols : ℕ} (h : K.Holds s) : K.Holds (s.zeroUnits c slot n u cols) := by
  unfold State.zeroUnits
  exact .wrote (.logRows h) (fun w => Memory.wf_filter _ w)

theorem Kept.Slot.semMcfg {g : Guard} {r : BitVec 5} {idx : BitVec 6} : K.Slot (Machine.semMcfg g r idx) := by
  unfold Machine.semMcfg
  exact .semNaming ⟨fun t t1 ht ht1 => .ite (.modHere ht1) (.modHere (.zeroUnits ht1)), fun t t1 ht ht1 => .ite (.some ht1) .none⟩

theorem Kept.Slot.semMzero {g : Guard} {idx : BitVec 6} : K.Slot (Machine.semMzero g idx) := by
  unfold Machine.semMzero
  refine .semNaming ⟨fun s0 s h0 h => ?_, fun s0 s h0 h => ?_⟩
  · dsimp only
    exact .modHere (.zeroUnits h)
  · dsimp only
    exact .ite (.some h) .none

theorem Kept.Maybe.unitWait {n : ℕ} {s0 s : State} (h1 : K.Holds s) : K.Maybe (Machine.unitWait n s0 s) := by
  unfold Machine.unitWait
  exact .ite (.some h1) .none

theorem Kept.Slot.semMrd {g : Guard} {v : BitVec 5} {tile : BitVec 6} {part : BitVec 2} : K.Slot (Machine.semMrd g v tile part) := by
  unfold Machine.semMrd
  exact .semNaming ⟨fun t t1 ht ht1 => .push ht1, fun t t1 ht ht1 => .unitWait ht1⟩

theorem Kept.Slot.semMwr {g : Guard} {v : BitVec 5} {tile : BitVec 6} {part : BitVec 2} : K.Slot (Machine.semMwr g v tile part) := by
  unfold Machine.semMwr
  refine .semNaming ⟨fun s0 s h0 h => ?_, fun s0 s h0 h => ?_⟩
  · dsimp only
    exact .modHere (.wrote (.logRows h) (fun w => Memory.wf_setBytes _ _ w))
  · dsimp only
    exact .unitWait h

theorem Kept.Holds.runLatches {c : CoreRef} {x2 x3 : List MCmd} {x4 : State} (h : K.Holds x4) : K.Holds (State.runLatches c x2 x3 x4) := by
  induction x3 generalizing c x2 x4 with
  | nil =>
    unfold State.runLatches
    exact .modCore h
  | cons a l ih =>
    unfold State.runLatches
    dsimp only
    split
    · exact .ite (ih h) (ih (.modCore h))
    · exact ih h

theorem Kept.Holds.latchAll {c : CoreRef} (h : K.Holds s) : K.Holds (s.latchAll c) := by
  unfold State.latchAll
  exact .runLatches h

theorem Kept.Slot.semMlatch {g : Guard} {r : BitVec 5} {idx : BitVec 6} : K.Slot (Machine.semMlatch g r idx) := by
  unfold Machine.semMlatch
  exact .semNaming ⟨fun t t1 ht ht1 => .latchAll (.modHere ht1), fun t t1 ht ht1 => .none⟩

theorem Kept.Holds.joinOrder {tok : ℕ} (h : K.Holds s) : K.Holds (s.joinOrder tok) := by
  unfold State.joinOrder
  exact .modHere h

theorem Kept.Slot.semMstrm {g : Guard} {tok : BitVec 6} {e : BitVec 4} {tile : BitVec 6} : K.Slot (Machine.semMstrm g tok e tile) := by
  unfold Machine.semMstrm
  exact .semNaming (.semToken ⟨fun t t1 ht ht1 => .joinOrder (.issueCmd ht1), fun t t1 ht ht1 => .none⟩)

theorem Kept.Slot.semMout {g : Guard} {tok : BitVec 6} {e : BitVec 4} {tile : BitVec 6} : K.Slot (Machine.semMout g tok e tile) := by
  unfold Machine.semMout
  exact .semNaming (.semToken ⟨fun t t1 ht ht1 => .joinOrder (.issueCmd ht1), fun t t1 ht ht1 => .none⟩)

theorem Kept.Holds.leaveOrder {c : CoreRef} {slot tok : ℕ} (h : K.Holds s) : K.Holds (s.leaveOrder c slot tok) := by
  unfold State.leaveOrder
  exact .latchAll (.modCore h)

theorem Kept.Holds.endMatrix {c : CoreRef} {ptok slot cause : ℕ} (h : K.Holds s) : K.Holds (s.endMatrix c ptok slot cause) := by
  unfold State.endMatrix
  exact .endCmd (.leaveOrder h)

theorem Kept.Holds.streamOne {c : CoreRef} {slot : ℕ} {within : Bool} {n : ℕ} {f : Tbl W64} {l : Latch} {d cols : ℕ} {a : State × Flags}
    {m : ℕ} (h : K.Holds a.1) :
    K.Holds (State.streamOne c slot within n f l d cols a m).1 := by
  unfold State.streamOne
  exact .pair (.wrote (.ite (.logFor h) h) (fun w => Memory.wf_setBytes _ _ w))

theorem Kept.Holds.countCycles {c : CoreRef} {slot : ℕ} (h : K.Holds s) : K.Holds (s.countCycles c slot) := by
  unfold State.countCycles
  split
  · exact h
  · exact .tookFree (.modCore h)

theorem Kept.Holds.stream {c : CoreRef} {x : Cmd} {n : ℕ} (h : K.Holds s) : K.Holds (s.stream c x n) := by
  unfold State.stream
  dsimp only
  split
  · exact h
  · exact .ite (.countCycles (.modCore (.foldlFst (fun x1 a ht => .streamOne ht) h))) (.modCore (.foldlFst (fun x1 a ht => .streamOne ht)
      h))

theorem Kept.Next.execStreamStart {c : CoreRef} {tok : ℕ} (h : K.Holds s) : K.Next (Machine.execStreamStart c tok s) := by
  unfold Machine.execStreamStart
  refine .next ?_
  split
  · split
    · exact .ite h (.ite (.endMatrix h) (.modCore h))
    · exact h
  · exact h

theorem Kept.Next.execStreamComplete {c : CoreRef} {tok : ℕ} (h : K.Holds s) : K.Next (Machine.execStreamComplete c tok s) := by
  unfold Machine.execStreamComplete
  refine .next ?_
  split
  · split
    · exact .ite (.endMatrix (.stream h)) h
    · exact h
  · exact h

theorem Kept.Holds.outCell {r : TaskRef} {within : Bool} {f : Tbl W64} {x : ℕ × List Byte} (h : K.Holds s) :
    K.Holds (State.outCell r within f s x) := by
  unfold State.outCell
  refine .ite (.writeLocal h) ?_
  split
  · exact .arrive h
  · exact .writeLocal h

theorem Kept.Holds.outRow {r : TaskRef} {within : Bool} {n cols : ℕ} {f : Tbl W64} {a : State × Flags} {m : ℕ} (h : K.Holds a.1) :
    K.Holds (State.outRow r within n cols f a m).1 := by
  unfold State.outRow
  exact .pair (.foldl (fun t x ht => .outCell ht) h)

theorem Kept.Next.execMoutComplete {c : CoreRef} {tok : ℕ} (h : K.Holds s) : K.Next (Machine.execMoutComplete c tok s) := by
  unfold Machine.execMoutComplete
  dsimp only
  refine .next ?_
  split
  · split
    · exact .ite h (.ite (.endMatrix h) (.ite h (.endMatrix (.modCore (.foldlFst (fun x a ht => .outRow ht) h)))))
    · exact h
  · exact h

/-! ### The definitions of Sys2Proof/Machine/Place.lean -/

theorem Kept.Holds.zeroWindow {c : CoreRef} {base n : ℕ} (h : K.Holds s) : K.Holds (s.zeroWindow c base n) := by
  unfold State.zeroWindow
  exact .wrote h (fun w => Memory.wf_filter _ w)

theorem Kept.Holds.giveAll {r : TaskRef} (h : K.Holds s) : K.Holds (s.giveAll r) := by
  unfold State.giveAll
  exact .foldl (fun t a ht => .ite (.modCore ht) ht) (.foldl (fun t a ht => .ite (.giveSlot ht) ht) h)

theorem Kept.Holds.freeSlotOf {r : TaskRef} (h : K.Holds s) : K.Holds (s.freeSlotOf r) := by
  unfold State.freeSlotOf
  dsimp only
  split
  · exact h
  · exact .putTask (.modCore (.giveAll (.zeroWindow h)))

/-! ### The definitions of Sys2Proof/Machine/Vector.lean -/

theorem Kept.Slot.semVec {g : Guard} {lat : ℕ} {d : BitVec 5} {src : List ℕ} {f : State → Cells} :
    K.Slot (Machine.semVec g lat d src f) := by
  unfold Machine.semVec
  exact ⟨fun t t1 ht ht1 => .push ht1, fun t t1 ht ht1 => .none⟩

theorem Kept.Slot.semLanes {g : Guard} {lat : ℕ} {d : BitVec 4} {src : List ℕ} {f : State → Lanes} :
    K.Slot (Machine.semLanes g lat d src f) := by
  unfold Machine.semLanes
  exact ⟨fun t t1 ht ht1 => .push ht1, fun t t1 ht ht1 => .none⟩

theorem Kept.Slot.semVadd {g : Guard} {d a b : BitVec 5} {ty : BitVec 3} {mode : BitVec 2} : K.Slot (Machine.semVadd g d a b ty mode) := by
  unfold Machine.semVadd
  exact .semVec

theorem Kept.Slot.semVsub {g : Guard} {d a b : BitVec 5} {ty : BitVec 3} {mode : BitVec 2} : K.Slot (Machine.semVsub g d a b ty mode) := by
  unfold Machine.semVsub
  exact .semVec

theorem Kept.Slot.semVmul {g : Guard} {d a b : BitVec 5} {ty : BitVec 3} {mode : BitVec 2} : K.Slot (Machine.semVmul g d a b ty mode) := by
  unfold Machine.semVmul
  exact .semVec

theorem Kept.Slot.semVfma {g : Guard} {d a b : BitVec 5} {ty : BitVec 3} {mode : BitVec 2} : K.Slot (Machine.semVfma g d a b ty mode) := by
  unfold Machine.semVfma
  exact .semVec

theorem Kept.Slot.semVfms {g : Guard} {d a b : BitVec 5} {ty : BitVec 3} {mode : BitVec 2} : K.Slot (Machine.semVfms g d a b ty mode) := by
  unfold Machine.semVfms
  exact .semVec

theorem Kept.Slot.semVmin {g : Guard} {d a b : BitVec 5} {ty : BitVec 3} : K.Slot (Machine.semVmin g d a b ty) := by
  unfold Machine.semVmin
  exact .semVec

theorem Kept.Slot.semVmax {g : Guard} {d a b : BitVec 5} {ty : BitVec 3} : K.Slot (Machine.semVmax g d a b ty) := by
  unfold Machine.semVmax
  exact .semVec

theorem Kept.Slot.semVadds {g : Guard} {d a b : BitVec 5} {ty : BitVec 3} : K.Slot (Machine.semVadds g d a b ty) := by
  unfold Machine.semVadds
  exact .semVec

theorem Kept.Slot.semVsubs {g : Guard} {d a b : BitVec 5} {ty : BitVec 3} : K.Slot (Machine.semVsubs g d a b ty) := by
  unfold Machine.semVsubs
  exact .semVec

theorem Kept.Slot.semVmulh {g : Guard} {d a b : BitVec 5} {ty : BitVec 3} : K.Slot (Machine.semVmulh g d a b ty) := by
  unfold Machine.semVmulh
  exact .semVec

theorem Kept.Slot.semVabs {g : Guard} {d a : BitVec 5} {ty : BitVec 3} : K.Slot (Machine.semVabs g d a ty) := by
  unfold Machine.semVabs
  exact .semVec

theorem Kept.Slot.semVneg {g : Guard} {d a : BitVec 5} {ty : BitVec 3} : K.Slot (Machine.semVneg g d a ty) := by
  unfold Machine.semVneg
  exact .semVec

theorem Kept.Slot.semVnot {g : Guard} {d a : BitVec 5} : K.Slot (Machine.semVnot g d a) := by
  unfold Machine.semVnot
  exact .semVec

theorem Kept.Slot.semVand {g : Guard} {d a b : BitVec 5} : K.Slot (Machine.semVand g d a b) := by
  unfold Machine.semVand
  exact .semVec

theorem Kept.Slot.semVor {g : Guard} {d a b : BitVec 5} : K.Slot (Machine.semVor g d a b) := by
  unfold Machine.semVor
  exact .semVec

theorem Kept.Slot.semVxor {g : Guard} {d a b : BitVec 5} : K.Slot (Machine.semVxor g d a b) := by
  unfold Machine.semVxor
  exact .semVec

theorem Kept.Slot.semVshl {g : Guard} {d a b : BitVec 5} {ty : BitVec 3} : K.Slot (Machine.semVshl g d a b ty) := by
  unfold Machine.semVshl
  exact .semVec

theorem Kept.Slot.semVshr {g : Guard} {d a b : BitVec 5} {ty : BitVec 3} : K.Slot (Machine.semVshr g d a b ty) := by
  unfold Machine.semVshr
  exact .semVec

theorem Kept.Slot.semVsra {g : Guard} {d a b : BitVec 5} {ty : BitVec 3} : K.Slot (Machine.semVsra g d a b ty) := by
  unfold Machine.semVsra
  exact .semVec

theorem Kept.Slot.semVcmp {g : Guard} {ch : BitVec 1} {d : BitVec 4} {a b : BitVec 5} {ty : BitVec 3} {cl : BitVec 2} :
    K.Slot (Machine.semVcmp g ch d a b ty cl) := by
  unfold Machine.semVcmp
  exact .semLanes

theorem Kept.Slot.semVsel {g : Guard} {d a b : BitVec 5} {q : BitVec 4} : K.Slot (Machine.semVsel g d a b q) := by
  unfold Machine.semVsel
  exact .semVec

theorem Kept.Slot.semVmov {g : Guard} {d a : BitVec 5} : K.Slot (Machine.semVmov g d a) := by
  unfold Machine.semVmov
  exact .semVec

theorem Kept.Slot.semVsplat {g : Guard} {d a : BitVec 5} {ty : BitVec 3} : K.Slot (Machine.semVsplat g d a ty) := by
  unfold Machine.semVsplat
  exact .semVec

theorem Kept.Slot.semViotaRow {g : Guard} {d : BitVec 5} : K.Slot (Machine.semViotaRow g d) := by
  unfold Machine.semViotaRow
  exact .semVec

theorem Kept.Slot.semViotaCol {g : Guard} {d : BitVec 5} : K.Slot (Machine.semViotaCol g d) := by
  unfold Machine.semViotaCol
  exact .semVec

theorem Kept.Slot.semViotaLin {g : Guard} {d : BitVec 5} : K.Slot (Machine.semViotaLin g d) := by
  unfold Machine.semViotaLin
  exact .semVec

theorem Kept.Slot.semVbrow {g : Guard} {d a : BitVec 5} {n : BitVec 6} : K.Slot (Machine.semVbrow g d a n) := by
  unfold Machine.semVbrow
  exact .semVec

theorem Kept.Slot.semVbcol {g : Guard} {d a : BitVec 5} {n : BitVec 6} : K.Slot (Machine.semVbcol g d a n) := by
  unfold Machine.semVbcol
  exact .semVec

theorem Kept.Slot.semVrotr {g : Guard} {d a : BitVec 5} {n : BitVec 6} : K.Slot (Machine.semVrotr g d a n) := by
  unfold Machine.semVrotr
  exact .semVec

theorem Kept.Slot.semVrotc {g : Guard} {d a : BitVec 5} {n : BitVec 6} : K.Slot (Machine.semVrotc g d a n) := by
  unfold Machine.semVrotc
  exact .semVec

theorem Kept.Slot.semVredr {g : Guard} {d a : BitVec 5} {op : BitVec 3} {rz : BitVec 1} {ty : BitVec 3} {ord : BitVec 1} :
    K.Slot (Machine.semVredr g d a op rz ty ord) := by
  unfold Machine.semVredr
  exact .semVec

theorem Kept.Slot.semVredc {g : Guard} {d a : BitVec 5} {op : BitVec 3} {rz : BitVec 1} {ty : BitVec 3} {ord : BitVec 1} :
    K.Slot (Machine.semVredc g d a op rz ty ord) := by
  unfold Machine.semVredc
  exact .semVec

theorem Kept.Slot.semVscanr {g : Guard} {d a : BitVec 5} {op : BitVec 3} {rz : BitVec 1} {ty : BitVec 3} {x7 : BitVec 1} :
    K.Slot (Machine.semVscanr g d a op rz ty x7) := by
  unfold Machine.semVscanr
  exact .semVec

theorem Kept.Slot.semVscanc {g : Guard} {d a : BitVec 5} {op : BitVec 3} {rz : BitVec 1} {ty : BitVec 3} {x7 : BitVec 1} :
    K.Slot (Machine.semVscanc g d a op rz ty x7) := by
  unfold Machine.semVscanc
  exact .semVec

theorem Kept.Slot.semVxp {g : Guard} {d a : BitVec 5} : K.Slot (Machine.semVxp g d a) := by
  unfold Machine.semVxp
  exact .semVec

theorem Kept.Slot.semVpermRow {g : Guard} {d a b : BitVec 5} : K.Slot (Machine.semVpermRow g d a b) := by
  unfold Machine.semVpermRow
  exact .semVec

theorem Kept.Slot.semVpermCol {g : Guard} {d a b : BitVec 5} : K.Slot (Machine.semVpermCol g d a b) := by
  unfold Machine.semVpermCol
  exact .semVec

theorem Kept.Slot.semVext {g : Guard} {d a b : BitVec 5} : K.Slot (Machine.semVext g d a b) := by
  unfold Machine.semVext
  exact ⟨fun t t1 ht ht1 => .ite (.push ht1) ht1, fun t t1 ht ht1 => .none⟩

theorem Kept.Slot.semVins {g : Guard} {d a b : BitVec 5} : K.Slot (Machine.semVins g d a b) := by
  unfold Machine.semVins
  exact ⟨fun t t1 ht ht1 => .ite (.push ht1) ht1, fun t t1 ht ht1 => .none⟩

theorem Kept.Slot.semQand {g : Guard} {d a b : BitVec 4} : K.Slot (Machine.semQand g d a b) := by
  unfold Machine.semQand
  exact .semLanes

theorem Kept.Slot.semQor {g : Guard} {d a b : BitVec 4} : K.Slot (Machine.semQor g d a b) := by
  unfold Machine.semQor
  exact .semLanes

theorem Kept.Slot.semQxor {g : Guard} {d a b : BitVec 4} : K.Slot (Machine.semQxor g d a b) := by
  unfold Machine.semQxor
  exact .semLanes

theorem Kept.Slot.semQnot {g : Guard} {d a : BitVec 4} : K.Slot (Machine.semQnot g d a) := by
  unfold Machine.semQnot
  exact .semLanes

theorem Kept.Slot.semQcnt {g : Guard} {d : BitVec 5} {a : BitVec 4} : K.Slot (Machine.semQcnt g d a) := by
  unfold Machine.semQcnt
  exact ⟨fun t t1 ht ht1 => .push ht1, fun t t1 ht ht1 => .none⟩

/-! ### The definitions of Sys2Proof/Machine/Special.lean -/

theorem Kept.Slot.semF {g : Guard} {lat : ℕ} {d : BitVec 5} {src : List ℕ} {f : State → Cells} : K.Slot (Machine.semF g lat d src f) := by
  unfold Machine.semF
  exact ⟨fun t t1 ht ht1 => .push ht1, fun t t1 ht ht1 => .none⟩

theorem Kept.Slot.semFn {g : Guard} {d a : BitVec 5} {mode : BitVec 1} {fn : RMode → Machine.Num → ℕ × Flags} :
    K.Slot (Machine.semFn g d a mode fn) := by
  unfold Machine.semFn
  exact .semF

theorem Kept.Slot.semFexp2 {g : Guard} {d a : BitVec 5} {mode : BitVec 1} : K.Slot (Machine.semFexp2 g d a mode) := by
  unfold Machine.semFexp2
  exact .semFn

theorem Kept.Slot.semFexp {g : Guard} {d a : BitVec 5} {mode : BitVec 1} : K.Slot (Machine.semFexp g d a mode) := by
  unfold Machine.semFexp
  exact .semFn

theorem Kept.Slot.semFlog2 {g : Guard} {d a : BitVec 5} {mode : BitVec 1} : K.Slot (Machine.semFlog2 g d a mode) := by
  unfold Machine.semFlog2
  exact .semFn

theorem Kept.Slot.semFrcp {g : Guard} {d a : BitVec 5} {mode : BitVec 1} : K.Slot (Machine.semFrcp g d a mode) := by
  unfold Machine.semFrcp
  exact .semFn

theorem Kept.Slot.semFrsq {g : Guard} {d a : BitVec 5} {mode : BitVec 1} : K.Slot (Machine.semFrsq g d a mode) := by
  unfold Machine.semFrsq
  exact .semFn

theorem Kept.Slot.semFsqrt {g : Guard} {d a : BitVec 5} {mode : BitVec 1} : K.Slot (Machine.semFsqrt g d a mode) := by
  unfold Machine.semFsqrt
  exact .semFn

theorem Kept.Slot.semFtanh {g : Guard} {d a : BitVec 5} {mode : BitVec 1} : K.Slot (Machine.semFtanh g d a mode) := by
  unfold Machine.semFtanh
  exact .semFn

theorem Kept.Slot.semFsigm {g : Guard} {d a : BitVec 5} {mode : BitVec 1} : K.Slot (Machine.semFsigm g d a mode) := by
  unfold Machine.semFsigm
  exact .semFn

theorem Kept.Slot.semFsin {g : Guard} {d a : BitVec 5} {mode : BitVec 1} : K.Slot (Machine.semFsin g d a mode) := by
  unfold Machine.semFsin
  exact .semFn

theorem Kept.Slot.semFcos {g : Guard} {d a : BitVec 5} {mode : BitVec 1} : K.Slot (Machine.semFcos g d a mode) := by
  unfold Machine.semFcos
  exact .semFn

theorem Kept.Slot.semFdiv {g : Guard} {d a b : BitVec 5} {mode : BitVec 1} : K.Slot (Machine.semFdiv g d a b mode) := by
  unfold Machine.semFdiv
  exact .semF

theorem Kept.Slot.semTake {m : SlotSem} {sr : Bool} (hm : K.Slot m) : K.Slot (Machine.semTake m sr) := by
  unfold Machine.semTake
  refine ⟨fun s0 s h0 h => ?_, fun s0 s h0 h => ?_⟩
  · dsimp only
    exact .ite (.modMe (.eff hm h0 h)) (.eff hm h0 h)
  · dsimp only
    exact .wait hm h0 h

theorem Kept.Slot.semCvt {g : Guard} {d a : BitVec 5} {src dst : BitVec 4} {rm : BitVec 2} : K.Slot (Machine.semCvt g d a src dst rm) := by
  unfold Machine.semCvt
  exact .semTake .semF

theorem Kept.Slot.semQnt4 {g : Guard} {d a b : BitVec 5} {rm : BitVec 2} : K.Slot (Machine.semQnt4 g d a b rm) := by
  unfold Machine.semQnt4
  exact .semTake .semF

theorem Kept.Slot.semDqnt4 {g : Guard} {d a b : BitVec 5} : K.Slot (Machine.semDqnt4 g d a b) := by
  unfold Machine.semDqnt4
  exact .semF

theorem Kept.Slot.semRngseed {g : Guard} {a b : BitVec 5} : K.Slot (Machine.semRngseed g a b) := by
  unfold Machine.semRngseed
  refine ⟨fun s0 s h0 h => ?_, fun s0 s h0 h => ?_⟩
  · dsimp only
    exact .modMe h
  · dsimp only
    exact .none

theorem Kept.Slot.semRngskip {g : Guard} {a : BitVec 5} : K.Slot (Machine.semRngskip g a) := by
  unfold Machine.semRngskip
  exact ⟨fun t t1 ht ht1 => .modMe ht1, fun t t1 ht ht1 => .none⟩

/-! ### The definitions of Sys2Proof/Machine/TileRuns.lean -/

theorem Kept.Holds.readElems {g : Agent} {w : ℕ} {x3 : List W64} {x4 : State} (h : K.Holds x4) : K.Holds (State.readElems g w x3 x4).1 := by
  induction x3 generalizing g w x4 with
  | nil =>
    unfold State.readElems
    exact h
  | cons a l ih =>
    unfold State.readElems
    dsimp only
    split
    · exact .pair (.engineRead h)
    · exact .pair (.engineRead h)
    · exact .pair (ih (.engineRead h))

theorem Kept.Holds.readRun {g : Agent} {a : W64} {n : ℕ} (h : K.Holds s) : K.Holds (s.readRun g a n).1 := by
  unfold State.readRun
  exact .pair (.readElems h)

theorem Kept.Holds.writeEach {g : Agent} {x2 : List (W64 × List Byte)} {x3 : State} {x4 : List ℕ} (h : K.Holds x3) :
    K.Holds (State.writeEach g x2 x3 x4).1 := by
  induction x2 generalizing g x3 x4 with
  | nil =>
    unfold State.writeEach
    exact h
  | cons a l ih =>
    unfold State.writeEach
    dsimp only
    split
    · exact .pair (.engineWrite h)
    · exact .pair (.engineWrite h)
    · exact ih (.engineWrite h)

theorem Kept.Holds.writeList {g : Agent} {l : List (W64 × List Byte)} {lines : List ℕ} (h : K.Holds s) :
    K.Holds (State.writeList g l s lines).1 := by
  unfold State.writeList
  split
  · exact .pair (.engineWrite h)
  · exact .writeEach h

theorem Kept.Holds.placeTile {c : CoreRef} {slot : ℕ} {x : Cmd} {home : CoreRef} {ptok : ℕ} {time : W64} (h : K.Holds s) :
    K.Holds (s.placeTile c slot x home ptok time) := by
  unfold State.placeTile
  dsimp only
  split
  · exact h
  · exact .modCore (.setTask h)

theorem Kept.Holds.placeAll {x : Cmd} {home : CoreRef} {ptok : ℕ} {ws : List Worker} {time : W64} (h : K.Holds s) :
    K.Holds (s.placeAll x home ptok ws time) := by
  unfold State.placeAll
  refine .foldl (fun t a ht => ?_) h
  split
  · exact .ite ht (.placeTile ht)
  · exact ht

/-! ### The definitions of Sys2Proof/Machine/Arrivals.lean -/

theorem Kept.Holds.refuse {p : PortRef} {c : Cell} (h : K.Holds s) : K.Holds (s.refuse p c) := by
  unfold State.refuse
  exact .modPav (.modPort (.countRefusal h))

theorem Kept.Maybe.offerFrom {p : PortRef} {again : Bool} {c : Cell} (h : K.Holds s) : K.Maybe (s.offerFrom p again c) := by
  unfold State.offerFrom
  dsimp only
  split
  · exact .some (.afterTaken (Kept.Takes.holds (.offer h) ‹_›))
  · exact .some (.stray h)
  · exact .none
  · exact .ite (.some (.ite (.sendNack (.countRefusal h)) (.circulate (.countRefusal h)))) (.ite (.some (.refuse h)) .none)

theorem Kept.Maybe.collTakes {die router : ℕ} {c : Cell} (h : K.Holds s) : K.Maybe (s.collTakes die router c) := by
  unfold State.collTakes
  exact .ite (.some (.modDie h)) .none

theorem Kept.Maybe.actOn {p : PortRef} {c : Cell} (h : K.Holds s) : K.Maybe (s.actOn p c) := by
  unfold State.actOn
  dsimp only
  split
  · exact .some (.mcHead h)
  · exact .some (.ite (.modPort (.mcBodyCell h)) (.mcBodyCell h))
  · exact .orElse (.collTakes h) (fun a => .offerFrom h)

theorem Kept.Maybe.tryAhead {p : PortRef} (h : K.Holds s) : K.Maybe (s.tryAhead p) := by
  unfold State.tryAhead
  exact .ite .none (.map (fun x e => .toQueue (.modPort h)))

theorem Kept.Maybe.tryRefused {p : PortRef} (h : K.Holds s) : K.Maybe (s.tryRefused p) := by
  unfold State.tryRefused
  split
  · exact .none
  · exact .offerFrom (.modPort h)

theorem Kept.Maybe.tryFifo {p : PortRef} (h : K.Holds s) : K.Maybe (s.tryFifo p) := by
  unfold State.tryFifo
  split
  · exact .none
  · exact .actOn (.modPort h)

theorem Kept.Maybe.tryCirc {p : PortRef} (h : K.Holds s) : K.Maybe (s.tryCirc p) := by
  unfold State.tryCirc
  split
  · exact .none
  · exact .offerFrom (.modPort h)

theorem Kept.Maybe.arriveAt {p : PortRef} (h : K.Holds s) : K.Maybe (s.arriveAt p) := by
  unfold State.arriveAt
  exact .orElse (.tryAhead h) (fun a => .orElse (.tryRefused h) (fun a1 => .orElse (.tryFifo h) (fun a2 => .tryCirc h)))

theorem Kept.Next.execCellArrival {p : PortRef} (h : K.Holds s) : K.Next (Machine.execCellArrival p s) := by
  unfold Machine.execCellArrival
  exact .next (.getD (.arriveAt h) h)

/-! ### The definitions of Sys2Proof/Machine/Atomics.lean -/

theorem Kept.Slot.fenceSem {g : Guard} {sc : BitVec 2} {ro : Bool} : K.Slot (Machine.fenceSem g sc ro) := by
  unfold Machine.fenceSem
  exact ⟨fun t t1 ht ht1 => .holdOn ht1, fun t t1 ht ht1 => .none⟩

theorem Kept.Slot.semFence {g : Guard} {sc : BitVec 2} : K.Slot (Machine.semFence g sc) := by
  unfold Machine.semFence
  exact .fenceSem

theorem Kept.Slot.semFenceRo {g : Guard} {sc : BitVec 2} : K.Slot (Machine.semFenceRo g sc) := by
  unfold Machine.semFenceRo
  exact .fenceSem

theorem Kept.Holds.fenceDone {r : TaskRef} {ro : Bool} {bar : Option ℕ} {floor : W64} (h : K.Holds s) :
    K.Holds (s.fenceDone r ro bar floor) := by
  unfold State.fenceDone
  dsimp only
  split
  · exact .ite (.modCore (.modTask h)) (.modTask h)
  · exact .modBarrier (.ite (.modCore (.modTask h)) (.modTask h))

theorem Kept.Holds.dropHold {r : TaskRef} (h : K.Holds s) : K.Holds (s.dropHold r) := by
  unfold State.dropHold
  exact .modTask h

theorem Kept.Slot.semAtomic {g : Guard} {ag : BitVec 3} {ordered : Bool} {op : State → AtomicOp} :
    K.Slot (Machine.semAtomic g ag ordered op) := by
  unfold Machine.semAtomic
  refine ⟨fun s0 s h0 h => ?_, fun s0 s h0 h => ?_⟩
  · dsimp only
    split
    · exact h
    · exact .holdOn (.tookFree (.cacheTlb (.dropLoads h)))
  · dsimp only
    split
    · exact .ite (.some (.tookFree (.askWalk h))) .none
    · exact .none

theorem Kept.Slot.semAadd {g : Guard} {d : BitVec 5} {ag : BitVec 3} {sc : BitVec 2} {ix wide : BitVec 1} :
    K.Slot (Machine.semAadd g d ag sc ix wide) := by
  unfold Machine.semAadd
  exact .semAtomic

theorem Kept.Slot.semAmin {g : Guard} {d : BitVec 5} {ag : BitVec 3} {sc : BitVec 2} {ix wide z : BitVec 1} :
    K.Slot (Machine.semAmin g d ag sc ix wide z) := by
  unfold Machine.semAmin
  exact .semAtomic

theorem Kept.Slot.semAmax {g : Guard} {d : BitVec 5} {ag : BitVec 3} {sc : BitVec 2} {ix wide z : BitVec 1} :
    K.Slot (Machine.semAmax g d ag sc ix wide z) := by
  unfold Machine.semAmax
  exact .semAtomic

theorem Kept.Slot.semAand {g : Guard} {d : BitVec 5} {ag : BitVec 3} {sc : BitVec 2} {ix wide : BitVec 1} :
    K.Slot (Machine.semAand g d ag sc ix wide) := by
  unfold Machine.semAand
  exact .semAtomic

theorem Kept.Slot.semAor {g : Guard} {d : BitVec 5} {ag : BitVec 3} {sc : BitVec 2} {ix wide : BitVec 1} :
    K.Slot (Machine.semAor g d ag sc ix wide) := by
  unfold Machine.semAor
  exact .semAtomic

theorem Kept.Slot.semAxor {g : Guard} {d : BitVec 5} {ag : BitVec 3} {sc : BitVec 2} {ix wide : BitVec 1} :
    K.Slot (Machine.semAxor g d ag sc ix wide) := by
  unfold Machine.semAxor
  exact .semAtomic

theorem Kept.Slot.semAswp {g : Guard} {d : BitVec 5} {ag : BitVec 3} {sc : BitVec 2} {ix wide : BitVec 1} :
    K.Slot (Machine.semAswp g d ag sc ix wide) := by
  unfold Machine.semAswp
  exact .semAtomic

theorem Kept.Slot.semAincb {g : Guard} {d : BitVec 5} {ag : BitVec 3} {sc : BitVec 2} {ix wide z : BitVec 1} :
    K.Slot (Machine.semAincb g d ag sc ix wide z) := by
  unfold Machine.semAincb
  exact .semAtomic

theorem Kept.Slot.semAfadd {g : Guard} {d : BitVec 5} {ag : BitVec 3} {ty : BitVec 2} {ord : BitVec 1} {sc : BitVec 2} :
    K.Slot (Machine.semAfadd g d ag ty ord sc) := by
  unfold Machine.semAfadd
  exact .semAtomic

theorem Kept.Slot.semAcas {g : Guard} {d : BitVec 5} {ag : BitVec 3} {b : BitVec 4} {sc : BitVec 2} {ix wide : BitVec 1} :
    K.Slot (Machine.semAcas g d ag b sc ix wide) := by
  unfold Machine.semAcas
  exact .semAtomic

theorem Kept.Slot.semAordJoin {g : Guard} {r : BitVec 5} : K.Slot (Machine.semAordJoin g r) := by
  unfold Machine.semAordJoin
  exact ⟨fun t t1 ht ht1 => .modLaunch (.modMe ht1), fun t t1 ht ht1 => .none⟩

theorem Kept.Slot.semAordClose {g : Guard} {r : BitVec 5} : K.Slot (Machine.semAordClose g r) := by
  unfold Machine.semAordClose
  exact ⟨fun t t1 ht ht1 => .closeSet ht1, fun t t1 ht ht1 => .none⟩

theorem Kept.Holds.noteSet {r : TaskRef} {a : AtomicOp} {ta : W64} (h : K.Holds s) : K.Holds (s.noteSet r a ta) := by
  unfold State.noteSet
  dsimp only
  split
  · exact h
  · exact .modLaunch h

theorem Kept.Holds.atomicAt {a : AtomicOp} {o key : ℕ} {ta : W64} (h : K.Holds s) : K.Holds (s.atomicAt a o key ta).1 := by
  unfold State.atomicAt
  exact .pair (.modLine (.storeHbm (.recall h)))

theorem Kept.Holds.setHold {r : TaskRef} {h : Hold} (hs : K.Holds s) : K.Holds (s.setHold r h) := by
  unfold State.setHold
  exact .modTask hs

theorem Kept.Holds.atomicTraps {r : TaskRef} {a : AtomicOp} {t : Trap} (h : K.Holds s) : K.Holds (s.atomicTraps r a t) := by
  unfold State.atomicTraps
  exact .takeTrap (.modTask (.dropHold h))

theorem Kept.Holds.executeAtomic {r : TaskRef} {a : AtomicOp} (h : K.Holds s) : K.Holds (s.executeAtomic r a) := by
  unfold State.executeAtomic
  exact .ite (.ite (.ite h (.atomicTraps h)) (.ite h (.setHold (.noteSet (.mark (.atomicAt h)))))) (.setHold (.sendReq (.modTask h)))

theorem Kept.Next.execAtomicExecute {t : TaskRef} (h : K.Holds s) : K.Next (Machine.execAtomicExecute t s) := by
  unfold Machine.execAtomicExecute
  refine .next ?_
  split
  · exact .ite h (.executeAtomic h)
  · exact h

theorem Kept.Next.execOrderedRelease {t : TaskRef} (h : K.Holds s) : K.Next (Machine.execOrderedRelease t s) := by
  unfold Machine.execOrderedRelease
  refine .next ?_
  split
  · split
    · exact .ite (.executeAtomic h) h
    · exact h
  · exact h

theorem Kept.Holds.deliver {r : TaskRef} {d : ℕ} {v : W64} {f : Flags} {ta : W64} (h : K.Holds s) : K.Holds (s.deliver r d v f ta) := by
  unfold State.deliver
  exact .ite (.modTask (.dropHold (.modTask h))) (.modTask (.dropHold (.modTask h)))

theorem Kept.Holds.dropSent {id : ℕ} (h : K.Holds s) : K.Holds (s.dropSent id) := by
  unfold State.dropSent
  exact .updated h

theorem Kept.Holds.takeRemote {r : TaskRef} {id : ℕ} {a : AtomicOp} (h : K.Holds s) : K.Holds (s.takeRemote r id a) := by
  unfold State.takeRemote
  dsimp only
  split
  · exact h
  · split
    · exact h
    · split
      · exact .deliver (.dropSent h)
      · exact .ite h (.atomicTraps (.dropSent h))

theorem Kept.Next.execAtomicReply {t : TaskRef} (h : K.Holds s) : K.Next (Machine.execAtomicReply t s) := by
  unfold Machine.execAtomicReply
  refine .next ?_
  split
  · split
    · exact .deliver h
    · exact h
  · exact .takeRemote h
  · exact h

/-! ### The definitions of Sys2Proof/Machine/Home.lean -/

theorem Kept.Holds.reqLoad {gate : ℕ} {q : RemoteReq} (h : K.Holds s) : K.Holds (s.reqLoad gate q).1 := by
  unfold State.reqLoad
  exact .pair (.homeLoad (.raiseAgent h))

theorem Kept.Holds.reqStore {gate : ℕ} {q : RemoteReq} (h : K.Holds s) : K.Holds (s.reqStore gate q).1 := by
  unfold State.reqStore
  exact .pair (.markDie (.raiseAgent (.modLine (.storeHbm (.raiseAgent h)))))

theorem Kept.Holds.reqAtomic {gate : ℕ} {q : RemoteReq} (h : K.Holds s) : K.Holds (s.reqAtomic gate q).1 := by
  unfold State.reqAtomic
  exact .pair (.markDie (.raiseAgent (.atomicAt (.recall h))))

theorem Kept.Holds.performReq {gate : ℕ} {q : RemoteReq} (h : K.Holds s) : K.Holds (s.performReq gate q).1 := by
  unfold State.performReq
  dsimp only
  refine .iteFst h ?_
  split
  · exact .reqLoad h
  · exact .reqStore h
  · exact .reqAtomic h

theorem Kept.Holds.sendReply {gate job : ℕ} {r : RemoteRep} (h : K.Holds s) : K.Holds (s.sendReply gate job r) := by
  unfold State.sendReply
  exact .output h

theorem Kept.Holds.postPsn {gate : ℕ} {q : RemoteReq} {r : RemoteRep} (h : K.Holds s) : K.Holds (s.postPsn gate q r) := by
  unfold State.postPsn
  exact .ite (.postFault h) h

theorem Kept.Holds.serveReq {gate : ℕ} {q : RemoteReq} (h : K.Holds s) : K.Holds (s.serveReq gate q).1 := by
  unfold State.serveReq
  exact .iteFst (.pair (.sendReply h)) (.pair (.sendReply (.postPsn (.modGate (.performReq h)))))

theorem Kept.Holds.dropHeld {gate : ℕ} {q : RemoteReq} (h : K.Holds s) : K.Holds (s.dropHeld gate q) := by
  unfold State.dropHeld
  exact .modGate h

theorem Kept.Holds.holdReq {gate : ℕ} {q : RemoteReq} (h : K.Holds s) : K.Holds (s.holdReq gate q) := by
  unfold State.holdReq
  exact .modGate h

theorem Kept.Holds.pumpReqs {gate key x3 : ℕ} {x4 : State} (h : K.Holds x4) : K.Holds (State.pumpReqs gate key x3 x4).1 := by
  induction x3 generalizing gate key x4 with
  | zero =>
    unfold State.pumpReqs
    exact h
  | succ n ih =>
    unfold State.pumpReqs
    dsimp only
    split
    · exact h
    · exact .iteFst h (.iteFst (ih (.serveReq (.dropHeld h))) (.serveReq (.dropHeld h)))

theorem Kept.Holds.remoteRequest {gate : ℕ} {q : RemoteReq} (h : K.Holds s) : K.Holds (s.remoteRequest gate q) := by
  unfold State.remoteRequest
  dsimp only
  split
  · exact .sendReply h
  · exact .ite h (.ite (.holdReq h) (.ite (.pumpReqs (.serveReq (.dropHeld h))) (.serveReq (.dropHeld h))))

theorem Kept.Next.execRemoteRequest {gate : ℕ} {q : RemoteReq} (h : K.Holds s) : K.Next (Machine.execRemoteRequest gate q s) := by
  unfold Machine.execRemoteRequest
  exact .next (.remoteRequest h)

theorem Kept.Next.execReplyCacheExpire {gate id : ℕ} (h : K.Holds s) : K.Next (Machine.execReplyCacheExpire gate id s) := by
  unfold Machine.execReplyCacheExpire
  exact .next (.modGate h)

theorem Kept.Holds.skipSeqs {gate key x3 : ℕ} {x4 : State} (h : K.Holds x4) : K.Holds (State.skipSeqs gate key x3 x4) := by
  induction x3 generalizing gate key x4 with
  | zero =>
    unfold State.skipSeqs
    exact h
  | succ n ih =>
    unfold State.skipSeqs
    dsimp only
    split
    · exact h
    · exact .ite (ih (.pumpReqs (.modGate h))) (.pumpReqs (.modGate h))

theorem Kept.Next.execSequenceSkip {gate source : ℕ} (h : K.Holds s) : K.Next (Machine.execSequenceSkip gate source s) := by
  unfold Machine.execSequenceSkip
  exact .next (.skipSeqs h)

theorem Kept.Holds.undelivered {die tok job : ℕ} (h : K.Holds s) : K.Holds (s.undelivered die tok job) := by
  unfold State.undelivered
  exact .postFault h

theorem Kept.Holds.ackStore {x : SentReq} {status : ℕ} (h : K.Holds s) : K.Holds (s.ackStore x status) := by
  unfold State.ackStore
  dsimp only
  split
  · exact .ite (.modTask (.dropSent h)) (.dropSent h)
  · exact .ite (.ite (.undelivered (.ite (.modTask (.dropSent h)) (.dropSent h))) (.ite (.modTask (.dropSent h)) (.dropSent h)))
      (.postFault (.ite (.modTask (.dropSent h)) (.dropSent h)))

theorem Kept.Holds.answerReq {x : SentReq} {rep : RemoteRep} (h : K.Holds s) : K.Holds (s.answerReq x rep) := by
  unfold State.answerReq
  exact .ite (.ackStore h) (.updated h)

theorem Kept.Next.execReply {gate : ℕ} {r : RemoteRep} (h : K.Holds s) : K.Next (Machine.execReply gate r s) := by
  unfold Machine.execReply
  refine .next ?_
  split
  · exact .ite (.answerReq h) h
  · exact h

theorem Kept.Next.execRetransmit {id : ℕ} (h : K.Holds s) : K.Next (Machine.execRetransmit id s) := by
  unfold Machine.execRetransmit
  dsimp only
  refine .next ?_
  split
  · exact .ite (.transmit (.updated h)) h
  · exact h

theorem Kept.Next.execRemoteTimeout {id : ℕ} (h : K.Holds s) : K.Next (Machine.execRemoteTimeout id s) := by
  unfold Machine.execRemoteTimeout
  refine .next ?_
  split
  · exact .ite h (.answerReq h)
  · exact h

/-! ### The definitions of Sys2Proof/Machine/System.lean -/

theorem Kept.Holds.settle {r : TaskRef} {d : ℕ} {v : W64} (h : K.Holds s) : K.Holds (s.settle r d v) := by
  unfold State.settle
  exact .ite (.modTask (.dropHold h)) (.modTask (.dropHold h))

theorem Kept.Slot.semPrmpt {g : Guard} {a c : BitVec 5} : K.Slot (Machine.semPrmpt g a c) := by
  unfold Machine.semPrmpt
  exact ⟨fun t t1 ht ht1 => .holdOn (.foldl (fun t2 a1 ht2 => .modTask ht2) ht1), fun t t1 ht ht1 => .none⟩

theorem Kept.Holds.servePrmpt {r : TaskRef} {d : ℕ} {target : W64} {pending : List ℕ} {others : ℕ} (h : K.Holds s) :
    K.Holds (s.servePrmpt r d target pending others) := by
  unfold State.servePrmpt
  exact .ite (.settle h) h

theorem Kept.Holds.resumeTask {r : TaskRef} (h : K.Holds s) : K.Holds (s.resumeTask r) := by
  unfold State.resumeTask
  exact .ite h (.foldl (fun t a ht => .landOne ht) (.modCore (.modTask h)))

theorem Kept.Slot.semResume {g : Guard} {a c : BitVec 5} : K.Slot (Machine.semResume g a c) := by
  unfold Machine.semResume
  exact ⟨fun t t1 ht ht1 => .push (.ite (.tookFree (.foldl (fun t2 a1 ht2 => .resumeTask ht2) ht1)) (.foldl (fun t2 a1 ht2 => .resumeTask
      ht2) ht1)), fun t t1 ht ht1 => .none⟩

theorem Kept.Next.execTaskHalt {t : TaskRef} (h : K.Holds s) : K.Next (Machine.execTaskHalt t s) := by
  unfold Machine.execTaskHalt
  exact .next (.preemptAt h)

theorem Kept.Holds.serveHolds {r : TaskRef} {x2 : ℕ} {x3 : State} (h : K.Holds x3) : K.Holds (State.serveHolds r x2 x3) := by
  induction x2 generalizing r x3 with
  | zero =>
    unfold State.serveHolds
    exact h
  | succ n ih =>
    unfold State.serveHolds
    dsimp only
    split
    · exact .ite (ih (.dropHold (.fenceDone h))) h
    · exact .ite (ih (.servePrmpt h)) h
    · exact h

theorem Kept.Slot.semTlbinv {g : Guard} {a b c : BitVec 5} : K.Slot (Machine.semTlbinv g a b c) := by
  unfold Machine.semTlbinv
  exact ⟨fun t t1 ht ht1 => .holdOn ht1, fun t t1 ht ht1 => .none⟩

theorem Kept.Holds.invalidateCore {x : VaRange} {c : CoreRef} (h : K.Holds s) : K.Holds (State.invalidateCore x s c) := by
  unfold State.invalidateCore
  exact .modCore (.foldl (fun t a ht => .writeBack ht) h)

theorem Kept.Holds.invalidate {x : VaRange} (h : K.Holds s) : K.Holds (s.invalidate x) := by
  unfold State.invalidate
  exact .foldl (fun t a ht => .modDie ht) (.foldl (fun t a ht => .invalidateCore ht) h)

theorem Kept.Next.execTlbinvAck {die : ℕ} (h : K.Holds s) : K.Next (Machine.execTlbinvAck die s) := by
  unfold Machine.execTlbinvAck
  dsimp only
  refine .next ?_
  split
  · exact .ite (.invalidate h) (.dropHold (.invalidate h))
  · exact h

theorem Kept.Slot.semGenbump {g : Guard} {a b : BitVec 5} : K.Slot (Machine.semGenbump g a b) := by
  unfold Machine.semGenbump
  exact ⟨fun t t1 ht ht1 => .holdOn ht1, fun t t1 ht ht1 => .none⟩

theorem Kept.Next.execGenbumpDone {die : ℕ} (h : K.Holds s) : K.Next (Machine.execGenbumpDone die s) := by
  unfold Machine.execGenbumpDone
  refine .next ?_
  split
  · exact .dropHold (.updated h)
  · exact h

theorem Kept.Slot.semL2wb {g : Guard} {a b c : BitVec 5} : K.Slot (Machine.semL2wb g a b c) := by
  unfold Machine.semL2wb
  exact ⟨fun t t1 ht ht1 => .holdOn ht1, fun t t1 ht ht1 => .none⟩

theorem Kept.Next.execL2wbDone {die : ℕ} (h : K.Holds s) : K.Next (Machine.execL2wbDone die s) := by
  unfold Machine.execL2wbDone
  refine .next ?_
  split
  · exact .dropHold h
  · exact h

theorem Kept.Slot.semDomset {g : Guard} {a : BitVec 5} : K.Slot (Machine.semDomset g a) := by
  unfold Machine.semDomset
  exact ⟨fun t t1 ht ht1 => .holdOn (.modDie ht1), fun t t1 ht ht1 => .none⟩

theorem Kept.Holds.clearSlices {die : ℕ} {old new : Die} (h : K.Holds s) : K.Holds (s.clearSlices die old new) := by
  unfold State.clearSlices
  refine .wrote h fun w => Memory.wf_foldl (fun m a hm => ?_) w
  split
  · exact hm
  · exact Memory.wf_clear _ _ hm

theorem Kept.Next.execDomsetDone {die : ℕ} (h : K.Holds s) : K.Next (Machine.execDomsetDone die s) := by
  unfold Machine.execDomsetDone
  dsimp only
  refine .next ?_
  split
  · exact .dropHold (.modDie (.clearSlices h))
  · exact h

/-! ### The definitions of Sys2Proof/Machine/Flows.lean -/

theorem Kept.Holds.putQueue {q : BitVec 1} {x : InQueue} (h : K.Holds s) : K.Holds (s.putQueue q x) := by
  unfold State.putQueue
  exact .modMe h

theorem Kept.Slot.semFbind {g : Guard} {x : BitVec 5} {q : BitVec 1} : K.Slot (Machine.semFbind g x q) := by
  unfold Machine.semFbind
  exact ⟨fun t t1 ht ht1 => .putQueue ht1, fun t t1 ht ht1 => .none⟩

theorem Kept.Slot.semFdrain {g : Guard} {x : BitVec 5} {q : BitVec 1} : K.Slot (Machine.semFdrain g x q) := by
  unfold Machine.semFdrain
  exact ⟨fun t t1 ht ht1 => .push (.putQueue ht1), fun t t1 ht ht1 => .none⟩

theorem Kept.Slot.semFstat {g : Guard} {x : BitVec 5} {q : BitVec 1} : K.Slot (Machine.semFstat g x q) := by
  unfold Machine.semFstat
  exact ⟨fun t t1 ht ht1 => .push ht1, fun t t1 ht ht1 => .none⟩

theorem Kept.Maybe.sendWait {n : ℕ} {s0 s : State} (h1 : K.Holds s) : K.Maybe (Machine.sendWait n s0 s) := by
  unfold Machine.sendWait
  exact .ite (.some h1) .none

theorem Kept.Slot.semFsend {g : Guard} {x f : BitVec 5} : K.Slot (Machine.semFsend g x f) := by
  unfold Machine.semFsend
  refine ⟨fun s0 s h0 h => ?_, fun s0 s h0 h => ?_⟩
  · dsimp only
    exact .modHere h
  · dsimp only
    exact .sendWait h

theorem Kept.Slot.semFput {g : Guard} {x f : BitVec 5} : K.Slot (Machine.semFput g x f) := by
  unfold Machine.semFput
  refine ⟨fun s0 s h0 h => ?_, fun s0 s h0 h => ?_⟩
  · dsimp only
    exact .modHere h
  · dsimp only
    exact .sendWait h

theorem Kept.Slot.semFtake {g : Guard} {x f : BitVec 5} : K.Slot (Machine.semFtake g x f) := by
  unfold Machine.semFtake
  refine ⟨fun s0 s h0 h => ?_, fun s0 s h0 h => ?_⟩
  · dsimp only
    split
    · exact .push h
    · exact .push (.push (.modDie h))
  · dsimp only
    exact .none

theorem Kept.Holds.lodgeTime {die : ℕ} (h : K.Holds s) : K.Holds (s.lodgeTime die) := by
  unfold State.lodgeTime
  exact .raiseAgent h

theorem Kept.Holds.lodgeSees {die : ℕ} (h : K.Holds s) : K.Holds (s.lodgeSees die) := by
  unfold State.lodgeSees
  exact .ite (.modTask h) h

theorem Kept.Holds.farUnits {g : Agent} {pa x4 : ℕ} (h : K.Holds s) : K.Holds (s.farUnits g pa x4).1 := by
  induction x4 generalizing s g pa with
  | zero =>
    unfold State.farUnits
    exact h
  | succ n ih =>
    unfold State.farUnits
    exact .pair (ih (.farPart h))

theorem Kept.Holds.lodgeRead {die : ℕ} {a : W64} {n : ℕ} (h : K.Holds s) : K.Holds (s.lodgeRead die a n).1 := by
  unfold State.lodgeRead
  exact .iteFst (.iteFst (.pair (.farUnits (.lodgeTime h))) h) (.iteFst (.iteFst h (.pair (.lodgeSees (.homeLoad (.lodgeTime h)))))
      (.iteFst h h))

theorem Kept.Holds.storeTimes {die pos : ℕ} {lines : List ℕ} (h : K.Holds s) : K.Holds (s.storeTimes die pos lines) := by
  unfold State.storeTimes
  exact .foldl (fun t a ht => .raiseAgent (.modLine ht)) h

theorem Kept.Holds.farPosts {die job pa : ℕ} {b : List Byte} {x6 : ℕ} (h : K.Holds s) : K.Holds (s.farPosts die job pa b x6) := by
  induction x6 generalizing s die job pa b with
  | zero =>
    unfold State.farPosts
    exact h
  | succ n ih =>
    unfold State.farPosts
    exact .ite h (ih (.ite (.modTask (.sendReq h)) (.sendReq h)))

theorem Kept.Holds.lodgeStore {die job : ℕ} {a : W64} {b : List Byte} (h : K.Holds s) : K.Holds (s.lodgeStore die job a b).1 := by
  unfold State.lodgeStore
  exact .iteFst (.iteFst (.pair (.farPosts (.lodgeTime h))) h) (.iteFst (.iteFst h (.iteFst h (.pair (.mark (.lodgeSees (.storeTimes
      (.storeHbm (.lodgeTime h)))))))) (.iteFst h (.pair (.physWrite h))))

theorem Kept.Holds.lodgeRest {die : ℕ} (h : K.Holds s) : K.Holds (s.lodgeRest die) := by
  unfold State.lodgeRest
  exact .dropFar h

theorem Kept.Holds.postUnread {die : ℕ} {t : Trap} (h : K.Holds s) : K.Holds (s.postUnread die t) := by
  unfold State.postUnread
  exact .postFault h

theorem Kept.Slot.semNpload {g : Guard} {a b c : BitVec 5} : K.Slot (Machine.semNpload g a b c) := by
  unfold Machine.semNpload
  exact ⟨fun t t1 ht ht1 => .holdOn ht1, fun t t1 ht ht1 => .none⟩

theorem Kept.Holds.installEntry {die router n : ℕ} {e : FlowEntry} (h : K.Holds s) : K.Holds (s.installEntry die router n e) := by
  unfold State.installEntry
  exact .ite (.wrote (.modPav h) (fun w => Memory.wf_clear _ _ w)) (.modPav h)

theorem Kept.Checked.installRecord {die job : ℕ} {b : List Byte} (h : K.Holds s) : K.Checked (s.installRecord die job b) := by
  unfold State.installRecord
  exact .ite .error (.ite (.ok h) (.ite .error (.ok (.installEntry h))))

theorem Kept.Holds.readRecords {die : ℕ} {a : W64} {x3 x4 : ℕ} {x5 : State} (h : K.Holds x5) :
    K.Holds (State.readRecords die a x3 x4 x5).1 := by
  induction x3 generalizing die a x4 x5 with
  | zero =>
    unfold State.readRecords
    exact h
  | succ n ih =>
    unfold State.readRecords
    dsimp only
    refine .iteFst h ?_
    split
    · exact .pair (ih (.lodgeRead h))
    · exact .pair (.lodgeRead h)

theorem Kept.Checked.installAll {die job : ℕ} {x3 : List (List Byte)} {x4 : ℕ} {x5 : State} (h : K.Holds x5) :
    K.Checked (State.installAll die job x3 x4 x5) := by
  induction x3 generalizing die job x4 x5 with
  | nil =>
    unfold State.installAll
    exact .ok h
  | cons a l ih =>
    unfold State.installAll
    split
    · exact .error
    · exact ih (Kept.Checked.holds (.installRecord h) ‹_›)

theorem Kept.Beside.installImage {die job len : ℕ} {a : W64} (h : K.Holds s) : K.Beside (s.installImage die job len a) := by
  unfold State.installImage
  dsimp only
  refine .ite .none ?_
  split
  · exact .some (.pair (.readRecords h))
  · split
    · exact .some (.pair (.ite (.postUnread (.readRecords h)) (.readRecords h)))
    · exact .ite (.some (.pair (.readRecords h))) (.some (.pair (.extendJob (Kept.Checked.holds (.installAll (.readRecords h)) ‹_›))))

theorem Kept.Beside.nploadRun {die : ℕ} {a b : W64} (h : K.Holds s) : K.Beside (s.nploadRun die a b) := by
  unfold State.nploadRun
  exact .ite (.some (.pair (.extendJob (.modDie h)))) (.installImage h)

theorem Kept.Next.execNploadDone {die : ℕ} (h : K.Holds s) : K.Next (Machine.execNploadDone die s) := by
  unfold Machine.execNploadDone
  refine .next ?_
  split
  · split
    · exact .settle (Kept.Beside.holds (.nploadRun h) ‹_›)
    · exact h
  · exact h

theorem Kept.Holds.keyRecord {a : W64} (h : K.Holds s) : K.Holds (s.keyRecord a).1 := by
  unfold State.keyRecord
  exact .lodgeRead h

theorem Kept.Slot.semLkey {g : Guard} {a b c : BitVec 5} : K.Slot (Machine.semLkey g a b c) := by
  unfold Machine.semLkey
  refine ⟨fun t t1 ht ht1 => .ite (.holdOn (.beginSwitch (.ite (.lodgeRest (.keyRecord ht1)) ht1))) (.ite (.push (.ite (.lodgeRest
      (.keyRecord ht1)) ht1)) (.ite ?_ (.modLink (.push (.ite (.lodgeRest (.keyRecord ht1)) ht1))))), fun t t1 ht ht1 => .ite (.some
      (.keyRecord ht1)) .none⟩
  split
  · exact .modLink (.push (.ite (.lodgeRest (.keyRecord ht1)) ht1))
  · exact .push (.ite (.lodgeRest (.keyRecord ht1)) ht1)

/-! ### The definitions of Sys2Proof/Machine/Tiles.lean -/

theorem Kept.Slot.semTileOp {opc : ℕ} {g : Guard} {tok : BitVec 6} {e : BitVec 4} {ord rz : Bool} :
    K.Slot (Machine.semTileOp opc g tok e ord rz) := by
  unfold Machine.semTileOp
  exact .semToken ⟨fun t t1 ht ht1 => .issueCmd ht1, fun t t1 ht ht1 => .none⟩

theorem Kept.Slot.semTmm {g : Guard} {tok : BitVec 6} {e : BitVec 4} {ord rz : BitVec 1} : K.Slot (Machine.semTmm g tok e ord rz) := by
  unfold Machine.semTmm
  exact .semTileOp

theorem Kept.Slot.semTew {g : Guard} {tok : BitVec 6} {e : BitVec 4} {rz : BitVec 1} : K.Slot (Machine.semTew g tok e rz) := by
  unfold Machine.semTew
  exact .semTileOp

theorem Kept.Slot.semTred {g : Guard} {tok : BitVec 6} {e : BitVec 4} {ord rz : BitVec 1} : K.Slot (Machine.semTred g tok e ord rz) := by
  unfold Machine.semTred
  exact .semTileOp

theorem Kept.Slot.semTscan {g : Guard} {tok : BitVec 6} {e : BitVec 4} {ord rz : BitVec 1} : K.Slot (Machine.semTscan g tok e ord rz) := by
  unfold Machine.semTscan
  exact .semTileOp

theorem Kept.Slot.semTxp {g : Guard} {tok : BitVec 6} {e : BitVec 4} : K.Slot (Machine.semTxp g tok e) := by
  unfold Machine.semTxp
  exact .semTileOp

theorem Kept.Slot.semTcvt {g : Guard} {tok : BitVec 6} {e : BitVec 4} {rz : BitVec 1} : K.Slot (Machine.semTcvt g tok e rz) := by
  unfold Machine.semTcvt
  exact .semTileOp

theorem Kept.Slot.semTcpy {g : Guard} {tok : BitVec 6} {e : BitVec 4} : K.Slot (Machine.semTcpy g tok e) := by
  unfold Machine.semTcpy
  exact .semTileOp

theorem Kept.Slot.semTbc {g : Guard} {tok : BitVec 6} {e : BitVec 4} : K.Slot (Machine.semTbc g tok e) := by
  unfold Machine.semTbc
  exact .semTileOp

theorem Kept.Holds.setRun {c : CoreRef} {ptok : ℕ} {x : Cmd} {g : TileRun} (h : K.Holds s) : K.Holds (s.setRun c ptok x g) := by
  unfold State.setRun
  exact .modCore h

theorem Kept.Holds.tileTime {r : TaskRef} {cores : List CoreRef} {lines : List ℕ} (h : K.Holds s) :
    K.Holds (s.tileTime r cores lines).1 := by
  unfold State.tileTime
  exact .pair (.ite (.foldl (fun t a ht => .modLine ht) h) (.foldl (fun t a ht => .mark ht) (.foldl (fun t a ht => .modLine ht) h)))

theorem Kept.Holds.lastRecord {c : CoreRef} {ptok : ℕ} {x : Cmd} {g : TileRun} {lines : List ℕ} {state : ℕ} {t : Option TileFault}
    (h : K.Holds s) :
    K.Holds (s.lastRecord c ptok x g lines state t).1 := by
  unfold State.lastRecord
  exact .iteFst (.pair (.writeList h)) (.pair (.writeList (.tileTime h)))

theorem Kept.Holds.failWith {c : CoreRef} {ptok : ℕ} {x : Cmd} {g : TileRun} {f : TileFault} (h : K.Holds s) :
    K.Holds (s.failWith c ptok x g f) := by
  unfold State.failWith
  exact .ite (.ite (.lastRecord h) (.endCmd (.lastRecord h))) (.endCmd (.tileTime h))

theorem Kept.Holds.failStart {c : CoreRef} {ptok : ℕ} {x : Cmd} {g : TileRun} {cause : ℕ} (h : K.Holds s) :
    K.Holds (s.failStart c ptok x g cause) := by
  unfold State.failStart
  exact .failWith h

theorem Kept.Holds.noteDone {c : CoreRef} {ptok : ℕ} {x : Cmd} {g : TileRun} (h : K.Holds s) : K.Holds (s.noteDone c ptok x g).1 := by
  unfold State.noteDone
  exact .writeList h

theorem Kept.Holds.readDescs {g : TileRun} {a : Agent} {x3 : List ℕ} {x4 : State} (h : K.Holds x4) :
    K.Holds (State.readDescs g a x3 x4).1 := by
  induction x3 generalizing g a x4 with
  | nil =>
    unfold State.readDescs
    exact h
  | cons a l ih =>
    unfold State.readDescs
    dsimp only
    refine .iteFst ?_ (.pair (ih h))
    split
    · exact .pair (.readRun h)
    · exact .pair (ih (.readRun h))

theorem Kept.Holds.readTile {a : Agent} {d : TileDesc} {l : List (ℕ × ℕ)} (h : K.Holds s) : K.Holds (s.readTile a d l).1 := by
  unfold State.readTile
  exact .readElems h

theorem Kept.Holds.readC {a : Agent} {g : TileRun} {l : List (ℕ × ℕ)} (h : K.Holds s) : K.Holds (s.readC a g l).1 := by
  unfold State.readC
  exact .iteFst (.readTile h) h

theorem Kept.Holds.unitTmm {a : Agent} {g : TileRun} {t q : ℕ} (h : K.Holds s) : K.Holds (s.unitTmm a g t q).1 := by
  unfold State.unitTmm
  exact .thenRead (.readTile h) (fun t1 a1 ht => .thenRead (.readTile ht) (fun t2 a2 ht1 => .thenRead (.iteFst (.readC ht1) ht1) (fun t3 a3
      ht2 => ht2)))

theorem Kept.Holds.unitRed {a : Agent} {g : TileRun} {t q : ℕ} (h : K.Holds s) : K.Holds (s.unitRed a g t q).1 := by
  unfold State.unitRed
  exact .thenRead (.readTile h) (fun t1 a1 ht => .pair (.tookFree ht))

theorem Kept.Holds.unitMap {a : Agent} {g : TileRun} {t : ℕ} (h : K.Holds s) : K.Holds (s.unitMap a g t).1 := by
  unfold State.unitMap
  exact .thenRead (.readTile h) (fun t1 a1 ht => .thenRead (.iteFst (.readTile ht) ht) (fun t2 a2 ht1 => .thenRead (.iteFst (.readTile ht1)
      ht1) (fun t3 a3 ht2 => ht2)))

theorem Kept.Holds.unitResult {a : Agent} {g : TileRun} {u : ℕ} (h : K.Holds s) : K.Holds (s.unitResult a g u).1 := by
  unfold State.unitResult
  exact .iteFst (.unitTmm h) (.iteFst (.unitRed h) (.unitMap h))

theorem Kept.Holds.forgetReads {a : Agent} (h : K.Holds s) : K.Holds (s.forgetReads a) := by
  unfold State.forgetReads
  exact .dropLoads h

theorem Kept.Holds.scanFirst {a : Agent} {g : TileRun} {u : ℕ} (h : K.Holds s) : K.Holds (s.scanFirst a g u).1 := by
  unfold State.scanFirst
  exact .thenRead (.readTile h) (fun t a1 ht => .pair (.tookFree ht))

theorem Kept.Holds.unitForms {a : Agent} {g : TileRun} {u : ℕ} (h : K.Holds s) : K.Holds (s.unitForms a g u).1 := by
  unfold State.unitForms
  exact .thenRead (.unitResult h) (fun t x ht => .iteFst (.thenRead (.scanFirst ht) (fun t1 x1 ht1 => ht1)) ht)

theorem Kept.Next.execUnitComplete {c : CoreRef} {tok unit : ℕ} (h : K.Holds s) : K.Next (Machine.execUnitComplete c tok unit s) := by
  unfold Machine.execUnitComplete
  dsimp only
  refine .next ?_
  split
  · exact h
  · split
    · exact h
    · refine .ite h ?_
      split
      · exact .unitForms h
      · exact .setRun (.forgetReads (.unitForms h))
      · refine .ite (.writeList (.tookFree (.forgetReads (.unitForms h)))) ?_
        split
        · exact .setRun (.writeList (.tookFree (.forgetReads (.unitForms h))))
        · exact .ite (.setRun (.writeList (.tookFree (.forgetReads (.unitForms h))))) (.setRun (.noteDone (.writeList (.tookFree
            (.forgetReads (.unitForms h))))))

theorem Kept.Holds.chunkResults {a : Agent} {g : TileRun} {t n : ℕ} (h : K.Holds s) : K.Holds (s.chunkResults a g t n).1 := by
  unfold State.chunkResults
  exact .iteFst h (.pair (.readElems h))

theorem Kept.Holds.foldScan {a : Agent} {g : TileRun} {t : ℕ} {p : List (List W64)} (h : K.Holds s) : K.Holds (s.foldScan a g t p).1 := by
  unfold State.foldScan
  exact .thenRead (.readTile h) (fun t1 a1 ht => .pair (.tookFree ht))

theorem Kept.Holds.foldTile {a : Agent} {g : TileRun} {t : ℕ} (h : K.Holds s) : K.Holds (s.foldTile a g t).1 := by
  unfold State.foldTile
  exact .thenRead (.chunkResults h) (fun t1 a1 ht => .iteFst (.thenRead (.iteFst ht (.readC ht)) (fun t2 a2 ht1 => .pair (.tookFree ht1)))
      (.iteFst (.foldScan ht) (.iteFst (.pair (.tookFree ht)) ht)))

theorem Kept.Holds.foldWrites {g : TileRun} {agent : ℕ → Agent} {x3 : List (ℕ × List ((ℕ × ℕ) × ℕ))} {x4 : State} {x5 : FoldWrote}
    (h : K.Holds x4) :
    K.Holds (State.foldWrites g agent x3 x4 x5).1 := by
  induction x3 generalizing g agent x4 x5 with
  | nil =>
    unfold State.foldWrites
    exact h
  | cons a l ih =>
    unfold State.foldWrites
    exact .iteFst (.pair (.writeList (.tookFree h))) (ih (.writeList (.tookFree h)))

theorem Kept.Next.execTileFold {c : CoreRef} {tok tile : ℕ} (h : K.Holds s) : K.Next (Machine.execTileFold c tok tile s) := by
  unfold Machine.execTileFold
  dsimp only
  refine .next ?_
  split
  · exact h
  · split
    · exact h
    · refine .ite h ?_
      split
      · exact .foldTile h
      · exact .setRun (.forgetReads (.foldTile h))
      · refine .ite (.foldWrites (.forgetReads (.foldTile h))) ?_
        split
        · exact .setRun (.foldWrites (.forgetReads (.foldTile h)))
        · exact .setRun (.noteDone (.foldWrites (.forgetReads (.foldTile h))))

theorem Kept.Holds.releaseTiles {c : CoreRef} {ptok : ℕ} {x : Cmd} {g : TileRun} (h : K.Holds s) : K.Holds (s.releaseTiles c ptok x g) := by
  unfold State.releaseTiles
  dsimp only
  refine .ite (.modCore (.tookFree (.tookFree (.wrote (.tookFree (.wrote (.foldl (fun t a ht => ?_) h) (fun w => Memory.wf_setBytes _ _
      w))) (fun w => Memory.wf_setBytes _ _ w))))) (.foldl (fun t a ht => ?_) h)
  · split
    · exact .ite ht (.ite (.freeSlotOf ht) ht)
    · exact ht
  · split
    · exact .ite ht (.ite (.freeSlotOf ht) ht)
    · exact ht

theorem Kept.Holds.spoil {a : Agent} {g : TileRun} {tiles : List ℕ} (h : K.Holds s) : K.Holds (s.spoil a g tiles).1 := by
  unfold State.spoil
  dsimp only
  refine .foldlFst (fun x p hx => ?_) h
  have written : K.Holds (x.1.engineWrite a ((g.desc 3).addr p.1 p.2) (x.1.freeBytes (g.desc 3).width)).1 := .engineWrite hx
  generalize x.1.engineWrite a ((g.desc 3).addr p.1 p.2) (x.1.freeBytes (g.desc 3).width) = y at written ⊢
  split
  · exact .pair (.tookFree written)
  · exact hx

theorem Kept.Holds.finishRun {c : CoreRef} {ptok : ℕ} {x : Cmd} {g : TileRun} {t : Option TileFault} {tc : W64} {failed : Option Trap}
    (h : K.Holds s) :
    K.Holds (s.finishRun c ptok x g t tc failed) := by
  unfold State.finishRun
  dsimp only
  split
  · exact .endCmd (.postFault (.foldl (fun t1 a ht => .dropFar ht) (.releaseTiles h)))
  · exact .endCmd (.foldl (fun t1 a ht => .dropFar ht) (.releaseTiles h))

theorem Kept.Holds.endRun {c : CoreRef} {ptok : ℕ} {x : Cmd} {g : TileRun} {state : ℕ} {t : Option TileFault} (h : K.Holds s) :
    K.Holds (s.endRun c ptok x g state t) := by
  unfold State.endRun
  exact .ite (.lastRecord (.foldl (fun t1 a ht => .dropFar ht) (.tookFree (.iteFst h (.spoil h))))) (.ite (.setRun (.lastRecord (.foldl
      (fun t1 a ht => .dropFar ht) (.tookFree (.iteFst h (.spoil h)))))) (.finishRun (.lastRecord (.foldl (fun t1 a ht => .dropFar ht)
      (.tookFree (.iteFst h (.spoil h)))))))

theorem Kept.Holds.resumeRun {a : Agent} {g : TileRun} (h : K.Holds s) : K.Holds (s.resumeRun a g).1 := by
  unfold State.resumeRun
  exact .pair (.readRun h)

theorem Kept.Holds.decompose {c : CoreRef} {ptok : ℕ} {x : Cmd} {g : TileRun} (h : K.Holds s) : K.Holds (s.decompose c ptok x g) := by
  unfold State.decompose
  dsimp only
  refine .ite (.endRun h) (.ite (.setRun h) ?_)
  split
  · exact .failWith (.tookFree h)
  · exact .ite (.failStart (.tookFree h)) (.modCore (.placeAll (.noteDone (.tookFree h))))

theorem Kept.Holds.checkRun {c : CoreRef} {ptok : ℕ} {x : Cmd} {g : TileRun} {opc : ℕ} {ord rz : Bool} (h : K.Holds s) :
    K.Holds (s.checkRun c ptok x g opc ord rz) := by
  unfold State.checkRun
  dsimp only
  split
  · exact .failStart h
  · refine .ite ?_ (.ite (.setRun (.noteDone (.raiseAgent h))) (.decompose (.tookFree (.noteDone (.raiseAgent h)))))
    split
    · exact .setRun (.resumeRun (.raiseAgent h))
    · exact .failStart (.resumeRun (.raiseAgent h))
    · exact .decompose (.tookFree (.resumeRun (.raiseAgent h)))

theorem Kept.Holds.startRun {c : CoreRef} {ptok : ℕ} {x : Cmd} {g : TileRun} {opc : ℕ} {ord rz : Bool} (h : K.Holds s) :
    K.Holds (s.startRun c ptok x g opc ord rz) := by
  unfold State.startRun
  dsimp only
  refine .ite (.failStart h) (.ite (.failStart h) (.ite (.failStart h) (.ite (.checkRun h) ?_)))
  split
  · exact .setRun (.readDescs h)
  · exact .failStart (.readDescs h)
  · exact .checkRun (.readDescs h)

theorem Kept.Next.execTileStart {c : CoreRef} {tok : ℕ} (h : K.Holds s) : K.Next (Machine.execTileStart c tok s) := by
  unfold Machine.execTileStart
  dsimp only
  refine .next ?_
  split
  · exact h
  · refine .ite h (.ite (.endCmd h) ?_)
    split
    · refine .ite h (.ite (.decompose h) (.ite (.startRun h) ?_))
      split
      · exact .readRun h
      · exact .endCmd (.readRun h)
      · exact .startRun (.readRun h)
    · exact h

theorem Kept.Next.execChildLost {c : CoreRef} {tok child : ℕ} (h : K.Holds s) : K.Next (Machine.execChildLost c tok child s) := by
  unfold Machine.execChildLost
  dsimp only
  refine .next ?_
  split
  · exact h
  · split
    · exact h
    · split
      · exact h
      · exact .ite h (.ite (.decompose h) (.setRun (.placeAll h)))

theorem Kept.Next.execTileComplete {c : CoreRef} {tok : ℕ} (h : K.Holds s) : K.Next (Machine.execTileComplete c tok s) := by
  unfold Machine.execTileComplete
  dsimp only
  refine .next ?_
  split
  · exact h
  · split
    · exact h
    · refine .ite h ?_
      split
      · exact .finishRun h
      · refine .ite h ?_
        split
        · exact h
        · exact .endRun h

theorem Kept.Slot.semTwait {g : Guard} {tok : BitVec 6} {d : BitVec 5} : K.Slot (Machine.semTwait g tok d) := by
  unfold Machine.semTwait
  exact .semToken ⟨fun t t1 ht ht1 => .push (.modMe ht1), fun t t1 ht ht1 => .ite (.some ht1) .none⟩

theorem Kept.Slot.semTstat {g : Guard} {tok : BitVec 6} {d : BitVec 5} : K.Slot (Machine.semTstat g tok d) := by
  unfold Machine.semTstat
  exact .semToken ⟨fun t t1 ht ht1 => .push ht1, fun t t1 ht ht1 => .none⟩

theorem Kept.Slot.semTabort {g : Guard} {tok : BitVec 6} {d : BitVec 5} : K.Slot (Machine.semTabort g tok d) := by
  unfold Machine.semTabort
  refine .semToken ⟨fun s0 s h0 h => ?_, fun s0 s h0 h => ?_⟩
  · dsimp only
    split
    · exact .push (.modHere h)
    · exact .push h
  · dsimp only
    exact .none

/-! ### The definitions of Sys2Proof/Machine/Launches.lean -/

theorem Kept.Holds.refuseCapacity {l : Launch} (h : K.Holds s) : K.Holds (s.refuseCapacity l) := by
  unfold State.refuseCapacity
  exact .postFault h

theorem Kept.Maybe.takeOn {l : Launch} {n : ℕ} {bars : List ℕ} {c : CoreRef} (h : K.Holds s) : K.Maybe (s.takeOn l n bars c) := by
  unfold State.takeOn
  dsimp only
  refine .ite .none ?_
  split
  · exact .some (.setTask (.modCore (.zeroWindow h)))
  · exact .none

theorem Kept.Beside.takeFrom {l : Launch} {n : ℕ} {bars : List ℕ} {cores : List CoreRef} {j : ℕ} (h : K.Holds s) :
    K.Beside (s.takeFrom l n bars cores j) := by
  unfold State.takeFrom
  refine .findSome (fun a => ?_)
  split
  · exact .map (fun t e => .pair (Kept.Maybe.holds (.takeOn h) e))
  · exact .none

theorem Kept.Beside.takeGroup {l : Launch} {bars : List ℕ} {cores : List CoreRef} {x4 : List ℕ} {x5 : ℕ} {x6 : State} (h : K.Holds x6) :
    K.Beside (State.takeGroup l bars cores x4 x5 x6) := by
  induction x4 generalizing l bars cores x5 x6 with
  | nil =>
    unfold State.takeGroup
    exact .some h
  | cons a l ih =>
    unfold State.takeGroup
    split
    · exact ih (Kept.Beside.holdsFst (.takeFrom h) ‹_›)
    · exact .none

theorem Kept.Holds.takeBars {die : ℕ} {bars : List ℕ} {count group owner : ℕ} (h : K.Holds s) :
    K.Holds (s.takeBars die bars count group owner) := by
  unfold State.takeBars
  exact .foldl (fun t a ht => .modDie ht) h

theorem Kept.Beside.placeOn {l : Launch} {i die cluster j : ℕ} (h : K.Holds s) : K.Beside (s.placeOn l i die cluster j) := by
  unfold State.placeOn
  dsimp only
  split
  · exact .none
  · exact .takeGroup (.takeBars h)

theorem Kept.Maybe.placeGroup {l : Launch} {i : ℕ} (h : K.Holds s) : K.Maybe (s.placeGroup l i) := by
  unfold State.placeGroup
  exact .findSome (fun x => .map (fun x1 e => .updated (Kept.Beside.holds (.placeOn h) e)))

theorem Kept.Holds.dropLaunch {seq : ℕ} (h : K.Holds s) : K.Holds (s.dropLaunch seq) := by
  unfold State.dropLaunch
  exact .modLaunch h

theorem Kept.Holds.loadLaunch {seq : ℕ} (h : K.Holds s) : K.Holds (s.loadLaunch seq) := by
  unfold State.loadLaunch
  dsimp only
  split
  · exact h
  · split
    · split
      · exact .dropLaunch h
      · refine .ite h (.ite (.dropLaunch (.endCmd h)) ?_)
        split
        · exact .readRun h
        · exact .dropLaunch (.endCmd (.readRun h))
        · split
          · exact .ite (.dropLaunch (.endCmd (.tookFree (.readRun h)))) (.ite (.dropLaunch (.endCmd (.refuseCapacity (.readRun h))))
              (.modCore (.modLaunch (.readRun h))))
          · exact .dropLaunch (.endCmd (.tookFree (.readRun h)))
    · exact h

theorem Kept.Next.execDispatchGroup {launch : ℕ} (h : K.Holds s) : K.Next (Machine.execDispatchGroup launch s) := by
  unfold Machine.execDispatchGroup
  dsimp only
  refine .next ?_
  split
  · exact .loadLaunch h
  · refine .ite (.loadLaunch h) ?_
    split
    · exact .modLaunch (Kept.Maybe.holds (.placeGroup (.loadLaunch h)) ‹_›)
    · exact .loadLaunch h

theorem Kept.Next.execClaim {t : TaskRef} (h : K.Holds s) : K.Next (Machine.execClaim t s) := by
  unfold Machine.execClaim
  dsimp only
  refine .next (.ite h ?_)
  split
  · exact .dropHold (.modLaunch h)
  · exact h

theorem Kept.Next.execStealRequest {t : TaskRef} (h : K.Holds s) : K.Next (Machine.execStealRequest t s) := by
  unfold Machine.execStealRequest
  refine .next (.ite h ?_)
  split
  · exact .dropHold (.modLaunch h)
  · exact h

theorem Kept.Next.execSlotRelease {t : TaskRef} (h : K.Holds s) : K.Next (Machine.execSlotRelease t s) := by
  unfold Machine.execSlotRelease
  exact .next (.ite (.freeSlotOf h) h)

theorem Kept.Holds.reply {kind status seq : ℕ} {contents : List Byte} (h : K.Holds s) : K.Holds (s.reply kind status seq contents) := by
  unfold State.reply
  exact .updated h

theorem Kept.Next.execLaunchComplete {launch : ℕ} (h : K.Holds s) : K.Next (Machine.execLaunchComplete launch s) := by
  unfold Machine.execLaunchComplete
  dsimp only
  refine .next ?_
  split
  · exact h
  · refine .ite h ?_
    split
    · refine .endCmd ?_
      split
      · exact .reply (.dropLaunch h)
      · exact .dropLaunch h
    · split
      · exact .reply (.dropLaunch h)
      · exact .dropLaunch h

theorem Kept.Slot.semTlnch {g : Guard} {tok : BitVec 6} {e : BitVec 4} : K.Slot (Machine.semTlnch g tok e) := by
  unfold Machine.semTlnch
  exact .semToken ⟨fun t t1 ht ht1 => .loadLaunch (.updated (.issueCmd ht1)), fun t t1 ht ht1 => .none⟩

/-! ### The definitions of Sys2Proof/Machine/Attest.lean -/

theorem Kept.Holds.signRequest {b : List Byte} (h : K.Holds s) : K.Holds (s.signRequest b).1 := by
  unfold State.signRequest
  exact .iteFst h (.iteFst h (.pair (.updated h)))

theorem Kept.Holds.attestRecord {a : W64} (h : K.Holds s) : K.Holds (s.attestRecord a).1 := by
  unfold State.attestRecord
  exact .lodgeRead h

theorem Kept.Slot.semAttest {g : Guard} {a b c : BitVec 5} : K.Slot (Machine.semAttest g a b c) := by
  unfold Machine.semAttest
  exact ⟨fun t t1 ht ht1 => .updated (.holdOn (.lodgeRest (.attestRecord ht1))), fun t t1 ht ht1 => .ite (.some (.attestRecord ht1)) .none⟩

theorem Kept.Holds.writeArea {die : ℕ} {a : W64} {x4 : List (ℕ × List Byte)} (h : K.Holds s) : K.Holds (s.writeArea die a x4).1 := by
  induction x4 generalizing s die a with
  | nil =>
    unfold State.writeArea
    exact h
  | cons a l ih =>
    unfold State.writeArea
    dsimp only
    split
    · exact .pair (.lodgeStore h)
    · exact ih (.lodgeStore h)

theorem Kept.Holds.serveExtend {die : ℕ} {b : List Byte} (h : K.Holds s) : K.Holds (s.serveExtend die b).1 := by
  have read : K.Holds (s.lodgeRead die (BitVec.ofNat 64 (bytesAt b 8 8)) (bytesAt b 16 8)).1 := .lodgeRead h
  unfold State.serveExtend
  dsimp only
  generalize s.lodgeRead die (BitVec.ofNat 64 (bytesAt b 8 8)) (bytesAt b 16 8) = y at read ⊢
  split
  · exact .pair (.postUnread read)
  · exact read
  · exact .pair (.extendJob read)

theorem Kept.Holds.serveAttest {die : ℕ} {req area : W64} (h : K.Holds s) : K.Holds (s.serveAttest die req area).1 := by
  unfold State.serveAttest
  dsimp only
  split
  · exact .pair (.postUnread (.lodgeRead h))
  · exact .pair (.lodgeRead h)
  · refine .iteFst (.pair (.lodgeRead h)) (.iteFst (.serveExtend (.lodgeRead h)) (.iteFst (.pair (.lodgeRead h)) (.iteFst (.pair
      (.lodgeRead h)) (.iteFst (.pair (.lodgeRead h)) ?_))))
    split
    · exact .pair (.writeArea (.signRequest (.lodgeRead h)))
    · exact .pair (.postUnread (.writeArea (.signRequest (.lodgeRead h))))

theorem Kept.Slot.semKeyld {g : Guard} {a b c : BitVec 5} : K.Slot (Machine.semKeyld g a b c) := by
  unfold Machine.semKeyld
  exact ⟨fun t t1 ht ht1 => .updated (.holdOn ht1), fun t t1 ht ht1 => .none⟩

theorem Kept.Holds.installKey {job : ℕ} {b : List Byte} (h : K.Holds s) : K.Holds (s.installKey job b).1 := by
  unfold State.installKey
  dsimp only
  split
  · exact h
  · split
    · exact h
    · exact .iteFst h (.iteFst h (.pair (.updated h)))

theorem Kept.Holds.clearKey {job : ℕ} (h : K.Holds s) : K.Holds (s.clearKey job).1 := by
  unfold State.clearKey
  exact .iteFst h (.pair (.removeKey h))

theorem Kept.Holds.serveKeyld {die : ℕ} {v blob : W64} (h : K.Holds s) : K.Holds (s.serveKeyld die v blob).1 := by
  have read : K.Holds (s.lodgeRead die blob 2048).1 := .lodgeRead h
  unfold State.serveKeyld
  dsimp only
  refine .iteFst (.pair (.clearKey h)) (.iteFst h ?_)
  generalize s.lodgeRead die blob 2048 = x at read ⊢
  split
  · exact .pair (.postUnread read)
  · exact read
  · exact .pair (.installKey read)

theorem Kept.Holds.unitNext (h : K.Holds s) : K.Holds (s.unitNext) := by
  unfold State.unitNext
  exact .updated h

theorem Kept.Holds.unitEnds {r : TaskRef} {d : ℕ} {x : State × Option ℕ} (h : K.Holds x.1) : K.Holds (State.unitEnds r d x) := by
  unfold State.unitEnds
  split
  · exact .settle (.lodgeRest (.unitNext h))
  · exact h

theorem Kept.Holds.serveUnit (h : K.Holds s) : K.Holds (s.serveUnit) := by
  unfold State.serveUnit
  split
  · exact h
  · split
    · exact .unitEnds (.serveAttest h)
    · exact .unitEnds (.serveKeyld h)
    · exact .unitNext h

theorem Kept.Next.execAttestServe (h : K.Holds s) : K.Next (Machine.execAttestServe s) := by
  unfold Machine.execAttestServe
  refine .next ?_
  split
  · exact h
  · exact .ite h (.serveUnit h)

/-! ### The definitions of Sys2Proof/Machine/Checkpoint.lean -/

theorem Kept.Holds.retire {c : CoreRef} {source : ℕ} (h : K.Holds s) : K.Holds (s.retire c source) := by
  unfold State.retire
  exact .modCore (.foldl (fun t a ht => .modTask (.postTaskFault ht)) (.modLodge h))

theorem Kept.Holds.restoreLogged {c : CoreRef} {x : LogItem} (h : K.Holds s) : K.Holds (State.restoreLogged c s x) := by
  unfold State.restoreLogged
  split
  · exact .modCore h
  · exact .wrote h (fun w => Memory.wf_setBytes _ _ w)

theorem Kept.Holds.rollBack {r : TaskRef} {g : Region} (h : K.Holds s) : K.Holds (s.rollBack r g) := by
  unfold State.rollBack
  exact .modCore (.setTask (.foldl (fun t a ht => .restoreLogged ht) h))

theorem Kept.Holds.haltAgain {r : TaskRef} {x : Rerun} (h : K.Holds s) : K.Holds (s.haltAgain r x) := by
  unfold State.haltAgain
  exact .ite (.modCore (.modTask h)) h

theorem Kept.Holds.judgeReruns {r : TaskRef} {g : Region} {x : Rerun} (h : K.Holds s) : K.Holds (s.judgeReruns r g x) := by
  unfold State.judgeReruns
  exact .ite (.haltAgain (.postEvent (.modCore h))) (.retire (.modCore h))

theorem Kept.Holds.retireLost {r : TaskRef} {addr : W32} {count sig : W64} {x : Rerun} (h : K.Holds s) :
    K.Holds (s.retireLost r addr count sig x) := by
  unfold State.retireLost
  exact .retire (.modCore (.tookFree h))

theorem Kept.Holds.recover {c : CoreRef} (h : K.Holds s) : K.Holds (s.recover c) := by
  unfold State.recover
  dsimp only
  split
  · exact h
  · refine .ite h ?_
    split
    · exact .retireLost h
    · exact .ite (.modCore (.rollBack h)) (.ite (.retireLost h) (.ite h (.ite (.modCore (.rollBack h)) (.judgeReruns h))))

theorem Kept.Holds.recoverAll {c : CoreRef} (h : K.Holds s) : K.Holds (s.recoverAll c) := by
  unfold State.recoverAll
  exact .recover (.recover (.recover h))

theorem Kept.Holds.tileReruns {r : TaskRef} {source : ℕ} (h : K.Holds s) : K.Holds (s.tileReruns r source).1 := by
  unfold State.tileReruns
  exact .pair (.modCore (.tookFree h))

theorem Kept.Holds.tileError {r : TaskRef} {source : ℕ} {c : CoreRef} {ptok : ℕ} (h : K.Holds s) :
    K.Holds (s.tileError r source c ptok) := by
  unfold State.tileError
  dsimp only
  refine .ite (.retire (.tileReruns h)) ?_
  split
  · exact .postEvent (.tileReruns h)
  · split
    · exact .postEvent (.tileReruns h)
    · split
      · exact .postEvent (.tileReruns h)
      · exact .setRun (.postEvent (.tileReruns h))

theorem Kept.Holds.beyondRepair {r : TaskRef} {source : ℕ} (h : K.Holds s) : K.Holds (s.beyondRepair r source) := by
  unfold State.beyondRepair
  exact .ite (.postTaskFault h) (.haltTask (.postTaskFault h))

theorem Kept.Holds.arrayError {r : TaskRef} {source : ℕ} (h : K.Holds s) : K.Holds (s.arrayError r source) := by
  unfold State.arrayError
  dsimp only
  split
  · exact h
  · split
    · exact .tileError (.ite (.modCore h) h)
    · split
      · exact .ite (.ite (.modCore h) h) (.beyondRepair (.tookFree (.ite (.modCore h) h)))
      · exact .ite (.recoverAll (.modCore (.tookFree (.ite (.modCore h) h)))) (.beyondRepair (.tookFree (.ite (.modCore h) h)))
      · exact .beyondRepair (.tookFree (.ite (.modCore h) h))

theorem Kept.Holds.storeError {r : TaskRef} {place : ℕ} (h : K.Holds s) : K.Holds (s.storeError r place) := by
  unfold State.storeError
  split
  · exact h
  · exact .ite h (.modTask (.takeTrap h))

theorem Kept.Holds.poison {place : ℕ} (h : K.Holds s) : K.Holds (s.poison place) := by
  unfold State.poison
  exact .ite h (.ite (.modLine h) (.foldl (fun t a ht => .modDie ht) h))

theorem Kept.Next.execRerunDone {c : CoreRef} (h : K.Holds s) : K.Next (Machine.execRerunDone c s) := by
  unfold Machine.execRerunDone
  exact .next (.recoverAll h)

theorem Kept.Next.execRegionUnprotected {t : TaskRef} (h : K.Holds s) : K.Next (Machine.execRegionUnprotected t s) := by
  unfold Machine.execRegionUnprotected
  refine .next ?_
  split
  · exact .modCore h
  · exact h

/-! ### The definitions of Sys2Proof/Machine/Mcst.lean -/

theorem Kept.Slot.semMcst {g : Guard} {tok : BitVec 6} {e : BitVec 4} : K.Slot (Machine.semMcst g tok e) := by
  unfold Machine.semMcst
  exact .semToken ⟨fun t t1 ht ht1 => .issueCmd ht1, fun t t1 ht ht1 => .none⟩

theorem Kept.Holds.pushCell {c : CoreRef} {ptok : ℕ} {x : Cmd} {cell : Cell} (h : K.Holds s) : K.Holds (s.pushCell c ptok x cell) := by
  unfold State.pushCell
  exact .modCore h

theorem Kept.Holds.feedMcst {c : CoreRef} {ptok x3 : ℕ} {x4 : State} (h : K.Holds x4) : K.Holds (State.feedMcst c ptok x3 x4) := by
  induction x3 generalizing c ptok x4 with
  | zero =>
    unfold State.feedMcst
    exact h
  | succ n ih =>
    unfold State.feedMcst
    dsimp only
    split
    · exact h
    · refine .ite h (.ite (ih (.pushCell h)) ?_)
      split
      · exact .readRun h
      · exact .endCmd (.noteRefused (.readRun h))
      · exact ih (.pushCell (.readRun h))

theorem Kept.Next.execMcstStart {c : CoreRef} {tok : ℕ} (h : K.Holds s) : K.Next (Machine.execMcstStart c tok s) := by
  unfold Machine.execMcstStart
  dsimp only
  refine .next ?_
  split
  · exact h
  · refine .ite h (.ite (.endCmd h) ?_)
    split
    · exact .readRun h
    · exact .endCmd (.noteRefused (.readRun h))
    · exact .ite (.feedMcst (.modCore (.readRun h))) (.endCmd (.readRun h))

theorem Kept.Next.execMcstComplete {c : CoreRef} {tok : ℕ} (h : K.Holds s) : K.Next (Machine.execMcstComplete c tok s) := by
  unfold Machine.execMcstComplete
  dsimp only
  refine .next ?_
  split
  · exact h
  · refine .ite h ?_
    split
    · exact .feedMcst h
    · exact .ite (.endCmd (.feedMcst h)) (.feedMcst h)

/-! ### The definitions of Sys2Proof/Machine/Collectives.lean -/

theorem Kept.Holds.modColl {die job : ℕ} {id : W64} {f : Coll → Coll} (h : K.Holds s) : K.Holds (s.modColl die job id f) := by
  unfold State.modColl
  exact .modDie h

theorem Kept.Holds.modColls {job : ℕ} {id : W64} {f : Coll → Coll} (h : K.Holds s) : K.Holds (s.modColls job id f) := by
  unfold State.modColls
  exact .foldl (fun t a ht => .modColl ht) h

theorem Kept.Holds.dropColl {job : ℕ} {id : W64} (h : K.Holds s) : K.Holds (s.dropColl job id) := by
  unfold State.dropColl
  exact .foldl (fun t a ht => .modDie ht) h

theorem Kept.Holds.rankList {die : ℕ} {a : Agent} {addr : W64} {n : ℕ} (h : K.Holds s) : K.Holds (s.rankList die a addr n).1 := by
  unfold State.rankList
  dsimp only
  split
  · exact h
  · split
    · exact .pair (.readElems h)
    · exact .pair (.modDie (.readElems h))

theorem Kept.Slot.semRlinv {g : Guard} {a : BitVec 5} : K.Slot (Machine.semRlinv g a) := by
  unfold Machine.semRlinv
  exact ⟨fun t t1 ht ht1 => .foldl (fun t2 a1 ht2 => .modDie ht2) ht1, fun t t1 ht ht1 => .none⟩

theorem Kept.Slot.semColl {g : Guard} {tok : BitVec 6} {e : BitVec 4} {ord rz : BitVec 1} : K.Slot (Machine.semColl g tok e ord rz) := by
  unfold Machine.semColl
  exact .semToken ⟨fun t t1 ht ht1 => .issueCmd ht1, fun t t1 ht ht1 => .none⟩

theorem Kept.Holds.writeRecord {die : ℕ} {a : Agent} {b : List Byte} {lines : List ℕ} {rec : W64 → List Byte} (h : K.Holds s) :
    K.Holds (s.writeRecord die a b lines rec).1 := by
  unfold State.writeRecord
  exact .pair (.foldl (fun t a1 ht => .modLine ht) (.writeList (.stamp (.writeList h))))

theorem Kept.Holds.failRank {cause rank job : ℕ} {id : W64} {e : ℕ × CollRank} (h : K.Holds s) :
    K.Holds (State.failRank cause rank job id s e) := by
  unfold State.failRank
  dsimp only
  split
  · exact h
  · exact .endCmd (.dropFar (.dropFar (.writeRecord (.foldlFst (fun x x1 ht => .pair (.tookFree (.writeList ht))) h))))

theorem Kept.Holds.failColl {job : ℕ} {id : W64} {cause rank : ℕ} (h : K.Holds s) : K.Holds (s.failColl job id cause rank) := by
  unfold State.failColl
  exact .modColls (.foldl (fun t x ht => .failRank ht) h)

theorem Kept.Holds.failAccess {job : ℕ} {id : W64} {r : CollRank} {t : Trap} (h : K.Holds s) : K.Holds (s.failAccess job id r t) := by
  unfold State.failAccess
  dsimp only
  refine .failColl ?_
  split
  · exact .noteRefused h
  · exact h

theorem Kept.Holds.settleFailed {job : ℕ} {id : W64} (h : K.Holds s) : K.Holds (s.settleFailed job id) := by
  unfold State.settleFailed
  dsimp only
  split
  · exact .ite (.dropColl h) h
  · exact h

theorem Kept.Holds.pruneColl {job : ℕ} {id : W64} (h : K.Holds s) : K.Holds (s.pruneColl job id) := by
  unfold State.pruneColl
  exact .ite (.dropColl (.modColls h)) (.settleFailed (.modColls h))

theorem Kept.Holds.pruneColls {die : ℕ} (h : K.Holds s) : K.Holds (s.pruneColls die) := by
  unfold State.pruneColls
  exact .foldl (fun t a ht => .pruneColl ht) h

theorem Kept.Next.execCollFault {job : ℕ} {collid : BitVec 64} {cause rank : ℕ} (h : K.Holds s) :
    K.Next (Machine.execCollFault job collid cause rank s) := by
  unfold Machine.execCollFault
  refine .next ?_
  split
  · exact .ite (.settleFailed (.failColl h)) h
  · exact h

theorem Kept.Holds.engineLists {job : ℕ} {id : W64} {x3 : List (ℕ × CollRank)} {x4 : State} (h : K.Holds x4) :
    K.Holds (State.engineLists job id x3 x4).1 := by
  induction x3 generalizing job id x4 with
  | nil =>
    unfold State.engineLists
    exact h
  | cons a l ih =>
    unfold State.engineLists
    dsimp only
    split
    · exact h
    · split
      · exact .pair (.rankList h)
      · exact .pair (.rankList h)
      · exact .pair (ih (.rankList h))

theorem Kept.Holds.dropRank {job : ℕ} {id : W64} {e : ℕ × CollRank × List Byte} (h : K.Holds s) : K.Holds (s.dropRank job id e) := by
  unfold State.dropRank
  exact .endCmd (.modColl h)

theorem Kept.Holds.startColl {job : ℕ} {id : W64} (h : K.Holds s) : K.Holds (s.startColl job id) := by
  unfold State.startColl
  dsimp only
  split
  · exact h
  · refine .ite h ?_
    split
    · exact .engineLists h
    · exact .ite (.settleFailed (.failAccess (.engineLists h))) h
    · refine .ite h (.ite (.tookFree (.engineLists h)) (.ite (.foldl (fun t x ht => .dropRank ht) (.tookFree (.engineLists h))) ?_))
      split
      · exact .settleFailed (.failColl (.tookFree (.engineLists h)))
      · exact .ite (.settleFailed (.failColl (.tookFree (.engineLists h)))) (.modColls (.tookFree (.engineLists h)))

theorem Kept.Holds.joinColl {c : CoreRef} {ptok : ℕ} {x : Cmd} (h : K.Holds s) : K.Holds (s.joinColl c ptok x) := by
  unfold State.joinColl
  dsimp only
  split
  · exact .modColl (.ite (.modDie (.modCore h)) (.modDie (.modDie (.modCore h))))
  · split
    · exact .settleFailed (.modColl (.failRank (.modColl (.ite (.modDie (.modCore h)) (.modDie (.modDie (.modCore h)))))))
    · exact .ite (.settleFailed (.failColl (.modColl (.ite (.modDie (.modCore h)) (.modDie (.modDie (.modCore h))))))) (.startColl
        (.modColl (.ite (.modDie (.modCore h)) (.modDie (.modDie (.modCore h))))))

theorem Kept.Holds.enterColl {c : CoreRef} {ptok : ℕ} {x : Cmd} (h : K.Holds s) : K.Holds (s.enterColl c ptok x) := by
  unfold State.enterColl
  exact .ite (.joinColl (.modCore (.ite (.pruneColls h) (.modDie (.pruneColls h))))) (.ite (.modCore (.ite (.pruneColls h) (.modDie
      (.pruneColls h)))) (.joinColl (.modCore (.ite (.pruneColls h) (.modDie (.pruneColls h))))))

theorem Kept.Next.execCollArrive {c : CoreRef} {tok : ℕ} (h : K.Holds s) : K.Next (Machine.execCollArrive c tok s) := by
  unfold Machine.execCollArrive
  dsimp only
  refine .next ?_
  split
  · exact h
  · refine .ite h (.ite (.enterColl h) (.ite (.endCmd h) (.ite (.endCmd h) ?_)))
    split
    · exact .readRun h
    · exact .endCmd (.noteRefused (.readRun h))
    · exact .ite (.endCmd (.readRun h)) (.enterColl (.readRun h))

theorem Kept.Holds.readArray {a : Agent} {base : W64} {w n : ℕ} (h : K.Holds s) : K.Holds (s.readArray a base w n).1 := by
  unfold State.readArray
  exact .readElems h

theorem Kept.Holds.rankSource {job : ℕ} {id : W64} {r : CollRank} (h : K.Holds s) : K.Holds (s.rankSource job id r).1 := by
  unfold State.rankSource
  dsimp only
  split
  · exact h
  · exact .iteFst h (.thenRead (.readArray h) (fun t a ht => .iteFst (.thenRead (.readArray ht) (fun t1 a1 ht1 => ht1)) ht))

theorem Kept.Holds.farSource {b : List Byte} (h : K.Holds s) : K.Holds (s.farSource b).1 := by
  unfold State.farSource
  exact .pair (.tookFree h)

theorem Kept.Holds.rankSources {y : Coll} {x2 : List ℕ} {x3 : State} (h : K.Holds x3) : K.Holds (State.rankSources y x2 x3).1 := by
  induction x2 generalizing y x3 with
  | nil =>
    unfold State.rankSources
    exact h
  | cons a l ih =>
    unfold State.rankSources
    dsimp only
    split
    · exact .pair (ih (.farSource h))
    · split
      · exact .pair (.rankSource h)
      · exact .pair (.rankSource h)
      · exact .pair (ih (.rankSource h))

theorem Kept.Holds.takeSources {y : Coll} (h : K.Holds s) : K.Holds (s.takeSources y) := by
  unfold State.takeSources
  dsimp only
  split
  · exact .rankSources h
  · exact .failAccess (.rankSources h)
  · exact .modColls (.rankSources h)

theorem Kept.Holds.spoilWork {a : Agent} {b : List Byte} (h : K.Holds s) : K.Holds (s.spoilWork a b).1 := by
  unfold State.spoilWork
  exact .iteFst h (.pair (.tookFree (.writeList h)))

theorem Kept.Holds.sendTree {die job : ℕ} {b : List Byte} {l : List ℕ} (h : K.Holds s) : K.Holds (s.sendTree die job b l) := by
  unfold State.sendTree
  exact .foldl (fun t a ht => .input ht) h

theorem Kept.Holds.modRank {die job : ℕ} {id : W64} {rank : ℕ} {f : CollRank → CollRank} (h : K.Holds s) :
    K.Holds (s.modRank die job id rank f) := by
  unfold State.modRank
  exact .modColl h

theorem Kept.Holds.putRank {die job : ℕ} {id : W64} {x : Cmd} {r : CollRank} {res : RankResult} (h : K.Holds s) :
    K.Holds (s.putRank die job id x r res) := by
  unfold State.putRank
  dsimp only
  refine .ite (.writeList h) ?_
  split
  · exact .failAccess h
  · exact .modRank (.writeRecord (.writeList (.tookFree (.spoilWork h))))

theorem Kept.Holds.endRank {die job : ℕ} {id : W64} {r : CollRank} (h : K.Holds s) : K.Holds (s.endRank die job id r) := by
  unfold State.endRank
  dsimp only
  refine .ite h ?_
  split
  · exact .failAccess h
  · exact .ite (.dropColl (.foldl (fun t x ht => .dropFar ht) (.modRank (.endCmd (.dropFar h))))) (.modRank (.endCmd (.dropFar h)))

theorem Kept.Holds.runRank {die : ℕ} {y : Coll} {x : Cmd} {r : CollRank} {src : List (List ℕ × List ℤ)} (h : K.Holds s) :
    K.Holds (s.runRank die y x r src) := by
  unfold State.runRank
  dsimp only
  refine .ite h (.ite (.ite (.modRank h) (.sendTree (.modRank h))) ?_)
  split
  · exact h
  · exact .failColl h
  · exact .putRank (.tookFree h)

theorem Kept.Next.execCollComplete {job : ℕ} {collid : BitVec 64} {rank : ℕ} (h : K.Holds s) :
    K.Next (Machine.execCollComplete job collid rank s) := by
  unfold Machine.execCollComplete
  refine .next ?_
  split
  · exact h
  · split
    · exact h
    · refine .ite h (.ite (.startColl (.pruneColl h)) ?_)
      split
      · exact .failColl h
      · refine .ite (.endRank h) ?_
        split
        · exact .takeSources h
        · exact .runRank h

/-! ### The definitions of Sys2Proof/Machine/Engines.lean -/

theorem Kept.Holds.takeSource {f : Tbl W64} (h : K.Holds s) : K.Holds (s.takeSource f) := by
  unfold State.takeSource
  dsimp only
  split
  · exact h
  · exact .ite (.modHere (.modMe h)) (.modMe h)

theorem Kept.Slot.semCopy {k : CopyKind} {g : Guard} {tok : BitVec 6} {e : BitVec 4} : K.Slot (Machine.semCopy k g tok e) := by
  unfold Machine.semCopy
  refine .semToken ⟨fun s0 s h0 h => ?_, fun s0 s h0 h => ?_⟩
  · dsimp only
    exact .issueCmd (.takeSource h)
  · dsimp only
    split
    · exact .ite .none (.some h)
    · exact .none

theorem Kept.Slot.semCpy {g : Guard} {tok : BitVec 6} {e : BitVec 4} : K.Slot (Machine.semCpy g tok e) := by
  unfold Machine.semCpy
  exact .semCopy

theorem Kept.Slot.semGth {g : Guard} {tok : BitVec 6} {e : BitVec 4} : K.Slot (Machine.semGth g tok e) := by
  unfold Machine.semGth
  exact .semCopy

theorem Kept.Slot.semSct {g : Guard} {tok : BitVec 6} {e : BitVec 4} : K.Slot (Machine.semSct g tok e) := by
  unfold Machine.semSct
  exact .semCopy

theorem Kept.Holds.readIndex {g : Agent} {k : CopyKind} {x : Cmd} {c : CellRun} (h : K.Holds s) : K.Holds (s.readIndex g k x c).1 := by
  unfold State.readIndex
  dsimp only
  refine .iteFst h ?_
  split
  · exact h
  · exact .pair (.engineRead h)

theorem Kept.Holds.elementData {g : Agent} {k : CopyKind} {x : Cmd} {puts : List (ℕ × List Byte)} {act : ElemAct} (h : K.Holds s) :
    K.Holds (s.elementData g k x puts act).1 := by
  unfold State.elementData
  dsimp only
  split
  · refine .iteFst (.pair (.engineRead h)) ?_
    split
    · exact .pair (.tookFree (.engineRead h))
    · exact .pair (.engineRead h)
  · exact h

theorem Kept.Holds.gatherCell {g : Agent} {k : CopyKind} {x : Cmd} {dry : Bool} {x5 : ℕ} {x6 : State × CellRun} (h : K.Holds x6.1) :
    K.Holds (State.gatherCell g k x dry x5 x6).1 := by
  induction x5 generalizing g k x dry x6 with
  | zero =>
    unfold State.gatherCell
    exact h
  | succ n ih =>
    unfold State.gatherCell
    dsimp only
    split
    · exact .pair (.readIndex h)
    · exact .pair (.readIndex h)
    · refine .iteFst (ih (.pair (.readIndex h))) (.iteFst (.pair (.readIndex h)) (.iteFst (ih (.pair (.readIndex h))) ?_))
      split
      · exact .pair (.elementData (.readIndex h))
      · exact .pair (.elementData (.readIndex h))
      · exact ih (.pair (.elementData (.readIndex h)))

theorem Kept.Holds.nextCell {g : Agent} {k : CopyKind} {x : Cmd} (h : K.Holds s) : K.Holds (s.nextCell g k x).1 := by
  unfold State.nextCell
  exact .gatherCell h

theorem Kept.Holds.copyWrite {g : Agent} {a : W64} {b : List Byte} (h : K.Holds s) : K.Holds (s.copyWrite g a b).1 := by
  unfold State.copyWrite
  dsimp only
  split
  · exact .iteFst (.pair (.ite (.tookFree h) h)) (.pair (.ite (.tookFree h) h))
  · exact .pair (.engineWrite h)

theorem Kept.Holds.writeCell {g : Agent} {k : CopyKind} {x3 : List (W64 × List Byte)} {x4 : State} {x5 : Cmd} (h : K.Holds x4) :
    K.Holds (State.writeCell g k x3 x4 x5).1 := by
  induction x3 generalizing g k x4 x5 with
  | nil =>
    unfold State.writeCell
    exact h
  | cons a l ih =>
    unfold State.writeCell
    dsimp only
    split
    · exact h
    · exact .pair (.copyWrite h)
    · exact ih (.copyWrite h)

theorem Kept.Holds.putCell {g : Agent} {k : CopyKind} {x : Cmd} {c : CellRun} (h : K.Holds s) : K.Holds (s.putCell g k x c).1 := by
  unfold State.putCell
  dsimp only
  refine .iteFst h ?_
  split
  · exact .writeCell h
  · exact .iteFst (.pair (.postTaskFault h)) (.pair (.ite h (.arrive h)))

theorem Kept.Holds.landStores {g : Agent} {x : Cmd} (h : K.Holds s) : K.Holds (s.landStores g x).1 := by
  unfold State.landStores
  exact .stamp (.foldl (fun t x1 ht => .storeHbm ht) h)

theorem Kept.Holds.failCopy {g : Agent} {c : CoreRef} {ptok : ℕ} {x : Cmd} {t : Trap} (h : K.Holds s) :
    K.Holds (s.failCopy g c ptok x t) := by
  unfold State.failCopy
  exact .endCmd (.dropFar (.postFault (.landStores h)))

theorem Kept.Holds.finishCopy {g : Agent} {c : CoreRef} {ptok : ℕ} {x : Cmd} (h : K.Holds s) : K.Holds (s.finishCopy g c ptok x) := by
  unfold State.finishCopy
  exact .endCmd (.dropFar (.modDie (.landStores h)))

theorem Kept.Next.execCopyStart {c : CoreRef} {tok : ℕ} (h : K.Holds s) : K.Next (Machine.execCopyStart c tok s) := by
  unfold Machine.execCopyStart
  dsimp only
  refine .next ?_
  split
  · exact h
  · exact .ite h (.ite (.endCmd h) (.raiseAgent (.modCore h)))

theorem Kept.Holds.keepCell {c : CoreRef} {tok : ℕ} {x : Cmd} {r : CellRun} (h : K.Holds s) : K.Holds (s.keepCell c tok x r) := by
  unfold State.keepCell
  exact .modCore h

theorem Kept.Next.execCopyCellWrite {c : CoreRef} {tok : ℕ} (h : K.Holds s) : K.Next (Machine.execCopyCellWrite c tok s) := by
  unfold Machine.execCopyCellWrite
  dsimp only
  refine .next ?_
  split
  · exact h
  · refine .ite h (.ite (.keepCell (.nextCell h)) (.ite (.keepCell (.nextCell h)) ?_))
    split
    · exact .failCopy (.modCore (.dropLoads (.dropLoads (.putCell (.nextCell h)))))
    · exact .modCore (.dropLoads (.dropLoads (.putCell (.nextCell h))))

theorem Kept.Next.execCopyComplete {c : CoreRef} {tok : ℕ} (h : K.Holds s) : K.Next (Machine.execCopyComplete c tok s) := by
  unfold Machine.execCopyComplete
  dsimp only
  refine .next ?_
  split
  · exact h
  · refine .ite h ?_
    split
    · exact .failCopy h
    · exact .finishCopy h

/-! ### The definitions of Sys2Proof/Machine/Gang.lean -/

theorem Kept.Holds.readBlock {a : W64} (h : K.Holds s) : K.Holds (s.readBlock a).1 := by
  unfold State.readBlock
  exact .iteFst h (.lodgeRead h)

theorem Kept.Maybe.switchWait {a : W64} {s0 s : State} (h1 : K.Holds s) : K.Maybe (Machine.switchWait a s0 s) := by
  unfold Machine.switchWait
  exact .ite (.some (.readBlock h1)) .none

theorem Kept.Holds.toOrangery {k : SwitchBlock} {off : ℕ} {b : List Byte} (h : K.Holds s) : K.Holds (s.toOrangery k off b) := by
  unfold State.toOrangery
  exact .storeHbm h

theorem Kept.Holds.stopJob {g : Gang} (h : canonical.Holds s) : canonical.Holds (s.stopJob g) := by
  unfold State.stopJob
  exact .toOrangery (.foldl (fun t a ht => .output ht) (.foldl (fun t a ht => .ite ht (.preemptAt (.modTask ht))) (.changed h)))

theorem Kept.Holds.startGang {b : SwitchBlock} {issuer : Option (TaskRef × ℕ)} (h : canonical.Holds s) :
    canonical.Holds (s.startGang b issuer) := by
  unfold State.startGang
  exact .ite (.stopJob h) (.changed h)

theorem Kept.Next.execGangStopTimeout (h : canonical.Holds s) : canonical.Next (Machine.execGangStopTimeout s) := by
  unfold Machine.execGangStopTimeout
  refine .next ?_
  split
  · exact .ite h (.stopJob (.updated h))
  · exact h

theorem Kept.Next.execGswCommand {b : SwitchBlock} (h : canonical.Holds s) : canonical.Next (Machine.execGswCommand b s) := by
  unfold Machine.execGswCommand
  exact .next (.ite h (.startGang h))

theorem Kept.Holds.add {x : Swept} {l : RecLoc} {b : List Byte} (h : K.Holds x.1) : K.Holds (x.add l b).1 := by
  unfold Swept.add
  exact h

theorem Kept.Holds.cells {p : PortRef} {source : ℕ} {l : List Cell} {x : Swept} (h : K.Holds x.1) :
    K.Holds (Swept.cells p source l x).1 := by
  unfold Swept.cells
  exact .foldlFst (fun x1 a ht => .add ht) h

theorem Kept.Holds.sweepPort {job : ℕ} {x : Swept} {p : PortRef} (h : K.Holds x.1) : K.Holds (Machine.sweepPort job x p).1 := by
  unfold Machine.sweepPort
  exact .pair (.foldl (fun t a ht => .modCore ht) (.modPort (.foldlFst (fun x1 x2 ht => .cells ht) h)))

theorem Kept.Holds.sweepPorts {job : ℕ} {x : Swept} (h : K.Holds x.1) : K.Holds (Machine.sweepPorts job x).1 := by
  unfold Machine.sweepPorts
  exact .foldlFst (fun x1 x2 ht => .iteFst (.foldlFst (fun x3 a ht1 => .sweepPort ht1) ht) ht) h

theorem Kept.Holds.sweepPavilion {job : ℕ} {x : Swept} {d : ℕ × ℕ} (h : K.Holds x.1) : K.Holds (Machine.sweepPavilion job x d).1 := by
  unfold Machine.sweepPavilion
  dsimp only
  exact .iteFst h (.pair (.modGang (.wrote (.modPav h) fun w => Memory.wf_foldl (fun _ _ hm => Memory.wf_clear _ _ hm) w)))

theorem Kept.Holds.sweepPavilions {job : ℕ} {x : Swept} (h : K.Holds x.1) : K.Holds (Machine.sweepPavilions job x).1 := by
  unfold Machine.sweepPavilions
  exact .foldlFst (fun x1 x2 ht => .sweepPavilion ht) h

theorem Kept.Holds.sweepRetries {job : ℕ} {x : Swept} (h : K.Holds x.1) : K.Holds (Machine.sweepRetries job x).1 := by
  unfold Machine.sweepRetries
  dsimp only
  refine .foldlFst (fun x1 a ht => ?_) h
  split
  · exact ht
  · exact .iteFst ht (.pair (.modLink (.foldlFst (fun x2 x3 ht1 => .add ht1) ht)))

theorem Kept.Holds.sweepQueue {job : ℕ} {r : TaskRef} {x : Swept} {q : ℕ} (h : K.Holds x.1) : K.Holds (Machine.sweepQueue job r x q).1 := by
  unfold Machine.sweepQueue
  exact .pair (.modPort (.modTask (.foldlFst (fun x1 a ht => .add ht) h)))

theorem Kept.Holds.sweepQueues {job : ℕ} {x : Swept} (h : K.Holds x.1) : K.Holds (Machine.sweepQueues job x).1 := by
  unfold Machine.sweepQueues
  exact .foldlFst (fun x1 a ht => .foldlFst (fun x2 a1 ht1 => .sweepQueue ht1) ht) h

theorem Kept.Holds.sweepAtomics {job : ℕ} {x : Swept} (h : K.Holds x.1) : K.Holds (Machine.sweepAtomics job x).1 := by
  unfold Machine.sweepAtomics
  exact .foldlFst (fun x1 x2 ht => .pair (.setHold (.add ht))) h

theorem Kept.Holds.sweepColls {job : ℕ} {x : Swept} (h : K.Holds x.1) : K.Holds (Machine.sweepColls job x).1 := by
  unfold Machine.sweepColls
  exact .foldlFst (fun x1 a ht => .pair (.modGang (.modDie (.foldlFst (fun x2 a1 ht1 => .foldlFst (fun x3 a2 ht2 => .add ht2) ht1) ht)))) h

theorem Kept.Holds.sweep {job : ℕ} (h : K.Holds s) : K.Holds (s.sweep job).1 := by
  unfold State.sweep
  exact .sweepColls (.sweepAtomics (.sweepQueues (.sweepRetries (.sweepPavilions (.sweepPorts h)))))

theorem Kept.Holds.endGsw {g : Gang} {code : ℕ} (h : K.Holds s) : K.Holds (s.endGsw g code) := by
  unfold State.endGsw
  dsimp only
  split
  · split
    · exact .settle (.modGang h)
    · exact .modGang h
  · exact .modGang h

theorem Kept.Holds.pollGsw {g : Gang} {codes : List ℕ} (h : K.Holds s) : K.Holds (s.pollGsw g codes) := by
  unfold State.pollGsw
  dsimp only
  split
  · exact .tookFree (.endGsw h)
  · exact .tookFree h

theorem Kept.Holds.tryClose (h : canonical.Holds s) : canonical.Holds (s.tryClose) := by
  unfold State.tryClose
  dsimp only
  split
  · exact h
  · refine .ite h ?_
    split
    · exact .toOrangery (.sweep h)
    · exact .ite (.endGsw (.changed (.toOrangery (.toOrangery (.sweep h))))) (.changed (.toOrangery (.toOrangery (.sweep h))))

theorem Kept.Next.execGangStop (h : canonical.Holds s) : canonical.Next (Machine.execGangStop s) := by
  unfold Machine.execGangStop
  dsimp only
  refine .next ?_
  split
  · exact .ite (.ite (.pollGsw (.tryClose h)) (.tryClose h)) (.ite (.stopJob h) h)
  · split
    · exact .pollGsw h
    · exact h

theorem Kept.Next.execGangMarker {p : PortRef} {job turn : ℕ} (h : canonical.Holds s) :
    canonical.Next (Machine.execGangMarker p job turn s) := by
  unfold Machine.execGangMarker
  dsimp only
  refine .next ?_
  split
  · exact .ite (.ite (.tryClose (.changed h)) (.changed h)) h
  · exact h

theorem Kept.Next.execLateCell {p : PortRef} {cell : Cell} (h : K.Holds s) : K.Next (Machine.execLateCell p cell s) := by
  unfold Machine.execLateCell
  refine .next ?_
  split
  · exact .ite (.lateCell h) h
  · exact h

theorem Kept.Holds.sendCommand {b : SwitchBlock} (h : K.Holds s) : K.Holds (s.sendCommand b) := by
  unfold State.sendCommand
  exact .foldl (fun t a ht => .ite (.output ht) ht) h

theorem Kept.Slot.semGsw {g : Guard} {a c : BitVec 5} : canonical.Slot (Machine.semGsw g a c) := by
  unfold Machine.semGsw
  refine ⟨fun s0 s h0 h => ?_, fun s0 s h0 h => ?_⟩
  · dsimp only
    split
    · exact .sendCommand (.startGang (.holdOn (.lodgeRest (.readBlock h))))
    · exact .push (.lodgeRest (.readBlock h))
  · dsimp only
    exact .switchWait h

theorem Kept.Holds.restoreEntry {g : Option Gang} {x : State × ℕ} {r : RecLoc × List Byte} (h : K.Holds x.1) :
    K.Holds (Machine.restoreEntry g x r).1 := by
  unfold Machine.restoreEntry
  dsimp only
  split
  · exact .pair (.writeAcc h)
  · exact .pair (.modPav h)
  · exact .pair (.foldl (fun t a ht => .modPav ht) h)
  · exact .pair (.modPav h)
  · exact h

theorem Kept.Holds.reinject {p : PortRef} {source : ℕ} {c : Cell} (h : K.Holds s) : K.Holds (s.reinject p source c) := by
  unfold State.reinject
  dsimp only
  split
  · exact .ite (.modPort h) (.getD (.offerFrom h) (.modPort h))
  · split
    · exact .modCore h
    · exact .modPort h
  · exact .getD (.offerFrom h) (.modPort h)
  · exact .modPort h
  · exact .ite (.modPort h) (.getD (.actOn h) (.modPort h))

theorem Kept.Holds.requeue {job : ℕ} {l : RecLoc} {c : Cell} (h : K.Holds s) : K.Holds (s.requeue job l c) := by
  unfold State.requeue
  dsimp only
  split
  · exact h
  · exact .ite (.modTask h) (.modPort h)

theorem Kept.Holds.rehold {job : ℕ} {l : RecLoc} {b : List Byte} (h : K.Holds s) : K.Holds (s.rehold job l b) := by
  unfold State.rehold
  dsimp only
  split
  · exact h
  · split
    · exact .setHold h
    · exact h

theorem Kept.Holds.restoreItem {job : ℕ} {r : RecLoc × List Byte} (h : K.Holds s) : K.Holds (Machine.restoreItem job s r) := by
  unfold Machine.restoreItem
  dsimp only
  split
  · exact .reinject h
  · exact .reinject h
  · exact .modPort h
  · exact .requeue h
  · exact .rehold h
  · exact h

theorem Kept.Holds.restoreColls {job : ℕ} {x2 : List SweptColl} {x3 : List (RecLoc × List Byte)} {x4 : State} (h : K.Holds x4) :
    K.Holds (Machine.restoreColls job x2 x3 x4) := by
  induction x2 generalizing job x3 x4 with
  | nil =>
    unfold Machine.restoreColls
    exact h
  | cons a l ih =>
    unfold Machine.restoreColls
    exact ih (.modDie h)

theorem Kept.Holds.restoreLate {k : SwitchBlock} {n : ℕ} (h : K.Holds s) : K.Holds (Machine.restoreLate k s n) := by
  unfold Machine.restoreLate
  dsimp only
  split
  · exact .reinject h
  · exact h

theorem Kept.Holds.loseLate {job : ℕ} {e : PortRef × Cell} (h : K.Holds s) : K.Holds (s.loseLate job e) := by
  unfold State.loseLate
  exact .ite (.postFault h) (.foldl (fun t a ht => .failColl ht) h)

theorem Kept.Holds.restoreJob {k : SwitchBlock} {recs : List (RecLoc × List Byte)} {nlate : ℕ} (h : canonical.Holds s) :
    canonical.Holds (s.restoreJob k recs nlate) := by
  unfold State.restoreJob
  exact .toOrangery (.foldl (fun t x ht => .loseLate ht) (.changed (.foldl (fun t a ht => .restoreLate ht) (.restoreColls (.foldl (fun t x
      ht => .restoreItem ht) (.foldlFst (fun x x1 ht => .restoreEntry ht) h))))))

theorem Kept.Holds.gresRun {b : Option SwitchBlock} (h : canonical.Holds s) : canonical.Holds (s.gresRun b).1 := by
  unfold State.gresRun
  split
  · exact h
  · refine .iteFst h ?_
    split
    · exact h
    · split
      · exact h
      · exact .pair (.restoreJob h)

theorem Kept.Slot.semGres {g : Guard} {a c : BitVec 5} : canonical.Slot (Machine.semGres g a c) := by
  unfold Machine.semGres
  exact ⟨fun t t1 ht ht1 => .push (.iteFst (.pair (.lodgeRest (.readBlock ht1))) (.gresRun (.lodgeRest (.readBlock ht1)))), fun t t1 ht ht1
      => .switchWait ht1⟩

/-! ### The definitions of Sys2Proof/Machine/Context.lean -/

theorem Kept.Holds.matrixData {c : CoreRef} {b : List Byte} (h : K.Holds s) : K.Holds (s.matrixData c b) := by
  unfold State.matrixData
  exact .foldl (fun t x ht => .wrote ht (fun w => Memory.wf_setBytes _ _ w)) (.foldl (fun t x ht => .wrote ht (fun w => Memory.wf_setBytes
      _ _ w)) h)

theorem Kept.Slot.semCtxsv {g : Guard} {a b c : BitVec 5} : K.Slot (Machine.semCtxsv g a b c) := by
  unfold Machine.semCtxsv
  refine ⟨fun s0 s h0 h => ?_, fun s0 s h0 h => ?_⟩
  · dsimp only
    split
    · exact .push h
    · exact .holdOn (.modTask h)
  · dsimp only
    exact .none

theorem Kept.Holds.settleCmd {r : TaskRef} {e : ℕ × Cmd} (h : K.Holds s) : K.Holds (State.settleCmd r s e) := by
  unfold State.settleCmd
  dsimp only
  split
  · split
    · exact .failCopy h
    · exact .modCore (.dropFar (.landStores h))
  · split
    · exact .failCopy h
    · exact .modCore (.dropFar (.landStores h))
  · split
    · exact .failCopy h
    · exact .modCore (.dropFar (.landStores h))
  · split
    · exact .ite (.modCore (.foldl (fun t a ht => .dropFar ht) (.releaseTiles h))) (.foldl (fun t a ht => .dropFar ht) (.releaseTiles h))
    · exact h
  · exact h

theorem Kept.Holds.keepCmds {r : TaskRef} (h : K.Holds s) : K.Holds (s.keepCmds r) := by
  unfold State.keepCmds
  exact .updated h

theorem Kept.Holds.dropUndispatched {r : TaskRef} (h : K.Holds s) : K.Holds (s.dropUndispatched r) := by
  unfold State.dropUndispatched
  refine .foldl (fun t x ht => ?_) h
  split
  · exact .dropLaunch ht
  · exact ht

theorem Kept.Holds.removeTask {r : TaskRef} (h : K.Holds s) : K.Holds (s.removeTask r) := by
  unfold State.removeTask
  exact .freeSlotOf (.modCore (.updated (.foldl (fun t x ht => .modCore ht) (.dropUndispatched h))))

theorem Kept.Maybe.saveContext {die d : ℕ} {target addr : W64} (h : K.Holds s) : K.Maybe (s.saveContext die d target addr) := by
  unfold State.saveContext
  dsimp only
  refine .ite (.some (.settle h)) (.ite (.some (.settle (.postUnread (.tookFree (.foldl (fun t x ht => .settleCmd ht) (.ite (.drain h)
      h)))))) ?_)
  split
  · exact .none
  · exact .some (.settle (.postUnread (.lodgeStore (.tookFree (.foldl (fun t x ht => .settleCmd ht) (.ite (.drain h) h))))))
  · exact .some (.settle (.ite (.removeTask (.keepCmds (.lodgeStore (.tookFree (.foldl (fun t x ht => .settleCmd ht) (.ite (.drain h)
      h)))))) (.keepCmds (.lodgeStore (.tookFree (.foldl (fun t x ht => .settleCmd ht) (.ite (.drain h) h)))))))

theorem Kept.Holds.serveAll {r : TaskRef} {x2 : ℕ} {x3 : State} (h : K.Holds x3) : K.Holds (State.serveAll r x2 x3) := by
  induction x2 generalizing r x3 with
  | zero =>
    unfold State.serveAll
    exact h
  | succ n ih =>
    unfold State.serveAll
    dsimp only
    split
    · refine .ite ?_ (.serveHolds h)
      split
      · exact ih (Kept.Maybe.holds (.saveContext (.serveHolds h)) ‹_›)
      · exact .serveHolds h
    · exact .serveHolds h

theorem Kept.Holds.loadCmd {r : TaskRef} {old : Option Task} {x : ℕ × ℕ × ℕ × List Byte} (h : K.Holds s) :
    K.Holds (State.loadCmd r old s x) := by
  unfold State.loadCmd
  dsimp only
  split
  · refine .ite (.updated (.modCore h)) ?_
    split
    · exact .ite (.endToken h) (.modLaunch (.modCore h))
    · exact .endToken h
  · refine .ite h ?_
    split
    · exact .endToken h
    · exact .modCore h
  · exact .modCore h

theorem Kept.Holds.launchFor {h : List Byte} (hs : K.Holds s) : K.Holds (s.launchFor h).1 := by
  unfold State.launchFor
  dsimp only
  split
  · exact hs
  · exact .pair (.updated hs)

theorem Kept.Holds.loadInto {r : TaskRef} {b : List Byte} {old : Option Task} (h : K.Holds s) : K.Holds (s.loadInto r b old) := by
  unfold State.loadInto
  dsimp only
  split
  · split
    · exact .modTask (.foldl (fun t x ht => .loadCmd ht) (.ite (.matrixData (.wrote (.modCore (.tookFree (.setTask (.launchFor h)))) (fun w
        => Memory.wf_setBytes _ _ w))) (.modLaunch (.matrixData (.wrote (.modCore (.tookFree (.setTask (.launchFor h)))) (fun w =>
        Memory.wf_setBytes _ _ w))))))
    · exact .foldl (fun t x ht => .loadCmd ht) (.ite (.matrixData (.wrote (.modCore (.tookFree (.setTask (.launchFor h)))) (fun w =>
        Memory.wf_setBytes _ _ w))) (.modLaunch (.matrixData (.wrote (.modCore (.tookFree (.setTask (.launchFor h)))) (fun w =>
        Memory.wf_setBytes _ _ w)))))
  · exact .foldl (fun t x ht => .loadCmd ht) (.ite (.matrixData (.wrote (.modCore (.tookFree (.setTask (.launchFor h)))) (fun w =>
      Memory.wf_setBytes _ _ w))) (.modLaunch (.matrixData (.wrote (.modCore (.tookFree (.setTask (.launchFor h)))) (fun w =>
      Memory.wf_setBytes _ _ w)))))

theorem Kept.Holds.clearFor {r : TaskRef} (h : K.Holds s) : K.Holds (s.clearFor r) := by
  unfold State.clearFor
  exact .foldl (fun t x ht => .modCore ht) (.freeSlotOf (.modCore (.modCore (.dropUndispatched h))))

theorem Kept.Holds.contextRead {die : ℕ} {addr : W64} (h : K.Holds s) : K.Holds (s.contextRead die addr).1 := by
  have first : K.Holds (s.lodgeRead die addr 4096).1 := .lodgeRead h
  unfold State.contextRead
  dsimp only
  generalize s.lodgeRead die addr 4096 = x at first ⊢
  split
  · exact .iteFst first (.lodgeRead first)
  · exact first

theorem Kept.Holds.badContext {die part : ℕ} {h : List Byte} (hs : K.Holds s) : K.Holds (s.badContext die part h).1 := by
  unfold State.badContext
  exact .pair (.postFault hs)

theorem Kept.Holds.loadContext {r : TaskRef} {b : List Byte} (h : K.Holds s) : K.Holds (s.loadContext r b).1 := by
  unfold State.loadContext
  dsimp only
  split
  · refine .iteFst h (.iteFst h (.iteFst h ?_))
    split
    · exact .pair (.modTask (.loadInto (.clearFor h)))
    · exact .badContext h
  · split
    · exact .pair (.loadInto h)
    · exact .badContext h

theorem Kept.Holds.loadRead {r : TaskRef} {g : Got} (h : K.Holds s) : K.Holds (s.loadRead r g).1 := by
  unfold State.loadRead
  split
  · exact .loadContext h
  · exact .badContext (.ite (.postUnread h) h)
  · exact h

theorem Kept.Slot.semCtxld {g : Guard} {a b c : BitVec 5} : K.Slot (Machine.semCtxld g a b c) := by
  unfold Machine.semCtxld
  exact ⟨fun t t1 ht ht1 => .push (.loadRead (.lodgeRest (.contextRead ht1))), fun t t1 ht ht1 => .ite (.some (.contextRead ht1)) .none⟩

/-! ### The definitions of Sys2Proof/Machine/Loader.lean -/

theorem Kept.Holds.writeJob {job va : ℕ} {b : List Byte} (h : K.Holds s) : K.Holds (s.writeJob job va b) := by
  unfold State.writeJob
  refine .foldl (fun t x ht => ?_) h
  split
  · exact ht
  · exact .storeHbm ht

theorem Kept.Holds.placeSections {job : ℕ} {l : List (ImgSection × ℕ × List Byte)} (h : K.Holds s) : K.Holds (s.placeSections job l) := by
  unfold State.placeSections
  exact .foldl (fun t x ht => .ite (.writeJob ht) ht) h

theorem Kept.Beside.loadImage {m : LoadMsg} (h : K.Holds s) : K.Beside (s.loadImage m) := by
  unfold State.loadImage
  dsimp only
  split
  · exact .none
  · refine .ite .none (.ite .none ?_)
    split
    · exact .none
    · exact .some (.pair (.updated (.extendJob (.placeSections h))))

/-! ### The definitions of Sys2Proof/Machine/Host.lean -/

theorem Kept.Next.execHostFrame {f : HostFrame} (h : K.Holds s) : K.Next (Machine.execHostFrame f s) := by
  unfold Machine.execHostFrame
  exact .next (.ite (.updated h) (.updated h))

theorem Kept.Holds.consumed {cells : ℕ} (h : K.Holds s) : K.Holds (s.consumed cells) := by
  unfold State.consumed
  exact .updated h

theorem Kept.Holds.replyCells {kind seq : ℕ} {b : List Byte} (h : K.Holds s) : K.Holds (s.replyCells kind seq b) := by
  unfold State.replyCells
  exact .foldl (fun t a ht => .reply ht) h

theorem Kept.Next.serveOr {s : State} {mine : Bool} {cells : ℕ} {f : ℕ → State → Option State} (h0 : K.Holds s)
    (keeps : ∀ {a : ℕ} {a_1 : State}, K.Holds a_1 → K.Maybe (f a a_1)) :
    K.Next (s.serveOr mine cells f) := by
  unfold State.serveOr
  exact .next (.ite h0 (.getD (keeps (.consumed h0)) h0))

theorem Kept.Next.serve {s : State} {kind cells : ℕ} {f : ℕ → State → State} (h0 : K.Holds s)
    (keeps : ∀ {a : ℕ} {a_1 : State}, K.Holds a_1 → K.Holds (f a a_1)) :
    K.Next (s.serve kind cells f) := by
  unfold State.serve
  exact .serveOr h0 (fun ht => .some (keeps ht))

theorem Kept.Holds.respond {kind seq status : ℕ} (h : K.Holds s) : K.Holds (s.respond kind seq status) := by
  unfold State.respond
  exact .reply h

theorem Kept.Holds.endDump (h : K.Holds s) : K.Holds (s.endDump) := by
  unfold State.endDump
  exact .ite h (.wrote h (fun w => Memory.wf_clear _ _ w))

theorem Kept.Next.execHostLaunch {m : List (BitVec 8)} (h : K.Holds s) : K.Next (Machine.execHostLaunch m s) := by
  unfold Machine.execHostLaunch
  dsimp only
  refine .serveOr h (fun ht => .some ?_)
  split
  · exact .respond (.ite (.endDump ht) ht)
  · exact .ite (.respond (.refuseCapacity (.ite (.endDump ht) ht))) (.reply (.updated (.ite (.endDump ht) ht)))

theorem Kept.Next.execHostLoad {m : LoadMsg} (h : canonical.Holds s) : canonical.Next (Machine.execHostLoad m s) := by
  unfold Machine.execHostLoad
  dsimp only
  refine .serve h (fun ht => .ite (.respond ht) (.ite (.respond ht) ?_))
  split
  · exact .respond ht
  · exact .ite (.respond (.ite (.changed (Kept.Beside.holdsFst (.loadImage ht) ‹_›)) (Kept.Beside.holdsFst (.loadImage ht) ‹_›))) (.foldl
      (fun t1 a1 ht1 => .reply ht1) (.ite (.changed (Kept.Beside.holdsFst (.loadImage ht) ‹_›)) (Kept.Beside.holdsFst (.loadImage ht) ‹_›)))

theorem Kept.Next.execHostWrite {job va : ℕ} {data : List (BitVec 8)} (h : K.Holds s) : K.Next (Machine.execHostWrite job va data s) := by
  unfold Machine.execHostWrite
  refine .serve h (fun ht => .ite (.respond ht) (.ite (.respond ht) ?_))
  split
  · exact .respond ht
  · exact .ite (.respond (.writeJob ht)) (.respond ht)

theorem Kept.Next.execHostRead {job va size : ℕ} (h : K.Holds s) : K.Next (Machine.execHostRead job va size s) := by
  unfold Machine.execHostRead
  refine .serve h (fun ht => .ite (.respond ht) (.ite (.respond ht) ?_))
  split
  · exact .respond ht
  · exact .reply ht

theorem Kept.Maybe.serveUnitAll (h : K.Holds s) : K.Maybe (s.serveUnitAll) := by
  unfold State.serveUnitAll
  exact .ite (.some (.foldl (fun t a ht => .serveUnit ht) h)) .none

theorem Kept.Next.execHostKey {job : ℕ} {blob : List (BitVec 8)} (h : K.Holds s) : K.Next (Machine.execHostKey job blob s) := by
  unfold Machine.execHostKey
  exact .serveOr h (fun ht => .ite (.some (.respond (.endDump ht))) (.map (fun t1 e => .reply (.installKey (Kept.Maybe.holds (.serveUnitAll
      (.endDump ht)) e)))))

theorem Kept.Maybe.extendAsked {seq : ℕ} {req : List Byte} (h : K.Holds s) : K.Maybe (s.extendAsked seq req) := by
  unfold State.extendAsked
  exact .ite (.some (.respond h)) (.map (fun a e => .respond (.lodgeRest (.serveExtend h))))

theorem Kept.Next.execHostAttest {req : List (BitVec 8)} (h : K.Holds s) : K.Next (Machine.execHostAttest req s) := by
  unfold Machine.execHostAttest
  exact .serveOr h (fun ht => .ite (.some (.respond ht)) (.bind (.serveUnitAll ht) (fun t1 ht1 => .ite (.extendAsked ht1) (.ite (.some
      (.reply (.signRequest ht1))) (.some (.replyCells (.tookFree (.signRequest ht1))))))))

theorem Kept.Holds.killJob {job : ℕ} (h : K.Holds s) : K.Holds (s.killJob job) := by
  unfold State.killJob
  exact .foldl (fun t a ht => .ite (.killTask ht) ht) h

theorem Kept.Next.execHostJobEnd {job : ℕ} (h : canonical.Holds s) : canonical.Next (Machine.execHostJobEnd job s) := by
  unfold Machine.execHostJobEnd
  exact .serve h (fun ht => .ite (.respond ht) (.ite (.respond ht) (.ite (.respond ht) (.respond (.removeKey (.changed (.invalidate
      (.killJob ht))))))))

theorem Kept.Next.execHostGrotto (h : K.Holds s) : K.Next (Machine.execHostGrotto s) := by
  unfold Machine.execHostGrotto
  dsimp only
  refine .serve h (fun ht => ?_)
  split
  · exact .respond ht
  · exact .ite (.respond ht) (.reply (.updated ht))

theorem Kept.Next.execHostConfig {word : BitVec 64} (h : K.Holds s) : K.Next (Machine.execHostConfig word s) := by
  unfold Machine.execHostConfig
  exact .serve h (fun ht => .ite (.respond ht) (.reply (.updated ht)))

theorem Kept.Holds.loadFirmware {d : ℕ} (h : K.Holds s) : K.Holds (s.loadFirmware d) := by
  unfold State.loadFirmware
  exact .setTask (.wrote h (fun w => Memory.wf_setBytes _ _ w))

theorem Kept.Holds.sendReady (h : K.Holds s) : K.Holds (s.sendReady) := by
  unfold State.sendReady
  exact .replyCells h

theorem Kept.Holds.zeroed (h : canonical.Holds s) : canonical.Holds (s.zeroed) := by
  unfold State.zeroed
  exact Memory.wf_filter _ h

theorem Kept.Next.execModuleReset {straps : BitVec 6} (h : canonical.Holds s) : canonical.Next (Machine.execModuleReset straps s) := by
  unfold Machine.execModuleReset
  exact .next (.ite (.zeroed h) (.sendReady (.updated (.updated (.foldl (fun t a ht => .loadFirmware ht) (.zeroed h))))))

theorem Kept.Next.execPowerLoss : canonical.Next (Machine.execPowerLoss s) := by
  unfold Machine.execPowerLoss
  exact .next (.updated .reset)

/-! ### The definitions of Sys2Proof/Machine/Faults.lean -/

theorem Kept.Next.execKill {die : ℕ} {target : BitVec 64} (h : K.Holds s) : K.Next (Machine.execKill die target s) := by
  unfold Machine.execKill
  exact .next (.kill h)

theorem Kept.Next.execMselWrite {m : MonitorRef} {v : BitVec 64} (h : K.Holds s) : K.Next (Machine.execMselWrite m v s) := by
  unfold Machine.execMselWrite
  exact .next (.modMonitor h)

theorem Kept.Next.execGhcfgLock {die : ℕ} {v : BitVec 64} (h : K.Holds s) : K.Next (Machine.execGhcfgLock die v s) := by
  unfold Machine.execGhcfgLock
  exact .next (.noteLock (.followModule (.modGate h)))

theorem Kept.Next.execRegisterWrite {w : Writer} {addr : ℕ} {v : BitVec 64} (h : K.Holds s) :
    K.Next (Machine.execRegisterWrite w addr v s) := by
  unfold Machine.execRegisterWrite
  dsimp only
  refine .next ?_
  split
  · exact .postFault (.physWrite h)
  · exact .physWrite h

theorem Kept.Next.execMonitorSample {m : MonitorRef} {v : ℕ} (h : K.Holds s) : K.Next (Machine.execMonitorSample m v s) := by
  unfold Machine.execMonitorSample
  exact .next (.ite (.modMonitor h) h)

theorem Kept.Holds.dumpGrotto {f : Fatal} (h : K.Holds s) : K.Holds (s.dumpGrotto f) := by
  unfold State.dumpGrotto
  exact .foldl (fun t a ht => .ite (.storeHbm ht) ht) (.storeHbm (.wrote h (fun w => Memory.wf_clear _ _ w)))

theorem Kept.Holds.dumpOnce (h : K.Holds s) : K.Holds (s.dumpOnce) := by
  unfold State.dumpOnce
  split
  · exact .ite h (.dumpGrotto h)
  · exact h

theorem Kept.Holds.stopOrDump {die cause : ℕ} {info : W64} (h : K.Holds s) : K.Holds (s.stopOrDump die cause info) := by
  unfold State.stopOrDump
  exact .ite (.dumpOnce h) (.fatalStop h)

theorem Kept.Next.execFatalStop {die cause : ℕ} {info : BitVec 64} (h : K.Holds s) : K.Next (Machine.execFatalStop die cause info s) := by
  unfold Machine.execFatalStop
  exact .next (.ite (.stopOrDump h) h)

theorem Kept.Next.execArrayError {t : TaskRef} {e : ErrorSource} (h : K.Holds s) : K.Next (Machine.execArrayError t e s) := by
  unfold Machine.execArrayError
  refine .next ?_
  split
  · exact .modMonitor h
  · exact .ite (.stopOrDump h) (.storeError h)
  · exact .poison h
  · exact .stopOrDump h
  · exact .arrayError h

theorem Kept.Next.execPowerTrip {die high reading : ℕ} (h : K.Holds s) : K.Next (Machine.execPowerTrip die high reading s) := by
  unfold Machine.execPowerTrip
  exact .next (.stopOrDump h)

theorem Kept.Next.execJunctionTrip {die reading : ℕ} (h : K.Holds s) : K.Next (Machine.execJunctionTrip die reading s) := by
  unfold Machine.execJunctionTrip
  exact .next (.stopOrDump h)

theorem Kept.Next.execPackageWatchdog {die : ℕ} (h : K.Holds s) : K.Next (Machine.execPackageWatchdog die s) := by
  unfold Machine.execPackageWatchdog
  exact .next (.stopOrDump h)

theorem Kept.Next.execFatalMessage (h : K.Holds s) : K.Next (Machine.execFatalMessage s) := by
  unfold Machine.execFatalMessage
  dsimp only
  refine .next ?_
  split
  · exact h
  · exact .ite (.updated (.reply h)) h

/-! ### The definitions of Sys2Proof/Machine/Lines.lean -/

theorem Kept.Holds.answer {c : CoreRef} {line : ℕ} {write : Bool} {a : Answer} (h : K.Holds s) : K.Holds (s.answer c line write a) := by
  unfold State.answer
  exact .modCore h

theorem Kept.Next.execHomeLoad {c : CoreRef} {line : ℕ} (h : K.Holds s) : K.Next (Machine.execHomeLoad c line s) := by
  unfold Machine.execHomeLoad
  dsimp only
  refine .next ?_
  split
  · exact h
  · split
    · exact .answer h
    · exact .ite h (.answer (.modLine (.recall h)))

theorem Kept.Next.execHomeStore {c : CoreRef} {line : ℕ} (h : K.Holds s) : K.Next (Machine.execHomeStore c line s) := by
  unfold Machine.execHomeStore
  dsimp only
  refine .next ?_
  split
  · exact h
  · split
    · exact .answer h
    · exact .ite h (.answer (.tookFree (.recall h)))

theorem Kept.Next.execL1Fill {c : CoreRef} {line : ℕ} (h : K.Holds s) : K.Next (Machine.execL1Fill c line s) := by
  unfold Machine.execL1Fill
  exact .next (.modCore h)

theorem Kept.Next.execL1Writeback {c : CoreRef} {line : ℕ} (h : K.Holds s) : K.Next (Machine.execL1Writeback c line s) := by
  unfold Machine.execL1Writeback
  exact .next (.ite h (.dropLine h))

/-! ### The definitions of Sys2Proof/Machine/Tick.lean -/

theorem Kept.Slot.bad : K.Slot (SlotSem.bad) := by
  unfold SlotSem.bad
  exact ⟨fun t t1 ht ht1 => ht1, fun t t1 ht ht1 => .none⟩

theorem Kept.Slot.switchB {w : W32} : K.Slot (SlotSem.switchB w) := by
  unfold SlotSem.switchB
  exact ⟨fun t t1 ht ht1 => ht1, fun t t1 ht ht1 => .none⟩

/-- The meaning of a row of the opcode table as a slot of a bundle, if it has one, keeps the property. -/
def Kept.Meaning (K : Kept) (o : Option SlotSem) : Prop := ∀ m, o = some m → K.Slot m

theorem Kept.Meaning.none : K.Meaning none := nofun

theorem Kept.Meaning.some {m : SlotSem} (h : K.Slot m) : K.Meaning (some m) := fun _ e => Option.some.inj e ▸ h

theorem Kept.Meaning.slotSem : ∀ i, canonical.Meaning (Machine.slotSem i)
  | .add .. => .some .semAdd
  | .sub .. => .some .semSub
  | .mul .. => .some .semMul
  | .mulh .. => .some .semMulh
  | .mulhz .. => .some .semMulhz
  | .div .. => .some .semDiv
  | .divz .. => .some .semDivz
  | .rem .. => .some .semRem
  | .remz .. => .some .semRemz
  | .and .. => .some .semAnd
  | .or .. => .some .semOr
  | .xor .. => .some .semXor
  | .andn .. => .some .semAndn
  | .shl .. => .some .semShl
  | .shr .. => .some .semShr
  | .sra .. => .some .semSra
  | .rol .. => .some .semRol
  | .min .. => .some .semMin
  | .max .. => .some .semMax
  | .minz .. => .some .semMinz
  | .maxz .. => .some .semMaxz
  | .clz .. => .some .semClz
  | .ctz .. => .some .semCtz
  | .popc .. => .some .semPopc
  | .bfx .. => .some .semBfx
  | .bfxz .. => .some .semBfxz
  | .bfi .. => .some .semBfi
  | .sel .. => .some .semSel
  | .addi .. => .some .semAddi
  | .andi .. => .some .semAndi
  | .ori .. => .some .semOri
  | .xori .. => .some .semXori
  | .shli .. => .some .semShli
  | .shri .. => .some .semShri
  | .srai .. => .some .semSrai
  | .movi .. => .some .semMovi
  | .movh .. => .some .semMovh
  | .addsh .. => .some .semAddsh
  | .cmp .. => .some .semCmp
  | .cmpi .. => .some .semCmpi
  | .pand .. => .some .semPand
  | .por .. => .some .semPor
  | .pxor .. => .some .semPxor
  | .pnot .. => .some .semPnot
  | .movsRead .. => .some .semMovsRead
  | .movsWrite .. => .some .semMovsWrite
  | .sfadd .. => .some .semSfadd
  | .sfmul .. => .some .semSfmul
  | .sffma .. => .some .semSffma
  | .sfmin .. => .some .semSfmin
  | .sfmax .. => .some .semSfmax
  | .sfcmp .. => .some .semSfcmp
  | .sfcvt .. => .some .semSfcvt
  | .prep .. => .some .semPrep
  | .prepr .. => .some .semPrepr
  | .br .. => .some .semBr
  | .brl .. => .some .semBrl
  | .loop .. => .some .semLoop
  | .loopi .. => .some .semLoopi
  | .lbrk .. => .some .semLbrk
  | .lpop .. => .some .semLpop
  | .endTask .. => .some .semEndTask
  | .trap .. => .some .semTrap
  | .sys .. => .some .semSys
  | .eret .. => .some .semEret
  | .yield .. => .some .semYield
  | .wait .. => .some .semWait
  | .arrive .. => .some .semArrive
  | .prmpt .. => .some .semPrmpt
  | .resume .. => .some .semResume
  | .ctxsv .. => .some .semCtxsv
  | .ctxld .. => .some .semCtxld
  | .tlbinv .. => .some .semTlbinv
  | .genbump .. => .some .semGenbump
  | .l2wb .. => .some .semL2wb
  | .domset .. => .some .semDomset
  | .gsw .. => .some .semGsw
  | .gres .. => .some .semGres
  | .attest .. => .some .semAttest
  | .keyld .. => .some .semKeyld
  | .npload .. => .some .semNpload
  | .rlinv .. => .some .semRlinv
  | .lkey .. => .some .semLkey
  | .csrr .. => .some .semCsrr
  | .csrw .. => .some .semCsrw
  | .bgset .. => .some .semBgset
  | .ckpt .. => .some .semCkpt
  | .nop .. => .some .semNop
  | .ld .. => .some .semLd
  | .ldRo .. => .some .semLdRo
  | .st .. => .some .semSt
  | .vld .. => .some .semVld
  | .vldRo .. => .some .semVldRo
  | .vst .. => .some .semVst
  | .agset .. => .some .semAgset
  | .agstep .. => .some .semAgstep
  | .pref .. => .some .semPref
  | .clean .. => .some .semClean
  | .inval .. => .some .semInval
  | .phase .. => .some .semPhase
  | .ttdef .. => .some .semTtdef
  | .ttwait .. => .some .semTtwait
  | .ttfree .. => .some .semTtfree
  | .ttstat .. => .some .semTtstat
  | .fence .. => .some .semFence
  | .fenceRo .. => .some .semFenceRo
  | .aadd .. => .some .semAadd
  | .amin .. => .some .semAmin
  | .amax .. => .some .semAmax
  | .aand .. => .some .semAand
  | .aor .. => .some .semAor
  | .axor .. => .some .semAxor
  | .aswp .. => .some .semAswp
  | .aincb .. => .some .semAincb
  | .afadd .. => .some .semAfadd
  | .acas .. => .some .semAcas
  | .aordJoin .. => .some .semAordJoin
  | .aordClose .. => .some .semAordClose
  | .vadd .. => .some .semVadd
  | .vsub .. => .some .semVsub
  | .vmul .. => .some .semVmul
  | .vfma .. => .some .semVfma
  | .vfms .. => .some .semVfms
  | .vmin .. => .some .semVmin
  | .vmax .. => .some .semVmax
  | .vabs .. => .some .semVabs
  | .vneg .. => .some .semVneg
  | .vnot .. => .some .semVnot
  | .vadds .. => .some .semVadds
  | .vsubs .. => .some .semVsubs
  | .vmulh .. => .some .semVmulh
  | .vand .. => .some .semVand
  | .vor .. => .some .semVor
  | .vxor .. => .some .semVxor
  | .vshl .. => .some .semVshl
  | .vshr .. => .some .semVshr
  | .vsra .. => .some .semVsra
  | .vcmp .. => .some .semVcmp
  | .vsel .. => .some .semVsel
  | .vmov .. => .some .semVmov
  | .vsplat .. => .some .semVsplat
  | .viotaRow .. => .some .semViotaRow
  | .viotaCol .. => .some .semViotaCol
  | .viotaLin .. => .some .semViotaLin
  | .vbrow .. => .some .semVbrow
  | .vbcol .. => .some .semVbcol
  | .vrotr .. => .some .semVrotr
  | .vrotc .. => .some .semVrotc
  | .vredr .. => .some .semVredr
  | .vredc .. => .some .semVredc
  | .vscanr .. => .some .semVscanr
  | .vscanc .. => .some .semVscanc
  | .vxp .. => .some .semVxp
  | .vpermRow .. => .some .semVpermRow
  | .vpermCol .. => .some .semVpermCol
  | .vext .. => .some .semVext
  | .vins .. => .some .semVins
  | .qand .. => .some .semQand
  | .qor .. => .some .semQor
  | .qxor .. => .some .semQxor
  | .qnot .. => .some .semQnot
  | .qcnt .. => .some .semQcnt
  | .fexp2 .. => .some .semFexp2
  | .fexp .. => .some .semFexp
  | .flog2 .. => .some .semFlog2
  | .frcp .. => .some .semFrcp
  | .frsq .. => .some .semFrsq
  | .fsqrt .. => .some .semFsqrt
  | .fdiv .. => .some .semFdiv
  | .ftanh .. => .some .semFtanh
  | .fsigm .. => .some .semFsigm
  | .fsin .. => .some .semFsin
  | .fcos .. => .some .semFcos
  | .cvt .. => .some .semCvt
  | .qnt4 .. => .some .semQnt4
  | .dqnt4 .. => .some .semDqnt4
  | .rngseed .. => .some .semRngseed
  | .rngskip .. => .some .semRngskip
  | .edsc .. => .some .semEdsc
  | .cpy .. => .some .semCpy
  | .gth .. => .some .semGth
  | .sct .. => .some .semSct
  | .kwait .. => .some .semKwait
  | .ktest .. => .some .semKtest
  | .krel .. => .some .semKrel
  | .mstrm .. => .some .semMstrm
  | .mzero .. => .some .semMzero
  | .mcfg .. => .some .semMcfg
  | .msplit .. => .some .semMsplit
  | .mskip .. => .some .semMskip
  | .mclaim .. => .some .semMclaim
  | .mrel .. => .some .semMrel
  | .mlatch .. => .some .semMlatch
  | .mrd .. => .some .semMrd
  | .mwr .. => .some .semMwr
  | .mout .. => .some .semMout
  | .tmm .. => .some .semTmm
  | .tew .. => .some .semTew
  | .tred .. => .some .semTred
  | .tscan .. => .some .semTscan
  | .txp .. => .some .semTxp
  | .tcvt .. => .some .semTcvt
  | .tcpy .. => .some .semTcpy
  | .tbc .. => .some .semTbc
  | .tlnch .. => .some .semTlnch
  | .twait .. => .some .semTwait
  | .tstat .. => .some .semTstat
  | .tabort .. => .some .semTabort
  | .fbind .. => .some .semFbind
  | .fsend .. => .some .semFsend
  | .fput .. => .some .semFput
  | .fdrain .. => .some .semFdrain
  | .fstat .. => .some .semFstat
  | .ftake .. => .some .semFtake
  | .mcst .. => .some .semMcst
  | .coll .. => .some .semColl
  | .issueTick .. => .none
  | .eventEntry .. => .none
  | .fUnitFree .. => .none
  | .phaseDrainDone .. => .none
  | .phaseBarClose .. => .none
  | .l1Fill .. => .none
  | .l1Writeback .. => .none
  | .homeLoad .. => .none
  | .homeStore .. => .none
  | .atomicExecute .. => .none
  | .orderedRelease .. => .none
  | .atomicReply .. => .none
  | .copyStart .. => .none
  | .copyCellWrite .. => .none
  | .copyComplete .. => .none
  | .streamStart .. => .none
  | .streamComplete .. => .none
  | .moutComplete .. => .none
  | .arrayError .. => .none
  | .rerunDone .. => .none
  | .regionUnprotected .. => .none
  | .slotRelease .. => .none
  | .dispatchGroup .. => .none
  | .claim .. => .none
  | .stealRequest .. => .none
  | .taskHalt .. => .none
  | .tileStart .. => .none
  | .unitComplete .. => .none
  | .tileFold .. => .none
  | .childLost .. => .none
  | .tileComplete .. => .none
  | .launchComplete .. => .none
  | .mcstStart .. => .none
  | .mcstComplete .. => .none
  | .cellArrival .. => .none
  | .slotSend .. => .none
  | .linkCellReceive .. => .none
  | .linkAck .. => .none
  | .replayRequest .. => .none
  | .linkSignalLoss .. => .none
  | .retrainTimeout .. => .none
  | .moduleLoss .. => .none
  | .ringRefusal .. => .none
  | .nack .. => .none
  | .nackResend .. => .none
  | .keyMarker .. => .none
  | .keyRefusal .. => .none
  | .remoteRequest .. => .none
  | .reply .. => .none
  | .retransmit .. => .none
  | .remoteTimeout .. => .none
  | .replyCacheExpire .. => .none
  | .sequenceSkip .. => .none
  | .collArrive .. => .none
  | .collComplete .. => .none
  | .collFault .. => .none
  | .tlbinvAck .. => .none
  | .genbumpDone .. => .none
  | .l2wbDone .. => .none
  | .domsetDone .. => .none
  | .nploadDone .. => .none
  | .attestServe => .none
  | .gswCommand .. => .none
  | .gangStop => .none
  | .gangStopTimeout => .none
  | .gangMarker .. => .none
  | .lateCell .. => .none
  | .kill .. => .none
  | .mselWrite .. => .none
  | .monitorSample .. => .none
  | .ghcfgLock .. => .none
  | .registerWrite .. => .none
  | .hostFrame .. => .none
  | .hostLaunch .. => .none
  | .hostLoad .. => .none
  | .hostWrite .. => .none
  | .hostRead .. => .none
  | .hostKey .. => .none
  | .hostAttest .. => .none
  | .hostJobEnd .. => .none
  | .hostGrotto => .none
  | .hostConfig .. => .none
  | .moduleReset .. => .none
  | .powerTrip .. => .none
  | .junctionTrip .. => .none
  | .packageWatchdog .. => .none
  | .fatalStop .. => .none
  | .fatalMessage => .none
  | .linkTrained .. => .none
  | .powerLoss => .none

theorem Kept.Slot.wordSem {w : W32} : canonical.Slot (Machine.wordSem w) := by
  unfold Machine.wordSem
  split
  · rename_i x _
    cases e : Machine.slotSem x.instr with
    | none => exact .bad
    | some m => exact Kept.Meaning.slotSem _ _ e
  · exact .ite .switchB .bad

theorem Kept.Holds.formatTrap {i : ℕ} (h : K.Holds s) : K.Holds (Machine.formatTrap s i).state := by
  unfold Machine.formatTrap
  exact .takeTrap h

theorem Kept.Holds.issueBundle (h : canonical.Holds s) : canonical.Holds (Machine.issueBundle s).state := by
  unfold Machine.issueBundle
  dsimp only
  split
  · exact .takeTrap h
  split
  · exact .takeTrap h
  split
  · exact .formatTrap h
  split
  · exact .formatTrap h
  · refine .issueSems (fun e he => ?_) h
    obtain ⟨w, -, hw⟩ := List.mem_map.1 (List.of_mem_zip he).2
    exact hw ▸ .wordSem

theorem Kept.Holds.focus {c : CoreRef} {slot : ℕ} (h : K.Holds s) : K.Holds (s.focus c slot) := by
  unfold State.focus
  exact .modCore (.updated h)

theorem Kept.Holds.unfocus {s0 : State} {c : CoreRef} {s : State} (h1 : K.Holds s) : K.Holds (s0.unfocus c s) := by
  unfold State.unfocus
  exact .modCore (.updated h1)

theorem Kept.Holds.tryIssue {c : CoreRef} {x2 : List ℕ} {x3 : State} (h : canonical.Holds x3) :
    canonical.Holds (State.tryIssue c x2 x3).state := by
  induction x2 generalizing c x3 with
  | nil =>
    unfold State.tryIssue
    exact h
  | cons a l ih =>
    unfold State.tryIssue
    split
    · exact .issued (.issueBundle (.focus h)) ‹_›
    · exact ih (.unfocus (.issueBundle (.focus h)))

theorem Kept.Holds.tickOver {c : CoreRef} {l : List ℕ} (h : canonical.Holds s) : canonical.Holds (s.tickOver c l) := by
  unfold State.tickOver
  exact .tryIssue h

theorem Kept.Holds.serveCore {c : CoreRef} (h : K.Holds s) : K.Holds (s.serveCore c) := by
  unfold State.serveCore
  exact .foldl (fun t a ht => .serveAll ht) h

theorem Kept.Holds.beforeIssue {c : CoreRef} (h : K.Holds s) : K.Holds (s.beforeIssue c) := by
  unfold State.beforeIssue
  exact .serveCore (.modCore h)

theorem Kept.Next.execIssueTick {c : CoreRef} (h : canonical.Holds s) : canonical.Next (Machine.execIssueTick c s) := by
  unfold Machine.execIssueTick
  exact .next (.ite (.lodgeEntry (.beforeIssue h)) (.tickOver (.beforeIssue h)))

theorem Kept.Next.execEventEntry {die : ℕ} (h : K.Holds s) : K.Next (Machine.execEventEntry die s) := by
  unfold Machine.execEventEntry
  exact .next (.ite (.lodgeEntry h) h)

theorem Kept.Next.execFUnitFree {c : CoreRef} (h : K.Holds s) : K.Next (Machine.execFUnitFree c s) := by
  unfold Machine.execFUnitFree
  exact .next (.modCore h)

theorem Kept.Next.execPhaseDrainDone {t : TaskRef} (h : K.Holds s) : K.Next (Machine.execPhaseDrainDone t s) := by
  unfold Machine.execPhaseDrainDone
  exact .next (.drain h)

theorem Kept.Next.execPhaseBarClose {t : TaskRef} (h : K.Holds s) : K.Next (Machine.execPhaseBarClose t s) := by
  unfold Machine.execPhaseBarClose
  exact .next (.ite (.modTask (.drain h)) h)

/-! ### The definitions of Sys2Proof/Machine/Work.lean -/

theorem Kept.Next.runEvent {e : Event} (h : canonical.Holds s) : canonical.Next (Machine.runEvent e s) := by
  unfold Machine.runEvent
  split
  · exact .execIssueTick h
  · exact .execEventEntry h
  · exact .execFUnitFree h
  · exact .execPhaseDrainDone h
  · exact .execPhaseBarClose h
  · exact .execL1Fill h
  · exact .execL1Writeback h
  · exact .execHomeLoad h
  · exact .execHomeStore h
  · exact .execAtomicExecute h
  · exact .execOrderedRelease h
  · exact .execAtomicReply h
  · exact .execCopyStart h
  · exact .execCopyCellWrite h
  · exact .execCopyComplete h
  · exact .execStreamStart h
  · exact .execStreamComplete h
  · exact .execMoutComplete h
  · exact .execArrayError h
  · exact .execRerunDone h
  · exact .execRegionUnprotected h
  · exact .execSlotRelease h
  · exact .execDispatchGroup h
  · exact .execClaim h
  · exact .execStealRequest h
  · exact .execTaskHalt h
  · exact .execTileStart h
  · exact .execUnitComplete h
  · exact .execTileFold h
  · exact .execChildLost h
  · exact .execTileComplete h
  · exact .execLaunchComplete h
  · exact .execMcstStart h
  · exact .execMcstComplete h
  · exact .execCellArrival h
  · exact .execSlotSend h
  · exact .execLinkCellReceive h
  · exact .execLinkAck h
  · exact .execReplayRequest h
  · exact .execLinkSignalLoss h
  · exact .execRetrainTimeout h
  · exact .execModuleLoss h
  · exact .execRingRefusal h
  · exact .execNack h
  · exact .execNackResend h
  · exact .execKeyMarker h
  · exact .execKeyRefusal h
  · exact .execRemoteRequest h
  · exact .execReply h
  · exact .execRetransmit h
  · exact .execRemoteTimeout h
  · exact .execReplyCacheExpire h
  · exact .execSequenceSkip h
  · exact .execCollArrive h
  · exact .execCollComplete h
  · exact .execCollFault h
  · exact .execTlbinvAck h
  · exact .execGenbumpDone h
  · exact .execL2wbDone h
  · exact .execDomsetDone h
  · exact .execNploadDone h
  · exact .execAttestServe h
  · exact .execGswCommand h
  · exact .execGangStop h
  · exact .execGangStopTimeout h
  · exact .execGangMarker h
  · exact .execLateCell h
  · exact .execKill h
  · exact .execMselWrite h
  · exact .execMonitorSample h
  · exact .execGhcfgLock h
  · exact .execRegisterWrite h
  · exact .execHostFrame h
  · exact .execHostLaunch h
  · exact .execHostLoad h
  · exact .execHostWrite h
  · exact .execHostRead h
  · exact .execHostKey h
  · exact .execHostAttest h
  · exact .execHostJobEnd h
  · exact .execHostGrotto h
  · exact .execHostConfig h
  · exact .execModuleReset h
  · exact .execPowerTrip h
  · exact .execJunctionTrip h
  · exact .execPackageWatchdog h
  · exact .execFatalStop h
  · exact .execFatalMessage h
  · exact .execLinkTrained h
  · exact .execPowerLoss

/-! ### The definitions of Sys2Proof/Machine/Step.lean -/

theorem Kept.Holds.afterTick (h : K.Holds s) : K.Holds (s.afterTick) := by
  unfold State.afterTick
  exact .updated (.tookFree h)

end

end Sys2Proof

namespace Sys2Proof

open Machine

/-- A step that answers a next state keeps the canonical form: the issue of the focus core's bundle, or the machine step at the
head of the agenda. -/
theorem Kept.Next.step {s : State} (h : canonical.Holds s) : canonical.Next (Machine.step s) := by
  unfold Machine.step
  split
  · exact .ite (.runEvent (.updated h)) (.next (.updated h))
  · refine .ite ?_ .fault
    split
    · exact .next (.afterTick (Kept.Next.holds (.execIssueTick h) ‹_›))
    · exact .fault
    · exact .refused

/-- Settles O6: every function that a step runs keeps the canonical form, each by the functions it calls. -/
theorem memoryCanonical : Obligations.MemoryCanonical := by
  unfold Obligations.MemoryCanonical
  exact fun s t safe next => Kept.Next.step (s := s) safe t next

end Sys2Proof

namespace Sys2Proof

open Machine

/-! ### A lodge's slots that answer a status (R285, R380) -/

section
variable {m : SlotSem} {i : Instr} {s v : State}

/-- The state that only the issuing task's bundle separates from `v`: no other task, core, die or byte changes. -/
theorem OnlyTask.elsewhere {u t : State} (h : OnlyTask u t) {q : TaskRef}
    (other : CoreRef.key q.coreRef ≠ CoreRef.key u.cur.coreRef) : t.task? q = u.task? q := h.task? (.inl other)

/-- The operand check of a slot that is ready has passed. -/
theorem Ready.passes (ready : Ready m s) (guard : s.me.guardOn m.guard = true) (mark : m.mark = false) (src : m.vsrc = []) :
    m.trap 0 (opened s) = none := by
  have takes : ∀ q, m.takes (opened s) q = false := fun q => by simp [SlotSem.takes, src]
  have calm := ready.calm
  rw [atIssue_opened m s mark, SlotSem.execTrap, if_pos (acts_opened guard)] at calm
  simpa [SlotSem.queueTrap, takes] using calm

/-- A ready slot whose effect changes what is not its task's, leaving its task with another time at most, and then its task
steadily with results. -/
theorem Ready.works {f : Task → Task} {l : List Pending} (ready : Ready m s) (r : Runs m.guard s) (hx : exec i s = issueSlot m s)
    (mark : m.mark = false) (funit : m.funit = false) (src : m.vsrc = []) (cur : v.cur = s.cur)
    (own : v.me = atTime (v.task s.cur).time (opened s).me)
    (eff : m.eff (opened s) (opened s) = v.modMe fun t => { f t with pend := t.pend ++ l }) (hf : Steady f)
    (hl : ∀ p ∈ l, 1 ≤ p.left ∧ Own p) :
    ∃ t, exec i s = .next t ∧ OnlyTask v t
      ∧ t.task s.cur = delivered (isLodge s.cur.core) l (f (atTime (v.task s.cur).time (afterBundle (isLodge s.cur.core) s.me))) := by
  have change : OnlyTask v (v.modMe fun t => { f t with pend := t.pend ++ l }) := OnlyTask.modTask ..
  have task : (v.modMe fun t => { f t with pend := t.pend ++ l }).task s.cur =
      { f (atTime (v.task s.cur).time (opened s).me) with pend := s.me.pend ++ l } := by
    have mine : (v.modMe fun t => { f t with pend := t.pend ++ l }).me = _ := State.me_modMe ..
    rw [State.me, show (v.modMe _).cur = s.cur from cur, own] at mine
    rw [mine, me_opened]
    rfl
  obtain ⟨t, next, mine, only⟩ := ready.leaves r hx mark funit eff cur task (hf.comp (steady_atTime _)) hl
  have takes : ∀ q, m.takes (opened s) q = false := fun q => by simp [SlotSem.takes, src]
  rw [takes, takes] at mine
  exact ⟨t, next, change.trans only, mine⟩

/-- A ready slot of a lodge that works and gives a status for s_d. -/
theorem Ready.answers {c : BitVec 5} {n : W64} (ready : Ready m s) (r : Runs m.guard s) (hx : exec i s = issueSlot m s)
    (mark : m.mark = false) (funit : m.funit = false) (src : m.vsrc = []) (lodge : isLodge s.cur.core = true) (cur : v.cur = s.cur)
    (own : v.me = atTime (v.task s.cur).time (opened s).me)
    (eff : m.eff (opened s) (opened s) = v.push 1 (.scalar c.toNat n)) :
    ∃ t, exec i s = .next t ∧ OnlyTask v t
      ∧ t.task s.cur = { delivered true (scalarResult 1 c n) (afterBundle true s.me) with time := (v.task s.cur).time } := by
  obtain ⟨t, next, only, mine⟩ := ready.works (f := id) (l := scalarResult 1 c n) r hx mark funit src cur own (eff.trans rfl) steady_id
    (List.forall_mem_singleton.2 ⟨Nat.le_refl 1, own_scalar _ _ _ _⟩)
  rw [lodge, id, delivered_atTime] at mine
  exact ⟨t, next, only, mine⟩

/-- A ready slot of a lodge that works and then holds the next bundle. -/
theorem Ready.holdsOn {x : Hold} (ready : Ready m s) (r : Runs m.guard s) (hx : exec i s = issueSlot m s)
    (mark : m.mark = false) (funit : m.funit = false) (src : m.vsrc = []) (lodge : isLodge s.cur.core = true) (cur : v.cur = s.cur)
    (own : v.me = atTime (v.task s.cur).time (opened s).me) (eff : m.eff (opened s) (opened s) = v.holdOn x) :
    ∃ t, exec i s = .next t ∧ OnlyTask v t
      ∧ t.task s.cur = { afterBundle true s.me with holds := s.me.holds ++ [x], time := (v.task s.cur).time } := by
  obtain ⟨t, next, only, mine⟩ := ready.works (f := held x) (l := []) r hx mark funit src cur own
    (eff.trans (by simp only [List.append_nil]; rfl)) (steady_held x) (by simp)
  rw [lodge, delivered_nil] at mine
  exact ⟨t, next, only, mine⟩

end

/-! ### CTXSV (R285) -/

section
variable {g : Guard} {a b c : BitVec 5} {s : State}

/-- The target of a context instruction is no lodge's task (Table 13.3). -/
theorem key_context {v : W64} {all remove : Bool} (ok : targetOk all remove v = true) {die : Nat} {q : TaskRef} (hq : q.die = die)
    (lodge : isLodge q.core = true) : CoreRef.key q.coreRef ≠ CoreRef.key (contextTarget die v).coreRef := by
  have other : v.toNat % 128 ≠ 96 := by
    simp only [targetOk, isCompute, isControl, Bool.and_eq_true, Bool.or_eq_true, decide_eq_true_eq] at ok
    omega
  simp only [isLodge, decide_eq_true_eq] at lodge
  simp only [CoreRef.key, TaskRef.coreRef, contextTarget, hq, lodge]
  omega

theorem sysTrap_none {bad : Bool} {k : Nat} (h : sysTrap bad k = none) : bad = false := by
  cases bad
  · rfl
  · exact absurd h nofun

theorem ctxsv_target (acts : Acts (.ctxsv g a b c) s) : targetOk false true (s.sreg a) = true := by
  obtain ⟨r, ready⟩ := acts.slotOf (m := semCtxsv g a b c) rfl
  have passed := sysTrap_none (ready.passes r.guard rfl rfl)
  rw [sreg_opened] at passed
  cases ok : targetOk false true (s.sreg a)
  · rw [ok] at passed
    exact absurd passed (by simp)
  · rfl

/-- The status of a save does not depend on the lodge's own task. -/
theorem ctxsvCode_opened {q : TaskRef} (other : CoreRef.key q.coreRef ≠ CoreRef.key s.cur.coreRef) (remove : Bool) :
    (opened s).ctxsvCode q remove = s.ctxsvCode q remove := by
  have same : (opened s).task? q = s.task? q := (task?_modTask ..).trans (if_neg fun h => other h.1)
  have core : (opened s).core q.coreRef = s.core q.coreRef := (OnlyTask.opened s).others _ other
  rw [State.ctxsvCode, State.ctxsvCode, same, core]
  rfl

/-- A save that has a status at issue changes nothing else (Table 13.4). -/
theorem ctxsv_refused (lodge : isLodge s.cur.core = true) (acts : Acts (.ctxsv g a b c) s) {n : Nat}
    (code : s.ctxsvCode (contextTarget s.cur.die (s.sreg a)) ((s.sreg a).getLsbD 10) = some n) :
    Gives (.ctxsv g a b c) s (scalarResult 1 c (BitVec.ofNat 64 n)) := by
  obtain ⟨r, ready⟩ := acts.slotOf (m := semCtxsv g a b c) rfl
  have far := (key_context (ctxsv_target acts) (q := s.cur) rfl lodge).symm
  refine ready.changes r rfl rfl rfl rfl (f := id) ?_ steady_id (List.forall_mem_singleton.2 ⟨Nat.le_refl 1, own_scalar _ _ _ _⟩)
  simp only [semCtxsv, sreg_opened, cur_opened, ctxsvCode_opened far, code]
  rfl

/-- A save that begins stops its target's commands and holds the lodge (R285). -/
theorem ctxsv_begins (lodge : isLodge s.cur.core = true) (acts : Acts (.ctxsv g a b c) s)
    (code : s.ctxsvCode (contextTarget s.cur.die (s.sreg a)) ((s.sreg a).getLsbD 10) = none) :
    let r := contextTarget s.cur.die (s.sreg a)
    ∃ t, exec (.ctxsv g a b c) s = .next t
      ∧ t.task s.cur = { afterBundle true s.me with holds := s.me.holds ++ [.ctxsv c.toNat (s.sreg a) (s.sreg b)] }
      ∧ t.task? r = (s.task? r).map (fun k => { k with stopped := true })
      ∧ (∀ q : TaskRef, (CoreRef.key q.coreRef ≠ CoreRef.key s.cur.coreRef ∨ q.slot ≠ s.cur.slot) →
          (CoreRef.key q.coreRef ≠ CoreRef.key r.coreRef ∨ q.slot ≠ r.slot) → t.task? q = s.task? q)
      ∧ (∀ k, coreBeside (t.core k) = coreBeside (s.core k)) ∧ moduleBeside t = moduleBeside s := by
  intro r
  obtain ⟨run, ready⟩ := acts.slotOf (m := semCtxsv g a b c) rfl
  have far : CoreRef.key r.coreRef ≠ CoreRef.key s.cur.coreRef := (key_context (ctxsv_target acts) (q := s.cur) rfl lodge).symm
  have there : (s.task? r).isSome = true := by
    cases h : s.task? r with
    | some _ => rfl
    | none => exact absurd code (by simp [State.ctxsvCode, show s.task? (contextTarget s.cur.die (s.sreg a)) = none from h])
  have opened? : ∀ q : TaskRef, (CoreRef.key q.coreRef ≠ CoreRef.key s.cur.coreRef ∨ q.slot ≠ s.cur.slot) → (opened s).task? q = s.task? q :=
    fun q hq => (OnlyTask.opened s).task? hq
  let v := (opened s).modTask r fun t => { t with stopped := true }
  have tasks : ∀ q, v.task? q = _ := task?_modTask (opened s) r _
  have own : v.me = (opened s).me := by
    have mine := (tasks s.cur).trans (if_neg fun h => far h.1.symm)
    exact congrArg (fun o : Option Task => o.getD Task.blank) mine
  obtain ⟨t, next, only, mine⟩ := ready.holdsOn (v := v) (i := .ctxsv g a b c) (x := .ctxsv c.toNat (s.sreg a) (s.sreg b)) run rfl rfl rfl rfl lodge rfl
    (own.trans (congrArg (fun k : Task => atTime k.time (opened s).me) own).symm) (by
      simp only [semCtxsv, sreg_opened, cur_opened]
      rw [(ctxsvCode_opened far _).trans code])
  have time : (v.task s.cur).time = (afterBundle true s.me).time := by
    rw [show v.task s.cur = v.me from rfl, own, me_opened]
    rfl
  refine ⟨t, next, ?_, ?_, fun q mineNot targetNot => ?_, fun k => ?_, only.rest⟩
  · rw [mine, time]
  · rw [only.elsewhere (show CoreRef.key r.coreRef ≠ CoreRef.key v.cur.coreRef from far), tasks, if_pos ⟨rfl, rfl⟩, State.task, opened? r (.inl far)]
    obtain ⟨k, hk⟩ := Option.isSome_iff_exists.1 there
    rw [hk]
    rfl
  · rw [only.task? mineNot, tasks, if_neg fun h => targetNot.elim (fun k => k h.1) fun k => k h.2]
    exact opened? q mineNot
  · refine (only.coreBeside k).trans (Eq.trans ?_ ((OnlyTask.opened s).coreBeside k))
    by_cases hk : CoreRef.key k = CoreRef.key r.coreRef
    · rw [core_congr _ hk, core_congr (opened s) hk, State.core_modTask]
      rfl
    · rw [core_modTask_other _ _ hk]

end

end Sys2Proof

namespace Sys2Proof

open Machine

/-! ### A lodge's slots that read a record (R253, R380) -/

section
variable {m : SlotSem} {i : Instr} {s u : State} {die : Nat}

/-- After a lodge's read its own task has another time at most. -/
theorem Reads.own (reads : Reads die (opened s) u) : u.cur = s.cur ∧ u.me = atTime (u.task s.cur).time (opened s).me := by
  have cur : u.cur = s.cur := reads.cur
  refine ⟨cur, ?_⟩
  rw [State.me, cur, reads.task s.cur]
  rfl

/-- A lodge's read leaves the tasks of every other core. -/
theorem Reads.elsewhere (reads : Reads s.cur.die (opened s) u) (lodge : isLodge s.cur.core = true) {q : TaskRef}
    (other : CoreRef.key q.coreRef ≠ CoreRef.key s.cur.coreRef) : u.task? q = s.task? q := by
  have here : s.cur.coreRef = ⟨s.cur.die, 96⟩ := congrArg (fun n => (⟨s.cur.die, n⟩ : CoreRef)) (of_decide_eq_true lodge)
  exact (reads.others q (.inl (here ▸ other))).trans ((OnlyTask.opened s).task? (.inl other))

/-- A slot that reads and answers a status changes nothing beside the read. -/
theorem Ready.tells {c : BitVec 5} {n : W64} (ready : Ready m s) (r : Runs m.guard s) (hx : exec i s = issueSlot m s)
    (mark : m.mark = false) (funit : m.funit = false) (src : m.vsrc = []) (lodge : isLodge s.cur.core = true)
    (reads : Reads s.cur.die (opened s) u) (eff : m.eff (opened s) (opened s) = u.push 1 (.scalar c.toNat n)) :
    ∃ t, exec i s = .next t ∧ OnlyTask u t ∧ (∀ q : TaskRef, CoreRef.key q.coreRef ≠ CoreRef.key s.cur.coreRef → t.task? q = s.task? q)
      ∧ t.task s.cur = { delivered true (scalarResult 1 c n) (afterBundle true s.me) with time := (u.task s.cur).time } := by
  obtain ⟨cur, own⟩ := reads.own
  obtain ⟨t, next, only, mine⟩ := ready.answers r hx mark funit src lodge cur own eff
  exact ⟨t, next, only, fun q other => (only.elsewhere (by rw [cur]; exact other)).trans (reads.elsewhere lodge other), mine⟩

end

/-- The read of a switch block (R253, R380). -/
theorem reads_readBlock (s : State) (a : W64) : Reads s.cur.die s ((s.readBlock a).1.lodgeRest s.cur.die) := by
  refine Reads.trans ?_ (reads_lodgeRest ..)
  unfold State.readBlock
  split
  · exact (Worked.refl s).reads _
  · exact reads_lodgeRead ..

/-! ### GSW (R372, R380) -/

section
variable {g : Guard} {a c : BitVec 5} {s : State}

/-- GSW's effect where it has a status at issue (Table 18.4). -/
theorem gsw_eff {n : Nat} (code : (opened s).gswCode ((opened s).blockRead (s.sreg a)) = some n) :
    (semGsw g a c).eff (opened s) (opened s) =
      (((opened s).readBlock (s.sreg a)).1.lodgeRest s.cur.die).push 1 (.scalar c.toNat (BitVec.ofNat 64 n)) := by
  simp only [semGsw, sreg_opened, cur_opened]
  rw [code]
  split
  · next h => exact absurd h nofun
  · rfl

/-- GSW that is not begun gives its status and changes nothing beside the read (R380). -/
theorem gsw_refused (lodge : isLodge s.cur.core = true) (acts : Acts (.gsw g a c) s) {n : Nat}
    (code : (opened s).gswCode ((opened s).blockRead (s.sreg a)) = some n) :
    let u := ((opened s).readBlock (s.sreg a)).1.lodgeRest s.cur.die
    ∃ t, exec (.gsw g a c) s = .next t ∧ OnlyTask u t
      ∧ (∀ q : TaskRef, CoreRef.key q.coreRef ≠ CoreRef.key s.cur.coreRef → t.task? q = s.task? q)
      ∧ t.task s.cur = { delivered true (scalarResult 1 c (BitVec.ofNat 64 n)) (afterBundle true s.me) with time := (u.task s.cur).time } := by
  obtain ⟨r, ready⟩ := acts.slotOf (m := semGsw g a c) rfl
  exact ready.tells r rfl rfl rfl rfl lodge (reads_readBlock (opened s) _) (gsw_eff code)

/-- What a job's stop leaves: the issuing slot and every task beside the job's. -/
structure Spared (s t : State) : Prop where
  cur : t.cur = s.cur
  task? : ∀ q : TaskRef, isLodge q.core = true → t.task? q = s.task? q

theorem Spared.trans {s t u : State} (h : Spared s t) (k : Spared t u) : Spared s u :=
  ⟨k.cur.trans h.cur, fun q hq => (k.task? q hq).trans (h.task? q hq)⟩

theorem Worked.spared {s t : State} (h : Worked s t) : Spared s t := ⟨h.cur, fun q _ => h.task? q⟩

theorem stopTask_cur (s : State) (r : TaskRef) : (stopTask s r).cur = s.cur := by
  unfold stopTask State.preemptAt
  split
  · rfl
  split <;> rfl

/-- A task that is no lodge's, in its own slot's core (R282). -/
theorem stopTask_spares (s : State) {r : TaskRef} (core : r.core < 128) (other : isLodge r.core = false) : Spared s (stopTask s r) := by
  refine ⟨stopTask_cur s r, fun q hq => (stopTask_stops s r).2.2 q (.inl ?_)⟩
  simp only [isLodge, decide_eq_true_eq, decide_eq_false_iff_not] at hq other
  simp only [CoreRef.key, TaskRef.coreRef, hq]
  omega

theorem core_resident {s : State} {r : TaskRef} (h : r ∈ s.residents) : r.core < 128 := by
  simp only [State.residents, State.coreRefs, List.mem_flatMap, List.mem_map, List.mem_filterMap] at h
  obtain ⟨_, ⟨e, -, rfl⟩, x, -, hx⟩ := h
  cases hy : x.2 with
  | none => exact absurd hx (by simp [hy])
  | some y =>
    rw [hy] at hx
    obtain rfl := Option.some.inj hx
    exact Nat.mod_lt _ (by decide)

theorem stopTasks_spare (l : List TaskRef) (s : State) (named : ∀ r ∈ l, r.core < 128 ∧ isLodge r.core = false) :
    Spared s (l.foldl stopTask s) := by
  induction l generalizing s with
  | nil => exact ⟨rfl, fun _ _ => rfl⟩
  | cons r l ih =>
    obtain ⟨core, other⟩ := named r List.mem_cons_self
    exact (stopTask_spares s core other).trans (ih _ fun q hq => named q (List.mem_cons_of_mem _ hq))

theorem worked_output (s : State) (die router port : Nat) (x : Cell) : Worked s (s.output die router port x) := worked_modPav ..

/-- A job's stop leaves the lodges' tasks, and its switch is the one named (R372). -/
theorem stopJob_spares (s : State) (y : Gang) : Spared s (s.stopJob y) ∧ (s.stopJob y).gang = some (stoppedGang s y) := by
  have tasks : ∀ r ∈ s.jobTasks y.block.job, r.core < 128 ∧ isLodge r.core = false := fun r hr => by
    obtain ⟨resident, kept⟩ := List.mem_filter.1 hr
    simp only [Bool.and_eq_true, Bool.not_eq_true'] at kept
    exact ⟨core_resident resident, kept.2⟩
  obtain ⟨gang, -⟩ := stopTasks_stop (s.jobTasks y.block.job) { s with gang := some (stoppedGang s y) }
  have halted := stopTasks_spare (s.jobTasks y.block.job) { s with gang := some (stoppedGang s y) } tasks
  have sent : Worked ((s.jobTasks y.block.job).foldl stopTask { s with gang := some (stoppedGang s y) }) (jobHalted s y) :=
    .foldl _ (fun t p => worked_output t ..) _ _
  have stored : Worked (jobHalted s y) (s.stopJob y) := worked_storeHbm ..
  have rest := sent.trans stored
  exact ⟨Spared.trans ⟨halted.cur, fun q hq => halted.task? q hq⟩ rest.spared, rest.gang.trans gang⟩

/-- A switch that begins: the lodges' tasks stand, and where it is not late, every task and every byte (R372). -/
theorem startGang_starts (s : State) (k : SwitchBlock) (issuer : Option (TaskRef × Nat)) : Spared s (s.startGang k issuer)
    ∧ (∃ y, (s.startGang k issuer).gang = some y ∧ y.block = k ∧ y.issuer = issuer)
    ∧ (s.hwm.toNat ≤ 4096 * k.turn → (s.startGang k issuer).mem = s.mem ∧ (s.startGang k issuer).cores = s.cores) := by
  unfold State.startGang
  dsimp only
  by_cases late : 4096 * k.turn < s.hwm.toNat
  · rw [if_pos (decide_eq_true late)]
    obtain ⟨spared, gang⟩ := stopJob_spares s ⟨k, issuer, false, decide (4096 * k.turn < s.hwm.toNat), [], 0, [], [], [], []⟩
    exact ⟨spared, ⟨_, gang, rfl, rfl⟩, fun early => absurd late (Nat.not_lt.2 early)⟩
  · rw [if_neg fun h => late (of_decide_eq_true h)]
    exact ⟨⟨rfl, fun _ _ => rfl⟩, ⟨_, rfl, rfl, rfl⟩, fun _ => ⟨rfl, rfl⟩⟩

/-- The command to the other modules leaves by the ports alone (R372). -/
theorem sendCommand_sends (s : State) (k : SwitchBlock) : Worked s (s.sendCommand k) ∧ (s.sendCommand k).mem = s.mem
    ∧ (s.sendCommand k).cores = s.cores := by
  unfold State.sendCommand
  generalize presentList (s.die 0).gate.present = l
  induction l generalizing s with
  | nil => exact ⟨.refl _, rfl, rfl⟩
  | cons m l ih =>
    rw [List.foldl_cons]
    split
    · obtain ⟨worked, mem, cores⟩ := ih (s.output 0 gateRouter (s.portFor 0 m)
        (routedCell 10 (m + lodgeRouter * 2 ^ 9) k.job (exactly 128 (Config.commandCell (switchBytes k)))))
      exact ⟨(worked_output ..).trans worked, mem, cores⟩
    · exact ih s

/-- GSW's effect where it begins (R372). -/
theorem gsw_eff_begins {k : SwitchBlock} (block : (opened s).blockRead (s.sreg a) = some k)
    (code : (opened s).gswCode ((opened s).blockRead (s.sreg a)) = none) : (semGsw g a c).eff (opened s) (opened s) =
      (((((opened s).readBlock (s.sreg a)).1.lodgeRest s.cur.die).holdOn (.gsw c.toNat)).startGang k
        (some (s.cur, c.toNat))).sendCommand k := by
  simp only [semGsw, sreg_opened, cur_opened]
  rw [code, block]

/-- GSW of a valid block of the active job begins the switch and holds the lodge (R372, R380). -/
theorem gsw_begins (lodge : isLodge s.cur.core = true) (acts : Acts (.gsw g a c) s) {k : SwitchBlock}
    (block : (opened s).blockRead (s.sreg a) = some k) (code : (opened s).gswCode ((opened s).blockRead (s.sreg a)) = none) :
    let u := ((opened s).readBlock (s.sreg a)).1.lodgeRest s.cur.die
    ∃ t, exec (.gsw g a c) s = .next t
      ∧ (∃ y, t.gang = some y ∧ y.block = k ∧ y.issuer = some (s.cur, c.toNat))
      ∧ t.task s.cur = { afterBundle true s.me with holds := s.me.holds ++ [.gsw c.toNat], time := (u.task s.cur).time }
      ∧ (u.hwm.toNat ≤ 4096 * k.turn → t.mem = u.mem
        ∧ ∀ q : TaskRef, CoreRef.key q.coreRef ≠ CoreRef.key s.cur.coreRef → t.task? q = s.task? q) := by
  intro u
  obtain ⟨r, ready⟩ := acts.slotOf (m := semGsw g a c) rfl
  have reads : Reads s.cur.die (opened s) u := reads_readBlock (opened s) _
  obtain ⟨cur, own⟩ := reads.own
  let w := u.holdOn (.gsw c.toNat)
  let x := w.startGang k (some (s.cur, c.toNat))
  let v := x.sendCommand k
  obtain ⟨spared, ⟨y, gang, named, issuer⟩, early⟩ := startGang_starts w k (some (s.cur, c.toNat))
  obtain ⟨sent, mem, cores⟩ := sendCommand_sends x k
  have curV : v.cur = s.cur := sent.cur.trans (spared.cur.trans cur)
  have task : v.task s.cur = { held (.gsw c.toNat) (atTime (u.task s.cur).time (opened s).me) with pend := s.me.pend ++ [] } := by
    have mine : w.me = held (.gsw c.toNat) u.me := State.me_modMe ..
    rw [State.me, show w.cur = s.cur from cur, own] at mine
    rw [sent.task, State.task, spared.task? s.cur lodge, ← State.task, mine, List.append_nil, me_opened]
    rfl
  obtain ⟨t, next, mine, only⟩ := ready.leaves (i := .gsw g a c) r rfl rfl rfl (gsw_eff_begins block code) curV task
    ((steady_held _).comp (steady_atTime _)) (by simp)
  have takes : ∀ q, (semGsw g a c).takes (opened s) q = false := fun q => by simp [SlotSem.takes, semGsw]
  rw [takes, takes] at mine
  refine ⟨t, next, ⟨y, ?_, named, issuer⟩, ?_, fun onTime => ⟨?_, fun q other => ?_⟩⟩
  · exact ((congrArg State.gang only.rest :).trans sent.gang).trans gang
  · rw [mine, taskPast, lodge]
    exact (delivered_nil ..).trans rfl
  · exact ((congrArg State.mem only.rest :).trans mem).trans (early onTime).1
  · rw [only.elsewhere (by rw [curV]; exact other), State.task?, State.core, cores, (early onTime).2, ← State.core, ← State.task?]
    have beside : w.task? q = u.task? q := (OnlyTask.modTask u (held (.gsw c.toNat))).task? (.inl (by rw [cur]; exact other))
    exact beside.trans (reads.elsewhere lodge other)

end

end Sys2Proof

namespace Sys2Proof

open Machine

/-! ### A context loaded (R285, R286) -/

/-- What a step on one slot's task leaves: the issuing slot and every other task. -/
structure Around (r : TaskRef) (s t : State) : Prop where
  cur : t.cur = s.cur
  others : OthersStand s t r

theorem Around.refl (r : TaskRef) (s : State) : Around r s s := ⟨rfl, fun _ _ => rfl⟩

theorem Around.trans {r : TaskRef} {s t u : State} (h : Around r s t) (k : Around r t u) : Around r s u :=
  ⟨k.cur.trans h.cur, h.others.trans k.others⟩

theorem Around.foldl {α : Type} {r : TaskRef} (step : State → α → State) (each : ∀ t a, Around r t (step t a)) (s : State) (l : List α) :
    Around r s (l.foldl step s) := by
  induction l generalizing s with
  | nil => exact .refl r s
  | cons a l ih => exact (each s a).trans (ih _)

/-- The slot of a halted task in a state that a load of it has touched. -/
structure Sits (r : TaskRef) (s t : State) : Prop extends Around r s t where
  there : (t.task? r).isSome = true
  halted : (t.task r).halted = true

section
variable {r : TaskRef} {s t u : State}

theorem Around.modTask (r : TaskRef) (s : State) (f : Task → Task) : Around r s (s.modTask r f) := ⟨rfl, othersStand_modTask s r f⟩

theorem Around.tasks (tasks : ∀ q, t.task? q = s.task? q) (cur : t.cur = s.cur) : Around r s t := ⟨cur, fun q _ => tasks q⟩

theorem Around.modCore (c : CoreRef) (f : Core → Core) (tasks : (f (s.core c)).tasks = (s.core c).tasks) : Around r s (s.modCore c f) :=
  .tasks (task?_modCore_tasks s c tasks) rfl

theorem Sits.tasks (h : Sits r s t) (tasks : ∀ q, u.task? q = t.task? q) (cur : u.cur = t.cur) : Sits r s u :=
  ⟨h.toAround.trans (.tasks tasks cur), by rw [tasks]; exact h.there, by rw [State.task, tasks]; exact h.halted⟩

/-- A change of other stores than the cores. -/
theorem Sits.stores (h : Sits r s t) (cores : u.cores = t.cores) (cur : u.cur = t.cur) : Sits r s u :=
  h.tasks (fun q => by rw [State.task?, State.core, cores]; rfl) cur

theorem Sits.modCore (h : Sits r s t) (c : CoreRef) (f : Core → Core) (tasks : (f (t.core c)).tasks = (t.core c).tasks) :
    Sits r s (t.modCore c f) := h.tasks (task?_modCore_tasks t c tasks) rfl

theorem Sits.setTask (h : Around r s t) {x : Task} (halted : x.halted = true) : Sits r s (t.setTask r x) := by
  have mine : (t.setTask r x).task? r = some x := (task?_setTask t r x r).trans (if_pos ⟨rfl, rfl⟩)
  exact ⟨h.trans (Around.modTask r t fun _ => x), by rw [mine]; rfl, by rw [State.task, mine]; exact halted⟩

theorem Sits.modTask (h : Sits r s t) (f : Task → Task) (keeps : ∀ x, (f x).halted = x.halted) : Sits r s (t.modTask r f) := by
  refine Sits.setTask h.toAround ?_
  rw [keeps]
  exact h.halted

theorem Sits.foldl {α : Type} (h : Sits r s t) (step : State → α → State) (each : ∀ u a, Sits r s u → Sits r s (step u a)) (l : List α) :
    Sits r s (l.foldl step t) := by
  induction l generalizing t with
  | nil => exact h
  | cons a l ih => exact ih (each t a h)

end

theorem tasks_foldl {α : Type} (f : Core → α → Core) (each : ∀ c a, (f c a).tasks = c.tasks) (l : List α) (c : Core) :
    (l.foldl f c).tasks = c.tasks := by
  induction l generalizing c with
  | nil => rfl
  | cons a l ih => exact (ih (f c a)).trans (each c a)

/-- A record's array part leaves the core's tasks (R210). -/
theorem tasks_takeMatrix (slot : Nat) (b : List Byte) (c : Core) : (c.takeMatrix slot b).tasks = c.tasks := by
  unfold Core.takeMatrix
  dsimp only
  refine (tasks_foldl _ ?_ _ _).trans ((tasks_foldl _ ?_ _ _).trans ((tasks_foldl _ ?_ _ _).trans (tasks_foldl _ ?_ _ c)))
  · exact fun c x => tasks_foldl _ (fun _ _ => by rfl) _ c
  · exact fun _ _ => rfl
  · exact fun _ _ => rfl
  · exact fun _ _ => rfl

section
variable {r : TaskRef} {s t : State}

theorem Sits.matrixData (h : Sits r s t) (c : CoreRef) (b : List Byte) : Sits r s (t.matrixData c b) := by
  unfold State.matrixData
  refine Sits.foldl (h.foldl _ ?_ _) _ ?_ _
  · exact fun _ _ hu => hu.stores rfl rfl
  · exact fun _ _ hu => hu.stores rfl rfl

theorem Sits.endToken (h : Sits r s t) (tok cause : Nat) (tc : W64) : Sits r s (t.endToken r tok cause tc) := by
  unfold State.endToken
  exact Sits.modCore (h.modTask _ fun _ => by rfl) _ _ (by rfl)

/-- A saved command back in the buffer leaves its task halted (R225). -/
theorem Sits.loadCmd (h : Sits r s t) (old : Option Task) (x : Nat × Nat × Nat × List Byte) : Sits r s (State.loadCmd r old t x) := by
  have put : ∀ y, Sits r s (t.modCore r.coreRef fun k => k.setCmd (physToken r x.2.1) (some y)) := fun y => h.modCore _ _ rfl
  unfold State.loadCmd
  dsimp only
  split
  · split
    · exact (put _).stores rfl rfl
    split
    · split
      · exact h.endToken ..
      · exact (put _).stores rfl rfl
    · exact h.endToken ..
  · split
    · exact h
    split
    · exact h.endToken ..
    · exact put _
  · exact put _

theorem halted_wake (n : Nat) (b : Barrier) (t : Task) : (t.wake n b).halted = t.halted := by
  unfold Task.wake
  split
  · split <;> rfl
  · rfl

theorem Around.launchFor (r : TaskRef) (s : State) (b : List Byte) : Around r s (s.launchFor b).1 := by
  unfold State.launchFor
  split
  · exact .refl r s
  · exact .tasks (fun _ => rfl) rfl

/-- A record loaded into its slot: its task sits there, halted (R285). -/
theorem loadInto_sits (h : Around r s t) (b : List Byte) (old : Option Task) : Sits r s (t.loadInto r b old) := by
  have launch := h.trans (Around.launchFor r t (b.take 4096))
  unfold State.loadInto
  dsimp only
  generalize t.launchFor (b.take 4096) = x at launch ⊢
  generalize (x.1.core r.coreRef).freeBlock (blockRegs r.coreRef.core (bytesAt (b.take 4096) 6 2)) = vb
  generalize (x.1.core r.coreRef).freeWindow (bytesAt (b.drop (bytesAt (b.take 4096) (112 + 8 * 1) 8)) 0 1) = wb
  obtain ⟨y, hy, halted⟩ : ∃ y, x.1.recordTask r.coreRef x.2 b (vb.getD 0) (wb.getD 0) old = y ∧ y.halted = true := ⟨_, rfl, rfl⟩
  rw [hy]
  have sits : Sits r s ((x.1.setTask r y).tookFree 2) := (Sits.setTask launch halted).stores rfl rfl
  generalize (x.1.setTask r y).tookFree 2 = w at sits ⊢
  have core := sits.modCore r.coreRef (fun k => (List.range (tileCount r.core)).foldl
      (fun k i => k.setTile (physTile r i) (TileEntry.ofBits 0 (bytesAt (b.drop (bytesAt (b.take 4096) (112 + 8 * 1) 8)) (1088 + 32 * i) 32)))
      ((((k.dropRo).zeroBlock (vb.getD 0) (blockRegs r.coreRef.core (bytesAt (b.take 4096) 6 2))).setVectors
        (b.drop (bytesAt (b.take 4096) (112 + 8 * 0) 8)) (vb.getD 0) (bytesAt (b.take 4096) 6 2)).takeMatrix r.slot
          (b.drop (bytesAt (b.take 4096) (112 + 8 * 2) 8))))
    ((tasks_foldl _ (fun _ _ => by rfl) _ _).trans (tasks_takeMatrix ..))
  generalize hv : w.modCore r.coreRef _ = v at core ⊢
  have loaded : ∀ m : Memory, ∀ p, Sits r s ((if (t.recordLaunch (b.take 4096)).isSome = true then ({ v with mem := m }).matrixData r.coreRef p
      else (({ v with mem := m }).matrixData r.coreRef p).modLaunch x.2.seq fun l => l.setSlice y.lidx.toNat
        ⟨BitVec.ofNat 64 (bytesAt (b.take 4096) 64 8), BitVec.ofNat 64 (bytesAt (b.take 4096) 72 8), BitVec.ofNat 64 (bytesAt (b.take 4096) 80 8)⟩)) := by
    intro m p
    have data : Sits r s (({ v with mem := m } : State).matrixData r.coreRef p) := Sits.matrixData (t := { v with mem := m }) (core.stores rfl rfl) ..
    split
    · exact data
    · exact data.stores rfl rfl
  split
  · split
    · exact Sits.modTask (Sits.foldl (loaded _ _) _ (fun _ a hu => hu.loadCmd old a) _) _ (halted_wake _ _)
    · exact Sits.foldl (loaded _ _) _ (fun _ a hu => hu.loadCmd old a) _
  · exact Sits.foldl (loaded _ _) _ (fun _ a hu => hu.loadCmd old a) _

theorem cur_foldl {α : Type} (step : State → α → State) (each : ∀ t a, (step t a).cur = t.cur) (l : List α) (s : State) :
    (l.foldl step s).cur = s.cur := by
  induction l generalizing s with
  | nil => rfl
  | cons a l ih => exact (ih (step s a)).trans (each s a)

theorem giveAll_cur (r : TaskRef) (s : State) : (s.giveAll r).cur = s.cur := by
  unfold State.giveAll
  refine (cur_foldl _ ?_ _ _).trans (cur_foldl _ ?_ _ s)
  · exact fun u n => by split <;> rfl
  · exact fun u n => by split <;> rfl

theorem freeSlotOf_cur (r : TaskRef) (s : State) : (s.freeSlotOf r).cur = s.cur := by
  unfold State.freeSlotOf
  split
  · rfl
  · next x _ =>
    have given := giveAll_cur r (s.zeroWindow r.coreRef x.wbase x.wsize)
    dsimp only
    generalize (s.zeroWindow r.coreRef x.wbase x.wsize).giveAll r = u at given ⊢
    exact given

theorem Around.freeSlotOf (r : TaskRef) (s : State) : Around r s (s.freeSlotOf r) := by
  refine ⟨freeSlotOf_cur r s, ?_⟩
  cases there : s.task? r with
  | none =>
    unfold State.freeSlotOf
    rw [there]
    exact fun _ _ => rfl
  | some x => exact (freeSlotOf_frees there).2.1

/-- The slot of a halted task emptied for its own record (R286). -/
theorem Around.clearFor (r : TaskRef) (s : State) : Around r s (s.clearFor r) := by
  have dropped : Around r s (s.dropUndispatched r) := by
    unfold State.dropUndispatched
    refine Around.foldl _ ?_ s _
    intro t e
    split
    · exact .tasks (fun _ => rfl) rfl
    · exact .refl r t
  unfold State.clearFor
  dsimp only
  generalize s.dropUndispatched r = u at dropped ⊢
  refine dropped.trans ((Around.modCore _ _ (by rfl)).trans ((Around.modCore _ _ (by rfl)).trans ((Around.freeSlotOf r _).trans
    (Around.foldl _ ?_ _ _))))
  exact fun t e => .modCore _ _ rfl

/-- What loading a record leaves: a task that sits in its slot, halted, or every task as it was (Table 13.4). -/
structure LoadsInto (r : TaskRef) (s : State) (x : State × Nat) : Prop extends Around r s x.1 where
  loaded : x.2 = 0 → (x.1.task? r).isSome = true ∧ (x.1.task r).halted = true
  refused : x.2 ≠ 0 → ∀ q, x.1.task? q = s.task? q

theorem LoadsInto.none (r : TaskRef) (s : State) {n : Nat} (h : n ≠ 0) : LoadsInto r s (s, n) := ⟨.refl r s, fun e => absurd e h, fun _ _ => rfl⟩

theorem LoadsInto.of_worked {r : TaskRef} {s t : State} (h : Worked s t) {n : Nat} (code : n ≠ 0) : LoadsInto r s (t, n) :=
  ⟨.tasks h.task? h.cur, fun e => absurd e code, fun _ => h.task?⟩

theorem LoadsInto.sits {r : TaskRef} {s t : State} (h : Sits r s t) : LoadsInto r s (t, 0) :=
  ⟨h.toAround, fun _ => ⟨h.there, h.halted⟩, fun e => absurd rfl e⟩

theorem loads_badContext (r : TaskRef) (s : State) (die part : Nat) (h : List Byte) : LoadsInto r s (s.badContext die part h) :=
  .of_worked (worked_postFault ..) (by decide)

/-- CTXLD of a record's bytes (R285). -/
theorem loads_loadContext (s : State) (r : TaskRef) (b : List Byte) : LoadsInto r s (s.loadContext r b) := by
  unfold State.loadContext
  dsimp only
  split
  · split
    · exact .none r s (by decide)
    split
    · exact .none r s (by decide)
    split
    · exact .none r s (by decide)
    split
    · exact .sits (Sits.modTask (loadInto_sits (Around.clearFor r s) b _) _ fun _ => rfl)
    · exact loads_badContext ..
  · split
    · exact .sits (loadInto_sits (.refl r s) b _)
    · exact loads_badContext ..

theorem loads_loadRead (s : State) (r : TaskRef) (g : Got) : LoadsInto r s (s.loadRead r g) := by
  unfold State.loadRead
  split
  · exact loads_loadContext ..
  · refine .of_worked (Worked.trans ?_ (worked_postFault ..)) (by decide)
    split
    · exact worked_postFault ..
    · exact .refl _
  · exact .none r s (by decide)

/-! ### CTXLD (R285) -/

end

section
variable {g : Guard} {a b c : BitVec 5} {s : State}

theorem ctxld_target (acts : Acts (.ctxld g a b c) s) : targetOk false false (s.sreg a) = true := by
  obtain ⟨r, ready⟩ := acts.slotOf (m := semCtxld g a b c) rfl
  have passed := sysTrap_none (ready.passes r.guard rfl rfl)
  rw [sreg_opened] at passed
  cases ok : targetOk false false (s.sreg a)
  · rw [ok] at passed
    exact absurd passed (by simp)
  · rfl

theorem reads_contextRead (s : State) (die : Nat) (addr : W64) : Reads die s ((s.contextRead die addr).1.lodgeRest die) := by
  have first := reads_lodgeRead s die addr 4096
  refine Reads.trans ?_ (reads_lodgeRest ..)
  unfold State.contextRead
  dsimp only
  generalize s.lodgeRead die addr 4096 = x at first ⊢
  split
  · split
    · exact first
    · exact first.trans (reads_lodgeRead ..)
  · exact first

/-- What CTXLD leaves before its status: the record read, and loaded where it may be. -/
def ctxLoaded (s : State) (a b : W64) : State × Nat :=
  (((opened s).contextRead s.cur.die b).1.lodgeRest s.cur.die).loadRead (contextTarget s.cur.die a) ((opened s).contextRead s.cur.die b).2

/-- CTXLD reads its record, loads it where it may, and gives the status (R285). -/
theorem ctxld_loads (lodge : isLodge s.cur.core = true) (acts : Acts (.ctxld g a b c) s) :
    let x := ctxLoaded s (s.sreg a) (s.sreg b)
    let r := contextTarget s.cur.die (s.sreg a)
    ∃ t, exec (.ctxld g a b c) s = .next t ∧ OnlyTask x.1 t
      ∧ t.task s.cur = { delivered true (scalarResult 1 c (BitVec.ofNat 64 x.2)) (afterBundle true s.me) with time := (x.1.task s.cur).time }
      ∧ (x.2 = 0 → (t.task? r).isSome = true ∧ (t.task r).halted = true)
      ∧ (x.2 ≠ 0 → ∀ q : TaskRef, CoreRef.key q.coreRef ≠ CoreRef.key s.cur.coreRef → t.task? q = s.task? q) := by
  intro x r
  obtain ⟨run, ready⟩ := acts.slotOf (m := semCtxld g a b c) rfl
  have far : CoreRef.key s.cur.coreRef ≠ CoreRef.key r.coreRef := key_context (ctxld_target acts) (q := s.cur) rfl lodge
  have reads : Reads s.cur.die (opened s) (((opened s).contextRead s.cur.die (s.sreg b)).1.lodgeRest s.cur.die) :=
    reads_contextRead (opened s) s.cur.die (s.sreg b)
  have eff : (semCtxld g a b c).eff (opened s) (opened s) = x.1.push 1 (.scalar c.toNat (BitVec.ofNat 64 x.2)) := by
    simp only [semCtxld, sreg_opened, cur_opened]
    rfl
  have loads : LoadsInto r (((opened s).contextRead s.cur.die (s.sreg b)).1.lodgeRest s.cur.die) x := loads_loadRead ..
  generalize ((opened s).contextRead s.cur.die (s.sreg b)).1.lodgeRest s.cur.die = u at reads loads
  generalize x = x at loads eff ⊢
  obtain ⟨cur, own⟩ := reads.own
  have curX : x.1.cur = s.cur := loads.cur.trans cur
  have same : x.1.task s.cur = u.task s.cur := task_other loads.others (.inl far)
  have ownX : x.1.me = atTime (x.1.task s.cur).time (opened s).me := by
    rw [State.me, curX, same, ← own, State.me, cur]
  obtain ⟨t, next, only, mine⟩ := ready.answers (i := .ctxld g a b c) run rfl rfl rfl rfl lodge curX ownX eff
  have target : t.task? r = x.1.task? r := only.elsewhere (by rw [curX]; exact far.symm)
  refine ⟨t, next, only, mine, fun ok => ?_, fun bad q other => ?_⟩
  · rw [State.task, target]
    exact loads.loaded ok
  · rw [only.elsewhere (by rw [curX]; exact other), loads.refused bad]
    exact reads.elsewhere lodge other

end

end Sys2Proof

namespace Sys2Proof

open Machine

/-! ### GRES (R375, R380) -/

/-- No switch of a gang is under way, as a property that updates keep. -/
def noSwitch : Kept where
  Holds s := s.gang = none
  stored h _ gang _ := gang.trans h
  gangs _ _ h := congrArg (Option.map _) h

/-- No switch of a gang is under way and a job is the active one, as a property that updates keep. -/
def activeJob (job : BitVec 12) : Kept where
  Holds s := s.gang = none ∧ s.jobid = job
  stored := fun ⟨idle, active⟩ _ gang jobid => ⟨gang.trans idle, jobid.trans active⟩
  gangs := fun _ _ ⟨idle, active⟩ => ⟨congrArg (Option.map _) idle, active⟩

section
variable {s u : State} {k : SwitchBlock}

theorem gresRun_none (u : State) : u.gresRun none = (u, 2) := rfl

theorem gresRun_active (h : u.jobid ≠ 0) : u.gresRun (some k) = (u, 1) := if_pos h

theorem gresRun_bad (idle : u.jobid = 0) (h : u.orangery k = none) : u.gresRun (some k) = (u, 2) := by
  unfold State.gresRun
  dsimp only
  rw [if_neg (not_not_intro idle), h]

theorem gresRun_refused {z : List (RecLoc × List Byte) × Nat × Nat} {n : Nat} (idle : u.jobid = 0) (h : u.orangery k = some z)
    (code : u.gresCode k z.1 = some n) : u.gresRun (some k) = (u, gresWord n z.2.1 z.2.2) := by
  unfold State.gresRun
  dsimp only
  rw [if_neg (not_not_intro idle), h]
  dsimp only
  rw [code]

theorem gresRun_restores {z : List (RecLoc × List Byte) × Nat × Nat} (idle : u.jobid = 0) (h : u.orangery k = some z)
    (code : u.gresCode k z.1 = none) :
    u.gresRun (some k) = (u.restoreJob k z.1 z.2.1, gresWord (if z.2.2 = 0 then 0 else 4) z.2.1 z.2.2) := by
  unfold State.gresRun
  dsimp only
  rw [if_neg (not_not_intro idle), h]
  dsimp only
  rw [code]

/-- A restore makes the block's job the active one, and no switch is under way (R375). -/
theorem restoreJob_activates (k : SwitchBlock) (recs : List (RecLoc × List Byte)) (nlate : Nat) (idle : noSwitch.Holds u) :
    (activeJob (BitVec.ofNat 12 k.job)).Holds (u.restoreJob k recs nlate) := by
  let g := u.switched.find? fun g => decide (g.block.job = k.job)
  have entries : noSwitch.Holds (recs.foldl (restoreEntry g) (u, 0)).1 := .foldlFst (fun _ _ ht => .restoreEntry ht) idle
  have items := Kept.Holds.foldl (f := restoreItem k.job) (l := recs) (fun _ _ ht => .restoreItem ht) entries
  have colls : noSwitch.Holds (restoreColls k.job ((g.map Gang.colls).getD []) (recs.filter fun r => decide (r.1.kind = 8)) _) :=
    .restoreColls items
  have late := Kept.Holds.foldl (f := restoreLate k) (l := List.range nlate) (fun _ _ ht => .restoreLate ht) colls
  unfold State.restoreJob
  exact .toOrangery (.foldl (fun _ _ ht => .loseLate ht) ⟨late, rfl⟩)

end

section
variable {g : Guard} {a c : BitVec 5} {s : State}

/-- What GRES leaves before its status (R375). -/
def gresGot (s : State) (a : W64) : State × W64 :=
  let u := ((opened s).readBlock a).1.lodgeRest s.cur.die
  if s.gang.isSome then (u, 5) else u.gresRun ((opened s).blockRead a)

theorem gresGot_running (a : W64) (h : s.gang.isSome = true) :
    gresGot s a = (((opened s).readBlock a).1.lodgeRest s.cur.die, 5) := if_pos h

theorem gresGot_idle (a : W64) (h : s.gang = none) :
    gresGot s a = (((opened s).readBlock a).1.lodgeRest s.cur.die).gresRun ((opened s).blockRead a) := if_neg (by simp [h])

theorem gres_eff : (semGres g a c).eff (opened s) (opened s) =
    (gresGot s (s.sreg a)).1.push 1 (.scalar c.toNat (gresGot s (s.sreg a)).2) := by
  simp only [semGres, sreg_opened, cur_opened]
  rfl

/-- GRES that restores nothing gives its status and changes nothing beside the read (R380). -/
theorem gres_refused (lodge : isLodge s.cur.core = true) (acts : Acts (.gres g a c) s) {n : W64}
    (got : gresGot s (s.sreg a) = (((opened s).readBlock (s.sreg a)).1.lodgeRest s.cur.die, n)) :
    let u := ((opened s).readBlock (s.sreg a)).1.lodgeRest s.cur.die
    ∃ t, exec (.gres g a c) s = .next t ∧ OnlyTask u t
      ∧ (∀ q : TaskRef, CoreRef.key q.coreRef ≠ CoreRef.key s.cur.coreRef → t.task? q = s.task? q)
      ∧ t.task s.cur = { delivered true (scalarResult 1 c n) (afterBundle true s.me) with time := (u.task s.cur).time } := by
  obtain ⟨r, ready⟩ := acts.slotOf (m := semGres g a c) rfl
  have eff := gres_eff (g := g) (a := a) (c := c) (s := s)
  rw [got] at eff
  exact ready.tells (i := .gres g a c) r rfl rfl rfl rfl lodge (reads_readBlock (opened s) _) eff

/-- What a ready slot's effect leaves is kept by the end of its bundle. -/
theorem Ready.keeps {K : Kept} {i : Instr} {m : SlotSem} {s : State} (ready : Ready m s) (r : Runs m.guard s)
    (hx : exec i s = issueSlot m s) (mark : m.mark = false) (funit : m.funit = false)
    (eff : K.Holds (m.eff (opened s) (opened s))) : ∃ t, exec i s = .next t ∧ K.Holds t := by
  refine ⟨issued m s, by rw [hx, issueSlot, issueOne_ready ready], Kept.Holds.advance ?_⟩
  rw [atIssue_opened m s mark, SlotSem.apply, if_pos (acts_opened r.guard), funit]
  exact eff

/-- GRES of a saved job that may be restored: its job is active (R375). -/
theorem gres_restores (acts : Acts (.gres g a c) s) {k : SwitchBlock} (idle : s.gang = none)
    (block : (opened s).blockRead (s.sreg a) = some k) (inactive : s.jobid = 0) {z : List (RecLoc × List Byte) × Nat × Nat}
    (saved : (((opened s).readBlock (s.sreg a)).1.lodgeRest s.cur.die).orangery k = some z)
    (code : (((opened s).readBlock (s.sreg a)).1.lodgeRest s.cur.die).gresCode k z.1 = none) :
    ∃ t, exec (.gres g a c) s = .next t ∧ t.jobid = BitVec.ofNat 12 k.job ∧ t.gang = none := by
  obtain ⟨r, ready⟩ := acts.slotOf (m := semGres g a c) rfl
  have reads : Reads s.cur.die (opened s) (((opened s).readBlock (s.sreg a)).1.lodgeRest s.cur.die) := reads_readBlock (opened s) _
  have run := gresGot_idle (s.sreg a) idle
  rw [block, gresRun_restores (reads.jobid.trans inactive) saved code] at run
  obtain ⟨t, next, done, active⟩ := ready.keeps (K := activeJob (BitVec.ofNat 12 k.job)) (i := .gres g a c) r rfl rfl rfl (by
    rw [gres_eff, run]
    exact .push (restoreJob_activates k _ _ (reads.gang.trans idle)))
  exact ⟨t, next, active, done⟩

end

/-- Settles O51: each slot acts in its own bundle after the ordered read of its record or block; a status alone is a result in
flight, CTXSV and GSW hold the lodge, CTXLD works on its target's slot alone, and the restore of a job keeps that no switch is
under way. -/
theorem contextsAndGangSwitches : Obligations.ContextsAndGangSwitches := by
  unfold Obligations.ContextsAndGangSwitches
  intro g a b c s lodge slot
  dsimp only
  refine ⟨fun acts => ⟨fun n code => ?_, fun code => ?_⟩, fun acts => ?_, fun acts => ?_, fun acts => ?_⟩
  · exact ctxsv_refused lodge acts code
  · exact ctxsv_begins lodge acts code
  · obtain ⟨t, next, only, mine, good, bad⟩ := ctxld_loads lodge acts
    refine ⟨fun (ok : (ctxLoaded s (s.sreg a) (s.sreg b)).2 = 0) => ⟨t, next, only, good ok, ?_⟩,
      fun other => ⟨t, next, only, bad other, mine⟩⟩
    rw [ok] at mine
    exact mine
  · have refused := fun n code => gsw_refused (n := n) lodge acts code
    refine ⟨fun running => refused 5 (if_pos running), fun idle bad => refused 2 ?_, fun k idle block => ⟨fun other => refused 1 ?_, fun job => ?_⟩⟩
    · rw [bad]
      exact if_neg (Option.not_isSome_iff_eq_none.2 idle)
    · rw [block]
      exact (if_neg (Option.not_isSome_iff_eq_none.2 idle)).trans (if_pos other)
    · refine gsw_begins lodge acts block ?_
      rw [block]
      exact (if_neg (Option.not_isSome_iff_eq_none.2 idle)).trans (if_neg (not_not_intro job))
  · have reads : Reads s.cur.die (opened s) (((opened s).readBlock (s.sreg a)).1.lodgeRest s.cur.die) := reads_readBlock (opened s) _
    have refused := fun n got => gres_refused (n := n) lodge acts got
    refine ⟨fun running => refused _ (gresGot_running _ running), fun idle bad => ?_, fun k idle block => ?_⟩
    · exact refused _ ((gresGot_idle _ idle).trans (congrArg _ bad))
    have run := gresGot_idle (s.sreg a) idle
    rw [block] at run
    refine ⟨fun active => ?_, fun inactive bad => ?_, fun inactive z n saved code => ?_, fun inactive z saved code => ?_⟩
    · exact refused _ (run.trans (gresRun_active fun e => active (reads.jobid.symm.trans e)))
    · exact refused _ (run.trans (gresRun_bad (reads.jobid.trans inactive) bad))
    · exact refused _ (run.trans (gresRun_refused (reads.jobid.trans inactive) saved code))
    · exact gres_restores acts idle block inactive saved code

end Sys2Proof
